-- ==== Sys2Proof/Word.lean ====
section
/-! DEFINITION. The word types of the block: a byte, a register word of the command machine, and
sparse byte storage. -/

namespace Sys2Proof

/-- One byte. -/
abbrev Byte := BitVec 8

/-- A 64-bit register of a context, a setting's value, a result word. -/
abbrev Word := BitVec 64

end Sys2Proof
end

