-- ==== Sys2Proof/Syntax.lean ====
section
/-! DEFINITION. The commands of the block: one constructor for each row of the table of operations and
events, with the operands the row needs (an index of what it acts on, and what the surroundings supply). -/

namespace Sys2Proof

/-- The commands, one per row of the table (each docstring names the row's rule). -/
inductive Instr where
  /-- BEAT_TICK (R17): BEAT advances by one; the measured voltages of the bank halves in mV, the input power in mW, whether TWHB_IN showed an edge. -/
  | beatTick (mvA mvB mw : Nat) (hb : Bool)
  /-- CRYSTAL_TICK (R18): one crystal tick in Midnight. -/
  | crystalTick
  /-- PLANNER_BEAT_CYCLE (R31): the planner's cycle at the start of the beat. -/
  | plannerBeatCycle
  /-- HOLD_TIMEOUT (R64): the held entry of ring pair g has been held for BEAT_HOLD_MAX beats. -/
  | holdTimeout (g : Nat)
  /-- FETCH_DATA_RETURN (R88): entry idx of ring g returns: its 64 bytes, its scatter segments in chain order, its program from A2. -/
  | fetchDataReturn (g idx : Nat) (entry : List Byte) (segs : List (List Byte)) (prog : List Byte)
  /-- COALESCE_CHECK (R99): the rule of R99 for ring g at the end of the beat. -/
  | coalesceCheck (g : Nat)
  /-- CONTEXT_DEADLINE (R119): context c is at the start of its deadline beat. -/
  | contextDeadline (c : Nat)
  /-- D7_DEADLINE_EXTEND (R42): the D7 command of context c is not terminal by its internal D. -/
  | d7DeadlineExtend (c : Nat)
  /-- TWIN_ACK_TIMEOUT (R50): no twin acknowledgement by A + 6 for the D1 write of context c. -/
  | twinAckTimeout (c : Nat)
  /-- MAP_LINE_FILL (R200): a fill of a map line completes; whether its CRC holds. -/
  | mapLineFill (line : Nat) (crcOk : Bool)
  /-- LINE_REBUILD (R200): a suspect line is rebuilt. -/
  | lineRebuild (line : Nat)
  /-- ARRAY_STATUS (R314): the status read at the end of a booked occupancy of a die. -/
  | arrayStatus (die : Nat) (ready fail : Bool)
  /-- LATE_OP_RESET (R314): a program or erase still busy at four times its occupancy; whether the die is ready after RESET. -/
  | lateOpReset (die : Nat) (readyAfter : Bool)
  /-- SLOT_DECODE (R241): a decoder finishes a slot: zero bits before descrambling, the ladder step that converged (0: none), its iteration, the CRC check. -/
  | slotDecode (psa : Nat) (zeros : Nat) (step iter : Nat) (crcOk : Bool)
  /-- DEEP_RECOVERY_DONE (R60): deep recovery of a map index ends, delivered or with every step failed. -/
  | deepRecoveryDone (idx : Nat) (ok : Bool)
  /-- GATHER_SLOT_PLACE (R237): a gather slot released to the write stream is placed. -/
  | gatherSlotPlace (slot : Nat)
  /-- VICTIM_EMPTIED (R275): a victim is empty and unpinned. -/
  | victimEmptied (serial : Nat)
  /-- WEAR_LEVEL_CHECK (R278): the wear-levelling gap is computed. -/
  | wearLevelCheck
  /-- PATROL_PASS_START (R280): a patrol pass is due. -/
  | patrolPassStart
  /-- PATROL_WINDOW (R281): a 1,024-beat window begins for patrol. -/
  | patrolWindow
  /-- TCLK_WINDOW (R284): a 1,024-beat window ends for the thermal clock. -/
  | tclkWindow
  /-- CHECKPOINT_START (R214): a checkpoint cycle is due. -/
  | checkpointStart
  /-- CHECKPOINT_END (R214): the last checkpoint slot is verified. -/
  | checkpointEnd
  /-- RECOVERY (R218): Dawn step 5: the PSAs of checkpoint slots, of journal slots and of other slots that do not decode, even through band parity. -/
  | recovery (ckpts journals slots : List Nat)
  /-- ARING_ENABLE (R82): EN = 1 is written to ARING_CTRL. -/
  | aringEnable (fn : Nat)
  /-- ARING_READY (R82): RDY is due for the admin ring of fn. -/
  | aringReady (fn : Nat)
  /-- ARING_RESET (R83): RESET = 1 is written to ARING_CTRL. -/
  | aringReset (fn : Nat)
  /-- ARING_DISABLE (R83): EN = 0 is written to ARING_CTRL. -/
  | aringDisable (fn : Nat)
  /-- REGISTER_WRITE (R355): a host write of so many bytes to BAR0. -/
  | registerWrite (fn offset bytes : Nat) (value : BitVec 64)
  /-- LATCHING_READ (R9): a host read of so many bytes of BAR0. -/
  | latchingRead (fn offset bytes : Nat)
  /-- GEVENT_WRITE (R24): a write to GEVENT; module events and a dark read offset of the same cycle. -/
  | geventWrite (fn : Nat) (value : BitVec 32) (coincident : BitVec 8) (dark : Option (Nat × Bool))
  /-- GEVENT_CFG_WRITE (R23): a write to GEVENT_CFG. -/
  | geventCfgWrite (fn : Nat) (value : BitVec 32)
  /-- DARK_DOMAIN_ACCESS (R443): a BAR0 access to a dark domain. -/
  | darkDomainAccess (fn offset : Nat) (write : Bool)
  /-- SQ_TAIL (R96): a submission doorbell write. -/
  | sqTail (fn loc : Nat) (value : BitVec 32)
  /-- CQ_HEAD (R98): a completion doorbell write. -/
  | cqHead (fn loc : Nat) (value : BitVec 32)
  /-- RSTAT_CLEAR (R97): a write to RSTAT. -/
  | rstatClear (fn loc : Nat) (value : BitVec 32)
  /-- READ (R45): the READ of context c transfers what it read. -/
  | read (c : Nat)
  /-- WRITE (R49): the WRITE of context c takes its host data. -/
  | write (c : Nat) (bytes : List Byte)
  /-- FLUSH (R53): the FLUSH of context c. -/
  | flush (c : Nat)
  /-- TRIM (R53): the TRIM of context c. -/
  | trim (c : Nat)
  /-- ZERO (R53): the ZERO of context c. -/
  | zero (c : Nat)
  /-- COMPARE (R90): the COMPARE of context c against its host data. -/
  | compare (c : Nat) (bytes : List Byte)
  /-- VERIFY (R48): the VERIFY of context c. -/
  | verify (c : Nat)
  /-- LIBRARY_PROGRAM (R91): the TYPE 0x02 entry of context c starts its parison. -/
  | libraryProgram (c : Nat)
  /-- HOST_MEMORY_PROGRAM (R135): the TYPE 0x03 entry of context c starts its program. -/
  | hostMemoryProgram (c : Nat)
  /-- RING_CREATE (R84): the RING_CREATE of context c. -/
  | ringCreate (c : Nat)
  /-- RING_DELETE (R108): the RING_DELETE of context c. -/
  | ringDelete (c : Nat)
  /-- RING_RESET (R110): the RING_RESET of context c. -/
  | ringReset (c : Nat)
  /-- RING_RESET_COMPLETE (R110): every admitted command of resetting ring g is terminal. -/
  | ringResetComplete (g : Nat)
  /-- ABORT (R105): the ABORT of context c. -/
  | abort (c : Nat)
  /-- FUNC_RESET (R111): the FUNC_RESET of context c. -/
  | funcReset (c : Nat)
  /-- MODULE_RESET (R112): the MODULE_RESET of context c. -/
  | moduleReset (c : Nat)
  /-- MODULE_RESET_COMMANDS_ENDED (R112): every command has ended during a module reset. -/
  | moduleResetCommandsEnded
  /-- GET_SETTING (R27): the GET_SETTING of context c. -/
  | getSetting (c : Nat)
  /-- SET_SETTING (R28): the SET_SETTING of context c. -/
  | setSetting (c : Nat)
  /-- NS_CREATE (R190): the NS_CREATE of context c; the random key drawn for it. -/
  | nsCreate (c : Nat) (key : List Byte)
  /-- NS_DELETE (R192): the NS_DELETE of context c. -/
  | nsDelete (c : Nat)
  /-- LIB_LOAD (R133): the LIB_LOAD of context c with its host data. -/
  | libLoad (c : Nat) (bytes : List Byte)
  /-- LIB_UNLOAD (R134): the LIB_UNLOAD of context c. -/
  | libUnload (c : Nat)
  /-- FW_DOWNLOAD (R490): the FW_DOWNLOAD of context c with its block. -/
  | fwDownload (c : Nat) (bytes : List Byte)
  /-- FW_ACTIVATE_LIVE (R496): FW_ACTIVATE action LIVE of context c. -/
  | fwActivateLive (c : Nat)
  /-- FW_ACTIVATE_AT_RESET (R495): FW_ACTIVATE action AT_RESET of context c. -/
  | fwActivateAtReset (c : Nat)
  /-- FW_ACTIVATE_COMMIT (R495): FW_ACTIVATE action COMMIT of context c. -/
  | fwActivateCommit (c : Nat)
  /-- FW_ACTIVATE_ROLLBACK (R495): FW_ACTIVATE action ROLLBACK of context c. -/
  | fwActivateRollback (c : Nat)
  /-- FW_ACTIVATE_DISCARD (R495): FW_ACTIVATE action DISCARD of context c. -/
  | fwActivateDiscard (c : Nat)
  /-- ATTEST (R513): the ATTEST of context c with its nonce. -/
  | attest (c : Nat) (nonce : List Byte)
  /-- KEY_IMPORT (R519): the KEY_IMPORT of context c with its ciphertext. -/
  | keyImport (c : Nat) (bytes : List Byte)
  /-- CRYPTO_ERASE (R517): the CRYPTO_ERASE of context c; the random key drawn for it. -/
  | cryptoErase (c : Nat) (key : List Byte)
  /-- LIFE_CYCLE (R508): the LIFE_CYCLE of context c. -/
  | lifeCycle (c : Nat)
  /-- DAY_ENTER (R433): the DAY_ENTER of context c. -/
  | dayEnter (c : Nat)
  /-- TWIN_DETACH (R388): the TWIN_DETACH of context c. -/
  | twinDetach (c : Nat)
  /-- TWIN_ATTACH (R385): the TWIN_ATTACH of context c. -/
  | twinAttach (c : Nat)
  /-- LOG_READ (R367): the LOG_READ of context c. -/
  | logRead (c : Nat)
  /-- POST (R186): context c executes POST, or its resident parison does. -/
  | post (c : Nat)
  /-- NOP (R122): context c issues NOP. -/
  | nop (c : Nat)
  /-- MOVI (R155): context c issues MOVI. -/
  | movi (c : Nat)
  /-- SHIN (R155): context c issues SHIN. -/
  | shin (c : Nat)
  /-- ALU (R155): context c issues ALU. -/
  | alu (c : Nat)
  /-- ADDI (R155): context c issues ADDI. -/
  | addi (c : Nat)
  /-- ANDI (R155): context c issues ANDI. -/
  | andi (c : Nat)
  /-- ORI (R155): context c issues ORI. -/
  | ori (c : Nat)
  /-- XORI (R155): context c issues XORI. -/
  | xori (c : Nat)
  /-- SHLI (R155): context c issues SHLI. -/
  | shli (c : Nat)
  /-- SHRI (R155): context c issues SHRI. -/
  | shri (c : Nat)
  /-- CMP (R156): context c issues CMP. -/
  | cmp (c : Nat)
  /-- CMPI (R156): context c issues CMPI. -/
  | cmpi (c : Nat)
  /-- BR (R157): context c issues BR. -/
  | br (c : Nat)
  /-- CALL (R158): context c issues CALL. -/
  | call (c : Nat)
  /-- RET (R159): context c issues RET. -/
  | ret (c : Nat)
  /-- LOOP (R157): context c issues LOOP. -/
  | loop (c : Nat)
  /-- LD (R160): context c issues LD. -/
  | ld (c : Nat)
  /-- ST (R160): context c issues ST. -/
  | st (c : Nat)
  /-- BUF_GET (R161): context c issues BUF GET. -/
  | bufGet (c : Nat)
  /-- BUF_PUT (R125): context c issues BUF PUT. -/
  | bufPut (c : Nat)
  /-- BUF_SIZE (R160): context c issues BUF SIZE. -/
  | bufSize (c : Nat)
  /-- HXIN (R162): context c issues HXIN. -/
  | hxin (c : Nat)
  /-- HXOUT (R162): context c issues HXOUT. -/
  | hxout (c : Nat)
  /-- MRD (R165): context c issues MRD. -/
  | mrd (c : Nat)
  /-- MWR (R168): context c issues MWR. -/
  | mwr (c : Nat)
  /-- MTRIM (R169): context c issues MTRIM. -/
  | mtrim (c : Nat)
  /-- MZERO (R169): context c issues MZERO. -/
  | mzero (c : Nat)
  /-- MFLUSH (R170): context c issues MFLUSH. -/
  | mflush (c : Nat)
  /-- MCMP (R171): context c issues MCMP. -/
  | mcmp (c : Nat)
  /-- MCAS (R172): context c issues MCAS. -/
  | mcas (c : Nat)
  /-- SCAN (R175): context c issues SCAN. -/
  | scan (c : Nat)
  /-- DIGEST (R176): context c issues DIGEST. -/
  | digest (c : Nat)
  /-- COPY (R178): context c issues COPY. -/
  | copy (c : Nat)
  /-- CMPB (R178): context c issues CMPB. -/
  | cmpb (c : Nat)
  /-- FENCE (R179): context c issues FENCE. -/
  | fence (c : Nat)
  /-- SET (R180): context c issues SET. -/
  | set (c : Nat)
  /-- GET (R180): context c issues GET. -/
  | get (c : Nat)
  /-- DOZE (R431): context c issues DOZE. -/
  | doze (c : Nat)
  /-- RCALL (R397): context c issues RCALL. -/
  | rcall (c : Nat)
  /-- RAW (R183): context c issues RAW. -/
  | raw (c : Nat)
  /-- TRAP (R159): context c issues TRAP. -/
  | trap (c : Nat)
  /-- WAIT_COMPLETE (R154): what context c waits for is complete: host or device bytes that arrived, a device status. -/
  | waitComplete (c : Nat) (bytes : List Byte) (status : Nat)
  /-- COMMAND_STOP (R548): the committed command of context c reaches its next boundary under a reset. -/
  | commandStop (c : Nat)
  /-- FUNCTION_RESET (R111): a Function Level Reset of fn. -/
  | functionReset (fn : Nat)
  /-- FUNCTION_RESET_COMPLETE (R111): every command of fn has stopped. -/
  | functionResetComplete (fn : Nat)
  /-- PERST_ASSERT (R111): PERSTp_N falls. -/
  | perstAssert (port : Nat)
  /-- PERST_DEASSERT (R350): PERSTp_N rises. -/
  | perstDeassert (port : Nat)
  /-- LINK_UP (R350): a PCIe link completes training. -/
  | linkUp (link rate width : Nat) (flit : Bool)
  /-- LINK_DOWN (R111): a host link goes down. -/
  | linkDown (link : Nat)
  /-- VF_ENABLE (R345): a write of VF Enable and NumVFs. -/
  | vfEnable (link : Nat) (enable : Bool) (numVfs : Nat)
  /-- FUNCTION_RETURN_D0 (R352): a function returns to D0 with Bus Master Enable. -/
  | functionReturnD0 (fn : Nat)
  /-- MSIX_UNMASK (R353): a vector, or the function, is unmasked. -/
  | msixUnmask (fn : Nat) (vec : Option Nat)
  /-- USB4_TUNNEL_UP (R357): the connection manager enables the PCIe tunnel. -/
  | usb4TunnelUp (port mode : Nat)
  /-- USB4_TUNNEL_DOWN (R357): the tunnel goes down. -/
  | usb4TunnelDown (port : Nat)
  /-- ENTER_USB (R358): a USB PD message. -/
  | enterUsb (port : Nat) (message : List Byte)
  /-- BUS_ERROR (R333): a mover engine reports a bus error on a channel. -/
  | busError (engine chan : Nat) (code : Nat)
  /-- ENGINE_RESUME (R333): the start of beat E + 2. -/
  | engineResume (engine : Nat)
  /-- QUARANTINE_DRAINED (R333): every tag of the quarantined pool has ended. -/
  | quarantineDrained (engine : Nat)
  /-- PACE_ASSERT (R336): a pacing source asserts its request. -/
  | paceAssert (source : Nat)
  /-- PACE_WITHDRAW (R337): a pacing source withdraws its request. -/
  | paceWithdraw (source : Nat)
  /-- MCTP_PACKET (R360): a sideband packet. -/
  | mctpPacket (packet : List Byte)
  /-- SET_ENDPOINT_ID (R360): the MCTP control message. -/
  | setEndpointId (op eid : Nat)
  /-- GET_ENDPOINT_ID (R360): the MCTP control message. -/
  | getEndpointId
  /-- GET_MCTP_VERSION_SUPPORT (R360): the MCTP control message. -/
  | getMctpVersionSupport (typ : Nat)
  /-- GET_MESSAGE_TYPE_SUPPORT (R360): the MCTP control message. -/
  | getMessageTypeSupport
  /-- GET_VENDOR_DEFINED_SUPPORT (R360): the MCTP control message. -/
  | getVendorDefinedSupport (sel : Nat)
  /-- HEALTH (R361): the mailbox message. -/
  | health (seq : Nat)
  /-- TEMPS (R361): the mailbox message. -/
  | temps (seq : Nat)
  /-- POWER (R361): the mailbox message. -/
  | power (seq : Nat)
  /-- EVENTS (R362): the mailbox message. -/
  | events (seq : Nat)
  /-- SIDEBAND_ATTEST (R361): the mailbox message. -/
  | sidebandAttest (seq : Nat) (body : List Byte)
  /-- SIDEBAND_ADMIN (R364): the mailbox message. -/
  | sidebandAdmin (seq : Nat) (body : List Byte)
  /-- LOG (R361): the mailbox message. -/
  | log (seq : Nat) (body : List Byte)
  /-- SIDEBAND_RESET (R365): the mailbox message. -/
  | sidebandReset (seq : Nat) (body : List Byte)
  /-- SIDEBAND_WAKE (R365): the mailbox message. -/
  | sidebandWake (seq : Nat)
  /-- ALERT_RESPONSE (R362): a read of the Alert Response Address. -/
  | alertResponse
  /-- OCT_POWER_START (R307): oct k may start power-up. -/
  | octPowerStart (k : Nat)
  /-- OCT_VCC_GOOD (R307): VCC of oct k reaches 95 %. -/
  | octVccGood (k : Nat)
  /-- OCT_VCCQ_GOOD (R307): VCCQ of oct k reaches 95 %. -/
  | octVccqGood (k : Nat)
  /-- OCT_RESET_TIMER (R307): 25 beats after idle. -/
  | octResetTimer (k : Nat)
  /-- LUN_READY (R300): a LUN reports ready with its parameter page figures. -/
  | lunReady (die : Nat) (params : List Nat)
  /-- LUN_READY_TIMEOUT (R307): a LUN is not ready in time. -/
  | lunReadyTimeout (die : Nat)
  /-- RAIL_GOOD_TIMEOUT (R307): a rail of oct k misses its good limit. -/
  | railGoodTimeout (k : Nat)
  /-- TRAINING_DONE (R311): training of a channel ends: the narrowest eye per ladder rate over the targets kept; dies of targets that failed at index 6. -/
  | trainingDone (chan : Nat) (eyes out : List Nat)
  /-- RECENTRE (R312): a re-centre of a channel finds this eye. -/
  | recentre (chan : Nat) (eye : Nat)
  /-- OCT_DRAIN_END (R308): draining of oct k ends. -/
  | octDrainEnd (k : Nat)
  /-- OCT_VCCQ_OFF (R308): VCCQ of oct k falls below 10 %. -/
  | octVccqOff (k : Nat)
  /-- RAIL_TRIP (R308): overcurrent on a rail of oct k. -/
  | railTrip (k : Nat)
  /-- CARRIER_PRESENCE_LOSS (R308): CPRESj_N goes high. -/
  | carrierPresenceLoss (j : Nat)
  /-- OWN_GRANT (R317): OWNk_GNT rises. -/
  | ownGrant (k : Nat)
  /-- GRANT_WAIT_TIMEOUT (R319): no grant within FCH_OWN_WAIT. -/
  | grantWaitTimeout (k : Nat)
  /-- GRANT_LOSS (R320): OWNk_GNT falls while toggling. -/
  | grantLoss (k : Nat)
  /-- LEASE_RETRY (R320): 250,000 beats after a grant loss. -/
  | leaseRetry (k : Nat)
  /-- FCH_OCT_POWER (R308): a SET of FCH_OCT_POWER by context c takes effect. -/
  | fchOctPower (c : Nat)
  /-- FCH_OCT_FAULT (R309): a SET of FCH_OCT_FAULT by context c takes effect. -/
  | fchOctFault (c : Nat)
  /-- PUNTY_LINK_DOWN (R376): the punty link goes down or retrains. -/
  | puntyLinkDown
  /-- PUNTY_LINK_UP (R376): the punty link trains. -/
  | puntyLinkUp (lanes : Nat)
  /-- TWIN_PEER_REMOVED (R378): TWPEER_N goes high. -/
  | twinPeerRemoved
  /-- TWIN_HB_MISS (R378): TWIN_HB_MISS beats without heartbeat or frames. -/
  | twinHbMiss
  /-- TAKEOVER_CARE (R386): step 5 of a takeover; the block records read from the twin's set, by die x 8,192 + block. -/
  | takeoverCare (blocks : List (Nat × List Byte))
  /-- COLD_SCAN_DONE (R386): the full scan of the twin's side completes; PSA and metadata bytes of each slot read, the journal records read. -/
  | coldScanDone (found : List (Nat × List Byte)) (records : List (List Byte))
  /-- TWIN_RETRY (R386): TWIN_RETRY beats have passed. -/
  | twinRetry
  /-- AUTO_ATTACH (R385): both twins have seen each other long enough. -/
  | autoAttach
  /-- TWIN_DAWN_WAIT (R390): the wait of R390 ends, the twin seen or not. -/
  | twinDawnWait (seen : Bool)
  /-- HB (R379): a received HB frame. -/
  | hb (pseq seq armed : Nat)
  /-- GATHER (R381): a received GATHER frame. -/
  | gather (pseq : Nat) (group : Option Nat) (mslot nsid gran seq : Nat) (tag : BitVec 64) (bytes : List Byte)
  /-- JREC (R381): a received JREC frame. -/
  | jrec (pseq : Nat) (recs : List (List Byte))
  /-- PUNTY_ACK (R382): a received ACK frame. -/
  | puntyAck (pseq : Nat)
  /-- ACOMMIT (R381): a received ACOMMIT frame. -/
  | acommit (pseq group : Nat) (seqs : List Nat)
  /-- ADISCARD (R381): a received ADISCARD frame. -/
  | adiscard (pseq group : Nat)
  /-- SYNC (R385): a received SYNC frame. -/
  | sync (pseq line : Nat) (entries : List (BitVec 40))
  /-- NSTAB (R385): a received NSTAB frame. -/
  | nstab (pseq : Nat) (rows : List (List Byte))
  /-- CTRL_ATTACH (R385): a received CTRL ATTACH; the twin's TWIN_OCT_SPLIT, firmware version, epochs of side A and side B. -/
  | ctrlAttach (pseq : Nat) (body : List Nat)
  /-- CTRL_DETACH (R388): a received CTRL DETACH. -/
  | ctrlDetach (pseq : Nat)
  /-- CTRL_GRANTED (R385): a received CTRL GRANTED; what CTRL_ATTACH tells. -/
  | ctrlGranted (pseq : Nat) (body : List Nat)
  /-- CTRL_REFUSED (R385): a received CTRL REFUSED. -/
  | ctrlRefused (pseq : Nat)
  /-- CTRL_RELEASED (R388): a received CTRL RELEASED. -/
  | ctrlReleased (pseq : Nat)
  /-- CTRL_READY (R385): a received CTRL READY. -/
  | ctrlReady (pseq : Nat)
  /-- CTRL_LL_DONE (R384): a received CTRL LL_DONE. -/
  | ctrlLlDone (pseq : Nat)
  /-- CTRL_COVERING (R388): a received CTRL COVERING. -/
  | ctrlCovering (pseq : Nat)
  /-- ANCHOR (R383): a received ANCHOR frame. -/
  | anchor (pseq : Nat) (body : List Byte)
  /-- KEYX (R521): a received KEYX frame with its body. -/
  | keyx (pseq : Nat) (body : List Byte)
  /-- CERT (R520): a received CERT frame. -/
  | cert (pseq : Nat) (cert : List Byte)
  /-- CANE_LINK_CHANGE (R393): a Cane port changes state. -/
  | caneLinkChange (port st : Nat)
  /-- NEIGHBOR_SOLICITATION (R393): a Neighbor Solicitation on a port: the target and source addresses. -/
  | neighborSolicitation (port : Nat) (target src : List Byte)
  /-- ECHO_REQUEST (R393): an Echo Request on a port: its addresses, and the message from its identifier on. -/
  | echoRequest (port : Nat) (src dst body : List Byte)
  /-- KX1 (R396): a complete KX1 message of a peer node. -/
  | kx1 (node : Nat) (body : List Byte)
  /-- KX2 (R396): a complete KX2 message of a peer node. -/
  | kx2 (node : Nat) (body : List Byte)
  /-- KX3 (R396): a complete KX3 message of a peer node. -/
  | kx3 (node : Nat) (body : List Byte)
  /-- REQ (R398): a complete REQ message, its last frame's FCOUNT, whether the tags verify. -/
  | req (sid fcount : Nat) (tagOk : Bool) (msgId hops : Nat) (body : List Byte)
  /-- REP (R397): a complete REP message. -/
  | rep (sid fcount : Nat) (tagOk : Bool) (msgId : Nat) (body : List Byte)
  /-- CANE_ACK (R394): a received ACK frame: MSGID, bytes received contiguously. -/
  | caneAck (sid fcount : Nat) (tagOk : Bool) (msgId seg : Nat)
  /-- CREDIT (R394): a received CREDIT frame. -/
  | credit (sid fcount : Nat) (tagOk : Bool) (bytes : Nat)
  /-- KEEPALIVE (R394): a received KEEPALIVE frame. -/
  | keepalive (sid fcount : Nat) (tagOk : Bool)
  /-- CLOSE (R394): a received CLOSE frame. -/
  | close (sid fcount : Nat) (tagOk : Bool)
  /-- REPL (R399): a complete REPL message for a namespace of this module: the source's granule size and capacity, the SEQ it brings the replica to, whether it is of the baseline, one atom group, the last before a cutover; operations as LBA, count, data (none: unmap). -/
  | repl (sid fcount : Nat) (tagOk : Bool) (msgId nsid : Nat) (g16k : Bool) (cap seq : Nat) (base atom cut : Bool) (ops : List (Nat × Nat × List Byte))
  /-- REPL_ACK (R399): a received REPL_ACK frame, with what the replica says of its granule size and capacity. -/
  | replAck (sid fcount : Nat) (tagOk : Bool) (g16k : Bool) (cap : Nat) (body : List Byte)
  /-- CANE_RTO (R394): CANE_RTO beats without an acknowledgement. -/
  | caneRto (sid msgId : Nat)
  /-- CANE_GIVEUP (R397): CANE_GIVEUP beats without an acknowledgement. -/
  | caneGiveup (sid msgId : Nat)
  /-- CANE_REKEY (R396): a session is due a rekey. -/
  | caneRekey (sid : Nat)
  /-- CANE_REPL (R399): a SET of CANE_REPL_n by context c takes effect. -/
  | caneRepl (c : Nat)
  /-- FEED_GOOD (R404): feed f rises above 35.0 V. -/
  | feedGood (f : Nat) (mv : Int)
  /-- FEED_CONDUCT (R407): feed f has been good for 100 ms. -/
  | feedConduct (f : Nat)
  /-- FEED_DROP (R405): feed f fails, locks out or trips. -/
  | feedDrop (f : Nat) (mv : Int) (breaker : Bool)
  /-- LOSS_DECLARED (R406): both feeds below 33.0 V for 50 us. -/
  | lossDeclared
  /-- LAST_LIGHT_FLUSHED (R419): the flush is verified. -/
  | lastLightFlushed
  /-- AON_POWER_LOSS (R20): the always-on domain loses power. -/
  | aonPowerLoss
  /-- PWR_TEST_START (R415): a discharge test of half h starts. -/
  | pwrTestStart (h : Nat)
  /-- PWR_TEST_SINK_END (R415): the sink is removed; what was measured. -/
  | pwrTestSinkEnd (capUf esr : Nat) (moved : Bool)
  /-- PWR_TEST_DONE (R415): the recharge ends. -/
  | pwrTestDone
  /-- PWR_TEST_NOW (R415): a SET of PWR_TEST_NOW by context c takes effect. -/
  | pwrTestNow (c : Nat)
  /-- SEAL (R432): the first beat in which every other admitted command has posted. -/
  | nightSeal
  /-- NIGHT_ENTRY_STEP (R436): the next step of the Night entry. -/
  | nightEntryStep
  /-- MIDNIGHT_ENTRY_STEP (R437): the next step of the Midnight entry. -/
  | midnightEntryStep
  /-- DUSK_IDLE (R426): DAY_DUSK_IDLE idle beats in Dusk. -/
  | duskIdle (link : Nat)
  /-- WAKE_N_LOW (R438): WAKE_N low for 1 ms. -/
  | wakeNLow
  /-- DAY_WAKE_AT (R438): BEAT reaches DAY_WAKE_AT. -/
  | dayWakeAt
  /-- WAKE_FROM_NIGHT (R439): the wake from Night: macros that fail the content-preserving check, failing rows (macro, row) of their destructive run, macros that fail the rerun. -/
  | wakeFromNight (bad : List Nat) (failing : List (Nat × Nat)) (rerun : List Nat)
  /-- DAWN_REGULATORS (R440): REG_READY. -/
  | dawnRegulators
  /-- DAWN_OSCILLATORS (R440): the PLL locks; the checks of the active and previous images' PHY and boot components. -/
  | dawnOscillators (imageOk prevOk : Bool)
  /-- DAWN_COOL (R441): the cooling check of R441. -/
  | dawnCool
  /-- DAWN_MEMORIES (R440): the eight DRAM channel results; failing SRAM rows (macro, row); macros that fail the rerun. -/
  | dawnMemories (dramOk : List Bool) (failing : List (Nat × Nat)) (rerun : List Nat)
  /-- DAWN_LOGIC (R440): step 4; the check of the remaining components; random bytes for a new system key. -/
  | dawnLogic (imageOk : Bool) (random : List Byte)
  /-- DAWN_STEP_TIMEOUT (R440): a Dawn ready signal misses its latest beat. -/
  | dawnStepTimeout
  /-- SENSOR_SAMPLE (R445): the sensor readings in 1/16 degree; whether each raw code moved. -/
  | sensorSample (readings : List Int) (changed : List Bool)
  /-- CARRIER_ZONE_RETURN (R452): a zone has cooled and 250,000 beats have passed for oct k. -/
  | carrierZoneReturn (k : Nat)
  /-- HOT_STOP_FLUSHED (R453): the hot-stop flush is settled. -/
  | hotStopFlushed
  /-- THERM_REARM (R446): a SET of THERM_REARM by context c takes effect. -/
  | thermRearm (c : Nat)
  /-- SCRUB (R460): the scrubber corrected so many words of a unit of a bank. -/
  | scrub (bank unit words : Nat)
  /-- SRAM_UNCORRECTABLE (R459): an uncorrectable word. -/
  | sramUncorrectable (bank unit : Nat)
  /-- MEM_TEST_REQ (R464): a SET of MEM_TEST_REQ by context c takes effect. -/
  | memTestReq (c : Nat)
  /-- MEM_TEST_DONE (R464): the requested test ends with these failing rows (macro, row); macros that fail the rerun. -/
  | memTestDone (failing : List (Nat × Nat)) (rerun : List Nat)
  /-- NOR_PROGRAM_DONE (R484): a boot-flash program completes and reads back. -/
  | norProgramDone (ok : Bool)
  /-- NOR_ERASE_DONE (R486): a sector erase completes. -/
  | norEraseDone (ok : Bool)
  /-- FW_PRELOAD_DONE (R492): the staged live components are in code pages. -/
  | fwPreloadDone
  /-- FW_SWITCH_BEAT (R496): the first beat after BOOTCTL is durable. -/
  | fwSwitchBeat
  /-- SERVITOR_RESTART (R496): Servitor n restarts onto the new code. -/
  | servitorRestart (n : Nat)
  /-- WATCHDOG_EXPIRY (R500): the watchdog of Servitor n expires. -/
  | watchdogExpiry (n : Nat)
  /-- TAMPER_DETECT (R523): a tamper cause. -/
  | tamperDetect (cause : Nat)
  /-- TAMPER_RESTART (R523): 250,000 beats after tamper with no cause. -/
  | tamperRestart
  /-- SEC_SYSKEY_ROTATE (R514): a SET of SEC_SYSKEY_ROTATE by context c; the random key. -/
  | secSyskeyRotate (c : Nat) (key : List Byte)
  /-- SEC_CERT_COMMIT (R512): a SET of SEC_CERT_COMMIT by context c takes effect. -/
  | secCertCommit (c : Nat)
  /-- SEC_LOCK (R506): a SET of SEC_LOCK by context c takes effect. -/
  | secLock (c : Nat)
  /-- SEC_FW_KEY_REVOKE (R503): a SET of SEC_FW_KEY_REVOKE by context c takes effect. -/
  | secFwKeyRevoke (c : Nat)
  /-- SEC_CA_REVOKE (R503): a SET of SEC_CA_REVOKE by context c takes effect. -/
  | secCaRevoke (c : Nat)
  /-- KEY_SCRUB (R516): a sector with a destroyed key record is scrubbed. -/
  | keyScrub (sector : Nat)
  /-- FUNCTION_D3HOT (R352): a function enters D3hot or loses Bus Master Enable. -/
  | functionD3hot (fn : Nat) (d3 : Bool)
  /-- OVERVOLTAGE_LOCKOUT_RELEASE (R404): feed f falls below 76.0 V. -/
  | overvoltageLockoutRelease (f : Nat) (mv : Int)
  /-- CANE_DEDUP_EXPIRY (R398): CANE_DEDUP_BEATS after the REP. -/
  | caneDedupExpiry (sid msgId : Nat)
  /-- OLD_SESSION_KEYS_EXPIRY (R396): 250,000 beats after a rekey. -/
  | oldSessionKeysExpiry (sid : Nat)
  deriving DecidableEq, Repr

end Sys2Proof
end

