-- ==== Sys2Proof/Decode.lean ====
section
/-! DEFINITION. Decoding: the table gives its rows no bits, so no word spells a command; and the fields
and the legality of a ZCI instruction word (R150, R151), which the verifier and the issue of an
instruction read. -/

namespace Sys2Proof

/-- The command a word spells by the table's bits: the table gives bits to no row. -/
def decodeTableWord (_nbits _w : Nat) : Option Instr := none

/-! ### Fields of a ZCI word (R150) -/

/-- Bits [hi:lo] of a word. -/
def zbits (w : BitVec 32) (hi lo : Nat) : Nat := w.toNat / 2 ^ lo % 2 ^ (hi + 1 - lo)

/-- Opcode. -/
def zOp (w : BitVec 32) : Nat := zbits w 31 26
/-- Field d. -/
def zD (w : BitVec 32) : Nat := zbits w 25 22
/-- Field a. -/
def zA (w : BitVec 32) : Nat := zbits w 21 18
/-- Field b. -/
def zB (w : BitVec 32) : Nat := zbits w 17 14
/-- Field fn of an R word. -/
def zFn (w : BitVec 32) : Nat := zbits w 13 3
/-- Field imm15 of an I word. -/
def zImm (w : BitVec 32) : Nat := zbits w 17 3
/-- Field off23 of a J word. -/
def zOff (w : BitVec 32) : Nat := zbits w 25 3
/-- Field h of an M word. -/
def zH (w : BitVec 32) : Nat := zbits w 13 11
/-- Field fl of an M word. -/
def zFl (w : BitVec 32) : Nat := zbits w 10 3
/-- The guard. -/
def zG (w : BitVec 32) : Nat := zbits w 2 0

/-- A field of n bits, sign-extended. -/
def sext (n v : Nat) : Int := if v < 2 ^ (n - 1) then v else (v : Int) - 2 ^ n

/-- imm15 sign-extended to 64 bits. -/
def zImmS (w : BitVec 32) : BitVec 64 := BitVec.ofInt 64 (sext 15 (zImm w))

/-- Whether an opcode is defined (05, Opcode map). -/
def zDefined (op : Nat) : Bool :=
  [0x01, 0x02, 0x04, 0x05, 0x08, 0x09, 0x0A, 0x0B, 0x0C, 0x0D, 0x0E, 0x10, 0x11, 0x14, 0x15, 0x16, 0x17, 0x18,
   0x19, 0x1C].contains op ||
  [0x20, 0x21, 0x24, 0x25, 0x26, 0x27, 0x28, 0x29, 0x2A, 0x2C, 0x2D, 0x2E, 0x2F, 0x31, 0x34, 0x35, 0x36, 0x38,
   0x3A, 0x3C].contains op

/-- Whether the reserved fields of a word are zero and its fn, fl, imm15 and predicate values are
defined (R151, check 5 of R139). -/
def zReservedOk (w : BitVec 32) : Bool :=
  let fl := zFl w
  match zOp w with
  | 0x01 => zD w == 0 && decide (zFn w ≤ 0x00B)
  | 0x02 => zOff w == 0
  | 0x04 => zA w == 0
  | 0x08 => decide (zFn w ≤ 0x00D)
  | 0x0D => decide (zImm w < 64)
  | 0x0E => decide (zImm w < 64)
  | 0x10 => decide (zD w < 4) && decide (zFn w ≤ 0x005)
  | 0x15 => zD w == 0 && zA w == 0 && decide (zImm w < 4096)
  | 0x16 => zOff w == 0
  | 0x17 => zA w == 0
  | 0x18 => decide (fl < 8)
  | 0x19 => decide (fl < 4)
  | 0x1C =>
    zB w == 0 &&
    (if fl = 0 then decide (zD w < 4) else if fl = 1 then zD w == 0 && zA w == 0 else fl == 2 && zA w == 0)
  | 0x20 => fl == 0
  | 0x21 => fl == 0
  | 0x24 => decide (fl < 8)
  | 0x25 => decide (fl < 8) && decide (fl % 4 = 0)
  | 0x26 => zD w == 0 && zH w == 0 && fl == 0
  | 0x27 => zD w == 0 && zH w == 0 && fl == 0
  | 0x28 => zD w == 0 && zA w == 0 && zB w == 0 && zH w == 0 && fl == 0
  | 0x29 => decide (fl < 4)
  | 0x2A => decide (fl < 8)
  | 0x2C => decide (fl < 64)
  | 0x2D => decide (fl < 64) && (decide (fl % 2 = 1) || fl == 0)
  | 0x2E => decide (fl < 16) && (decide (fl < 8) || zH w == 0)
  | 0x2F => decide (fl < 32)
  | 0x31 => zD w == 0 && zA w == 0 && decide (zImm w < 4)
  | 0x34 => decide (zFn w < 4)
  | 0x35 => decide (zFn w < 4)
  | 0x36 => zA w == 0 && zB w == 0 && zFn w == 0
  | 0x38 => zD w == 0 && decide (fl < 4)
  | 0x3A => zD w == 0 && fl == 0
  | 0x3C => zOff w == 0
  | _ => true

/-- Whether an opcode is one of the eight media instructions, which do not count against the
instruction budget (R137). -/
def zMedia (op : Nat) : Bool := [0x24, 0x25, 0x26, 0x27, 0x28, 0x29, 0x2A, 0x3A].contains op

/-- Whether an opcode is side-effecting (R145). -/
def zSide (op : Nat) : Bool := [0x01, 0x20, 0x21, 0x25, 0x26, 0x27, 0x2A, 0x34, 0x36, 0x38, 0x3A].contains op

/-- Whether an opcode needs admin privilege (R129). -/
def zAdmin (op : Nat) : Bool := [0x34, 0x35, 0x36, 0x3A].contains op

end Sys2Proof
end

