-- ==== Sys2Proof/Config.lean ====
section
/-! DEFINITION. What a part fixes and what the spec leaves open: per-part constants, the
schemes named by reference, and the free values. Every constant here has no body, so nothing can be
proved of its value. -/

namespace Sys2Proof.Config

/-- The free value: the n-th value drawn where the spec gives none (log entry 3). -/
opaque freeValue : Nat → BitVec 64

/-- ID_SERIAL (R30, per module). -/
opaque serial : BitVec 64

/-- Whether the part is of grade -X, not -N (per part). -/
opaque gradeX : Bool

/-- ID_STEP.GRADE: 0x4E for -N, 0x58 for -X (R21). -/
def grade : BitVec 8 := if gradeX then 0x58 else 0x4E

/-- ID_STEP.BUILD (per module). -/
opaque build : BitVec 8

/-- The stepping of the die, less one (per die). -/
opaque steppingNo : BitVec 8

/-- ID_STEP.STEPPING, which counts from 0x01 (R21). -/
def stepping : BitVec 8 := if steppingNo = 0 then 1 else steppingNo

/-- CANE_MAC_0 and CANE_MAC_1 (per module). -/
opaque mac : Bool → BitVec 48

/-- BEAT_ENERGY_STATIC, measured at Dawn (R65, R75), in microjoules. -/
opaque energyStatic : Nat → BitVec 16

/-- The controller's own energy for an operation beside the carrier's: 0 a sense, 1 a program, 2 an erase, 3 a transfer
(R65), in the units of the profile. -/
opaque opEnergy : Nat → BitVec 16

/-- The die's SECRET fuses (R503). -/
opaque secret : List Byte

/-- The key derivation the spec names: key, label, context, length. -/
opaque kdf : List Byte → List Byte → List Byte → Nat → List Byte

/-- ML-DSA signature check: public key, message, signature. -/
opaque sigOk : List Byte → List Byte → List Byte → Bool

/-- ML-DSA signature of a message by the private key derived from a seed. -/
opaque sign : List Byte → List Byte → List Byte

/-- ML-DSA-44 public key of the private key derived from a seed (R505). -/
opaque idPublic : List Byte → List Byte

/-- What SETMAP of a firmware version makes of a stored setting's value under its schema: setting, value; none where
the schema drops it (R498). -/
opaque setmap : BitVec 32 → Nat → BitVec 64 → Option (BitVec 64)

/-- ML-KEM-768 key pair from a seed: the encapsulation key. -/
opaque kemPublic : List Byte → List Byte

/-- ML-KEM-768 encapsulation to a public key with randomness: ciphertext and shared secret. -/
opaque kemEncap : List Byte → List Byte → List Byte × List Byte

/-- ML-KEM-768 decapsulation with the private key of a seed; none for a malformed ciphertext. -/
opaque kemDecap : List Byte → List Byte → Option (List Byte)

/-- The bytes of a REPL message: the namespace, granule size, capacity, SEQ and flags it tells, then the operations
as LBA, count and data. The spec states no layout (R394, R399). -/
opaque replMessage : List Nat → List (Nat × Nat × List Byte) → List Byte

/-- The vendor code of the firmware image's library slots 0-255: declaration and words, per version
and slot; none where the image leaves the slot empty (R488). -/
opaque vendorSlot : BitVec 32 → Nat → Option (List Byte × List (BitVec 32))

end Sys2Proof.Config
end

