-- ==== Sys2Proof/Machine/Settings.lean ====
section
/-! DEFINITION. The settings space (R26 to R30 and the settings table of each chapter): one row per
setting or array of settings, with its significant bits, access, reset value and stated range. -/

namespace Sys2Proof.Machine

/-- Access codes (00_scope.md, Access codes). -/
inductive Acc where
  | rw | ro | wo | rwl | w1c
  deriving DecidableEq, Repr

/-- One row: the first index of the subsystem it covers, how many indices, its significant bits, access,
NV, reset value and range. A row whose value the state holds or computes has reset 0 here. -/
structure Setting where
  base : Nat
  count : Nat
  width : Nat
  acc : Acc
  nv : Bool
  reset : Nat
  lo : Nat
  hi : Nat
  name : String
  deriving DecidableEq, Repr

/-- Subsystem 0x01. -/
def settings01 : List Setting :=
  [
    ⟨0x0, 1, 24, .ro, false, 7, 0, 16777215, "MOD_LAST_INDEX"⟩,
    ⟨0x1, 1, 56, .ro, false, 0, 0, 72057594037927935, "MOD_PART"⟩,
    ⟨0x2, 1, 64, .ro, false, 0, 0, 18446744073709551615, "MOD_SERIAL"⟩,
    ⟨0x3, 1, 64, .ro, false, 274877906944, 0, 18446744073709551615, "MOD_DRAM_BYTES"⟩,
    ⟨0x4, 1, 12, .ro, false, 0, 0, 4095, "MOD_DIES"⟩,
    ⟨0x5, 1, 16, .ro, false, 0, 0, 65535, "MOD_OCTS"⟩,
    ⟨0x6, 1, 64, .rw, true, 0, 0, 18446744073709551615, "MOD_ASSET_TAG"⟩,
    ⟨0x7, 1, 64, .ro, false, 134217728, 0, 18446744073709551615, "MOD_SRAM_BYTES"⟩]

/-- Subsystem 0x02. -/
def settings02 : List Setting :=
  [
    ⟨0x0, 1, 24, .ro, false, 399, 0, 16777215, "BEAT_LAST_INDEX"⟩,
    ⟨0x1, 1, 48, .ro, false, 0, 0, 281474976710655, "BEAT_NOW"⟩,
    ⟨0x2, 1, 8, .rw, true, 32, 16, 64, "BEAT_CARE_SHARE"⟩,
    ⟨0x3, 1, 8, .rw, true, 32, 16, 96, "BEAT_RA_HOLD"⟩,
    ⟨0x4, 1, 8, .rw, true, 128, 16, 192, "BEAT_FAR_SHARE"⟩,
    ⟨0x5, 1, 16, .rw, true, 4, 1, 4096, "BEAT_QUANTUM"⟩,
    ⟨0x6, 1, 24, .rw, true, 16384, 16, 16777215, "BEAT_DEFICIT_CAP"⟩,
    ⟨0x7, 1, 24, .rw, true, 25000, 1, 1000000, "BEAT_HOLD_MAX"⟩,
    ⟨0x8, 1, 3, .rw, true, 2, 1, 4, "BEAT_SUSPEND_READS"⟩,
    ⟨0x9, 1, 16, .ro, false, 2240, 0, 65535, "BEAT_ENERGY_MAX"⟩,
    ⟨0xA, 1, 16, .ro, false, 0, 0, 65535, "BEAT_ENERGY_STATIC"⟩,
    ⟨0xB, 1, 64, .ro, false, 0, 0, 18446744073709551615, "BEAT_ADMITTED"⟩] ++ [
    ⟨0xC, 1, 64, .ro, false, 0, 0, 18446744073709551615, "BEAT_REFUSED"⟩,
    ⟨0xD, 1, 64, .ro, false, 0, 0, 18446744073709551615, "BEAT_SUSPENDS"⟩,
    ⟨0xE, 1, 64, .ro, false, 0, 0, 18446744073709551615, "BEAT_READAROUNDS"⟩,
    ⟨0xF, 1, 64, .ro, false, 0, 0, 18446744073709551615, "BEAT_DEEP_PENDING"⟩,
    ⟨0x10, 384, 16, .rw, true, 0, 0, 65535, "BEAT_FN_CAP"⟩]

/-- Subsystem 0x03. -/
def settings03 : List Setting :=
  [
    ⟨0x0, 1, 24, .ro, false, 4496, 0, 16777215, "ZCI_LAST_INDEX"⟩,
    ⟨0x1, 1, 17, .ro, false, 65536, 0, 131071, "ZCI_CTX_FREE"⟩,
    ⟨0x2, 1, 17, .ro, false, 0, 0, 131071, "ZCI_CTX_PEAK"⟩,
    ⟨0x3, 1, 64, .ro, false, 0, 0, 18446744073709551615, "ZCI_FAULTS"⟩,
    ⟨0x4, 1, 64, .ro, false, 0, 0, 18446744073709551615, "ZCI_VERIFY_FAILS"⟩,
    ⟨0x5, 1, 37, .ro, false, 68719476736, 0, 137438953471, "ZCI_SLAB_FREE"⟩,
    ⟨0x6, 1, 19, .ro, false, 0, 0, 524287, "ZCI_CODE_PAGES_FREE"⟩,
    ⟨0x7, 8, 32, .ro, false, 0, 0, 4294967295, "ZCI_BUDGET_D"⟩,
    ⟨0xF, 1, 32, .ro, false, 16384, 0, 4294967295, "ZCI_BUDGET_D4_MIB"⟩,
    ⟨0x10, 1, 64, .ro, false, 0, 0, 18446744073709551615, "ZCI_LAST_FAULT"⟩,
    ⟨0x11, 4096, 48, .ro, false, 0, 0, 281474976710655, "ZCI_LIB_INFO"⟩,
    ⟨0x1011, 384, 1, .rw, true, 1, 0, 1, "ZCI_HOSTPROG"⟩]

/-- Subsystem 0x04. -/
def settings04 : List Setting :=
  [
    ⟨0x0, 1, 24, .ro, false, 3460, 0, 16777215, "RING_LAST_INDEX"⟩,
    ⟨0x1, 1, 11, .ro, false, 1018, 0, 2047, "RING_FREE"⟩,
    ⟨0x2, 1, 64, .ro, false, 0, 0, 18446744073709551615, "RING_DB_ERRORS"⟩,
    ⟨0x3, 1, 64, .ro, false, 0, 0, 18446744073709551615, "RING_ABORTS_DONE"⟩,
    ⟨0x4, 1, 64, .ro, false, 0, 0, 18446744073709551615, "RING_RESETS"⟩,
    ⟨0x5, 384, 11, .rw, true, 0, 0, 2047, "RING_FN_LIMIT"⟩,
    ⟨0x185, 1024, 37, .ro, false, 0, 0, 137438953471, "RING_INFO"⟩,
    ⟨0x585, 1024, 16, .rw, false, 0, 0, 65535, "RING_SCHED"⟩,
    ⟨0x985, 1024, 35, .rw, false, 0, 0, 34359738367, "RING_COAL"⟩]

/-- Subsystem 0x05. -/
def settings05 : List Setting :=
  [
    ⟨0x0, 1, 24, .ro, false, 4113, 0, 16777215, "XLAT_LAST_INDEX"⟩,
    ⟨0x1, 1, 32, .ro, false, 0, 0, 4294967295, "XLAT_MAP_LINES_FREE"⟩,
    ⟨0x2, 1, 32, .ro, false, 0, 0, 4294967295, "XLAT_MAP_LARGEST_FREE"⟩,
    ⟨0x3, 1, 64, .ro, false, 0, 0, 18446744073709551615, "XLAT_PHYS_LIMIT"⟩,
    ⟨0x4, 1, 64, .ro, false, 0, 0, 18446744073709551615, "XLAT_NS_BYTES"⟩,
    ⟨0x5, 1, 12, .ro, false, 0, 0, 4095, "XLAT_NS_COUNT"⟩,
    ⟨0x6, 1, 64, .ro, false, 0, 0, 18446744073709551615, "XLAT_CACHE_HITS"⟩,
    ⟨0x7, 1, 64, .ro, false, 0, 0, 18446744073709551615, "XLAT_CACHE_MISSES"⟩,
    ⟨0x8, 1, 64, .ro, false, 0, 0, 18446744073709551615, "XLAT_LINE_CRC_ERRORS"⟩,
    ⟨0x9, 1, 7, .rw, true, 1, 1, 64, "XLAT_CKPT_SLOTS_PER_BEAT"⟩,
    ⟨0xA, 1, 32, .rw, true, 900000000, 15000000, 4000000000, "XLAT_CKPT_PERIOD"⟩,
    ⟨0xB, 1, 32, .rw, true, 2097152, 262144, 4194304, "XLAT_CKPT_JOURNAL_TRIGGER"⟩] ++ [
    ⟨0xC, 1, 32, .ro, false, 0, 0, 4294967295, "XLAT_CKPT_GEN"⟩,
    ⟨0xD, 1, 1, .ro, false, 0, 0, 1, "XLAT_CKPT_STATE"⟩,
    ⟨0xE, 1, 48, .ro, false, 0, 0, 281474976710655, "XLAT_JPOS"⟩,
    ⟨0xF, 1, 64, .ro, false, 0, 0, 18446744073709551615, "XLAT_SEQ"⟩,
    ⟨0x10, 1, 14, .rw, true, 1024, 64, 8192, "XLAT_INIT_LINES_PER_BEAT"⟩,
    ⟨0x11, 1, 64, .ro, false, 0, 0, 18446744073709551615, "XLAT_LAST_RECOVERY"⟩,
    ⟨0x12, 1, 1, .rw, true, 0, 0, 1, "XLAT_FORCE_SCAN"⟩,
    ⟨0x13, 4095, 38, .ro, false, 0, 0, 274877906943, "XLAT_NS_INFO"⟩]

/-- Subsystem 0x06. -/
def settings06 : List Setting :=
  [
    ⟨0x0, 1, 24, .ro, false, 4114, 0, 16777215, "MEDIA_LAST_INDEX"⟩,
    ⟨0x1, 1, 64, .ro, false, 0, 0, 18446744073709551615, "MEDIA_HARD_DECODES"⟩,
    ⟨0x2, 1, 64, .ro, false, 0, 0, 18446744073709551615, "MEDIA_HARD_FAILS"⟩,
    ⟨0x3, 1, 64, .ro, false, 0, 0, 18446744073709551615, "MEDIA_MISCORRECTS"⟩,
    ⟨0x4, 1, 64, .ro, false, 0, 0, 18446744073709551615, "MEDIA_MISDIRECTS"⟩,
    ⟨0x5, 1, 64, .ro, false, 0, 0, 18446744073709551615, "MEDIA_SOFT_DECODES"⟩,
    ⟨0x6, 1, 64, .ro, false, 0, 0, 18446744073709551615, "MEDIA_SOFT_FAILS"⟩,
    ⟨0x7, 1, 64, .ro, false, 0, 0, 18446744073709551615, "MEDIA_REBUILT_SLOTS"⟩,
    ⟨0x8, 1, 9, .rw, true, 64, 0, 256, "MEDIA_ERASED_ZEROS"⟩,
    ⟨0x9, 1, 3, .rw, true, 4, 0, 7, "MEDIA_RETRY_STEPS"⟩,
    ⟨0xA, 1, 5, .ro, false, 0, 0, 31, "MEDIA_OPEN_BANDS"⟩,
    ⟨0xB, 1, 5, .ro, false, 0, 0, 31, "MEDIA_SYS_WIDTH"⟩] ++ [
    ⟨0xC, 1, 10, .rw, true, 705, 0, 1023, "MEDIA_PROFILE_0"⟩,
    ⟨0xD, 1, 10, .rw, true, 833, 0, 1023, "MEDIA_PROFILE_1"⟩,
    ⟨0xE, 1, 10, .rw, true, 834, 0, 1023, "MEDIA_PROFILE_2"⟩,
    ⟨0xF, 1, 10, .ro, false, 672, 0, 1023, "MEDIA_PROFILE_3"⟩,
    ⟨0x10, 4, 10, .rw, true, 0, 0, 1023, "MEDIA_PROFILE"⟩,
    ⟨0x14, 4095, 3, .rw, true, 0, 0, 7, "MEDIA_NS_PROFILE"⟩]

/-- Subsystem 0x07. -/
def settings07 : List Setting :=
  [
    ⟨0x0, 1, 24, .ro, false, 72, 0, 16777215, "CARE_LAST_INDEX"⟩,
    ⟨0x1, 1, 3, .ro, false, 0, 0, 7, "CARE_WEAR_STAGE"⟩,
    ⟨0x2, 1, 64, .ro, false, 0, 0, 18446744073709551615, "CARE_SPARE"⟩,
    ⟨0x3, 1, 25, .ro, false, 0, 0, 33554431, "CARE_GOOD_BLOCKS"⟩,
    ⟨0x4, 1, 25, .ro, false, 0, 0, 33554431, "CARE_SYS_BLOCKS"⟩,
    ⟨0x5, 1, 25, .ro, false, 0, 0, 33554431, "CARE_NEED_BLOCKS"⟩,
    ⟨0x6, 1, 25, .ro, false, 0, 0, 33554431, "CARE_FREE_BLOCKS"⟩,
    ⟨0x7, 1, 25, .ro, false, 0, 0, 33554431, "CARE_DIRTY_BLOCKS"⟩,
    ⟨0x8, 1, 25, .ro, true, 0, 0, 33554431, "CARE_RETIRED"⟩,
    ⟨0x9, 1, 25, .ro, true, 0, 0, 33554431, "CARE_EARLY_RETIRED"⟩,
    ⟨0xA, 1, 8, .rwl, true, 18, 8, 64, "CARE_OP"⟩,
    ⟨0xB, 1, 24, .rw, true, 65536, 0, 4194304, "CARE_FREE_HIGH"⟩] ++ [
    ⟨0xC, 1, 24, .rw, true, 16384, 0, 16777215, "CARE_FREE_LOW"⟩,
    ⟨0xD, 1, 24, .rw, true, 4096, 1024, 16777215, "CARE_FREE_MIN"⟩,
    ⟨0xE, 1, 16, .rw, true, 200, 20, 10000, "CARE_WL_START"⟩,
    ⟨0xF, 1, 16, .rw, true, 100, 0, 9999, "CARE_WL_STOP"⟩,
    ⟨0x10, 1, 8, .rw, true, 8, 2, 64, "CARE_WL_EVERY"⟩,
    ⟨0x11, 1, 5, .rw, true, 7, 1, 30, "CARE_PATROL_DAYS"⟩,
    ⟨0x12, 1, 7, .rw, true, 16, 4, 64, "CARE_PATROL_PAGES"⟩,
    ⟨0x13, 1, 4, .rw, true, 9, 2, 12, "CARE_ITER_REFRESH"⟩,
    ⟨0x14, 1, 3, .rw, true, 2, 2, 5, "CARE_DEPTH_REFRESH"⟩,
    ⟨0x15, 1, 3, .rw, true, 4, 3, 5, "CARE_RETIRE_DEPTH"⟩,
    ⟨0x16, 1, 32, .rw, true, 0, 1000, 4294967295, "CARE_RD_CHECK"⟩,
    ⟨0x17, 1, 32, .rw, true, 0, 0, 4294967295, "CARE_RD_LIMIT"⟩] ++ [
    ⟨0x18, 1, 12, .rw, true, 0, 7, 3650, "CARE_RETENTION_DAYS"⟩,
    ⟨0x19, 1, 5, .rw, true, 9, 5, 20, "CARE_AGE_DOUBLE_C"⟩,
    ⟨0x1A, 1, 7, .rw, true, 70, 0, 95, "CARE_MIDNIGHT_TEMP_C"⟩,
    ⟨0x1B, 1, 32, .rw, true, 15000000, 250000, 4000000000, "CARE_DARK_REBUILD_BEATS"⟩,
    ⟨0x1C, 1, 32, .ro, false, 0, 0, 4294967295, "CARE_PE_RATED"⟩,
    ⟨0x1D, 1, 32, .rw, true, 0, 0, 4294967295, "CARE_PE_HARD_LIMIT"⟩,
    ⟨0x1E, 1, 16, .rw, true, 655, 0, 65535, "CARE_DEEP_WARN"⟩,
    ⟨0x1F, 1, 16, .rw, true, 64, 0, 65535, "CARE_RETIRE_WARN"⟩,
    ⟨0x20, 1, 64, .ro, false, 0, 0, 18446744073709551615, "CARE_TCLK"⟩,
    ⟨0x21, 1, 32, .ro, false, 0, 0, 4294967295, "CARE_PE_MEAN"⟩,
    ⟨0x22, 1, 32, .ro, false, 0, 0, 4294967295, "CARE_PE_MAX"⟩,
    ⟨0x23, 1, 25, .ro, false, 0, 0, 33554431, "CARE_PAST_RATED"⟩] ++ [
    ⟨0x24, 1, 1, .ro, false, 0, 0, 1, "CARE_PE_ESTIMATED"⟩,
    ⟨0x25, 1, 1, .ro, false, 0, 0, 1, "CARE_WORN_NS"⟩,
    ⟨0x26, 1, 32, .ro, false, 0, 0, 4294967295, "CARE_PATROL_PASS"⟩,
    ⟨0x27, 1, 48, .ro, false, 0, 0, 281474976710655, "CARE_PATROL_LAG"⟩,
    ⟨0x28, 1, 64, .ro, false, 0, 0, 18446744073709551615, "CARE_HOST_SLOTS"⟩,
    ⟨0x29, 1, 64, .ro, false, 0, 0, 18446744073709551615, "CARE_RELOCATED"⟩,
    ⟨0x2A, 1, 64, .ro, false, 0, 0, 18446744073709551615, "CARE_ERASES"⟩,
    ⟨0x2B, 1, 64, .ro, false, 0, 0, 18446744073709551615, "CARE_PROGRAM_FAILS"⟩,
    ⟨0x2C, 1, 64, .ro, false, 0, 0, 18446744073709551615, "CARE_ERASE_FAILS"⟩,
    ⟨0x2D, 1, 64, .ro, false, 0, 0, 18446744073709551615, "CARE_PATROL_READS"⟩,
    ⟨0x2E, 1, 64, .ro, false, 0, 0, 18446744073709551615, "CARE_REFRESH_PATROL"⟩,
    ⟨0x2F, 1, 64, .ro, false, 0, 0, 18446744073709551615, "CARE_REFRESH_DISTURB"⟩] ++ [
    ⟨0x30, 1, 64, .ro, false, 0, 0, 18446744073709551615, "CARE_REFRESH_AGE"⟩,
    ⟨0x31, 6, 64, .ro, false, 0, 0, 18446744073709551615, "CARE_DEPTH_HIST"⟩,
    ⟨0x37, 1, 24, .rw, false, 0, 0, 16777215, "CARE_BLOCK_SEL"⟩,
    ⟨0x38, 4, 64, .ro, false, 0, 0, 18446744073709551615, "CARE_BLOCK_REC"⟩,
    ⟨0x3C, 1, 22, .rw, false, 0, 0, 4194303, "CARE_BAND_SEL"⟩,
    ⟨0x3D, 12, 64, .ro, false, 0, 0, 18446744073709551615, "CARE_BAND_REC"⟩]

/-- Subsystem 0x08. -/
def settings08 : List Setting :=
  [
    ⟨0x0, 1, 24, .ro, false, 399, 0, 16777215, "FCH_LAST_INDEX"⟩,
    ⟨0x1, 1, 16, .rw, true, 65535, 0, 65535, "FCH_OCT_POWER"⟩,
    ⟨0x2, 1, 32, .ro, false, 0, 0, 4294967295, "FCH_OCT_STATE"⟩,
    ⟨0x3, 1, 16, .w1c, false, 0, 0, 65535, "FCH_OCT_FAULT"⟩,
    ⟨0x4, 1, 16, .rw, true, 0, 0, 65535, "FCH_OWN_MODE"⟩,
    ⟨0x5, 1, 16, .ro, false, 0, 0, 65535, "FCH_OWN_HELD"⟩,
    ⟨0x6, 1, 32, .rw, true, 0, 0, 4294967295, "FCH_OCT_PROFILE"⟩,
    ⟨0x7, 1, 6, .rw, true, 19, 8, 40, "FCH_EYE_MIN"⟩,
    ⟨0x8, 1, 32, .rw, true, 250000, 25000, 25000000, "FCH_RECENTRE_BEATS"⟩,
    ⟨0x9, 1, 5, .rw, true, 8, 2, 20, "FCH_RECENTRE_DELTA_C"⟩,
    ⟨0xA, 1, 3, .rw, true, 0, 0, 6, "FCH_MAX_RATE"⟩,
    ⟨0xB, 1, 8, .rw, true, 255, 0, 255, "FCH_DIODE_EN"⟩] ++ [
    ⟨0xC, 1, 16, .rw, true, 2500, 25, 65535, "FCH_OWN_WAIT"⟩,
    ⟨0xD, 1, 64, .ro, false, 0, 0, 18446744073709551615, "FCH_TRAIN_FAILS"⟩,
    ⟨0xE, 1, 64, .ro, false, 0, 0, 18446744073709551615, "FCH_GRANT_LOSSES"⟩,
    ⟨0xF, 1, 64, .ro, false, 0, 0, 18446744073709551615, "FCH_LATE_OPS"⟩,
    ⟨0x10, 128, 30, .ro, false, 0, 0, 1073741823, "FCH_CH_INFO"⟩,
    ⟨0x90, 256, 64, .rw, true, 0, 0, 18446744073709551615, "FCH_PROF"⟩]

/-- Subsystem 0x09. -/
def settings09 : List Setting :=
  [
    ⟨0x0, 1, 24, .ro, false, 13, 0, 16777215, "DMV_LAST_INDEX"⟩,
    ⟨0x1, 1, 17, .rw, true, 4096, 256, 65536, "DMV_BURST_BYTES"⟩,
    ⟨0x2, 1, 1, .rw, true, 1, 0, 1, "DMV_RO_EN"⟩,
    ⟨0x3, 1, 8, .ro, false, 0, 0, 255, "DMV_ENGINE_STATE"⟩,
    ⟨0x4, 1, 64, .ro, false, 0, 0, 18446744073709551615, "DMV_BUS_ERRORS"⟩,
    ⟨0x5, 1, 64, .ro, false, 0, 0, 18446744073709551615, "DMV_AFFECTED"⟩,
    ⟨0x6, 1, 64, .ro, false, 0, 0, 18446744073709551615, "DMV_PACE_WITHDRAWN"⟩,
    ⟨0x7, 1, 64, .ro, false, 0, 0, 18446744073709551615, "DMV_BYTES_TO_HOST"⟩,
    ⟨0x8, 1, 64, .ro, false, 0, 0, 18446744073709551615, "DMV_BYTES_FROM_HOST"⟩,
    ⟨0x9, 1, 64, .ro, false, 0, 0, 18446744073709551615, "DMV_INTERNAL_BYTES"⟩,
    ⟨0xA, 4, 64, .ro, false, 0, 0, 18446744073709551615, "DMV_LAST_ERROR"⟩]

/-- Subsystem 0x0A. -/
def settings0A : List Setting :=
  [
    ⟨0x0, 1, 24, .ro, false, 24, 0, 16777215, "HOST_LAST_INDEX"⟩,
    ⟨0x1, 1, 2, .rw, true, 0, 0, 3, "HOST_PORT_MODE"⟩,
    ⟨0x2, 1, 2, .rw, true, 0, 0, 3, "HOST_CLK_MODE"⟩,
    ⟨0x3, 1, 6, .rw, true, 0, 0, 63, "HOST_MAX_RATE"⟩,
    ⟨0x4, 1, 2, .rw, true, 3, 0, 3, "HOST_USB_EN"⟩,
    ⟨0x5, 1, 12, .rw, true, 64, 1, 2048, "HOST_VF_VECTORS"⟩,
    ⟨0x6, 1, 36, .rw, true, 68719476735, 0, 68719476735, "HOST_TOTAL_VFS"⟩,
    ⟨0x7, 1, 7, .ro, false, 0, 0, 127, "HOST_SMB_ADDR"⟩,
    ⟨0x8, 1, 8, .ro, false, 0, 0, 255, "HOST_MCTP_EID"⟩,
    ⟨0x9, 1, 1, .rwl, true, 1, 0, 1, "HOST_SB_ADMIN_EN"⟩,
    ⟨0xA, 1, 1, .rwl, true, 1, 0, 1, "HOST_SB_RESET_EN"⟩,
    ⟨0xB, 1, 64, .ro, false, 0, 0, 18446744073709551615, "HOST_SB_MESSAGES"⟩] ++ [
    ⟨0xC, 1, 64, .ro, false, 0, 0, 18446744073709551615, "HOST_SB_ERRORS"⟩,
    ⟨0xD, 6, 19, .ro, false, 0, 0, 524287, "HOST_LINK_INFO"⟩,
    ⟨0x13, 6, 64, .ro, false, 0, 0, 18446744073709551615, "HOST_LINK_DOWNS"⟩]

/-- Subsystem 0x0B. -/
def settings0B : List Setting :=
  [
    ⟨0x0, 1, 24, .ro, false, 4111, 0, 16777215, "TWIN_LAST_INDEX"⟩,
    ⟨0x1, 1, 3, .ro, false, 0, 0, 7, "TWIN_STATE"⟩,
    ⟨0x2, 1, 1, .ro, false, 0, 0, 1, "TWIN_SIDE"⟩,
    ⟨0x3, 1, 16, .rw, true, 43690, 0, 65535, "TWIN_OCT_SPLIT"⟩,
    ⟨0x4, 1, 1, .rw, true, 1, 0, 1, "TWIN_SIDED"⟩,
    ⟨0x5, 1, 1, .rw, true, 1, 0, 1, "TWIN_AUTO_ATTACH"⟩,
    ⟨0x6, 1, 15, .rw, true, 250, 25, 25000, "TWIN_HB_MISS"⟩,
    ⟨0x7, 1, 32, .rw, true, 250000, 2500, 250000000, "TWIN_RETRY"⟩,
    ⟨0x8, 1, 32, .rw, true, 250000, 2500, 25000000, "TWIN_DAWN_WAIT"⟩,
    ⟨0x9, 1, 31, .ro, false, 0, 0, 2147483647, "TWIN_AREA_BYTES"⟩,
    ⟨0xA, 1, 13, .rw, true, 4096, 256, 6144, "TWIN_SYNC_LINES_PER_BEAT"⟩,
    ⟨0xB, 1, 32, .ro, true, 0, 0, 4294967295, "TWIN_SIDE_EPOCH_A"⟩] ++ [
    ⟨0xC, 1, 32, .ro, true, 0, 0, 4294967295, "TWIN_SIDE_EPOCH_B"⟩,
    ⟨0xD, 1, 1, .ro, false, 0, 0, 1, "TWIN_COPY_STALE"⟩,
    ⟨0xE, 1, 36, .ro, false, 0, 0, 68719476735, "TWIN_LINK"⟩,
    ⟨0xF, 1, 64, .ro, false, 0, 0, 18446744073709551615, "TWIN_TAKEOVERS"⟩,
    ⟨0x10, 1, 64, .ro, false, 0, 0, 18446744073709551615, "TWIN_LAST_TAKEOVER"⟩,
    ⟨0x11, 4095, 2, .ro, true, 0, 0, 3, "TWIN_NS_SIDE"⟩]

/-- Subsystem 0x0C. -/
def settings0C : List Setting :=
  [
    ⟨0x0, 1, 24, .ro, false, 8218, 0, 16777215, "CANE_LAST_INDEX"⟩,
    ⟨0x1, 1, 1, .rw, true, 0, 0, 1, "CANE_EN"⟩,
    ⟨0x2, 1, 14, .rw, true, 0, 0, 16383, "CANE_NODE_ID"⟩,
    ⟨0x3, 1, 64, .rw, true, 0, 0, 18446744073709551615, "CANE_DOMAIN_ID"⟩,
    ⟨0x4, 1, 16, .rw, true, 49374, 1024, 65535, "CANE_UDP_PORT"⟩,
    ⟨0x5, 1, 64, .rw, true, 0, 0, 18446744073709551615, "CANE_PREFIX_0"⟩,
    ⟨0x6, 1, 64, .rw, true, 0, 0, 18446744073709551615, "CANE_PREFIX_1"⟩,
    ⟨0x7, 1, 64, .rw, true, 0, 0, 18446744073709551615, "CANE_IID_BASE"⟩,
    ⟨0x8, 1, 48, .ro, false, 0, 0, 281474976710655, "CANE_MAC_0"⟩,
    ⟨0x9, 1, 48, .ro, false, 0, 0, 281474976710655, "CANE_MAC_1"⟩,
    ⟨0xA, 1, 13, .rw, true, 0, 0, 8191, "CANE_VLAN_0"⟩,
    ⟨0xB, 1, 13, .rw, true, 0, 0, 8191, "CANE_VLAN_1"⟩] ++ [
    ⟨0xC, 1, 4, .ro, false, 0, 0, 15, "CANE_LINK_STATE"⟩,
    ⟨0xD, 1, 11, .ro, false, 0, 0, 2047, "CANE_SESSIONS"⟩,
    ⟨0xE, 1, 11, .rw, true, 1024, 1, 1024, "CANE_SESSION_MAX"⟩,
    ⟨0xF, 1, 16, .rw, true, 25, 5, 25000, "CANE_RTO"⟩,
    ⟨0x10, 1, 32, .rw, true, 2500, 250, 25000000, "CANE_GIVEUP"⟩,
    ⟨0x11, 1, 32, .rw, true, 2500000, 250000, 250000000, "CANE_DEDUP_BEATS"⟩,
    ⟨0x12, 1, 32, .rw, true, 900000000, 15000000, 4000000000, "CANE_REKEY_BEATS"⟩,
    ⟨0x13, 1, 8, .rw, true, 16, 1, 255, "CANE_WEIGHT"⟩,
    ⟨0x14, 1, 8, .rw, true, 64, 1, 255, "CANE_FETCH"⟩,
    ⟨0x15, 1, 13, .rw, true, 4096, 16, 4096, "CANE_QUEUE_DEPTH"⟩,
    ⟨0x16, 1, 3, .rw, true, 4, 1, 7, "CANE_HOPS_MAX"⟩,
    ⟨0x17, 1, 32, .rw, true, 65536, 1024, 262144, "CANE_REPL_BACKLOG"⟩] ++ [
    ⟨0x18, 1, 64, .ro, false, 0, 0, 18446744073709551615, "CANE_AUTH_FAILS"⟩,
    ⟨0x19, 1, 64, .ro, false, 0, 0, 18446744073709551615, "CANE_REPLAY_DROPS"⟩,
    ⟨0x1A, 1, 64, .ro, false, 0, 0, 18446744073709551615, "CANE_FRAMES_TX"⟩,
    ⟨0x1B, 1, 64, .ro, false, 0, 0, 18446744073709551615, "CANE_FRAMES_RX"⟩,
    ⟨0x1C, 1, 64, .ro, false, 0, 0, 18446744073709551615, "CANE_RETRANSMITS"⟩,
    ⟨0x1D, 4095, 34, .rw, true, 0, 0, 17179869183, "CANE_REPL"⟩,
    ⟨0x101C, 4095, 56, .ro, false, 0, 0, 72057594037927935, "CANE_REPL_STATE"⟩]

/-- Subsystem 0x0D. -/
def settings0D : List Setting :=
  [
    ⟨0x0, 1, 24, .ro, false, 27, 0, 16777215, "PWR_LAST_INDEX"⟩,
    ⟨0x1, 1, 17, .ro, false, 0, 0, 131071, "PWR_FEED_A_MV"⟩,
    ⟨0x2, 1, 17, .ro, false, 0, 0, 131071, "PWR_FEED_B_MV"⟩,
    ⟨0x3, 1, 8, .ro, false, 0, 0, 255, "PWR_FEED_STATE"⟩,
    ⟨0x4, 1, 20, .ro, false, 0, 0, 1048575, "PWR_INPUT_MW"⟩,
    ⟨0x5, 1, 17, .ro, false, 0, 0, 131071, "PWR_BANK_MV"⟩,
    ⟨0x6, 1, 17, .rw, true, 72000, 60000, 72000, "PWR_BANK_TARGET_MV"⟩,
    ⟨0x7, 1, 6, .rw, true, 40, 10, 60, "PWR_CHARGE_W"⟩,
    ⟨0x8, 1, 12, .ro, false, 0, 0, 4095, "PWR_BANK_TEMP"⟩,
    ⟨0x9, 1, 13, .ro, true, 0, 0, 8191, "PWR_CAP_A_UF"⟩,
    ⟨0xA, 1, 13, .ro, true, 0, 0, 8191, "PWR_CAP_B_UF"⟩,
    ⟨0xB, 1, 12, .ro, true, 0, 0, 4095, "PWR_ESR_A"⟩] ++ [
    ⟨0xC, 1, 12, .ro, true, 0, 0, 4095, "PWR_ESR_B"⟩,
    ⟨0xD, 1, 13, .rw, true, 2640, 1650, 3300, "PWR_CAP_MIN_UF"⟩,
    ⟨0xE, 1, 12, .rw, true, 600, 100, 2000, "PWR_ESR_MAX"⟩,
    ⟨0xF, 1, 32, .rw, true, 21600000, 2160000, 648000000, "PWR_TEST_PERIOD"⟩,
    ⟨0x10, 1, 1, .wo, false, 0, 0, 1, "PWR_TEST_NOW"⟩,
    ⟨0x11, 1, 5, .ro, false, 0, 0, 31, "PWR_TEST_STATE"⟩,
    ⟨0x12, 1, 15, .ro, false, 0, 0, 32767, "PWR_E_USABLE_MJ"⟩,
    ⟨0x13, 1, 5, .ro, false, 0, 0, 31, "PWR_ARM_OCTS"⟩,
    ⟨0x14, 1, 32, .ro, false, 0, 0, 4294967295, "PWR_ARMED_BYTES"⟩,
    ⟨0x15, 1, 32, .rw, true, 2147483648, 0, 2147483648, "PWR_ARM_LIMIT"⟩,
    ⟨0x16, 1, 22, .ro, false, 2097152, 0, 4194303, "PWR_JOURNAL_LIMIT"⟩,
    ⟨0x17, 1, 1, .ro, false, 1, 0, 1, "PWR_JOURNAL_THROUGH"⟩] ++ [
    ⟨0x18, 1, 6, .rw, true, 40, 32, 63, "PWR_LL_RESERVE"⟩,
    ⟨0x19, 1, 32, .ro, true, 0, 0, 4294967295, "PWR_LL_COUNT"⟩,
    ⟨0x1A, 1, 64, .ro, true, 0, 0, 18446744073709551615, "PWR_LL_LAST"⟩,
    ⟨0x1B, 1, 64, .ro, false, 0, 0, 18446744073709551615, "PWR_FEED_DROPS"⟩]

/-- Subsystem 0x0E. -/
def settings0E : List Setting :=
  [
    ⟨0x0, 1, 24, .ro, false, 20, 0, 16777215, "DAY_LAST_INDEX"⟩,
    ⟨0x1, 1, 3, .rw, false, 0, 0, 3, "DAY_TARGET"⟩,
    ⟨0x2, 1, 3, .ro, false, 7, 0, 7, "DAY_PENDING"⟩,
    ⟨0x3, 1, 5, .rw, true, 31, 0, 31, "DAY_WAKE_SRC"⟩,
    ⟨0x4, 1, 48, .rw, false, 0, 0, 281474976710655, "DAY_WAKE_AT"⟩,
    ⟨0x5, 1, 64, .ro, false, 0, 0, 18446744073709551615, "DAY_LAST_WAKE"⟩,
    ⟨0x6, 1, 16, .rw, true, 25, 5, 65535, "DAY_DUSK_IDLE"⟩,
    ⟨0x7, 1, 32, .ro, false, 0, 0, 4294967295, "DAY_DOMAINS"⟩,
    ⟨0x8, 1, 64, .ro, false, 0, 0, 18446744073709551615, "DAY_DARK_ACCESSES"⟩,
    ⟨0x9, 1, 64, .ro, false, 0, 0, 18446744073709551615, "DAY_DARK_FAULTS"⟩,
    ⟨0xA, 5, 64, .ro, false, 0, 0, 18446744073709551615, "DAY_RES"⟩,
    ⟨0xF, 5, 32, .ro, false, 0, 0, 4294967295, "DAY_ENTRIES"⟩] ++ [
    ⟨0x14, 1, 32, .ro, false, 0, 0, 4294967295, "DAY_SUPERSEDED"⟩]

/-- Subsystem 0x0F. -/
def settings0F : List Setting :=
  [
    ⟨0x0, 1, 24, .ro, false, 31, 0, 16777215, "THERM_LAST_INDEX"⟩,
    ⟨0x1, 1, 4, .ro, false, 0, 0, 15, "THERM_STEP"⟩,
    ⟨0x2, 1, 4, .rw, true, 0, 0, 15, "THERM_STEP_MIN"⟩,
    ⟨0x3, 1, 28, .ro, false, 0, 0, 268435455, "THERM_BROKEN"⟩,
    ⟨0x4, 1, 28, .wo, false, 0, 0, 268435455, "THERM_REARM"⟩,
    ⟨0x5, 1, 8, .rw, true, 0, 0, 255, "THERM_WW_LOW"⟩,
    ⟨0x6, 1, 8, .rw, true, 70, 0, 255, "THERM_WW_HIGH"⟩,
    ⟨0x7, 1, 16, .ro, false, 0, 0, 65535, "THERM_CARRIER_T"⟩,
    ⟨0x8, 1, 24, .rw, true, 7563615, 0, 16777215, "THERM_LIMITS_DIE"⟩,
    ⟨0x9, 1, 24, .rw, true, 6576720, 0, 16777215, "THERM_LIMITS_MODULE"⟩,
    ⟨0xA, 1, 24, .rw, true, 5920075, 0, 16777215, "THERM_LIMITS_CARRIER"⟩,
    ⟨0xB, 1, 64, .ro, false, 0, 0, 18446744073709551615, "THERM_ALARMS"⟩] ++ [
    ⟨0xC, 1, 32, .ro, true, 0, 0, 4294967295, "THERM_HOT_STOPS"⟩,
    ⟨0xD, 1, 32, .rw, true, 1048576, 65536, 268435456, "THERM_STUCK_BEATS"⟩,
    ⟨0xE, 18, 24, .ro, false, 0, 0, 16777215, "THERM_ZONE"⟩]

/-- Subsystem 0x10. -/
def settings10 : List Setting :=
  [
    ⟨0x0, 1, 24, .ro, false, 149, 0, 16777215, "MEM_LAST_INDEX"⟩,
    ⟨0x1, 1, 1, .rw, true, 1, 0, 1, "MEM_DAWN_ALG"⟩,
    ⟨0x2, 1, 1, .rw, true, 0, 0, 1, "MEM_DAWN_BKG"⟩,
    ⟨0x3, 1, 19, .wo, false, 0, 0, 524287, "MEM_TEST_REQ"⟩,
    ⟨0x4, 1, 18, .ro, false, 0, 0, 262143, "MEM_TEST_STATE"⟩,
    ⟨0x5, 1, 32, .rw, true, 250000, 25000, 250000000, "MEM_SCRUB_BEATS"⟩,
    ⟨0x6, 1, 1, .rw, true, 0, 0, 1, "MEM_NIGHT_CHECK"⟩,
    ⟨0x7, 1, 1, .rwl, true, 1, 0, 1, "MEM_FUSE_AUTO"⟩,
    ⟨0x8, 1, 9, .ro, false, 0, 0, 511, "MEM_FUSE_FREE"⟩,
    ⟨0x9, 1, 64, .ro, false, 0, 0, 18446744073709551615, "MEM_CE_TOTAL"⟩,
    ⟨0xA, 1, 64, .ro, false, 0, 0, 18446744073709551615, "MEM_UE_TOTAL"⟩,
    ⟨0xB, 11, 58, .ro, false, 0, 0, 288230376151711743, "MEM_BANK_INFO"⟩] ++ [
    ⟨0x16, 128, 16, .ro, false, 0, 0, 65535, "MEM_CHBUF_INFO"⟩]

/-- Subsystem 0x11. -/
def settings11 : List Setting :=
  [
    ⟨0x0, 1, 24, .ro, false, 26, 0, 16777215, "FW_LAST_INDEX"⟩,
    ⟨0x1, 1, 1, .ro, false, 0, 0, 1, "FW_ACTIVE_BANK"⟩,
    ⟨0x2, 1, 32, .ro, false, 0, 0, 4294967295, "FW_ACTIVE_VERSION"⟩,
    ⟨0x3, 1, 32, .ro, false, 0, 0, 4294967295, "FW_ACTIVE_SVN"⟩,
    ⟨0x4, 1, 32, .rw, true, 0, 0, 4294967295, "FW_SVN_MIN"⟩,
    ⟨0x5, 1, 4, .ro, false, 0, 0, 15, "FW_STAGE_STATE"⟩,
    ⟨0x6, 1, 32, .ro, false, 0, 0, 4294967295, "FW_STAGE_VERSION"⟩,
    ⟨0x7, 1, 26, .ro, false, 0, 0, 67108863, "FW_DL_NEXT"⟩,
    ⟨0x8, 1, 2, .ro, false, 0, 0, 3, "FW_DL_TRIES"⟩,
    ⟨0x9, 1, 4, .ro, false, 0, 0, 15, "FW_TRIAL"⟩,
    ⟨0xA, 1, 2, .rw, true, 2, 1, 3, "FW_TRIAL_MAX"⟩,
    ⟨0xB, 1, 8, .ro, false, 0, 0, 255, "FW_KEY_STATE"⟩] ++ [
    ⟨0xC, 1, 16, .ro, false, 0, 0, 65535, "FW_SCHEMA"⟩,
    ⟨0xD, 1, 1, .rw, true, 1, 0, 1, "FW_NOR_CLK"⟩,
    ⟨0xE, 1, 4, .ro, false, 0, 0, 15, "FW_NOR_WS"⟩,
    ⟨0xF, 1, 2, .rw, true, 0, 0, 3, "FW_NOR_WS_EXTRA"⟩,
    ⟨0x10, 1, 32, .rw, true, 2500, 250, 250000, "FW_WDT_BEATS"⟩,
    ⟨0x11, 1, 64, .ro, false, 0, 0, 18446744073709551615, "FW_WDT_EXPIRIES"⟩,
    ⟨0x12, 1, 64, .ro, false, 0, 0, 18446744073709551615, "FW_BUSY_FAULTS"⟩,
    ⟨0x13, 1, 64, .ro, false, 0, 0, 18446744073709551615, "FW_PROG_REFUSED"⟩,
    ⟨0x14, 1, 64, .ro, false, 0, 0, 18446744073709551615, "FW_ERASE_SUSPENDS"⟩,
    ⟨0x15, 1, 11, .ro, false, 0, 0, 2047, "FW_REERASE_PENDING"⟩,
    ⟨0x16, 1, 32, .ro, false, 0, 0, 4294967295, "FW_SYSLOG_FREE"⟩,
    ⟨0x17, 1, 32, .ro, true, 0, 0, 4294967295, "FW_ACTIVATIONS"⟩] ++ [
    ⟨0x18, 1, 48, .ro, true, 0, 0, 281474976710655, "FW_LAST_ACTIVATION"⟩,
    ⟨0x19, 1, 32, .ro, false, 0, 0, 4294967295, "FW_PREV_VERSION"⟩,
    ⟨0x1A, 1, 48, .ro, false, 0, 0, 281474976710655, "FW_SWITCH_BEAT"⟩]

/-- Subsystem 0x12. -/
def settings12 : List Setting :=
  [
    ⟨0x0, 1, 24, .ro, false, 4906, 0, 16777215, "SEC_LAST_INDEX"⟩,
    ⟨0x1, 1, 3, .ro, false, 0, 0, 7, "SEC_LIFE"⟩,
    ⟨0x2, 1, 1, .rw, true, 0, 0, 1, "SEC_LOCK"⟩,
    ⟨0x3, 1, 1, .ro, false, 0, 0, 1, "SEC_BENCHCLOSE"⟩,
    ⟨0x4, 1, 1, .rwl, true, 0, 0, 1, "SEC_TAMPER_POLICY"⟩,
    ⟨0x5, 1, 1, .rwl, true, 1, 0, 1, "SEC_TAMPER_LOOP_EN"⟩,
    ⟨0x6, 1, 6, .ro, false, 0, 0, 63, "SEC_TAMPER_COUNT"⟩,
    ⟨0x7, 1, 32, .ro, true, 0, 0, 4294967295, "SEC_TAMPER_EVENTS"⟩,
    ⟨0x8, 1, 56, .ro, true, 0, 0, 72057594037927935, "SEC_TAMPER_LAST"⟩,
    ⟨0x9, 1, 32, .ro, true, 0, 0, 4294967295, "SEC_EPOCH_NEXT"⟩,
    ⟨0xA, 1, 32, .ro, false, 0, 0, 4294967295, "SEC_SYS_EPOCH"⟩,
    ⟨0xB, 1, 1, .wo, false, 0, 0, 1, "SEC_SYSKEY_ROTATE"⟩] ++ [
    ⟨0xC, 1, 8, .ro, false, 0, 0, 255, "SEC_CA_STATE"⟩,
    ⟨0xD, 1, 2, .wo, false, 0, 0, 3, "SEC_FW_KEY_REVOKE"⟩,
    ⟨0xE, 1, 2, .wo, false, 0, 0, 3, "SEC_CA_REVOKE"⟩,
    ⟨0xF, 1, 2, .ro, false, 0, 0, 3, "SEC_CERT_STATE"⟩,
    ⟨0x10, 1, 13, .wo, false, 0, 0, 8191, "SEC_CERT_COMMIT"⟩,
    ⟨0x11, 1, 16, .ro, false, 0, 0, 65535, "SEC_KEY_RECORDS"⟩,
    ⟨0x12, 1, 16, .ro, false, 0, 0, 65535, "SEC_SCRUB_PENDING"⟩,
    ⟨0x13, 792, 64, .rw, false, 0, 0, 18446744073709551615, "SEC_CERT_BUF"⟩,
    ⟨0x32B, 1, 32, .ro, true, 0, 0, 4294967295, "SEC_IMPORT_FAILS"⟩,
    ⟨0x32C, 4095, 34, .ro, false, 0, 0, 17179869183, "SEC_NS_KEY"⟩]

/-- The rows of a subsystem code; none for a reserved code (R26). -/
def settingRows (sub : Nat) : List Setting :=
  match sub with
  | 0x01 => settings01
  | 0x02 => settings02
  | 0x03 => settings03
  | 0x04 => settings04
  | 0x05 => settings05
  | 0x06 => settings06
  | 0x07 => settings07
  | 0x08 => settings08
  | 0x09 => settings09
  | 0x0A => settings0A
  | 0x0B => settings0B
  | 0x0C => settings0C
  | 0x0D => settings0D
  | 0x0E => settings0E
  | 0x0F => settings0F
  | 0x10 => settings10
  | 0x11 => settings11
  | 0x12 => settings12
  | _ => []

/-- The row of a setting ID, if it is defined (R26). -/
def findSetting (id : Nat) : Option Setting :=
  (settingRows (id / 2 ^ 24)).find? fun r => decide (r.base ≤ id % 2 ^ 24 ∧ id % 2 ^ 24 < r.base + r.count)

end Sys2Proof.Machine
end

