-- ==== Sys2Proof/Machine/State.lean ====
section
/-! DEFINITION. The state of the module: plain data, every register, buffer, counter, mode and
queue the spec gives it (INVENTORY.md lists each with its rule and reset value), the faults and
refusals, and the state right after reset. -/

namespace Sys2Proof.Machine

/-! ### Small state names -/

/-- Ring states of RSTAT.STATE; a ring that is NONE is not listed (R97). -/
inductive RingSt where
  | active | resetting
  deriving DecidableEq, Repr

/-- Oct power states (R307). -/
inductive OctSt where
  | dark | powering | live | draining
  deriving DecidableEq, Repr

/-- TWIN_STATE (R374). -/
inductive TwinSt where
  | solo | syncing | paired | covering | recovering | detaching | detached
  deriving DecidableEq, Repr

/-- Mover engine states (R333). -/
inductive EngSt where
  | running | restarting | stopped
  deriving DecidableEq, Repr

/-- Staging states of the boot flash (R489 to R495). -/
inductive StageSt where
  | blank | erasing | receiving | verified | failed | previous
  deriving DecidableEq, Repr

/-- Times of day; Dawn is the wake sequence (R425). -/
inductive DayState where
  | noon | dusk | night | midnight | dawn
  deriving DecidableEq, Repr

/-- Life-cycle states (R503). -/
inductive Life where
  | blank | bench | sealed | returned | scrapped
  deriving DecidableEq, Repr

/-- BSTATE of a block record (R265). -/
inductive BlockSt where
  | erased | dirty | banded | retired | factoryBad | absent
  deriving DecidableEq, Repr

/-- BSTATE of a band record; a FREE serial is not listed (R266). -/
inductive BandSt where
  | opened | closed | victim | erasing
  deriving DecidableEq, Repr

/-- Cell modes (R232 metadata byte 29). -/
inductive CellMode where
  | slc | tlc | qlc
  deriving DecidableEq, Repr

/-- Kinds of slot (R234). -/
inductive SlotKind where
  | data | journal | checkpoint | summary | pad | parity | care | image
  deriving DecidableEq, Repr

/-! ### Host side records -/

/-- One MSI-X table entry (R353). -/
structure MsixEntry where
  addr : BitVec 64
  data : BitVec 32
  masked : Bool
  deriving DecidableEq, Repr

/-- A completion entry (R92). -/
structure Completion where
  status : BitVec 16
  cid : BitVec 16
  sqHead : BitVec 16
  phase : Bool
  detail : BitVec 8
  result : BitVec 64
  admSeq : BitVec 64
  cbeat : BitVec 48
  slack : BitVec 16
  deriving DecidableEq, Repr

/-- A completion that fell due while its function cannot be written (R352): of the command in a context, which holds what it has until
its completion is posted, or the refusal of an entry. -/
structure KeptCompletion where
  ring : Nat
  ctx : Option Nat
  status : BitVec 16
  cid : BitVec 16
  detail : BitVec 8
  result : BitVec 64
  noIrq : Bool
  deriving DecidableEq, Repr

/-- A submission entry (R86). -/
structure Entry where
  typ : BitVec 8
  op : BitVec 8
  flags : BitVec 8
  cls : BitVec 8
  cid : BitVec 16
  nsid : BitVec 16
  lba : BitVec 64
  length : BitVec 32
  prog : BitVec 32
  daddr : BitVec 64
  dcount : BitVec 32
  tag : BitVec 32
  a0 : BitVec 64
  a1 : BitVec 64
  a2 : BitVec 64
  deriving DecidableEq, Repr

/-- A scatter element (R87). -/
structure SgElem where
  addr : BitVec 64
  len : BitVec 32
  eflags : BitVec 32
  deriving DecidableEq, Repr

/-- An image: the 64-byte declaration block and the instruction words (R130, R150). -/
structure Code where
  decl : List Byte
  words : List (BitVec 32)
  deriving DecidableEq, Repr

/-- An entry with all its fetched data (R88): the scatter segments in chain order, the program. -/
structure EntryData where
  entry : Entry
  segs : List (List SgElem)
  code : Option Code
  deriving DecidableEq, Repr

/-- The planner's copy of a held entry (R64). -/
structure HeldEntry where
  data : EntryData
  since : Nat
  cause : BitVec 16
  deriving DecidableEq, Repr

/-- A ring reset in progress (R110): what it counts, its own ring and context. -/
structure RingReset where
  at_ : Nat
  byCtx : Option Nat
  withheld : Nat
  aborted : Nat
  ok : Nat
  deriving DecidableEq, Repr

/-! ### Planner records -/

/-- Bookable resources (R34, R324); `hostReq` is the read requests outbound on a link. -/
inductive Res where
  | dieTime (d : Nat)
  | dieTotal
  | chan (n : Nat)
  | chanTotal
  | decoder (oct : Nat)
  | lookups
  | fills
  | gaffer (g : Nat)
  | stream
  | hostIn (link : Nat)
  | hostOut (link : Nat)
  | hostReq (link : Nat)
  | engIn (e : Nat)
  | engOut (e : Nat)
  | puntyOut
  | energy
  | comps
  deriving DecidableEq, Repr

/-- The three shares of R35. -/
inductive Share where
  | host | hold | care
  deriving DecidableEq, Repr

/-- One booking of the near calendar: amount of a resource on a beat, with the command's ADMSEQ
(0 for care and standing work); `tag` names the slot whose ladder a D5 read booked it for, PSA + 1 (R245). -/
structure Booking where
  res : Res
  beat : Nat
  amount : Nat
  share : Share
  owner : Nat
  tag : Nat := 0
  deriving DecidableEq, Repr

/-- A far-calendar total of one 1,024-beat span (R40). -/
structure FarBooking where
  res : Res
  span : Nat
  amount : Nat
  owner : Nat
  tag : Nat := 0
  deriving DecidableEq, Repr

/-- A fetch issued whose data has not all returned (R88). -/
structure Fetching where
  ring : Nat
  idx : Nat
  deriving DecidableEq, Repr

/-- A returned entry awaiting its decision beat (R32). -/
structure Fetched where
  ring : Nat
  idx : Nat
  data : EntryData
  at_ : Nat
  deriving DecidableEq, Repr

/-! ### Context records -/

/-- Where a command came from: a host ring, the sideband queue, or the Cane queue (R364, R398). -/
inductive Src where
  | ring (g : Nat)
  | sideband
  | cane (sid msgId hops : Nat)
  deriving DecidableEq, Repr

/-- A slab buffer: its address, its size code k (2^(k+11) bytes), its bytes (unlisted: zero). -/
structure Buf where
  addr : BitVec 40
  code : Nat
  bytes : List Host.Cell
  deriving DecidableEq, Repr

/-- Where a granule lives (R193). -/
inductive Loc where
  | media (psa : Nat)
  | gather (slot : Nat)
  | unmapped
  deriving DecidableEq, Repr

/-- How a granule or slot read stands: waiting, waiting on a read-around (R57, R59), delivered directly
or through parity, left to deep recovery, marked unrecoverable (R165, R166). -/
inductive Deliver where
  | waiting
  | around
  | direct
  | rebuilt
  | deep
  | unrecov
  deriving DecidableEq, Repr

/-- One granule read of a context: its place as pinned at the decision (R201), how each of its
slots ended, the bytes delivered and the stored tag. -/
structure GranRead where
  gran : Nat
  loc : Loc
  slots : List Deliver
  bytes : List Host.Cell
  tag : BitVec 64
  deriving DecidableEq, Repr

/-- One operation of an atom group, outside the map until it commits (R205). -/
inductive AtomOp where
  | write (gran slot : Nat)
  | unmap (first count : Nat)
  deriving DecidableEq, Repr

/-- The sticky media state (R166): rank 0 NONE to 4 UNRECOV, the lowest failing offset of
INTEGRITY, the lowest offset and the count of undelivered granules. -/
structure Sticky where
  rank : Nat
  integ : Nat
  undel : Nat
  count : Nat
  deriving DecidableEq, Repr

/-- What a context waits for (R154); `ready` issues, `resident` runs the resident parison of its
direct or admin op, `fixed` has its status fixed and waits for its completion write. -/
inductive Wait where
  | ready
  | resident
  | instr
  | posting
  | fixed
  deriving DecidableEq, Repr

/-- A context in use, with the command it runs (R120, R121, R43); `data` is the descriptor space of a command from no
ring, `reply` what an RCALL it waits on was answered. `issNow` counts its issues in this beat, `overNow` those past the booked
budget of a D7 context (R117, R136); `left` are the bytes, as framed, that a transfer or stream operation in progress has still
to move, `late` the booked bytes of earlier beats it left unused and `drawn` what it drew of this beat's, inbound, outbound and
on the stream units (R547). `fed` are the places of a program's declared reads as found at its decision (R201); `sentAt` is the
highest PSEQ sent to the twin by its admission (R170). -/
structure Ctx where
  c : Nat
  adm : Nat
  src : Src
  fn : Nat
  admin : Bool
  entry : Entry
  segs : List (List SgElem)
  code : Option Code
  regs : Vector (BitVec 64) 16
  preds : Vector Bool 4
  hnd : Vector (Option Buf) 8
  pc : Nat
  prog : Nat
  stack : List (Nat × Nat)
  budget : Nat
  issued : Nat
  rdLeft : Nat
  wrLeft : Nat
  slabLeft : Nat
  strLeft : Nat
  hostLeft : Nat
  slabRes : Nat
  codePages : Nat
  dmode : BitVec 8
  mod : Bool
  admBeat : Nat
  dline : Nat
  dOpen : Bool
  postBeat : Nat
  eventBeat : Nat
  commitBeat : Option Nat
  wait : Wait
  word : BitVec 32
  reads : List GranRead
  wtGrans : List Nat
  writeThrough : Bool
  sticky : Sticky
  atom : List AtomOp
  ownSlots : List Nat
  mirrorWait : List Nat
  pins : List Nat
  status : BitVec 16
  detail : BitVec 8
  result : BitVec 64
  withheld : Bool
  stopping : Bool
  hostWrites : Nat
  counted : Nat
  snap : Nat
  aux : List (BitVec 64)
  data : List Byte
  reply : List Byte
  issNow : Nat := 0
  overNow : Nat := 0
  left : Nat := 0
  late : Vector Nat 3 := Vector.replicate 3 0
  drawn : Vector Nat 3 := Vector.replicate 3 0
  fed : List GranRead := []
  sentAt : Nat := 0
  deriving DecidableEq, Repr

/-! ### Library, translation and media records -/

/-- A loaded library slot (R133). -/
structure LibSlot where
  slot : Nat
  code : Code
  pins : Nat
  deriving DecidableEq, Repr

/-- A namespace (R187, R213) and its twin side (R372); `creating` is the admission of the NS_CREATE that made it, until that has posted
(R190). -/
structure Namespace where
  nsid : Nat
  g16k : Bool
  mbase : Nat
  cap : Nat
  initLines : Nat
  cseq : Nat
  creating : Option Nat
  deleting : Bool
  worn : Bool
  sideB : Bool
  deriving DecidableEq, Repr

/-- One way of the translation cache (R197): set, way, line, pin count. -/
structure CacheWay where
  set : Nat
  way : Nat
  line : Nat
  pins : Nat
  deriving DecidableEq, Repr

/-- Journal record types (R208). -/
inductive JType where
  | pad | map | unmap | nsCreate | nsDelete | ckBegin | ckEnd | unrecov | atomEnd
  | bandOpen | bandClose
  deriving DecidableEq, Repr

/-- A journal record (R208). -/
structure JRecord where
  typ : JType
  flags : BitVec 8
  nsid : Nat
  count : Nat
  lba : Nat
  seq : Nat
  value : Nat
  deriving DecidableEq, Repr

/-- A journal slot: its JPOS, highest SEQ and records, and its two copies (R209): the PSA of each where it has been placed,
and whether its program has been verified. -/
structure JSlot where
  jpos : Nat
  seq : Nat
  recs : List JRecord
  copyA : Option (Nat × Bool) := none
  copyB : Option (Nat × Bool) := none
  deriving DecidableEq, Repr

/-- A gather slot in use (R196, R202 to R206): one slot of data, outside the map while `atom`; `profile` is the media profile its
namespace wrote through as it entered (R259); `due` is the beat by which the drain of its write is booked (R51). -/
structure GatherSlot where
  slot : Nat
  nsid : Nat
  gran : Nat
  part : Nat
  g16k : Bool
  seq : Nat
  tag : BitVec 64
  agroup : BitVec 32
  member : Bool
  last : Bool
  atom : Bool
  mapped : Bool
  armed : Bool
  mirrored : Bool
  freeAt : Nat
  through : Bool
  psa : Option Nat
  owner : Nat
  epoch : Nat
  bytes : List Host.Cell
  profile : Nat := 0
  due : Nat := 0
  dark : Bool := false
  deriving DecidableEq, Repr

/-- A granule under deep recovery (R60): map index and the failing slot. -/
structure DeepRec where
  idx : Nat
  nsid : Nat
  gran : Nat
  psa : Nat
  since : Nat
  deriving DecidableEq, Repr

/-- A complete checkpoint generation: the SEQ of its CK_BEGIN, what its slots hold of the namespace table and the map, and the
serials of its bands (R213, R217). -/
structure CkGen where
  gen : Nat
  beginJpos : Nat
  seq0 : Nat
  nss : List Namespace
  map : List (Nat × Loc)
  bands : List Nat
  deriving DecidableEq, Repr

/-- A checkpoint cycle in progress (R214): the next line to write, the slots written, the SEQ of its CK_BEGIN, what its slots
hold so far of the namespace table and the map, the serials of the bands they lie in, and whether its CK_END has been entered. -/
structure Ckpt where
  gen : Nat
  nextLine : Nat
  rate : Nat
  beginJpos : Nat
  written : Nat
  seq0 : Nat := 0
  nss : List Namespace := []
  map : List (Nat × Loc) := []
  bands : List Nat := []
  ended : Bool := false
  deriving DecidableEq, Repr

/-- A programmed slot (R231, R232): metadata and the plaintext its DATA decrypts to; `key` is the key that encrypted DATA, so
that what is stored stays when the vault no longer holds that key (the model's own form of the ciphertext). -/
structure SlotRec where
  kind : SlotKind
  lba : BitVec 64
  nsid : Nat
  flags : BitVec 16
  agroup : BitVec 32
  seq : Nat
  bandId : BitVec 32
  column : Nat
  cell : CellMode
  tag : BitVec 64
  epoch : Nat
  bytes : List Host.Cell
  verified : Bool
  key : List Byte := []
  gone : Bool := false
  deriving DecidableEq, Repr

/-- A band record (R266) with the write stream's place in it; `stream` is what a system band holds: 1 and 2 the two copies of the
journal, 3 checkpoint slots, 4 care records, 5 library images. -/
structure Band where
  serial : Nat
  bandId : BitVec 32
  st : BandSt
  profile : Nat
  system : Bool
  refresh : Bool
  failed : Bool
  dark : Bool
  cold : Bool
  wl : Bool
  lowSeq : Nat
  closeBeat : Nat
  valid : Nat
  capacity : Nat
  ageClose : Nat
  columns : List (Nat × Nat)
  cell : CellMode
  nextPage : Nat
  summary : Bool
  acc : Option Nat
  stream : Nat := 0
  deriving DecidableEq, Repr

/-- A block record (R265); `candNew` is the model's own: CANDIDATE was set since the last erase (R292). -/
structure Block where
  pe : Nat
  rdCount : Nat
  bandId : BitVec 32
  st : BlockSt
  candidate : Bool
  candNew : Bool
  system : Bool
  pastRated : Bool
  rawTouched : Bool
  depth : Nat
  iter : Nat
  rcause : Nat
  lastCell : CellMode
  pfails : Nat
  erasedAt : Nat
  peSlc : Nat
  deriving DecidableEq, Repr

/-- A record of the RETIRE log page (R367). -/
structure RetireRec where
  beat : Nat
  die : Nat
  block : Nat
  cause : Nat
  pe : Nat
  deriving DecidableEq, Repr

/-- A care record set (R268): both tables and the clocks kept with them, and the serials of the bands its slots lie in. -/
structure CareSet where
  gen : Nat
  blocks : List (Nat × Block)
  bands : List Band
  tclk : Nat
  pass : Nat
  inBands : List Nat := []
  deriving DecidableEq, Repr

/-- A care record set being written (R268): the set, with the serials of the bands its slots lie in, the index of its next slot, its
slots per beat. -/
structure CareWrite where
  set : CareSet
  next : Nat
  rate : Nat
  deriving DecidableEq, Repr

/-- The decode of another column's slot for the rebuild of a slot read around (R58, R255): the slot, that column's slot, whether
it ended as a codeword, whether it passed its check. -/
structure ColumnTry where
  slot : Nat
  column : Nat
  converged : Bool
  passed : Bool
  deriving DecidableEq, Repr

/-- Array operations a die runs one at a time (R34, R55). -/
inductive ArrayKind where
  | read | program | erase
  deriving DecidableEq, Repr

/-- A suspension of a program or erase (R56): the beat its suspend issues on, the beat its resume issues on, the beat cycle that
booked it. -/
structure Susp where
  at_ : Nat
  resume : Nat
  cycle : Nat
  deriving DecidableEq, Repr

/-- A booked or running array operation of a die: kind, block, page, start beat, beats it takes with its suspensions, the
deadline it is ordered by, the suspensions used, the blocks it covers in other planes (R55, R56, R302, R314). -/
structure ArrayOp where
  kind : ArrayKind
  block : Nat
  page : Nat
  start : Nat
  busy : Nat
  dline : Nat
  owner : Nat
  reset : Bool
  care : Bool
  susps : List Susp := []
  also : List Nat := []
  deriving DecidableEq, Repr

/-- A program or erase that found no beats yet and is offered again in later ones: its die, the slot transfers it needs first (R262). -/
structure OpWait where
  die : Nat
  xfers : Nat
  op : ArrayOp
  deriving DecidableEq, Repr

/-! ### Mover, twin and Cane records -/

/-- An anchor (ANCHOR of the system area, and its kept twin copy, R214, R383). -/
structure Anchor where
  gen : Nat
  beginJpos : Nat
  careGen : Nat
  prevCareGen : Nat
  peMean : Nat
  bands : List Nat
  careBands : List Nat := []
  deriving DecidableEq, Repr

/-- A Cane message sent and not wholly acknowledged, or a REQ whose REP is awaited (R394, R397): bytes sent and bytes
acknowledged, the beats it was queued and last sent, the
ADMSEQ of the command whose RCALL it is. -/
structure CaneMsg where
  msgId : Nat
  typ : Nat
  hops : Nat
  bytes : List Byte
  sent : Nat
  acked : Nat
  sentAt : Nat
  firstAt : Nat
  call : Option Nat
  deriving DecidableEq, Repr

/-- A kept MSGID with its REP once sent (R398). -/
structure DedupRec where
  msgId : Nat
  rep : Option (List Byte)
  repAt : Nat
  deriving DecidableEq, Repr

/-- A REQ waiting on the Cane queue (R398). -/
structure CaneReq where
  sid : Nat
  msgId : Nat
  hops : Nat
  node : Nat
  data : EntryData
  body : List Byte
  repCap : Nat
  at_ : Nat
  deriving DecidableEq, Repr

/-- An operation of a replicating namespace that its replica has not acknowledged (R399): a write of one granule
with its first gather slot, or an unmap of a run; its SEQ, the group it belongs to (0 none), its beat, whether it was sent. -/
structure ReplOp where
  seq : Nat
  gran : Nat
  count : Nat
  slot : Option Nat
  grp : Nat
  at_ : Nat
  sent : Bool
  deriving DecidableEq, Repr

/-- Replication of one namespace (R399, R400), at its source or at its replica. `mode` is CANE_REPL_STATE [2:0]; `mark` the
highest source SEQ acknowledged (source) or applied (replica), `told` the mark last acknowledged, `pseq` the twin frame
that mark waits for, `lastMsg` the session and MSGID of the last message applied. -/
structure ReplState where
  nsid : Nat
  mode : Nat
  greeted : Bool
  ops : List ReplOp
  cursor : Nat
  mark : Nat
  told : Nat
  pseq : Nat
  lastMsg : Nat × Nat
  cut : Option Nat
  deriving DecidableEq, Repr

/-! ### Memory, boot flash, security and sideband records -/

/-- A repaired row: bank, macro, row, spare (R465, R466). -/
structure RowRepair where
  bank : Nat
  mac : Nat
  row : Nat
  spare : Nat
  deriving DecidableEq, Repr

/-- A log entry of the boot flash system region (R483): its sequence, kind, key, the system sector that holds it in
both banks, its body. -/
structure NorEntry where
  eseq : Nat
  typ : Nat
  key : Nat
  sector : Nat
  value : List Byte
  deriving DecidableEq, Repr

/-- An image area of the boot flash (R488, R489). -/
structure Image where
  version : BitVec 32
  svn : Nat
  schema : Nat
  keySlot : Nat
  liveOk : Bool
  valid : Bool
  bytes : List Host.Cell
  deriving DecidableEq, Repr

/-- An image area with nothing in it. -/
def Image.init : Image :=
  { version := 0, svn := 0, schema := 0, keySlot := 0, liveOk := false, valid := false, bytes := [] }

/-- A public-key fuse slot: the digest of the key, the valid bit, the revoke bit (R503). -/
structure KeySlot where
  digest : BitVec 256
  valid : Bool
  revoked : Bool
  deriving DecidableEq, Repr

/-- A key slot with no fuse blown. -/
def KeySlot.init : KeySlot := { digest := 0, valid := false, revoked := false }

/-- A namespace key held in the vault (R469, R515): namespace, epoch, key bytes. -/
structure VaultKey where
  nsid : Nat
  epoch : Nat
  key : List Byte
  deriving DecidableEq, Repr

/-- A wrapped key record of the system area (R515): KFLAGS [0] SYSTEM, [1] FROM_TWIN, [2] IMPORTED; the key
as wrapped under KEK, and the life-cycle state and tamper count of the ROOT which that KEK derives from: under any
other its key-wrap integrity check fails (R505, R515). -/
structure KeyRec where
  nsid : Nat
  flags : BitVec 8
  epoch : Nat
  wrapped : List Byte
  kekLife : Life
  kekTampers : Nat
  deriving DecidableEq, Repr

/-- A record of the EVENTS log page (R367). -/
structure EventRec where
  beat : Nat
  code : Nat
  detail : BitVec 64
  deriving DecidableEq, Repr

/-- What the module has sent, in order. -/
inductive Out where
  | hostWrite (fn : Nat) (addr : BitVec 64) (bytes : List Byte)
  | hostRead (fn : Nat) (addr : BitVec 64) (len : Nat)
  | completion (ring idx : Nat) (comp : Completion)
  | msix (fn vec : Nat) (addr : BitVec 64) (data : BitVec 32)
  | fetch (ring idx : Nat)
  | regRead (fn : Nat) (value : BitVec 64)
  | punty (typ : Nat) (pseq : Nat) (body : List (BitVec 64)) (data : List Host.Cell)
  | cane (node sid : Nat) (typ flags : Nat) (fcount : Nat) (msgId : Nat) (body : List Byte) (ip : List Byte := [])
  | icmp (port typ : Nat) (dst : List Byte) (body : List Byte)
  | sideband (cmd status seq : Nat) (body : List Byte)
  | mctp (body : List Byte)
  | pd (body : List Byte)
  | nand (die : Nat) (cmd : Nat) (row : Nat) (body : List Byte)
  deriving DecidableEq, Repr

/-- A descriptor of a mover channel's store (R327): its channel, the host address, length and
direction of a host transfer, the requester function, NS, RO and IRQ, its owner (a context, or an
engine when internal), its pacing source, whether a burst of it has started, and the frame an internal
copy carries. -/
structure Desc where
  chan : Nat
  host : BitVec 64
  len : Nat
  toHost : Bool
  fn : Nat
  ns : Bool
  ro : Bool
  irq : Bool
  internal : Bool
  owner : Nat
  pacer : Option Nat
  started : Bool
  frame : Option Out
  dram : Nat := 0
  deriving DecidableEq, Repr

/-- One PCIe function (PF or VF), n = 64*LINK + FUNC. -/
structure HostFn where
  /-- function number (11 R346). -/
  n : Nat
  /-- GEVENT bits of this function (01 GEVENT, R22). -/
  gevent : BitVec 8
  /-- MSI-X vector for events (01 GEVENT_CFG). -/
  cfgVector : BitVec 11
  /-- mask bits for events (01 GEVENT_CFG). -/
  cfgMask : BitVec 8
  /-- dark accesses, saturating at 255 (01 DARK_ADDR). -/
  darkCount : Nat
  /-- first recorded dark access was a write (01 DARK_ADDR). -/
  darkWrite : Bool
  /-- BAR0 offset of the first dark access (01 DARK_ADDR). -/
  darkOffset : BitVec 23
  /-- high halves latched by a read of the low half (keyed by low offset) (00 R9). -/
  hiLatch : List (Nat × BitVec 32)
  /-- low halves held until the high half is written (00 R9). -/
  loHold : List (Nat × BitVec 32)
  /-- local pairs whose DBERR bit is set (03 RSTAT.DBERR). -/
  dbErr : List Nat
  /-- admin ring submission base (03 ARING_SQ). -/
  aringSq : BitVec 64
  /-- admin ring completion base (03 ARING_CQ). -/
  aringCq : BitVec 64
  /-- VECTOR, NOSNOOP_OK, HOLD, CQ_LOG2, SQ_LOG2 (03 ARING_CFG). -/
  aringCfg : BitVec 32
  /-- EN (03 ARING_CTRL). -/
  aringEn : Bool
  /-- CFG_ERR (03 ARING_STAT). -/
  aringCfgErr : Bool
  /-- latest beat for RDY to rise after a valid enable (03 R82). -/
  aringReadyAt : Option Nat
  /-- the reset under way is a disable and releases the pair (03 R83). -/
  aringRelease : Bool
  /-- MSI-X enabled by configuration space (11 R353). -/
  msixEnable : Bool
  /-- MSI-X Function Mask (11 R353). -/
  msixMask : Bool
  /-- MSI-X table size (11 R353). -/
  vectors : Nat
  /-- table entries written so far; an unlisted entry is masked with address 0 (11 R353). -/
  msixTable : List (Nat × MsixEntry)
  /-- vectors whose Pending Bit is set (11 R353). -/
  pba : List Nat
  /-- function in D3hot (11 R352). -/
  d3hot : Bool
  /-- Bus Master Enable (11 R352). -/
  busMaster : Bool
  /-- Enable No Snoop (10 R339). -/
  noSnoopEn : Bool
  /-- Enable Relaxed Ordering (10 R340). -/
  relaxedEn : Bool
  /-- Max_Payload_Size in bytes (11 R351). -/
  maxPayload : Nat
  /-- Max_Read_Request_Size in bytes (11 R351). -/
  maxReadReq : Nat
  /-- Read Completion Boundary in bytes (11 R351). -/
  rcb : Nat
  /-- completions kept while the function cannot be written (11 R352). -/
  kept : List KeptCompletion
  /-- a function reset is in progress (03 R111). -/
  resetting : Bool
  /-- context of the FUNC_RESET that waits for the reset (03 R111). -/
  resetBy : Option Nat
  /-- contexts of further FUNC_RESETs that wait for the same reset (03 R111). -/
  resetToo : List Nat := []
  /-- pairs the reset under way has freed; their RING_COAL and RING_SCHED read on until it ends (03 R111). -/
  freed : List Nat := []
  deriving DecidableEq, Repr

/-- HostFn right after reset. -/
def HostFn.init : HostFn where
  n := 0
  gevent := 0
  cfgVector := 0
  cfgMask := 0xFF
  darkCount := 0
  darkWrite := false
  darkOffset := 0
  hiLatch := []
  loHold := []
  dbErr := []
  aringSq := 0
  aringCq := 0
  aringCfg := 0
  aringEn := false
  aringCfgErr := false
  aringReadyAt := none
  aringRelease := false
  msixEnable := false
  msixMask := false
  vectors := 2048
  msixTable := []
  pba := []
  d3hot := false
  busMaster := true
  noSnoopEn := true
  relaxedEn := true
  maxPayload := 512
  maxReadReq := 512
  rcb := 64
  kept := []
  resetting := false
  resetBy := none

/-- One host link, 0-3 PCIe, 4-5 USB4. -/
structure HostLink where
  /-- 0 absent, 1 training, 2 up, 3 in function reset (11 HOST_LINK_INFO). -/
  st : Nat
  /-- PCIe rate code, or USB4 mode code (11 HOST_LINK_INFO). -/
  rate : Nat
  /-- lanes (11 HOST_LINK_INFO). -/
  width : Nat
  /-- FLIT mode (11 HOST_LINK_INFO). -/
  flit : Bool
  /-- clock mode in force (11 HOST_LINK_INFO, R349). -/
  sris : Bool
  /-- NumVFs (11 R345). -/
  numVfs : Nat
  /-- VF Enable (11 R345). -/
  vfEnable : Bool
  /-- the port's PERSTp_N is asserted (PCIe links) (11 R349). -/
  perst : Bool
  /-- beat at which link training may begin (11 R350). -/
  trainFrom : Option Nat
  /-- link-downs (11 HOST_LINK_DOWNS). -/
  downs : Nat
  /-- bifurcation in force for the port (11 R344). -/
  mode2x8 : Bool
  /-- host enabled ASPM L1 (14 R426). -/
  aspmL1 : Bool
  /-- link requested L1 in Dusk (14 R426). -/
  inL1 : Bool
  /-- correctable errors reported to AER (11 R367). -/
  aerCorr : Nat
  /-- uncorrectable errors reported to AER (11 R367). -/
  aerUncorr : Nat
  /-- USB4 mode of the port (11 R356). -/
  usbMode : Nat
  /-- USB4 entered through Enter_USB (11 R358). -/
  usbEntered : Bool
  deriving DecidableEq, Repr

/-- HostLink right after reset. -/
def HostLink.init : HostLink where
  st := 0
  rate := 0
  width := 0
  flit := false
  sris := false
  numVfs := 0
  vfEnable := false
  perst := true
  trainFrom := none
  downs := 0
  mode2x8 := false
  aspmL1 := false
  inL1 := false
  aerCorr := 0
  aerUncorr := 0
  usbMode := 0
  usbEntered := false

/-- One ring pair, keyed by its global number. -/
structure Ring where
  /-- global pair number (03 R76). -/
  g : Nat
  /-- owning function (03 R77). -/
  fn : Nat
  /-- local number (03 R77). -/
  loc : Nat
  /-- admin privilege (03 R79). -/
  admin : Bool
  /-- HOLD mode (03 R64). -/
  hold : Bool
  /-- entries may carry NOSNOOP (03 R89). -/
  nosnoopOk : Bool
  /-- submission ring base (03 R80). -/
  sqBase : BitVec 64
  /-- completion ring base (03 R80). -/
  cqBase : BitVec 64
  /-- log2 of submission entries (03 R80). -/
  sqLog2 : Nat
  /-- log2 of completion entries (03 R80). -/
  cqLog2 : Nat
  /-- MSI-X vector (03 RING_COAL). -/
  vector : Nat
  /-- COUNT (03 RING_COAL). -/
  coalCount : Nat
  /-- BEATS (03 RING_COAL). -/
  coalBeats : Nat
  /-- WEIGHT (03 RING_SCHED, R82). -/
  weight : Nat
  /-- FETCH budget per beat (03 RING_SCHED, R82). -/
  fetch : Nat
  /-- ring state (03 RSTAT.STATE). -/
  st : RingSt
  /-- index of the next entry to fetch (03 R92). -/
  sqHead : Nat
  /-- last accepted TAIL (03 SQ_TAIL). -/
  sqTail : Nat
  /-- TAIL as sampled at the start of the beat (02 R31). -/
  sqVisible : Nat
  /-- index of the next completion to write (03 R94). -/
  cqTail : Nat
  /-- last accepted HEAD (03 CQ_HEAD). -/
  cqHead : Nat
  /-- HEAD as counted for credits (from the next beat) (03 R98). -/
  cqCredit : Nat
  /-- PHASE of the next completion (03 R94). -/
  phase : Bool
  /-- pending completions not yet signalled (03 R99). -/
  pend : Nat
  /-- CBEAT of the oldest pending completion (03 R99). -/
  oldest : Nat
  /-- the held entry's copy (02 R64). -/
  held : Option HeldEntry
  /-- deficit (02 R68). -/
  deficit : Nat
  /-- reset in progress (03 R110). -/
  rst : Option RingReset
  deriving DecidableEq, Repr

/-- Ring right after reset. -/
def Ring.init : Ring where
  g := 0
  fn := 0
  loc := 0
  admin := false
  hold := false
  nosnoopOk := false
  sqBase := 0
  cqBase := 0
  sqLog2 := 4
  cqLog2 := 4
  vector := 0
  coalCount := 0
  coalBeats := 0
  weight := 64
  fetch := 16
  st := .active
  sqHead := 0
  sqTail := 0
  sqVisible := 0
  cqTail := 0
  cqHead := 0
  cqCredit := 0
  phase := true
  pend := 0
  oldest := 0
  held := none
  deficit := 0
  rst := none

/-- The admission planner. -/
structure Planner where
  /-- near calendar: bookings by resource and beat (02 R40). -/
  near : List Booking
  /-- far calendar: totals per span (02 R40). -/
  far : List FarBooking
  /-- number of the first span not yet laid (02 R40). -/
  laidSpan : Nat
  /-- rotating start pointer (02 R68). -/
  tiePtr : Nat
  /-- next admission sequence number (03 R93). -/
  admSeq : Nat
  /-- cost admitted per function in this beat (02 R69). -/
  fnTotals : List (Nat × Nat)
  /-- fetches issued, data not returned (03 R88). -/
  fetching : List Fetching
  /-- returned entries awaiting decision (02 R32). -/
  fetched : List Fetched
  /-- hold-back passed to care: resource, beat, amount; kept while a window of that beat lasts (02 R36). -/
  raPassed : List (Nat × Nat × Nat)
  /-- counter (02 BEAT_ADMITTED). -/
  admitted : Nat
  /-- counter (02 BEAT_REFUSED). -/
  refused : Nat
  /-- counter (02 BEAT_SUSPENDS). -/
  suspends : Nat
  /-- counter (02 BEAT_READAROUNDS). -/
  readArounds : Nat
  /-- counter (02 BEAT_DEEP_PENDING). -/
  deepPending : Nat
  /-- admissions stopped by a module reset (03 R112). -/
  stopped : Bool
  /-- a module reset is in progress (03 R112). -/
  resetFlush : Bool
  /-- a posted LIFE_CYCLE or FW_ACTIVATE is followed by a module reset (17 R508, 16 R495). -/
  resetAfter : Bool
  /-- counter (03 RING_DB_ERRORS). -/
  dbErrors : Nat
  /-- counter (03 RING_ABORTS_DONE). -/
  abortsDone : Nat
  /-- counter (03 RING_RESETS). -/
  ringResets : Nat
  /-- rings that a reset removed while entries of theirs were fetched and undecided (03 R109). -/
  gone : List Ring := []
  deriving DecidableEq, Repr

/-- Planner right after reset. -/
def Planner.init : Planner where
  near := []
  far := []
  laidSpan := 8
  tiePtr := 0
  admSeq := 1
  fnTotals := []
  fetching := []
  fetched := []
  raPassed := []
  admitted := 0
  refused := 0
  suspends := 0
  readArounds := 0
  deepPending := 0
  stopped := false
  resetFlush := false
  resetAfter := false
  dbErrors := 0
  abortsDone := 0
  ringResets := 0

/-- ZCI machine outside the contexts. -/
structure Zci where
  /-- loaded library slots (04 R133). -/
  lib : List LibSlot
  /-- vendor code still used by contexts started before the switch beat (16 R496). -/
  oldVlib : List LibSlot
  /-- most contexts in use (04 ZCI_CTX_PEAK). -/
  ctxPeak : Nat
  /-- run-time faults (04 ZCI_FAULTS). -/
  faults : Nat
  /-- verifier failures (04 ZCI_VERIFY_FAILS). -/
  verifyFails : Nat
  /-- latest run-time fault (04 ZCI_LAST_FAULT). -/
  lastFault : BitVec 64
  /-- free 4 KiB code pages (04 ZCI_CODE_PAGES_FREE). -/
  codeFree : Nat
  /-- issues, and those past a D7 budget, of contexts that ended in this beat, by Gaffer (04 R117). -/
  ended : List (Nat × Nat × Nat) := []
  /-- cycles of this beat that each stream unit has been used (04 R148). -/
  units : List (Nat × Nat) := []
  deriving DecidableEq, Repr

/-- Zci right after reset. -/
def Zci.init : Zci where
  lib := []
  oldVlib := []
  ctxPeak := 0
  faults := 0
  verifyFails := 0
  lastFault := 0
  codeFree := 262144

/-- Translation engine. -/
structure Xlat where
  /-- namespaces (06 R187). -/
  nss : List Namespace
  /-- page map; an unlisted index is unmapped (state 10) (06 R193). -/
  map : List (Nat × Loc)
  /-- translation cache tags in use (06 R197). -/
  ways : List CacheWay
  /-- tree pseudo-LRU bits per set (06 R197). -/
  plru : List (Nat × BitVec 15)
  /-- lines marked suspect (06 R200). -/
  suspect : List Nat
  /-- next write sequence (06 R203). -/
  seq : Nat
  /-- next journal position (06 JPOS). -/
  jpos : Nat
  /-- journal records staged and not yet in journal slots (06 R210). -/
  staging : List JRecord
  /-- journal slots on media (both copies) (06 R207). -/
  journal : List JSlot
  /-- gather slots in use (06 R202). -/
  gather : List GatherSlot
  /-- map indices marked unrecoverable (02 R60). -/
  unrecov : List Nat
  /-- granules under deep recovery (02 R60). -/
  deep : List DeepRec
  /-- checkpoint cycle in progress (06 R214). -/
  ck : Option Ckpt
  /-- a cycle is requested (06 R214). -/
  ckWant : Bool
  /-- beat at which the last cycle began (06 R214). -/
  ckStart : Nat
  /-- JPOS of the last CK_BEGIN (06 R214). -/
  ckBeginJpos : Nat
  /-- checkpoint generations on media (06 R213). -/
  gens : List CkGen
  /-- newest complete generation (06 XLAT_CKPT_GEN). -/
  ckGen : Nat
  /-- counter (06 XLAT_CACHE_HITS). -/
  hits : Nat
  /-- counter (06 XLAT_CACHE_MISSES). -/
  misses : Nat
  /-- counter (06 XLAT_LINE_CRC_ERRORS). -/
  crcErrors : Nat
  /-- path and time of the last recovery (06 XLAT_LAST_RECOVERY). -/
  lastRecovery : BitVec 64
  /-- computed at Dawn (06 XLAT_PHYS_LIMIT). -/
  physLimit : Nat
  deriving DecidableEq, Repr

/-- Xlat right after reset. -/
def Xlat.init : Xlat where
  nss := []
  map := []
  ways := []
  plru := []
  suspect := []
  seq := 1
  jpos := 0
  staging := []
  journal := []
  gather := []
  unrecov := []
  deep := []
  ck := none
  ckWant := false
  ckStart := 0
  ckBeginJpos := 0
  gens := []
  ckGen := 0
  hits := 0
  misses := 0
  crcErrors := 0
  lastRecovery := 0
  physLimit := 0

/-- Media format state. -/
structure Media where
  /-- programmed slots by PSA (07 R231). -/
  slots : List (Nat × SlotRec)
  /-- band records of serials in use (08 R266). -/
  bands : List Band
  /-- counter (07 MEDIA_HARD_DECODES). -/
  hardDecodes : Nat
  /-- counter (07 MEDIA_HARD_FAILS). -/
  hardFails : Nat
  /-- counter (07 MEDIA_MISCORRECTS). -/
  miscorrects : Nat
  /-- counter (07 MEDIA_MISDIRECTS). -/
  misdirects : Nat
  /-- counter (07 MEDIA_SOFT_DECODES). -/
  softDecodes : Nat
  /-- counter (07 MEDIA_SOFT_FAILS). -/
  softFails : Nat
  /-- counter (07 MEDIA_REBUILT_SLOTS). -/
  rebuilt : Nat
  /-- parity accumulators withdrawn (15 R467). -/
  accWithdrawn : List Nat
  /-- accumulators quiesced for a test (15 R464). -/
  accTest : List Nat
  /-- decodes of other columns for the slots read around (07 R58, R255). -/
  tries : List ColumnTry := []
  /-- pages that RAW programmed, by PPN, as stored (05 RAW, 07 R230). -/
  raw : List (Nat × List Byte) := []
  /-- checkpoint, care record and library image slots that wait for a place in a system band (08 R268, 16 R487). -/
  sysWait : List SlotRec := []
  deriving DecidableEq, Repr

/-- Media right after reset. -/
def Media.init : Media where
  slots := []
  bands := []
  hardDecodes := 0
  hardFails := 0
  miscorrects := 0
  misdirects := 0
  softDecodes := 0
  softFails := 0
  rebuilt := 0
  accWithdrawn := []
  accTest := []

/-- What a read of care work is for: the Cullet's victim, patrol, a disturb check, deep recovery, or a column for a rebuild (R246, R261). -/
inductive CareUse where
  | victim
  | patrol
  | disturb
  | deep
  | column
  deriving DecidableEq, Repr

/-- A slot that care work reads (R244): its use; the stage, 0 the hard decode, 1 steps 2 to 4, 2 the rebuild, 3 left until a dark column is
back; whether the reads of the stage are booked; whether it is delivered; of a column, the slot it is read for. -/
structure CareRead where
  psa : Nat
  use : CareUse
  stage : Nat := 0
  booked : Bool := true
  done : Bool := false
  target : Nat := 0
  deriving DecidableEq, Repr


/-- The Cullet and the Lehr. -/
structure Care where
  /-- block records; an unlisted block of a present die is DIRTY with zero counts (08 R265). -/
  blocks : List (Nat × Block)
  /-- wear stage (08 R286). -/
  wearStage : Nat
  /-- CARE_WORN_NS (08 R294). -/
  worn : Bool
  /-- beat in which namespaces last became READ_ONLY_WORN; entries are refused for it from the next (08 R294). -/
  wornAt : Nat
  /-- NV counter (08 CARE_RETIRED). -/
  retired : Nat
  /-- NV counter (08 CARE_EARLY_RETIRED). -/
  earlyRetired : Nat
  /-- B_sys (08 R270). -/
  sysBlocks : Nat
  /-- B_sys is fixed by a first NS_CREATE (08 R270). -/
  sysFixed : Bool
  /-- wear levelling on (08 R278). -/
  wlOn : Bool
  /-- victims since the last wear-levelling turn (08 R278). -/
  wlCount : Nat
  /-- beat of the last gap computation (08 R278). -/
  wlChecked : Nat
  /-- CARE_PATROL_PASS (08 R280). -/
  pass : Nat
  /-- beat at which the pass began (08 R280). -/
  passStart : Nat
  /-- length of the pass in beats (08 R280). -/
  passPeriod : Nat
  /-- sample pages left in the pass (08 R281). -/
  passLeft : Nat
  /-- sample pages per block of this pass (08 CARE_PATROL_PAGES). -/
  passPages : Nat
  /-- slots sampled in this pass (08 R286). -/
  passSampled : Nat
  /-- sampled slots that needed step 2 or deeper (08 R286). -/
  passDeep : Nat
  /-- blocks retired with RCAUSE 3 in this pass (08 R286). -/
  passRetired : Nat
  /-- passSampled of the last complete pass (08 R286). -/
  lastSampled : Nat
  /-- passDeep of the last complete pass (08 R286). -/
  lastDeep : Nat
  /-- passRetired of the last complete pass (08 R286). -/
  lastRetired : Nat
  /-- beats behind (08 CARE_PATROL_LAG). -/
  lag : Nat
  /-- thermal clock, 1/65536 beat units (08 R284). -/
  tclk : Nat
  /-- highest reading in the window, 1/16 degree (08 R284). -/
  tMax : Int
  /-- counter (08 CARE_HOST_SLOTS). -/
  hostSlots : Nat
  /-- counter (08 CARE_RELOCATED). -/
  relocated : Nat
  /-- counter (08 CARE_ERASES). -/
  erases : Nat
  /-- counter (08 CARE_PROGRAM_FAILS). -/
  programFails : Nat
  /-- counter (08 CARE_ERASE_FAILS). -/
  eraseFails : Nat
  /-- counter (08 CARE_PATROL_READS). -/
  patrolReads : Nat
  /-- counter (08 CARE_REFRESH_PATROL). -/
  refreshPatrol : Nat
  /-- counter (08 CARE_REFRESH_DISTURB). -/
  refreshDisturb : Nat
  /-- counter (08 CARE_REFRESH_AGE). -/
  refreshAge : Nat
  /-- counters (08 CARE_DEPTH_HIST). -/
  depthHist : Vector Nat 6
  /-- CARE_PE_ESTIMATED (08 R269). -/
  peEstimated : Bool
  /-- a patrol pass has ended since Dawn (08 R286). -/
  passed : Bool := false
  /-- blocks with a disturb check booked (08 R283). -/
  disturbQ : List Nat
  /-- RETIRE log page, newest first (11 R367). -/
  retireLog : List RetireRec
  /-- complete care record sets, newest first (08 R268). -/
  recSets : List CareSet
  /-- step 5 of a takeover is still to run (12 R386). -/
  takeoverCare : Bool
  /-- care record set being written (08 R268). -/
  recWrite : Option CareWrite := none
  /-- where the patrol pass goes on: band serial, column, sample page of the block (08 R280). -/
  patrolAt : Nat × Nat × Nat := (0, 0, 0)
  /-- the place of its victim from which the Cullet goes on (08 R275). -/
  victimAt : Nat := 0
  /-- the entries of its victim's summary read last, counted from 1 (08 R275 step 2). -/
  victimSum : Nat := 0
  /-- sample pages that the window's share of the pass has still to book (08 R281). -/
  patrolDue : Nat := 0
  /-- beat from which the even schedule of the pass runs: its start, or the return to Noon (08 R264, R281). -/
  schedAt : Nat := 0
  /-- sample pages left at that beat (08 R264, R281). -/
  schedPages : Nat := 0
  /-- reads of care work that await a decode (07 R244, R246, 08 R261). -/
  reads : List CareRead := []
  /-- verified copies whose conditional update comes at the end of the beat (06 R202, 08 R276). -/
  cond : List Nat := []
  deriving DecidableEq, Repr

/-- Care right after reset. -/
def Care.init : Care where
  blocks := []
  wearStage := 0
  worn := false
  wornAt := 0
  retired := 0
  earlyRetired := 0
  sysBlocks := 0
  sysFixed := false
  wlOn := false
  wlCount := 0
  wlChecked := 0
  pass := 0
  passStart := 0
  passPeriod := 151200000
  passLeft := 0
  passPages := 16
  passSampled := 0
  passDeep := 0
  passRetired := 0
  lastSampled := 0
  lastDeep := 0
  lastRetired := 0
  lag := 0
  tclk := 0
  tMax := 640
  hostSlots := 0
  relocated := 0
  erases := 0
  programFails := 0
  eraseFails := 0
  patrolReads := 0
  refreshPatrol := 0
  refreshDisturb := 0
  refreshAge := 0
  depthHist := Vector.replicate 6 0
  peEstimated := false
  disturbQ := []
  retireLog := []
  recSets := []
  takeoverCare := false

/-- One oct of eight channels. -/
structure Oct where
  /-- DARK, POWERING, LIVE or DRAINING (09 R307). -/
  st : OctSt
  /-- latched rail fault (09 R309). -/
  fault : Bool
  /-- power-up step reached: 0 off, 1 VCC on, 2 VCCQ on, 3 idle, 4 RESET sent, 5 identifying, 6 training (09 R307). -/
  phase : Nat
  /-- beat at which that step was reached (09 R307). -/
  phaseAt : Nat
  /-- OCTk_VCC as enabled, in 0.1 V: 0 off, 25 or 33 as VCC33 of its profile names (09 R306). -/
  vcc : Nat
  /-- OCTk_VCCQ enabled (09 R306). -/
  vccq : Bool
  /-- beat at which draining began (09 R308). -/
  drainAt : Nat
  /-- the request bit was cleared while POWERING (09 R310). -/
  downReq : Bool
  /-- LUNs identified or found absent in this power-up (09 R307). -/
  seen : List Nat
  /-- it leaves LIVE in the ordered way from the next beat (09 R308). -/
  toDrain : Bool := false
  /-- leaving in the prompt way (09 R308). -/
  prompt : Bool
  /-- beat at which the oct last went dark (08 R274). -/
  darkSince : Nat
  /-- carrier profile as it stood at power-up (09 R303). -/
  profile : Vector (BitVec 64) 16
  /-- switched carrier, as it stood at power-up (09 FCH_OWN_MODE). -/
  switched : Bool
  /-- OWNk_REQ is toggling (09 R317). -/
  req : Bool
  /-- OWNk_GNT as seen (09 R317). -/
  gnt : Bool
  /-- beat at which the lease began (09 R319). -/
  leaseAt : Nat
  /-- beat of the next lease after a grant loss (09 R320). -/
  retryAt : Option Nat
  /-- earliest beat of return after a zone hot stop (14 R452). -/
  hotHold : Option Nat
  /-- erased reserve blocks held for Last Light (13 R418). -/
  reserve : Nat
  /-- the oct has been LIVE since Dawn (its return sets GEVENT.OCT) (09 R307). -/
  wasLive : Bool
  deriving DecidableEq, Repr

/-- Oct right after reset. -/
def Oct.init : Oct where
  st := .dark
  fault := false
  phase := 0
  phaseAt := 0
  vcc := 0
  vccq := false
  drainAt := 0
  downReq := false
  seen := []
  prompt := false
  darkSince := 0
  profile := Vector.replicate 16 0
  switched := false
  req := false
  gnt := false
  leaseAt := 0
  retryAt := none
  hotHold := none
  reserve := 0
  wasLive := false

/-- One flash channel. -/
structure Chan where
  /-- ladder index of the trained rate (09 FCH_CH_INFO). -/
  rate : Nat
  /-- slot transfers per beat (09 R298). -/
  perBeat : Nat
  /-- 0 out of service, 1 in service, 2 retraining (09 R312). -/
  svc : Nat
  /-- dies in use, bit 2*CE+LUN (09 FCH_CH_INFO). -/
  dieMask : BitVec 16
  /-- narrowest eye in 1/64 UI (09 FCH_CH_INFO). -/
  eye : Nat
  /-- beat of the last training or re-centre (09 R312). -/
  lastCentre : Nat
  /-- readings of the carrier diodes of its oct at the last training or re-centre, 1/16 degree (09 R312). -/
  centreTs : List Int := []
  /-- FCH_MAX_RATE as the training under way found it (09 R311, R323). -/
  maxRate : Nat := 0
  deriving DecidableEq, Repr

/-- Chan right after reset. -/
def Chan.init : Chan where
  rate := 0
  perBeat := 0
  svc := 0
  dieMask := 0
  eye := 0
  lastCentre := 0

/-- One NAND die that is present. -/
structure Die where
  /-- die number (07 R227). -/
  d : Nat
  /-- the LUN answered and was identified (09 R307). -/
  ready : Bool
  /-- the die went dark alone (09 R315). -/
  dark : Bool
  /-- booked and running array operations, in order (02 R55). -/
  ops : List ArrayOp
  /-- beat of the last RESET for a late operation (09 R315). -/
  resetAt : Option Nat
  /-- row-address cycles its parameter page declares (09 R301). -/
  rowCycles : Nat := 3
  deriving DecidableEq, Repr

/-- Die right after reset. -/
def Die.init : Die where
  d := 0
  ready := false
  dark := false
  ops := []
  resetAt := none

/-- Channel engines. -/
structure Flash where
  /-- octs (09 R307). -/
  octs : Vector Oct 16
  /-- channels (09 R297). -/
  chans : Vector Chan 128
  /-- dies found (07 R227). -/
  dies : List Die
  /-- programs and erases that found no beats yet (08 R262). -/
  waiting : List OpWait := []
  /-- CPRESj_N grounded (09 R321). -/
  present : Vector Bool 2
  /-- counter (09 FCH_TRAIN_FAILS). -/
  trainFails : Nat
  /-- counter (09 FCH_GRANT_LOSSES). -/
  grantLosses : Nat
  /-- counter (09 FCH_LATE_OPS). -/
  lateOps : Nat
  deriving DecidableEq, Repr

/-- Flash right after reset. -/
def Flash.init : Flash where
  octs := Vector.replicate 16 Oct.init
  chans := Vector.replicate 128 Chan.init
  dies := []
  present := Vector.replicate 2 true
  trainFails := 0
  grantLosses := 0
  lateOps := 0

/-- One mover engine. -/
structure Engine where
  /-- running, restarting, stopped (10 DMV_ENGINE_STATE). -/
  st : EngSt
  /-- beat E + 2 (10 R333). -/
  resumeAt : Nat
  /-- the second tag pool is free (10 R333). -/
  spare : Bool
  /-- tag pools in quarantine (10 R333). -/
  quarantine : Nat
  /-- descriptors active or queued in the channels' stores (10 R327). -/
  descs : List Desc
  /-- pending end-of-count events per channel (10 R331). -/
  pending : Vector Nat 16
  /-- latest bus error (10 DMV_LAST_ERROR). -/
  lastError : BitVec 64
  deriving DecidableEq, Repr

/-- Engine right after reset. -/
def Engine.init : Engine where
  st := .running
  resumeAt := 0
  spare := true
  quarantine := 0
  descs := []
  pending := Vector.replicate 16 0
  lastError := 0

/-- Data movers. -/
structure Movers where
  /-- engines (10 R324). -/
  eng : Vector Engine 4
  /-- pacing requests asserted (10 R336). -/
  pacer : Vector Bool 3
  /-- counter (10 DMV_BUS_ERRORS). -/
  busErrors : Nat
  /-- counter (10 DMV_AFFECTED). -/
  affected : Nat
  /-- counter (10 DMV_PACE_WITHDRAWN). -/
  paceWithdrawn : Nat
  /-- counter (10 DMV_BYTES_TO_HOST). -/
  toHost : Nat
  /-- counter (10 DMV_BYTES_FROM_HOST). -/
  fromHost : Nat
  /-- counter (10 DMV_INTERNAL_BYTES). -/
  internal : Nat
  deriving DecidableEq, Repr

/-- Movers right after reset. -/
def Movers.init : Movers where
  eng := Vector.replicate 4 Engine.init
  pacer := Vector.replicate 3 false
  busErrors := 0
  affected := 0
  paceWithdrawn := 0
  toHost := 0
  fromHost := 0
  internal := 0

/-- Twin pairing. -/
structure Twin where
  /-- TWIN_STATE (12 R374). -/
  st : TwinSt
  /-- TWIN_ID strap, true for side B (12 R369). -/
  side : Bool
  /-- TWIN_COPY_STALE (12 R378). -/
  stale : Bool
  /-- epoch of side A (12 TWIN_SIDE_EPOCH_A). -/
  epochA : Nat
  /-- epoch of side B (12 TWIN_SIDE_EPOCH_B). -/
  epochB : Nat
  /-- epoch of side A as the twin told it (12 R385). -/
  peerEpochA : Nat
  /-- epoch of side B as the twin told it (12 R385). -/
  peerEpochB : Nat
  /-- punty lanes in use (12 TWIN_LINK). -/
  lanes : Nat
  /-- heartbeat line faults (12 TWIN_LINK). -/
  hbFaults : Nat
  /-- counter (12 TWIN_TAKEOVERS). -/
  takeovers : Nat
  /-- latest takeover (12 TWIN_LAST_TAKEOVER). -/
  lastTakeover : BitVec 64
  /-- level of TWHB_OUT (12 R377). -/
  hbOut : Bool
  /-- heartbeat and OWNk_REQ toggling stopped (12 R377). -/
  hbStopped : Bool
  /-- TWPEER_N low (12 R378). -/
  peerPresent : Bool
  /-- beat of the last TWHB_IN edge (12 R378). -/
  lastEdge : Nat
  /-- beat of the last frame received (12 R378). -/
  lastFrame : Nat
  /-- XLAT_SEQ the twin last reported (12 R379). -/
  peerSeq : Nat
  /-- armed bytes the twin last reported (12 R379). -/
  peerArmed : Nat
  /-- next PSEQ to send (12 R379). -/
  txPseq : Nat
  /-- highest PSEQ stored with all below it (12 R382). -/
  rxPseq : Nat
  /-- highest own PSEQ the twin has acknowledged (12 R382). -/
  ackedPseq : Nat
  /-- mirror area slots (12 R380). -/
  mirror : List GatherSlot
  /-- context of the TWIN_ATTACH under way (12 R385). -/
  attachBy : Option Nat
  /-- context of the TWIN_DETACH under way (12 R388). -/
  detachBy : Option Nat
  /-- CTRL request sent and not answered: 1 ATTACH, 2 DETACH (12 R385). -/
  asked : Nat
  /-- next map line to send in a sync (12 R385). -/
  syncCursor : Nat
  /-- keys and namespace table sent in this sync (17 R521). -/
  keysSent : Bool
  /-- READY sent (12 R385). -/
  readySent : Bool
  /-- READY received (12 R385). -/
  readySeen : Bool
  /-- LL_DONE received (12 R384). -/
  llDone : Bool
  /-- kept copy of the twin's anchor (12 R383). -/
  peerAnchor : Option Anchor
  /-- firmware version the twin last reported (16 R494). -/
  peerVersion : BitVec 32
  /-- the twin's certificate verified (17 R520). -/
  peerCertOk : Bool
  /-- beat in which the twin was last concluded absent (12 R378). -/
  absentAt : Option Nat
  /-- beat T of a takeover under way (12 R386). -/
  takeoverAt : Option Nat
  /-- the takeover is warm (12 R386). -/
  takeoverWarm : Bool
  /-- the cold scan has completed (12 R386). -/
  scanDone : Bool
  /-- RELEASED sent (planned detach) or received (12 R388). -/
  released : Bool
  /-- a handback of the other side is under way (12 R389). -/
  handback : Bool
  /-- beat of the next lease attempt on the twin's octs (12 R386). -/
  retryAt : Nat
  /-- beat at which the wait for the twin at Dawn ends (12 R390). -/
  dawnWait : Option Nat
  /-- DETACHED before the last sleep (12 R390). -/
  wasDetached : Bool
  /-- sides this module admits while COVERING or SYNCING (false = A) (12 R375). -/
  served : List Bool
  deriving DecidableEq, Repr

/-- Twin right after reset. -/
def Twin.init : Twin where
  st := .solo
  side := false
  stale := false
  epochA := 0
  epochB := 0
  peerEpochA := 0
  peerEpochB := 0
  lanes := 0
  hbFaults := 0
  takeovers := 0
  lastTakeover := 0
  hbOut := false
  hbStopped := false
  peerPresent := false
  lastEdge := 0
  lastFrame := 0
  peerSeq := 0
  peerArmed := 0
  txPseq := 1
  rxPseq := 0
  ackedPseq := 0
  mirror := []
  attachBy := none
  detachBy := none
  asked := 0
  syncCursor := 0
  keysSent := false
  readySent := false
  readySeen := false
  llDone := false
  peerAnchor := none
  peerVersion := 0
  peerCertOk := false
  absentAt := none
  takeoverAt := none
  takeoverWarm := false
  scanDone := false
  released := false
  handback := false
  retryAt := 0
  dawnWait := none
  wasDetached := false
  served := []

/-- One Cane session. -/
structure Session where
  /-- session ID this module chose (12 R394). -/
  sid : Nat
  /-- session ID the peer chose (12 R394). -/
  peerSid : Nat
  /-- peer node (12 R394). -/
  node : Nat
  /-- 0 KX1 sent, 1 KX2 sent, 2 established, 3 replaced by a rekey and receiving under its old keys (12 R396). -/
  phase : Nat
  /-- this module opened it (12 R396). -/
  initiator : Bool
  /-- seed of the initiator's ML-KEM key pair (12 R396). -/
  seed : List Byte
  /-- beat at which KX1 or KX2 was last sent (12 R394). -/
  kexAt : Nat
  /-- the session this handshake replaces (12 R396). -/
  rekeyOf : Option Nat
  /-- assembled KX1 message (12 R396). -/
  kx1 : List Byte
  /-- assembled KX2 message (12 R396). -/
  kx2 : List Byte
  /-- key of the sending direction (12 R396). -/
  keyTx : List Byte
  /-- key of the receiving direction (12 R396). -/
  keyRx : List Byte
  /-- beat at which the old keys stop being valid (12 R396). -/
  oldUntil : Option Nat
  /-- next FCOUNT (12 R394). -/
  txCount : Nat
  /-- highest FCOUNT accepted (12 R395). -/
  rxHigh : Nat
  /-- FCOUNTs accepted among the 1,024 below (12 R395). -/
  rxSeen : List Nat
  /-- next MSGID (12 R394). -/
  msgId : Nat
  /-- bytes this module may still send (12 R394). -/
  credit : Nat
  /-- beat at which it was established or last rekeyed (12 R396). -/
  opened : Nat
  /-- beat of last use (12 R396). -/
  lastUse : Nat
  /-- beat of the last acknowledged frame (12 R397). -/
  lastAck : Nat
  /-- messages sent and not wholly acknowledged (12 R394). -/
  out : List CaneMsg
  /-- MSGIDs received and their replies (12 R398). -/
  dedup : List DedupRec
  deriving DecidableEq, Repr

/-- Session right after reset. -/
def Session.init : Session where
  sid := 0
  peerSid := 0
  node := 0
  phase := 0
  initiator := false
  seed := []
  kexAt := 0
  rekeyOf := none
  kx1 := []
  kx2 := []
  keyTx := []
  keyRx := []
  oldUntil := none
  txCount := 1
  rxHigh := 0
  rxSeen := []
  msgId := 1
  credit := 0
  opened := 0
  lastUse := 0
  lastAck := 0
  out := []
  dedup := []

/-- Cane fabric. -/
structure Cane where
  /-- 0 down, 1 training, 2 up (12 CANE_LINK_STATE). -/
  link : Vector Nat 2
  /-- sessions (12 R396). -/
  sessions : List Session
  /-- requests awaiting decision (12 R398). -/
  queue : List CaneReq
  /-- deficit of the Cane queue (12 R398). -/
  deficit : Nat
  /-- replication state per namespace (12 R399). -/
  repl : List ReplState
  /-- counter (12 CANE_AUTH_FAILS). -/
  authFails : Nat
  /-- counter (12 CANE_REPLAY_DROPS). -/
  replayDrops : Nat
  /-- counter (12 CANE_FRAMES_TX). -/
  framesTx : Nat
  /-- counter (12 CANE_FRAMES_RX). -/
  framesRx : Nat
  /-- counter (12 CANE_RETRANSMITS). -/
  retransmits : Nat
  /-- next session ID this module chooses (12 R394). -/
  nextSid : Nat
  deriving DecidableEq, Repr

/-- Cane right after reset. -/
def Cane.init : Cane where
  link := Vector.replicate 2 0
  sessions := []
  queue := []
  deficit := 0
  repl := []
  authFails := 0
  replayDrops := 0
  framesTx := 0
  framesRx := 0
  retransmits := 0
  nextSid := 1

/-- One DC feed. -/
structure Feed where
  /-- voltage at the pins in mV (negative: reversed) (13 PWR_FEED_A_MV). -/
  mv : Int
  /-- above 35.0 V and not since below 34.0 V (13 R404). -/
  good : Bool
  /-- overvoltage lockout (13 R404). -/
  lockout : Bool
  /-- breaker open (13 R404). -/
  breaker : Bool
  /-- connected in reverse (13 R403). -/
  reversed : Bool
  /-- input switch conducting (13 R407). -/
  conduct : Bool
  /-- beat at which it became good (13 R407). -/
  goodAt : Nat
  /-- times the feed stopped being good (13 PWR_FEED_DROPS). -/
  drops : Nat
  deriving DecidableEq, Repr

/-- Feed right after reset. -/
def Feed.init : Feed where
  mv := 48000
  good := true
  lockout := false
  breaker := false
  reversed := false
  conduct := true
  goodAt := 0
  drops := 0

/-- One half of the hold-up bank. -/
structure Half where
  /-- voltage in mV (13 R410). -/
  mv : Nat
  /-- capacitance of the last test (13 PWR_CAP). -/
  capUf : Nat
  /-- ESR of the last test, 0.1 milliohm (13 PWR_ESR). -/
  esr : Nat
  /-- marked faulty (13 R415). -/
  faulty : Bool
  /-- passed a test since the last Dawn (13 R412). -/
  passed : Bool
  /-- bank temperature at its last test, 1/16 degree (13 R415). -/
  testT : Int
  deriving DecidableEq, Repr

/-- Half right after reset. -/
def Half.init : Half where
  mv := 0
  capUf := 0
  esr := 0
  faulty := false
  passed := false
  testT := 0

/-- Power entry and hold-up. -/
structure Power where
  /-- feeds A and B (13 R404). -/
  feeds : Vector Feed 2
  /-- bank halves A and B (13 R409). -/
  halves : Vector Half 2
  /-- measured input power (13 PWR_INPUT_MW). -/
  inputMw : Nat
  /-- the charger may run (temperature) (13 R411). -/
  charging : Bool
  /-- E in mJ (13 R410). -/
  energy : Nat
  /-- G in bytes (13 R412). -/
  armed : Nat
  /-- n of R412 (13 R412). -/
  armOcts : Nat
  /-- journal-through (13 R413). -/
  jthrough : Bool
  /-- 0 idle, 1 testing A, 2 testing B (13 PWR_TEST_STATE). -/
  testing : Nat
  /-- the 1 A sink is applied (13 R415). -/
  sink : Bool
  /-- ESR measured in the running test (13 R415). -/
  testEsr : Nat
  /-- capacitance computed when the sink was removed (13 R415). -/
  testCap : Nat
  /-- the voltage moved as the sink requires (13 R415). -/
  testMoved : Bool
  /-- last test aborted (13 R416). -/
  aborted : Bool
  /-- beat of the last test of either half (13 R415). -/
  lastTest : Nat
  /-- half tested last (0 A, 1 B) (13 R415). -/
  lastHalf : Nat
  /-- a test is requested (PWR_TEST_NOW) (13 R415). -/
  testWant : Bool
  /-- halves still to test since Dawn (13 R415). -/
  dawnTests : Nat
  /-- PWR_TEST_FAILS (13 R415). -/
  testFails : Nat
  /-- beat L of a declared loss whose Last Light runs (13 R417). -/
  llAt : Option Nat
  /-- G at beat L (13 R420). -/
  llG : Nat
  /-- the mirror area is flushed too (13 R384). -/
  llMirror : Bool
  /-- paired at beat L (13 PWR_LL_LAST). -/
  llPaired : Bool
  /-- NV counter (13 PWR_LL_COUNT). -/
  llCount : Nat
  /-- NV record (13 PWR_LL_LAST). -/
  llLast : BitVec 64
  /-- serials of the bands a flush opened, until recovery reads them (13 R419, 14 R453). -/
  llBands : List Nat
  /-- logic dark after Last Light, waiting for a feed (13 R422). -/
  lost : Bool
  /-- the always-on domain is powered (01 R20). -/
  aonPowered : Bool
  /-- the most the bank charger draws now, in mW (13 R408). -/
  chargeMw : Nat := 0
  deriving DecidableEq, Repr

/-- Power right after reset. -/
def Power.init : Power where
  feeds := Vector.replicate 2 Feed.init
  halves := Vector.replicate 2 Half.init
  inputMw := 0
  charging := false
  energy := 0
  armed := 0
  armOcts := 0
  jthrough := true
  testing := 0
  sink := false
  testEsr := 0
  testCap := 0
  testMoved := true
  aborted := false
  lastTest := 0
  lastHalf := 1
  testWant := false
  dawnTests := 0
  testFails := 0
  llAt := none
  llG := 0
  llMirror := false
  llPaired := false
  llCount := 0
  llLast := 0
  llBands := []
  lost := false
  aonPowered := true

/-- Times of day. -/
structure Day where
  /-- GSTAT.DAY (14 R425). -/
  day : DayState
  /-- Dawn step whose work is still to end: 1 regulators, 2 oscillators, 3 memories, 4 logic, 5 recovery (14 R440). -/
  step : Nat
  /-- beat from which the step's limit counts (14 R440). -/
  stepFrom : Nat
  /-- beat at which the DRAM test of the last Dawn passed (06 R221). -/
  memAt : Nat
  /-- Dawn waits to cool (14 R441). -/
  cooling : Bool
  /-- HOST domain on (14 R429). -/
  hostOn : Bool
  /-- CORE domain on (14 R429). -/
  coreOn : Bool
  /-- SRAM domain on (14 R429). -/
  sramOn : Bool
  /-- DRAM domain on (14 R429). -/
  dramOn : Bool
  /-- PUNTY domain on (14 R429). -/
  puntyOn : Bool
  /-- CANE domain on (14 R429). -/
  caneOn : Bool
  /-- BOOT domain on (14 R429). -/
  bootOn : Bool
  /-- pending request: target and requesting context (14 R431). -/
  pendReq : Option (DayState × Nat)
  /-- seal beat of an entry sequence in progress (14 R432). -/
  sealed : Option Nat
  /-- step reached by the entry sequence (14 R436). -/
  entryStep : Nat
  /-- wake source waiting for the entry to end (14 R438). -/
  wakePend : Option Nat
  /-- a wake from Night is running (14 R439). -/
  waking : Bool
  /-- alarm beat, 0 none (14 DAY_WAKE_AT). -/
  wakeAt : Nat
  /-- latest wake (14 DAY_LAST_WAKE). -/
  lastWake : BitVec 64
  /-- counter (14 DAY_DARK_ACCESSES). -/
  darkAccesses : Nat
  /-- counter (14 DAY_DARK_FAULTS). -/
  darkFaults : Nat
  /-- beats spent per state (14 R442). -/
  res : Vector Nat 5
  /-- entries per state (14 R442). -/
  entries : Vector Nat 5
  /-- counter (14 DAY_SUPERSEDED). -/
  superseded : Nat
  /-- the module has stopped serving (01 GSTAT.FATAL). -/
  fatal : Bool
  /-- fatal cause (11 R363). -/
  fcause : Nat
  /-- fatal detail (11 R363). -/
  fdetail : Nat
  /-- BEAT when FATAL was set (11 R367). -/
  fatalBeat : Nat
  /-- FATAL since the always-on domain powered up (11 R367). -/
  wasFatal : Bool
  /-- beat at which a Midnight stay began (08 R284). -/
  stayAt : Option Nat
  deriving DecidableEq, Repr

/-- Day right after reset. -/
def Day.init : Day where
  day := .dawn
  step := 1
  stepFrom := 0
  memAt := 0
  cooling := false
  hostOn := false
  coreOn := false
  sramOn := false
  dramOn := false
  puntyOn := false
  caneOn := false
  bootOn := false
  pendReq := none
  sealed := none
  entryStep := 0
  wakePend := none
  waking := false
  wakeAt := 0
  lastWake := 0
  darkAccesses := 0
  darkFaults := 0
  res := Vector.replicate 5 0
  entries := Vector.replicate 5 0
  superseded := 0
  fatal := false
  fcause := 0
  fdetail := 0
  fatalBeat := 0
  wasFatal := false
  stayAt := none

/-- Thermal control. -/
structure Therm where
  /-- last readings, 1/16 degree (14 R445). -/
  reading : Vector Int 28
  /-- beat since which the raw code has not changed (14 R446). -/
  rawSince : Vector Nat 28
  /-- readings of the other members of the zones of a sensor when its code last changed (14 R446). -/
  mateRef : Vector (List (Nat × Int)) 28
  /-- sensors judged broken (14 THERM_BROKEN). -/
  broken : Vector Bool 28
  /-- demanded steps per zone (14 R448). -/
  demand : Vector Nat 18
  /-- the zone read at or above HOT in the last sample (14 R452). -/
  hotOnce : Vector Bool 18
  /-- the zone is in alarm (14 R448). -/
  alarm : Vector Bool 18
  /-- the zone is shut down (14 R452). -/
  shut : Vector Bool 18
  /-- throttle step (14 THERM_STEP). -/
  step : Nat
  /-- write window open (14 R450). -/
  window : Bool
  /-- set from a first sample since Dawn (14 R450). -/
  windowSet : Bool
  /-- counter (14 THERM_ALARMS). -/
  alarms : Nat
  /-- NV counter (14 THERM_HOT_STOPS). -/
  hotStops : Nat
  /-- beat H of a controller hot stop in progress or awaiting restart (14 R453). -/
  hotAt : Option Nat
  /-- zone that declared it (14 R453). -/
  hotZone : Nat
  /-- its reading (14 R453). -/
  hotTemp : Int
  deriving DecidableEq, Repr

/-- Therm right after reset. -/
def Therm.init : Therm where
  reading := Vector.replicate 28 640
  rawSince := Vector.replicate 28 0
  mateRef := Vector.replicate 28 []
  broken := Vector.replicate 28 false
  demand := Vector.replicate 18 0
  hotOnce := Vector.replicate 18 false
  alarm := Vector.replicate 18 false
  shut := Vector.replicate 18 false
  step := 0
  window := false
  windowSet := false
  alarms := 0
  hotStops := 0
  hotAt := none
  hotZone := 0
  hotTemp := 0

/-- One SRAM bank. -/
structure MemBank where
  /-- macros in use (15 MEM_BANK_INFO). -/
  inUse : Nat
  /-- rows on soft repair (15 MEM_BANK_INFO). -/
  soft : Nat
  /-- rows on fuse repair (15 MEM_BANK_INFO). -/
  fused : Nat
  /-- corrected words (15 MEM_BANK_INFO). -/
  ce : Nat
  /-- uncorrectable words (15 MEM_BANK_INFO). -/
  ue : Nat
  /-- 0 good, 1 degraded, 2 failed (15 MEM_BANK_INFO). -/
  health : Nat
  deriving DecidableEq, Repr

/-- MemBank right after reset. -/
def MemBank.init : MemBank where
  inUse := 0
  soft := 0
  fused := 0
  ce := 0
  ue := 0
  health := 0

/-- On-chip memories. -/
structure Mem where
  /-- banks (15 R459). -/
  banks : Vector MemBank 11
  /-- rows on soft repair: macro, row, spare (15 R465). -/
  softRows : List RowRepair
  /-- fuse repair records (15 R466). -/
  fuseRows : List RowRepair
  /-- state of the requested test (15 MEM_TEST_STATE). -/
  testState : Nat
  /-- its bank (15 MEM_TEST_STATE). -/
  testBank : Nat
  /-- its unit (15 MEM_TEST_STATE). -/
  testUnit : Nat
  /-- content-preserving (15 R464). -/
  testPreserve : Bool
  /-- beat of the SET (15 R464). -/
  testAt : Nat
  /-- counter (15 MEM_CE_TOTAL). -/
  ceTotal : Nat
  /-- counter (15 MEM_UE_TOTAL). -/
  ueTotal : Nat
  /-- rows on repair per channel buffer (15 MEM_CHBUF_INFO). -/
  chbufRows : Vector Nat 128
  /-- channel out of service under R467 (15 MEM_CHBUF_INFO). -/
  chbufOut : Vector Bool 128
  /-- corrected words (15 MEM_CHBUF_INFO). -/
  chbufCe : Vector Nat 128
  /-- Servitors halted (15 R467). -/
  servHalted : Vector Bool 8
  /-- spare rows that failed a test: macro, spare (15 R461). -/
  badSpares : List (Nat × Nat) := []
  /-- algorithm of the requested test: March SS (15 R464). -/
  testSs : Bool := false
  /-- background of the requested test (15 R464). -/
  testBkg : Bool := false
  deriving DecidableEq, Repr

/-- Mem right after reset. -/
def Mem.init : Mem where
  banks := Vector.replicate 11 MemBank.init
  softRows := []
  fuseRows := []
  testState := 0
  testBank := 0
  testUnit := 0
  testPreserve := false
  testAt := 0
  ceTotal := 0
  ueTotal := 0
  chbufRows := Vector.replicate 128 0
  chbufOut := Vector.replicate 128 false
  chbufCe := Vector.replicate 128 0
  servHalted := Vector.replicate 8 false

/-- Boot flash and firmware. -/
structure Nor where
  /-- log entries of the system region, both banks (16 R483). -/
  log : List NorEntry
  /-- next ESEQ (16 R483). -/
  eseq : Nat
  /-- entries being written, not yet durable (16 R484). -/
  writing : List NorEntry
  /-- sector erase in progress (16 R486). -/
  erasing : Option (Nat × Nat)
  /-- active bank (16 BOOTCTL). -/
  active : Nat
  /-- previous bank (16 BOOTCTL). -/
  prev : Option Nat
  /-- on trial (16 BOOTCTL). -/
  trial : Bool
  /-- attempts (16 BOOTCTL). -/
  attempts : Nat
  /-- image areas (16 R488). -/
  images : Vector Image 2
  /-- staging state (16 FW_STAGE_STATE). -/
  stage : StageSt
  /-- PRELOADED (16 FW_STAGE_STATE). -/
  preloaded : Bool
  /-- bytes from FW_DL_NEXT on that an interrupted attempt has programmed (16 R480, R491). -/
  dlProgrammed : Nat := 0
  /-- next offset (16 FW_DL_NEXT). -/
  dlNext : Nat
  /-- interrupted attempts (16 R491). -/
  dlTries : Nat
  /-- block being stored: context, offset, bytes (16 R490). -/
  dlBusy : Option (Nat × Nat × Nat)
  /-- live activation: context and step reached (16 R496). -/
  activating : Option (Nat × Nat)
  /-- its admission beat (16 R496). -/
  actAt : Nat
  /-- S_w of the latest live activation (16 FW_SWITCH_BEAT). -/
  switchBeat : Nat
  /-- Servitors restarted onto the new code (16 R496). -/
  restarted : Nat
  /-- security version floor (16 FW_SVN_MIN). -/
  svnMin : Nat
  /-- schema in force (16 FW_SCHEMA). -/
  schema : Nat
  /-- NV values kept under the previous schema while on trial (16 R498). -/
  oldNv : List (Nat × BitVec 64)
  /-- counter (16 FW_WDT_EXPIRIES). -/
  wdtExpiries : Nat
  /-- counter (16 FW_BUSY_FAULTS). -/
  busyFaults : Nat
  /-- counter (16 FW_PROG_REFUSED). -/
  progRefused : Nat
  /-- counter (16 FW_ERASE_SUSPENDS). -/
  eraseSuspends : Nat
  /-- system sectors in use (0-255 within the region, the same in both banks), oldest first (16 R485). -/
  sysUsed : List Nat
  /-- bytes written in the newest sector in use (16 R485). -/
  headOff : Nat
  /-- next image sector of the staging bank to erase (16 R495). -/
  eraseNext : Nat
  /-- NV counter (16 FW_ACTIVATIONS). -/
  activations : Nat
  /-- NV record (16 FW_LAST_ACTIVATION). -/
  lastAct : BitVec 48
  /-- anchor in the system area (16 ANCHOR). -/
  anchor : Option Anchor
  /-- macro, row, successive Dawns on soft repair (16 REPAIR). -/
  repairLog : List (Nat × Nat × Nat)
  deriving DecidableEq, Repr

/-- Nor right after reset. -/
def Nor.init : Nor where
  log := []
  eseq := 1
  writing := []
  erasing := none
  active := 0
  prev := none
  trial := false
  attempts := 0
  images := Vector.replicate 2 Image.init
  stage := .blank
  preloaded := false
  dlNext := 0
  dlTries := 0
  dlBusy := none
  activating := none
  actAt := 0
  switchBeat := 0
  restarted := 0
  svnMin := 0
  schema := 1
  oldNv := []
  wdtExpiries := 0
  busyFaults := 0
  progRefused := 0
  eraseSuspends := 0
  sysUsed := []
  headOff := 0
  eraseNext := 0
  activations := 0
  lastAct := 0
  anchor := none
  repairLog := []

/-- Security and life cycle. -/
structure Sec where
  /-- LIFE fuses (17 R503). -/
  life : Life
  /-- BENCHCLOSE fuse (17 R503). -/
  benchClose : Bool
  /-- SECRET burned to all ones (SCRAPPED); its value is Config's (17 R503). -/
  secretBlown : Bool
  /-- TAMPER bits burned (17 R503). -/
  tampers : Nat
  /-- FWKEY fuses (17 R503). -/
  fwKeys : Vector KeySlot 4
  /-- CAKEY fuses (17 R503). -/
  caKeys : Vector KeySlot 4
  /-- RWL lock (17 SEC_LOCK). -/
  lock : Bool
  /-- the vault is zeroed (no ROOT, KEK or keys) (15 R472). -/
  vaultZero : Bool
  /-- life-cycle state ROOT was derived with (17 R505). -/
  rootLife : Life
  /-- tamper count ROOT was derived with (17 R505). -/
  rootTampers : Nat
  /-- NSKEY and NSTAG entries in the vault, most recent first (15 R469). -/
  nskeys : List VaultKey
  /-- epoch of the previous system key (15 R469). -/
  sysEpochPrev : Nat
  /-- current KEYREC entries (17 R515). -/
  keyrecs : List KeyRec
  /-- namespaces whose KEYABLE bit is set (17 R519). -/
  keyable : List Nat
  /-- SEC_EPOCH_NEXT (17 R514). -/
  epochNext : Nat
  /-- current system key epoch (17 SEC_SYS_EPOCH). -/
  sysEpoch : Nat
  /-- system epochs of this state (17 R514). -/
  sysEpochs : Nat
  /-- sectors awaiting scrub (17 R516). -/
  scrub : List Nat
  /-- installed certificate (17 R512). -/
  cert : Option (List Byte)
  /-- 0 none, 1 installed, 2 MISMATCH (17 SEC_CERT_STATE). -/
  certState : Nat
  /-- certificate buffer (17 SEC_CERT_BUF). -/
  certBuf : List (Nat × BitVec 64)
  /-- NV counter (17 SEC_IMPORT_FAILS). -/
  importFails : Nat
  /-- NV counter (17 SEC_TAMPER_EVENTS). -/
  tamperEvents : Nat
  /-- NV record (17 SEC_TAMPER_LAST). -/
  tamperLast : BitVec 56
  /-- beat T of the tamper response in progress (17 R523). -/
  tamperAt : Option Nat
  /-- causes that persist (17 R523). -/
  tamperCauses : List Nat
  /-- nonce of the last evidence computed (17 R513). -/
  nonce : Option (List Byte)
  /-- last evidence computed (17 R513). -/
  evidence : List Byte
  /-- rotations of the system key that act and whose key is still to be generated (17 R514, R525). -/
  rotate : Nat
  /-- epoch of a rotated system key whose KEYREC is being written (17 R514). -/
  rotKey : Option Nat
  /-- certificate committed, installed from the next beat (17 R512, R525). -/
  certNew : Option (List Byte)
  deriving DecidableEq, Repr

/-- Sec right after reset. -/
def Sec.init : Sec where
  life := .sealed
  benchClose := true
  secretBlown := false
  tampers := 0
  fwKeys := Vector.replicate 4 KeySlot.init
  caKeys := Vector.replicate 4 KeySlot.init
  lock := false
  vaultZero := true
  rootLife := .sealed
  rootTampers := 0
  nskeys := []
  sysEpochPrev := 0
  keyrecs := []
  keyable := []
  epochNext := 2
  sysEpoch := 0
  sysEpochs := 0
  scrub := []
  cert := none
  certState := 0
  certBuf := []
  importFails := 0
  tamperEvents := 0
  tamperLast := 0
  tamperAt := none
  tamperCauses := []
  nonce := none
  evidence := []
  rotate := 0
  rotKey := none
  certNew := none

/-- Sideband. -/
structure Side where
  /-- sideband pending event bits (11 R362). -/
  pend : BitVec 8
  /-- ALERT_N driven low (11 R362). -/
  alert : Bool
  /-- endpoint ID (11 HOST_MCTP_EID). -/
  eid : Nat
  /-- SLOT_ID straps (11 R359). -/
  slotId : Nat
  /-- counter (11 HOST_SB_MESSAGES). -/
  messages : Nat
  /-- counter (11 HOST_SB_ERRORS). -/
  errors : Nat
  /-- message being assembled from packets (11 R360). -/
  asm : List Byte
  /-- a start-of-message packet has arrived (11 R360). -/
  asmOn : Bool
  /-- source endpoint, tag owner and tag of the message being assembled (11 R360). -/
  asmKey : Nat
  /-- packet sequence number that message's next packet carries (11 R360). -/
  asmSeq : Nat
  /-- an ADMIN request is outstanding (11 R364). -/
  adminBusy : Bool
  /-- SEQ of that request (11 R361). -/
  adminSeq : Nat
  /-- the queue's entry awaiting decision (11 R364). -/
  adminEntry : Option Entry
  /-- mailbox buffer (11 R364). -/
  adminData : List Byte
  /-- deficit of the sideband queue (11 R364). -/
  deficit : Nat
  /-- EVENTS log page, newest first (11 R367). -/
  events : List EventRec
  deriving DecidableEq, Repr

/-- Side right after reset. -/
def Side.init : Side where
  pend := 0
  alert := false
  eid := 0
  slotId := 0
  messages := 0
  errors := 0
  asm := []
  asmOn := false
  asmKey := 0
  asmSeq := 0
  adminBusy := false
  adminSeq := 0
  adminEntry := none
  adminData := []
  deficit := 0
  events := []

/-- The module. -/
structure State where
  /-- BEAT (01 R10, R17, R20). -/
  beat : Nat
  /-- fraction of BEAT in 1/131,072 beats (01 R18). -/
  beatFrac : Nat
  /-- functions present (11 R345). -/
  fns : List HostFn
  /-- host links (11 R344). -/
  links : Vector HostLink 6
  /-- ring pairs that are not NONE (03 R76). -/
  rings : List Ring
  /-- planner (02 R31). -/
  plan : Planner
  /-- contexts in use (04 R120). -/
  ctxs : List Ctx
  /-- ZCI machine (04 R149). -/
  zci : Zci
  /-- translation engine (06 R187). -/
  xlat : Xlat
  /-- media (07 R227). -/
  media : Media
  /-- care engines (08 R265). -/
  care : Care
  /-- flash channels (09 R296). -/
  flash : Flash
  /-- data movers (10 R324). -/
  movers : Movers
  /-- twin (12 R369). -/
  twin : Twin
  /-- Cane (12 R392). -/
  cane : Cane
  /-- power entry (13 R403). -/
  power : Power
  /-- times of day and domains (14 R425). -/
  day : Day
  /-- thermal control (14 R445). -/
  therm : Therm
  /-- on-chip memories (15 R458). -/
  mem : Mem
  /-- boot flash and firmware (16 R475). -/
  nor : Nor
  /-- security (17 R503). -/
  sec : Sec
  /-- sideband (11 R358). -/
  side : Side
  /-- settings written by SET, by ID, ascending; an unlisted setting holds its reset value (01 R26-R28). -/
  nv : List (Nat × BitVec 64)
  /-- settings SET in this beat that act from the next, by ID (01 R28, 02 R75, 03 R115, 04 R149, 09 R323). -/
  due : List (Nat × BitVec 64)
  /-- what the module has sent, oldest first: host writes, MSI-X messages, read data, frames, sideband responses (10 R340, 12 R379, 11 R361). -/
  out : List Out
  /-- counter of free values drawn (the model's own field) (model). -/
  freeCtr : Nat
  /-- commands waiting, first in, first out (model). -/
  pending : List Instr
  deriving DecidableEq, Repr

/-- Why the module stops on a command. -/
inductive Fault where
  /-- Raised by a register access whose offset lies outside the 8 MiB of BAR0 (R355: the block has
  no such address). Safe: nothing is claimed of what such an access does. -/
  | outsideBar (offset : Nat)
  deriving DecidableEq, Repr

/-- Why the model refuses a command. -/
inductive Refusal where
  /-- Raised by the arm of a command whose meaning is not written. Safe: no next state. -/
  | notModelled (mnemonic : String)
  deriving DecidableEq, Repr

/-- The module right after reset: the always-on domain just ready, before Dawn step 1 (R20, R407). -/
def State.reset : State where
  beat := 0
  beatFrac := 0
  fns := []
  links := Vector.replicate 6 HostLink.init
  rings := []
  plan := Planner.init
  ctxs := []
  zci := Zci.init
  xlat := Xlat.init
  media := Media.init
  care := Care.init
  flash := Flash.init
  movers := Movers.init
  twin := Twin.init
  cane := Cane.init
  power := Power.init
  day := Day.init
  therm := Therm.init
  mem := Mem.init
  nor := Nor.init
  sec := Sec.init
  side := Side.init
  nv := []
  due := []
  out := []
  freeCtr := 0
  pending := []

end Sys2Proof.Machine
end

