-- ==== Sys2Proof/Machine/Ops.lean ====
section
/-! DEFINITION. The named operations: sparse bytes, byte order, keyed lists, the components of the
state, functions, rings, contexts, module events, interrupt messages, bookings. -/

namespace Sys2Proof.Machine

/-! ### Sparse bytes (slab buffers, granules): addresses strictly rising, no zero byte listed -/

/-- The byte at an address; an unlisted byte is zero (R124: buffers start zero-filled). -/
def Mem.read : List Host.Cell → Nat → Byte
  | [], _ => 0
  | (a, b) :: m, x => if x = a then b else if x < a then 0 else Mem.read m x

/-- Write one byte, keeping the canonical form. -/
def Mem.write : List Host.Cell → Nat → Byte → List Host.Cell
  | [], x, v => if v = 0 then [] else [(x, v)]
  | (a, b) :: m, x, v =>
    if x = a then (if v = 0 then m else (a, v) :: m)
    else if x < a then (if v = 0 then (a, b) :: m else (x, v) :: (a, b) :: m)
    else (a, b) :: Mem.write m x v

/-- The canonical form above a bound: addresses strictly rising from it, no zero listed. -/
def Mem.wfFrom : Nat → List Host.Cell → Bool
  | _, [] => true
  | lo, (a, b) :: m => decide (lo ≤ a) && decide (b ≠ 0) && Mem.wfFrom (a + 1) m

/-- The canonical form of sparse bytes. -/
def Memory.wf (m : List Host.Cell) : Bool := Mem.wfFrom 0 m

/-- Read n bytes from an address. -/
def Mem.readN (m : List Host.Cell) (a n : Nat) : List Byte := (List.range n).map fun i => Mem.read m (a + i)

/-- Write bytes from an address, in order. -/
def Mem.writeN : List Host.Cell → Nat → List Byte → List Host.Cell
  | m, _, [] => m
  | m, a, b :: bs => Mem.writeN (Mem.write m a b) (a + 1) bs

/-- Bytes as sparse storage from address 0. -/
def Mem.ofList (bs : List Byte) : List Host.Cell := Mem.writeN [] 0 bs

/-- The bytes of `m` in [a, a + n), moved to start at `dst`. -/
def Mem.slice (m : List Host.Cell) (a n dst : Nat) : List Host.Cell :=
  (m.filter fun c => decide (a ≤ c.1 ∧ c.1 < a + n)).map fun c => (c.1 - a + dst, c.2)

/-- `m` with [a, a + n) replaced by the cells of `src`, whose addresses count from 0. -/
def Mem.splice (m : List Host.Cell) (a n : Nat) (src : List Host.Cell) : List Host.Cell :=
  (m.filter fun c => decide (c.1 < a)) ++ Mem.slice src 0 n a ++ (m.filter fun c => decide (a + n ≤ c.1))

/-! ### Byte order: little-endian (R7) -/

/-- The value of bytes, least significant first. -/
def leNat : List Byte → Nat
  | [] => 0
  | b :: bs => b.toNat + 256 * leNat bs

/-- n bytes of a value, least significant first. -/
def leBytes : Nat → Nat → List Byte
  | 0, _ => []
  | n + 1, v => BitVec.ofNat 8 v :: leBytes n (v / 256)

/-- The field of bytes lo .. lo + n - 1 of a structure. -/
def field (bs : List Byte) (lo n : Nat) : Nat := leNat ((bs.drop lo).take n)

/-- n bytes of a list, zeros beyond its end. -/
def padTo (n : Nat) (bs : List Byte) : List Byte := bs.take n ++ List.replicate (n - bs.length) 0

/-- Bits [hi:lo] of a natural number. -/
def bits (v hi lo : Nat) : Nat := v / 2 ^ lo % 2 ^ (hi + 1 - lo)

/-- Bit k of a natural number, as a Bool. -/
def bit (v k : Nat) : Bool := v / 2 ^ k % 2 == 1

/-- A Bool as 0 or 1. -/
def b2n (b : Bool) : Nat := if b then 1 else 0

/-- A counter that saturates at 2^64 - 1 (R75, R115, R149 and the other settings tables). -/
def satAdd (n k : Nat) : Nat := min (n + k) (2 ^ 64 - 1)

/-- Sum of a list. -/
def sum (l : List Nat) : Nat := l.foldl (· + ·) 0

/-- ceil(n / d). -/
def ceilDiv (n d : Nat) : Nat := (n + d - 1) / d

/-! ### Keyed lists, keys rising -/

/-- The value at a key. -/
def Assoc.get {α : Type} : List (Nat × α) → Nat → Option α
  | [], _ => none
  | (k, v) :: l, x => if x = k then some v else Assoc.get l x

/-- The value at a key of a list in any order. -/
def Assoc.find {α : Type} (l : List (Nat × α)) (x : Nat) : Option α := (l.find? fun p => p.1 == x).map Prod.snd

/-- Set a key, keeping keys rising. -/
def Assoc.set {α : Type} : List (Nat × α) → Nat → α → List (Nat × α)
  | [], x, v => [(x, v)]
  | (k, w) :: l, x, v =>
    if x = k then (k, v) :: l else if x < k then (x, v) :: (k, w) :: l else (k, w) :: Assoc.set l x v

/-- Remove a key. -/
def Assoc.del {α : Type} (l : List (Nat × α)) (x : Nat) : List (Nat × α) := l.filter fun p => p.1 != x

/-- Keys strictly rising from a bound. -/
def Assoc.wfFrom {α : Type} : Nat → List (Nat × α) → Bool
  | _, [] => true
  | lo, (k, _) :: l => decide (lo ≤ k) && Assoc.wfFrom (k + 1) l

/-- The element at index i, with a default. -/
def nth {α : Type} (l : List α) (i : Nat) (d : α) : α := (l[i]?).getD d

/-- A vector element, with a default out of range. -/
def vget {α : Type} {n : Nat} (v : Vector α n) (i : Nat) (d : α) : α := (v[i]?).getD d

/-- Set a vector element; out of range changes nothing. -/
def vset {α : Type} {n : Nat} (v : Vector α n) (i : Nat) (x : α) : Vector α n := v.setIfInBounds i x

/-- The elements of a list with those a test picks changed. -/
def updIf {α : Type} (p : α → Bool) (f : α → α) (l : List α) : List α := l.map fun x => if p x then f x else x

/-- The lowest number from `lo` below `lo + fuel` that a test takes. -/
def lowest (p : Nat → Bool) : Nat → Nat → Option Nat
  | _, 0 => none
  | lo, fuel + 1 => if p lo then some lo else lowest p (lo + 1) fuel

/-- Insert by a rising key, after equal keys. -/
def insertBy {α : Type} (key : α → Nat) (x : α) : List α → List α
  | [] => [x]
  | y :: l => if key x < key y then x :: y :: l else y :: insertBy key x l

/-- Sort by a rising key; equal keys keep their order. -/
def sortBy {α : Type} (key : α → Nat) (l : List α) : List α := l.foldl (fun m x => insertBy key x m) []

/-! ### Components of the state: each changed through its own operation -/

/-- Change the component `beat`. -/
def State.updBeat (s : State) (f : Nat → Nat) : State := { s with beat := f s.beat }

/-- Change the component `beatFrac`. -/
def State.updBeatFrac (s : State) (f : Nat → Nat) : State := { s with beatFrac := f s.beatFrac }

/-- Change the component `fns`. -/
def State.updFns (s : State) (f : (List HostFn) → (List HostFn)) : State := { s with fns := f s.fns }

/-- Change the component `links`. -/
def State.updLinks (s : State) (f : (Vector HostLink 6) → (Vector HostLink 6)) : State := { s with links := f s.links }

/-- Change the component `rings`. -/
def State.updRings (s : State) (f : (List Ring) → (List Ring)) : State := { s with rings := f s.rings }

/-- Change the component `plan`. -/
def State.updPlan (s : State) (f : Planner → Planner) : State := { s with plan := f s.plan }

/-- Change the component `ctxs`. -/
def State.updCtxs (s : State) (f : (List Ctx) → (List Ctx)) : State := { s with ctxs := f s.ctxs }

/-- Change the component `zci`. -/
def State.updZci (s : State) (f : Zci → Zci) : State := { s with zci := f s.zci }

/-- Change the component `xlat`. -/
def State.updXlat (s : State) (f : Xlat → Xlat) : State := { s with xlat := f s.xlat }

/-- Change the component `media`. -/
def State.updMedia (s : State) (f : Media → Media) : State := { s with media := f s.media }

/-- Change the component `care`. -/
def State.updCare (s : State) (f : Care → Care) : State := { s with care := f s.care }

/-- Change the component `flash`. -/
def State.updFlash (s : State) (f : Flash → Flash) : State := { s with flash := f s.flash }

/-- Change the component `movers`. -/
def State.updMovers (s : State) (f : Movers → Movers) : State := { s with movers := f s.movers }

/-- Change the component `twin`. -/
def State.updTwin (s : State) (f : Twin → Twin) : State := { s with twin := f s.twin }

/-- Change the component `cane`. -/
def State.updCane (s : State) (f : Cane → Cane) : State := { s with cane := f s.cane }

/-- Change the component `power`. -/
def State.updPower (s : State) (f : Power → Power) : State := { s with power := f s.power }

/-- Change the component `day`. -/
def State.updDay (s : State) (f : Day → Day) : State := { s with day := f s.day }

/-- Change the component `therm`. -/
def State.updTherm (s : State) (f : Therm → Therm) : State := { s with therm := f s.therm }

/-- Change the component `mem`. -/
def State.updMem (s : State) (f : Mem → Mem) : State := { s with mem := f s.mem }

/-- Change the component `nor`. -/
def State.updNor (s : State) (f : Nor → Nor) : State := { s with nor := f s.nor }

/-- Change the component `sec`. -/
def State.updSec (s : State) (f : Sec → Sec) : State := { s with sec := f s.sec }

/-- Change the component `side`. -/
def State.updSide (s : State) (f : Side → Side) : State := { s with side := f s.side }

/-- Change the component `nv`. -/
def State.updNv (s : State) (f : (List (Nat × BitVec 64)) → (List (Nat × BitVec 64))) : State := { s with nv := f s.nv }

/-- Change the component `due`. -/
def State.updDue (s : State) (f : (List (Nat × BitVec 64)) → (List (Nat × BitVec 64))) : State := { s with due := f s.due }

/-- Change the component `out`. -/
def State.updOut (s : State) (f : (List Out) → (List Out)) : State := { s with out := f s.out }

/-- Change the component `freeCtr`. -/
def State.updFreeCtr (s : State) (f : Nat → Nat) : State := { s with freeCtr := f s.freeCtr }

/-! ### Stored settings -/

/-- The value SET left in a stored setting, or its reset value (R29). -/
def nvVal (s : State) (id : Nat) : Nat :=
  match Assoc.get s.nv id with
  | some v => v.toNat
  | none => match findSetting id with
    | some r => r.reset
    | none => 0

/-- Store a setting's value; the reset value is not listed. -/
def storeNv (s : State) (id : Nat) (v : BitVec 64) : State := s.updNv fun l => Assoc.set l id v

/-- Keep a setting's new value until the next beat, from which it acts (R28). -/
def storeDue (s : State) (id : Nat) (v : BitVec 64) : State := s.updDue fun l => Assoc.set l id v

/-- Draw the next free value (log entry 3). -/
def drawFree (s : State) : BitVec 64 × State := (Config.freeValue s.freeCtr, s.updFreeCtr (· + 1))

/-- Append to what the module has sent. -/
def emit (s : State) (o : Out) : State := s.updOut (· ++ [o])

/-- Change a mover engine. -/
def modEngine (s : State) (e : Nat) (f : Engine → Engine) : State :=
  s.updMovers fun m => { m with eng := vset m.eng e (f (vget m.eng e Engine.init)) }

/-- The channel an internal copy to a paced stream runs on: 37 to the punty link, 38 and 39 to the Cane
links (log entry 12). -/
def pacedChan (p : Nat) : Nat := 37 + p

/-- Queue an internal copy of a frame under its pacing source; its first burst starts while the source
asserts its request (R336). -/
def queueFrame (s : State) (p len : Nat) (o : Out) : State :=
  modEngine s (pacedChan p / 16) fun e =>
    { e with descs := e.descs ++ [{ chan := pacedChan p, host := 0, len := len, toHost := false, fn := 0, ns := false, ro := false,
                                    irq := true, internal := true, owner := 0, pacer := some p,
                                    started := vget s.movers.pacer p false, frame := some o }] }

/-! ### Functions (R76, R345) -/

/-- The function with number n = 64 × LINK + FUNC, if present. -/
def getFn (s : State) (n : Nat) : Option HostFn := s.fns.find? fun f => f.n == n

/-- Change a function. -/
def modFn (s : State) (n : Nat) (f : HostFn → HostFn) : State := s.updFns (updIf (fun x => x.n == n) f)

/-- The link of a function number. -/
def fnLink (n : Nat) : Nat := n / 64

/-- Whether the module may write host memory for the function (R352). -/
def HostFn.writable (f : HostFn) : Bool := !f.d3hot && f.busMaster

/-- The state of a host link; a link that does not exist reads as absent. -/
def getLink (s : State) (l : Nat) : HostLink := vget s.links l HostLink.init

/-- Change a host link. -/
def modLink (s : State) (l : Nat) (f : HostLink → HostLink) : State := s.updLinks fun v => vset v l (f (vget v l HostLink.init))

/-- The MSI-X table entry of a vector; an entry not written is masked (R353). -/
def HostFn.msix (f : HostFn) (v : Nat) : MsixEntry := (Assoc.get f.msixTable v).getD { addr := 0, data := 0, masked := true }

/-- Send one MSI-X message, or set its Pending Bit while it is masked or the function cannot write
(R352, R353); with MSI-X disabled, and while a reset of the function runs, nothing is sent (R111). -/
def sendMsix (s : State) (n v : Nat) : State :=
  match getFn s n with
  | none => s
  | some f =>
    if !f.msixEnable || f.resetting || decide (f.vectors ≤ v) then s
    else if f.msixMask || (f.msix v).masked || !f.writable then
      modFn s n fun f => { f with pba := if f.pba.contains v then f.pba else f.pba ++ [v] }
    else emit s (.msix n v (f.msix v).addr (f.msix v).data)

/-- Set a GEVENT bit in one function; a bit that rises unmasked sends one message (R23). -/
def raiseIn (s : State) (n k : Nat) : State :=
  match getFn s n with
  | none => s
  | some f =>
    let s' := modFn s n fun f => { f with gevent := f.gevent ||| (1#8 <<< k) }
    if !f.gevent.getLsbD k && !f.cfgMask.getLsbD k then sendMsix s' n f.cfgVector.toNat else s'

/-- A module-wide event: its bit in every function (R22). -/
def raiseEvent (s : State) (k : Nat) : State := (s.fns.map HostFn.n).foldl (fun s n => raiseIn s n k) s

/-! ### Rings (R76, R92, R94, R99) -/

/-- The ring pair with global number g, if it is not NONE. -/
def getRing (s : State) (g : Nat) : Option Ring := s.rings.find? fun r => r.g == g

/-- The ring pair of a function's local number. -/
def getLocal (s : State) (fn loc : Nat) : Option Ring := s.rings.find? fun r => r.fn == fn && r.loc == loc

/-- Change a ring pair. -/
def modRing (s : State) (g : Nat) (f : Ring → Ring) : State := s.updRings (updIf (fun r => r.g == g) f)

/-- Submission ring entries. -/
def Ring.sqSize (r : Ring) : Nat := 2 ^ r.sqLog2
/-- Completion ring entries. -/
def Ring.cqSize (r : Ring) : Nat := 2 ^ r.cqLog2

/-- A ring pair just created: ACTIVE, indices zero, first pass PHASE 1 (R84, R94). -/
def Ring.fresh (g fn loc : Nat) : Ring := { Ring.init with g := g, fn := fn, loc := loc }

/-- The coalescing rule (R99). -/
def coalesce (s : State) (g : Nat) : State :=
  match getRing s g with
  | none => s
  | some r =>
    if 0 < r.pend ∧ (max r.coalCount 1 ≤ r.pend ∨ r.coalBeats ≤ s.beat - r.oldest) then
      sendMsix (modRing s g fun r => { r with pend := 0 }) r.fn r.vector
    else s

/-- SLACK in a beat: the deadline minus that beat, saturating at both ends; 65,535 without one, in D7 (R92). -/
def slackAt (beat : Nat) : Option Nat → BitVec 16
  | none => 0xFFFF
  | some d => BitVec.ofNat 16 (min 65535 (d - beat))

/-- Whether the module may write host memory for a function that is present. -/
def fnWritable (s : State) (n : Nat) : Bool := ((getFn s n).map HostFn.writable).getD false

/-- A completion that falls due for a function that cannot be written is kept, in order, once (R352). -/
def keepCompletion (s : State) (n : Nat) (k : KeptCompletion) : State :=
  modFn s n fun f => { f with kept := if k.ctx.isSome && f.kept.any (fun j => j.ctx == k.ctx) then f.kept else f.kept ++ [k] }

/-- Write a completion entry into a ring in index order (R94); then the coalescing rule. -/
def writeCompletion (s : State) (g : Nat) (status cid : BitVec 16) (detail : BitVec 8)
    (result adm : BitVec 64) (dline : Option Nat) (noIrq : Bool) : State :=
  match getRing s g with
  | none => s
  | some r =>
    let comp : Completion :=
      { status := status, cid := cid, sqHead := BitVec.ofNat 16 r.sqHead, phase := r.phase, detail := detail,
        result := result, admSeq := adm, cbeat := BitVec.ofNat 48 s.beat, slack := slackAt s.beat dline }
    let s1 := modRing s g fun r =>
      { r with
        cqTail := (r.cqTail + 1) % r.cqSize
        phase := if r.cqTail + 1 = r.cqSize then !r.phase else r.phase
        oldest := if noIrq then r.oldest else if r.pend = 0 then s.beat else r.oldest
        pend := if noIrq then r.pend else r.pend + 1 }
    coalesce (emit s1 (.completion g r.cqTail comp)) g

/-! ### Contexts (R116) -/

/-- The context with number c, if in use. -/
def getCtx (s : State) (c : Nat) : Option Ctx := s.ctxs.find? fun x => x.c == c

/-- Change a context. -/
def modCtx (s : State) (c : Nat) (f : Ctx → Ctx) : State := s.updCtxs (updIf (fun x => x.c == c) f)

/-- The ring a command came from, if it came from one. -/
def Ctx.ringOf (x : Ctx) : Option Nat :=
  match x.src with
  | .ring g => some g
  | _ => none

/-! ### Namespaces (R187) -/

/-- A namespace that exists. -/
def getNs (s : State) (n : Nat) : Option Namespace := s.xlat.nss.find? fun x => x.nsid == n

/-- Change a namespace. -/
def modNs (s : State) (n : Nat) (f : Namespace → Namespace) : State :=
  s.updXlat fun x => { x with nss := updIf (fun y => y.nsid == n) f x.nss }

/-- Granule bytes. -/
def Namespace.granule (n : Namespace) : Nat := if n.g16k then 16384 else 4096

/-- Slots of a granule. -/
def Namespace.gslots (n : Namespace) : Nat := if n.g16k then 4 else 1

/-- The map entry of an index (R193, R191: an index never set is unmapped). -/
def mapGet (s : State) (i : Nat) : Loc := (Assoc.get s.xlat.map i).getD .unmapped

/-- Set a map entry; an unmapped entry is not listed. -/
def Xlat.setMap (x : Xlat) (i : Nat) (l : Loc) : Xlat :=
  { x with map := match l with
    | .unmapped => Assoc.del x.map i
    | _ => Assoc.set x.map i l }

/-! ### Dies, octs, channels -/

/-- The oct numbered k. -/
def getOct (s : State) (k : Nat) : Oct := vget s.flash.octs k Oct.init

/-- Change an oct. -/
def modOct (s : State) (k : Nat) (f : Oct → Oct) : State :=
  s.updFlash fun x => { x with octs := vset x.octs k (f (vget x.octs k Oct.init)) }

/-- A channel. -/
def getChan (s : State) (n : Nat) : Chan := vget s.flash.chans n Chan.init

/-- Change a channel. -/
def modChan (s : State) (n : Nat) (f : Chan → Chan) : State :=
  s.updFlash fun x => { x with chans := vset x.chans n (f (vget x.chans n Chan.init)) }

/-- A die that is present. -/
def getDie (s : State) (d : Nat) : Option Die := s.flash.dies.find? fun x => x.d == d

/-- Change a die. -/
def modDie (s : State) (d : Nat) (f : Die → Die) : State :=
  s.updFlash fun x => { x with dies := updIf (fun y => y.d == d) f x.dies }

/-- A die that can serve: identified, not dark alone, in a LIVE oct on a channel in service (R307, R312, R315). -/
def dieUsable (s : State) (d : Nat) : Bool :=
  match getDie s d with
  | some x => x.ready && !x.dark && (getOct s (d / 128)).st == .live && (getChan s (d / 16)).svc == 1
  | none => false

/-! ### Status codes (R100) -/

namespace St
def ok : BitVec 16 := 0x0000
def okRebuilt : BitVec 16 := 0x0001
def classFull : BitVec 16 := 0x0101
def noSpace : BitVec 16 := 0x0102
def throttled : BitVec 16 := 0x0103
def writeWindow : BitVec 16 := 0x0104
def unarmed : BitVec 16 := 0x0105
def badEntry : BitVec 16 := 0x0201
def lengthLimit : BitVec 16 := 0x0202
def bufferShort : BitVec 16 := 0x0203
def chainTooLong : BitVec 16 := 0x0204
def range : BitVec 16 := 0x0205
def badNamespace : BitVec 16 := 0x0206
def state : BitVec 16 := 0x0301
def readOnlyWorn : BitVec 16 := 0x0302
def domainOff : BitVec 16 := 0x0303
def deepPending : BitVec 16 := 0x0401
def unrecoverable : BitVec 16 := 0x0402
def integrity : BitVec 16 := 0x0403
def compareMismatch : BitVec 16 := 0x0404
def hostBusError : BitVec 16 := 0x0501
def sidebandBusy : BitVec 16 := 0x0502
def zciFault : BitVec 16 := 0x0601
def aborted : BitVec 16 := 0x0701
def abortTooLate : BitVec 16 := 0x0702
def abortNotFound : BitVec 16 := 0x0703
def ringReset : BitVec 16 := 0x0704
def superseded : BitVec 16 := 0x0705
def denied : BitVec 16 := 0x0801
def signature : BitVec 16 := 0x0802
def locked : BitVec 16 := 0x0803
def twinUnavailable : BitVec 16 := 0x0901
def caneUnreachable : BitVec 16 := 0x0902
end St

end Sys2Proof.Machine
end

