-- ==== Sys2Proof/Machine/Cipher.lean ====
section
/-! DEFINITION. The ciphers the spec names by reference: AES-256 of FIPS 197, XTS of IEEE 1619 over
whole blocks, the key wrap of RFC 3394, GCM of SP 800-38D with a nonce of 12 bytes. -/

namespace Sys2Proof.Machine

/-! ### AES-256 (FIPS 197) -/

/-- Multiplication by x modulo x^8 + x^4 + x^3 + x + 1. -/
def aesTwice (b : Byte) : Byte := if b.msb then (b <<< 1) ^^^ 0x1B else b <<< 1

/-- The product in the field of AES. -/
def aesMul (a b : Byte) : Byte :=
  ((List.range 8).foldl (fun (r, p) i => (if b.getLsbD i then r ^^^ p else r, aesTwice p)) ((0 : Byte), a)).1

/-- The inverse in that field, 0 of 0: the 254th power. -/
def aesInv (b : Byte) : Byte :=
  ((List.range 7).foldl (fun (r, p) _ => let q := aesMul p p
                                         (aesMul r q, q)) ((1 : Byte), b)).1

/-- SubBytes of one byte. -/
def aesSub (b : Byte) : Byte :=
  let v := aesInv b
  v ^^^ v.rotateLeft 1 ^^^ v.rotateLeft 2 ^^^ v.rotateLeft 3 ^^^ v.rotateLeft 4 ^^^ 0x63

/-- Its inverse. -/
def aesUnsub (b : Byte) : Byte := aesInv (b.rotateLeft 1 ^^^ b.rotateLeft 3 ^^^ b.rotateLeft 6 ^^^ 0x05)

/-- Byte-wise exclusive or of blocks. -/
def xorBlock (a b : List Byte) : List Byte := List.zipWith (· ^^^ ·) a b

/-- Word i of the key schedule, from the words before it. -/
def aesWord (w : List (List Byte)) (i : Nat) : List Byte :=
  let t := nth w (i - 1) []
  let t := if i % 8 = 0 then
      xorBlock ((t.drop 1 ++ t.take 1).map aesSub) [Nat.repeat aesTwice (i / 8 - 1) 1, 0, 0, 0]
    else if i % 8 = 4 then t.map aesSub else t
  xorBlock (nth w (i - 8) []) t

/-- The 15 round keys of a 32-byte key. -/
def aesKeys (key : List Byte) : List (List Byte) :=
  let w0 := (List.range 8).map fun i => (key.drop (4 * i)).take 4
  let w := (List.range 52).foldl (fun w i => w ++ [aesWord w (i + 8)]) w0
  (List.range 15).map fun r => ((w.drop (4 * r)).take 4).flatten

/-- ShiftRows by `k` columns a row: 1 forward, 3 back. -/
def aesShift (k : Nat) (x : List Byte) : List Byte :=
  (List.range 16).map fun i => nth x (i % 4 + 4 * ((i / 4 + k * (i % 4)) % 4)) 0

/-- MixColumns with the first row of its matrix. -/
def aesMix (row x : List Byte) : List Byte :=
  (List.range 16).map fun i => (List.range 4).foldl (fun v j =>
    v ^^^ aesMul (nth x (i / 4 * 4 + j) 0) (nth row ((j + 4 - i % 4) % 4) 0)) 0

/-- The cipher on one block, under its round keys. -/
def aesBlock (ks : List (List Byte)) (x : List Byte) : List Byte :=
  let y := ((ks.drop 1).take 13).foldl (fun x k => xorBlock (aesMix [2, 3, 1, 1] (aesShift 1 (x.map aesSub))) k)
    (xorBlock x (nth ks 0 []))
  xorBlock (aesShift 1 (y.map aesSub)) (nth ks 14 [])

/-- The inverse cipher on one block. -/
def aesUnblock (ks : List (List Byte)) (x : List Byte) : List Byte :=
  let y := ((ks.drop 1).take 13).reverse.foldl (fun x k => aesMix [14, 11, 13, 9] (xorBlock ((aesShift 3 x).map aesUnsub) k))
    (xorBlock x (nth ks 14 []))
  xorBlock ((aesShift 3 y).map aesUnsub) (nth ks 0 [])

/-! ### XTS (IEEE 1619, R235) -/

/-- The tweak of the next block: times x, byte 0 the least. -/
def xtsNext (t : Nat) : Nat := if t < 2 ^ 127 then 2 * t else (2 * t - 2 ^ 128) ^^^ 0x87

/-- The next `n` blocks of a data unit. -/
def xtsBlocks (ks : List (List Byte)) : Nat → Nat → List Byte → List Byte
  | 0, _, _ => []
  | n + 1, t, x =>
    let m := leBytes 16 t
    xorBlock (aesBlock ks (xorBlock (x.take 16) m)) m ++ xtsBlocks ks n (xtsNext t) (x.drop 16)

/-- AES-256-XTS encryption of a data unit of whole blocks: a 64-byte key, the tweak, the data. -/
def xtsEncrypt (key : List Byte) (tweak : Nat) (x : List Byte) : List Byte :=
  let t := aesBlock (aesKeys (key.drop 32)) (leBytes 16 tweak)
  xtsBlocks (aesKeys (key.take 32)) (x.length / 16) (leNat t) x

/-! ### Key wrap (RFC 3394, R515) -/

/-- A step counter into the check register, its last byte the least. -/
def wrapMix (a : List Byte) (t : Nat) : List Byte := xorBlock a (leBytes 8 t).reverse

/-- Key wrap of whole 8-byte blocks. -/
def keyWrap (kek key : List Byte) : List Byte :=
  let n := key.length / 8
  let ks := aesKeys kek
  let r := (List.range (6 * n)).foldl (fun (p : List Byte × List (List Byte)) k =>
    let b := aesBlock ks (p.1 ++ nth p.2 (k % n) [])
    (wrapMix (b.take 8) (k + 1), p.2.set (k % n) (b.drop 8)))
    (List.replicate 8 0xA6, (List.range n).map fun i => (key.drop (8 * i)).take 8)
  r.1 ++ r.2.flatten

/-- Its inverse; none where the check register is not the initial value. -/
def keyUnwrap (kek x : List Byte) : Option (List Byte) :=
  let n := x.length / 8 - 1
  let ks := aesKeys kek
  let r := (List.range (6 * n)).reverse.foldl (fun (p : List Byte × List (List Byte)) k =>
    let b := aesUnblock ks (wrapMix p.1 (k + 1) ++ nth p.2 (k % n) [])
    (b.take 8, p.2.set (k % n) (b.drop 8)))
    (x.take 8, (List.range n).map fun i => (x.drop (8 * (i + 1))).take 8)
  if r.1 = List.replicate 8 0xA6 then some r.2.flatten else none

/-! ### GCM (SP 800-38D, R395, R519) -/

/-- A block as a number, its first bit the most significant. -/
def ghashIn (x : List Byte) : BitVec 128 := BitVec.ofNat 128 (leNat (x ++ List.replicate (16 - x.length) 0).reverse)

/-- The product of GHASH. -/
def ghashMul (x y : BitVec 128) : BitVec 128 :=
  ((List.range 128).foldl (fun (z, v) i => (if x.getMsbD i then z ^^^ v else z,
    if v.getLsbD 0 then (v >>> 1) ^^^ (0xE1#128 <<< 120) else v >>> 1)) (0#128, y)).1

/-- GHASH over bytes, the last block filled with zeros; `n` blocks. -/
def ghash (h : BitVec 128) : Nat → BitVec 128 → List Byte → BitVec 128
  | 0, y, _ => y
  | n + 1, y, x => ghash h n (ghashMul (y ^^^ ghashIn (x.take 16)) h) (x.drop 16)

/-- The bytes of a GHASH value. -/
def ghashOut (y : BitVec 128) : List Byte := (leBytes 16 y.toNat).reverse

/-- The counter block of a nonce and a count. -/
def gcmCounter (nonce : List Byte) (n : Nat) : List Byte := nonce ++ (leBytes 4 n).reverse

/-- Counter mode from block count `c`; `n` blocks. -/
def gcmStream (ks : List (List Byte)) (nonce : List Byte) : Nat → Nat → List Byte → List Byte
  | 0, _, _ => []
  | n + 1, c, x => xorBlock (x.take 16) (aesBlock ks (gcmCounter nonce c)) ++ gcmStream ks nonce n (c + 1) (x.drop 16)

/-- The tag of associated data and ciphertext. -/
def gcmTag (ks : List (List Byte)) (nonce aad x : List Byte) : List Byte :=
  let h := ghashIn (aesBlock ks (List.replicate 16 0))
  let y := ghash h ((x.length + 15) / 16) (ghash h ((aad.length + 15) / 16) 0 aad) x
  let z := ghashMul (y ^^^ BitVec.ofNat 128 (aad.length * 8 * 2 ^ 64 + x.length * 8)) h
  xorBlock (ghashOut z) (aesBlock ks (gcmCounter nonce 1))

/-- AES-256-GCM seal: key, nonce, associated data, plaintext; the ciphertext with its 16-byte tag. -/
def gcmSeal (key nonce aad x : List Byte) : List Byte :=
  let ks := aesKeys key
  let c := gcmStream ks nonce ((x.length + 15) / 16) 2 x
  c ++ gcmTag ks nonce aad c

/-- AES-256-GCM open; none where the tag fails. -/
def gcmOpen (key nonce aad x : List Byte) : Option (List Byte) :=
  let ks := aesKeys key
  let c := x.take (x.length - 16)
  if gcmTag ks nonce aad c = x.drop (x.length - 16) then some (gcmStream ks nonce ((c.length + 15) / 16) 2 c) else none

end Sys2Proof.Machine
end

