-- ==== Sys2Proof/Machine/Codes.lean ====
section
/-! DEFINITION. The codes of the media format and of the stream instructions: CRC-32C, SHA3-256, the
LDPC encoder, the scrambler, the GF(2^8) arithmetic of Q parity, slot metadata. -/

namespace Sys2Proof.Machine

/-! ### CRC-32C (R176): reflected, polynomial 0x1EDC6F41 -/

/-- One bit of the reflected CRC register. -/
def crcBit (c : BitVec 32) : BitVec 32 :=
  if c.getLsbD 0 then (c >>> 1) ^^^ 0x82F63B78#32 else c >>> 1

/-- One byte into the reflected CRC register. -/
def crcByte (c : BitVec 32) (b : Byte) : BitVec 32 :=
  let c := c ^^^ b.setWidth 32
  crcBit (crcBit (crcBit (crcBit (crcBit (crcBit (crcBit (crcBit c)))))))

/-- CRC32C(bytes, prev): `prev` is the CRC of what came before, 0 for nothing (R176). -/
def crc32c (bs : List Byte) (prev : BitVec 32) : BitVec 32 := ~~~ (bs.foldl crcByte (~~~ prev))

/-! ### SHA3-256 (FIPS 202, R177) -/

/-- The lanes of the Keccak state in the order x + 5y. -/
abbrev Lanes := List (BitVec 64)

/-- Lane (x, y), coordinates mod 5. -/
def lane (a : Lanes) (x y : Nat) : BitVec 64 := nth a (x % 5 + 5 * (y % 5)) 0

/-- Rotation offsets of rho, in the order x + 5y. -/
def rhoOff : List Nat :=
  [0, 1, 62, 28, 27, 36, 44, 6, 55, 20, 3, 10, 43, 25, 39, 41, 45, 15, 21, 8, 18, 2, 61, 56, 14]

/-- The round constants of iota. -/
def iotaRc : List (BitVec 64) :=
  [0x0000000000000001, 0x0000000000008082, 0x800000000000808A, 0x8000000080008000,
   0x000000000000808B, 0x0000000080000001, 0x8000000080008081, 0x8000000000008009,
   0x000000000000008A, 0x0000000000000088, 0x0000000080008009, 0x000000008000000A] ++
  [0x000000008000808B, 0x800000000000008B, 0x8000000000008089, 0x8000000000008003,
   0x8000000000008002, 0x8000000000000080, 0x000000000000800A, 0x800000008000000A,
   0x8000000080008081, 0x8000000000008080, 0x0000000080000001, 0x8000000080008008]

/-- Build a state from a function of the coordinates. -/
def lanesOf (f : Nat → Nat → BitVec 64) : Lanes := (List.range 25).map fun i => f (i % 5) (i / 5)

/-- theta. -/
def theta (a : Lanes) : Lanes :=
  let c := (List.range 5).map fun x => lane a x 0 ^^^ lane a x 1 ^^^ lane a x 2 ^^^ lane a x 3 ^^^ lane a x 4
  let d := (List.range 5).map fun x => nth c ((x + 4) % 5) 0 ^^^ (nth c ((x + 1) % 5) 0).rotateLeft 1
  lanesOf fun x y => lane a x y ^^^ nth d x 0

/-- rho and pi. -/
def rhoPi (a : Lanes) : Lanes :=
  lanesOf fun x y => (lane a (x + 3 * y) x).rotateLeft (nth rhoOff ((x + 3 * y) % 5 + 5 * x) 0)

/-- chi. -/
def chi (a : Lanes) : Lanes := lanesOf fun x y => lane a x y ^^^ ((~~~ lane a (x + 1) y) &&& lane a (x + 2) y)

/-- iota. -/
def iota (rc : BitVec 64) (a : Lanes) : Lanes :=
  match a with
  | [] => []
  | l :: r => (l ^^^ rc) :: r

/-- Keccak-f[1600]. -/
def keccakF (a : Lanes) : Lanes := iotaRc.foldl (fun a rc => iota rc (chi (rhoPi (theta a)))) a

/-- The state as 200 bytes, each lane little-endian, and back. -/
def lanesBytes (a : Lanes) : List Byte := a.flatMap fun l => leBytes 8 l.toNat

/-- 200 bytes as lanes. -/
def bytesLanes (bs : List Byte) : Lanes := (List.range 25).map fun i => BitVec.ofNat 64 (field bs (8 * i) 8)

/-- Absorb one block of the rate, 136 bytes. -/
def absorbBlock (a : Lanes) (blk : List Byte) : Lanes :=
  keccakF ((List.range 25).map fun i => nth a i 0 ^^^ BitVec.ofNat 64 (field blk (8 * i) 8))

/-- Absorb whole blocks; `fuel` bounds their number. -/
def absorb : Nat → Lanes → List Byte → Lanes
  | 0, a, _ => a
  | fuel + 1, a, bs => if bs.length < 136 then a else absorb fuel (absorbBlock a (bs.take 136)) (bs.drop 136)

/-- Absorb what is left, pad (0x06, then 0x80 in the last byte of the block) and squeeze 32 bytes. -/
def sha3Finish (a : Lanes) (bs : List Byte) : List Byte :=
  let a := absorb (bs.length / 136) a bs
  let r := bs.drop (bs.length / 136 * 136)
  let pad := if r.length = 135 then [0x86#8] else 0x06#8 :: List.replicate (134 - r.length) 0 ++ [0x80#8]
  (lanesBytes (absorbBlock a (r ++ pad))).take 32

/-- SHA3-256 of bytes. -/
def sha3 (bs : List Byte) : List Byte := sha3Finish (List.replicate 25 0) bs

/-! ### Scrambler (R247, R248) -/

/-- The seed of a slot's sequence. -/
def scramSeed (ppn slot : Nat) : Nat :=
  let v := (ppn * 0x9E3779B1 + slot * 0x3C6EF372) % 2 ^ 64 % 2 ^ 23
  if v = 0 then 1 else v

/-- One step of the 23-bit register. -/
def scramStep (s : BitVec 23) : BitVec 23 :=
  (s >>> 1) ||| ((BitVec.ofBool (s.getLsbD 0 != s.getLsbD 18)).setWidth 23 <<< 22)

/-- The next n bits of the sequence and the register after them. -/
def scramBits : Nat → BitVec 23 → List Bool
  | 0, _ => []
  | n + 1, s => s.getLsbD 0 :: scramBits n (scramStep s)

/-- Bits to bytes, bit 0 of each byte first (R239). -/
def packBits : Nat → List Bool → List Byte
  | 0, _ => []
  | n + 1, l => BitVec.ofNat 8 ((List.range 8).foldl (fun v i => v + b2n (nth l i false) * 2 ^ i) 0) :: packBits n (l.drop 8)

/-- Bytes to bits. -/
def unpackBits (bs : List Byte) : List Bool := bs.flatMap fun b => (List.range 8).map fun i => b.getLsbD i

/-- The scrambler mask of a slot, 4,608 bytes. -/
def scramMask (psa : Nat) : List Byte :=
  packBits 4608 (scramBits 36864 (BitVec.ofNat 23 (scramSeed (psa / 4) (psa % 4))))

/-- XOR of byte lists, the length of the first. -/
def xorBytes (a b : List Byte) : List Byte := a.zipIdx.map fun p => p.1 ^^^ nth b p.2 0

/-! ### LDPC (R239, R240) -/

/-- rot(u, s)[r] = u[(r + s) mod 256]. -/
def rot256 (u : BitVec 256) (s : Nat) : BitVec 256 := u.rotateRight s

/-- The block rows of information column j. -/
def ldpcRows (j : Nat) : List Nat := [j % 14, (j + 3) % 14, (j + 7) % 14, (j + 10) % 14]

/-- The shift of the circulant of information column j in block row i. -/
def ldpcShift (i j : Nat) : Nat := (17 * i * j + 29 * i + 5 * j) % 256

/-- lam after all information columns. -/
def ldpcLam (info : List (BitVec 256)) : List (BitVec 256) :=
  info.zipIdx.foldl
    (fun lam uj => lam.zipIdx.map fun li =>
      if (ldpcRows uj.2).contains li.2 then li.1 ^^^ rot256 uj.1 (ldpcShift li.2 uj.2) else li.1)
    (List.replicate 14 0)

/-- Parity columns 2 to 13 from the one before (R240's loop over c = 1 to 12). -/
def ldpcTail (lam : List (BitVec 256)) (p0 : BitVec 256) : Nat → Nat → BitVec 256 → List (BitVec 256)
  | 0, _, _ => []
  | n + 1, c, p =>
    let q := nth lam c 0 ^^^ p ^^^ (if c = 7 then p0 else 0)
    q :: ldpcTail lam p0 n (c + 1) q

/-- The 14 parity columns. -/
def ldpcParity (info : List (BitVec 256)) : List (BitVec 256) :=
  let lam := ldpcLam info
  let p0 := lam.foldl (· ^^^ ·) 0
  let p1 := nth lam 0 0 ^^^ rot256 p0 1
  p0 :: p1 :: ldpcTail lam p0 12 1 p1

/-- The 448 parity bytes LPAR of 4,160 information bytes. -/
def ldpcEncode (bs : List Byte) : List Byte :=
  let info := (List.range 130).map fun j => BitVec.ofNat 256 (field bs (32 * j) 32)
  (ldpcParity info).flatMap fun p => leBytes 32 p.toNat

/-- The check rows of H · x for a codeword's 144 block columns: all zero for a codeword. -/
def ldpcSyndrome (cols : List (BitVec 256)) : List (BitVec 256) :=
  let lam := ldpcLam (cols.take 130)
  lam.zipIdx.map fun li =>
    let i := li.2
    let c0 := nth cols 130 0
    let a := li.1 ^^^ (if i = 0 ∨ i = 13 then rot256 c0 1 else if i = 7 then c0 else 0)
    a ^^^ (if i < 13 then nth cols (131 + i) 0 else 0) ^^^ (if 1 ≤ i then nth cols (130 + i) 0 else 0)

/-! ### GF(2^8), polynomial 0x11D, g = 0x02 (R252, R255) -/

/-- Multiply by g. -/
def gfDouble (a : Byte) : Byte := if a.getLsbD 7 then (a <<< 1) ^^^ 0x1D else a <<< 1

/-- Multiply; structural on the eight bits of b. -/
def gfMulBits : Nat → Byte → Byte → Byte
  | 0, _, _ => 0
  | n + 1, a, b => (if b.getLsbD 0 then a else 0) ^^^ gfMulBits n (gfDouble a) (b >>> 1)

/-- Multiply. -/
def gfMul (a b : Byte) : Byte := gfMulBits 8 a b

/-- g^k. -/
def gfPow : Nat → Byte
  | 0 => 1
  | k + 1 => gfDouble (gfPow k)

/-- a^254, the inverse of a non-zero a. -/
def gfInv (a : Byte) : Byte := (List.range 253).foldl (fun p _ => gfMul p a) a

/-- Bytes 0-4,159 of the P slot from the data columns (R251). -/
def parityP (ds : List (List Byte)) : List Byte :=
  ds.foldl (fun acc d => xorBytes acc d) (List.replicate 4608 0)

/-- The Q slot: bytes 0-4,159 the weighted sum, then their LDPC parity (R252). -/
def parityQ (ds : List (List Byte)) : List Byte :=
  let q := ds.zipIdx.foldl (fun acc d => xorBytes acc (d.1.map fun b => gfMul (gfPow d.2) b)) (List.replicate 4160 0)
  q ++ ldpcEncode q

/-- Two lost data columns a and b of a P2 stripe from P' and Q' (R255). -/
def rebuildTwo (ka kb : Nat) (p q : List Byte) : List Byte × List Byte :=
  let inv := gfInv (gfPow ka ^^^ gfPow kb)
  let da := (xorBytes q (p.map fun b => gfMul (gfPow kb) b)).map fun b => gfMul b inv
  (da, xorBytes p da)

/-- A lost data column and P of a P2 stripe, from Q' (R255): D_a = Q' · g^(-k). -/
def rebuildDataAndP (ka : Nat) (q : List Byte) : List Byte := q.map fun b => gfMul b (gfInv (gfPow ka))

/-- P' and Q' of R255: a parity slot's bytes less what the known data columns put into it, over bytes 0-4,159. -/
def lessP (p : List Byte) (ds : List (Option (List Byte))) : List Byte := (ds.filterMap id).foldl xorBytes p
/-- Q'. -/
def lessQ (q : List Byte) (ds : List (Option (List Byte))) : List Byte :=
  ds.zipIdx.foldl (fun acc d => match d.1 with
    | some b => xorBytes acc (b.map fun x => gfMul (gfPow d.2) x)
    | none => acc) q

/-- The information bytes of data column k of a stripe from the slots of the other columns that are codewords, the computations
of R255: `ds` the data columns in order, none where lost, `p` and `q` the parity columns. A lost parity column is computed anew
from the data columns (R251, R252). -/
def rebuildData (ds : List (Option (List Byte))) (p q : Option (List Byte)) (k : Nat) : Option (List Byte) :=
  let lost := (ds.zipIdx.filter fun d => d.1.isNone).map Prod.snd
  match lost, p, q with
  | [_], some p, _ => some (lessP p ds)
  | [a], none, some q => some (rebuildDataAndP a (lessQ q ds))
  | [a, b], some p, some q =>
    let r := rebuildTwo a b (lessP p ds) (lessQ q ds)
    if k = a then some r.1 else some r.2
  | _, _, _ => none

/-! ### Slots (R231 to R236) -/

/-- The byte code of a cell mode (R232 byte 29). -/
def CellMode.code : CellMode → Nat
  | .slc => 0 | .tlc => 1 | .qlc => 2

/-- Metadata bytes 0-55 (R232). -/
def metaHead (r : SlotRec) : List Byte :=
  leBytes 8 r.lba.toNat ++ leBytes 2 r.nsid ++ leBytes 2 r.flags.toNat ++ leBytes 4 r.agroup.toNat ++
  leBytes 8 r.seq ++ leBytes 4 r.bandId.toNat ++ leBytes 1 r.column ++ leBytes 1 r.cell.code ++
  leBytes 2 0 ++ leBytes 8 r.tag.toNat ++ leBytes 4 r.epoch ++ leBytes 12 0

/-- The tweak of a slot's data unit (R235). -/
def slotTweak (r : SlotRec) : Nat :=
  let f := r.flags.toNat
  if r.nsid = 0 then r.bandId.toNat * 2 ^ 64 + bits f 2 1 * 2 ^ 62 + r.lba.toNat % 2 ^ 48
  else if bit f 5 then 4 * r.lba.toNat + bits f 7 6 else r.lba.toNat

/-- DATA as stored: zeros in a pad slot, otherwise the ciphertext under the key (R231, R235). -/
def slotData (key : List Byte) (r : SlotRec) : List Byte :=
  let plain := Mem.readN r.bytes 0 4096
  match r.kind with
  | .pad => List.replicate 4096 0
  | .parity => plain
  | _ => xtsEncrypt key (slotTweak r) plain

/-- The check word of a slot (R236). -/
def slotCrc (data : List Byte) (r : SlotRec) : BitVec 32 := crc32c (data ++ metaHead r) 0

/-- The 4,160 information bytes of a slot: DATA and META (R231). A parity slot's are what the parity arithmetic left (R234,
R251, R252). -/
def slotInfo (r : SlotRec) : List Byte :=
  if r.kind = .parity then Mem.readN r.bytes 0 4160
  else
    let data := slotData r.key r
    data ++ metaHead r ++ leBytes 4 (slotCrc data r).toNat ++ leBytes 4 0

/-- The codeword of a slot: DATA, META, LPAR (R231, R237). -/
def slotCodeword (r : SlotRec) : List Byte := slotInfo r ++ ldpcEncode (slotInfo r)

/-- The page bytes of a slot as stored: the codeword under the scrambler of its PSA (R237). -/
def slotStored (psa : Nat) (r : SlotRec) : List Byte := xorBytes (slotCodeword r) (scramMask psa)

/-! ### Addresses on media (R227, R228) -/

/-- The die of a PSA. -/
def psaDie (psa : Nat) : Nat := psa / 2 ^ 27
/-- The block within the die of a PSA. -/
def psaBlock (psa : Nat) : Nat := psa / 2 ^ 14 % 2 ^ 13
/-- The page within the block of a PSA. -/
def psaPage (psa : Nat) : Nat := psa / 4 % 2 ^ 12
/-- The slot within the page of a PSA. -/
def psaSlot (psa : Nat) : Nat := psa % 4
/-- The PSA of die, block, page and slot. -/
def mkPsa (die block page slot : Nat) : Nat := ((die * 2 ^ 13 + block) * 2 ^ 12 + page) * 4 + slot
/-- The channel of a die (R227). -/
def dieChan (d : Nat) : Nat := d / 16
/-- The oct of a die (R227). -/
def dieOct (d : Nat) : Nat := d / 128

/-! ### Band identity and parity places (R233, R250) -/

/-- Width of a band ID. -/
def bandWidth (id : BitVec 32) : Nat := bits id.toNat 9 6 + 1
/-- Parity mode of a band ID: 1 P1, 2 P2. -/
def bandPmode (id : BitVec 32) : Nat := bits id.toNat 5 4
/-- Serial of a band ID. -/
def bandSerial (id : BitVec 32) : Nat := bits id.toNat 31 10
/-- The band ID of serial, width and parity mode. -/
def mkBandId (serial w pmode : Nat) : BitVec 32 := BitVec.ofNat 32 (serial * 2 ^ 10 + (w - 1) * 2 ^ 6 + pmode * 2 ^ 4)

/-- Whether column c of stripe p is a parity column (R250). -/
def isParityCol (id : BitVec 32) (p c : Nat) : Bool :=
  let w := bandWidth id
  decide (c = p % w) || (bandPmode id == 2 && decide (c = (p + 1) % w))

/-- The data columns of a stripe in rising order (R250). -/
def dataCols (id : BitVec 32) (p : Nat) : List Nat :=
  (List.range (bandWidth id)).filter fun c => !isParityCol id p c

/-! ### Map entries and lines (R193 to R195) -/

/-- A map entry's 40 bits (R193). -/
def Loc.encode : Loc → BitVec 40
  | .media psa => BitVec.ofNat 40 psa
  | .gather g => BitVec.ofNat 40 (2 ^ 38 + g)
  | .unmapped => BitVec.ofNat 40 (2 * 2 ^ 38)

/-- The entry of 40 bits; none for state 11 or a LOC that breaks R193 (R194). -/
def Loc.decode (v : BitVec 40) : Option Loc :=
  let n := v.toNat
  match n / 2 ^ 38 with
  | 0 => some (.media n)
  | 1 => if n % 2 ^ 38 < 2 ^ 32 then some (.gather (n % 2 ^ 38)) else none
  | 2 => if n % 2 ^ 38 = 0 then some .unmapped else none
  | _ => none

/-- The 64 bytes of a map line from its twelve entries (R195). -/
def lineBytes (es : List Loc) : List Byte :=
  let body := ((List.range 12).map fun e => nth es e .unmapped).flatMap fun l => leBytes 5 l.encode.toNat
  body ++ leBytes 4 (crc32c body 0).toNat

/-- The translation-cache set of a map line (R197). -/
def lineSet (n : Nat) : Nat := (n ^^^ (n >>> 15) ^^^ (n >>> 30)) % 2 ^ 15

end Sys2Proof.Machine
end

