-- ==== Sys2Proof/Machine/Sessions.lean ====
section
/-! DEFINITION. Sending over the Cane fabric: sessions, frames, messages and their segments, the end of a session;
what replication keeps of each operation at its source (R392 to R399). -/

namespace Sys2Proof.Machine

/-! ### Sessions and frames (R393 to R395) -/

/-- Message bytes a segment carries. -/
def segBytes : Nat := 8192

/-- A session by the ID this module chose. -/
def getSession (s : State) (sid : Nat) : Option Session := s.cane.sessions.find? fun x => x.sid == sid

/-- Change a session. -/
def modSession (s : State) (sid : Nat) (f : Session → Session) : State :=
  s.updCane fun c => { c with sessions := updIf (fun x => x.sid == sid) f c.sessions }

/-- This node's ID. -/
def ownNode (s : State) : Nat := nvVal s 0x0C000002

/-- A Cane port is up. -/
def canePort (s : State) (k : Nat) : Bool := s.day.caneOn && vget s.cane.link k 0 == 2

/-- Frames can leave: a link is up. -/
def caneUp (s : State) : Bool := canePort s 0 || canePort s 1

/-- The frame header (R394). -/
def caneHeader (s : State) (node sid typ flags fcount msgId blen : Nat) : List Byte :=
  leBytes 1 1 ++ leBytes 1 typ ++ leBytes 1 flags ++ leBytes 1 0 ++ leBytes 2 (ownNode s) ++ leBytes 2 node ++ leBytes 4 sid ++
  leBytes 4 blen ++ leBytes 8 fcount ++ leBytes 8 msgId

/-- n bytes of a value, most significant first. -/
def beBytes (n v : Nat) : List Byte := (leBytes n v).reverse

/-- The IPv6 address of a node on a link (R393). -/
def nodeAddress (s : State) (port node : Nat) : List Byte := beBytes 8 (nvVal s (0x0C000005 + port)) ++ beBytes 8 (nvVal s 0x0C000007 + node)

/-- This module's IPv6 address on a link. -/
def ownAddress (s : State) (port : Nat) : List Byte := nodeAddress s port (ownNode s)

/-- The sum of 16-bit words, the last one filled with zeros. -/
def wordSum : List Byte → Nat
  | [] => 0
  | [a] => 256 * a.toNat
  | a :: b :: bs => 256 * a.toNat + b.toNat + wordSum bs

/-- The Internet checksum of bytes, as UDP carries it: no zero (PRESUMED, log entry 20). -/
def checksum (bs : List Byte) : Nat :=
  let s1 := wordSum bs
  let s2 := s1 % 65536 + s1 / 65536
  let s3 := s2 % 65536 + s2 / 65536
  if s3 % 65535 = 0 then 65535 else 65535 - s3 % 65535

/-- The IPv6 and UDP headers of a payload to a node on a link: traffic class 0, the low 20 bits of the session ID as flow label, no
extension header, hop limit 64, both ports CANE_UDP_PORT (R393; the layouts are PRESUMED, log entry 20). -/
def caneIp (s : State) (port node sid : Nat) (payload : List Byte) : List Byte :=
  let n := 8 + payload.length
  let src := ownAddress s port
  let dst := nodeAddress s port node
  let udp := beBytes 2 (nvVal s 0x0C000004) ++ beBytes 2 (nvVal s 0x0C000004) ++ beBytes 2 n
  let sum := checksum (src ++ dst ++ beBytes 4 n ++ beBytes 4 17 ++ udp ++ beBytes 2 0 ++ payload)
  beBytes 4 (0x60000000 + sid % 2 ^ 20) ++ beBytes 2 n ++ beBytes 1 17 ++ beBytes 1 64 ++ src ++ dst ++ udp ++ beBytes 2 sum

/-- A Cane frame as it leaves on a link, with its headers; what is no Cane frame as it is. -/
def caneLeaves (s : State) (p : Nat) (o : Out) : Out :=
  match o with
  | .cane node sid typ flags fcount msgId body _ =>
    .cane node sid typ flags fcount msgId body (caneIp s (p - 1) node sid (caneHeader s node sid typ flags fcount msgId
      (if typ ≤ 3 then body.length else body.length - 16) ++ body))
  | _ => o

/-- What a Cane frame takes beside its body (R392). -/
def frameOver (s : State) (port : Nat) : Nat := if bit (nvVal s (0x0C00000A + port)) 12 then 138 else 134

/-- Whether a frame type belongs to the handshake: no tag, not encrypted. -/
def kexType (typ : Nat) : Bool := decide (typ ≤ 3)

/-- A frame's body as it leaves: sealed under the sending key, the header its additional data (R395). -/
def caneSealed (s : State) (x : Session) (typ flags msgId : Nat) (body : List Byte) : List Byte :=
  if kexType typ then body
  else gcmSeal x.keyTx (leBytes 4 x.peerSid ++ leBytes 8 x.txCount) (caneHeader s x.node x.peerSid typ flags x.txCount msgId body.length) body

/-- Send one frame of a session on a link that is up: the next FCOUNT, one more frame transmitted. -/
def caneFrame (s : State) (sid typ flags msgId : Nat) (body : List Byte) : State :=
  match getSession s sid with
  | none => s
  | some x =>
    if !caneUp s then s
    else
      let s1 := modSession s sid fun x => { x with txCount := x.txCount + 1 }
      let s2 := s1.updCane fun c => { c with framesTx := satAdd c.framesTx 1 }
      queueFrame s2 (if canePort s 0 then 1 else 2) ((if kexType typ then 32 else 48) + body.length)
        (.cane x.node x.peerSid typ flags x.txCount msgId (caneSealed s x typ flags msgId body))

/-! ### Messages and segments (R394) -/

/-- The segments of a message from offset `off`: each body begins with MOFF and MLEN. -/
def segmentsFrom : Nat → List Byte → Nat → List (List Byte)
  | 0, _, _ => []
  | fuel + 1, bs, off =>
    if bs.length ≤ off then []
    else (leBytes 4 off ++ leBytes 4 bs.length ++ (bs.drop off).take segBytes) :: segmentsFrom fuel bs (off + segBytes)

/-- Every segment of a message. -/
def segments (bs : List Byte) : List (List Byte) := segmentsFrom (bs.length / segBytes + 1) bs 0

/-- Whether a message has something left to acknowledge. -/
def CaneMsg.open_ (m : CaneMsg) : Bool := decide (m.acked < m.bytes.length)

/-- Whether two records are of one message. -/
def CaneMsg.same (m k : CaneMsg) : Bool := m.msgId == k.msgId && m.typ == k.typ

/-- Send the unsent segments of the session's messages that its credit allows, oldest message first. -/
def canePump (s : State) (sid : Nat) : State :=
  match getSession s sid with
  | none => s
  | some x =>
    if x.phase ≠ 2 ∨ !caneUp s then s
    else x.out.foldl (fun s m =>
      (segmentsFrom (m.bytes.length / segBytes + 1) m.bytes m.sent).foldl (fun s b =>
        match getSession s sid with
        | none => s
        | some y =>
          if b.length - 8 ≤ y.credit then
            modSession (caneFrame s sid m.typ m.hops m.msgId b) sid fun y =>
              { y with credit := y.credit - (b.length - 8)
                       out := updIf m.same (fun k => { k with sent := k.sent + (b.length - 8), sentAt := s.beat }) y.out }
          else s) s) s

/-- Queue a message on a session under a MSGID and send what the credit allows. -/
def caneQueue (s : State) (sid msgId typ hops : Nat) (bs : List Byte) (call : Option Nat) : State :=
  canePump (modSession s sid fun y =>
    { y with lastUse := s.beat
             out := y.out ++ [{ msgId := msgId, typ := typ, hops := hops, bytes := bs, sent := 0, acked := 0,
                                sentAt := s.beat, firstAt := s.beat, call := call }] }) sid

/-- Queue a message under the next MSGID. -/
def caneSend (s : State) (sid typ hops : Nat) (bs : List Byte) (call : Option Nat) : State :=
  match getSession s sid with
  | none => s
  | some x => caneQueue (modSession s sid fun y => { y with msgId := y.msgId + 1 }) sid x.msgId typ hops bs call

/-- Send every segment of a handshake message under the next MSGID. -/
def sendKex (s : State) (sid typ : Nat) (bs : List Byte) : State :=
  match getSession s sid with
  | none => s
  | some x =>
    (segments bs).foldl (fun s b => caneFrame s sid typ 0 x.msgId b) (modSession s sid fun y => { y with msgId := y.msgId + 1, kexAt := s.beat })

/-! ### What an RCALL is told (R182, R397) -/

/-- The message of a REP: header bytes 32-63, then the reply bytes (R182, R398). -/
def repMessage (status : BitVec 16) (detail : BitVec 8) (result : BitVec 64) (data : List Byte) : List Byte :=
  leBytes 2 status.toNat ++ leBytes 1 detail.toNat ++ leBytes 1 0 ++ leBytes 4 data.length ++
  leBytes 8 result.toNat ++ leBytes 16 0 ++ data

/-- The RCALL a command with an ADMSEQ waits on is told its reply. -/
def tellCall (s : State) (adm : Nat) (m : List Byte) : State :=
  s.updCtxs (updIf (fun x => x.adm == adm && x.wait == .instr && zOp x.word == 0x38) fun x => { x with reply := m })

/-- A waiting RCALL finishes with CANE_UNREACHABLE and REPBYTES 0. -/
def unreachable (s : State) (adm : Nat) : State := tellCall s adm (repMessage St.caneUnreachable 0 0 [])

/-- The RCALLs among messages, unreachable. -/
def failMsgs (s : State) (ms : List CaneMsg) : State := (ms.filterMap CaneMsg.call).foldl unreachable s

/-- Remove a session; its RCALLs end unreachable. -/
def dropSession (s : State) (sid : Nat) : State :=
  failMsgs (s.updCane fun c => { c with sessions := c.sessions.filter fun x => x.sid != sid }) (((getSession s sid).map Session.out).getD [])

/-- Close a session: CLOSE where it is established, then it is gone. -/
def closeSession (s : State) (sid : Nat) : State :=
  match getSession s sid with
  | none => s
  | some x => dropSession (if x.phase = 2 then caneFrame s sid 0x15 0 0 [] else s) sid

/-- Close every session. -/
def closeAll (s : State) : State := (s.cane.sessions.map Session.sid).foldl closeSession s

/-! ### Replication at the source (R399) -/

/-- Note an operation on granules of a replicating namespace: all of it when streaming, during a baseline what
lies below the cursor. -/
def replNote (s : State) (nsid seq gran count : Nat) (slot : Option Nat) (grp : Nat) : State :=
  let noted := fun (r : ReplState) => r.nsid == nsid && (r.mode == 3 || r.mode == 2 && decide (gran < r.cursor))
  let op := fun (r : ReplState) =>
    { seq := seq, gran := gran, slot := slot, grp := grp, at_ := s.beat, sent := false, count := if r.mode = 2 then min count (r.cursor - gran) else count : ReplOp }
  s.updCane fun c => { c with repl := updIf noted (fun r => { r with ops := r.ops ++ [op r] }) c.repl }

/-- Whether replication keeps a gather slot. -/
def replHolds (s : State) (g : GatherSlot) : Bool :=
  s.cane.repl.any fun r => r.ops.any fun o => o.slot == some (g.slot - g.part)

end Sys2Proof.Machine
end

