-- ==== Sys2Proof/Machine/Translate.lean ====
section
/-! DEFINITION. The translation engine's operations: namespaces and map lines, write sequences, the
journal, gather slots, map updates, atom groups, pins. -/

namespace Sys2Proof.Machine

/-! ### Sides (R369 to R375) -/

/-- TWIN_SIDED. -/
def sided (s : State) : Bool := nvVal s 0x0B000004 == 1

/-- The side of an oct under TWIN_OCT_SPLIT: true for side B (R369). -/
def octSideB (s : State) (k : Nat) : Bool := bit (nvVal s 0x0B000003) k

/-- Whether this module serves a side now (R374). -/
def serves (s : State) (sideB : Bool) : Bool :=
  if !sided s then s.twin.st != .detached
  else match s.twin.st with
    | .covering => sideB == s.twin.side || s.twin.served.contains sideB
    | .syncing => s.twin.served.contains sideB
    | .detached | .detaching => false
    | _ => sideB == s.twin.side

/-- Whether an oct is assigned to this module (R374); during a takeover the twin's are too (R386), and a COVERING
module holds them until it has handed the side back (R389). -/
def octAssigned (s : State) (k : Nat) : Bool :=
  if !sided s then s.twin.st != .detached
  else match s.twin.st with
    | .covering | .recovering => true
    | .detached => false
    | .detaching => octSideB s k == s.twin.side && !s.twin.released
    | .syncing => octSideB s k == s.twin.side || s.twin.handback
    | _ => octSideB s k == s.twin.side || s.twin.takeoverAt.isSome

/-! ### Map lines (R187 to R191) -/

/-- What the 256 GiB of DRAM are for, at every Dawn (R13). -/
inductive DramUse where
  | map | slab | readCache | staging | gather | code | tables
  deriving DecidableEq, Repr

/-- GiB of each use. -/
def DramUse.gib : DramUse → Nat
  | .map => 171 | .slab => 64 | .readCache => 7 | .staging => 8 | .gather => 4 | .code => 1 | .tables => 1

/-- Bytes of each use. -/
def DramUse.bytes (u : DramUse) : Nat := u.gib * 2 ^ 30

/-- Map lines in all: 2^35 entries, twelve to a line (R13). -/
def mapLines : Nat := 2863311531

/-- Lines of a namespace. -/
def nsLines (n : Namespace) : Nat := ceilDiv n.cap 12

/-- First line of a namespace. -/
def nsLine0 (n : Namespace) : Nat := n.mbase / 12

/-- The map index of granule L (R188). -/
def mapIdx (n : Namespace) (l : Nat) : Nat := n.mbase + l

/-- Whether [a, a + k) meets no namespace's lines. -/
def runFree (s : State) (a k : Nat) : Bool :=
  decide (a + k ≤ mapLines) &&
  s.xlat.nss.all fun n => decide (a + k ≤ nsLine0 n) || decide (nsLine0 n + nsLines n ≤ a)

/-- The smaller of two optional numbers. -/
def optMin (a b : Option Nat) : Option Nat :=
  match a, b with
  | some x, some y => some (min x y)
  | some x, none => some x
  | none, y => y

/-- The lowest start of a free run of k lines: line 0 or the end of a namespace (R190). -/
def lowestRun (s : State) (k : Nat) : Option Nat :=
  ((0 :: s.xlat.nss.map fun n => nsLine0 n + nsLines n).filter fun a => runFree s a k).foldl
    (fun m a => optMin m (some a)) none

/-- XLAT_MAP_LINES_FREE. -/
def linesFree (s : State) : Nat := mapLines - (s.xlat.nss.map nsLines).foldl (· + ·) 0

/-- The free run that starts at line a ends at the first namespace at or above it. -/
def runFrom (s : State) (a : Nat) : Nat :=
  (s.xlat.nss.foldl (fun m n => if a ≤ nsLine0 n then min m (nsLine0 n) else m) mapLines) - a

/-- XLAT_MAP_LARGEST_FREE. -/
def largestFree (s : State) : Nat :=
  ((0 :: s.xlat.nss.map fun n => nsLine0 n + nsLines n).filter fun a => runFree s a 1).foldl
    (fun m a => max m (runFrom s a)) 0

/-- XLAT_NS_BYTES: over the module's own side when sided (R271). -/
def nsBytes (s : State) : Nat :=
  ((s.xlat.nss.filter fun n => !sided s || n.sideB == s.twin.side).map fun n => n.cap * n.granule).foldl (· + ·) 0

/-! ### Write sequences and the journal (R203, R207 to R210, R373) -/

/-- Step between SEQ values: 2 on a sided module (R373). -/
def seqStep (s : State) : Nat := if sided s then 2 else 1

/-- Take k SEQ values; the first of them, and the state after. -/
def takeSeq (s : State) (k : Nat) : Nat × State := (s.xlat.seq, s.updXlat fun x => { x with seq := x.seq + k * seqStep s })

/-- A journal record with the fields that are not always zero. -/
def jrec (t : JType) (flags nsid count lba seq value : Nat) : JRecord :=
  { typ := t, flags := BitVec.ofNat 8 flags, nsid := nsid, count := count, lba := lba, seq := seq, value := value }

/-- The record type byte (R208). -/
def JType.code : JType → Nat
  | .pad => 0 | .map => 1 | .unmap => 2 | .nsCreate => 3 | .nsDelete => 4 | .ckBegin => 5
  | .ckEnd => 6 | .unrecov => 7 | .atomEnd => 8 | .bandOpen => 9 | .bandClose => 10

/-- The record type of a byte; none for a type the module does not write (R208). -/
def JType.ofCode : Nat → Option JType
  | 0 => some .pad | 1 => some .map | 2 => some .unmap | 3 => some .nsCreate | 4 => some .nsDelete
  | 5 => some .ckBegin | 6 => some .ckEnd | 7 => some .unrecov | 8 => some .atomEnd
  | 9 => some .bandOpen | 10 => some .bandClose | _ => none

/-- The 32 bytes of a record (R208). -/
def JRecord.bytes (r : JRecord) : List Byte :=
  leBytes 1 r.typ.code ++ leBytes 1 r.flags.toNat ++ leBytes 2 r.nsid ++ leBytes 4 r.count ++
  leBytes 8 r.lba ++ leBytes 8 r.seq ++ leBytes 8 r.value

/-- The record of 32 bytes. -/
def JRecord.ofBytes (bs : List Byte) : Option JRecord :=
  (JType.ofCode (field bs 0 1)).map fun t =>
    jrec t (field bs 1 1) (field bs 2 2) (field bs 4 4) (field bs 8 8) (field bs 16 8) (field bs 24 8)

/-- The 64-bit words of a record as a frame carries it (R379). -/
def JRecord.words (r : JRecord) : List (BitVec 64) := (List.range 4).map fun i => BitVec.ofNat 64 (field r.bytes (8 * i) 8)

/-- Body bytes of a frame: its words, a granule's data behind a descriptor, and the lengths of KEYX and CERT, which
are no whole number of words (R379, R521). -/
def puntyLen (typ : Nat) (body : List (BitVec 64)) : Nat :=
  if typ = 0x0B then 1180 else if typ = 0x0C then 6292
  else 8 * body.length + (if typ = 0x02 then (if (nth body 0 0).getLsbD 17 then 16384 else 4096) else 0)

/-- The next PSEQ is taken by a frame sent over the punty link; the mover carries it as pacing allows
(R336, R379). -/
def sendPunty (s : State) (typ a0 a1 : Nat) (body : List (BitVec 64)) (data : List Host.Cell) : State :=
  queueFrame (s.updTwin fun t => { t with txPseq := t.txPseq + 1 }) 0 (32 + puntyLen typ body)
    (.punty typ s.twin.txPseq ([BitVec.ofNat 64 a0, BitVec.ofNat 64 a1] ++ body) data)

/-- Whether changes of the module's own side are mirrored (R381); no frame leaves once the heartbeat has stopped or
the twin is found absent (R377, R386). -/
def mirroring (s : State) : Bool := (s.twin.st == .paired || s.twin.st == .detaching) && !s.twin.hbStopped && s.twin.takeoverAt.isNone

/-- Whether a change at a map index is sent to the twin: while mirroring, and in a sync below the cursor (R385 step 3). -/
def sends (s : State) (idx : Nat) : Bool :=
  mirroring s || (s.twin.st == .syncing && !s.twin.hbStopped && decide (idx / 12 < s.twin.syncCursor))

/-- Whether a record is sent: one of an entry as that entry is. -/
def sendsRec (s : State) (r : JRecord) : Bool :=
  match s.xlat.nss.find? fun n => n.nsid == r.nsid, r.typ with
  | some n, .map | some n, .unmap | some n, .unrecov => sends s (n.mbase + r.lba)
  | _, _ => mirroring s || s.twin.st == .syncing

/-- Enter records in journal staging; those the twin is to have go as JREC (R210, R381). -/
def journalAdd (s : State) (rs : List JRecord) : State :=
  let s1 := s.updXlat fun x => { x with staging := x.staging ++ rs }
  let out := rs.filter (sendsRec s)
  if out.isEmpty then s1 else sendPunty s1 0x03 0 0 (out.flatMap JRecord.words) []

/-- A slot with nothing in it, of a kind (R234). -/
def blankSlot (kind : SlotKind) : SlotRec :=
  { kind := kind, lba := 0, nsid := 0, flags := 0, agroup := 0, seq := 0, bandId := 0, column := 0, cell := .slc, tag := 0, epoch := 0,
    bytes := [], verified := false }

/-- Gather staged records into one journal slot of 128, padded, with the next JPOS; its copies are still to be placed (R207). -/
def journalSlot (s : State) : State :=
  s.updXlat fun x =>
    let rs := x.staging.take 128
    let prev := (x.journal.getLast?.map JSlot.seq).getD 0
    let hi := rs.foldl (fun m r => max m r.seq) 0
    { x with
      staging := x.staging.drop 128
      jpos := x.jpos + 1
      journal := x.journal ++ [{ jpos := x.jpos, seq := if rs.isEmpty then prev else hi,
                                 recs := rs ++ List.replicate (128 - rs.length) (jrec .pad 0 0 0 0 0 0) }] }

/-- Gather journal slots while at least `least` records wait; `fuel` bounds their number. -/
def journalDrain : Nat → Nat → State → State
  | 0, _, s => s
  | fuel + 1, least, s => if s.xlat.staging.length < max least 1 then s else journalDrain fuel least (journalSlot s)

/-- Whether a copy of a journal slot is placed and verified. -/
def copyDone (c : Option (Nat × Bool)) : Bool := (c.map Prod.snd).getD false

/-- Whether both copies of a journal slot are verified (R209). -/
def JSlot.done (j : JSlot) : Bool := copyDone j.copyA && copyDone j.copyB

/-- A copy of a journal slot that is not verified is to be written again. -/
def JSlot.unplaced (j : JSlot) : JSlot := { j with copyA := j.copyA.filter Prod.snd, copyB := j.copyB.filter Prod.snd }

/-- Whether a copy of a journal slot is written and verified. -/
def JSlot.kept (j : JSlot) : Bool := copyDone j.copyA || copyDone j.copyB

/-- Whether every record is in a journal slot both of whose copies are verified. -/
def journaled (s : State) : Bool := s.xlat.staging.isEmpty && s.xlat.journal.all JSlot.done

/-- Bytes of staging not yet in journal slots, a slot whose copies are not both verified among them (R413). -/
def stagingBytes (s : State) : Nat := 32 * s.xlat.staging.length + 4096 * (s.xlat.journal.filter fun j => !j.done).length

/-! ### Bands and blocks -/

/-- Index of a block record (R265). -/
def blockIdx (die block : Nat) : Nat := die * 8192 + block

/-- A block that no record names yet: DIRTY with zero counts (log entry 1). -/
def Block.init : Block :=
  { pe := 0, rdCount := 0, bandId := 0, st := .dirty, candidate := false, candNew := false, system := false, pastRated := false,
    rawTouched := false, depth := 0, iter := 0, rcause := 0, lastCell := .slc, pfails := 0, erasedAt := 0, peSlc := 0 }

/-- A block record. -/
def getBlock (s : State) (i : Nat) : Block := (Assoc.get s.care.blocks i).getD Block.init

/-- Change a block record. -/
def modBlock (s : State) (i : Nat) (f : Block → Block) : State :=
  s.updCare fun c => { c with blocks := Assoc.set c.blocks i (f ((Assoc.get c.blocks i).getD Block.init)) }

/-- A band record by serial. -/
def getBand (s : State) (serial : Nat) : Option Band := s.media.bands.find? fun b => b.serial == serial

/-- Change a band record. -/
def modBand (s : State) (serial : Nat) (f : Band → Band) : State :=
  s.updMedia fun m => { m with bands := updIf (fun b => b.serial == serial) f m.bands }

/-- The band a slot lies in: the one with its block as a column. -/
def bandOf (s : State) (psa : Nat) : Option Band :=
  s.media.bands.find? fun b => b.columns.contains (psaDie psa, psaBlock psa)

/-- Add to or take from VALID of the band of a slot (R267). -/
def addValid (s : State) (psa k : Nat) : State :=
  match bandOf s psa with
  | some b => modBand s b.serial fun b => { b with valid := b.valid + k }
  | none => s

/-- Take from VALID. -/
def subValid (s : State) (psa k : Nat) : State :=
  match bandOf s psa with
  | some b => modBand s b.serial fun b => { b with valid := b.valid - k }
  | none => s

/-! ### Pins (R201) -/

/-- Whether a context still has to read a place: a slot of its reads that is not terminal, or one its program may read. -/
def locPinned (s : State) (l : Loc) : Bool :=
  s.ctxs.any fun x => (x.reads.any fun r => r.loc == l && r.slots.any fun d => d == .waiting || d == .around) ||
    x.fed.any fun r => r.loc == l

/-- Whether a place lies in a band. -/
def Band.holds (b : Band) (l : Loc) : Bool :=
  match l with
  | .media psa => b.columns.contains (psaDie psa, psaBlock psa)
  | _ => false

/-- Whether any slot of a band is pinned. -/
def bandPinned (s : State) (b : Band) : Bool :=
  s.ctxs.any fun x => (x.reads.any fun r => b.holds r.loc && r.slots.any fun d => d == .waiting || d == .around) ||
    x.fed.any fun r => b.holds r.loc

/-- Whether a gather slot is still needed in this module: named, held by a group, awaited by a completion, or pinned with the granule it
is part of (R196, R201). -/
def slotWanted (s : State) (g : GatherSlot) : Bool := g.mapped || g.atom || g.through || locPinned s (.gather (g.slot - g.part))

/-- Whether a gather slot is still needed: in this module, or by a replica that has not acknowledged it (R399). -/
def slotNeeded (s : State) (g : GatherSlot) : Bool := slotWanted s g || replHolds s g

/-- Free the gather slots that nothing needs (R204, R201). A slot mirrored in the twin is free once the twin has
acknowledged the last frame sent when it lost its name (R382). -/
def sweepGather (s : State) : State :=
  let mark := fun (g : GatherSlot) => if slotNeeded s g || !g.mirrored || g.freeAt != 0 then g else { g with freeAt := s.twin.txPseq - 1 }
  let keep := fun (g : GatherSlot) => slotNeeded s g || (mirroring s && g.mirrored && decide (s.twin.ackedPseq < g.freeAt))
  s.updXlat fun x => { x with gather := (x.gather.map mark).filter keep }

/-! ### Gather slots (R196, R202) -/

/-- Gather slots in all: 4 GiB of 4 KiB (R13). -/
def gatherSlots : Nat := 2 ^ 20

/-- Whether a gather slot index is in use. -/
def slotUsed (s : State) (i : Nat) : Bool := s.xlat.gather.any fun g => g.slot == i

/-- The lowest run of k consecutive free gather slots. -/
def freeGather (s : State) (k : Nat) : Option Nat :=
  lowest (fun i => (List.range k).all fun j => !slotUsed s (i + j)) 0
    (min (gatherSlots + 1 - k) ((s.xlat.gather.length + 1) * 5))

/-- How many disjoint runs of k free slots the gaps from `at_` on hold between used slots in rising order. -/
def runsFrom (k : Nat) : Nat → List Nat → Nat
  | at_, [] => (gatherSlots - at_) / k
  | at_, u :: us => (u - at_) / k + runsFrom k (max at_ (u + 1)) us

/-- How many granules of k slots each the gather buffer still takes (R13, R196). -/
def gatherRuns (s : State) (k : Nat) : Nat := runsFrom k 0 (sortBy id (s.xlat.gather.map GatherSlot.slot))

/-- Whether the gather buffer has free slots for a granule; a write waits until it has (R13). -/
def gatherFits (s : State) (ns : Namespace) : Bool := (freeGather s ns.gslots).isSome

/-- The armed portion that applies: the own area while PAIRED (R380), SYNCING (R385) or DETACHING, otherwise G; zero in wear stages
4 and 5 (R287). -/
def armedNow (s : State) : Nat :=
  if 4 ≤ s.care.wearStage then 0
  else if s.twin.st = .paired ∨ s.twin.st = .syncing ∨ s.twin.st = .detaching then min s.power.armed s.twin.peerArmed / 2 / 16384 * 16384
  else s.power.armed

/-- Bytes of armed slots in use. -/
def armedUsed (s : State) : Nat := 4096 * (s.xlat.gather.filter fun g => g.armed).length

/-- A granule's slots enter the gather buffer for a context. `atom` holds them outside the map; without
it the granule takes its SEQ (R202, R203). Answers the first slot and the state. -/
def enterGather (s : State) (ns : Namespace) (owner gran : Nat) (tag : BitVec 64) (atom : Bool) (armed : Bool)
    (bytes : List Host.Cell) : Nat × State :=
  let first := (freeGather s ns.gslots).getD gatherSlots
  let (q, s1) := if atom then (0, s) else takeSeq s 1
  let due := ((getCtx s owner).map fun x => x.admBeat + 5000).getD (s.beat + 5000)
  let new := (List.range ns.gslots).map fun i =>
    { slot := first + i, nsid := ns.nsid, gran := gran, part := i, g16k := ns.g16k, seq := q, tag := tag, agroup := 0,
      member := false, last := false, atom := atom, mapped := !atom, armed := armed, mirrored := false, freeAt := 0,
      through := !armed, psa := none, owner := owner, epoch := 0, profile := nvVal s (0x06000013 + ns.nsid), due := due,
      bytes := Mem.slice bytes (4096 * i) 4096 0 : GatherSlot }
  (first, s1.updXlat fun x => { x with gather := x.gather ++ new })

/-- A granule descriptor of a GATHER frame, as its four 64-bit words (R379). -/
def granDesc (ns : Namespace) (held : Bool) (slot gran seq : Nat) (tag : BitVec 64) : List (BitVec 64) :=
  [BitVec.ofNat 64 (ns.nsid + (b2n held + 2 * b2n ns.g16k) * 2 ^ 16 + slot * 2 ^ 32), BitVec.ofNat 64 gran,
   BitVec.ofNat 64 seq, tag]

/-- The held-group key of a context: its number in [15:0], its admission sequence above (R379). -/
def groupKey (x : Ctx) : Nat := x.c + x.adm % 2 ^ 48 * 2 ^ 16

/-- Stop a granule's deep recovery and drop its unrecoverable mark: a write supersedes both (R60, R173). -/
def supersede (s : State) (idx : Nat) : State :=
  s.updXlat fun x => { x with deep := x.deep.filter (fun d => d.idx != idx), unrecov := x.unrecov.filter (· != idx) }

/-- Whether the slot at a place is the granule's: it still counts in VALID (R267, R275). -/
def slotIs (s : State) (ns : Namespace) (gran psa : Nat) : Bool :=
  match Assoc.get s.media.slots psa with
  | some r => r.kind == .data && r.nsid == ns.nsid && r.lba.toNat == gran
  | none => false

/-- An entry stops naming its place: VALID falls, or the gather slots lose their name (R267, R204). -/
def unname (s : State) (ns : Namespace) (gran : Nat) (l : Loc) : State :=
  match l with
  | .media psa => if slotIs s ns gran psa then subValid s psa ns.gslots else s
  | .gather g => s.updXlat fun x =>
      { x with gather := updIf (fun y => decide (g ≤ y.slot ∧ y.slot < g + ns.gslots)) (fun y => { y with mapped := false }) x.gather }
  | .unmapped => s

/-- Set a granule's map entry and keep VALID, gather names and cached copies in step (R198, R202, R267). -/
def setEntry (s : State) (ns : Namespace) (gran : Nat) (l : Loc) : State :=
  let i := mapIdx ns gran
  let s1 := unname s ns gran (mapGet s i)
  let s2 := s1.updXlat fun x => x.setMap i l
  match l with
  | .media psa => addValid s2 psa ns.gslots
  | .gather g => s2.updXlat fun x =>
      { x with gather := updIf (fun y => decide (g ≤ y.slot ∧ y.slot < g + ns.gslots)) (fun y => { y with mapped := true }) x.gather }
  | .unmapped => s2

/-- Gather slots sent to the twin's mirror area. -/
def noteSent (s : State) (slot n : Nat) : State :=
  s.updXlat fun x => { x with gather := updIf (fun g => decide (slot ≤ g.slot ∧ g.slot < slot + n)) (fun g => { g with mirrored := true }) x.gather }

/-- One granule of a non-atom write: gather slot, SEQ, map state 01, mirror frame (R202, R381). -/
def writeGranule (s : State) (x : Ctx) (ns : Namespace) (gran : Nat) (tag : BitVec 64) (bytes : List Host.Cell) : State :=
  let armed := !x.writeThrough
  let (slot, s1) := enterGather s ns x.c gran tag false armed bytes
  let q := s.xlat.seq
  let s2 := replNote (setEntry (supersede s1 (mapIdx ns gran)) ns gran (.gather slot)) ns.nsid q gran 1 (some slot) 0
  let s3 := if sends s (mapIdx ns gran) && armed then sendPunty (noteSent s2 slot ns.gslots) 0x02 slot 0 (granDesc ns false slot gran q tag) bytes else s2
  modCtx s3 x.c fun y =>
    { y with ownSlots := y.ownSlots ++ [slot]
             fed := y.fed.filter fun r => r.gran != gran
             mirrorWait := if mirroring s && armed then y.mirrorWait ++ [s.twin.txPseq] else y.mirrorWait
             wtGrans := if armed then y.wtGrans else y.wtGrans ++ [gran] }

/-- One granule of an atom write: held outside the map (R205). -/
def holdGranule (s : State) (x : Ctx) (ns : Namespace) (gran : Nat) (tag : BitVec 64) (bytes : List Host.Cell) : State :=
  let (slot, s1) := enterGather s ns x.c gran tag true (!x.writeThrough) bytes
  let s2 := if mirroring s && !x.writeThrough then sendPunty (noteSent s1 slot ns.gslots) 0x02 slot (groupKey x) (granDesc ns true slot gran 0 tag) bytes else s1
  modCtx s2 x.c fun y =>
    { y with atom := y.atom ++ [.write gran slot]
             fed := y.fed.filter fun r => r.gran != gran
             mirrorWait := if mirroring s && !x.writeThrough then y.mirrorWait ++ [s.twin.txPseq] else y.mirrorWait }

/-- Unmap [first, first + n) with one UNMAP record (R169, R202, R203). -/
def unmapRange (s : State) (ns : Namespace) (first n : Nat) : State :=
  if n = 0 then s else
  let (q, s1) := takeSeq s 1
  let s2 := (List.range n).foldl (fun s i => setEntry (supersede s (mapIdx ns (first + i))) ns (first + i) .unmapped) s1
  sweepGather (replNote (journalAdd s2 [jrec .unmap 0 ns.nsid n first q 0]) ns.nsid q first n none 0)

/-! ### Atom groups (R205) -/

/-- The granules a group leaves written, each with its last slot, in ascending order. -/
def atomMembers (ops : List AtomOp) : List (Nat × Nat) :=
  ops.foldl (fun m o => match o with
    | .write g slot => Assoc.set m g slot
    | .unmap a n => m.filter fun p => !decide (a ≤ p.1 ∧ p.1 < a + n)) []

/-- The granules a group leaves unmapped. -/
def atomUnmaps (ops : List AtomOp) : List Nat :=
  (ops.foldl (fun m o => match o with
    | .write g _ => Assoc.del m g
    | .unmap a n => (List.range n).foldl (fun m i => Assoc.set m (a + i) ()) m) ([] : List (Nat × Unit))).map Prod.fst

/-- Rising granules as runs of first and count. -/
def runsOf : List Nat → List (Nat × Nat)
  | [] => []
  | g :: gs => match runsOf gs with
    | (a, n) :: r => if a = g + 1 then (g, n + 1) :: r else (g, 1) :: (a, n) :: r
    | [] => [(g, 1)]

/-- Commit a group: net effect, SEQ values, UNMAP and ATOM_END records, every member's entry in one
beat, release to the write stream, ACOMMIT to the twin (R205, R206, R381). The SEQ of ATOM_END is the group's last (DESIGN CHOICE, log entry
14: R208 gives that kind no SEQ). -/
def commitAtom (s : State) (x : Ctx) (ns : Namespace) (ops : List AtomOp) : State :=
  let ms := atomMembers ops
  let us := runsOf (atomUnmaps ops)
  if ms.isEmpty && us.isEmpty then s else
  let step := seqStep s
  let (q, s1) := takeSeq s (ms.length + us.length)
  let grp := BitVec.ofNat 32 q
  let keep := ms.map Prod.snd
  let s2 := s1.updXlat fun y => { y with gather := (y.gather.filter fun g =>
      !(g.atom && g.owner == x.c && !keep.any fun k => decide (k ≤ g.slot ∧ g.slot < k + ns.gslots))).map fun g =>
      if g.atom && g.owner == x.c then
        { g with atom := false, member := true, agroup := grp
                 last := decide ((ms.getLast?.map Prod.fst) = some g.gran)
                 seq := q + step * ((ms.map Prod.fst).takeWhile (· != g.gran)).length }
      else g }
  let s3 := if us.isEmpty then s2 else
    journalAdd s2 ((us.zipIdx.map fun u => jrec .unmap 8 ns.nsid u.1.2 u.1.1 (q + step * (ms.length + u.2)) grp.toNat) ++
      [jrec .atomEnd 0 ns.nsid us.length 0 (q + step * (ms.length + us.length - 1)) grp.toNat])
  let s4 := ms.foldl (fun s m => setEntry (supersede s (mapIdx ns m.1)) ns m.1 (.gather m.2)) s3
  let s5 := (atomUnmaps ops).foldl (fun s g => setEntry (supersede s (mapIdx ns g)) ns g .unmapped) s4
  let sA := ms.zipIdx.foldl (fun s m => replNote s ns.nsid (q + step * m.2) m.1.1 1 (some m.1.2) q) s5
  let sB := us.zipIdx.foldl (fun s u => replNote s ns.nsid (q + step * (ms.length + u.2)) u.1.1 u.1.2 none q) sA
  let s6 := if mirroring s then
      sendPunty sB 0x05 (groupKey x) 0 (ms.zipIdx.map fun m => BitVec.ofNat 64 (q + step * m.2)) []
    else sB
  sweepGather (modCtx s6 x.c fun y =>
    { y with ownSlots := y.ownSlots ++ keep
             wtGrans := if y.writeThrough then y.wtGrans ++ ms.map Prod.fst else y.wtGrans
             mirrorWait := if mirroring s then y.mirrorWait ++ [s.twin.txPseq] else y.mirrorWait })

/-- Discard a context's group: its slots are freed, the map is not touched (R205), ADISCARD (R381). -/
def discardAtom (s : State) (x : Ctx) : State :=
  let s1 := s.updXlat fun y => { y with gather := y.gather.filter fun g => !(g.atom && g.owner == x.c) }
  let s2 := if mirroring s && !x.atom.isEmpty then sendPunty s1 0x06 (groupKey x) 0 [] [] else s1
  modCtx s2 x.c fun y => { y with atom := [] }

/-! ### Reading a granule (R165, R174, R194, R201) -/

/-- The data of a granule's place, 4,096 bytes a slot; unmapped reads as zeros. -/
def locBytes (s : State) (n : Nat) (l : Loc) : List Host.Cell :=
  match l with
  | .unmapped => []
  | .gather g => (List.range n).flatMap fun i =>
      match s.xlat.gather.find? fun y => y.slot == g + i with
      | some y => Mem.slice y.bytes 0 4096 (4096 * i)
      | none => []
  | .media psa => (List.range n).flatMap fun i =>
      match Assoc.get s.media.slots (psa + i) with
      | some r => Mem.slice r.bytes 0 4096 (4096 * i)
      | none => []

/-- The stored host integrity tag of a granule's place; an unmapped granule's is zero (R90, R194). -/
def locTag (s : State) (l : Loc) : BitVec 64 :=
  match l with
  | .unmapped => 0
  | .gather g => ((s.xlat.gather.find? fun y => y.slot == g).map GatherSlot.tag).getD 0
  | .media psa => ((Assoc.get s.media.slots psa).map SlotRec.tag).getD 0

/-- The place of a granule that a program's decision found and pinned (R201). -/
def fedAt (x : Ctx) (gran : Nat) : Option GranRead := x.fed.find? fun r => r.gran == gran

/-- Where a context finds a granule: its own group's last operation on it, else the place its decision found, else the map
(R127, R174, R201). -/
def ctxLoc (s : State) (x : Ctx) (ns : Namespace) (gran : Nat) : Loc :=
  x.atom.foldl (fun l o => match o with
    | .write g slot => if g = gran then .gather slot else l
    | .unmap a n => if a ≤ gran ∧ gran < a + n then .unmapped else l)
    (((fedAt x gran).map GranRead.loc).getD (mapGet s (mapIdx ns gran)))

/-- Whether a context's own group has an operation on a granule. -/
def inAtom (x : Ctx) (gran : Nat) : Bool := x.atom.any fun o => match o with
  | .write g _ => g == gran
  | .unmap a n => decide (a ≤ gran ∧ gran < a + n)

/-- The slots of a granule as a program's decision, or a fallback since, left them to be read (R61). -/
def fedSlots (x : Ctx) (ns : Namespace) (gran : Nat) : List Deliver :=
  ((fedAt x gran).map GranRead.slots).getD (List.replicate ns.gslots .waiting)

/-- Whether the line of a map index is suspect (R200). -/
def lineSuspect (s : State) (idx : Nat) : Bool := s.xlat.suspect.contains (idx / 12)

/-- Whether the stripe of a slot can be rebuilt: its unreadable columns are within its parity (R47, R255). -/
def canRebuild (s : State) (psa : Nat) : Bool :=
  match bandOf s psa with
  | none => false
  | some b => decide ((b.columns.filter fun c => !dieUsable s c.1).length ≤ bandPmode b.bandId)

/-- Start the read of a granule for a context: gather and unmapped granules are delivered at once,
marked ones are not delivered, the rest wait for their slots (R47, R60, R165, R200, R201). -/
def startRead (s : State) (x : Ctx) (ns : Namespace) (gran : Nat) : GranRead :=
  let l := ctxLoc s x ns gran
  let idx := mapIdx ns gran
  let own := inAtom x gran
  let st : Deliver :=
    if s.xlat.unrecov.contains idx && !own then .unrecov else
    match l with
    | .media psa =>
      if lineSuspect s idx then .deep
      else if (s.xlat.deep.any fun d => d.idx == idx) && x.entry.cls != 5 then .deep
      else if dieUsable s (psaDie psa) then .waiting
      else if canRebuild s psa then .around else .deep
    | _ => if lineSuspect s idx && !own then .deep else .direct
  { gran := gran, loc := l, slots := if st = .waiting then fedSlots x ns gran else List.replicate ns.gslots st,
    bytes := if st = .direct then locBytes s ns.gslots l else [],
    tag := if st = .direct then locTag s l else 0 }

/-- Enter in deep recovery the granules on media that a context's reads leave undelivered there; a granule
of a suspect line waits for the line's rebuild instead (R60, R200). -/
def registerDeep (s : State) (ns : Namespace) (rs : List GranRead) : State :=
  rs.foldl (fun s r =>
    let i := mapIdx ns r.gran
    match r.loc with
    | .media psa =>
      if (r.slots.any (· == .deep)) && !lineSuspect s i && !(s.xlat.deep.any fun d => d.idx == i) && !s.xlat.unrecov.contains i then
        s.updXlat fun x => { x with deep := x.deep ++ [{ idx := i, nsid := ns.nsid, gran := r.gran, psa := psa, since := s.beat }] }
      else s
    | _ => s) s

/-- Whether every slot of a granule read is terminal. -/
def GranRead.done (r : GranRead) : Bool := r.slots.all fun d => d != .waiting && d != .around

/-- Whether a granule was delivered (R165). -/
def GranRead.delivered (r : GranRead) : Bool := r.slots.all fun d => d == .direct || d == .rebuilt

/-- Raise the sticky state for one granule read (R166): offsets from the entry's LBA. -/
def Sticky.note (k : Sticky) (lba : Nat) (tag : Option (BitVec 64)) (r : GranRead) : Sticky :=
  let off := r.gran - lba
  if r.delivered then
    let k := if r.slots.any fun d => d == .rebuilt then { k with rank := max k.rank 1 } else k
    match tag with
    | some t => if r.tag = t then k else { k with rank := max k.rank 2, integ := min k.integ off }
    | none => k
  else
    let rk := if r.slots.any fun d => d == .unrecov then 4 else 3
    { k with rank := max k.rank rk, undel := min k.undel off, count := min (k.count + 1) (2 ^ 32 - 1) }

/-- The sticky state a context starts with; the offsets start above every granule. -/
def Sticky.none : Sticky := { rank := 0, integ := 2 ^ 64, undel := 2 ^ 64, count := 0 }

end Sys2Proof.Machine
end

