-- ==== Sys2Proof/Machine/Derive.lean ====
section
/-! DEFINITION. What the state implies: carrier-profile figures, block counts, spare and wear stage,
zones and the write window, global status. -/

namespace Sys2Proof.Machine

/-! ### Carrier profiles (R303) -/

/-- Field f of the profile of oct k as it stood at its power-up. -/
def profOf (s : State) (k f : Nat) : Nat := (vget (getOct s k).profile f 0).toNat

/-- Field f of the profile that FCH_OCT_PROFILE assigns to oct k now. -/
def profSet (s : State) (k f : Nat) : Nat :=
  nvVal s (0x08000090 + 64 * bits (nvVal s 0x08000006) (2 * k + 1) (2 * k) + f)

/-- The index of a cell mode's field in a packed profile entry. -/
def modeIdx (m : CellMode) : Nat := m.code

/-- Read occupancy r of a mode on an oct, in beats. -/
def occRead (s : State) (k : Nat) (m : CellMode) : Nat := bits (profOf s k 5) (8 * modeIdx m + 7) (8 * modeIdx m)

/-- Word-line program occupancy. -/
def occProg (s : State) (k : Nat) (m : CellMode) : Nat := bits (profOf s k 6) (16 * modeIdx m + 15) (16 * modeIdx m)

/-- Erase occupancy. -/
def occErase (s : State) (k : Nat) : Nat := bits (profOf s k 7) 15 0

/-- Pages per block in a mode; 0 where the mode is not permitted. -/
def pagesOf (s : State) (k : Nat) (m : CellMode) : Nat := bits (profOf s k 4) (16 * modeIdx m + 15) (16 * modeIdx m)

/-- Blocks per die of an oct. -/
def blocksOf (s : State) (k : Nat) : Nat := bits (profOf s k 3) 12 0

/-- Pages per word line (R302). -/
def pagesPerWl : CellMode → Nat
  | .slc => 1 | .tlc => 3 | .qlc => 4

/-- Energy of a page read, of a word-line program and of an erase, in 0.01 µJ, the controller's own costs with it (R65,
R303). -/
def enRead (s : State) (k : Nat) : Nat := bits (profOf s k 11) 15 0 + (Config.opEnergy 0).toNat
/-- Word-line program energy. -/
def enProg (s : State) (k : Nat) (m : CellMode) : Nat := bits (profOf s k 11) (16 * modeIdx m + 31) (16 * modeIdx m + 16) + (Config.opEnergy 1).toNat
/-- Erase energy. -/
def enErase (s : State) (k : Nat) : Nat := bits (profOf s k 12) 15 0 + (Config.opEnergy 2).toNat
/-- Slot transfer energy. -/
def enXfer (s : State) (k : Nat) : Nat := bits (profOf s k 12) 31 16 + (Config.opEnergy 3).toNat

/-- Whether a program or erase of an oct may be suspended in one beat (R305). -/
def canSuspend (s : State) (k : Nat) (prog : Bool) : Bool :=
  bit (profOf s k 2) (if prog then 7 else 8) && decide (bits (profOf s k 8) 47 32 ≤ 3000)

/-- Tail slot transfers of a page program when FILL is clear (R302). -/
def tailXfers (s : State) (k : Nat) : Nat :=
  if bit (profOf s k 2) 6 then 0 else ceilDiv (bits (profOf s k 3) 63 32 - 18432) 5120

/-- The octs that are LIVE. -/
def liveOcts (s : State) : List Nat := (List.range 16).filter fun k => (getOct s k).st == .live

/-- The octs whose dies are known: those that are LIVE, and dark ones whose dies an earlier power-up identified. -/
def knownOcts (s : State) : List Nat :=
  (List.range 16).filter fun k => (getOct s k).st == .live || s.flash.dies.any fun d => dieOct d.d == k

/-- The least of a figure over a list of octs; 0 with none (R303, least favourable oct). -/
def leastIn (ks : List Nat) (f : Nat → Nat) : Nat :=
  match ks with
  | [] => 0
  | k :: ks => ks.foldl (fun m j => min m (f j)) (f k)

/-- The least of a figure over the octs whose dies are known. -/
def leastKnown (s : State) (f : Nat → Nat) : Nat := leastIn (knownOcts s) f

/-- The greatest of a figure over the LIVE octs. -/
def mostLive (s : State) (f : Nat → Nat) : Nat := (liveOcts s).foldl (fun m k => max m (f k)) 0

/-! ### Media profiles (R258) -/

/-- A media profile's ten bits. -/
def mediaProfile (s : State) (p : Nat) : Nat := if p = 3 then 0x2A0 else nvVal s (0x0600000C + p)

/-- Cell mode of a two-bit code; 3 is not a mode. -/
def cellOf : Nat → CellMode
  | 0 => .slc | 1 => .tlc | _ => .qlc

/-- Cell mode of a media profile. -/
def mpCell (s : State) (p : Nat) : CellMode := cellOf (bits (mediaProfile s p) 1 0)
/-- Width of a media profile, at most 8 on a sided module (R371). -/
def mpWidth (s : State) (p : Nat) : Nat :=
  let w := bits (mediaProfile s p) 6 2
  if sided s then min w 8 else w
/-- Parity columns of a media profile. -/
def mpPar (s : State) (p : Nat) : Nat := bits (mediaProfile s p) 8 7
/-- EN of a media profile. -/
def mpEn (s : State) (p : Nat) : Bool := bit (mediaProfile s p) 9

/-- The profile a namespace writes through (R258). -/
def nsProfile (s : State) (n : Nat) : Nat := nvVal s (0x06000013 + n)

/-- Summary slots of a band of width w and P pages (R212). -/
def summarySlots (w pages : Nat) : Nat := ceilDiv (4 * w * pages) 170

/-- Stripes a band summary fills (R212). -/
def summaryStripes (w q pages : Nat) : Nat := ceilDiv (summarySlots w pages) (4 * (w - q))

/-- CAPACITY of a band: data slots, summary stripes excluded (R266, R212). -/
def bandCapacity (w q pages : Nat) : Nat := 4 * (w - q) * (pages - summaryStripes w q pages)

/-- The octs that the counts of R270 cover: those known, of its own side on a sided module (R271). -/
def countOcts (s : State) : List Nat := (knownOcts s).filter fun k => !sided s || octSideB s k == s.twin.side

/-- W_p: the width of a band of a profile; on a sided module what it can reach in the octs of its own side, at most 8 (R271). -/
def reachWidth (s : State) (p : Nat) : Nat :=
  if sided s then min (mpWidth s p) ((countOcts s).filter fun k => pagesOf s k (mpCell s p) != 0).length else mpWidth s p

/-- CAP_p (R270). -/
def capOf (s : State) (p : Nat) : Nat :=
  bandCapacity (reachWidth s p) (mpPar s p) (leastIn (countOcts s) fun k => pagesOf s k (mpCell s p))

/-- Whether care work runs: Noon and Dusk (R264). -/
def careRuns (s : State) : Bool := (s.day.day == .noon || s.day.day == .dusk) && !s.day.fatal

/-! ### Block counts (R270, R271) -/

/-- Whether a die counts for this module: identified, its oct dark meanwhile or not, and in an oct of its own side when sided
(R270, R271). -/
def dieCounts (s : State) (d : Die) : Bool := !sided s || octSideB s (dieOct d.d) == s.twin.side

/-- Dies found (ID_CAPS1.DIES). -/
def diesFound (s : State) : Nat := (s.flash.dies.filter fun d => d.ready).length

/-- Octs with working dies (ID_CAPS1.OCTS). -/
def octsFound (s : State) : Nat :=
  (List.range 16).foldl (fun v k => v + b2n (s.flash.dies.any fun d => d.ready && !d.dark && dieOct d.d == k) * 2 ^ k) 0

/-- Blocks of the dies that count. -/
def allBlocks (s : State) : Nat := ((s.flash.dies.filter (dieCounts s)).map fun d => blocksOf s (dieOct d.d)).foldl (· + ·) 0

/-- Whether a block record lies on a die that counts. -/
def blockCounts (s : State) (i : Nat) : Bool :=
  match getDie s (i / 8192) with
  | some d => dieCounts s d && decide (i % 8192 < blocksOf s (dieOct d.d))
  | none => false

/-- Recorded blocks in a state. -/
def blocksIn (s : State) (p : Block → Bool) : Nat := (s.care.blocks.filter fun b => blockCounts s b.1 && p b.2).length

/-- Whether a block is good. -/
def Block.good (b : Block) : Bool := b.st != .retired && b.st != .factoryBad && b.st != .absent

/-- B_good. -/
def bGood (s : State) : Nat := allBlocks s - blocksIn s fun b => !b.good

/-- The good blocks that the system pool holds. -/
def systemBlocks (s : State) : Nat := blocksIn s fun b => b.system && b.good

/-- The erased pool: erased blocks, less those of them that B_sys keeps for the system pool (R270). -/
def erasedPool (s : State) : Nat := (blocksIn s fun b => b.st == .erased && !b.system) - (s.care.sysBlocks - systemBlocks s)

/-- Dirty blocks: those recorded DIRTY and those no record names. -/
def dirtyBlocks (s : State) : Nat := allBlocks s - blocksIn s fun b => b.st != .dirty

/-- B_need (R270). -/
def bNeed (s : State) : Nat :=
  ((s.xlat.nss.filter fun n => !sided s || n.sideB == s.twin.side).map fun n =>
    let p := nsProfile s n.nsid
    ceilDiv (ceilDiv (n.cap * n.granule) 4096) (max (capOf s p) 1) * reachWidth s p).foldl (· + ·) 0

/-- CARE_FREE_HIGH, CARE_FREE_LOW, CARE_FREE_MIN. -/
def freeHigh (s : State) : Nat := nvVal s 0x0700000B
/-- CARE_FREE_LOW. -/
def freeLow (s : State) : Nat := nvVal s 0x0700000C
/-- CARE_FREE_MIN. -/
def freeMin (s : State) : Nat := nvVal s 0x0700000D

/-- The blocks that are spare: SPARE times B_good (R270). -/
def spareBlocks (s : State) : Int := (bGood s : Int) - s.care.sysBlocks - bNeed s - freeHigh s

/-- SPARE in units of 0.01 % of B_good, rounded toward minus infinity; 0 with no good block. -/
def spare (s : State) : Int := if bGood s = 0 then 0 else spareBlocks s * 10000 / (bGood s : Int)

/-- Whether the SPARE condition of a stage holds, its limit in 0.01 %, with the 0.1 % kept while the stage is held (R286). -/
def spareBelow (s : State) (stage : Nat) (limit : Int) (incl : Bool) : Bool :=
  let sp := spareBlocks s * 10000
  let of := fun (k : Int) => k * (bGood s : Int)
  if stage ≤ s.care.wearStage then decide (sp < of (limit + 10))
  else if incl then decide (sp ≤ of limit) else decide (sp < of limit)

/-- The wear stage that holds now (R286). -/
def wearStageNow (s : State) : Nat :=
  if bGood s = 0 then 0
  else if spareBelow s 5 0 true then 5
  else if spareBelow s 4 50 false then 4
  else if spareBelow s 3 200 false then 3
  else if nvVal s 0x0700001F ≤ s.care.lastRetired ∧ s.care.passed then 2
  else if nvVal s 0x0700001E * s.care.lastSampled < 65536 * s.care.lastDeep then 1
  else 0

/-- XLAT_PHYS_LIMIT as computed at Dawn (R271). -/
def physLimitNow (s : State) : Nat :=
  let ps := [0, 1, 2, 4, 5, 6, 7].filter fun p => mpEn s p && decide (0 < reachWidth s p)
  let best := ps.foldl (fun m p => match m with
    | none => some p
    | some q => if capOf s p * reachWidth s q < capOf s q * reachWidth s p then some p else some q) none
  match best with
  | none => 0
  | some p => (bGood s * (256 - nvVal s 0x0700000A) / 256 - s.care.sysBlocks - freeHigh s) / reachWidth s p * capOf s p * 4096

/-- CARE_PE_RATED: rated erases per block. -/
def peRated (s : State) : Nat := leastKnown s fun k => bits (profOf s k 13) 31 0

/-- A block's PE as it becomes, with PAST_RATED once it reaches the rating (R290). -/
def Block.withPe (b : Block) (rated pe : Nat) : Block := { b with pe := pe, pastRated := b.pastRated || decide (rated ≤ pe) }

/-- One erase more of a block. -/
def raisePe (s : State) (die block : Nat) : State := modBlock s (blockIdx die block) fun b => b.withPe (peRated s) (b.pe + 1)

/-- Mean PE of the good blocks with a record; 0 with none (CARE_PE_MEAN). -/
def peMean (s : State) : Nat :=
  let bs := s.care.blocks.filter fun b => blockCounts s b.1 && b.2.good
  (bs.map fun b => b.2.pe).foldl (· + ·) 0 / max (bGood s) 1

/-- Highest PE of a good block. -/
def peMax (s : State) : Nat :=
  ((s.care.blocks.filter fun b => blockCounts s b.1 && b.2.good).map fun b => b.2.pe).foldl max 0

/-! ### Zones (R445 to R450) -/

/-- The two sensors of a zone: 0-15 die, 16-19 module, 20-27 carrier diodes (R445). -/
def zoneSensors (z : Nat) : List Nat :=
  if z < 8 then [2 * z, 2 * z + 1]
  else if z = 8 then [16, 17]
  else if z = 9 then [18, 19]
  else
    let c := (z - 10) / 4
    let q := (z - 10) % 4
    [20 + 4 * c + q, 20 + 4 * c + (q + 1) % 4]

/-- The octs a carrier zone governs. -/
def zoneOcts (z : Nat) : List Nat :=
  if z < 10 then [] else
    let c := (z - 10) / 4
    let q := (z - 10) % 4
    [8 * c + 2 * q, 8 * c + (2 * q + 3) % 8]

/-- The carrier zones that govern an oct. -/
def zonesOfOct (k : Nat) : List Nat := (List.range 18).filter fun z => (zoneOcts z).contains k

/-- Whether a sensor is fitted: a diode's FCH_DIODE_EN bit, every other sensor. -/
def sensorFitted (s : State) (i : Nat) : Bool := decide (i < 20) || bit (nvVal s 0x0800000B) (i - 20)

/-- Whether a sensor is fitted and not judged broken. -/
def sensorWorks (s : State) (i : Nat) : Bool := sensorFitted s i && !vget s.therm.broken i false

/-- The fitted members of a zone. -/
def zoneMembers (s : State) (z : Nat) : List Nat := (zoneSensors z).filter (sensorFitted s)

/-- Broken members of a zone. -/
def zoneBroken (s : State) (z : Nat) : Nat := ((zoneMembers s z).filter fun i => vget s.therm.broken i false).length

/-- A zone's reading in 1/16 °C; none when a member is broken, which reads as too hot, or with no
fitted member (R445, R447). -/
def zoneReading (s : State) (z : Nat) : Option Int :=
  match zoneMembers s z with
  | [] => none
  | i :: is => if 0 < zoneBroken s z then none else some (is.foldl (fun m j => max m (vget s.therm.reading j 0)) (vget s.therm.reading i 0))

/-- The highest reading of the working sensors of a list. -/
def hottest (s : State) (is : List Nat) : Option Int :=
  (is.filter (sensorWorks s)).foldl (fun m i => match m with
    | none => some (vget s.therm.reading i 0)
    | some t => some (max t (vget s.therm.reading i 0))) none

/-- T_c of R450: carrier diodes, else module sensors. -/
def carrierT (s : State) : Option Int :=
  match hottest s ((List.range 8).map (20 + ·)) with
  | some t => some t
  | none => hottest s [16, 17, 18, 19]

/-- START, MAX and HOT of a zone's class (R448), in degrees. -/
def zoneLimits (s : State) (z : Nat) : Nat × Nat × Nat :=
  let v := nvVal s (if z < 8 then 0x0F000008 else if z < 10 then 0x0F000009 else 0x0F00000A)
  (bits v 7 0, bits v 15 8, bits v 23 16)

/-! ### Global status (R22, GSTAT) -/

/-- DAY codes. -/
def DayState.code : DayState → Nat
  | .noon => 0 | .dusk => 1 | .night => 2 | .midnight => 3 | .dawn => 4

/-- LIFE codes. -/
def Life.code : Life → Nat
  | .blank => 0 | .bench => 1 | .sealed => 2 | .returned => 3 | .scrapped => 4

/-- TWIN_STATE codes (R374). -/
def TwinSt.code : TwinSt → Nat
  | .solo => 0 | .syncing => 1 | .paired => 2 | .covering => 3 | .recovering => 4 | .detaching => 5 | .detached => 6

/-- GSTAT.TWIN (R374). -/
def TwinSt.gstat : TwinSt → Nat
  | .solo => 0 | .syncing => 0 | .paired => 1 | .covering => 2 | .recovering => 2 | .detaching => 3 | .detached => 0

/-- FUNC of a function number. -/
def fnFunc (n : Nat) : Nat := n % 64

/-- ARING_STAT.RDY: the admin ring is listed; it falls when a reset ends (R82, R83). -/
def aringRdy (s : State) (f : HostFn) : Bool :=
  fnFunc f.n == 0 && (s.rings.any fun r => r.fn == f.n && r.loc == 0) && f.aringReadyAt.isNone

/-- GSTAT.READY of a function (R82, R115). -/
def gReady (s : State) (f : HostFn) : Bool :=
  if fnFunc f.n = 0 then aringRdy s f
  else s.rings.any fun r => r.fn == f.n && r.st == .active

/-- GSTAT.OCT_DARK: at least one oct is dark; in Dawn one that has been LIVE since it began, its reset value is 0 (R308). -/
def octDarkShown (s : State) : Bool :=
  (List.range 16).any fun k => (getOct s k).st == .dark && (s.day.day != .dawn || (getOct s k).wasLive)

/-- GSTAT as a function reads it. -/
def gstat (s : State) (f : HostFn) : Nat :=
  b2n (gReady s f) + 2 * b2n s.day.fatal + 4 * s.day.day.code + 32 * s.therm.step + 512 * s.sec.life.code +
  4096 * s.twin.st.gstat + 16384 * b2n (decide (0 < s.power.armed)) + 32768 * b2n s.therm.window +
  65536 * b2n (octDarkShown s) +
  131072 * b2n (decide (3 ≤ s.care.wearStage)) + 262144 * b2n s.nor.activating.isSome

/-- GSTAT as the module reports it outside BAR0: as the first function present reads it (log entry 13). -/
def gstatMod (s : State) : Nat := gstat s (s.fns.head?.getD HostFn.init)

/-- A module-wide event (R22, R23, R362, R367): GEVENT bit k in every function, the sideband pending bit
and ALERT_N, one record of the EVENTS page naming the oct or zone, 0xFF for none. -/
def event (s : State) (k who : Nat) : State :=
  let s1 := raiseEvent s k
  s1.updSide fun x =>
    { x with pend := x.pend ||| (1#8 <<< k), alert := x.alert || !x.pend.getLsbD k
             events := ({ beat := s.beat, code := k, detail := BitVec.ofNat 64 (who + gstatMod s1 * 2 ^ 8) } :: x.events).take 4096 }

/-- Raise TWIN, THERM, ARM and WEAR events by comparing what GSTAT and the wear stage say before and after. -/
def eventIf (b : Bool) (s : State) (k who : Nat) : State := if b then event s k who else s

end Sys2Proof.Machine
end

