-- ==== Sys2Proof/Machine/Access.lean ====
section
/-! DEFINITION. Reading and writing settings: what every setting reads as, the conditions of GET and SET
in their order, the ranges, and what a SET changes (R27 to R30 and each settings table). -/

namespace Sys2Proof.Machine

/-- A signed number as an n-bit two's complement field. -/
def sbits (n : Nat) (v : Int) : Nat := (v % (2 ^ n : Int)).toNat

/-- A length-limited counter field. -/
def capBits (n v : Nat) : Nat := min v (2 ^ n - 1)

/-- Sum of f i shifted to bit w * i, for i below n. -/
def packFields (w n : Nat) (f : Nat → Nat) : Nat := (List.range n).foldl (fun v i => v + f i % 2 ^ w * 2 ^ (w * i)) 0

/-- Reset values that depend on the index, and on the carrier profiles (R115, R295). -/
def resetOf (s : State) (id : Nat) : Option Nat :=
  if 0x04000005 ≤ id ∧ id < 0x04000185 then some (if (id - 0x04000005) % 64 = 0 then 1024 else 16)
  else if id = 0x07000016 then some (leastKnown s fun k => bits (profOf s k 14) 31 0)
  else if id = 0x07000017 then some (leastKnown s fun k => bits (profOf s k 14) 63 32)
  else if id = 0x07000018 then some (leastKnown s fun k => bits (profOf s k 15) 11 0)
  else none

/-- The value of a stored setting: written, or at its reset value. -/
def stored (s : State) (id : Nat) : Nat :=
  match Assoc.get s.nv id, resetOf s id with
  | some v, _ => v.toNat
  | none, some r => r
  | none, none => nvVal s id

/-- ID_STEP[23:0]. -/
def idStep : Nat := Config.stepping.toNat + Config.build.toNat * 2 ^ 8 + Config.grade.toNat * 2 ^ 16

/-- Ring pairs a function may hold (RING_FN_LIMIT_n). -/
def fnLimit (s : State) (n : Nat) : Nat := stored s (0x04000005 + n)

/-- RING_INFO_g (R115). -/
def ringInfo (s : State) (g : Nat) : Nat :=
  match getRing s g with
  | none => 0
  | some r => b2n (r.st == .active) + 2 * b2n r.admin + 4 * b2n r.hold + 8 * b2n r.nosnoopOk + 16 * r.sqLog2 +
      512 * r.cqLog2 + 2 ^ 14 * r.loc + 2 ^ 24 * fnFunc r.fn + 2 ^ 32 * fnLink r.fn + 2 ^ 35 * (if r.st = .active then 1 else 2)

/-- Class instruction budgets; class D4's is its base (R136, R149). -/
def budgetBase : Nat → Nat
  | 0 => 2048 | 1 => 2048 | 2 => 65536 | 3 => 1048576 | 4 => 65536 | 5 => 4194304 | 6 => 1048576 | _ => 0

/-- A little-endian word of a declaration block. -/
def declField (c : Code) (lo n : Nat) : Nat := field c.decl lo n

/-- Code pages of 4 KiB that an image takes (R133, R135). -/
def Code.pages (c : Code) : Nat := ceilDiv (64 + 4 * c.words.length) 4096

/-- Code pages in all: 1 GiB of 4 KiB (R13). -/
def codePagesAll : Nat := 262144

/-- Code pages of library slots. -/
def libPages (l : List LibSlot) : Nat := (l.map fun k => k.code.pages).foldl (· + ·) 0

/-- Count the code pages that are free: neither the library's, nor those of the one a switch replaced, nor those of host-memory
programs (R135, R149). -/
def countCode (s : State) : State :=
  s.updZci fun z => { z with codeFree := codePagesAll - libPages z.lib - libPages z.oldVlib - (s.ctxs.map Ctx.codePages).foldl (· + ·) 0 }

/-- A library slot. -/
def getLib (s : State) (k : Nat) : Option LibSlot := s.zci.lib.find? fun l => l.slot == k

/-- ZCI_LIB_INFO_s (R149). -/
def libInfo (s : State) (k : Nat) : Nat :=
  match getLib s k with
  | none => 0
  | some l => 1 + 2 * b2n (decide (k < 256)) + 4 * b2n (bit (declField l.code 5 1) 2) + 8 * b2n (bit (declField l.code 5 1) 3) +
      16 * l.code.words.length + 2 ^ 32 * capBits 16 l.pins

/-- Slab bytes not reserved by admitted commands. -/
def slabFree (s : State) : Nat := 2 ^ 36 - (s.ctxs.map fun x => x.slabRes).foldl (· + ·) 0

/-- XLAT_NS_INFO_n. -/
def nsInfo (s : State) (n : Nat) : Nat :=
  match getNs s n with
  | none => 0
  | some x => x.cap + 2 ^ 36 * b2n x.g16k + 2 ^ 37 * b2n (decide (nsLines x ≤ x.initLines))

/-- BSTATE codes (R265). -/
def BlockSt.code : BlockSt → Nat
  | .erased => 0 | .dirty => 1 | .banded => 2 | .retired => 3 | .factoryBad => 4 | .absent => 5

/-- BSTATE codes of a band (R266). -/
def BandSt.code : BandSt → Nat
  | .opened => 1 | .closed => 2 | .victim => 3 | .erasing => 4

/-- The record of a position in a table: ABSENT without a die or beyond its blocks (R265). -/
def blockIn (s : State) (blocks : List (Nat × Block)) (i : Nat) : Block :=
  match getDie s (i / 8192) with
  | some d => if i % 8192 < blocksOf s (dieOct d.d) then (Assoc.get blocks i).getD Block.init else { Block.init with st := .absent }
  | none => { Block.init with st := .absent }

/-- The block record that stands at a position. -/
def blockAt (s : State) (i : Nat) : Block := blockIn s s.care.blocks i

/-- The 32 bytes of a block record (R265). -/
def Block.bytes (b : Block) : List Byte :=
  leBytes 4 b.pe ++ leBytes 4 b.rdCount ++ leBytes 4 b.bandId.toNat ++ leBytes 1 b.st.code ++
  leBytes 1 (b2n b.candidate + 2 * b2n b.system + 4 * b2n b.pastRated + 8 * b2n b.rawTouched) ++
  leBytes 1 b.depth ++ leBytes 1 b.iter ++ leBytes 1 b.rcause ++ leBytes 1 b.lastCell.code ++ leBytes 2 b.pfails ++
  leBytes 4 b.erasedAt ++ leBytes 4 b.peSlc ++ leBytes 4 0

/-- The 96 bytes of a band record (R266). -/
def Band.bytes (b : Band) : List Byte :=
  leBytes 4 b.bandId.toNat ++ leBytes 1 b.st.code ++ leBytes 1 (b.profile + 8 * b2n b.system) ++
  leBytes 1 (b2n b.refresh + 2 * b2n b.failed + 4 * b2n b.dark + 8 * b2n b.cold + 16 * b2n b.wl) ++ leBytes 1 0 ++
  leBytes 8 b.lowSeq ++ leBytes 6 b.closeBeat ++ leBytes 2 0 ++ leBytes 4 b.valid ++ leBytes 4 b.capacity ++
  leBytes 8 b.ageClose ++
  ((List.range 16).flatMap fun c => leBytes 3 (let p := nth b.columns c (0, 0); p.1 * 2 ^ 13 + p.2)) ++ leBytes 8 0

/-- Data bands open. -/
def openBands (s : State) : Nat := (s.media.bands.filter fun b => b.st == .opened && !b.system).length

/-- MEDIA_SYS_WIDTH (R257, R371). -/
def sysWidth (s : State) : Nat := if sided s then 4 else 8

/-- Whether an oct is on a switched carrier: as FCH_OWN_MODE stood at its power-up, as it stands now while the oct is dark
(R323). -/
def octSwitched (s : State) (k : Nat) : Bool :=
  if (getOct s k).st = .dark then bit (nvVal s 0x08000004) k else (getOct s k).switched

/-- Whether this module holds OWNk_GNT, or oct k is direct and LIVE (FCH_OWN_HELD). -/
def ownHeld (s : State) (k : Nat) : Bool :=
  let o := getOct s k
  if octSwitched s k then o.gnt else o.st == .live

/-- OCT state codes (R307). -/
def OctSt.code : OctSt → Nat
  | .dark => 0 | .powering => 1 | .live => 2 | .draining => 3

/-- Mover engine state codes. -/
def EngSt.code : EngSt → Nat
  | .running => 0 | .restarting => 1 | .stopped => 2

/-- Staging state codes. -/
def StageSt.code : StageSt → Nat
  | .blank => 0 | .erasing => 1 | .receiving => 2 | .verified => 3 | .failed => 4 | .previous => 5

/-- DAY_DOMAINS. -/
def domains (s : State) : Nat :=
  b2n s.day.hostOn + 2 * b2n s.day.coreOn + 4 * b2n s.day.sramOn + 8 * b2n s.day.dramOn + 16 * b2n s.day.puntyOn +
  32 * b2n s.day.caneOn + 64 * b2n s.day.bootOn + packFields 1 16 (fun k => b2n ((getOct s k).st != .dark)) * 2 ^ 16

/-- TWIN_AREA_BYTES (R380): 0 unless PAIRED. -/
def areaBytes (s : State) : Nat :=
  if s.twin.st = .paired then min s.power.armed s.twin.peerArmed / 2 / 16384 * 16384 else 0

/-- The lower or untested half's voltage (PWR_BANK_MV). -/
def bankMv (s : State) : Nat :=
  let a := (vget s.power.halves 0 Half.init).mv
  let b := (vget s.power.halves 1 Half.init).mv
  if s.power.testing = 1 then b else if s.power.testing = 2 then a else min a b

/-- PWR_FEED_STATE. -/
def feedState (s : State) : Nat :=
  let a := vget s.power.feeds 0 Feed.init
  let b := vget s.power.feeds 1 Feed.init
  b2n a.good + 2 * b2n b.good + 4 * b2n a.lockout + 8 * b2n b.lockout + 16 * b2n a.breaker + 32 * b2n b.breaker +
  64 * b2n a.reversed + 128 * b2n b.reversed

/-- PWR_BANK_TEMP: module sensor 1, saturated, 0x800 while broken. -/
def bankTemp (s : State) : Nat :=
  if sensorWorks s 17 then sbits 12 (max (-2047) (min 2047 (vget s.therm.reading 17 0))) else 0x800

/-- THERM_ZONE_z. -/
def zoneWord (s : State) (z : Nat) : Nat :=
  let rd := match zoneReading s z with
    | some t => sbits 16 t
    | none => if 0 < zoneBroken s z then 0x7FFF else 0
  let d := vget s.therm.demand z 0
  let st := if vget s.therm.shut z false then 3 else if vget s.therm.alarm z false then 2 else if 0 < d then 1 else 0
  rd + 2 ^ 16 * d + 2 ^ 20 * st + 2 ^ 22 * zoneBroken s z

/-- NOR wait states (R478): the table value at 0.80 V of the clock, plus FW_NOR_WS_EXTRA. -/
def norWs (s : State) : Nat := (if nvVal s 0x1100000D = 1 then 7 else 4) + nvVal s 0x1100000F

/-- A bank's image in the boot flash. -/
def imageOf (s : State) (b : Nat) : Image := vget s.nor.images b Image.init

/-- The key epoch in use for a namespace: that of its newest key record (R515); 0 when absent. -/
def nsEpoch (s : State) (n : Nat) : Nat :=
  if (getNs s n).isNone then 0 else (s.sec.keyrecs.filter fun k => k.nsid == n).foldl (fun m k => max m k.epoch) 0

/-- ROOT as the last Dawn derived it from SECRET, the life-cycle state and the tamper count (R505, R508). -/
def root (s : State) : List Byte :=
  Config.kdf (if s.sec.rootLife = .scrapped then List.replicate 32 0xFF else Config.secret) [BitVec.ofNat 8 s.sec.rootLife.code]
    [BitVec.ofNat 8 s.sec.rootTampers] 64

/-- KEK (R505). -/
def kek (s : State) : List Byte := sha3 (root s ++ [0x04])

/-- The seed of the identity key (R505). -/
def idSeed (s : State) : List Byte := sha3 (root s ++ [0x01])

/-- The seeds d and z of the ML-KEM key (R505). -/
def kemSeed (s : State) : List Byte := sha3 (root s ++ [0x02]) ++ sha3 (root s ++ [0x03])

/-- Whether a key record passes its key-wrap integrity check: the vault is filled and its KEK is the one the record
was wrapped under (R515, DEDUCED, log entry 16). -/
def recReach (s : State) (k : KeyRec) : Bool :=
  !s.sec.vaultZero && k.kekLife == s.sec.rootLife && k.kekTampers == s.sec.rootTampers

/-- The record of a key. -/
def keyRecOf (s : State) (n e : Nat) : Option KeyRec := s.sec.keyrecs.find? fun k => k.nsid == n && k.epoch == e

/-- Whether the key of a slot can be reached; epoch 0 marks a slot that is not encrypted (R509, R514). -/
def keyReach (s : State) (n e : Nat) : Bool := e == 0 || ((keyRecOf s n e).map (recReach s)).getD false

/-- The key of a namespace and epoch: its NSKEY entry, or its record unwrapped (R469, R470). -/
def vaultKey (s : State) (n e : Nat) : List Byte :=
  match s.sec.nskeys.find? fun k => k.nsid == n && k.epoch == e with
  | some k => k.key
  | none => match keyRecOf s n e with
    | some r => if recReach s r then (keyUnwrap (kek s) r.wrapped).getD [] else []
    | none => []

/-- An engine uses a namespace key: its NSKEY entry becomes the most recent, in place of the least recently used
of the 768 (R470). -/
def useKey (s : State) (n e : Nat) : State :=
  if n = 0 || e = 0 || !keyReach s n e then s
  else s.updSec fun k => { k with nskeys := { nsid := n, epoch := e, key := vaultKey s n e } :: (k.nskeys.filter fun v => !(v.nsid == n && v.epoch == e)).take 767 }

/-- KEYABLE and IMPORTED of a namespace's current key (SEC_NS_KEY_n, R515, R519). -/
def keyFlags (s : State) (n : Nat) : Nat :=
  b2n (s.sec.keyable.contains n) +
  2 * b2n (s.sec.keyrecs.any fun k => k.nsid == n && k.epoch == nsEpoch s n && k.flags.getLsbD 2)

/-- RING_SCHED_g of a pair. -/
def schedWord (r : Ring) : Nat := r.weight + 256 * r.fetch

/-- RING_COAL_g of a pair. -/
def coalWord (r : Ring) : Nat := r.coalCount + 256 * r.coalBeats + 2 ^ 24 * r.vector

/-- Values that the state holds or implies; none for a stored setting. RING_SCHED_g and RING_COAL_g of a pair that is NONE are
stored: what a SET left, or a reset that has freed the pair and not ended (R111, R115). -/
def liveVal (s : State) (id : Nat) : Option Nat :=
  let i := id % 2 ^ 24
  match id / 2 ^ 24 with
  | 0x01 => match i with
    | 1 => some (0x005A9160 + idStep * 2 ^ 32)
    | 2 => some Config.serial.toNat
    | 4 => some (diesFound s)
    | 5 => some (octsFound s)
    | _ => none
  | 0x02 => match i with
    | 1 => some s.beat
    | 0xA => some (Config.energyStatic s.day.stepFrom).toNat
    | 0xB => some s.plan.admitted
    | 0xC => some s.plan.refused
    | 0xD => some s.plan.suspends
    | 0xE => some s.plan.readArounds
    | 0xF => some s.plan.deepPending
    | _ => none
  | 0x03 => match i with
    | 1 => some (65536 - s.ctxs.length)
    | 2 => some s.zci.ctxPeak
    | 3 => some s.zci.faults
    | 4 => some s.zci.verifyFails
    | 5 => some (slabFree s)
    | 6 => some s.zci.codeFree
    | 0x10 => some s.zci.lastFault.toNat
    | _ => if 7 ≤ i ∧ i ≤ 14 then some (budgetBase (i - 7)) else if 0x11 ≤ i ∧ i < 0x1011 then some (libInfo s (i - 0x11)) else none
  | 0x04 => match i with
    | 1 => some (1018 - (s.rings.filter fun r => decide (6 ≤ r.g)).length)
    | 2 => some s.plan.dbErrors
    | 3 => some s.plan.abortsDone
    | 4 => some s.plan.ringResets
    | _ =>
      if 0x185 ≤ i ∧ i < 0x585 then some (ringInfo s (i - 0x185))
      else if 0x585 ≤ i ∧ i < 0x985 then (getRing s (i - 0x585)).map schedWord
      else if 0x985 ≤ i ∧ i < 0xD85 then (getRing s (i - 0x985)).map coalWord
      else none
  | 0x05 => match i with
    | 1 => some (linesFree s)
    | 2 => some (largestFree s)
    | 3 => some s.xlat.physLimit
    | 4 => some (nsBytes s)
    | 5 => some s.xlat.nss.length
    | 6 => some s.xlat.hits
    | 7 => some s.xlat.misses
    | 8 => some s.xlat.crcErrors
    | 0xC => some s.xlat.ckGen
    | 0xD => some (b2n s.xlat.ck.isSome)
    | 0xE => some s.xlat.jpos
    | 0xF => some s.xlat.seq
    | 0x11 => some s.xlat.lastRecovery.toNat
    | _ => if 0x13 ≤ i then some (nsInfo s (i - 0x12)) else none
  | 0x06 => match i with
    | 1 => some s.media.hardDecodes
    | 2 => some s.media.hardFails
    | 3 => some s.media.miscorrects
    | 4 => some s.media.misdirects
    | 5 => some s.media.softDecodes
    | 6 => some s.media.softFails
    | 7 => some s.media.rebuilt
    | 0xA => some (openBands s)
    | 0xB => some (sysWidth s)
    | 0xF => some 0x2A0
    | _ => none
  | 0x07 => match i with
    | 1 => some s.care.wearStage
    | 2 => some (sbits 64 (spare s))
    | 3 => some (bGood s)
    | 4 => some s.care.sysBlocks
    | 5 => some (bNeed s)
    | 6 => some (erasedPool s)
    | 7 => some (dirtyBlocks s)
    | 8 => some s.care.retired
    | 9 => some s.care.earlyRetired
    | 0x1C => some (peRated s)
    | 0x20 => some (s.care.tclk / 65536)
    | 0x21 => some (peMean s)
    | 0x22 => some (peMax s)
    | 0x23 => some (blocksIn s fun b => b.good && b.pastRated)
    | 0x24 => some (b2n s.care.peEstimated)
    | 0x25 => some (b2n s.care.worn)
    | 0x26 => some s.care.pass
    | 0x27 => some s.care.lag
    | 0x28 => some s.care.hostSlots
    | 0x29 => some s.care.relocated
    | 0x2A => some s.care.erases
    | 0x2B => some s.care.programFails
    | 0x2C => some s.care.eraseFails
    | 0x2D => some s.care.patrolReads
    | 0x2E => some s.care.refreshPatrol
    | 0x2F => some s.care.refreshDisturb
    | 0x30 => some s.care.refreshAge
    | _ =>
      if 0x31 ≤ i ∧ i ≤ 0x36 then some (vget s.care.depthHist (i - 0x31) 0)
      else if 0x38 ≤ i ∧ i ≤ 0x3B then
        let sel := nvVal s 0x07000037
        some (field (blockAt s (blockIdx (sel / 2 ^ 13) (sel % 2 ^ 13))).bytes (8 * (i - 0x38)) 8)
      else if 0x3D ≤ i then
        some (((getBand s (nvVal s 0x0700003C)).map fun b => field b.bytes (8 * (i - 0x3D)) 8).getD 0)
      else none
  | 0x08 => match i with
    | 2 => some (packFields 2 16 fun k => (getOct s k).st.code)
    | 3 => some (packFields 1 16 fun k => b2n (getOct s k).fault)
    | 5 => some (packFields 1 16 fun k => b2n (ownHeld s k))
    | 0xD => some s.flash.trainFails
    | 0xE => some s.flash.grantLosses
    | 0xF => some s.flash.lateOps
    | _ =>
      if 0x10 ≤ i ∧ i < 0x90 then
        let c := getChan s (i - 0x10)
        some (c.rate + 8 * c.perBeat + 64 * c.svc + 256 * c.dieMask.toNat + 2 ^ 24 * c.eye)
      else none
  | 0x09 => match i with
    | 3 => some (packFields 2 4 fun e => (vget s.movers.eng e Engine.init).st.code)
    | 4 => some s.movers.busErrors
    | 5 => some s.movers.affected
    | 6 => some s.movers.paceWithdrawn
    | 7 => some s.movers.toHost
    | 8 => some s.movers.fromHost
    | 9 => some s.movers.internal
    | _ => if 0xA ≤ i then some (vget s.movers.eng (i - 0xA) Engine.init).lastError.toNat else none
  | 0x0A => match i with
    | 7 => some (0x40 + 2 * s.side.slotId + b2n s.twin.side)
    | 8 => some s.side.eid
    | 0xB => some s.side.messages
    | 0xC => some s.side.errors
    | _ =>
      if 0xD ≤ i ∧ i < 0x13 then
        let l := getLink s (i - 0xD)
        some (l.st + 4 * l.rate + 32 * l.width + 1024 * b2n l.flit + 2048 * b2n l.sris + 4096 * l.numVfs + 2 ^ 18 * b2n l.vfEnable)
      else if 0x13 ≤ i then some (getLink s (i - 0x13)).downs else none
  | 0x0B => match i with
    | 1 => some s.twin.st.code
    | 2 => some (b2n s.twin.side)
    | 9 => some (areaBytes s)
    | 0xB => some s.twin.epochA
    | 0xC => some s.twin.epochB
    | 0xD => some (b2n s.twin.stale)
    | 0xE => some (s.twin.lanes + 16 * capBits 32 s.twin.hbFaults)
    | 0xF => some s.twin.takeovers
    | 0x10 => some s.twin.lastTakeover.toNat
    | _ => if 0x11 ≤ i then some (((getNs s (i - 0x10)).map fun n => 1 + 2 * b2n n.sideB).getD 0) else none
  | 0x0C => match i with
    | 8 => some (Config.mac false).toNat
    | 9 => some (Config.mac true).toNat
    | 0xC => some (packFields 2 2 fun k => vget s.cane.link k 0)
    | 0xD => some (s.cane.sessions.filter fun x => x.phase == 2).length
    | 0x18 => some s.cane.authFails
    | 0x19 => some s.cane.replayDrops
    | 0x1A => some s.cane.framesTx
    | 0x1B => some s.cane.framesRx
    | 0x1C => some s.cane.retransmits
    | _ => if 0x101C ≤ i then
        some (((s.cane.repl.find? fun r => r.nsid == i - 0x101B).map fun r =>
          r.mode + 256 * capBits 48 (((r.ops.head?).map fun o => s.beat - o.at_).getD 0)).getD 0)
      else none
  | 0x0D => match i with
    | 1 => some (min (2 ^ 17 - 1) (vget s.power.feeds 0 Feed.init).mv.toNat)
    | 2 => some (min (2 ^ 17 - 1) (vget s.power.feeds 1 Feed.init).mv.toNat)
    | 3 => some (feedState s)
    | 4 => some s.power.inputMw
    | 5 => some (bankMv s)
    | 8 => some (bankTemp s)
    | 9 => some (vget s.power.halves 0 Half.init).capUf
    | 0xA => some (vget s.power.halves 1 Half.init).capUf
    | 0xB => some (vget s.power.halves 0 Half.init).esr
    | 0xC => some (vget s.power.halves 1 Half.init).esr
    | 0x11 => some (s.power.testing + 4 * b2n (vget s.power.halves 0 Half.init).faulty +
        8 * b2n (vget s.power.halves 1 Half.init).faulty + 16 * b2n s.power.aborted)
    | 0x12 => some s.power.energy
    | 0x13 => some s.power.armOcts
    | 0x14 => some s.power.armed
    | 0x17 => some (b2n s.power.jthrough)
    | 0x19 => some s.power.llCount
    | 0x1A => some s.power.llLast.toNat
    | 0x1B => some (capBits 32 (vget s.power.feeds 0 Feed.init).drops + 2 ^ 32 * capBits 32 (vget s.power.feeds 1 Feed.init).drops)
    | _ => none
  | 0x0E => match i with
    | 2 => some ((s.day.pendReq.map fun p => p.1.code).getD 7)
    | 4 => some s.day.wakeAt
    | 5 => some s.day.lastWake.toNat
    | 7 => some (domains s)
    | 8 => some s.day.darkAccesses
    | 9 => some s.day.darkFaults
    | 0x14 => some s.day.superseded
    | _ => if 0xA ≤ i ∧ i < 0xF then some (vget s.day.res (i - 0xA) 0)
      else if 0xF ≤ i ∧ i < 0x14 then some (vget s.day.entries (i - 0xF) 0) else none
  | 0x0F => match i with
    | 1 => some s.therm.step
    | 3 => some (packFields 1 28 fun k => b2n (vget s.therm.broken k false))
    | 7 => some (match carrierT s with
      | some t => sbits 16 t
      | none => 0x7FFF)
    | 0xB => some s.therm.alarms
    | 0xC => some s.therm.hotStops
    | _ => if 0xE ≤ i then some (zoneWord s (i - 0xE)) else none
  | 0x10 => match i with
    | 4 => some (s.mem.testState + 64 * s.mem.testBank + 1024 * s.mem.testUnit)
    | 8 => some (256 - s.mem.fuseRows.length)
    | 9 => some s.mem.ceTotal
    | 0xA => some s.mem.ueTotal
    | _ =>
      if 0xB ≤ i ∧ i < 0x16 then
        let b := vget s.mem.banks (i - 0xB) MemBank.init
        some (b.inUse + 2 ^ 12 * b.soft + 2 ^ 24 * b.fused + 2 ^ 36 * capBits 12 b.ce + 2 ^ 48 * capBits 8 b.ue + 2 ^ 56 * b.health)
      else if 0x16 ≤ i then
        some (vget s.mem.chbufRows (i - 0x16) 0 + 16 * b2n (vget s.mem.chbufOut (i - 0x16) false) + 32 * capBits 11 (vget s.mem.chbufCe (i - 0x16) 0))
      else none
  | 0x11 => match i with
    | 1 => some s.nor.active
    | 2 => some (imageOf s s.nor.active).version.toNat
    | 3 => some (imageOf s s.nor.active).svn
    | 4 => some s.nor.svnMin
    | 5 => some (s.nor.stage.code + 8 * b2n s.nor.preloaded)
    | 6 => some (if s.nor.stage = .blank ∨ s.nor.stage = .erasing then 0 else (imageOf s (1 - s.nor.active)).version.toNat)
    | 7 => some s.nor.dlNext
    | 8 => some s.nor.dlTries
    | 9 => some (b2n s.nor.trial + 2 * s.nor.attempts)
    | 0xB => some (packFields 1 4 (fun k => b2n (vget s.sec.fwKeys k KeySlot.init).valid) +
        16 * packFields 1 4 (fun k => b2n (vget s.sec.fwKeys k KeySlot.init).revoked))
    | 0xC => some s.nor.schema
    | 0xE => some (norWs s)
    | 0x11 => some s.nor.wdtExpiries
    | 0x12 => some s.nor.busyFaults
    | 0x13 => some s.nor.progRefused
    | 0x14 => some s.nor.eraseSuspends
    | 0x15 => some (s.nor.log.filter fun e => e.typ == 0x09).length
    | 0x16 => some ((256 - s.nor.sysUsed.length) * (1 + 2 ^ 16))
    | 0x17 => some s.nor.activations
    | 0x18 => some s.nor.lastAct.toNat
    | 0x19 => some ((s.nor.prev.map fun b => (imageOf s b).version.toNat).getD 0)
    | 0x1A => some s.nor.switchBeat
    | _ => none
  | 0x12 => match i with
    | 1 => some s.sec.life.code
    | 2 => some (b2n s.sec.lock)
    | 3 => some (b2n s.sec.benchClose)
    | 6 => some s.sec.tampers
    | 7 => some s.sec.tamperEvents
    | 8 => some s.sec.tamperLast.toNat
    | 9 => some s.sec.epochNext
    | 0xA => some s.sec.sysEpoch
    | 0xC => some (packFields 1 4 (fun k => b2n (vget s.sec.caKeys k KeySlot.init).valid) +
        16 * packFields 1 4 (fun k => b2n (vget s.sec.caKeys k KeySlot.init).revoked))
    | 0xF => some s.sec.certState
    | 0x11 => some s.sec.keyrecs.length
    | 0x12 => some s.sec.scrub.length
    | 0x32B => some s.sec.importFails
    | _ =>
      if 0x13 ≤ i ∧ i < 0x32B then
        some (match s.sec.cert with
          | some c => field c (8 * (i - 0x13)) 8
          | none => ((Assoc.get s.sec.certBuf (i - 0x13)).map BitVec.toNat).getD 0)
      else if 0x32C ≤ i then some (nsEpoch s (i - 0x32B) + 2 ^ 32 * keyFlags s (i - 0x32B))
      else none
  | _ => none

/-- The value a GET returns: zero for a WO setting; what a SET of this beat left; the live value, or the stored one (R27, R29). -/
def readSetting (s : State) (id : Nat) : BitVec 64 :=
  match findSetting id with
  | some r => if r.acc = .wo then 0 else
    match (if r.acc = .w1c then none else Assoc.get s.due id) with
    | some v => v
    | none => BitVec.ofNat 64 (match liveVal s id with
      | some v => v
      | none => stored s id)
  | none => 0

/-- A setting of a dark domain: the channel of a dark oct, a memory bank without power (R444). -/
def settingDark (s : State) (id : Nat) : Bool :=
  if 0x08000010 ≤ id ∧ id < 0x08000090 then (getOct s ((id - 0x08000010) / 8)).st == .dark
  else if 0x10000016 ≤ id ∧ id < 0x10000096 then (getOct s ((id - 0x10000016) / 8)).st == .dark
  else if 0x1000000B ≤ id ∧ id < 0x10000016 then !s.day.sramOn
  else false

/-- A signed byte. -/
def sbyte (v : Nat) : Int := if v < 128 then v else (v : Int) - 256

/-- The limit words of R448 and R456: START < MAX < HOT and the class's bounds. -/
def limitsOk (v sLo sHi mLo mHi hLo hHi : Nat) : Bool :=
  let st := bits v 7 0
  let mx := bits v 15 8
  let ht := bits v 23 16
  decide (sLo ≤ st ∧ st ≤ sHi ∧ mLo ≤ mx ∧ mx ≤ mHi ∧ hLo ≤ ht ∧ ht ≤ hHi ∧ st < mx ∧ mx < ht)

/-- The value a stored setting has, or takes from the next beat on: what a further SET is checked against. -/
def dueVal (s : State) (id : Nat) : Nat :=
  match Assoc.get s.due id with
  | some v => v.toNat
  | none => stored s id

/-- Whether a media profile value may be set (R259). -/
def profileOk (s : State) (p v : Nat) : Bool :=
  let w := bits v 6 2
  let q := bits v 8 7
  decide (4 ≤ w ∧ w ≤ 16 ∧ (q = 1 ∨ q = 2)) &&
  (bit v 9 || !(s.xlat.nss.any fun n => dueVal s (0x06000013 + n.nsid) == p)) &&
  (!bit v 9 || (liveOcts s).all fun k => decide (bits v 1 0 ≤ 2) && decide (0 < pagesOf s k (cellOf (bits v 1 0))))

/-- The bits of field f of a carrier profile that are not zero bits, and the ranges of its numbers (R303). -/
def profFieldOk (f v : Nat) : Bool :=
  match f with
  | 2 => decide (v < 2 ^ 11 ∧ bits v 3 1 ≤ 6)
  | 3 => bits v 15 13 == 0 && bits v 23 20 == 0 && bits v 31 29 == 0 && decide (1 ≤ bits v 12 0 ∧ bits v 12 0 ≤ 8192)
  | 4 | 6 | 8 => decide (v < 2 ^ 48)
  | 5 => decide (v < 2 ^ 24)
  | 7 | 9 => decide (v < 2 ^ 16)
  | 10 => decide (v < 2 ^ 56)
  | 12 | 13 => decide (v < 2 ^ 32)
  | 15 => decide (v < 2 ^ 12)
  | _ => decide (f < 16) || v == 0

/-- The stated ranges that a row's low and high do not give. A VECTOR beyond the function's MSI-X table is out of range, and any
VECTOR passes for a pair that is NONE (DESIGN CHOICE, log entry 28: R115 gives VECTOR no range). -/
def specialOk (s : State) (id v : Nat) : Bool :=
  if id = 0x09000001 then decide (v ∈ [256, 512, 1024, 2048, 4096, 8192, 16384, 32768, 65536])
  else if id = 0x0A000003 then decide (bits v 2 0 ≤ 5 ∧ bits v 5 3 ≤ 5)
  else if id = 0x0C000007 then decide (v % 2 ^ 14 = 0)
  else if id = 0x0D000015 then decide (v % 2 ^ 26 = 0)
  else if id = 0x07000016 then decide (v < dueVal s 0x07000017)
  else if id = 0x07000017 then decide (dueVal s 0x07000016 < v)
  else if id = 0x0700000B then decide (dueVal s 0x0700000C < v)
  else if id = 0x0700000C then decide (dueVal s 0x0700000D < v ∧ v < dueVal s 0x0700000B)
  else if id = 0x0700000D then decide (v < dueVal s 0x0700000C)
  else if id = 0x0700000E then decide (dueVal s 0x0700000F < v)
  else if id = 0x0700000F then decide (v < dueVal s 0x0700000E)
  else if id = 0x0F000005 then decide (-40 ≤ sbyte v ∧ sbyte v ≤ 93 ∧ sbyte v < sbyte (nvVal s 0x0F000006) - 1)
  else if id = 0x0F000006 then decide (-38 ≤ sbyte v ∧ sbyte v ≤ 95 ∧ sbyte (nvVal s 0x0F000005) < sbyte v - 1)
  else if id = 0x0F000008 then limitsOk v 80 104 96 105 115 115
  else if id = 0x0F000009 then limitsOk v 0 255 0 255 0 110
  else if id = 0x0F00000A then limitsOk v 0 255 0 255 0 95
  else if 0x04000005 ≤ id ∧ id < 0x04000185 then decide (v ≤ 1024)
  else if 0x04000585 ≤ id ∧ id < 0x04000985 then decide (1 ≤ bits v 7 0 ∧ 1 ≤ bits v 15 8)
  else if 0x04000985 ≤ id ∧ id < 0x04000D85 then
    match getRing s (id - 0x04000985) with
    | some r => match getFn s r.fn with
      | some f => decide (bits v 34 24 < f.vectors)
      | none => true
    | none => true
  else if 0x0600000C ≤ id ∧ id < 0x06000014 then profileOk s (id - 0x0600000C) v
  else if 0x06000014 ≤ id ∧ id < 0x06001013 then mpEn s v
  else if id = 0x11000004 then decide ((readSetting s id).toNat ≤ v ∧ v ≤ (imageOf s s.nor.active).svn)
  else if 0x0C00001D ≤ id ∧ id < 0x0C00101C then bits v 7 3 == 0
  else if 0x08000090 ≤ id ∧ id < 0x08000190 then profFieldOk ((id - 0x08000090) % 64) v
  else true

/-- The life-cycle lock of RWL settings (R506): outside BENCH they are locked once SEC_LOCK is set, and
in every state after SEALED. -/
def rwlLocked (s : State) : Bool := s.sec.lock || s.sec.life == .returned || s.sec.life == .scrapped

/-- A SET that its own setting refuses with STATE or DENIED (R108, R371, R506). -/
def setRefusal (s : State) (id v : Nat) : Option (BitVec 16 × BitVec 8) :=
  if 0x04000585 ≤ id ∧ id < 0x04000985 then
    match getRing s (id - 0x04000585) with
    | some r => if r.st = .active then none else some (St.state, 1)
    | none => some (St.state, 1)
  else if id = 0x0B000003 ∨ id = 0x0B000004 then
    if s.xlat.nss ≠ [] ∨ s.twin.st ≠ .solo then some (St.denied, 0) else none
  else if id = 0x12000002 then
    if s.sec.lock ∧ v = 0 then some (St.locked, 0)
    else if s.sec.life ≠ .sealed ∧ v = 1 then some (St.denied, 0) else none
  else none

/-- The outcome of the checks of R27 for a GET or SET by an admin context: none to go on. -/
def accessCheck (s : State) (id : Nat) (set : Option (BitVec 64)) : Option (BitVec 16 × BitVec 8) :=
  match findSetting id with
  | none => some (St.range, 0x01)
  | some r =>
    match set with
    | none => if settingDark s id then some (St.domainOff, 0) else none
    | some v =>
      if r.acc = .ro then some (St.denied, 0)
      else if r.acc = .rwl ∧ rwlLocked s then some (St.locked, 0)
      else if settingDark s id then some (St.domainOff, 0)
      else if 2 ^ r.width ≤ v.toNat ∨ v.toNat < r.lo ∨ r.hi < v.toNat ∨ !specialOk s id v.toNat then some (St.range, 0x02)
      else setRefusal s id v.toNat

/-- Settings whose SET is a command of its own: the SET retires there. -/
def specialSet (id : Nat) : Bool :=
  id == 0x08000001 || id == 0x08000003 || id == 0x0D000010 || id == 0x0F000004 || id == 0x10000003 ||
  id == 0x1200000B || id == 0x12000010 || id == 0x12000002 || id == 0x1200000D || id == 0x1200000E ||
  (decide (0x0C00001D ≤ id) && decide (id < 0x0C00101C))

/-- CANE_EN: in Noon and Dusk the Cane domain is on while it is 1; off, the ports are down and sessions closed (R402, R429). -/
def caneEnable (s : State) (on : Bool) : State :=
  if on then s.updDay fun d => { d with caneOn := d.day == .noon || d.day == .dusk }
  else ((closeAll s).updDay fun d => { d with caneOn := false }).updCane fun c => { c with link := Vector.replicate 2 0 }

/-- Whether a SET acts from the next beat on: the subsystems whose settings do, RING_SCHED and RING_COAL, ZCI_HOSTPROG,
MEDIA_RETRY_STEPS and MEDIA_NS_PROFILE; DAY_TARGET is read by DOZE at issue (R75, R115, R149, R226, R259, R260, R295, R323, R343,
R368, R401, R402, R424, R456, R474, R502, R525). -/
def fromNext (id : Nat) : Bool :=
  ([2, 5, 7, 8, 9, 0xA, 0xB, 0xC, 0xD, 0xE, 0x10, 0x11, 0x12].contains (id / 2 ^ 24) && id != 0x0E000001) ||
  (decide (0x04000585 ≤ id) && decide (id < 0x04000D85)) || (decide (0x03001011 ≤ id) && decide (id < 0x03001191)) || id == 0x06000009 ||
  (decide (0x06000014 ≤ id) && decide (id < 0x06001013))

/-- What a setting changes once it acts (R28): RING_SCHED and RING_COAL of a pair, the alarm, the security floor, the Cane's domain and
sessions, the certificate buffer, or the stored value. -/
def actNow (s : State) (id : Nat) (v : BitVec 64) : State :=
  if 0x04000585 ≤ id ∧ id < 0x04000985 then
    modRing s (id - 0x04000585) fun r => { r with weight := bits v.toNat 7 0, fetch := bits v.toNat 15 8 }
  else if 0x04000985 ≤ id ∧ id < 0x04000D85 then
    match getRing s (id - 0x04000985) with
    | some _ => modRing s (id - 0x04000985) fun r =>
      { r with coalCount := bits v.toNat 7 0, coalBeats := bits v.toNat 23 8, vector := bits v.toNat 34 24 }
    | none => storeNv s id v
  else if id = 0x0E000004 then s.updDay fun d => { d with wakeAt := v.toNat }
  else if id = 0x11000004 then s.updNor fun n => { n with svnMin := max n.svnMin v.toNat }
  else if id = 0x0C000001 then caneEnable (storeNv s id v) (v == 1)
  else if id = 0x0C000002 then storeNv (closeAll s) id v
  else if 0x12000013 ≤ id ∧ id < 0x1200032B then
    s.updSec fun x => { x with certBuf := Assoc.set x.certBuf (id - 0x12000013) v, cert := if x.certState = 0 then none else x.cert }
  else storeNv s id v

/-- Add a ring pair; RING_COAL_g is the pair's from then on. -/
def addRing (s : State) (r : Ring) : State :=
  ((s.updRings fun l => l ++ [r]).updNv fun l => Assoc.del (Assoc.del l (0x04000585 + r.g)) (0x04000985 + r.g)).updDue fun l => l.filter fun p =>
    p.1 != 0x04000585 + r.g && p.1 != 0x04000985 + r.g

/-- Remove a ring pair, with what SETs of this beat left for it: its RING_SCHED and RING_COAL read their reset values at once (DESIGN CHOICE, log
entry 28: R111 says so of a function reset, R115 not of RING_DELETE and ARING_CTRL). -/
def freeRing (s : State) (g : Nat) : State :=
  (s.updRings fun l => l.filter fun q => q.g != g).updDue fun l => l.filter fun p => p.1 != 0x04000585 + g && p.1 != 0x04000985 + g

/-- What a SET of a setting without a command of its own changes (R28). -/
def applySet (s : State) (id : Nat) (v : BitVec 64) : State := if fromNext id then storeDue s id v else actNow s id v

/-- Whether a SET of this setting retires only once the value is durable in the system area (R28). -/
def settingNv (id : Nat) : Bool := ((findSetting id).map Setting.nv).getD false

end Sys2Proof.Machine
end

