-- ==== Sys2Proof/Machine/Operands.lean ====
section
/-! DEFINITION. Operand forms of the command machine: registers, predicates, handles, buffer extents,
the descriptor space, the word at PC. -/

namespace Sys2Proof.Machine

/-- Register Gi: G0 reads zero (R120). -/
def rget (x : Ctx) (i : Nat) : BitVec 64 := if i = 0 then 0 else vget x.regs i 0

/-- Write register Gi: a write to G0 is discarded (R120, R155). -/
def rset (x : Ctx) (i : Nat) (v : BitVec 64) : Ctx := if i = 0 then x else { x with regs := vset x.regs i v }

/-- Predicate Pi: P0 reads true (R120). -/
def pget (x : Ctx) (i : Nat) : Bool := i == 0 || vget x.preds i false

/-- Write predicate Pi: a write to P0 is discarded (R120, R156). -/
def pset (x : Ctx) (i : Nat) (v : Bool) : Ctx := if i = 0 then x else { x with preds := vset x.preds i v }

/-- Whether the guard of a word lets it take effect (R122). -/
def guardOn (x : Ctx) (w : BitVec 32) : Bool := pget x (zG w % 4) != decide (4 ≤ zG w)

/-- Bytes of a buffer: size code k means 2^(k+11) (R121). -/
def Buf.size (b : Buf) : Nat := 2 ^ (b.code + 11)

/-- The buffer of a handle. -/
def hget (x : Ctx) (h : Nat) : Option Buf := vget x.hnd h none

/-- Set a handle. -/
def hset (x : Ctx) (h : Nat) (b : Option Buf) : Ctx := { x with hnd := vset x.hnd h b }

/-- Bytes of the buffer of a handle; 0 when empty (BUF SIZE, R161). -/
def hsize (x : Ctx) (h : Nat) : Nat := ((hget x h).map Buf.size).getD 0

/-- Whether an extent lies in bounds on a non-empty handle, in exact arithmetic (R126, R153). -/
def inBounds (x : Ctx) (h o n : Nat) : Bool :=
  match hget x h with
  | some b => decide (o + n ≤ b.size)
  | none => false

/-- The bytes of a handle's buffer; nothing when empty. -/
def hbytes (x : Ctx) (h : Nat) : List Host.Cell := ((hget x h).map Buf.bytes).getD []

/-- Change the bytes of a handle's buffer. -/
def hmod (x : Ctx) (h : Nat) (f : List Host.Cell → List Host.Cell) : Ctx :=
  match hget x h with
  | some b => hset x h (some { b with bytes := f b.bytes })
  | none => x

/-- Bytes read from a handle's buffer. -/
def hread (x : Ctx) (h o n : Nat) : List Byte := Mem.readN (hbytes x h) o n

/-- Bytes written to a handle's buffer. -/
def hwrite (x : Ctx) (h o : Nat) (bs : List Byte) : Ctx := hmod x h fun m => Mem.writeN m o bs

/-! ### The context store (R121) -/

/-- The 256 bytes of a context in the context store, as Bench tools read them. -/
def Ctx.store (x : Ctx) : List Byte :=
  let greg := (List.range 16).flatMap fun i => leBytes 8 (rget x i).toNat
  let hnd := (List.range 8).flatMap fun h => leBytes 8 (((hget x h).map fun b => b.addr.toNat + b.code * 2 ^ 40).getD 0)
  let stack := (List.range 8).flatMap fun i => leBytes 4 (let f := nth x.stack.reverse i (0, 0); f.2 + f.1 * 2 ^ 12)
  let preds := b2n (pget x 1) + 2 * b2n (pget x 2) + 4 * b2n (pget x 3)
  greg ++ hnd ++ stack ++ leBytes 8 x.budget ++ leBytes 4 (x.pc + x.prog * 2 ^ 12 + x.stack.length * 2 ^ 25 + preds * 2 ^ 29) ++
  leBytes 4 x.rdLeft ++ leBytes 4 x.wrLeft ++ leBytes 4 x.slabLeft ++ leBytes 4 x.strLeft ++ leBytes 4 x.hostLeft

/-! ### The descriptor space (05, Host transfers; R86, R87) -/

/-- Whether a scatter element is a link. -/
def SgElem.link (e : SgElem) : Bool := e.eflags.getLsbD 0

/-- The pieces of the descriptor space: host address and length, in order, links left out. -/
def descPieces (e : Entry) (segs : List (List SgElem)) : List (Nat × Nat) :=
  if e.dcount.getLsbD 31 then
    ((segs.flatMap id).filter fun x => !x.link).map fun x => (x.addr.toNat, x.len.toNat)
  else if e.dcount = 0 then [] else [(e.daddr.toNat, e.dcount.toNat)]

/-- Descriptor bytes. -/
def descBytes (e : Entry) (segs : List (List SgElem)) : Nat := ((descPieces e segs).map Prod.snd).foldl (· + ·) 0

/-- Host writes of bytes at a descriptor offset: one write a piece. -/
def scatterWrites : List (Nat × Nat) → Nat → List Byte → List (Nat × List Byte)
  | [], _, _ => []
  | (a, n) :: ps, off, bs =>
    if bs.isEmpty then []
    else if n ≤ off then scatterWrites ps (off - n) bs
    else (a + off, bs.take (n - off)) :: scatterWrites ps 0 (bs.drop (n - off))

/-! ### The word at PC -/

/-- The code a context runs in a program: its host-memory program, the vendor code kept for contexts
started before a switch beat, or the library slot (R158, R496). -/
def codeOf (s : State) (x : Ctx) (p : Nat) : Option Code :=
  if p = 0x1000 then x.code
  else if x.admBeat < s.nor.switchBeat then
    match s.zci.oldVlib.find? fun l => l.slot == p with
    | some l => some l.code
    | none => (getLib s p).map LibSlot.code
  else (getLib s p).map LibSlot.code

/-- The instruction word at PC; none when PC has passed the last instruction (R152). -/
def wordAt (s : State) (x : Ctx) : Option (BitVec 32) :=
  match codeOf s x x.prog with
  | some c => c.words[x.pc]?
  | none => none

/-- The namespace of a context's entry. -/
def ctxNs (s : State) (x : Ctx) : Option Namespace := getNs s x.entry.nsid.toNat

/-- Whether [a, a + n) lies inside the entry range of the entry (R164). -/
def inEntry (x : Ctx) (a n : Nat) : Bool :=
  decide (x.entry.lba.toNat ≤ a ∧ a + n ≤ x.entry.lba.toNat + x.entry.length.toNat)

/-- DMODE bits of the footprint: READS, WRITES, REMOTE (R130, R131). -/
def dReads (x : Ctx) : Bool := x.dmode.getLsbD 0
/-- WRITES. -/
def dWrites (x : Ctx) : Bool := x.dmode.getLsbD 1

end Sys2Proof.Machine
end

