-- ==== Sys2Proof/Machine/Flags.lean ====
section
/-! DEFINITION. Flag computations: relations of CMP and CMPI, the relations of a filter, the sticky
state's effect on POST, the outcome word. -/

namespace Sys2Proof.Machine

/-- The relation of CMP by fn, of CMPI by its two-bit code (R156). -/
def relation (fn : Nat) (a b : BitVec 64) : Bool :=
  match fn with
  | 0 => a == b
  | 1 => a != b
  | 2 => a.slt b
  | 3 => a.ult b
  | 4 => a.sle b
  | _ => a.ule b

/-- The ALU operations by fn (R155). -/
def aluOp (fn : Nat) (a b : BitVec 64) : BitVec 64 :=
  match fn with
  | 0x0 => a + b
  | 0x1 => a - b
  | 0x2 => a &&& b
  | 0x3 => a ||| b
  | 0x4 => a ^^^ b
  | 0x5 => a <<< (b.toNat % 64)
  | 0x6 => a >>> (b.toNat % 64)
  | 0x7 => a.sshiftRight (b.toNat % 64)
  | 0x8 => a * b
  | 0x9 => BitVec.ofNat 64 (a.toNat * b.toNat / 2 ^ 64)
  | 0xA => if a.slt b then a else b
  | 0xB => if a.slt b then b else a
  | 0xC => if a.ult b then a else b
  | _ => if a.ult b then b else a

/-- A field of w bytes, sign-extended to 64 bits. -/
def sextBytes (w v : Nat) : BitVec 64 := BitVec.ofInt 64 (sext (8 * w) v)

/-- The relation of a filter term on a field value of w bytes (R175). -/
def filterRel (fop w v : Nat) (k : BitVec 64) : Bool :=
  let u := BitVec.ofNat 64 v
  let g := sextBytes w v
  match fop with
  | 0 => u == k
  | 1 => u != k
  | 2 => g.slt k
  | 3 => u.ult k
  | 4 => g.sle k
  | 5 => u.ule k
  | 6 => k.slt g
  | 7 => k.ult u
  | 8 => k.sle g
  | 9 => k.ule u
  | 10 => (u &&& k) != 0
  | 11 => (u &&& k) == 0
  | _ => false

/-- Whether a record matches a filter descriptor of 80 bytes (R175). -/
def filterMatch (f : List Byte) (r : List Byte) : Bool :=
  let terms := (List.range (field f 2 1 % 4 + 1)).map fun t =>
    let b := 16 + 16 * t
    let w := 2 ^ (field f (b + 2) 1 % 4)
    filterRel (field f (b + 3) 1 % 16) w (field r (field f b 2) w) (BitVec.ofNat 64 (field f (b + 8) 8))
  if bit (field f 3 1) 0 then terms.any id else terms.all id

/-- Record size of a filter descriptor. -/
def filterRec (f : List Byte) : Nat := (field f 0 2 % 512 + 1) * 8

/-- The status a POST selects by fn (05, POST). -/
def postStatus : Nat → BitVec 16
  | 0x0 => St.ok
  | 0x1 => St.range
  | 0x2 => St.state
  | 0x3 => St.domainOff
  | 0x4 => St.integrity
  | 0x5 => St.compareMismatch
  | 0x6 => St.denied
  | 0x7 => St.signature
  | 0x8 => St.locked
  | 0x9 => St.twinUnavailable
  | 0xA => St.caneUnreachable
  | _ => St.superseded

/-- What POST posts: the selected status, or for OK the highest sticky rank with its result (R185). -/
def fixStatus (k : Sticky) (st : BitVec 16) (detail : BitVec 8) (res : BitVec 64) : BitVec 16 × BitVec 8 × BitVec 64 :=
  if st ≠ St.ok then (st, detail, res)
  else match k.rank with
    | 0 => (st, detail, res)
    | 1 => (St.okRebuilt, detail, res)
    | 2 => (St.integrity, 0, BitVec.ofNat 64 (k.integ % 2 ^ 32))
    | 3 => (St.deepPending, 0, BitVec.ofNat 64 (k.undel % 2 ^ 32 + k.count * 2 ^ 32))
    | _ => (St.unrecoverable, 0, BitVec.ofNat 64 (k.undel % 2 ^ 32 + k.count * 2 ^ 32))

/-- An outcome word: status in [15:0], detail in [23:16] (R180). -/
def outcomeWord (st : BitVec 16) (detail : BitVec 8) : BitVec 64 :=
  st.setWidth 64 ||| (detail.setWidth 64 <<< 16)

end Sys2Proof.Machine
end

