-- ==== Sys2Proof/Machine/Post.lean ====
section
/-! DEFINITION. How a command ends: the order rules between commands, durability, run-time faults, the
completion and where it goes, what the end of a context releases; the log of the boot flash. -/

namespace Sys2Proof.Machine

/-! ### Order between commands (R101, R102, R104, R549) -/

/-- Whether a command touches media granules of its namespace: a FLUSH and an admin op touch none
(R131, R132). -/
def Ctx.touches (x : Ctx) : Bool := dReads x || dWrites x

/-- Whether two commands overlap. -/
def overlaps (x y : Ctx) : Bool :=
  x.touches && y.touches && x.entry.nsid == y.entry.nsid && (x.mod || y.mod) &&
  decide (x.entry.lba.toNat < y.entry.lba.toNat + y.entry.length.toNat) &&
  decide (y.entry.lba.toNat < x.entry.lba.toNat + x.entry.length.toNat)

/-- ORD of an entry. -/
def Entry.ord (e : Entry) : Bool := e.flags.getLsbD 0
/-- ATOM of an entry. -/
def Entry.atom (e : Entry) : Bool := e.flags.getLsbD 1
/-- NOSNOOP of an entry. -/
def Entry.nosnoop (e : Entry) : Bool := e.flags.getLsbD 2
/-- NO_IRQ of an entry. -/
def Entry.noIrq (e : Entry) : Bool := e.flags.getLsbD 3

/-- A direct op. -/
def Entry.isDir (e : Entry) (op : Nat) : Bool := e.typ == 1 && e.op.toNat == op

/-- Whether an entry names a program (TYPE 0x02 or 0x03). -/
def Entry.isProg (e : Entry) : Bool := e.typ == 2 || e.typ == 3

/-- Whether every operation of a command on granules has taken effect. -/
def Ctx.effDone (x : Ctx) : Bool := x.wait == .fixed || (x.wait == .posting && x.atom.isEmpty)

/-- A reset, which acts in the beat of its admission (R110 to R112). -/
def Ctx.isReset (x : Ctx) : Bool := x.entry.typ == 4 && (x.entry.op == 0x82 || x.entry.op == 0x84 || x.entry.op == 0x85)

/-- Whether x may not start its operations: its first instruction issues in the beat after its admission (R426), and an
earlier command may stand in its way. -/
def effBlocked (s : State) (x : Ctx) : Bool :=
  (decide (s.beat ≤ x.admBeat) && !x.isReset) || s.ctxs.any fun y => decide (y.adm < x.adm) &&
    (((x.entry.ord || y.entry.ord) && y.ringOf.isSome && y.ringOf == x.ringOf) ||
     (overlaps x y && (x.entry.isProg || !y.effDone)))

/-- Whether an earlier overlapping command is still to be posted. -/
def postBlocked (s : State) (x : Ctx) : Bool :=
  s.ctxs.any fun y => decide (y.adm < x.adm) && overlaps x y

/-! ### Durability (R49, R52, R179, R413) -/

/-- Whether every write of a context is durable: acknowledged by the twin, verified in SLC when written
through, in journal slots when the module runs journal-through. -/
def durable (s : State) (x : Ctx) : Bool :=
  x.mirrorWait.all (fun p => decide (p ≤ s.twin.ackedPseq)) &&
  !(s.xlat.gather.any fun g => g.through && !g.atom && g.owner == x.c) &&
  (!s.power.jthrough || !x.mod || journaled s)

/-! ### Releasing what a context holds (R116, R125, R134, R545) -/

/-- A command's read that a die has not started. -/
def ArrayOp.queuedFor (o : ArrayOp) (adm beat : Nat) : Bool := o.kind == .read && o.owner == adm && decide (beat < o.start)

/-- Whether a read lies inside a suspension. -/
def Susp.holds (k : Susp) (o : ArrayOp) : Bool := o.kind == .read && decide (k.at_ < o.start) && decide (o.start < k.resume)

/-- What is left of a suspension whose reads are those: none where it has not begun and serves no read, else it ends after the
last of them, in the next beat at the earliest (R56, R545). -/
def Susp.trim (beat : Nat) (reads : List ArrayOp) (k : Susp) : Option Susp :=
  let mine := reads.filter k.holds
  if k.resume ≤ beat then some k
  else if mine.isEmpty && decide (beat < k.at_) then none
  else some { k with resume := min k.resume (max (beat + 1) ((mine.map fun o => o.start + o.busy + 1).foldl max 0)) }

/-- The beats of a suspension. -/
def Susp.len (k : Susp) : Nat := k.resume + 1 - k.at_

/-- The beats that an operation takes without its suspensions. -/
def ArrayOp.occ (o : ArrayOp) : Nat := o.busy - sum (o.susps.map Susp.len)

/-- A program or erase whose suspensions are cut to the reads that a die still has. -/
def ArrayOp.resumeEarly (beat : Nat) (reads : List ArrayOp) (o : ArrayOp) : ArrayOp :=
  if o.susps.isEmpty then o
  else
    let l := o.susps.filterMap (Susp.trim beat reads)
    { o with susps := l, busy := o.occ + sum (l.map Susp.len) }

/-- A die without the reads a command has queued on it. -/
def Die.without (x : Die) (adm beat : Nat) : Die :=
  let ops := x.ops.filter fun o => !o.queuedFor adm beat
  if ops.length = x.ops.length then x else { x with ops := ops.map (ArrayOp.resumeEarly beat ops) }

/-- Whether a die runs nothing on a beat. -/
def Die.idleAt (x : Die) (b : Nat) : Bool := x.ops.all fun o => decide (b < o.start) || decide (o.start + o.busy ≤ b)

/-- Release the bookings of a command after this beat: those of spans not yet laid whole, the reads queued on dies, and what
suspensions cut short no longer take of their dies (R545). -/
def releaseBookings (s : State) (adm : Nat) : State :=
  let dies := s.flash.dies.map fun x => x.without adm s.beat
  let freed := fun (b : Booking) => match b.res with
    | .dieTime d => b.owner == 0 && b.share == .host && (dies.any fun x => x.d == d && x.idleAt b.beat) &&
        (s.flash.dies.any fun x => x.d == d && !x.idleAt b.beat)
    | _ => false
  (s.updPlan fun p =>
    { p with near := p.near.filter fun b => !(decide (s.beat < b.beat) && (b.owner == adm || freed b))
             far := p.far.filter fun b => !(b.owner == adm && decide (p.laidSpan ≤ b.span)) }).updFlash fun f => { f with dies := dies }

/-- The owner under which a write's share of the drain is booked: it outlives the completion (R51). -/
def drainOwner (adm : Nat) : Nat := adm + 2 ^ 64

/-- The owner under which a command books the programs its POST waits for: those of a write-through write, and of its journal slot in
journal-through (R52, R413). -/
def throughOwner (adm : Nat) : Nat := adm + 2 ^ 65

/-- The end of a context: bookings, library pins, code pages, gather slots, then the context itself; with the last
one started before a switch beat the old vendor code goes (R496). -/
def endCtx (s : State) (c : Nat) : State :=
  match getCtx s c with
  | none => s
  | some x =>
    let s0 := releaseBookings (releaseBookings s x.adm) (throughOwner x.adm)
    let s1 := if x.status = St.ok ∨ x.status = St.okRebuilt then s0 else releaseBookings s0 (drainOwner x.adm)
    let s2 := s1.updZci fun z =>
      { z with lib := updIf (fun l => x.pins.contains l.slot) (fun l => { l with pins := l.pins - 1 }) z.lib
               codeFree := z.codeFree + x.codePages
               ended := if x.issNow = 0 then z.ended else z.ended ++ [(x.c / 256, x.issNow, x.overNow)] }
    let s3 := s2.updXlat fun t =>
      { t with gather := (t.gather.filter fun g => !(g.atom && g.owner == c)).map fun g =>
          if g.owner == c then { g with through := false } else g }
    let s4 := s3.updCtxs fun l => l.filter fun y => y.c != c
    sweepGather (if s4.ctxs.any fun y => decide (y.admBeat < s4.nor.switchBeat) then s4 else s4.updZci fun z => { z with oldVlib := [], codeFree := z.codeFree + libPages z.oldVlib })

/-! ### Completions (R10, R92, R109, R352, R364, R398) -/

/-- The deadline a command's SLACK counts to; none in D7. -/
def Ctx.slackTo (x : Ctx) : Option Nat := if x.dOpen then none else some x.dline

/-- The 32 bytes of a completion entry (R92). -/
def Completion.bytes (k : Completion) : List Byte :=
  leBytes 2 k.status.toNat ++ leBytes 2 k.cid.toNat ++ leBytes 2 k.sqHead.toNat ++ leBytes 1 (b2n k.phase) ++
  leBytes 1 k.detail.toNat ++ leBytes 8 k.result.toNat ++ leBytes 8 k.admSeq.toNat ++ leBytes 6 k.cbeat.toNat ++
  leBytes 2 k.slack.toNat

/-- Answer the outstanding sideband ADMIN request (R361, R364). -/
def sidebandDone (s : State) (status cid : BitVec 16) (detail : BitVec 8) (result adm : BitVec 64)
    (slack : BitVec 16) (data : List Byte) : State :=
  let k : Completion := { status := status, cid := cid, sqHead := 0, phase := false, detail := detail, result := result,
                          admSeq := adm, cbeat := BitVec.ofNat 48 s.beat, slack := slack }
  emit (s.updSide fun x => { x with messages := satAdd x.messages 1, adminBusy := false, adminEntry := none, adminData := [] })
    (.sideband 0x06 0 s.side.adminSeq (k.bytes ++ data))

/-- A REP goes to the context whose RCALL named this module's own node (R397 step 2), or over the session under the MSGID of its
REQ, kept for repeated requests (R398). -/
def sendRep (s : State) (sid msgId : Nat) (status : BitVec 16) (detail : BitVec 8) (result : BitVec 64)
    (data : List Byte) : State :=
  let m := repMessage status detail result data
  if sid = 0 then tellCall s msgId m
  else
    let s1 := modSession s sid fun x =>
      { x with dedup := updIf (fun d => d.msgId == msgId) (fun d => { d with rep := some m, repAt := s.beat }) x.dedup }
    caneQueue s1 sid msgId 0x11 0 m none

/-- Count a withheld completion in a reset's record: withheld, ABORTED, OK or OK_REBUILT (R110). -/
def RingReset.count (r : RingReset) (st : BitVec 16) : RingReset :=
  { r with withheld := r.withheld + 1, aborted := r.aborted + b2n (st == St.aborted)
           ok := r.ok + b2n (st == St.ok || st == St.okRebuilt) }

/-- The result word of a reset's counts (R110). -/
def resetWord (withheld aborted ok : Nat) : BitVec 64 :=
  BitVec.ofNat 64 (withheld % 2 ^ 32 + aborted % 2 ^ 16 * 2 ^ 32 + ok % 2 ^ 16 * 2 ^ 48)

/-- Add withheld, ABORTED and OK counts to those that a FUNC_RESET or a RING_RESET gathers in its context. -/
def addCounts (s : State) (c : Nat) (k : RingReset) : State :=
  modCtx s c fun y =>
    let a := fun i => nth y.aux i 0#64
    { y with aux := [a 0 + BitVec.ofNat 64 k.withheld, a 1 + BitVec.ofNat 64 k.aborted, a 2 + BitVec.ofNat 64 k.ok] ++ y.aux.drop 3 }

/-- The FUNC_RESETs that wait for a function, and the RING_RESET of a ring that a function reset removed (R110, R111). -/
def resetters (s : State) (fn g : Nat) : List Nat :=
  (match getFn s fn with
    | none => []
    | some f => f.resetBy.toList ++ f.resetToo) ++
  (s.ctxs.filter fun y => y.entry.typ == 4 && y.entry.op == 0x82 && decide (4 < y.aux.length) && (nth y.aux 3 0#64).toNat == g + 1).map Ctx.c

/-- Count for the resets of a removed ring. -/
def countGone (s : State) (fn g : Nat) (k : RingReset) : State := (resetters s fn g).foldl (fun s c => addCounts s c k) s

/-- A count of nothing. -/
def RingReset.none : RingReset := { at_ := 0, byCtx := Option.none, withheld := 0, aborted := 0, ok := 0 }

/-- Count a withheld completion for the resets of a function and of its removed ring (R110, R111). -/
def countFnReset (s : State) (fn g : Nat) (st : BitVec 16) : State := countGone s fn g (RingReset.none.count st)

/-- What the completion of an admin op brings with it: a namespace accepts entries from then on (R190), or no
longer exists (R192); a module reset follows (R495, R508); an activation that was stopped is over. -/
def afterAdm (s : State) (x : Ctx) : State :=
  let ok := x.status == St.ok
  let n := x.entry.nsid.toNat
  if x.entry.typ != 4 then s
  else match x.entry.op.toNat with
    | 0x88 => s.updXlat fun t => { t with nss := updIf (fun k => k.nsid == n && k.creating == some x.adm) (fun k => { k with creating := none }) t.nss }
    | 0x89 =>
      if ok || x.snap == 1 then s.updXlat fun t => { t with nss := t.nss.filter fun k => k.nsid != n }
      else s.updXlat fun t => { t with nss := updIf (fun k => k.nsid == n) (fun k => { k with deleting := false }) t.nss }
    | _ => if !ok then (if x.entry.op == 0x8D && s.nor.activating == some (x.c, 1) then s.updNor fun n => { n with activating := none } else s)
      else match x.entry.op.toNat with
    | 0x8D => if x.entry.a0 == 1 || x.entry.a0 == 3 then s.updPlan fun p => { p with resetAfter := true } else s
    | 0x91 => s.updPlan fun p => { p with resetAfter := true }
    | _ => s

/-- Post the completion of a command whose status is fixed, and end its context (R186 steps 4 and 5). The
first completed write to a namespace clears its KEYABLE bit (R519). A module reset posts nothing (R109, R112); a completion that the
function cannot receive now is kept, the command with it (R101, R352). -/
def complete (s : State) (x : Ctx) : State :=
  let adm := BitVec.ofNat 64 x.adm
  let wrote := (x.entry.isProg && dWrites x || x.entry.typ == 1 && x.entry.op == 2) && (x.status == St.ok || x.status == St.okRebuilt)
  let counted := (afterAdm s x).updPlan fun p => { p with deepPending := satAdd p.deepPending (b2n (x.status == St.deepPending)) }
  let posted := if wrote then counted.updSec fun k => { k with keyable := k.keyable.filter (· != x.entry.nsid.toNat) } else counted
  if s.plan.resetFlush then endCtx counted x.c else
  match x.src with
  | .sideband => endCtx (sidebandDone posted x.status x.entry.cid x.detail x.result adm (slackAt s.beat x.slackTo) x.data) x.c
  | .cane sid msgId _ =>
    endCtx (sendRep posted sid msgId x.status x.detail x.result (x.data.take x.counted)) x.c
  | .ring g =>
    match getRing s g with
    | none => endCtx (countFnReset counted x.fn g x.status) x.c
    | some r =>
      if x.withheld then endCtx counted x.c
      else if r.rst.isSome then
        endCtx (modRing counted g fun r => { r with rst := r.rst.map fun k => k.count x.status }) x.c
      else if fnWritable s r.fn then
        endCtx (writeCompletion posted g x.status x.entry.cid x.detail x.result adm x.slackTo x.entry.noIrq) x.c
      else keepCompletion s r.fn { ring := g, ctx := some x.c, status := x.status, cid := x.entry.cid, detail := x.detail, result := x.result, noIrq := x.entry.noIrq }

/-- Post a fixed command once no earlier overlapping command is left to post (R102), one that faulted or ended at D after D too (DESIGN CHOICE,
log entry 28: R143 and R549 say no later than D, R102 holds the completion, and neither gives way to the other in words). -/
def tryComplete (s : State) (c : Nat) : State :=
  match getCtx s c with
  | none => s
  | some x => if x.wait == .fixed && !postBlocked s x && (durable s x || (x.status != St.ok && x.status != St.okRebuilt)) then
      complete s x
    else s

/-- Fix a command's status without a POST: its atom group is discarded (R144), its gather slots outside
the map go, its work ends; its completion is still to be posted. -/
def fixEnd (s : State) (c : Nat) (st : BitVec 16) (detail : BitVec 8) (res : BitVec 64) : State :=
  match getCtx s c with
  | none => s
  | some x =>
    if x.wait == .fixed then s else
    let s1 := releaseBookings (releaseBookings (releaseBookings (discardAtom s x) x.adm) (drainOwner x.adm)) (throughOwner x.adm)
    let s2 := modCtx s1 c fun y => { y with status := st, detail := detail, result := res, wait := .fixed, mirrorWait := [], reads := [], fed := [] }
    s2.updXlat fun t => { t with gather := updIf (fun g => g.through && g.owner == c) (fun g => { g with through := false }) t.gather }

/-- A command ends without a POST: its status is fixed, and its completion posted when the order allows. -/
def endWith (s : State) (c : Nat) (st : BitVec 16) (detail : BitVec 8) (res : BitVec 64) : State :=
  tryComplete (fixEnd s c st detail res) c

/-- Program field of R143: the slot, 0xFFFF for a host-memory program. -/
def progField (p : Nat) : Nat := if p = 0x1000 then 0xFFFF else p

/-- The result word of a run-time fault or a bus error (R143, R163). -/
def faultWord (x : Ctx) : BitVec 64 :=
  BitVec.ofNat 64 (x.pc % 2 ^ 16 + progField x.prog * 2 ^ 16 + min x.issued (2 ^ 32 - 1) * 2 ^ 32)

/-- The result word of a fault or a bus error, and the state after: of a direct or admin op, whose resident parison's PC, slot
and count the spec does not give, a free value (R143, R163, log entry 3). -/
def endWord (s : State) (x : Ctx) : BitVec 64 × State := if x.entry.isProg then (faultWord x, s) else drawFree s

/-- A run-time fault (R143, R149). Where the command came from no ring, ZCI_LAST_FAULT [50:40] is a free
value (log entry 3); PC and program of a resident parison are those of its result word. -/
def faultCtx (s : State) (c code : Nat) : State :=
  match getCtx s c with
  | none => s
  | some x =>
    let g := match x.ringOf with
      | some g => g % 1024
      | none => (Config.freeValue s.freeCtr).toNat % 2 ^ 11
    let s0 := s.updFreeCtr fun k => if x.ringOf.isSome then k else k + 1
    let e := endWord s0 x
    let w := code + e.1.toNat % 2 ^ 16 * 2 ^ 8 + e.1.toNat / 2 ^ 16 % 2 ^ 16 * 2 ^ 24 + g * 2 ^ 40
    let s2 := e.2.updZci fun z => { z with faults := satAdd z.faults 1, lastFault := BitVec.ofNat 64 w }
    endWith s2 c St.zciFault (BitVec.ofNat 8 code) e.1

/-- Whether a command's commit beat has come (R105). -/
def committed (s : State) (x : Ctx) : Bool :=
  match x.commitBeat with
  | some b => decide (b ≤ s.beat)
  | none => false

/-- Count an abort before the commit point in RING_ABORTS_DONE. -/
def countAbort (s : State) : State := s.updPlan fun p => { p with abortsDone := satAdd p.abortsDone 1 }

/-- A reset ends a command before its commit point (R109). -/
def abortCtx (s : State) (c : Nat) : State := endWith (countAbort s) c St.aborted 0 0

/-- An ABORT ends a command before its commit point: it is posted in the next beat (R105). -/
def abortNext (s : State) (c : Nat) : State :=
  modCtx (fixEnd (countAbort s) c St.aborted 0 0) c fun y => { y with postBeat := s.beat + 1 }

/-- Steps 1 to 4 of R186 for a context that executes POST, once its writes are durable: fix the status,
decide the atom group, post when the order allows. -/
def post (s : State) (c : Nat) : State :=
  match getCtx s c with
  | none => s
  | some x =>
    if x.wait == .fixed then tryComplete s c
    else if x.wait == .posting && durable s x && !x.stopping then
      let f := fixStatus x.sticky x.status x.detail x.result
      let s1 := modCtx s c fun y => { y with status := f.1, detail := f.2.1, result := f.2.2, wait := .fixed }
      let s2 :=
        if x.atom.isEmpty then s1
        else if f.1 = St.ok ∨ f.1 = St.okRebuilt then
          match ctxNs s x with
          | some ns => modCtx (commitAtom s1 x ns x.atom) c fun y => { y with atom := [] }
          | none => s1
        else discardAtom s1 x
      tryComplete s2 c
    else s

/-- A resident parison reaches its POST with a status. -/
def residentPost (s : State) (c : Nat) (st : BitVec 16) (detail : BitVec 8) (res : BitVec 64) : State :=
  modCtx s c fun y => { y with status := st, detail := detail, result := res, wait := .posting }

/-- A context with its first side-effecting instruction issued in this beat (R145). -/
def commitNow (s : State) (c : Nat) : State :=
  modCtx s c fun y => { y with commitBeat := match y.commitBeat with
    | none => some s.beat
    | some b => some b }

/-- Bytes of a log entry with a body (R483). -/
def entryLen (n : Nat) : Nat := 64 * ceilDiv (32 + n) 64

/-- The next system sector after the newest one in use that is free, going round the 256 (R485). -/
def nextSector (n : Nor) : Nat :=
  let from_ := (n.sysUsed.getLast?.map (· + 1)).getD 0
  (((List.range 256).map fun i => (from_ + i) % 256).find? fun k => !n.sysUsed.contains k).getD (from_ % 256)

/-- Room at the head of the log for an entry: the newest sector, or the next free one. -/
def Nor.advance (n : Nor) (len : Nat) : Nor :=
  if n.sysUsed.isEmpty || decide (65536 < n.headOff + len) then { n with sysUsed := n.sysUsed ++ [nextSector n], headOff := len }
  else { n with headOff := n.headOff + len }

/-- The sector at the head of the log. -/
def Nor.head (n : Nor) : Nat := n.sysUsed.getLast?.getD 0

/-- An entry is durable: it is the current one of its kind and key (R484). -/
def Nor.durable (n : Nor) (e : NorEntry) : Nor :=
  let m := n.advance (entryLen e.value.length)
  { m with log := (m.log.filter fun k => !(k.typ == e.typ && k.key == e.key)) ++ [{ e with sector := m.head }] }

/-- Begin to write a log entry of the system region; it is durable when its program reads back (R483, R484). -/
def norAppend (s : State) (kind key : Nat) (body : List Byte) : State :=
  s.updNor fun n =>
    { n with eseq := n.eseq + 1, writing := n.writing ++ [{ eseq := n.eseq, typ := kind, key := key, sector := 0, value := body }] }

/-- A log entry that is durable at once, within an event that ends only when it is; the entry it supersedes
is no longer current (R484). -/
def norPut (s : State) (kind key : Nat) (body : List Byte) : State :=
  s.updNor fun n => { n with eseq := n.eseq + 1 }.durable { eseq := n.eseq, typ := kind, key := key, sector := 0, value := body }

/-- Retire an entry: none of its kind and key is current (R484). -/
def norRetire (s : State) (kind key : Nat) : State :=
  s.updNor fun n => { n with log := n.log.filter fun e => !(e.typ == kind && e.key == key) }

/-- An interrupted attempt to store a download block; a second one fails the staging (R491). -/
def Nor.interrupt (n : Nor) : Nor :=
  match n.dlBusy with
  | none => n
  | some (_, _, k) =>
    let m := { n with dlBusy := none, dlProgrammed := max n.dlProgrammed k, writing := n.writing.filter fun e => e.typ != 0x07 }
    if 1 ≤ n.dlTries then { m with stage := .failed } else { m with dlTries := n.dlTries + 1 }

/-- Whether an entry of a kind and key is still being written. -/
def norWriting (s : State) (kind key : Nat) : Bool := s.nor.writing.any fun e => e.typ == kind && e.key == key

/-- The key of a SETTING entry: its first ID, and the schema it was written under, for those of two schemas stand side by side (R483, R498;
DEDUCED, log entry 23). -/
def settingKey (schema id : Nat) : Nat := id + 2 ^ 32 * schema

/-- The body of a SETTING entry of one setting under a schema (R483). -/
def settingUnder (schema id : Nat) (v : BitVec 64) : List Byte := leBytes 2 schema ++ leBytes 2 1 ++ leBytes 4 id ++ leBytes 8 v.toNat

/-- The same, under the schema in force. -/
def settingBody (s : State) (id : Nat) (v : BitVec 64) : List Byte := settingUnder s.nor.schema id v

/-- Begin to write the entry of an NV setting (R28). -/
def settingAppend (s : State) (id : Nat) (v : BitVec 64) : State := norAppend s 0x05 (settingKey s.nor.schema id) (settingBody s id v)

/-- Whether an entry of an NV setting is still being written. -/
def settingWriting (s : State) (id : Nat) : Bool := s.nor.writing.any fun e => e.typ == 0x05 && e.key % 2 ^ 32 == id

end Sys2Proof.Machine
end

