-- ==== Sys2Proof/Machine/Transfer.lean ====
section
/-! DEFINITION. Host transfers of a context on the mover engines (R324 to R331, R163). -/

namespace Sys2Proof.Machine

/-- The first engine of the pair that serves a host link (R325). -/
def enginePair (link : Nat) : Nat := if link = 0 ∨ link = 1 ∨ link = 4 then 0 else 2

/-- Whether an engine runs. -/
def engineRuns (s : State) (e : Nat) : Bool := (vget s.movers.eng e Engine.init).st == .running

/-- The mover bytes of a direction of an engine. -/
def engRes (e : Nat) (toHost : Bool) : Res := if toHost then .engOut e else .engIn e

/-- Mover bytes that bookings of this beat take of a direction of an engine. -/
def engineLoad (s : State) (e : Nat) (toHost : Bool) : Nat :=
  ((s.plan.near.filter fun k => k.beat == s.beat && k.res == engRes e toHost).map Booking.amount).foldl (· + ·) 0

/-- The engine a host transfer of a context takes: the one of the pair that it booked for this beat; with no booking a running one,
the one with more free bytes on the beat, ties to the lower number (R325). -/
def pickEngine (s : State) (x : Ctx) (toHost : Bool) : Nat :=
  let a := enginePair (fnLink x.fn)
  let booked := fun (e : Nat) => s.plan.near.any fun k => k.owner == x.adm && k.beat == s.beat && k.res == engRes e toHost
  if !engineRuns s a then a + 1
  else if !engineRuns s (a + 1) || booked a then a
  else if booked (a + 1) then a + 1
  else if engineLoad s a toHost ≤ engineLoad s (a + 1) toHost then a else a + 1

/-- The lowest free channel of an engine; channels kept for internal copies are not taken (log entry 12). With none free the chain queues
behind those of the engine's first channel (DESIGN CHOICE, log entry 28: R325 takes a free one). -/
def freeChan (s : State) (e : Nat) : Nat :=
  let used := (vget s.movers.eng e Engine.init).descs.map Desc.chan
  (lowest (fun m => !used.contains m && !(decide (37 ≤ m) && decide (m ≤ 39))) (16 * e) 16).getD (16 * e)

/-- The pieces of a descriptor space that [off, off + n) touches, trimmed to it (R328). -/
def trimPieces : List (Nat × Nat) → Nat → Nat → List (Nat × Nat)
  | [], _, _ => []
  | (a, k) :: ps, off, n =>
    if n = 0 then []
    else if k ≤ off then trimPieces ps (off - k) n
    else (a + off, min n (k - off)) :: trimPieces ps 0 (n - min n (k - off))

/-- Split a piece at each 16 MiB of the extent; `fuel` bounds the pieces. -/
def splitPiece : Nat → Nat → Nat → List (Nat × Nat)
  | 0, _, _ => []
  | fuel + 1, a, n => if n ≤ 2 ^ 24 then (if n = 0 then [] else [(a, n)]) else (a, 2 ^ 24) :: splitPiece fuel (a + 2 ^ 24) (n - 2 ^ 24)

/-- The module DRAM address that a host transfer of a context starts from: of the buffer that its HXIN or HXOUT names; zero for a
resident parison, whose buffers R127 leaves to the module. -/
def dramSide (x : Ctx) : Nat := (((hget x (zH x.word)).map fun b => b.addr.toNat).getD 0) + (if (hget x (zH x.word)).isSome then (rget x (zA x.word)).toNat else 0)

/-- The chain of one HXIN or HXOUT: only the last descriptor carries IRQ (R328, R339, R340). -/
def chainOf (s : State) (x : Ctx) (toHost : Bool) (chan off n : Nat) : List Desc :=
  let ps := (trimPieces (descPieces x.entry x.segs) off n).flatMap fun p => splitPiece (p.2 / 2 ^ 24 + 1) p.1 p.2
  let f := (getFn s x.fn).getD HostFn.init
  ps.zipIdx.map fun p =>
    { chan := chan, host := BitVec.ofNat 64 p.1.1, len := p.1.2, toHost := toHost, fn := x.fn,
      ns := x.entry.nosnoop && f.noSnoopEn, ro := toHost && nvVal s 0x09000002 == 1 && f.relaxedEn,
      irq := decide (p.2 + 1 = ps.length), internal := false, owner := x.c, pacer := none, started := true, frame := none,
      dram := dramSide x + sum ((ps.take p.2).map Prod.snd) }

/-- The requests of one piece of host memory, none longer than m or across a 4 KiB boundary (R329); `fuel` bounds them. -/
def splitReqs (m : Nat) : Nat → Nat → Nat → List (Nat × Nat)
  | 0, _, _ => []
  | fuel + 1, a, n =>
    if n = 0 then [] else
    let k := min n (min (max m 1) (4096 - a % 4096))
    (a, k) :: splitReqs m fuel (a + k) (n - k)

/-- The limit of a function's requests: Max_Read_Request_Size, or Max_Payload_Size for writes (R329). -/
def reqLimit (s : State) (fn : Nat) (write : Bool) : Nat :=
  let f := (getFn s fn).getD HostFn.init
  if write then f.maxPayload else f.maxReadReq

/-- A host read of [off, off + n) of a context's descriptor space as the requests its engine sends (R329). -/
def readReqs (s : State) (x : Ctx) (off n : Nat) : State :=
  ((trimPieces (descPieces x.entry x.segs) off n).flatMap fun p => splitReqs (reqLimit s x.fn false) p.2 p.1 p.2).foldl
    (fun s r => emit s (.hostRead x.fn (BitVec.ofNat 64 r.1) r.2)) s

/-- Put the chain of a context's host transfer in a channel's store, and send the requests of a host read; a context of the sideband or of
the Cane queue moves its bytes in module memory (R329, R364, R398). -/
def beginTransfer (s : State) (x : Ctx) (toHost : Bool) (off n : Nat) : State :=
  match x.ringOf with
  | none => s
  | some _ =>
    let e := pickEngine s x toHost
    let ch := freeChan s e
    let s1 := modEngine s e fun g => { g with descs := g.descs ++ chainOf s x toHost ch off n }
    if toHost then s1 else readReqs s1 x off n

/-- The descriptors of a chain that are not finished while so many bytes are still to move: those moved whole are, but for the last. -/
def unfinished (left : Nat) : List Desc → List Desc
  | d :: e :: r => if left ≤ sum ((e :: r).map Desc.len) then unfinished left (e :: r) else d :: e :: r
  | l => l

/-- Finished descriptors of a context's chain leave the store, which makes room for further ones (R328). -/
def finishDescs (s : State) (c left : Nat) : State :=
  let mine := fun (d : Desc) => !d.internal && d.owner == c
  s.updMovers fun m => { m with eng := m.eng.map fun e =>
    { e with descs := e.descs.filter (fun d => !mine d) ++ unfinished left (e.descs.filter mine) } }

/-- The 32 bytes of the descriptor at an index of its channel's store, as Bench tools read them (R327). An internal copy has SRC 0 and names
issuer 0 (DESIGN CHOICE, log entry 28: the spec gives the frames no buffer address and the issuers no numbers). -/
def Desc.bytes (d : Desc) (i : Nat) : List Byte :=
  let stream := match d.pacer with
    | some p => p + 2
    | none => 0
  let chain := !d.internal && !d.irq
  let host := d.host.toNat
  leBytes 8 (if d.internal || d.toHost then d.dram else host) ++ leBytes 8 (if d.internal then 0 else if d.toHost then host else d.dram) ++
  leBytes 4 d.len ++
  leBytes 1 (2 * b2n d.irq + 4 * b2n chain + 8 * b2n d.pacer.isSome + 16 * b2n d.ns + 32 * b2n d.ro) ++
  leBytes 1 (if d.internal then 16 * stream else if d.toHost then 16 else 1) ++
  leBytes 2 (if d.internal then 0 else fnLink d.fn * 2 ^ 8 + fnFunc d.fn) ++ leBytes 4 (d.owner + 2 ^ 16 * b2n d.internal) ++
  leBytes 2 (if chain then (i + 1) % 256 else 0) ++ leBytes 1 (d.pacer.getD 0) ++ leBytes 1 0

/-- The descriptor store of a channel: 256 entries; a longer chain's others follow as earlier ones finish (R327, R328). -/
def chanStore (s : State) (chan : Nat) : List (List Byte) :=
  (((vget s.movers.eng (chan / 16) Engine.init).descs.filter fun d => d.chan == chan).take 256).zipIdx.map fun p => p.1.bytes p.2

/-- Take a context's descriptors out of every store. -/
def dropDescs (s : State) (c : Nat) : State :=
  s.updMovers fun m => { m with eng := m.eng.map fun e => { e with descs := e.descs.filter fun d => d.internal || d.owner != c } }

/-- Whether a context's transfer has reached its engine's store or needs none. -/
def noDescs (s : State) (c : Nat) : Bool :=
  (List.range 4).all fun e => (vget s.movers.eng e Engine.init).descs.all fun d => d.internal || d.owner != c

/-- The host bytes a context receives at a descriptor offset: those that arrived, or its mailbox or
request buffer's. -/
def hostIn (x : Ctx) (off n : Nat) (given : List Byte) : List Byte :=
  match x.ringOf with
  | some _ => given.take n
  | none => (x.data.drop off).take n

/-- Whether memory requests may be issued for a context: its function is in D0 with Bus Master Enable at 1 (R352), or it
has no function. -/
def hostReach (s : State) (x : Ctx) : Bool :=
  match x.ringOf with
  | some _ => ((getFn s x.fn).map HostFn.writable).getD false
  | none => true

/-- Whether a host read of n bytes has delivered. -/
def hostInDone (s : State) (x : Ctx) (n : Nat) (given : List Byte) : Bool :=
  match x.ringOf with
  | some _ => decide (given.length = n) && (hostReach s x || n == 0)
  | none => true

/-- The memory writes that bytes at a descriptor offset of a context go out as (R329). -/
def writeReqs (s : State) (x : Ctx) (off : Nat) (bs : List Byte) : List (Nat × List Byte) :=
  (scatterWrites (descPieces x.entry x.segs) off bs).flatMap fun w =>
    (splitReqs (reqLimit s x.fn true) w.2.length w.1 w.2.length).map fun r => (r.1, (w.2.drop (r.1 - w.1)).take r.2)

/-- Write bytes at a descriptor offset of a context: memory writes of its function, or its buffer. -/
def hostOut (s : State) (x : Ctx) (off : Nat) (bs : List Byte) : State :=
  match x.ringOf with
  | some _ => (writeReqs s x off bs).foldl (fun s w => emit s (.hostWrite x.fn (BitVec.ofNat 64 w.1) w.2)) s
  | none => modCtx s x.c fun y => { y with data := y.data.take off ++ bs ++ y.data.drop (off + bs.length) }

/-- The end of a transfer: its descriptors leave the store and its bytes are counted, where they are bytes of host memory (R331,
R343, R364). -/
def endTransfer (s : State) (c : Nat) (toHost : Bool) (n : Nat) : State :=
  let k := if ((getCtx s c).bind Ctx.ringOf).isSome then n else 0
  (dropDescs s c).updMovers fun m =>
    if toHost then { m with toHost := satAdd m.toHost k } else { m with fromHost := satAdd m.fromHost k }

end Sys2Proof.Machine
end

