-- ==== Sys2Proof/Machine/Capacity.lean ====
section
/-! DEFINITION. What a beat offers: capacities of the bookable resources, host bytes as framed, and what a program's transfer or
stream operation moves in a beat (R34, R117, R136, R148, R329, R351, R356, R547). -/

namespace Sys2Proof.Machine

/-! ### Capacities (R34, R298, R351, R356) -/

/-- The rate of a PCIe rate code in units of 2.5 GT/s, 64 GT/s being 25.6: tenths of them. -/
def rateTenths : Nat → Nat
  | 0 => 640 | 1 => 320 | 2 => 160 | 3 => 80 | 4 => 50 | 5 => 25 | _ => 0

/-- Bytes per beat of a host link, into the module or out of it (R351, R356). -/
def linkCap (s : State) (l : Nat) (inbound : Bool) : Nat :=
  let k := getLink s l
  if k.st ≠ 2 then 0
  else if l < 4 then 512000 * rateTenths k.rate * k.width / (640 * 16)
  else match k.rate with
    | 0 => 40000
    | 1 => if inbound then 20000 else 60000
    | 2 => if inbound then 60000 else 20000
    | 3 => 20000
    | _ => 10000

/-- Window length of R35; the other resources are counted beat by beat. -/
def Res.window : Res → Nat
  | .dieTime _ => 1024
  | .dieTotal => 1024
  | .chan _ => 8
  | .chanTotal => 8
  | _ => 1

/-- Slot transfers per beat of a channel in service (R298). -/
def chanRate (s : State) (n : Nat) : Nat :=
  if (getChan s n).svc = 1 ∧ (getOct s (n / 8)).st = .live then (getChan s n).perBeat else 0

/-- The dies that serve now. -/
def usableDies (s : State) : List Nat := (s.flash.dies.map Die.d).filter (dieUsable s)

/-- Energy per beat left for bookings at the present throttle step, in 0.01 µJ (R65). -/
def energyBudget (s : State) : Nat :=
  2240 * (100 - 5 * s.therm.step) - (Config.energyStatic s.day.stepFrom).toNat * 100

/-- Mover bytes per beat of an engine in a direction; nothing new is booked on one that is stopped in the next beat (R324, R333,
R334). -/
def engineCap (s : State) (e : Nat) : Nat :=
  let g := vget s.movers.eng e Engine.init
  if g.st = .running ∨ (g.st = .restarting ∧ g.resumeAt ≤ s.beat + 1) then 409600 else 0

/-- Capacity of a resource on one beat. -/
def Res.perBeat (s : State) : Res → Nat
  | .dieTime d => b2n (dieUsable s d)
  | .dieTotal => (usableDies s).length
  | .chan n => chanRate s n
  | .chanTotal => ((List.range 128).map (chanRate s)).foldl (· + ·) 0
  | .decoder _ => 44
  | .lookups => 25600
  | .fills => 8192
  | .gaffer _ => 6400
  | .stream => 4194304
  | .hostIn l => linkCap s l true
  | .hostOut l => linkCap s l false
  | .hostReq l => linkCap s l false
  | .engIn e => engineCap s e
  | .engOut e => engineCap s e
  | .puntyOut => 448000 * s.twin.lanes / 8
  | .energy => energyBudget s
  | .comps => 4096

/-- The resource whose capacity a booking takes: read requests leave on the link's outbound bytes (R351). -/
def Res.pool : Res → Res
  | .hostReq l => .hostOut l
  | r => r

/-- What near bookings of every share take of a resource on one beat. -/
def usedAll (s : State) (r : Res) (b : Nat) : Nat :=
  ((s.plan.near.filter fun k => k.res.pool == r.pool && k.beat == b).map Booking.amount).foldl (· + ·) 0

/-- Book k units; nothing for zero. -/
def book (s : State) (r : Res) (sh : Share) (b k owner : Nat) : State :=
  if k = 0 then s
  else s.updPlan fun p => { p with near := p.near ++ [{ res := r, beat := b, amount := k, share := sh, owner := owner }] }

/-! ### Host bytes (R329, R351, R356) -/

/-- Requests of one piece of host memory: no longer than m, none across a 4 KiB boundary (R329). -/
def pieceReqs (m a n : Nat) : Nat :=
  let h := min n (4096 - a % 4096)
  ceilDiv h m + (n - h) / 4096 * (4096 / m) + ceilDiv ((n - h) % 4096) m

/-- Payload and framing of b bytes on a link (R351, R356). -/
def framedBytes (link b : Nat) : Nat := if 4 ≤ link then ceilDiv (b * 5) 4 else ceilDiv (b * 9) 8

/-- Outbound bytes that n bytes of a command's descriptor space book as writes. -/
def writeBytes (s : State) (x : Ctx) (n : Nat) : Nat :=
  let f := (getFn s x.fn).getD HostFn.init
  let q := sum ((trimPieces (descPieces x.entry x.segs) 0 n).map fun p => pieceReqs (max f.maxPayload 1) p.1 p.2)
  framedBytes (fnLink x.fn) n + 32 * q

/-- Inbound and outbound bytes that n bytes of a command's descriptor space book as reads. -/
def readBytes (s : State) (x : Ctx) (n : Nat) : Nat × Nat :=
  let f := (getFn s x.fn).getD HostFn.init
  let q := sum ((trimPieces (descPieces x.entry x.segs) 0 n).map fun p => pieceReqs (max f.maxReadReq 1) p.1 p.2)
  (framedBytes (fnLink x.fn) n + 32 * (ceilDiv n (max f.rcb 1) + q), 32 * q)

/-! ### What a program moves in a beat (R148, R547) -/

/-- What a waiting HXIN, HXOUT or stream instruction draws on: 0 the link inbound, 1 outbound, 2 the stream units. -/
def drawKind (w : BitVec 32) : Option Nat :=
  match zOp w with
  | 0x20 => some 0
  | 0x21 => some 1
  | 0x2C | 0x2D | 0x2E | 0x2F => some 2
  | _ => none

/-- The resource of a kind of draw. -/
def drawRes (x : Ctx) : Nat → Res
  | 0 => .hostIn (fnLink x.fn)
  | 1 => .hostOut (fnLink x.fn)
  | _ => .stream

/-- What a command booked of a resource on a beat. -/
def ownBooked (s : State) (x : Ctx) (r : Res) (b : Nat) : Nat :=
  sum ((s.plan.near.filter fun k => k.res == r && k.owner == x.adm && k.beat == b).map Booking.amount)

/-- The stream unit of a context: each serves four Gaffers (DESIGN CHOICE, log entry 28: R148 does not say which unit takes an
instruction). -/
def unitOf (c : Nat) : Nat := c / 256 % 64

/-- Bytes that a kind of draw of a context may still move in this beat on its own: a stream unit moves 32 in each of the beat's cycles
(R148). -/
def unitRoom (s : State) (c k : Nat) : Nat := if k = 2 then 32 * (6400 - (Assoc.get s.zci.units (unitOf c)).getD 0) else 2 ^ 64

/-- A stream unit is occupied for ceil(n / 32) cycles (R148). -/
def useUnit (s : State) (c k n : Nat) : State :=
  if k = 2 then s.updZci fun z => { z with units := Assoc.set z.units (unitOf c) ((Assoc.get z.units (unitOf c)).getD 0 + ceilDiv n 32) } else s

/-- The mover bytes of framed bytes on a link, request headers with them (R351, R356; DESIGN CHOICE, log entry 28: R324 does not say whether
an engine counts them). -/
def unframed (l k : Nat) : Nat := if 4 ≤ l then k * 4 / 5 else k * 8 / 9

/-- The engine and direction that a kind of draw of a context moves on: the one its chain is on (R325). -/
def drawEngine (s : State) (x : Ctx) (k : Nat) : Res :=
  let on := fun (e : Nat) => (vget s.movers.eng e Engine.init).descs.any fun d => !d.internal && d.owner == x.c
  engRes ((lowest on 0 4).getD (enginePair (fnLink x.fn))) (k == 1)

/-- Framed bytes of a kind of draw that no booking claims in this beat, on the port and the engine, or on the stream units (R324, R547). -/
def unclaimed (s : State) (x : Ctx) (k : Nat) : Nat :=
  let r := drawRes x k
  let left := r.perBeat s - usedAll s r s.beat
  if 2 ≤ k then left else
  let e := drawEngine s x k
  let free := e.perBeat s - usedAll s e s.beat
  min left (if 4 ≤ fnLink x.fn then free * 5 / 4 else free * 9 / 8)

/-- Book the bytes drawn late: the port's with the engine's. -/
def bookLate (s : State) (x : Ctx) (k n : Nat) : State :=
  let s1 := book s (drawRes x k) .host s.beat n 0
  if 2 ≤ k then s1 else book s1 (drawEngine s x k) .host s.beat (unframed (fnLink x.fn) n) 0

/-- The bytes that a host transfer has still to move, of framed bytes left. -/
def bytesLeft (s : State) (x : Ctx) (left : Nat) : Nat :=
  let n := (rget x (zB x.word)).toNat
  ceilDiv (n * left) (max (if drawKind x.word = some 1 then writeBytes s x n else (readBytes s x n).1) 1)

/-- What a context's operation in progress moves in this beat: what it booked on it and has not drawn; then, up to what it left
unused of earlier beats, capacity that no booking claims (R547). -/
def drawBeat (s : State) (c : Nat) : State :=
  match getCtx s c with
  | none => s
  | some x => match drawKind x.word with
    | none => s
    | some k =>
      if x.wait != .instr || x.left == 0 then s
      else
        let r := drawRes x k
        let most := min x.left (unitRoom s c k)
        let own := min most (ownBooked s x r s.beat - vget x.drawn k 0)
        let more := min (most - own) (min (vget x.late k 0) (unclaimed s x k))
        let s1 := modCtx (useUnit s c k (own + more)) c fun y =>
          { y with left := y.left - own - more, drawn := vset y.drawn k (vget y.drawn k 0 + own), late := vset y.late k (vget y.late k 0 - more) }
        bookLate s1 x k more

/-- The descriptors that a host transfer in progress has finished leave their store (R328). -/
def finishDrawn (s : State) (c : Nat) : State :=
  match getCtx s c with
  | none => s
  | some x => if drawKind x.word = some 0 ∨ drawKind x.word = some 1 then finishDescs s c (bytesLeft s x x.left) else s

/-- The units an instruction has to move: bytes of a host transfer as framed on its link, bytes on a stream unit; none for a host
transfer of a context without a ring, whose bytes are in module memory (R364, R398). -/
def drawUnits (s : State) (x : Ctx) (w : BitVec 32) (n : Nat) : Nat :=
  match drawKind w with
  | some 0 => if x.ringOf.isSome then (readBytes s x n).1 else 0
  | some 1 => if x.ringOf.isSome then writeBytes s x n else 0
  | some _ => n
  | none => 0

/-- An instruction of n bytes starts to move them, in the beat of its issue. -/
def startDraw (s : State) (c n : Nat) : State :=
  match getCtx s c with
  | none => s
  | some x => drawBeat (modCtx s c fun y => { y with left := drawUnits s x x.word n }) c

/-- What a context left unused of the beat that ends adds to what it may draw late (R547). -/
def Ctx.carry (s : State) (b : Nat) (x : Ctx) : Ctx :=
  { x with late := Vector.ofFn fun (k : Fin 3) => vget x.late k.val 0 + (ownBooked s x (drawRes x k.val) b - vget x.drawn k.val 0)
           drawn := Vector.replicate 3 0, issNow := 0, overNow := 0 }

/-- A new beat for the programs: issues are counted anew, unused bytes are carried, and operations in progress move on, by
planned POST and then admission sequence (R117, R148, R328, R547). -/
def drawAll (s : State) : State :=
  let s1 := (s.updCtxs fun l => l.map (Ctx.carry s (s.beat - 1))).updZci fun z => { z with ended := [], units := [] }
  (sortBy (fun x => x.postBeat) (sortBy (fun x => x.adm) (s1.ctxs.filter fun x => decide (0 < x.left)))).foldl (fun s x => finishDrawn (drawBeat s x.c) x.c) s1

/-! ### Who issues (R117, R136) -/

/-- Instructions a Gaffer has issued in this beat. -/
def issuedNow (s : State) (g : Nat) : Nat :=
  sum ((s.ctxs.filter fun x => x.c / 256 == g).map Ctx.issNow) + sum ((s.zci.ended.filter fun e => e.1 == g).map fun e => e.2.1)

/-- Those of them that D7 contexts issued past their booked budgets. -/
def overNow (s : State) (g : Nat) : Nat :=
  sum ((s.ctxs.filter fun x => x.c / 256 == g).map Ctx.overNow) + sum ((s.zci.ended.filter fun e => e.1 == g).map fun e => e.2.2)

/-- Whether a context has spent the budget it booked and goes on in D7 (R136). -/
def Ctx.past (x : Ctx) : Bool := x.entry.cls == 7 && x.budget == 0

/-- Whether a Gaffer has a cycle left in this beat for a context: one that no booking claims, for a D7 context past its booked
budget. -/
def cycleFor (s : State) (x : Ctx) : Bool :=
  decide (issuedNow s (x.c / 256) < 6400) &&
  (!x.past || decide (usedAll s (.gaffer (x.c / 256)) s.beat + overNow s (x.c / 256) < 6400))

/-- Whether a context is ready and may issue in this beat: not stopped by a reset, no earlier command in its way. -/
def readyNow (s : State) (x : Ctx) : Bool := x.wait == .ready && !x.stopping && !effBlocked s x && cycleFor s x

/-- Whether a context issues before another of its Gaffer: an earlier planned POST, ties to the lower admission sequence (R117). -/
def Ctx.before (x y : Ctx) : Bool := decide (x.postBeat < y.postBeat) || (x.postBeat == y.postBeat && decide (x.adm < y.adm))

end Sys2Proof.Machine
end

