-- ==== Sys2Proof/Machine/Bus.lean ====
section
/-! DEFINITION. Addresses on a NAND bus, the page image that dies hold, the command sequences of array operations (R230, R301, R302,
R313, R314). -/

namespace Sys2Proof.Machine

/-! ### Addresses (R301) -/

/-- The LUN of a die on its chip enable (R227). -/
def dieLun (d : Nat) : Nat := d % 2

/-- The NAND row address of a block and page of a die: page, block at bit PB, LUN at bit LB. -/
def rowAddr (s : State) (d block page : Nat) : Nat :=
  let g := profOf s (dieOct d) 3
  page ||| (block <<< bits g 19 16) ||| (dieLun d <<< bits g 28 24)

/-- The plane of a block of a die. -/
def planeOf (s : State) (d block : Nat) : Nat := block % 2 ^ bits (profOf s (dieOct d) 2) 10 9

/-- The row cycles of an address: as many as the die's parameter page declares. -/
def rowCycles (s : State) (d row : Nat) : List Byte := leBytes (((getDie s d).map Die.rowCycles).getD 3) row

/-- The address cycles of a byte of a page: 2 column cycles, then the row. -/
def addrCycles (s : State) (d row column : Nat) : List Byte := leBytes 2 column ++ rowCycles s d row

/-! ### Pages (R230) -/

/-- Bytes of a page of a die. -/
def pageBytes (s : State) (d : Nat) : Nat := bits (profOf s (dieOct d) 3) 63 32

/-- The 18,432 bytes of a page's slots: slot i, as stored, from byte 4,608 · i on; `has` tells which are there, 0xFF elsewhere. -/
def slotBytes (s : State) (ppn : Nat) (has : SlotRec → Bool) : List Byte :=
  (List.range 4).flatMap fun i => match Assoc.get s.media.slots (4 * ppn + i) with
    | some r => if has r then slotStored (4 * ppn + i) r else List.replicate 4608 0xFF
    | none => List.replicate 4608 0xFF

/-- The image a page is programmed with: its slots, then 0xFF, not scrambled. -/
def pageImage (s : State) (ppn : Nat) (has : SlotRec → Bool) : List Byte :=
  slotBytes s ppn has ++ List.replicate (pageBytes s (ppn / 2 ^ 25) - 18432) 0xFF

/-- What a page holds: what RAW programmed there, else the image of the slots whose program has passed. -/
def pageStored (s : State) (ppn : Nat) : List Byte :=
  match Assoc.get s.media.raw ppn with
  | some bs => bs
  | none => pageImage s ppn fun r => r.verified && !r.gone

/-! ### Command sequences (R302, R313, R314) -/

/-- One command on a die's bus. -/
def busCmd (s : State) (d cmd row : Nat) (body : List Byte) : State := emit s (.nand d cmd row body)

/-- The slots of a page that its read transfers: those a context awaits, all four for care work. -/
def slotsOut (s : State) (d : Nat) (o : ArrayOp) : List Nat :=
  let awaited := (List.range 4).filter fun i => s.ctxs.any fun x => x.adm == o.owner && (x.reads ++ x.fed).any fun r => match r.loc with
    | .media q => decide (q ≤ mkPsa d o.block o.page i) && decide (mkPsa d o.block o.page i < q + r.slots.length)
    | _ => false
  if o.care || awaited.isEmpty then List.range 4 else awaited

/-- The blocks an operation covers, one a plane, planes in ascending order (R302). -/
def coveredBlocks (s : State) (d : Nat) (o : ArrayOp) : List Nat := (insertBy (planeOf s d) o.block (o.also.foldl (fun bs b => insertBy (planeOf s d) b bs) []))

/-- The pages of a word line, in ascending order, within a page the planes in ascending order, each with its data; with FILL bytes
0-18,431, the NAND supplies the rest. Every load but the last is confirmed with 11h, the last with 10h (R302). -/
def programCmds (s : State) (d : Nat) (o : ArrayOp) (n : Nat) : State :=
  let loads := (List.range n).flatMap fun i => (coveredBlocks s d o).map fun b => (b, o.page + i)
  loads.zipIdx.foldl (fun s l =>
    let row := rowAddr s d l.1.1 l.1.2
    let all := pageImage s (mkPsa d l.1.1 l.1.2 0 / 4) fun _ => true
    let data := if bit (profOf s (dieOct d) 2) 6 then all.take 18432 else all
    busCmd (busCmd s d 0x80 row (addrCycles s d row 0 ++ data)) d (if l.2 + 1 = loads.length then 0x10 else 0x11) row []) s

/-- The erase of the blocks an operation covers: D1h between planes, D0h at the end. -/
def eraseCmds (s : State) (d : Nat) (o : ArrayOp) : State :=
  let bs := coveredBlocks s d o
  bs.zipIdx.foldl (fun s b =>
    let row := rowAddr s d b.1 0
    busCmd (busCmd s d 0x60 row (rowCycles s d row)) d (if b.2 + 1 = bs.length then 0xD0 else 0xD1) row []) s

/-- The pages of a word line of the block an operation programs. -/
def wlPages (s : State) (d : Nat) (o : ArrayOp) : Nat :=
  match s.media.bands.find? fun b => b.columns.contains (d, o.block) with
  | some b => pagesPerWl b.cell
  | none => 1

/-- The commands of an operation that starts now. -/
def startCmds (s : State) (d : Nat) (o : ArrayOp) : State :=
  let row := rowAddr s d o.block o.page
  match o.kind with
  | .read => busCmd (busCmd s d 0x00 row (addrCycles s d row 0)) d 0x30 row []
  | .program => programCmds s d o (wlPages s d o)
  | .erase => eraseCmds s d o

/-- The slot transfers of a read whose array time is over. -/
def slotCmds (s : State) (d : Nat) (o : ArrayOp) : State :=
  let row := rowAddr s d o.block o.page
  (slotsOut s d o).foldl (fun s i => busCmd s d 0x06 row (addrCycles s d row (4608 * i) ++ [0xE0])) s

/-- The suspend or resume opcode of the profile for an operation: byte 0 to 3 of PROF_SUSP. -/
def suspOpcode (s : State) (d : Nat) (o : ArrayOp) (resume : Bool) : Nat :=
  (profOf s (dieOct d) 8) / 2 ^ (8 * ((if o.kind = .program then 0 else 2) + b2n resume)) % 256

/-- What an operation of a die puts on the bus in this beat. -/
def opCmds (s : State) (d : Nat) (o : ArrayOp) : State :=
  let row := rowAddr s d o.block o.page
  let s1 := if o.start = s.beat then startCmds s d o else s
  let s2 := if o.kind = .read ∧ o.start + o.busy = s.beat then slotCmds s1 d o else s1
  let s3 := if o.susps.any fun k => k.at_ == s.beat then busCmd (busCmd s2 d (suspOpcode s d o false) row []) d 0x78 row [] else s2
  let s4 := if o.susps.any fun k => k.resume == s.beat then busCmd s3 d (suspOpcode s d o true) row [] else s3
  if o.start + o.busy ≤ s.beat then busCmd s4 d 0x78 row [] else s4

/-- The commands of a beat on every bus: of operations that start, of transfers, suspends and resumes, and the status polls of those
whose booked occupancy is over. -/
def busBeat (s : State) : State := s.flash.dies.foldl (fun s x => if x.dark then s else x.ops.foldl (fun s o => opCmds s x.d o) s) s

end Sys2Proof.Machine
end

