-- ==== Sys2Proof/Machine/Cut.lean ====
section
/-! DEFINITION. What reads, failures, darkness and RAW leave in a band and its blocks: read counts and REFRESH, a band cut at its last
verified stripe, pages and blocks that RAW changed (R61, R265, R279, R283, R289). -/

namespace Sys2Proof.Machine

/-! ### Reads of a block (R283) -/

/-- Set REFRESH on the band of a block, if it is CLOSED or OPEN and not set; answers whether it was set. -/
def markRefresh (s : State) (die block : Nat) : Bool × State :=
  match s.media.bands.find? fun b => b.columns.contains (die, block) with
  | some b => if b.refresh then (false, s) else (true, modBand s b.serial fun b => { b with refresh := true })
  | none => (false, s)

/-- A page read of a block: RDCOUNT, disturb check, refresh (R283). -/
def countRead (s : State) (die block : Nat) : State :=
  let i := blockIdx die block
  let n := min ((getBlock s i).rdCount + 1) (2 ^ 32 - 1)
  let s1 := modBlock s i fun b => { b with rdCount := n }
  let chk := stored s 0x07000016
  let s2 := if chk ≠ 0 ∧ n % chk = 0 ∧ !s1.care.disturbQ.contains i then
      s1.updCare fun c => { c with disturbQ := c.disturbQ ++ [i] } else s1
  let lim := stored s 0x07000017
  if lim ≠ 0 ∧ lim ≤ n then
    let m := markRefresh s2 die block
    if m.1 then m.2.updCare fun c => { c with refreshDisturb := satAdd c.refreshDisturb 1 } else m.2
  else s2

/-! ### The end of an open band (R208, R279) -/

/-- Enter a journal record that takes no SEQ: it carries the next write sequence (log entry 14). -/
def journalPlain (s : State) (t : JType) (flags nsid count lba value : Nat) : State :=
  journalAdd s [jrec t flags nsid count lba s.xlat.seq value]

/-- The end of an open band: CLOSED with its beat and thermal age, a BAND_CLOSE record. -/
def markClosed (s : State) (serial : Nat) : State :=
  match getBand s serial with
  | none => s
  | some b =>
    let s1 := modBand s serial fun b => { b with st := .closed, closeBeat := s.beat, ageClose := s.care.tclk / 65536 }
    journalPlain s1 .bandClose 0 0 0 b.bandId.toNat 0

/-- An operation without the blocks that a test picks; none where it covers no other. -/
def ArrayOp.sparing (p : Nat → Bool) (o : ArrayOp) : Option ArrayOp :=
  match (o.block :: o.also).filter fun b => !p b with
  | [] => none
  | b :: bs => some { o with block := b, also := bs }

/-- The programs of a band that have not started are dropped, queued or waiting for beats. -/
def dropPrograms (s : State) (b : Band) : State :=
  let cut := fun (d : Nat) (o : ArrayOp) =>
    if o.kind == .program && decide (s.beat < o.start ∨ o.start = 0) then o.sparing fun k => b.columns.contains (d, k) else some o
  s.updFlash fun f =>
    { f with dies := f.dies.map fun d => { d with ops := d.ops.filterMap (cut d.d) }
             waiting := f.waiting.filterMap fun w => (cut w.die w.op).map fun o => { w with op := o } }

/-- Cut a band at its last verified stripe: stripes not verified under R253 go, their gather slots and system slots wait to be placed
again, no further page of it is programmed. An open one takes its BAND_CLOSE record and writes no summary; of one just closed the
summary is lost with its last stripes. `dark`: its programs were lost to darkness (R546). -/
def cutBand (s : State) (serial : Nat) (dark : Bool) : State :=
  match getBand s serial with
  | none => s
  | some b =>
    let inBand := fun (psa : Nat) => b.columns.contains (psaDie psa, psaBlock psa)
    let bad := ((s.media.slots.filter fun p => inBand p.1 && !p.2.verified).map fun p => psaPage p.1).eraseDups
    if b.st == .erasing || (b.st != .opened && bad.isEmpty) then s else
    let lost := fun (psa : Nat) => inBand psa && bad.contains (psaPage psa)
    let still := fun (c : Option (Nat × Bool)) => c.filter fun k => !lost k.1
    let again := (s.media.slots.filter fun p => lost p.1 && (p.2.kind == .checkpoint || p.2.kind == .care || p.2.kind == .image) && b.stream != 6).map Prod.snd
    let s1 := s.updMedia fun m => { m with sysWait := m.sysWait ++ again, slots := m.slots.filter fun p => !lost p.1 }
    let free := fun (g : GatherSlot) => match g.psa with
      | some p => if lost p then { g with psa := none, dark := g.dark || (dark && g.through) } else g
      | none => g
    let s2 := s1.updXlat fun x =>
      { x with gather := x.gather.map free, journal := x.journal.map fun j => { j with copyA := still j.copyA, copyB := still j.copyB } }
    let s3 := modBand (dropPrograms s2 b) serial fun b => { b with acc := none, summary := b.summary && bad.isEmpty }
    if b.st == .opened then markClosed s3 serial else s3

/-! ### RAW (R183, R289) -/

/-- Mark a block touched by RAW, and FAILED the band it lies in; an open one is cut, for no more may be programmed there (R279, R289). -/
def rawTouch (s : State) (ppn : Nat) : State :=
  let die := ppn / 2 ^ 25
  let block := ppn / 2 ^ 12 % 2 ^ 13
  let s1 := modBlock s (blockIdx die block) fun b => { b with rawTouched := true }
  match bandOf s1 (4 * ppn) with
  | some b => if b.st = .opened then cutBand (modBand s1 b.serial fun b => { b with failed := true }) b.serial false
    else modBand s1 b.serial fun b => { b with failed := true }
  | none => s1

/-- What a test of the place picks no longer holds the slots that were written there; their records stay for the band's relocation
(R275, R289). -/
def slotsGone (s : State) (p : Nat → Bool) : State :=
  s.updMedia fun m => { m with slots := updIf (fun q => p q.1) (fun q => (q.1, { q.2 with gone := true })) m.slots }

/-- RAW PROGRAM_PAGE: the page holds the bytes given from the column on; the slots it held are gone. -/
def rawProgram (s : State) (ppn column : Nat) (bytes : List Byte) : State :=
  let old := pageStored s ppn
  let new := (old.take column ++ bytes ++ old.drop (column + bytes.length)).take old.length
  rawTouch (slotsGone (s.updMedia fun m => { m with raw := Assoc.set m.raw ppn new }) fun q => q / 4 == ppn) ppn

/-- RAW ERASE_BLOCK: nothing the block held is left; the block has one erase more (R265). -/
def rawErase (s : State) (ppn : Nat) : State :=
  let s1 := slotsGone (s.updMedia fun m => { m with raw := m.raw.filter fun p => p.1 / 2 ^ 12 != ppn / 2 ^ 12 }) fun q => q / 2 ^ 14 == ppn / 2 ^ 12
  let s2 := raisePe s1 (ppn / 2 ^ 25) (ppn / 2 ^ 12 % 2 ^ 13)
  rawTouch (modBlock s2 (blockIdx (ppn / 2 ^ 25) (ppn / 2 ^ 12 % 2 ^ 13)) fun b => { b with rdCount := 0, depth := 0, iter := 0, erasedAt := s.beat / 65536 }) ppn

end Sys2Proof.Machine
end

