-- ==== Sys2Proof/Machine/Zci.lean ====
section
/-! DEFINITION. The ZCI instructions: the steps of an issue (R152), then one meaning per instruction, and
the retirement of a waiting instruction. -/

namespace Sys2Proof.Machine

/-! ### Issue (R117, R122, R137, R152) -/

/-- Whether a context may issue: ready, with a cycle of its Gaffer, and no ready context there goes before it (R117). -/
def canIssue (s : State) (x : Ctx) : Bool :=
  readyNow s x && !(s.ctxs.any fun y => y.c / 256 == x.c / 256 && y.before x && readyNow s y)

/-- The first fault of a list of conditions in the order of R152. -/
def firstFault : List (Bool × Nat) → Option Nat
  | [] => none
  | (b, k) :: r => if b then some k else firstFault r

/-- A context with one more instruction issued, counted against the budget unless it is a media
instruction; a D7 budget never falls below zero and never ends the context (R136, R137). -/
def Ctx.countIssue (x : Ctx) (op : Nat) (w : BitVec 32) : Ctx :=
  { x with issued := x.issued + 1, word := w, budget := if zMedia op then x.budget else x.budget - 1, issNow := x.issNow + 1
           overNow := x.overNow + b2n x.past }

/-- One issue of an instruction: steps 1 to 10 of R152. `checks` are its own fault conditions in order;
`eff` is its effect, which moves PC or makes the context wait. -/
def issue (s : State) (c op : Nat) (checks : Ctx → BitVec 32 → List (Bool × Nat))
    (eff : State → Ctx → BitVec 32 → State) : State :=
  match getCtx s c with
  | none => s
  | some x =>
    if !canIssue s x then s
    else match wordAt s x with
    | none => faultCtx s c 0x03
    | some w =>
      if zOp w != op then s
      else
        let x1 := x.countIssue op w
        let s1 := modCtx s c fun _ => x1
        if !zMedia op && x.budget == 0 && x.entry.cls != 7 then faultCtx s1 c 0x06
        else if !guardOn x w then modCtx s1 c fun y => { y with pc := y.pc + 1 }
        else match firstFault (checks x1 w) with
        | some k => faultCtx s1 c k
        | none =>
          let s2 := if zSide op then commitNow s1 c else s1
          match getCtx s2 c with
          | some x2 => eff s2 x2 w
          | none => s2

/-- PC to the next instruction. -/
def Ctx.next (x : Ctx) : Ctx := { x with pc := x.pc + 1 }

/-- Replace a context. -/
def putCtx (s : State) (x : Ctx) : State := modCtx s x.c fun _ => x

/-- An instruction that only changes its context and completes at issue. -/
def local_ (s : State) (c op : Nat) (f : Ctx → BitVec 32 → Ctx) : State :=
  issue s c op (fun _ _ => []) fun s x w => putCtx s (f x w)

/-- A context that waits for its instruction's effect. -/
def Ctx.hold (x : Ctx) : Ctx := { x with wait := .instr }

/-- A context whose waiting instruction retires: ready, past the instruction. -/
def Ctx.retire (x : Ctx) : Ctx := { x with wait := .ready, pc := x.pc + 1 }

/-! ### Register instructions (R155) -/

/-- Gd takes a value computed from the sources; PC advances. -/
def setD (x : Ctx) (w : BitVec 32) (v : BitVec 64) : Ctx := (rset x (zD w) v).next

/-- NOP. -/
def execNop (c : Nat) (s : State) : Host.Outcome State Fault Refusal := .next (local_ s c 0x02 fun x _ => x.next)
/-- MOVI. -/
def execMovi (c : Nat) (s : State) : Host.Outcome State Fault Refusal :=
  .next (local_ s c 0x04 fun x w => setD x w (zImmS w))
/-- SHIN. -/
def execShin (c : Nat) (s : State) : Host.Outcome State Fault Refusal :=
  .next (local_ s c 0x05 fun x w => setD x w ((rget x (zA w) <<< 15) ||| BitVec.ofNat 64 (zImm w)))
/-- ALU. -/
def execAlu (c : Nat) (s : State) : Host.Outcome State Fault Refusal :=
  .next (local_ s c 0x08 fun x w => setD x w (aluOp (zFn w) (rget x (zA w)) (rget x (zB w))))
/-- ADDI. -/
def execAddi (c : Nat) (s : State) : Host.Outcome State Fault Refusal :=
  .next (local_ s c 0x09 fun x w => setD x w (rget x (zA w) + zImmS w))
/-- ANDI. -/
def execAndi (c : Nat) (s : State) : Host.Outcome State Fault Refusal :=
  .next (local_ s c 0x0A fun x w => setD x w (rget x (zA w) &&& zImmS w))
/-- ORI. -/
def execOri (c : Nat) (s : State) : Host.Outcome State Fault Refusal :=
  .next (local_ s c 0x0B fun x w => setD x w (rget x (zA w) ||| zImmS w))
/-- XORI. -/
def execXori (c : Nat) (s : State) : Host.Outcome State Fault Refusal :=
  .next (local_ s c 0x0C fun x w => setD x w (rget x (zA w) ^^^ zImmS w))
/-- SHLI. -/
def execShli (c : Nat) (s : State) : Host.Outcome State Fault Refusal :=
  .next (local_ s c 0x0D fun x w => setD x w (rget x (zA w) <<< (zImm w % 64)))
/-- SHRI. -/
def execShri (c : Nat) (s : State) : Host.Outcome State Fault Refusal :=
  .next (local_ s c 0x0E fun x w => setD x w (rget x (zA w) >>> (zImm w % 64)))

/-! ### Compare (R156) -/

/-- CMP. -/
def execCmp (c : Nat) (s : State) : Host.Outcome State Fault Refusal :=
  .next (local_ s c 0x10 fun x w => (pset x (zD w % 4) (relation (zFn w) (rget x (zA w)) (rget x (zB w)))).next)
/-- CMPI. -/
def execCmpi (c : Nat) (s : State) : Host.Outcome State Fault Refusal :=
  .next (local_ s c 0x11 fun x w => (pset x (zD w % 4) (relation (zD w / 4) (rget x (zA w)) (zImmS w))).next)

/-! ### Control (R157 to R159) -/

/-- PC after a branch of a signed offset. -/
def branchTo (pc : Nat) (off : Int) : Nat := ((pc : Int) + off).toNat

/-- BR. -/
def execBr (c : Nat) (s : State) : Host.Outcome State Fault Refusal :=
  .next (local_ s c 0x14 fun x w => { x with pc := branchTo x.pc (sext 23 (zOff w)) })
/-- LOOP. -/
def execLoop (c : Nat) (s : State) : Host.Outcome State Fault Refusal :=
  .next (local_ s c 0x17 fun x w =>
    let x1 := rset x (zD w) (rget x (zD w) - 1)
    if rget x1 (zD w) = 0 then x1.next else { x1 with pc := branchTo x.pc (sext 15 (zImm w)) })
/-- CALL: fault 0x08 at depth 8. -/
def execCall (c : Nat) (s : State) : Host.Outcome State Fault Refusal :=
  .next (issue s c 0x15 (fun x _ => [(decide (8 ≤ x.stack.length), 0x08)]) fun s x w =>
    putCtx s { x with stack := (x.prog, x.pc + 1) :: x.stack, prog := zImm w % 4096, pc := 0 })
/-- RET: fault 0x03 with an empty stack. -/
def execRet (c : Nat) (s : State) : Host.Outcome State Fault Refusal :=
  .next (issue s c 0x16 (fun x _ => [(x.stack.isEmpty, 0x03)]) fun s x _ =>
    putCtx s (match x.stack with
      | (p, pc) :: r => { x with stack := r, prog := p, pc := pc }
      | [] => x))
/-- TRAP: fault 0x0C. -/
def execTrap (c : Nat) (s : State) : Host.Outcome State Fault Refusal :=
  .next (issue s c 0x3C (fun _ _ => [(true, 0x0C)]) fun s _ _ => s)

/-! ### Buffer access (R160, R161) -/

/-- The offset Ga + Gb of LD and ST, exact. -/
def memOff (x : Ctx) (w : BitVec 32) : Nat := (rget x (zA w)).toNat + (rget x (zB w)).toNat

/-- Width of LD and ST in bytes. -/
def memWidth (w : BitVec 32) : Nat := 2 ^ (zFl w % 4)

/-- Bounds, then alignment, of LD and ST. -/
def memChecks (x : Ctx) (w : BitVec 32) : List (Bool × Nat) :=
  [(!inBounds x (zH w) (memOff x w) (memWidth w), 0x04), (memOff x w % memWidth w != 0, 0x05)]

/-- LD. -/
def execLd (c : Nat) (s : State) : Host.Outcome State Fault Refusal :=
  .next (issue s c 0x18 memChecks fun s x w =>
    let v := leNat (hread x (zH w) (memOff x w) (memWidth w))
    putCtx s (setD x w (if bit (zFl w) 2 then sextBytes (memWidth w) v else BitVec.ofNat 64 v)))
/-- ST. -/
def execSt (c : Nat) (s : State) : Host.Outcome State Fault Refusal :=
  .next (issue s c 0x19 memChecks fun s x w =>
    putCtx s (hwrite x (zH w) (memOff x w) (leBytes (memWidth w) (rget x (zD w)).toNat)).next)

/-- The size code of a permitted buffer size: k for 2^(k+11), from 4,096 to 4,194,304 (R120, R161). -/
def bufCode (n : Nat) : Option Nat := (lowest (fun k => n == 2 ^ (k + 11)) 1 11)

/-- Whether the fn field selects BUF function f. -/
def bufIs (f : Nat) (s : State) (c : Nat) : Bool :=
  match getCtx s c with
  | some x => match wordAt s x with
    | some w => zFl w == f
    | none => true
  | none => false

/-- BUF GET; the slab address of the buffer is a free value (log entry 3). -/
def execBufGet (c : Nat) (s : State) : Host.Outcome State Fault Refusal :=
  .next (if !bufIs 0 s c then s else
    issue s c 0x1C (fun _ _ => []) fun s x w =>
      match bufCode (rget x (zA w)).toNat with
      | some k =>
        if (hget x (zH w)).isNone && decide (2 ^ (k + 11) ≤ 1024 * x.slabLeft) then
          let (v, s1) := drawFree s
          putCtx s1 (pset { hset x (zH w) (some { addr := v.setWidth 40, code := k, bytes := [] }) with
            slabLeft := x.slabLeft - 2 ^ (k + 1) } (zD w % 4) true).next
        else putCtx s (pset x (zD w % 4) false).next
      | none => putCtx s (pset x (zD w % 4) false).next)
/-- BUF PUT. -/
def execBufPut (c : Nat) (s : State) : Host.Outcome State Fault Refusal :=
  .next (if !bufIs 1 s c then s else
    local_ s c 0x1C fun x w => { hset x (zH w) none with slabLeft := x.slabLeft + hsize x (zH w) / 1024 }.next)
/-- BUF SIZE. -/
def execBufSize (c : Nat) (s : State) : Host.Outcome State Fault Refusal :=
  .next (if !bufIs 2 s c then s else local_ s c 0x1C fun x w => setD x w (BitVec.ofNat 64 (hsize x (zH w))))

/-! ### Host transfers (R162, R163) -/

/-- Descriptor bytes of a context. -/
def dBytes (x : Ctx) : Nat :=
  match x.ringOf with
  | some _ => descBytes x.entry x.segs
  | none => x.data.length

/-- Ga, Gb and Gd as numbers. -/
def ga (x : Ctx) (w : BitVec 32) : Nat := (rget x (zA w)).toNat
/-- Gb. -/
def gb (x : Ctx) (w : BitVec 32) : Nat := (rget x (zB w)).toNat
/-- Gd. -/
def gd (x : Ctx) (w : BitVec 32) : Nat := (rget x (zD w)).toNat

/-- Checks of HXIN and HXOUT. -/
def hxChecks (x : Ctx) (w : BitVec 32) : List (Bool × Nat) :=
  [(!inBounds x (zH w) (ga x w) (gb x w), 0x04),
   (ga x w % 4 != 0 || gb x w % 4 != 0 || gd x w % 4 != 0, 0x05),
   (decide (dBytes x < gd x w + gb x w) || decide (x.hostLeft < gb x w), 0x09)]

/-- HXIN: the transfer starts; its bytes reach the buffer when it completes. -/
def execHxin (c : Nat) (s : State) : Host.Outcome State Fault Refusal :=
  .next (issue s c 0x20 hxChecks fun s x w =>
    startDraw (beginTransfer (putCtx s { x.hold with hostLeft := x.hostLeft - gb x w }) x false (gd x w) (gb x w)) x.c (gb x w))
/-- HXOUT. -/
def execHxout (c : Nat) (s : State) : Host.Outcome State Fault Refusal :=
  .next (issue s c 0x21 hxChecks fun s x w =>
    startDraw (beginTransfer (putCtx s { x.hold with hostLeft := x.hostLeft - gb x w }) x true (gd x w) (gb x w)) x.c (gb x w))

/-! ### Media instructions (R164 to R174) -/

/-- Granule size of a context's namespace; 4,096 where it names none. -/
def gran (s : State) (x : Ctx) : Nat := ((ctxNs s x).map Namespace.granule).getD 4096

/-- The checks of R164: entry range and direction, extent, alignment, count. `k` extents of n granules;
`rd` and `wr` the limits it counts against. An n of 0 passes only with its Ga inside the entry range or at its end (DESIGN CHOICE, log entry
28: R164 does not speak of the empty range). -/
def mediaChecks (g k : Nat) (rd wr : Bool) (x : Ctx) (w : BitVec 32) : List (Bool × Nat) :=
  [(!inEntry x (ga x w) (gb x w) || (rd && !dReads x) || (wr && !dWrites x) ||
      (decide (k = 2) && decide (1048576 < gb x w * g)), 0x0A),
   (decide (0 < k) && !inBounds x (zH w) (gd x w) (k * gb x w * g), 0x04),
   (decide (0 < k) && gd x w % 4096 != 0, 0x05),
   ((rd && decide (x.rdLeft < gb x w)) || (wr && decide (x.wrLeft < gb x w)), 0x06)]

/-- A context with a media instruction's counts taken, waiting. -/
def Ctx.mediaHold (x : Ctx) (w : BitVec 32) (rd wr : Bool) : Ctx :=
  { x.hold with rdLeft := if rd then x.rdLeft - gb x w else x.rdLeft, wrLeft := if wr then x.wrLeft - gb x w else x.wrLeft }

/-- Read n granules from Ga: their places and what is delivered at once. -/
def startReads (s : State) (x : Ctx) (first n : Nat) : List GranRead :=
  match ctxNs s x with
  | some ns => (List.range n).map fun i => startRead s x ns (first + i)
  | none => []

/-- The issue of a reading media instruction. -/
def issueRead (s : State) (x : Ctx) (w : BitVec 32) (wr : Bool) : State :=
  let rs := startReads s x (ga x w) (gb x w)
  let s1 := putCtx s { x.mediaHold w true wr with reads := rs }
  match ctxNs s x with
  | some ns => registerDeep s1 ns rs
  | none => s1

/-- Checks of a media instruction in a state, whose namespace gives the granule. -/
def mchk (s : State) (c k : Nat) (rd wr : Bool) : Ctx → BitVec 32 → List (Bool × Nat) :=
  mediaChecks (((getCtx s c).map (gran s)).getD 4096) k rd wr

/-- MRD. -/
def execMrd (c : Nat) (s : State) : Host.Outcome State Fault Refusal :=
  .next (issue s c 0x24 (mchk s c 1 true false) fun s x w => issueRead s x w false)
/-- MCMP. -/
def execMcmp (c : Nat) (s : State) : Host.Outcome State Fault Refusal :=
  .next (issue s c 0x29 (mchk s c 1 true false) fun s x w => issueRead s x w false)
/-- MCAS. -/
def execMcas (c : Nat) (s : State) : Host.Outcome State Fault Refusal :=
  .next (issue s c 0x2A (mchk s c 2 true true) fun s x w => issueRead s x w true)

/-- Add the PSEQs sent since `s0` to what a context's durability waits for (R179, R382). -/
def awaitMirror (s0 s : State) (c : Nat) : State :=
  if s0.twin.txPseq < s.twin.txPseq then
    modCtx s c fun y => { y with mirrorWait := y.mirrorWait ++ [s.twin.txPseq - 1] }
  else s

/-- Write one granule for a context, held in its group when `atom`. -/
def putGranule (s : State) (c : Nat) (ns : Namespace) (atom : Bool) (gran : Nat) (tag : BitVec 64) (bytes : List Host.Cell) : State :=
  match getCtx s c with
  | none => s
  | some x => if atom then holdGranule s x ns gran tag bytes else writeGranule s x ns gran tag bytes

/-- Write n granules from a buffer extent (R168). -/
def putGranules (s : State) (c : Nat) (ns : Namespace) (atom : Bool) (first n : Nat) (tag : BitVec 64)
    (buf : List Host.Cell) (off : Nat) : State :=
  (List.range n).foldl (fun s i =>
    putGranule s c ns atom (first + i) tag (Mem.slice buf (off + i * ns.granule) ns.granule 0)) s

/-- The tag MWR and MCAS store (R167). -/
def tagOf (x : Ctx) (w : BitVec 32) : BitVec 64 := if bit (zFl w) 2 then rget x 15 else 0

/-- MWR: the granules enter one after the other while it waits. -/
def execMwr (c : Nat) (s : State) : Host.Outcome State Fault Refusal :=
  .next (issue s c 0x25 (mchk s c 1 false true) fun s x w =>
    match ctxNs s x with
    | none => putCtx s (x.mediaHold w false true)
    | some _ => putCtx s { x.mediaHold w false true with snap := 0 })

/-- MTRIM and MZERO: unmap the range, in the group of an ATOM command (R169, R174). -/
def issueUnmap (s : State) (x : Ctx) (w : BitVec 32) : State :=
  let s1 := putCtx s { x.mediaHold w false true with fed := x.fed.filter fun r => decide (r.gran < ga x w ∨ ga x w + gb x w ≤ r.gran) }
  match ctxNs s x with
  | none => s1
  | some ns =>
    if x.entry.atom then modCtx s1 x.c fun y => { y with atom := if gb x w = 0 then y.atom else y.atom ++ [.unmap (ga x w) (gb x w)] }
    else awaitMirror s1 (unmapRange s1 ns (ga x w) (gb x w)) x.c

/-- MTRIM. -/
def execMtrim (c : Nat) (s : State) : Host.Outcome State Fault Refusal :=
  .next (issue s c 0x26 (mchk s c 0 false true) issueUnmap)
/-- MZERO. -/
def execMzero (c : Nat) (s : State) : Host.Outcome State Fault Refusal :=
  .next (issue s c 0x27 (mchk s c 0 false true) issueUnmap)
/-- MFLUSH. -/
def execMflush (c : Nat) (s : State) : Host.Outcome State Fault Refusal :=
  .next (issue s c 0x28 (fun _ _ => []) fun s x _ => putCtx s x.hold)

/-! ### Stream instructions (R148, R175 to R178) -/

/-- KiB a stream length counts. -/
def strKib (n : Nat) : Nat := ceilDiv n 1024

/-- The STRLEFT check of a stream instruction (R137). -/
def strCheck (x : Ctx) (w : BitVec 32) : Bool × Nat := (decide (x.strLeft < strKib (gb x w)), 0x06)

/-- A context with a stream instruction's count taken, waiting. -/
def Ctx.strHold (x : Ctx) (w : BitVec 32) : Ctx := { x.hold with strLeft := x.strLeft - strKib (gb x w) }

/-- A context waits on a stream operation of n bytes, which starts to move them (R148, R547). -/
def streamOn (s : State) (x : Ctx) (n : Nat) : State := startDraw (putCtx s x) x.c n

/-- The matching records of a source, in order. -/
def scanOut (f : List Byte) (rec : Nat) : Nat → List Byte → List Byte
  | 0, _ => []
  | n + 1, bs => (if filterMatch f (bs.take rec) then bs.take rec else []) ++ scanOut f rec n (bs.drop rec)

/-- SCAN: output handle fl[2:0], filter handle fl[5:3]. -/
def execScan (c : Nat) (s : State) : Host.Outcome State Fault Refusal :=
  .next (issue s c 0x2C (fun x w =>
      let o := zFl w % 8
      let fh := zFl w / 8 % 8
      let f := hread x fh 0 80
      [(!inBounds x (zH w) (ga x w) (gb x w) || !inBounds x o (gd x w) (gb x w) || !inBounds x fh 0 80 ||
          o == zH w || o == fh, 0x04),
       (gb x w % filterRec f != 0, 0x05), strCheck x w]) fun s x w =>
    let o := zFl w % 8
    let f := hread x (zFl w / 8 % 8) 0 80
    let out := scanOut f (filterRec f) (gb x w / filterRec f) (hread x (zH w) (ga x w) (gb x w))
    streamOn s (rset (hwrite (x.strHold w) o (gd x w) out) (zD w) (rget x (zD w) + BitVec.ofNat 64 out.length)) (gb x w))

/-- ALG, MODE and destination handle of DIGEST. -/
def digAlg (w : BitVec 32) : Nat := zFl w % 2
/-- MODE. -/
def digMode (w : BitVec 32) : Nat := zFl w / 2 % 4
/-- Destination handle. -/
def digDst (w : BitVec 32) : Nat := zFl w / 8 % 8

/-- The bytes DIGEST writes with ALG 1 (R177). -/
def digestOut (mode : Nat) (area src : List Byte) : List Byte :=
  let blocks := src.length / 136
  match mode with
  | 0 => sha3 src
  | 1 => lanesBytes (absorb blocks (List.replicate 25 0) src) ++ List.replicate 56 0
  | 2 => lanesBytes (absorb blocks (bytesLanes area) src) ++ List.replicate 56 0
  | _ => sha3Finish (bytesLanes area) src ++ List.replicate 224 0

/-- DIGEST. -/
def execDigest (c : Nat) (s : State) : Host.Outcome State Fault Refusal :=
  .next (issue s c 0x2D (fun x w =>
      let n := if digMode w = 0 then 32 else 256
      [(!inBounds x (zH w) (ga x w) (gb x w) || (digAlg w == 1 && !inBounds x (digDst w) (gd x w) n), 0x04),
       (digAlg w == 1 && (gd x w % 8 != 0 || ((digMode w == 1 || digMode w == 2) && gb x w % 136 != 0)), 0x05),
       strCheck x w]) fun s x w =>
    let src := hread x (zH w) (ga x w) (gb x w)
    if digAlg w = 0 then
      streamOn s (rset (x.strHold w) (zD w) ((crc32c src ((rget x (zD w)).setWidth 32)).setWidth 64)) (gb x w)
    else
      streamOn s (hwrite (x.strHold w) (digDst w) (gd x w) (digestOut (digMode w) (hread x (digDst w) (gd x w) 200) src)) (gb x w))

/-- COPY, and FILL with fl[3] set. -/
def execCopy (c : Nat) (s : State) : Host.Outcome State Fault Refusal :=
  .next (issue s c 0x2E (fun x w =>
      [(!inBounds x (zFl w % 8) (gd x w) (gb x w) || (!bit (zFl w) 3 && !inBounds x (zH w) (ga x w) (gb x w)), 0x04),
       strCheck x w]) fun s x w =>
    let src :=
      if bit (zFl w) 3 then
        (List.range (gb x w)).map fun i => BitVec.ofNat 8 ((rget x (zA w)).toNat / 256 ^ ((gd x w + i) % 8))
      else hread x (zH w) (ga x w) (gb x w)
    streamOn s (hwrite (x.strHold w) (zFl w % 8) (gd x w) src) (gb x w))

/-- CMPB: predicate fl[4:3]. -/
def execCmpb (c : Nat) (s : State) : Host.Outcome State Fault Refusal :=
  .next (issue s c 0x2F (fun x w =>
      [(!inBounds x (zH w) (ga x w) (gb x w) || !inBounds x (zFl w % 8) (gd x w) (gb x w), 0x04), strCheck x w]) fun s x w =>
    streamOn s (pset (x.strHold w) (zFl w / 8 % 4)
      (hread x (zH w) (ga x w) (gb x w) == hread x (zFl w % 8) (gd x w) (gb x w))) (gb x w))

/-! ### FENCE (R179) -/

/-- FENCE: the context waits; DURABLE is tested when it retires, HOST holds at issue, since an HXOUT has
issued its writes before the next instruction of its context issues (R154). -/
def execFence (c : Nat) (s : State) : Host.Outcome State Fault Refusal :=
  .next (issue s c 0x31 (fun _ _ => []) fun s x _ => putCtx s x.hold)

/-! ### Settings (R27 to R29, R180) -/

/-- Check 7 of R152 for GET, SET and DOZE. -/
def adminCheck (x : Ctx) : Bool × Nat := (!x.admin, 0x07)

/-- GET: value, then outcome word, then predicate. -/
def execGet (c : Nat) (s : State) : Host.Outcome State Fault Refusal :=
  .next (issue s c 0x35 (fun x _ => [adminCheck x]) fun s x w =>
    let id := (ga x w) % 2 ^ 32
    match accessCheck s id none with
    | some (st, d) => putCtx s (pset (rset x (zB w) (outcomeWord st d)) (zFn w % 4) false).next
    | none => putCtx s (pset (rset (rset x (zD w) (readSetting s id)) (zB w) 0) (zFn w % 4) true).next)

/-- A SET retires with an outcome: Gd, the predicate, the next instruction (R180). -/
def Ctx.retireSet (x : Ctx) (st : BitVec 16) (d : BitVec 8) : Ctx :=
  (pset (rset x (zD x.word) (outcomeWord st d)) (zFn x.word % 4) (st == St.ok)).retire

/-- A SET whose setting has a command of its own, or SET_SETTING of one, ends with an outcome. -/
def setDone (s : State) (c : Nat) (st : BitVec 16) (d : BitVec 8) : State :=
  match getCtx s c with
  | none => s
  | some x => if x.entry.isProg then putCtx s (x.retireSet st d) else residentPost s c st d 0

/-- The setting and value of a context's waiting SET, or of its SET_SETTING. -/
def setArgs (x : Ctx) : Nat × BitVec 64 :=
  if x.entry.isProg then (ga x x.word % 2 ^ 32, rget x (zB x.word))
  else (x.entry.a0.toNat % 2 ^ 32, x.entry.a1)

/-- Whether a context waits on a SET of a setting in [lo, lo + n), durable where the setting is NV (R28). -/
def waitsSet (s : State) (c lo n : Nat) : Option (Ctx × Nat × BitVec 64) :=
  match getCtx s c with
  | none => none
  | some x =>
    let a := setArgs x
    let waits := if x.entry.isProg then x.wait == .instr && zOp x.word == 0x34
      else x.wait == .resident && x.entry.op == 0x87 && x.snap == 1
    if waits && decide (lo ≤ a.1) && decide (a.1 < lo + n) && !settingWriting s a.1 then some (x, a.1 - lo, a.2) else none

/-! ### Times of day (R181, R431, R434, R435) -/

/-- A DOZE, or the DAY_ENTER that runs one, finishes with an outcome. -/
def dozeDone (s : State) (c : Nat) (st : BitVec 16) : State :=
  match getCtx s c with
  | none => s
  | some x =>
    if x.entry.isProg then
      if x.wait == .instr && zOp x.word == 0x36 then putCtx s (rset x (zD x.word) (st.setWidth 64)).retire else s
    else if x.wait == .resident then residentPost s c st 0 0 else s

/-- The time of day of a DAY_TARGET value. -/
def dayOf : Nat → DayState
  | 0 => .noon | 1 => .dusk | 2 => .night | _ => .midnight

/-- A request for a time of day: an earlier one is superseded; naming the current one finishes at once. -/
def requestDay (s : State) (c : Nat) (t : DayState) : State :=
  let s1 := match s.day.pendReq with
    | some (_, c0) => dozeDone (s.updDay fun d => { d with superseded := min (d.superseded + 1) (2 ^ 32 - 1), pendReq := none }) c0 St.superseded
    | none => s
  if t = s.day.day then dozeDone s1 c St.ok else s1.updDay fun d => { d with pendReq := some (t, c) }

/-- DOZE. -/
def execDoze (c : Nat) (s : State) : Host.Outcome State Fault Refusal :=
  .next (issue s c 0x36 (fun x _ =>
      [adminCheck x, (decide (2 ≤ nvVal s 0x0E000001) && x.entry.cls != 7, 0x07)]) fun s x _ =>
    requestDay (putCtx s x.hold) x.c (dayOf (nvVal s 0x0E000001)))

/-! ### RAW (R183) -/

/-- The raw header's DBYTES. -/
def rawDbytes (x : Ctx) (w : BitVec 32) : Nat := field (hread x (zH w) (ga x w) 64) 16 4

/-- RCODE of a raw operation (05, RAW): undefined, dark, not owned, outside the write window, timeout. Where several conditions hold the
first of them in that order is reported (DESIGN CHOICE, log entry 28: the spec gives no order). -/
def rawCode (s : State) (rop die : Nat) (timeout : Bool) : Nat :=
  if rop = 0 ∨ 8 < rop then 5
  else if !(match getDie s die with
    | some d => !d.dark && (getOct s (dieOct die)).st == .live
    | none => false) then 2
  else if !ownHeld s (dieOct die) then 3
  else if (rop = 2 ∨ rop = 3) ∧ !s.therm.window then 4
  else if timeout then 1 else 0

/-- The commands of a raw operation, with the data it supplies (R313, R316): a READ_PAGE with VSHIFT sets the read threshold first. -/
def rawCmds (s : State) (h data : List Byte) : State :=
  let rop := field h 0 1
  let d := field h 8 8 % 2 ^ 36 / 2 ^ 25
  let row := rowAddr s d (field h 8 8 / 2 ^ 12 % 2 ^ 13) (field h 8 8 % 2 ^ 12)
  let addr := addrCycles s d row (field h 4 4)
  let feature := leBytes 1 (field h 20 1)
  match rop with
  | 1 =>
    let s1 := if field h 21 1 = 0 then s else busCmd s d 0xEF 0 (leBytes 1 (bits (profOf s (dieOct d) 9) 7 0) ++ leBytes 1 (field h 21 1))
    busCmd (busCmd (busCmd s1 d 0x00 row (addrCycles s d row 0)) d 0x30 row []) d 0x06 row (addr ++ [0xE0])
  | 2 => busCmd (busCmd s d 0x80 row (addr ++ data)) d 0x10 row []
  | 3 => busCmd (busCmd s d 0x60 row (rowCycles s d row)) d 0xD0 row []
  | 4 => busCmd s d 0x90 0 [0]
  | 5 => busCmd s d 0xEC 0 [0]
  | 6 => busCmd s d 0xEF 0 (feature ++ leBytes 4 (field h 24 4))
  | 7 => busCmd s d 0xEE 0 feature
  | _ => busCmd s d 0xFF 0 []

/-- RAW: the operation starts, where nothing keeps it from starting. -/
def execRaw (c : Nat) (s : State) : Host.Outcome State Fault Refusal :=
  .next (issue s c 0x3A (fun x w =>
      [(!x.admin || s.sec.life != .bench || s.sec.benchClose || x.entry.cls != 7, 0x07),
       (!inBounds x (zH w) (ga x w) (gb x w) || decide (gb x w < 64 + rawDbytes x w), 0x04),
       (rawDbytes x w % 4 != 0, 0x05)]) fun s x w =>
    let h := hread x (zH w) (ga x w) 64
    let s1 := if rawCode s (field h 0 1) (field h 8 8 % 2 ^ 36 / 2 ^ 25) false = 0 then rawCmds s h (hread x (zH w) (ga x w + 64) (rawDbytes x w)) else s
    putCtx s1 x.hold)

/-- The end of a raw operation: the header's written fields and the bytes read; READ_PAGE gives what the page holds from COLUMN on and
counts as a read of its block; a program or an erase acts on the page or the block; a timeout is followed by a RESET of the LUN (R283,
R316). What a READ_PAGE or PROGRAM_PAGE asks beyond the page's end is not transferred (DESIGN CHOICE, log entry 28: the spec is silent). -/
def rawDone (s : State) (x : Ctx) (bytes : List Byte) (status : Nat) : State :=
  let w := x.word
  let h := hread x (zH w) (ga x w) 64
  let rop := field h 0 1
  let column := field h 4 4
  let ppn := field h 8 8 % 2 ^ 36
  let code := rawCode s rop (ppn / 2 ^ 25) (bit status 8)
  let n := if rop = 4 then 8 else if rop = 1 ∨ rop = 5 then rawDbytes x w else 0
  let out := if rop = 1 then (pageStored s ppn).drop column else bytes
  let x1 := hwrite x (zH w) (ga x w + 32)
    (leBytes 1 status ++ leBytes 1 code ++ leBytes 6 0 ++ leBytes 8 (status / 2 ^ 9) ++ leBytes 16 0)
  let x2 := if code = 0 then hwrite x1 (zH w) (ga x w + 64) (out.take (min n (gb x w - 64))) else x1
  let x3 := if code = 0 ∧ rop = 7 then hwrite x2 (zH w) (ga x w + 24) (bytes.take 4 ++ leBytes 4 0) else x2
  let d := ppn / 2 ^ 25
  let polled := rop = 1 ∨ rop = 2 ∨ rop = 3
  let s1 := putCtx (if code = 1 then busCmd s d 0xFF 0 [] else if code = 0 ∧ polled then busCmd s d 0x78 (rowAddr s d (ppn / 2 ^ 12 % 2 ^ 13) (ppn % 2 ^ 12)) [] else s) x3.retire
  if code ≠ 0 then s1
  else if rop = 1 then countRead s1 d (ppn / 2 ^ 12 % 2 ^ 13)
  else if rop = 2 then rawProgram s1 ppn column (hread x (zH w) (ga x w + 64) (rawDbytes x w))
  else if rop = 3 then rawErase s1 ppn
  else s1

/-! ### Retirement (R154, R163, R165 to R172) -/

/-- Whether every granule of a context's reads is terminal. -/
def readsDone (x : Ctx) : Bool := x.reads.all GranRead.done

/-- Raise the sticky state for every granule read (R166, R167). -/
def noteReads (x : Ctx) (tag : Option (BitVec 64)) : Ctx :=
  { x with sticky := x.reads.foldl (fun k r => k.note x.entry.lba.toNat tag r) x.sticky }

/-- The bytes a granule read leaves: its data, or zeros. -/
def GranRead.out (r : GranRead) : List Host.Cell := if r.delivered then r.bytes else []

/-- MRD retires: data or zeros in the buffer, sticky state, predicate. -/
def mrdDone (s : State) (x : Ctx) : State :=
  let w := x.word
  let g := gran s x
  let x1 := noteReads x (if bit (zFl w) 2 then some (rget x 15) else none)
  let x2 := x.reads.zipIdx.foldl (fun y r => hmod y (zH w) fun m => Mem.splice m (gd x w + r.2 * g) g r.1.out) x1
  putCtx s { (pset x2 (zFl w % 4) (x.reads.all GranRead.delivered)).retire with reads := [] }

/-- Whether every granule was delivered and equals the buffer's extent. -/
def readsEqual (s : State) (x : Ctx) (h off : Nat) : Bool :=
  let g := gran s x
  x.reads.all GranRead.delivered &&
  x.reads.zipIdx.all fun r => r.1.bytes == Mem.slice (hbytes x h) (off + r.2 * g) g 0

/-- MCMP retires. -/
def mcmpDone (s : State) (x : Ctx) : State :=
  let w := x.word
  putCtx s { (pset (noteReads x none) (zFl w % 4) (readsEqual s x (zH w) (gd x w))).retire with reads := [] }

/-- MCAS retires: the swap as one atom group, or the current contents in the compare extent (R172, R205). Its read compares tags as
MRD's does, since it reads as MRD would (DESIGN CHOICE, log entry 28: R167 names only MRD). -/
def mcasDone (s : State) (x : Ctx) : State :=
  let w := x.word
  let g := gran s x
  let n := gb x w
  let x1 := noteReads x (if bit (zFl w) 2 then some (rget x 15) else none)
  if readsEqual s x (zH w) (gd x w) then
    let s1 := putCtx s { (pset x1 (zFl w % 4) true).retire with reads := [] }
    match ctxNs s x with
    | none => s1
    | some ns =>
      let s2 := putGranules s1 x.c ns true (ga x w) n (tagOf x w) (hbytes x (zH w)) (gd x w + n * g)
      if x.entry.atom then s2
      else match getCtx s2 x.c with
        | some y => modCtx (commitAtom s2 y ns y.atom) x.c fun z => { z with atom := [] }
        | none => s2
  else
    let x2 := x.reads.zipIdx.foldl (fun y r => hmod y (zH w) fun m => Mem.splice m (gd x w + r.2 * g) g r.1.out) x1
    putCtx s { (pset x2 (zFl w % 4) false).retire with reads := [] }

/-- Whether the gather buffer takes n granules of a context's namespace (R13). -/
def gatherTakes (s : State) (x : Ctx) (n : Nat) : Bool :=
  match ctxNs s x with
  | some ns => decide (n ≤ gatherRuns s ns.gslots)
  | none => true

/-- The reply of an RCALL, in the layout of `repMessage`, reaches the header and the buffer (R182). -/
def rcallDone (s : State) (x : Ctx) : State :=
  let w := x.word
  let m := x.reply
  let st := field m 0 2
  let n := field m 4 4
  let cap := field (hread x (zH w) (ga x w) 64) 24 4
  let x1 := hwrite x (zH w) (ga x w + 32)
    (leBytes 2 st ++ leBytes 1 (field m 2 1) ++ leBytes 1 0 ++ leBytes 4 n ++ leBytes 8 (field m 8 8) ++ leBytes 16 0)
  let x2 := hwrite x1 (zH w) (ga x w + 64) ((m.drop 32).take (min n cap) ++ List.replicate (cap - n) 0)
  putCtx s { (pset x2 (zFl w % 4) (decide (st ≤ 1))).retire with reply := [] }

/-- What MFLUSH waits for: the context's own writes, and those of commands that ended before its admission, are durable (R170). -/
def flushed (s : State) (x : Ctx) : Bool :=
  durable s x && (!s.power.jthrough || journaled s) && (!mirroring s || decide (x.sentAt ≤ s.twin.ackedPseq))

/-- The next granule of a waiting MWR enters, once the gather buffer has room (R13, R168, R548); `snap` counts those that have. -/
def mwrNext (s : State) (x : Ctx) : State :=
  match ctxNs s x with
  | none => putCtx s x.retire
  | some ns =>
    let w := x.word
    if !gatherFits s ns then s else
    putGranules (modCtx s x.c fun y => { y with snap := y.snap + 1 }) x.c ns x.entry.atom (ga x w + x.snap) 1 (tagOf x w) (hbytes x (zH w))
      (gd x w + x.snap * ns.granule)

/-- The retirement of a waiting instruction, once what it waits for is complete. -/
def retireInstr (s : State) (x : Ctx) (bytes : List Byte) (status : Nat) : State :=
  let w := x.word
  if drawKind w ≠ none ∧ x.left ≠ 0 then s else
  match zOp w with
  | 0x20 =>
    if hostInDone s x (gb x w) bytes then
      endTransfer (putCtx s (hwrite x (zH w) (ga x w) (hostIn x (gd x w) (gb x w) bytes)).retire) x.c false (gb x w)
    else s
  | 0x21 => if !hostReach s x && gb x w != 0 then s else endTransfer (hostOut (putCtx s x.retire) x (gd x w) (hread x (zH w) (ga x w) (gb x w))) x.c true (gb x w)
  | 0x24 => if readsDone x then mrdDone s x else s
  | 0x29 => if readsDone x then mcmpDone s x else s
  | 0x2A => if readsDone x && gatherTakes s x (gb x w) then mcasDone s x else s
  | 0x25 => if x.snap < gb x w then mwrNext s x
    else if s.xlat.gather.any (fun g => g.through && !g.atom && g.owner == x.c) then s else putCtx s x.retire
  | 0x28 => if flushed s x then putCtx s x.retire else s
  | 0x31 => if bit (zImm w) 0 && !durable s x then s else putCtx s x.retire
  | 0x34 =>
    let a := setArgs x
    if specialSet a.1 || settingWriting s a.1 then s else putCtx (applySet s a.1 a.2) (x.retireSet St.ok 0)
  | 0x36 => s
  | 0x38 => if x.reply.isEmpty then s else rcallDone s x
  | 0x3A => rawDone s x bytes status
  | _ => putCtx s x.retire

/-- WAIT_COMPLETE. -/
def execWaitComplete (c : Nat) (bytes : List Byte) (status : Nat) (s : State) : Host.Outcome State Fault Refusal :=
  .next (match getCtx s c with
    | none => s
    | some x => if x.wait == .instr && !x.stopping then retireInstr s x bytes status else s)

/-! ### POST, and what ends a context from outside -/

/-- The granules of a write-through command that no verified program holds yet. -/
def unverified (s : State) (x : Ctx) : List Nat :=
  (s.xlat.gather.filter fun g => g.through && !g.atom && g.part == 0 && g.owner == x.c).map GatherSlot.gran

/-- Whether darkness took away a program of a write-through command whose granules are not all verified (R546). -/
def tookDark (s : State) (x : Ctx) : Bool := s.xlat.gather.any fun g => g.through && !g.atom && g.owner == x.c && g.dark

/-- The end at D of a write-through write whose programs a dark die or oct took away: DOMAIN_OFF with the
offset of the first granule not verified and their count (R546). -/
def postUnverified (s : State) (x : Ctx) : State :=
  let gs := unverified s x
  let first := gs.foldl min (gs.head?.getD 0) - x.entry.lba.toNat
  endWith (modCtx s x.c fun y => { y with mirrorWait := [] }) x.c St.domainOff 0 (BitVec.ofNat 64 (first % 2 ^ 32 + gs.length * 2 ^ 32))

/-- An ABORT posts in the beat after its admission, behind the command it ended (R105). Where that command waits for an earlier overlapping one
(R102), the ABORT posts first (DESIGN CHOICE, log entry 28: R105 puts both posts into one beat, R102 holds the command's). -/
def postAbort (s : State) (x : Ctx) : State :=
  if s.beat ≤ x.admBeat then s else post (if x.snap = 0 then s else tryComplete s (x.snap - 1)) x.c

/-- POST: issues, or goes on with the steps of R186. -/
def execPost (c : Nat) (s : State) : Host.Outcome State Fault Refusal :=
  .next (match getCtx s c with
    | none => s
    | some x =>
      if x.wait == .ready then
        issue s c 0x01 (fun _ _ => []) fun s x w =>
          post (putCtx s { x with status := postStatus (zFn w), detail := BitVec.ofNat 8 (gb x w), result := rget x (zA w),
                                  wait := .posting }) c
      else if x.wait == .posting && !x.stopping && !x.dOpen && decide (x.dline ≤ s.beat) && tookDark s x then postUnverified s x
      else if x.wait == .posting && x.entry.typ == 4 && x.entry.op == 0x83 then postAbort s x
      else if x.wait == .fixed && x.status == St.aborted && decide (s.beat < x.postBeat) then s
      else post s c)

end Sys2Proof.Machine
end

