-- ==== Sys2Proof/Machine/Regs.lean ====
section
/-! DEFINITION. BAR0: what every register reads, host reads and writes dword by dword, event registers,
doorbells, the admin ring registers, MSI-X (R21 to R25, R76 to R83, R96 to R99, R353 to R355, R443). -/

namespace Sys2Proof.Machine

/-! ### Dark accesses and event registers (R22 to R24, R443) -/

/-- Whether a BAR0 offset lies in the CORE domain: the admin ring registers and RSTAT (R429). -/
def coreOffset (o : Nat) : Bool :=
  (decide (0x1000 ≤ o) && decide (o < 0x2000)) || (decide (0x100000 ≤ o) && decide (o < 0x500000) && decide (o / 4 % 1024 = 1))

/-- Whether a BAR0 offset is dark now. -/
def bar0Dark (s : State) (o : Nat) : Bool := coreOffset o && (!s.day.coreOn || s.day.day == .night)

/-- Record a dark access of a function: DARK_ACCESS, DARK_ADDR, DAY_DARK_ACCESSES. -/
def darkAccess (s : State) (n o : Nat) (write : Bool) : State :=
  let s1 := modFn s n fun f =>
    { f with darkCount := min 255 (f.darkCount + 1)
             darkWrite := if f.darkCount = 0 then write else f.darkWrite
             darkOffset := if f.darkCount = 0 then BitVec.ofNat 23 o else f.darkOffset }
  raiseIn (s1.updDay fun d => { d with darkAccesses := satAdd d.darkAccesses 1 }) n 0

/-- DARK_DOMAIN_ACCESS: reads all ones, drops a write, records the access. -/
def execDarkDomainAccess (fn offset : Nat) (write : Bool) (s : State) : Host.Outcome State Fault Refusal :=
  .next (if (getFn s fn).isNone || !bar0Dark s offset then s
    else
      let s1 := darkAccess s fn offset write
      if write then s1 else emit s1 (.regRead fn 0xFFFFFFFF))

/-- A write to GEVENT clears the bits written 1; DARK_ACCESS also clears DARK_ADDR. -/
def geventClear (s : State) (n : Nat) (v : BitVec 32) : State :=
  modFn s n fun f =>
    { f with gevent := f.gevent &&& ~~~ v.setWidth 8
             darkCount := if v.getLsbD 0 then 0 else f.darkCount
             darkWrite := if v.getLsbD 0 then false else f.darkWrite
             darkOffset := if v.getLsbD 0 then 0 else f.darkOffset }

/-- GEVENT_WRITE: events and a dark access of the same cycle, a read or a write at an offset, win over the clear. -/
def execGeventWrite (fn : Nat) (value : BitVec 32) (coincident : BitVec 8) (dark : Option (Nat × Bool)) (s : State) :
    Host.Outcome State Fault Refusal :=
  .next (if (getFn s fn).isNone then s else
    let s1 := geventClear s fn value
    let s2 := ((List.range 8).filter fun k => decide (0 < k) && coincident.getLsbD k).foldl (fun s k => event s k 0xFF) s1
    match dark with
    | some (o, write) => darkAccess s2 fn o write
    | none => s2)

/-- A write to GEVENT_CFG: an unmasked pending bit sends one message (R23). -/
def geventCfg (s : State) (n : Nat) (v : BitVec 32) : State :=
  match getFn s n with
  | none => s
  | some f =>
    let mask := v.setWidth 8
    let s1 := modFn s n fun f => { f with cfgVector := (v >>> 16).setWidth 11, cfgMask := mask }
    let newly := f.gevent &&& f.cfgMask &&& ~~~ mask
    ((List.range 8).filter fun k => newly.getLsbD k).foldl (fun s _ => sendMsix s n ((v >>> 16).setWidth 11).toNat) s1

/-- GEVENT_CFG_WRITE. -/
def execGeventCfgWrite (fn : Nat) (value : BitVec 32) (s : State) : Host.Outcome State Fault Refusal :=
  .next (geventCfg s fn value)

/-! ### Doorbells (R96 to R98) -/

/-- A doorbell write is dropped: DBERR and RING_DB_ERRORS. -/
def dbError (s : State) (fn loc : Nat) : State :=
  (modFn s fn fun f => { f with dbErr := if f.dbErr.contains loc then f.dbErr else f.dbErr ++ [loc] }).updPlan
    fun p => { p with dbErrors := satAdd p.dbErrors 1 }

/-- Completions posted and not consumed. -/
def Ring.unconsumed (r : Ring) : Nat := (r.cqTail + r.cqSize - r.cqHead) % r.cqSize

/-- SQ_TAIL of a local pair. -/
def sqTailWrite (s : State) (fn loc : Nat) (v : BitVec 32) : State :=
  if (getFn s fn).isNone || decide (fnLimit s fn ≤ loc) then s else
  match getLocal s fn loc with
  | none => dbError s fn loc
  | some r =>
    let t := v.toNat % 2 ^ 16
    if r.st = .resetting ∨ r.sqSize ≤ t then dbError s fn loc
    else modLink (modRing s r.g fun r => { r with sqTail := t }) (fnLink fn) fun l => { l with inL1 := false }

/-- CQ_HEAD of a local pair; it may not pass the last posted completion. -/
def cqHeadWrite (s : State) (fn loc : Nat) (v : BitVec 32) : State :=
  if (getFn s fn).isNone || decide (fnLimit s fn ≤ loc) then s else
  match getLocal s fn loc with
  | none => dbError s fn loc
  | some r =>
    let h := v.toNat % 2 ^ 16
    if r.st = .resetting ∨ r.cqSize ≤ h ∨ r.unconsumed < (h + r.cqSize - r.cqHead) % r.cqSize then dbError s fn loc
    else modLink (modRing s r.g fun r => { r with cqHead := h }) (fnLink fn) fun l => { l with inL1 := false }

/-- RSTAT, W1C of DBERR. -/
def rstatWrite (s : State) (fn loc : Nat) (v : BitVec 32) : State :=
  if v.getLsbD 4 && decide (loc < fnLimit s fn) then modFn s fn fun f => { f with dbErr := f.dbErr.filter (· != loc) } else s

/-- CQ_HEAD. -/
def execCqHead (fn loc : Nat) (value : BitVec 32) (s : State) : Host.Outcome State Fault Refusal := .next (cqHeadWrite s fn loc value)
/-- RSTAT_CLEAR; RSTAT lies in CORE, so a write while it is dark is a dark access. -/
def execRstatClear (fn loc : Nat) (value : BitVec 32) (s : State) : Host.Outcome State Fault Refusal :=
  .next (if (getFn s fn).isNone then s
    else if bar0Dark s (0x100004 + loc * 0x1000) then darkAccess s fn (0x100004 + loc * 0x1000) true
    else rstatWrite s fn loc value)

/-! ### The admin ring (R77 to R83) -/

/-- Whether a reset of the admin ring runs. -/
def aringResetting (s : State) (fn : Nat) : Bool := s.rings.any fun r => r.fn == fn && r.loc == 0 && r.st == .resetting

/-- The completions kept for a ring that is being reset are discarded and counted as withheld (R352, R110). -/
def dropKept (s : State) (g : Nat) : State :=
  match getRing s g with
  | none => s
  | some r =>
    let ks := (((getFn s r.fn).map HostFn.kept).getD []).filter fun k => k.ring == g
    let s1 := modFn s r.fn fun f => { f with kept := f.kept.filter fun k => k.ring != g }
    ks.foldl (fun s k => match k.ctx.bind (getCtx s) with
      | some x => complete s x
      | none => modRing s g fun r => { r with rst := r.rst.map fun w => w.count k.status }) s1

/-- A ring goes RESETTING: it is fetched no more, its held entry's copy goes (R110 step 1). -/
def markResetting (s : State) (g : Nat) (by_ : Option Nat) : State :=
  modRing s g fun r => { r with st := .resetting, held := none, rst := some { r.rst.getD RingReset.none with at_ := s.beat, byCtx := by_ } }

/-- A ring reset acts on the ring's commands: the rows of R109. `by_` is the context of a RING_RESET. -/
def startRingReset (s : State) (g : Nat) (by_ : Option Nat) : State :=
  let s1 := markResetting s g by_
  let s2 := dropKept s1 g
  (s2.ctxs.filter fun x => x.ringOf == some g && x.wait != .fixed).foldl
    (fun s x =>
      if !committed s x then abortCtx s x.c
      else if x.entry.cls = 7 then modCtx s x.c fun y => { y with stopping := true }
      else s) s2

/-- EN = 1 written to ARING_CTRL (R82); an enabled ring stays as it is. -/
def aringEnable (s : State) (fn : Nat) : State :=
  match getFn s fn with
  | none => s
  | some f =>
    if fnFunc fn ≠ 0 ∨ aringResetting s fn then s
    else if f.aringEn then modFn s fn fun f => { f with aringCfgErr := false }
    else
      let c := f.aringCfg.toNat
      if 4 ≤ bits c 3 0 ∧ bits c 3 0 ≤ 12 ∧ 4 ≤ bits c 7 4 ∧ bits c 7 4 ≤ 12 ∧ bits c 26 16 < f.vectors then
        modFn s fn fun f => { f with aringEn := true, aringCfgErr := false, aringReadyAt := some (s.beat + 2) }
      else modFn s fn fun f => { f with aringEn := false, aringCfgErr := true }

/-- The reset of R83, if the ring is ACTIVE. -/
def aringReset (s : State) (fn : Nat) : State :=
  match getLocal s fn 0 with
  | none => s
  | some r => if fnFunc fn = 0 ∧ r.st = .active then startRingReset s r.g none else s

/-- EN = 0 written: the reset, then the release of the pair (R83). -/
def aringDisable (s : State) (fn : Nat) : State :=
  match getFn s fn with
  | none => s
  | some f =>
    if fnFunc fn ≠ 0 ∨ !f.aringEn ∨ aringResetting s fn then s
    else
      let s1 := modFn s fn fun f => { f with aringEn := false, aringReadyAt := none }
      match getLocal s fn 0 with
      | none => s1
      | some r => startRingReset (modFn s1 fn fun f => { f with aringRelease := true }) r.g none

/-- ARING_READY: a valid enable makes the admin ring ACTIVE, once the module has reached Noon (R82) and no reset of the function runs
(R111). -/
def execAringReady (fn : Nat) (s : State) : Host.Outcome State Fault Refusal :=
  .next (match getFn s fn with
    | none => s
    | some f =>
      if f.aringReadyAt.isNone ∨ s.day.day = .dawn ∨ s.day.fatal ∨ f.resetting then s
      else
        let c := f.aringCfg.toNat
        let r : Ring :=
          { Ring.fresh (fnLink fn) fn 0 with
            admin := true, hold := bit c 8, nosnoopOk := bit c 10, sqBase := f.aringSq, cqBase := f.aringCq,
            sqLog2 := bits c 3 0, cqLog2 := bits c 7 4, vector := bits c 26 16 }
        addRing (modFn s fn fun f => { f with aringReadyAt := none }) r)

/-- ARING_ENABLE. -/
def execAringEnable (fn : Nat) (s : State) : Host.Outcome State Fault Refusal :=
  .next (if bar0Dark s 0x1014 && (getFn s fn).isSome then darkAccess s fn 0x1014 true else aringEnable s fn)
/-- ARING_RESET: RESET = 1 while EN is 1. -/
def execAringReset (fn : Nat) (s : State) : Host.Outcome State Fault Refusal :=
  .next (if bar0Dark s 0x1014 && (getFn s fn).isSome then darkAccess s fn 0x1014 true
    else if ((getFn s fn).map HostFn.aringEn).getD false then aringReset s fn else s)
/-- ARING_DISABLE. -/
def execAringDisable (fn : Nat) (s : State) : Host.Outcome State Fault Refusal :=
  .next (if bar0Dark s 0x1014 && (getFn s fn).isSome then darkAccess s fn 0x1014 true else aringDisable s fn)

/-- ARING_CTRL written with a value: EN = 0 disables; RESET = 1 with EN = 1 resets; else EN = 1 enables. -/
def aringCtrl (s : State) (fn : Nat) (v : BitVec 32) : State :=
  match getFn s fn with
  | none => s
  | some f =>
    if aringResetting s fn then s
    else if !v.getLsbD 0 then aringDisable s fn
    else if v.getLsbD 1 && f.aringEn then aringReset s fn
    else aringEnable s fn

/-! ### MSI-X (R353) -/

/-- Send what is pending on a vector, if it and its function are unmasked, the function can write and no reset of it runs (R111). -/
def msixDrain (s : State) (n v : Nat) : State :=
  match getFn s n with
  | none => s
  | some f =>
    if f.msixEnable && f.pba.contains v && !f.msixMask && !(f.msix v).masked && f.writable && !f.resetting then
      emit (modFn s n fun f => { f with pba := f.pba.filter (· != v) }) (.msix n v (f.msix v).addr (f.msix v).data)
    else s

/-- Every pending vector of a function. -/
def msixDrainAll (s : State) (n : Nat) : State :=
  match getFn s n with
  | none => s
  | some f => f.pba.foldl (fun s v => msixDrain s n v) s

/-- MSIX_UNMASK: a vector, or the function, is unmasked. -/
def execMsixUnmask (fn : Nat) (vec : Option Nat) (s : State) : Host.Outcome State Fault Refusal :=
  .next (match vec with
    | some v =>
      match getFn s fn with
      | none => s
      | some f => if v < f.vectors then
          msixDrain (modFn s fn fun f => { f with msixTable := Assoc.set f.msixTable v { f.msix v with masked := false } }) fn v
        else s
    | none => msixDrainAll (modFn s fn fun f => { f with msixEnable := true, msixMask := false }) fn)

/-- A dword of a table entry is written. -/
def msixWrite (s : State) (n v part : Nat) (val : BitVec 32) : State :=
  match getFn s n with
  | none => s
  | some f =>
    if f.vectors ≤ v then s else
    let e := f.msix v
    let e' : MsixEntry := match part with
      | 0 => { e with addr := (e.addr.extractLsb' 32 32) ++ val }
      | 1 => { e with addr := val ++ (e.addr.extractLsb' 0 32) }
      | 2 => { e with data := val }
      | _ => { e with masked := val.getLsbD 0 }
    msixDrain (modFn s n fun f => { f with msixTable := Assoc.set f.msixTable v e' }) n v

/-! ### Reading (R9, R21, R25, R355) -/

/-- The dword at an aligned offset of BAR0. -/
def readDword (s : State) (f : HostFn) (o : Nat) : Nat :=
  let pf := fnFunc f.n == 0
  if o < 0x1000 then
    match o with
    | 0x0 => 0x5A484D53
    | 0x4 => 0x005A9160
    | 0x8 => idStep
    | 0xC => min 1024 (fnLimit s f.n) + 16 * 2 ^ 16
    | 0x10 => diesFound s + octsFound s * 2 ^ 16
    | 0x18 => Config.serial.toNat % 2 ^ 32
    | 0x1C => Config.serial.toNat / 2 ^ 32
    | 0x20 => (imageOf s s.nor.active).version.toNat
    | 0x24 => fnFunc f.n + fnLink f.n * 2 ^ 8
    | 0x100 => gstat s f
    | 0x104 => f.gevent.toNat
    | 0x108 => f.cfgMask.toNat + f.cfgVector.toNat * 2 ^ 16
    | 0x10C => f.darkOffset.toNat + b2n f.darkWrite * 2 ^ 23 + f.darkCount * 2 ^ 24
    | 0x110 => if pf then s.beat % 2 ^ 32 else 0
    | 0x114 => if pf then s.beat / 2 ^ 32 % 2 ^ 16 else 0
    | _ => 0
  else if o < 0x2000 then
    if !pf then 0 else
    match o with
    | 0x1000 => f.aringSq.toNat % 2 ^ 32
    | 0x1004 => f.aringSq.toNat / 2 ^ 32
    | 0x1008 => f.aringCq.toNat % 2 ^ 32
    | 0x100C => f.aringCq.toNat / 2 ^ 32
    | 0x1010 => f.aringCfg.toNat
    | 0x1014 => b2n f.aringEn
    | 0x1018 => b2n (aringRdy s f) + 2 * b2n (aringResetting s f.n) + 4 * b2n f.aringCfgErr
    | _ => 0
  else if 0x100000 ≤ o ∧ o < 0x500000 then
    let loc := (o - 0x100000) / 0x1000
    if fnLimit s f.n ≤ loc then 0 else
    let r := getLocal s f.n loc
    match o % 0x1000 with
    | 0x0 => (r.map Ring.sqTail).getD 0
    | 0x4 =>
      (match r with
       | some r => (if r.st = .active then 1 else 2) + 32 * b2n r.held.isSome
       | none => 0) + 16 * b2n (f.dbErr.contains loc)
    | 0x800 => (r.map Ring.cqHead).getD 0
    | _ => 0
  else if 0x600000 ≤ o ∧ o < 0x700000 then
    let v := (o - 0x600000) / 16
    if f.vectors ≤ v then 0 else
    match o % 16 / 4 with
    | 0 => (f.msix v).addr.toNat % 2 ^ 32
    | 1 => (f.msix v).addr.toNat / 2 ^ 32
    | 2 => (f.msix v).data.toNat
    | _ => b2n (f.msix v).masked
  else if 0x700000 ≤ o ∧ o < 0x800000 then
    packFields 1 32 fun i => b2n (f.pba.contains ((o - 0x700000) * 8 + i))
  else 0

/-- Low halves of the 64-bit registers (R9). -/
def lowHalf (o : Nat) : Bool := o == 0x18 || o == 0x110 || o == 0x1000 || o == 0x1008

/-- Read one dword for a function: dark regions answer all ones, a low half latches its high half, a
high half answers what was latched. -/
def hostRead (s : State) (n o : Nat) : Nat × State :=
  match getFn s n with
  | none => (0xFFFFFFFF, s)
  | some f =>
    if bar0Dark s o then (0xFFFFFFFF, darkAccess s n o false)
    else if lowHalf o then
      (readDword s f o, modFn s n fun f => { f with hiLatch := Assoc.set f.hiLatch o (BitVec.ofNat 32 (readDword s f (o + 4))) })
    else if 4 ≤ o ∧ lowHalf (o - 4) then
      match Assoc.get f.hiLatch (o - 4) with
      | some v => (v.toNat, modFn s n fun f => { f with hiLatch := Assoc.del f.hiLatch (o - 4) })
      | none => (readDword s f o, s)
    else (readDword s f o, s)

/-- Read k dwords from an aligned offset, their values from bit 0 up. -/
def hostReads (n : Nat) : Nat → Nat → State → Nat × State
  | _, 0, s => (0, s)
  | o, k + 1, s =>
    let (v, s1) := hostRead s n o
    let (r, s2) := hostReads n (o + 4) k s1
    (v + r * 2 ^ 32, s2)

/-- LATCHING_READ: a host read of `bytes` bytes at `offset`, dword by dword; the addressed bytes are
returned. -/
def execLatchingRead (fn offset bytes : Nat) (s : State) : Host.Outcome State Fault Refusal :=
  if 0x800000 < offset + bytes then .fault (.outsideBar offset)
  else .next (if (getFn s fn).isNone || bytes == 0 || decide (8 < bytes) then s else
    let o0 := offset / 4 * 4
    let (v, s1) := hostReads fn o0 (ceilDiv (offset + bytes - o0) 4) s
    emit s1 (.regRead fn (BitVec.ofNat 64 (v / 2 ^ (8 * (offset - o0)) % 2 ^ (8 * bytes)))))

/-! ### Writing (R8, R9, R81, R355) -/

/-- Set a 64-bit base of the admin ring once both halves are there. A high half written with no low half held leaves the register's low half
as it was (DESIGN CHOICE, log entry 28: R9 is silent). -/
def baseWrite (s : State) (n o : Nat) (v : BitVec 32) : State :=
  match getFn s n with
  | none => s
  | some f =>
    if f.aringEn ∨ aringResetting s n then s
    else if lowHalf o then modFn s n fun f => { f with loHold := Assoc.set f.loHold o (v &&& 0xFFFFF000) }
    else
      let old := if o = 0x1004 then f.aringSq else f.aringCq
      let lo := (Assoc.get f.loHold (o - 4)).getD (old.setWidth 32)
      let full := v ++ lo
      modFn s n fun f =>
        { f with loHold := Assoc.del f.loHold (o - 4)
                 aringSq := if o = 0x1004 then full else f.aringSq
                 aringCq := if o = 0x1004 then f.aringCq else full }

/-- A 32-bit host write to an aligned offset of BAR0. -/
def hostWrite (s : State) (n o : Nat) (v : BitVec 32) : State :=
  match getFn s n with
  | none => s
  | some f =>
    let pf := fnFunc n == 0
    if bar0Dark s o then darkAccess s n o true
    else if o < 0x1000 then
      if o = 0x104 then geventClear s n v else if o = 0x108 then geventCfg s n v else s
    else if o < 0x2000 then
      if !pf then s
      else if o < 0x1010 then baseWrite s n o v
      else if o = 0x1010 then
        if f.aringEn ∨ aringResetting s n then s else modFn s n fun f => { f with aringCfg := v &&& 0x07FF05FF }
      else if o = 0x1014 then aringCtrl s n v
      else s
    else if 0x100000 ≤ o ∧ o < 0x500000 then
      let loc := (o - 0x100000) / 0x1000
      match o % 0x1000 with
      | 0x0 => sqTailWrite s n loc v
      | 0x4 => rstatWrite s n loc v
      | 0x800 => cqHeadWrite s n loc v
      | _ => s
    else if 0x600000 ≤ o ∧ o < 0x700000 then msixWrite s n ((o - 0x600000) / 16) (o % 16 / 4) v
    else s

/-- Write the dwords that a host write covers whole, in ascending order; a partial one is dropped. -/
def hostWrites (n : Nat) : Nat → Nat → Nat → State → State
  | _, _, 0, s => s
  | o, v, k + 1, s => hostWrites n (o + 4) (v / 2 ^ 32) k (hostWrite s n o (BitVec.ofNat 32 v))

/-- A host write of `bytes` bytes at `offset`. A dark dword written in part is still a dark access. -/
def barWrite (s : State) (fn offset bytes : Nat) (value : BitVec 64) : State :=
  if (getFn s fn).isNone || bytes == 0 || decide (8 < bytes) then s else
  let a := ceilDiv offset 4 * 4
  let b := (offset + bytes) / 4 * 4
  let s1 := if offset % 4 ≠ 0 ∧ bar0Dark s (offset / 4 * 4) then darkAccess s fn (offset / 4 * 4) true else s
  let s2 := hostWrites fn a (value.toNat % 2 ^ (8 * bytes) / 2 ^ (8 * (a - offset))) ((b - a) / 4) s1
  if (offset + bytes) % 4 ≠ 0 ∧ a ≤ b ∧ bar0Dark s2 b then darkAccess s2 fn b true else s2

/-! ### Coalescing (R99) -/

/-- COALESCE_CHECK: the rule at the end of the beat. -/
def execCoalesceCheck (g : Nat) (s : State) : Host.Outcome State Fault Refusal := .next (coalesce s g)

end Sys2Proof.Machine
end

