-- ==== Sys2Proof/Machine/Verify.lean ====
section
/-! DEFINITION. The static verifier (R139), images (R130, R133) and the slots a program reaches (R134). -/

namespace Sys2Proof.Machine

/-- An image of bytes: the declaration block and the words after it. -/
def codeOfBytes (bs : List Byte) : Code :=
  { decl := bs.take 64, words := (List.range ((bs.length - 64) / 4)).map fun k => BitVec.ofNat 32 (field bs (64 + 4 * k) 4) }

/-- DMODE of an image. -/
def Code.dmode (c : Code) : Nat := declField c 5 1
/-- RDMAX. -/
def Code.rdmax (c : Code) : Nat := declField c 8 4
/-- WRMAX. -/
def Code.wrmax (c : Code) : Nat := declField c 12 4
/-- STRKIB. -/
def Code.strkib (c : Code) : Nat := declField c 16 4
/-- BUDGET. -/
def Code.budget (c : Code) : Nat := declField c 20 4
/-- SLABKIB. -/
def Code.slabkib (c : Code) : Nat := declField c 24 4

/-- Check 1: the declaration block. -/
def declOk (c : Code) : Bool :=
  declField c 0 4 == 0x3149435A && declField c 4 1 == 1 && decide (c.dmode < 16) && declField c 6 2 == 0 &&
  (c.decl.drop 28).all (· == 0) && c.slabkib % 4 == 0 &&
  (bit c.dmode 0 || c.rdmax == 0) && (bit c.dmode 1 || c.wrmax == 0)

/-- What the verifier verifies against: the slot an image is loaded into, whether its privilege is
admin, whether RAW is permitted, the budget limit, whether an ADMIN declaration is refused. -/
structure VerifyEnv where
  own : Option Nat
  admin : Bool
  raw : Bool
  limit : Option Nat
  noAdminDecl : Bool
  deriving DecidableEq, Repr

/-- Whether a branch target lies in the program. -/
def targetOk (n k : Nat) (off : Int) : Bool := decide (0 ≤ (k : Int) + off) && decide ((k : Int) + off < n)

/-- Checks 4 to 10 of instruction k: the fault of the first that fails. -/
def verifyWord (s : State) (v : VerifyEnv) (c : Code) (k : Nat) (w : BitVec 32) : Option Nat :=
  let op := zOp w
  let slot := zImm w % 4096
  if !zDefined op then some 0x01
  else if !zReservedOk w then some 0x02
  else if (zAdmin op && !v.admin) || (op == 0x3A && !v.raw) then some 0x07
  else if (op == 0x14 && !targetOk c.words.length k (sext 23 (zOff w))) ||
      (op == 0x17 && !targetOk c.words.length k (sext 15 (zImm w))) then some 0x03
  else if op == 0x15 && (getLib s slot).isNone && v.own != some slot then some 0x0B
  else if op == 0x15 && !v.admin && ((getLib s slot).map fun l => bit l.code.dmode 2).getD false then some 0x07
  else if op == 0x38 && !bit c.dmode 3 then some 0x02
  else none

/-- The first failing instruction from index k on. -/
def verifyWords (s : State) (v : VerifyEnv) (c : Code) : Nat → List (BitVec 32) → Option (Nat × Nat)
  | _, [] => none
  | k, w :: ws => match verifyWord s v c k w with
    | some f => some (f, k)
    | none => verifyWords s v c (k + 1) ws

/-- The verifier: the first failure with its instruction index, 0xFFFF for the declaration block. -/
def verify (s : State) (v : VerifyEnv) (c : Code) : Option (Nat × Nat) :=
  if !declOk c then some (0x02, 0xFFFF)
  else if (match v.limit with
    | some n => decide (n < c.budget)
    | none => false) then some (0x06, 0xFFFF)
  else if v.noAdminDecl && bit c.dmode 2 then some (0x07, 0xFFFF)
  else verifyWords s v c 0 c.words

/-- The result word of R142. -/
def verifyResult (slot index : Nat) : BitVec 64 := BitVec.ofNat 64 (index + slot * 2 ^ 16)

/-- Whether RAW may run (R129): BENCH with BENCHCLOSE unblown. -/
def rawAllowed (s : State) : Bool := s.sec.life == .bench && !s.sec.benchClose

/-- The CALL targets of code with their indices, in index order. -/
def callsOf (c : Code) : List (Nat × Nat) :=
  (c.words.zipIdx.filter fun w => zOp w.1 == 0x15).map fun w => (w.2, zImm w.1 % 4096)

/-- The slots reached breadth first from a queue of codes, each examined once: the first CALL of an
empty slot as (slot of the caller, index), or the slots reached (R134). `fuel` bounds the slots. -/
def reachFrom (s : State) : Nat → List (Nat × Code) → List Nat → (Nat × Nat) ⊕ List Nat
  | 0, _, seen => .inr seen
  | _, [], seen => .inr seen
  | fuel + 1, (p, c) :: q, seen =>
    match (callsOf c).find? fun t => (getLib s t.2).isNone with
    | some t => .inl (p, t.1)
    | none =>
      let new := ((callsOf c).map Prod.snd).foldl (fun l t => if l.contains t || seen.contains t then l else l ++ [t]) []
      reachFrom s fuel (q ++ new.filterMap fun t => (getLib s t).map fun l => (t, l.code)) (seen ++ new)

end Sys2Proof.Machine
end

