-- ==== Sys2Proof/Machine/Direct.lean ====
section
/-! DEFINITION. The resident parisons of the direct ops, the start of a program, and the admin ops on
settings, rings, the library and the log pages. -/

namespace Sys2Proof.Machine

/-- A resident parison's step: the context runs that op, is not stopped, and no earlier command stands
in its way. -/
def resident (s : State) (c typ op : Nat) (f : State → Ctx → State) : State :=
  match getCtx s c with
  | none => s
  | some x =>
    if x.wait == .resident && x.entry.typ.toNat == typ && x.entry.op.toNat == op && !x.stopping && !effBlocked s x then f s x
    else s

/-! ### Direct ops (R45 to R53, R90) -/

/-- Pin and start the reads of a context's whole range. -/
def beginReads (s : State) (x : Ctx) : State :=
  let rs := startReads s x x.entry.lba.toNat x.entry.length.toNat
  let s1 := modCtx s x.c fun y => { y with reads := rs }
  match ctxNs s x with
  | some ns => registerDeep s1 ns rs
  | none => s1

/-- The sticky state of a direct op's reads: a non-zero TAG is compared with the stored low word (R90). -/
def directSticky (x : Ctx) : Sticky :=
  let t := x.entry.tag
  let tag := if t = 0 then none else some (t.setWidth 64)
  x.reads.foldl (fun k r => k.note x.entry.lba.toNat tag { r with tag := (r.tag.setWidth 32).setWidth 64 }) x.sticky

/-- Write the delivered ones of a context's first k granules to the host. -/
def deliverReads (s : State) (x : Ctx) (k : Nat) : State :=
  let g := gran s x
  (x.reads.take k).zipIdx.foldl (fun s r => if r.1.delivered then hostOut s x (r.2 * g) (Mem.readN r.1.bytes 0 g) else s) s

/-- READ: pins its places where an earlier command kept it from doing so at its decision; starts its host
transfer once every granule is terminal; then delivers and posts. Host bytes of an undelivered granule are
not written (R60 leaves them undefined). -/
def directRead (s : State) (x : Ctx) : State :=
  let g := gran s x
  if x.reads.isEmpty then beginReads s x
  else if !readsDone x then s
  else
    let k := (x.reads.filter GranRead.delivered).length
    if k = 0 then residentPost (modCtx s x.c fun y => { y with sticky := directSticky x }) x.c St.ok 0 0
    else if x.snap = 0 then
      beginTransfer (commitNow (modCtx s x.c fun y => { y with snap := 1 }) x.c) x true 0 (x.entry.length.toNat * g)
    else if !hostReach s x then s
    else
      let s2 := endTransfer (deliverReads s x x.reads.length) x.c true (k * g)
      residentPost (modCtx s2 x.c fun y => { y with sticky := directSticky x, hostWrites := k }) x.c St.ok 0 0

/-- READ. -/
def execRead (c : Nat) (s : State) : Host.Outcome State Fault Refusal := .next (resident s c 1 0x01 directRead)

/-- WRITE: the host data arrives granule by granule, the granules enter gather slots in order, and the command posts
after the last. A stop or a loss between leaves the later ones as they were, unless the entry is ATOM (R3, R49, R548).
`snap` is 0 before the transfer starts, then 1 more than the granules entered. -/
def directWrite (bytes : List Byte) (s : State) (x : Ctx) : State :=
  match ctxNs s x with
  | none => s
  | some ns =>
    let n := x.entry.length.toNat
    let from_ := x.snap - 1
    let k := bytes.length / ns.granule
    let s0 := if x.snap = 0 then beginTransfer (modCtx s x.c fun y => { y with snap := 1 }) x false 0 (n * ns.granule) else s
    if !hostReach s x ∨ k = 0 ∨ bytes.length % ns.granule ≠ 0 ∨ n < from_ + k ∨ !gatherTakes s x k then s0
    else
      let s1 := putGranules (commitNow s0 x.c) x.c ns x.entry.atom (x.entry.lba.toNat + from_) k (x.entry.tag.setWidth 64) (Mem.ofList bytes) 0
      if from_ + k < n then modCtx s1 x.c fun y => { y with snap := 1 + from_ + k }
      else residentPost (endTransfer s1 x.c false (n * ns.granule)) x.c St.ok 0 0

/-- WRITE. -/
def execWrite (c : Nat) (bytes : List Byte) (s : State) : Host.Outcome State Fault Refusal :=
  .next (resident s c 1 0x02 (directWrite bytes))

/-- FLUSH: every write completed before it is in armed gather slots or on media already (R53). -/
def execFlush (c : Nat) (s : State) : Host.Outcome State Fault Refusal :=
  .next (resident s c 1 0x03 fun s x => residentPost s x.c St.ok 0 0)

/-- TRIM and ZERO: the range becomes unmapped, in the atom group of an ATOM entry. -/
def directUnmap (s : State) (x : Ctx) : State :=
  match ctxNs s x with
  | none => s
  | some ns =>
    let s1 := commitNow s x.c
    let a := x.entry.lba.toNat
    let n := x.entry.length.toNat
    let s2 := if x.entry.atom then modCtx s1 x.c fun y => { y with atom := y.atom ++ [.unmap a n] }
      else awaitMirror s1 (unmapRange s1 ns a n) x.c
    residentPost s2 x.c St.ok 0 0

/-- TRIM. -/
def execTrim (c : Nat) (s : State) : Host.Outcome State Fault Refusal := .next (resident s c 1 0x04 directUnmap)
/-- ZERO. -/
def execZero (c : Nat) (s : State) : Host.Outcome State Fault Refusal := .next (resident s c 1 0x05 directUnmap)

/-- The offset of the first delivered granule that differs from the host's bytes. -/
def firstDiff (g : Nat) (host : List Host.Cell) (reads : List GranRead) : Option Nat :=
  (reads.zipIdx.find? fun r => r.1.delivered && r.1.bytes != Mem.slice host (r.2 * g) g 0).map Prod.snd

/-- COMPARE: media statuses and a tag mismatch come before COMPARE_MISMATCH (R90). -/
def directCompare (bytes : List Byte) (s : State) (x : Ctx) : State :=
  let g := gran s x
  let n := x.entry.length.toNat * g
  if x.reads.isEmpty then beginReads s x
  else if !hostReach s x ∨ bytes.length ≠ n then
    if x.snap = 0 then beginTransfer (modCtx s x.c fun y => { y with snap := 1 }) x false 0 n else s
  else if !readsDone x then s
  else
    let k := directSticky x
    let s1 := endTransfer (modCtx s x.c fun y => { y with sticky := k }) x.c false n
    match firstDiff g (Mem.ofList bytes) x.reads with
    | some i => if 2 ≤ k.rank then residentPost s1 x.c St.ok 0 0 else residentPost s1 x.c St.compareMismatch 0 (BitVec.ofNat 64 i)
    | none => residentPost s1 x.c St.ok 0 0

/-- COMPARE. -/
def execCompare (c : Nat) (bytes : List Byte) (s : State) : Host.Outcome State Fault Refusal :=
  .next (resident s c 1 0x06 (directCompare bytes))

/-- VERIFY: as READ without the transfer. -/
def execVerify (c : Nat) (s : State) : Host.Outcome State Fault Refusal :=
  .next (resident s c 1 0x07 fun s x =>
    if x.reads.isEmpty then beginReads s x
    else if !readsDone x then s
    else residentPost (modCtx s x.c fun y => { y with sticky := directSticky x }) x.c St.ok 0 0)

/-! ### Log pages (R367) -/

/-- HOST_LINK_INFO_l. -/
def linkInfo (l : HostLink) : Nat :=
  l.st + 4 * l.rate + 32 * l.width + 1024 * b2n l.flit + 2048 * b2n l.sris + 4096 * l.numVfs + 2 ^ 18 * b2n l.vfEnable

/-- A log page's bytes; none for a page not listed. -/
def logPage (s : State) : Nat → Option (List Byte)
  | 1 => some (padTo 64 (if s.day.wasFatal then
      leBytes 1 s.day.fcause ++ leBytes 1 0 ++ leBytes 2 s.day.fdetail ++ leBytes 4 0 ++ leBytes 6 s.day.fatalBeat else []))
  | 2 => some (padTo 131072 (s.side.events.flatMap fun e =>
      leBytes 6 e.beat ++ leBytes 1 e.code ++ leBytes 1 (e.detail.toNat % 256) ++ leBytes 4 (e.detail.toNat / 256) ++ leBytes 20 0))
  | 3 => some (padTo 1048576 (s.care.retireLog.flatMap fun r =>
      leBytes 2 r.die ++ leBytes 2 r.block ++ leBytes 1 r.cause ++ leBytes 3 0 ++ leBytes 4 r.pe ++ leBytes 4 (r.beat / 2 ^ 16)))
  | 4 => some ((List.range 6).flatMap fun i =>
      let l := getLink s i
      padTo 64 (leBytes 4 (linkInfo l) ++ leBytes 8 l.downs ++ leBytes 8 l.aerCorr ++ leBytes 8 l.aerUncorr))
  | _ => none

/-! ### Stops (R548) -/

/-- Bytes of a host transfer of n bytes that a stop lets move: what has moved by the bookings left, up to the next granule boundary
(R548). -/
def movedBytes (s : State) (x : Ctx) (n : Nat) : Nat :=
  let all := writeBytes s x n
  let left := if x.entry.isProg then x.left else
    sum ((s.plan.near.filter fun k => k.res == .hostOut (fnLink x.fn) && k.owner == x.adm && decide (s.beat < k.beat)).map Booking.amount)
  min n (ceilDiv (n * (all - min left all) / max all 1) (gran s x) * gran s x)

/-- What an admin op's transfer in progress carries to the host: a log page's bytes, the evidence of an attestation; nothing for others. -/
def adminOut (s : State) (x : Ctx) : List Byte :=
  if x.entry.typ == 4 && x.entry.op == 0x95 && x.snap == 1 then padTo (dBytes x) (((logPage s (x.entry.a0.toNat % 256)).getD []).drop x.entry.a1.toNat)
  else if x.entry.typ == 4 && x.entry.op == 0x8E && x.snap == 2 then padTo 4020 (x.aux.flatMap fun w => leBytes 8 w.toNat)
  else []

/-- A transfer to the host in progress ends at its next granule boundary, an admin op's at its next 4 KiB: what it has moved by then is
written, and counted (R548, R343). -/
def stopTransfer (s : State) (x : Ctx) : State :=
  if !hostReach s x then s
  else if x.wait == .instr && zOp x.word == 0x21 then
    let k := movedBytes s x (gb x x.word)
    endTransfer (hostOut s x (gd x x.word) ((hread x (zH x.word) (ga x x.word) (gb x x.word)).take k)) x.c true k
  else if x.wait == .resident && x.entry.typ == 1 && x.entry.op == 1 && x.snap == 1 then
    let k := movedBytes s x (x.reads.length * gran s x) / gran s x
    endTransfer (deliverReads s x k) x.c true (((x.reads.take k).filter GranRead.delivered).length * gran s x)
  else if x.wait == .resident && !(adminOut s x).isEmpty then
    let k := movedBytes s x (adminOut s x).length
    endTransfer (hostOut s x 0 ((adminOut s x).take k)) x.c true k
  else s

/-- COMMAND_STOP: a stopped command is at its boundary (R548). An NV SET already begun retires; a DOZE's
request is withdrawn; the command ends with its internal status. An NV SET with a step of its own ends after that step. -/
def execCommandStop (c : Nat) (s : State) : Host.Outcome State Fault Refusal :=
  .next (match getCtx s c with
    | none => s
    | some x =>
      let a := setArgs x
      let nvSet := settingNv a.1 && (if x.entry.isProg then x.wait == .instr && zOp x.word == 0x34
        else x.wait == .resident && x.entry.typ == 4 && x.entry.op == 0x87 && x.snap == 1)
      if !x.stopping || (nvSet && specialSet a.1) then s else
      let s1 := if nvSet then applySet s a.1 a.2 else s
      let s2 := s1.updDay fun d => { d with pendReq := match d.pendReq with
        | some (t, k) => if k = c then none else some (t, k)
        | none => none }
      let s3 := dropDescs (stopTransfer s2 x) c
      endWith (modCtx s3 c fun y => { y with wait := if y.wait = .fixed then .posting else y.wait }) c St.ringReset 0 0)

/-! ### Programs start (R121, R549) -/

/-- A program's context becomes ready at its first instruction. -/
def startProgram (s : State) (c typ : Nat) : State :=
  match getCtx s c with
  | none => s
  | some x => if x.wait == .resident && x.entry.typ.toNat == typ && !x.stopping && !effBlocked s x then
      modCtx s c fun y => { y with wait := .ready } else s

/-- LIBRARY_PROGRAM. -/
def execLibraryProgram (c : Nat) (s : State) : Host.Outcome State Fault Refusal := .next (startProgram s c 2)
/-- HOST_MEMORY_PROGRAM. -/
def execHostMemoryProgram (c : Nat) (s : State) : Host.Outcome State Fault Refusal := .next (startProgram s c 3)

/-! ### Settings (R27, R28) -/

/-- GET_SETTING. -/
def execGetSetting (c : Nat) (s : State) : Host.Outcome State Fault Refusal :=
  .next (resident s c 4 0x86 fun s x =>
    let id := x.entry.a0.toNat % 2 ^ 32
    match accessCheck s id none with
    | some (st, d) => residentPost s c st d 0
    | none => residentPost s c St.ok 0 (readSetting s id))

/-- SET_SETTING: fails under R27; is left to its setting's own command; waits for its entry to be
durable; or takes effect. -/
def execSetSetting (c : Nat) (s : State) : Host.Outcome State Fault Refusal :=
  .next (resident s c 4 0x87 fun s x =>
    let id := x.entry.a0.toNat % 2 ^ 32
    let v := x.entry.a1
    if x.snap = 0 then
      match accessCheck s id (some v) with
      | some (st, d) => residentPost s c st d 0
      | none =>
        if specialSet id && !settingNv id then modCtx s c fun y => { y with snap := 1 }
        else if settingNv id then settingAppend (modCtx s c fun y => { y with snap := 1 }) id v
        else residentPost (applySet s id v) c St.ok 0 0
    else if specialSet id || settingWriting s id then s
    else residentPost (applySet s id v) c St.ok 0 0)

/-! ### Rings (R84, R85, R105, R110) -/

/-- Local ring, FUNC and CID of an LBA selector. -/
def selLocal (e : Entry) : Nat := bits e.lba.toNat 9 0
/-- FUNC. -/
def selFunc (e : Entry) : Nat := bits e.lba.toNat 23 16
/-- CID. -/
def selCid (e : Entry) : Nat := bits e.lba.toNat 47 32
/-- The function an admin op names: FUNC on the issuing PF's link. -/
def selFn (x : Ctx) : Nat := 64 * fnLink x.fn + selFunc x.entry

/-- RING_CREATE: the lowest free pair of the pool. -/
def execRingCreate (c : Nat) (s : State) : Host.Outcome State Fault Refusal :=
  .next (resident s c 4 0x80 fun s x =>
    match lowest (fun g => (getRing s g).isNone) 6 1018 with
    | none => s
    | some g =>
      let v := x.entry.a2.toNat
      let r : Ring :=
        { Ring.fresh g (selFn x) (selLocal x.entry) with
          admin := bit v 11, hold := bit v 10, nosnoopOk := bit v 12, sqBase := x.entry.a0, cqBase := x.entry.a1,
          sqLog2 := bits v 4 0, cqLog2 := bits v 9 5, vector := bits v 39 29, coalCount := bits v 47 40,
          coalBeats := bits v 63 48, weight := bits v 20 13, fetch := bits v 28 21 }
      residentPost (addRing s r) c St.ok 0 (BitVec.ofNat 64 g))

/-- Whether a ring still has commands that are not terminal, or undecided fetched entries. -/
def ringBusy (s : State) (g : Nat) : Bool :=
  (s.ctxs.any fun x => x.ringOf == some g && x.wait != .fixed) || (s.plan.fetching.any fun f => f.ring == g) || s.plan.fetched.any fun f => f.ring == g

/-- RING_DELETE: the pair is freed, once the entries it had fetched are decided and ended (R109). -/
def execRingDelete (c : Nat) (s : State) : Host.Outcome State Fault Refusal :=
  .next (resident s c 4 0x81 fun s x =>
    match getLocal s (selFn x) (selLocal x.entry) with
    | some r => if ringBusy s r.g then s else residentPost (freeRing s r.g) c St.ok 0 0
    | none => residentPost s c St.ok 0 0)

/-- RING_RESET: the commands of the ring, RESETTING since the admission, end or run on; the command waits for their end. -/
def execRingReset (c : Nat) (s : State) : Host.Outcome State Fault Refusal :=
  .next (resident s c 4 0x82 fun s x =>
    match getLocal s (selFn x) (selLocal x.entry) with
    | none => s
    | some r => if x.snap = 0 then startRingReset (modCtx s c fun y => { y with snap := 1 }) r.g (some c) else s)

/-- Whether the reset of a ring has still to begin on its commands: its RING_RESET has not run. -/
def resetWaits (s : State) (k : RingReset) : Bool :=
  match k.byCtx.bind (getCtx s) with
  | some x => x.entry.typ == 4 && (x.entry.op == 0x81 || (x.entry.op == 0x82 && x.snap == 0))
  | none => false

/-- The terminal commands of a ring being reset that the order still keeps from their end count with those withheld now, and are
posted nowhere (R102, R110). -/
def withholdFixed (s : State) (g : Nat) : State :=
  (s.ctxs.filter fun x => x.ringOf == some g && x.wait == .fixed && !x.withheld).foldl (fun s x =>
    modCtx (modRing s g fun r => { r with rst := r.rst.map fun k => k.count x.status }) x.c fun y => { y with withheld := true }) s

/-- RING_RESET_COMPLETE: indices and doorbells zero, PHASE 1 next, ACTIVE, or released by a disable; the
RING_RESET completes with its counts (R110, R83). -/
def execRingResetComplete (g : Nat) (s : State) : Host.Outcome State Fault Refusal :=
  .next (match getRing s g with
    | none => s
    | some r => match r.rst with
      | none => s
      | some k =>
        if ringBusy s g || resetWaits s k then s else
        let s := withholdFixed s g
        let k := ((getRing s g).bind Ring.rst).getD k
        let rel := r.loc == 0 && ((getFn s r.fn).map HostFn.aringRelease).getD false && fnFunc r.fn == 0
        let s1 := modRing s g fun r =>
          { r with st := .active, sqHead := 0, sqTail := 0, sqVisible := 0, cqTail := 0, cqHead := 0, cqCredit := 0,
                   phase := true, rst := none, held := none }
        let s2 := s1.updPlan fun p => { p with ringResets := satAdd p.ringResets 1 }
        let s3 := if rel then freeRing (modFn s2 r.fn fun f => { f with aringRelease := false }) g else s2
        match k.byCtx.bind (getCtx s) with
        | some x => if x.entry.typ == 4 && x.entry.op == 0x82 then residentPost s3 x.c St.ok 0 (resetWord k.withheld k.aborted k.ok) else s3
        | none => s3)

/-- The target of an ABORT: the oldest unended command with that CID on that ring that was admitted before it (R105). -/
def abortTarget (s : State) (x : Ctx) : Option Ctx :=
  match getLocal s (selFn x) (selLocal x.entry) with
  | none => none
  | some r => (s.ctxs.filter fun y => y.ringOf == some r.g && y.entry.cid.toNat == selCid x.entry && decide (y.adm < x.adm) &&
      y.wait != .fixed).foldl (fun m y => match m with
        | none => some y
        | some z => if y.adm < z.adm then some y else some z) none

/-- ABORT: too late once the target's commit beat has come. -/
def execAbort (c : Nat) (s : State) : Host.Outcome State Fault Refusal :=
  .next (match getCtx s c with
    | none => s
    | some x =>
      if x.wait == .resident && x.entry.typ == 4 && x.entry.op == 0x83 then
        match abortTarget s x with
        | none => residentPost s c St.abortNotFound 0 0
        | some y =>
          if committed s y then residentPost s c St.abortTooLate 0 0
          else residentPost (modCtx (abortNext (dropDescs s y.c) y.c) c fun z => { z with snap := y.c + 1 }) c St.ok 0 0
      else s)

/-! ### The library (R133, R134) -/

/-- The bytes of a loaded image: its declaration block and its instructions. -/
def codeBytes (c : Code) : List Byte := padTo 64 c.decl ++ c.words.flatMap fun w => leBytes 4 w.toNat

/-- The image slots of a library slot, each a 4 KiB piece (R487). -/
def imageSlots (s : State) (slot : Nat) (c : Code) : List SlotRec :=
  (List.range (ceilDiv (codeBytes c).length 4096)).map fun i =>
    { blankSlot .image with lba := BitVec.ofNat 64 (3 * 2 ^ 46 + slot * 2 ^ 32 + i), flags := 1, seq := s.xlat.seq - seqStep s, epoch := s.sec.sysEpoch
                            bytes := Mem.ofList (((codeBytes c).drop (4096 * i)).take 4096) }

/-- System slots that wait for a place. -/
def waitSys (s : State) (rs : List SlotRec) : State := s.updMedia fun m => { m with sysWait := m.sysWait ++ rs }

/-- LIB_LOAD: the verifier decides; a loaded image is also stored in the system area, its LIBDIR entry naming the SEQ of its slots
(R487). -/
def execLibLoad (c : Nat) (bytes : List Byte) (s : State) : Host.Outcome State Fault Refusal :=
  .next (resident s c 4 0x8A fun s x =>
    let n := dBytes x
    let data := hostIn x 0 n bytes
    if !hostInDone s x n bytes then
      if x.snap = 0 then beginTransfer (modCtx s c fun y => { y with snap := 1 }) x false 0 n else s
    else
      let slot := x.entry.a0.toNat
      let code := codeOfBytes data
      let s1 := endTransfer s c false n
      let env : VerifyEnv := { own := some slot, admin := bit code.dmode 2, raw := rawAllowed s, limit := some 4194304, noAdminDecl := false }
      match verify s env code with
      | some (f, i) =>
        residentPost (s1.updZci fun z => { z with verifyFails := satAdd z.verifyFails 1 }) c St.zciFault (BitVec.ofNat 8 f) (verifyResult slot i)
      | none =>
        let s2 := s1.updZci fun z => { z with lib := z.lib ++ [{ slot := slot, code := code, pins := 0 }], codeFree := z.codeFree - code.pages }
        let s3 := norAppend s2 0x08 slot (leBytes 2 slot ++ leBytes 2 code.words.length ++ leBytes 4 0 ++ leBytes 8 (s.xlat.seq - seqStep s))
        residentPost (waitSys s3 (imageSlots s slot code)) c St.ok 0 (BitVec.ofNat 64 code.words.length))

/-- Whether a loaded user image other than a slot's own calls it (R134). -/
def libCalled (s : State) (slot : Nat) : Bool :=
  s.zci.lib.any fun k => decide (256 ≤ k.slot) && k.slot != slot && (callsOf k.code).any fun t => t.2 == slot

/-- Whether a library slot is pinned. -/
def libPinned (s : State) (slot : Nat) : Bool := ((getLib s slot).map fun l => l.pins != 0).getD false

/-- LIB_UNLOAD: the slot is freed and its system-area copy retired. A slot that a program admitted since has pinned, or an image
loaded since calls, ends it with STATE detail 5 (DESIGN CHOICE, log entry 28: R134 tests both at the admission). -/
def execLibUnload (c : Nat) (s : State) : Host.Outcome State Fault Refusal :=
  .next (resident s c 4 0x8B fun s x =>
    let slot := x.entry.a0.toNat
    if libPinned s slot || libCalled s slot then residentPost s c St.state 5 0
    else
      let s1 := s.updZci fun z =>
        { z with lib := z.lib.filter fun l => l.slot != slot, codeFree := z.codeFree + (((getLib s slot).map fun l => l.code.pages).getD 0) }
      residentPost (norRetire s1 0x08 slot) c St.ok 0 0)

/-! ### Log pages (R367) -/

/-- LOG_READ. -/
def execLogRead (c : Nat) (s : State) : Host.Outcome State Fault Refusal :=
  .next (resident s c 4 0x95 fun s x =>
    let off := x.entry.a1.toNat
    match logPage s (x.entry.a0.toNat % 256) with
    | none => residentPost s c St.range 0x02 0
    | some pg =>
      if pg.length ≤ off ∨ off % 4 ≠ 0 then residentPost s c St.range 0x02 0
      else
        let n := dBytes x
        if x.snap = 0 then beginTransfer (modCtx s c fun y => { y with snap := 1 }) x true 0 n
        else if !hostReach s x then s
        else residentPost (endTransfer (hostOut s x 0 (padTo n (pg.drop off))) c true n) c St.ok 0 (BitVec.ofNat 64 pg.length))

/-! ### Times of day (R431, 03 op 0x92) -/

/-- DAY_ENTER: SETs DAY_TARGET and runs DOZE. -/
def execDayEnter (c : Nat) (s : State) : Host.Outcome State Fault Refusal :=
  .next (resident s c 4 0x92 fun s x =>
    if x.snap = 1 then s
    else if 3 < x.entry.a0.toNat then residentPost s c St.range 0x02 0
    else requestDay (storeNv (modCtx s c fun y => { y with snap := 1 }) 0x0E000001 x.entry.a0) c (dayOf x.entry.a0.toNat))

end Sys2Proof.Machine
end

