-- ==== Sys2Proof/Machine/Calendar.lean ====
section
/-! DEFINITION. The calendars: capacities, shares and windows, bookings, reads on dies, suspends and
read-arounds (R34 to R41, R45, R47, R55 to R59, R65, R351). -/

namespace Sys2Proof.Machine

/-! ### Shares (R35, R36) -/

/-- Whether R35 divides a resource into shares. -/
def Res.shared : Res → Bool
  | .dieTime _ => true
  | .dieTotal => true
  | .chan _ => true
  | .chanTotal => true
  | .decoder _ => true
  | _ => false

/-- A share of a resource's window: rounded down, the remainder to the care share (R35). -/
def shareCap (s : State) (r : Res) (sh : Share) : Nat :=
  let c := r.perBeat s * r.window
  if !r.shared then (if sh = .host then c else 0)
  else
    let care := nvVal s 0x02000002
    let ra := nvVal s 0x02000003
    let hold := c * ra / 256
    let host := c * (256 - care - ra) / 256
    match sh with
    | .host => host
    | .hold => hold
    | .care => c - host - hold

/-- The first beat of the window of R35 that holds beat b. -/
def windowStart (r : Res) (b : Nat) : Nat := b / r.window * r.window

/-- What near bookings take of a share of a resource in [lo, lo + n). -/
def used (s : State) (r : Res) (sh : Share) (lo n : Nat) : Nat :=
  ((s.plan.near.filter fun k => k.res.pool == r.pool && k.share == sh && decide (lo ≤ k.beat) && decide (k.beat < lo + n)).map
    Booking.amount).foldl (· + ·) 0

/-- A number for each resource that hold-back passes from (R36). -/
def Res.key : Res → Nat
  | .dieTime d => 4 * d
  | .chan n => 4 * n + 1
  | .decoder o => 4 * o + 2
  | .dieTotal => 3
  | .chanTotal => 7
  | _ => 11

/-- Hold-back of a resource that passed to care on the beats [lo, lo + n): beat and amount (R36). -/
def passedOn (s : State) (r : Res) (lo n : Nat) : List (Nat × Nat) :=
  (s.plan.raPassed.filter fun p => p.1 == r.key && decide (lo ≤ p.2.1) && decide (p.2.1 < lo + n)).map Prod.snd

/-- Hold-back of a resource's window that has passed to care (R36). -/
def passed (s : State) (r : Res) (lo : Nat) : Nat := sum ((passedOn s r lo r.window).map Prod.snd)

/-- What care bookings of a window take of the care share: what they took of hold-back passed on on their beats counts there (R36). -/
def careTaken (s : State) (r : Res) (lo : Nat) : Nat :=
  used s r .care lo r.window - sum ((passedOn s r lo r.window).map fun p => min p.2 (used s r .care p.1 1))

/-- Hold-back passed on on a beat that no care booking uses (R36). -/
def passedLeft (s : State) (r : Res) (b : Nat) : Nat := sum ((passedOn s r b 1).map Prod.snd) - used s r .care b 1

/-- The standing reservation of a checkpoint cycle in the host share (R214). -/
def standing (s : State) (r : Res) (sh : Share) : Nat :=
  if r = .chanTotal ∧ sh = .host then ((s.xlat.ck.map Ckpt.rate).getD 0) * r.window else 0

/-- What a share of a resource has left in the window of a beat, with what hold-back passed on on the beat (R35, R36). -/
def windowLeft (s : State) (r : Res) (sh : Share) (b : Nat) : Nat :=
  let lo := windowStart r b
  match sh with
  | .host => shareCap s r .host - used s r .host lo r.window - standing s r .host
  | .hold => shareCap s r .hold - passed s r lo - used s r .hold lo r.window
  | .care => shareCap s r .care - careTaken s r lo + passedLeft s r b

/-- What a share of a resource has left on a beat: of the window's share, and of the beat's capacity. -/
def freeOf (s : State) (r : Res) (sh : Share) (b : Nat) : Nat :=
  if decide (1 < r.window) && (r == .dieTotal || r == .chanTotal) then windowLeft s r sh b
  else min (windowLeft s r sh b) (r.perBeat s - usedAll s r b)

/-- Whether k more units of a share fit on a beat. -/
def fits (s : State) (r : Res) (sh : Share) (b k : Nat) : Bool := decide (k ≤ freeOf s r sh b)

/-- How many of the beats from t on to t + i lie in the last one's window. -/
def runIn (r : Res) (t i : Nat) : Nat := min (i + 1) ((t + i) % r.window + 1)

/-- Whether a share has one unit free on each of n beats, and in each window as many as the run has beats in it (R35). -/
def runFits (s : State) (r : Res) (sh : Share) (t n : Nat) : Bool :=
  (List.range n).all fun i => fits s r sh (t + i) 1 && decide (runIn r t i ≤ windowLeft s r sh (t + i))

/-- The first beat beyond the near calendar (R40). -/
def nearEnd (s : State) : Nat := 1024 * s.plan.laidSpan

/-- Book a total over the beats [b, b + n), evenly, the remainder on the first beats (R54, R304). -/
def bookEven (s : State) (r : Res) (sh : Share) (b n total owner : Nat) : State :=
  (List.range n).foldl (fun s i => book s r sh (b + i) (total / n + b2n (decide (i < total % n))) owner) s

/-- Whether an even spread fits on every beat. -/
def evenFits (s : State) (r : Res) (sh : Share) (b n total : Nat) : Bool :=
  decide (0 < n) && (List.range n).all fun i => fits s r sh (b + i) (total / n + b2n (decide (i < total % n)))

/-! ### Die queues (R34, R55, R304) -/

/-- Whether a die runs nothing on [b, b + n). -/
def dieFree (s : State) (d b n : Nat) : Bool :=
  match getDie s d with
  | some x => x.ops.all fun o => decide (o.start + o.busy ≤ b) || decide (b + n ≤ o.start)
  | none => false

/-- Put an operation in a die's queue, ordered by its deadline beat. -/
def queueOp (s : State) (d : Nat) (o : ArrayOp) : State :=
  modDie s d fun x => { x with ops := (x.ops.filter fun p => decide (p.dline ≤ o.dline)) ++ [o] ++ (x.ops.filter fun p => decide (o.dline < p.dline)) }

/-- An operation of a die. -/
def mkOp (kind : ArrayKind) (block page start busy dline owner : Nat) (care : Bool) : ArrayOp :=
  { kind := kind, block := block, page := page, start := start, busy := busy, dline := dline, owner := owner, reset := false, care := care }

/-- The cell mode of a block: its band's, or the one its record names. -/
def blockCell (s : State) (die block : Nat) : CellMode :=
  match s.media.bands.find? fun b => b.columns.contains (die, block) with
  | some b => b.cell
  | none => (getBlock s (blockIdx die block)).lastCell

/-- Whether a read of n transfers on a die fits at start beat t: the die, its share, the channel and the
decoders (R45). -/
def readFitsAt (s : State) (d r n : Nat) (sh : Share) (t : Nat) : Bool :=
  dieFree s d t r &&
  runFits s (.dieTime d) sh t r && runFits s .dieTotal sh t r &&
  evenFits s .energy .host t r (enRead s (dieOct d)) && fits s .energy .host (t + r) (n * enXfer s (dieOct d)) &&
  fits s (.chan (dieChan d)) sh (t + r) n && fits s .chanTotal sh (t + r) n && fits s (.decoder (dieOct d)) sh (t + r + 1) n

/-- Book the transfers of n slots on beat t and their decoders on the next. -/
def bookXfer (s : State) (d n : Nat) (sh : Share) (t owner : Nat) : State :=
  let s1 := book (book s (.chan (dieChan d)) sh t n owner) .chanTotal sh t n owner
  book (book s1 .energy .host t (n * enXfer s (dieOct d)) owner) (.decoder (dieOct d)) sh (t + 1) n owner

/-- Book a read of n slots of one page at start beat t: one sense of the page serves them (R302). -/
def bookRead (s : State) (psa r n : Nat) (sh : Share) (t dline owner : Nat) : State :=
  let d := psaDie psa
  let k := dieOct d
  let s1 := queueOp s d (mkOp .read (psaBlock psa) (psaPage psa) t r dline owner (sh == .care))
  let s2 := bookEven (bookEven s1 (.dieTime d) sh t r r owner) .dieTotal sh t r r owner
  bookXfer (bookEven s2 .energy .host t r (enRead s k) owner) d n sh (t + r) owner

/-- The earliest start, from a beat on, of a read of n slots of a page whose decodes end by `limit`. -/
def readStart (s : State) (psa n : Nat) (sh : Share) (b limit : Nat) : Option Nat :=
  let d := psaDie psa
  let r := occRead s (dieOct d) (blockCell s d (psaBlock psa))
  if !dieUsable s d ∨ r = 0 ∨ limit < b + r + 1 then none
  else lowest (fun t => readFitsAt s d r n sh t) b (limit - (b + r + 1) + 1)

/-- Plan the read of n slots of a page: the beat their decodes end and the state with the bookings. -/
def planSlot (s : State) (psa n : Nat) (sh : Share) (b limit dline owner : Nat) : Option (Nat × State) :=
  match readStart s psa n sh b limit with
  | none => none
  | some t =>
    let r := occRead s (dieOct (psaDie psa)) (blockCell s (psaDie psa) (psaBlock psa))
    some (t + r + 1, bookRead s psa r n sh t dline owner)

/-! ### Read-around (R47, R57 to R59, R255) -/

/-- Whether the stripe of a slot gives it without its own column: the other columns that cannot be read and this one are
within the parity (R57, R58, R255). -/
def canAround (s : State) (psa : Nat) : Bool :=
  match bandOf s psa with
  | none => false
  | some b => decide ((b.columns.filter fun c => c != (psaDie psa, psaBlock psa) && !dieUsable s c.1).length < bandPmode b.bandId)

/-- The other columns' slots of a slot's stripe that can be read. -/
def otherSlots (s : State) (psa : Nat) : List Nat :=
  match bandOf s psa with
  | none => []
  | some b => (b.columns.filter fun c => c != (psaDie psa, psaBlock psa) && dieUsable s c.1).map fun c =>
      mkPsa c.1 c.2 (psaPage psa) (psaSlot psa)

/-- Plan a read-around of n slots of a page: every other readable column, in one share. -/
def planAround (s : State) (psa n : Nat) (sh : Share) (b limit dline owner : Nat) : Option (Nat × State) :=
  if !canAround s psa then none
  else (otherSlots s psa).foldl (fun m q => match m with
    | none => none
    | some (e, s1) => match planSlot s1 q n sh b limit dline owner with
      | none => none
      | some (e1, s2) => some (max e e1, s2)) (some (b, s))

/-! ### Suspends (R56, R305) -/

/-- The programs and erases of a die that run across part of the beats from b to `last`, in order of start. -/
def blockers (s : State) (d b last : Nat) : List ArrayOp :=
  match getDie s d with
  | some x => sortBy ArrayOp.start (x.ops.filter fun o => o.kind != .read && decide (o.start ≤ last) && decide (b < o.start + o.busy))
  | none => []

/-- Whether the transfers of n slots on beat t fit in the host share, with their decoders on the next beat. -/
def xferFits (s : State) (d n t : Nat) : Bool :=
  fits s (.chan (dieChan d)) .host t n && fits s .chanTotal .host t n && fits s .energy .host t (n * enXfer s (dieOct d)) &&
  fits s (.decoder (dieOct d)) .host (t + 1) n

/-- The suspension of an operation that a read decided now may join: the last, booked in this beat cycle, serving fewer than
BEAT_SUSPEND_READS (R56). -/
def joinable (s : State) (d : Nat) (o : ArrayOp) : Option Susp :=
  o.susps.getLast?.filter fun k => k.cycle == s.beat &&
    decide ((((getDie s d).map fun x => (x.ops.filter k.holds).length).getD 0) < nvVal s 0x02000008)

/-- The beat from which an operation may be suspended next: after its start, 50 beats after its last resume (R56). -/
def suspFrom (o : ArrayOp) : Nat := (o.susps.map fun k => k.resume + 50).foldl max (o.start + 1)

/-- Plan a page's read inside a suspension of an operation: suspend one beat, read r beats, transfer, resume; or at the end of one
that it may join. The operation ends later by the beats of the suspension, within its own limit (R55, R56). -/
def suspendFor (s : State) (psa n b limit dline owner : Nat) (o : ArrayOp) : Option (Nat × State) :=
  let d := psaDie psa
  let k := dieOct d
  let r := occRead s k (blockCell s d (psaBlock psa))
  let join := joinable s d o
  let len := if join.isSome then r else r + 3
  let tail := o.start + o.busy
  let first := match join with
    | some j => j.resume - 1
    | none => max b (suspFrom o) + 1
  let last := if join.isSome then first else min (tail - 1) (limit - (r + 1))
  let ok := fun t => xferFits s d n (t + r) && evenFits s .energy .host t r (enRead s k) && runFits s .dieTotal .host t r
  if !canSuspend s k (o.kind == .program) || (join.isNone && decide (4 ≤ o.susps.length)) || r == 0 || decide (first < b) || decide (limit < first + r + 1) ||
      decide (o.dline < tail + len) || !dieFree s d tail len || !runFits s (.dieTime d) .host tail len then none
  else match lowest ok first (last + 1 - first) with
    | none => none
    | some t =>
      let susps := match join with
        | some j => updIf (· == j) (fun k => { k with resume := t + r + 1 }) o.susps
        | none => o.susps ++ [{ at_ := t - 1, resume := t + r + 1, cycle := s.beat }]
      let s1 := modDie s d fun x => { x with ops := updIf (· == o) (fun p => { p with busy := p.busy + len, susps := susps }) x.ops }
      let s2 := bookEven s1 (.dieTime d) .host tail len len 0
      let s3 := queueOp s2 d (mkOp .read (psaBlock psa) (psaPage psa) t r dline owner false)
      let s4 := bookEven (bookEven s3 .dieTotal .host t r r owner) .energy .host t r (enRead s k) owner
      some (t + r + 1, bookXfer s4 d n .host (t + r) owner)

/-- Plan a page's read inside a suspension of the first program or erase in its way that may be suspended in time (R57). -/
def planSuspend (s : State) (psa n b limit dline owner : Nat) : Option (Nat × State) :=
  (blockers s (psaDie psa) b limit).foldl (fun m o => match m with
    | some p => some p
    | none => suspendFor s psa n b limit dline owner o) none

/-- A command's read of a page that it has booked from beat b on serves further slots of the page: one sense of a page
transfers one or more of its slots (R302). -/
def shareRead (s : State) (psa n b limit owner : Nat) : Option (Nat × State) :=
  let d := psaDie psa
  match (getDie s d).bind fun x => x.ops.find? fun o =>
      o.kind == .read && o.owner == owner && o.block == psaBlock psa && o.page == psaPage psa && decide (b ≤ o.start) with
  | none => none
  | some o =>
    let t := o.start + o.busy
    if decide (limit < t + 1) || !xferFits s d n t then none else some (t + 1, bookXfer s d n .host t owner)

/-! ### Fallback (R59, R60, R61) -/

/-- The latest beat a fallback's decode may end for a command: its host transfer and its POST follow. -/
def fallbackLimit (s : State) (x : Ctx) : Nat := if x.dOpen then s.beat + 8191 else x.dline - 3

/-- Change how slot `part` of a granule read of a context stands. -/
def setSlot (s : State) (c gran part : Nat) (d : Deliver) : State :=
  let set := updIf (fun (r : GranRead) => r.gran == gran) fun r => { r with slots := r.slots.set part d }
  modCtx s c fun y => { y with reads := set y.reads, fed := set y.fed }

/-- A direct read whose granules move to a fallback no longer commits on its booked beat: its commit point is
the beat it then reaches (R59, R105). -/
def slipCommit (s : State) (c : Nat) : State :=
  modCtx s c fun y => { y with commitBeat :=
    if y.entry.typ == 1 && (y.entry.op == 6 || y.entry.op == 7 || (y.entry.op == 1 && y.snap == 0)) then none else y.commitBeat }

/-- A D5 slot delivered early gives back the bookings of the later steps of its ladder (R245). -/
def releaseLadder (s : State) (c psa : Nat) : State :=
  match getCtx s c with
  | none => s
  | some x => s.updPlan fun p =>
      { p with near := p.near.filter fun b => !(b.owner == x.adm && b.tag == psa + 1 && decide (s.beat < b.beat))
               far := p.far.filter fun b => !(b.owner == x.adm && b.tag == psa + 1) }

/-- An unplanned fallback of one slot of a granule read: a read-around in hold-back not yet claimed, where
its stripe can be rebuilt in time; otherwise deep recovery (R59, R60). -/
def fallbackSlot (s0 : State) (c gran part : Nat) : State :=
  let s := slipCommit s0 c
  match getCtx s c with
  | none => s
  | some x => match (x.reads ++ x.fed).find? fun r => r.gran == gran with
    | none => s
    | some r => match r.loc with
      | .media psa =>
        let deep :=
          match ctxNs s x with
          | some ns =>
            let s1 := setSlot s c gran part .deep
            registerDeep s1 ns (((getCtx s1 c).map fun y => y.reads ++ y.fed).getD [])
          | none => setSlot s c gran part .deep
        if nth r.slots part .direct = .waiting then
          match planAround s (psa + part) 1 .hold (s.beat + 1) (fallbackLimit s x) x.dline x.adm with
          | some (_, s1) => setSlot s1 c gran part .around
          | none => deep
        else if nth r.slots part .direct = .around then deep
        else s
      | _ => s

/-- The slot reads of contexts that a test of the PSA picks, waiting or read around: context, granule, part. -/
def waitingSlots (s : State) (p : Nat → Bool) : List (Nat × Nat × Nat) :=
  s.ctxs.flatMap fun x => x.reads.flatMap fun r => match r.loc with
    | .media psa => (r.slots.zipIdx.filter fun d => d.1 == .waiting && p (psa + d.2)).map fun d => (x.c, r.gran, d.2)
    | _ => []

/-- Whether a D5 read waits for the outcome of a granule's deep recovery (R60). -/
def awaitsDeep (s : State) (c gran : Nat) : Bool :=
  match getCtx s c with
  | none => false
  | some x => x.entry.cls == 5 && match ctxNs s x with
    | some ns => s.xlat.deep.any fun d => d.idx == mapIdx ns gran
    | none => false

/-- The waiting slot reads that read media. -/
def readingSlots (s : State) (p : Nat → Bool) : List (Nat × Nat × Nat) := (waitingSlots s p).filter fun w => !awaitsDeep s w.1 w.2.1

/-- Slot reads in order of the deadline beats of their commands (R59). -/
def byDeadline (s : State) (ws : List (Nat × Nat × Nat)) : List (Nat × Nat × Nat) :=
  sortBy (fun w => ((getCtx s w.1).map Ctx.dline).getD 0) ws

/-- The slots that programs have still to read of what their decisions found, in a state (R201): context, granule, part. -/
def fedIn (s : State) (p : Nat → Deliver → Bool) : List (Nat × Nat × Nat) :=
  s.ctxs.flatMap fun x => (x.fed.filter fun r => !(x.reads.any fun q => q.gran == r.gran)).flatMap fun r => match r.loc with
    | .media psa => (r.slots.zipIdx.filter fun d => p (psa + d.2) d.1).map fun d => (x.c, r.gran, d.2)
    | _ => []

/-- Every waiting slot read that a test picks becomes an unplanned fallback, those of admitted programs with them, in order of
deadline beat (R59, R61). -/
def fallbackWhere (s : State) (p : Nat → Bool) : State :=
  (byDeadline s (readingSlots s p ++ fedIn s fun psa d => d == .waiting && p psa)).foldl (fun s w => fallbackSlot s w.1 w.2.1 w.2.2) s

/-- Slots read around whose rebuild needs a column that a test of the die picks (R61): with the stripe no
longer within its parity, they are left to deep recovery. -/
def aroundLost (s : State) : State :=
  ((s.ctxs.flatMap fun x => x.reads.flatMap fun r => match r.loc with
    | .media psa => (r.slots.zipIdx.filter fun d => d.1 == .around && !canAround s (psa + d.2)).map fun d => (x.c, r.gran, d.2)
    | _ => []) ++ fedIn s fun psa d => d == .around && !canAround s psa).foldl (fun s w => fallbackSlot s w.1 w.2.1 w.2.2) s

/-! ### The end at D (R60, R119, R490, R546) -/

/-- A context's reads with the slots of granules still under deep recovery left to it (R60). -/
def leaveDeep (s : State) (x : Ctx) : Ctx :=
  { x with reads := x.reads.map fun r => if awaitsDeep s x.c r.gran then
      { r with slots := r.slots.map fun d => if d == .waiting || d == .around then .deep else d } else r }

/-- A read that only deep recovery keeps waiting ends at D: what was delivered goes to the host of a READ, and the status is that of
its reads (R60). -/
def deepEnd (s : State) (y : Ctx) : State :=
  let k := if y.entry.isProg then (noteReads y none).sticky else directSticky y
  let s1 := if y.entry.typ == 1 && y.entry.op == 1 && hostReach s y then
      endTransfer (deliverReads s y y.reads.length) y.c true ((y.reads.filter GranRead.delivered).length * gran s y) else s
  let f := fixStatus k St.ok 0 0
  endWith s1 y.c f.1 f.2.1 f.2.2

/-- The end of a command that has not executed POST by the start of D: DOMAIN_OFF while granules it wrote through await a program
that darkness took away (R546), STATE for a download block not stored (R490, R491), the outcome of its reads where only deep
recovery is awaited (R60), otherwise fault 0x06 (R119). A POST whose granules are durable only waits for its turn (R102). -/
def endAtDeadline (s : State) (x : Ctx) : State :=
  let y := leaveDeep s x
  if (x.wait == .instr || x.wait == .posting) && tookDark s x then postUnverified s x
  else if x.wait == .posting && durable s x then s
  else if x.wait == .resident && x.entry.typ == 4 && x.entry.op == 0x8C then
    residentPost ((dropDescs s x.c).updNor Nor.interrupt) x.c St.state 3 0
  else if !readsDone x && readsDone y then deepEnd (modCtx (dropDescs s x.c) x.c fun _ => y) y
  else faultCtx (dropDescs s x.c) x.c 0x06

end Sys2Proof.Machine
end

