-- ==== Sys2Proof/Machine/Bands.lean ====
section
/-! DEFINITION. Bands and the write stream: opening a band, placing slots in stripes, parity, word-line
programs, closing with a summary, verification and its map updates, failed programs and erases,
retirement (R202, R204, R212, R237, R249 to R258, R277, R279, R288 to R292, R302). -/

namespace Sys2Proof.Machine

/-! ### Wear and retirement (R286 to R292) -/

/-- Recompute the wear stage; a change raises GEVENT.WEAR. -/
def wearCheck (s : State) : State :=
  let w := wearStageNow s
  if w = s.care.wearStage then s else event (s.updCare fun c => { c with wearStage := w }) 5 0xFF

/-- Retire a block with a cause (R288); a cause 3 is an early retirement (R292). -/
def retireBlock (s : State) (die block cause : Nat) : State :=
  let i := blockIdx die block
  let b := getBlock s i
  let s1 := modBlock s i fun b => { b with st := .retired, rcause := cause, candidate := false, candNew := false }
  wearCheck (s1.updCare fun c =>
    { c with retired := min (c.retired + 1) (2 ^ 25 - 1)
             earlyRetired := if cause = 3 then min (c.earlyRetired + 1) (2 ^ 25 - 1) else c.earlyRetired
             passRetired := if cause = 3 then c.passRetired + 1 else c.passRetired
             retireLog := ({ beat := s.beat, die := die, block := block, cause := cause, pe := b.pe } :: c.retireLog).take 65536 })

/-- Count a failure the block reported. -/
def countPfail (s : State) (die block : Nat) : State :=
  modBlock s (blockIdx die block) fun b => { b with pfails := min (b.pfails + 1) 65535 }

/-! ### Opening a band (R249, R256, R277, R371) -/

/-- Erased blocks of the pool on usable dies of an oct, in record order, whose carrier profile permits a
cell mode: PE, die, block. -/
def poolBlocks (s : State) (k : Nat) (m : CellMode) : List (Nat × Nat × Nat) :=
  if pagesOf s k m = 0 then [] else
  (s.care.blocks.filter fun b => b.2.st == .erased && !b.2.system && !b.2.rawTouched && dieOct (b.1 / 8192) == k && dieUsable s (b.1 / 8192)).map
    fun b => (b.2.pe, b.1 / 8192, b.1 % 8192)

/-- The block a new band draws in an oct: the lowest PE, or the highest for a COLD band (R277). -/
def pickBlock (s : State) (k : Nat) (m : CellMode) (cold : Bool) : Option (Nat × Nat) :=
  (((poolBlocks s k m).foldl (fun (acc : Option (Nat × Nat × Nat)) b => match acc with
    | none => some b
    | some a => if (if cold then a.1 < b.1 else b.1 < a.1) then some b else some a) none).map Prod.snd)

/-- Whether a new band for a side may lie in an oct: LIVE, and of that side when sided (R371). -/
def octForSide (s : State) (sideB : Bool) (k : Nat) : Bool :=
  (getOct s k).st == .live && (!sided s || octSideB s k == sideB)

/-- The octs a band of a profile can use for a side. -/
def bandOcts (s : State) (profile : Nat) (cold sideB : Bool) : List Nat :=
  (List.range 16).filter fun k => decide (bits (mediaProfile s profile) 1 0 ≤ 2) && octForSide s sideB k && (pickBlock s k (mpCell s profile) cold).isSome

/-- Whether a band of a profile can open for a side (R256). -/
def canOpen (s : State) (profile : Nat) (cold sideB : Bool) : Bool := decide (4 ≤ (bandOcts s profile cold sideB).length)

/-- Pages of a band's blocks: the least of its columns. -/
def bandPages (s : State) (b : Band) : Nat :=
  match b.columns with
  | [] => 0
  | c :: cs => cs.foldl (fun m d => min m (pagesOf s (dieOct d.1) b.cell)) (pagesOf s (dieOct c.1) b.cell)

/-- Parity columns of a band. -/
def Band.pcols (b : Band) : Nat := bandPmode b.bandId

/-- Width of a band. -/
def Band.width (b : Band) : Nat := bandWidth b.bandId

/-- Stripes of a band that hold data: the summary's stripes follow them (R212). -/
def dataStripes (s : State) (b : Band) : Nat := bandPages s b - summaryStripes b.width b.pcols (bandPages s b)

/-- A band with nothing in it. -/
def Band.new : Band :=
  { serial := 0, bandId := 0, st := .opened, profile := 0, system := false, refresh := false, failed := false, dark := false, cold := false,
    wl := false, lowSeq := 0, closeBeat := 0, valid := 0, capacity := 0, ageClose := 0, columns := [], cell := .slc, nextPage := 0,
    summary := false, acc := none }

/-- CAPACITY of a band: data slots, summary slots excluded; a system band has no summary (R212, R266). -/
def capacityOf (s : State) (b : Band) : Nat :=
  if b.system then 4 * (b.width - b.pcols) * bandPages s b else bandCapacity b.width b.pcols (bandPages s b)

/-- Open a band on given columns: the lowest free serial, its blocks BANDED, a BAND_OPEN record. None with fewer than four
columns (R249, R256). -/
def startBand (s : State) (b0 : Band) (cols : List (Nat × Nat)) (pmode : Nat) : Option (Nat × State) :=
  if cols.length < 4 then none
  else match lowest (fun k => (getBand s k).isNone) 0 (s.media.bands.length + 1) with
  | none => none
  | some serial =>
    let b1 := { b0 with serial := serial, bandId := mkBandId serial cols.length pmode, columns := cols }
    let b := { b1 with capacity := capacityOf s b1 }
    let s1 := s.updMedia fun x => { x with bands := insertBy Band.serial b x.bands }
    let s2 := cols.foldl (fun s c => modBlock s (blockIdx c.1 c.2) fun k =>
      { k with st := .banded, bandId := b.bandId, lastCell := b.cell, peSlc := if b.cell = .slc then k.peSlc + 1 else k.peSlc, system := b.system }) s1
    some (serial, journalPlain s2 .bandOpen 0 0 0 b.bandId.toNat 0)

/-- Open a data band: one block of each of W octs in rising order. Only the Cullet takes blocks below CARE_FREE_MIN (R272). -/
def openBand (s : State) (profile : Nat) (cold sideB : Bool) : Option (Nat × State) :=
  let m := mpCell s profile
  let octs := (bandOcts s profile cold sideB).take (mpWidth s profile)
  if !cold && decide (erasedPool s < freeMin s + octs.length) then none
  else startBand s { Band.new with profile := profile, cold := cold, cell := m } (octs.filterMap fun k => pickBlock s k m cold) (mpPar s profile)

/-- Whether the system pool may draw n more blocks: of its own B_sys, or of what the erased pool holds above CARE_FREE_MIN (R270, R272). -/
def sysMayDraw (s : State) (n : Nat) : Bool := decide (systemBlocks s + n ≤ s.care.sysBlocks) || decide (freeMin s + n ≤ erasedPool s)

/-! ### Stripes (R250 to R254) -/

/-- The PSA of slot i of column c of stripe p of a band. -/
def stripePsa (b : Band) (p c i : Nat) : Nat :=
  let d := nth b.columns c (0, 0)
  mkPsa d.1 d.2 p i

/-- Whether a place holds no slot. -/
def placeFree (s : State) (psa : Nat) : Bool := (Assoc.get s.media.slots psa).isNone

/-- The free data places of the stripe a band fills, in order of column and slot. -/
def stripeFree (s : State) (b : Band) : List Nat :=
  ((dataCols b.bandId b.nextPage).flatMap fun c => (List.range 4).map fun i => stripePsa b b.nextPage c i).filter (placeFree s)

/-- The first place for one slot, or for a 16 KiB granule's page (R196). -/
def nextPlace (s : State) (b : Band) (page : Bool) : Option Nat :=
  if page then ((dataCols b.bandId b.nextPage).find? fun c => (List.range 4).all fun i => placeFree s (stripePsa b b.nextPage c i)).map
      fun c => stripePsa b b.nextPage c 0
  else (stripeFree s b).head?

/-- The column of a place in a band. -/
def columnOf (b : Band) (psa : Nat) : Nat := (b.columns.takeWhile fun c => c != (psaDie psa, psaBlock psa)).length

/-- Store a slot at a place, its band fields set for the place (R232). A slot that is not yet encrypted is, under its namespace's
key of its epoch; a copy keeps its ciphertext, a namespace-0 slot its key (R235). -/
def putSlot (s : State) (b : Band) (psa : Nat) (r : SlotRec) : State :=
  let key := if r.key.isEmpty then vaultKey s r.nsid r.epoch else r.key
  let r1 := { r with bandId := b.bandId, column := columnOf b psa, cell := b.cell, verified := false, key := key }
  (useKey s r.nsid r.epoch).updMedia fun m => { m with slots := Assoc.set m.slots psa r1 }

/-- The codeword stored at a place; zeros where nothing is. -/
def codewordAt (s : State) (psa : Nat) : List Byte :=
  match Assoc.get s.media.slots psa with
  | some r => slotCodeword r
  | none => List.replicate 4608 0

/-- Write the parity slots of a band's stripe (R251, R252). -/
def writeParity (s : State) (b : Band) (p : Nat) : State :=
  (List.range 4).foldl (fun s i =>
    let ds := (dataCols b.bandId p).map fun c => codewordAt s (stripePsa b p c i)
    let put := fun (s : State) (c : Nat) (bs : List Byte) => putSlot s b (stripePsa b p c i) { blankSlot .parity with bytes := Mem.ofList (bs.take 4160) }
    let s1 := put s (p % b.width) (parityP ds)
    if b.pcols = 2 then put s1 ((p + 1) % b.width) (parityQ ds) else s1) s

/-! ### Programs and erases on the calendar (R34, R35, R51, R65, R262, R302, R304) -/

/-- Whether a booking is a total that waits for programs of the write stream to take it (R51, R52, R413). -/
def Booking.forDrain (b : Booking) : Bool := b.share == .host && decide (2 ^ 64 ≤ b.owner)

/-- What writes have booked for their programs of a total, in the window of a beat (R51). -/
def drainBooked (s : State) (r : Res) (b : Nat) : Nat :=
  let lo := windowStart r b
  sum ((s.plan.near.filter fun k => k.forDrain && k.res == r && decide (lo ≤ k.beat) && decide (k.beat < lo + r.window)).map Booking.amount)

/-- What a program or erase of a share may take of a total on a beat: those of host data take what writes have booked for them, and
what no booking claims (R51, R546). -/
def opRoom (s : State) (r : Res) (sh : Share) (b : Nat) : Nat := freeOf s r sh b + if sh = .host then drainBooked s r b else 0

/-- The same in the window of a beat. -/
def opWindow (s : State) (r : Res) (sh : Share) (b : Nat) : Nat := windowLeft s r sh b + if sh = .host then drainBooked s r b else 0

/-- Bookings without k units of those that a test picks, the oldest first. -/
def giveWay (p : Booking → Bool) : Nat → List Booking → List Booking
  | _, [] => []
  | k, b :: l =>
    if k = 0 then b :: l
    else if !p b then b :: giveWay p k l
    else if b.amount ≤ k then giveWay p (k - b.amount) l
    else { b with amount := b.amount - k } :: l

/-- Book k units of a total for a program or erase: what writes have booked for it in the window gives way (R51). -/
def opTake (s : State) (r : Res) (sh : Share) (b k : Nat) : State :=
  let lo := windowStart r b
  let mine := fun (x : Booking) => x.forDrain && x.res == r && decide (lo ≤ x.beat) && decide (x.beat < lo + r.window)
  book (if sh = .host then s.updPlan fun p => { p with near := giveWay mine k p.near } else s) r sh b k 0

/-- The energy of a program or erase, in 0.01 µJ. -/
def opEnergy (s : State) (d : Nat) (o : ArrayOp) : Nat :=
  if o.kind = .program then enProg s (dieOct d) (blockCell s d o.block) else enErase s (dieOct d)

/-- The share that a program or erase runs in: care work in its own, the write stream in the host share (R35). -/
def ArrayOp.share (o : ArrayOp) : Share := if o.care then .care else .host

/-- Part i of a total spread evenly over n beats, the remainder on the first (R304). -/
def part (total n i : Nat) : Nat := total / n + b2n (decide (i < total % n))

/-- Whether a program or erase fits on a die at a start beat: the die and its share, the totals, the energy (R34, R35, R65, R66). -/
def opFits (s : State) (d : Nat) (o : ArrayOp) (t : Nat) : Bool :=
  let n := o.busy
  dieFree s d t n && runFits s (.dieTime d) o.share t n &&
  ((List.range n).all fun i => decide (runIn .dieTotal t i ≤ opWindow s .dieTotal o.share (t + i)) &&
    decide (part (opEnergy s d o) n i ≤ opRoom s .energy .host (t + i)))

/-- Book a program or erase on a die at a start beat. -/
def startOp (s : State) (d t : Nat) (o : ArrayOp) : State :=
  let n := o.busy
  let s1 := bookEven (queueOp s d { o with start := t }) (.dieTime d) o.share t n n 0
  (List.range n).foldl (fun s i => opTake (opTake s .dieTotal o.share (t + i) 1) .energy .host (t + i) (part (opEnergy s d o) n i)) s1

/-- Place a program or erase on the earliest beats from b that have room and end by `last`. -/
def placeOp (s : State) (d b last : Nat) (o : ArrayOp) : Option State :=
  if o.busy = 0 ∨ last + 1 < b + o.busy then none
  else (lowest (opFits s d o) b (last + 2 - b - o.busy)).map fun t => startOp s d t o

/-- Lay n slot transfers of a program on its channel, on the first beats with room of a share, of the totals and of the energy budget:
the beat after the last and the state; none where the beats up to `last` do not hold them (R43, R51, R262, R302). -/
def layXfers (d last : Nat) (sh : Share) : Nat → State → Nat → Nat → Option (Nat × State)
  | 0, _, _, _ => none
  | fuel + 1, s, b, n =>
    if n = 0 then some (b, s)
    else if last < b then none
    else
      let e := enXfer s (dieOct d)
      let k := min n (min (freeOf s (.chan (dieChan d)) sh b) (min (opRoom s .chanTotal sh b) (if e = 0 then n else opRoom s .energy .host b / e)))
      let s1 := opTake (book s (.chan (dieChan d)) sh b k 0) .chanTotal sh b k
      layXfers d last sh fuel (opTake s1 .energy .host b (k * e)) (b + 1) (n - k)

/-- The beat by which a program or erase booked now must end: 8,191 beats on for care work (R262), the end of the near calendar for the
write stream. -/
def opLimit (s : State) (o : ArrayOp) : Nat := if o.care then s.beat + 8191 else nearEnd s - 1

/-- A program or erase of another block that a queued one of its die may cover too: same kind and page, same cell mode, another plane,
not started (R302). -/
def mergesWith (s : State) (d : Nat) (o p : ArrayOp) : Bool :=
  let plane := fun (b : Nat) => b % 2 ^ bits (profOf s (dieOct d) 2) 10 9
  p.kind == o.kind && p.page == o.page && p.care == o.care && blockCell s d p.block == blockCell s d o.block && decide (s.beat < p.start) &&
  (p.block :: p.also).all fun b => plane b != plane o.block

/-- Cover a block by a queued operation of its die, once its transfers end before that starts. -/
def mergeOp (s : State) (d n : Nat) (o : ArrayOp) : Option State :=
  match (getDie s d).bind fun x => x.ops.find? (mergesWith s d o) with
  | none => none
  | some p => (layXfers d (p.start - 1) o.share 8192 s (s.beat + 1) n).map fun r =>
      modDie r.2 d fun x => { x with ops := updIf (· == p) (fun q => { q with also := q.also ++ [o.block], dline := min q.dline o.dline }) x.ops }

/-- Book a program or erase with its n transfers: within a queued operation of the die, or on beats of its own; none where neither
finds room (R262, R302). -/
def bookNow (s : State) (d n : Nat) (o : ArrayOp) : Option State :=
  match mergeOp s d n o with
  | some t => some t
  | none => (layXfers d (opLimit s o) o.share 10240 s (s.beat + 1) n).bind fun x => placeOp x.2 d x.1 (opLimit s o) o

/-- Book a program or erase; one that finds no room waits and is offered again in later beats (R262). -/
def bookOp (s : State) (d n : Nat) (o : ArrayOp) : State :=
  match bookNow s d n o with
  | some t => t
  | none => s.updFlash fun f => { f with waiting := f.waiting ++ [{ die := d, xfers := n, op := o }] }

/-- Offer the programs and erases that wait, of care work or of the write stream, in order; a care operation has its deadline anew
(R262). -/
def retryOps (s : State) (care : Bool) : State :=
  let mine := s.flash.waiting.filter fun w => w.op.care == care && dieUsable s w.die
  mine.foldl (fun s w =>
      bookOp s w.die w.xfers (if care then { w.op with dline := s.beat + 8191 } else w.op))
    (s.updFlash fun f => { f with waiting := f.waiting.filter fun w => !mine.contains w })

/-- The beat by which the drain of the slots on a word line of a band is booked, at the earliest (R51). -/
def programDue (s : State) (b : Band) (page : Nat) : Nat :=
  let on := fun (g : GatherSlot) => match g.psa with
    | some psa => b.columns.contains (psaDie psa, psaBlock psa) && decide (page ≤ psaPage psa) && decide (psaPage psa < page + pagesPerWl b.cell)
    | none => false
  (s.xlat.gather.filter on).foldl (fun m g => min m g.due) (s.beat + 5000)

/-- Program one word line of every column of a band (R302): its first page is the one given. Its slots go to the die first, with the
tail of each page where FILL is clear. -/
def programWl (s : State) (b : Band) (page : Nat) : State :=
  let due := if b.cold then s.beat + 8191 else programDue s b page
  b.columns.foldl (fun s c =>
    let k := dieOct c.1
    bookOp s c.1 (pagesPerWl b.cell * (4 + tailXfers s k)) (mkOp .program c.2 page 0 (occProg s k b.cell) due 0 b.cold)) s

/-- Fill the stripe a band fills: pad slots in its empty places, then its parity (R253). -/
def fillStripe (s : State) (b : Band) : State :=
  let s1 := (stripeFree s b).foldl (fun s psa => putSlot s b psa (blankSlot .pad)) s
  modBand (writeParity s1 b b.nextPage) b.serial fun b => { b with nextPage := b.nextPage + 1 }

/-- Close the stripe a band fills, then program the word line once its last stripe is complete (R253, R302). -/
def closeStripe (s : State) (serial : Nat) : State :=
  match getBand s serial with
  | none => s
  | some b =>
    let s1 := fillStripe s b
    if (b.nextPage + 1) % pagesPerWl b.cell = 0 then programWl s1 b (b.nextPage + 1 - pagesPerWl b.cell) else s1

/-! ### Band summaries and closing (R212) -/

/-- The 24 bytes of a summary entry: the slot's LBA, namespace, SEQ, AGROUP and flags; nothing of a parity slot, whose
metadata carries no meaning (R234), nor of an unwritten one. -/
def summaryEntry (r : Option SlotRec) : List Byte :=
  match r with
  | some r =>
    if r.kind = .parity then List.replicate 24 0
    else leBytes 6 r.lba.toNat ++ leBytes 2 r.nsid ++ leBytes 8 r.seq ++ leBytes 4 r.agroup.toNat ++ leBytes 1 r.flags.toNat ++ leBytes 3 0
  | none => List.replicate 24 0

/-- The places of a band in order of column, then page, then slot. -/
def bandPlaces (s : State) (b : Band) : List Nat :=
  (List.range b.width).flatMap fun c => (List.range (bandPages s b)).flatMap fun p => (List.range 4).map fun i => stripePsa b p c i

/-- The places that a band's summary slots take: the data places of the stripes from the one it fills on, in order. -/
def summaryPlaces (s : State) (b : Band) : List Nat :=
  (List.range (bandPages s b - b.nextPage)).flatMap fun k =>
    (dataCols b.bandId (b.nextPage + k)).flatMap fun c => (List.range 4).map fun i => stripePsa b (b.nextPage + k) c i

/-- Summary slot i of a band before its data. -/
def summaryHead (hi epoch i : Nat) : SlotRec :=
  { blankSlot .summary with lba := BitVec.ofNat 64 i, flags := 1, seq := hi, epoch := epoch }

/-- The entry of a place: of the slot there, or of the summary slot that is to lie there; what follows the summary in its last
stripe is a pad slot, whose entry is zero. -/
def placeEntry (s : State) (sums : List Nat) (hi n : Nat) (psa : Nat) : List Byte :=
  match Assoc.get s.media.slots psa with
  | some r => summaryEntry (some r)
  | none =>
    let i := (sums.takeWhile (· != psa)).length
    summaryEntry (if sums.contains psa && decide (i < n) then some (summaryHead hi s.sec.sysEpoch i) else none)

/-- The data of summary slot i: 170 entries. -/
def summaryData (s : State) (places sums : List Nat) (hi n i : Nat) : List Byte :=
  ((places.drop (170 * i)).take 170).flatMap (placeEntry s sums hi n)

/-- Place one system slot in a band and close the stripe it fills. -/
def placeSummary (s : State) (serial : Nat) (r : SlotRec) : State :=
  match getBand s serial with
  | none => s
  | some b => match nextPlace s b false with
    | none => s
    | some psa =>
      let s1 := putSlot s b psa r
      if (stripeFree s1 b).isEmpty then closeStripe s1 serial else s1

/-- Close stripes until the last page of a band. -/
def closeRest : Nat → State → Nat → State
  | 0, s, _ => s
  | fuel + 1, s, serial =>
    match getBand s serial with
    | none => s
    | some b => if bandPages s b ≤ b.nextPage then s else closeRest fuel (closeStripe s serial) serial

/-- Close a full data band: its summary in its last stripes, then CLOSED. -/
def closeBand (s : State) (serial : Nat) : State :=
  match getBand s serial with
  | none => s
  | some b =>
    let places := bandPlaces s b
    let hi := ((places.filterMap (Assoc.get s.media.slots)).filter fun r => r.kind == .data).foldl (fun m r => max m r.seq) 0
    let n := summarySlots b.width (bandPages s b)
    let s1 := (List.range n).foldl (fun t i =>
      placeSummary t serial { summaryHead hi s.sec.sysEpoch i with bytes := Mem.ofList (summaryData s places (summaryPlaces s b) hi n i) }) s
    let s2 := closeRest (bandPages s b + 1) s1 serial
    markClosed (modBand s2 serial fun b => { b with summary := true }) serial

/-! ### Parity accumulators (R254) -/

/-- The lowest free parity accumulator in service. -/
def freeAcc (s : State) : Option Nat :=
  lowest (fun a => !(s.media.bands.any fun b => b.acc == some a) && !s.media.accWithdrawn.contains a && !s.media.accTest.contains a) 0 16

/-- A band that takes slots of a profile, kind and side: one that holds an accumulator first, else one that
can take a free one. -/
def openFor (s : State) (profile : Nat) (cold sideB : Bool) : Option Band :=
  let ok := fun (b : Band) => b.st == .opened && b.profile == profile && b.cold == cold && !b.system && !b.failed && !b.dark &&
    (!sided s || octSideB s (dieOct (nth b.columns 0 (0, 0)).1) == sideB)
  match s.media.bands.find? fun b => ok b && b.acc.isSome with
  | some b => some b
  | none => if (freeAcc s).isSome then s.media.bands.find? ok else none

/-- The band that takes the next slot, opened where none is open; none where no accumulator is free or no
band can open. -/
def bandFor (s : State) (profile : Nat) (cold sideB : Bool) : Option (Nat × State) :=
  match openFor s profile cold sideB with
  | some b => some (b.serial, s)
  | none => if (freeAcc s).isNone then none else openBand s profile cold sideB

/-- Give a band its accumulator at the opening of a stripe. -/
def takeAcc (s : State) (serial : Nat) : State :=
  let a := freeAcc s
  modBand s serial fun b => if b.acc.isSome then b else { b with acc := a }

/-- The lowest SEQ of a band's data slots with further records; 0 with none (R266). -/
def lowSeqWith (low : Nat) (rs : List SlotRec) : Nat := rs.foldl (fun m r => if m = 0 then r.seq else min m r.seq) low

/-- A band that has no stripe left for what it holds is closed: a data band with its summary; a Last Light band enters no BAND_CLOSE
record (R419). -/
def closeFull (s : State) (serial : Nat) : State :=
  match getBand s serial with
  | none => s
  | some b =>
    if b.system then (if bandPages s b ≤ b.nextPage ∧ !s.power.llBands.contains serial then markClosed s serial else s)
    else if dataStripes s b ≤ b.nextPage then closeBand s serial else s

/-- Place records (one slot, or the four of a 16 KiB granule's page) in a band, and close the stripe when it is full or must be
closed early, the band when its stripes are. Answers the first PSA; none where it has no place. -/
def placeIn (s : State) (serial : Nat) (early : Bool) (rs : List SlotRec) : Option (Nat × State) :=
  let page := decide (rs.length = 4)
  let s1 := match getBand s serial with
    | some b => if (nextPlace s b page).isNone then closeStripe s serial else s
    | none => s
  match getBand s1 serial with
  | none => none
  | some b => match nextPlace s1 b page with
    | none => none
    | some psa =>
      let s2 := rs.zipIdx.foldl (fun s r => putSlot s b (psa + r.2) r.1) (takeAcc s1 serial)
      let s3 := if b.system then s2 else modBand s2 serial fun b => { b with lowSeq := lowSeqWith b.lowSeq rs }
      let s4 := if (stripeFree s3 b).isEmpty || early then closeStripe s3 serial else s3
      some (psa, closeFull s4 serial)

/-- Place records in a data band of a profile; none where nothing can take them. -/
def placeRecs (s : State) (profile : Nat) (cold sideB early : Bool) (rs : List SlotRec) : Option (Nat × State) :=
  match bandFor s profile cold sideB with
  | none => none
  | some (serial, s0) => placeIn s0 serial early rs

/-! ### Placing gather slots (R237, R258) -/

/-- The slot record of a gather slot (R196, R206, R234). -/
def gatherRec (s : State) (g : GatherSlot) : SlotRec :=
  { blankSlot .data with
    lba := BitVec.ofNat 64 g.gran, nsid := g.nsid
    flags := BitVec.ofNat 16 (1 + 8 * b2n g.member + 16 * b2n g.last + 32 * b2n g.g16k + 64 * (if g.g16k then g.part else 0))
    agroup := if g.member then g.agroup else 0, seq := g.seq, tag := g.tag, epoch := nsEpoch s g.nsid, bytes := g.bytes }

/-- Place the granule whose first gather slot is named: released to the write stream, named by its entry or
awaited by a write-through command, not yet placed, within the write window but for the drains of R436 and
R437 (R263, R451). -/
def placeGather (s : State) (slot : Nat) : State :=
  match s.xlat.gather.find? fun g => g.slot == slot with
  | none => s
  | some g =>
    if g.atom || g.psa.isSome || g.part != 0 || !(g.mapped || g.through) || !(s.therm.window || s.day.sealed.isSome) then s
    else match getNs s g.nsid with
    | none => s
    | some ns =>
      let gs := (List.range ns.gslots).filterMap fun i => s.xlat.gather.find? fun h => h.slot == slot + i
      let profile := if g.through then 3 else g.profile
      let rest := s.xlat.gather.any fun h => h.through && !h.atom && h.psa.isNone && !(decide (slot ≤ h.slot) && decide (h.slot < slot + ns.gslots))
      match placeRecs s profile false ns.sideB (g.through && !rest) (gs.map (gatherRec s)) with
      | none => s
      | some (psa, s1) =>
        s1.updXlat fun x => { x with gather := x.gather.map fun h =>
          if slot ≤ h.slot ∧ h.slot < slot + ns.gslots then { h with psa := some (psa + (h.slot - slot)) } else h }

/-- Place a copy of a granule's slots in a COLD band of its namespace's profile: metadata as it was but for
the band fields and the atom fields, in Noon or Dusk and within the write window (R263, R264, R275 step 4). -/
def placeCopy (s : State) (ns : Namespace) (psa : Nat) : Option (Nat × State) :=
  let rs := (List.range ns.gslots).filterMap fun i => Assoc.get s.media.slots (psa + i)
  if rs.length ≠ ns.gslots ∨ !s.therm.window ∨ !careRuns s then none
  else placeRecs s (nsProfile s ns.nsid) true ns.sideB false
    (rs.map fun r => { r with flags := r.flags &&& 0xFFE7, agroup := 0 })

/-! ### Verification (R202, R204, R253, R275, R276) -/

/-- Whether the slots of a column's page have passed. -/
def pagePassed (s : State) (b : Band) (p c : Nat) : Bool :=
  (List.range 4).all fun i => ((Assoc.get s.media.slots (stripePsa b p c i)).map SlotRec.verified).getD false

/-- Whether a whole stripe is verified: every page of it, data and parity, has passed. -/
def stripeVerified (s : State) (b : Band) (p : Nat) : Bool := (List.range b.width).all fun c => pagePassed s b p c

/-- A map update counts one translation lookup, on the first beat from this one that has room for it (R199). -/
def bookUpdate (s : State) : State :=
  match lowest (fun b => fits s .lookups .host b 1) s.beat 1024 with
  | some b => book s .lookups .host b 1 0
  | none => s

/-- The map update of one verified data slot: a gather slot that its entry still names. A copy waits for the end of the beat (R202,
R276). -/
def verifySlot (s : State) (psa : Nat) : State :=
  match Assoc.get s.media.slots psa with
  | none => s
  | some r =>
    if r.kind != .data || (bit r.flags.toNat 5 && bits r.flags.toNat 7 6 != 0) then s
    else match getNs s r.nsid with
    | none => s
    | some ns =>
      let gran := r.lba.toNat
      let idx := mapIdx ns gran
      match s.xlat.gather.find? fun g => g.psa == some psa with
      | some g =>
        let s1 :=
          if mapGet s idx = .gather g.slot then journalAdd (setEntry (bookUpdate s) ns gran (.media psa)) [jrec .map 0 ns.nsid 1 gran r.seq psa]
          else s
        let own := fun (h : GatherSlot) => decide (g.slot ≤ h.slot ∧ h.slot < g.slot + ns.gslots)
        sweepGather (s1.updXlat fun x => { x with gather := updIf own (fun h => { h with through := false }) x.gather })
      | none => s.updCare fun c => { c with cond := c.cond ++ [psa] }

/-- The conditional update for a verified copy, a host write of the same beat having gone first: the entry still names the slot it was
copied from, told by its SEQ (R202, R276). -/
def conditionalUpdate (s : State) (psa : Nat) : State :=
  match (Assoc.get s.media.slots psa).bind fun r => (getNs s r.nsid).map fun ns => (r, ns) with
  | none => s
  | some (r, ns) =>
    let gran := r.lba.toNat
    let idx := mapIdx ns gran
    let same := match mapGet s idx with
      | .media q => q != psa && ((Assoc.get s.media.slots q).map fun o => o.seq == r.seq && o.nsid == r.nsid && o.lba == r.lba).getD false
      | _ => false
    if !same then s
    else
      let s1 := journalAdd (setEntry (bookUpdate s) ns gran (.media psa)) [jrec .map 1 ns.nsid 1 gran r.seq psa]
      (s1.updXlat fun x => { x with deep := x.deep.filter fun d => d.idx != idx }).updCare fun c =>
        { c with relocated := satAdd c.relocated ns.gslots }

/-- The end of a beat: the conditional updates of the copies verified in it. -/
def conditionalUpdates (s : State) : State := s.care.cond.foldl conditionalUpdate (s.updCare fun c => { c with cond := [] })

/-- Release a band's accumulator once the parity pages of its closed stripes are verified and no stripe of it is open (R254). -/
def releaseAcc (s : State) (serial : Nat) : State :=
  match getBand s serial with
  | none => s
  | some b =>
    let busy := s.media.slots.any fun p => b.columns.contains (psaDie p.1, psaBlock p.1) &&
      ((p.2.kind == .parity && !p.2.verified) || decide (b.nextPage ≤ psaPage p.1))
    if busy then s else modBand s serial fun b => { b with acc := none }

/-- A journal slot's copy in a stripe that is verified counts as written (R209, R413). -/
def verifyJournal (s : State) (psa : Nat) : State :=
  let ok := fun (c : Option (Nat × Bool)) => if c == some (psa, false) then some (psa, true) else c
  s.updXlat fun x => { x with journal := x.journal.map fun j => { j with copyA := ok j.copyA, copyB := ok j.copyB } }

/-- The data slots of a verified stripe. -/
def stripeSlots (b : Band) (p : Nat) : List Nat :=
  (dataCols b.bandId p).flatMap fun c => (List.range 4).map fun i => stripePsa b p c i

/-- A stripe is verified: its granules take their places in the map, its journal slots count as written (R202, R253). -/
def verifyStripe (s : State) (b : Band) (p : Nat) : State :=
  (stripeSlots b p).foldl (fun s psa => if b.system then verifyJournal s psa else verifySlot s psa) s

/-- A word-line program of a die passed: its pages' slots have passed; a stripe all of whose pages have is verified, its data
slots together (R253). -/
def programPassed (s : State) (die block page : Nat) : State :=
  match s.media.bands.find? fun b => b.columns.contains (die, block) with
  | none => s
  | some b =>
    let n := pagesPerWl b.cell
    let mine := fun (psa : Nat) => psaDie psa == die && psaBlock psa == block && decide (page ≤ psaPage psa) && decide (psaPage psa < page + n)
    let data := (s.media.slots.filter fun p => mine p.1 && p.2.kind == .data).length
    let s1 := s.updMedia fun m => { m with slots := m.slots.map fun p => if mine p.1 then (p.1, { p.2 with verified := true }) else p }
    let s2 := if b.cold then s1 else s1.updCare fun c => { c with hostSlots := satAdd c.hostSlots data }
    let s3 := (List.range n).foldl (fun s i => if stripeVerified s b (page + i) then verifyStripe s b (page + i) else s) s2
    releaseAcc s3 b.serial

/-! ### Failures (R61, R279, R288, R292) -/

/-- A program of a block failed (R279). -/
def programFailed (s : State) (die block : Nat) : State :=
  let s1 := (countPfail s die block).updCare fun c => { c with programFails := satAdd c.programFails 1 }
  let s2 := retireBlock s1 die block 1
  match s2.media.bands.find? fun b => b.columns.contains (die, block) with
  | none => s2
  | some b => cutBand (modBand s2 b.serial fun b => { b with failed := true }) b.serial false

/-- Whether a column of a band is still to be erased: BANDED, or DIRTY where its erase was broken off (R275, R419, R453). -/
def unerased (s : State) (b : Band) (c : Nat × Nat) : Bool :=
  let k := getBlock s (blockIdx c.1 c.2)
  k.st == .banded || (k.st == .dirty && k.bandId == b.bandId)

/-- The serial of a band is freed once each of its blocks has been erased or retired (R233, R275). -/
def freeSerial (s : State) (serial : Nat) : State :=
  match getBand s serial with
  | none => s
  | some b =>
    if b.st == .erasing && b.columns.all fun c => !unerased s b c then
      (b.columns.foldl (fun s c => modBlock s (blockIdx c.1 c.2) fun k => { k with bandId := 0 }) s).updMedia fun m =>
        { m with bands := m.bands.filter fun x => x.serial != serial }
    else s

/-- Worn state is left once the pool is back at CARE_FREE_LOW (R294 step 4). -/
def wornCheck (s : State) : State :=
  if s.care.worn && decide (freeLow s ≤ erasedPool s) then
    event ((s.updCare fun c => { c with worn := false }).updXlat fun x => { x with nss := x.nss.map fun n => { n with worn := false } }) 5 0xFF
  else s

/-- An erase of a block passed: it joins the pool with one more PE, or is retired (R275 step 6, R288, R290,
R292). -/
def erasePassed (s : State) (die block : Nat) : State :=
  let i := blockIdx die block
  let b := getBlock s i
  let band := s.media.bands.find? fun x => x.columns.contains (die, block)
  let failedBand := (band.map fun x => x.failed).getD false
  let pe := b.pe + 1
  let deep := decide (nvVal s 0x07000015 ≤ b.depth)
  let s1 := modBlock s i fun k =>
    { k.withPe (peRated s) pe with
      rdCount := 0, st := .erased, depth := 0, iter := 0, erasedAt := s.beat / 65536, bandId := 0, system := k.system && band.isNone
      rawTouched := if b.rawTouched && band.isNone then false else k.rawTouched
      candidate := if b.candNew then true else b.candidate && deep
      candNew := false }
  let s2 := s1.updCare fun c =>
    { c with erases := satAdd c.erases 1, reads := c.reads.filter fun r => !(psaDie r.psa == die && psaBlock r.psa == block) }
  let s3 := s2.updMedia fun m => { m with
      raw := m.raw.filter (fun p => p.1 / 2 ^ 12 != die * 2 ^ 13 + block)
      slots := m.slots.filter (fun p => !(psaDie p.1 == die && psaBlock p.1 == block)) }
  let lim := nvVal s 0x0700001D
  let s4 :=
    if failedBand && b.rawTouched then retireBlock s3 die block 6
    else if b.candidate && !b.candNew && deep then retireBlock s3 die block 3
    else if lim ≠ 0 ∧ lim ≤ pe then retireBlock s3 die block 4
    else s3
  let s5 := match band with
    | some x => freeSerial s4 x.serial
    | none => s4
  wornCheck s5

/-- An erase of a block failed: retired with RCAUSE 2; in an open band with RCAUSE 1, the band cut as for a failed program (R279, R288). -/
def eraseFailed (s : State) (die block : Nat) : State :=
  let s1 := (countPfail s die block).updCare fun c => { c with eraseFails := satAdd c.eraseFails 1 }
  match s1.media.bands.find? fun b => b.columns.contains (die, block) with
  | none => retireBlock s1 die block 2
  | some b =>
    if b.st == .opened then cutBand (modBand (retireBlock s1 die block 1) b.serial fun b => { b with failed := true }) b.serial false
    else freeSerial (retireBlock s1 die block 2) b.serial

/-- Book an erase of a block in the care share. -/
def bookErase (s : State) (die block : Nat) : State :=
  bookOp s die 0 (mkOp .erase block 0 0 (occErase s (dieOct die)) (s.beat + 8191) 0 true)

/-! ### A die or an oct goes dark (R61, R308, R315) -/

/-- Slots on dies that a test picks are out of reach: waiting reads fall back, bands with a column there take
DARK where the whole oct went dark, those with programs not verified are cut, and what these carried is placed again; reads of care work
there are offered again. -/
def reach (s : State) (p : Nat → Bool) (octDark : Bool) : State :=
  let s1 := (s.updFlash fun f => { f with dies := f.dies.map fun d => if p d.d then { d with ops := [] } else d }).updCare fun c =>
    { c with reads := c.reads.map fun r => if p (psaDie r.psa) then { r with booked := false } else r }
  let bs := s1.media.bands.filter fun b => b.columns.any fun c => p c.1
  let s2 := bs.foldl (fun s b => cutBand (modBand s b.serial fun b => { b with dark := b.dark || octDark }) b.serial true) s1
  aroundLost (fallbackWhere s2 fun psa => p (psaDie psa))

end Sys2Proof.Machine
end

