-- ==== Sys2Proof/Machine/System.lean ====
section
/-! DEFINITION. System bands: the octs they lie in, the two copies of the journal, the slots of checkpoints, care records and
library images as they are formed, and which of them are still needed (R207, R209, R213, R234, R257, R268, R371, R413, R419, R487). -/

namespace Sys2Proof.Machine

/-! ### Where system bands lie (R209, R257, R371) -/

/-- Octs of the module's own side. -/
def ownOcts (s : State) : List Nat := (List.range 16).filter fun k => !sided s || octSideB s k == s.twin.side

/-- A reserve block of an oct (R418). -/
def reserveBlock (s : State) (k : Nat) : Option (Nat × Nat) :=
  (s.care.blocks.find? fun b => b.2.st == .erased && b.2.system && dieOct (b.1 / 8192) == k && dieUsable s (b.1 / 8192)).map
    fun b => (b.1 / 8192, b.1 % 8192)

/-- The block a system band draws in an oct: of the pool, or of the Last Light reserve. -/
def sysBlock (s : State) (reserve : Bool) (k : Nat) : Option (Nat × Nat) :=
  if reserve then reserveBlock s k else if octForSide s s.twin.side k then pickBlock s k .slc false else none

/-- The octs of the module's side that a stream may lie in: the journal's first copy in the lower half of them, its second in the
upper half. -/
def streamOcts (s : State) (stream : Nat) : List Nat :=
  let own := ownOcts s
  if stream = 1 then own.take (own.length / 2) else if stream = 2 then own.drop (own.length / 2) else own

/-- The blocks of a new system band of a stream, at most MEDIA_SYS_WIDTH of them. Where a half of the side has fewer than four
octs to use, the copy takes what octs there are (DESIGN CHOICE, log entry 9: the spec does not say what becomes of the second copy
then). -/
def sysColumns (s : State) (stream : Nat) (reserve : Bool) : List (Nat × Nat) :=
  let mine := (streamOcts s stream).filterMap (sysBlock s reserve)
  (if 4 ≤ mine.length then mine else (ownOcts s).filterMap (sysBlock s reserve)).take (sysWidth s)

/-- A band opened from reserve blocks: they leave the reserve, and recovery reads the band in full (R418, R419). -/
def drawReserve (s : State) (serial : Nat) : State :=
  let cols := ((getBand s serial).map Band.columns).getD []
  (cols.foldl (fun s c => modOct s (dieOct c.1) fun o => { o with reserve := o.reserve - 1 }) s).updPower fun p =>
    { p with llBands := p.llBands ++ [serial] }

/-- Open a system band of a stream: SLC, P2. A band from the reserve is one that recovery reads in full (R418, R419). -/
def openSys (s : State) (stream : Nat) (reserve : Bool) : Option (Nat × State) :=
  let cols := sysColumns s stream reserve
  if !reserve && !sysMayDraw s cols.length then none
  else match startBand s { Band.new with system := true, stream := stream } cols 2 with
  | none => none
  | some (serial, s1) =>
    some (serial, if reserve then drawReserve s1 serial else s1)

/-- The open system band of a stream that takes its next slot, opened where there is none. A band needs a parity accumulator for
its stripe (R254). -/
def sysBand (s : State) (stream : Nat) (reserve : Bool) : Option (Nat × State) :=
  let ok := fun (b : Band) => b.st == .opened && b.system && b.stream == stream && !b.failed && !b.dark && (s.power.llBands.contains b.serial == reserve) &&
    decide (b.nextPage < bandPages s b) && (b.acc.isSome || (freeAcc s).isSome)
  match s.media.bands.find? ok with
  | some b => some (b.serial, s)
  | none => if (freeAcc s).isNone then none else openSys s stream reserve

/-- Place a system slot in the band of its stream; none while nothing can take it, or outside the write window (R451). -/
def placeSys (s : State) (stream : Nat) (early reserve : Bool) (r : SlotRec) : Option (Nat × State) :=
  if !(s.therm.window || s.day.sealed.isSome || reserve) then none
  else match sysBand s stream reserve with
  | none => none
  | some (serial, s1) => placeIn s1 serial early [r]

/-- Close the stripe that a stream's open band fills, where something lies in it (R253). -/
def flushStream (s : State) (stream : Nat) : State :=
  (s.media.bands.filter fun b => b.st == .opened && b.system && b.stream == stream).foldl (fun s b =>
    if (stripeFree s b).length < 4 * (b.width - b.pcols) then closeFull (closeStripe s b.serial) b.serial else s) s

/-! ### Journal slots (R207, R209, R413) -/

/-- A journal slot as the slot it is in namespace 0 (R207, R234). -/
def journalRec (s : State) (j : JSlot) : SlotRec :=
  { blankSlot .journal with lba := BitVec.ofNat 64 j.jpos, flags := 3, seq := j.seq, epoch := s.sec.sysEpoch
                            bytes := Mem.ofList (j.recs.flatMap JRecord.bytes) }

/-- Change a journal slot. -/
def modJournal (s : State) (jpos : Nat) (f : JSlot → JSlot) : State :=
  s.updXlat fun x => { x with journal := updIf (fun j => j.jpos == jpos) f x.journal }

/-- Place one copy of a journal slot. -/
def placeCopyOf (s : State) (j : JSlot) (second early reserve : Bool) : State :=
  match placeSys s (if second then 2 else 1) early reserve (journalRec s j) with
  | none => s
  | some (psa, s1) => modJournal s1 j.jpos fun k => if second then { k with copyB := some (psa, false) } else { k with copyA := some (psa, false) }

/-- Place the copies of journal slots that have none; with `early` the stripes they fill are closed at once, so that each program
carries every record there is (R413). -/
def placeJournal (s : State) (early reserve : Bool) : State :=
  let s1 := (s.xlat.journal.filter fun j => j.copyA.isNone).foldl (fun s j => placeCopyOf s j false false reserve) s
  let s2 := (s.xlat.journal.filter fun j => j.copyB.isNone).foldl (fun s j => placeCopyOf s j true false reserve) s1
  if early then flushStream (flushStream s2 1) 2 else s2

/-- Write out journal staging: records go into journal slots while at least `least` wait, and their copies into system bands. In
journal-through, and where a drain wants everything out, stripes are closed early. -/
def journalOut (s : State) (least : Nat) : State :=
  placeJournal (journalDrain (s.xlat.staging.length / 128 + 2) least s) (decide (least ≤ 1)) false

/-! ### Checkpoint slots, care record slots, library images (R213, R265, R266, R268, R487) -/

/-- The 32 bytes of a namespace table entry (R213). -/
def nsEntryBytes (n : Namespace) : List Byte :=
  leBytes 2 n.nsid ++ leBytes 1 (b2n n.g16k) ++ leBytes 1 0 ++ leBytes 4 n.initLines ++ leBytes 8 n.mbase ++ leBytes 8 n.cap ++ leBytes 8 n.cseq

/-- The checkpoint slot of namespace table index i (R213). -/
def tableSlot (s : State) (nss : List Namespace) (i : Nat) : SlotRec :=
  let entry := fun (k : Nat) => match nss.find? fun n => n.nsid == k && k != 0 with
    | some n => nsEntryBytes n
    | none => List.replicate 32 0
  { blankSlot .checkpoint with lba := BitVec.ofNat 64 (2 ^ 47 + i), flags := 5, seq := s.xlat.seq - seqStep s, epoch := s.sec.sysEpoch
                               bytes := Mem.ofList ((List.range 128).flatMap fun k => entry (128 * i + k)) }

/-- The entries of a map line as it stands. -/
def lineLocs (s : State) (line : Nat) : List Loc := (List.range 12).map fun e => mapGet s (12 * line + e)

/-- The 64 bytes of a map line as it stands (R195). -/
def mapLine (s : State) (line : Nat) : List Byte := lineBytes (lineLocs s line)

/-- The checkpoint slot of 64 map lines from a line on (R195, R213). -/
def mapSlot (s : State) (line : Nat) : SlotRec :=
  let lines := (List.range 64).flatMap fun k => mapLine s (line + k)
  { blankSlot .checkpoint with lba := BitVec.ofNat 64 line, flags := 5, seq := s.xlat.seq - seqStep s, epoch := s.sec.sysEpoch, bytes := Mem.ofList lines }

/-- Care record slots of a set (R268). -/
def careSlots : Nat := 230937

/-- The care record slot of an index: 128 block records, or 42 band records. -/
def careSlot (s : State) (set : CareSet) (i : Nat) : SlotRec :=
  let body := if i < 131072 then (List.range 128).flatMap fun k => (blockIn s set.blocks (128 * i + k)).bytes
    else (List.range 42).flatMap fun k => match set.bands.find? fun b => b.serial == 42 * (i - 131072) + k with
      | some b => b.bytes
      | none => List.replicate 96 0
  { blankSlot .care with lba := BitVec.ofNat 64 (2 ^ 47 + set.gen % 256 * 2 ^ 32 + i), flags := 1, seq := s.xlat.seq - seqStep s, epoch := s.sec.sysEpoch
                         bytes := Mem.ofList body }

/-- The stream of a kind of system slot. -/
def kindStream : SlotKind → Nat
  | .checkpoint => 3
  | .care => 4
  | _ => 5

/-- A list with a serial in it. -/
def withSerial (l : List Nat) (k : Nat) : List Nat := if l.contains k then l else l ++ [k]

/-- Place a checkpoint, care record or image slot; the cycle or the set being written notes the band. -/
def placeKind (s : State) (r : SlotRec) : Option State :=
  match placeSys s (kindStream r.kind) false false r with
  | none => none
  | some (psa, s1) =>
    let k := ((bandOf s1 psa).map Band.serial).getD 0
    some (match r.kind with
      | .checkpoint => s1.updXlat fun x => { x with ck := x.ck.map fun c => { c with bands := withSerial c.bands k } }
      | .care => s1.updCare fun c => { c with recWrite := c.recWrite.map fun w => { w with set := { w.set with inBands := withSerial w.set.inBands k } } }
      | _ => s1)

/-- The system slots that wait take their places, in order, and the image stripes are closed (R268, R487). -/
def sysBeat (s : State) : State :=
  if s.media.sysWait.isEmpty then s
  else
    let s1 := s.media.sysWait.foldl (fun s r => match placeKind s r with
      | some t => t
      | none => waitSys s [r]) (s.updMedia fun m => { m with sysWait := [] })
    if s1.media.sysWait.any fun r => r.kind == .image then s1 else flushStream s1 5

/-! ### What is still needed of a system band -/

/-- Whether the Cullet has a verified copy of a checkpoint or care record slot in a band of its own. -/
def movedOn (s : State) (psa : Nat) (r : SlotRec) : Bool :=
  s.media.slots.any fun p => p.1 != psa && p.2.kind == r.kind && p.2.lba == r.lba && p.2.seq == r.seq && p.2.verified &&
    s.media.bands.any fun b => b.stream == 6 && b.columns.contains (psaDie p.1, psaBlock p.1)

/-- Whether a system slot at a place is still needed: a journal slot's copy, or that copy until another is verified; a slot of a
kept generation or care record set, or of one being written; the current image of a library slot. -/
def sysNeeded (s : State) (b : Band) (psa : Nat) (r : SlotRec) : Bool :=
  match r.kind with
  | .journal => s.xlat.journal.any fun j => decide (j.jpos = r.lba.toNat) &&
      ((j.copyA.map Prod.fst) == some psa || (j.copyB.map Prod.fst) == some psa || !(if b.stream = 2 then copyDone j.copyB else copyDone j.copyA))
  | .checkpoint => ((s.xlat.ck.map Ckpt.bands).getD []).contains b.serial ||
      (s.xlat.gens.any (fun g => g.bands.contains b.serial) && !movedOn s psa r)
  | .care => ((s.care.recWrite.map fun w => w.set.inBands).getD []).contains b.serial ||
      (s.care.recSets.any (fun k => k.inBands.contains b.serial) && !movedOn s psa r)
  | .image => s.zci.lib.any fun l => decide (l.slot = bits r.lba.toNat 43 32) && !(s.media.slots.any fun p => p.1 != psa && p.2.kind == .image &&
      p.2.lba == r.lba && (decide (r.seq < p.2.seq) || (p.2.seq == r.seq && p.2.verified && decide (psa < p.1))))
  | _ => false

/-- The slots of a band. -/
def bandSlots (s : State) (b : Band) : List (Nat × SlotRec) := s.media.slots.filter fun p => b.columns.contains (psaDie p.1, psaBlock p.1)

/-- Whether a band still holds a system slot that is needed. -/
def sysHeld (s : State) (b : Band) : Bool := b.system && (bandSlots s b).any fun p => sysNeeded s b p.1 p.2

/-- The serials of the bands of a stream that are open. -/
def streamBands (s : State) (stream : Nat) : List Nat :=
  (s.media.bands.filter fun b => b.st == .opened && b.system && b.stream == stream).map Band.serial

/-- Whether every slot of some bands has passed. -/
def bandsVerified (s : State) (ks : List Nat) : Bool :=
  s.media.slots.all fun p => p.2.verified || !(s.media.bands.any fun b => ks.contains b.serial && b.columns.contains (psaDie p.1, psaBlock p.1))

/-- Close the open bands of a stream. -/
def closeStream (s : State) (stream : Nat) : State :=
  ((streamBands s stream).foldl (fun s k => markClosed s k) (flushStream s stream))

/-! ### Moving system slots (R235, R275) -/

/-- The Cullet copies a system slot of a victim to a band of its stream, checkpoint and care record slots to one of their own: the
same plaintext, key and epoch, encrypted under the tweak of the new band. What names the slot follows. -/
def moveSys (s : State) (b : Band) (psa : Nat) (r : SlotRec) : State :=
  let stream := if r.kind = .checkpoint ∨ r.kind = .care then 6 else b.stream
  match placeSys s stream false false r with
  | none => s
  | some (q, s1) =>
    let home := ((bandOf s1 q).map Band.serial).toList
    let more := fun (l : List Nat) => if l.contains b.serial then l ++ home.filter fun k => !l.contains k else l
    match r.kind with
    | .journal => modJournal s1 r.lba.toNat fun j =>
        { j with copyA := if (j.copyA.map Prod.fst) = some psa then some (q, false) else j.copyA
                 copyB := if (j.copyB.map Prod.fst) = some psa then some (q, false) else j.copyB }
    | .checkpoint => s1.updXlat fun x => { x with gens := x.gens.map fun g => { g with bands := more g.bands } }
    | .care => s1.updCare fun c => { c with recSets := c.recSets.map fun k => { k with inBands := more k.inBands } }
    | _ => s1

/-- Band IDs of serials. -/
def bandIds (s : State) (ks : List Nat) : List Nat := ks.filterMap fun k => (getBand s k).map fun b => b.bandId.toNat

/-- The body of an ANCHOR entry (R483). -/
def anchorBody (a : Anchor) : List Byte :=
  leBytes 4 a.gen ++ leBytes 6 a.beginJpos ++ leBytes 2 a.bands.length ++ leBytes 4 a.careGen ++ leBytes 4 a.peMean ++ leBytes 2 a.careBands.length ++
  leBytes 2 0 ++ (a.bands ++ a.careBands).flatMap (leBytes 4)

/-- The anchor that a body of an ANCHOR entry gives (R383, R483). -/
def Anchor.ofBody (b : List Byte) : Anchor :=
  let ids := fun (from_ n : Nat) => (List.range n).map fun i => field b (24 + 4 * (from_ + i)) 4
  let c := field b 10 2
  { gen := field b 0 4, beginJpos := field b 4 6, careGen := field b 12 4, prevCareGen := 0, peMean := field b 16 4
    bands := ids 0 c, careBands := ids c (field b 20 2) }

/-- The words of an ANCHOR frame: the body of the entry (R379, R383, R483). -/
def anchorWords (a : Anchor) : List (BitVec 64) :=
  let bs := anchorBody a
  (List.range (ceilDiv bs.length 8)).map fun i => BitVec.ofNat 64 (field bs (8 * i) 8)

/-- Begin to write the anchor: the newest generation with its bands, the newest care record set with its bands; a PAIRED module sends it to
its twin (R214, R268, R383). -/
def writeAnchor (s : State) : State :=
  match s.xlat.gens.getLast? with
  | none => s
  | some g =>
    let set := s.care.recSets.head?
    let a : Anchor := { gen := g.gen, beginJpos := g.beginJpos, careGen := (set.map CareSet.gen).getD 0,
                        prevCareGen := (((s.care.recSets.drop 1).head?).map CareSet.gen).getD 0, peMean := peMean s, bands := bandIds s g.bands,
                        careBands := bandIds s ((set.map CareSet.inBands).getD []) }
    let s1 := norAppend s 0x02 0 (anchorBody a)
    if s.twin.st = .paired then sendPunty s1 0x0A 0 0 (anchorWords a) [] else s1

/-- A system band that the Cullet has emptied is named no more; the anchor is written anew where it named it. -/
def unlistBand (s : State) (serial : Nat) : State :=
  let listed := (s.xlat.gens.any fun g => g.bands.contains serial) || s.care.recSets.any fun k => k.inBands.contains serial
  if !listed then s
  else writeAnchor ((s.updXlat fun x => { x with gens := x.gens.map fun g => { g with bands := g.bands.filter (· != serial) } }).updCare fun c =>
    { c with recSets := c.recSets.map fun k => { k with inBands := k.inBands.filter (· != serial) } })

end Sys2Proof.Machine
end

