-- ==== Sys2Proof/Machine/Media.lean ====
section
/-! DEFINITION. What the dies and decoders report: array status, late operations, decoded slots, deep
recovery, and the placing of gather slots (R57 to R60, R237 to R246, R253, R275, R279, R282, R283, R314, R315). -/

namespace Sys2Proof.Machine

/-! ### Array status (R314) -/

/-- The operation of a die whose booked occupancy ends first. -/
def dueOp (d : Die) : Option ArrayOp :=
  d.ops.foldl (fun m o => match m with
    | none => some o
    | some p => if o.start + o.busy < p.start + p.busy then some o else some p) none

/-- Take an operation out of a die's queue. -/
def popOp (s : State) (die : Nat) (o : ArrayOp) : State :=
  modDie s die fun d => { d with ops := d.ops.erase o }

/-- Count a late operation once (R314). -/
def countLate (s : State) : State := s.updFlash fun f => { f with lateOps := satAdd f.lateOps 1 }

/-- The blocks an operation covers. -/
def ArrayOp.covers (o : ArrayOp) : List Nat := o.block :: o.also

/-- The outcome of a due operation. The status of one that covers blocks of several planes is that of each of them (DESIGN CHOICE, log
entry 28: R314 reads one status). -/
def opStatus (s : State) (die : Nat) (o : ArrayOp) (ready fail : Bool) : State :=
  let each := fun (f : State → Nat → State) => o.covers.foldl f (popOp s die o)
  if o.kind = .read then
    let s1 := countRead (popOp s die o) die o.block
    if ready then s1
    else fallbackWhere (countLate s1) fun psa => psaDie psa == die && psaBlock psa == o.block && psaPage psa == o.page
  else if !ready then
    if o.reset then s else modDie (countLate s) die fun d => { d with ops := updIf (· == o) (fun p => { p with reset := true }) d.ops }
  else if o.kind = .program then each fun s b => if fail then programFailed s die b else programPassed s die b o.page
  else each fun s b => if fail then eraseFailed s die b else erasePassed s die b

/-- A suspend that the die did not honour: the operation goes on as booked, and the reads it was suspended for fall back (R59, R314). -/
def suspendFailed (s : State) (die : Nat) (o : ArrayOp) (k : Susp) : State :=
  let reads := ((getDie s die).map fun d => d.ops.filter k.holds).getD []
  let s1 := modDie s die fun d =>
    { d with ops := updIf (· == o) (fun p => { p with susps := p.susps.erase k, busy := p.busy - k.len }) (d.ops.filter fun p => !k.holds p) }
  fallbackWhere s1 fun psa => psaDie psa == die && reads.any fun r => r.block == psaBlock psa && r.page == psaPage psa

/-- The operation of a die whose suspend issues on this beat. -/
def suspending (s : State) (d : Die) : Option (ArrayOp × Susp) :=
  d.ops.findSome? fun o => (o.susps.find? fun k => k.at_ == s.beat).map fun k => (o, k)

/-- ARRAY_STATUS: in a suspend beat, whether the die is suspended; in the beat in which the booked occupancy ends, or each later beat
while it stays busy, the operation's status. -/
def execArrayStatus (die : Nat) (ready fail : Bool) (s : State) : Host.Outcome State Fault Refusal :=
  .next (match getDie s die with
    | none => s
    | some d => match suspending s d with
      | some (o, k) => if ready then s else suspendFailed s die o k
      | none => match dueOp d with
        | none => s
        | some o => if s.beat < o.start + o.busy then s else opStatus s die o ready fail)

/-- A die goes dark alone (R315, R61). -/
def dieDark (s : State) (die : Nat) : State := reach (modDie s die fun d => { d with dark := true }) (· == die) false

/-- RESET to the LUN of an operation still busy at 4 times its profile occupancy, which counts as failed (R314). -/
def lateReset (s : State) (die : Nat) (o : ArrayOp) : State :=
  let s1 := emit (modDie (popOp s die o) die fun d => { d with resetAt := some s.beat }) (.nand die 0xFF 0 [])
  o.covers.foldl (fun s b => if o.kind = .program then programFailed s die b else eraseFailed s die b) s1

/-- LATE_OP_RESET: RESET for a program or erase still busy at 4 times its profile occupancy. A die that needs a second such RESET within
1,000,000 beats of the first goes dark alone, as does one that is not ready 250 beats after its RESET, which a later LATE_OP_RESET with
`readyAfter` false reports (R314, R315). -/
def execLateOpReset (die : Nat) (readyAfter : Bool) (s : State) : Host.Outcome State Fault Refusal :=
  .next (match getDie s die with
    | none => s
    | some d =>
      let late := d.ops.find? fun o => o.kind != .read && decide (o.start + o.busy ≤ s.beat) && decide (o.start + 4 * o.occ ≤ s.beat)
      match late, d.resetAt with
      | some o, some b => if s.beat ≤ b + 1000000 then dieDark (lateReset s die o) die else lateReset s die o
      | some o, none => lateReset s die o
      | none, some b => if !readyAfter && !d.dark && decide (s.beat = b + 250) then dieDark s die else s
      | none, none => s)

/-! ### Ladder depth and patrol findings (R265, R282, R291) -/

/-- Raise a block's DEPTH; at CARE_RETIRE_DEPTH it becomes a retirement candidate. -/
def raiseDepth (s : State) (die block k : Nat) : State :=
  modBlock s (blockIdx die block) fun b =>
    let reached := decide (nvVal s 0x07000015 ≤ k)
    { b with depth := max b.depth k, candNew := b.candNew || (reached && !b.candidate), candidate := b.candidate || reached }

/-- Mark a granule unrecoverable, with its UNRECOV record; its deep recovery ends (R60, R246). -/
def markUnrecov (s : State) (ns : Namespace) (gran seq : Nat) : State :=
  let i := mapIdx ns gran
  if s.xlat.unrecov.contains i then s
  else
    let s1 := s.updXlat fun x => { x with unrecov := x.unrecov ++ [i], deep := x.deep.filter fun d => d.idx != i }
    journalAdd s1 [jrec .unrecov 0 ns.nsid 1 gran seq 0]

/-- The first slot of the granule a slot belongs to. -/
def granBase (psa : Nat) (r : SlotRec) : Nat := if bit r.flags.toNat 5 then psa - bits r.flags.toNat 7 6 else psa

/-- Whether the map entry names the granule at a slot. -/
def isValid (s : State) (psa : Nat) (r : SlotRec) : Bool :=
  r.kind == .data && match getNs s r.nsid with
    | some ns => mapGet s (mapIdx ns r.lba.toNat) == .media (granBase psa r)
    | none => false

/-- Whether a column the rebuild of a slot needs is dark (R47): the granule is not marked unrecoverable meanwhile. -/
def columnDark (s : State) (psa : Nat) : Bool :=
  match bandOf s psa with
  | some b => b.columns.any fun c => !dieUsable s c.1
  | none => false

/-- What a patrol or disturb read finds (R282). -/
def patrolFinding (s : State) (psa : Nat) (r : SlotRec) (k : Nat) : State :=
  let die := psaDie psa
  let block := psaBlock psa
  let lost := k = 6 ∧ isValid s psa r
  let s1 := if lost then
      match getNs s r.nsid with
      | some ns => markUnrecov s ns r.lba.toNat r.seq
      | none => s
    else s
  let hit := decide (nvVal s 0x07000014 ≤ k) && decide (k ≤ 5) || k == 5 || decide (lost) || decide (nvVal s 0x07000013 ≤ (getBlock s (blockIdx die block)).iter)
  if hit then
    let m := markRefresh s1 die block
    if m.1 then m.2.updCare fun c => { c with refreshPatrol := satAdd c.refreshPatrol 1 } else m.2
  else s1

/-- Change a read of care work. -/
def modRead (s : State) (e : CareRead) (f : CareRead → CareRead) : State := s.updCare fun c => { c with reads := updIf (· == e) f c.reads }

/-- Forget the reads of care work that a test picks. -/
def dropReads (s : State) (p : CareRead → Bool) : State := s.updCare fun c => { c with reads := c.reads.filter fun e => !p e }

/-- The reads of a victim's granule. -/
def ofGranule (base n : Nat) (e : CareRead) : Bool := e.use == .victim && decide (base ≤ e.psa) && decide (e.psa < base + n)

/-- The copy of a victim's granule once each of its slots has been delivered; where no band takes it, it is tried again later (R275 step
4). -/
def copyGranule (s : State) (ns : Namespace) (base : Nat) : State :=
  if (s.care.reads.filter fun e => ofGranule base ns.gslots e && e.done).length ≠ ns.gslots then s
  else match placeCopy s ns base with
    | some (_, s1) => dropReads s1 (ofGranule base ns.gslots)
    | none => s

/-- What the Cullet does with a slot of its victim that the ladder delivered or gave up (R275). -/
def relocate (s : State) (psa : Nat) (r : SlotRec) (ok : Bool) : State :=
  if !isValid s psa r then dropReads s fun e => e.psa == psa && e.use == .victim
  else match getNs s r.nsid with
  | none => s
  | some ns =>
    let base := granBase psa r
    if ok then copyGranule s ns base
    else
      let s1 := dropReads (subValid (markUnrecov s ns r.lba.toNat r.seq) base ns.gslots) (ofGranule base ns.gslots)
      s1.updMedia fun m => { m with slots := m.slots.filter fun p => !(decide (base ≤ p.1) && decide (p.1 < base + ns.gslots)) }

/-- Whether a further copy of a system slot is placed and not yet verified. -/
def sysPending (s : State) (psa : Nat) (r : SlotRec) : Bool :=
  s.media.slots.any fun p => p.1 != psa && p.2.kind == r.kind && p.2.lba == r.lba && p.2.seq == r.seq && !p.2.verified

/-- What the Cullet does with a system slot of its victim (R235, R275): delivered, it is copied. Not delivered, a journal slot is
written again where its other copy stands, a library image piece from the code pages that hold it; a checkpoint or care record slot
stays until a new cycle, asked for at once, has released its generation. -/
def relocateSys (s : State) (b : Band) (psa : Nat) (r : SlotRec) (ok : Bool) : State :=
  if !sysNeeded s b psa r || (r.kind != .journal && sysPending s psa r) then s
  else if ok then moveSys s b psa r
  else match r.kind with
  | .journal => modJournal s r.lba.toNat fun j =>
      if copyDone (if b.stream = 2 then j.copyA else j.copyB) then
        { j with copyA := if b.stream = 2 then j.copyA else none, copyB := if b.stream = 2 then none else j.copyB }
      else j
  | .image => waitSys s [r]
  | _ => s.updXlat fun x => { x with ckWant := true }

/-- A system slot of a victim that the ladder delivered or gave up; its read is over unless its copy has still to find a place. -/
def relocateSysRead (s : State) (b : Band) (e : CareRead) (r : SlotRec) (ok : Bool) : State :=
  let t := relocateSys s b e.psa r ok
  if ok && sysNeeded t b e.psa r && !sysPending t e.psa r then t else dropReads t fun x => x.psa == e.psa && x.use == .victim

/-- A read of care work ends: step k of the ladder delivered the slot, 5 the rebuild, or none did, 6. The block's DEPTH and the
histogram, the ITER of a hard decode of the Lehr, then what the work does with it (R265, R275, R282). -/
def endCareRead (s : State) (e : CareRead) (r : SlotRec) (k iter : Nat) : State :=
  let s1 := raiseDepth s (psaDie e.psa) (psaBlock e.psa) k
  let lehr := e.use == .patrol || e.use == .disturb
  let s2 := if k = 1 && lehr then modBlock s1 (blockIdx (psaDie e.psa) (psaBlock e.psa)) fun b => { b with iter := max b.iter iter } else s1
  let s3 := s2.updCare fun c => { c with depthHist := vset c.depthHist (k - 1) (satAdd (vget c.depthHist (k - 1) 0) 1) }
  match e.use with
  | .victim =>
    let s4 := modRead s3 e fun x => { x with done := true }
    match bandOf s e.psa with
    | some b => if b.system then relocateSysRead s4 b e r (k != 6) else relocate s4 e.psa r (k != 6)
    | none => s4
  | .patrol =>
    patrolFinding (dropReads (s3.updCare fun c =>
      { c with passSampled := c.passSampled + 1, passDeep := c.passDeep + b2n (decide (2 ≤ k)) }) (· == e)) e.psa r k
  | .disturb => patrolFinding (dropReads s3 (· == e)) e.psa r k
  | _ => s3

/-! ### Decoded slots (R238, R241 to R246, R255) -/

/-- A place on an oct of the twin's side that no band of this module's tables covers: the twin wrote it. -/
def twinWrote (s : State) (psa : Nat) : Bool :=
  sided s && octSideB s (dieOct (psaDie psa)) != s.twin.side && serves s (!s.twin.side) && (bandOf s psa).isNone

/-- Checks 3 and 4 of the slot check: the slot is one the module wrote at its place, or one the twin wrote there. -/
def placeCheck (s : State) (psa : Nat) (r : SlotRec) : Bool :=
  match bandOf s psa with
  | some b => r.bandId == b.bandId && r.column == columnOf b psa && r.cell == b.cell && decide (r.flags.toNat < 256)
  | none => twinWrote s psa

/-- Check 5: the granule requested (R241); a slot without a reachable key is never delivered (R509). -/
def requestCheck (s : State) (c gran part : Nat) (r : SlotRec) : Bool :=
  match getCtx s c with
  | none => false
  | some x =>
    let g16 := ((ctxNs s x).map Namespace.g16k).getD false
    keyReach s r.nsid r.epoch && r.kind == .data && r.nsid == x.entry.nsid.toNat && r.lba.toNat == gran && bit r.flags.toNat 0 && !bit r.flags.toNat 1 &&
    !bit r.flags.toNat 2 && bit r.flags.toNat 5 == g16 && (!g16 || bits r.flags.toNat 7 6 == part)

/-- Deliver a slot of a granule read: its data and its stored tag. -/
def deliver (s : State) (c gran part : Nat) (r : SlotRec) (d : Deliver) : State :=
  let s1 := modCtx s c fun y => { y with reads := updIf (fun k => k.gran == gran) (fun k =>
    { k with slots := k.slots.set part d, tag := r.tag,
             bytes := Mem.splice k.bytes (4096 * part) 4096 (Mem.slice r.bytes 0 4096 0) }) y.reads }
  match ((getCtx s c).bind fun y => y.reads.find? fun k => k.gran == gran).map GranRead.loc with
  | some (.media psa) => releaseLadder s1 c (psa + part)
  | _ => s1

/-- Count a decode outcome of R241 or of the ladder. -/
def countMedia (s : State) (f : Media → Media) : State := s.updMedia f

/-- Whether the ladder that a read permits gives a codeword at a step: the hard decode of the promise path, steps 1 to 4 for D5; an
erased slot is not decoded (R242 to R245). -/
def ladderOk (d5 erased : Bool) (step : Nat) : Bool := !erased && (if d5 then decide (1 ≤ step) && decide (step ≤ 4) else step == 1)

/-- Count the decode of a slot and whether it failed (R241 to R244): the hard decode of the promise path, or the ladder of D5. -/
def countDecode (s : State) (d5 erased ok : Bool) : State :=
  countMedia s fun m =>
    if d5 then { m with softFails := if ok then m.softFails else satAdd m.softFails 1 }
    else { m with hardDecodes := if erased then m.hardDecodes else satAdd m.hardDecodes 1
                  hardFails := if ok then m.hardFails else satAdd m.hardFails 1 }

/-- A slot that fails its check: its read is left to a fallback, but for a D5 read with steps of the ladder still to come (R241,
R244). -/
def checkFailed (s : State) (d5 : Bool) (step c gran part : Nat) : State :=
  if d5 && decide (step < 4) then s
  else fallbackSlot (countMedia s fun m => { m with softFails := if d5 then satAdd m.softFails 1 else m.softFails }) c gran part

/-- One waiting slot of a context is decoded: the hard decode of a promise-path read, or steps 1 to 4 of a
D5 read (R243 to R245). -/
def ctxDecode (s : State) (psa c gran part step : Nat) (crcOk erased : Bool) (got : Option SlotRec) : State :=
  match getCtx s c with
  | none => s
  | some x =>
    let d5 := x.entry.cls == 5
    let ok := ladderOk d5 erased step
    let s0 := countDecode s d5 erased ok
    if !ok then fallbackSlot s0 c gran part
    else if !crcOk then checkFailed (countMedia s0 fun m => { m with miscorrects := satAdd m.miscorrects 1 }) d5 step c gran part
    else match got with
    | none => checkFailed (countMedia s0 fun m => { m with misdirects := satAdd m.misdirects 1 }) d5 step c gran part
    | some r =>
      if !placeCheck s psa r || !requestCheck s c gran part r then
        checkFailed (countMedia s0 fun m => { m with misdirects := satAdd m.misdirects 1 }) d5 step c gran part
      else
        let s1 := countMedia s0 fun m => { m with softDecodes := if 2 ≤ step then satAdd m.softDecodes 1 else m.softDecodes }
        raiseDepth (deliver s1 c gran part r .direct) (psaDie psa) (psaBlock psa) step

/-! ### Rebuild (R58, R255) -/

/-- The slots of contexts read around at a PSA. -/
def aroundSlots (s : State) (psa : Nat) : List (Nat × Nat × Nat) :=
  s.ctxs.flatMap fun x => x.reads.flatMap fun r => match r.loc with
    | .media q => (r.slots.zipIdx.filter fun d => d.1 == .around && q + d.2 == psa).map fun d => (x.c, r.gran, d.2)
    | _ => []

/-- Every place that contexts read around. -/
def aroundPlaces (s : State) : List Nat :=
  s.ctxs.flatMap fun x => x.reads.flatMap fun r => match r.loc with
    | .media q => (r.slots.zipIdx.filter fun d => d.1 == .around).map fun d => q + d.2
    | _ => []

/-- The slots that care work rebuilds. -/
def careRebuilds (s : State) : List Nat := (s.care.reads.filter fun e => e.stage == 2).map CareRead.psa

/-- What was decoded for a slot that nothing reads around or rebuilds any more goes. -/
def sweepTries (s : State) : State :=
  if s.media.tries.isEmpty then s
  else s.updMedia fun m => { m with tries := m.tries.filter fun t => (aroundPlaces s).contains t.slot || (careRebuilds s).contains t.slot }

/-- The information bytes of a column's slot, where it is among those that ended as codewords. -/
def goodInfo (s : State) (good : List Nat) (q : Nat) : Option (List Byte) :=
  if good.contains q then ((Assoc.get s.media.slots q).filter fun r => !r.gone).map slotInfo else none

/-- The information bytes that the codewords of the other columns give for a slot, by the computations of R255; a parity slot anew
from the data columns (R251, R252). -/
def rebuildOf (s : State) (psa : Nat) (good : List Nat) : Option (List Byte) :=
  match bandOf s psa with
  | none => none
  | some b =>
    let info := fun (c : Nat) => goodInfo s good (stripePsa b (psaPage psa) c (psaSlot psa))
    let dc := dataCols b.bandId (psaPage psa)
    let ds := dc.map info
    let col := columnOf b psa
    if dc.contains col then
      rebuildData ds (info (psaPage psa % b.width)) (if b.pcols = 2 then info ((psaPage psa + 1) % b.width) else none) (dc.takeWhile (· != col)).length
    else if ds.all Option.isSome then
      some (((if col = psaPage psa % b.width then parityP else parityQ) (ds.filterMap id)).take 4160)
    else none

/-- The columns among those that ended as codewords from which a slot is computed: of a parity slot the data columns, of a data column the
others without Q where they are enough (R251, R252, R255). -/
def usedColumns (s : State) (psa : Nat) (good : List Nat) : List Nat :=
  match bandOf s psa with
  | none => good
  | some b =>
    let p := psaPage psa
    let isData := fun (q : Nat) => (dataCols b.bandId p).contains (columnOf b q)
    if !isData psa then good.filter isData
    else
      let noQ := if b.pcols = 2 then good.filter fun q => columnOf b q != (p + 1) % b.width else good
      if (rebuildOf s psa noQ).isSome then noQ else good

/-- Whether a rebuilt slot passes the slot check: what the columns give is what the slot was written with, from codewords that are
each what their column was written with. -/
def rebuiltRight (s : State) (psa : Nat) (good : List Nat) (r : SlotRec) : Bool := rebuildOf s psa good == some (slotInfo r)

/-- A decode of another column's slot for a slot read around: noted once; the promise path takes the hard decode alone (R58,
R243). -/
def columnTry (s : State) (target q step : Nat) (crcOk erased : Bool) : State :=
  if s.media.tries.any fun t => t.slot == target && t.column == q then s
  else
    let d5 := (aroundSlots s target).all fun w => ((getCtx s w.1).map fun x => x.entry.cls == 5).getD false
    let ok := ladderOk d5 erased step
    let s1 := countMedia (countDecode s d5 erased ok) fun m => { m with softDecodes := if d5 && ok && decide (2 ≤ step) then satAdd m.softDecodes 1 else m.softDecodes }
    s1.updMedia fun m => { m with tries := m.tries ++ [{ slot := target, column := q, converged := ok, passed := ok && crcOk }] }

/-- Whether every other column that can be read has been decoded for a slot read around. -/
def columnsEnded (s : State) (psa : Nat) : Bool := (otherSlots s psa).all fun q => s.media.tries.any fun t => t.slot == psa && t.column == q

/-- The rebuild of a slot read around ends for a context: delivered when it passes the slot check (R58, R255), otherwise counted
(R241) and left to deep recovery (R59). A column it is computed from that was decoded to another codeword than its own spoils the
rebuild. -/
def ctxRebuild (s : State) (psa c gran part : Nat) (crcOk : Bool) (got : Option SlotRec) : State :=
  let mine := s.media.tries.filter fun t => t.slot == psa && t.converged
  let good := usedColumns s psa (mine.map ColumnTry.column)
  match got, rebuildOf s psa good with
  | some r, some _ =>
    if !crcOk || !(mine.all fun t => t.passed || !good.contains t.column) || !rebuiltRight s psa good r then
      fallbackSlot (countMedia s fun m => { m with miscorrects := satAdd m.miscorrects 1 }) c gran part
    else if !placeCheck s psa r || !requestCheck s c gran part r then
      fallbackSlot (countMedia s fun m => { m with misdirects := satAdd m.misdirects 1 }) c gran part
    else
      let s1 := (countMedia s fun m => { m with rebuilt := satAdd m.rebuilt 1 }).updPlan fun p => { p with readArounds := satAdd p.readArounds 1 }
      raiseDepth (deliver s1 c gran part r .rebuilt) (psaDie psa) (psaBlock psa) 5
  | _, _ => fallbackSlot s c gran part

/-- What the twin wrote is outside this module until it is read: a slot of it read for the first time holds free
values (log entry 21) and is kept as read. -/
def learnSlot (s : State) (psa : Nat) : State :=
  match Assoc.get s.media.slots psa, waitingSlots s (· == psa) with
  | none, (c, gran, part) :: _ =>
    match getCtx s c with
    | none => s
    | some x => if !twinWrote s psa then s else
      let g16 := ((ctxNs s x).map Namespace.g16k).getD false
      let free := fun i => Config.freeValue (s.freeCtr + i)
      let r : SlotRec :=
        { kind := .data, lba := BitVec.ofNat 64 gran, nsid := x.entry.nsid.toNat, flags := BitVec.ofNat 16 (1 + 32 * b2n g16 + 64 * (if g16 then part else 0)),
          agroup := 0, seq := (free 0).toNat, bandId := 0, column := 0, cell := .slc, tag := free 1, epoch := nsEpoch s x.entry.nsid.toNat,
          bytes := Mem.ofList ((List.range 512).flatMap fun i => leBytes 8 (free (i + 2)).toNat), verified := true }
      (s.updFreeCtr (· + 514)).updMedia fun m => { m with slots := Assoc.set m.slots psa r }
  | _, _ => s

/-- A column read for a rebuild of care work ends, as a codeword or not. -/
def endColumn (s : State) (e : CareRead) (converged passed : Bool) : State :=
  (dropReads s (· == e)).updMedia fun m =>
    { m with tries := m.tries ++ [{ slot := e.target, column := e.psa, converged := converged, passed := passed }] }

/-- The rebuild of step 5 for care work, once every other column that can be read has been decoded. Not delivered while a column is dark,
the slot waits for that column (R47, R255, R275). -/
def careRebuild (s : State) (e : CareRead) (r : SlotRec) (crcOk : Bool) : State :=
  let mine := s.media.tries.filter fun t => t.slot == e.psa && t.converged
  let good := usedColumns s e.psa (mine.map ColumnTry.column)
  if crcOk && placeCheck s e.psa r && (mine.all fun t => t.passed || !good.contains t.column) && rebuiltRight s e.psa good r then
    endCareRead (countMedia s fun m => { m with rebuilt := satAdd m.rebuilt 1 }) e r 5 0
  else if columnDark s e.psa then modRead s e fun x => { x with stage := 3, booked := false }
  else endCareRead s e r 6 0

/-- A decode that care work awaits. The hard decode delivers the slot or leaves it to steps 2 to 4, these deliver it at the first step
that passes the slot check or leave it to the rebuild; a column need only end as a codeword (R241, R244, R255). -/
def careDecode (s : State) (psa step iter : Nat) (crcOk erased : Bool) (r : SlotRec) : State :=
  match s.care.reads.find? fun e => e.psa == psa && e.use != .deep && e.booked && !e.done && decide (e.stage ≤ 2) with
  | none => s
  | some e =>
    let mine := if e.stage = 0 then decide (step ≤ 1) else step == 0 || (decide (2 ≤ step) && decide (step ≤ 4))
    if e.stage = 2 then (if step = 5 ∧ columnsEnded s psa then sweepTries (careRebuild s e r crcOk) else s)
    else if !mine then s
    else
      let word := !erased && step != 0
      let place := placeCheck s psa r && !r.gone
      let column := e.use == .column
      let done := word && (column || (crcOk && place))
      let s1 := countMedia s fun m =>
        { m with softDecodes := if done && decide (2 ≤ step) then satAdd m.softDecodes 1 else m.softDecodes
                 softFails := if !done && e.stage == 1 && (step == 0 || step == 4) then satAdd m.softFails 1 else m.softFails
                 miscorrects := if word && !column && !crcOk then satAdd m.miscorrects 1 else m.miscorrects
                 misdirects := if word && !column && crcOk && !place then satAdd m.misdirects 1 else m.misdirects }
      if done then (if column then endColumn s1 e true (crcOk && !r.gone) else endCareRead s1 e r step iter)
      else if e.stage = 0 then modRead s1 e fun x => { x with stage := 1, booked := false }
      else if step ≠ 0 ∧ step ≠ 4 then s1
      else if column then endColumn s1 e false false
      else modRead s1 e fun x => { x with stage := 2, booked := false }

/-- A decoder finishes a slot. `step` is the step of R244 that converged, 5 for the rebuild of R255, 0 for none. The slot is one that
contexts read, or another column of one that they read around, or one that care work reads as its stage of the ladder has it; the rebuild
of a slot ends once each of its columns has been decoded; no other slot that a context awaits has a step 5 (R245). With MEDIA_RETRY_STEPS 0 there is no step 2. -/
def slotDecode (s0 : State) (psa zeros step iter : Nat) (crcOk : Bool) : State :=
  let s1 := learnSlot (sweepTries s0) psa
  let s := match Assoc.get s1.media.slots psa with
    | some r => useKey s1 r.nsid r.epoch
    | none => s1
  let erased := decide (zeros ≤ nvVal s 0x06000008)
  let rec_ := Assoc.get s.media.slots psa
  let got := rec_.filter fun r => !r.gone
  let ws := readingSlots s (· == psa)
  let around := (aroundPlaces s).eraseDups.filter fun t => (otherSlots s t).contains psa
  if step = 2 ∧ nvVal s 0x06000009 = 0 then s
  else if step = 5 ∧ aroundSlots s psa ≠ [] then
    if columnsEnded s psa then sweepTries ((byDeadline s (aroundSlots s psa)).foldl (fun s w => ctxRebuild s psa w.1 w.2.1 w.2.2 crcOk got) s) else s
  else if ws ≠ [] ∨ around ≠ [] then
    if step = 5 then s else around.foldl (fun s t => columnTry s t psa step crcOk erased) ((byDeadline s ws).foldl (fun s w => ctxDecode s psa w.1 w.2.1 w.2.2 step crcOk erased got) s)
  else match rec_ with
  | none => s
  | some r => careDecode s psa step iter crcOk erased r

/-- SLOT_DECODE. -/
def execSlotDecode (psa zeros step iter : Nat) (crcOk : Bool) (s : State) : Host.Outcome State Fault Refusal :=
  .next (slotDecode s psa zeros step iter crcOk)

/-! ### Deep recovery (R60, R246) -/

/-- The D5 reads that wait for a granule's outcome get it (R60). -/
def deepAnswer (s : State) (idx psa : Nat) (ns : Namespace) (gran : Nat) (ok : Bool) : State :=
  let ws := waitingSlots s fun p => decide (psa ≤ p) && decide (p < psa + ns.gslots)
  ws.foldl (fun s w =>
    match getCtx s w.1 with
    | some x =>
      if x.entry.cls == 5 && x.entry.nsid.toNat == ns.nsid && w.2.1 == gran && mapIdx ns gran == idx then
        if ok then
          match Assoc.get s.media.slots (psa + w.2.2) with
          | some r => deliver s w.1 gran w.2.2 r .direct
          | none => setSlot s w.1 gran w.2.2 .unrecov
        else setSlot s w.1 gran w.2.2 .unrecov
      else s
    | none => s) s

/-- Whether a copy of a granule is already placed and not yet verified. -/
def copyPending (s : State) (psa : Nat) : Bool :=
  match Assoc.get s.media.slots psa with
  | none => false
  | some r => s.media.slots.any fun p => p.1 != psa && p.2.kind == .data && p.2.seq == r.seq && p.2.nsid == r.nsid && p.2.lba == r.lba && !p.2.verified

/-- The data of a granule that deep recovery delivered is rewritten to a new place while its entry still names the failed one; where no
place takes it, it is tried again later. -/
def rewriteDeep (s : State) (d : DeepRec) (ns : Namespace) : State :=
  if mapGet s d.idx = .media d.psa ∧ !copyPending s d.psa then
    match placeCopy s ns d.psa with
    | some (_, t) => t
    | none => s
  else s

/-- The read of a granule's deep recovery. -/
def modDeepRead (s : State) (psa : Nat) (f : CareRead → CareRead) : State :=
  s.updCare fun c => { c with reads := updIf (fun e => e.use == .deep && e.psa == psa) f c.reads }

/-- DEEP_RECOVERY_DONE: delivered, the data is rewritten; with every step failed, the granule is marked unrecoverable, but while a column
is dark its recovery waits for that column. -/
def execDeepRecoveryDone (idx : Nat) (ok : Bool) (s : State) : Host.Outcome State Fault Refusal :=
  .next (match s.xlat.deep.find? fun d => d.idx == idx with
    | none => s
    | some d => match getNs s d.nsid with
      | none => s.updXlat fun x => { x with deep := x.deep.filter fun e => e.idx != idx }
      | some ns =>
        if ok then rewriteDeep (deepAnswer (modDeepRead s d.psa fun e => { e with done := true }) idx d.psa ns d.gran true) d ns
        else if columnDark s d.psa then modDeepRead s d.psa fun e => { e with stage := 3, booked := false }
        else
          let seq := ((Assoc.get s.media.slots d.psa).map SlotRec.seq).getD 0
          let s1 := raiseDepth (deepAnswer s idx d.psa ns d.gran false) (psaDie d.psa) (psaBlock d.psa) 6
          if mapGet s1 idx = .media d.psa then markUnrecov s1 ns d.gran seq
          else s1.updXlat fun x => { x with deep := x.deep.filter fun e => e.idx != idx })

/-! ### The write stream (R237) -/

/-- GATHER_SLOT_PLACE. -/
def execGatherSlotPlace (slot : Nat) (s : State) : Host.Outcome State Fault Refusal := .next (placeGather s slot)

end Sys2Proof.Machine
end

