-- ==== Sys2Proof/Machine/Care.lean ====
section
/-! DEFINITION. The Cullet and the Lehr: victims, erases, wear levelling, patrol, the thermal clock, the
care offer of a beat and the Last Light reserve (R261 to R264, R274 to R285, R418). -/

namespace Sys2Proof.Machine

/-! ### Victims (R274, R275) -/

/-- Mean PE across a band's columns, rounded down. -/
def bandPe (s : State) (b : Band) : Nat :=
  sum (b.columns.map fun c => (getBlock s (blockIdx c.1 c.2)).pe) / max b.columns.length 1

/-- The score of step 5 of R274. -/
def victimScore (s : State) (b : Band) : Nat :=
  (b.capacity - b.valid) * min ((s.beat - b.closeBeat) / 2 ^ 20) 4096 / max (b.capacity + b.valid) 1

/-- The band of a list with the least key, the earlier one on a tie. -/
def leastBy (key : Band → Nat) : List Band → Option Band
  | [] => none
  | b :: bs => match leastBy key bs with
    | none => some b
    | some c => if key c < key b then some c else some b

/-- Whether the dark oct of a DARK band has been dark for CARE_DARK_REBUILD_BEATS. -/
def darkLong (s : State) (b : Band) : Bool :=
  b.columns.any fun c => (getOct s (dieOct c.1)).st == .dark && decide (nvVal s 0x0700001B ≤ s.beat - (getOct s (dieOct c.1)).darkSince)

/-- Whether a wear-levelling turn is due (R278). -/
def wlDue (s : State) : Bool := s.care.wlOn && decide (nvVal s 0x07000010 ≤ s.care.wlCount + 1)

/-- Whether a band lies on the twin's side while the care records of a takeover are still to be loaded (R386 step 5). -/
def takenOver (s : State) (b : Band) : Bool := s.care.takeoverCare && b.columns.any fun c => octSideB s (dieOct c.1) != s.twin.side

/-- The Cullet's next victim, and the step that chose it. Of system bands steps 4 and 5 take those of which nothing is needed (DESIGN
CHOICE, log entry 9: VALID and CAPACITY say nothing of system slots). -/
def nextVictim (s : State) : Option (Band × Nat) :=
  let all := s.media.bands.filter fun b => b.st == .closed && !takenOver s b
  match leastBy Band.serial (all.filter fun b => b.failed) with
  | some b => some (b, 1)
  | none => match leastBy Band.closeBeat (all.filter fun b => b.refresh) with
    | some b => some (b, 2)
    | none => match leastBy Band.closeBeat (all.filter fun b => b.dark && darkLong s b) with
      | some b => some (b, 3)
      | none =>
        let cl := all.filter fun b => !sysHeld s b
        let wl := if wlDue s then leastBy (bandPe s) cl else none
        match wl with
        | some b => some (b, 4)
        | none =>
          let cand := cl.filter fun b => decide (b.valid < b.capacity)
          let best := (cand.map (victimScore s)).foldl max 0
          (leastBy Band.serial (cand.filter fun b => victimScore s b == best)).map fun b => (b, 5)

/-- Take a victim: BSTATE VICTIM, and the wear-levelling count of step 5 victims. -/
def takeVictim (s : State) (b : Band) (step : Nat) : State :=
  let s1 := modBand s b.serial fun b => { b with st := .victim, wl := b.wl || step == 4 }
  s1.updCare fun c => { c with victimAt := 0, victimSum := 0, wlCount := if step = 4 then 0 else if step = 5 then c.wlCount + 1 else c.wlCount }

/-- The beat by which a care operation booked now must end (R262). -/
def careLimit (s : State) : Nat := s.beat + 8191

/-- Book a care read of n slots of a page, from this beat on, whose capacity holds what hold-back passed on (R36, R261, R262); none
where it finds no room. -/
def planCare (s : State) (psa n : Nat) : Option State := (planSlot s psa n .care s.beat (careLimit s) (careLimit s) 0).map Prod.snd

/-! ### The ladder of care reads (R244, R246, R261, R282) -/

/-- Note the reads of slots of a page that hold something, booked for a use. -/
def noteReads_ (s : State) (use : CareUse) (booked : Bool) (stage target : Nat) (psas : List Nat) : State :=
  s.updCare fun c => { c with reads := c.reads ++ (psas.filter fun p => (Assoc.get s.media.slots p).isSome).map fun p =>
    { psa := p, use := use, stage := stage, booked := booked, target := target } }

/-- Book the reads of steps 2 to 4 of n slots of a page, in a share: MEDIA_RETRY_STEPS retries, 2 and 4 soft reads; beside the one decoder
slot of each read, what steps 3 and 4 take more (R244). -/
def planLadder (s : State) (psa n : Nat) (sh : Share) : Option State :=
  let read := fun (m : Option (Nat × State)) (_ : Nat) => m.bind fun x =>
    (planSlot x.2 psa n sh s.beat (careLimit s) (careLimit s) 0).map fun y => (max x.1 y.1, y.2)
  let dec := Res.decoder (dieOct (psaDie psa))
  ((List.range (nvVal s 0x06000009 + 6)).foldl read (some (s.beat, s))).bind fun x =>
    (lowest (fun b => fits x.2 dec sh b (6 * n)) x.1 (careLimit s + 1 - x.1)).map fun b => book x.2 dec sh b (6 * n) 0

/-- Book what a read of care work needs at its stage. -/
def planStage (s : State) (e : CareRead) : Option State :=
  if e.stage = 0 then planCare s e.psa 1
  else if e.stage = 1 then planLadder s e.psa 1 .care
  else
    ((otherSlots s e.psa).foldl (fun m q => m.bind fun s => planCare s q 1) (some s)).map fun t => noteReads_ t .column true 0 e.psa (otherSlots s e.psa)

/-- Offer care capacity to a read that waits for its stage. On a dark die a read of the Lehr is given up, a column no longer counts, a
victim's slot is rebuilt; a slot that only a dark column can give waits for it. -/
def offerRead (s : State) (e : CareRead) : State :=
  let rebuild : CareRead := { e with stage := 2 }
  let take := fun (x : CareRead) => match planStage s x with
    | some t => modRead t e fun _ => { x with booked := true }
    | none => s
  if e.stage ≤ 1 ∧ !dieUsable s (psaDie e.psa) then
    (if e.use == .victim then (if canAround s e.psa then take rebuild else modRead s e fun x => { x with stage := 3 }) else dropReads s (· == e))
  else if e.stage = 2 ∧ !canAround s e.psa then modRead s e fun x => { x with stage := 3 }
  else if e.stage = 3 then (if columnDark s e.psa then s else take rebuild)
  else take e

/-- Whether a read serves one of the uses: a column serves the use of the slot it is read for. -/
def servesUse (s : State) (us : List CareUse) (e : CareRead) : Bool :=
  us.contains e.use || (e.use == .column && s.care.reads.any fun t => t.psa == e.target && us.contains t.use)

/-- Offer care capacity to the reads of some uses that wait for their stage (R261). -/
def offerReads (s : State) (us : List CareUse) : State :=
  (s.care.reads.filter fun e => !e.booked && !e.done && e.use != .deep && servesUse s us e).foldl offerRead s

/-! ### Emptying a victim (R275) -/

/-- Whether the Cullet has still to copy a slot of its victim. -/
def toCopy (s : State) (b : Band) (psa : Nat) (r : SlotRec) : Bool :=
  if b.system then sysNeeded s b psa r && !sysPending s psa r else isValid s psa r && !copyPending s psa

/-- Whether a slot of a victim is being read, or has been and waits for the copy of its granule. -/
def victimRead (s : State) (psa : Nat) : Bool := s.care.reads.any fun e => e.psa == psa && e.use == .victim

/-- Book the read of the summary slot that holds a slot's entry, unless it was the last one read; of the slot's own metadata where the
band has no readable summary (R212, R275 step 2). -/
def bookEntry (s : State) (b : Band) (psa : Nat) : Option State :=
  let k := (4 * bandPages s b * columnOf b psa + 4 * psaPage psa + psaSlot psa) / 170
  match if b.summary then s.media.slots.find? (fun p => p.2.kind == .summary && p.2.lba.toNat == k && b.columns.contains (psaDie p.1, psaBlock p.1)) else none with
  | some p => if s.care.victimSum = k + 1 then some s else (planCare s p.1 1).map fun t => t.updCare fun c => { c with victimSum := k + 1 }
  | none => if !dieUsable s (psaDie psa) then some s else planCare s psa 1

/-- Look up a victim's slot, and book the read of it where it is to be copied and nothing reads it: the lookup is booked on this beat. None where
something finds no room (R262, R275 steps 2 and 3). -/
def bookVictimSlot (s : State) (b : Band) (psa : Nat) (r : SlotRec) : Option State :=
  if r.kind == .data && !fits s .lookups .host s.beat 1 then none
  else
    let s1 := if r.kind = .data then book s .lookups .host s.beat 1 0 else s
    let fresh := toCopy s b psa r && !victimRead s psa
    (bookEntry s1 b psa).bind fun s2 =>
      if !fresh then some s2
      else if !dieUsable s (psaDie psa) then some (noteReads_ s2 .victim false 0 0 [psa])
      else if !b.summary then some (noteReads_ s2 .victim true 0 0 [psa])
      else (planCare s2 psa 1).map fun s3 => noteReads_ s3 .victim true 0 0 [psa]

/-- Go on through a victim's slots in band order, as far as lookups and care capacity go. -/
def bookVictimFrom (b : Band) : List (Nat × SlotRec) → State → State
  | [], s => s.updCare fun c => { c with victimAt := 0, victimSum := 0 }
  | p :: ps, s => match bookVictimSlot s b p.1 p.2 with
    | some s1 => bookVictimFrom b ps (s1.updCare fun c => { c with victimAt := p.1 + 1 })
    | none => s

/-- Copy what was delivered and found no place then. -/
def copyAgain (s : State) (b : Band) : State :=
  (s.care.reads.filter fun e => e.use == .victim && e.done).foldl (fun s e => match Assoc.get s.media.slots e.psa with
    | some r => if b.system then relocateSysRead s b e r true else relocate s e.psa r true
    | none => dropReads s (· == e)) s

/-- The Cullet's reads of its victim, from the place where it stopped; once through, it starts again while a slot is to be copied
that nothing reads. -/
def bookVictim (s0 : State) (b : Band) : State :=
  let s := offerReads (copyAgain s0 b) [.victim]
  let all := bandSlots s b
  let left := all.filter fun p => decide (s.care.victimAt ≤ p.1)
  if s.care.victimAt ≠ 0 ∨ all.any fun p => toCopy s b p.1 p.2 && !victimRead s p.1 then bookVictimFrom b left s else s

/-- VICTIM_EMPTIED: a victim with nothing valid, nothing needed and nothing pinned is erased, in Noon or Dusk and within the write window
(R263, R264, R275 step 6). R211 needs a band's LOW_SEQ only for records, which the erase makes needless: that condition always holds. -/
def execVictimEmptied (serial : Nat) (s : State) : Host.Outcome State Fault Refusal :=
  .next (match getBand s serial with
    | none => s
    | some b =>
      if b.st == .victim && b.valid == 0 && !sysHeld s b && !bandPinned s b && s.therm.window && careRuns s then
        let s1 := unlistBand (modBand s serial fun b => { b with st := .erasing }) serial
        let s2 := b.columns.foldl (fun s c =>
          if (getBlock s (blockIdx c.1 c.2)).st == .banded && dieUsable s c.1 then bookErase s c.1 c.2 else s) s1
        freeSerial s2 serial
      else s)

/-! ### Wear levelling (R278) -/

/-- Mean PE of the erased pool, rounded down (DESIGN CHOICE, log entry 28: R278 gives no rounding). -/
def poolPe (s : State) : Nat :=
  let bs := s.care.blocks.filter fun b => blockCounts s b.1 && b.2.st == .erased && !b.2.system
  sum (bs.map fun b => b.2.pe) / max bs.length 1

/-- WEAR_LEVEL_CHECK: every 2^20 beats. -/
def execWearLevelCheck (s : State) : Host.Outcome State Fault Refusal :=
  .next (if s.beat - s.care.wlChecked < 2 ^ 20 then s else
    let s1 := s.updCare fun c => { c with wlChecked := s.beat }
    match leastBy (bandPe s) (s.media.bands.filter fun b => b.st == .closed) with
    | none => s1
    | some b =>
      let delta : Int := (poolPe s : Int) - bandPe s b
      s1.updCare fun c => { c with
        wlOn := if (nvVal s 0x0700000E : Int) ≤ delta then true else if delta ≤ (nvVal s 0x0700000F : Int) then false else c.wlOn })

/-! ### Patrol (R280, R281) -/

/-- The blocks of CLOSED bands in ascending SERIAL, with their bands. -/
def patrolBlocks (s : State) : List (Band × Nat × Nat) :=
  (sortBy Band.serial (s.media.bands.filter fun b => b.st == .closed)).flatMap fun b => b.columns.map fun c => (b, c.1, c.2)

/-- The k-th sample page of a block of P pages in a pass (R280); offset 0 for a disturb check (R283). -/
def samplePage (pages n k pass : Nat) : Nat := k * (pages / max n 1) + pass % max (pages / max n 1) 1

/-- Beats of a patrol period. -/
def patrolPeriod (s : State) : Nat := nvVal s 0x07000011 * 21600000

/-- A patrol pass of a period begins (R280). -/
def startPass (s : State) (period : Nat) : State :=
  let n := nvVal s 0x07000012
  s.updCare fun c =>
    { c with pass := (c.pass + 1) % 2 ^ 32, passStart := s.beat, passPeriod := period
             passPages := n, passLeft := n * (patrolBlocks s).length, patrolAt := (0, 0, 0), patrolDue := 0
             schedAt := s.beat, schedPages := n * (patrolBlocks s).length
             passSampled := 0, passDeep := 0, passRetired := 0, lag := 0 }

/-- PATROL_PASS_START: a pass starts when the one before has ended and its period is over; the figures of the
ended pass decide wear stages 1 and 2. -/
def execPatrolPassStart (s : State) : Host.Outcome State Fault Refusal :=
  .next (if s.care.passLeft ≠ 0 ∨ (s.care.reads.any fun e => e.use == .patrol && e.stage != 3) ∨
        (s.care.pass ≠ 0 ∧ s.beat < s.care.passStart + s.care.passPeriod) then s else
    let s1 := s.updCare fun c =>
      { c with lastSampled := c.passSampled, lastDeep := c.passDeep, lastRetired := c.passRetired, passed := c.passed || c.pass != 0 }
    startPass s1 (patrolPeriod s))

/-- Book the four slots of a page as one care read for a use; none where it finds no room (R262). With `now`, only where it can start on
this beat. -/
def planPage (s : State) (use : CareUse) (die block page : Nat) (now : Bool) : Option State :=
  let psa := mkPsa die block page 0
  let t := if now then (planSlot s psa 4 .care s.beat (s.beat + occRead s (dieOct die) (blockCell s die block) + 1) (careLimit s) 0).map Prod.snd
    else planCare s psa 4
  t.map fun t => noteReads_ t use true 0 0 ((List.range 4).map (psa + ·))

/-- Count a sample page read. -/
def countPatrol (s : State) : State := s.updCare fun c => { c with patrolReads := satAdd c.patrolReads 1 }

/-- The sample pages left of a band, in a pass that goes on at a place: column, sample page. -/
def bandLeft (n : Nat) (at_ : Nat × Nat × Nat) (b : Band) : Nat :=
  if b.serial < at_.1 then 0 else if at_.1 < b.serial then n * b.columns.length else n * b.columns.length - (n * at_.2.1 + at_.2.2)

/-- The sample pages that a pass has still to read (R280, R281). -/
def patrolLeft (s : State) : Nat :=
  sum ((s.media.bands.filter fun b => b.st == .closed).map (bandLeft s.care.passPages s.care.patrolAt))

/-- The next CLOSED band of a pass with sample pages left, and the place in it. -/
def patrolNext (s : State) : Option (Band × Nat × Nat) :=
  (leastBy Band.serial (s.media.bands.filter fun b => b.st == .closed && decide (0 < bandLeft s.care.passPages s.care.patrolAt b))).map fun b =>
    if b.serial = s.care.patrolAt.1 then (b, s.care.patrolAt.2) else (b, 0, 0)

/-- Go past a sample page. -/
def patrolPast (s : State) (b : Band) (col k : Nat) : State :=
  let s1 := s.updCare fun c => { c with patrolAt := if k + 1 < c.passPages then (b.serial, col, k + 1) else (b.serial, col + 1, 0) }
  s1.updCare fun c => { c with passLeft := patrolLeft s1, patrolDue := c.patrolDue - 1 }

/-- Book up to k sample pages of the pass, in ascending SERIAL; with `now`, while they can start on this beat. A page on a die that
is dark is passed over. -/
def bookPatrol (now : Bool) : Nat → State → State
  | 0, s => s
  | k + 1, s =>
    if s.care.passLeft = 0 then s
    else match patrolNext s with
      | none => s.updCare fun c => { c with passLeft := 0 }
      | some (b, col, i) =>
        let c := nth b.columns col (0, 0)
        if !dieUsable s c.1 then bookPatrol now k (patrolPast s b col i)
        else match planPage s .patrol c.1 c.2 (samplePage (bandPages s b) s.care.passPages i s.care.pass) now with
          | some s1 => bookPatrol now k (patrolPast (countPatrol s1) b col i)
          | none => s

/-- The beat by which the pass is to end, and the beats left until then. -/
def passEnd (s : State) : Nat := s.care.passStart + s.care.passPeriod

/-- Beats left in the pass. -/
def passBeats (s : State) : Nat := passEnd s - s.beat

/-- The return to Noon: what is left of the pass is spread over the beats left of it (R264). -/
def patrolResume (s : State) : State := s.updCare fun c => { c with schedAt := s.beat, schedPages := c.passLeft, patrolDue := 0 }

/-- The sample pages by which the pass is behind its even schedule (R281). -/
def patrolBehind (s : State) : Nat := s.care.passLeft - s.care.schedPages * passBeats s / max (passEnd s - s.care.schedAt) 1

/-- The beats by which the pass runs behind: what is left beyond the even schedule, in beats of it. -/
def patrolLag (s : State) : Nat :=
  patrolBehind s * (passEnd s - s.care.schedAt) / max s.care.schedPages 1 + (if s.care.passLeft = 0 then 0 else s.beat - passEnd s)

/-- PATROL_WINDOW: at the start of an aligned 1,024-beat window, the reads that an even spread of what is left needs fall due; the beats
of the window offer them their place in the order of R261 (R281). -/
def execPatrolWindow (s : State) : Host.Outcome State Fault Refusal :=
  .next (if !careRuns s ∨ s.beat % 1024 ≠ 0 ∨ s.care.passLeft = 0 then s else
    s.updCare fun c => { c with patrolDue := min c.passLeft (ceilDiv (c.passLeft * 1024) (max (passBeats s) 1024)), lag := patrolLag s })

/-! ### Thermal clock (R284, R285) -/

/-- The greatest n below 2^k above `acc` with n^d at most v, found bit by bit. -/
def rootBits (d v : Nat) : Nat → Nat → Nat
  | 0, acc => acc
  | k + 1, acc => let n := acc + 2 ^ k
    if n ^ d ≤ v then rootBits d v k n else rootBits d v k acc

/-- AF(T) of R284 for whole degrees, in 1/65,536, rounded down: 2^((T − 40) / d) between 1/16 and 1,024. -/
def thermalAf (t : Int) (d : Nat) : Nat :=
  let e := t - 40
  if e ≤ -4 * (d : Int) then 4096
  else if 10 * (d : Int) ≤ e then 1024 * 65536
  else rootBits d (2 ^ (e + 16 * (d : Int)).toNat) 27 0

/-- Bands whose thermal age reaches the retention limit are marked REFRESH (R285). -/
def ageRefresh (s : State) : State :=
  let lim := stored s 0x07000018 * 21600000
  let old := fun (b : Band) => b.st == .closed && !b.refresh && decide (0 < lim) && decide (lim ≤ s.care.tclk / 65536 - b.ageClose)
  let n := (s.media.bands.filter old).length
  (s.updMedia fun m => { m with bands := updIf old (fun b => { b with refresh := true }) m.bands }).updCare fun c =>
    { c with refreshAge := satAdd c.refreshAge n }

/-- TCLK_WINDOW: at the end of an aligned window in Noon, Dusk or Night, CARE_TCLK advances at the window's
highest reading, taken in whole degrees downwards; ages are checked. -/
def execTclkWindow (s : State) : Host.Outcome State Fault Refusal :=
  .next (if s.beat % 1024 ≠ 0 ∨ s.day.day = .midnight ∨ s.day.day = .dawn then s else
    let af := thermalAf (s.care.tMax / 16) (nvVal s 0x07000019)
    let now := (carrierT s).getD 640
    ageRefresh (s.updCare fun c => { c with tclk := c.tclk + 1024 * af, tMax := now }))

/-! ### The care offer of a beat (R261, R263, R418) -/

/-- Book a disturb check: every sample page at offset 0 (R283); none where one finds no room. -/
def planDisturb (s : State) (b : Band) (die block : Nat) : Option State :=
  let n := nvVal s 0x07000012
  (List.range n).foldl (fun m k => m.bind fun s => (planPage s .disturb die block (samplePage (bandPages s b) n k 0) false).map countPatrol) (some s)

/-- Book the disturb checks that wait; one that finds no room is offered again in a later beat (R262, R283). -/
def bookDisturb (s : State) : State :=
  s.care.disturbQ.foldl (fun s i =>
    let done := fun (s : State) => s.updCare fun c => { c with disturbQ := c.disturbQ.erase i }
    match s.media.bands.find? fun b => b.columns.contains (i / 8192, i % 8192) with
    | none => done s
    | some b => match planDisturb s b (i / 8192) (i % 8192) with
      | some s1 => done s1
      | none => s) s

/-- Whether the pool, a marked band or a wear-levelling turn, one under way too, calls for the Cullet (R261 order 4). -/
def culletWanted (s : State) : Bool :=
  decide (erasedPool s < freeHigh s) || wlDue s ||
  s.media.bands.any fun b => b.st != .erasing && (b.refresh || b.failed || b.dark || (b.wl && b.st == .victim))

/-- Erase the lowest DIRTY block of each idle die while the pool is below CARE_FREE_HIGH, and any erased block
that RAW touched (R277). -/
def eraseDirty (s : State) : State :=
  (usableDies s).foldl (fun s d =>
    match getDie s d with
    | none => s
    | some x =>
      if !x.ops.isEmpty || (s.flash.waiting.any fun w => w.die == d) || decide (freeHigh s ≤ erasedPool s) then s
      else match lowest (fun b => let k := getBlock s (blockIdx d b)
          k.st == .dirty || (k.st == .erased && k.rawTouched)) 0 (blocksOf s (dieOct d)) with
        | some b => bookErase s d b
        | none => s) s

/-- The erases of emptied bands that no die has queued, as after darkness, are booked again (R275 step 6). -/
def eraseAgain (s : State) : State :=
  (s.media.bands.filter fun b => b.st == .erasing).foldl (fun s b => b.columns.foldl (fun s c =>
    let mine := fun (o : ArrayOp) => o.kind == .erase && (o.block :: o.also).contains c.2
    let queued := ((getDie s c.1).map fun d => d.ops.any mine).getD true || s.flash.waiting.any fun w => w.die == c.1 && mine w.op
    if unerased s b c && dieUsable s c.1 && !queued then bookErase s c.1 c.2 else s) s) s

/-- The Cullet's part of a beat: programs and erases that wait for beats, erases, its victim. -/
def cullet (s : State) : State :=
  if !s.therm.window then s
  else
    let s1 := eraseDirty (eraseAgain (retryOps s true))
    match s1.media.bands.find? fun b => b.st == .victim with
    | some b => bookVictim s1 b
    | none => match nextVictim s1 with
      | none => s1
      | some (b, k) => bookVictim (takeVictim s1 b k) b

/-- Fill the Last Light reserve of each LIVE oct from erased blocks (R418). -/
def fillReserve (s : State) : State :=
  (liveOcts s).foldl (fun s k =>
    if nvVal s 0x0D000018 ≤ (getOct s k).reserve || !sysMayDraw s 1 then s
    else match pickBlock s k .slc false with
      | some (d, b) => modOct (modBlock s (blockIdx d b) fun x => { x with system := true }) k fun o => { o with reserve := o.reserve + 1 }
      | none => s) s

/-- The reads of the ladder of a granule under deep recovery, in a share: steps 1 to 4 of its own page, then of the other columns for step 5,
as many as these may need; all of them, or none (R244, R246). -/
def planDeep (s : State) (psa n : Nat) (sh : Share) : Option State :=
  let own := if dieUsable s (psaDie psa) then [psa] else []
  (own ++ otherSlots s psa).foldl (fun m q => m.bind fun s =>
    (planSlot s q n sh s.beat (careLimit s) (careLimit s) 0).bind fun x => planLadder x.2 q n sh) (some s)

/-- Book the ladder of a granule under deep recovery in care capacity, else in that of D5 reads, the host share's (R246). -/
def bookDeepRead (s : State) (d : DeepRec) (n : Nat) : State :=
  match (planDeep s d.psa n .care).orElse fun _ => planDeep s d.psa n .host with
  | none => s
  | some t =>
    if t.care.reads.any fun e => e.use == .deep && e.psa == d.psa then modDeepRead t d.psa fun e => { e with stage := 0, booked := true }
    else noteReads_ t .deep true 0 0 [d.psa]

/-- Deep recovery books the ladders of its granules, those not booked yet; what it delivered and found no place is placed (R60, R246,
R261 order 1). -/
def bookDeep (s : State) : State :=
  s.xlat.deep.foldl (fun s d =>
    match getNs s d.nsid with
    | none => s
    | some ns => match s.care.reads.find? fun e => e.use == .deep && e.psa == d.psa with
      | none => if copyPending s d.psa then s else bookDeepRead s d ns.gslots
      | some e =>
        if e.done then rewriteDeep s d ns
        else if e.booked || (e.stage == 3 && columnDark s d.psa) then s else bookDeepRead s d ns.gslots)
    (dropReads s fun e => e.use == .deep && !(s.xlat.deep.any fun d => d.psa == e.psa))

/-- The Lehr's part of a beat: ladders of what it reads, disturb checks, k sample pages of the pass. -/
def lehr (s : State) (now : Bool) (k : Nat) : State := bookPatrol now k (bookDisturb (offerReads s [.patrol, .disturb]))

/-- Programs and erases are not issued while the write window is closed but for the drains of R436 and R437: those not started give their
beats back and wait; the Cullet reads no victim (R263, R451). -/
def holdOps (s : State) : State :=
  if s.therm.window || s.day.sealed.isSome then s
  else
    let ofVictim := fun (d : Nat) (o : ArrayOp) => o.care && s.media.bands.any fun b => b.st == .victim && b.columns.contains (d, o.block)
    let held := fun (d : Nat) (o : ArrayOp) => decide (s.beat ≤ o.start) && (o.kind != .read || ofVictim d o)
    let ws := s.flash.dies.flatMap fun d => (d.ops.filter fun o => o.kind != .read && held d.d o).map fun o => (d.d, o)
    let s1 := dropReads s fun e => !e.done && servesUse s [.victim] e
    if !(s.flash.dies.any fun d => d.ops.any (held d.d)) then s1
    else
      let dies := s.flash.dies.map fun d => { d with ops := d.ops.filter fun o => !held d.d o }
      let freed := fun (b : Booking) => match b.res with
        | .dieTime d => b.owner == 0 && decide (s.beat ≤ b.beat) && (dies.any fun x => x.d == d && x.idleAt b.beat) &&
            s.flash.dies.any fun x => x.d == d && !x.idleAt b.beat
        | _ => false
      (s1.updFlash fun f => { f with
        dies := dies
        waiting := f.waiting ++ ws.map fun w => { die := w.1, xfers := 0, op := { w.2 with start := 0, busy := w.2.occ, susps := [] } } }).updPlan fun p =>
          { p with near := p.near.filter fun b => !freed b }

/-- The care offer of a beat, in the order of R261: deep recovery; the Cullet below CARE_FREE_LOW; the Lehr while sample pages are due;
the Cullet while something calls for it; the Lehr ahead of its schedule, as far as reads can start on this beat. The care share refills
the reserve (R418). -/
def careOffer (s : State) : State :=
  if !careRuns s then s
  else
    let s1 := bookDeep s
    let low := decide (erasedPool s1 < freeLow s1)
    let s2 := if low then cullet s1 else s1
    let s3 := lehr s2 false s2.care.patrolDue
    let s4 := if !low && culletWanted s3 then cullet s3 else s3
    fillReserve (lehr s4 true 4096)

end Sys2Proof.Machine
end

