-- ==== Sys2Proof/Machine/Xlat.lean ====
section
/-! DEFINITION. Map-line fills and rebuilds, checkpoint cycles, care record sets, and recovery (R197 to R200,
R211, R213 to R219, R268). -/

namespace Sys2Proof.Machine

/-! ### The translation cache (R197 to R200) -/

/-- Point the tree away from a way just used. -/
def plruTouch (t : BitVec 15) (w : Nat) : BitVec 15 :=
  let put := fun (t : BitVec 15) (n : Nat) (b : Bool) => if b then t ||| (1#15 <<< n) else t &&& ~~~(1#15 <<< n)
  let b0 := w / 8 % 2
  let b1 := w / 4 % 2
  let b2 := w / 2 % 2
  let t1 := put t 0 (b0 == 0)
  let t2 := put t1 (1 + b0) (b1 == 0)
  let t3 := put t2 (3 + 2 * b0 + b1) (b2 == 0)
  put t3 (7 + 4 * b0 + 2 * b1 + b2) (w % 2 == 0)

/-- The tree of a set. -/
def plruOf (s : State) (set : Nat) : BitVec 15 := (Assoc.get s.xlat.plru set).getD 0

/-- Whether a way of a set is pinned. -/
def wayPinned (s : State) (set w : Nat) : Bool := s.xlat.ways.any fun x => x.set == set && x.way == w && decide (0 < x.pins)

/-- The way that the tree points at among those that are not pinned (R197): a node whose pointed side holds none sends to the other
side. `k` levels are left below node `n`, whose ways start at `w0`. -/
def plruPick (t : BitVec 15) (pinned : Nat → Bool) : Nat → Nat → Nat → Option Nat
  | 0, _, w0 => if pinned w0 then none else some w0
  | k + 1, n, w0 =>
    let left := fun (_ : Unit) => plruPick t pinned k (2 * n + 1) w0
    let right := fun (_ : Unit) => plruPick t pinned k (2 * n + 2) (w0 + 2 ^ k)
    if t.getLsbD n then (match right () with
      | some w => some w
      | none => left ())
    else match left () with
      | some w => some w
      | none => right ()

/-- The way a fill takes: an empty one, else the one the tree points at among those that are not pinned. -/
def fillWay (s : State) (set : Nat) : Option Nat :=
  match lowest (fun w => !(s.xlat.ways.any fun x => x.set == set && x.way == w)) 0 16 with
  | some w => some w
  | none => plruPick (plruOf s set) (wayPinned s set) 4 0 0

/-- Whether a line is cached. -/
def lineCached (s : State) (line : Nat) : Bool := s.xlat.ways.any fun x => x.line == line

/-- The namespace of a map line. -/
def lineNs (s : State) (line : Nat) : Option Namespace :=
  s.xlat.nss.find? fun n => decide (nsLine0 n ≤ line ∧ line < nsLine0 n + nsLines n)

/-- Lookups of a cached line: each a hit, and the tree turns away from its way. -/
def touchLine (s : State) (line lookups : Nat) : State :=
  match s.xlat.ways.find? fun x => x.line == line with
  | none => s
  | some w => s.updXlat fun x => { x with hits := satAdd x.hits lookups, plru := Assoc.set x.plru w.set (plruTouch (plruOf s w.set) w.way) }

/-- A fill places its line in a way, pinned through the lookup of the next beat. -/
def placeLine (s : State) (line : Nat) : State :=
  let set := lineSet line
  match fillWay s set with
  | none => s
  | some w => s.updXlat fun x =>
    { x with ways := (x.ways.filter fun y => !(y.set == set && y.way == w)) ++ [{ set := set, way := w, line := line, pins := 2 }]
             misses := satAdd x.misses 1
             plru := Assoc.set x.plru set (plruTouch (plruOf s set) w) }

/-- Every granule of a line that a context has booked is undelivered, however it was to be delivered, but for the operations of its own
group (R200 step 2). -/
def undeliverLine (s : State) (line : Nat) : State :=
  s.updCtxs fun l => l.map fun x =>
    match ctxNs s x with
    | none => x
    | some ns =>
      let lose := fun (r : GranRead) => { r with slots := r.slots.map fun d => if d == .unrecov then d else .deep }
      let set := updIf (fun (r : GranRead) => mapIdx ns r.gran / 12 == line && !inAtom x r.gran) lose
      { x with reads := set x.reads, fed := set x.fed }

/-- Whether no entry of a line is in state 11 or breaks R193 (R194). -/
def lineGood (s : State) (line : Nat) : Bool := (lineLocs s line).all fun l => Loc.decode l.encode == some l

/-- MAP_LINE_FILL: the line enters the cache; a line that fails its CRC, or is handled as one (R194), is suspect, and what was booked
on it is undelivered. A line at or above INITLINES is made by the fill itself, with its CRC (R191). -/
def execMapLineFill (line : Nat) (crcOk : Bool) (s : State) : Host.Outcome State Fault Refusal :=
  .next (match lineNs s line with
    | none => s
    | some n =>
      if lineCached s line then s
      else
        let s1 := placeLine s line
        if (crcOk && lineGood s line) || decide (nsLine0 n + n.initLines ≤ line) then s1
        else undeliverLine (s1.updXlat fun x =>
          { x with suspect := if x.suspect.contains line then x.suspect else x.suspect ++ [line], crcErrors := satAdd x.crcErrors 1
                   ways := x.ways.filter fun w => w.line != line }) line)

/-- The background sweep of R191: INITLINES of each namespace rises. -/
def initSweep (s : State) : State :=
  s.updXlat fun x => { x with nss := x.nss.map fun n => { n with initLines := min (nsLines n) (n.initLines + nvVal s 0x05000010) } }

/-! ### Checkpoints (R213, R214, R268) -/

/-- The position the next record takes in the journal. -/
def nextJpos (s : State) : Nat := s.xlat.jpos + s.xlat.staging.length / 128

/-- Whether a cycle is due (R214 step 1). -/
def ckptDue (s : State) : Bool :=
  s.xlat.ckWant || decide (nvVal s 0x0500000A ≤ s.beat - s.xlat.ckStart) || decide (nvVal s 0x0500000B < s.xlat.jpos - s.xlat.ckBeginJpos)

/-- CHECKPOINT_START: CK_BEGIN with the next generation; in Midnight entry the rate is 64 (R215). A cycle waits until the care
records of the one before are written (DESIGN CHOICE, log entry 9: both are one cycle's work). -/
def execCheckpointStart (s : State) : Host.Outcome State Fault Refusal :=
  .next (if s.xlat.ck.isSome || s.care.recWrite.isSome || !ckptDue s then s else
    let gen := (s.xlat.ckGen + 1) % 2 ^ 32
    let at_ := nextJpos s
    let rate := if s.day.sealed.isSome then 64 else nvVal s 0x05000009
    let s1 := s.updXlat fun x =>
      { x with ck := some { gen := gen, nextLine := 0, rate := rate, beginJpos := at_, written := 0, seq0 := s.xlat.seq }
               ckWant := false, ckStart := s.beat, ckBeginJpos := at_ }
    journalPlain s1 .ckBegin 0 0 0 0 gen)

/-- The first group of 64 lines, from a group's first line on, that meets a namespace's range (R213). -/
def nextGroup (s : State) (line : Nat) : Option Nat :=
  s.xlat.nss.foldl (fun m n =>
    if nsLine0 n + nsLines n ≤ line then m else optMin m (some (max line (nsLine0 n) / 64 * 64))) none

/-- Write the next slot of the cycle: the 32 of the namespace table, then the map slots of the lines in use; none when all are
written, or while none finds a place. What it holds is the table and the map as they stand now (R213, R214). -/
def ckptOne (s : State) : Option State :=
  match s.xlat.ck with
  | none => none
  | some k =>
    if k.written < 32 then
      (placeKind s (tableSlot s s.xlat.nss k.written)).map fun t => t.updXlat fun x => { x with ck := x.ck.map fun c =>
        { c with written := c.written + 1, nss := c.nss ++ s.xlat.nss.filter fun n => n.nsid / 128 == k.written } }
    else match nextGroup s k.nextLine with
    | none => none
    | some g => (placeKind s (mapSlot s g)).map fun t => t.updXlat fun x => { x with ck := x.ck.map fun c =>
        { c with written := c.written + 1, nextLine := g + 64
                 map := c.map ++ s.xlat.map.filter fun p => decide (12 * g ≤ p.1) && decide (p.1 < 12 * (g + 64)) } }

/-- Write up to n slots of the cycle. -/
def ckptWrite : Nat → State → State
  | 0, s => s
  | n + 1, s => match ckptOne s with
    | some t => ckptWrite n t
    | none => s

/-- Whether the last slot of the cycle is placed. -/
def ckptPlaced (s : State) (k : Ckpt) : Bool :=
  decide (32 ≤ k.written) && (nextGroup s k.nextLine).isNone && !(s.media.sysWait.any fun r => r.kind == .checkpoint)

/-- Write up to n slots of the care record set being written (R268). -/
def careWrite : Nat → State → State
  | 0, s => s
  | n + 1, s => match s.care.recWrite with
    | none => s
    | some w =>
      if careSlots ≤ w.next then s
      else match placeKind s (careSlot s w.set w.next) with
        | none => s
        | some t => careWrite n (t.updCare fun c => { c with recWrite := c.recWrite.map fun w => { w with next := w.next + 1 } })

/-- The last slot of a care record set is verified: the anchor names the set, and the two newest are kept (R268). -/
def careEnd (s : State) (w : CareWrite) : State :=
  writeAnchor ((closeStream s 4).updCare fun c => { c with recWrite := none, recSets := w.set :: c.recSets.take 1 })

/-- The care records' part of a beat. -/
def careBeat (s : State) : State :=
  match s.care.recWrite with
  | none => s
  | some w =>
    let s1 := careWrite w.rate s
    match s1.care.recWrite with
    | none => s1
    | some w1 =>
      if w1.next < careSlots || s1.media.sysWait.any (fun r => r.kind == .care) then s1
      else
        let s2 := flushStream s1 4
        if bandsVerified s2 w1.set.inBands then careEnd s2 w1 else s2

/-- Whether a record is live beyond the kept range (R211). -/
def recLive (s : State) (r : JRecord) : Bool :=
  match r.typ with
  | .nsCreate => ((getNs s r.nsid).map fun n => n.cseq == r.seq).getD false
  | .nsDelete | .unmap | .unrecov => s.media.bands.any fun b => decide (0 < b.lowSeq) && decide (b.lowSeq < r.seq)
  | _ => false

/-- Release journal slots before a position, their live records carried forward (R211). -/
def releaseJournal (s : State) (jpos : Nat) : State :=
  let old := s.xlat.journal.filter fun j => decide (j.jpos < jpos)
  let live := (old.flatMap JSlot.recs).filter (recLive s)
  let s1 := s.updXlat fun x => { x with journal := x.journal.filter fun j => decide (jpos ≤ j.jpos) }
  journalAdd s1 (live.map fun r => { r with flags := r.flags ||| 2 })

/-- The generations kept once the anchor names one: that one, the one before it, and any that a later anchor is to name (R214). -/
def keepGens (gens : List CkGen) (gen : Nat) : List CkGen :=
  if gens.any fun g => g.gen == gen then gens.drop ((gens.takeWhile fun g => g.gen != gen).length - 1) else gens

/-- An ANCHOR entry is written: the generation before the previous one is released, and the journal before those kept (R211, R214). -/
def anchorDurable (s : State) (body : List Byte) : State :=
  let a := { Anchor.ofBody body with prevCareGen := (((s.care.recSets.drop 1).head?).map CareSet.gen).getD 0 }
  let kept := keepGens s.xlat.gens a.gen
  releaseJournal ((s.updNor fun x => { x with anchor := some a }).updXlat fun x => { x with gens := kept }) ((kept.head?.map CkGen.beginJpos).getD 0)

/-- CK_END is durable: the generation is complete, the anchor is to name it, and the care record set begins to be written, the tables as
they stand now (R214, R268). -/
def finishCkpt (s : State) (k : Ckpt) : State :=
  let gens := s.xlat.gens ++ [{ gen := k.gen, beginJpos := k.beginJpos, seq0 := k.seq0, nss := k.nss, map := k.map, bands := k.bands }]
  let s1 := (closeStream s 3).updXlat fun x => { x with ck := none, ckGen := k.gen, gens := gens }
  let set : CareSet := { gen := k.gen, blocks := s.care.blocks, bands := s.media.bands, tclk := s.care.tclk, pass := s.care.pass }
  writeAnchor (s1.updCare fun c => { c with recWrite := some { set := set, next := 0, rate := nvVal s 0x05000009 } })

/-- The checkpoint's part of a beat: its rate of slots, the last stripe closed once all are placed. In journal-through a CK_END that
has been entered is durable once it is journaled. -/
def ckptBeat (s : State) : State :=
  match s.xlat.ck with
  | none => s
  | some k =>
    if k.ended then (if journaled s then finishCkpt s k else s)
    else
      let s1 := ckptWrite k.rate s
      match s1.xlat.ck with
      | some k1 => if ckptPlaced s1 k1 then flushStream s1 3 else s1
      | none => s1

/-- CHECKPOINT_END: the last slot of the cycle is verified: CK_END with the slots written; durable from staging, or in journal-through
once it is in a journal slot (R210, R413), it completes the generation. -/
def execCheckpointEnd (s : State) : Host.Outcome State Fault Refusal :=
  .next (match s.xlat.ck with
    | none => s
    | some k =>
      if k.ended || !ckptPlaced s k || !bandsVerified s k.bands then s
      else
        let s1 := journalPlain s .ckEnd 0 0 k.written k.beginJpos k.gen
        if s.power.jthrough then s1.updXlat fun x => { x with ck := x.ck.map fun c => { c with ended := true } } else finishCkpt s1 k)

/-! ### Recovery (R216 to R219) -/

/-- The sequence table of R217, the indices still pending, the marks found, and the indices whose place a slot read gave. -/
structure Rec where
  nss : List Namespace
  map : List (Nat × Loc)
  table : List (Nat × Nat)
  pend : List Nat
  unrecov : List Nat
  given : List Nat := []
  deriving DecidableEq, Repr

/-- A namespace that exists at this point and is older than s. -/
def Rec.ns (r : Rec) (nsid s : Nat) : Option Namespace := r.nss.find? fun n => n.nsid == nsid && decide (n.cseq < s)

/-- Whether an item of SEQ s may apply to an index: a pending index takes any; a journal record needs s at or
above the table's value; a slot needs it above, or at or above SEQ0 when the index is absent. -/
def Rec.applies (r : Rec) (i s : Nat) (slot : Bool) (seq0 : Nat) : Bool :=
  if r.pend.contains i then true
  else match Assoc.get r.table i with
    | none => !slot || decide (seq0 ≤ s)
    | some t => if slot then decide (t < s) else decide (t ≤ s)

/-- Apply one item: the entry takes its place. -/
def Rec.put (r : Rec) (i s : Nat) (l : Loc) : Rec :=
  { r with map := (match l with
      | .unmapped => Assoc.del r.map i
      | _ => Assoc.set r.map i l)
           table := Assoc.set r.table i s, pend := r.pend.filter (· != i), unrecov := r.unrecov.filter (· != i) }

/-- Apply a mark: the entry keeps its place, but a pending one, whose place did not survive. -/
def Rec.mark (r : Rec) (i s : Nat) : Rec :=
  { r with map := if r.pend.contains i then Assoc.del r.map i else r.map
           table := Assoc.set r.table i s, pend := r.pend.filter (· != i)
           unrecov := if r.unrecov.contains i then r.unrecov else r.unrecov ++ [i] }

/-- Nothing of a range of indices is left: no place, no value, no mark (R191, R192). -/
def Rec.clear (r : Rec) (mbase cap : Nat) : Rec :=
  let other := fun i => !(decide (mbase ≤ i) && decide (i < mbase + cap))
  { r with map := r.map.filter fun p => other p.1, table := r.table.filter fun p => other p.1, pend := r.pend.filter other
           unrecov := r.unrecov.filter other }

/-- The items a journal record holds (R208, R217): a namespace created or deleted, an entry, a range. `ends` are the
ATOM groups whose ATOM_END is present. -/
def Rec.record (r : Rec) (ends : List Nat) (j : JRecord) : Rec :=
  match j.typ with
  | .nsCreate =>
    if r.nss.any fun n => n.nsid == j.nsid then r
    else { r.clear j.value j.lba with nss := r.nss ++ [{ nsid := j.nsid, g16k := bit j.flags.toNat 2, mbase := j.value, cap := j.lba, initLines := 0,
                                                           cseq := j.seq, creating := none, deleting := false, worn := false, sideB := false }] }
  | .nsDelete =>
    match r.nss.find? fun n => n.nsid == j.nsid && decide (n.cseq < j.seq) with
    | some n => { r.clear n.mbase n.cap with nss := r.nss.filter fun k => k.nsid != j.nsid }
    | none => r
  | .map =>
    match r.ns j.nsid j.seq with
    | some n => if r.applies (n.mbase + j.lba) j.seq false 0 then r.put (n.mbase + j.lba) j.seq (.media (j.value % 2 ^ 38)) else r
    | none => r
  | .unmap =>
    if bit j.flags.toNat 3 && !ends.contains (j.value % 2 ^ 32) then r
    else match r.ns j.nsid j.seq with
    | some n => (List.range j.count).foldl (fun r k =>
        let i := n.mbase + j.lba + k
        if r.applies i j.seq false 0 then r.put i j.seq .unmapped else r) r
    | none => r
  | .unrecov =>
    match r.ns j.nsid j.seq with
    | some n => (List.range j.count).foldl (fun r k =>
        let i := n.mbase + j.lba + k
        if r.applies i j.seq false 0 then r.mark i j.seq else r) r
    | none => r
  | _ => r

/-- Whether an atom member's group is complete: every SEQ from AGROUP's full value to the member with bit 4 is there, as a slot of the
group or in a MAP record, and the group's UNMAP records are (R217). `step` is the distance between SEQ values. -/
def groupComplete (slots : List SlotRec) (recs : List JRecord) (step : Nat) (g : BitVec 32) (s : Nat) : Bool :=
  let first := s - (s - g.toNat) % 2 ^ 32
  let members := slots.filter fun r => r.kind == .data && r.agroup == g && bit r.flags.toNat 3 && decide (first ≤ r.seq)
  match members.find? fun r => bit r.flags.toNat 4 with
  | none => false
  | some l =>
    let there := fun q => (members.any fun r => r.seq == q) || recs.any fun j => j.typ == .map && j.seq == q
    ((List.range ((l.seq - first) / step + 1)).all fun k => there (first + k * step)) &&
    (match recs.find? fun j => j.typ == .atomEnd && j.value % 2 ^ 32 == g.toNat with
     | some e => (recs.filter fun j => j.typ == .unmap && bit j.flags.toNat 3 && j.value % 2 ^ 32 == g.toNat).length == e.count
     | none => true)

/-- Apply the slots read, in ascending SEQ (R216 to R218): a 16 KiB granule by its first slot, an atom member only
when its group is complete. -/
def Rec.slots (r : Rec) (seq0 step : Nat) (all : List SlotRec) (recs : List JRecord) (items : List (Nat × SlotRec)) : Rec :=
  (sortBy (fun p => p.2.seq) items).foldl (fun r p =>
    let k := p.2
    if k.kind != .data || (bit k.flags.toNat 5 && bits k.flags.toNat 7 6 != 0) then r
    else if bit k.flags.toNat 3 && !groupComplete all recs step k.agroup k.seq then r
    else match r.ns k.nsid k.seq with
    | some n =>
      let i := n.mbase + k.lba.toNat
      if r.applies i k.seq true seq0 then { r.put i k.seq (.media p.1) with given := i :: r.given } else r
    | none => r) r

/-- The journal records of a range, in order. -/
def recordsFrom (s : State) (jpos : Nat) : List JRecord :=
  (sortBy JSlot.jpos (s.xlat.journal.filter fun j => decide (jpos ≤ j.jpos))).flatMap JSlot.recs

/-- Whether a copy of a journal slot can be read: verified, and not among the places that do not decode even through parity. -/
def copyReads (lost : List Nat) (c : Option (Nat × Bool)) : Bool := (c.map fun k => k.2 && !lost.contains k.1).getD false

/-- Whether a journal slot of a range is lost, both its copies unreadable, or missing before the last one found (R209, R220). -/
def journalLost (s : State) (lost : List Nat) (jpos : Nat) : Bool :=
  let js := s.xlat.journal.filter fun j => decide (jpos ≤ j.jpos)
  let lo := max jpos (((s.xlat.journal.head?).map JSlot.jpos).getD jpos)
  (js.any fun j => !copyReads lost j.copyA && !copyReads lost j.copyB) ||
  match js.getLast? with
  | some j => decide (js.length ≠ j.jpos + 1 - lo)
  | none => false

/-- Whether the slots of a generation are all readable, directly or in a copy of the Cullet's. -/
def genReadable (s : State) (lost : List Nat) (g : CkGen) : Bool :=
  s.media.slots.all fun p => p.2.kind != .checkpoint || !lost.contains p.1 ||
    !(s.media.bands.any fun b => g.bands.contains b.serial && b.columns.contains (psaDie p.1, psaBlock p.1)) ||
    s.media.slots.any fun q => q.1 != p.1 && q.2.kind == .checkpoint && q.2.lba == p.2.lba && q.2.seq == p.2.seq && !lost.contains q.1

/-- Whether a closed band's summary can be read (R212, R219, R279, R419). -/
def summaryReads (s : State) (lost : List Nat) (b : Band) : Bool :=
  b.st != .opened && b.summary && (bandSlots s b).all fun p => p.2.kind != .summary || !lost.contains p.1

/-- Whether a slot at a place is evidence: it decodes, directly or through parity, all four of a 16 KiB granule do, and its key can
be reached (R216, R509). -/
def evident (s : State) (lost : List Nat) (p : Nat × SlotRec) : Bool :=
  let base := granBase p.1 p.2
  keyReach s p.2.nsid p.2.epoch && if bit p.2.flags.toNat 5 then
      (List.range 4).all fun i => !lost.contains (base + i) && (Assoc.get s.media.slots (base + i)).isSome
    else !lost.contains p.1

/-- The evidence in bands that a test picks; of a band whose summary is read instead of it, every slot the summary lists. -/
def slotsOf (s : State) (lost : List Nat) (viaSummary : Bool) (p : Band → Bool) : List (Nat × SlotRec) :=
  s.media.slots.filter fun k => match bandOf s k.1 with
    | some b => p b && (if viaSummary && summaryReads s lost b then keyReach s k.2.nsid k.2.epoch else evident s lost k)
    | none => false

/-- The ATOM groups whose end record is among the records. -/
def atomEnds (recs : List JRecord) : List Nat := (recs.filter fun j => j.typ == .atomEnd).map fun j => j.value % 2 ^ 32

/-- The map of a generation as it is loaded: lines at or above a namespace's INITLINES are initialised again (R191, R218). -/
def CkGen.loaded (g : CkGen) : List (Nat × Loc) :=
  g.map.filter fun p => !(g.nss.any fun n => decide (nsLine0 n + n.initLines ≤ p.1 / 12) && decide (p.1 / 12 < nsLine0 n + nsLines n))

/-- Whether a recovery reads a band in full: a BAND_OPEN record of it is there and no BAND_CLOSE, or it is open and its BAND_OPEN was
released with the journal before the kept range (R218; the latter a DESIGN CHOICE, log entry 28). -/
def unclosed (s : State) (b : Band) : Bool :=
  let has := fun t => s.xlat.journal.any fun j => j.recs.any fun r => r.typ == t && r.lba == b.bandId.toNat
  !has .bandClose && (has .bandOpen || b.st == .opened)

/-- Recover from a generation: its map and table, replay, open bands (R218 steps 1 to 4). A group's members may lie in any band
(DEDUCED from R217). -/
def recoverFrom (s : State) (lost : List Nat) (g : CkGen) : Rec :=
  let recs := recordsFrom s g.beginJpos
  let pend := (g.loaded.filter fun p => match p.2 with
    | .gather _ => true
    | _ => false).map Prod.fst
  let r0 : Rec := { nss := g.nss, map := g.loaded, table := [], pend := pend, unrecov := s.xlat.unrecov }
  let r1 := recs.foldl (fun r j => r.record (atomEnds recs) j) r0
  r1.slots g.seq0 (seqStep s) ((s.media.slots.filter (evident s lost)).map Prod.snd) recs (slotsOf s lost false (unclosed s))

/-- The full metadata scan: namespace records in SEQ order, every slot and every UNMAP and UNRECOV record (R219). -/
def fullScan (s : State) (lost : List Nat) : Rec :=
  let recs := recordsFrom s 0
  let isNs := fun (j : JRecord) => j.typ == .nsCreate || j.typ == .nsDelete
  let found := slotsOf s lost true fun _ => true
  let r0 : Rec := { nss := [], map := [], table := [], pend := [], unrecov := [] }
  let r1 := (sortBy JRecord.seq (recs.filter isNs)).foldl (fun r j => r.record [] j) r0
  let r2 := r1.slots 0 (seqStep s) (found.map Prod.snd) recs found
  (sortBy JRecord.seq (recs.filter fun j => j.typ == .unmap || j.typ == .unrecov)).foldl (fun r j => r.record (atomEnds recs) j) r2

/-- Bands that a recovery reads in full: those without a BAND_CLOSE record, in a full scan the data bands too whose summary cannot be
read (R218, R219). -/
def readInFull (s : State) (lost : List Nat) (path : Nat) : Nat :=
  (s.media.bands.filter fun b => unclosed s b || (path == 3 && !b.system && !summaryReads s lost b)).length

/-- Whether a band's summary and the band it describes are both unreadable (R220). -/
def scanLost (s : State) (lost : List Nat) : Bool :=
  s.media.bands.any fun b => !b.system && b.summary && b.st != .opened && !summaryReads s lost b &&
    (bandSlots s b).any fun p => p.2.kind == .data && lost.contains p.1

/-- Recount VALID of every band from the map (R267). -/
def recountValid (s : State) : State :=
  s.updMedia fun m => { m with bands := m.bands.map fun b =>
    { b with valid := (m.slots.filter fun p => b.columns.contains (psaDie p.1, psaBlock p.1) && isValid s p.1 p.2).length } }

/-- Sides of namespaces, which records do not carry, as they stood. -/
def keepSides (old new : List Namespace) : List Namespace :=
  new.map fun n => match old.find? fun o => o.nsid == n.nsid with
    | some o => { n with sideB := o.sideB, initLines := min n.initLines (nsLines n) }
    | none => n

/-- The end of a recovery (R218 step 5): the table's result becomes the map; indices still pending are marked unrecoverable with a record
each, of the last SEQ assigned (DESIGN CHOICE, log entry 14: R203 gives such a record none of its own); MAP records for what the bands
read in full gave; a checkpoint cycle is asked for. -/
def finishRecovery (s : State) (r : Rec) (path full : Nat) : State :=
  let nss := keepSides s.xlat.nss r.nss
  let s1 := s.updXlat fun x =>
    { x with nss := nss, map := r.pend.foldl (fun m i => Assoc.del m i) r.map
             unrecov := r.unrecov ++ (r.pend.filter fun i => !r.unrecov.contains i)
             gather := [], deep := [], suspect := [], ways := [], plru := [], ck := none, ckWant := true
             lastRecovery := BitVec.ofNat 64 (path + full * 2 ^ 48) }
  let owner := fun (i : Nat) => nss.find? fun n => decide (n.mbase ≤ i ∧ i < n.mbase + n.cap)
  let recs := r.pend.filterMap fun i => (owner i).map fun n => jrec .unrecov 0 n.nsid 1 (i - n.mbase) (s.xlat.seq - seqStep s) 0
  let maps := (r.table.filter fun p => r.given.contains p.1).filterMap fun p => match Assoc.get r.map p.1, owner p.1 with
    | some (.media psa), some n =>
      if s.media.bands.any fun b => unclosed s b && b.columns.contains (psaDie psa, psaBlock psa) then
        some (jrec .map 0 n.nsid 1 (p.1 - n.mbase) p.2 psa) else none
    | _, _ => none
  recountValid (journalAdd s1 (recs ++ maps))

/-- The next SEQ after a recovery: above every SEQ found. -/
def seqAfter (s : State) : Nat :=
  let hi := (s.media.slots.map fun p => p.2.seq).foldl max ((s.xlat.journal.map JSlot.seq).foldl max 0)
  let st := seqStep s
  if s.xlat.seq ≤ hi then s.xlat.seq + (hi - s.xlat.seq) / st * st + st else s.xlat.seq

/-- The next JPOS: the one after the last slot found; what lay after it was never whole. -/
def jposAfter (s : State) : Nat := ((s.xlat.journal.getLast?).map fun j => j.jpos + 1).getD s.xlat.jpos

/-- Whether a record changes nothing of the map or of the namespaces: a replay of such records alone finds the checkpoint clean
(DEDUCED from R221 and R226: a cycle's own CK_BEGIN and CK_END always lie in its replay range). -/
def idleRec (j : JRecord) : Bool := j.typ == .pad || j.typ == .ckBegin || j.typ == .ckEnd || j.typ == .bandOpen || j.typ == .bandClose

/-- Recovery: the path chosen and its result, or none where it cannot complete (R218 to R220); `lost` holds the places that do not
decode, even through parity. A module whose anchor has never been written starts empty. -/
def recoverMap (s : State) (lost : List Nat) : Option State :=
  let newest : Option CkGen := match s.nor.anchor with
    | some a => s.xlat.gens.find? fun g => g.gen == a.gen
    | none => none
  let s0 := s.updXlat fun x =>
    { x with seq := seqAfter s, jpos := jposAfter s, staging := [], ckGen := (newest.map CkGen.gen).getD x.ckGen
             gens := match newest with
               | some g => (x.gens.takeWhile fun k => k.gen != g.gen) ++ [g]
               | none => [] }
  let prev : Option CkGen := match newest with
    | some g => (s.xlat.gens.filter fun k => decide (k.gen < g.gen)).getLast?
    | none => none
  let viaScan : Option State :=
    if journalLost s lost 0 then none
    else some (storeNv (finishRecovery s0 (fullScan s lost) 3 (readInFull s lost 3)) 0x05000012 0)
  let via := fun (g : CkGen) (path : Nat) =>
    if journalLost s lost g.beginJpos then none
    else some (finishRecovery s0 (recoverFrom s lost g) (if path = 0 ∧ !(recordsFrom s g.beginJpos).all idleRec then 1 else path) (readInFull s lost path))
  let fresh : Rec := { nss := s.xlat.nss, map := s.xlat.map, table := [], pend := [], unrecov := s.xlat.unrecov }
  if nvVal s 0x05000012 = 1 then viaScan
  else match newest, prev with
    | some g, p =>
      if genReadable s lost g then via g 0
      else match p with
        | some q => if genReadable s lost q then via q 2 else viaScan
        | none => viaScan
    | none, _ => if s.nor.anchor.isNone && s.xlat.journal.isEmpty then some (finishRecovery s0 fresh 0 0) else viaScan

/-! ### Rebuilding a line (R200) -/

/-- The entries of a line of a namespace: the newest checkpoint's copy with the journal's records since its CK_BEGIN, those in staging
too; a granule in the gather buffer has no record yet, and its slot names it (DEDUCED). -/
def rebuiltLine (s : State) (n : Namespace) (line : Nat) : List (Nat × Loc) :=
  let mine := fun (i : Nat) => i / 12 == line
  let g := s.xlat.gens.getLast?
  let copy := match g with
    | some k => if k.seq0 ≤ n.cseq then [] else k.loaded.filter fun p => mine p.1
    | none => []
  let recs := (recordsFrom s ((g.map CkGen.beginJpos).getD 0)) ++ s.xlat.staging
  let ours := recs.filter fun j => j.nsid == n.nsid && (j.typ == .map || j.typ == .unmap)
  let r := ours.foldl (fun r j => r.record (atomEnds recs) j) ({ nss := [n], map := copy, table := [], pend := [], unrecov := [] } : Rec)
  let held := s.xlat.gather.filter fun y => y.mapped && !y.atom && y.part == 0 && y.nsid == n.nsid && mine (mapIdx n y.gran)
  held.foldl (fun m y => Assoc.set m (mapIdx n y.gran) (.gather y.slot)) (r.map.filter fun p => mine p.1)

/-- LINE_REBUILD: rebuilt from the checkpoint copy and the journal, the line is suspect no more. -/
def execLineRebuild (line : Nat) (s : State) : Host.Outcome State Fault Refusal :=
  .next (if !s.xlat.suspect.contains line then s
    else match lineNs s line with
    | none => s.updXlat fun x => { x with suspect := x.suspect.filter (· != line) }
    | some n =>
      let entry := fun (x : Xlat) (e : Nat) => x.setMap (12 * line + e) ((Assoc.get (rebuiltLine s n line) (12 * line + e)).getD .unmapped)
      s.updXlat fun x => { (List.range 12).foldl entry x with suspect := x.suspect.filter (· != line) })

end Sys2Proof.Machine
end

