-- ==== Sys2Proof/Machine/Movers.lean ====
section
/-! DEFINITION. The mover engines: bus errors, restart, quarantine, pacing, and the drain of paced copies
(R324 to R337). -/

namespace Sys2Proof.Machine

/-- An engine. -/
def getEngine (s : State) (e : Nat) : Engine := vget s.movers.eng e Engine.init

/-- The contexts with a descriptor in an engine's stores, each once. -/
def engineOwners (s : State) (e : Nat) : List Nat :=
  (getEngine s e).descs.foldl (fun l d => if d.internal || l.contains d.owner then l else l ++ [d.owner]) []

/-- The contexts that booked bytes on an engine for the beats [b, b + n), each once. -/
def engineBooked (s : State) (e b n : Nat) : List Nat :=
  let on := s.plan.near.filter fun k => (k.res == .engIn e || k.res == .engOut e) && decide (b ≤ k.beat) && decide (k.beat < b + n)
  (s.ctxs.filter fun x => on.any fun k => k.owner == x.adm).map Ctx.c

/-- DMV_LAST_ERROR of an error on a channel (R343). -/
def lastErrorWord (s : State) (e chan code : Nat) : BitVec 64 :=
  let fn := (((getEngine s e).descs.find? fun d => d.chan == chan).map Desc.fn).getD 0
  BitVec.ofNat 64 (code % 16 + fnLink fn * 2 ^ 4 + fnFunc fn * 2 ^ 7 + s.beat * 2 ^ 16)

/-- End a context with HOST_BUS_ERROR (R163). -/
def busEnd (s : State) (c : Nat) : State :=
  match getCtx s c with
  | none => s
  | some x =>
    let e := endWord (dropDescs s c) x
    endWith e.2 c St.hostBusError 0 e.1

/-- BUS_ERROR: the engine stops; every context with a descriptor there, or with bytes booked there for this beat or the next, ends; internal copies stay, to be booked
again; the tag pool goes into quarantine and the engine restarts, or stays stopped while no pool is free
(R333, R334). -/
def execBusError (engine chan code : Nat) (s : State) : Host.Outcome State Fault Refusal :=
  .next (if 4 ≤ engine ∨ code = 0 ∨ 5 < code ∨ chan / 16 ≠ engine then s else
    let stored := engineOwners s engine
    let owners := stored ++ (engineBooked s engine s.beat 2).filter fun c => !stored.contains c
    let fn := (((getEngine s engine).descs.find? fun d => d.chan == chan).map Desc.fn)
    let w := lastErrorWord s engine chan code
    let s1 := modEngine s engine fun e =>
      { e with st := if e.spare then .restarting else .stopped, resumeAt := s.beat + 2, spare := false
               quarantine := min (e.quarantine + 1) 2, pending := Vector.replicate 16 0, lastError := w }
    let s2 := s1.updMovers fun m => { m with busErrors := satAdd m.busErrors 1, affected := satAdd m.affected owners.length }
    let s3 := match fn with
      | some n => modLink s2 (fnLink n) fun l => { l with aerUncorr := satAdd l.aerUncorr 1 }
      | none => s2
    owners.foldl busEnd s3)

/-- The commands booked for this beat on engines that stay stopped end with HOST_BUS_ERROR (R334). -/
def stoppedEngines (s : State) : State :=
  (List.range 4).foldl (fun s e =>
    if (getEngine s e).st != .stopped then s
    else
      let cs := engineBooked s e s.beat 1
      cs.foldl busEnd (s.updMovers fun m => { m with affected := satAdd m.affected cs.length })) s

/-- ENGINE_RESUME: at the start of beat E + 2 the engine runs with its second tag pool. -/
def execEngineResume (engine : Nat) (s : State) : Host.Outcome State Fault Refusal :=
  .next (if engine < 4 ∧ (getEngine s engine).st = .restarting ∧ (getEngine s engine).resumeAt ≤ s.beat then
      modEngine s engine fun e => { e with st := .running } else s)

/-- QUARANTINE_DRAINED: a pool returns; a stopped engine runs with it. -/
def execQuarantineDrained (engine : Nat) (s : State) : Host.Outcome State Fault Refusal :=
  .next (if 4 ≤ engine ∨ (getEngine s engine).quarantine = 0 then s else
    modEngine s engine fun e =>
      { e with quarantine := e.quarantine - 1, st := if e.st = .stopped then .running else e.st
               spare := if e.st = .stopped then false else true })

/-- Mark the first burst of the paced copies of a source as started, or withdrawn. -/
def markBursts (s : State) (p : Nat) (on : Bool) : State :=
  s.updMovers fun m => { m with eng := m.eng.map fun e => { e with descs := updIf (fun d => d.pacer == some p) (fun d => { d with started := on }) e.descs } }

/-- Whether a paced copy has a burst started. -/
def burstStarted (s : State) (p : Nat) : Bool :=
  (List.range 4).any fun e => (getEngine s e).descs.any fun d => d.pacer == some p && d.started

/-- PACE_ASSERT: held copies start or repeat their burst (R336, R337). -/
def execPaceAssert (source : Nat) (s : State) : Host.Outcome State Fault Refusal :=
  .next (if 3 ≤ source then s else
    markBursts (s.updMovers fun m => { m with pacer := vset m.pacer source true }) source true)

/-- PACE_WITHDRAW: a burst already started is discarded, counted, and repeated later; before its start it only
waits (R337). -/
def execPaceWithdraw (source : Nat) (s : State) : Host.Outcome State Fault Refusal :=
  .next (if 3 ≤ source ∨ !vget s.movers.pacer source false then s else
    let s1 := s.updMovers fun m =>
      { m with pacer := vset m.pacer source false
               paceWithdrawn := if burstStarted s source then satAdd m.paceWithdrawn 1 else m.paceWithdrawn }
    markBursts s1 source false)

/-- One engine's started paced copies run to their end: their frames leave, their bytes are counted, their channels
count an end-of-count event (R331, R336). -/
def drainEngine (s : State) (e : Nat) : State :=
  let g := getEngine s e
  if g.st != .running then s
  else
    let go := fun (d : Desc) => d.internal && d.started && match d.pacer with
      | some p => vget s.movers.pacer p false
      | none => true
    let out := g.descs.filter go
    let s1 := modEngine s e fun g =>
      { g with descs := g.descs.filter fun d => !go d
               pending := out.foldl (fun v d => vset v (d.chan % 16) (min 255 (vget v (d.chan % 16) 0 + 1))) (Vector.replicate 16 0) }
    let s2 := s1.updMovers fun m => { m with internal := satAdd m.internal (sum (out.map Desc.len)) }
    out.foldl (fun s d => match d.frame with
      | some o => emit s (caneLeaves s (d.pacer.getD 0) o)
      | none => s) s2

/-- The paced copies of a beat. -/
def drainPaced (s : State) : State := (List.range 4).foldl drainEngine s

end Sys2Proof.Machine
end

