-- ==== Sys2Proof/Machine/Book.lean ====
section
/-! DEFINITION. What an entry books: room in the near and far calendars, host bytes as framed, reads with
their margin, the drain of a write, the run of a program, and the trial of a whole entry (R40 to R58, R118,
R245, R272, R351, R413, R547, R549). -/

namespace Sys2Proof.Machine

/-! ### Near and far (R40 to R42) -/

/-- The first beat beyond the far calendar. -/
def farEnd (s : State) : Nat := 1024 * (s.plan.laidSpan + 2048)

/-- What far bookings may still take of a resource in a span: BEAT_FAR_SHARE / 256 of its host share (R41). -/
def farLeft (s : State) (r : Res) (span : Nat) : Nat :=
  shareCap s r .host * (1024 / r.window) * nvVal s 0x02000004 / 256 -
    sum ((s.plan.far.filter fun k => k.res.pool == r.pool && k.span == span).map FarBooking.amount)

/-- The last beat that one booking covers: the beat itself, or the end of its span in the far calendar. -/
def lastWith (s : State) (b : Nat) : Nat := if b < nearEnd s then b else b / 1024 * 1024 + 1023

/-- The engine of a link's pair with more free bytes on a beat, the lower on a tie (R325). -/
def freerEngine (s : State) (l b : Nat) (toHost : Bool) : Nat :=
  let a := enginePair l
  if freeOf s (engRes a toHost) .host b < freeOf s (engRes (a + 1) toHost) .host b then a + 1 else a

/-- The framed bytes that an engine of a link's pair can still carry on a beat. -/
def engineRoom (s : State) (l b : Nat) (toHost : Bool) : Nat :=
  let k := freeOf s (engRes (freerEngine s l b toHost) toHost) .host b
  if 4 ≤ l then k * 5 / 4 else k * 9 / 8

/-- The link and direction of a host transfer's bytes. -/
def Res.moved : Res → Option (Nat × Bool)
  | .hostIn l => some (l, false)
  | .hostOut l => some (l, true)
  | _ => none

/-- The engine that mirrors to the twin: that of the channel paced by the punty link (R324, R325, log entry 12). -/
def mirrorEngine : Res := engRes (pacedChan 0 / 16) true

/-- Room of a resource in the host share, on a beat or in its span; a host transfer takes an engine of its pair with the port
(R324, R325). -/
def room (s : State) (r : Res) (b : Nat) : Nat :=
  if b < nearEnd s then
    match r.moved with
    | some (l, out) => min (freeOf s r .host b) (engineRoom s l b out)
    | none => if r = .puntyOut then min (freeOf s r .host b) (freeOf s mirrorEngine .host b) else freeOf s r .host b
  else farLeft s r (b / 1024)

/-- Book in the host share, on a beat or in its span. -/
def take (s : State) (r : Res) (b k owner : Nat) : State :=
  if k = 0 then s
  else if b < nearEnd s then
    let s1 := book s r .host b k owner
    match r.moved with
    | some (l, out) => book s1 (engRes (freerEngine s l b out) out) .host b (unframed l k) owner
    | none => if r = .puntyOut then book s1 mirrorEngine .host b k owner else s1
  else s.updPlan fun p => { p with far := p.far ++ [{ res := r, span := b / 1024, amount := k, owner := owner }] }

/-- Book a total as early as room allows on the beats [b, last]: the beats used and the state; none when it
does not fit. `fuel` bounds the beats visited. -/
def fill : Nat → State → Res → Nat → Nat → Nat → Nat → Option (List Nat × State)
  | 0, _, _, _, _, _, _ => none
  | fuel + 1, s, r, b, last, total, owner =>
    if total = 0 then some ([], s)
    else if last < lastWith s b then none
    else
      let k := min total (room s r b)
      match fill fuel (take s r b k owner) r (lastWith s b + 1) last (total - k) owner with
      | none => none
      | some (l, s1) => some (if k = 0 then l else lastWith s b :: l, s1)

/-- The beats a near and far calendar offers at most. -/
def calFuel : Nat := 12000

/-- Book a total spread evenly over the beats [lo, hi], from beat b on (R54); far beats go span by span. -/
def spread : Nat → State → Res → Nat → Nat → Nat → Nat → Nat → Option State
  | 0, _, _, _, _, _, _, _ => none
  | fuel + 1, s, r, lo, b, hi, total, owner =>
    if total = 0 ∨ hi < b then (if total = 0 ∨ lo ≤ hi then some s else none)
    else
      let e := min hi (lastWith s b)
      let n := hi - lo + 1
      let k := total * (e - lo + 1) / n - total * (b - lo) / n
      if room s r b < k then none else spread fuel (take s r b k owner) r lo (e + 1) hi total owner

/-- An even spread over [lo, hi]; a total that is not zero needs a beat. -/
def evenly (s : State) (r : Res) (lo hi total owner : Nat) : Option State :=
  if total = 0 then some s else if hi < lo then none else spread calFuel s r lo lo hi total owner

/-- The last beat of a list of beats, not before b. -/
def lastOf (b : Nat) (l : List Nat) : Nat := l.foldl max b

/-! ### Host bytes (R329, R351, R356) -/

/-- Book n bytes to the host; nothing for a command of the sideband or of the Cane queue. -/
def bookOut (s : State) (x : Ctx) (first last n : Nat) : Option (List Nat × State) :=
  if x.ringOf.isNone ∨ n = 0 then (if first ≤ last then some ([first], s) else none)
  else fill calFuel s (.hostOut (fnLink x.fn)) first last (writeBytes s x n) x.adm

/-- Book n bytes from the host, the read requests outbound with them. -/
def bookIn (s : State) (x : Ctx) (first last n : Nat) : Option (List Nat × State) :=
  if x.ringOf.isNone ∨ n = 0 then (if first ≤ last then some ([first], s) else none)
  else
    let k := readBytes s x n
    match fill calFuel s (.hostIn (fnLink x.fn)) first last k.1 x.adm with
    | none => none
    | some (l, s1) => (fill calFuel s1 (.hostReq (fnLink x.fn)) first last k.2 x.adm).map fun r => (l, r.2)

/-! ### Order floors (R102, R104, R549) -/

/-- The latest planned POST of the admitted commands that a test picks, not before this beat. -/
def postFloor (s : State) (p : Ctx → Bool) : Nat := ((s.ctxs.filter p).map Ctx.postBeat).foldl max s.beat

/-- Commands of the same ring that ORD puts before a command (R104). -/
def ordBefore (x y : Ctx) : Bool := (x.entry.ord || y.entry.ord) && y.ringOf.isSome && y.ringOf == x.ringOf

/-- The beat after which a command's operations may start. -/
def ordFloor (s : State) (x : Ctx) : Nat := postFloor s (ordBefore x)

/-- The beat after which a direct op's operations on its granules may take effect: those of an earlier
overlapping command end the beat before its POST, at its POST where it is a program or writes through. -/
def effFloor (s : State) (x : Ctx) : Nat :=
  ((s.ctxs.filter (overlaps x)).map fun y => if y.entry.isProg || y.writeThrough then y.postBeat else y.postBeat - 1).foldl max
    (ordFloor s x)

/-- The beat after which a command may post. -/
def ovFloor (s : State) (x : Ctx) : Nat := max (effFloor s x) (postFloor s (overlaps x))

/-! ### Translation (R45, R199) -/

/-- Ways of a set that are pinned on beat b: those pinned now that last until then, and those of fills booked on it or on the
beat before (R199). -/
def pinsAt (s : State) (set b : Nat) : Nat :=
  (s.xlat.ways.filter fun x => x.set == set && decide (b - s.beat < x.pins)).length +
  (s.plan.near.filter fun k => k.res == .fills && decide (s.beat < k.beat ∨ k.beat = b) && decide (k.beat ≤ b ∧ b ≤ k.beat + 1) &&
    lineSet (k.tag - 1) == set).length

/-- Whether a set of the cache has a way that is not pinned on beat b, for one more line. -/
def wayFreeAt (s : State) (set b : Nat) : Bool := decide (pinsAt s set b < 16)

/-- The map lines of [first, first + n) of a namespace. -/
def linesOf (ns : Namespace) (first n : Nat) : List Nat :=
  let a := mapIdx ns first / 12
  (List.range (mapIdx ns (first + n - 1) / 12 + 1 - a)).map (a + ·)

/-- Book the fill of a line on beat b, or the first beat after it on which its set has a free way (R199). -/
def bookFill (s : State) (line b last owner : Nat) : Option (Nat × State) :=
  (lowest (fun u => decide (1 ≤ room s .fills u) && wayFreeAt s (lineSet line) u) b (last + 1 - b)).map fun u =>
    (u, if u < nearEnd s then s.updPlan fun p => { p with near := p.near ++
          [{ res := .fills, beat := u, amount := 1, share := .host, owner := owner, tag := line + 1 }] }
        else take s .fills u 1 owner)

/-- What the lookups of a range take: the beat of the last one, the beat after which each granule's read may start, the state. -/
structure Lookups where
  last : Nat
  from_ : Nat → Nat
  st : State

/-- Book the lookups of n granules: on beat b those of lines in the cache, on the beat after its line's fill each other. The
fills are on beat b but for pinned sets, and for a command that alone exceeds a beat's fills or lookups: its go on as room comes
(R45, R199; DESIGN CHOICE, log entry 28). -/
def bookLookups (s : State) (ns : Namespace) (first n b last owner : Nat) : Option Lookups :=
  let lines := linesOf ns first n
  let miss := lines.filter fun l => !lineCached s l
  let i0 := mapIdx ns first
  let s0 := lines.foldl (fun s l => touchLine s l (min (i0 + n) (12 * l + 12) - max i0 (12 * l))) s
  let filled := miss.foldl (fun m l => match m with
    | none => none
    | some (acc, s) => match bookFill s l b last owner with
      | some (u, s1) => if u ≠ b ∧ miss.length ≤ 8192 ∧ wayFreeAt s (lineSet l) b then none else some ((l, u + 1) :: acc, s1)
      | none => none) (some (([] : List (Nat × Nat)), s0))
  match filled with
  | none => none
  | some (at_, s1) =>
    let beatOf := fun g => (Assoc.find at_ (mapIdx ns g / 12)).getD b
    let end_ := (at_.map Prod.snd).foldl max b
    let go := fun (m : Option (Nat × State)) (t : Nat) => match m with
      | none => none
      | some (e, s) =>
        let k := ((List.range n).filter fun i => beatOf (first + i) == t).length
        if k ≤ room s .lookups t then some (max e t, take s .lookups t k owner)
        else if n ≤ 25600 then none
        else (fill calFuel s .lookups t last k owner).map fun r => (lastOf e r.1, r.2)
    (((List.range (end_ + 1 - b)).map (b + ·)).foldl go (some (b, s1))).map fun r =>
      { last := r.1, from_ := fun g => if n ≤ 25600 then beatOf g else r.1, st := r.2 }

/-! ### Reads (R45 to R47, R55 to R58, R245) -/

/-- The read occupancy of a slot: its band's cell mode under the profile of its oct (R46). -/
def slotOcc (s : State) (psa : Nat) : Nat := occRead s (dieOct (psaDie psa)) (blockCell s (psaDie psa) (psaBlock psa))

/-- Book a read as totals of the first far span with room: the span's last beat (R40, R42). -/
def planFar (s : State) (psa n b limit owner : Nat) : Option (Nat × State) :=
  let d := psaDie psa
  let k := dieOct d
  let r := slotOcc s psa
  let from_ := max s.plan.laidSpan ((b + 1023) / 1024)
  if !dieUsable s d ∨ r = 0 ∨ limit < from_ * 1024 + 1023 then none
  else
    let ok := fun sp => decide (r ≤ farLeft s (.dieTime d) sp ∧ r ≤ farLeft s .dieTotal sp ∧ n ≤ farLeft s (.chan (dieChan d)) sp ∧
      n ≤ farLeft s .chanTotal sp ∧ n ≤ farLeft s (.decoder k) sp ∧ enRead s k + n * enXfer s k ≤ farLeft s .energy sp)
    match lowest ok from_ (min 2048 ((limit - 1023) / 1024 + 1 - from_)) with
    | none => none
    | some sp =>
      let t := 1024 * sp
      let s1 := take (take s (.dieTime d) t r owner) .dieTotal t r owner
      let s2 := take (take s1 (.chan (dieChan d)) t n owner) .chanTotal t n owner
      some (t + 1023, take (take s2 (.decoder k) t n owner) .energy t (enRead s k + n * enXfer s k) owner)

/-- The near calendar's last beat, or an earlier limit. -/
def nearLimit (s : State) (limit : Nat) : Nat := min limit (nearEnd s - 1)

/-- Name the bookings that a state has beyond another as those of one slot's ladder. -/
def tagSince (s t : State) (tag : Nat) : State :=
  t.updPlan fun p =>
    { p with near := s.plan.near ++ (p.near.drop s.plan.near.length).map fun k => { k with tag := tag }
             far := s.plan.far ++ (p.far.drop s.plan.far.length).map fun k => { k with tag := tag } }

/-- The bookings of steps 2 to 4 of the ladder of one slot of a D5 read, all within the limit, with their energy (R43, R245); where
the read booked a sense of its own, the first slot has step 1 from it. -/
def ladderSlot (s : State) (x : Ctx) (psa i b limit : Nat) (sensed : Bool) : Option State :=
  let k := nvVal s 0x06000009
  let d := psaDie psa
  let n := k + 7 - b2n (sensed && i == 0)
  let die := n * slotOcc s psa
  let energy := n * enRead s (dieOct d) + (k + 6) * enXfer s (dieOct d)
  let go := fun (m : Option State) (r : Res) (t : Nat) => m.bind fun s => (fill calFuel s r b limit t x.adm).map Prod.snd
  (go (go (go (go (go (go (some s) (.dieTime d) die) .dieTotal die) (.chan (dieChan d)) (k + 6)) .chanTotal (k + 6)) (.decoder (dieOct d)) (k + 12))
    .energy energy).map fun t => tagSince s t (psa + i + 1)

/-- The ladders of the n slots of a page, in D5 (R245); a slot of a dark die has none, since its die gives no read. -/
def bookLadder (s : State) (x : Ctx) (psa n b limit : Nat) (sensed : Bool) : Option State :=
  if x.entry.cls ≠ 5 || !dieUsable s (psaDie psa) then some s
  else (List.range n).foldl (fun m i => m.bind fun s => ladderSlot s x psa i b limit sensed) (some s)

/-- The fallback margin r + 5 of the reads that lie on media; none in D5 (R46). -/
def readMargin (s : State) (x : Ctx) (rs : List GranRead) : Nat :=
  let r := (rs.map fun g => match g.loc with
    | .media psa => if g.slots.any (fun d => d == .waiting || d == .around) then slotOcc s psa else 0
    | _ => 0).foldl max 0
  if r = 0 ∨ x.entry.cls = 5 then 0 else r + 5

/-! ### Ahead of later deadlines (R55) -/

/-- Slot transfers booked for a queued read. -/
def xfersOf (s : State) (d : Nat) (o : ArrayOp) : Nat :=
  let sh : Share := if o.care then .care else .host
  sum ((s.plan.near.filter fun b => b.res == .chan (dieChan d) && b.share == sh && b.owner == o.owner && b.beat == o.start + o.busy).map Booking.amount)

/-- The beats and energy that an operation books from its start on, in its share. -/
def opTime (s : State) (d en : Nat) (o : ArrayOp) : State :=
  let sh : Share := if o.care then .care else .host
  bookEven (bookEven (bookEven s (.dieTime d) sh o.start o.busy o.busy 0) .dieTotal sh o.start o.busy o.busy 0) .energy .host o.start o.busy en 0

/-- Take a queued operation off its die, its near bookings with it; n are the slot transfers of a read. -/
def unqueue (s : State) (d n : Nat) (o : ArrayOp) : State :=
  let empty := s.updPlan fun p => { p with near := [] }
  let sh : Share := if o.care then .care else .host
  let made := (if o.kind = .read then bookRead empty (mkPsa d o.block o.page 0) o.busy n sh o.start o.dline o.owner else opTime empty d (opEnergy s d o) o).plan.near
  (modDie s d fun x => { x with ops := x.ops.erase o }).updPlan fun p => { p with near := made.foldl List.erase p.near }

/-- The latest beat that a moved read's decode may end with nothing else of its command moved: before its first host transfer, or
its POST. -/
def decodeLimit (x : Ctx) : Nat :=
  if x.entry.isDir 1 then x.commitBeat.getD x.eventBeat - 1 else if x.entry.isProg then x.eventBeat else x.postBeat - 1

/-- A direct READ, COMPARE or VERIFY whose last decode ends later: its host transfer out and its POST are booked anew, within its own
POST limit (R46, R55). -/
def movePost (s : State) (x : Ctx) (e : Nat) : Option State :=
  let out := x.entry.isDir 1
  let mine := fun (b : Booking) => b.owner == x.adm && decide (s.beat < b.beat) && (b.res == .comps || (out && (match b.res with
    | .hostOut _ | .engOut _ => true
    | _ => false)))
  let m := readMargin s x x.reads
  let s1 := s.updPlan fun p => { p with near := p.near.filter fun b => !mine b }
  match (if out then bookOut s1 x (e + 1) (x.dline - m - 1) (x.entry.length.toNat * gran s x) else some ([e], s1)) with
  | none => none
  | some (l, s2) =>
    let last := lastOf e l
    let post := max (last + 1) x.postBeat
    if x.dline < post + m || room s2 .comps post < 1 then none
    else some (modCtx (take s2 .comps post 1 x.adm) x.c fun y =>
      { y with postBeat := post, eventBeat := max last y.eventBeat, commitBeat := if y.commitBeat.isNone then none else some (if out then l.headD (e + 1) else post) })

/-- Put a moved read back later: early enough for what its command has booked after it, or with its transfer and POST moved. -/
def requeueRead (s : State) (d n : Nat) (o : ArrayOp) : Option State :=
  let psa := mkPsa d o.block o.page 0
  match s.ctxs.find? fun x => x.adm == o.owner with
  | none => none
  | some x => match planSlot s psa n .host o.start (decodeLimit x) o.dline o.owner with
    | some p => some p.2
    | none =>
      if x.entry.isProg || x.entry.cls == 5 then none
      else (planSlot s psa n .host o.start (x.dline - readMargin s x x.reads - (if x.entry.isDir 1 then 2 else 1)) o.dline o.owner).bind
        fun p => movePost p.2 x p.1

/-- Put a moved program of the write stream back later, within its drain limit, on beats that no other booking takes (R51, R55). -/
def requeueProgram (s : State) (d : Nat) (o : ArrayOp) : Option State :=
  let en := opEnergy s d o
  let ok := fun t => dieFree s d t o.busy && runFits s (.dieTime d) .host t o.busy && runFits s .dieTotal .host t o.busy &&
    evenFits s .energy .host t o.busy en
  (lowest ok o.start (o.dline + 2 - o.start - o.busy)).map fun t => opTime (queueOp s d { o with start := t }) d en { o with start := t }

/-- Put a moved operation back later, within its own limit: a command's read within its POST limit, a program of the write stream within
its drain limit, a care operation within its deadline (R55, R262). -/
def requeue (s : State) (d n : Nat) (o : ArrayOp) : Option State :=
  if !o.care then (if o.kind = .read then requeueRead s d n o else requeueProgram s d o)
  else if o.kind = .read then (planSlot s (mkPsa d o.block o.page 0) n .care o.start o.dline o.dline 0).map Prod.snd
  else placeOp s d o.start o.dline o

/-- Whether a host read with a deadline may move an operation of a die: not started, not its command's own, in no suspension, with a
later deadline (R55). -/
def movable (s : State) (x : Die) (dline owner : Nat) (o : ArrayOp) : Bool :=
  decide (s.beat < o.start) && decide (dline < o.dline) && (o.care || o.kind != .read || o.owner != owner) && o.susps.isEmpty &&
  !(x.ops.any fun p => p.susps.any fun k => k.holds o)

/-- Plan a page's read on beats that operations with later deadlines have booked and not started: they move later, each still
within its own limit (R55). -/
def planAhead (s : State) (psa n b limit dline owner : Nat) : Option (Nat × State) :=
  let d := psaDie psa
  match getDie s d with
  | none => none
  | some x =>
    let later := (x.ops.filter (movable s x dline owner)).map fun o => (o, xfersOf s d o)
    if later.isEmpty then none
    else match planSlot (later.foldl (fun s o => unqueue s d o.2 o.1) s) psa n .host b limit dline owner with
      | none => none
      | some (e, s1) => (later.foldl (fun m o => m.bind fun s => requeue s d o.2 o.1) (some s1)).map fun s2 => (e, s2)

/-- Plan one granule's media read from beat b, its decodes ending by `limit`: after what the die runs, ahead of reads with a
later deadline, inside a suspension, or around it, the first that meets the limit and, in D5, leaves room for the ladder (R55,
R57); around a dark die from the host share (R47). -/
def planGran (s : State) (x : Ctx) (r : GranRead) (b limit : Nat) : Option (Nat × GranRead × State) :=
  match r.loc with
  | .media psa =>
    let n := r.slots.length
    let lim := nearLimit s limit
    let laddered := fun (sensed : Bool) (r : GranRead) (m : Option (Nat × State)) =>
      m.bind fun p => (bookLadder p.2 x psa n b limit sensed).map fun s1 => (p.1, r, s1)
    let ladder := laddered true
    let around := fun (r : GranRead) (sh : Share) => laddered false r ((planAround s psa n sh b (lim - 1) x.dline x.adm).map fun p => (p.1 + 1, p.2))
    if r.slots.all (· == .around) then around r .host
    else if r.slots.all (· == .waiting) then
      match laddered false r (shareRead s psa n b lim x.adm) with
      | some p => some p
      | none => match ladder r (planSlot s psa n .host b lim x.dline x.adm) with
      | some p => some p
      | none => match ladder r (if nearEnd s ≤ limit then planFar s psa n b limit x.adm else none) with
      | some p => some p
      | none => match ladder r (planAhead s psa n b lim x.dline x.adm) with
      | some p => some p
      | none =>
        if dieFree s (psaDie psa) b (slotOcc s psa + 1) then none
        else match ladder r (planSuspend s psa n b lim x.dline x.adm) with
          | some p => some p
          | none => around { r with slots := r.slots.map fun _ => .around } .hold
    else some (b - 1, r, s)
  | _ => some (b - 1, r, s)

/-- Plan every granule from its own beat on: the last beat a decode ends, the reads as planned, the state. -/
def planGrans (s : State) (x : Ctx) (from_ : Nat → Nat) (limit : Nat) : List GranRead → Option (Nat × List GranRead × State)
  | [] => some (0, [], s)
  | r :: rs => match planGran s x r (from_ r.gran) limit with
    | none => none
    | some (e, r1, s1) => (planGrans s1 x from_ limit rs).map fun q => (max e q.1, r1 :: q.2.1, q.2.2)

/-! ### Room for writes (R51, R52, R272, R273, R380) -/

/-- Granules that a waiting MWR or MCAS has still to enter. -/
def entering (x : Ctx) : Nat :=
  if x.wait != .instr then 0
  else if zOp x.word == 0x25 then gb x x.word - x.snap
  else if zOp x.word == 0x2A then gb x x.word
  else 0

/-- Bytes a command still has to bring into the gather buffer. -/
def writeDue (s : State) (x : Ctx) : Nat :=
  if x.wait == .fixed || x.wait == .posting then 0
  else if x.entry.isProg then (if dWrites x then (x.wrLeft + entering x) * gran s x else 0)
  else if x.entry.typ == 1 && x.entry.op == 2 then (x.entry.length.toNat - (x.snap - 1)) * gran s x else 0

/-- Armed bytes that admitted commands have booked and not yet filled. -/
def armedBooked (s : State) : Nat := sum ((s.ctxs.filter fun x => !x.writeThrough).map (writeDue s))

/-- Free armed bytes. -/
def armedFree (s : State) : Nat := armedNow s - armedUsed s - armedBooked s

/-- The beat by which a placed gather slot's stripe is programmed: the last booked program of its band. -/
def drainEnd (s : State) (g : GatherSlot) : Option Nat :=
  match g.psa with
  | none => none
  | some psa => match bandOf s psa with
    | none => none
    | some b =>
      let ends := b.columns.filterMap fun c => (getDie s c.1).map fun d =>
        ((d.ops.filter fun o => o.kind == .program && o.block == c.2).map fun o => o.start + o.busy).foldl max 0
      let e := ends.foldl max 0
      if e = 0 then none else some e

/-- The earliest beat at which the drain leaves `need` armed bytes free, beyond what admitted commands are promised (R52). -/
def armedFrom (s : State) (need : Nat) : Option Nat :=
  let ends := sortBy id ((s.xlat.gather.filter fun g => g.armed).filterMap (drainEnd s))
  let short := need + armedUsed s + armedBooked s - armedNow s
  if armedNow s < need then none
  else ends[ceilDiv short 4096 - 1]?

/-- The width a new band of a profile takes (R256). -/
def bandWidthNow (s : State) (p : Nat) (sideB : Bool) : Nat := min (mpWidth s p) (bandOcts s p false sideB).length

/-- Whether the write stream can place slots of a profile: a band is open, or one can open (R256). -/
def profileOpens (s : State) (p : Nat) (sideB : Bool) : Bool := (openFor s p false sideB).isSome || canOpen s p false sideB

/-- The data slots that a block of a profile stands for. -/
def blockSlots (s : State) (p : Nat) : Nat := capOf s p / max (reachWidth s p) 1

/-- Data slots the erased pool and the open bands offer, less those already promised (R272). -/
def slotRoom (s : State) (p : Nat) : Nat :=
  let open_ := sum ((s.media.bands.filter fun b => b.st == .opened && !b.system).map fun b =>
    4 * (b.width - b.pcols) * (dataStripes s b - b.nextPage))
  let promised := (s.xlat.gather.filter fun g => g.psa.isNone).length + sum (s.ctxs.map fun x => writeDue s x / 4096)
  erasedPool s * blockSlots s p + open_ - promised

/-- Whether a write of so many slots leaves more than CARE_FREE_MIN blocks (R272). -/
def roomForSlots (s : State) (p slots : Nat) : Bool :=
  decide (freeMin s * blockSlots s p < slotRoom s p - slots)

/-- Whether reclaim can still free space (R273): CLOSED system bands whose slots are held count too (DESIGN CHOICE, log entry 28: the
rule says CLOSED bands without exception). -/
def reclaimable (s : State) : Bool := s.media.bands.any fun b => b.st == .closed && decide (b.valid < b.capacity)

/-- The octs that bands of a profile can use for a side, or every LIVE oct where none has an erased block now (R51, R303). -/
def profileOcts (s : State) (p : Nat) (sideB : Bool) : List Nat :=
  match bandOcts s p false sideB with
  | [] => liveOcts s
  | l => l

/-- The least favourable figure over some octs. -/
def mostOf (f : Nat → Nat) (ks : List Nat) : Nat := (ks.map f).foldl max 0

/-- Energy of the programs and transfers of n stripe slots in a mode on some octs (R43, R65): a word line of one plane group
carries 4 × pages × planes slots. -/
def programEnergy (s : State) (ks : List Nat) (m : CellMode) (n : Nat) : Nat :=
  ceilDiv (n * mostOf (fun k => enProg s k m) ks) (4 * pagesPerWl m) + n * mostOf (enXfer s) ks

/-- The last beat of the channel windows that a drain may book (R35, R51). -/
def drainLast (s : State) : Nat := (s.beat + 5001) / 8 * 8 - 1

/-- Book the journal bytes of a command with its drain, 32 a record; one that begins later than those windows takes the next ones (R51,
R210). -/
def bookRecords (s : State) (x : Ctx) (records from_ : Nat) : Option State :=
  (fill calFuel s .chanTotal from_ (max (drainLast s) (from_ + 15)) (ceilDiv (32 * records) 4096) (drainOwner x.adm)).map Prod.snd

/-- Book a write's share of the drain, with its journal bytes and its energy, from a beat on in the windows that end by A + 5,000
(R51, R65, R210, R549). -/
def bookDrain (s : State) (x : Ctx) (p slots records from_ : Nat) (sideB : Bool) : Option State :=
  let m := mpCell s p
  let w := mpWidth s p
  let q := mpPar s p
  let ks := profileOcts s p sideB
  let t := mostOf (fun k => occProg s k m) ks
  let planes := leastIn ks fun k => bits (profOf s k 2) 10 9
  let die := ceilDiv (slots * w * t) (max ((w - q) * 4 * pagesPerWl m * 2 ^ planes) 1)
  let chan := ceilDiv (slots * w * (4 + mostOf (tailXfers s) ks)) (max ((w - q) * 4) 1)
  let lastD := (s.beat + 5001) / 1024 * 1024 - 1
  let go := fun (m : Option State) (r : Res) (last n : Nat) => m.bind fun s => (fill calFuel s r from_ last n (drainOwner x.adm)).map Prod.snd
  go (go (go (bookRecords s x records from_) .dieTotal lastD die) .chanTotal (drainLast s) chan) .energy (s.beat + 5000) (programEnergy s ks m (ceilDiv (slots * w) (max (w - q) 1)))

/-- The width of the band that write-through granules go to: of the open one, else of one that opens now (R52, R256). -/
def throughWidth (s : State) (sideB : Bool) : Nat :=
  match openFor s 3 false sideB with
  | some b => b.width
  | none => bandWidthNow s 3 sideB

/-- Book the SLC programs of a write-through write from a beat on: the beat from which it may post; none where no band of
profile 3 takes slots (R52, R65). -/
def bookThrough (s : State) (x : Ctx) (b last slots : Nat) (sideB : Bool) : Option (Nat × State) :=
  let ks := profileOcts s 3 sideB
  let w := throughWidth s sideB
  let q := mpPar s 3
  let n := ceilDiv slots (max (4 * (w - q)) 1)
  let t := mostOf (fun k => occProg s k .slc) ks
  if !profileOpens s 3 sideB then none
  else match fill calFuel s .chanTotal b last (n * w * (4 + mostOf (tailXfers s) ks)) (throughOwner x.adm) with
  | none => none
  | some (l, s1) => match fill calFuel s1 .dieTotal (b + 1) last (n * w * t) (throughOwner x.adm) with
    | none => none
    | some (l1, s2) => match fill calFuel s2 .energy b last (programEnergy s ks .slc (4 * n * w)) (throughOwner x.adm) with
      | none => none
      | some (_, s3) => some (max (lastOf b l + t) (lastOf b l1) + 1, s3)

/-- Book the journal slot that carries a command's records, in both copies: the beat from which it may post
in journal-through; nothing otherwise (R413). -/
def bookJournal (s : State) (x : Ctx) (b last : Nat) : Option (Nat × State) :=
  if !s.power.jthrough then some (b, s)
  else
    let w := sysWidth s
    let t := mostLive s fun k => occProg s k .slc
    let d := 2 * w / max (w - 2) 1 + 1
    match fill calFuel s .chanTotal (b + 1) last d (throughOwner x.adm) with
    | none => none
    | some (l, s1) => match fill calFuel s1 .dieTotal (b + 2) last (2 * w * t) (throughOwner x.adm) with
      | none => none
      | some (_, s2) => match fill calFuel s2 .energy (b + 1) last (programEnergy s (liveOcts s) .slc (8 * w)) (throughOwner x.adm) with
        | none => none
        | some (_, s3) => some (lastOf (b + 1) l + t + 1, s3)

/-! ### Trials of direct ops (R45 to R53) -/

/-- A trial that fits: the state with its bookings, the planned POST and the latest it may be, the beat its last booked event
ends, the planned commit beat, the reads as planned, those of a program, write-through, and the Gaffer of a program. -/
structure Trial where
  st : State
  post : Nat
  last : Nat
  event : Nat
  commit : Option Nat
  reads : List GranRead
  fed : List GranRead
  through : Bool
  gaffer : Nat
  deriving DecidableEq, Repr

/-- A trial without reads, write-through or Gaffer. -/
def Trial.plain (s : State) (post last : Nat) (commit : Option Nat) : Trial :=
  { st := s, post := post, last := last, event := post - 1, commit := commit, reads := [], fed := [], through := false, gaffer := 0 }

/-- The last beat of a COMPARE's host data, whose transfer is booked on the beat after its lookup: that beat, or a later limit where
the data exceeds what a beat carries (R48). -/
def compareLast (s : State) (x : Ctx) (lk limit n : Nat) : Nat :=
  if (readBytes s x n).1 ≤ Res.perBeat s (.hostIn (fnLink x.fn)) then lk + 1 else limit

/-- Whether an earlier command that has still to post may change a granule (R102). -/
def mayChange (s : State) (x : Ctx) (gran : Nat) : Bool :=
  s.ctxs.any fun y => y.mod && overlaps x y && decide (y.entry.lba.toNat ≤ gran) && decide (gran < y.entry.lba.toNat + y.entry.length.toNat)

/-- The places that a command's decision found and its reads use, pinned from then on; a granule that an earlier command may still
change is found again once that command has posted (R102, R201). -/
def foundNow (s : State) (x : Ctx) (rs : List GranRead) : List GranRead := rs.filter fun r => !mayChange s x r.gran

/-- READ, VERIFY and COMPARE (R45 to R48). -/
def tryReads (s : State) (x : Ctx) (ns : Namespace) : Option Trial :=
  let d := x.dline
  let n := x.entry.length.toNat
  let o := ordFloor s x
  let ef := effFloor s x
  let b0 := if ef = s.beat then s.beat else ef + 1
  match bookLookups s ns x.entry.lba.toNat n b0 d x.adm with
  | none => none
  | some q =>
    let lk := q.last
    let rs := startReads s x x.entry.lba.toNat n
    let m := readMargin s x rs
    let op := x.entry.op.toNat
    if d < m + 2 + lk then none
    else match planGrans q.st x (fun g => q.from_ g + 1) (d - m - (if op = 1 then 2 else 1)) rs with
    | none => none
    | some (e, rs1, s2) =>
      let ready := max lk e
      let g := ns.granule
      let now := decide (ef = s.beat ∧ o = s.beat)
      let host := if op = 1 then bookOut s2 x (ready + 1) (d - m - 1) (n * g)
        else if op = 6 then bookIn s2 x (lk + 1) (compareLast s x lk (d - m - 1) (n * g)) (n * g) else some ([ready], s2)
      match host with
      | none => none
      | some (l, s3) =>
        let last := lastOf ready l
        let post := max (last + 1) (ovFloor s x + (if ovFloor s x = s.beat then 0 else 1))
        if d < post + m then none
        else some { st := s3, post := post, last := d - m, event := last, commit := some (if op = 1 then l.headD (ready + 1) else post),
                    reads := if now then rs1 else [], fed := if now then [] else foundNow s x rs1, through := false, gaffer := 0 }

/-- Book the lookups of n map updates from a beat on (R199). -/
def bookUpdates (s : State) (x : Ctx) (b last n : Nat) : Option State := (fill calFuel s .lookups b last n x.adm).map Prod.snd

/-- WRITE: the host bytes, the punty bytes of a paired module, the drain or the write-through program (R49 to
R52). `through` is decided before; `from_` is the beat from which its armed room is free. -/
def tryWrite (s : State) (x : Ctx) (ns : Namespace) (through : Bool) (from_ : Nat) : Option Trial :=
  let d := x.dline
  let n := x.entry.length.toNat
  let b := n * ns.granule
  let f := max (effFloor s x) from_
  let last := if x.entry.cls = 1 then s.beat + 1 else d - 1
  match bookIn s x (f + 1) last b with
  | none => none
  | some (l, s1) =>
    let hx := lastOf (f + 1) l
    let paired := mirroring s && !through
    let punty := if paired then (fill calFuel s1 .puntyOut (f + 2) (if x.entry.cls = 1 then s.beat + 2 else d) (64 * n + b) x.adm).map Prod.snd
      else some s1
    let media := match punty with
      | none => none
      | some s2 => if through then (bookThrough s2 x (hx + 1) d (n * ns.gslots) ns.sideB).bind fun q =>
          (bookRecords q.2 x (n + b2n x.entry.atom) (f + 1)).bind fun s3 => (bookUpdates s3 x (hx + 1) d n).map fun s4 => (q.1, s4)
        else (bookDrain s2 x (nsProfile s ns.nsid) (n * ns.gslots) (n + b2n x.entry.atom) (f + 1) ns.sideB).bind fun s3 =>
          (bookUpdates s3 x (hx + 1) d n).map fun s3 => (hx + (if paired then 6 else 1), s3)
    match media with
    | none => none
    | some (p, s3) => match bookJournal s3 x hx d with
      | none => none
      | some (j, s4) =>
        let post := max (max p (j + b2n s.power.jthrough)) (ovFloor s x + (if ovFloor s x = s.beat then 0 else 1))
        if d < post then none
        else some { st := s4, post := post, last := d, event := post - 1, commit := some (l.headD (f + 1)), reads := [], fed := [], through := through, gaffer := 0 }

/-- TRIM and ZERO: a lookup and a map update for each granule, staging (R53, R199). -/
def tryUnmap (s : State) (x : Ctx) : Option Trial :=
  let d := x.dline
  let f := effFloor s x
  match fill calFuel s .lookups (f + 1) (d - 1) (2 * x.entry.length.toNat) x.adm with
  | none => none
  | some (l, s1) =>
    let u := lastOf (f + 1) l
    match (bookRecords s1 x 1 (f + 1)).bind fun s2 => bookJournal s2 x u d with
    | none => none
    | some (j, s2) =>
      let ack := if mirroring s then 5 else 0
      let post := max (max (u + 1 + ack) j) (ovFloor s x + (if ovFloor s x = s.beat then 0 else 1))
      if d < post then none else some (Trial.plain s2 post d (some (l.headD (f + 1))))

/-- FLUSH books nothing; its commit point is its admission (R53, 03). -/
def tryFlush (s : State) (x : Ctx) : Option Trial :=
  let post := ordFloor s x + 1
  if x.dline < post then none else some (Trial.plain s post x.dline (some s.beat))

/-! ### Trials of programs (R54, R118, R136, R547, R549) -/

/-- The remaining booked budget of a program's context (R118). -/
def Ctx.remaining (x : Ctx) : Nat := if x.entry.isProg then x.budget else 0

/-- The demand test of R118 on a Gaffer with one more context of planned POST p, last event e and budget q; resident parisons
book no budget (log entry 15). -/
def demandOk (s : State) (g p e q : Nat) : Bool :=
  let on := s.ctxs.filter fun y => y.c / 256 == g
  let items := (p, e, q) :: on.map fun y => (y.postBeat, y.eventBeat, y.remaining)
  items.all fun i => decide (sum ((items.filter fun j => decide (j.1 ≤ i.1)).map fun j => j.2.2) ≤ 6400 * (i.1 - i.2.1 - 1))

/-- A free context of a Gaffer. -/
def freeCtx (s : State) (g : Nat) : Option Nat := lowest (fun c => (getCtx s c).isNone) (256 * g) 256

/-- The lowest Gaffer that takes a program: a free context, the demand test, its instructions (R54, R118). -/
def pickGaffer (s : State) (x : Ctx) (f p e : Nat) : Option (Nat × State) :=
  let hi := if x.entry.cls.toNat ≤ 1 then f + 1 else p
  match lowest (fun g => (freeCtx s g).isSome && demandOk s g p e x.budget && (evenly s (.gaffer g) (f + 1) hi x.budget x.adm).isSome) 0 256 with
  | none => none
  | some g => (evenly s (.gaffer g) (f + 1) hi x.budget x.adm).map fun s1 => (g, s1)

/-- Book the host and stream bytes of a program evenly from beat f + 1 to the beat before its POST, the host
bytes in each direction (R547). -/
def bookMoves (s : State) (x : Ctx) (f p : Nat) : Option State :=
  let n := x.hostLeft
  let l := fnLink x.fn
  let r := readBytes s x n
  let host := if x.ringOf.isNone ∨ n = 0 then some s
    else match evenly s (.hostIn l) (f + 1) (p - 1) r.1 x.adm with
      | none => none
      | some s1 => (evenly s1 (.hostOut l) (f + 1) (p - 1) (writeBytes s x n) x.adm).bind fun s2 =>
          evenly s2 (.hostReq l) (f + 1) (p - 1) (r.2 - writeBytes s x n) x.adm
  match host with
  | none => none
  | some s1 => evenly s1 .stream (f + 1) (p - 1) (1024 * x.strLeft) x.adm

/-- A program whose last media event ends at e: the earliest planned POST, up to `limit`, at which its host
bytes, stream bytes and instructions find room (log entry 15). -/
def placeProgram (s : State) (x : Ctx) (f e limit : Nat) : Option (Nat × Nat × State) :=
  let at_ := fun p => match bookMoves s x f p with
    | none => none
    | some s1 => (pickGaffer s1 x f p e).map fun r => (p, r.1, r.2)
  let p0 := max (e + 1 + max 1 (ceilDiv x.budget 6400)) (f + 2)
  if limit < p0 then none
  else (lowest (fun p => (at_ p).isSome) p0 (limit + 1 - p0)).bind at_

/-- The punty-link transfer of the granules that a paired module's program declares as written (R49, R54). -/
def bookMirror (s : State) (x : Ctx) (b last : Nat) (ns : Namespace) : Option State :=
  if mirroring s then (fill calFuel s .puntyOut b last (x.wrLeft * (64 + ns.granule)) x.adm).map Prod.snd else some s

/-- A TYPE 0x02 or 0x03 entry (R54). One that waits for earlier commands finds its locations when it starts, as a direct op does
(R102, R201). -/
def tryProgram (s : State) (x : Ctx) (ns : Option Namespace) (through : Bool) (from_ : Nat) : Option Trial :=
  let d := x.dline
  let f := max (max (ordFloor s x) (postFloor s (overlaps x))) from_
  let n := x.entry.length.toNat
  let read : Option (Nat × Nat × List GranRead × State) := match ns with
    | some k =>
      if !dReads x then some (f + 1, 0, [], s)
      else match bookLookups s k x.entry.lba.toNat n f d x.adm with
        | none => none
        | some q =>
          let rs := startReads s x x.entry.lba.toNat n
          let m := readMargin s x rs
          if d < m + 2 + q.last then none
          else (planGrans q.st x (fun g => q.from_ g + 1) (d - m - 2) rs).map fun r => (max (max (f + 1) q.last) r.1, m, r.2.1, r.2.2)
    | none => some (f + 1, 0, [], s)
  match read with
  | none => none
  | some (e, m, fed, s1) =>
    let media : Option (Nat × State) := match ns with
      | some k =>
        if !dWrites x then some (e, s1)
        else
          let slots := x.wrLeft * k.gslots
          if through then (bookThrough s1 x (f + 1) (d - m - 1) slots k.sideB).bind fun q =>
            (bookRecords q.2 x (x.wrLeft + b2n x.entry.atom) (f + 1)).bind fun s2 => (bookUpdates s2 x (f + 1) d x.wrLeft).map fun s3 => (max e q.1, s3)
          else ((bookDrain s1 x (nsProfile s k.nsid) slots (x.wrLeft + b2n x.entry.atom) (f + 1) k.sideB).bind fun s2 => bookMirror s2 x (f + 1) d k).bind
            fun s2 => (bookUpdates s2 x (f + 1) d x.wrLeft).map fun s3 => (e, s3)
      | none => some (e, s1)
    match media with
    | none => none
    | some (e1, s2) => match (if dWrites x then bookJournal s2 x e1 d else some (e1, s2)) with
      | none => none
      | some (j, s3) =>
        let e2 := if dWrites x && s.power.jthrough then max e1 j else e1
        (placeProgram s3 x f e2 (d - m)).map fun r =>
          { st := r.2.2, post := r.1, last := d - m, event := e2, commit := none, reads := [], fed := foundNow s x fed, through := through, gaffer := r.2.1 }

end Sys2Proof.Machine
end

