-- ==== Sys2Proof/Machine/Check.lean ====
section
/-! DEFINITION. An entry as fetched: its fields and scatter chain, its declared footprint, the checks of R89
in their order, what an admin op requires at admission (R86 to R91, R108, R130 to R142). -/

namespace Sys2Proof.Machine

/-! ### Parsing (R86, R87, R130) -/

/-- The fields of the 64 bytes of a submission entry (R86). -/
def entryOf (bs : List Byte) : Entry :=
  let f := fun lo n => field bs lo n
  { typ := BitVec.ofNat 8 (f 0 1), op := BitVec.ofNat 8 (f 1 1), flags := BitVec.ofNat 8 (f 2 1), cls := BitVec.ofNat 8 (f 3 1),
    cid := BitVec.ofNat 16 (f 4 2), nsid := BitVec.ofNat 16 (f 6 2), lba := BitVec.ofNat 64 (f 8 8),
    length := BitVec.ofNat 32 (f 16 4), prog := BitVec.ofNat 32 (f 20 4), daddr := BitVec.ofNat 64 (f 24 8),
    dcount := BitVec.ofNat 32 (f 32 4), tag := BitVec.ofNat 32 (f 36 4), a0 := BitVec.ofNat 64 (f 40 8),
    a1 := BitVec.ofNat 64 (f 48 8), a2 := BitVec.ofNat 64 (f 56 8) }

/-- LIST of DCOUNT. -/
def Entry.list (e : Entry) : Bool := e.dcount.getLsbD 31

/-- Elements of the first segment. -/
def Entry.segCount (e : Entry) : Nat := e.dcount.toNat % 2 ^ 13

/-- Whether the first segment of a list can be fetched: its address aligned, its count in range (check 11). -/
def Entry.segOk (e : Entry) : Bool := e.daddr.toNat % 16 == 0 && decide (1 ≤ e.segCount) && decide (e.segCount ≤ 4096)

/-- One scatter element (R87). -/
def sgOf (bs : List Byte) : SgElem :=
  { addr := BitVec.ofNat 64 (field bs 0 8), len := BitVec.ofNat 32 (field bs 8 4), eflags := BitVec.ofNat 32 (field bs 12 4) }

/-- The elements of a segment's bytes. -/
def segOf (n : Nat) (bs : List Byte) : List SgElem := (List.range n).map fun i => sgOf ((bs.drop (16 * i)).take 16)

/-- Whether an element is legal, the last of its segment or not (check 11). -/
def sgOk (last : Bool) (e : SgElem) : Bool :=
  if e.eflags = 0 then
    e.addr.toNat % 4 == 0 && e.len.toNat % 4 == 0 && decide (4 ≤ e.len.toNat) && decide (e.len.toNat ≤ 16777216) &&
    decide (e.addr.toNat + e.len.toNat ≤ 2 ^ 64)
  else e.eflags == 1 && last && e.addr.toNat % 16 == 0 && decide (1 ≤ e.len.toNat) && decide (e.len.toNat ≤ 4096)

/-- Whether each element of a segment is legal, in order. -/
def segLegal (l : List SgElem) : List Bool := l.zipIdx.map fun e => sgOk (e.2 + 1 == l.length) e.1

/-- Follow the chain through the fetched segments, `n` elements in the next, `seen` before it: the segments, or
none while one that the chain needs is missing. The walk stops at an illegal element and beyond 4,096 (R89). -/
def chainOfSegs : List (List Byte) → Nat → Nat → Option (List (List SgElem))
  | [], _, _ => none
  | bs :: rest, n, seen =>
    if bs.length ≠ 16 * n then none
    else
      let l := segOf n bs
      match l.getLast? with
      | some e =>
        if e.link && (segLegal l).all id && decide (seen + n ≤ 4096) then
          (chainOfSegs rest e.len.toNat (seen + n)).map (l :: ·)
        else some [l]
      | none => some [l]

/-- What a fetch brings back: the entry, its chain, the program of a TYPE 0x03 entry whose address and length
are legal; none while the bytes given do not cover it (R88, R89). -/
def fetchedData (bs : List Byte) (segs : List (List Byte)) (prog : List Byte) : Option EntryData :=
  if bs.length ≠ 64 then none
  else
    let e := entryOf bs
    let chain := if e.list && e.segOk then chainOfSegs segs e.segCount 0 else some []
    let n := e.prog.toNat
    let code : Option (Option Code) :=
      if e.typ ≠ 3 ∨ e.a2.toNat % 64 ≠ 0 ∨ n = 0 ∨ 4096 < n then some none
      else if prog.length = 64 + 4 * n then some (some (codeOfBytes prog)) else none
    match chain, code with
    | some l, some k => some { entry := e, segs := l, code := k }
    | _, _ => none

/-! ### Where an entry comes from (R79, R364, R398) -/

/-- The queue an entry stands in: its privilege, NOSNOOP_OK, and for the sideband and Cane queues the
descriptor space and REPCAP. -/
structure Origin where
  src : Src
  fn : Nat
  admin : Bool
  nosnoopOk : Bool
  body : List Byte
  repCap : Nat
  deriving DecidableEq, Repr

/-- The function number of a queue that belongs to no function. -/
def noFn : Nat := 1024

/-- A ring as origin. -/
def Ring.origin (r : Ring) : Origin :=
  { src := .ring r.g, fn := r.fn, admin := r.admin, nosnoopOk := r.nosnoopOk, body := [], repCap := 0 }

/-- The sideband queue as origin. -/
def sidebandOrigin (s : State) : Origin :=
  { src := .sideband, fn := noFn, admin := true, nosnoopOk := false, body := s.side.adminData, repCap := s.side.adminData.length }

/-- The Cane queue as origin of a request: tenant privilege. -/
def CaneReq.origin (q : CaneReq) : Origin :=
  { src := .cane q.sid q.msgId q.hops, fn := noFn, admin := false, nosnoopOk := false, body := q.body, repCap := q.repCap }

/-- Whether an entry comes from a ring. -/
def Origin.isRing (o : Origin) : Bool :=
  match o.src with
  | .ring _ => true
  | _ => false

/-- Descriptor bytes of an entry. -/
def Origin.desc (o : Origin) (d : EntryData) : Nat := if o.isRing then descBytes d.entry d.segs else o.body.length

/-! ### The declared footprint (R131, R132, R136) -/

/-- The code an entry names: its fetched program, or its library slot's; none for an empty slot. -/
def codeNamed (s : State) (d : EntryData) : Option Code :=
  if d.entry.typ = 2 then (getLib s d.entry.prog.toNat).map LibSlot.code
  else if d.entry.typ = 3 then d.code else none

/-- Media read granules a program declares. -/
def rdDecl (c : Code) (e : Entry) : Nat := if c.rdmax ≠ 0 then c.rdmax else if bit c.dmode 0 then e.length.toNat else 0

/-- Media write granules a program declares. -/
def wrDecl (c : Code) (e : Entry) : Nat := if c.wrmax ≠ 0 then c.wrmax else if bit c.dmode 1 then e.length.toNat else 0

/-- Granule bytes of the namespace an entry names; 4,096 where it names none. -/
def entryGran (s : State) (e : Entry) : Nat := ((getNs s e.nsid.toNat).map Namespace.granule).getD 4096

/-- The larger of a program's declared media bytes in either direction. -/
def mediaBytes (s : State) (c : Code) (e : Entry) : Nat := max (rdDecl c e) (wrDecl c e) * entryGran s e

/-- Declared MiB of a program. -/
def declMib (s : State) (c : Code) (e : Entry) : Nat := ceilDiv (mediaBytes s c e) 1048576

/-- The class instruction budget; none for D7. -/
def classBudget (cls mib : Nat) : Option Nat :=
  if cls = 7 then none else if cls = 4 then some (budgetBase 4 + 16384 * mib) else some (budgetBase cls)

/-- The booked budget (R136). -/
def bookedBudget (s : State) (c : Code) (e : Entry) : Nat :=
  if c.budget ≠ 0 then c.budget else (classBudget e.cls.toNat (declMib s c e)).getD 1048576

/-- The bound of a class (R38). -/
def classBound (cls mib : Nat) : Nat :=
  match cls with
  | 0 => 30 | 1 => 8 | 2 => 250 | 3 => 5000 | 4 => 250 + 25 * mib | 5 => 500000 | _ => 25000

/-- The size limit of a class, in bytes (R38). -/
def classLimit : Nat → Option Nat
  | 0 => some 65536 | 1 => some 65536 | 2 => some 8388608 | 3 => some 67108864 | 4 => some (65536 * 1048576)
  | 5 => some 67108864 | _ => none

/-- Whether a class limit is passed. -/
def overClass (cls n : Nat) : Bool :=
  match classLimit cls with
  | some k => decide (k < n)
  | none => false

/-! ### Which rows an entry is of -/

/-- An admin direct op. -/
def Entry.isAdm (e : Entry) (op : Nat) : Bool := e.typ == 4 && e.op.toNat == op
/-- WRITE, TRIM or ZERO. -/
def Entry.isMod (e : Entry) : Bool := e.isDir 2 || e.isDir 4 || e.isDir 5
/-- READ, COMPARE or VERIFY. -/
def Entry.isRd (e : Entry) : Bool := e.isDir 1 || e.isDir 6 || e.isDir 7
/-- READ, WRITE or COMPARE: a direct op that moves host data. -/
def Entry.moves (e : Entry) : Bool := e.isDir 1 || e.isDir 2 || e.isDir 6

/-- DMODE bits of the named code. -/
def declares (k : Option Code) (b : Nat) : Bool :=
  match k with
  | some c => bit c.dmode b
  | none => false

/-- Whether an entry uses an existing namespace (check 8). -/
def usesNs (e : Entry) (k : Option Code) : Bool :=
  e.typ == 1 || e.isAdm 0x89 || e.isAdm 0x8F || e.isAdm 0x90 || (e.isProg && (declares k 0 || declares k 1))

/-- Whether an entry writes granules with data (check 15, R293). -/
def writesData (e : Entry) (k : Option Code) : Bool := e.isDir 2 || (e.isProg && declares k 1)

/-- Whether an entry modifies granules. -/
def modifies (e : Entry) (k : Option Code) : Bool := e.isMod || (e.isProg && declares k 1)

/-! ### Refusals -/

/-- A refusal with its own status: detail, result word, and whether it counts in ZCI_VERIFY_FAILS. -/
structure Refuse where
  status : BitVec 16
  detail : BitVec 8
  result : BitVec 64
  verifyFail : Bool
  deriving DecidableEq, Repr

/-- A refusal with a status and detail. -/
def ref (st : BitVec 16) (d : BitVec 8) : Refuse := { status := st, detail := d, result := 0, verifyFail := false }

/-- BAD_ENTRY. -/
def bad (d : BitVec 8) : Refuse := ref St.badEntry d

/-- The first refusal whose condition holds. -/
def firstRef : List (Bool × Refuse) → Option Refuse
  | [] => none
  | (b, r) :: l => if b then some r else firstRef l

/-- A refusal of check 14 with the result word of R142. -/
def zciRef (code slot index : Nat) (v : Bool) : Refuse :=
  { status := St.zciFault, detail := BitVec.ofNat 8 code, result := verifyResult slot index, verifyFail := v }

/-! ### Checks 3 to 7 -/

/-- The bits of LBA that an admin op's selector names (R84, R105, R111). -/
def selBits (op : Nat) : Nat :=
  if op = 0x80 ∨ op = 0x81 ∨ op = 0x82 then 0x3FF + 0xFF * 2 ^ 16
  else if op = 0x83 then 0x3FF + 0xFF * 2 ^ 16 + 0xFFFF * 2 ^ 32
  else if op = 0x84 then 0xFF * 2 ^ 16 else 0

/-- Check 3. -/
def opDefined (e : Entry) : Bool :=
  if e.typ = 1 then decide (1 ≤ e.op.toNat ∧ e.op.toNat ≤ 7)
  else if e.typ = 4 then decide (0x80 ≤ e.op.toNat ∧ e.op.toNat ≤ 0x95) else e.op == 0

/-- Check 4: a field or bit that must be zero is not, or A2 is not aligned. -/
def reservedSet (e : Entry) : Bool :=
  decide (16 ≤ e.flags.toNat) || (!e.isProg && e.prog != 0) || (e.dcount == 0 && e.daddr != 0) ||
  (e.list && bits e.dcount.toNat 30 13 != 0) || (e.tag != 0 && !(e.isRd || e.isDir 2)) ||
  (e.typ == 4 && e.nsid != 0 && !(e.isAdm 0x88 || e.isAdm 0x89 || e.isAdm 0x8F || e.isAdm 0x90)) ||
  (e.typ == 4 && e.lba &&& ~~~ (BitVec.ofNat 64 (selBits e.op.toNat)) != 0) ||
  ((e.isAdm 0x86 || e.isAdm 0x87) && decide (2 ^ 32 ≤ e.a0.toNat)) ||
  (e.isAdm 0x95 && decide (2 ^ 8 ≤ e.a0.toNat)) || (e.isAdm 0x8D && decide (8 ≤ e.a0.toNat)) ||
  (e.typ == 3 && e.a2.toNat % 64 != 0)

/-- Check 5: the class accepts the operation and the privilege; D4 takes a declared footprint of at least 1 MiB (R38). -/
def classOk (o : Origin) (e : Entry) (k : Option Code) : Bool :=
  match e.cls.toNat with
  | 0 => e.isRd || (e.isProg && !declares k 1)
  | 1 => e.isMod || e.isProg
  | 2 => e.typ == 1 || e.isProg
  | 3 => e.typ == 1 || e.isProg
  | 4 => e.isProg && ((k.map fun c => decide (0 < rdDecl c e + wrDecl c e)).getD true)
  | 5 => e.isRd || e.isProg
  | 6 => o.admin && e.typ != 1
  | 7 => o.admin
  | _ => false

/-- Check 6 fails. An ATOM entry whose program has no declaration to test passes it (DESIGN CHOICE, log entry 28: R89 lists only
checks 8, 9, 10 and 15 as passing then). -/
def flagMisuse (o : Origin) (e : Entry) (k : Option Code) : Bool :=
  (e.atom && !(e.isMod || (e.isProg && (k.isNone || declares k 1)))) || (e.nosnoop && !o.nosnoopOk)

/-- Check 7 fails. -/
def lengthBad (e : Entry) : Bool :=
  e.length == 0 || (e.typ == 4 && e.length != 1) || (e.isDir 3 && (e.lba != 0 || e.length != 1 || e.dcount != 0))

/-! ### Checks 9 to 13 -/

/-- Check 9 fails. -/
def tooLong (s : State) (o : Origin) (d : EntryData) (k : Option Code) : Bool :=
  let e := d.entry
  if e.typ = 1 then
    let n := e.length.toNat * entryGran s e
    decide (67108864 < n) || overClass e.cls.toNat n || (e.atom && decide (1048576 < n))
  else if e.isProg then
    (if e.typ = 2 then decide (4095 < e.prog.toNat) else decide (e.prog.toNat = 0 ∨ 4096 < e.prog.toNat)) ||
    (match k with
      | some c => decide (67108864 < o.desc d) || overClass e.cls.toNat (mediaBytes s c e) ||
          (e.atom && decide (1048576 < wrDecl c e * entryGran s e))
      | none => false)
  else false

/-- Check 10 fails. -/
def outOfNs (s : State) (e : Entry) (k : Option Code) : Bool :=
  e.typ != 4 && usesNs e k &&
  match getNs s e.nsid.toNat with
  | some n => decide (n.cap < e.lba.toNat + e.length.toNat)
  | none => false

/-- Check 11 fails: the first segment, or one of the first 4,096 elements. -/
def chainIllegal (d : EntryData) : Bool :=
  d.entry.list && (!d.entry.segOk || ((d.segs.flatMap segLegal).take 4096).any (! ·))

/-- Check 12 fails. -/
def chainLong (d : EntryData) : Bool := decide (4096 < sum (d.segs.map List.length))

/-- Bytes a command needs in its descriptor (check 13). -/
def needBytes (s : State) (e : Entry) : Nat :=
  if e.moves then e.length.toNat * entryGran s e
  else if e.isAdm 0x8E then 4020 else if e.isAdm 0x8F then 1184 else 0

/-! ### Check 14 (R91, R134, R139 to R142, R149) -/

/-- Code pages free, 0x1000 naming a host-memory program in a context. -/
def codePagesOf (e : Entry) : Nat := if e.typ = 3 then ceilDiv (64 + 4 * e.prog.toNat) 4096 else 0

/-- The slots a program reaches through CALL, or the first CALL that names an empty slot. -/
def reached (s : State) (e : Entry) (c : Code) : (Nat × Nat) ⊕ List Nat :=
  if e.typ = 2 then reachFrom s 4097 [(e.prog.toNat, c)] [e.prog.toNat] else reachFrom s 4097 [(0xFFFF, c)] []

/-- Check 14: an ADMIN slot from a tenant ring before a BUDGET past the class, before an empty slot that CALL reaches (DESIGN
CHOICE, log entry 28: R140 gives no order among them). -/
def progRef (s : State) (o : Origin) (d : EntryData) : Option Refuse :=
  let e := d.entry
  if e.typ = 3 ∧ nvVal s (0x03001011 + o.fn) = 0 then some (zciRef 0x07 0xFFFF 0xFFFF false)
  else match codeNamed s d with
  | none => some (zciRef 0x0B (if e.typ = 2 then e.prog.toNat else 0xFFFF) 0xFFFF false)
  | some c =>
    let lim := classBudget e.cls.toNat (declMib s c e)
    let past := match lim with
      | some n => decide (n < c.budget)
      | none => false
    let first :=
      if e.typ = 2 then
        firstRef [(bit c.dmode 2 && !o.admin, zciRef 0x07 e.prog.toNat 0xFFFF false), (past, zciRef 0x06 e.prog.toNat 0xFFFF false)]
      else (verify s { own := none, admin := o.admin, raw := rawAllowed s, limit := lim, noAdminDecl := !o.admin } c).map
        fun v => zciRef v.1 0xFFFF v.2 true
    match first with
    | some r => some r
    | none => match reached s e c with
      | .inl (slot, i) => some (zciRef 0x0B slot i false)
      | .inr _ => none

/-! ### Check 17 (R85, R108, R133, R134, R192, R372, R385, R388, R399, R400, R432, R433, R490, R495, R507, R519) -/

/-- Whether a Night or Midnight request is pending (R432). -/
def sleepPending (s : State) : Bool :=
  match s.day.pendReq with
  | some (t, _) => t == .night || t == .midnight
  | none => false

/-- Local pairs a function holds, with the RING_CREATEs admitted and not yet run. -/
def pairsHeld (s : State) (fn : Nat) : Nat :=
  (s.rings.filter fun r => r.fn == fn).length + (s.ctxs.filter fun x => x.entry.isAdm 0x80 && x.wait == .resident && selFn x == fn).length

/-- Free pairs of the pool, less those admitted RING_CREATEs will take. -/
def poolFree (s : State) : Nat :=
  1018 - (s.rings.filter fun r => decide (6 ≤ r.g)).length - (s.ctxs.filter fun x => x.entry.isAdm 0x80 && x.wait == .resident).length

/-- The function a selector names on the link of the issuing function. -/
def targetFn (fn : Nat) (e : Entry) : Nat := 64 * fnLink fn + selFunc e

/-- The target is the PF of the link, or an enabled VF of it: not one whose VF Enable was cleared and that its reset has still to
take away. -/
def targetExists (s : State) (fn : Nat) (e : Entry) : Bool :=
  decide (selFunc e < 64) && (getFn s (targetFn fn e)).isSome && (selFunc e == 0 || (getLink s (fnLink fn)).vfEnable)

/-- A field of a RING_CREATE is outside its range (R84, R85). -/
def ringFieldsBad (s : State) (fn : Nat) (e : Entry) : Bool :=
  let v := e.a2.toNat
  let loc := selLocal e
  !targetExists s fn e || (loc == 0 && selFunc e == 0) || e.a0.toNat % 4096 != 0 || e.a1.toNat % 4096 != 0 ||
  decide (bits v 4 0 < 4) || decide (16 < bits v 4 0) || decide (bits v 9 5 < 4) || decide (16 < bits v 9 5) ||
  bits v 20 13 == 0 || bits v 28 21 == 0 ||
  decide (((getFn s (targetFn fn e)).map HostFn.vectors).getD 0 ≤ bits v 39 29)

/-- The CLASS_FULL rows of R85. -/
def ringFull (s : State) (fn : Nat) (e : Entry) : Bool :=
  decide (fnLimit s (targetFn fn e) ≤ pairsHeld s (targetFn fn e)) || poolFree s == 0

/-- The local ring is not NONE, or a RING_CREATE of it is under way. -/
def localTaken (s : State) (fn : Nat) (e : Entry) : Bool :=
  (getLocal s (targetFn fn e) (selLocal e)).isSome ||
  s.ctxs.any fun x => x.entry.isAdm 0x80 && x.wait == .resident && selFn x == targetFn fn e && selLocal x.entry == selLocal e

/-- Whether an admitted command touches a namespace (R192, R517). -/
def nsTouched (s : State) (n : Nat) : Bool :=
  s.ctxs.any fun x => x.entry.nsid.toNat == n &&
    (x.entry.typ == 1 || x.entry.isAdm 0x88 || x.entry.isAdm 0x89 || x.entry.isAdm 0x8F || x.entry.isAdm 0x90 || (x.entry.isProg && x.touches))

/-- Refusals kept for a ring whose function cannot be written (R352). -/
def keptRefusals (s : State) (r : Ring) : Nat :=
  ((((getFn s r.fn).map HostFn.kept).getD []).filter fun k => k.ring == r.g && k.ctx.isNone).length

/-- RING_DELETE and RING_RESET. A RING_DELETE that names the register-set admin ring carrying it meets details 1 and 8: it answers 8
(DESIGN CHOICE, log entry 28: R108 gives no order). -/
def ringOpRef (s : State) (o : Origin) (e : Entry) (delete : Bool) : Option Refuse :=
  match getLocal s (targetFn o.fn e) (selLocal e) with
  | none => some (ref St.state 1)
  | some r => firstRef
      [(o.src == .ring r.g, ref St.state 8), (r.st != .active, ref St.state 1), (delete && decide (r.g < 6), ref St.state 1),
       (delete && ((s.ctxs.any fun x => x.ringOf == some r.g) || r.unconsumed != 0 || keptRefusals s r != 0), ref St.state 7)]

/-- LIB_LOAD (R133). A slot that an admitted LIB_LOAD is loading counts as occupied (DESIGN CHOICE, log entry 28). -/
def libLoadRef (s : State) (o : Origin) (d : EntryData) : Option Refuse :=
  let slot := d.entry.a0.toNat
  let n := o.desc d
  firstRef [(decide (slot < 256) || decide (4095 < slot), ref St.range 2),
            (decide (n < 68) || n % 4 != 0 || decide (64 + 4 * 4096 < n), ref St.range 4),
            ((getLib s slot).isSome || (s.ctxs.any fun x => x.entry.isAdm 0x8A && x.entry.a0 == d.entry.a0), ref St.state 5)]

/-- LIB_UNLOAD (R134). -/
def libUnloadRef (s : State) (e : Entry) : Option Refuse :=
  let slot := e.a0.toNat
  match getLib s slot with
  | none => some (if slot < 256 ∨ 4095 < slot then ref St.range 2 else ref St.state 5)
  | some l => firstRef
      [(decide (slot < 256), ref St.range 2), (l.pins != 0 || libCalled s slot, ref St.state 5)]

/-- A manifest field of a bank (R488). -/
def mfField (s : State) (b off n : Nat) : Nat := leNat (Mem.readN (imageOf s b).bytes off n)

/-- MAJOR of a version. -/
def verMajor (v : Nat) : Nat := v / 2 ^ 24
/-- MINOR of a version. -/
def verMinor (v : Nat) : Nat := v / 2 ^ 16 % 256

/-- The CTAB entry of a component in a bank: its offset in the manifest. -/
def ctabOf (s : State) (b cid : Nat) : Option Nat := ((List.range 6).map fun i => 256 + 64 * i).find? fun o => mfField s b o 1 == cid

/-- CDIGEST of a component. -/
def cdigest (s : State) (b cid : Nat) : List Byte :=
  match ctabOf s b cid with
  | some o => Mem.readN (imageOf s b).bytes (o + 16) 32
  | none => []

/-- The staging bank: the one the module does not run (R489). -/
def stageBank (s : State) : Nat := 1 - s.nor.active

/-- The matrix of R493 and MINFROM. -/
def matrixOk (s : State) (live : Bool) : Bool :=
  let r := (imageOf s s.nor.active).version.toNat
  let n := (imageOf s (stageBank s)).version.toNat
  let same := verMajor r == verMajor n && decide (r ≤ n) && decide (verMinor n ≤ verMinor r + 1)
  let up := decide (n < r) || decide (mfField s (stageBank s) 12 4 ≤ r)
  up && (!live || (same && (imageOf s (stageBank s)).liveOk &&
    [1, 2].all fun c => cdigest s s.nor.active c == cdigest s (stageBank s) c))

/-- The skew rule against the twin's running version (R494). -/
def skewOk (s : State) (v : Nat) : Bool :=
  !(s.twin.st == .paired || s.twin.st == .syncing || s.twin.st == .covering) || s.twin.peerVersion == 0 ||
  (verMajor v == verMajor s.twin.peerVersion.toNat &&
    decide (verMinor v ≤ verMinor s.twin.peerVersion.toNat + 1 ∧ verMinor s.twin.peerVersion.toNat ≤ verMinor v + 1))

/-- FW_ACTIVATE (R495). -/
def activateRef (s : State) (e : Entry) : Option Refuse :=
  let staged := s.nor.stage == .verified
  let v := (imageOf s (stageBank s)).version.toNat
  let no := ref St.state 3
  let busy := s.nor.activating.isSome
  match e.a0.toNat with
  | 0 => firstRef [(!staged || !s.nor.preloaded || busy || !matrixOk s true, no), (!skewOk s v, ref St.state 6)]
  | 1 => firstRef [(!staged || busy || !matrixOk s false, no), (!skewOk s v, ref St.state 6)]
  | 2 => firstRef [(s.nor.prev.isNone || !s.nor.trial || busy, no)]
  | 3 => firstRef [(s.nor.prev.isNone || !s.nor.trial || busy, no),
                   (!skewOk s ((s.nor.prev.map fun b => (imageOf s b).version.toNat).getD 0), ref St.state 6)]
  | 4 => firstRef [(!(staged || s.nor.stage == .receiving || s.nor.stage == .failed) || busy, no)]
  | _ => some (ref St.range 2)

/-- LIFE_CYCLE (R507). One that is admitted has already left the state that this one's target follows. -/
def lifeRef (s : State) (e : Entry) : Option Refuse :=
  firstRef [(e.a0.toNat != s.sec.life.code + 1 || decide (4 < e.a0.toNat) || e.a1.toNat != 0x4C430000 + e.a0.toNat || !s.xlat.nss.isEmpty ||
    !(s.twin.st == .solo || s.twin.st == .detached) || s.nor.activating.isSome || (s.ctxs.any fun x => x.entry.isAdm 0x91), ref St.state 4)]

/-- An NS_CREATE or NS_DELETE where a sided module may not change namespaces (R372). -/
def sidedStop (s : State) : Bool := sided s && !(s.twin.st == .paired || s.twin.st == .covering)

/-- What each admin op requires. -/
def admRef (s : State) (o : Origin) (d : EntryData) : Option Refuse :=
  let e := d.entry
  let lifeless := s.sec.life == .scrapped
  match e.op.toNat with
  | 0x80 =>
    firstRef [(ringFieldsBad s o.fn e, ref St.range 2), (bit e.a2.toNat 11 && selFunc e != 0, ref St.denied 0),
              (!ringFull s o.fn e && localTaken s o.fn e, ref St.state 1)]
  | 0x81 => ringOpRef s o e true
  | 0x82 => ringOpRef s o e false
  | 0x84 => firstRef [(selFunc e == 0 || !targetExists s o.fn e, ref St.range 2)]
  | 0x87 =>
    let id := e.a0.toNat
    firstRef [(decide (0x04000585 ≤ id ∧ id < 0x04000985) && ((getRing s (id - 0x04000585)).map Ring.st) != some .active, ref St.state 1)]
  | 0x88 => firstRef [(sidedStop s, ref St.state 6), (lifeless || s.sec.life == .blank, ref St.state 4)]
  | 0x89 => firstRef [(sidedStop s, ref St.state 6), (nsTouched s e.nsid.toNat, ref St.state 2)]
  | 0x8A => libLoadRef s o d
  | 0x8B => libUnloadRef s e
  | 0x8C => firstRef [(s.nor.activating.isSome || !(s.nor.stage == .blank || s.nor.stage == .receiving), ref St.state 3)]
  | 0x8D => activateRef s e
  | 0x8F => firstRef [(lifeless, ref St.state 4), (!s.sec.keyable.contains e.nsid.toNat, ref St.state 2)]
  | 0x90 => firstRef [(lifeless, ref St.state 4), (nsTouched s e.nsid.toNat, ref St.state 2)]
  | 0x91 => lifeRef s e
  | 0x92 => firstRef [(e.cls == 6 && (e.a0 == 2 || e.a0 == 3) && s.ctxs.any fun x => x.dOpen, ref St.state 9)]
  | 0x93 => firstRef [(s.twin.st != .paired, ref St.state 6)]
  | 0x94 => firstRef [(s.twin.st == .paired, ref St.state 6)]
  | _ => none

/-- CANE_REPL_n of a namespace: it is a replica, or has been cut over (R399, R400). -/
def replClosed (s : State) (n : Nat) : Bool :=
  let v := nvVal s (0x0C00001C + n)
  bit v 1 || (bit v 0 && bit v 2)

/-- Check 17. -/
def stateRef (s : State) (o : Origin) (d : EntryData) (k : Option Code) : Option Refuse :=
  let e := d.entry
  let n := e.nsid.toNat
  match firstRef
    [(usesNs e k && ((getNs s n).map Namespace.deleting).getD false, ref St.state 2),
     (modifies e k && replClosed s n, ref St.state 2),
     (sleepPending s && o.admin && !e.isAdm 0x92, ref St.state 9),
     (o.src == .sideband && e.typ == 4 && decide (0x80 ≤ e.op.toNat ∧ e.op.toNat ≤ 0x84), ref St.denied 0)] with
  | some r => some r
  | none => if e.typ = 4 then admRef s o d else none

/-- The checks of R89, in order: the refusal of the first that fails. -/
def checks (s : State) (o : Origin) (d : EntryData) : Option Refuse :=
  let e := d.entry
  let k := codeNamed s d
  let ns := getNs s e.nsid.toNat
  let first := firstRef
    [(e.typ == 0 || decide (4 < e.typ.toNat), bad 1), (e.typ == 4 && !o.admin, bad 2), (!opDefined e, bad 3), (reservedSet e, bad 4),
     (!classOk o e k, bad 5), (flagMisuse o e k, bad 6), (lengthBad e, bad 7), (usesNs e k && (ns.map fun k => k.creating.isSome).getD true, ref St.badNamespace 0),
     (tooLong s o d k, ref St.lengthLimit 0), (outOfNs s e k, ref St.range 3), (chainIllegal d, bad 8),
     (chainLong d, ref St.chainTooLong 0), (decide (o.desc d < needBytes s e), ref St.bufferShort 0)]
  match first with
  | some r => some r
  | none => match (if e.isProg then progRef s o d else none) with
    | some r => some r
    | none => match firstRef
        [(writesData e k && (ns.map Namespace.worn).getD false && decide (s.care.wornAt ≠ s.beat), ref St.readOnlyWorn 0),
         (usesNs e k && !((ns.map fun x => serves s x.sideB).getD true), ref St.twinUnavailable 0)] with
      | some r => some r
      | none => stateRef s o d k

end Sys2Proof.Machine
end

