-- ==== Sys2Proof/Machine/Wake.lean ====
section
/-! DEFINITION. Entering a time of day, what darkness outside the always-on domain leaves, the start of
Dawn, stopping as fatal, and the wake sources (R20, R112, R133, R363, R422, R438, R440, R442, R454). -/

namespace Sys2Proof.Machine

/-! ### Times of day (R442) -/

/-- A 32-bit counter that saturates. -/
def satAdd32 (n k : Nat) : Nat := min (n + k) (2 ^ 32 - 1)

/-- Take a time of day; entries are counted as GSTAT.DAY changes (R442). -/
def setDay (s : State) (t : DayState) : State :=
  s.updDay fun d =>
    { d with day := t
             entries := if d.day = t then d.entries else vset d.entries t.code (satAdd32 (vget d.entries t.code 0) 1) }

/-- Whether BEAT is counted by core cycles: with the HOST domain on, from OSC_READY on (R17, R18, R19). -/
def coreClock (s : State) : Bool := s.day.hostOn

/-- The heartbeat and the toggling of every OWNk_REQ stop (R377). -/
def stopSignals (s : State) : State :=
  (s.updTwin fun t => { t with hbStopped := true }).updFlash fun f => { f with octs := f.octs.map fun o => { o with req := false } }

/-- Stop serving with a fatal cause (R363, R377). -/
def goFatal (s : State) (cause detail : Nat) : State :=
  (stopSignals s).updDay fun d => { d with fatal := true, wasFatal := true, fcause := cause, fdetail := detail % 2 ^ 16, fatalBeat := s.beat }

/-! ### Darkness (R112, R419, R428, R437) -/

/-- What a link keeps while the HOST domain is dark: its counters and the pins. -/
def HostLink.dark (l : HostLink) : HostLink :=
  { HostLink.init with downs := l.downs + b2n (decide (2 ≤ l.st)), perst := l.perst, trainFrom := l.trainFrom, mode2x8 := l.mode2x8, sris := l.sris,
                       aerCorr := l.aerCorr, aerUncorr := l.aerUncorr, usbEntered := l.usbEntered }

/-- What the ZCI machine keeps: the library, which every Dawn reloads from the system area (R133). -/
def Zci.dark (z : Zci) : Zci := { Zci.init with lib := z.lib.map fun l => { l with pins := 0 } }

/-- What the translation engine keeps: what stands on media and in the system area; of a journal slot the copies that were
verified. -/
def Xlat.dark (x : Xlat) : Xlat :=
  { Xlat.init with nss := x.nss, unrecov := x.unrecov, seq := x.seq, jpos := x.jpos, journal := (x.journal.map JSlot.unplaced).filter JSlot.kept, gens := x.gens,
                   ckGen := x.ckGen, ckBeginJpos := x.ckBeginJpos, physLimit := x.physLimit }

/-- What the media state keeps: programmed slots and bands, every column of them in a dark oct; counters count since Dawn (R260, R266). -/
def Media.dark (m : Media) : Media :=
  { Media.init with slots := m.slots.filter fun p => p.2.verified, bands := m.bands.map fun b => { b with acc := none, dark := true } }

/-- What the care engines keep: the tables and clocks of the care record sets and the NV counters; the other
counters count since Dawn (R268, R295). -/
def Care.dark (c : Care) : Care :=
  { c with disturbQ := [], lag := 0, hostSlots := 0, relocated := 0, erases := 0, programFails := 0, eraseFails := 0, patrolReads := 0,
           refreshPatrol := 0, refreshDisturb := 0, refreshAge := 0, depthHist := Vector.replicate 6 0, takeoverCare := false, recWrite := none, victimAt := 0
           blocks := c.blocks.map fun b => (b.1, { b.2 with system := b.2.system && b.2.st == .banded }) }

/-- An oct without power; the profile its blocks were known by stays with the records of those blocks (R265). -/
def Oct.dark (o : Oct) (beat : Nat) : Oct :=
  { Oct.init with darkSince := if o.st = .dark then o.darkSince else beat, hotHold := o.hotHold, profile := o.profile }

/-- The flash side without power: no channel trained, no die identified (R307, R308). -/
def Flash.dark (f : Flash) (beat : Nat) : Flash :=
  { Flash.init with octs := f.octs.map fun o => o.dark beat, present := f.present
                    dies := f.dies.map fun d => { d with ready := false, dark := false, ops := [], resetAt := none } }

/-- What the twin logic keeps: straps, pins, epochs, the kept anchor, whether it was DETACHED (R390). -/
def Twin.dark (t : Twin) : Twin :=
  { Twin.init with side := t.side, stale := t.stale, epochA := t.epochA, epochB := t.epochB, hbOut := t.hbOut, hbStopped := true,
                   peerPresent := t.peerPresent, peerAnchor := t.peerAnchor, wasDetached := t.st == .detached || t.wasDetached }

/-- What the memories keep: fuse repairs (R466). -/
def Mem.dark (m : Mem) : Mem := { Mem.init with fuseRows := m.fuseRows }

/-- What the boot flash keeps: its contents. Entries being written are lost; an erase in progress is abandoned
and its REERASE entry stands (R486); a block being stored counts as interrupted (R491, R501). -/
def Nor.dark (n : Nor) : Nor :=
  { n.interrupt with writing := [], erasing := none, preloaded := false, activating := none, restarted := 0 }

/-- The vault zeroed by hardware (R472). -/
def zeroVault (s : State) : State := s.updSec fun k => { k with nskeys := [], vaultZero := true, nonce := none, evidence := [], certBuf := [] }

/-- Everything outside the always-on domain loses its contents: rings, contexts, calendars, volatile tables
and non-NV settings (R28, R29, R112, R428). The EVENTS page starts empty (R367). -/
def wipe (s : State) : State :=
  let s1 := zeroVault s
  { s1 with
    sec := { s1.sec with lock := s1.sec.lock || Assoc.get s.due 0x12000002 == some 1, rotate := 0, rotKey := none, certNew := none }
    fns := [], rings := [], ctxs := [], plan := Planner.init, zci := s.zci.dark, xlat := s.xlat.dark, media := s.media.dark
    care := s.care.dark, flash := s.flash.dark s.beat, movers := { Movers.init with pacer := s.movers.pacer }, twin := s.twin.dark
    cane := { Cane.init with nextSid := s.cane.nextSid }, links := s.links.map HostLink.dark, mem := s.mem.dark
    nor := { s.nor.dark with svnMin := ((Assoc.get s.due 0x11000004).map BitVec.toNat).getD s.nor.svnMin }
    nv := (s.due.foldl (fun l p => Assoc.set l p.1 p.2) s.nv).filter fun p => settingNv p.1
    due := []
    side := { s.side with adminBusy := false, adminEntry := none, adminData := [], deficit := 0, events := [] }
    therm := { s.therm with alarms := 0, windowSet := false, window := false }
    power := { s.power with armed := 0 }
    day := { s.day with hostOn := false, coreOn := false, sramOn := false, dramOn := false, puntyOn := false, caneOn := false,
                        bootOn := false, pendReq := none, sealed := none, waking := false } }

/-! ### Dawn (R440) -/

/-- Dawn begins: step 1, its limit counted from now; both bank halves are to be tested (R415). -/
def startDawn (s : State) : State :=
  let s1 := setDay (wipe s) .dawn
  (s1.updDay fun d =>
    { d with step := 1, stepFrom := s.beat, cooling := false, fatal := false, wakePend := none,
             entryStep := 0 }).updPower
    fun p => { p with lost := false, llAt := none, dawnTests := 2, halves := p.halves.map fun h => { h with passed := false } }

/-- DAY_LAST_WAKE (R438). -/
def noteWake (s : State) (code : Nat) : State :=
  s.updDay fun d => { d with lastWake := BitVec.ofNat 64 (code + s.beat * 2 ^ 16), wakeAt := if code = 3 then 0 else d.wakeAt }

/-! ### Wake sources (R438, R454) -/

/-- Whether a wake source is enabled. -/
def wakeEnabled (s : State) (code : Nat) : Bool := decide (5 < code) || bit (nvVal s 0x0E000003) (code - 1)

/-- Whether a source wakes the module from a time of day. -/
def wakesFrom (t : DayState) (code : Nat) : Bool :=
  match t with
  | .night => decide (code ≤ 4) || code == 7
  | .midnight => code != 4
  | _ => false

/-- The module is stopped after a controller hot stop. -/
def hotStopped (s : State) : Bool := s.day.fatal && s.day.fcause == 5

/-- A wake from Night begins: the CORE clocks start (R439). -/
def wakeNight (s : State) (code : Nat) : State :=
  (noteWake s code).updDay fun d => { d with waking := true, coreOn := true }

/-- Run a wake source now: from Night the wake of R439, from Midnight Dawn. -/
def runWake (s : State) (code : Nat) : State :=
  if s.day.day = .night then wakeNight s code else startDawn (noteWake s code)

/-- A wake source arrives: it waits for an entry sequence to end, has no further effect while a wake runs,
and after a controller hot stop restarts the module no sooner than 250,000 beats after H. -/
def wake (s : State) (code : Nat) : State :=
  if !wakeEnabled s code || !s.power.aonPowered || s.power.llAt.isSome || s.sec.tamperAt.isSome then s
  else if hotStopped s then
    if !(code == 1 || code == 2 || code == 7) then s
    else if s.beat < s.therm.hotAt.getD 0 + 250000 then s.updDay fun d => { d with wakePend := some code }
    else (startDawn (noteWake s code)).updTherm fun t => { t with hotAt := none }
  else if s.therm.hotAt.isSome || s.power.lost then s
  else if !wakesFrom s.day.day code then s
  else if s.day.sealed.isSome then
    s.updDay fun d => { d with wakePend := match d.wakePend with
      | some k => some k
      | none => some code }
  else if s.day.waking then s
  else runWake s code

/-- The end of an entry sequence: a source that arrived during it wakes the module, and so does an alarm
already passed (R438, R455). -/
def entryEnds (s : State) : State :=
  let s1 := s.updDay fun d => { d with sealed := none, entryStep := 0, wakePend := none }
  match s.day.wakePend with
  | some code => wake s1 code
  | none => if 0 < s.day.wakeAt ∧ s.day.wakeAt ≤ s.beat then wake s1 3 else s1

/-- WAKE_N low for at least 1 ms. -/
def execWakeNLow (s : State) : Host.Outcome State Fault Refusal := .next (wake s 1)

/-- DAY_WAKE_AT: BEAT reaches the alarm. -/
def execDayWakeAt (s : State) : Host.Outcome State Fault Refusal :=
  .next (if 0 < s.day.wakeAt ∧ s.day.wakeAt ≤ s.beat then wake s 3 else s)

end Sys2Proof.Machine
end

