-- ==== Sys2Proof/Machine/Flush.lean ====
section
/-! DEFINITION. Writing the gather buffer and journal staging to media from the reserve bands: the flush of
Last Light, of a hot stop and of a module reset (R112, R384, R418, R419, R453). -/

namespace Sys2Proof.Machine

/-! ### Operations in progress (R419 step 2, R453 step 2) -/

/-- Programs already issued run to their status and pass; a running erase ends with its blocks DIRTY, the serial of their band not yet
free; what had not started goes. -/
def settleOp (s : State) (die : Nat) (o : ArrayOp) : State :=
  if s.beat < o.start then s
  else match o.kind with
  | .read => s
  | .program => (o.block :: o.also).foldl (fun s b => programPassed s die b o.page) s
  | .erase => (o.block :: o.also).foldl (fun s b => modBlock s (blockIdx die b) fun k => { k with st := .dirty }) s

/-- Settle every die. -/
def settle (s : State) : State :=
  let s1 := s.flash.dies.foldl (fun s d => d.ops.foldl (fun s o => settleOp s d.d o) s) s
  s1.updFlash fun f => { f with dies := f.dies.map fun d => { d with ops := [] }, waiting := [] }

/-! ### Reserve bands (R418, R419 step 3) -/

/-- The octs n of R412 counts: LIVE with a full Last Light reserve. -/
def countedOcts (s : State) : List Nat := (liveOcts s).filter fun k => decide (nvVal s 0x0D000018 ≤ (getOct s k).reserve)

/-- Open a Last Light band: SLC, P1, one reserve block of each of the octs counted when the flush began, its BAND_OPEN record; it
holds a parity accumulator for its stripes (R254). -/
def openFlushBand (s : State) (octs : List Nat) : Option (Nat × State) :=
  match startBand s { Band.new with profile := 3 } ((octs.filterMap (reserveBlock s)).take 16) 1 with
  | none => none
  | some (serial, s1) => some (serial, drawReserve (takeAcc s1 serial) serial)

/-- Whether a band has no place left for the slots of a granule. -/
def bandFull (s : State) (b : Band) : Bool := decide (bandPages s b ≤ b.nextPage)

/-- A band that takes a granule's slots, its stripe closed first where they do not fit; a new one where it is
full or none is open. -/
def flushBandFor (s : State) (octs : List Nat) (cur : Option Nat) (page : Bool) : Option (Nat × State) :=
  match cur.bind (getBand s) with
  | none => openFlushBand s octs
  | some b =>
    if (nextPlace s b page).isSome && !bandFull s b then some (b.serial, s)
    else
      let s1 := fillStripe s b
      match getBand s1 b.serial with
      | some k => if bandFull s1 k then openFlushBand s1 octs else some (b.serial, s1)
      | none => openFlushBand s octs

/-- Place the slots of one granule in the open Last Light band. -/
def flushOne (octs : List Nat) (w : Option Nat × State) (rs : List SlotRec) : Option Nat × State :=
  match flushBandFor w.2 octs w.1 (decide (rs.length = 4)) with
  | none => w
  | some (serial, s1) => match getBand s1 serial with
    | none => w
    | some b => match nextPlace s1 b (decide (rs.length = 4)) with
      | none => (some serial, s1)
      | some psa =>
        (some serial, modBand (rs.zipIdx.foldl (fun s r => putSlot s b (psa + r.2) r.1) s1) serial fun b => { b with lowSeq := lowSeqWith b.lowSeq rs })

/-- The granules of gather slots that map entries name, in rising SEQ, each with its slots. -/
def flushGranules (gs : List GatherSlot) : List (List GatherSlot) :=
  (sortBy GatherSlot.seq (gs.filter fun g => g.mapped && !g.atom && g.part == 0)).map fun g =>
    if g.g16k then gs.filter fun h => decide (g.slot ≤ h.slot) && decide (h.slot < g.slot + 4) else [g]

/-- Rounds of step 4 of R419: staging into journal slots, both copies into system bands of the reserve; a round more for the records
that opening those bands entered. -/
def flushJournal : Nat → State → State
  | 0, s => s
  | k + 1, s =>
    if s.xlat.staging.isEmpty && s.xlat.journal.all (fun j => j.copyA.isSome && j.copyB.isSome) then s
    else flushJournal k (placeJournal (journalDrain (s.xlat.staging.length / 128 + 2) 1 s) false true)

/-- Step 6 of R419: the stripe a Last Light band fills gets its pad slots and its parity. -/
def padStripe (s : State) (serial : Nat) : State :=
  match getBand s serial with
  | some b => if (stripeFree s b).length < 4 * (b.width - b.pcols) then fillStripe s b else s
  | none => s

/-- Everything placed in Last Light bands is programmed and verified. -/
def verifyFlush (s : State) : State :=
  let mine := fun (psa : Nat) => s.media.bands.any fun b => s.power.llBands.contains b.serial && b.columns.contains (psaDie psa, psaBlock psa)
  let ok := fun (c : Option (Nat × Bool)) => c.map fun k => (k.1, k.2 || mine k.1)
  ((s.updMedia fun m => { m with slots := m.slots.map fun p => if mine p.1 then (p.1, { p.2 with verified := true }) else p }).updXlat fun x =>
    { x with journal := x.journal.map fun j => { j with copyA := ok j.copyA, copyB := ok j.copyB } }).updFlash fun f =>
      { f with dies := f.dies.map fun d => { d with ops := [] } }

/-- The flush: running programs settle and what was not yet programmed gives up its place and its accumulator; with `write` the named
gather slots, and with `mirror` the mirror area after them, go into Last Light bands; with four counted octs journal staging goes
into journal slots; the last stripes are padded and all of it is verified (R419 steps 3 to 6). -/
def flushAll (s : State) (write mirror : Bool) : State :=
  let s1 := settle s
  let s2 := (s1.updMedia fun m => { m with bands := m.bands.map fun b => { b with acc := none } }).updXlat fun x =>
    { x with journal := x.journal.map JSlot.unplaced }
  let gs := if write then flushGranules s2.xlat.gather ++ (if mirror then flushGranules s2.twin.mirror else []) else []
  let s3 := (gs.foldl (fun w g => flushOne (countedOcts s) w (g.map (gatherRec w.2))) (none, s2)).2
  let s4 := if (countedOcts s).length < 4 then s3 else flushJournal 4 s3
  verifyFlush (s4.power.llBands.foldl padStripe s4)

/-! ### Stopping service at once (R419 step 2, R453 step 1, R377) -/

/-- Fetching, admission and completion writes stop, contexts are frozen for good, movers stop, the heartbeat
and OWNk_REQ stop. A frozen context never resumes, so it is dropped with what it held. -/
def freeze (s : State) : State :=
  { s with
    ctxs := []
    plan := { s.plan with stopped := true, fetching := [], fetched := [] }
    movers := { s.movers with eng := s.movers.eng.map fun e => { e with descs := [] } }
    twin := { s.twin with hbStopped := true }
    flash := { s.flash with octs := s.flash.octs.map fun o => { o with req := false } }
    cane := { s.cane with queue := [] }
    day := { s.day with pendReq := none } }

end Sys2Proof.Machine
end

