-- ==== Sys2Proof/Machine/Flash.lean ====
section
/-! DEFINITION. Octs and channels: power-up, identification, training, the ways to go dark, the leases of
switched carriers (R296 to R320). -/

namespace Sys2Proof.Machine

/-! ### Requests, leases and presence (R307, R317) -/

/-- FCH_OCT_POWER requests an oct. -/
def octWanted (s : State) (k : Nat) : Bool := bit (nvVal s 0x08000001) k

/-- The carrier of an oct is present. -/
def octPresent (s : State) (k : Nat) : Bool := vget s.flash.present (k / 8) false

/-- Start a lease on an oct: OWNk_REQ toggles from now. -/
def startLease (s : State) (k : Nat) : State := modOct s k fun o => { o with req := true, leaseAt := s.beat, retryAt := none }

/-- Whether the rules assign a switched oct to this module and it is requested (R317). -/
def leaseDue (s : State) (k : Nat) : Bool := octSwitched s k && octWanted s k && octAssigned s k

/-- Start the leases that are due on octs of a list, except those waiting to retry. -/
def startLeases (s : State) (ks : List Nat) : State :=
  ks.foldl (fun s k => if leaseDue s k && !(getOct s k).req && (getOct s k).retryAt.isNone then startLease s k else s) s

/-! ### Leaving LIVE (R308, R310, R61) -/

/-- The dies of an oct. -/
def inOct (k d : Nat) : Bool := dieOct d == k

/-- The oct is DARK: its rails are off, its dies gone from ID_CAPS1 though their blocks stay known, its channels out of service;
GEVENT.OCT. A lease that the module no longer needs ends, one it still needs goes on (R317, R320). -/
def goDark (s : State) (k : Nat) : State :=
  let s1 := modOct s k fun o =>
    { o with st := .dark, phase := 0, vcc := 0, vccq := false, downReq := false, prompt := false, toDrain := false, seen := []
             darkSince := s.beat, req := o.req && leaseDue s k }
  let s3 := (reach s1 (inOct k) true).updFlash fun f =>
    { f with dies := f.dies.map fun d => if inOct k d.d then { d with ready := false, ops := [] } else d
             chans := f.chans.mapFinIdx fun n c _ => if n / 8 == k then { c with svc := 0, dieMask := 0 } else c }
  event s3 2 k

/-- The fault way: off at once. -/
def faultDown (s : State) (k : Nat) : State := if (getOct s k).st = .dark then s else goDark s k

/-- Whether an operation of a die is in progress. -/
def ArrayOp.running (o : ArrayOp) (beat : Nat) : Bool := decide (o.start ≤ beat) && decide (beat < o.start + o.busy)

/-- Slots of the dies that a test picks are out of reach from now, while the operations in progress on them run to their status
(R308, R312). -/
def reachRunning (s : State) (p : Nat → Bool) (octDark : Bool) : State :=
  s.flash.dies.foldl (fun t d =>
    if p d.d then modDie t d.d fun x => { x with ops := d.ops.filter fun o => o.running s.beat } else t) (reach s p octDark)

/-- The ordered and the prompt way begin: DRAINING; the prompt way re-plans at once. -/
def startDrain (s : State) (k : Nat) (prompt : Bool) : State :=
  if (getOct s k).st = .live then
    let s1 := modOct s k fun o => { o with st := .draining, drainAt := s.beat, prompt := prompt, toDrain := false }
    if prompt then reachRunning s1 (inOct k) true else s1
  else if (getOct s k).st = .powering then modOct s k fun o => { o with downReq := true }
  else s

/-- The ordered way asked for by Midnight entry or the release of ownership: a LIVE oct drains from the next beat (R308). -/
def askDrain (s : State) (k : Nat) : State :=
  if (getOct s k).st = .live then modOct s k fun o => { o with toDrain := true } else startDrain s k false

/-- A new beat begins: the octs so asked are DRAINING. -/
def drainAsked (s : State) : State := (List.range 16).foldl (fun s k => if (getOct s k).toDrain then startDrain s k false else s) s

/-- A request withdrawn while POWERING: the sequence stops at this step boundary and the oct goes dark in the ordered way: VCCQ off, VCC
off once VCCQ is below 10 % (R308, R310). -/
def stopPowering (s : State) (k : Nat) : State :=
  if (getOct s k).vccq then modOct s k fun o => { o with st := .draining, drainAt := s.beat, downReq := false, vccq := false } else goDark s k

/-- Whether an array operation is booked or in progress on an oct; in the prompt way, for no longer than its profile occupancy
(R308). -/
def octBusy (s : State) (k : Nat) : Bool :=
  s.flash.dies.any fun d => inOct k d.d && d.ops.any fun o => !(getOct s k).prompt || o.running s.beat

/-- OCT_DRAIN_END: nothing is left booked, or 8,192 beats have passed: VCCQ turns off, what was left is
re-planned. -/
def execOctDrainEnd (k : Nat) (s : State) : Host.Outcome State Fault Refusal :=
  .next (let o := getOct s k
    if o.st ≠ .draining ∨ !o.vccq ∨ (octBusy s k ∧ s.beat < o.drainAt + 8192) then s
    else reach (modOct s k fun o => { o with vccq := false }) (inOct k) true)

/-- OCT_VCCQ_OFF: VCCQ is below 10 %: VCC turns off and the oct is DARK. -/
def execOctVccqOff (k : Nat) (s : State) : Host.Outcome State Fault Refusal :=
  .next (let o := getOct s k
    if o.st = .draining ∧ !o.vccq then goDark s k else s)

/-- RAIL_TRIP: the fault way, latched. -/
def execRailTrip (k : Nat) (s : State) : Host.Outcome State Fault Refusal :=
  .next (if (getOct s k).st = .dark then s else modOct (faultDown s k) k fun o => { o with fault := true })

/-- CARRIER_PRESENCE_LOSS: the fault way for the eight octs of the connector. -/
def execCarrierPresenceLoss (j : Nat) (s : State) : Host.Outcome State Fault Refusal :=
  .next (if 2 ≤ j then s else
    (List.range 8).foldl (fun s i => faultDown s (8 * j + i)) (s.updFlash fun f => { f with present := vset f.present j false }))

/-! ### Power-up (R300, R303, R306, R307, R310) -/

/-- Whether octs may power up now: from the logic step of Dawn on, in Noon and Dusk (R425). -/
def octsMayPower (s : State) : Bool :=
  !s.day.fatal && s.power.aonPowered && !s.power.lost && s.power.llAt.isNone && s.therm.hotAt.isNone && s.sec.tamperAt.isNone &&
  (s.day.day == .noon || s.day.day == .dusk || (s.day.day == .dawn && decide (4 ≤ s.day.step)))

/-- Whether an oct's side is being released to the twin: it is not powered up again (R388 step 3, R389). -/
def octLeaving (s : State) (k : Nat) : Bool :=
  sided s && ((s.twin.st == .detaching && octSideB s k == s.twin.side) ||
    (s.twin.st == .syncing && octSideB s k != s.twin.side && !s.twin.served.contains (octSideB s k)))

/-- OCT_POWER_START: requested, not faulted, present and, on a switched carrier, assigned and granted; its
profile is read. It waits for a test of one of its channel buffers to end (R464). -/
def execOctPowerStart (k : Nat) (s : State) : Host.Outcome State Fault Refusal :=
  .next (let o := getOct s k
    if 16 ≤ k ∨ o.st ≠ .dark ∨ o.fault ∨ !octWanted s k ∨ !octPresent s k ∨ (octSwitched s k ∧ (!octAssigned s k ∨ !o.gnt)) ∨
        (s.mem.testState = 1 ∧ s.mem.testBank = 2 ∧ s.mem.testUnit / 8 = k) ∨ o.hotHold.isSome ∨ !octsMayPower s ∨ octLeaving s k ∨ s.day.sealed.isSome then s
    else modOct s k fun o =>
      { o with st := .powering, phase := 1, phaseAt := s.beat, vcc := if bit (profSet s k 2) 5 then 33 else 25, vccq := false, downReq := false, prompt := false, seen := []
               switched := octSwitched s k, profile := Vector.ofFn fun f => BitVec.ofNat 64 (profSet s k f.val) })

/-- The next step of a power-up at a phase, within its earliest and latest beat; a request withdrawn meanwhile ends it there (R307,
R310). -/
def powerStep (s : State) (k phase first last : Nat) (f : State → State) : State :=
  let o := getOct s k
  if o.st ≠ .powering ∨ o.phase ≠ phase ∨ s.beat < o.phaseAt + first ∨ o.phaseAt + last < s.beat then s
  else if o.downReq then stopPowering s k else f s

/-- OCT_VCC_GOOD. -/
def execOctVccGood (k : Nat) (s : State) : Host.Outcome State Fault Refusal :=
  .next (powerStep s k 1 1 500 fun s => modOct s k fun o => { o with phase := 2, phaseAt := s.beat, vccq := true })

/-- OCT_VCCQ_GOOD: the channels are idle one beat later. -/
def execOctVccqGood (k : Nat) (s : State) : Host.Outcome State Fault Refusal :=
  .next (powerStep s k 2 1 250 fun s => modOct s k fun o => { o with phase := 3, phaseAt := s.beat + 1 })

/-- OCT_RESET_TIMER: 25 beats after idle RESET goes to every chip enable. -/
def execOctResetTimer (k : Nat) (s : State) : Host.Outcome State Fault Refusal :=
  .next (powerStep s k 3 25 25 fun s =>
    (List.range 64).foldl (fun s i => emit s (.nand (128 * k + 2 * i) 0xFF 0 []))
      (modOct s k fun o => { o with phase := 4, phaseAt := s.beat }))

/-- RAIL_GOOD_TIMEOUT: a rail misses its limit: a rail fault. -/
def execRailGoodTimeout (k : Nat) (s : State) : Host.Outcome State Fault Refusal :=
  .next (let o := getOct s k
    if o.st = .powering ∧ ((o.phase = 1 ∧ o.phaseAt + 500 ≤ s.beat) ∨ (o.phase = 2 ∧ o.phaseAt + 250 ≤ s.beat)) then
      modOct (faultDown s k) k fun o => { o with fault := true }
    else s)

/-- Whether a LUN's READ ID and parameter page match the profile of its oct: READ ID, whether the page's CRC
passes, blocks, page bytes, SLC, TLC and QLC pages, plane and LUN bits (R229, R300, R304). -/
def lunOk (s : State) (k : Nat) (p : List Nat) : Bool :=
  let v := fun i => nth p i 0
  let idOk := (BitVec.ofNat 64 (v 0) ^^^ BitVec.ofNat 64 (profOf s k 0)) &&& BitVec.ofNat 64 (profOf s k 1) == 0
  let geom := v 2 == bits (profOf s k 3) 12 0 && v 3 == bits (profOf s k 3) 63 32 && v 7 == bits (profOf s k 3) 19 16 && v 8 == bits (profOf s k 3) 28 24
  let pages := v 4 + v 5 * 2 ^ 16 + v 6 * 2 ^ 32 == profOf s k 4
  let limits := decide (18432 ≤ v 3) && decide (1 ≤ v 2) && decide (v 2 ≤ 8192) && decide (v 4 ≤ 4096) && decide (v 5 ≤ 4096) && decide (v 6 ≤ 4096)
  let full := [CellMode.slc, .tlc, .qlc].all fun m => pagesOf s k m == 0 || (occRead s k m != 0 && occProg s k m != 0 && occErase s k != 0)
  idOk && v 1 == 1 && geom && pages && limits && full && profOf s k 4 != 0

/-! ### Training (R297 to R299, R311, R312) -/

/-- Slot transfers per beat of a ladder rate (R297). -/
def ladderPerBeat : Nat → Nat
  | 0 => 5 | 1 => 4 | 2 => 3 | 3 => 2 | 4 => 2 | _ => 1

/-- The fastest rate a channel tries: MAXRATE, FCH_MAX_RATE as the training found it, no extended rate without EXT, and not
above the rate it ran at. -/
def firstRate (s : State) (n from_ : Nat) : Nat :=
  let v := profOf s (n / 8) 2
  max (max (bits v 3 1) (getChan s n).maxRate) (max (if bit v 4 then 0 else 3) from_)

/-- The carrier diodes of an oct. -/
def octDiodes (k : Nat) : List Nat := ((zonesOfOct k).flatMap zoneSensors).eraseDups

/-- What they read. -/
def octTs (s : State) (k : Nat) : List Int := (octDiodes k).map fun i => vget s.therm.reading i 0

/-- A die's bit in FCH_CH_INFO: 2 × CE + LUN. -/
def dieBit (d : Nat) : Nat := d % 16

/-- Bands of dark octs whose columns are all LIVE again lose DARK, unless chosen already (R274). -/
def clearDark (s : State) : State :=
  s.updMedia fun m => { m with bands := m.bands.map fun b =>
    if b.dark && b.st != .victim && b.st != .erasing && b.columns.all fun c => (getOct s (dieOct c.1)).st == .live then { b with dark := false } else b }

/-- Every channel of an oct has ended its training: LIVE; GEVENT.OCT where it returns from dark. -/
def octLive (s : State) (k : Nat) : State :=
  if (List.range 8).any fun c => (getChan s (8 * k + c)).svc == 2 then s
  else
    let back := (getOct s k).wasLive
    let s1 := modOct s k fun o => { o with st := .live, phase := 0, wasLive := true }
    let s2 := clearDark (s1.updFlash fun f => { f with dies := f.dies.map fun d => if inOct k d.d then { d with ready := true } else d })
    if back then event s2 2 k else s2

/-- SET FEATURES to each target of an oct, switching it from the SDR timing of power-on to the interface of the oct's profile: the model
shows IFACE in place of the feature bytes, which the standard of that interface defines (R296, R311; DESIGN CHOICE, log entry 28). -/
def setInterface (s : State) (k : Nat) : State :=
  (s.flash.dies.filter fun d => inOct k d.d && dieLun d.d == 0).foldl
    (fun s d => busCmd s d.d 0xEF 0 [BitVec.ofNat 8 (b2n (bit (profOf s k 2) 0))]) s

/-- Once every LUN of an oct is identified or absent its channels train, those with no die at once; with no
channel to train the oct is LIVE. -/
def identified (s : State) (k : Nat) : State :=
  let o := getOct s k
  if o.seen.length < 128 then s
  else if o.downReq then stopPowering s k
  else octLive ((List.range 8).foldl (fun s c =>
    let n := 8 * k + c
    modChan s n fun ch => { ch with svc := if s.flash.dies.any fun d => dieChan d.d == n then 2 else 0, dieMask := 0
                                    maxRate := nvVal s 0x0800000A })
    (setInterface (modOct s k fun o => { o with phase := 6, phaseAt := s.beat }) k)) k

/-- A LUN is identified, with its row cycles, or absent: a die that an earlier power-up found here is then gone. -/
def lunSeen (s : State) (die rows : Nat) (found : Bool) : State :=
  let k := dieOct die
  let o := getOct s k
  if o.st ≠ .powering ∨ o.phase ≠ 4 ∨ o.seen.contains die then s
  else
    let s1 := modOct s k fun o => { o with seen := o.seen ++ [die] }
    let new : Die := { Die.init with d := die, rowCycles := rows }
    identified (s1.updFlash fun f =>
      let l := f.dies.filter fun d => d.d != die
      { f with dies := if found then insertBy Die.d new l else l }) k

/-- READ ID and the read of the parameter page, at address 00h (R300, R313). -/
def identifyCmds (s : State) (die : Nat) : State := busCmd (busCmd s die 0x90 0 [0]) die 0xEC 0 [0]

/-- LUN_READY: within 250 beats of the RESET the LUN is identified. -/
def execLunReady (die : Nat) (params : List Nat) (s : State) : Host.Outcome State Fault Refusal :=
  .next (let o := getOct s (dieOct die)
    if o.st ≠ .powering ∨ o.phase ≠ 4 ∨ o.seen.contains die ∨ s.beat < o.phaseAt + 1 ∨ o.phaseAt + 250 < s.beat then s
    else lunSeen (identifyCmds s die) die (if nth params 9 0 = 4 then 4 else 3) (lunOk s (dieOct die) params))

/-- LUN_READY_TIMEOUT: not ready within 250 beats of the RESET. -/
def execLunReadyTimeout (die : Nat) (s : State) : Host.Outcome State Fault Refusal :=
  .next (if (getOct s (dieOct die)).phaseAt + 250 ≤ s.beat then lunSeen s die 3 false else s)

/-- The end of a channel's training: the fastest rate whose eyes reach FCH_EYE_MIN; failed rates are counted; a
target that failed at index 6, and so at every rate, is left out. A channel whose buffer is beyond repair stays out of service (R467). -/
def trainEnd (s : State) (n from_ : Nat) (eyes out : List Nat) : State :=
  if vget s.mem.chbufOut n false then
    modChan (s.updFlash fun f => { f with dies := f.dies.filter fun d => dieChan d.d != n }) n fun c => { c with svc := 0, dieMask := 0 }
  else
  let k := n / 8
  let lo := firstRate s n from_
  let need := nvVal s 0x08000007
  let s0 := s.updFlash fun f => { f with dies := f.dies.filter fun d => !(dieChan d.d == n && out.contains d.d) }
  let pick := lowest (fun r => decide (need ≤ nth eyes r 0)) lo (7 - lo)
  let failed := if s.flash.dies.any fun d => dieChan d.d == n && out.contains d.d then 7 else pick.getD 7
  let s1 := s0.updFlash fun f => { f with trainFails := satAdd f.trainFails (failed - lo) }
  let mask := ((s1.flash.dies.filter fun d => dieChan d.d == n).map fun d => 2 ^ dieBit d.d).foldl (· + ·) 0
  match pick with
  | some r => modChan s1 n fun c =>
      { c with rate := r, perBeat := ladderPerBeat r, svc := if mask = 0 then 0 else 1, dieMask := BitVec.ofNat 16 mask, eye := nth eyes r 0,
               lastCentre := s.beat, centreTs := octTs s k }
  | none => modChan (s1.updFlash fun f => { f with dies := f.dies.filter fun d => dieChan d.d != n }) n fun c => { c with svc := 0, dieMask := 0 }

/-- Whether an array operation is in progress on a channel: it is retrained once there is none (R312). -/
def chanBusy (s : State) (n : Nat) : Bool := s.flash.dies.any fun d => dieChan d.d == n && !d.ops.isEmpty

/-- TRAINING_DONE: at power-up, and of a channel that R312 took out of service. -/
def execTrainingDone (chan : Nat) (eyes out : List Nat) (s : State) : Host.Outcome State Fault Refusal :=
  .next (let k := chan / 8
    let o := getOct s k
    if 128 ≤ chan ∨ (getChan s chan).svc ≠ 2 then s
    else if o.st = .powering ∧ o.phase = 6 then
      if o.downReq then stopPowering s k else octLive (trainEnd s chan 0 eyes out) k
    else if o.st = .live ∧ !chanBusy s chan then trainEnd s chan (getChan s chan).rate eyes out
    else s)

/-- Whether a re-centre of a channel is due: FCH_RECENTRE_BEATS have passed, or a working diode of its oct has moved by
FCH_RECENTRE_DELTA_C. -/
def recentreDue (s : State) (chan : Nat) : Bool :=
  let c := getChan s chan
  let lim : Int := 16 * Int.ofNat (nvVal s 0x08000009)
  decide (c.lastCentre + nvVal s 0x08000008 ≤ s.beat) || ((octDiodes (chan / 8)).zip c.centreTs).any fun d =>
    let t := vget s.therm.reading d.1 0
    sensorWorks s d.1 && (decide (lim ≤ t - d.2) || decide (lim ≤ d.2 - t))

/-- RECENTRE: two beats of the channel in the care share, and the eye the re-centre leaves; below FCH_EYE_MIN the channel goes out of service and retrains
(R312). Skipped while the oct drains. -/
def execRecentre (chan eye : Nat) (s : State) : Host.Outcome State Fault Refusal :=
  .next (if 128 ≤ chan ∨ (getChan s chan).svc ≠ 1 ∨ (getOct s (chan / 8)).st ≠ .live ∨ !recentreDue s chan then s
    else
      let s0 := (List.range 2).foldl (fun t i => book t (.chan chan) .care (s.beat + i) (chanRate s chan) 0) s
      let s1 := modChan s0 chan fun c => { c with eye := eye, lastCentre := s.beat, centreTs := octTs s (chan / 8) }
      if nvVal s 0x08000007 ≤ eye then s1
      else reachRunning (modChan s1 chan fun c => { c with svc := 2, maxRate := nvVal s 0x0800000A }) (fun d => dieChan d == chan) false)

/-! ### Settings with a step of their own (R308 to R310) -/

/-- FCH_OCT_POWER acts: cleared bits take their octs down in the ordered way; set bits withdraw a pending stop. -/
def octPower (s : State) (v : BitVec 64) : State :=
  let s1 := storeNv s 0x08000001 v
  let s2 := (List.range 16).foldl (fun s k =>
    if v.getLsbD k then modOct s k fun o => { o with downReq := false } else startDrain s k false) s1
  let s3 := s2.updFlash fun f => { f with octs := f.octs.mapFinIdx fun k o _ =>
    if !(v.getLsbD k) && o.st == .dark then { o with req := false, retryAt := none } else o }
  startLeases s3 (List.range 16)

/-- FCH_OCT_FAULT acts: a 1 clears the latch of its oct (R309). -/
def octFault (s : State) (v : BitVec 64) : State :=
  s.updFlash fun f => { f with octs := f.octs.mapFinIdx fun k o _ => if v.getLsbD k then { o with fault := false } else o }

/-- FCH_OCT_POWER: SET, it acts from the next beat (R323). -/
def execFchOctPower (c : Nat) (s : State) : Host.Outcome State Fault Refusal :=
  .next (match waitsSet s c 0x08000001 1 with
    | none => s
    | some (_, _, v) => setDone (storeDue s 0x08000001 v) c St.ok 0)

/-- FCH_OCT_FAULT: SET, it acts from the next beat; bits SET in one beat add up (R309, R323). -/
def execFchOctFault (c : Nat) (s : State) : Host.Outcome State Fault Refusal :=
  .next (match waitsSet s c 0x08000003 1 with
    | none => s
    | some (_, _, v) => setDone (storeDue s 0x08000003 (v ||| (Assoc.get s.due 0x08000003).getD 0)) c St.ok 0)

/-- FCH_OWN_MODE acts: a dark oct now switched and due toggles for its lease, one no longer switched stops (R317, R323). -/
def ownMode (s : State) : State :=
  startLeases (s.updFlash fun f => { f with octs := f.octs.mapFinIdx fun k o _ =>
    if o.st == .dark && !(octSwitched s k) then { o with req := false, retryAt := none } else o }) (List.range 16)

/-! ### Losing and retrying a grant (R320) -/

/-- GRANT_LOSS: while toggling, the fault way, counted, and a retry in 250,000 beats; otherwise the lease is over, and an oct still
powered has its channel and rails cut off by the fallen grant (R318, R320, R377). -/
def execGrantLoss (k : Nat) (s : State) : Host.Outcome State Fault Refusal :=
  .next (let o := getOct s k
    if !o.gnt then s
    else
      let s1 := modOct s k fun o => { o with gnt := false }
      if !o.req then (if o.switched then faultDown s1 k else s1)
      else
        let s2 := modOct (faultDown s1 k) k fun o => { o with req := false, retryAt := some (s.beat + 250000) }
        s2.updFlash fun f => { f with grantLosses := satAdd f.grantLosses 1 })

/-- LEASE_RETRY. -/
def execLeaseRetry (k : Nat) (s : State) : Host.Outcome State Fault Refusal :=
  .next (let o := getOct s k
    match o.retryAt with
    | none => s
    | some b =>
      if s.beat < b then s
      else if leaseDue s k then startLease s k else modOct s k fun o => { o with retryAt := none })

end Sys2Proof.Machine
end

