-- ==== Sys2Proof/Machine/Punty.lean ====
section
/-! DEFINITION. What the twin logic does in every beat of the planner's cycle: the heartbeat and HB frame, the
sync, the steps of a planned detach and of a handback, the first admission of a covered side (R372 to R389, R521). -/

namespace Sys2Proof.Machine

/-! ### States, epochs and frames -/

/-- Take a twin state; GEVENT.TWIN follows GSTAT.TWIN. -/
def setTwin (s : State) (t : TwinSt) : State := eventIf (decide (t.gstat ≠ s.twin.st.gstat)) (s.updTwin fun x => { x with st := t }) 3 0xFF

/-- This module's epoch of a side. -/
def epochOf (s : State) (sideB : Bool) : Nat := if sideB then s.twin.epochB else s.twin.epochA

/-- The twin's epoch of a side as it told it. -/
def peerEpochOf (s : State) (sideB : Bool) : Nat := if sideB then s.twin.peerEpochB else s.twin.peerEpochA

/-- Raise a side's epoch by 1. -/
def raiseEpoch (s : State) (sideB : Bool) : State :=
  s.updTwin fun t => if sideB then { t with epochB := satAdd32 t.epochB 1 } else { t with epochA := satAdd32 t.epochA 1 }

/-- Draw n free words. -/
def drawWords (s : State) (n : Nat) : List (BitVec 64) × State :=
  ((List.range n).map fun i => Config.freeValue (s.freeCtr + i), s.updFreeCtr (· + n))

/-- Bytes as 64-bit words, the last one filled with zeros. -/
def bytesWords (bs : List Byte) : List (BitVec 64) := (List.range (ceilDiv bs.length 8)).map fun i => BitVec.ofNat 64 (field bs (8 * i) 8)

/-- A CTRL frame; the spec states no argument for any code: a free value (log entry 3). -/
def sendCtrl (s : State) (code : Nat) : State :=
  let (f, s1) := drawFree s
  sendPunty s1 0x09 code f.toNat [] []

/-- Acknowledge what has been stored (R382). -/
def sendAck (s : State) : State := sendPunty s 0x04 s.twin.rxPseq 0 [] []

/-- A key of the own side to the twin (R521): the ciphertext, the wrapped key and the tag are free values (log
entry 3); EPOCH 0 tells a destruction. -/
def sendKeyx (s : State) (nsid epoch old : Nat) : State :=
  let (ws, s1) := drawWords s 146
  sendPunty s1 0x0B 0 0 (bytesWords (leBytes 4 nsid ++ leBytes 4 epoch ++ leBytes 4 old ++ ws.flatMap fun w => leBytes 8 w.toNat)) []

/-- The place of a received entry; the gather slot of a copy lies in the mirror area, numbered above the own slots. -/
def wordLoc (w : Nat) : Loc :=
  if w / 2 ^ 38 % 4 = 0 then .media (w % 2 ^ 38) else if w / 2 ^ 38 % 4 = 1 then .gather (gatherSlots + w % 2 ^ 32) else .unmapped

/-- The body of NSTAB for one side: the table's slots with that side's namespaces, then the side bytes. -/
def nstabBytes (s : State) (sideB : Bool) : List Byte :=
  let at_ := fun k => s.xlat.nss.find? fun n => n.nsid == k && n.sideB == sideB
  ((List.range 4096).flatMap fun k => match at_ k with
    | some n => nsEntryBytes n
    | none => leBytes 32 0) ++
  (List.range 4096).flatMap fun k => leBytes 1 (if (at_ k).isSome then b2n sideB else 0)

/-- A GATHER frame of one granule as it stands at a place. -/
def sendGranule (s : State) (ns : Namespace) (gran slot seq key : Nat) (l : Loc) : State :=
  sendPunty s 0x02 slot key (granDesc ns (key != 0) slot gran seq (locTag s l)) (locBytes s ns.gslots l)

/-! ### The heartbeat (R377) -/

/-- Toggle TWHB_OUT and send HB, while the punty link is up and the twin is not found absent. -/
def heartbeat (s : State) : State :=
  let s1 := s.updTwin fun t => { t with hbOut := !t.hbOut }
  if s.day.puntyOn ∧ 0 < s.twin.lanes ∧ s.twin.takeoverAt.isNone then sendPunty s1 0x01 s.xlat.seq s.power.armed [] [] else s1

/-! ### Draining a side (R388 steps 2 and 3, R436) -/

/-- The side of a namespace. -/
def sideOf (s : State) (nsid : Nat) : Option Bool := (getNs s nsid).map Namespace.sideB

/-- The gather slots of a side that this module, not only a replica, still needs. -/
def gatherOf (s : State) (sideB : Bool) : List GatherSlot := s.xlat.gather.filter fun g => slotWanted s g && sideOf s g.nsid == some sideB

/-- Close stripes of a band up to the end of the word line it fills: pages of a word line program together (R253,
R302); then the band, when its data stripes are full. -/
def closeLine : Nat → State → Nat → State
  | 0, s, _ => s
  | fuel + 1, s, serial =>
    let s1 := closeStripe s serial
    match getBand s1 serial with
    | none => s1
    | some b =>
      if dataStripes s1 b ≤ b.nextPage then closeBand s1 serial
      else if b.nextPage % pagesPerWl b.cell = 0 then s1 else closeLine fuel s1 serial

/-- Close every word line in progress that holds slots. -/
def closePartial (s : State) : State :=
  (s.media.bands.filter fun b => b.st == .opened &&
      (b.nextPage % pagesPerWl b.cell != 0 || decide ((stripeFree s b).length < 4 * (b.width - b.pcols)))).foldl
    (fun s b => closeLine 4 s b.serial) s

/-- Once every slot that waits is placed, the stripes in progress are closed so that they program. -/
def drainStripes (s : State) (gs : List GatherSlot) : State :=
  if gs.isEmpty || gs.any fun g => g.psa.isNone && (g.mapped || g.through) then s else closePartial s

/-- Nothing of a side is admitted and unposted, and no gather slot of it is left. -/
def sideIdle (s : State) (sideB : Bool) : Bool :=
  !(s.ctxs.any fun x => x.touches && sideOf s x.entry.nsid.toNat == some sideB) && (gatherOf s sideB).isEmpty

/-- The octs of a side. -/
def sideOcts (s : State) (sideB : Bool) : List Nat := (List.range 16).filter fun k => octSideB s k == sideB

/-- Take the octs of a side down in the ordered way; once they are dark, stop toggling and send RELEASED. -/
def releaseSide (s : State) (sideB : Bool) : State :=
  let ks := sideOcts s sideB
  if ks.all fun k => (getOct s k).st == .dark then
    let s1 := ks.foldl (fun s k => modOct s k fun o => { o with req := false, retryAt := none }) s
    sendCtrl (s1.updTwin fun t => { t with released := t.released || t.st == .detaching, handback := false }) 5
  else ks.foldl askDrain s

/-- One beat of a DETACHING module (R388 steps 2 and 3). -/
def detachBeat (s : State) : State :=
  if s.twin.released then s
  else if sideIdle s s.twin.side then releaseSide s s.twin.side
  else drainStripes s (gatherOf s s.twin.side)

/-- Enter DETACHING, for a TWIN_DETACH or for a time of day (R388, R390). -/
def beginDetach (s : State) : State := (setTwin s .detaching).updTwin fun t => { t with released := false }

/-! ### The first admission of a side taken over (R386 steps 3 to 5, R389) -/

/-- At least one oct of a side is granted, and every granted one is LIVE. -/
def grantsLive (s : State) (sideB : Bool) : Bool :=
  let ks := (sideOcts s sideB).filter fun k => (getOct s k).gnt
  !ks.isEmpty && ks.all fun k => (getOct s k).st == .live

/-- A side is admitted from this beat; after RELEASED the twin is told. -/
def admitSide (s : State) (sideB : Bool) : State :=
  let s1 := s.updTwin fun t => { t with served := if t.served.contains sideB then t.served else t.served ++ [sideB], released := false }
  if s.twin.released then sendCtrl s1 8 else s1

/-- One beat of a COVERING module: the twin's side is admitted once its octs are LIVE. -/
def coverBeat (s : State) : State :=
  let other := !s.twin.side
  if s.twin.served.contains other || !grantsLive s other then s
  else
    let s1 := admitSide s other
    (s1.updTwin fun t =>
      { t with takeoverAt := none
               lastTakeover := BitVec.ofNat 64 ((if t.takeoverWarm then 1 else 2) + capBits 32 (s.beat - t.takeoverAt.getD s.beat) * 2 ^ 8) }).updCare
      fun c => { c with takeoverCare := true }

/-! ### The sync (R385, R521) -/

/-- Whether this module is the source of a side: the higher epoch, or the side's own module where they are equal. -/
def sourceOf (s : State) (sideB : Bool) : Bool :=
  if epochOf s sideB = peerEpochOf s sideB then sideB == s.twin.side else decide (peerEpochOf s sideB < epochOf s sideB)

/-- The namespaces whose lines this module sends, in line order. -/
def syncNss (s : State) : List Namespace := sortBy nsLine0 (s.xlat.nss.filter fun n => sourceOf s n.sideB)

/-- Both modules enter SYNCING (R385 step 2). A module serves the sides it is the source of; a COVERING one has
the twin's side still to hand back. -/
def startSync (s : State) (peerA peerB : Nat) : State :=
  let covers := s.twin.st == .covering
  let s1 := (setTwin s .syncing).updTwin fun t =>
    { t with peerEpochA := peerA, peerEpochB := peerB, syncCursor := 0, keysSent := false, readySent := false, readySeen := false, llDone := false,
             released := false, handback := covers, mirror := [], takeoverAt := none, asked := 0 }
  let own := s.twin.side
  (s1.updTwin fun t => { t with served := (if sourceOf s1 own then [own] else []) ++ (if covers then [!own] else []) }).updXlat fun x =>
    { x with gather := x.gather.map fun g => { g with mirrored := false, freeAt := 0 } }

/-- Keys of the own side, then the namespace table of each side this module is the source of. -/
def sendTables (s : State) : State :=
  let own := s.sec.keyrecs.filter fun k => decide (0 < k.nsid) && sideOf s k.nsid == some s.twin.side
  let s1 := own.foldl (fun s k => sendKeyx s k.nsid k.epoch 0) s
  let s2 := ([false, true].filter (sourceOf s)).foldl (fun s b => sendPunty s 0x08 0 0 (bytesWords (nstabBytes s b)) []) s1
  s2.updTwin fun t => { t with keysSent := true }

/-- Granules of the other module's side whose slot lies on this side's octs go as GATHER (R385 step 4); the mirror
slot they name is a free value. -/
def sendForeign (s : State) (n : Namespace) (line cnt : Nat) : State :=
  if n.sideB == s.twin.side then s
  else (List.range (12 * cnt)).foldl (fun s i =>
    let gran := 12 * (line - nsLine0 n) + i
    let l := mapGet s (mapIdx n gran)
    match l with
    | .media psa =>
      if gran < n.cap ∧ octSideB s (dieOct (psaDie psa)) = s.twin.side then
        let (f, s1) := drawFree s
        sendGranule s1 n gran (f.toNat % gatherSlots) (((Assoc.get s.media.slots psa).map SlotRec.seq).getD 0) 0 l
      else s
    | _ => s) s

/-- Send up to `left` lines from the cursor; `fuel` bounds the runs. -/
def syncRuns : Nat → Nat → State → State
  | 0, _, s => s
  | fuel + 1, left, s =>
    match (syncNss s).find? fun n => decide (s.twin.syncCursor < nsLine0 n + nsLines n) with
    | none => s
    | some n =>
      let a := max s.twin.syncCursor (nsLine0 n)
      let k := min left (nsLine0 n + nsLines n - a)
      if k = 0 then s
      else
        let s1 := sendPunty s 0x07 a 0 ((List.range k).flatMap fun i => bytesWords (mapLine s (a + i))) []
        syncRuns fuel (left - k) ((sendForeign s1 n a k).updTwin fun t => { t with syncCursor := a + k })

/-- Whether every line has been sent. -/
def linesSent (s : State) : Bool := s.twin.keysSent && (syncNss s).all fun n => decide (nsLine0 n + nsLines n ≤ s.twin.syncCursor)

/-- One beat of a handback by the COVERING module (R389): the side is no longer served once its lines are sent,
drained, and released. -/
def handbackBeat (s : State) : State :=
  let other := !s.twin.side
  if !s.twin.handback || !linesSent s then s
  else
    let s1 := s.updTwin fun t => { t with served := t.served.filter (· != other) }
    if sideIdle s1 other then releaseSide s1 other else drainStripes s1 (gatherOf s1 other)

/-- The own gather slots not yet on media that the twin has not been sent (R385 step 6). -/
def sendWaiting (s : State) : State :=
  (s.xlat.gather.filter fun g => g.part == 0 && !g.mirrored && (g.mapped || g.atom) && sideOf s g.nsid == some s.twin.side).foldl (fun s g =>
    match getNs s g.nsid with
    | none => s
    | some n =>
      let key := if g.atom then ((getCtx s g.owner).map groupKey).getD 0 else 0
      noteSent (sendGranule s n g.gran g.slot g.seq key (.gather g.slot)) g.slot n.gslots) s

/-- READY once everything is sent and the own area fits (R385 steps 5 and 6). -/
def readyBeat (s : State) : State :=
  if s.twin.readySent || !linesSent s || s.twin.handback || !s.twin.served.contains s.twin.side || decide (armedNow s < armedUsed s) then s
  else (sendCtrl (sendWaiting s) 6).updTwin fun t => { t with readySent := true }

/-- PAIRED: both epochs at the higher value, the copy fresh (R385 step 7). -/
def pair (s : State) : State :=
  (setTwin s .paired).updTwin fun t =>
    { t with epochA := max t.epochA t.peerEpochA, epochB := max t.epochB t.peerEpochB, stale := false, served := [], wasDetached := false }

/-- One beat of a SYNCING module. -/
def syncBeat (s : State) : State :=
  if s.twin.readySent && s.twin.readySeen then pair s
  else
    let s1 := if s.twin.keysSent then s else sendTables s
    let s2 := handbackBeat (syncRuns (s1.xlat.nss.length + 1) (nvVal s 0x0B00000A) s1)
    let s3 := if !s2.twin.served.contains s.twin.side && s2.twin.released && grantsLive s2 s.twin.side then admitSide s2 s.twin.side else s2
    readyBeat s3

/-- What the twin logic does in a beat. -/
def twinBeat (s : State) : State :=
  if s.twin.hbStopped then s
  else
    let s1 := heartbeat s
    if !sided s1 then s1
    else match s1.twin.st with
    | .syncing => syncBeat s1
    | .detaching => detachBeat s1
    | .covering => coverBeat s1
    | .paired => match s1.day.pendReq with
      | some (t, _) => if t = .night ∨ t = .midnight then beginDetach s1 else s1
      | none => s1
    | _ => s1

end Sys2Proof.Machine
end

