-- ==== Sys2Proof/Machine/Fabric.lean ====
section
/-! DEFINITION. Opening a Cane session, and what replication does in every beat of the planner's cycle (R396, R399, R400). -/

namespace Sys2Proof.Machine

/-! ### Opening a session (R396) -/

/-- n free bytes, a multiple of 8. -/
def drawBytes (s : State) (n : Nat) : List Byte × State :=
  let (ws, s1) := drawWords s (n / 8)
  (ws.flatMap fun w => leBytes 8 w.toNat, s1)

/-- Whether this module can take part in a handshake: frames can leave and it has a certificate to present. -/
def canKex (s : State) : Bool := caneUp s && s.sec.certState == 1

/-- CANE_DOMAIN_ID. -/
def domainBytes (s : State) : List Byte := leBytes 8 (nvVal s 0x0C000003)

/-- The certificate as a handshake message carries it: its length, then itself. -/
def certPart (s : State) : List Byte := leBytes 4 (s.sec.cert.getD []).length ++ s.sec.cert.getD []

/-- Sessions that count against CANE_SESSION_MAX: not those that replace another, nor those replaced. -/
def liveSessions (s : State) : List Session := s.cane.sessions.filter fun x => x.phase != 3 && x.rekeyOf.isNone

/-- An idle session: established, nothing sent that is not acknowledged, no request of its peer running. -/
def Session.idle (x : Session) : Bool := x.phase == 2 && x.out.isEmpty && x.dedup.all fun d => d.rep.isSome

/-- Room for one more session, the least recently used idle one closed where they are as many as may be. -/
def sessionRoom (s : State) : Option State :=
  if (liveSessions s).length < nvVal s 0x0C00000E then some s
  else ((sortBy Session.lastUse ((liveSessions s).filter Session.idle)).head?).map fun x => closeSession s x.sid

/-- Enter a session under the next ID this module chooses; its ID. -/
def addSession (s : State) (x : Session) : Nat × State :=
  let sid := s.cane.nextSid
  (sid, s.updCane fun c =>
    { c with sessions := c.sessions ++ [{ x with sid := sid }], nextSid := if (sid + 1) % 2 ^ 32 = 0 then 1 else (sid + 1) % 2 ^ 32 })

/-- Begin a handshake with a node: nonce and key pair seed are free values; KX1 goes out. -/
def startKex (s : State) (node : Nat) (rekeyOf : Option Nat) : Nat × State :=
  let (nonce, s1) := drawBytes s 32
  let (seed, s2) := drawBytes s1 64
  let kx1 := nonce ++ domainBytes s ++ padTo 1184 (Config.kemPublic seed) ++ certPart s
  let (sid, s3) := addSession s2 { Session.init with node := node, initiator := true, seed := seed, kx1 := kx1, rekeyOf := rekeyOf, opened := s.beat, lastUse := s.beat, lastAck := s.beat }
  (sid, sendKex s3 sid 1 kx1)

/-- The session to a node: established, or in its handshake. -/
def sessionTo (s : State) (node : Nat) : Option Session :=
  match s.cane.sessions.find? fun x => x.node == node && x.phase == 2 with
  | some x => some x
  | none => s.cane.sessions.find? fun x => x.node == node && decide (x.phase < 2)

/-- The session to a node, opened where there is none; none where none can be opened. -/
def openTo (s : State) (node : Nat) : Option (Nat × State) :=
  match sessionTo s node with
  | some x => some (x.sid, s)
  | none => if !canKex s then none else (sessionRoom s).map fun s1 => startKex s1 node none

/-! ### Replication settings (R399) -/

/-- CANE_REPL_n. -/
def replVal (s : State) (n : Nat) : Nat := nvVal s (0x0C00001C + n)
/-- The peer node it names. -/
def replNode (s : State) (n : Nat) : Nat := bits (replVal s n) 21 8
/-- The peer namespace it names. -/
def replPeer (s : State) (n : Nat) : Nat := bits (replVal s n) 33 22
/-- This module is the source of a namespace. -/
def replSource (s : State) (n : Nat) : Bool := bit (replVal s n) 0 && !bit (replVal s n) 1
/-- This module holds the replica of a namespace. -/
def replReplica (s : State) (n : Nat) : Bool := bit (replVal s n) 0 && bit (replVal s n) 1

/-- Change the replication record of a namespace. -/
def modRepl (s : State) (n : Nat) (f : ReplState → ReplState) : State :=
  s.updCane fun c => { c with repl := updIf (fun r => r.nsid == n) f c.repl }

/-- The replication record of a namespace. -/
def getRepl (s : State) (n : Nat) : Option ReplState := s.cane.repl.find? fun r => r.nsid == n

/-- A record that is connecting. -/
def ReplState.start (n : Nat) : ReplState :=
  { nsid := n, mode := 1, greeted := false, ops := [], cursor := 0, mark := 0, told := 0, pseq := 0, lastMsg := (0, 0), cut := none }

/-- Replication records of every namespace whose setting sets EN, connecting: after a Dawn each starts anew. -/
def replStart (s : State) : State :=
  s.updCane fun c => { c with repl := (s.xlat.nss.filter fun n => bit (replVal s n.nsid) 0).map fun n => ReplState.start n.nsid }

/-! ### The source's messages (R399 steps 1 to 3, R400) -/

/-- Send a REPL message: the peer's namespace, this side's granule size and capacity, the SEQ, baseline, group and
cutover flags, the operations. -/
def replSend (s : State) (sid : Nat) (ns : Namespace) (base atom cut : Bool) (seq : Nat) (ops : List (Nat × Nat × List Byte)) : State :=
  caneSend s sid 0x20 0 (Config.replMessage [replPeer s ns.nsid, b2n ns.g16k, ns.cap, seq, b2n base, b2n atom, b2n cut] ops) none

/-- What an operation carries: its granule's data from the gather slot kept for it, or the run it unmaps. -/
def opData (s : State) (ns : Namespace) (o : ReplOp) : Nat × Nat × List Byte :=
  match o.slot with
  | some k => (o.gran, 1, Mem.readN (locBytes s ns.gslots (.gather k)) 0 ns.granule)
  | none => (o.gran, o.count, [])

/-- What a frame takes beside its body on the link that frames leave by (R392). -/
def frameExtra (s : State) : Nat := frameOver s (if canePort s 0 then 0 else 1)

/-- Bytes that operations take on the fabric. -/
def opsCost (s : State) (ns : Namespace) (os : List ReplOp) : Nat := sum (os.map fun o => if o.slot.isSome then ns.granule + frameExtra s else frameExtra s)

/-- Send operations in rising SEQ while room is left, a group whole; `fuel` bounds the messages. -/
def replOps : Nat → State → Nat → Namespace → Nat → State × Nat
  | 0, s, _, _, left => (s, left)
  | fuel + 1, s, sid, ns, left =>
    match (getRepl s ns.nsid).bind fun r => r.ops.find? fun o => !o.sent with
    | none => (s, left)
    | some o =>
      let all := ((getRepl s ns.nsid).map ReplState.ops).getD []
      let os := if o.grp = 0 then [o] else all.filter fun k => k.grp == o.grp
      if left < opsCost s ns os then (s, left)
      else
        let seq := (os.map ReplOp.seq).foldl max 0
        let s1 := replSend s sid ns false (o.grp != 0) false seq (os.map (opData s ns))
        let s2 := modRepl s1 ns.nsid fun r => { r with ops := updIf (fun k => os.contains k) (fun k => { k with sent := true }) r.ops }
        replOps fuel s2 sid ns (left - opsCost s ns os)

/-- The run of unmapped granules from g on. -/
def unmappedRun (s : State) (ns : Namespace) : Nat → Nat → Nat
  | 0, _ => 0
  | fuel + 1, g => if g < ns.cap ∧ mapGet s (mapIdx ns g) = .unmapped then 1 + unmappedRun s ns fuel (g + 1) else 0

/-- SEQ of the data at a place. -/
def locSeq (s : State) (l : Loc) : Nat :=
  match l with
  | .media psa => ((Assoc.get s.media.slots psa).map SlotRec.seq).getD 0
  | .gather g => ((s.xlat.gather.find? fun y => y.slot == g).map GatherSlot.seq).getD 0
  | .unmapped => 0

/-- Book the read of the data at a place in host-share room that nothing claims, where it is on media; none where none is left
(R399 step 3). -/
def planBase (s : State) (ns : Namespace) (l : Loc) : Option State :=
  match l with
  | .media psa => (planSlot s psa ns.gslots .host (s.beat + 1) (s.beat + 8191) (s.beat + 8191) 0).map Prod.snd
  | _ => some s

/-- Send the baseline from the cursor while room is left; a run of unmapped granules goes as one operation. -/
def replBase : Nat → State → Nat → Namespace → Nat → State
  | 0, s, _, _, _ => s
  | fuel + 1, s, sid, ns, left =>
    match getRepl s ns.nsid with
    | none => s
    | some r =>
      if r.mode ≠ 2 then s
      else if ns.cap ≤ r.cursor then modRepl s ns.nsid fun r => { r with mode := 3 }
      else
        let g := r.cursor
        let l := mapGet s (mapIdx ns g)
        let k := if l = .unmapped then max 1 (unmappedRun s ns 4096 g) else 1
        let cost := frameExtra s + (if l = .unmapped then 0 else ns.granule)
        if left < cost then s
        else match planBase s ns l with
        | none => s
        | some s0 =>
          let op := if l = .unmapped then (g, k, []) else (g, 1, Mem.readN (locBytes s ns.gslots l) 0 ns.granule)
          let s1 := replSend s0 sid ns true false false (locSeq s l) [op]
          replBase fuel (modRepl s1 ns.nsid fun r => { r with cursor := g + k }) sid ns (left - cost)

/-- A new baseline; the slots kept for the old one are freed. -/
def rebase (s : State) (n : Nat) : State := sweepGather (modRepl s n fun r => { r with mode := 2, cursor := 0, ops := [], cut := none })

/-- The last SEQ taken. -/
def lastSeq (s : State) : Nat := s.xlat.seq - seqStep s

/-- Everything before a cutover has run and is acknowledged (R400 steps 1 and 2). -/
def cutDue (s : State) (r : ReplState) : Bool :=
  bit (replVal s r.nsid) 2 && r.mode == 3 && r.ops.isEmpty && r.cut.isNone && !(s.ctxs.any fun x => x.mod && x.entry.nsid.toNat == r.nsid)

/-- Bytes of the fabric a beat offers: 200,000 on each link that is up (R392). -/
def caneRoom (s : State) : Nat := 200000 * (b2n (canePort s 0) + b2n (canePort s 1))

/-- One beat of a source. -/
def replBeatSource (s : State) (r : ReplState) (ns : Namespace) : State :=
  let past := decide (nvVal s 0x0C000017 < sum (r.ops.map ReplOp.count))
  let s0 := if past && (r.mode == 2 || r.mode == 3) then rebase s r.nsid else s
  if r.mode = 0 ∨ 4 ≤ r.mode ∨ ns.deleting ∨ ns.creating.isSome then s
  else match openTo s0 (replNode s r.nsid) with
    | none => s0
    | some (sid, s1) =>
      match getSession s1 sid with
      | none => s1
      | some x =>
        if x.phase ≠ 2 then s1
        else if r.mode = 1 then
          if r.greeted then s1 else modRepl (replSend s1 sid ns true false false 0 []) r.nsid fun r => { r with greeted := true }
        else if x.credit = 0 then s1
        else
          let (s2, left) := replOps 256 s1 sid ns (caneRoom s)
          let s3 := replBase 256 s2 sid ns left
          if cutDue s3 r then modRepl (replSend s3 sid ns false false true (lastSeq s3) []) r.nsid fun r => { r with cut := some (lastSeq s3) } else s3

/-! ### The replica's acknowledgement (R399 step 4) -/

/-- Owner of the gather slots that hold what replication writes: no context has it. -/
def replOwner : Nat := 65536

/-- Everything a replica has applied is durable: verified where written through, acknowledged by the twin, in journal
slots where the module runs journal-through. -/
def replDurable (s : State) (r : ReplState) : Bool :=
  !(s.xlat.gather.any fun g => g.through && g.owner == replOwner && g.nsid == r.nsid) &&
  (!mirroring s || decide (r.pseq ≤ s.twin.ackedPseq)) && (!s.power.jthrough || journaled s)

/-- REPL_ACK for the source's namespace up to the mark. -/
def replAck (s : State) (r : ReplState) (x : Session) : State :=
  modRepl (caneFrame s x.sid 0x21 0 0 (leBytes 2 (replPeer s r.nsid) ++ leBytes 6 0 ++ leBytes 8 r.mark)) r.nsid fun r => { r with told := r.mark, greeted := true }

/-- The replica is cut over: it clears REPLICA and admits writes (R400 step 2). -/
def cutOver (s : State) (n : Nat) : State :=
  let v := BitVec.ofNat 64 (replVal s n - 2)
  let id := 0x0C00001C + n
  modRepl (storeNv (settingAppend s id v) id v) n fun r => { r with mode := 4, cut := none }

/-- One beat of a replica. -/
def replBeatReplica (s : State) (r : ReplState) : State :=
  match sessionTo s (replNode s r.nsid) with
  | none => s
  | some x =>
    if x.phase == 2 && (decide (r.told < r.mark) || r.cut.isSome || (!r.greeted && decide (2 ≤ r.mode))) && replDurable s r then
      if r.cut.isSome then cutOver (replAck s r x) r.nsid else replAck s r x
    else s

/-- What replication does in a beat. -/
def replBeat (s : State) : State :=
  if !caneUp s then s
  else s.cane.repl.foldl (fun s r =>
    match getNs s r.nsid with
    | none => s
    | some ns => if !serves s ns.sideB then s else if replSource s r.nsid then replBeatSource s r ns else replBeatReplica s r) s

end Sys2Proof.Machine
end

