-- ==== Sys2Proof/Machine/Power.lean ====
section
/-! DEFINITION. Power entry: feeds, the bank's measured energy and arming, the in-service test, loss and Last
Light (R403 to R423). -/

namespace Sys2Proof.Machine

/-! ### Energy and arming (R410, R412 to R414) -/

/-- A half's term of R410 in µF mV²; a faulty half and one below 32 V count as zero. -/
def halfTerm (h : Half) : Nat := if h.faulty || decide (h.mv < 32000) then 0 else h.capUf * (h.mv * h.mv - 32000 * 32000)

/-- E in whole mJ (R410). -/
def energyNow (s : State) : Nat := (halfTerm (vget s.power.halves 0 Half.init) + halfTerm (vget s.power.halves 1 Half.init)) / (2 * 10 ^ 9)

/-- The floor term of k in R412: 229.6875 mJ are 3,675/16. -/
def energySteps (n e : Nat) : Nat := if e < 2150 then 0 else if 8 ≤ n then (e - 2150) * 16 / 3675 else (e - 2150) * 2 * n / 3675

/-- k of R412. -/
def armSteps (n e limit : Nat) : Nat := min 32 (min (4 * n) (min (limit / 2 ^ 26) (energySteps n e)))

/-- Whether either half has passed a test since the last Dawn. -/
def testPassed (s : State) : Bool := (vget s.power.halves 0 Half.init).passed || (vget s.power.halves 1 Half.init).passed

/-- G of R412 for n counted octs and energy e. -/
def armTarget (s : State) (n e : Nat) : Nat :=
  if n < 4 ∨ !s.power.charging ∨ !testPassed s ∨ !(s.day.day = .noon ∨ s.day.day = .dusk) then 0
  else armSteps n e (nvVal s 0x0D000015) * 2 ^ 26

/-- Compute E, n, G and journal-through anew; a change of G sets GEVENT.ARM. A decrease holds at once, an increase only where `up`
says that a beat begins (R414). -/
def rearmBy (s : State) (up : Bool) : State :=
  let e := energyNow s
  let n := (countedOcts s).length
  let g := if up then armTarget s n e else min s.power.armed (armTarget s n e)
  eventIf (decide (g ≠ s.power.armed)) (s.updPower fun p => { p with energy := e, armOcts := n, armed := g, jthrough := decide (e < 2150 ∨ n < 4) })
    4 0xFF

/-- The same, where a beat begins. -/
def rearm (s : State) : State := rearmBy s true

/-- A decrease of G holds for the admissions of this beat, unless a stop has begun (R414). -/
def armLowers (s : State) : State := if s.power.llAt.isSome || s.therm.hotAt.isSome || s.power.lost then s else rearmBy s false

/-! ### Feeds (R403 to R407) -/

/-- A feed. -/
def getFeed (s : State) (f : Nat) : Feed := vget s.power.feeds f Feed.init

/-- Change a feed. -/
def modFeed (s : State) (f : Nat) (g : Feed → Feed) : State :=
  s.updPower fun p => { p with feeds := vset p.feeds f (g (vget p.feeds f Feed.init)) }

/-- FEED_GOOD: a feed rises above 35.0 V: its 100 ms count from now. -/
def execFeedGood (f : Nat) (mv : Int) (s : State) : Host.Outcome State Fault Refusal :=
  .next (let k := getFeed s f
    if 2 ≤ f ∨ mv ≤ 35000 ∨ 78000 < mv ∨ k.good ∨ k.lockout then s
    else modFeed s f fun k => { k with mv := mv, good := true, reversed := false, goodAt := s.beat })

/-- The always-on domain powers up: BEAT counts from 0, then Dawn (R407, R20). -/
def powerUp (s : State) : State :=
  startDawn ((({ s with beat := 0, beatFrac := 0 } : State).updPower fun p =>
    { p with aonPowered := true, feeds := p.feeds.map fun k => { k with goodAt := 0 } }).updDay fun d => { d with stepFrom := 0 })

/-- FEED_CONDUCT: a feed good for 100 ms starts conducting. It powers the module up, or ends the darkness
after Last Light; a running module takes no other action. After a controller hot stop it restarts nothing (R454). -/
def execFeedConduct (f : Nat) (s : State) : Host.Outcome State Fault Refusal :=
  .next (let k := getFeed s f
    if 2 ≤ f ∨ !k.good ∨ k.conduct ∨ k.breaker ∨ (s.power.aonPowered ∧ s.beat < k.goodAt + 25000) then s
    else
      let s1 := modFeed s f fun k => { k with conduct := true }
      if !s1.power.aonPowered then powerUp s1
      else if !s1.power.lost || s1.sec.tamperAt.isSome then s1
      else if hotStopped s1 then s1.updPower fun p => { p with lost := false }
      else startDawn (noteWake s1 6))

/-- A feed at a voltage that is not a trip: overvoltage lockout above 78.0 V, good no longer below 34.0 V, the
breaker closed again below 20 V, absent in reverse. -/
def Feed.drop (k : Feed) (mv : Int) : Feed :=
  let above := decide (78000 < mv)
  let low := decide (mv < 34000)
  { k with mv := mv, lockout := k.lockout || above, good := k.good && !above && !low, conduct := k.conduct && !above && !low
           breaker := k.breaker && decide (20000 ≤ mv), reversed := decide (mv < 0), drops := if k.good && (above || low) then satAdd32 k.drops 1 else k.drops }

/-- FEED_DROP: a feed fails, locks out, or trips its breaker. -/
def execFeedDrop (f : Nat) (mv : Int) (breaker : Bool) (s : State) : Host.Outcome State Fault Refusal :=
  .next (if 2 ≤ f then s
    else if breaker then modFeed s f fun k =>
      { k with mv := mv, breaker := true, conduct := false, drops := if k.breaker then k.drops else satAdd32 k.drops 1 }
    else modFeed s f fun k => k.drop mv)

/-- OVERVOLTAGE_LOCKOUT_RELEASE: below 76.0 V the input switch closes again. -/
def execOvervoltageLockoutRelease (f : Nat) (mv : Int) (s : State) : Host.Outcome State Fault Refusal :=
  .next (let k := getFeed s f
    if 2 ≤ f ∨ !k.lockout ∨ 76000 ≤ mv then s
    else modFeed s f fun k =>
      { k with mv := mv, lockout := false, good := decide (35000 < mv), goodAt := s.beat, conduct := decide (35000 < mv) && !k.breaker })

/-! ### The in-service test (R415, R416) -/

/-- Whether a test is due: at Dawn, on request, by period, or as the bank's temperature has moved 20 °C. -/
def testDue (s : State) (h : Nat) : Bool :=
  decide (0 < s.power.dawnTests) || s.power.testWant || decide (s.power.lastTest + nvVal s 0x0D00000F ≤ s.beat) ||
  decide (320 ≤ (vget s.therm.reading 17 0 - (vget s.power.halves h Half.init).testT).natAbs)

/-- PWR_TEST_START: the half not tested last, with the charger allowed and the bank charged. -/
def execPwrTestStart (h : Nat) (s : State) : Host.Outcome State Fault Refusal :=
  .next (let full := fun i => decide (nvVal s 0x0D000006 ≤ (vget s.power.halves i Half.init).mv + 500)
    if s.power.testing ≠ 0 ∨ !s.power.aonPowered ∨ s.power.lost ∨ s.power.llAt.isSome ∨ h + s.power.lastHalf ≠ 1 ∨
        !s.power.charging ∨ !full 0 ∨ !full 1 ∨ !testDue s h then s
    else s.updPower fun p => { p with testing := h + 1, sink := true, testMoved := true, aborted := false })

/-- PWR_TEST_SINK_END: the sink is removed; the capacitance, the ESR and whether the voltage moved are measured. -/
def execPwrTestSinkEnd (capUf esr : Nat) (moved : Bool) (s : State) : Host.Outcome State Fault Refusal :=
  .next (if s.power.testing = 0 ∨ !s.power.sink then s
    else s.updPower fun p => { p with sink := false, testCap := capBits 13 capUf, testEsr := capBits 12 esr, testMoved := moved })

/-- PWR_TEST_DONE: the results are stored, the half judged, E and G computed anew. -/
def execPwrTestDone (s : State) : Host.Outcome State Fault Refusal :=
  .next (let p := s.power
    if p.testing = 0 ∨ p.sink then s
    else
      let h := p.testing - 1
      let fail := decide (p.testCap < nvVal s 0x0D00000D) || decide (nvVal s 0x0D00000E < p.testEsr) || !p.testMoved
      let half := vget p.halves h Half.init
      let half' : Half := { half with capUf := p.testCap, esr := p.testEsr, faulty := fail, passed := half.passed || !fail, testT := vget s.therm.reading 17 0 }
      rearmBy (s.updPower fun p =>
        { p with halves := vset p.halves h half', testFails := satAdd p.testFails (b2n fail), lastTest := s.beat, lastHalf := h, testing := 0,
                 testWant := false, dawnTests := p.dawnTests - 1 }) false)

/-- PWR_TEST_NOW: SET, it acts from the next beat (R424). -/
def execPwrTestNow (c : Nat) (s : State) : Host.Outcome State Fault Refusal :=
  .next (match waitsSet s c 0x0D000010 1 with
    | none => s
    | some (_, _, v) => setDone (storeDue s 0x0D000010 (v ||| (Assoc.get s.due 0x0D000010).getD 0)) c St.ok 0)

/-! ### Loss and Last Light (R406, R417 to R423) -/

/-- A feed counts as below 33.0 V. -/
def Feed.below (k : Feed) : Bool := k.lockout || decide (k.mv < 33000)

/-- A memory test on request stops; MEM_TEST_STATE is idle; an accumulator under test stays out of use (R473; DEDUCED, log entry 25). -/
def stopTest (s : State) : State := s.updMem fun m => { m with testState := if m.testState = 1 then 0 else m.testState }

/-- LOSS_DECLARED: the test's sink goes, service stops at once, Last Light takes over any flush. In Midnight and
after a controller hot stop there is nothing to write. -/
def execLossDeclared (s : State) : Host.Outcome State Fault Refusal :=
  .next (if !(getFeed s 0).below || !(getFeed s 1).below || !s.power.aonPowered || s.power.llAt.isSome || s.power.lost then s
    else
      let s1 := s.updPower fun p =>
        { p with testing := 0, sink := false, aborted := p.aborted || p.testing != 0, feeds := p.feeds.map fun k => { k with conduct := false } }
      if hotStopped s ∨ (s.day.day = .midnight ∧ s.day.sealed.isNone) then s1.updPower fun p => { p with lost := true }
      else
        let s2 := (freeze (stopTest s1)).updPower fun p => { p with llAt := some s.beat, llG := p.armed, llPaired := s.twin.st == .paired }
        ((s2.updPlan fun p => { p with resetFlush := false }).updTherm fun t => { t with hotAt := none }).updDay fun d =>
          { d with sealed := none, entryStep := 0, waking := false, wakePend := none })

/-- The value of PWR_LL_LAST: completed, paired, mirror written, n, G in MiB, beats from L to logic dark, the
bank voltage at the end in 10 mV. -/
def llRecord (s : State) (at_ n : Nat) (mirror : Bool) : BitVec 64 :=
  BitVec.ofNat 64 (1 + b2n s.power.llPaired * 2 + b2n mirror * 4 + capBits 8 n * 2 ^ 8 + capBits 16 (s.power.llG / 2 ^ 20) * 2 ^ 16 +
    capBits 16 (s.beat - at_) * 2 ^ 32 + capBits 16 (bankMv s / 10) * 2 ^ 48)

/-- LAST_LIGHT_FLUSHED: what the flush wrote is verified; the record is programmed, and every domain but the
always-on one goes dark. A feed that conducts already starts the module again. -/
def execLastLightFlushed (s : State) : Host.Outcome State Fault Refusal :=
  .next (match s.power.llAt with
    | none => s
    | some at_ =>
      let mirror := s.power.llPaired && !s.twin.llDone && decide (0 < s.power.llG)
      let n := (countedOcts s).length
      let s1 := flushAll s (decide (0 < s.power.llG)) mirror
      let s2 := if s.power.llPaired then sendCtrl s1 7 else s1
      let v := llRecord s2 at_ n mirror
      let s3 := norPut s2 0x03 0 (leBytes 8 v.toNat ++ leBytes 6 at_)
      let s4 := (wipe s3).updPower fun p => { p with llAt := none, lost := true, llCount := satAdd32 p.llCount 1, llLast := v, llMirror := mirror }
      if (getFeed s4 0).conduct || (getFeed s4 1).conduct then startDawn (noteWake s4 6) else s4)

/-- AON_POWER_LOSS: with no feed conducting the always-on domain loses power; what is not kept in fuses, flash
or boot flash goes, and BEAT restarts from zero at the next power-up (R20). -/
def execAonPowerLoss (s : State) : Host.Outcome State Fault Refusal :=
  .next (if !s.power.aonPowered || (getFeed s 0).conduct || (getFeed s 1).conduct then s
    else
      let s1 := wipe s
      { s1 with
        beat := 0, beatFrac := 0
        links := s1.links.map fun l => { HostLink.init with perst := l.perst, mode2x8 := l.mode2x8 }
        power := { Power.init with feeds := s1.power.feeds.map fun k => { k with drops := 0, goodAt := 0 }
                                   halves := s1.power.halves.map fun h => { h with passed := false }
                                   llCount := s1.power.llCount, llLast := s1.power.llLast, llBands := s1.power.llBands, aonPowered := false }
        day := { Day.init with day := s1.day.day, hostOn := false }
        therm := { Therm.init with reading := s1.therm.reading, hotStops := s1.therm.hotStops }
        flash := { s1.flash with octs := s1.flash.octs.map fun o => { o with darkSince := 0, hotHold := none, leaseAt := 0 } }
        sec := { s1.sec with tamperAt := none, tamperCauses := [] }
        nor := { s1.nor with wdtExpiries := 0, busyFaults := 0, progRefused := 0, eraseSuspends := 0, switchBeat := 0 }
        side := { Side.init with slotId := s1.side.slotId } })

end Sys2Proof.Machine
end

