-- ==== Sys2Proof/Machine/Plan.lean ====
section
/-! DEFINITION. The admission planner: the context of a command, the decision of an entry, held entries, the
order across rings, the beat cycle, fetched data (R31 to R36, R40 to R44, R62 to R70, R88, R112, R116, R121). -/

namespace Sys2Proof.Machine

/-! ### The context of a command (R43, R116, R121, R124, R127, R134) -/

/-- Bytes the resident parison of a data op reserves: full 4 MiB buffers and the rest rounded up (DESIGN CHOICE, log entry 28:
R127 does not say how many buffers of which sizes it uses). -/
def residentSlab (n : Nat) : Nat :=
  let rest := n % 4194304
  n / 4194304 * 4194304 + if rest = 0 then 0 else 2 ^ (((lowest (fun k => decide (rest ≤ 2 ^ k)) 12 11).getD 22))

/-- The slab reservation of a command. -/
def slabOf (s : State) (d : EntryData) : Nat :=
  let e := d.entry
  if e.isRd || e.isDir 2 || e.isDir 4 || e.isDir 5 then residentSlab (e.length.toNat * entryGran s e)
  else if e.isAdm 0x8C then 1048576
  else match codeNamed s d with
    | some c => 1024 * c.slabkib
    | none => 0

/-- DMODE of a command: of its program, or of its direct op. -/
def dmodeOf (s : State) (d : EntryData) : BitVec 8 :=
  if d.entry.isRd then 1 else if d.entry.isMod then 2
  else match codeNamed s d with
    | some c => BitVec.ofNat 8 c.dmode
    | none => 0

/-- The start registers of R121. -/
def startRegs (e : Entry) : Vector (BitVec 64) 16 :=
  let g := fun i => match i with
    | 1 => e.lba
    | 2 => e.length.setWidth 64
    | 3 => (e.flags ++ e.nsid).setWidth 64
    | 4 => e.a0
    | 5 => e.a1
    | 6 => e.a2
    | _ => 0
  Vector.ofFn fun i => g i.val

/-- The deadline of an entry; none for D7 (R32, R110, R388, R433). -/
def deadlineOf (s : State) (o : Origin) (d : EntryData) : Option Nat :=
  let e := d.entry
  let mib := ((codeNamed s d).map fun c => declMib s c e).getD 0
  let base := s.beat + classBound e.cls.toNat mib
  let after := fun (p : Ctx → Bool) => ((s.ctxs.filter fun x => !x.dOpen && p x).map Ctx.dline).foldl max base
  if e.cls = 7 then none
  else if e.isAdm 0x82 then
    match getLocal s (targetFn o.fn e) (selLocal e) with
    | some r => some (after fun x => x.ringOf == some r.g)
    | none => some base
  else if e.isAdm 0x93 ∨ (e.isAdm 0x92 ∧ (e.a0 = 2 ∨ e.a0 = 3)) then some (after fun _ => true)
  else some base

/-- The context a command would get, before its bookings: number, POST and reads are filled in at admission. -/
def newCtx (s : State) (o : Origin) (d : EntryData) : Ctx :=
  let e := d.entry
  let k := codeNamed s d
  let dm := dmodeOf s d
  let dl := deadlineOf s o d
  let num := fun (f : Code → Nat) => (k.map f).getD 0
  { c := 0, adm := s.plan.admSeq, src := o.src, fn := o.fn, admin := o.admin, entry := e, segs := d.segs,
    code := if e.typ = 3 then d.code else none, regs := startRegs e, preds := Vector.replicate 4 false,
    hnd := Vector.replicate 8 none, pc := 0, prog := if e.typ = 2 then e.prog.toNat else 0x1000, stack := [],
    budget := num fun c => bookedBudget s c e, issued := 0, rdLeft := num fun c => rdDecl c e, wrLeft := num fun c => wrDecl c e,
    slabLeft := num fun c => c.slabkib, strLeft := num fun c => c.strkib, hostLeft := o.desc d, slabRes := slabOf s d,
    codePages := codePagesOf e, dmode := dm, mod := dm.getLsbD 1, admBeat := s.beat, dline := dl.getD (farEnd s - 1),
    dOpen := dl.isNone, postBeat := 0, eventBeat := 0, commitBeat := none, wait := .resident, word := 0, reads := [], wtGrans := [],
    writeThrough := false, sticky := Sticky.none, atom := [], ownSlots := [], mirrorWait := [],
    pins := match k with
      | none => []
      | some c => (if e.typ = 2 then [e.prog.toNat] else []) ++ (match reached s e c with
        | .inl _ => []
        | .inr l => l.filter fun p => !(e.typ == 2 && p == e.prog.toNat)),
    status := 0, detail := 0, result := 0, withheld := false, stopping := false, hostWrites := 0, counted := o.repCap, snap := 0,
    aux := [], data := o.body, reply := [], sentAt := s.twin.txPseq - 1 }

/-! ### Bookings of an admin op -/

/-- Whether an admin op reads or writes its descriptor space. -/
def admMoves (e : Entry) : Bool × Bool :=
  (e.isAdm 0x8A || e.isAdm 0x8C || e.isAdm 0x8E || e.isAdm 0x8F, e.isAdm 0x8E || e.isAdm 0x95)

/-- Whether an admin op stages journal records (R451). -/
def admJournals (e : Entry) : Bool := e.isAdm 0x88 || e.isAdm 0x89 || e.isAdm 0x90

/-- The trial of an admin op: host bytes, journal, and its POST: the next beat for the ops that end at once,
its deadline for the others (R105). -/
def tryAdmin (s : State) (x : Ctx) (n : Nat) : Option Trial :=
  let e := x.entry
  let f := ordFloor s x
  let quick := e.isAdm 0x80 || e.isAdm 0x81 || e.isAdm 0x83 || e.isAdm 0x86
  let d := x.dline
  let host := match (if (admMoves e).1 then bookIn s x (f + 1) (d - 1) n else some ([f], s)) with
    | none => none
    | some (_, s1) => if (admMoves e).2 then bookOut s1 x (f + 1) (d - 1) n else some ([f], s1)
  match host with
  | none => none
  | some (_, s1) =>
    match (if admJournals e then (bookRecords s1 x 1 (f + 1)).bind fun s2 => bookJournal s2 x f d else some (f, s1)) with
    | none => none
    | some (j, s2) =>
      let post := if quick then f + 1 else if x.dOpen then max j (s.beat + 25000) else d
      if d < post then none else some (Trial.plain s2 post d (some s.beat))

/-! ### The decision of an entry that passes its checks (R42, R52, R57, R62) -/

/-- Granules an entry writes with data. -/
def writeGrans (x : Ctx) : Nat :=
  if x.entry.isDir 2 then x.entry.length.toNat else if x.entry.isProg && dWrites x then x.wrLeft else 0

/-- The journal records of a command; one that stages more than PWR_JOURNAL_LIMIT holds counts as all of it, since they are staged over the
beats it runs for (DESIGN CHOICE, log entry 28: R210 speaks of the beats that need them, R413 of the limit). -/
def recordsOf (x : Ctx) : Nat := min (writeGrans x + 2) 65536

/-- The trial of a WRITE or a program on a namespace, write-through or not, with its armed room free from a beat on. -/
def tryWriting (s : State) (x : Ctx) (ns : Namespace) (through : Bool) (from_ : Nat) : Option Trial :=
  if x.entry.isProg then tryProgram s x (some ns) through from_ else tryWrite s x ns through from_

/-- The trial of a write in the armed portion: with armed room now, else with armed room as the drain frees it (R52). -/
def tryArmed (s : State) (x : Ctx) (ns : Namespace) : Option Trial :=
  let need := writeGrans x * ns.granule
  if need ≤ armedFree s then tryWriting s x ns false s.beat
  else if armedNow s = 0 then none
  else (armedFrom s need).bind (tryWriting s x ns false)

/-- Whether the slots of a write find room in a profile (R272). -/
def profileRoom (s : State) (x : Ctx) (ns : Namespace) (p : Nat) : Bool := roomForSlots s p (writeGrans x * ns.gslots)

/-- The trial of a command with the write-through decision of R52: in the armed portion, else write-through, where the slots find
room in profile 3 (R272). -/
def tryEntry (s : State) (x : Ctx) (n : Nat) : Option Trial :=
  let e := x.entry
  match getNs s e.nsid.toNat with
  | none =>
    if e.typ = 4 then tryAdmin s x n
    else if e.isProg then tryProgram s x none false s.beat else none
  | some ns =>
    if e.typ = 4 then tryAdmin s x n
    else if e.isRd then tryReads s x ns
    else if e.isDir 3 then tryFlush s x
    else if e.isDir 4 || e.isDir 5 then tryUnmap s x
    else if writeGrans x = 0 then tryWriting s x ns false s.beat
    else match tryArmed s x ns with
      | some t => some t
      | none => if writeGrans x * ns.granule ≤ armedFree s || !profileRoom s x ns 3 then none else tryWriting s x ns true s.beat

/-- The profile whose bands a WRITE's slots go to: profile 3 for a write that can only run write-through, else its namespace's. A D1
write never runs write-through (R52, R62). -/
def writeProfile (s : State) (x : Ctx) (ns : Namespace) : Nat := if armedNow s = 0 ∧ x.entry.cls ≠ 1 then 3 else nsProfile s ns.nsid

/-- Free space in a profile that reclaim cannot provide (R273). -/
def unreclaimed (s : State) (x : Ctx) (ns : Namespace) (p : Nat) : Bool := !profileRoom s x ns p && !reclaimable s

/-- Whether a lack of space in a profile meets a write: in the profile that it goes to; or in profile 3, where the write finds no armed room
in time and would have to run write-through (R52). -/
def lacksSpace (s : State) (x : Ctx) (ns : Namespace) (lacks : Nat → Bool) : Bool :=
  decide (0 < writeGrans x) &&
  (lacks (writeProfile s x ns) ||
   (decide (x.entry.cls ≠ 1) && decide (armedFree s < writeGrans x * ns.granule) && lacks 3 && (tryArmed s x ns).isNone))

/-- The first cause of R62: free space that reclaim cannot provide, or a profile no band can open in (R256, R273). -/
def noSpace (s : State) (x : Ctx) (ns : Namespace) : Bool :=
  lacksSpace s x ns fun p => unreclaimed s x ns p || !profileOpens s p ns.sideB

/-- The command stages journal records (R451). -/
def journals (x : Ctx) : Bool := x.entry.isMod || (x.entry.isProg && dWrites x) || admJournals x.entry

/-- The UNARMED row of R62. -/
def unarmed (s : State) (x : Ctx) (ns : Namespace) : Bool :=
  x.entry.cls == 1 &&
  ((decide (0 < writeGrans x) && (s.power.jthrough || armedNow s == 0 || decide (armedFree s < writeGrans x * ns.granule))) ||
   ((x.entry.isDir 4 || x.entry.isDir 5) && s.power.jthrough))

/-- Whether an entry touches a suspect line (R200). -/
def onSuspect (s : State) (x : Ctx) : Bool :=
  match getNs s x.entry.nsid.toNat with
  | none => false
  | some n =>
    let line := fun (l : Nat) => mapIdx n l / 12
    (x.entry.isProg || x.entry.typ == 1) && !x.entry.isDir 3 &&
    s.xlat.suspect.any fun l => decide (line x.entry.lba.toNat ≤ l) && decide (l ≤ line (x.entry.lba.toNat + x.entry.length.toNat - 1))

/-- Records that admitted commands have still to stage: a MAP record of each granule in the gather buffer, and what contexts have not
entered yet (R210). -/
def toStage (s : State) : Nat :=
  (s.xlat.gather.filter fun g => g.part == 0 && (g.mapped || g.atom)).length +
  sum ((s.ctxs.filter journals).map fun y => recordsOf y - y.ownSlots.length)

/-- Room that is not booked on beats: a context, slab, code pages, staging, space in the erased pool, a ring
for a RING_CREATE (R43, R85, R116, R124, R135, R210, R272). -/
def roomNow (s : State) (x : Ctx) (fn : Nat) : Bool :=
  decide (s.ctxs.length < 65536) && decide (x.slabRes ≤ slabFree s) && decide (x.codePages ≤ s.zci.codeFree) &&
  (!journals x || decide (stagingBytes s + 32 * (toStage s + recordsOf x) ≤ 2097152)) &&
  (match getNs s x.entry.nsid.toNat with
    | some ns => writeGrans x == 0 || profileRoom s x ns (writeProfile s x ns)
    | none => true) &&
  (!x.entry.isAdm 0x80 || !ringFull s fn x.entry)

/-- The state without energy bookings, at throttle step 0: what fits there and not here lacks energy only. -/
def noEnergy (s : State) : State :=
  (s.updPlan fun p => { p with near := p.near.filter fun b => b.res != .energy, far := p.far.filter fun b => b.res != .energy }).updTherm
    fun t => { t with step := 0 }

/-- A decision: admitted with its context and bookings, or a cause of R62. -/
inductive Verdict where
  | take (t : Trial) (x : Ctx)
  | cause (st : BitVec 16)

/-- The last beat that a command books, its drain with it. -/
def lastBooked (s : State) (adm b : Nat) : Nat :=
  let mine := fun (o : Nat) => o == adm || o == drainOwner adm || o == throughOwner adm
  (s.plan.far.filter fun k => mine k.owner).foldl (fun m k => max m (1024 * k.span + 1023))
    ((s.plan.near.filter fun k => mine k.owner).foldl (fun m k => max m k.beat) b)

/-- Decide an entry that passes its checks. -/
def decideRoom (s : State) (o : Origin) (d : EntryData) : Verdict :=
  let x := newCtx s o d
  let n := o.desc d
  let ns := getNs s x.entry.nsid.toNat
  let has := fun (p : Namespace → Bool) => (ns.map p).getD false
  if has (noSpace s x) then .cause St.noSpace
  else if journals x && !s.therm.window then .cause St.writeWindow
  else if has (unarmed s x) then .cause St.unarmed
  else if onSuspect s x || !roomNow s x o.fn then .cause St.classFull
  else match tryEntry s x n with
    | none => .cause (if (tryEntry (noEnergy s) x n).isSome then St.throttled else St.classFull)
    | some t0 => match lowest (fun p => decide (1 ≤ room t0.st .comps p)) t0.post (t0.last + 1 - t0.post) with
      | none => .cause St.classFull
      | some p =>
      let t := { t0 with st := take t0.st .comps p 1 x.adm, post := p }
      let g := if x.entry.isProg then some t.gaffer else lowest (fun g => (freeCtx s g).isSome && demandOk s g t.post t.event 0) 0 256
      match g.bind (freeCtx s) with
      | none => .cause St.classFull
      | some c => .take t
          { x with
            c := c, postBeat := t.post, eventBeat := t.event, commitBeat := t.commit, reads := t.reads, fed := t.fed, writeThrough := t.through,
            dline := if x.dOpen then lastBooked t.st x.adm t.post + 8191 else x.dline }

/-- What the admission itself of an admin op does: the ring of a RING_RESET or a RING_DELETE goes RESETTING, the namespace of an
NS_DELETE is deleting, ACTIVATING is 1 (R109, R110, R192, R496). -/
def admBegins (s : State) (x : Ctx) : State :=
  if x.entry.isAdm 0x81 || x.entry.isAdm 0x82 then
    match getLocal s (selFn x) (selLocal x.entry) with
    | some r => markResetting s r.g (some x.c)
    | none => s
  else if x.entry.isAdm 0x89 then modNs s x.entry.nsid.toNat fun n => { n with deleting := true }
  else if x.entry.isAdm 0x8D && x.entry.a0 == 0 then s.updNor fun n => { n with activating := some (x.c, 1), actAt := x.admBeat }
  else s

/-- Admit: the context starts, library slots are pinned, code pages taken, deep granules registered (R60, R93,
R116, R134, R135). -/
def takeEntry (t : Trial) (x : Ctx) : State :=
  let s1 := (t.st.updCtxs fun l => l ++ [x]).updPlan fun p => { p with admSeq := p.admSeq + 1, admitted := satAdd p.admitted 1 }
  let s2 := s1.updZci fun z =>
    { z with lib := updIf (fun l => x.pins.contains l.slot) (fun l => { l with pins := l.pins + 1 }) z.lib
             codeFree := z.codeFree - x.codePages
             ctxPeak := max z.ctxPeak s1.ctxs.length }
  match getNs s2 x.entry.nsid.toNat with
  | some ns => admBegins (registerDeep s2 ns (x.reads ++ x.fed)) x
  | none => admBegins s2 x

/-! ### Refusals (R63, R110, R294, R364, R398) -/

/-- Count a refusal. -/
def countRefused (s : State) : State := s.updPlan fun p => { p with refused := satAdd p.refused 1 }

/-- Post a refusal where its entry came from, one of the beat's completions (R34); a ring being reset withholds and counts it. -/
def postRefusal (s : State) (o : Origin) (e : Entry) (r : Refuse) : State :=
  let s0 := if r.verifyFail then s.updZci fun z => { z with verifyFails := satAdd z.verifyFails 1 } else s
  let s1 := countRefused (book s0 .comps .host s.beat 1 0)
  match o.src with
  | .sideband => sidebandDone s1 r.status e.cid r.detail r.result 0 0 o.body
  | .cane sid msgId _ => sendRep s1 sid msgId r.status r.detail r.result []
  | .ring g =>
    match getRing s1 g with
    | none => countFnReset s1 o.fn g r.status
    | some k =>
      if k.rst.isSome then modRing s1 g fun k => { k with rst := k.rst.map fun w => { w with withheld := w.withheld + 1 } }
      else if fnWritable s1 k.fn then writeCompletion s1 g r.status e.cid r.detail r.result 0 (some 0) e.noIrq
      else keepCompletion s1 k.fn { ring := g, ctx := none, status := r.status, cid := e.cid, detail := r.detail, result := r.result, noIrq := e.noIrq }

/-- A write refused under R273 in wear stage WORN makes every namespace read only, for entries decided from the next beat (R294). -/
def wornEntry (s : State) (o : Origin) (d : EntryData) (st : BitVec 16) : State :=
  let x := newCtx s o d
  let lost := ((getNs s x.entry.nsid.toNat).map fun ns => lacksSpace s x ns (unreclaimed s x ns)).getD false
  if st = St.noSpace ∧ lost ∧ s.care.wearStage = 5 ∧ !s.care.worn then
    event ((s.updCare fun c => { c with worn := true, wornAt := s.beat }).updXlat fun x => { x with nss := x.nss.map fun n => { n with worn := true } }) 5 0xFF
  else s

/-! ### Costs, deficits and caps (R68 to R70) -/

/-- The cost of an entry. Descriptor bytes and budgets round up to whole units, and a READ counts its media and its host slots
(DESIGN CHOICE, log entry 28: R68 does not say how they round, and its worked example takes 1 for a single-slot READ). -/
def costOf (s : State) (o : Origin) (d : EntryData) : Nat :=
  let e := d.entry
  let slots := e.length.toNat * entryGran s e / 4096
  if e.typ = 1 then max 1 (if e.moves then 2 * slots else if e.isDir 7 then slots else 0)
  else match codeNamed s d with
    | some c => max 1 (ceilDiv (o.desc d) 4096 + (rdDecl c e + wrDecl c e) * entryGran s e / 4096 + ceilDiv (bookedBudget s c e) 2048)
    | none => max 1 (ceilDiv (o.desc d) 4096)

/-- The work of one beat cycle: the state, fetches and admissions so far, and whether the visit has stopped. -/
structure Cycle where
  st : State
  fetches : Nat
  admits : Nat
  stop : Bool

/-- Whether the beat's 4,096 completions are taken: a refusal posts one in this beat (R34, R63). -/
def compsFull (s : State) : Bool := decide (4096 ≤ used s .comps .host s.beat 1)

/-- Whether the beat's 4,096 admissions are reached, or its 4,096 completions. -/
def Cycle.full (w : Cycle) : Bool := decide (4096 ≤ w.admits) || compsFull w.st

/-- The deficit of an origin. -/
def deficitOf (s : State) (o : Origin) : Nat :=
  match o.src with
  | .ring g => ((getRing s g).map Ring.deficit).getD 0
  | .sideband => s.side.deficit
  | .cane _ _ _ => s.cane.deficit

/-- Take a cost from an origin's deficit; an entry admitted at the ceiling for more than it leaves none (DESIGN CHOICE, log
entry 28: R70 does not say whether a deficit may be negative). -/
def spend (s : State) (o : Origin) (k : Nat) : State :=
  match o.src with
  | .ring g => modRing s g fun r => { r with deficit := r.deficit - k }
  | .sideband => s.updSide fun x => { x with deficit := x.deficit - k }
  | .cane _ _ _ => s.updCane fun x => { x with deficit := x.deficit - k }

/-- The cost admitted from a function in this beat. -/
def fnTotal (s : State) (n : Nat) : Nat := (Assoc.get s.plan.fnTotals n).getD 0

/-- Whether an entry of a cost may be decided now: its ring's deficit, or the ceiling, covers it; its
function's cap leaves room, or nothing was admitted from the function yet (R68 step 4, R69, R70). -/
def affords (s : State) (o : Origin) (cost : Nat) : Bool :=
  let cap := nvVal s 0x02000006
  let f := if o.isRing then nvVal s (0x02000010 + o.fn) else 0
  (decide (cost ≤ deficitOf s o) || (decide (cap < cost) && decide (cap ≤ deficitOf s o))) &&
  (f == 0 || fnTotal s o.fn == 0 || decide (fnTotal s o.fn + cost ≤ f))

/-! ### Deciding one entry (R39, R62 to R64, R109) -/

/-- The head of a HOLD ring moves when an entry is decided (R64). -/
def decidedHead (s : State) (o : Origin) : State :=
  match o.src with
  | .ring g => modRing s g fun r => if r.hold && r.st == .active then { r with sqHead := (r.sqHead + 1) % r.sqSize, held := none } else r
  | _ => s

/-- A command admitted from a ring that is being reset ends at once where it has not committed; a committed one stops at its
next boundary where the ring is gone, or in D7 (R109, R110). -/
def intoReset (s : State) (x : Ctx) : State :=
  match x.ringOf with
  | none => s
  | some g =>
    let gone := (getRing s g).isNone
    if !gone && ((getRing s g).map Ring.st) != some .resetting then s
    else if !committed s x then abortCtx s x.c
    else if gone || x.entry.cls == 7 then modCtx s x.c fun y => { y with stopping := true }
    else s

/-- Whether a cause is held on this origin: any but NO_SPACE, on an ACTIVE ring in HOLD mode. -/
def holds (s : State) (o : Origin) (st : BitVec 16) : Bool :=
  match o.src with
  | .ring g => match getRing s g with
    | some r => r.hold && r.st == .active && st != St.noSpace
    | none => false
  | _ => false

/-- Keep the planner's copy of an entry, held since a beat. -/
def holdEntry (s : State) (o : Origin) (d : EntryData) (st : BitVec 16) : State :=
  match o.src with
  | .ring g => modRing s g fun r =>
      { r with held := some { data := d, since := (r.held.map HeldEntry.since).getD s.beat, cause := st } }
  | _ => s

/-- Decide one entry: refused, admitted or held. -/
def decideOne (w : Cycle) (o : Origin) (d : EntryData) : Cycle :=
  let s := w.st
  let cost := costOf s o d
  match checks s o d with
  | some r => { w with st := postRefusal (decidedHead (spend s o 1) o) o d.entry r }
  | none => match decideRoom s o d with
    | .take t x =>
      let s1 := spend (takeEntry t x) o cost
      let s2 := if o.isRing then s1.updPlan fun p => { p with fnTotals := Assoc.set p.fnTotals o.fn (fnTotal s1 o.fn + cost) } else s1
      { w with st := intoReset (decidedHead s2 o) x, admits := w.admits + 1 }
    | .cause st =>
      let s1 := wornEntry s o d st
      if holds s o st then { w with st := holdEntry s1 o d st, stop := true }
      else { w with st := postRefusal (decidedHead (spend s1 o 1) o) o d.entry (ref st 0) }

/-- Decide an entry unless its cost, its cap or the beat's 4,096 admissions stop the visit. -/
def visitEntry (w : Cycle) (o : Origin) (d : EntryData) : Cycle :=
  if w.stop then w
  else if !affords w.st o (costOf w.st o d) || w.full then { w with stop := true }
  else decideOne w o d

/-! ### Visiting a ring (R44, R68, R352, R432) -/

/-- Entries of a ring fetched and not decided, oldest first. -/
def outstanding (s : State) (g : Nat) : Nat :=
  (s.plan.fetching.filter fun f => f.ring == g).length + (s.plan.fetched.filter fun f => f.ring == g).length

/-- The index of a ring's next entry to fetch: REFUSE rings move the head at the fetch, HOLD rings at the
decision (R63, R64). -/
def Ring.cursor (r : Ring) (s : State) : Nat :=
  if r.hold then (r.sqHead + outstanding s r.g + b2n r.held.isSome) % r.sqSize else r.sqHead

/-- Whether a ring may be fetched from now. -/
def fetchable (s : State) (r : Ring) : Bool :=
  r.st == .active && ((getFn s r.fn).map HostFn.writable).getD false && (r.admin || !sleepPending s)

/-- Free completion credits (R43, R98), less entries fetched and undecided and refusals kept (R352). -/
def creditsOf (s : State) (r : Ring) : Nat :=
  r.cqSize - 1 - (s.ctxs.filter fun x => x.ringOf == some r.g && !x.withheld).length - (r.cqTail + r.cqSize - r.cqCredit) % r.cqSize -
    outstanding s r.g - keptRefusals s r

/-- Fetch entries of a ring until its budget, its credits, its tail or the beat's 4,096 fetches end it. -/
def fetchRing : Nat → Cycle → Nat → Cycle
  | 0, w, _ => w
  | n + 1, w, g =>
    match getRing w.st g with
    | none => w
    | some r =>
      let i := r.cursor w.st
      if !fetchable w.st r || i == r.sqVisible || creditsOf w.st r == 0 || decide (4096 ≤ w.fetches) then w
      else
        let s1 := emit (w.st.updPlan fun p => { p with fetching := p.fetching ++ [{ ring := g, idx := i }] }) (.fetch g i)
        let s2 := modRing s1 g fun r => if r.hold then r else { r with sqHead := (r.sqHead + 1) % r.sqSize }
        fetchRing n { w with st := s2, fetches := w.fetches + 1 } g

/-- A ring, or one that a function reset removed while entries of it were fetched and undecided. -/
def ringOrGone (s : State) (g : Nat) : Option Ring :=
  match getRing s g with
  | some r => some r
  | none => s.plan.gone.find? fun r => r.g == g

/-- The entries of a ring that may be decided: in ring order, data returned in an earlier beat, none before them awaiting
its data (R32, R68 step 4). -/
def dueEntries (s : State) (g : Nat) : List Fetched :=
  match ringOrGone s g with
  | none => []
  | some r =>
    let n := outstanding s g
    let first := if r.hold then r.sqHead + b2n r.held.isSome else r.sqHead + r.sqSize - n
    let at_ := fun i => s.plan.fetched.find? fun f => f.ring == g && f.idx == (first + i) % r.sqSize && decide (f.at_ < s.beat)
    (((List.range n).map at_).takeWhile Option.isSome).filterMap id

/-- Take an entry out of the fetched ones. -/
def dropFetched (s : State) (f : Fetched) : State :=
  s.updPlan fun p => { p with fetched := p.fetched.filter fun k => !(k.ring == f.ring && k.idx == f.idx) }

/-- Decide a due entry of a ring; it stays fetched where the visit stops before it. -/
def visitDue (w : Cycle) (f : Fetched) : Cycle :=
  match getRing w.st f.ring with
  | none => { w with st := dropFetched w.st f }
  | some r =>
    if w.stop || !affords w.st r.origin (costOf w.st r.origin f.data) || w.full then { w with stop := true }
    else decideOne { w with st := dropFetched w.st f } r.origin f.data

/-- Visit one ring: the held entry, the entries whose data returned, then fetches. -/
def visitRing (w0 : Cycle) (g : Nat) : Cycle :=
  let w := { w0 with stop := false }
  match getRing w.st g with
  | none => w
  | some r =>
    let w1 := match r.held with
      | some h => if fetchable w.st r then visitEntry w r.origin h.data else { w with stop := true }
      | none => w
    let stillHeld := ((getRing w1.st g).map fun k => k.held.isSome).getD false
    let w2 := if w1.stop || stillHeld then { w1 with stop := true } else (dueEntries w1.st g).foldl visitDue w1
    if w2.stop then w2 else fetchRing r.fetch w2 g

/-- The entries of a RESETTING or removed ring are decided at once (R109, R110), up to the beat's 4,096 admissions (R34). -/
def visitResetting (w : Cycle) (g : Nat) : Cycle :=
  (dueEntries w.st g).foldl (fun w f => match ringOrGone w.st f.ring with
    | none => { w with st := dropFetched w.st f }
    | some r => if w.full then w else decideOne { w with st := dropFetched w.st f } r.origin f.data) w

/-- Visit the sideband queue: one entry (R364). -/
def visitSideband (w : Cycle) : Cycle :=
  match w.st.side.adminEntry with
  | none => w
  | some e =>
    let o := sidebandOrigin w.st
    let d : EntryData := { entry := e, segs := [], code := none }
    if !affords w.st o (costOf w.st o d) || w.full then w
    else decideOne { w with st := w.st.updSide fun x => { x with adminEntry := none } } o d

/-- Visit the Cane queue, as a REFUSE ring (R398). -/
def visitCane (w : Cycle) : Cycle :=
  if sleepPending w.st then w
  else
    ((w.st.cane.queue.filter fun q => decide (q.at_ < w.st.beat)).take (nvVal w.st 0x0C000014)).foldl (fun w q =>
      if w.stop || !affords w.st q.origin (costOf w.st q.origin q.data) || w.full then { w with stop := true }
      else decideOne { w with st := w.st.updCane fun c => { c with queue := c.queue.filter fun k => !(k.sid == q.sid && k.msgId == q.msgId) } }
        q.origin q.data) { w with stop := false }

/-! ### The start of a beat (R31, R36, R40) -/

/-- Doorbells written before this beat began become visible (R31, R98). -/
def sampleDoorbells (s : State) : State :=
  s.updRings fun l => l.map fun r => { r with sqVisible := r.sqTail, cqCredit := r.cqHead }

/-- Lay a total on the beats from b to `last`, as room comes. -/
def layRoom : Nat → State → Res → Nat → Nat → Nat → Nat → State
  | 0, s, _, _, _, _, _ => s
  | fuel + 1, s, r, b, last, total, owner =>
    if total = 0 ∨ last < b then s
    else
      let k := min total (room s r b)
      layRoom fuel (take s r b k owner) r (b + 1) last (total - k) owner

/-- Lay a total on the beats of a span from its first, as room comes (DESIGN CHOICE, log entry 28: R40 does not say on which
beats). R41 leaves it room; what an oct or a channel has lost of its capacity since is on no beat (R34). -/
def laySpread (s : State) (k : FarBooking) : State :=
  let t := layRoom 1024 s k.res (1024 * k.span) (1024 * k.span + 1023) k.amount k.owner
  t.updPlan fun p => { p with near := s.plan.near ++ (p.near.drop s.plan.near.length).map fun b => { b with tag := k.tag } }

/-- The next page a command waits for on a die and has on no queue, and the slots it waits for there; programs wait for what their
decisions found too. -/
def nextQueued (s : State) (x : Ctx) (d : Nat) : Option (Nat × Nat) :=
  let waits := fun (psa : Nat) (r : GranRead) => match r.loc with
    | .media q => if q / 4 = psa / 4 then (r.slots.filter (· == .waiting)).length else 0
    | _ => 0
  let all := x.reads ++ x.fed.filter fun r => !(x.reads.any fun q => q.gran == r.gran)
  let pages := all.filterMap fun r => match r.loc with
    | .media psa => if psaDie psa = d ∧ r.slots.any (· == .waiting) then some psa else none
    | _ => none
  let idle := fun psa => match getDie s d with
    | some k => !(k.ops.any fun o => o.owner == x.adm && o.block == psaBlock psa && o.page == psaPage psa)
    | none => false
  (pages.find? idle).map fun psa => (psa, sum (all.map (waits psa)))

/-- Take k units of a resource out of an owner's totals. -/
def lessFar (r : Res) (owner : Nat) : Nat → List FarBooking → List FarBooking
  | _, [] => []
  | k, b :: l =>
    if k = 0 then b :: l
    else if b.res != r || b.owner != owner then b :: lessFar r owner k l
    else if b.amount ≤ k then lessFar r owner (k - b.amount) l
    else { b with amount := b.amount - k } :: l

/-- What is left of a command's totals once a read of n slots of a die is laid from them. -/
def lessRead (s : State) (d r n owner : Nat) (l : List FarBooking) : List FarBooking :=
  let k := dieOct d
  lessFar .energy owner (enRead s k + n * enXfer s k) (lessFar (.decoder k) owner n (lessFar .chanTotal owner n (lessFar (.chan (dieChan d)) owner n
    (lessFar .dieTotal owner r (lessFar (.dieTime d) owner r l)))))

/-- Lay the reads of a command that a span's totals hold for a die, each with its transfers and decodes on the beats that follow it:
the totals left and the state (R40, R45). -/
def layReads (d owner last : Nat) : Nat → List FarBooking × State → List FarBooking × State
  | 0, m => m
  | fuel + 1, m =>
    let s := m.2
    let left := sum ((m.1.filter fun k => k.res == .dieTime d && k.owner == owner).map FarBooking.amount)
    match s.ctxs.find? fun x => x.adm == owner with
    | none => m
    | some x => match nextQueued s x d with
      | none => m
      | some (psa, n) =>
        let r := slotOcc s psa
        if left < r then m
        else match planSlot s psa n .host (last - 1023) last x.dline owner with
          | none => m
          | some p => layReads d owner last fuel (lessRead s d r n owner m.1, p.2)

/-- Lay one span's totals onto its beats: reads first, in order of their totals, then what is left (R40). -/
def laySpan (s : State) : State :=
  let sp := s.plan.laidSpan
  let mine := s.plan.far.filter fun k => k.span == sp
  let s1 := s.updPlan fun p => { p with laidSpan := sp + 1, far := p.far.filter fun k => k.span != sp }
  let m := mine.foldl (fun m k => match k.res with
    | .dieTime d => layReads d k.owner (1024 * sp + 1023) k.amount m
    | _ => m) (mine, s1)
  m.1.foldl laySpread m.2

/-- Lay every span whose first beat the near calendar reaches; `fuel` bounds their number. -/
def laySpans : Nat → State → State
  | 0, s => s
  | n + 1, s => if 1024 * s.plan.laidSpan ≤ s.beat + 8191 then laySpans n (laySpan s) else s

/-- The resources hold-back passes from. -/
def heldBack (s : State) : List Res :=
  .dieTotal :: .chanTotal :: (usableDies s).map Res.dieTime ++
  ((List.range 128).filter fun n => decide (0 < chanRate s n)).map Res.chan ++ (liveOcts s).map Res.decoder

/-- Pass hold-back to care for one resource (R36). -/
def passOne (s : State) (r : Res) : State :=
  let lo := windowStart r s.beat
  let k := s.beat - lo + 1
  let claimed := used s r .hold lo k
  let amt := shareCap s r .hold * k / r.window - claimed - passed s r lo
  if amt = 0 then s else s.updPlan fun p => { p with raPassed := p.raPassed ++ [(r.key, s.beat, amt)] }

/-- Pass hold-back to care for this beat (R36). -/
def passHoldback (s : State) : State :=
  let s1 := s.updPlan fun p => { p with raPassed := p.raPassed.filter fun q => decide (s.beat < q.2.1 + 1024) }
  (heldBack s1).foldl passOne s1

/-- Steps 1 and 2 of R68 for one queue's deficit. -/
def gain (s : State) (busy : Bool) (weight deficit : Nat) : Nat :=
  if busy then min (nvVal s 0x02000006) (deficit + weight * nvVal s 0x02000005) else 0

/-- Whether a ring holds an unfetched or a held entry; entries fetched and undecided count too (DESIGN CHOICE, log entry 28:
R68 does not name them). -/
def hasEntries (s : State) (r : Ring) : Bool := r.held.isSome || decide (0 < outstanding s r.g) || r.cursor s != r.sqVisible

/-- Deficits at the start of a beat. -/
def gainAll (s : State) : State :=
  let s1 := s.updRings fun l => l.map fun r => { r with deficit := gain s (r.st == .active && hasEntries s r) r.weight r.deficit }
  (s1.updSide fun x => { x with deficit := gain s x.adminEntry.isSome 16 x.deficit }).updCane fun c =>
    { c with deficit := gain s (!c.queue.isEmpty) (nvVal s 0x0C000013) c.deficit }

/-- The order of a beat's visits: descending deficit, ties counted up from the start pointer; 1,024 names the
sideband queue and 1,025 the Cane queue. -/
def visitOrder (s : State) : List Nat :=
  let rows := (s.rings.map fun r => (r.g, r.deficit, (r.g + 1024 - s.plan.tiePtr) % 1024)) ++
    [(1024, s.side.deficit, 1024), (1025, s.cane.deficit, 1025)]
  (sortBy (fun r => (2 ^ 24 - min r.2.1 (2 ^ 24)) * 2048 + r.2.2) rows).map fun r => r.1

/-- Visit a queue by its number. -/
def visit (w : Cycle) (k : Nat) : Cycle :=
  if k = 1024 then visitSideband w
  else if k = 1025 then visitCane w
  else match getRing w.st k with
    | some r => if r.st = .resetting then visitResetting w k else visitRing w k
    | none => w

/-! ### The beat cycle (R31, R68, R191, R207, R261) -/

/-- Whether the module serves: in Noon or Dusk, not fatal. -/
def serving (s : State) : Bool := (s.day.day == .noon || s.day.day == .dusk) && !s.day.fatal

/-- Removed rings whose fetched entries are all decided are forgotten (R109). -/
def dropGone (s : State) : State := s.updPlan fun p => { p with gone := p.gone.filter fun r => decide (0 < outstanding s r.g) }

/-- The decisions of one beat. -/
def decideBeat (s : State) : State :=
  let s1 := gainAll (s.updPlan fun p => { p with fnTotals := [] })
  let w : Cycle := { st := s1, fetches := 0, admits := 0, stop := false }
  let w1 := (s1.plan.gone.map Ring.g).foldl visitResetting w
  dropGone (((visitOrder s1).foldl visit w1).st.updPlan fun p => { p with tiePtr := (p.tiePtr + 1) % 1024 })

/-- While the occupied armed slots exceed a decreased G, the write stream drains them (R414). -/
def armedDrain (s : State) : State :=
  if armedNow s < armedUsed s then drainStripes s (s.xlat.gather.filter GatherSlot.armed) else s

/-- Suspends that issue on this beat (R75). -/
def countSuspends (s : State) : State :=
  let n := (((s.flash.dies.flatMap Die.ops).flatMap ArrayOp.susps).filter fun k => k.at_ == s.beat).length
  s.updPlan fun p => { p with suspends := satAdd p.suspends n }

/-- PLANNER_BEAT_CYCLE: a lower G; the heartbeat and the twin logic's beat; doorbells, spans, hold-back, decisions and fetches;
then the beat's share of map-line initialisation, replication, care, the journal, the care records and the checkpoint. While an
entry sequence drains, the heartbeat and the checkpoint with its care records go on (R377, R436, R437). -/
def planCycle (s : State) : State :=
  if !serving s then
    let s1 := if s.day.sealed.isSome && s.day.puntyOn && !s.twin.hbStopped && !s.day.fatal then heartbeat s else s
    if s.day.sealed.isSome && !s.day.fatal then ckptBeat (careBeat (sysBeat s1)) else s1
  else
    let s1 := countSuspends (passHoldback (laySpans 64 (sampleDoorbells (stoppedEngines (twinBeat (wornCheck (wearCheck (holdOps (armLowers s)))))))))
    let s2 := if s.plan.stopped then s1 else decideBeat s1
    let s3 := careOffer (retryOps (replBeat (initSweep (armedDrain s2))) false)
    ckptBeat (careBeat (sysBeat (journalOut s3 (if s3.power.jthrough then 1 else 128))))

/-- PLANNER_BEAT_CYCLE: the cycle, then what the dies' buses carry in this beat (R313). -/
def execPlannerBeatCycle (s : State) : Host.Outcome State Fault Refusal := .next (busBeat (planCycle s))

/-- HOLD_TIMEOUT: the held entry is fetched and refused with its latest cause, at the cost of a refused entry (R64, R68); after a hot stop or a loss of power nothing is
posted (R67). -/
def execHoldTimeout (g : Nat) (s : State) : Host.Outcome State Fault Refusal :=
  .next (match getRing s g with
    | none => s
    | some r => match r.held with
      | none => s
      | some h =>
        if s.beat < h.since + nvVal s 0x02000007 || s.therm.hotAt.isSome || s.power.lost || compsFull s then s
        else postRefusal (decidedHead (spend s r.origin 1) r.origin) r.origin h.data.entry (ref h.cause 0))

/-- FETCH_DATA_RETURN: an entry with all its data waits for its decision in the next beat (R32, R88), one of a ring that a function
reset removed too (R109): the oldest fetch of the pair's index has its data first. -/
def execFetchDataReturn (g idx : Nat) (entry : List Byte) (segs : List (List Byte)) (prog : List Byte) (s : State) :
    Host.Outcome State Fault Refusal :=
  .next (match s.plan.fetching.find? fun f => f.ring % 1024 == g && f.idx == idx, fetchedData entry segs prog with
    | some f, some d =>
      let s1 := s.updPlan fun p => { p with fetching := p.fetching.filter fun k => k != f }
      if (ringOrGone s f.ring).isNone then s1
      else s1.updPlan fun p => { p with fetched := p.fetched ++ [{ ring := f.ring, idx := idx, data := d, at_ := s.beat }] }
    | _, _ => s)

/-! ### D7 past its internal deadline (R42) -/

/-- Whether a granule read waits and is on no die's queue. -/
def unqueued (s : State) (x : Ctx) (r : GranRead) : Bool :=
  match r.loc with
  | .media psa => r.slots.all (· == .waiting) && match getDie s (psaDie psa) with
    | some k => !(k.ops.any fun o => o.owner == x.adm && o.block == psaBlock psa && o.page == psaPage psa)
    | none => true
  | _ => false

/-- Book what a D7 program has left of its instructions, host bytes and stream bytes over a further 8,191 beats (R42, R136). -/
def extendProgram (s : State) (x : Ctx) : State :=
  let hi := s.beat + 8191
  let s1 := (bookMoves s x s.beat hi).getD s
  (evenly s1 (.gaffer (x.c / 256)) (s.beat + 1) hi x.budget x.adm).getD s1

/-- Book what a direct or admin op in D7 has left of its host bytes over further beats (R42). -/
def extendMoves (s : State) (x : Ctx) : State :=
  let n := if x.entry.typ = 1 then (if x.entry.moves then x.entry.length.toNat * gran s x else 0) else dBytes x
  let out := if x.entry.typ = 1 then x.entry.isDir 1 else (admMoves x.entry).2
  let into := if x.entry.typ = 1 then x.entry.moves && !x.entry.isDir 1 else (admMoves x.entry).1
  let left := fun (r : Res) => sum ((s.plan.near.filter fun k => k.res == r && k.owner == x.adm && decide (s.beat < k.beat)).map Booking.amount) +
    sum ((s.plan.far.filter fun k => k.res == r && k.owner == x.adm).map FarBooking.amount)
  let s1 := if out && left (.hostOut (fnLink x.fn)) == 0 then ((bookOut s x (s.beat + 1) (farEnd s - 1) n).map Prod.snd).getD s else s
  if into && left (.hostIn (fnLink x.fn)) == 0 then ((bookIn s1 x (s.beat + 1) (farEnd s - 1) n).map Prod.snd).getD s1 else s1

/-- D7_DEADLINE_EXTEND: further spans are booked for what the command still waits for. -/
def execD7DeadlineExtend (c : Nat) (s : State) : Host.Outcome State Fault Refusal :=
  .next (match getCtx s c with
    | none => s
    | some x =>
      if !x.dOpen || x.wait == .fixed || decide (s.beat < x.dline) then s
      else
        let s1 := match planGrans s x (fun _ => s.beat + 1) (farEnd s - 1) (x.reads.filter (unqueued s x)) with
          | some (_, _, s1) => s1
          | none => s
        let s1 := if x.entry.isProg then extendProgram s1 x else if x.wait == .posting then s1 else extendMoves s1 x
        modCtx s1 c fun y => { y with dline := lastBooked s1 x.adm s.beat + 8191 })

end Sys2Proof.Machine
end

