-- ==== Sys2Proof/Machine/Resets.lean ====
section
/-! DEFINITION. Function resets and module resets (R109 to R112, R548). -/

namespace Sys2Proof.Machine

/-- The resident parison of admin op `op` in context c reaches its POST with a status, if it still runs. -/
def finishAdm (s : State) (c op : Nat) (st : BitVec 16) (detail : BitVec 8) (res : BitVec 64) : State :=
  match getCtx s c with
  | none => s
  | some x =>
    if x.wait == .resident && x.entry.typ == 4 && x.entry.op.toNat == op && !x.stopping then residentPost s c st detail res else s

/-! ### Function reset (R109, R111) -/

/-- A command of a removed ring: ABORTED before its commit point, stopped at its next boundary after it. -/
def stopCommand (s : State) (x : Ctx) : State :=
  if x.wait == .fixed then s
  else if !committed s x then abortCtx s x.c
  else modCtx s x.c fun y => { y with stopping := true }

/-- What a removed ring has counted for a RING_RESET of it is that reset's from now on; `aux` holds the counts, the ring plus 1
and its function (R110). -/
def passCounts (s : State) (r : Ring) : State :=
  match r.rst.bind RingReset.byCtx with
  | some c =>
    let k := r.rst.getD RingReset.none
    modCtx s c fun y => { y with aux := [BitVec.ofNat 64 k.withheld, BitVec.ofNat 64 k.aborted, BitVec.ofNat 64 k.ok, BitVec.ofNat 64 (r.g + 1), BitVec.ofNat 64 r.fn] }
  | none => s

/-- The number that the commands and fetched entries of a removed ring go by, since its pair is free: the pair's, and 1,024 times a
count that no other such ring of the pair has. -/
def goneName (s : State) (g : Nat) : Nat :=
  let taken := s.plan.gone.map Ring.g ++ s.ctxs.filterMap Ctx.ringOf
  1024 * ((lowest (fun k => !taken.contains (1024 * k + g)) 1 (taken.length + 1)).getD 1) + g

/-- The commands and fetched entries of a ring go by another number. -/
def renameRing (s : State) (g h : Nat) : State :=
  (s.updCtxs (updIf (fun x => x.ringOf == some g) fun x => { x with src := .ring h })).updPlan fun p =>
    { p with fetching := updIf (fun f => f.ring == g) (fun f => { f with ring := h }) p.fetching
             fetched := updIf (fun f => f.ring == g) (fun f => { f with ring := h }) p.fetched }

/-- A ring goes NONE, its pair free: its RING_COAL and RING_SCHED read on until the reset ends, entries fetched and undecided are
still decided, its commands end or stop; what is withheld counts for the resets that wait (R109 to R111). -/
def removeRing (s : State) (g : Nat) : State :=
  match getRing s g with
  | none => s
  | some r =>
    let h := goneName s g
    let s1 := dropKept (modRing s g fun r => { r with rst := some RingReset.none }) g
    let kept := ((getRing s1 g).bind Ring.rst).getD RingReset.none
    let s2 := countGone (passCounts s1 { r with g := h }) r.fn h kept
    let s3 := storeNv (storeNv (freeRing s2 g) (0x04000585 + g) (BitVec.ofNat 64 (schedWord r))) (0x04000985 + g) (BitVec.ofNat 64 (coalWord r))
    let s4 := renameRing (modFn s3 r.fn fun f => { f with freed := f.freed ++ [g] }) g h
    let s5 := if outstanding s4 h = 0 then s4 else s4.updPlan fun p => { p with gone := p.gone ++ [{ r with g := h, held := none }] }
    (s5.ctxs.filter fun x => x.ringOf == some h).foldl stopCommand s5

/-- The functions a reset of n takes in: a PF's includes its VFs. -/
def resetSet (s : State) (n : Nat) : List Nat :=
  if fnFunc n = 0 then (s.fns.map HostFn.n).filter fun k => fnLink k == fnLink n else [n]

/-- A function reset begins, for the FUNC_RESET of a context or for none. -/
def functionReset (s : State) (n : Nat) (by_ : Option Nat) : State :=
  if (getFn s n).isNone then s else
  let ns := resetSet s n
  let s1 := ns.foldl (fun s k => modFn s k fun f =>
    { f with resetting := true, resetBy := if k = n then f.resetBy <|> by_ else f.resetBy
             resetToo := if k = n && f.resetBy.isSome then f.resetToo ++ by_.toList else f.resetToo }) s
  let s2 := ns.foldl (fun s k => modFn s k fun f => { f with kept := [] }) (((s1.rings.filter fun r => ns.contains r.fn).map Ring.g).foldl removeRing s1)
  if fnFunc n = 0 ∧ (getLink s2 (fnLink n)).st = 2 then modLink s2 (fnLink n) fun l => { l with st := 3 } else s2

/-- FUNCTION_RESET: a Function Level Reset. -/
def execFunctionReset (fn : Nat) (s : State) : Host.Outcome State Fault Refusal :=
  .next (if 2 ≤ (getLink s (fnLink fn)).st then functionReset s fn none else s)

/-- FUNC_RESET: the reset of a VF of the issuing PF's link. -/
def execFuncReset (c : Nat) (s : State) : Host.Outcome State Fault Refusal :=
  .next (resident s c 4 0x84 fun s x =>
    if x.snap ≠ 0 ∨ (getFn s (selFn x)).isNone then s
    else functionReset (commitNow (modCtx s c fun y => { y with snap := 1 }) c) (selFn x) (some c))

/-- Whether a function still has commands of its rings, or entries whose data has returned and that are still to be decided. -/
def fnBusy (s : State) (n : Nat) : Bool :=
  (s.ctxs.any fun x => x.fn == n && x.ringOf.isSome) ||
  (!s.plan.stopped && s.plan.gone.any fun r => r.fn == n && s.plan.fetched.any fun f => f.ring == r.g)

/-- A function after its reset: MSI-X disabled and its tables cleared, the admin ring registers at their reset
values (R111 step 3, R353). GEVENT, GEVENT_CFG and DARK_ADDR stay as they were (DESIGN CHOICE, log entry 28: neither R22 nor R111
says what a function reset does to them). -/
def HostFn.afterReset (f : HostFn) : HostFn :=
  { HostFn.init with n := f.n, vectors := f.vectors, gevent := f.gevent, cfgVector := f.cfgVector, cfgMask := f.cfgMask,
                     darkCount := f.darkCount, darkWrite := f.darkWrite, darkOffset := f.darkOffset }

/-- RING_COAL and RING_SCHED of the pairs a reset freed return to reset values (R111 step 3); on a link that is down, what was still
being fetched of them does not return. -/
def forgetFreed (s : State) (f : HostFn) : State :=
  let lost := fun (g : Nat) => decide ((getLink s (fnLink f.n)).st < 2) && s.plan.gone.any fun r => r.g == g && r.fn == f.n
  ((f.freed.foldl (fun s g => if (getRing s g).isSome then s else
      s.updNv fun l => Assoc.del (Assoc.del l (0x04000585 + g)) (0x04000985 + g)) s)).updPlan fun p =>
    { p with fetching := p.fetching.filter fun k => !lost k.ring, gone := p.gone.filter fun r => !lost r.g }

/-- The RING_RESETs of other rings that waited for rings of a function complete with STATE detail 1 (R110). -/
def endRingResets (s : State) (n : Nat) : State :=
  (s.ctxs.filter fun y => y.entry.typ == 4 && y.entry.op == 0x82 && decide (4 < y.aux.length) && (nth y.aux 4 0#64).toNat == n).foldl
    (fun s y =>
      let a := fun i => (nth y.aux i 0#64).toNat
      finishAdm s y.c 0x82 St.state 1 (resetWord (a 0) (a 1) (a 2))) s

/-- FUNCTION_RESET_COMPLETE: every command of the function has stopped. A VF whose VF Enable is off, and a
function of a link that is down, are no longer present. -/
def execFunctionResetComplete (fn : Nat) (s : State) : Host.Outcome State Fault Refusal :=
  .next (match getFn s fn with
    | none => s
    | some f =>
      if !f.resetting || fnBusy s fn then s else
      let s1 := (f.resetBy.toList ++ f.resetToo).foldl (fun s c =>
          let a := fun i => (nth (((getCtx s c).map Ctx.aux).getD []) i 0#64).toNat
          finishAdm s c 0x84 St.ok 0 (resetWord (a 0) (a 1) (a 2))) (forgetFreed s f)
      let s2 := endRingResets s1 fn
      let l := getLink s2 (fnLink fn)
      let gone := l.st < 2 ∨ (fnFunc fn ≠ 0 ∧ !l.vfEnable)
      let s3 := if gone then s2.updFns fun fs => fs.filter fun k => k.n != fn else modFn s2 fn HostFn.afterReset
      if l.st = 3 ∧ !(s3.fns.any fun k => fnLink k.n == fnLink fn && k.resetting) then modLink s3 (fnLink fn) fun l => { l with st := 2 } else s3)

/-! ### Module reset (R112) -/

/-- A module reset begins: admissions stop, every function is reset, commands of the sideband and of the Cane
queue end likewise, the heartbeat stops (R377). -/
def moduleReset (s : State) : State :=
  if s.plan.resetFlush || s.power.llAt.isSome || s.power.lost || s.therm.hotAt.isSome || s.sec.tamperAt.isSome then s else
  let s1 := s.updPlan fun p => { p with stopped := true, resetFlush := true }
  let s2 := ((s1.fns.filter fun f => fnFunc f.n == 0).map HostFn.n).foldl (fun s n => functionReset s n none) s1
  let s3 := s2.ctxs.foldl (fun s x => if x.ringOf.isSome then s else stopCommand s x) s2
  ((stopSignals s3).updCane fun c => { c with queue := [] }).updSide fun d => { d with adminEntry := none }

/-- MODULE_RESET: the admin op; it posts no completion. -/
def execModuleReset (c : Nat) (s : State) : Host.Outcome State Fault Refusal :=
  .next (resident s c 4 0x85 fun s _ => moduleReset (commitNow s c))

/-- MODULE_RESET_COMMANDS_ENDED: the flush, the wipe, then Dawn. A stop that takes over the flush keeps it
(R423, R453). -/
def execModuleResetCommandsEnded (s : State) : Host.Outcome State Fault Refusal :=
  .next (if !s.plan.resetFlush || !s.ctxs.isEmpty || s.power.llAt.isSome || s.therm.hotAt.isSome || s.sec.tamperAt.isSome then s
    else startDawn (flushAll s (decide (0 < s.power.armed)) (s.twin.st == .paired)))

end Sys2Proof.Machine
end

