-- ==== Sys2Proof/Machine/HostPorts.lean ====
section
/-! DEFINITION. Host links, functions and their power states, USB4 ports (R344 to R358). -/

namespace Sys2Proof.Machine

/-! ### Doorbells and register writes (R96, R355, R438) -/

/-- Whether a write moved the tail of an ACTIVE ring: it exposes a new entry. -/
def exposes (s0 s : State) : Bool :=
  s.rings.any fun r => r.st == .active && s0.rings.any fun q => q.g == r.g && q.sqTail != r.sqTail

/-- A doorbell write that exposes a new entry is wake source 4. -/
def doorbellWake (s0 s : State) : State := if exposes s0 s then wake s 4 else s

/-- SQ_TAIL. -/
def execSqTail (fn loc : Nat) (value : BitVec 32) (s : State) : Host.Outcome State Fault Refusal :=
  .next (doorbellWake s (sqTailWrite s fn loc value))

/-- REGISTER_WRITE. -/
def execRegisterWrite (fn offset bytes : Nat) (value : BitVec 64) (s : State) : Host.Outcome State Fault Refusal :=
  if 0x800000 < offset + bytes then .fault (.outsideBar offset) else .next (doorbellWake s (barWrite s fn offset bytes value))

/-! ### PCIe links (R344, R350, R111) -/

/-- A function just presented. -/
def newFn (n vectors : Nat) : HostFn := { HostFn.init with n := n, vectors := vectors }

/-- Present a PF. -/
def addFn (s : State) (f : HostFn) : State := s.updFns fun l => insertBy HostFn.n f l

/-- Whether any function of a link is still there. -/
def linkHasFns (s : State) (l : Nat) : Bool := s.fns.any fun f => fnLink f.n == l

/-- Whether the mode in force gives a PCIe link its lanes. -/
def linkExists (s : State) (l : Nat) : Bool := l % 2 == 0 || (getLink s l).mode2x8

/-- Widths a link may train at. -/
def widthOk (s : State) (l w : Nat) : Bool := w == 1 || w == 2 || w == 4 || w == 8 || (w == 16 && !(getLink s l).mode2x8)

/-- Whether a PCIe link may come up: its host-port domain is ready, its port out of reset for 20 ms. -/
def mayTrain (s : State) (l : Nat) : Bool :=
  let k := getLink s l
  s.day.hostOn && linkExists s l && !k.perst && (match k.trainFrom with
    | some b => decide (b ≤ s.beat)
    | none => false)

/-- LINK_UP: a PCIe link completes training and presents its PF. 64 GT/s implies FLIT mode (R348). -/
def execLinkUp (link rate width : Nat) (flit : Bool) (s : State) : Host.Outcome State Fault Refusal :=
  .next (if 4 ≤ link ∨ !mayTrain s link ∨ 2 ≤ (getLink s link).st ∨ linkHasFns s link ∨ 5 < rate ∨
      rate < bits (nvVal s 0x0A000003) (3 * (link / 2) + 2) (3 * (link / 2)) ∨ !widthOk s link width then s
    else addFn (modLink s link fun l => { l with st := 2, rate := rate, width := width, flit := flit || rate == 0, aspmL1 := true, inL1 := false })
      (newFn (64 * link) 2048))

/-- A link goes down: a function reset of every function of it (R111). -/
def linkDown (s : State) (link : Nat) : State :=
  if (getLink s link).st < 2 then modLink s link fun l => { l with st := 0 }
  else
    let s1 := modLink s link fun l => { l with downs := satAdd l.downs 1 }
    modLink (functionReset s1 (64 * link) none) link fun l =>
      { l with st := 0, rate := 0, width := 0, flit := false, numVfs := 0, vfEnable := false, aspmL1 := false, inL1 := false, usbMode := 0 }

/-- LINK_DOWN. -/
def execLinkDown (link : Nat) (s : State) : Host.Outcome State Fault Refusal := .next (if 6 ≤ link then s else linkDown s link)

/-- PERST_ASSERT: a fundamental reset of both links of the port; the port's mode and clock settings take
effect (R344, R349). -/
def execPerstAssert (port : Nat) (s : State) : Host.Outcome State Fault Refusal :=
  .next (if 2 ≤ port then s else
    [2 * port, 2 * port + 1].foldl (fun s l => modLink (linkDown s l) l fun k =>
      { k with perst := true, trainFrom := none, mode2x8 := bit (nvVal s 0x0A000001) port, sris := bit (nvVal s 0x0A000002) port }) s)

/-- PERST_DEASSERT: training may begin 20 ms later, once the host-port domain is ready; wake source 5. -/
def execPerstDeassert (port : Nat) (s : State) : Host.Outcome State Fault Refusal :=
  .next (if 2 ≤ port ∨ !(getLink s (2 * port)).perst then s else
    wake ([2 * port, 2 * port + 1].foldl (fun s l => modLink s l fun k => { k with perst := false, trainFrom := some (s.beat + 5000) }) s) 5)

/-! ### Virtual functions (R345, R353) -/

/-- TotalVFs of a link. -/
def totalVfs (s : State) (link : Nat) : Nat := bits (nvVal s 0x0A000006) (6 * link + 5) (6 * link)

/-- Present the VFs 1 to k of a link, each with HOST_VF_VECTORS vectors. -/
def addVfs (s : State) (link k : Nat) : State :=
  (List.range k).foldl (fun s i => addFn s (newFn (64 * link + i + 1) (nvVal s 0x0A000005))) s

/-- VF_ENABLE: a write of VF Enable and NumVFs. A NumVFs above TotalVFs is ignored; one written while VFs are
enabled changes nothing; clearing VF Enable resets every VF. VFs whose reset has not ended are waited for. -/
def execVfEnable (link : Nat) (enable : Bool) (numVfs : Nat) (s : State) : Host.Outcome State Fault Refusal :=
  .next (let l := getLink s link
    if 6 ≤ link ∨ l.st ≠ 2 ∨ (getFn s (64 * link)).isNone then s
    else if l.vfEnable then
      if enable then s
      else
        let vfs := (s.fns.map HostFn.n).filter fun n => fnLink n == link && fnFunc n != 0
        modLink (vfs.foldl (fun s n => functionReset s n none) s) link fun l => { l with vfEnable := false }
    else if s.fns.any fun f => fnLink f.n == link && fnFunc f.n != 0 then s
    else
      let k := if numVfs ≤ totalVfs s link then numVfs else l.numVfs
      let s1 := modLink s link fun l => { l with numVfs := k, vfEnable := enable }
      if enable then addVfs s1 link k else s1)

/-! ### Power states of a function (R352) -/

/-- FUNCTION_D3HOT: the function enters D3hot, or loses Bus Master Enable. -/
def execFunctionD3hot (fn : Nat) (d3 : Bool) (s : State) : Host.Outcome State Fault Refusal :=
  .next (modFn s fn fun f => if d3 then { f with d3hot := true } else { f with busMaster := false })

/-- Write one kept completion as of this beat: a command's, which ends with it, or a refusal's (R352). -/
def writeKept (s : State) (k : KeptCompletion) : State :=
  match k.ctx with
  | some c => tryComplete s c
  | none => writeCompletion s k.ring k.status k.cid k.detail k.result 0 (some 0) k.noIrq

/-- FUNCTION_RETURN_D0: kept completions are written in order, each with its message, then the messages that fell due; none after a hot stop or a loss
of power (R67). -/
def execFunctionReturnD0 (fn : Nat) (s : State) : Host.Outcome State Fault Refusal :=
  .next (match getFn s fn with
    | none => s
    | some f =>
      if s.therm.hotAt.isSome || s.power.lost then modFn s fn fun f => { f with d3hot := false, busMaster := true } else
      let s1 := modFn s fn fun f => { f with d3hot := false, busMaster := true, kept := [] }
      msixDrainAll (f.kept.foldl writeKept s1) fn)

/-! ### USB4 (R356 to R358) -/

/-- Lanes of a USB4 mode: the wide direction of an asymmetric one. -/
def usbLanes (mode : Nat) : Nat := if mode = 1 ∨ mode = 2 then 3 else 2

/-- USB4_TUNNEL_UP: the connection manager enables the PCIe tunnel of a port that has entered USB4. -/
def execUsb4TunnelUp (port mode : Nat) (s : State) : Host.Outcome State Fault Refusal :=
  .next (let l := 4 + port
    if 2 ≤ port ∨ 5 ≤ mode ∨ !s.day.hostOn ∨ !bit (nvVal s 0x0A000004) port ∨ !(getLink s l).usbEntered ∨
        2 ≤ (getLink s l).st ∨ linkHasFns s l then s
    else addFn (modLink s l fun k => { k with st := 2, rate := mode, width := usbLanes mode, usbMode := mode }) (newFn (64 * l) 2048))

/-- USB4_TUNNEL_DOWN: the router is reset or unplugged, or the path torn down. -/
def execUsb4TunnelDown (port : Nat) (s : State) : Host.Outcome State Fault Refusal := .next (if 2 ≤ port then s else linkDown s (4 + port))

/-- A USB PD message: its header with type and object count, then its objects (PRESUMED, log entry 20). -/
def pdMessage (typ : Nat) (objs : List Nat) : List Byte := leBytes 2 (typ + objs.length * 2 ^ 12) ++ objs.flatMap (leBytes 4)

/-- ENTER_USB: the module accepts vSafe5V at no current, answers Discover Identity, accepts Enter_USB for
USB4, and answers nothing else. The three identity objects are free values (log entry 3). -/
def execEnterUsb (port : Nat) (message : List Byte) (s : State) : Host.Outcome State Fault Refusal :=
  .next (if 2 ≤ port ∨ !s.day.hostOn then s else
    let h := field message 0 2
    let typ := bits h 4 0
    let n := bits h 14 12
    let o := field message 2 4
    if 0 < n ∧ typ = 1 then emit s (.pd (pdMessage 2 [2 ^ 28]))
    else if 0 < n ∧ typ = 15 ∧ bits o 31 16 = 0xFF00 ∧ bits o 4 0 = 1 ∧ bits o 7 6 = 0 then
      let (a, s1) := drawFree s
      let (b, s2) := drawFree s1
      let (c, s3) := drawFree s2
      emit s3 (.pd (pdMessage 15 [0xFF008041, a.toNat % 2 ^ 32, b.toNat % 2 ^ 32, c.toNat % 2 ^ 32]))
    else if 0 < n ∧ typ = 8 ∧ bits o 30 28 = 2 then
      emit (modLink s (4 + port) fun l => { l with usbEntered := true }) (.pd (pdMessage 3 []))
    else s)

end Sys2Proof.Machine
end

