-- ==== Sys2Proof/Machine/Sideband.lean ====
section
/-! DEFINITION. The sideband: MCTP packets and control messages, mailbox requests and their responses
(R359 to R367). -/

namespace Sys2Proof.Machine

/-! ### Packets and control messages (R359, R360) -/

/-- One bit of the SMBus CRC-8, x^8 + x^2 + x + 1. -/
def pecBit (c : Byte) : Byte := if c.getLsbD 7 then (c <<< 1) ^^^ 0x07 else c <<< 1

/-- The PEC of bytes. -/
def pec (bs : List Byte) : Byte := bs.foldl (fun c b => pecBit (pecBit (pecBit (pecBit (pecBit (pecBit (pecBit (pecBit (c ^^^ b))))))))) 0

/-- The module's 7-bit target address. -/
def smbAddr (s : State) : Nat := 0x40 + 2 * s.side.slotId + b2n s.twin.side

/-- A packet's framing holds (DSP0237, PRESUMED, log entry 20): its target address, command code 0x0F, byte
count, source address, MCTP version 1 and a good PEC; at most 64 bytes of payload. -/
def packetOk (s : State) (p : List Byte) : Bool :=
  let n := p.length
  decide (9 ≤ n) && decide (n ≤ 73) && field p 0 1 == 2 * smbAddr s && field p 1 1 == 0x0F && field p 2 1 + 4 == n &&
  field p 3 1 % 2 == 1 && field p 4 1 % 16 == 1 && p.getLast? == some (pec p.dropLast)

/-- Count and answer one mailbox request. -/
def reply (s : State) (cmd : Nat) (st : BitVec 16) (seq : Nat) (body : List Byte) : State :=
  emit (s.updSide fun x => { x with messages := satAdd x.messages 1 }) (.sideband cmd st.toNat seq body)

/-- PLEN of a request; none for a CMD that takes any. -/
def reqPlen : Nat → Option Nat
  | 0x05 => some 36 | 0x06 => none | 0x07 => some 8 | 0x08 => some 4 | _ => some 0

/-- A complete message: a mailbox request with an undefined CMD, a wrong PLEN or a non-zero reserved field is
answered BAD_ENTRY; a well-formed one is answered by its own step. -/
def messageIn (s : State) (m : List Byte) : State :=
  if field m 0 1 % 128 ≠ 0x7F ∨ m.length < 12 then s
  else
    let cmd := field m 5 1
    let plen := field m 10 2
    let good := decide (1 ≤ cmd ∧ cmd ≤ 9) && decide (m.length ≤ 1024) && m.length == 12 + plen && (reqPlen cmd).all (· == plen) &&
      (cmd != 0x06 || decide (64 ≤ plen)) && field m 7 1 == 0 && field m 8 2 == 0 && decide (field m 0 1 = 0x7F) &&
      (m.drop 1).take 4 == (leBytes 4 58214).reverse && (cmd != 0x07 || field m 13 3 == 0)
    if good then s else reply s cmd St.badEntry (field m 6 1) []

/-- Source endpoint, tag owner and tag of a packet, which the packets of one message share (DSP0236, PRESUMED, log entry 20). -/
def packetKey (p : List Byte) : Nat := field p 6 1 * 16 + field p 7 1 % 16

/-- The sequence number of a packet in its message, modulo 4. -/
def packetSeq (p : List Byte) : Nat := bits (field p 7 1) 5 4

/-- A packet that neither starts nor continues a message: counted; out of sequence, it ends the message that it belongs to. -/
def strayPacket (s : State) (p : List Byte) : State :=
  let ends := s.side.asmOn && packetKey p == s.side.asmKey
  s.updSide fun x => { x with errors := satAdd x.errors 1, asm := if ends then [] else x.asm, asmOn := x.asmOn && !ends }

/-- MCTP_PACKET: dropped and counted where it fails; otherwise its payload starts a message, or joins the one assembled. -/
def execMctpPacket (packet : List Byte) (s : State) : Host.Outcome State Fault Refusal :=
  .next (if !s.power.aonPowered then s
    else if !packetOk s packet then s.updSide fun x => { x with errors := satAdd x.errors 1 }
    else
      let dst := field packet 5 1
      let fl := field packet 7 1
      let som := bit fl 7
      let eom := bit fl 6
      let body := (packet.drop 8).dropLast
      if dst ≠ 0 ∧ dst ≠ s.side.eid then s
      else if !som && !(s.side.asmOn && packetKey packet == s.side.asmKey && packetSeq packet == s.side.asmSeq) then strayPacket s packet
      else
        let m := if som then body else s.side.asm ++ body
        if eom then messageIn (s.updSide fun x => { x with asm := [], asmOn := false }) m
        else s.updSide fun x => { x with asm := m, asmOn := true, asmKey := packetKey packet, asmSeq := (packetSeq packet + 1) % 4 })

/-- A response to an MCTP control message (DSP0236, PRESUMED, log entry 20): type 0, command, completion code. -/
def control (s : State) (cmd code : Nat) (body : List Byte) : State := emit s (.mctp (leBytes 1 0 ++ leBytes 1 cmd ++ leBytes 1 code ++ body))

/-- SET_ENDPOINT_ID: operations 0 and 1 assign an ID other than 0 and 0xFF. -/
def execSetEndpointId (op eid : Nat) (s : State) : Host.Outcome State Fault Refusal :=
  .next (if !s.power.aonPowered then s
    else if 2 ≤ op ∨ eid = 0 ∨ 255 ≤ eid then control s 0x01 0x02 []
    else control (s.updSide fun x => { x with eid := eid }) 0x01 0 (leBytes 1 0 ++ leBytes 1 eid ++ leBytes 1 0))

/-- GET_ENDPOINT_ID. -/
def execGetEndpointId (s : State) : Host.Outcome State Fault Refusal :=
  .next (if s.power.aonPowered then control s 0x02 0 (leBytes 1 s.side.eid ++ leBytes 2 0) else s)

/-- GET_MCTP_VERSION_SUPPORT: one version, which the spec does not state: a free value (log entry 3); a type
the module does not support is answered with code 0x80 (PRESUMED, log entry 20). -/
def execGetMctpVersionSupport (typ : Nat) (s : State) : Host.Outcome State Fault Refusal :=
  .next (if !s.power.aonPowered then s
    else if typ = 0 ∨ typ = 0x7F ∨ typ = 0xFF then
      let (v, s1) := drawFree s
      control s1 0x04 0 (leBytes 1 1 ++ leBytes 4 v.toNat)
    else control s 0x04 0x80 [])

/-- GET_MESSAGE_TYPE_SUPPORT: one type beside control, 0x7F. -/
def execGetMessageTypeSupport (s : State) : Host.Outcome State Fault Refusal :=
  .next (if s.power.aonPowered then control s 0x05 0 (leBytes 1 1 ++ leBytes 1 0x7F) else s)

/-- GET_VENDOR_DEFINED_SUPPORT: one set, by IANA number; the set's own version word is a free value. -/
def execGetVendorDefinedSupport (sel : Nat) (s : State) : Host.Outcome State Fault Refusal :=
  .next (if !s.power.aonPowered then s
    else if sel ≠ 0 then control s 0x06 0x02 []
    else
      let (v, s1) := drawFree s
      control s1 0x06 0 (leBytes 1 0xFF ++ leBytes 1 1 ++ (leBytes 4 58214).reverse ++ leBytes 2 v.toNat))

/-! ### Which requests are served (R361, R363, R441) -/

/-- Midnight, and the darkness after Last Light or a controller hot stop. -/
def deepDark (s : State) : Bool := s.day.day == .midnight || s.power.lost || hotStopped s

/-- The logic that serves ATTEST, ADMIN and LOG is dark: outside Noon and Dusk, or fatal. -/
def logicDark (s : State) : Bool := deepDark s || s.day.day == .night || s.day.day == .dawn || s.day.fatal

/-! ### Mailbox requests (R361 to R367) -/

/-- A 16-bit field of a value in mV; a value it cannot hold is a free value (log entry 3). -/
def mv16 (s : State) (v : Int) : List Byte × State :=
  if v < 0 then (leBytes 2 0, s)
  else if v < 65536 then (leBytes 2 v.toNat, s)
  else
    let (f, s1) := drawFree s
    (leBytes 2 f.toNat, s1)

/-- The health record. -/
def healthRecord (s : State) : List Byte × State :=
  let (tmax, s1) := match hottest s (List.range 28) with
    | some t => (BitVec.ofInt 8 (t / 16), s)
    | none =>
      let (f, s2) := drawFree s
      (f.setWidth 8, s2)
  let mid := if deepDark s then leBytes 8 0 else leBytes 1 s.care.wearStage ++ leBytes 1 tmax.toNat ++ leBytes 2 0 ++ leBytes 4 (sbits 32 (spare s))
  (leBytes 4 (gstatMod s) ++ leBytes 1 (if s.day.fatal then s.day.fcause else 0) ++ leBytes 1 0 ++
    leBytes 2 (if s.day.fatal then s.day.fdetail else 0) ++ mid ++ leBytes 6 s.beat ++ leBytes 2 0 ++ leBytes 8 Config.serial.toNat, s1)

/-- HEALTH. -/
def execHealth (seq : Nat) (s : State) : Host.Outcome State Fault Refusal :=
  .next (if !s.power.aonPowered then s else
    let (b, s1) := healthRecord s
    reply s1 0x01 St.ok seq b)

/-- TEMPS. -/
def execTemps (seq : Nat) (s : State) : Host.Outcome State Fault Refusal :=
  .next (if !s.power.aonPowered then s
    else if deepDark s then reply s 0x02 St.domainOff seq []
    else reply s 0x02 St.ok seq ((List.range 28).flatMap fun i =>
      leBytes 2 (if sensorWorks s i then sbits 16 (vget s.therm.reading i 0) else 0x8000)))

/-- POWER. -/
def execPower (seq : Nat) (s : State) : Host.Outcome State Fault Refusal :=
  .next (if !s.power.aonPowered then s else
    let a := mv16 s (vget s.power.feeds 0 Feed.init).mv
    let b := mv16 a.2 (vget s.power.feeds 1 Feed.init).mv
    let h := mv16 b.2 (bankMv s)
    let rest := if deepDark s then leBytes 18 0 else
      leBytes 2 (s.power.inputMw / 100) ++ leBytes 4 s.power.energy ++ leBytes 8 s.power.armed ++ leBytes 1 s.therm.step ++ leBytes 3 0
    reply h.2 0x03 St.ok seq (a.1 ++ b.1 ++ h.1 ++ rest))

/-- EVENTS: the pending bits, cleared as they are returned. -/
def execEvents (seq : Nat) (s : State) : Host.Outcome State Fault Refusal :=
  .next (if !s.power.aonPowered then s
    else (reply s 0x04 St.ok seq (leBytes 1 s.side.pend.toNat)).updSide fun x => { x with pend := 0, alert := false })

/-- Whether a sideband ADMIN entry has the form R364 asks for. -/
def adminForm (body : List Byte) : Bool :=
  let e := entryOf body
  (e.typ == 2 || e.typ == 4) && e.cls == 6 && e.daddr == 0 && decide (e.dcount.toNat ≤ 944) && body.length == 64 + e.dcount.toNat

/-- ADMIN: the entry waits in the sideband queue with its data in the mailbox buffer. -/
def execSidebandAdmin (seq : Nat) (body : List Byte) (s : State) : Host.Outcome State Fault Refusal :=
  .next (if !s.power.aonPowered then s
    else if !adminForm body then reply s 0x06 St.badEntry seq []
    else if logicDark s || s.plan.resetFlush then reply s 0x06 St.domainOff seq []
    else if nvVal s 0x0A000009 = 0 then reply s 0x06 St.denied seq []
    else if s.side.adminBusy then reply s 0x06 St.sidebandBusy seq []
    else s.updSide fun x => { x with adminBusy := true, adminSeq := seq, adminEntry := some (entryOf body), adminData := body.drop 64 })

/-- LOG: up to 1,000 bytes of a page; page 0x01 is kept answering while the module is fatal. -/
def execLog (seq : Nat) (body : List Byte) (s : State) : Host.Outcome State Fault Refusal :=
  .next (if !s.power.aonPowered then s
    else
      let pg := field body 0 1
      let off := field body 4 4
      if body.length ≠ 8 ∨ field body 1 3 ≠ 0 then reply s 0x07 St.badEntry seq []
      else if logicDark s && !(s.day.fatal && pg == 1) then reply s 0x07 St.domainOff seq []
      else match logPage s pg with
        | none => reply s 0x07 St.range seq []
        | some bs => if bs.length ≤ off ∨ off % 4 ≠ 0 then reply s 0x07 St.range seq [] else reply s 0x07 St.ok seq ((bs.drop off).take 1000))

/-- RESET: the response, then the module reset of R112; from Midnight and after a hot stop, wake source 7. -/
def execSidebandReset (seq : Nat) (body : List Byte) (s : State) : Host.Outcome State Fault Refusal :=
  .next (if !s.power.aonPowered then s
    else if body.length ≠ 4 ∨ field body 0 4 ≠ 0x7E5E7E5E then reply s 0x08 St.badEntry seq []
    else if nvVal s 0x0A00000A = 0 then reply s 0x08 St.denied seq []
    else if s.plan.resetFlush then reply s 0x08 St.sidebandBusy seq []
    else
      let s1 := reply s 0x08 St.ok seq []
      if hotStopped s || s.day.day == .midnight then wake s1 7
      else if s.day.day == .night then moduleReset (noteWake s1 7)
      else moduleReset s1)

/-- WAKE. -/
def execSidebandWake (seq : Nat) (s : State) : Host.Outcome State Fault Refusal :=
  .next (if s.power.aonPowered then wake (reply s 0x09 St.ok seq []) 2 else s)

/-- ALERT_RESPONSE: the module's address; ALERT_N is released. -/
def execAlertResponse (s : State) : Host.Outcome State Fault Refusal :=
  .next (if s.power.aonPowered && s.side.alert then emit (s.updSide fun x => { x with alert := false }) (.mctp (leBytes 1 (smbAddr s))) else s)

end Sys2Proof.Machine
end

