-- ==== Sys2Proof/Machine/Twin.lean ====
section
/-! DEFINITION. The twin: pairing, the frames received, grants, takeover, detach and handback (R369 to R391). -/

namespace Sys2Proof.Machine

/-! ### Pairing (R385, R494, R520) -/

/-- Whether this module may pair: sided, SEALED with a matching certificate, every requested oct switched. -/
def mayPair (s : State) : Bool :=
  sided s && s.sec.life == .sealed && s.sec.certState == 1 && (List.range 16).all fun k => !octWanted s k || octSwitched s k

/-- The punty link carries frames. -/
def puntyUp (s : State) : Bool := s.day.puntyOn && decide (0 < s.twin.lanes)

/-- The certificate, before ATTACH is sent or answered (R520). -/
def sendCert (s : State) : State := sendPunty s 0x0C 0 0 (bytesWords (s.sec.cert.getD [])) []

/-- Ask the twin to attach. -/
def askAttach (s : State) (c : Option Nat) : State := (sendCtrl (sendCert s) 1).updTwin fun t => { t with asked := 1, attachBy := c }

/-- A twin command of a context ends with a status. -/
def twinPost (s : State) (c : Option Nat) (st : BitVec 16) (d : BitVec 8) : State :=
  match c with
  | some c => residentPost s c st d 0
  | none => s

/-- Answer the TWIN_ATTACH and TWIN_DETACH that are under way. -/
def endAsked (s : State) (st : BitVec 16) (d : BitVec 8) : State :=
  (twinPost (twinPost s s.twin.attachBy st d) s.twin.detachBy st d).updTwin fun t => { t with asked := 0, attachBy := none, detachBy := none }

/-- TWIN_ATTACH: an attach already under way answers OK; without a way to ask it ends as REFUSED does. -/
def execTwinAttach (c : Nat) (s : State) : Host.Outcome State Fault Refusal :=
  .next (resident s c 4 0x94 fun s x =>
    if x.snap ≠ 0 then s
    else
      let s1 := commitNow (modCtx s c fun y => { y with snap := 1 }) c
      if s.twin.st = .syncing ∨ s.twin.asked = 1 then residentPost s1 c St.ok 0 0
      else if !puntyUp s || !mayPair s || !(s.twin.st == .solo || s.twin.st == .covering || s.twin.st == .detached) then residentPost s1 c St.state 6 0
      else askAttach s1 (some c))

/-- TWIN_DETACH. -/
def execTwinDetach (c : Nat) (s : State) : Host.Outcome State Fault Refusal :=
  .next (resident s c 4 0x93 fun s x =>
    if x.snap ≠ 0 then s
    else
      let s1 := commitNow (modCtx s c fun y => { y with snap := 1 }) c
      if s.twin.st ≠ .paired ∨ !puntyUp s ∨ s.twin.asked ≠ 0 then residentPost s1 c St.state 6 0
      else (sendCtrl s1 2).updTwin fun t => { t with asked := 2, detachBy := some c })

/-- Whether the twin's heartbeat and frames are seen now. -/
def twinSeen (s : State) : Bool :=
  let h := nvVal s 0x0B000006
  decide (s.beat < s.twin.lastEdge + h) && decide (s.beat < s.twin.lastFrame + h)

/-- AUTO_ATTACH. -/
def execAutoAttach (s : State) : Host.Outcome State Fault Refusal :=
  .next (if nvVal s 0x0B000005 = 1 ∧ s.twin.st = .solo ∧ s.twin.asked = 0 ∧ s.twin.dawnWait.isNone ∧ mayPair s ∧ puntyUp s ∧ twinSeen s then askAttach s none
    else s)

/-! ### Leaving PAIRED, absence, takeover (R50, R378, R386, R388) -/

/-- Writes no longer wait for the twin (R386 step 1). -/
def dropWaits (s : State) : State := s.updCtxs fun l => l.map fun x => { x with mirrorWait := [] }

/-- SOLO: the twin's octs are tried again in TWIN_RETRY beats (R374). -/
def toSolo (s : State) (stale : Bool) : State :=
  sweepGather ((setTwin (dropWaits s) .solo).updTwin fun t =>
    { t with stale := t.stale || stale, retryAt := s.beat + nvVal s 0x0B000007, takeoverAt := none, released := false, handback := false,
             served := [], readySent := false, readySeen := false })

/-- A takeover begins: leases on every oct of the twin's side. -/
def startTakeover (s : State) (warm : Bool) : State :=
  let s1 := (dropWaits s).updTwin fun t => { t with takeoverAt := some s.beat, takeoverWarm := warm, scanDone := false }
  startLeases s1 (sideOcts s1 (!s.twin.side))

/-- Begin a takeover that counts as one; the twin is absent from this beat on. -/
def takeOver (s : State) (warm : Bool) : State :=
  startTakeover (s.updTwin fun t => { t with takeovers := satAdd t.takeovers 1, absentAt := some s.beat }) warm

/-- Whether the twin has not been seen since it was last concluded absent. -/
def stillAbsent (s : State) : Bool :=
  match s.twin.absentAt with
  | none => false
  | some b => decide (s.twin.lastEdge ≤ b) && decide (s.twin.lastFrame ≤ b)

/-- The twin is concluded absent: warm from a current copy, cold from SYNCING or a stale one. A planned detach not
yet released ends with TWIN_UNAVAILABLE first; a request not answered is refused. A SOLO module that has concluded it already retries every
TWIN_RETRY beats (R386 step 2). -/
def concludeAbsent (s : State) : State :=
  if !sided s || s.twin.takeoverAt.isSome then s
  else match s.twin.st with
  | .paired => takeOver (endAsked s St.state 6) (!s.twin.stale)
  | .solo => if stillAbsent s then s else takeOver (endAsked s St.state 6) (!s.twin.stale)
  | .syncing => if s.twin.handback then (setTwin s .covering).updTwin fun t => { t with handback := false, stale := true } else takeOver (toSolo s true) false
  | .detaching =>
    let s1 := toSolo (endAsked s St.twinUnavailable 0) false
    takeOver (startLeases s1 (sideOcts s1 s.twin.side)) (!s.twin.stale)
  | _ => endAsked s St.state 6

/-- The link is lost and the twin alive: the module leaves the pair with a stale copy. -/
def linkLost (s : State) : State :=
  match s.twin.st with
  | .paired => toSolo (endAsked s St.state 6) true
  | .detaching => startLeases (toSolo (endAsked s St.twinUnavailable 0) true) (sideOcts s s.twin.side)
  | .syncing => if s.twin.handback then (setTwin s .covering).updTwin fun t => { t with handback := false } else toSolo s true
  | _ => endAsked s St.state 6

/-- TWIN_HB_MISS: the table of R378. -/
def execTwinHbMiss (s : State) : Host.Outcome State Fault Refusal :=
  .next (let h := nvVal s 0x0B000006
    let noEdge := decide (s.twin.lastEdge + h ≤ s.beat)
    let noFrame := decide (s.twin.lastFrame + h ≤ s.beat)
    if !sided s || s.twin.hbStopped then s
    else if noEdge && noFrame then concludeAbsent s
    else if noFrame then linkLost s
    else if noEdge then s.updTwin fun t => { t with hbFaults := satAdd32 t.hbFaults 1, lastEdge := s.beat }
    else s)

/-- TWIN_PEER_REMOVED: absent at once. -/
def execTwinPeerRemoved (s : State) : Host.Outcome State Fault Refusal :=
  .next (let s1 := s.updTwin fun t => { t with peerPresent := false }
    if s.twin.hbStopped then s1 else concludeAbsent s1)

/-- TWIN_ACK_TIMEOUT: by A + 6 the twin has not acknowledged a D1 write: it posts on this module's own copy, and
the module leaves the pair with a current copy (R50, R378). -/
def execTwinAckTimeout (c : Nat) (s : State) : Host.Outcome State Fault Refusal :=
  .next (match getCtx s c with
    | none => s
    | some x =>
      if x.entry.cls ≠ 1 ∨ !mirroring s ∨ s.beat < x.admBeat + 7 ∨ x.mirrorWait.all (fun p => decide (p ≤ s.twin.ackedPseq)) then s
      else toSolo (endAsked s St.twinUnavailable 0) false)

/-- Whether a command's POST waits for nothing but the twin's acknowledgement. -/
def awaitsTwin (s : State) (x : Ctx) : Bool :=
  x.wait == .posting && mirroring s && x.mirrorWait.any (fun p => decide (s.twin.ackedPseq < p)) && durable s { x with mirrorWait := [] }

/-- CONTEXT_DEADLINE: a command ends at D; one that waits for the twin's acknowledgement alone posts on this module's own copy, which
leaves the pair (R50, R119). -/
def execContextDeadline (c : Nat) (s : State) : Host.Outcome State Fault Refusal :=
  .next (match getCtx s c with
    | none => s
    | some x =>
      if x.dOpen || decide (s.beat < x.dline) || x.wait == .fixed then s
      else if awaitsTwin s x then post (toSolo (endAsked s St.twinUnavailable 0) false) c
      else endAtDeadline s x)

/-- The lines of the twin's side as this module's own gather slots: the mirror slots are renumbered into the
gather buffer and their entries name them (R386 step 3). -/
def adoptMirror (s : State) : State :=
  let gs := s.twin.mirror.filter fun g => g.mapped && g.part == 0
  let s1 := gs.foldl (fun s g =>
    match getNs s g.nsid with
    | none => s
    | some n => match freeGather s n.gslots with
      | none => s
      | some a =>
        let mine := s.twin.mirror.filter fun h => decide (g.slot ≤ h.slot) && decide (h.slot < g.slot + n.gslots)
        s.updXlat fun x => { x.setMap (mapIdx n g.gran) (.gather a) with
          gather := x.gather ++ mine.map fun h => { h with slot := a + (h.slot - g.slot), mirrored := false, freeAt := 0, owner := 65536 } }) s
  s1.updTwin fun t => { t with mirror := [] }

/-- The first grant of a takeover: the side's epoch rises; warm, the module is COVERING; cold, RECOVERING. -/
def firstGrant (s : State) : State :=
  let s1 := raiseEpoch s (!s.twin.side)
  if s.twin.takeoverWarm then setTwin (adoptMirror s1) .covering else setTwin (s1.updTwin fun t => { t with mirror := [] }) .recovering

/-- OWN_GRANT: a toggling module is granted an oct. -/
def execOwnGrant (k : Nat) (s : State) : Host.Outcome State Fault Refusal :=
  .next (let o := getOct s k
    if 16 ≤ k ∨ !o.req ∨ o.gnt then s
    else
      let s1 := modOct s k fun o => { o with gnt := true }
      if sided s ∧ octSideB s k ≠ s.twin.side ∧ s.twin.takeoverAt.isSome ∧ s.twin.st ≠ .covering ∧ s.twin.st ≠ .recovering then firstGrant s1 else s1)

/-- GRANT_WAIT_TIMEOUT: no grant within FCH_OWN_WAIT: toggling stops; when no oct of a takeover is granted or still
asked for, SOLO. -/
def execGrantWaitTimeout (k : Nat) (s : State) : Host.Outcome State Fault Refusal :=
  .next (let o := getOct s k
    if 16 ≤ k ∨ !o.req ∨ o.gnt ∨ s.beat < o.leaseAt + nvVal s 0x0800000C then s
    else
      let s1 := modOct s k fun o => { o with req := false }
      if sided s ∧ s.twin.takeoverAt.isSome ∧ s.twin.st ≠ .covering ∧ s.twin.st ≠ .recovering ∧
          !(sideOcts s1 (!s.twin.side)).any fun j => (getOct s1 j).req || (getOct s1 j).gnt then
        (toSolo s1 true).updTwin fun t => { t with lastTakeover := 3 }
      else s1)

/-- TWIN_RETRY: a SOLO module leases the twin's octs again (R374, R386 step 2). -/
def execTwinRetry (s : State) : Host.Outcome State Fault Refusal :=
  .next (if sided s ∧ s.twin.st = .solo ∧ s.twin.takeoverAt.isNone ∧ s.twin.dawnWait.isNone ∧ s.twin.retryAt ≤ s.beat ∧ !s.twin.hbStopped then
      startTakeover s (!s.twin.stale)
    else s)

/-- TWIN_DAWN_WAIT: the twin's heartbeat seen, the module attaches; not seen, it takes over (R390). -/
def execTwinDawnWait (seen : Bool) (s : State) : Host.Outcome State Fault Refusal :=
  .next (match s.twin.dawnWait with
    | none => s
    | some b =>
      let s1 := s.updTwin fun t => { t with dawnWait := none, wasDetached := false }
      if seen then
        if (s.twin.wasDetached || nvVal s 0x0B000005 == 1) && mayPair s && puntyUp s && s.twin.asked == 0 then askAttach s1 none else s1
      else if s.beat < b then s
      else if !sided s then s1
      else takeOver (if s.twin.st = .detached then toSolo s1 false else s1) (!s.twin.stale))

/-! ### The cold scan and the care of a side taken over (R373, R386 steps 4 and 5) -/

/-- A slot from its metadata bytes (R232). -/
def metaSlot (m : List Byte) : SlotRec :=
  let f := field m 10 2
  { kind := if bits f 2 1 = 0 ∧ field m 8 2 ≠ 0 then .data else .pad, lba := BitVec.ofNat 64 (field m 0 8), nsid := field m 8 2,
    flags := BitVec.ofNat 16 f, agroup := BitVec.ofNat 32 (field m 12 4), seq := field m 16 8, bandId := BitVec.ofNat 32 (field m 24 4),
    column := field m 28 1, cell := cellOf (field m 29 1), tag := BitVec.ofNat 64 (field m 32 8), epoch := field m 40 4, bytes := [], verified := true }

/-- Raise the SEQ counter to the lowest value of its own parity above q (R373). -/
def raiseSeq (s : State) (q : Nat) : State :=
  let n := if (q + 1) % 2 = b2n s.twin.side then q + 1 else q + 2
  s.updXlat fun x => { x with seq := max x.seq n }

/-- The map of the twin's side rebuilt from what the scan found. -/
def coldScan (s : State) (found : List (Nat × SlotRec)) (recs : List JRecord) : State :=
  let other := !s.twin.side
  let theirs := fun (n : Namespace) => n.sideB == other
  let mine := s.xlat.nss.filter fun n => !theirs n
  let keepIdx := fun (i : Nat) => mine.any fun n => decide (n.mbase ≤ i) && decide (i < n.mbase + n.cap)
  let isNs := fun (j : JRecord) => (j.typ == .nsCreate || j.typ == .nsDelete) && !(mine.any fun n => n.nsid == j.nsid)
  let body := recs.filter fun j => (j.typ == .unmap || j.typ == .unrecov) && !(mine.any fun n => n.nsid == j.nsid)
  let r0 : Rec := { nss := s.xlat.nss, map := s.xlat.map.filter (fun p => keepIdx p.1), table := [], pend := [], unrecov := s.xlat.unrecov.filter keepIdx }
  let r1 := (sortBy JRecord.seq (recs.filter isNs)).foldl (fun r j => r.record [] j) r0
  let items := found.filter fun p => !(mine.any fun n => n.nsid == p.2.nsid)
  let r2 := r1.slots 0 2 (found.map Prod.snd) recs items
  let r3 := (sortBy JRecord.seq body).foldl (fun r j => r.record (atomEnds recs) j) r2
  let nss := r3.nss.map fun n => if mine.any (fun k => k.nsid == n.nsid) then n else { n with sideB := other }
  let s1 := s.updXlat fun x => { x with nss := nss, map := r3.map, unrecov := r3.unrecov, ways := [], plru := [] }
  raiseSeq s1 ((found.map fun p => p.2.seq).foldl max 0)

/-- COLD_SCAN_DONE. -/
def execColdScanDone (found : List (Nat × List Byte)) (records : List (List Byte)) (s : State) : Host.Outcome State Fault Refusal :=
  .next (if s.twin.st ≠ .recovering then s
    else setTwin ((coldScan s (found.map fun p => (p.1, metaSlot p.2)) (records.filterMap JRecord.ofBytes)).updTwin fun t => { t with scanDone := true }) .covering)

/-- BSTATE of its code; what is no code reads as ABSENT. -/
def blockSt (n : Nat) : BlockSt :=
  match [BlockSt.erased, .dirty, .banded, .retired, .factoryBad, .absent].find? fun b => b.code == n with
  | some b => b
  | none => .absent

/-- A block record from its 32 bytes (R265). -/
def Block.ofBytes (b : List Byte) : Block :=
  { pe := field b 0 4, rdCount := field b 4 4, bandId := BitVec.ofNat 32 (field b 8 4), st := blockSt (field b 12 1), candidate := bit (field b 13 1) 0,
    candNew := false, system := bit (field b 13 1) 1, pastRated := bit (field b 13 1) 2, rawTouched := bit (field b 13 1) 3, depth := field b 14 1,
    iter := field b 15 1, rcause := field b 16 1, lastCell := cellOf (field b 17 1), pfails := field b 18 2, erasedAt := field b 20 4, peSlc := field b 24 4 }

/-- TAKEOVER_CARE: the block records of the twin's set are taken, open bands of the side are closed at their last
verified stripe and set to be refreshed. -/
def execTakeoverCare (blocks : List (Nat × List Byte)) (s : State) : Host.Outcome State Fault Refusal :=
  .next (if !s.care.takeoverCare then s
    else
      let theirs := fun (die : Nat) => octSideB s (dieOct die) != s.twin.side
      let s1 := (blocks.filter fun b => theirs (b.1 / 8192)).foldl (fun s b => modBlock s b.1 fun _ => Block.ofBytes b.2) s
      let open_ := s1.media.bands.filter fun b => b.st == .opened && b.columns.any fun c => theirs c.1
      (open_.foldl (fun s b => modBand (cutBand s b.serial false) b.serial fun b => { b with refresh := true }) s1).updCare fun c => { c with takeoverCare := false })

/-! ### The punty link (R337, R376, R379) -/

/-- PUNTY_LINK_DOWN: down or retraining: PACER 0 is withdrawn; frames not acknowledged will not be. -/
def execPuntyLinkDown (s : State) : Host.Outcome State Fault Refusal :=
  .next (let s1 := s.updTwin fun t => { t with lanes := 0 }
    let s2 := s1.updCtxs fun l => l.map fun x => { x with mirrorWait := (x.mirrorWait.filter fun p => decide (s.twin.ackedPseq < p)).map fun _ => 2 ^ 64 }
    let s3 := if s2.twin.asked = 0 then s2 else endAsked s2 St.state 6
    if vget s.movers.pacer 0 false then
      markBursts (s3.updMovers fun m => { m with pacer := vset m.pacer 0 false, paceWithdrawn := if burstStarted s 0 then satAdd m.paceWithdrawn 1 else m.paceWithdrawn }) 0 false
    else s3)

/-- PUNTY_LINK_UP: with 8 lanes, or with 4 where fewer work; PSEQ starts at 1. -/
def execPuntyLinkUp (lanes : Nat) (s : State) : Host.Outcome State Fault Refusal :=
  .next (if !s.day.puntyOn ∨ lanes < 4 then s
    else s.updTwin fun t => { t with lanes := if 8 ≤ lanes then 8 else 4, txPseq := 1, rxPseq := 0, ackedPseq := 0 })

/-- Receive a frame: in order, once, over a link that is up. -/
def recvFrame (s : State) (pseq : Nat) (f : State → State) : State :=
  if !puntyUp s || decide (pseq ≤ s.twin.rxPseq) then s else f (s.updTwin fun t => { t with rxPseq := pseq, lastFrame := s.beat, peerPresent := true })

/-! ### Frames (R373, R379 to R385) -/

/-- HB. -/
def execHb (pseq seq armed : Nat) (s : State) : Host.Outcome State Fault Refusal :=
  .next (recvFrame s pseq fun s =>
    let s1 := s.updTwin fun t => { t with peerSeq := seq, peerArmed := armed }
    if sided s then raiseSeq s1 seq else s1)

/-- PUNTY_ACK. -/
def execPuntyAck (pseq : Nat) (s : State) : Host.Outcome State Fault Refusal :=
  .next (if !puntyUp s then s else
    sweepGather (s.updTwin fun t => { t with ackedPseq := max t.ackedPseq (min pseq (t.txPseq - 1)), lastFrame := s.beat, peerPresent := true }))

/-- Set an entry of the copy of the twin's side; the mirror slot it named is freed (R381). -/
def copyEntry (s : State) (i : Nat) (l : Loc) (gslots : Nat) : State :=
  let s1 := match mapGet s i with
    | .gather g => s.updTwin fun t =>
        { t with mirror := t.mirror.filter fun h => h.atom || !(decide (g ≤ gatherSlots + h.slot) && decide (gatherSlots + h.slot < g + gslots)) }
    | _ => s
  s1.updXlat fun x => x.setMap i l

/-- The gather-slot records of a granule's bytes. -/
def granSlots (n : Namespace) (slot gran seq owner : Nat) (tag : BitVec 64) (held : Bool) (bytes : List Byte) : List GatherSlot :=
  (List.range n.gslots).map fun i =>
    { slot := slot + i, nsid := n.nsid, gran := gran, part := i, g16k := n.g16k, seq := seq, tag := tag, agroup := 0, member := false, last := false,
      atom := held, mapped := !held, armed := true, mirrored := false, freeAt := 0, through := false, psa := none, owner := owner, epoch := 0,
      bytes := Mem.ofList ((bytes.drop (4096 * i)).take 4096) }

/-- GATHER: into the mirror area, named by the copy's entry, or held outside the map under its group's key; a
granule of this module's own side is written there with its SEQ kept (R381, R385 step 4). -/
def execGather (pseq : Nat) (group : Option Nat) (mslot nsid gran seq : Nat) (tag : BitVec 64) (bytes : List Byte) (s : State) :
    Host.Outcome State Fault Refusal :=
  .next (recvFrame s pseq fun s =>
    match getNs s nsid with
    | none => sendAck s
    | some n =>
      if n.sideB = s.twin.side then
        match freeGather s n.gslots with
        | none => sendAck s
        | some a =>
          let s1 := s.updXlat fun x => { x with gather := x.gather ++ granSlots n a gran seq 65536 tag false bytes }
          sendAck (setEntry (supersede s1 (mapIdx n gran)) n gran (.gather a))
      else
        let clash := fun (h : GatherSlot) => decide (mslot ≤ h.slot) && decide (h.slot < mslot + n.gslots)
        let add := fun (s : State) (key : Nat) (held : Bool) =>
          let new := granSlots n mslot gran seq key tag held bytes
          s.updTwin fun t => { t with mirror := (t.mirror.filter fun h => !clash h) ++ new }
        match group with
        | some key => sendAck (add s key true)
        | none =>
          let s1 := copyEntry s (mapIdx n gran) .unmapped n.gslots
          sendAck ((supersede (add s1 0 false) (mapIdx n gran)).updXlat fun x => x.setMap (mapIdx n gran) (.gather (gatherSlots + mslot))))

/-- The slots the twin wrote where a MAP record says, as the mirror slot held them. -/
def mirrorToMedia (s : State) (n : Namespace) (i psa seq : Nat) : State :=
  match mapGet s i with
  | .gather g =>
    let hs := s.twin.mirror.filter fun h => decide (g ≤ gatherSlots + h.slot) && decide (gatherSlots + h.slot < g + n.gslots) && !h.atom
    hs.foldl (fun s h => s.updMedia fun m => { m with slots := Assoc.set m.slots (psa + h.part) { gatherRec s h with seq := seq, verified := true } }) s
  | _ => s

/-! ### Keys that go (R516, R521) -/

/-- The key of a KEYREC entry in the log: its namespace and epoch. -/
def recKey (nsid epoch : Nat) : Nat := nsid + 4096 * epoch

/-- Destroy a key: its NSKEY entry zeroed, its record retired, the record's sector to be scrubbed (R516). -/
def destroyKey (s : State) (nsid epoch : Nat) : State :=
  let here := s.nor.log.find? fun e => e.typ == 0x0D && e.key == recKey nsid epoch
  let s1 := norRetire s 0x0D (recKey nsid epoch)
  s1.updSec fun k =>
    { k with nskeys := k.nskeys.filter fun v => !(v.nsid == nsid && v.epoch == epoch)
             keyrecs := k.keyrecs.filter fun r => !(r.nsid == nsid && r.epoch == epoch)
             scrub := match here with
               | some e => if k.scrub.contains e.sector then k.scrub else k.scrub ++ [e.sector]
               | none => k.scrub }

/-- Tell the twin of a new key, or of a destroyed one with epoch 0, while PAIRED or SYNCING (R521). -/
def tellKey (s : State) (nsid epoch old : Nat) : State :=
  if (s.twin.st == .paired || s.twin.st == .syncing) && puntyUp s && !s.twin.hbStopped then sendKeyx s nsid epoch old else s

/-! ### Namespaces that both modules create (R372) -/

/-- The context of the NS_CREATE that makes a namespace, while its completion is still to come. -/
def creatorOf (s : State) (n : Namespace) : Option Ctx := n.creating.bind fun a => s.ctxs.find? fun x => x.adm == a

/-- Whether a namespace and an NS_CREATE record claim the same NSID or a line in common. -/
def claimsSame (j : JRecord) (n : Namespace) : Bool :=
  n.nsid == j.nsid || (decide (nsLine0 n < j.value / 12 + ceilDiv j.lba 12) && decide (j.value / 12 < nsLine0 n + nsLines n))

/-- Enter a namespace in the table; no granule of its range carries a mark. -/
def putNs (s : State) (n : Namespace) : State :=
  s.updXlat fun x =>
    { x with nss := insertBy Namespace.nsid n x.nss, unrecov := x.unrecov.filter fun i => !(decide (n.mbase ≤ i) && decide (i < n.mbase + n.cap)) }

/-- The namespace that an NS_CREATE record of the twin names. -/
def twinNs (s : State) (j : JRecord) : Namespace :=
  { nsid := j.nsid, g16k := bit j.flags.toNat 2, mbase := j.value, cap := j.lba, initLines := 0, cseq := j.seq, creating := none, deleting := false,
    worn := false, sideB := !s.twin.side }

/-- Enter records in this module's own journal alone. -/
def stageOwn (s : State) (rs : List JRecord) : State := s.updXlat fun x => { x with staging := x.staging ++ rs }

/-- An NS_CREATE that gives way fails, and its key goes. -/
def failCreate (s : State) (x : Ctx) (nsid epoch : Nat) (st : BitVec 16) (d : BitVec 8) : State :=
  let s1 := (destroyKey s nsid epoch).updSec fun k => { k with keyable := k.keyable.filter (· != nsid) }
  residentPost (awaitMirror s (tellKey s1 nsid 0 epoch) x.c) x.c st d 0

/-- A namespace that side B is creating, taken out of the table, gives way to side A's record j: with j's NSID its NS_CREATE fails with
STATE; with lines in common it takes the lowest free run anew, and the twin is told. Its own record is cancelled in this module's
journal, before j where both name one NSID (R372; DEDUCED, log entry 21). -/
def yieldNs (j : JRecord) (s : State) (w : Namespace × Ctx × Nat) : State :=
  let (n, x, epoch) := w
  if n.nsid = j.nsid then
    failCreate (stageOwn s (if n.cseq < j.seq then [jrec .nsDelete 0 n.nsid 0 0 j.seq 0, j] else [])) x n.nsid epoch St.state 2
  else
    let (q, s1) := takeSeq s 2
    let s2 := stageOwn s1 [jrec .nsDelete 0 n.nsid 0 0 q 0]
    match lowestRun s2 (nsLines n) with
    | none => failCreate s2 x n.nsid epoch St.range 5
    | some a =>
      let k := { n with mbase := 12 * a, cseq := q + seqStep s }
      awaitMirror s2 (journalAdd (putNs s2 k) [jrec .nsCreate (4 * b2n k.g16k) k.nsid 0 k.cap k.cseq k.mbase]) x.c

/-- An NS_CREATE record of the twin: its namespace exists from then on; where it claims what others have, those that side B is still
creating give way to side A's, and any other stays (R372). -/
def takeTwinNs (s : State) (j : JRecord) : State :=
  let same := s.xlat.nss.filter (claimsSame j)
  let own := same.filterMap fun n => (creatorOf s n).map fun x => (n, x, nsEpoch s n.nsid)
  if same.isEmpty then putNs s (twinNs s j)
  else if s.twin.side && own.length == same.length then
    own.foldl (yieldNs j) (putNs (s.updXlat fun x => { x with nss := x.nss.filter fun n => !claimsSame j n }) (twinNs s j))
  else s

/-- A namespace of the twin goes, with its entries, cached lines, marks and mirror slots (R192, R381). -/
def dropTwinNs (s : State) (n : Namespace) : State :=
  let mine := fun i => decide (n.mbase ≤ i) && decide (i < n.mbase + n.cap)
  let lineOf := fun l => decide (nsLine0 n ≤ l) && decide (l < nsLine0 n + nsLines n)
  (s.updXlat fun x =>
    { x with nss := x.nss.filter fun k => k.nsid != n.nsid, map := x.map.filter fun p => !mine p.1, ways := x.ways.filter fun w => !lineOf w.line
             suspect := x.suspect.filter fun l => !lineOf l, deep := x.deep.filter fun d => !mine d.idx
             unrecov := x.unrecov.filter fun i => !mine i }).updTwin fun t => { t with mirror := t.mirror.filter fun h => h.nsid != n.nsid }

/-- Apply a record of the twin to the copy, without the conditions of R202 (R381). -/
def applyTwinRec (s : State) (j : JRecord) : State :=
  let at_ := fun (f : State → Namespace → State) => match getNs s j.nsid with
    | some n => f s n
    | none => s
  match j.typ with
  | .map => at_ fun s n => (List.range (max j.count 1)).foldl (fun s k =>
      let i := mapIdx n (j.lba + k)
      let psa := j.value % 2 ^ 38 + k * n.gslots
      copyEntry (mirrorToMedia s n i psa j.seq) i (.media psa) n.gslots) s
  | .unmap => at_ fun s n => (List.range j.count).foldl (fun s k => copyEntry (supersede s (mapIdx n (j.lba + k))) (mapIdx n (j.lba + k)) .unmapped n.gslots) s
  | .unrecov => at_ fun s n => s.updXlat fun x => { x with unrecov := (List.range j.count).foldl (fun l k =>
      if l.contains (mapIdx n (j.lba + k)) then l else l ++ [mapIdx n (j.lba + k)]) x.unrecov }
  | .nsCreate => takeTwinNs s j
  | .nsDelete => at_ dropTwinNs
  | _ => s

/-- JREC: into journal staging, and applied to the copy; then the acknowledgement (R381, R382). -/
def execJrec (pseq : Nat) (recs : List (List Byte)) (s : State) : Host.Outcome State Fault Refusal :=
  .next (recvFrame s pseq fun s =>
    let js := recs.filterMap JRecord.ofBytes
    let s1 := s.updXlat fun x => { x with staging := x.staging ++ js }
    sendAck (js.foldl applyTwinRec s1))

/-- The last held mirror slot of each granule of a group, in ascending granule order. -/
def heldMembers (s : State) (key : Nat) : List GatherSlot :=
  sortBy GatherSlot.gran ((s.twin.mirror.filter fun g => g.atom && g.owner == key && g.part == 0).foldl (fun l g => l.filter (fun h => h.gran != g.gran) ++ [g]) [])

/-- ACOMMIT: the members take the listed SEQ values and their entries name them; the rest of the group goes. -/
def execAcommit (pseq group : Nat) (seqs : List Nat) (s : State) : Host.Outcome State Fault Refusal :=
  .next (recvFrame s pseq fun s =>
    let ms := (heldMembers s group).zip seqs
    let s1 := ms.foldl (fun s m =>
      match getNs s m.1.nsid with
      | none => s
      | some n =>
        let i := mapIdx n m.1.gran
        let mine := fun (h : GatherSlot) => h.atom && h.owner == group && decide (m.1.slot ≤ h.slot) && decide (h.slot < m.1.slot + n.gslots)
        let done := fun (h : GatherSlot) =>
          { h with atom := false, mapped := true, member := true, seq := m.2, agroup := BitVec.ofNat 32 (nth seqs 0 0), last := decide (some m.2 = seqs.getLast?) }
        let s2 := (copyEntry s i .unmapped n.gslots).updTwin fun t => { t with mirror := updIf mine done t.mirror }
        (supersede s2 i).updXlat fun x => x.setMap i (.gather (gatherSlots + m.1.slot))) s
    sendAck (s1.updTwin fun t => { t with mirror := t.mirror.filter fun h => !(h.atom && h.owner == group) }))

/-- ADISCARD. -/
def execAdiscard (pseq group : Nat) (s : State) : Host.Outcome State Fault Refusal :=
  .next (recvFrame s pseq fun s => sendAck (s.updTwin fun t => { t with mirror := t.mirror.filter fun h => !(h.atom && h.owner == group) }))

/-- SYNC: entries of the source's side from a line on. -/
def execSync (pseq line : Nat) (entries : List (BitVec 40)) (s : State) : Host.Outcome State Fault Refusal :=
  .next (recvFrame s pseq fun s =>
    if s.twin.st ≠ .syncing then s
    else entries.zipIdx.foldl (fun s e => s.updXlat fun x => x.setMap (12 * line + e.2) (wordLoc e.1.toNat)) s)

/-- A namespace from its table entry and side byte (R213, R379). -/
def nsOfRow (r : List Byte) : Namespace :=
  { nsid := field r 0 2, g16k := bit (field r 2 1) 0, mbase := field r 8 8, cap := field r 16 8, initLines := field r 4 4, cseq := field r 24 8,
    creating := none, deleting := false, worn := false, sideB := field r 32 1 == 1 }

/-- NSTAB: the namespaces of the sides the sender is the source of. -/
def execNstab (pseq : Nat) (rows : List (List Byte)) (s : State) : Host.Outcome State Fault Refusal :=
  .next (recvFrame s pseq fun s =>
    if s.twin.st ≠ .syncing then s
    else
      let new := ((rows.map nsOfRow).filter fun n => decide (0 < n.nsid) && decide (n.nsid < 4096)).filter fun n => !sourceOf s n.sideB
      let keep := fun (n : Namespace) => sourceOf s n.sideB && !new.any fun k => k.nsid == n.nsid
      s.updXlat fun x => { x with nss := sortBy Namespace.nsid (x.nss.filter keep ++ new) })

/-- What CTRL ATTACH and GRANTED tell of the twin: TWIN_OCT_SPLIT, version, the epochs (log entry 22). -/
def peerTold (s : State) (body : List Nat) : State := s.updTwin fun t => { t with peerVersion := BitVec.ofNat 32 (nth body 1 0) }

/-- CTRL_ATTACH: GRANTED or REFUSED; granted, both modules enter SYNCING. An attach this module has asked for itself
is the same one (R391). -/
def execCtrlAttach (pseq : Nat) (body : List Nat) (s : State) : Host.Outcome State Fault Refusal :=
  .next (recvFrame s pseq fun s =>
    let v := nth body 1 0
    let mine := (imageOf s s.nor.active).version.toNat
    let skew := decide (verMajor v = verMajor mine) && decide (verMinor v ≤ verMinor mine + 1) && decide (verMinor mine ≤ verMinor v + 1)
    let ok := mayPair s && (s.twin.st == .solo || s.twin.st == .covering || (s.twin.asked == 1 && s.twin.st == .detached)) && s.twin.peerCertOk &&
      decide (nth body 0 0 = nvVal s 0x0B000003) && skew
    let s1 := sendCert (peerTold s body)
    if ok then startSync (endAsked (sendCtrl s1 3) St.ok 0) (nth body 2 0) (nth body 3 0) else sendCtrl s1 4)

/-- CTRL_DETACH: GRANTED while PAIRED; of two requests in one beat side A's is granted. -/
def execCtrlDetach (pseq : Nat) (s : State) : Host.Outcome State Fault Refusal :=
  .next (recvFrame s pseq fun s => if s.twin.st = .paired ∧ !(s.twin.asked = 2 ∧ !s.twin.side) then sendCtrl s 3 else sendCtrl s 4)

/-- CTRL_GRANTED. -/
def execCtrlGranted (pseq : Nat) (body : List Nat) (s : State) : Host.Outcome State Fault Refusal :=
  .next (recvFrame s pseq fun s =>
    if s.twin.asked = 1 then startSync (endAsked (peerTold s body) St.ok 0) (nth body 2 0) (nth body 3 0)
    else if s.twin.asked = 2 then beginDetach (s.updTwin fun t => { t with asked := 0 })
    else s)

/-- CTRL_REFUSED. -/
def execCtrlRefused (pseq : Nat) (s : State) : Host.Outcome State Fault Refusal :=
  .next (recvFrame s pseq fun s => if s.twin.asked = 0 then s else endAsked s St.state 6)

/-- CTRL_RELEASED: the other module gave its side up: a PAIRED module takes it over warm; a SYNCING one leases its own
octs, which the twin held (R388 step 4, R389). -/
def execCtrlReleased (pseq : Nat) (s : State) : Host.Outcome State Fault Refusal :=
  .next (recvFrame s pseq fun s =>
    match s.twin.st with
    | .paired => (takeOver s true).updTwin fun t => { t with released := true }
    | .syncing =>
      let s1 := s.updTwin fun t => { t with released := true }
      startLeases s1 (sideOcts s1 s.twin.side)
    | _ => s)

/-- CTRL_READY. -/
def execCtrlReady (pseq : Nat) (s : State) : Host.Outcome State Fault Refusal :=
  .next (recvFrame s pseq fun s => if s.twin.st = .syncing then s.updTwin fun t => { t with readySeen := true } else s)

/-- CTRL_LL_DONE. -/
def execCtrlLlDone (pseq : Nat) (s : State) : Host.Outcome State Fault Refusal :=
  .next (recvFrame s pseq fun s => s.updTwin fun t => { t with llDone := true })

/-- CTRL_COVERING: a module that released its side is DETACHED, its TWIN_DETACH OK (R388 step 5). -/
def execCtrlCovering (pseq : Nat) (s : State) : Host.Outcome State Fault Refusal :=
  .next (recvFrame s pseq fun s =>
    if s.twin.st = .detaching ∧ s.twin.released then
      (twinPost (setTwin s .detached) s.twin.detachBy St.ok 0).updTwin fun t => { t with detachBy := none, released := false }
    else s)

/-- ANCHOR: the latest copy of the twin's anchor is kept (R383). -/
def execAnchor (pseq : Nat) (body : List Byte) (s : State) : Host.Outcome State Fault Refusal :=
  .next (recvFrame s pseq fun s =>
    s.updTwin fun t => { t with peerAnchor := some (Anchor.ofBody body) })

end Sys2Proof.Machine
end

