-- ==== Sys2Proof/Machine/Security.lean ====
section
/-! DEFINITION. Namespaces created and deleted, namespace and system keys, the certificate, attestation, the life
cycle and tamper (R190, R192, R503 to R525). -/

namespace Sys2Proof.Machine

/-! ### Keys (R514 to R516, R521) -/

/-- A key as the module generates it: 64 bytes with unequal halves (R514). -/
def keyOk (key : List Byte) : Bool := key.length == 64 && key.take 32 != key.drop 32

/-- The epoch of the next key: on a sided module of the parity of its side (R514). -/
def newEpoch (s : State) : Nat := if sided s && s.sec.epochNext % 2 != b2n s.twin.side then s.sec.epochNext + 1 else s.sec.epochNext

/-- The body of a KEYREC entry: the key wrapped under KEK (R515). -/
def recBody (s : State) (nsid flags epoch : Nat) (key : List Byte) : List Byte :=
  leBytes 2 nsid ++ leBytes 1 flags ++ leBytes 1 0 ++ leBytes 4 epoch ++ keyWrap (kek s) key

/-- A record read from its body; the KEK in force wrapped it. -/
def recOfBody (s : State) (b : List Byte) : KeyRec :=
  { nsid := field b 0 2, flags := BitVec.ofNat 8 (field b 2 1), epoch := field b 4 4, wrapped := b.drop 8,
    kekLife := s.sec.rootLife, kekTampers := s.sec.rootTampers }

/-- A KEYREC is durable: the key is usable (R515). -/
def addKeyRec (s : State) (b : List Byte) : State :=
  let r := recOfBody s b
  s.updSec fun k => { k with keyrecs := (k.keyrecs.filter fun x => !(x.nsid == r.nsid && x.epoch == r.epoch)) ++ [r] }

/-- Take the next epoch and begin to write a new key's record (R514, R515). -/
def newKey (s : State) (nsid flags : Nat) (key : List Byte) : Nat × State :=
  let e := newEpoch s
  (e, norAppend (s.updSec fun k => { k with epochNext := e + 2 }) 0x0D (recKey nsid e) (recBody s nsid flags e key))

/-! ### Namespaces (R190 to R192, R372, R518) -/

/-- Why NS_CREATE fails (R190). -/
def createFails (s : State) (x : Ctx) : Option (BitVec 16 × BitVec 8) :=
  let n := x.entry.nsid.toNat
  let cap := x.entry.a0.toNat
  let g := if x.entry.a1 = 1 then 16384 else 4096
  if n = 0 ∨ 4095 < n ∨ cap = 0 ∨ 2 ^ 35 < cap ∨ 1 < x.entry.a1.toNat then some (St.range, 2)
  else if (getNs s n).isSome then some (St.state, 2)
  else if (lowestRun s (ceilDiv cap 12)).isNone then some (St.range, 5)
  else if s.xlat.physLimit < nsBytes s + cap * g then some (St.range, 6)
  else if !mpEn s (nsProfile s n) then some (St.range, 7)
  else none

/-- A new namespace on the lowest free run of lines, on this module's side, with its NS_CREATE record (R190, R370). -/
def createNs (s : State) (x : Ctx) : State :=
  let cap := x.entry.a0.toNat
  let line := (lowestRun s (ceilDiv cap 12)).getD 0
  let (q, s1) := takeSeq s 1
  let n : Namespace :=
    { nsid := x.entry.nsid.toNat, g16k := x.entry.a1 == 1, mbase := 12 * line, cap := cap, initLines := 0, cseq := q, creating := some x.adm,
      deleting := false, worn := s.care.worn, sideB := sided s && s.twin.side }
  let s3 := (putNs s1 n).updCare fun c => { c with sysFixed := true }
  journalAdd (s3.updSec fun k => { k with keyable := k.keyable ++ [n.nsid] }) [jrec .nsCreate (4 * b2n n.g16k) n.nsid 0 cap q n.mbase]

/-- NS_CREATE: its key's record is written first; then the namespace exists, and the command completes when the
twin has acknowledged what it was told. -/
def execNsCreate (c : Nat) (key : List Byte) (s : State) : Host.Outcome State Fault Refusal :=
  .next (resident s c 4 0x88 fun s x =>
    let n := x.entry.nsid.toNat
    if x.snap = 0 then
      match createFails s x with
      | some (st, d) => residentPost s c st d 0
      | none =>
        if !keyOk key then s
        else
          let (e, s1) := newKey (commitNow s c) n 0 key
          modCtx s1 c fun y => { y with snap := e }
    else if norWriting s 0x0D (recKey n x.snap) then s
    else match createFails s x with
      | some (st, d) => residentPost (destroyKey s n x.snap) c st d 0
      | none => residentPost (awaitMirror s (tellKey (createNs s x) n x.snap 0) c) c St.ok 0 0)

/-- Every entry of a namespace's range stops naming its place: gather slots, VALID counts, cached lines and marks go
with it (R192, R517). -/
def clearRange (s : State) (ns : Namespace) : State :=
  let mine := fun i => decide (ns.mbase ≤ i) && decide (i < ns.mbase + ns.cap)
  let s1 := ((s.xlat.map.map Prod.fst).filter mine).foldl (fun s i => setEntry s ns (i - ns.mbase) .unmapped) s
  let lineOf := fun l => decide (nsLine0 ns ≤ l) && decide (l < nsLine0 ns + nsLines ns)
  sweepGather (s1.updXlat fun t =>
    { t with ways := t.ways.filter fun w => !(lineOf w.line), suspect := t.suspect.filter fun l => !(lineOf l),
             deep := t.deep.filter fun d => !(mine d.idx), unrecov := t.unrecov.filter fun i => !(mine i) })

/-- NS_DELETE: the namespace is deleting; its record, its lines and its key go; it exists no longer from the
completion on. -/
def execNsDelete (c : Nat) (s : State) : Host.Outcome State Fault Refusal :=
  .next (resident s c 4 0x89 fun s x =>
    match ctxNs s x with
    | none => s
    | some ns =>
      let s1 := modNs (commitNow (modCtx s c fun y => { y with snap := 1 }) c) ns.nsid fun n => { n with deleting := true }
      let (q, s2) := takeSeq (clearRange s1 ns) 1
      let s3 := journalAdd s2 [jrec .nsDelete 0 ns.nsid 0 0 q 0]
      let old := nsEpoch s ns.nsid
      let s4 := (destroyKey s3 ns.nsid old).updSec fun k => { k with keyable := k.keyable.filter (· != ns.nsid) }
      residentPost (awaitMirror s (tellKey s4 ns.nsid 0 old) c) c St.ok 0 0)

/-! ### CRYPTO_ERASE and KEY_IMPORT (R517, R519) -/

/-- The UNMAP records that cover [a, a + n), each of at most 2^32 - 1 granules. -/
def unmapRecs : Nat → Nat → Nat → Nat → Nat → Nat → List JRecord
  | 0, _, _, _, _, _ => []
  | fuel + 1, nsid, a, n, q, step =>
    if n = 0 then [] else
    let k := min n (2 ^ 32 - 1)
    jrec .unmap 0 nsid k a q 0 :: unmapRecs fuel nsid (a + k) (n - k) (q + step) step

/-- CRYPTO_ERASE: a new key; then the old one is destroyed, the range unmapped, its lines to be initialised again. -/
def execCryptoErase (c : Nat) (key : List Byte) (s : State) : Host.Outcome State Fault Refusal :=
  .next (resident s c 4 0x90 fun s x =>
    match ctxNs s x with
    | none => s
    | some ns =>
      let n := ns.nsid
      if x.snap = 0 then
        if !keyOk key then s
        else
          let e := newKey (commitNow s c) n 0 key
          modCtx e.2 c fun y => { y with snap := e.1, aux := [BitVec.ofNat 64 (nsEpoch s n)] }
      else if norWriting s 0x0D (recKey n x.snap) then s
      else
        let old := (nth x.aux 0 0).toNat
        let s1 := clearRange (destroyKey s n old) ns
        let k := ceilDiv ns.cap (2 ^ 32 - 1)
        let q := takeSeq s1 k
        let s3 := replNote (journalAdd q.2 (unmapRecs k n 0 ns.cap q.1 (seqStep s))) n q.1 0 ns.cap none 0
        let s4 := (modNs s3 n fun y => { y with initLines := 0 }).updSec fun y =>
          { y with keyable := if y.keyable.contains n then y.keyable else y.keyable ++ [n] }
        residentPost (awaitMirror s (tellKey s4 n x.snap old) c) c St.ok 0 0)

/-- Twelve zero bytes, the nonce of a key in transit. -/
def zeroNonce : List Byte := List.replicate 12 0

/-- The key in a transit blob: decapsulated to this module's KEMEK, its header the additional data; none where the
tag fails (R519, R521). -/
def openKey (s : State) (head ct sealed : List Byte) : Option (List Byte) :=
  match Config.kemDecap (kemSeed s) ct with
  | none => none
  | some ss => gcmOpen (sha3 (ss ++ head)) zeroNonce head sealed

/-- What a KEY_IMPORT blob brings: the key, or why it fails. -/
def importKey (s : State) (n : Nat) (b : List Byte) : (BitVec 16 × BitVec 8) ⊕ List Byte :=
  if field b 0 4 ≠ 0x314B495A ∨ field b 4 2 ≠ n ∨ field b 6 10 ≠ 0 then .inl (St.range, 3)
  else match openKey s (b.take 16) ((b.drop 16).take 1088) ((b.drop 1104).take 80) with
    | none => .inl (St.signature, 0x10)
    | some k => if k.take 32 = k.drop 32 then .inl (St.range, 3) else .inr k

/-- KEY_IMPORT: the host's key at a new epoch; then the old one is destroyed. -/
def execKeyImport (c : Nat) (bytes : List Byte) (s : State) : Host.Outcome State Fault Refusal :=
  .next (resident s c 4 0x8F fun s x =>
    let n := x.entry.nsid.toNat
    let data := hostIn x 0 1184 bytes
    if x.aux.isEmpty then
      if !hostInDone s x 1184 bytes then
        if x.snap = 0 then beginTransfer (modCtx s c fun y => { y with snap := 1 }) x false 0 1184 else s
      else
        let s1 := endTransfer s c false 1184
        match importKey s n data with
        | .inl (st, d) => residentPost (s1.updSec fun k => { k with importFails := satAdd32 k.importFails 1 }) c st d 0
        | .inr key =>
          let (e, s2) := newKey (commitNow s1 c) n 4 key
          modCtx s2 c fun y => { y with aux := [BitVec.ofNat 64 e, BitVec.ofNat 64 (nsEpoch s n)] }
    else
      let e := (nth x.aux 0 0).toNat
      let old := (nth x.aux 1 0).toNat
      if norWriting s 0x0D (recKey n e) then s
      else residentPost (awaitMirror s (tellKey (destroyKey s n old) n e old) c) c St.ok 0 0)

/-! ### The certificate (R510 to R512, R520) -/

/-- Bytes [lo, lo + n) of a certificate are zero. -/
def zeroAt (b : List Byte) (lo n : Nat) : Bool := ((b.drop lo).take n).all (· == 0)

/-- A certificate verifies (R511). -/
def certOk (s : State) (b : List Byte) : Bool :=
  b.length == 6292 && field b 0 4 == 0x3154435A && field b 4 1 == 1 && field b 5 1 == 2 && field b 16 2 == 0x9160 &&
  zeroAt b 6 2 && zeroAt b 19 13 && zeroAt b 2528 32 &&
  (s.sec.caKeys.toList.any fun k => k.valid && !k.revoked && leBytes 32 k.digest.toNat == sha3 ((b.drop 2560).take 1312)) &&
  Config.sigOk ((b.drop 2560).take 1312) (sha3 (b.take 3872)) ((b.drop 3872).take 2420)

/-- This module's identity public key (R505). -/
def idPub (s : State) : List Byte := Config.idPublic (idSeed s)

/-- A certificate names this module's own keys and serial (R512). -/
def certMine (s : State) (b : List Byte) : Bool :=
  (b.drop 32).take 1312 == idPub s && (b.drop 1344).take 1184 == Config.kemPublic (kemSeed s) && field b 8 8 == Config.serial.toNat

/-- The certificate buffer's bytes, as SETs so far leave them. -/
def certBytes (s : State) (n : Nat) : List Byte :=
  let word := fun k => match Assoc.get s.due (0x12000013 + k) with
    | some v => v
    | none => (Assoc.get s.sec.certBuf k).getD 0
  ((List.range 792).flatMap fun k => leBytes 8 (word k).toNat).take n

/-- SEC_CERT_COMMIT: where the certificate verifies and is this module's own, it is installed from the next beat (R512, R525). -/
def execSecCertCommit (c : Nat) (s : State) : Host.Outcome State Fault Refusal :=
  .next (match waitsSet s c 0x12000010 1 with
    | none => s
    | some (_, _, v) =>
      let b := certBytes s 6292
      if v = 6292 ∧ s.sec.life = .sealed ∧ certOk s b ∧ certMine s b then
        setDone ((storeDue s 0x12000010 v).updSec fun k => { k with certNew := some b }) c St.ok 0
      else setDone s c St.signature 0)

/-- CERT: the twin's certificate is checked before it may attach. -/
def execCert (pseq : Nat) (cert : List Byte) (s : State) : Host.Outcome State Fault Refusal :=
  .next (recvFrame s pseq fun s => s.updTwin fun t => { t with peerCertOk := certOk s cert })

/-- KEYX: a key of the twin's side, kept under this module's KEK with FROM_TWIN set; the old one is destroyed; then
the acknowledgement (R521). A body whose tag fails is not stored, nor one for a namespace this module is creating (R372). -/
def execKeyx (pseq : Nat) (body : List Byte) (s : State) : Host.Outcome State Fault Refusal :=
  .next (recvFrame s pseq fun s =>
    let n := field body 0 2
    let e := field body 4 4
    let old := field body 8 4
    if e = 0 then sendAck (destroyKey s n old)
    else if ((getNs s n).map fun k => k.creating.isSome).getD false then sendAck s
    else match openKey s (body.take 12) ((body.drop 12).take 1088) ((body.drop 1100).take 80) with
      | none => s
      | some key =>
        let b := recBody s n 2 e key
        let s1 := addKeyRec (norPut s 0x0D (recKey n e) b) b
        sendAck (if old = 0 then s1 else destroyKey s1 n old))

/-! ### Attestation (R513) -/

/-- The 1,600 signed bytes' settings digest: every RW and RWL setting in ascending ID with its value. -/
def setDigest (s : State) : List Byte :=
  sha3 ((List.range 19).flatMap fun sub =>
    (sortBy Setting.base ((settingRows sub).filter fun r => r.acc == .rw || r.acc == .rwl)).flatMap fun r =>
      (List.range r.count).flatMap fun i =>
        let id := sub * 2 ^ 24 + r.base + i
        leBytes 4 id ++ leBytes 8 (readSetting s id).toNat)

/-- The evidence for a nonce. -/
def evidenceFor (s : State) (nonce : List Byte) : List Byte :=
  let img := imageOf s s.nor.active
  let body := leBytes 4 0x3154415A ++ leBytes 1 1 ++ leBytes 1 s.sec.life.code ++
    leBytes 1 (b2n s.sec.benchClose + 2 * b2n s.sec.lock + 4 * b2n (s.sec.certState == 1)) ++ leBytes 1 s.sec.tampers ++
    leBytes 8 Config.serial.toNat ++ nonce ++ leBytes 6 s.beat ++ leBytes 2 0 ++ leBytes 4 img.version.toNat ++ leBytes 4 img.svn ++
    setDigest s ++ ([1, 2, 3, 4, 5, 6].flatMap fun c => padTo 32 (cdigest s s.nor.active c)) ++ idPub s
  body ++ Config.sign (idSeed s) (sha3 body)

/-- The evidence for a nonce: the stored copy, or computed anew. -/
def attest (s : State) (nonce : List Byte) : State :=
  if s.sec.nonce = some nonce then s else s.updSec fun k => { k with nonce := some nonce, evidence := evidenceFor s nonce }

/-- ATTEST: the nonce comes in, the evidence goes out. -/
def execAttest (c : Nat) (nonce : List Byte) (s : State) : Host.Outcome State Fault Refusal :=
  .next (resident s c 4 0x8E fun s x =>
    if x.snap ≤ 1 then
      if !hostInDone s x 32 nonce then
        if x.snap = 0 then beginTransfer (modCtx s c fun y => { y with snap := 1 }) x false 0 32 else s
      else
        let s1 := attest (endTransfer s c false 32) (hostIn x 0 32 nonce)
        beginTransfer (modCtx s1 c fun y => { y with snap := 2, aux := bytesWords s1.sec.evidence }) x true 0 4020
    else if !hostReach s x then s
    else
      residentPost (endTransfer (hostOut s x 0 (padTo 4020 (x.aux.flatMap fun w => leBytes 8 w.toNat))) c true 4020) c St.ok 0 4020)

/-- SIDEBAND_ATTEST: up to 1,000 bytes of the evidence from an offset; an offset at or beyond its end is RANGE as
that of a log page is. -/
def execSidebandAttest (seq : Nat) (body : List Byte) (s : State) : Host.Outcome State Fault Refusal :=
  .next (if !s.power.aonPowered then s
    else if logicDark s then reply s 0x05 St.domainOff seq []
    else
      let off := field body 32 4
      let s1 := attest s (padTo 32 (body.take 32))
      if 4020 ≤ off then reply s1 0x05 St.range seq []
      else reply s1 0x05 St.ok seq (leBytes 4 4020 ++ (s1.sec.evidence.drop off).take 1000))

/-! ### Settings with a step of their own (R506, R514, R525) -/

/-- What SETs of this beat leave for a setting to act on. -/
def dueNow (s : State) (id : Nat) : BitVec 64 := (Assoc.get s.due id).getD 0

/-- System epochs in use, with those that rotations still to be made take (R514). -/
def epochsAhead (s : State) : Nat := s.sec.sysEpochs + s.sec.rotate + b2n s.sec.rotKey.isSome + (dueNow s 0x1200000B).toNat

/-- The key of a rotation that acts is generated, and its record begins to be written (R514). -/
def rotateKey (s : State) (key : List Byte) : State :=
  if s.sec.rotate = 0 ∨ s.sec.rotKey.isSome ∨ !keyOk key then s
  else
    let (e, s1) := newKey s 0 1 key
    s1.updSec fun k => { k with rotate := k.rotate - 1, rotKey := some e }

/-- SEC_SYSKEY_ROTATE: a SET that waits ends, its rotation counted for the next beat; without one, the key of a rotation that acts is
generated (R514, R525; DESIGN CHOICE, log entry 28: one row stands for both). -/
def execSecSyskeyRotate (c : Nat) (key : List Byte) (s : State) : Host.Outcome State Fault Refusal :=
  .next (match waitsSet s c 0x1200000B 1 with
    | none => rotateKey s key
    | some (_, _, v) =>
      if v = 0 then setDone s c St.ok 0
      else if 64 ≤ epochsAhead s then setDone s c St.range 2
      else setDone (storeDue s 0x1200000B (dueNow s 0x1200000B + 1)) c St.ok 0)

/-- A KEYREC is durable: its key is usable, and that of a rotation is the current one (R514, R515). -/
def keyDurable (s : State) (b : List Byte) : State :=
  let s1 := addKeyRec s b
  if field b 0 2 = 0 ∧ s.sec.rotKey = some (field b 4 4) then
    s1.updSec fun k => { k with sysEpochPrev := k.sysEpoch, sysEpoch := field b 4 4, sysEpochs := k.sysEpochs + 1, rotKey := none }
  else s1

/-- SEC_LOCK: durable, it acts from the next beat (R506, R525). -/
def execSecLock (c : Nat) (s : State) : Host.Outcome State Fault Refusal :=
  .next (match waitsSet s c 0x12000002 1 with
    | none => s
    | some (_, _, v) => setDone (storeDue s 0x12000002 v) c St.ok 0)

/-- Whether another slot than k is valid and not revoked, counting slots that a mask revokes. -/
def otherSlot (v : Vector KeySlot 4) (mask k : Nat) : Bool :=
  (List.range 4).any fun i => i != k && (vget v i KeySlot.init).valid && !(vget v i KeySlot.init).revoked && !bit mask i

/-- The slots with the revoke bits of a mask burned. -/
def revoke (v : Vector KeySlot 4) (mask : Nat) : Vector KeySlot 4 := v.mapFinIdx fun i k _ => if bit mask i then { k with revoked := true } else k

/-- A SET of a revocation: slot k's bit is burned from the next beat (R503, R525). -/
def revokeNext (s : State) (id k : Nat) : State := storeDue s id (dueNow s id ||| BitVec.ofNat 64 (2 ^ k))

/-- SEC_FW_KEY_REVOKE. -/
def execSecFwKeyRevoke (c : Nat) (s : State) : Host.Outcome State Fault Refusal :=
  .next (match waitsSet s c 0x1200000D 1 with
    | none => s
    | some (_, _, v) =>
      if v.toNat = (imageOf s s.nor.active).keySlot ∨ !otherSlot s.sec.fwKeys (dueNow s 0x1200000D).toNat v.toNat then setDone s c St.denied 0
      else setDone (revokeNext s 0x1200000D v.toNat) c St.ok 0)

/-- SEC_CA_REVOKE. -/
def execSecCaRevoke (c : Nat) (s : State) : Host.Outcome State Fault Refusal :=
  .next (match waitsSet s c 0x1200000E 1 with
    | none => s
    | some (_, _, v) =>
      if !otherSlot s.sec.caKeys (dueNow s 0x1200000E).toNat v.toNat then setDone s c St.denied 0
      else setDone (revokeNext s 0x1200000E v.toNat) c St.ok 0)

/-- The security settings that act in a new beat: the lock, rotations, revocations, a committed certificate (R503, R506, R512, R514, R525). -/
def secActs (s : State) (id : Nat) (v : BitVec 64) : State :=
  if id = 0x12000002 then s.updSec fun k => { k with lock := k.lock || v == 1 }
  else if id = 0x1200000B then s.updSec fun k => { k with rotate := k.rotate + v.toNat }
  else if id = 0x1200000D then s.updSec fun k => { k with fwKeys := revoke k.fwKeys v.toNat }
  else if id = 0x1200000E then s.updSec fun k => { k with caKeys := revoke k.caKeys v.toNat }
  else match s.sec.certNew with
    | some b => (norPut s 0x0C 0 (leBytes 4 6292 ++ b)).updSec fun k => { k with cert := some b, certState := 1, certNew := none }
    | none => s

/-! ### The life cycle (R507 to R509) -/

/-- LIFE_CYCLE: the fuses of the transition are burned, the command posts OK, a module reset follows its completion. -/
def execLifeCycle (c : Nat) (s : State) : Host.Outcome State Fault Refusal :=
  .next (resident s c 4 0x91 fun s _ =>
    let s1 := commitNow s c
    let s2 := match s.sec.life with
      | .blank => s1.updSec fun k => { k with life := .bench }
      | .bench => s1.updSec fun k => { k with life := .sealed, benchClose := true }
      | .sealed => (norRetire s1 0x0C 0).updSec fun k => { k with life := .returned, lock := false, cert := none, certState := 0 }
      | .returned => s1.updSec fun k => { k with life := .scrapped, secretBlown := true }
      | .scrapped => s1
    residentPost s2 c St.ok 0 0)

/-- A fresh key start at Dawn: every record retired, a new system key, an empty namespace table and map, every band a
victim (R509). The records of keys that go are scrubbed as R516 states. -/
def freshKeys (s : State) (key : List Byte) : State :=
  let s1 := (s.sec.keyrecs.map fun r => (r.nsid, r.epoch)).foldl (fun s p => destroyKey s p.1 p.2) s
  let s2 := s1.updSec fun k => { k with sysEpochs := 0, keyable := [] }
  let e := newEpoch s2
  let b := recBody s2 0 1 e key
  let s3 := addKeyRec (norPut s2 0x0D (recKey 0 e) b) b
  let s4 := s3.updSec fun k => { k with epochNext := e + 2, sysEpoch := e, sysEpochPrev := 0, sysEpochs := 1 }
  let s5 := s4.updXlat fun x => { x with nss := [], map := [], gather := [], staging := [], journal := [], gens := [], unrecov := [], deep := [], ck := none, ckWant := true }
  ((s5.updNor fun n => { n with anchor := none }).updCare fun c => { c with recWrite := none }).updMedia fun m =>
    { m with sysWait := [], bands := m.bands.map fun b => if b.st = .opened ∨ b.st = .closed then { b with st := .victim, valid := 0 } else b }

/-- Whether a Dawn makes a fresh key start (R509). -/
def freshDue (s : State) : Bool := !keyReach s 0 s.sec.sysEpoch || s.sec.sysEpoch == 0

/-! ### Key scrub (R516) -/

/-- KEY_SCRUB: the sector's current entries are written again at the head of the log; the sector is erased. -/
def execKeyScrub (sector : Nat) (s : State) : Host.Outcome State Fault Refusal :=
  .next (if !s.sec.scrub.contains sector then s
    else
      let moved := s.nor.log.filter fun e => e.sector == sector
      let off := if s.nor.head = sector then 65536 else s.nor.headOff
      let s1 := s.updNor fun n => { n with headOff := off }
      let s2 := moved.foldl (fun s e => norPut s e.typ e.key e.value) s1
      (s2.updNor fun n => { n with sysUsed := n.sysUsed.filter (· != sector) }).updSec fun k => { k with scrub := k.scrub.filter (· != sector) })

/-! ### Tamper (R522 to R524) -/

/-- Whether a cause is watched (R522). -/
def tamperWatched (s : State) (cause : Nat) : Bool :=
  match cause with
  | 1 => nvVal s 0x12000005 == 1
  | 3 => s.day.day == .noon || s.day.day == .dusk || s.day.day == .night
  | 5 => s.sec.benchClose
  | 2 | 4 => true
  | _ => false

/-- Step 4 of R523: under ERASE the next TAMPER bit is burned, or SCRAPPED when none is left. -/
def tamperErase (s : State) : State :=
  if nvVal s 0x12000004 ≠ 1 then s
  else s.updSec fun k => if k.tampers < 32 then { k with tampers := k.tampers + 1 } else { k with life := .scrapped }

/-- TAMPER_DETECT: counted and recorded; at a first cause the vault is zeroed, serving and the heartbeat stop, every
domain but the always-on one goes dark and step 4 follows. In Midnight step 4 waits for Dawn (R524). -/
def execTamperDetect (cause : Nat) (s : State) : Host.Outcome State Fault Refusal :=
  .next (if !s.power.aonPowered || !tamperWatched s cause then s
    else
      let s1 := s.updSec fun k =>
        { k with tamperEvents := satAdd32 k.tamperEvents 1, tamperLast := BitVec.ofNat 56 (cause + s.beat * 2 ^ 8)
                 tamperCauses := if k.tamperCauses.contains cause then k.tamperCauses else k.tamperCauses ++ [cause] }
      if s.sec.tamperAt.isSome then s1
      else if s.day.day = .midnight then zeroVault s1
      else
        let s2 := wipe s1
        let s3 := s2.updPower fun p => { p with llAt := none, lost := p.lost || p.llAt.isSome }
        tamperErase ((s3.updTherm fun t => { t with hotAt := none }).updSec fun k => { k with tamperAt := some s.beat }))

/-- TAMPER_RESTART: Dawn, no sooner than 250,000 beats after T, with no cause left. -/
def execTamperRestart (s : State) : Host.Outcome State Fault Refusal :=
  .next (match s.sec.tamperAt with
    | none => s
    | some t =>
      if s.beat < t + 250000 ∨ s.power.lost then s
      else startDawn (s.updSec fun k => { k with tamperAt := none, tamperCauses := [] }))

end Sys2Proof.Machine
end

