-- ==== Sys2Proof/Machine/Cane.lean ====
section
/-! DEFINITION. The Cane fabric's commands: RCALL, the links and addresses, the handshake, frames received, timers,
replication (R392 to R400). -/

namespace Sys2Proof.Machine

/-! ### RCALL at the caller (R182, R397) -/

/-- The faults of RCALL, in the order of R152. -/
def rcallChecks (x : Ctx) (w : BitVec 32) : List (Bool × Nat) :=
  let h := hread x (zH w) (ga x w) 64
  let req := field h 20 4
  let cap := field h 24 4
  [(!inBounds x (zH w) (ga x w) (gb x w) || decide (gb x w < 64) || decide (65536 < req) || decide (65536 < cap) || decide (gb x w < 64 + max req cap), 0x04),
   (req % 4 != 0 || cap % 4 != 0, 0x05)]

/-- HOPS of the request an RCALL of a command sends. -/
def hopsOf (x : Ctx) : Nat :=
  match x.src with
  | .cane _ _ h => h + 1
  | _ => 1

/-- The entry of a REQ: header bytes 0-31, then the request bytes (R398). -/
def reqEntry (node : Nat) (m : List Byte) : EntryData :=
  let e : Entry :=
    { typ := 2, op := 0, flags := 0, cls := BitVec.ofNat 8 (field m 6 1), cid := 0, nsid := BitVec.ofNat 16 (field m 4 2),
      lba := BitVec.ofNat 64 (field m 8 8), length := BitVec.ofNat 32 (field m 16 4), prog := BitVec.ofNat 32 (field m 2 2 % 4096),
      daddr := 0, dcount := 0, tag := 0, a0 := BitVec.ofNat 64 node, a1 := BitVec.ofNat 64 (field m 20 4), a2 := 0 }
  { entry := e, segs := [], code := none }

/-- A request enters the Cane queue; where CANE_QUEUE_DEPTH await decision it is answered at once. -/
def enterQueue (s : State) (sid msgId hops node : Nat) (m : List Byte) : State :=
  if nvVal s 0x0C000015 ≤ s.cane.queue.length then sendRep s sid msgId St.classFull 0 0 []
  else
    let req := field m 20 4
    let cap := field m 24 4
    s.updCane fun c =>
      { c with queue := c.queue ++ [{ sid := sid, msgId := msgId, hops := hops, node := node, data := reqEntry node m,
                                      body := padTo (max req cap) ((m.drop 32).take req), repCap := cap, at_ := s.beat }] }

/-- What RCALL sends: to its own queue, over a session, or nothing where a hop too many or no session. -/
def rcallSend (s : State) (x : Ctx) (w : BitVec 32) : State :=
  let h := hread x (zH w) (ga x w) 64
  let node := field h 0 2 % 16384
  let m := h.take 32 ++ hread x (zH w) (ga x w + 64) (field h 20 4)
  if nvVal s 0x0C000016 < hopsOf x then tellCall s x.adm (repMessage St.denied 0 0 [])
  else if node = ownNode s then enterQueue s 0 x.adm (hopsOf x) node m
  else match openTo s node with
    | none => unreachable s x.adm
    | some (sid, s1) => caneSend s1 sid 0x10 (hopsOf x) m (some x.adm)

/-- RCALL: waits until its reply is known. -/
def execRcall (c : Nat) (s : State) : Host.Outcome State Fault Refusal :=
  .next (issue s c 0x38 rcallChecks fun s x w => rcallSend (putCtx s { x.hold with reply := [] }) x w)

/-! ### Links and addresses (R393) -/

/-- Paced frames that wait for one link go to the other. -/
def movePaced (s : State) (p q : Nat) : State :=
  let move := fun (d : Desc) => if d.pacer = some p then { d with pacer := some q, chan := pacedChan q, started := vget s.movers.pacer q false } else d
  s.updMovers fun m => { m with eng := m.eng.map fun e => { e with descs := e.descs.map move } }

/-- CANE_LINK_CHANGE: down, training or up; a link that is not up has no transmit credit, and frames of every session
go out on the other. -/
def execCaneLinkChange (port st : Nat) (s : State) : Host.Outcome State Fault Refusal :=
  .next (if !s.day.caneOn ∨ 2 ≤ port ∨ 2 < st then s
    else
      let s1 := s.updCane fun c => { c with link := vset c.link port st }
      let p := port + 1
      let s2 := if st ≠ 2 ∧ vget s1.movers.pacer p false then
          markBursts (s1.updMovers fun m =>
            { m with pacer := vset m.pacer p false, paceWithdrawn := if burstStarted s1 p then satAdd m.paceWithdrawn 1 else m.paceWithdrawn }) p false
        else s1
      let s3 := if st ≠ 2 ∧ canePort s2 (1 - port) then movePaced s2 p (2 - port) else s2
      (s3.cane.sessions.map Session.sid).foldl canePump s3)

/-- NEIGHBOR_SOLICITATION: for this module's address it is answered with an advertisement: its flags, the target, the
port's MAC (the layout is RFC 4861's, log entry 20). -/
def execNeighborSolicitation (port : Nat) (target src : List Byte) (s : State) : Host.Outcome State Fault Refusal :=
  .next (if 2 ≤ port ∨ !canePort s port ∨ target ≠ ownAddress s port then s
    else emit s (.icmp port 136 src (leBytes 1 0x60 ++ leBytes 3 0 ++ target ++ leBytes 1 2 ++ leBytes 1 1 ++ beBytes 6 (Config.mac (port == 1)).toNat)))

/-- ECHO_REQUEST to this module's address: answered with the same message. -/
def execEchoRequest (port : Nat) (src dst body : List Byte) (s : State) : Host.Outcome State Fault Refusal :=
  .next (if 2 ≤ port ∨ !canePort s port ∨ dst ≠ ownAddress s port then s else emit s (.icmp port 129 src body))

/-! ### The handshake (R394, R396) -/

/-- Count an authentication failure. -/
def authFail (s : State) : State := s.updCane fun c => { c with authFails := satAdd c.authFails 1 }

/-- The identity public key of a certificate. -/
def subjKey (cert : List Byte) : List Byte := (cert.drop 32).take 1312

/-- What a message is signed over by an identity key. -/
def signed (s : State) (m : List Byte) : List Byte := padTo 2420 (Config.sign (idSeed s) (sha3 m))

/-- Grant the peer credit: how much is a free value (log entry 3). -/
def grant (s : State) (sid : Nat) : State :=
  let (v, s1) := drawFree s
  caneFrame s1 sid 0x13 0 0 (leBytes 4 v.toNat)

/-- Commands and requests of a session continue under another. -/
def moveSession (s : State) (old new : Nat) : State :=
  let to_ := fun (k : Nat) => if k = old then new else k
  let s1 := s.updCane fun c => { c with queue := c.queue.map fun q => { q with sid := to_ q.sid } }
  s1.updCtxs fun l => l.map fun x => { x with src := match x.src with
    | .cane k m h => .cane (to_ k) m h
    | r => r }

/-- A session is established: credit is granted, messages go out; one it replaces hands over its messages and kept
MSGIDs and goes on receiving for 250,000 beats. -/
def establish (s : State) (sid : Nat) : State :=
  match getSession s sid with
  | none => s
  | some x =>
    let s1 := modSession s sid fun y => { y with phase := 2, opened := s.beat, lastUse := s.beat, lastAck := s.beat, rekeyOf := none }
    let s2 := match x.rekeyOf.bind (getSession s) with
      | none => s1
      | some o =>
        let s3 := modSession s1 sid fun y => { y with out := o.out ++ y.out, dedup := o.dedup, msgId := max y.msgId o.msgId }
        moveSession (modSession s3 o.sid fun y => { y with phase := 3, oldUntil := some (s.beat + 250000), out := [], dedup := [] }) o.sid sid
    canePump (grant s2 sid) sid

/-- A handshake fails: counted, ended; its RCALLs find no session unless it was to replace one. -/
def failKex (s : State) (sid : Nat) : State := dropSession (authFail s) sid

/-- A certificate field of a message at an offset: its length, then itself; and where it ends. -/
def certAt (m : List Byte) (off : Nat) : List Byte := (m.drop (off + 4)).take (field m off 4)

/-- Whether a KX1 or KX2 message is acceptable up to its signature: the domain, a certificate that verifies. -/
def kexOk (s : State) (m : List Byte) (certOff : Nat) : Bool := (m.drop 32).take 8 == domainBytes s && certOk s (certAt m certOff)

/-- A handshake this module began with a node, no KX2 yet. -/
def kexBegun (s : State) (node : Nat) : Option Session := s.cane.sessions.find? fun x => x.node == node && x.initiator && x.phase == 0

/-- A handshake a node began, no KX3 yet. -/
def kexAnswered (s : State) (node : Nat) : Option Session := s.cane.sessions.find? fun x => x.node == node && !x.initiator && x.phase == 1

/-- The keys of a handshake: initiator to responder, responder to initiator. -/
def kexKeys (ss kx1 kx2 : List Byte) : List Byte × List Byte :=
  let th := sha3 (kx1 ++ kx2)
  (sha3 (ss ++ th ++ leBytes 1 1), sha3 (ss ++ th ++ leBytes 1 2))

/-- Answer a KX1: nonce, encapsulation randomness and the session ID its KX2 frames carry are free values (log entry 3). -/
def answerKx1 (s : State) (node : Nat) (m : List Byte) (out : List CaneMsg) (rekeyOf : Option Nat) : State :=
  let (nonce, s1) := drawBytes s 32
  let (rnd, s2) := drawBytes s1 32
  let (f, s3) := drawFree s2
  let (ct, ss) := Config.kemEncap ((m.drop 40).take 1184) rnd
  let (sid, s4) := addSession s3 { Session.init with node := node, peerSid := f.toNat % 2 ^ 32, phase := 1, kx1 := m, out := out, rekeyOf := rekeyOf, lastUse := s.beat, lastAck := s.beat }
  let part := nonce ++ domainBytes s ++ leBytes 4 sid ++ padTo 1088 ct ++ certPart s
  let kx2 := part ++ signed s (m ++ part)
  let k := kexKeys ss m kx2
  sendKex (modSession s4 sid fun y => { y with kx2 := kx2, keyRx := k.1, keyTx := k.2 }) sid 2 kx2

/-- KX1: repeated, the KX2 goes again; when both nodes open at once the lower node's is kept; one to a node with an
established session replaces it. -/
def execKx1 (node : Nat) (body : List Byte) (s : State) : Host.Outcome State Fault Refusal :=
  .next (if !canKex s then s
    else match kexAnswered s node with
    | some x =>
      if x.kx1 = body then
        sendKex (s.updCane fun c => { c with retransmits := satAdd c.retransmits (segments x.kx2).length }) x.sid 2 x.kx2
      else if kexOk s body 1224 then answerKx1 (s.updCane fun c => { c with sessions := c.sessions.filter fun y => y.sid != x.sid }) node body x.out x.rekeyOf
      else authFail s
    | none =>
      if !kexOk s body 1224 then authFail s
      else match kexBegun s node with
      | some x =>
        if ownNode s < node then s
        else answerKx1 (s.updCane fun c => { c with sessions := c.sessions.filter fun y => y.sid != x.sid }) node body x.out x.rekeyOf
      | none => match sessionTo s node with
        | some x => answerKx1 s node body [] (some x.sid)
        | none => match sessionRoom s with
          | none => s
          | some s1 => answerKx1 s1 node body [] none)

/-- KX2: verified, the session is established and KX3 goes out. -/
def execKx2 (node : Nat) (body : List Byte) (s : State) : Host.Outcome State Fault Refusal :=
  .next (match kexBegun s node with
    | none => s
    | some x =>
      let cert := certAt body 1132
      let part := body.take (1136 + cert.length)
      let sig := (body.drop (1136 + cert.length)).take 2420
      match Config.kemDecap x.seed ((body.drop 44).take 1088) with
      | none => failKex s x.sid
      | some ss =>
        if !kexOk s body 1132 || !Config.sigOk (subjKey cert) (sha3 (x.kx1 ++ part)) sig then failKex s x.sid
        else
          let k := kexKeys ss x.kx1 body
          let s1 := modSession s x.sid fun y => { y with kx2 := body, peerSid := field body 40 4, keyTx := k.1, keyRx := k.2 }
          establish (sendKex s1 x.sid 3 (leBytes 4 x.sid ++ signed s (x.kx1 ++ body))) x.sid)

/-- KX3: verified, the session is established. -/
def execKx3 (node : Nat) (body : List Byte) (s : State) : Host.Outcome State Fault Refusal :=
  .next (match kexAnswered s node with
    | none => s
    | some x =>
      if !Config.sigOk (subjKey (certAt x.kx1 1224)) (sha3 (x.kx1 ++ x.kx2)) ((body.drop 4).take 2420) then failKex s x.sid
      else establish (modSession s x.sid fun y => { y with peerSid := field body 0 4 }) x.sid)

/-- Whether a session is due a rekey. -/
def rekeyDue (s : State) (x : Session) : Bool :=
  x.phase == 2 && (decide (2 ^ 32 ≤ x.txCount) || decide (x.opened + nvVal s 0x0C000012 ≤ s.beat)) &&
  !(s.cane.sessions.any fun y => y.rekeyOf == some x.sid)

/-- CANE_REKEY: a new handshake. -/
def execCaneRekey (sid : Nat) (s : State) : Host.Outcome State Fault Refusal :=
  .next (match getSession s sid with
    | none => s
    | some x => if rekeyDue s x && canKex s then (startKex s x.node (some sid)).2 else s)

/-- OLD_SESSION_KEYS_EXPIRY. -/
def execOldSessionKeysExpiry (sid : Nat) (s : State) : Host.Outcome State Fault Refusal :=
  .next (match (getSession s sid).bind Session.oldUntil with
    | none => s
    | some b => if b ≤ s.beat then s.updCane fun c => { c with sessions := c.sessions.filter fun x => x.sid != sid } else s)

/-! ### Frames received in a session (R394, R395) -/

/-- Whether an FCOUNT is new: above the highest accepted, or one of the 1,024 below it and not seen. -/
def Session.fresh (x : Session) (n : Nat) : Bool :=
  decide (x.rxHigh < n) || (decide (0 < n) && decide (n < x.rxHigh) && decide (x.rxHigh ≤ n + 1024) && !x.rxSeen.contains n)

/-- A session with an FCOUNT accepted. -/
def Session.accept (x : Session) (n beat : Nat) : Session :=
  let hi := max x.rxHigh n
  { x with rxHigh := hi, rxSeen := (n :: x.rxSeen).filter (fun k => decide (hi ≤ k + 1024)), lastUse := beat }

/-- Receive frames of a session, the last with an FCOUNT: replayed ones and those whose tag fails are dropped and
counted; accepted ones take effect. -/
def recvCane (s : State) (sid fcount : Nat) (tagOk : Bool) (frames : Nat) (f : State → Session → State) : State :=
  match getSession s sid with
  | none => s
  | some x =>
    if x.phase < 2 then s
    else if !x.fresh fcount then s.updCane fun c => { c with replayDrops := satAdd c.replayDrops 1 }
    else if !tagOk then authFail s
    else f ((modSession s sid fun y => y.accept fcount s.beat).updCane fun c => { c with framesRx := satAdd c.framesRx frames }) (x.accept fcount s.beat)

/-- The session that answers a frame: itself, or the one that replaced it. -/
def replySid (s : State) (x : Session) : Nat := if x.phase = 3 then ((sessionTo s x.node).map Session.sid).getD x.sid else x.sid

/-- Acknowledge each segment of a complete message, and grant credit for more. -/
def ackMessage (s : State) (sid msgId : Nat) (m : List Byte) : State :=
  let n := (segments m).length
  grant ((List.range n).foldl (fun s i => caneFrame s sid 0x12 0 0 (leBytes 8 msgId ++ leBytes 4 (min m.length (segBytes * (i + 1))))) s) sid

/-- REQ: onto the Cane queue; for a kept MSGID the kept REP goes again, or nothing while the command runs. -/
def execReq (sid fcount : Nat) (tagOk : Bool) (msgId hops : Nat) (body : List Byte) (s : State) : Host.Outcome State Fault Refusal :=
  .next (recvCane s sid fcount tagOk (segments body).length fun s x =>
    let k := replySid s x
    let s1 := ackMessage s k msgId body
    match ((getSession s1 k).map Session.dedup).bind fun l => l.find? fun d => d.msgId == msgId with
    | some d => match d.rep with
      | some m => if ((getSession s1 k).map fun y => y.out.any fun o => o.msgId == msgId && o.typ == 0x11).getD false then s1 else caneQueue s1 k msgId 0x11 0 m none
      | none => s1
    | none =>
      enterQueue (modSession s1 k fun y => { y with dedup := y.dedup ++ [{ msgId := msgId, rep := none, repAt := 0 }] }) k msgId hops x.node body)

/-- REP: the RCALL that waits for it is told. -/
def execRep (sid fcount : Nat) (tagOk : Bool) (msgId : Nat) (body : List Byte) (s : State) : Host.Outcome State Fault Refusal :=
  .next (recvCane s sid fcount tagOk (segments body).length fun s x =>
    let k := replySid s x
    let s1 := ackMessage s k msgId body
    match ((getSession s1 k).map Session.out).bind fun l => l.find? fun m => m.typ == 0x10 && m.msgId == msgId with
    | none => s1
    | some m =>
      let s2 := modSession s1 k fun y => { y with out := y.out.filter fun o => !(o.typ == 0x10 && o.msgId == msgId), lastAck := s.beat }
      match m.call with
      | some a => tellCall s2 a body
      | none => s2)

/-- CANE_ACK: a message is acknowledged up to a byte; wholly acknowledged it is done, a REQ once its REP is here. A REQ and
a REP of one MSGID are acknowledged in that order. -/
def execCaneAck (sid fcount : Nat) (tagOk : Bool) (msgId seg : Nat) (s : State) : Host.Outcome State Fault Refusal :=
  .next (recvCane s sid fcount tagOk 1 fun s x =>
    let k := replySid s x
    match ((getSession s k).map Session.out).bind fun l => l.find? fun m => m.msgId == msgId && m.open_ with
    | none => s
    | some m =>
      let upd := fun (o : CaneMsg) => { o with acked := max o.acked (min seg o.bytes.length) }
      modSession s k fun y =>
        { y with lastAck := s.beat
                 out := (updIf m.same upd y.out).filter fun o => !m.same o || o.open_ || o.typ == 0x10 })

/-- CREDIT. -/
def execCredit (sid fcount : Nat) (tagOk : Bool) (bytes : Nat) (s : State) : Host.Outcome State Fault Refusal :=
  .next (recvCane s sid fcount tagOk 1 fun s x =>
    let k := replySid s x
    canePump (modSession s k fun y => { y with credit := bytes }) k)

/-- KEEPALIVE: the session has been used. -/
def execKeepalive (sid fcount : Nat) (tagOk : Bool) (s : State) : Host.Outcome State Fault Refusal :=
  .next (recvCane s sid fcount tagOk 1 fun s _ => s)

/-- CLOSE: the session is gone. A request none of which was sent goes to a new session, where one can be opened; the
other RCALLs end unreachable. -/
def execClose (sid fcount : Nat) (tagOk : Bool) (s : State) : Host.Outcome State Fault Refusal :=
  .next (recvCane s sid fcount tagOk 1 fun s x =>
    let unsent := x.out.filter fun m => m.typ == 0x10 && m.sent == 0
    let s1 := dropSession (modSession s sid fun y => { y with out := y.out.filter fun m => !unsent.contains m }) sid
    if unsent.isEmpty || x.phase != 2 then s1
    else match openTo s1 x.node with
      | none => failMsgs s1 unsent
      | some (k, s2) => unsent.foldl (fun s m => caneSend s k m.typ m.hops m.bytes m.call) s2)

/-! ### Timers (R394, R397, R398) -/

/-- CANE_RTO: the unacknowledged segments of a message go again, each with a new FCOUNT; without a KX2, KX1 goes again. -/
def execCaneRto (sid msgId : Nat) (s : State) : Host.Outcome State Fault Refusal :=
  .next (match getSession s sid with
    | none => s
    | some x =>
      let rto := nvVal s 0x0C00000F
      if x.phase = 0 then
        if x.kexAt + rto ≤ s.beat then sendKex (s.updCane fun c => { c with retransmits := satAdd c.retransmits (segments x.kx1).length }) sid 1 x.kx1 else s
      else if x.phase ≠ 2 ∨ !caneUp s then s
      else
        (x.out.filter fun m => m.msgId == msgId && m.open_ && decide (m.acked < m.sent) && decide (m.sentAt + rto ≤ s.beat)).foldl (fun s m =>
          let from_ := m.acked / segBytes * segBytes
          let segs := (segmentsFrom (m.bytes.length / segBytes + 1) m.bytes from_).take (ceilDiv (m.sent - from_) segBytes)
          let s1 := segs.foldl (fun s b => caneFrame s sid m.typ m.hops m.msgId b) s
          modSession (s1.updCane fun c => { c with retransmits := satAdd c.retransmits segs.length }) sid fun y =>
            { y with out := updIf m.same (fun o => { o with sentAt := s.beat }) y.out }) s)

/-- Replication over a message that is given up starts again. -/
def replLost (s : State) (node : Nat) : State :=
  sweepGather (s.updCane fun c =>
    { c with repl := updIf (fun r => replSource s r.nsid && replNode s r.nsid == node && r.mode != 4 && r.mode != 5) (fun r => ReplState.start r.nsid) c.repl })

/-- CANE_GIVEUP: a handshake without its answer ends; a message no frame of whose session is acknowledged is dropped, its
RCALL unreachable. -/
def execCaneGiveup (sid msgId : Nat) (s : State) : Host.Outcome State Fault Refusal :=
  .next (match getSession s sid with
    | none => s
    | some x =>
      let g := nvVal s 0x0C000010
      if x.phase = 1 then if x.kexAt + g ≤ s.beat then dropSession s sid else s
      else if x.phase = 0 then if x.opened + g ≤ s.beat then dropSession s sid else s
      else
        let late := x.out.filter fun m => m.msgId == msgId && m.open_ && decide (max x.lastAck m.firstAt + g ≤ s.beat)
        if late.isEmpty then s
        else
          let s1 := failMsgs (modSession s sid fun y => { y with out := y.out.filter fun m => !late.contains m }) late
          if late.any fun m => m.typ == 0x20 then replLost s1 x.node else s1)

/-- CANE_DEDUP_EXPIRY. -/
def execCaneDedupExpiry (sid msgId : Nat) (s : State) : Host.Outcome State Fault Refusal :=
  .next (modSession s sid fun x =>
    { x with dedup := x.dedup.filter fun d => !(d.msgId == msgId && d.rep.isSome && decide (d.repAt + nvVal s 0x0C000011 ≤ s.beat)) })

/-! ### Replication (R399, R400) -/

/-- CANE_REPL: a SET of CANE_REPL_n takes effect. A changed peer or direction starts anew; clearing EN ends it; CUTOVER
goes on from where replication stands. -/
def execCaneRepl (c : Nat) (s : State) : Host.Outcome State Fault Refusal :=
  .next (match waitsSet s c 0x0C00001D 4095 with
    | none => s
    | some (_, i, v) =>
      let n := i + 1
      let old := replVal s n
      let s1 := storeNv s (0x0C00001C + n) v
      let same := bits old 33 8 = bits v.toNat 33 8 ∧ old % 4 = v.toNat % 4
      let s2 :=
        if !bit v.toNat 0 then sweepGather (s1.updCane fun k => { k with repl := k.repl.filter fun r => r.nsid != n })
        else if same then s1
        else sweepGather (s1.updCane fun k => { k with repl := (k.repl.filter fun r => r.nsid != n) ++ [ReplState.start n] })
      setDone s2 c St.ok 0)

/-- The context under which a replica's writes are entered; none has its number. -/
def replCtx (s : State) (n : Nat) (through : Bool) : Ctx :=
  let d := reqEntry 0 []
  let o : Origin := { src := .sideband, fn := noFn, admin := true, nosnoopOk := false, body := [], repCap := 0 }
  { newCtx s o { d with entry := { d.entry with nsid := BitVec.ofNat 16 n } } with c := replOwner, writeThrough := through }

/-- Apply one operation. -/
def applyOp (x : Ctx) (ns : Namespace) (s : State) (o : Nat × Nat × List Byte) : State :=
  if o.2.2.isEmpty then unmapRange s ns o.1 o.2.1 else writeGranule s x ns o.1 0 (Mem.ofList o.2.2)

/-- Apply an atom group whole. -/
def applyAtom (x : Ctx) (ns : Namespace) (s : State) (ops : List (Nat × Nat × List Byte)) : State :=
  let w := ops.foldl (fun (w : State × List AtomOp) o =>
    if o.2.2.isEmpty then (w.1, w.2 ++ [.unmap o.1 o.2.1])
    else
      let e := enterGather w.1 ns x.c o.1 0 true (!x.writeThrough) (Mem.ofList o.2.2)
      (e.2, w.2 ++ [.write o.1 e.1])) (s, [])
  commitAtom w.1 x ns w.2

/-- Whether the operations of a message lie in the namespace, each a whole granule or an unmap, and fit in the gather buffer. -/
def opsFit (s : State) (ns : Namespace) (ops : List (Nat × Nat × List Byte)) : Bool :=
  (ops.all fun o => decide (o.1 + o.2.1 ≤ ns.cap) && (o.2.2.isEmpty || (o.2.1 == 1 && o.2.2.length == ns.granule))) &&
  decide ((ops.filter fun o => !o.2.2.isEmpty).length ≤ gatherRuns s ns.gslots)

/-- REPL: applied at the replica in the order received, once, with its own SEQ values; one that does not fit or comes for
no replica is not acknowledged. Differing granule size or capacity is ERROR. -/
def execRepl (sid fcount : Nat) (tagOk : Bool) (msgId nsid : Nat) (g16k : Bool) (cap seq : Nat) (base atom cut : Bool)
    (ops : List (Nat × Nat × List Byte)) (s : State) : Host.Outcome State Fault Refusal :=
  let m := Config.replMessage [nsid, b2n g16k, cap, seq, b2n base, b2n atom, b2n cut] ops
  .next (recvCane s sid fcount tagOk (segments m).length fun s x =>
    let k := replySid s x
    match getNs s nsid, getRepl s nsid with
    | some ns, some r =>
      if !replReplica s nsid || replNode s nsid != x.node || !serves s ns.sideB || ns.deleting then s
      else if g16k != ns.g16k || cap != ns.cap then
        modRepl (ackMessage s k msgId m) nsid fun r => { r with mode := 5, greeted := false }
      else if !opsFit s ns ops || s.plan.stopped then s
      else
        let s1 := ackMessage s k msgId m
        if r.lastMsg.1 = k ∧ msgId ≤ r.lastMsg.2 then s1
        else
          let need := ((ops.filter fun o => !o.2.2.isEmpty).length) * ns.granule
          let y := replCtx s nsid (decide (armedNow s < armedUsed s + need))
          let s2 := if atom then applyAtom y ns s1 ops else ops.foldl (applyOp y ns) s1
          modRepl s2 nsid fun r =>
            { r with mode := if base then 2 else 3, greeted := r.greeted && r.mode != 1, mark := if base then r.mark else max r.mark seq
                     pseq := s2.twin.txPseq - 1, lastMsg := (k, msgId), cut := if cut then some seq else r.cut }
    | _, _ => s)

/-- REPL_ACK: at the source the operations up to the mark are done and their slots free; the first one shows whether
granule size and capacity agree; the mark at the SEQ of a cutover completes it. -/
def execReplAck (sid fcount : Nat) (tagOk : Bool) (g16k : Bool) (cap : Nat) (body : List Byte) (s : State) : Host.Outcome State Fault Refusal :=
  .next (recvCane s sid fcount tagOk 1 fun s x =>
    let n := field body 0 2
    let m := field body 8 8
    match getNs s n, getRepl s n with
    | some ns, some r =>
      if !replSource s n || replNode s n != x.node || r.mode == 4 then s
      else if g16k != ns.g16k || cap != ns.cap then sweepGather (modRepl s n fun r => { r with mode := 5, ops := [] })
      else
        let done := match r.cut with
          | some q => decide (q ≤ m)
          | none => false
        sweepGather (modRepl s n fun r =>
          { r with mode := if done then 4 else if r.mode = 1 then 2 else r.mode
                   cursor := if r.mode = 1 then 0 else r.cursor
                   ops := r.ops.filter fun o => !(o.sent && decide (o.seq ≤ m)), mark := max r.mark m })
    | _, _ => s)

end Sys2Proof.Machine
end

