-- ==== Sys2Proof/Machine/Firmware.lean ====
section
/-! DEFINITION. The boot flash, firmware download, activation and Servitor restarts (R475 to R502). -/

namespace Sys2Proof.Machine

/-! ### The image check (R488, R489) -/

/-- Bytes [off, off + n) of a bank's image are zero. -/
def imgZero (s : State) (b off n : Nat) : Bool := (Mem.readN (imageOf s b).bytes off n).all (· == 0)

/-- The component limits by CID (R488). -/
def clenMax : Nat → Nat
  | 1 => 2097152 | 2 => 524288 | 3 => 8388608 | 4 => 2097152 | 5 => 4194304 | 6 => 1048576 | _ => 0

/-- COFF and CLEN of the i-th entry of CTAB. -/
def ctabPlace (s : State) (b i : Nat) : Nat × Nat := (mfField s b (256 + 64 * i + 8) 4, mfField s b (256 + 64 * i + 12) 4)

/-- One entry of CTAB is well formed. -/
def ctabOk (s : State) (b i : Nat) : Bool :=
  let o := 256 + 64 * i
  let cid := mfField s b o 1
  let p := ctabPlace s b i
  let end_ := if i = 5 then mfField s b 24 4 else (ctabPlace s b (i + 1)).1
  decide (1 ≤ cid) && decide (cid ≤ 6) && mfField s b (o + 1) 1 == b2n (decide (3 ≤ cid)) && imgZero s b (o + 2) 2 && imgZero s b (o + 48) 16 &&
  decide (p.1 % 4096 = 0) && decide (8192 ≤ p.1) && decide (p.2 ≤ clenMax cid) && decide (p.1 + p.2 ≤ end_)

/-- Step 1: the manifest's fields and its component table. -/
def manifestOk (s : State) (b : Nat) : Bool :=
  mfField s b 0 4 == 0x31464D5A && mfField s b 4 1 == 1 && mfField s b 5 1 == 6 && mfField s b 28 2 == 0x9160 && decide (mfField s b 23 1 < 4) &&
  imgZero s b 6 2 && imgZero s b 30 226 && imgZero s b 640 1408 && imgZero s b 5780 2412 &&
  decide (mfField s b 24 4 ≤ 50331648) && decide (mfField s b 24 4 % 4096 = 0) &&
  ((List.range 6).all fun i => ctabOk s b i) && ((List.range 6).all fun c => (ctabOf s b (c + 1)).isSome)

/-- Step 2: the key slot is fused, not revoked, and holds the digest of PUBKEY. -/
def keySlotOk (s : State) (b : Nat) : Bool :=
  let k := mfField s b 22 1
  let f := vget s.sec.fwKeys k KeySlot.init
  decide (k < 4) && f.valid && !f.revoked && leBytes 32 f.digest.toNat == sha3 (Mem.readN (imageOf s b).bytes 2048 1312)

/-- Step 3: the signature. -/
def imageSigned (s : State) (b : Nat) : Bool :=
  let r := Mem.readN (imageOf s b).bytes
  Config.sigOk (r 2048 1312) (sha3 (r 0 3360)) (r 3360 2420)

/-- Steps 1 to 5: the number of the first that fails. -/
def manifestFault (s : State) (b : Nat) : Option Nat :=
  if !manifestOk s b then some 1
  else if !keySlotOk s b then some 2
  else if !imageSigned s b then some 3
  else if mfField s b 16 4 < s.nor.svnMin then some 4
  else if bit (mfField s b 23 1) 1 && s.sec.life != .bench then some 5
  else none

/-- Step 6 for one component. -/
def componentOk (s : State) (b i : Nat) : Bool :=
  let p := ctabPlace s b i
  sha3 (Mem.readN (imageOf s b).bytes p.1 p.2) == Mem.readN (imageOf s b).bytes (256 + 64 * i + 16) 32

/-- Change a bank's image record. -/
def modImage (s : State) (b : Nat) (f : Image → Image) : State :=
  s.updNor fun n => { n with images := vset n.images b (f (vget n.images b Image.init)) }

/-- The fields of an image, read from its manifest. -/
def readManifest (s : State) (b : Nat) : State :=
  modImage s b fun i =>
    { i with version := BitVec.ofNat 32 (mfField s b 8 4), svn := mfField s b 16 4, schema := mfField s b 20 2, keySlot := mfField s b 22 1,
             liveOk := bit (mfField s b 23 1) 0 }

/-! ### BOOTCTL (R483, R495, R499) -/

/-- The body of a BOOTCTL entry. -/
def bootBody (active : Nat) (prev : Option Nat) (trial : Bool) (attempts : Nat) (stage : StageSt) : List Byte :=
  leBytes 1 active ++ leBytes 1 (prev.getD 0xFF) ++ leBytes 1 (b2n trial) ++ leBytes 1 attempts ++ leBytes 1 stage.code

/-- BOOTCTL as the state stands. -/
def bootNow (s : State) : List Byte := bootBody s.nor.active s.nor.prev s.nor.trial s.nor.attempts s.nor.stage

/-- Write BOOTCTL as the state stands. -/
def putBoot (s : State) : State := norPut s 0x01 0 (bootNow s)

/-- A staging state and its BOOTCTL entry. -/
def setStage (s : State) (st : StageSt) : State := putBoot (s.updNor fun n => { n with stage := st, preloaded := n.preloaded && st == .verified })

/-- Staging states by their codes. -/
def StageSt.ofCode : Nat → StageSt
  | 1 => .erasing | 2 => .receiving | 3 => .verified | 4 => .failed | 5 => .previous | _ => .blank

/-- Take the current BOOTCTL: the banks, TRIAL, ATTEMPTS and the staging state; none: bank 0, no PREV (R499). -/
def loadBoot (s : State) : State :=
  match s.nor.log.find? fun e => e.typ == 0x01 with
  | none => s.updNor fun n => { n with active := 0, prev := none, trial := false, attempts := 0 }
  | some e =>
    let b := e.value
    s.updNor fun n =>
      { n with active := field b 0 1 % 2, prev := if field b 1 1 = 0xFF then none else some (field b 1 1 % 2), trial := field b 2 1 == 1,
               attempts := field b 3 1, stage := StageSt.ofCode (field b 4 1) }

/-- The values SETMAP of an image makes of the stored settings; a setting it drops stays stored (R498). -/
def migrated (v : BitVec 32) (l : List (Nat × BitVec 64)) : List (Nat × BitVec 64) :=
  l.map fun p => (p.1, (Config.setmap v p.1 p.2).getD p.2)

/-- The body of a MIGRATE entry (R483). -/
def migrateBody (old new state : Nat) : List Byte := leBytes 2 old ++ leBytes 2 new ++ leBytes 1 state

/-- The entries of a migration to an image of a higher schema, each with its kind and key: MIGRATE started, the migrated values beside
the old ones, MIGRATE done; none where the schema is no higher (R498). -/
def migration (s : State) (i : Image) : List (Nat × Nat × List Byte) :=
  if i.schema ≤ s.nor.schema then []
  else [(0x0A, 0, migrateBody s.nor.schema i.schema 0)] ++
    ((migrated i.version (s.nv.filter fun p => settingNv p.1)).map fun p => (0x05, settingKey i.schema p.1, settingUnder i.schema p.1 p.2)) ++
    [(0x0A, 0, migrateBody s.nor.schema i.schema 1)]

/-- Whether the log holds a current entry with this kind, key and body. -/
def norHas (s : State) (e : Nat × Nat × List Byte) : Bool := s.nor.log.any fun k => k.typ == e.1 && k.key == e.2.1 && k.value == e.2.2

/-- The entries of a migration that the log lacks are written: all of it, or, where it is done, the values that a SET changed after
migration had read them (R498). -/
def writeMigration (s : State) (i : Image) : State :=
  let all := migration s i
  let due := if norHas s (0x0A, 0, migrateBody s.nor.schema i.schema 1) then all.filter fun e => e.1 == 0x05 && !norHas s e else all
  due.foldl (fun s e => norPut s e.1 e.2.1 e.2.2) s

/-- Retire the SETTING entries of the schemas that a test picks (R498). -/
def retireSettings (s : State) (p : Nat → Bool) : State :=
  s.updNor fun n => { n with log := n.log.filter fun e => !(e.typ == 0x05 && p (e.key / 2 ^ 32)) }

/-- The stored values that entries of a schema and of lower ones hold, the highest schema's of each setting (R498); what is not stored stays. -/
def readUpTo (s : State) (schema : Nat) : List (Nat × BitVec 64) :=
  (sortBy NorEntry.key (s.nor.log.filter fun e => e.typ == 0x05 && decide (e.key / 2 ^ 32 ≤ schema))).foldl
    (fun l e => Assoc.set l (e.key % 2 ^ 32) (BitVec.ofNat 64 (field e.value 8 8))) (s.nv.filter fun p => !settingNv p.1)

/-- The settings move to the schema of the image in a bank: to a higher one they migrate, under a lower one the image reads what was
written for it; the old values are kept for a rollback. Of a migration that led to no activation the entries are retired (R497, R498,
R501). -/
def migrate (s : State) (b : Nat) : State :=
  let i := imageOf s b
  if i.schema = s.nor.schema then (if s.nor.trial then s else retireSettings s fun k => decide (i.schema < k))
  else
    let nv := if s.nor.schema < i.schema then migrated i.version s.nv else readUpTo s i.schema
    ({ writeMigration s i with nv := nv }).updNor fun n => { n with schema := i.schema, oldNv := s.nv }

/-- The settings of the old schema are current again; what was written under the new one is retired (R498). -/
def unmigrate (s : State) (b : Nat) : State :=
  let i := imageOf s b
  if i.schema = s.nor.schema then s
  else ({ retireSettings s (· == s.nor.schema) with nv := s.nor.oldNv }).updNor fun n => { n with schema := i.schema, oldNv := [] }

/-- The vendor code of an image, library slots 0 to 255 (R488, R496). -/
def vendorCode (v : BitVec 32) : List LibSlot :=
  (List.range 256).filterMap fun k => (Config.vendorSlot v k).map fun p => { slot := k, code := { decl := p.1, words := p.2 }, pins := 0 }

/-- Count an activation: its kind, and the beats to S_w of a live one (R502). -/
def noteActivation (s : State) (kind beats : Nat) : State :=
  s.updNor fun n => { n with activations := satAdd32 n.activations 1, lastAct := BitVec.ofNat 48 (kind + min beats (2 ^ 32 - 1) * 2 ^ 16) }

/-- The failing or rolled-back image gives way to PREV (R495, R499). -/
def swapBack (s : State) (p : Nat) : State :=
  putBoot (unmigrate (s.updNor fun n =>
    { n with active := p, prev := none, trial := false, attempts := 0, stage := .failed, preloaded := false }) p)

/-! ### Erasing (R485, R486, R495) -/

/-- The key of a REERASE entry. -/
def eraseKey (bank sector : Nat) : Nat := bank * 1024 + sector

/-- Ask for the erase of a sector: its REERASE entry is written first. -/
def askErase (s : State) (bank sector : Nat) : State :=
  norAppend s 0x09 (eraseKey bank sector) (leBytes 1 bank ++ leBytes 1 0 ++ leBytes 2 sector)

/-- The lowest sector with a current REERASE entry. -/
def eraseDue (s : State) : Option Nat := (s.nor.log.find? fun e => e.typ == 0x09).map NorEntry.key

/-- Start what waits for an erase: a sector with a current REERASE entry, else the next image sector of a staging
bank that is ERASING. -/
def erasePump (s : State) : State :=
  if s.nor.erasing.isSome then s
  else match eraseDue s with
    | some k => s.updNor fun n => { n with erasing := some (k / 1024, k % 1024) }
    | none =>
      if s.nor.stage = .erasing ∧ s.nor.eraseNext < 768 ∧ !s.nor.writing.any fun e => e.typ == 0x09 then askErase s (stageBank s) s.nor.eraseNext
      else s

/-- Fewer than 16 free system sectors: the oldest one's current entries move to the head and it is erased (R485). -/
def compact (s : State) : State :=
  match s.nor.sysUsed with
  | [] => s
  | k :: _ =>
    if s.nor.sysUsed.length ≤ 240 || s.nor.writing.any (fun e => e.typ == 0x09) || (eraseDue s).isSome then s
    else
      let moved := s.nor.log.filter fun e => e.sector == k
      let s1 := moved.foldl (fun s e => norPut s e.typ e.key e.value) s
      askErase (askErase s1 0 (768 + k)) 1 (768 + k)

/-- NOR_ERASE_DONE: the REERASE entry is retired once the erase has verified, and the sector is free; an erase that
does not verify runs again. -/
def execNorEraseDone (ok : Bool) (s : State) : Host.Outcome State Fault Refusal :=
  .next (match s.nor.erasing with
    | none => s
    | some (b, k) =>
      let s1 := s.updNor fun n => { n with erasing := none }
      if !ok then erasePump s1
      else
        let s2 := norRetire s1 0x09 (eraseKey b k)
        if 768 ≤ k then
          let other := s2.nor.log.any (fun e => e.typ == 0x09 && e.key == eraseKey (1 - b) k) ||
            s2.nor.writing.any (fun e => e.typ == 0x09 && e.key == eraseKey (1 - b) k)
          erasePump (if other then s2 else s2.updNor fun n => { n with sysUsed := n.sysUsed.filter (· != k - 768) })
        else
          let s3 := modImage s2 b fun i => { i with bytes := i.bytes.filter fun c => !(decide (65536 * k ≤ c.1) && decide (c.1 < 65536 * (k + 1))) }
          let s4 := if s3.nor.stage = .erasing ∧ b = stageBank s3 ∧ k = s3.nor.eraseNext then
              s3.updNor fun n => { n with eraseNext := n.eraseNext + 1 } else s3
          if s4.nor.stage = .erasing ∧ 768 ≤ s4.nor.eraseNext then
            setStage ((modImage s4 (stageBank s4) fun _ => Image.init).updNor fun n => { n with dlNext := 0, dlTries := 0, dlProgrammed := 0, eraseNext := 0 }) .blank
          else erasePump s4)

/-! ### Download (R490 to R492) -/

/-- Why a block is not taken. -/
def blockFault (s : State) (x : Ctx) : Option (BitVec 16 × BitVec 8) :=
  let off := x.entry.a0.toNat
  let n := dBytes x
  let known := s.nor.stage == .receiving && decide (8192 ≤ s.nor.dlNext)
  let limit := if known then mfField s (stageBank s) 24 4 else 50331648
  if off % 4096 ≠ 0 ∨ n = 0 ∨ 1048576 < n ∨ n % 4096 ≠ 0 ∨ limit < off + n ∨ (off = 0 ∧ n < 8192) then some (St.range, 2)
  else if off ≠ (if s.nor.stage = .blank then 0 else s.nor.dlNext) then some (St.range, 7)
  else none

/-- Components whose last byte lies in [off, off + n). -/
def endingIn (s : State) (off n : Nat) : List Nat :=
  (List.range 6).filter fun i =>
    let p := ctabPlace s (stageBank s) i
    decide (off < p.1 + p.2) && decide (p.1 + p.2 ≤ off + n)

/-- The component a position lies in, and the Keccak state of what of it stands before the position (R177, R490). -/
def hashAt (s : State) (pos : Nat) : Nat × List Byte :=
  let b := stageBank s
  match (List.range 6).find? fun i => let p := ctabPlace s b i; decide (p.1 ≤ pos) && decide (pos < p.1 + p.2) with
  | none => (0, List.replicate 200 0)
  | some i =>
    let p := ctabPlace s b i
    let bs := Mem.readN (imageOf s b).bytes p.1 (pos - p.1)
    let a := absorb (bs.length / 136) (List.replicate 25 0) bs
    let r := bs.drop (bs.length / 136 * 136)
    (mfField s b (256 + 64 * i) 1, xorBytes (lanesBytes a) (padTo 200 r))

/-- The DLJOURNAL entry for the next offset. -/
def dlBody (s : State) (next : Nat) : List Byte :=
  let h := hashAt s next
  leBytes 4 next ++ leBytes 1 h.1 ++ leBytes 1 0 ++ leBytes 2 0 ++ h.2

/-- A download that fails: the staging is FAILED. -/
def dlFail (s : State) (c detail : Nat) : State :=
  residentPost (event (setStage (s.updNor fun n => { n with dlBusy := none }) .failed) 6 0xFF) c St.signature (BitVec.ofNat 8 detail) 0

/-- Bytes of a NOR word (R478, R479). -/
def norWordBytes : Nat := 8

/-- Whether programming a word would change a bit from 0 to 1 (R480). -/
def norRefuses (old new : List Byte) : Bool := (old.zip new).any fun p => p.2 &&& ~~~ p.1 != 0

/-- Program bytes over words that hold others already: a refused word is left as it was. The bytes that result, and the refusals
(R480). -/
def programOver (old new : List Byte) : List Byte × Nat :=
  let words := (List.range (ceilDiv new.length norWordBytes)).map fun i =>
    let o := (old.drop (norWordBytes * i)).take norWordBytes
    let n := (new.drop (norWordBytes * i)).take norWordBytes
    if norRefuses o n then (o, 1) else (n, 0)
  (words.flatMap Prod.fst, sum (words.map Prod.snd))

/-- A block's program: over what an interrupted attempt has programmed the controller reads each word first; the rest is erased
(R480, R491). The bytes and the refusals. -/
def programBlock (s : State) (b off : Nat) (data : List Byte) : List Byte × Nat :=
  let k := min s.nor.dlProgrammed data.length
  let r := programOver (Mem.readN (imageOf s b).bytes off k) (data.take k)
  (r.1 ++ data.drop k, r.2)

/-- FW_DOWNLOAD: the block comes in, its pages are programmed; a manifest that fails its checks is not. A word whose program
is refused reads back different from the data sent (R480, R490). -/
def execFwDownload (c : Nat) (bytes : List Byte) (s : State) : Host.Outcome State Fault Refusal :=
  .next (resident s c 4 0x8C fun s x =>
    let n := dBytes x
    if x.snap = 2 then s
    else if x.snap = 0 ∧ (blockFault s x).isSome then
      let f := (blockFault s x).getD (St.range, 2)
      residentPost s c f.1 f.2 0
    else if !hostInDone s x n bytes then
      if x.snap = 0 then beginTransfer (modCtx s c fun y => { y with snap := 1 }) x false 0 n else s
    else
      let off := x.entry.a0.toNat
      let b := stageBank s
      let s1 := endTransfer (commitNow s c) c false n
      let w := programBlock s b off (hostIn x 0 n bytes)
      let s2 := (modImage s1 b fun i => { i with bytes := Mem.writeN i.bytes off w.1 }).updNor fun m => { m with progRefused := satAdd m.progRefused w.2 }
      match (match (if off = 0 then manifestFault s2 b else none) with
        | some k => some k
        | none => if w.2 = 0 then none else some 7) with
      | some k => dlFail s2 c k
      | none =>
        let s3 := if off = 0 then readManifest s2 b else s2
        let s4 := s3.updNor fun m => { m with dlBusy := some (c, off, n) }
        modCtx (if s.nor.stage = .receiving then s4 else setStage s4 .receiving) c fun y => { y with snap := 2 })

/-- The block's pages have been programmed and read back: its components' digests, then DLJOURNAL. -/
def blockStored (s : State) (c off n : Nat) (ok : Bool) : State :=
  if !ok then dlFail s c 7
  else if (endingIn s off n).any fun i => !componentOk s (stageBank s) i then dlFail s c 6
  else norAppend s 0x07 0 (dlBody s (off + n))

/-- DLJOURNAL is durable: the block counts as stored (R490, R491). -/
def blockDone (s : State) (c off n : Nat) : State :=
  let next := off + n
  let full := decide (next = mfField s (stageBank s) 24 4)
  let s1 := s.updNor fun m => { m with dlBusy := none, dlNext := next, dlTries := 0, dlProgrammed := 0 }
  let s2 := if full then modImage (event (setStage s1 .verified) 6 0xFF) (stageBank s1) fun i => { i with valid := true } else s1
  residentPost s2 c St.ok 0 (BitVec.ofNat 64 (next + 2 ^ 32 * b2n full))

/-- What becomes of an entry once it is durable. -/
def entryDurable (s : State) (e : NorEntry) : State :=
  match e.typ with
  | 0x0D => keyDurable s e.value
  | 0x02 => anchorDurable s e.value
  | 0x07 => match s.nor.dlBusy with
    | some (c, off, n) => blockDone s c off n
    | none => s
  | 0x09 => erasePump s
  | _ => s

/-- NOR_PROGRAM_DONE: the oldest entry being written is durable once it reads back, and is written again where it
does not; with none being written, the download block's pages have been programmed. A program beside a running erase
suspends it (R481). -/
def execNorProgramDone (ok : Bool) (s : State) : Host.Outcome State Fault Refusal :=
  .next (match s.nor.writing with
    | e :: rest =>
      let s0 := s.updNor fun n => { n with eraseSuspends := satAdd n.eraseSuspends (b2n n.erasing.isSome) }
      if !ok then s0.updNor fun n => n.advance (entryLen e.value.length)
      else compact (entryDurable (s0.updNor fun n => { n with writing := rest }.durable e) e)
    | [] => match s.nor.dlBusy with
      | some (c, off, n) => blockStored s c off n ok
      | none => s)

/-- FW_PRELOAD_DONE. -/
def execFwPreloadDone (s : State) : Host.Outcome State Fault Refusal :=
  .next (if s.nor.stage = .verified then s.updNor fun n => { n with preloaded := true } else s)

/-! ### Activation (R493 to R496) -/

/-- The steps of an FW_ACTIVATE action that writes one BOOTCTL entry: begin, wait for it, end. -/
def activate (s : State) (c act : Nat) (body : State → List Byte) (fin : State → State) : State :=
  resident s c 4 0x8D fun s x =>
    if x.entry.a0.toNat ≠ act then s
    else if x.snap = 0 then norAppend (modCtx (commitNow s c) c fun y => { y with snap := 1 }) 0x01 0 (body s)
    else if norWriting s 0x01 0 then s
    else residentPost (fin s) c St.ok 0 0

/-- FW_ACTIVATE LIVE, ACTIVATING since its admission: the migrated settings are
written, then BOOTCTL names the staged bank; the switch follows (R496). -/
def execFwActivateLive (c : Nat) (s : State) : Host.Outcome State Fault Refusal :=
  .next (resident s c 4 0x8D fun s x =>
    if x.entry.a0 ≠ 0 ∨ s.nor.activating ≠ some (c, 1) then s
    else
      let s1 := (commitNow s c).updNor fun n => { n with activating := some (c, 3), restarted := 0 }
      norAppend ((migration s (imageOf s (stageBank s))).foldl (fun s e => norAppend s e.1 e.2.1 e.2.2) s1) 0x01 0
        (bootBody (stageBank s) (some s.nor.active) true 0 .previous))

/-- FW_ACTIVATE AT_RESET. -/
def execFwActivateAtReset (c : Nat) (s : State) : Host.Outcome State Fault Refusal :=
  .next (activate s c 1 (fun s => bootBody (stageBank s) (some s.nor.active) true 0 .previous) fun s => noteActivation (event s 6 0xFF) 2 0)

/-- FW_ACTIVATE COMMIT: the trial ends, the version floor rises, entries of other schemas are retired, the previous bank is
erased. -/
def execFwActivateCommit (c : Nat) (s : State) : Host.Outcome State Fault Refusal :=
  .next (activate s c 2 (fun s => bootBody s.nor.active none false 0 .erasing) fun s =>
    let svn := (imageOf s s.nor.active).svn
    let s1 := loadBoot s
    let s2 := if s.nor.svnMin < svn then
        norPut (s1.updNor fun n => { n with svnMin := svn }) 0x05 (settingKey s.nor.schema 0x11000004)
          (settingBody s 0x11000004 (BitVec.ofNat 64 svn)) else s1
    erasePump ((retireSettings s2 (· != s.nor.schema)).updNor fun n => { n with oldNv := [], eraseNext := 0 }))

/-- FW_ACTIVATE ROLLBACK: the banks swap, the image rolled back from is FAILED; the old settings return. -/
def execFwActivateRollback (c : Nat) (s : State) : Host.Outcome State Fault Refusal :=
  .next (activate s c 3 (fun s => bootBody (s.nor.prev.getD 0) none false 0 .failed) fun s =>
    noteActivation (event (unmigrate s (s.nor.prev.getD 0)) 6 0xFF) 3 0)

/-- FW_ACTIVATE DISCARD. -/
def execFwActivateDiscard (c : Nat) (s : State) : Host.Outcome State Fault Refusal :=
  .next (activate s c 4 (fun s => bootBody s.nor.active s.nor.prev s.nor.trial s.nor.attempts .erasing) fun s =>
    erasePump ((loadBoot s).updNor fun n => { n with eraseNext := 0, preloaded := false }))

/-- FW_SWITCH_BEAT: S_w: the staged image runs; contexts started before it keep the old vendor code. -/
def execFwSwitchBeat (s : State) : Host.Outcome State Fault Refusal :=
  .next (match s.nor.activating with
    | some (c, 3) =>
      if norWriting s 0x01 0 then s
      else
        let old := s.zci.lib.filter fun l => decide (l.slot < 256)
        let s1 := migrate (loadBoot s) (stageBank s)
        let s2 := s1.updNor fun n => { n with activating := some (c, 5), switchBeat := s.beat, preloaded := false }
        let s3 := countCode (s2.updZci fun z =>
          { z with oldVlib := old, lib := vendorCode (imageOf s2 s2.nor.active).version ++ z.lib.filter fun l => decide (256 ≤ l.slot) })
        noteActivation s3 1 (s.beat - s.nor.actAt)
    | _ => s)

/-- The beat of the module reset that an activation or LIFE_CYCLE asks for (R495, R508). -/
def resetFollows (s : State) : State :=
  if s.plan.resetAfter then moduleReset (s.updPlan fun p => { p with resetAfter := false }) else s

/-- SERVITOR_RESTART: the Servitors restart in ascending order; with the last the activation ends. -/
def execServitorRestart (n : Nat) (s : State) : Host.Outcome State Fault Refusal :=
  .next (match s.nor.activating with
    | some (c, 5) =>
      if n ≠ s.nor.restarted then s
      else if n < 7 then s.updNor fun m => { m with restarted := n + 1 }
      else
        let s1 := event (s.updNor fun m => { m with activating := none, restarted := 0 }) 6 0xFF
        finishAdm s1 c 0x8D St.ok 0 0
    | _ => s)

/-- WATCHDOG_EXPIRY: counted; the Servitor restarts and resumes its work from the entries of the system region. -/
def execWatchdogExpiry (n : Nat) (s : State) : Host.Outcome State Fault Refusal :=
  .next (if 8 ≤ n ∨ vget s.mem.servHalted n false then s else s.updNor fun m => { m with wdtExpiries := satAdd m.wdtExpiries 1 })

end Sys2Proof.Machine
end

