-- ==== Sys2Proof/Machine/Memory.lean ====
section
/-! DEFINITION. The on-chip memories: corrected and uncorrectable words, tests on request, repair (R458 to R474). -/

namespace Sys2Proof.Machine

/-! ### Banks, macros and units (R459) -/

/-- The first macro of a bank; 2,048 above the last. -/
def bankBase (b : Nat) : Nat := nth [0, 512, 544, 1056, 1568, 1824, 1888, 1952, 1953, 2004, 2016] b 2048

/-- The bank of a macro. -/
def macroBank (m : Nat) : Nat := (((List.range 11).filter fun b => decide (bankBase b ≤ m)).getLast?).getD 0

/-- The unit of a bank that a macro belongs to: channel, accumulator or Servitor. -/
def macroUnit (m : Nat) : Nat :=
  match macroBank m with
  | 2 => (m - 544) / 4
  | 3 => (m - 1056) / 32
  | 10 => (m - 2016) / 4
  | _ => 0

/-- Change a bank's counts. -/
def modBank (s : State) (b : Nat) (f : MemBank → MemBank) : State :=
  s.updMem fun m => { m with banks := vset m.banks b (f (vget m.banks b MemBank.init)) }

/-- A fatal memory failure (R459, R467). -/
def memFatal (s : State) (b : Nat) : State := goFatal (modBank s b fun k => { k with health := 2 }) 4 b

/-! ### The march engine (R461, R462) -/

/-- One operation of a march element: read or write of "0" or "1". -/
inductive MarchOp where
  | r0 | r1 | w0 | w1
  deriving DecidableEq, Repr

/-- The order in which an element takes the addresses: rising, falling, or either. -/
inductive MarchDir where
  | up | down | either
  deriving DecidableEq, Repr

/-- The elements of March C−, or of March SS. -/
def marchElems (ss : Bool) : List (MarchDir × List MarchOp) :=
  if ss then
    [(.either, [.w0]), (.up, [.r0, .r0, .w0, .r0, .w1]), (.up, [.r1, .r1, .w1, .r1, .w0]), (.down, [.r0, .r0, .w0, .r0, .w1]),
     (.down, [.r1, .r1, .w1, .r1, .w0]), (.either, [.r0])]
  else
    [(.either, [.w0]), (.up, [.r0, .w1]), (.up, [.r1, .w0]), (.down, [.r0, .w1]), (.down, [.r1, .w0]), (.either, [.r0])]

/-- Operations per word. -/
def marchOps (ss : Bool) : Nat := sum ((marchElems ss).map fun e => e.2.length)

/-- The word that stands for "0" in each run of a background: all zeros, then with background 1 alternating bits. -/
def marchZeros (bkg : Bool) : List (BitVec 64) := if bkg then [0, 0x5555555555555555] else [0]

/-- Core cycles of a run over the 2,048 words of a macro, one operation a cycle; a content-preserving run takes twice as many. -/
def marchCycles (ss bkg preserve : Bool) : Nat := 2048 * marchOps ss * (marchZeros bkg).length * (if preserve then 2 else 1)

/-- Beats of so many cycles. -/
def cycleBeats (n : Nat) : Nat := ceilDiv n 6400

/-- Whether the four passes of a Dawn's run can be over. -/
def dawnRunOver (s : State) : Bool :=
  decide (s.day.stepFrom + cycleBeats (4 * marchCycles (nvVal s 0x10000001 == 1) (nvVal s 0x10000002 == 1) false) ≤ s.beat)

/-- Whether the requested test's run can be over; it starts in the beat after the SET (R464). -/
def testRunOver (s : State) : Bool :=
  decide (s.mem.testAt + 1 + cycleBeats (marchCycles s.mem.testSs s.mem.testBkg s.mem.testPreserve) ≤ s.beat)

/-! ### Repair (R465 to R467) -/

/-- Recount the rows on repair of every bank and channel buffer. -/
def countRepairs (s : State) : State :=
  let inBank := fun b (r : RowRepair) => r.bank == b
  s.updMem fun m =>
    { m with banks := m.banks.mapFinIdx fun b k _ => { k with soft := (m.softRows.filter (inBank b)).length, fused := (m.fuseRows.filter (inBank b)).length }
             chbufRows := Vector.ofFn fun n => ((m.softRows ++ m.fuseRows).filter fun r => r.bank == 2 && macroUnit r.mac == n.val).length }

/-- The lowest spare row of a macro that no repair uses and that has not failed a test itself. -/
def freeSpare (s : State) (m : Nat) : Option Nat :=
  lowest (fun k => !s.mem.badSpares.contains (m, k) && !((s.mem.softRows ++ s.mem.fuseRows).any fun r => r.mac == m && r.spare == k)) 0 4

/-- What becomes of the unit of a macro that is beyond repair (R467). -/
def beyondRepair (s : State) (m : Nat) : State :=
  let u := macroUnit m
  let worse := fun s b => modBank s b fun k => { k with health := max k.health 1, inUse := k.inUse - 1 }
  match macroBank m with
  | 2 => worse (s.updMem fun x => { x with chbufOut := vset x.chbufOut u true }) 2
  | 3 => worse (s.updMedia fun x => { x with accWithdrawn := if x.accWithdrawn.contains u then x.accWithdrawn else x.accWithdrawn ++ [u] }) 3
  | 10 =>
    let s1 := worse (s.updMem fun x => { x with servHalted := vset x.servHalted u true }) 10
    if 4 < ((List.range 8).filter fun k => vget s1.mem.servHalted k false).length then memFatal s1 10 else s1
  | b => memFatal s b

/-- Map one failing row to a free spare row of its macro; none left: the macro is beyond repair. -/
def repairRow (w : State × List Nat) (r : Nat × Nat) : State × List Nat :=
  match freeSpare w.1 r.1 with
  | some k => (w.1.updMem fun m => { m with softRows := m.softRows ++ [{ bank := macroBank r.1, mac := r.1, row := r.2, spare := k }] }, w.2)
  | none => (w.1, if w.2.contains r.1 then w.2 else w.2 ++ [r.1])

/-- Repair failing rows; rows 128 to 131 are the unused spares, which are tested as extra rows and give none when they fail (R461).
`rerun` are the macros that fail again. The macros beyond repair, and the state. -/
def repairRows (s : State) (failing : List (Nat × Nat)) (rerun : List Nat) : List Nat × State :=
  let bad := (failing.filter fun r => decide (128 ≤ r.2)).map fun r => (r.1, r.2 - 128)
  let w := (failing.filter fun r => decide (r.2 < 128)).foldl repairRow (s.updMem fun m => { m with badSpares := m.badSpares ++ bad }, [])
  let lost := w.2 ++ rerun.filter fun m => !w.2.contains m && failing.any fun r => r.1 == m
  (lost, countRepairs (lost.foldl beyondRepair w.1))

/-- Log each soft repair with the successive Dawns it has stood, and burn a fuse record for one that has stood at
two (R465, R466). -/
def logRepairs (s : State) : State :=
  let was := fun (r : RowRepair) => ((s.nor.repairLog.find? fun p => p.1 == r.mac && p.2.1 == r.row).map fun p => p.2.2).getD 0
  let now := s.mem.softRows.map fun r => (r.mac, r.row, was r + 1)
  let s1 := now.foldl (fun s p => norPut s 0x06 (p.1 * 128 + p.2.1) (leBytes 2 p.1 ++ leBytes 1 p.2.1 ++ leBytes 1 p.2.2))
    (s.updNor fun n => { n with repairLog := now })
  let due := s1.mem.softRows.filter fun r => decide (1 ≤ was r)
  let burn := if nvVal s 0x10000007 = 1 ∧ s.sec.life ≠ .scrapped then due.take (256 - s.mem.fuseRows.length) else []
  countRepairs (s1.updMem fun m => { m with softRows := m.softRows.filter fun r => !burn.contains r, fuseRows := m.fuseRows ++ burn })

/-! ### Errors (R459, R460) -/

/-- SCRUB: corrected words of a powered bank. -/
def execScrub (bank unit words : Nat) (s : State) : Host.Outcome State Fault Refusal :=
  .next (if !s.day.sramOn ∨ 11 ≤ bank then s
    else
      let s1 := (modBank s bank fun k => { k with ce := min 4095 (k.ce + words) }).updMem fun m => { m with ceTotal := satAdd m.ceTotal words }
      if bank = 2 then s1.updMem fun m => { m with chbufCe := vset m.chbufCe unit (min 2047 (vget m.chbufCe unit 0 + words)) } else s1)

/-- Drop the cache lines a test names, but those a command has pinned, which are filled again in place (R198). -/
def dropLines (s : State) (p : CacheWay → Bool) : State :=
  s.updXlat fun x => { x with ways := x.ways.filter fun w => decide (0 < w.pins) || !p w }

/-- A mover engine whose memory failed stops and restarts as after a bus error; its commands end HOST_BUS_ERROR; the
error itself is not counted (R333, R459). -/
def engineMemError (s : State) (e : Nat) : State :=
  let owners := engineOwners s e
  let s1 := modEngine s e fun g =>
    { g with st := if g.spare then .restarting else .stopped, resumeAt := s.beat + 2, spare := false
             quarantine := min (g.quarantine + 1) 2, pending := Vector.replicate 16 0 }
  owners.foldl busEnd (s1.updMovers fun m => { m with affected := satAdd m.affected owners.length })

/-- SRAM_UNCORRECTABLE: `unit` is the map line of bank 0, the set of bank 1, the channel, accumulator or Servitor, the
mover engine of bank 9. Where R459 lets the owner read or compute again from another place, the counts are all; the slot of a channel
buffer or of a rebuild workspace that failed then comes as one whose decode fails. -/
def execSramUncorrectable (bank unit : Nat) (s : State) : Host.Outcome State Fault Refusal :=
  .next (if !s.day.sramOn ∨ 11 ≤ bank then s
    else
      let s1 := (modBank s bank fun k => { k with ue := min 255 (k.ue + 1) }).updMem fun m => { m with ueTotal := satAdd m.ueTotal 1 }
      match bank with
      | 0 => dropLines s1 fun w => w.line == unit
      | 1 => dropLines s1 fun w => w.set == unit
      | 4 | 6 | 8 => memFatal s1 bank
      | 7 => memFatal (zeroVault s1) 7
      | 9 => if unit < 4 then engineMemError s1 unit else s1
      | _ => s1)

/-! ### Tests on request (R464) -/

/-- Whether a unit may be tested now: allowed by R459 and quiesced. -/
def unitQuiet (s : State) (bank unit : Nat) : Bool :=
  (s.day.day == .noon || s.day.day == .dusk) &&
  match bank with
  | 2 => decide (unit < 128) && (getOct s (unit / 8)).st == .dark
  | 3 => decide (unit < 16) && !(s.media.bands.any fun b => b.acc == some unit)
  | 10 => decide (unit < 8) && !vget s.mem.servHalted unit false
  | _ => false

/-- MEM_TEST_REQ: a test starts, or is refused; a SET while one runs has no effect. -/
def execMemTestReq (c : Nat) (s : State) : Host.Outcome State Fault Refusal :=
  .next (match waitsSet s c 0x10000003 1 with
    | none => s
    | some (_, _, v) =>
      if s.mem.testState = 1 then setDone s c St.ok 0
      else
        let bank := bits v.toNat 3 0
        let unit := bits v.toNat 15 4
        let go := unitQuiet s bank unit
        let s1 := s.updMem fun m =>
          { m with testState := if go then 1 else 5, testBank := bank, testUnit := unit % 256, testPreserve := v.getLsbD 17, testAt := s.beat
                   testSs := v.getLsbD 16, testBkg := v.getLsbD 18 }
        setDone (if go && bank == 3 then s1.updMedia fun x => { x with accTest := x.accTest ++ [unit] } else s1) c St.ok 0)

/-- MEM_TEST_DONE: passed, repaired, or beyond repair; the unit is released. No run ends before its operations are made. -/
def execMemTestDone (failing : List (Nat × Nat)) (rerun : List Nat) (s : State) : Host.Outcome State Fault Refusal :=
  .next (if s.mem.testState ≠ 1 || !testRunOver s then s
    else
      let mine := failing.filter fun r => macroBank r.1 == s.mem.testBank && macroUnit r.1 == s.mem.testUnit && decide (r.1 < 2048) && decide (r.2 < 132)
      let (lost, s1) := repairRows s mine rerun
      let out := if mine.isEmpty then 2 else if lost.isEmpty then 3 else 4
      (s1.updMem fun m => { m with testState := out }).updMedia fun x => { x with accTest := x.accTest.filter (· != s.mem.testUnit) })

end Sys2Proof.Machine
end

