-- ==== Sys2Proof/Machine/Therm.lean ====
section
/-! DEFINITION. Sensors, zones, throttle, write window and hot stops (R411, R445 to R455). -/

namespace Sys2Proof.Machine

/-! ### Sensors (R445, R446) -/

/-- The other fitted members of a sensor's zones. -/
def mates (s : State) (i : Nat) : List Nat :=
  (((List.range 18).filter fun z => (zoneSensors z).contains i).flatMap (zoneMembers s)).filter (· != i)

/-- An open, a short, a full-scale or zero code, or a reading below -55 °C or above 150 °C; the first ones come as
readings outside that range. -/
def readingBad (t : Int) : Bool := decide (t < -880) || decide (2400 < t)

/-- A code that has stood still for THERM_STUCK_BEATS while another member of its zone moved by 2 °C or more. -/
def stuck (s : State) (t : Therm) (i : Nat) : Bool :=
  decide (vget t.rawSince i 0 + nvVal s 0x0F00000D ≤ s.beat) &&
  (vget t.mateRef i []).any fun p => decide (32 ≤ vget t.reading p.1 0 - p.2) || decide (32 ≤ p.2 - vget t.reading p.1 0)

/-- Take the readings of a sample; diodes that are not enabled are not sampled. -/
def takeReadings (s : State) (raw : List Int) (changed : List Bool) : State :=
  let fresh : Nat → Int := fun i => if sensorFitted s i then nth raw i (vget s.therm.reading i 0) else vget s.therm.reading i 0
  let moved := fun i => sensorFitted s i && nth changed i false
  s.updTherm fun t =>
    { t with reading := Vector.ofFn fun i => fresh i.val
             rawSince := Vector.ofFn fun i => if moved i.val then s.beat else vget t.rawSince i.val 0
             mateRef := Vector.ofFn fun i => if moved i.val || (vget t.mateRef i.val []).isEmpty then (mates s i.val).map fun j => (j, fresh j)
                                             else vget t.mateRef i.val [] }

/-- Judge every fitted sensor; a new judgement sets GEVENT.SENSOR. -/
def judge (s : State) : State :=
  let new := (List.range 28).filter fun i =>
    sensorFitted s i && !vget s.therm.broken i false && (readingBad (vget s.therm.reading i 0) || stuck s s.therm i)
  new.foldl (fun s i => event (s.updTherm fun t => { t with broken := vset t.broken i true }) 7
    (((List.range 18).find? fun z => (zoneSensors z).contains i).getD 0xFF)) s

/-! ### Zones (R447 to R449) -/

/-- step(T) of a zone. -/
def stepAt (s : State) (z : Nat) (t : Int) : Nat :=
  let (st, mx, _) := zoneLimits s z
  let a : Int := 16 * (st : Int)
  if t ≤ a then 0
  else min 15 (ceilDiv (15 * (t - a).toNat) (16 * (mx - st)))

/-- A zone's new demand: it rises at once and falls only to step(T + 2 °C); 15 with a broken member. -/
def demandOf (s : State) (z : Nat) : Nat :=
  if 0 < zoneBroken s z then 15
  else match zoneReading s z with
    | none => 0
    | some t => max (stepAt s z t) (min (vget s.therm.demand z 0) (stepAt s z (t + 32)))

/-- A zone in alarm. -/
def alarmOf (s : State) (z : Nat) : Bool :=
  decide (0 < zoneBroken s z) || match zoneReading s z with
    | none => false
    | some t => decide (16 * ((zoneLimits s z).2.1 : Int) ≤ t)

/-- A zone with a working member at or above HOT; one broken member alone is no hot stop (R447, R452; DEDUCED, log entry 26). -/
def atHot (s : State) (z : Nat) : Bool :=
  (zoneMembers s z).any fun i => sensorWorks s i && decide (16 * ((zoneLimits s z).2.2 : Int) ≤ vget s.therm.reading i 0)

/-- Both members of a zone are broken. -/
def bothBroken (s : State) (z : Nat) : Bool := decide (2 ≤ zoneBroken s z)

/-- Demands, alarms and the throttle step of a sample. -/
def throttle (s : State) : State :=
  let new := (List.range 18).filter fun z => alarmOf s z && !vget s.therm.alarm z false
  let d : Vector Nat 18 := Vector.ofFn fun z => demandOf s z.val
  let step := d.toList.foldl max (nvVal s 0x0F000002)
  let s1 := s.updTherm fun t => { t with demand := d, alarm := Vector.ofFn fun z => alarmOf s z.val, step := step, alarms := satAdd t.alarms new.length }
  let s2 := new.foldl (fun s z => event s 1 z) s1
  eventIf (decide (step ≠ s.therm.step)) s2 1 0xFF

/-- The write window of a sample (R450). -/
def writeWindow (s : State) : State :=
  let lo := 16 * sbyte (nvVal s 0x0F000005)
  let hi := 16 * sbyte (nvVal s 0x0F000006)
  let w := match carrierT s with
    | none => false
    | some t =>
      if !s.therm.windowSet || s.therm.window then decide (lo ≤ t) && decide (t ≤ hi)
      else decide (lo + 32 ≤ t) && decide (t ≤ hi - 32)
  s.updTherm fun t => { t with window := w, windowSet := true }

/-- The charger's window on the bank body, module sensor 1 (R411). -/
def chargeWindow (s : State) : State :=
  let t := vget s.therm.reading 17 0
  let ok := sensorWorks s 17 && (if s.power.charging then decide (-400 ≤ t) && decide (t ≤ 1360) else decide (-368 ≤ t) && decide (t ≤ 1328))
  s.updPower fun p => { p with charging := ok }

/-! ### Hot stops (R452 to R454) -/

/-- A carrier zone at hot stop: its octs leave LIVE in the prompt way and wait to return. -/
def carrierHot (s : State) (z : Nat) : State :=
  (zoneOcts z).foldl (fun s k => startDrain (modOct s k fun o => { o with hotHold := some s.beat }) k true)
    (s.updTherm fun t => { t with shut := vset t.shut z true })

/-- A controller hot stop: service stops at once; the flush follows. -/
def controllerHot (s : State) (z : Nat) : State :=
  if s.therm.hotAt.isSome || s.day.fatal && s.day.fcause == 5 then s
  else
    let t : Int := if 0 < zoneBroken s z then 0x7FFF else (zoneReading s z).getD 0
    let s1 := (freeze s).updTherm fun x =>
      { x with hotAt := some s.beat, hotZone := z, hotTemp := t, hotStops := satAdd32 x.hotStops 1, shut := vset x.shut z true }
    (s1.updPlan fun p => { p with resetFlush := false }).updDay fun d => { d with sealed := none, entryStep := 0, waking := false, wakePend := none }

/-- The zones at hot stop in this sample. -/
def hotZones (s : State) : List Nat :=
  (List.range 18).filter fun z => (atHot s z && vget s.therm.hotOnce z false) || bothBroken s z

/-- Whether zones act now: in Midnight and after a stop the always-on domain only records. -/
def zonesAct (s : State) : Bool := s.day.day != .midnight && !s.power.lost && !hotStopped s && s.power.llAt.isNone && s.sec.tamperAt.isNone

/-- SENSOR_SAMPLE: readings in 1/16 °C, and which raw codes have changed. -/
def execSensorSample (raw : List Int) (changed : List Bool) (s : State) : Host.Outcome State Fault Refusal :=
  .next (if !s.power.aonPowered then s
    else
      let s1 := chargeWindow (judge (takeReadings s raw changed))
      if !zonesAct s1 then s1
      else
        let s2 := writeWindow (throttle s1)
        let s3 := s2.updCare fun c => { c with tMax := max c.tMax ((carrierT s2).getD c.tMax) }
        let hot := hotZones s3
        let s4 := s3.updTherm fun t => { t with hotOnce := Vector.ofFn fun z => atHot s3 z.val }
        let s5 := (hot.filter fun z => decide (10 ≤ z) && !vget s4.therm.shut z false).foldl carrierHot s4
        match hot.find? fun z => decide (z < 10) with
        | some z => controllerHot s5 z
        | none => s5)

/-- Whether a zone reads 5 °C below START with working members. -/
def zoneCool (s : State) (z : Nat) : Bool :=
  match zoneReading s z with
  | none => false
  | some t => decide (t ≤ 16 * ((zoneLimits s z).1 : Int) - 80)

/-- CARRIER_ZONE_RETURN: the oct may be powered up again. -/
def execCarrierZoneReturn (k : Nat) (s : State) : Host.Outcome State Fault Refusal :=
  .next (let zs := (zonesOfOct k).filter fun z => vget s.therm.shut z false
    let o := getOct s k
    if o.hotHold.isNone ∨ o.st ≠ .dark ∨ s.beat < o.darkSince + 250000 ∨ !zs.all (zoneCool s) then s
    else
      let s1 := modOct s k fun o => { o with hotHold := none }
      zs.foldl (fun s z => if (zoneOcts z).all fun j => (getOct s j).hotHold.isNone then s.updTherm fun t => { t with shut := vset t.shut z false } else s) s1)

/-- HOT_STOP_FLUSHED: what the flush wrote is verified; the record is programmed; FATAL; every domain but the
always-on one goes dark. -/
def execHotStopFlushed (s : State) : Host.Outcome State Fault Refusal :=
  .next (match s.therm.hotAt with
    | none => s
    | some at_ =>
      if hotStopped s ∨ s.power.llAt.isSome then s
      else
        let s1 := flushAll s true false
        let s2 := norPut s1 0x04 0 (leBytes 1 s.therm.hotZone ++ leBytes 1 0 ++ leBytes 2 (sbits 16 s.therm.hotTemp) ++ leBytes 6 at_)
        wipe (goFatal s2 5 (sbits 16 ((hottest s (List.range 16)).getD s.therm.hotTemp / 16))))

/-- THERM_REARM: the named sensors are judged again at the next sample. -/
def execThermRearm (c : Nat) (s : State) : Host.Outcome State Fault Refusal :=
  .next (match waitsSet s c 0x0F000004 1 with
    | none => s
    | some (_, _, v) =>
      setDone (s.updTherm fun t => { t with broken := Vector.ofFn fun i => vget t.broken i.val false && !v.getLsbD i.val }) c St.ok 0)

end Sys2Proof.Machine
end

