-- ==== Sys2Proof/Machine/Day.lean ====
section
/-! DEFINITION. Time: the beat and crystal ticks, sealing and entering Night and Midnight, waking, the steps of Dawn,
recovery (R17 to R19, R425 to R442, R218 to R225, R463, R499). -/

namespace Sys2Proof.Machine

/-! ### Ticks (R17, R18, R442) -/

/-- BEAT advances by n, counted for the time of day. -/
def passBeats_ (s : State) (n : Nat) : State :=
  (s.updBeat (· + n)).updDay fun d => { d with res := vset d.res d.day.code (satAdd (vget d.res d.day.code 0) n) }

/-- A request for Noon or Dusk takes effect at the start of a beat; its DOZE finishes (R431). -/
def dayTakes (s : State) : State :=
  match s.day.pendReq with
  | some (.noon, c) => dozeDone ((setDay s .noon).updDay fun d => { d with pendReq := none }) c St.ok
  | some (.dusk, c) => dozeDone ((setDay s .dusk).updDay fun d => { d with pendReq := none }) c St.ok
  | _ => s

/-- Links that leave L1 in Noon, ports that may begin to train, USB4 ports whose enable bit is clear (R350, R357, R426). -/
def linkBeat (s : State) : State :=
  let s1 := if s.day.day = .noon then s.updLinks fun v => v.map fun l => { l with inL1 := false } else s
  let s2 := (List.range 4).foldl (fun s l => if (getLink s l).st = 0 && mayTrain s l then modLink s l fun k => { k with st := 1 } else s) s1
  [0, 1].foldl (fun s u => if 2 ≤ (getLink s (4 + u)).st && !bit (nvVal s 0x0A000004) u then linkDown s (4 + u) else s) s2

/-- A heartbeat edge; seen two or more beats after the last frame, it marks the copy stale (R378). -/
def heartbeatSeen (s : State) (edge : Bool) : State :=
  if !edge then s
  else s.updTwin fun t => { t with lastEdge := s.beat, stale := t.stale || (sided s && decide (t.lastFrame + 2 ≤ s.beat)) }

/-- What the bank charger draws at most, in mW: PWR_CHARGE_W, and no more than the margin from the input power to 560 W; nothing while
it is stopped, or both halves stand at the target, or the hold-up switch is closed (R408, R409, R411, R419). -/
def chargeLimit (s : State) : Nat :=
  if !s.power.charging || s.power.llAt.isSome || s.power.lost || s.power.halves.all (fun h => decide (nvVal s 0x0D000006 ≤ h.mv)) then 0
  else min (1000 * nvVal s 0x0D000007) (560000 - s.power.inputMw)

/-- The bank's measured voltages and the input power, and the charger's limit; E and G from them, but no change of G once a stop has
begun (R408, R410, R412, R414). -/
def measure (s : State) (mvA mvB mw : Nat) : State :=
  let halves := fun (v : Vector Half 2) => (v.set 0 { v[0] with mv := mvA }).set 1 { v[1] with mv := mvB }
  let s0 := s.updPower fun p => { p with halves := halves p.halves, inputMw := mw }
  let s1 := s0.updPower fun p => { p with chargeMw := chargeLimit s0 }
  if s.power.llAt.isSome || s.therm.hotAt.isSome || s.power.lost then s1 else rearm s1

/-- What a setting SET in the last beat does now. -/
def dueActs (s : State) (id : Nat) (v : BitVec 64) : State :=
  if id = 0x08000001 then octPower s v
  else if id = 0x08000003 then octFault s v
  else if id = 0x08000004 then ownMode (storeNv s id v)
  else if id = 0x0D000010 then s.updPower fun p => { p with testWant := p.testWant || v == 1 }
  else if [0x12000002, 0x1200000B, 0x1200000D, 0x1200000E, 0x12000010].contains id then secActs s id v
  else actNow s id v

/-- A new beat begins: the settings SET in the last one act (R28). -/
def actDue (s : State) : State := s.due.foldl (fun s p => dueActs s p.1 p.2) (s.updDue fun _ => [])

/-- BEAT_TICK, with what was measured in the beat that ends: with the core clock BEAT advances by one; bookings of past beats go once their window is over (R35), pins of filled
ways run out (R199), settings SET in the last beat act (R28), operations of programs move on (R547). -/
def execBeatTick (mvA mvB mw : Nat) (hb : Bool) (s : State) : Host.Outcome State Fault Refusal :=
  .next (if !s.power.aonPowered || !coreClock s then s
    else
      let s1 := sweepTries (drawAll (drainAsked (actDue (measure (passBeats_ (conditionalUpdates s) 1) mvA mvB mw))))
      let s2 := (s1.updPlan fun p => { p with near := p.near.filter fun b => decide (windowStart b.res s1.beat ≤ b.beat) }).updXlat fun x =>
        { x with ways := x.ways.map fun w => { w with pins := w.pins - 1 } }
      resetFollows (dayTakes (linkBeat (heartbeatSeen s2 hb))))

/-- CRYSTAL_TICK: without the core clock the power manager adds 1,000,000/131,072 beats. A wake source that waits for
250,000 beats after a hot stop runs then (R454). -/
def execCrystalTick (s : State) : Host.Outcome State Fault Refusal :=
  .next (if !s.power.aonPowered || coreClock s then s
    else
      let f := s.beatFrac + 1000000
      let s1 := (passBeats_ s (f / 131072)).updBeatFrac fun _ => f % 131072
      if hotStopped s1 then
        match s1.day.wakePend with
        | some k => if s1.therm.hotAt.getD 0 + 250000 ≤ s1.beat then wake (s1.updDay fun d => { d with wakePend := none }) k else s1
        | none => s1
      else s1)

/-! ### Sealing and entering (R432, R436, R437) -/

/-- SEAL: every other command has posted, kept completions too, no activation runs, a paired module has released its side: the time of day is
taken, the DOZE finishes, armed gather is zero. -/
def execNightSeal (s : State) : Host.Outcome State Fault Refusal :=
  .next (match s.day.pendReq with
    | some (t, c) =>
      if !(t == .night || t == .midnight) || !(s.ctxs.all fun x => x.c == c) || (s.fns.any fun f => !f.kept.isEmpty) || s.nor.activating.isSome || !serving s ||
          (sided s && (s.twin.st == .paired || s.twin.st == .detaching)) || s.plan.resetFlush then s
      else
        let s1 := (setDay s t).updDay fun d => { d with pendReq := none, sealed := some s.beat, entryStep := 0 }
        rearm (dozeDone s1 c St.ok)
    | none => s)

/-- Gather slots that an entry sequence has still to place and verify. -/
def undrained (s : State) : List GatherSlot := s.xlat.gather.filter (slotWanted s)

/-- One step of the drain of the gather buffer and of staging; none once it is verified. -/
def drainStep (s : State) : Option State :=
  if !(undrained s).isEmpty then some (drainStripes s (undrained s))
  else if !journaled s then some (journalOut s 1)
  else none

/-- The punty and Cane domains go dark; Cane sessions close. The heartbeat output is of the punty domain (R429). -/
def fabricsDark (s : State) : State :=
  let s1 := (closeAll s).updCane fun c => { c with link := Vector.replicate 2 0 }
  let s2 := s1.updTwin fun t => { t with lanes := 0, hbStopped := true, wasDetached := t.wasDetached || t.st == .detached }
  let quiet := fun (e : Engine) => { e with descs := e.descs.filter fun d => d.pacer.isNone }
  (s2.updMovers fun m => { m with pacer := Vector.replicate 3 false, eng := m.eng.map quiet }).updDay fun d => { d with puntyOn := false, caneOn := false }

/-- Whether an entry sequence toward a time of day is at a step: sealed, the requesting context gone. -/
def entryAt (s : State) (t : DayState) (k : Nat) : Bool := s.day.day == t && s.day.sealed.isSome && s.ctxs.isEmpty && s.day.entryStep == k && !s.day.fatal

/-- The next step of an entry sequence. -/
def entryNext (s : State) : State := s.updDay fun d => { d with entryStep := d.entryStep + 1 }

/-- In Night a link that is up and whose host allows it rests in L1 (R425). -/
def linksRest (s : State) : State := s.updLinks fun v => v.map fun l => if decide (2 ≤ l.st) && l.aspmL1 then { l with inL1 := true } else l

/-- NIGHT_ENTRY_STEP: the drain; then the fabrics dark; then SRAM retained, DRAM in self-refresh, CORE stopped. -/
def execNightEntryStep (s : State) : Host.Outcome State Fault Refusal :=
  .next (if entryAt s .night 0 then
      match drainStep s with
      | some s1 => s1
      | none => entryNext (fabricsDark s)
    else if entryAt s .night 1 then
      entryEnds ((entryNext (linksRest s)).updDay fun d => { d with sramOn := false, dramOn := false, coreOn := false })
    else s)

/-- MIDNIGHT_ENTRY_STEP: the drain and a checkpoint cycle asked for; with its care records and the anchor written, and the records they
entered drained, the octs go dark; then every
domain but the always-on one. -/
def execMidnightEntryStep (s : State) : Host.Outcome State Fault Refusal :=
  .next (if entryAt s .midnight 0 then
      match drainStep s with
      | some s1 => s1
      | none => entryNext (s.updXlat fun x => { x with ckWant := true })
    else if entryAt s .midnight 1 then
      if s.xlat.ckWant || s.xlat.ck.isSome || s.care.recWrite.isSome || norWriting s 0x02 0 then s
      else match drainStep s with
      | some s1 => s1
      | none => (List.range 16).foldl askDrain (entryNext s)
    else if entryAt s .midnight 2 then
      if !((List.range 16).all fun k => (getOct s k).st == .dark) then s
      else
        let s1 := wipe (closeAll s)
        entryEnds ((s1.updBeatFrac fun _ => 0).updDay fun d => { d with stayAt := some s.beat })
    else s)

/-- DUSK_IDLE: the idle beats have passed with nothing of the link's functions admitted, held, coalesced or in flight. -/
def execDuskIdle (link : Nat) (s : State) : Host.Outcome State Fault Refusal :=
  .next (let mine := s.rings.filter fun r => fnLink r.fn == link
    let busy := (s.ctxs.any fun x => x.ringOf.isSome && fnLink x.fn == link) || (mine.any fun r => r.held.isSome || decide (0 < r.pend)) ||
      s.plan.fetching.any fun f => mine.any fun r => r.g == f.ring
    if 6 ≤ link ∨ s.day.day ≠ .dusk ∨ (getLink s link).st < 2 ∨ !(getLink s link).aspmL1 ∨ busy then s
    else modLink s link fun l => { l with inL1 := true })

/-! ### Waking from Night (R439, R468) -/

/-- Operations booked and not started are booked anew: programs and erases wait for beats, reads of care work for their stage. -/
def bookAnew (s : State) : State :=
  let late := fun (o : ArrayOp) => decide (s.beat ≤ o.start)
  let ws := s.flash.dies.flatMap fun d => (d.ops.filter fun o => late o && o.kind != .read).map fun o =>
    ({ die := d.d, xfers := 0, op := { o with start := 0, busy := o.occ, susps := [] } } : OpWait)
  (s.updFlash fun f =>
    { f with waiting := f.waiting ++ ws, dies := f.dies.map fun d => { d with ops := d.ops.filter fun o => !late o && o.kind != .read } }).updCare fun c =>
      { c with reads := c.reads.map fun e => { e with booked := false } }

/-- The planner starts with empty calendars; its sequence numbers and counters stand. -/
def emptyCalendars (s0 : State) : State :=
  let s := bookAnew s0
  s.updPlan fun p => { p with near := [], far := [], laidSpan := s.beat / 1024 + 8, fnTotals := [], raPassed := [] }

/-- The fabrics are powered again and train; the twin is looked for as after a Dawn (R390, R439). -/
def fabricsOn (s : State) : State :=
  let s1 := s.updDay fun d => { d with puntyOn := true, caneOn := nvVal s 0x0C000001 == 1 }
  s1.updTwin fun t =>
    { t with hbStopped := false, lastEdge := s.beat, lastFrame := s.beat, dawnWait := if sided s then some (s.beat + nvVal s 0x0B000008) else none }

/-- WAKE_FROM_NIGHT: clocks, retained SRAM, DRAM; with MEM_NIGHT_CHECK the failing macros are repaired and what they held
is lost; then Noon. -/
def execWakeFromNight (bad : List Nat) (failing : List (Nat × Nat)) (rerun : List Nat) (s : State) : Host.Outcome State Fault Refusal :=
  .next (if s.day.day ≠ .night ∨ !s.day.waking then s
    else
      let held := bad.filter fun m => [0, 1, 4, 5, 6, 10].contains (macroBank m) && decide (m < 2048)
      let s1 := s.updDay fun d => { d with coreOn := true, sramOn := true, dramOn := true }
      let s2 := if nvVal s 0x10000006 ≠ 1 then s1
        else
          let rows := failing.filter fun r => held.contains r.1 && decide (r.2 < 132)
          let s3 := (repairRows s1 rows rerun).2
          if held.any fun m => macroBank m = 0 ∨ macroBank m = 1 then s3.updXlat fun x => { x with ways := [], plru := [] } else s3
      if s2.day.fatal then s2.updDay fun d => { d with waking := false }
      else (setDay (patrolResume (fabricsOn (emptyCalendars s2))) .noon).updDay fun d => { d with waking := false })

/-! ### Dawn, steps 1 to 4 (R440, R441, R463, R499) -/

/-- Whether Dawn is at a step and goes on. -/
def dawnAt (s : State) (k : Nat) : Bool :=
  s.day.day == .dawn && s.day.step == k && !s.day.fatal && s.power.aonPowered && !s.power.lost && s.power.llAt.isNone && s.therm.hotAt.isNone && s.sec.tamperAt.isNone

/-- The next step of Dawn; its limit counts from now. -/
def dawnNext (s : State) : State := s.updDay fun d => { d with step := d.step + 1, stepFrom := s.beat }

/-- DAWN_REGULATORS: the regulators are up. What a tamper in Midnight still asks for is applied before step 3 (R524). -/
def execDawnRegulators (s : State) : Host.Outcome State Fault Refusal :=
  .next (if !dawnAt s 1 then s
    else dawnNext (if s.sec.tamperCauses.isEmpty then s else (tamperErase s).updSec fun k => { k with tamperCauses := [] }))

/-- An image fails its check: PREV takes over where it holds a valid image, and Dawn restarts; else the module is fatal. -/
def imageFails (s : State) (prevOk : Bool) : State :=
  match s.nor.prev with
  | some p =>
    if prevOk then event (startDawn (swapBack (modImage s s.nor.active fun i => { i with valid := false }) p)) 6 0xFF
    else goFatal s 3 3
  | none => goFatal s 3 3

/-- The bank and attempt an image on trial gives: one more attempt, or the rollback (R499 step 2). -/
def trialAttempt (s : State) : State :=
  if !s.nor.trial then s
  else
    let n := s.nor.attempts + 1
    match s.nor.prev with
    | some p => if nvVal s 0x1100000A < n then noteActivation (swapBack s p) 4 0 else putBoot (s.updNor fun x => { x with attempts := n })
    | none => putBoot (s.updNor fun x => { x with attempts := n })

/-- A die or module zone at or above its START limit; one with a broken member counts as too hot. -/
def zoneWarm (s : State) (z : Nat) : Bool :=
  decide (0 < zoneBroken s z) || match zoneReading s z with
  | none => true
  | some t => decide (16 * ((zoneLimits s z).1 : Int) ≤ t)

/-- DAWN_OSCILLATORS: BEAT is handed over, its fraction dropped; the boot ROM chooses the bank and checks its image; the
wait to cool begins; broken sensors are judged anew. -/
def execDawnOscillators (imageOk prevOk : Bool) (s : State) : Host.Outcome State Fault Refusal :=
  .next (if !dawnAt s 2 then s
    else
      let s1 := (s.updBeatFrac fun _ => 0).updDay fun d => { d with hostOn := true, coreOn := true, bootOn := true }
      let s2 := loadBoot s1
      let s3 := trialAttempt s2
      let same := s3.nor.active == s2.nor.active
      if !(if same then imageOk else prevOk) then imageFails s3 (same && prevOk)
      else
        let s4 := modImage s3 s3.nor.active fun i => { i with valid := true }
        let s5 := (dawnNext s4).updDay fun d => { d with cooling := (List.range 10).any (zoneWarm s4) }
        s5.updTherm fun t => { t with broken := Vector.replicate 28 false })

/-- DAWN_COOL: every die and module zone is 5 °C below START; the limit of step 3 counts from now. -/
def execDawnCool (s : State) : Host.Outcome State Fault Refusal :=
  .next (if dawnAt s 3 && s.day.cooling && (List.range 10).all (zoneCool s) then s.updDay fun d => { d with cooling := false, stepFrom := s.beat } else s)

/-- Macros of a bank. -/
def bankMacros (b : Nat) : Nat := bankBase (b + 1) - bankBase b

/-- ROOT is derived with the life-cycle state and tamper count in force, and the keys from it; the certificate is judged
against the identity they give (R472, R505, R512). -/
def deriveRoot (s : State) : State :=
  let s1 := s.updSec fun k => { k with vaultZero := false, rootLife := k.life, rootTampers := k.tampers }
  s1.updSec fun k => { k with certState := match k.cert with
    | none => 0
    | some b => if certMine s1 b then 1 else 2 }

/-- The DRAM channels that fail or are absent, a bit each. -/
def dramFailing (ok : List Bool) : Nat := packFields 1 8 fun c => b2n (!nth ok c false)

/-- DAWN_MEMORIES: a failing DRAM channel is fatal; SRAM is tested, by the algorithm and background that settings name, and repaired; ROOT is derived; octs may be leased and
powered from now. -/
def execDawnMemories (dramOk : List Bool) (failing : List (Nat × Nat)) (rerun : List Nat) (s : State) : Host.Outcome State Fault Refusal :=
  .next (if !dawnAt s 3 || s.day.cooling then s
    else if dramFailing dramOk ≠ 0 then goFatal s 1 (dramFailing dramOk)
    else if !dawnRunOver s then s
    else
      let s1 := s.updMem fun m => { m with softRows := [], badSpares := [], banks := Vector.ofFn fun b => { MemBank.init with inUse := bankMacros b.val } }
      let rows := failing.filter fun r => decide (r.1 < 2048) && decide (r.2 < 132) && !(s.mem.fuseRows.any fun f => f.mac == r.1 && f.row == r.2)
      let s2 := (repairRows s1 rows rerun).2
      if s2.day.fatal then s2
      else
        let s3 := deriveRoot (logRepairs s2)
        let s4 := (s3.updDay fun d => { d with sramOn := true, dramOn := true }).updFlash fun f => { f with present := Vector.replicate 2 true }
        startLeases ((dawnNext s4).updDay fun d => { d with memAt := s.beat }) (List.range 16))

/-- A library image is loaded again where it still verifies (R133): each is verified with all stored ones counted as loaded (DESIGN CHOICE, log
entry 28: R133, R440 and R487 give no order). -/
def reloadLib (s : State) : State :=
  let vendor := vendorCode (imageOf s s.nor.active).version
  let s1 := s.updZci fun z => { z with lib := vendor ++ z.lib.filter fun l => decide (256 ≤ l.slot) }
  let good := fun (l : LibSlot) =>
    decide (l.slot < 256) || (verify s1 { own := some l.slot, admin := bit l.code.dmode 2, raw := rawAllowed s1, limit := some 4194304, noAdminDecl := false } l.code).isNone
  countCode (s1.updZci fun z => { z with lib := z.lib.filter good })

/-- A block as the care records give it: what media and the journal tell stays, the rest is the record's; one retired
after the set was written is found again when it next fails (R269). -/
def loadBlock (set : CareSet) (p : Nat × Block) : Nat × Block :=
  match Assoc.get set.blocks p.1 with
  | none => p
  | some r =>
    let lost := p.2.st == .retired && r.st != .retired
    (p.1, { r with st := if lost then .dirty else p.2.st, bandId := if lost then 0 else p.2.bandId, system := p.2.system, candNew := p.2.candNew })

/-- Whether a care record set can be read: every slot of it is on media, in a copy that decodes and whose key is there (R268, R269, R509). -/
def setReads (s : State) (lost : List Nat) (k : CareSet) : Bool :=
  (List.range careSlots).all fun i => s.media.slots.any fun p => p.2.kind == .care && p.2.verified && !lost.contains p.1 &&
    decide (p.2.lba.toNat = 2 ^ 47 + k.gen % 256 * 2 ^ 32 + i) && keyReach s p.2.nsid p.2.epoch

/-- The newest set that can be read. -/
def bestSet (s : State) (lost : List Nat) : Option CareSet := s.care.recSets.find? (setReads s lost)

/-- The records of a set are loaded, or without one every good block takes the anchor's mean PE (R269, R290). -/
def loadSet (s : State) (set : Option CareSet) : State :=
  match set with
  | some k => s.updCare fun c => { c with blocks := c.blocks.map (loadBlock k), tclk := k.tclk, pass := k.pass }
  | none =>
    let pe := (s.nor.anchor.map Anchor.peMean).getD 0
    let mean := fun (p : Nat × Block) => if p.2.good then (p.1, p.2.withPe (peRated s) pe) else p
    s.updCare fun c => { c with blocks := c.blocks.map mean, peEstimated := true }

/-- The care records load; the thermal clock gains a Midnight stay (R269, R284). -/
def loadCare (s : State) : State :=
  let s1 := loadSet s (bestSet s [])
  let s2 := match s.day.stayAt with
    | some b => s1.updCare fun c => { c with tclk := c.tclk + (s.beat - b) * thermalAf (sbyte (nvVal s 0x0700001A)) (nvVal s 0x07000019) }
    | none => s1
  let s3 := s2.updDay fun d => { d with stayAt := none }
  if s3.beat < s3.care.passStart then startPass s3 21600000 else s3

/-- DAWN_LOGIC: the other components are checked; settings migrate; the library loads; a fresh key start where it is
due, with random bytes whose halves differ; erases go on; care records load. -/
def execDawnLogic (imageOk : Bool) (random : List Byte) (s : State) : Host.Outcome State Fault Refusal :=
  .next (if !dawnAt s 4 then s
    else if !imageOk then imageFails s ((s.nor.prev.map fun p => (imageOf s p).valid).getD false)
    else
      let s1 := reloadLib (migrate s s.nor.active)
      if freshDue s1 && !keyOk random then s
      else
        let s2 := if freshDue s1 then (freshKeys s1 random).updCare fun c => { c with recSets := [] } else s1
        dawnNext (loadCare (erasePump s2)))

/-- The latest beat of a step's ready signal. -/
def dawnLimit : Nat → Nat
  | 1 => 6250 | 2 => 2500 | 3 => 300000 | _ => 66250

/-- DAWN_STEP_TIMEOUT: fatal; which FCAUSE and FDETAIL a missed step takes is not stated: free values (log entry 3). -/
def execDawnStepTimeout (s : State) : Host.Outcome State Fault Refusal :=
  .next (if s.day.day ≠ .dawn ∨ s.day.step < 1 ∨ 4 < s.day.step ∨ !dawnAt s s.day.step ∨ s.day.cooling ∨ s.beat ≤ s.day.stepFrom + dawnLimit s.day.step then s
    else
      let (f, s1) := drawFree s
      goFatal s1 (f.toNat % 256) (f.toNat / 256))

/-! ### Recovery (R218 to R225, R269 to R271) -/

/-- Where reads of the recovery find that the set loaded does not decode, the one before it is loaded in its place (R269). -/
def careAgain (s : State) (lost : List Nat) : State :=
  let old := bestSet s []
  let new := bestSet s lost
  if old.map CareSet.gen = new.map CareSet.gen then s
  else (loadSet s new).updCare fun c => { c with tclk := c.tclk + (s.care.tclk - (old.map CareSet.tclk).getD 0) }

/-- Blocks that joined a band after the care records were written gain 1 in PE, banded blocks CARE_RD_CHECK in RDCOUNT (R269, R290). -/
def careCorrect (s : State) (set : Option CareSet) : State :=
  let later := fun (p : Nat × Block) => match set with
    | some k => ((Assoc.get k.blocks p.1).map Block.bandId).getD 0 != p.2.bandId
    | none => false
  let fix := fun (p : Nat × Block) =>
    if p.2.st != .banded then p
    else (p.1, { p.2.withPe (peRated s) (p.2.pe + b2n (later p)) with rdCount := min (p.2.rdCount + nvVal s 0x07000016) (2 ^ 32 - 1) })
  s.updCare fun c => { c with blocks := c.blocks.map fix }

/-- B_sys where no namespace exists, and XLAT_PHYS_LIMIT, as computed at a Dawn. -/
def dawnCounts (s : State) : State :=
  let s1 := if s.xlat.nss.isEmpty then s.updCare fun c => { c with sysBlocks := ceilDiv (bGood s) 64, sysFixed := false } else s
  s1.updXlat fun x => { x with physLimit := physLimitNow s1 }

/-- The path of the last recovery. -/
def recoveryPath (s : State) : Nat := s.xlat.lastRecovery.toNat % 16

/-- The path a recovery took, whether it read Last Light bands, how long it took from the moment the DRAM test passed (R221, R226). -/
def noteRecovery (s : State) : State :=
  let w := s.xlat.lastRecovery.toNat
  let v := w % 16 + 16 * b2n (!s.power.llBands.isEmpty) + capBits 32 ((s.beat - s.day.memAt) / 1000) * 2 ^ 16 + w / 2 ^ 48 * 2 ^ 48
  (s.updXlat fun x => { x with lastRecovery := BitVec.ofNat 64 v }).updPower fun p => { p with llBands := [] }

/-- Bands read in full for want of a BAND_CLOSE record are closed where they stand; nothing of them is written further. -/
def closeOpened (s : State) : State :=
  ((s.media.bands.filter fun b => b.st == .opened || (b.st == .closed && unclosed s b)).map Band.serial).foldl (fun s k => markClosed (modBand s k fun b => { b with acc := none }) k) s

/-- Noon: an image on trial has started; the fabrics train; a module that was DETACHED stays so until it attaches. -/
def reachNoon (s : State) : State :=
  let s1 := if s.nor.trial then putBoot (s.updNor fun n => { n with attempts := 0 }) else s
  let s2 := fabricsOn (emptyCalendars s1)
  let s3 := s2.updTwin fun t => { t with st := if sided s && t.wasDetached then .detached else .solo, retryAt := s.beat + nvVal s 0x0B000007 }
  replStart ((setDay (patrolResume s3) .noon).updDay fun d => { d with step := 0 })

/-- RECOVERY: the map is recovered, or the module is fatal; then Noon. The operands name the places that do not decode, even
through parity. -/
def execRecovery (ckpts journals slots : List Nat) (s : State) : Host.Outcome State Fault Refusal :=
  let lost := ckpts ++ journals ++ slots
  .next (if !dawnAt s 5 then s
    else match recoverMap s lost with
      | none => goFatal s 2 1
      | some s1 =>
        if recoveryPath s1 = 3 ∧ scanLost s lost then goFatal s 2 2
        else
          let s2 := careAgain s1 lost
          let s3 := if recoveryPath s1 = 0 ∧ readInFull s lost 0 = 0 then s2 else careCorrect s2 (bestSet s2 lost)
          reachNoon (dawnCounts (closeOpened (noteRecovery s3))))

end Sys2Proof.Machine
end

