-- ==== Sys2Proof/Machine/Panel.lean ====
section
/-! DEFINITION. What the faceplate and the configuration space show: indicators and function identities (R347, R542). -/

namespace Sys2Proof.Machine

/-! ### Indicators (R542) -/

/-- How an indicator is driven: off, steady, or flashing with a 50 % duty cycle, in quarters of a hertz. -/
inductive Lamp where
  | off | steady | flash (quarterHz : Nat)
  deriving DecidableEq, Repr

/-- PWR, green. -/
def lampPwr (s : State) : Lamp :=
  if !s.power.aonPowered then .off
  else match s.day.day with
  | .noon | .dusk => .steady
  | .dawn | .night => .flash 4
  | .midnight => .flash 1

/-- Whether something calls for a flashing FAULT: a zone in alarm or shut down, a broken sensor, a faulty hold-up half. -/
def faultFlash (s : State) : Bool :=
  s.therm.alarm.any id || s.therm.shut.any id || s.therm.broken.any id || s.power.halves.any Half.faulty

/-- FAULT, amber. -/
def lampFault (s : State) : Lamp := if !s.power.aonPowered then .off else if s.day.fatal then .steady else if faultFlash s then .flash 4 else .off

/-- TWIN, green. -/
def lampTwin (s : State) : Lamp :=
  if !s.power.aonPowered then .off
  else match s.twin.st with
  | .paired => .steady
  | .syncing | .recovering | .detaching => .flash 4
  | .covering => .flash 16
  | .solo | .detached => .off

/-- REMOVE, blue: the module may be taken out. -/
def lampRemove (s : State) : Lamp :=
  let idle := s.twin.st == .detached && ((List.range 16).all fun k => (getOct s k).st == .dark) && s.xlat.map.all fun p => match p.2 with
    | .gather _ => false
    | _ => true
  if s.power.aonPowered && (s.day.day == .midnight || idle) then .steady else .off

/-- U0 and U1, green: the PCIe tunnel of a USB4 port, its link training, no link. -/
def lampUsb (s : State) (u : Nat) : Lamp :=
  if !s.power.aonPowered then .off
  else match (getLink s (4 + u)).st with
  | 0 => .off
  | 1 => .flash 4
  | _ => .steady

/-! ### Function identities (R347) -/

/-- The identity fields of a function's configuration space. -/
structure PciId where
  vendor : Nat
  device : Nat
  classCode : Nat
  revision : Nat
  subVendor : Nat
  subsystem : Nat
  deriving DecidableEq, Repr

/-- The identity of a physical or virtual function. A VF's own Vendor ID reads all ones, as SR-IOV requires; its Device ID sits in its
PF's SR-IOV capability. -/
def pciId (vf : Bool) : PciId :=
  { vendor := if vf then 0xFFFF else 0x1D9A, device := if vf then 0x9161 else 0x9160, classCode := 0x018000, revision := Config.stepping.toNat
    subVendor := 0x1D9A, subsystem := if Config.gradeX then 0x9168 else 0x9160 }

/-- The identity that configuration space gives for function `func` of a link: 0 is the PF, the others are VFs (R345). -/
def fnPciId (func : Nat) : PciId := pciId (decide (0 < func))

end Sys2Proof.Machine
end

