-- ==== Sys2Proof/Machine/Sets.lean ====
section
/-! DEFINITION. The instruction SET (R27 to R29, R154, R180). -/

namespace Sys2Proof.Machine

/-- The state an outcome leaves, or the one before it. -/
def nextOr (s : State) : Host.Outcome State Fault Refusal → State
  | .next t => t
  | _ => s

/-- A SET that is not NV completes at issue, where its setting has a command of its own too (R154): FCH_OCT_FAULT, PWR_TEST_NOW, THERM_REARM,
MEM_TEST_REQ, the rotation, revocations and the certificate's commit. -/
def specialNow (s : State) (c id : Nat) : State :=
  if id = 0x08000003 then nextOr s (execFchOctFault c s)
  else if id = 0x0D000010 then nextOr s (execPwrTestNow c s)
  else if id = 0x0F000004 then nextOr s (execThermRearm c s)
  else if id = 0x10000003 then nextOr s (execMemTestReq c s)
  else if id = 0x1200000B then nextOr s (execSecSyskeyRotate c [] s)
  else if id = 0x1200000D then nextOr s (execSecFwKeyRevoke c s)
  else if id = 0x1200000E then nextOr s (execSecCaRevoke c s)
  else if id = 0x12000010 then nextOr s (execSecCertCommit c s)
  else s

/-- SET: refused by R27, or done, or waiting for its entry to be durable or for its own command. -/
def execSet (c : Nat) (s : State) : Host.Outcome State Fault Refusal :=
  .next (issue s c 0x34 (fun x _ => [adminCheck x]) fun s x w =>
    let id := (ga x w) % 2 ^ 32
    let v := rget x (zB w)
    match accessCheck s id (some v) with
    | some (st, d) => putCtx s (x.retireSet st d)
    | none =>
      if specialSet id && !settingNv id then specialNow (putCtx s x.hold) x.c id
      else if settingNv id then settingAppend (putCtx s x.hold) id v
      else putCtx (applySet s id v) (x.retireSet St.ok 0))

end Sys2Proof.Machine
end

