-- ==== Sys2Proof/Machine/Dispatch.lean ====
section
/-! DEFINITION. The dispatch: one arm per command, each one direct call of its meaning. -/

namespace Sys2Proof.Machine

/-- The effect of a command on everything but the queue. -/
def exec (i : Instr) (s : State) : Host.Outcome State Fault Refusal :=
  match i with
  | .beatTick mvA mvB mw hb => Sys2Proof.Machine.execBeatTick mvA mvB mw hb s
  | .crystalTick => Sys2Proof.Machine.execCrystalTick s
  | .plannerBeatCycle => Sys2Proof.Machine.execPlannerBeatCycle s
  | .holdTimeout g => Sys2Proof.Machine.execHoldTimeout g s
  | .fetchDataReturn g idx entry segs prog => Sys2Proof.Machine.execFetchDataReturn g idx entry segs prog s
  | .coalesceCheck g => Sys2Proof.Machine.execCoalesceCheck g s
  | .contextDeadline c => Sys2Proof.Machine.execContextDeadline c s
  | .d7DeadlineExtend c => Sys2Proof.Machine.execD7DeadlineExtend c s
  | .twinAckTimeout c => Sys2Proof.Machine.execTwinAckTimeout c s
  | .mapLineFill line crcOk => Sys2Proof.Machine.execMapLineFill line crcOk s
  | .lineRebuild line => Sys2Proof.Machine.execLineRebuild line s
  | .arrayStatus die ready fail => Sys2Proof.Machine.execArrayStatus die ready fail s
  | .lateOpReset die readyAfter => Sys2Proof.Machine.execLateOpReset die readyAfter s
  | .slotDecode psa zeros step iter crcOk => Sys2Proof.Machine.execSlotDecode psa zeros step iter crcOk s
  | .deepRecoveryDone idx ok => Sys2Proof.Machine.execDeepRecoveryDone idx ok s
  | .gatherSlotPlace slot => Sys2Proof.Machine.execGatherSlotPlace slot s
  | .victimEmptied serial => Sys2Proof.Machine.execVictimEmptied serial s
  | .wearLevelCheck => Sys2Proof.Machine.execWearLevelCheck s
  | .patrolPassStart => Sys2Proof.Machine.execPatrolPassStart s
  | .patrolWindow => Sys2Proof.Machine.execPatrolWindow s
  | .tclkWindow => Sys2Proof.Machine.execTclkWindow s
  | .checkpointStart => Sys2Proof.Machine.execCheckpointStart s
  | .checkpointEnd => Sys2Proof.Machine.execCheckpointEnd s
  | .recovery ckpts journals slots => Sys2Proof.Machine.execRecovery ckpts journals slots s
  | .aringEnable fn => Sys2Proof.Machine.execAringEnable fn s
  | .aringReady fn => Sys2Proof.Machine.execAringReady fn s
  | .aringReset fn => Sys2Proof.Machine.execAringReset fn s
  | .aringDisable fn => Sys2Proof.Machine.execAringDisable fn s
  | .registerWrite fn offset bytes value => Sys2Proof.Machine.execRegisterWrite fn offset bytes value s
  | .latchingRead fn offset bytes => Sys2Proof.Machine.execLatchingRead fn offset bytes s
  | .geventWrite fn value coincident dark => Sys2Proof.Machine.execGeventWrite fn value coincident dark s
  | .geventCfgWrite fn value => Sys2Proof.Machine.execGeventCfgWrite fn value s
  | .darkDomainAccess fn offset write => Sys2Proof.Machine.execDarkDomainAccess fn offset write s
  | .sqTail fn loc value => Sys2Proof.Machine.execSqTail fn loc value s
  | .cqHead fn loc value => Sys2Proof.Machine.execCqHead fn loc value s
  | .rstatClear fn loc value => Sys2Proof.Machine.execRstatClear fn loc value s
  | .read c => Sys2Proof.Machine.execRead c s
  | .write c bytes => Sys2Proof.Machine.execWrite c bytes s
  | .flush c => Sys2Proof.Machine.execFlush c s
  | .trim c => Sys2Proof.Machine.execTrim c s
  | .zero c => Sys2Proof.Machine.execZero c s
  | .compare c bytes => Sys2Proof.Machine.execCompare c bytes s
  | .verify c => Sys2Proof.Machine.execVerify c s
  | .libraryProgram c => Sys2Proof.Machine.execLibraryProgram c s
  | .hostMemoryProgram c => Sys2Proof.Machine.execHostMemoryProgram c s
  | .ringCreate c => Sys2Proof.Machine.execRingCreate c s
  | .ringDelete c => Sys2Proof.Machine.execRingDelete c s
  | .ringReset c => Sys2Proof.Machine.execRingReset c s
  | .ringResetComplete g => Sys2Proof.Machine.execRingResetComplete g s
  | .abort c => Sys2Proof.Machine.execAbort c s
  | .funcReset c => Sys2Proof.Machine.execFuncReset c s
  | .moduleReset c => Sys2Proof.Machine.execModuleReset c s
  | .moduleResetCommandsEnded => Sys2Proof.Machine.execModuleResetCommandsEnded s
  | .getSetting c => Sys2Proof.Machine.execGetSetting c s
  | .setSetting c => Sys2Proof.Machine.execSetSetting c s
  | .nsCreate c key => Sys2Proof.Machine.execNsCreate c key s
  | .nsDelete c => Sys2Proof.Machine.execNsDelete c s
  | .libLoad c bytes => Sys2Proof.Machine.execLibLoad c bytes s
  | .libUnload c => Sys2Proof.Machine.execLibUnload c s
  | .fwDownload c bytes => Sys2Proof.Machine.execFwDownload c bytes s
  | .fwActivateLive c => Sys2Proof.Machine.execFwActivateLive c s
  | .fwActivateAtReset c => Sys2Proof.Machine.execFwActivateAtReset c s
  | .fwActivateCommit c => Sys2Proof.Machine.execFwActivateCommit c s
  | .fwActivateRollback c => Sys2Proof.Machine.execFwActivateRollback c s
  | .fwActivateDiscard c => Sys2Proof.Machine.execFwActivateDiscard c s
  | .attest c nonce => Sys2Proof.Machine.execAttest c nonce s
  | .keyImport c bytes => Sys2Proof.Machine.execKeyImport c bytes s
  | .cryptoErase c key => Sys2Proof.Machine.execCryptoErase c key s
  | .lifeCycle c => Sys2Proof.Machine.execLifeCycle c s
  | .dayEnter c => Sys2Proof.Machine.execDayEnter c s
  | .twinDetach c => Sys2Proof.Machine.execTwinDetach c s
  | .twinAttach c => Sys2Proof.Machine.execTwinAttach c s
  | .logRead c => Sys2Proof.Machine.execLogRead c s
  | .post c => Sys2Proof.Machine.execPost c s
  | .nop c => Sys2Proof.Machine.execNop c s
  | .movi c => Sys2Proof.Machine.execMovi c s
  | .shin c => Sys2Proof.Machine.execShin c s
  | .alu c => Sys2Proof.Machine.execAlu c s
  | .addi c => Sys2Proof.Machine.execAddi c s
  | .andi c => Sys2Proof.Machine.execAndi c s
  | .ori c => Sys2Proof.Machine.execOri c s
  | .xori c => Sys2Proof.Machine.execXori c s
  | .shli c => Sys2Proof.Machine.execShli c s
  | .shri c => Sys2Proof.Machine.execShri c s
  | .cmp c => Sys2Proof.Machine.execCmp c s
  | .cmpi c => Sys2Proof.Machine.execCmpi c s
  | .br c => Sys2Proof.Machine.execBr c s
  | .call c => Sys2Proof.Machine.execCall c s
  | .ret c => Sys2Proof.Machine.execRet c s
  | .loop c => Sys2Proof.Machine.execLoop c s
  | .ld c => Sys2Proof.Machine.execLd c s
  | .st c => Sys2Proof.Machine.execSt c s
  | .bufGet c => Sys2Proof.Machine.execBufGet c s
  | .bufPut c => Sys2Proof.Machine.execBufPut c s
  | .bufSize c => Sys2Proof.Machine.execBufSize c s
  | .hxin c => Sys2Proof.Machine.execHxin c s
  | .hxout c => Sys2Proof.Machine.execHxout c s
  | .mrd c => Sys2Proof.Machine.execMrd c s
  | .mwr c => Sys2Proof.Machine.execMwr c s
  | .mtrim c => Sys2Proof.Machine.execMtrim c s
  | .mzero c => Sys2Proof.Machine.execMzero c s
  | .mflush c => Sys2Proof.Machine.execMflush c s
  | .mcmp c => Sys2Proof.Machine.execMcmp c s
  | .mcas c => Sys2Proof.Machine.execMcas c s
  | .scan c => Sys2Proof.Machine.execScan c s
  | .digest c => Sys2Proof.Machine.execDigest c s
  | .copy c => Sys2Proof.Machine.execCopy c s
  | .cmpb c => Sys2Proof.Machine.execCmpb c s
  | .fence c => Sys2Proof.Machine.execFence c s
  | .set c => Sys2Proof.Machine.execSet c s
  | .get c => Sys2Proof.Machine.execGet c s
  | .doze c => Sys2Proof.Machine.execDoze c s
  | .rcall c => Sys2Proof.Machine.execRcall c s
  | .raw c => Sys2Proof.Machine.execRaw c s
  | .trap c => Sys2Proof.Machine.execTrap c s
  | .waitComplete c bytes status => Sys2Proof.Machine.execWaitComplete c bytes status s
  | .commandStop c => Sys2Proof.Machine.execCommandStop c s
  | .functionReset fn => Sys2Proof.Machine.execFunctionReset fn s
  | .functionResetComplete fn => Sys2Proof.Machine.execFunctionResetComplete fn s
  | .perstAssert port => Sys2Proof.Machine.execPerstAssert port s
  | .perstDeassert port => Sys2Proof.Machine.execPerstDeassert port s
  | .linkUp link rate width flit => Sys2Proof.Machine.execLinkUp link rate width flit s
  | .linkDown link => Sys2Proof.Machine.execLinkDown link s
  | .vfEnable link enable numVfs => Sys2Proof.Machine.execVfEnable link enable numVfs s
  | .functionReturnD0 fn => Sys2Proof.Machine.execFunctionReturnD0 fn s
  | .msixUnmask fn vec => Sys2Proof.Machine.execMsixUnmask fn vec s
  | .usb4TunnelUp port mode => Sys2Proof.Machine.execUsb4TunnelUp port mode s
  | .usb4TunnelDown port => Sys2Proof.Machine.execUsb4TunnelDown port s
  | .enterUsb port message => Sys2Proof.Machine.execEnterUsb port message s
  | .busError engine chan code => Sys2Proof.Machine.execBusError engine chan code s
  | .engineResume engine => Sys2Proof.Machine.execEngineResume engine s
  | .quarantineDrained engine => Sys2Proof.Machine.execQuarantineDrained engine s
  | .paceAssert source => Sys2Proof.Machine.execPaceAssert source s
  | .paceWithdraw source => Sys2Proof.Machine.execPaceWithdraw source s
  | .mctpPacket packet => Sys2Proof.Machine.execMctpPacket packet s
  | .setEndpointId op eid => Sys2Proof.Machine.execSetEndpointId op eid s
  | .getEndpointId => Sys2Proof.Machine.execGetEndpointId s
  | .getMctpVersionSupport typ => Sys2Proof.Machine.execGetMctpVersionSupport typ s
  | .getMessageTypeSupport => Sys2Proof.Machine.execGetMessageTypeSupport s
  | .getVendorDefinedSupport sel => Sys2Proof.Machine.execGetVendorDefinedSupport sel s
  | .health seq => Sys2Proof.Machine.execHealth seq s
  | .temps seq => Sys2Proof.Machine.execTemps seq s
  | .power seq => Sys2Proof.Machine.execPower seq s
  | .events seq => Sys2Proof.Machine.execEvents seq s
  | .sidebandAttest seq body => Sys2Proof.Machine.execSidebandAttest seq body s
  | .sidebandAdmin seq body => Sys2Proof.Machine.execSidebandAdmin seq body s
  | .log seq body => Sys2Proof.Machine.execLog seq body s
  | .sidebandReset seq body => Sys2Proof.Machine.execSidebandReset seq body s
  | .sidebandWake seq => Sys2Proof.Machine.execSidebandWake seq s
  | .alertResponse => Sys2Proof.Machine.execAlertResponse s
  | .octPowerStart k => Sys2Proof.Machine.execOctPowerStart k s
  | .octVccGood k => Sys2Proof.Machine.execOctVccGood k s
  | .octVccqGood k => Sys2Proof.Machine.execOctVccqGood k s
  | .octResetTimer k => Sys2Proof.Machine.execOctResetTimer k s
  | .lunReady die params => Sys2Proof.Machine.execLunReady die params s
  | .lunReadyTimeout die => Sys2Proof.Machine.execLunReadyTimeout die s
  | .railGoodTimeout k => Sys2Proof.Machine.execRailGoodTimeout k s
  | .trainingDone chan eyes out => Sys2Proof.Machine.execTrainingDone chan eyes out s
  | .recentre chan eye => Sys2Proof.Machine.execRecentre chan eye s
  | .octDrainEnd k => Sys2Proof.Machine.execOctDrainEnd k s
  | .octVccqOff k => Sys2Proof.Machine.execOctVccqOff k s
  | .railTrip k => Sys2Proof.Machine.execRailTrip k s
  | .carrierPresenceLoss j => Sys2Proof.Machine.execCarrierPresenceLoss j s
  | .ownGrant k => Sys2Proof.Machine.execOwnGrant k s
  | .grantWaitTimeout k => Sys2Proof.Machine.execGrantWaitTimeout k s
  | .grantLoss k => Sys2Proof.Machine.execGrantLoss k s
  | .leaseRetry k => Sys2Proof.Machine.execLeaseRetry k s
  | .fchOctPower c => Sys2Proof.Machine.execFchOctPower c s
  | .fchOctFault c => Sys2Proof.Machine.execFchOctFault c s
  | .puntyLinkDown => Sys2Proof.Machine.execPuntyLinkDown s
  | .puntyLinkUp lanes => Sys2Proof.Machine.execPuntyLinkUp lanes s
  | .twinPeerRemoved => Sys2Proof.Machine.execTwinPeerRemoved s
  | .twinHbMiss => Sys2Proof.Machine.execTwinHbMiss s
  | .takeoverCare blocks => Sys2Proof.Machine.execTakeoverCare blocks s
  | .coldScanDone found records => Sys2Proof.Machine.execColdScanDone found records s
  | .twinRetry => Sys2Proof.Machine.execTwinRetry s
  | .autoAttach => Sys2Proof.Machine.execAutoAttach s
  | .twinDawnWait seen => Sys2Proof.Machine.execTwinDawnWait seen s
  | .hb pseq seq armed => Sys2Proof.Machine.execHb pseq seq armed s
  | .gather pseq group mslot nsid gran seq tag bytes => Sys2Proof.Machine.execGather pseq group mslot nsid gran seq tag bytes s
  | .jrec pseq recs => Sys2Proof.Machine.execJrec pseq recs s
  | .puntyAck pseq => Sys2Proof.Machine.execPuntyAck pseq s
  | .acommit pseq group seqs => Sys2Proof.Machine.execAcommit pseq group seqs s
  | .adiscard pseq group => Sys2Proof.Machine.execAdiscard pseq group s
  | .sync pseq line entries => Sys2Proof.Machine.execSync pseq line entries s
  | .nstab pseq rows => Sys2Proof.Machine.execNstab pseq rows s
  | .ctrlAttach pseq body => Sys2Proof.Machine.execCtrlAttach pseq body s
  | .ctrlDetach pseq => Sys2Proof.Machine.execCtrlDetach pseq s
  | .ctrlGranted pseq body => Sys2Proof.Machine.execCtrlGranted pseq body s
  | .ctrlRefused pseq => Sys2Proof.Machine.execCtrlRefused pseq s
  | .ctrlReleased pseq => Sys2Proof.Machine.execCtrlReleased pseq s
  | .ctrlReady pseq => Sys2Proof.Machine.execCtrlReady pseq s
  | .ctrlLlDone pseq => Sys2Proof.Machine.execCtrlLlDone pseq s
  | .ctrlCovering pseq => Sys2Proof.Machine.execCtrlCovering pseq s
  | .anchor pseq body => Sys2Proof.Machine.execAnchor pseq body s
  | .keyx pseq body => Sys2Proof.Machine.execKeyx pseq body s
  | .cert pseq cert => Sys2Proof.Machine.execCert pseq cert s
  | .caneLinkChange port st => Sys2Proof.Machine.execCaneLinkChange port st s
  | .neighborSolicitation port target src => Sys2Proof.Machine.execNeighborSolicitation port target src s
  | .echoRequest port src dst body => Sys2Proof.Machine.execEchoRequest port src dst body s
  | .kx1 node body => Sys2Proof.Machine.execKx1 node body s
  | .kx2 node body => Sys2Proof.Machine.execKx2 node body s
  | .kx3 node body => Sys2Proof.Machine.execKx3 node body s
  | .req sid fcount tagOk msgId hops body => Sys2Proof.Machine.execReq sid fcount tagOk msgId hops body s
  | .rep sid fcount tagOk msgId body => Sys2Proof.Machine.execRep sid fcount tagOk msgId body s
  | .caneAck sid fcount tagOk msgId seg => Sys2Proof.Machine.execCaneAck sid fcount tagOk msgId seg s
  | .credit sid fcount tagOk bytes => Sys2Proof.Machine.execCredit sid fcount tagOk bytes s
  | .keepalive sid fcount tagOk => Sys2Proof.Machine.execKeepalive sid fcount tagOk s
  | .close sid fcount tagOk => Sys2Proof.Machine.execClose sid fcount tagOk s
  | .repl sid fcount tagOk msgId nsid g16k cap seq base atom cut ops => Sys2Proof.Machine.execRepl sid fcount tagOk msgId nsid g16k cap seq base atom cut ops s
  | .replAck sid fcount tagOk g16k cap body => Sys2Proof.Machine.execReplAck sid fcount tagOk g16k cap body s
  | .caneRto sid msgId => Sys2Proof.Machine.execCaneRto sid msgId s
  | .caneGiveup sid msgId => Sys2Proof.Machine.execCaneGiveup sid msgId s
  | .caneRekey sid => Sys2Proof.Machine.execCaneRekey sid s
  | .caneRepl c => Sys2Proof.Machine.execCaneRepl c s
  | .feedGood f mv => Sys2Proof.Machine.execFeedGood f mv s
  | .feedConduct f => Sys2Proof.Machine.execFeedConduct f s
  | .feedDrop f mv breaker => Sys2Proof.Machine.execFeedDrop f mv breaker s
  | .lossDeclared => Sys2Proof.Machine.execLossDeclared s
  | .lastLightFlushed => Sys2Proof.Machine.execLastLightFlushed s
  | .aonPowerLoss => Sys2Proof.Machine.execAonPowerLoss s
  | .pwrTestStart h => Sys2Proof.Machine.execPwrTestStart h s
  | .pwrTestSinkEnd capUf esr moved => Sys2Proof.Machine.execPwrTestSinkEnd capUf esr moved s
  | .pwrTestDone => Sys2Proof.Machine.execPwrTestDone s
  | .pwrTestNow c => Sys2Proof.Machine.execPwrTestNow c s
  | .nightSeal => Sys2Proof.Machine.execNightSeal s
  | .nightEntryStep => Sys2Proof.Machine.execNightEntryStep s
  | .midnightEntryStep => Sys2Proof.Machine.execMidnightEntryStep s
  | .duskIdle link => Sys2Proof.Machine.execDuskIdle link s
  | .wakeNLow => Sys2Proof.Machine.execWakeNLow s
  | .dayWakeAt => Sys2Proof.Machine.execDayWakeAt s
  | .wakeFromNight bad failing rerun => Sys2Proof.Machine.execWakeFromNight bad failing rerun s
  | .dawnRegulators => Sys2Proof.Machine.execDawnRegulators s
  | .dawnOscillators imageOk prevOk => Sys2Proof.Machine.execDawnOscillators imageOk prevOk s
  | .dawnCool => Sys2Proof.Machine.execDawnCool s
  | .dawnMemories dramOk failing rerun => Sys2Proof.Machine.execDawnMemories dramOk failing rerun s
  | .dawnLogic imageOk random => Sys2Proof.Machine.execDawnLogic imageOk random s
  | .dawnStepTimeout => Sys2Proof.Machine.execDawnStepTimeout s
  | .sensorSample readings changed => Sys2Proof.Machine.execSensorSample readings changed s
  | .carrierZoneReturn k => Sys2Proof.Machine.execCarrierZoneReturn k s
  | .hotStopFlushed => Sys2Proof.Machine.execHotStopFlushed s
  | .thermRearm c => Sys2Proof.Machine.execThermRearm c s
  | .scrub bank unit words => Sys2Proof.Machine.execScrub bank unit words s
  | .sramUncorrectable bank unit => Sys2Proof.Machine.execSramUncorrectable bank unit s
  | .memTestReq c => Sys2Proof.Machine.execMemTestReq c s
  | .memTestDone failing rerun => Sys2Proof.Machine.execMemTestDone failing rerun s
  | .norProgramDone ok => Sys2Proof.Machine.execNorProgramDone ok s
  | .norEraseDone ok => Sys2Proof.Machine.execNorEraseDone ok s
  | .fwPreloadDone => Sys2Proof.Machine.execFwPreloadDone s
  | .fwSwitchBeat => Sys2Proof.Machine.execFwSwitchBeat s
  | .servitorRestart n => Sys2Proof.Machine.execServitorRestart n s
  | .watchdogExpiry n => Sys2Proof.Machine.execWatchdogExpiry n s
  | .tamperDetect cause => Sys2Proof.Machine.execTamperDetect cause s
  | .tamperRestart => Sys2Proof.Machine.execTamperRestart s
  | .secSyskeyRotate c key => Sys2Proof.Machine.execSecSyskeyRotate c key s
  | .secCertCommit c => Sys2Proof.Machine.execSecCertCommit c s
  | .secLock c => Sys2Proof.Machine.execSecLock c s
  | .secFwKeyRevoke c => Sys2Proof.Machine.execSecFwKeyRevoke c s
  | .secCaRevoke c => Sys2Proof.Machine.execSecCaRevoke c s
  | .keyScrub sector => Sys2Proof.Machine.execKeyScrub sector s
  | .functionD3hot fn d3 => Sys2Proof.Machine.execFunctionD3hot fn d3 s
  | .overvoltageLockoutRelease f mv => Sys2Proof.Machine.execOvervoltageLockoutRelease f mv s
  | .caneDedupExpiry sid msgId => Sys2Proof.Machine.execCaneDedupExpiry sid msgId s
  | .oldSessionKeysExpiry sid => Sys2Proof.Machine.execOldSessionKeysExpiry sid s

end Sys2Proof.Machine
end

