-- ==== Sys2Proof/WellFormed.lean ====
section
/-! DEFINITION. Which commands are well-formed: every operand names a part the module has, and every
block of bytes has the length its rule gives. A command that is not well-formed is no command of this hardware. -/

namespace Sys2Proof

/-- A context number (R116). -/
def ctxOk (c : Nat) : Bool := decide (c < 65536)

/-- A global ring pair number (R76). -/
def ringOk (g : Nat) : Bool := decide (g < 1024)

/-- A function number, 64 × LINK + FUNC (R346). -/
def fnOk (n : Nat) : Bool := decide (n < 384)

/-- A die number (R227). -/
def dieOk (d : Nat) : Bool := decide (d < 2048)

/-- An oct number (R11). -/
def octOk (k : Nat) : Bool := decide (k < 16)

/-- A flash channel (R227). -/
def chanOk (n : Nat) : Bool := decide (n < 128)

/-- A mover channel (R324). -/
def moverOk (n : Nat) : Bool := decide (n < 64)

/-- A mover engine (R324). -/
def engineOk (e : Nat) : Bool := decide (e < 4)

/-- A host link (R344). -/
def linkOk (l : Nat) : Bool := decide (l < 6)

/-- One of two ports, feeds, bank halves or connectors. -/
def pairOk (p : Nat) : Bool := decide (p < 2)

/-- A Servitor (R11). -/
def servitorOk (n : Nat) : Bool := decide (n < 8)

/-- A pacing source (R336). -/
def pacerOk (p : Nat) : Bool := decide (p < 3)

/-- A memory bank (R459). -/
def bankOk (b : Nat) : Bool := decide (b < 11)

/-- An offset in BAR0 (R354). -/
def offsetOk (o : Nat) : Bool := decide (o < 0x800000)

/-- The bytes of one host access (R355). -/
def accessOk (n : Nat) : Bool := decide (1 ≤ n ∧ n ≤ 8)

/-- An endpoint ID, HOST_MCTP_EID (8 bits). -/
def eidOk (e : Nat) : Bool := decide (e < 256)

/-- A physical slot address (R228). -/
def psaOk (a : Nat) : Bool := decide (a < 2 ^ 38)

/-- A list of exactly n elements. -/
def lenOk {α : Type} (n : Nat) (l : List α) : Bool := l.length == n

/-- Whether a command is well-formed. -/
def Instr.wellFormed : Instr → Bool
  | .beatTick _ _ _ _ => true
  | .crystalTick => true
  | .plannerBeatCycle => true
  | .holdTimeout g => ringOk g
  | .fetchDataReturn g _ entry _ _ => ringOk g && lenOk 64 entry
  | .coalesceCheck g => ringOk g
  | .contextDeadline c => ctxOk c
  | .d7DeadlineExtend c => ctxOk c
  | .twinAckTimeout c => ctxOk c
  | .mapLineFill _ _ => true
  | .lineRebuild _ => true
  | .arrayStatus die _ _ => dieOk die
  | .lateOpReset die _ => dieOk die
  | .slotDecode psa _ _ _ _ => psaOk psa
  | .deepRecoveryDone _ _ => true
  | .gatherSlotPlace _ => true
  | .victimEmptied _ => true
  | .wearLevelCheck => true
  | .patrolPassStart => true
  | .patrolWindow => true
  | .tclkWindow => true
  | .checkpointStart => true
  | .checkpointEnd => true
  | .recovery _ _ _ => true
  | .aringEnable fn => fnOk fn
  | .aringReady fn => fnOk fn
  | .aringReset fn => fnOk fn
  | .aringDisable fn => fnOk fn
  | .registerWrite fn offset bytes _ => fnOk fn && offsetOk offset && accessOk bytes
  | .latchingRead fn offset bytes => fnOk fn && offsetOk offset && accessOk bytes
  | .geventWrite fn _ _ _ => fnOk fn
  | .geventCfgWrite fn _ => fnOk fn
  | .darkDomainAccess fn offset _ => fnOk fn && offsetOk offset
  | .sqTail fn _ _ => fnOk fn
  | .cqHead fn _ _ => fnOk fn
  | .rstatClear fn _ _ => fnOk fn
  | .read c => ctxOk c
  | .write c _ => ctxOk c
  | .flush c => ctxOk c
  | .trim c => ctxOk c
  | .zero c => ctxOk c
  | .compare c _ => ctxOk c
  | .verify c => ctxOk c
  | .libraryProgram c => ctxOk c
  | .hostMemoryProgram c => ctxOk c
  | .ringCreate c => ctxOk c
  | .ringDelete c => ctxOk c
  | .ringReset c => ctxOk c
  | .ringResetComplete g => ringOk g
  | .abort c => ctxOk c
  | .funcReset c => ctxOk c
  | .moduleReset c => ctxOk c
  | .moduleResetCommandsEnded => true
  | .getSetting c => ctxOk c
  | .setSetting c => ctxOk c
  | .nsCreate c key => ctxOk c && lenOk 64 key
  | .nsDelete c => ctxOk c
  | .libLoad c _ => ctxOk c
  | .libUnload c => ctxOk c
  | .fwDownload c _ => ctxOk c
  | .fwActivateLive c => ctxOk c
  | .fwActivateAtReset c => ctxOk c
  | .fwActivateCommit c => ctxOk c
  | .fwActivateRollback c => ctxOk c
  | .fwActivateDiscard c => ctxOk c
  | .attest c _ => ctxOk c
  | .keyImport c _ => ctxOk c
  | .cryptoErase c key => ctxOk c && lenOk 64 key
  | .lifeCycle c => ctxOk c
  | .dayEnter c => ctxOk c
  | .twinDetach c => ctxOk c
  | .twinAttach c => ctxOk c
  | .logRead c => ctxOk c
  | .post c => ctxOk c
  | .nop c => ctxOk c
  | .movi c => ctxOk c
  | .shin c => ctxOk c
  | .alu c => ctxOk c
  | .addi c => ctxOk c
  | .andi c => ctxOk c
  | .ori c => ctxOk c
  | .xori c => ctxOk c
  | .shli c => ctxOk c
  | .shri c => ctxOk c
  | .cmp c => ctxOk c
  | .cmpi c => ctxOk c
  | .br c => ctxOk c
  | .call c => ctxOk c
  | .ret c => ctxOk c
  | .loop c => ctxOk c
  | .ld c => ctxOk c
  | .st c => ctxOk c
  | .bufGet c => ctxOk c
  | .bufPut c => ctxOk c
  | .bufSize c => ctxOk c
  | .hxin c => ctxOk c
  | .hxout c => ctxOk c
  | .mrd c => ctxOk c
  | .mwr c => ctxOk c
  | .mtrim c => ctxOk c
  | .mzero c => ctxOk c
  | .mflush c => ctxOk c
  | .mcmp c => ctxOk c
  | .mcas c => ctxOk c
  | .scan c => ctxOk c
  | .digest c => ctxOk c
  | .copy c => ctxOk c
  | .cmpb c => ctxOk c
  | .fence c => ctxOk c
  | .set c => ctxOk c
  | .get c => ctxOk c
  | .doze c => ctxOk c
  | .rcall c => ctxOk c
  | .raw c => ctxOk c
  | .trap c => ctxOk c
  | .waitComplete c _ _ => ctxOk c
  | .commandStop c => ctxOk c
  | .functionReset fn => fnOk fn
  | .functionResetComplete fn => fnOk fn
  | .perstAssert port => pairOk port
  | .perstDeassert port => pairOk port
  | .linkUp link _ _ _ => linkOk link
  | .linkDown link => linkOk link
  | .vfEnable link _ _ => linkOk link
  | .functionReturnD0 fn => fnOk fn
  | .msixUnmask fn _ => fnOk fn
  | .usb4TunnelUp port _ => pairOk port
  | .usb4TunnelDown port => pairOk port
  | .enterUsb port _ => pairOk port
  | .busError engine chan _ => engineOk engine && moverOk chan
  | .engineResume engine => engineOk engine
  | .quarantineDrained engine => engineOk engine
  | .paceAssert source => pacerOk source
  | .paceWithdraw source => pacerOk source
  | .mctpPacket _ => true
  | .setEndpointId _ eid => eidOk eid
  | .getEndpointId => true
  | .getMctpVersionSupport _ => true
  | .getMessageTypeSupport => true
  | .getVendorDefinedSupport _ => true
  | .health _ => true
  | .temps _ => true
  | .power _ => true
  | .events _ => true
  | .sidebandAttest _ _ => true
  | .sidebandAdmin _ _ => true
  | .log _ _ => true
  | .sidebandReset _ _ => true
  | .sidebandWake _ => true
  | .alertResponse => true
  | .octPowerStart k => octOk k
  | .octVccGood k => octOk k
  | .octVccqGood k => octOk k
  | .octResetTimer k => octOk k
  | .lunReady die _ => dieOk die
  | .lunReadyTimeout die => dieOk die
  | .railGoodTimeout k => octOk k
  | .trainingDone chan _ _ => chanOk chan
  | .recentre chan _ => chanOk chan
  | .octDrainEnd k => octOk k
  | .octVccqOff k => octOk k
  | .railTrip k => octOk k
  | .carrierPresenceLoss j => pairOk j
  | .ownGrant k => octOk k
  | .grantWaitTimeout k => octOk k
  | .grantLoss k => octOk k
  | .leaseRetry k => octOk k
  | .fchOctPower c => ctxOk c
  | .fchOctFault c => ctxOk c
  | .puntyLinkDown => true
  | .puntyLinkUp _ => true
  | .twinPeerRemoved => true
  | .twinHbMiss => true
  | .takeoverCare _ => true
  | .coldScanDone _ _ => true
  | .twinRetry => true
  | .autoAttach => true
  | .twinDawnWait _ => true
  | .hb _ _ _ => true
  | .gather _ _ _ _ _ _ _ _ => true
  | .jrec _ _ => true
  | .puntyAck _ => true
  | .acommit _ _ _ => true
  | .adiscard _ _ => true
  | .sync _ _ _ => true
  | .nstab _ _ => true
  | .ctrlAttach _ _ => true
  | .ctrlDetach _ => true
  | .ctrlGranted _ _ => true
  | .ctrlRefused _ => true
  | .ctrlReleased _ => true
  | .ctrlReady _ => true
  | .ctrlLlDone _ => true
  | .ctrlCovering _ => true
  | .anchor _ _ => true
  | .keyx _ _ => true
  | .cert _ _ => true
  | .caneLinkChange port _ => pairOk port
  | .neighborSolicitation port target src => pairOk port && lenOk 16 target && lenOk 16 src
  | .echoRequest port src dst _ => pairOk port && lenOk 16 src && lenOk 16 dst
  | .kx1 _ _ => true
  | .kx2 _ _ => true
  | .kx3 _ _ => true
  | .req _ _ _ _ _ _ => true
  | .rep _ _ _ _ _ => true
  | .caneAck _ _ _ _ _ => true
  | .credit _ _ _ _ => true
  | .keepalive _ _ _ => true
  | .close _ _ _ => true
  | .repl _ _ _ _ _ _ _ _ _ _ _ _ => true
  | .replAck _ _ _ _ _ _ => true
  | .caneRto _ _ => true
  | .caneGiveup _ _ => true
  | .caneRekey _ => true
  | .caneRepl c => ctxOk c
  | .feedGood f _ => pairOk f
  | .feedConduct f => pairOk f
  | .feedDrop f _ _ => pairOk f
  | .lossDeclared => true
  | .lastLightFlushed => true
  | .aonPowerLoss => true
  | .pwrTestStart h => pairOk h
  | .pwrTestSinkEnd _ _ _ => true
  | .pwrTestDone => true
  | .pwrTestNow c => ctxOk c
  | .nightSeal => true
  | .nightEntryStep => true
  | .midnightEntryStep => true
  | .duskIdle link => linkOk link
  | .wakeNLow => true
  | .dayWakeAt => true
  | .wakeFromNight _ _ _ => true
  | .dawnRegulators => true
  | .dawnOscillators _ _ => true
  | .dawnCool => true
  | .dawnMemories dramOk _ _ => lenOk 8 dramOk
  | .dawnLogic _ _ => true
  | .dawnStepTimeout => true
  | .sensorSample readings changed => lenOk 28 readings && lenOk 28 changed
  | .carrierZoneReturn k => octOk k
  | .hotStopFlushed => true
  | .thermRearm c => ctxOk c
  | .scrub bank _ _ => bankOk bank
  | .sramUncorrectable bank _ => bankOk bank
  | .memTestReq c => ctxOk c
  | .memTestDone _ _ => true
  | .norProgramDone _ => true
  | .norEraseDone _ => true
  | .fwPreloadDone => true
  | .fwSwitchBeat => true
  | .servitorRestart n => servitorOk n
  | .watchdogExpiry n => servitorOk n
  | .tamperDetect _ => true
  | .tamperRestart => true
  | .secSyskeyRotate c key => ctxOk c && lenOk 64 key
  | .secCertCommit c => ctxOk c
  | .secLock c => ctxOk c
  | .secFwKeyRevoke c => ctxOk c
  | .secCaRevoke c => ctxOk c
  | .keyScrub _ => true
  | .functionD3hot fn _ => fnOk fn
  | .overvoltageLockoutRelease f _ => pairOk f
  | .caneDedupExpiry _ _ => true
  | .oldSessionKeysExpiry _ => true

/-- The context a command is about. -/
def Instr.ctxNumber : Instr → Option Nat
  | .beatTick _ _ _ _ => none
  | .crystalTick => none
  | .plannerBeatCycle => none
  | .holdTimeout _ => none
  | .fetchDataReturn _ _ _ _ _ => none
  | .coalesceCheck _ => none
  | .contextDeadline c => some c
  | .d7DeadlineExtend c => some c
  | .twinAckTimeout c => some c
  | .mapLineFill _ _ => none
  | .lineRebuild _ => none
  | .arrayStatus _ _ _ => none
  | .lateOpReset _ _ => none
  | .slotDecode _ _ _ _ _ => none
  | .deepRecoveryDone _ _ => none
  | .gatherSlotPlace _ => none
  | .victimEmptied _ => none
  | .wearLevelCheck => none
  | .patrolPassStart => none
  | .patrolWindow => none
  | .tclkWindow => none
  | .checkpointStart => none
  | .checkpointEnd => none
  | .recovery _ _ _ => none
  | .aringEnable _ => none
  | .aringReady _ => none
  | .aringReset _ => none
  | .aringDisable _ => none
  | .registerWrite _ _ _ _ => none
  | .latchingRead _ _ _ => none
  | .geventWrite _ _ _ _ => none
  | .geventCfgWrite _ _ => none
  | .darkDomainAccess _ _ _ => none
  | .sqTail _ _ _ => none
  | .cqHead _ _ _ => none
  | .rstatClear _ _ _ => none
  | .read c => some c
  | .write c _ => some c
  | .flush c => some c
  | .trim c => some c
  | .zero c => some c
  | .compare c _ => some c
  | .verify c => some c
  | .libraryProgram c => some c
  | .hostMemoryProgram c => some c
  | .ringCreate c => some c
  | .ringDelete c => some c
  | .ringReset c => some c
  | .ringResetComplete _ => none
  | .abort c => some c
  | .funcReset c => some c
  | .moduleReset c => some c
  | .moduleResetCommandsEnded => none
  | .getSetting c => some c
  | .setSetting c => some c
  | .nsCreate c _ => some c
  | .nsDelete c => some c
  | .libLoad c _ => some c
  | .libUnload c => some c
  | .fwDownload c _ => some c
  | .fwActivateLive c => some c
  | .fwActivateAtReset c => some c
  | .fwActivateCommit c => some c
  | .fwActivateRollback c => some c
  | .fwActivateDiscard c => some c
  | .attest c _ => some c
  | .keyImport c _ => some c
  | .cryptoErase c _ => some c
  | .lifeCycle c => some c
  | .dayEnter c => some c
  | .twinDetach c => some c
  | .twinAttach c => some c
  | .logRead c => some c
  | .post c => some c
  | .nop c => some c
  | .movi c => some c
  | .shin c => some c
  | .alu c => some c
  | .addi c => some c
  | .andi c => some c
  | .ori c => some c
  | .xori c => some c
  | .shli c => some c
  | .shri c => some c
  | .cmp c => some c
  | .cmpi c => some c
  | .br c => some c
  | .call c => some c
  | .ret c => some c
  | .loop c => some c
  | .ld c => some c
  | .st c => some c
  | .bufGet c => some c
  | .bufPut c => some c
  | .bufSize c => some c
  | .hxin c => some c
  | .hxout c => some c
  | .mrd c => some c
  | .mwr c => some c
  | .mtrim c => some c
  | .mzero c => some c
  | .mflush c => some c
  | .mcmp c => some c
  | .mcas c => some c
  | .scan c => some c
  | .digest c => some c
  | .copy c => some c
  | .cmpb c => some c
  | .fence c => some c
  | .set c => some c
  | .get c => some c
  | .doze c => some c
  | .rcall c => some c
  | .raw c => some c
  | .trap c => some c
  | .waitComplete c _ _ => some c
  | .commandStop c => some c
  | .functionReset _ => none
  | .functionResetComplete _ => none
  | .perstAssert _ => none
  | .perstDeassert _ => none
  | .linkUp _ _ _ _ => none
  | .linkDown _ => none
  | .vfEnable _ _ _ => none
  | .functionReturnD0 _ => none
  | .msixUnmask _ _ => none
  | .usb4TunnelUp _ _ => none
  | .usb4TunnelDown _ => none
  | .enterUsb _ _ => none
  | .busError _ _ _ => none
  | .engineResume _ => none
  | .quarantineDrained _ => none
  | .paceAssert _ => none
  | .paceWithdraw _ => none
  | .mctpPacket _ => none
  | .setEndpointId _ _ => none
  | .getEndpointId => none
  | .getMctpVersionSupport _ => none
  | .getMessageTypeSupport => none
  | .getVendorDefinedSupport _ => none
  | .health _ => none
  | .temps _ => none
  | .power _ => none
  | .events _ => none
  | .sidebandAttest _ _ => none
  | .sidebandAdmin _ _ => none
  | .log _ _ => none
  | .sidebandReset _ _ => none
  | .sidebandWake _ => none
  | .alertResponse => none
  | .octPowerStart _ => none
  | .octVccGood _ => none
  | .octVccqGood _ => none
  | .octResetTimer _ => none
  | .lunReady _ _ => none
  | .lunReadyTimeout _ => none
  | .railGoodTimeout _ => none
  | .trainingDone _ _ _ => none
  | .recentre _ _ => none
  | .octDrainEnd _ => none
  | .octVccqOff _ => none
  | .railTrip _ => none
  | .carrierPresenceLoss _ => none
  | .ownGrant _ => none
  | .grantWaitTimeout _ => none
  | .grantLoss _ => none
  | .leaseRetry _ => none
  | .fchOctPower c => some c
  | .fchOctFault c => some c
  | .puntyLinkDown => none
  | .puntyLinkUp _ => none
  | .twinPeerRemoved => none
  | .twinHbMiss => none
  | .takeoverCare _ => none
  | .coldScanDone _ _ => none
  | .twinRetry => none
  | .autoAttach => none
  | .twinDawnWait _ => none
  | .hb _ _ _ => none
  | .gather _ _ _ _ _ _ _ _ => none
  | .jrec _ _ => none
  | .puntyAck _ => none
  | .acommit _ _ _ => none
  | .adiscard _ _ => none
  | .sync _ _ _ => none
  | .nstab _ _ => none
  | .ctrlAttach _ _ => none
  | .ctrlDetach _ => none
  | .ctrlGranted _ _ => none
  | .ctrlRefused _ => none
  | .ctrlReleased _ => none
  | .ctrlReady _ => none
  | .ctrlLlDone _ => none
  | .ctrlCovering _ => none
  | .anchor _ _ => none
  | .keyx _ _ => none
  | .cert _ _ => none
  | .caneLinkChange _ _ => none
  | .neighborSolicitation _ _ _ => none
  | .echoRequest _ _ _ _ => none
  | .kx1 _ _ => none
  | .kx2 _ _ => none
  | .kx3 _ _ => none
  | .req _ _ _ _ _ _ => none
  | .rep _ _ _ _ _ => none
  | .caneAck _ _ _ _ _ => none
  | .credit _ _ _ _ => none
  | .keepalive _ _ _ => none
  | .close _ _ _ => none
  | .repl _ _ _ _ _ _ _ _ _ _ _ _ => none
  | .replAck _ _ _ _ _ _ => none
  | .caneRto _ _ => none
  | .caneGiveup _ _ => none
  | .caneRekey _ => none
  | .caneRepl c => some c
  | .feedGood _ _ => none
  | .feedConduct _ => none
  | .feedDrop _ _ _ => none
  | .lossDeclared => none
  | .lastLightFlushed => none
  | .aonPowerLoss => none
  | .pwrTestStart _ => none
  | .pwrTestSinkEnd _ _ _ => none
  | .pwrTestDone => none
  | .pwrTestNow c => some c
  | .nightSeal => none
  | .nightEntryStep => none
  | .midnightEntryStep => none
  | .duskIdle _ => none
  | .wakeNLow => none
  | .dayWakeAt => none
  | .wakeFromNight _ _ _ => none
  | .dawnRegulators => none
  | .dawnOscillators _ _ => none
  | .dawnCool => none
  | .dawnMemories _ _ _ => none
  | .dawnLogic _ _ => none
  | .dawnStepTimeout => none
  | .sensorSample _ _ => none
  | .carrierZoneReturn _ => none
  | .hotStopFlushed => none
  | .thermRearm c => some c
  | .scrub _ _ _ => none
  | .sramUncorrectable _ _ => none
  | .memTestReq c => some c
  | .memTestDone _ _ => none
  | .norProgramDone _ => none
  | .norEraseDone _ => none
  | .fwPreloadDone => none
  | .fwSwitchBeat => none
  | .servitorRestart _ => none
  | .watchdogExpiry _ => none
  | .tamperDetect _ => none
  | .tamperRestart => none
  | .secSyskeyRotate c _ => some c
  | .secCertCommit c => some c
  | .secLock c => some c
  | .secFwKeyRevoke c => some c
  | .secCaRevoke c => some c
  | .keyScrub _ => none
  | .functionD3hot _ _ => none
  | .overvoltageLockoutRelease _ _ => none
  | .caneDedupExpiry _ _ => none
  | .oldSessionKeysExpiry _ => none

end Sys2Proof
end

