-- ==== Sys2Proof/Safety.lean ====
section
/-! DEFINITION. What counts as a safe run, and the terms the statements use: what a command answers, what it
leaves alone, when an instruction of a context issues. -/

namespace Sys2Proof.Safety

open Sys2Proof.Machine

/-- Every waiting command is well-formed. -/
def QueueOk (s : State) : Prop := ∀ i ∈ s.pending, i.wellFormed = true

/-- A command takes effect: a next state, of which P holds. -/
def Does (i : Instr) (s : State) (P : State → Prop) : Prop := ∃ t, exec i s = .next t ∧ P t

/-- A command that finds nothing to do: the next state is this one. -/
def Idle (i : Instr) (s : State) : Prop := exec i s = .next s

/-! ### Instructions of a context -/

/-- The row of an instruction of a context: context, opcode, and for BUF the function (05, Opcode map). -/
def zciRow : Instr → Option (Nat × Nat × Option Nat)
  | .post c => some (c, 0x01, none)
  | .nop c => some (c, 0x02, none)
  | .movi c => some (c, 0x04, none)
  | .shin c => some (c, 0x05, none)
  | .alu c => some (c, 0x08, none)
  | .addi c => some (c, 0x09, none)
  | .andi c => some (c, 0x0A, none)
  | .ori c => some (c, 0x0B, none)
  | .xori c => some (c, 0x0C, none)
  | .shli c => some (c, 0x0D, none)
  | .shri c => some (c, 0x0E, none)
  | .cmp c => some (c, 0x10, none)
  | .cmpi c => some (c, 0x11, none)
  | .br c => some (c, 0x14, none)
  | .call c => some (c, 0x15, none)
  | .ret c => some (c, 0x16, none)
  | .loop c => some (c, 0x17, none)
  | .ld c => some (c, 0x18, none)
  | .st c => some (c, 0x19, none)
  | .bufGet c => some (c, 0x1C, some 0)
  | .bufPut c => some (c, 0x1C, some 1)
  | .bufSize c => some (c, 0x1C, some 2)
  | .hxin c => some (c, 0x20, none)
  | .hxout c => some (c, 0x21, none)
  | .mrd c => some (c, 0x24, none)
  | .mwr c => some (c, 0x25, none)
  | .mtrim c => some (c, 0x26, none)
  | .mzero c => some (c, 0x27, none)
  | .mflush c => some (c, 0x28, none)
  | .mcmp c => some (c, 0x29, none)
  | .mcas c => some (c, 0x2A, none)
  | .scan c => some (c, 0x2C, none)
  | .digest c => some (c, 0x2D, none)
  | .copy c => some (c, 0x2E, none)
  | .cmpb c => some (c, 0x2F, none)
  | .fence c => some (c, 0x31, none)
  | .set c => some (c, 0x34, none)
  | .get c => some (c, 0x35, none)
  | .doze c => some (c, 0x36, none)
  | .rcall c => some (c, 0x38, none)
  | .raw c => some (c, 0x3A, none)
  | .trap c => some (c, 0x3C, none)
  | _ => none

/-- Context x, number c, may issue, and the word at its PC is w, of opcode op (R117, R152). -/
structure AtWord (s : State) (c op : Nat) (x : Ctx) (w : BitVec 32) : Prop where
  ctx : getCtx s c = some x
  free : canIssue s x = true
  word : wordAt s x = some w
  opc : zOp w = op

/-- The budget lets one more instruction of opcode op issue (R136, R137). -/
def BudgetLeft (x : Ctx) (op : Nat) : Prop := zMedia op = true ∨ x.budget ≠ 0 ∨ x.entry.cls = 7

/-- The word issues, within its budget and not guarded off: only its own checks stand between it and its effect. -/
structure Issues (s : State) (c op : Nat) (x : Ctx) (w : BitVec 32) : Prop extends AtWord s c op x w where
  budget : BudgetLeft x op
  guard : guardOn x w = true

/-- The instruction leaves context c as y, and every other context and the rest of the module as they were. -/
def Lands (i : Instr) (s : State) (c : Nat) (y : Ctx) : Prop :=
  Does i s fun t => getCtx t c = some y ∧ (∀ d, d ≠ c → getCtx t d = getCtx s d) ∧ t = { s with ctxs := t.ctxs }

/-- A context past an instruction that wrote v to Gd; G0 is never written (R120, R155). -/
def wrote (x : Ctx) (op : Nat) (w : BitVec 32) (v : BitVec 64) : Ctx :=
  { x.countIssue op w with regs := if zD w = 0 then x.regs else x.regs.setIfInBounds (zD w) v, pc := x.pc + 1 }

/-- A context past a compare that wrote b to predicate p; P0 is never written (R120, R156). -/
def compared (x : Ctx) (op : Nat) (w : BitVec 32) (p : Nat) (b : Bool) : Ctx :=
  { x.countIssue op w with preds := if p = 0 then x.preds else x.preds.setIfInBounds p b, pc := x.pc + 1 }

/-- A context that went to PC pc and changed nothing else. -/
def jumped (x : Ctx) (op : Nat) (w : BitVec 32) (pc : Nat) : Ctx := { x.countIssue op w with pc := pc }

/-- A context whose instruction issued and took effect; a side-effecting one fixes the commit beat (R105, R145). -/
def ran (s : State) (x : Ctx) (op : Nat) (w : BitVec 32) : Ctx :=
  if zSide op then { x.countIssue op w with commitBeat := some (x.commitBeat.getD s.beat) } else x.countIssue op w

/-- The instruction leaves context c waiting on it, at the same PC, with Q of it; every other context stays, and of the
rest of the module only what `keep` lets go (R117, R154). -/
def Waits (i : Instr) (s : State) (c : Nat) (keep : State → State) (Q : State → Ctx → Prop) : Prop :=
  Does i s fun t => (∃ y, getCtx t c = some y ∧ y.wait = .instr ∧ Q t y) ∧ (∀ d, d ≠ c → getCtx t d = getCtx s d) ∧ t = keep t

/-- The instruction leaves context c as y but for the n bytes, or the part of them left, that it has still to move: what it moves in
this beat comes from what the command booked on it, and from capacity no booking claims (R148, R547). -/
def Streams (i : Instr) (s : State) (c : Nat) (y : Ctx) (n : Nat) : Prop :=
  Waits i s c (fun t => { s with ctxs := t.ctxs, zci := { s.zci with units := t.zci.units }, plan := { s.plan with near := t.plan.near } }) fun _ z =>
    z = { y with left := z.left, drawn := z.drawn, late := z.late } ∧ z.left ≤ n

/-- The read requests that the bytes [off, off + n) of a context's descriptor space make (R329). -/
def dataReads (s : State) (x : Ctx) (off n : Nat) : List Out :=
  ((trimPieces (descPieces x.entry x.segs) off n).flatMap fun p => splitReqs (reqLimit s x.fn false) p.2 p.1 p.2).map
    fun r => .hostRead x.fn (BitVec.ofNat 64 r.1) r.2

/-- The granules of a media instruction lie in the entry's range, in the declared direction (R164). -/
abbrev MediaOk (s : State) (x : Ctx) (w : BitVec 32) (k : Nat) (rd wr : Bool) : Prop :=
  inEntry x (ga x w) (gb x w) = true ∧ (rd = true → dReads x = true ∧ gb x w ≤ x.rdLeft) ∧
  (wr = true → dWrites x = true ∧ gb x w ≤ x.wrLeft) ∧ (k = 2 → gb x w * gran s x ≤ 1048576) ∧
  (0 < k → inBounds x (zH w) (gd x w) (k * gb x w * gran s x) = true ∧ gd x w % 4096 = 0)

/-- The resident parison of op of context x, number c, may run: no stop and no earlier command stands in its way (R185, R426). -/
structure Resident (s : State) (c op : Nat) (typ : Nat) (x : Ctx) : Prop where
  ctx : getCtx s c = some x
  wait : x.wait = .resident
  typ : x.entry.typ.toNat = typ
  op : x.entry.op.toNat = op
  going : x.stopping = false
  free : effBlocked s x = false

/-- The command leaves context c with its POST to come, with this status, detail and result, and of the rest of the
module changes only what `keep` lets go. -/
def Posts (i : Instr) (s : State) (c : Nat) (st : BitVec 16) (det : BitVec 8) (res : BitVec 64) (keep : State → State)
    (Q : State → Prop) : Prop :=
  Does i s fun t => (∃ y, getCtx t c = some y ∧ y.wait = .posting ∧ y.status = st ∧ y.detail = det ∧ y.result = res) ∧
    (∀ d, d ≠ c → getCtx t d = getCtx s d) ∧ t = keep t ∧ Q t

/-! ### Octs -/

/-- The command leaves oct k as o, and every other oct and the rest of the module as they were. -/
def OctTo (i : Instr) (s : State) (k : Nat) (o : Oct) : Prop :=
  Does i s fun t => t = { s with flash := { s.flash with octs := t.flash.octs } } ∧ getOct t k = o ∧ ∀ j, j ≠ k → getOct t j = getOct s j

/-- Oct k is DARK, its rails off, and none of its dies answers or runs anything (R308). -/
def Darkened (t : State) (k : Nat) : Prop :=
  (getOct t k).st = .dark ∧ (getOct t k).vcc = 0 ∧ (getOct t k).vccq = false ∧ ∀ d ∈ t.flash.dies, dieOct d.d = k → d.ready = false ∧ d.ops = []

/-! ### Punty frames -/

/-- A frame with this PSEQ is taken: the link carries frames and it is the next one or a later one (R379, R382). -/
def Fresh (s : State) (p : Nat) : Prop := puntyUp s = true ∧ s.twin.rxPseq < p

/-- The state that has received a frame and not yet acted on it. -/
def got (s : State) (p : Nat) : State := s.updTwin fun t => { t with rxPseq := p, lastFrame := s.beat, peerPresent := true }

/-! ### Cane frames -/

/-- Session x, number sid, is established and takes a frame with this FCOUNT (R394, R395). -/
def Takes (s : State) (sid f : Nat) (x : Session) : Prop := getSession s sid = some x ∧ x.phase = 2 ∧ x.fresh f = true

/-- The state that has accepted n frames of a session, the last with FCOUNT f, and not yet acted on them. -/
def took (s : State) (sid f n : Nat) : State :=
  (modSession s sid fun y => y.accept f s.beat).updCane fun c => { c with framesRx := satAdd c.framesRx n }

/-- The command is a frame of a session with this FCOUNT and this outcome of its tag check. -/
def IsFrame (i : Instr) (sid f : Nat) (tag : Bool) : Prop :=
  (∃ m h b, i = Instr.req sid f tag m h b) ∨ (∃ m b, i = Instr.rep sid f tag m b) ∨ (∃ m n, i = Instr.caneAck sid f tag m n) ∨ (∃ n, i = Instr.credit sid f tag n) ∨
  i = Instr.keepalive sid f tag ∨ i = Instr.close sid f tag ∨ (∃ m n g c q a b d o, i = Instr.repl sid f tag m n g c q a b d o) ∨
  ∃ g c b, i = Instr.replAck sid f tag g c b

/-! ### Power and times of day -/

/-- The command leaves feed f as k, and the other feed and the rest of the module as they were. -/
def FeedTo (i : Instr) (s : State) (f : Nat) (k : Feed) : Prop :=
  Does i s fun t => t = { s with power := { s.power with feeds := t.power.feeds } } ∧ getFeed t f = k ∧ ∀ g, g ≠ f → getFeed t g = getFeed s g

/-- Everything outside the always-on domain is lost but what stands on media and in the boot flash (R428, R112). -/
def Wiped (s t : State) : Prop :=
  t.ctxs = [] ∧ t.rings = [] ∧ t.fns = [] ∧ t.plan = Planner.init ∧ t.xlat = s.xlat.dark ∧ t.media = s.media.dark ∧ t.care = s.care.dark ∧
  t.power.armed = 0 ∧ t.sec.nskeys = [] ∧ t.sec.vaultZero = true ∧ (∀ p ∈ t.nv, settingNv p.1 = true) ∧ t.day.hostOn = false ∧ t.day.coreOn = false

/-- Dawn begins in t: step 1, its limit counted from now, both halves of the bank to be tested (R440, R415). -/
def Dawned (s t : State) : Prop :=
  Wiped s t ∧ t.day.day = .dawn ∧ t.day.step = 1 ∧ t.day.stepFrom = t.beat ∧ t.day.fatal = false ∧ t.power.lost = false ∧ t.power.llAt = none ∧
  t.power.dawnTests = 2 ∧ ∀ h, (vget t.power.halves h Half.init).passed = false

/-! ### What every step keeps -/

/-- What the fuses, the queue and BEAT always obey: every waiting command is well-formed; no more than 32 TAMPER bits and 256
row repairs are burned; a module past BENCH has BENCHCLOSE burned (R466, R503, R504). -/
structure Invariant (s : State) : Prop where
  queue : QueueOk s
  tampers : s.sec.tampers ≤ 32
  repairs : s.mem.fuseRows.length ≤ 256
  bench : s.sec.life = .sealed ∨ s.sec.life = .returned → s.sec.benchClose = true

/-- Life-cycle states in their order (R503, R507). -/
def lifeRank : Life → Nat
  | .blank => 0 | .bench => 1 | .sealed => 2 | .returned => 3 | .scrapped => 4

/-- A key slot whose fuses were burned stays as it is but that it may be revoked. -/
def KeyGrows (a b : KeySlot) : Prop := b.digest = a.digest ∧ b.valid = a.valid ∧ (a.revoked = true → b.revoked = true)

/-- No fuse bit burned in s is clear in t (R503, R466). -/
structure FusesGrow (s t : State) : Prop where
  life : lifeRank s.sec.life ≤ lifeRank t.sec.life
  bench : s.sec.benchClose = true → t.sec.benchClose = true
  secret : s.sec.secretBlown = true → t.sec.secretBlown = true
  tampers : s.sec.tampers ≤ t.sec.tampers
  fwKeys : ∀ k, KeyGrows (vget s.sec.fwKeys k KeySlot.init) (vget t.sec.fwKeys k KeySlot.init)
  caKeys : ∀ k, KeyGrows (vget s.sec.caKeys k KeySlot.init) (vget t.sec.caKeys k KeySlot.init)
  repairs : s.mem.fuseRows <+: t.mem.fuseRows

/-- The commands with which BEAT may restart from zero: the always-on domain loses power, or powers up (R20, R407). -/
def restartsBeat (s : State) : Instr → Bool
  | .aonPowerLoss => true
  | .feedConduct _ => !s.power.aonPowered
  | _ => false

end Sys2Proof.Safety
end

