-- ==== Sys2Proof/Certificates/Slice0/Obligations.lean ====
section
/-! DEFINITION. The statements for the provers, in the order of OBLIGATIONS.json. -/

open Sys2Proof Sys2Proof.Machine Sys2Proof.Safety

/-- For every command c, list l and state s whose queue is c followed by l, step s is exec c on s with the queue l,
all else of s as it was. With nothing waiting, step answers the state itself; that the block idles then is the
model's choice (log entry 4) (00_scope.md, 95_what_each_step_holds.md). -/
def Obligations.StepRunsFrontCommand : Prop :=
  (∀ (c : Instr) (l : List Instr) (s : State), s.pending = c :: l → step s = exec c { s with pending := l }) ∧
  (∀ s : State, s.pending = [] → step s = .next s)

/-- For every state and context whose next word is a NOP, MOVI, SHIN, ALU, ADDI, ANDI, ORI, XORI, SHLI or SHRI, not
guarded off and within its budget, the command answers a next state in which Gd holds the value the table of
register instructions gives from the values the sources held before, PC is one higher, the instruction has counted
once, and nothing else of the context, of any other context or of the module has changed. With d = 0 no register
changes, since a write to G0 is discarded (05_zci_instructions.md, 04_zci_machine.md). -/
def Obligations.RegisterInstructions : Prop :=
  (∀ s c x w, Issues s c 0x02 x w → Lands (.nop c) s c (jumped x 0x02 w (x.pc + 1))) ∧
  (∀ s c x w, Issues s c 0x04 x w → Lands (.movi c) s c (wrote x 0x04 w (zImmS w))) ∧
  (∀ s c x w, Issues s c 0x05 x w →
    Lands (.shin c) s c (wrote x 0x05 w ((rget x (zA w) <<< 15) ||| BitVec.ofNat 64 (zImm w)))) ∧
  (∀ s c x w, Issues s c 0x08 x w →
    Lands (.alu c) s c (wrote x 0x08 w (aluOp (zFn w) (rget x (zA w)) (rget x (zB w))))) ∧
  (∀ s c x w, Issues s c 0x09 x w → Lands (.addi c) s c (wrote x 0x09 w (rget x (zA w) + zImmS w))) ∧
  (∀ s c x w, Issues s c 0x0A x w → Lands (.andi c) s c (wrote x 0x0A w (rget x (zA w) &&& zImmS w))) ∧
  (∀ s c x w, Issues s c 0x0B x w → Lands (.ori c) s c (wrote x 0x0B w (rget x (zA w) ||| zImmS w))) ∧
  (∀ s c x w, Issues s c 0x0C x w → Lands (.xori c) s c (wrote x 0x0C w (rget x (zA w) ^^^ zImmS w))) ∧
  (∀ s c x w, Issues s c 0x0D x w → zImm w < 64 →
    Lands (.shli c) s c (wrote x 0x0D w (rget x (zA w) <<< zImm w))) ∧
  (∀ s c x w, Issues s c 0x0E x w → zImm w < 64 →
    Lands (.shri c) s c (wrote x 0x0E w (rget x (zA w) >>> zImm w)))

/-- For every state and context whose next word is a CMP or CMPI, not guarded off and within its budget, with a
defined relation: the next state has Pp true exactly when the relation the table names holds between Ga and Gb, or
between Ga and the sign-extended immediate; LT and LE compare as signed, LTU and LEU as unsigned numbers. A
compare naming P0 changes no predicate. PC is one higher and nothing else has changed (05_zci_instructions.md). -/
def Obligations.CompareInstructions : Prop :=
  (∀ s c x w b, Issues s c 0x10 x w → zD w < 4 →
    (zFn w = 0 ∧ b = decide (rget x (zA w) = rget x (zB w)) ∨ zFn w = 1 ∧ b = decide (rget x (zA w) ≠ rget x (zB w)) ∨
     zFn w = 2 ∧ b = decide ((rget x (zA w)).toInt < (rget x (zB w)).toInt) ∨
     zFn w = 3 ∧ b = decide ((rget x (zA w)).toNat < (rget x (zB w)).toNat) ∨
     zFn w = 4 ∧ b = decide ((rget x (zA w)).toInt ≤ (rget x (zB w)).toInt) ∨
     zFn w = 5 ∧ b = decide ((rget x (zA w)).toNat ≤ (rget x (zB w)).toNat)) →
    Lands (.cmp c) s c (compared x 0x10 w (zD w) b)) ∧
  (∀ s c x w b, Issues s c 0x11 x w →
    (zD w / 4 = 0 ∧ b = decide (rget x (zA w) = zImmS w) ∨ zD w / 4 = 1 ∧ b = decide (rget x (zA w) ≠ zImmS w) ∨
     zD w / 4 = 2 ∧ b = decide ((rget x (zA w)).toInt < (zImmS w).toInt) ∨
     zD w / 4 = 3 ∧ b = decide ((rget x (zA w)).toNat < (zImmS w).toNat)) →
    Lands (.cmpi c) s c (compared x 0x11 w (zD w % 4) b))

/-- For every state and context whose next word is a BR, LOOP, CALL or RET, not guarded off and within its budget: BR
goes to PC plus the sign-extended offset; LOOP writes Gd - 1 and goes to PC plus its offset when Gd is then not 0,
and on otherwise; CALL at a depth below 8 pushes the program and PC + 1 and goes to instruction 0 of the slot, and
changes no register, predicate or handle; RET with a call stack that is not empty pops them. Nothing else of the
module changes (05_zci_instructions.md). -/
def Obligations.ControlInstructions : Prop :=
  (∀ s c x w, Issues s c 0x14 x w → Lands (.br c) s c (jumped x 0x14 w ((x.pc : Int) + sext 23 (zOff w)).toNat)) ∧
  (∀ s c x w, Issues s c 0x17 x w →
    Lands (.loop c) s c { wrote x 0x17 w (rget x (zD w) - 1) with
      pc := if zD w ≠ 0 ∧ rget x (zD w) ≠ 1 then ((x.pc : Int) + sext 15 (zImm w)).toNat else x.pc + 1 }) ∧
  (∀ s c x w, Issues s c 0x15 x w → x.stack.length < 8 → zImm w < 4096 →
    Lands (.call c) s c { jumped x 0x15 w 0 with stack := (x.prog, x.pc + 1) :: x.stack, prog := zImm w }) ∧
  (∀ s c x w p q r, Issues s c 0x16 x w → x.stack = (p, q) :: r →
    Lands (.ret c) s c { jumped x 0x16 w q with stack := r, prog := p })

/-- For every state and context whose next word is an LD, ST or BUF, not guarded off and within its budget: LD of an
aligned access in bounds puts the little-endian bytes, zero- or sign-extended, into Gd; ST of one writes the low
bytes of Gd, little-endian, into the buffer; BUF GET of a permitted size that SLABLEFT covers, on an empty handle,
gives the handle a zero-filled buffer, takes the size from SLABLEFT and sets Pp; any other GET clears Pp and
changes nothing else; BUF PUT empties the handle and returns its size; BUF SIZE puts the size into Gd, 0 for an
empty handle. The address of the buffer in the slab is a free value (log entry 3). Nothing else of the module
changes (05_zci_instructions.md, 04_zci_machine.md). -/
def Obligations.BufferInstructions : Prop :=
  (∀ s c x w, Issues s c 0x18 x w → inBounds x (zH w) (memOff x w) (memWidth w) = true → memOff x w % memWidth w = 0 →
    Lands (.ld c) s c (wrote x 0x18 w
      (if bit (zFl w) 2 then BitVec.ofInt 64 (sext (8 * memWidth w) (leNat (hread x (zH w) (memOff x w) (memWidth w))))
       else BitVec.ofNat 64 (leNat (hread x (zH w) (memOff x w) (memWidth w)))))) ∧
  (∀ s c x w b, Issues s c 0x19 x w → hget x (zH w) = some b → memOff x w + memWidth w ≤ b.size → memOff x w % memWidth w = 0 →
    Lands (.st c) s c { jumped x 0x19 w (x.pc + 1) with
      hnd := x.hnd.setIfInBounds (zH w)
        (some { b with bytes := Mem.writeN b.bytes (memOff x w) (leBytes (memWidth w) (rget x (zD w)).toNat) }) }) ∧
  (∀ s c x w k, Issues s c 0x1C x w → zFl w = 0 → hget x (zH w) = none → 1 ≤ k → k ≤ 11 → ga x w = 2 ^ (k + 11) →
    2 ^ (k + 11) ≤ 1024 * x.slabLeft →
    Does (.bufGet c) s fun t => (∃ a, getCtx t c = some { compared x 0x1C w (zD w % 4) true with
        hnd := x.hnd.setIfInBounds (zH w) (some { addr := a, code := k, bytes := [] }), slabLeft := x.slabLeft - 2 ^ (k + 1) }) ∧
      (∀ d, d ≠ c → getCtx t d = getCtx s d) ∧ t = { s with ctxs := t.ctxs, freeCtr := t.freeCtr }) ∧
  (∀ s c x w, Issues s c 0x1C x w → zFl w = 0 →
    (hget x (zH w) ≠ none ∨ (∀ k, 1 ≤ k → k ≤ 11 → ga x w ≠ 2 ^ (k + 11)) ∨ 1024 * x.slabLeft < ga x w) →
    Lands (.bufGet c) s c (compared x 0x1C w (zD w % 4) false)) ∧
  (∀ s c x w, Issues s c 0x1C x w → zFl w = 1 →
    Lands (.bufPut c) s c { jumped x 0x1C w (x.pc + 1) with
      hnd := x.hnd.setIfInBounds (zH w) none, slabLeft := x.slabLeft + hsize x (zH w) / 1024 }) ∧
  (∀ s c x w, Issues s c 0x1C x w → zFl w = 2 →
    Lands (.bufSize c) s c (wrote x 0x1C w (BitVec.ofNat 64 (hsize x (zH w)))))

/-- For every state and context whose next word is a SCAN, DIGEST, COPY, FILL or CMPB, not guarded off, within its
budget, with its extents in bounds, its alignment and its KiB within STRLEFT: the context waits on it; SCAN has
written the matching records of the source, in order, to the output and advanced Gd by their bytes; DIGEST has put
the CRC-32C that continues Gd into Gd, or written the SHA-3 output of its mode; COPY has written the source bytes,
FILL the pattern of Ga repeated; CMPB has set Pp to whether the extents are equal. STRLEFT is less by the KiB
counted; PC stays until the instruction retires. Of its bytes it moves what the command booked on this beat and,
of what it left unused before, what no booking claims; the rest are left to move (05_zci_instructions.md,
04_zci_machine.md). -/
def Obligations.StreamInstructions : Prop :=
  (∀ s c x w, Issues s c 0x2C x w → inBounds x (zH w) (ga x w) (gb x w) = true → inBounds x (zFl w % 8) (gd x w) (gb x w) = true →
    inBounds x (zFl w / 8 % 8) 0 80 = true → zFl w % 8 ≠ zH w → zFl w % 8 ≠ zFl w / 8 % 8 →
    gb x w % filterRec (hread x (zFl w / 8 % 8) 0 80) = 0 → strKib (gb x w) ≤ x.strLeft →
    ∃ out, out = scanOut (hread x (zFl w / 8 % 8) 0 80) (filterRec (hread x (zFl w / 8 % 8) 0 80))
        (gb x w / filterRec (hread x (zFl w / 8 % 8) 0 80)) (hread x (zH w) (ga x w) (gb x w)) ∧
      Streams (.scan c) s c { rset (hwrite (x.countIssue 0x2C w) (zFl w % 8) (gd x w) out) (zD w)
          (rget x (zD w) + BitVec.ofNat 64 out.length) with wait := .instr, strLeft := x.strLeft - strKib (gb x w) } (gb x w)) ∧
  (∀ s c x w, Issues s c 0x2D x w → digAlg w = 0 → inBounds x (zH w) (ga x w) (gb x w) = true → strKib (gb x w) ≤ x.strLeft →
    Streams (.digest c) s c { wrote x 0x2D w ((crc32c (hread x (zH w) (ga x w) (gb x w)) ((rget x (zD w)).setWidth 32)).setWidth 64) with
      pc := x.pc, wait := .instr, strLeft := x.strLeft - strKib (gb x w) } (gb x w)) ∧
  (∀ s c x w, Issues s c 0x2D x w → digAlg w = 1 → inBounds x (zH w) (ga x w) (gb x w) = true →
    inBounds x (digDst w) (gd x w) (if digMode w = 0 then 32 else 256) = true → gd x w % 8 = 0 →
    (digMode w = 1 ∨ digMode w = 2 → gb x w % 136 = 0) → strKib (gb x w) ≤ x.strLeft →
    Streams (.digest c) s c { hwrite (x.countIssue 0x2D w) (digDst w) (gd x w)
        (digestOut (digMode w) (hread x (digDst w) (gd x w) 200) (hread x (zH w) (ga x w) (gb x w))) with
      wait := .instr, strLeft := x.strLeft - strKib (gb x w) } (gb x w)) ∧
  (∀ s c x w, Issues s c 0x2E x w → bit (zFl w) 3 = false → inBounds x (zFl w % 8) (gd x w) (gb x w) = true →
    inBounds x (zH w) (ga x w) (gb x w) = true → strKib (gb x w) ≤ x.strLeft →
    Streams (.copy c) s c { hwrite (x.countIssue 0x2E w) (zFl w % 8) (gd x w) (hread x (zH w) (ga x w) (gb x w)) with
      wait := .instr, strLeft := x.strLeft - strKib (gb x w) } (gb x w)) ∧
  (∀ s c x w, Issues s c 0x2E x w → bit (zFl w) 3 = true → inBounds x (zFl w % 8) (gd x w) (gb x w) = true → strKib (gb x w) ≤ x.strLeft →
    Streams (.copy c) s c { hwrite (x.countIssue 0x2E w) (zFl w % 8) (gd x w)
        ((List.range (gb x w)).map fun i => BitVec.ofNat 8 ((rget x (zA w)).toNat / 256 ^ ((gd x w + i) % 8))) with
      wait := .instr, strLeft := x.strLeft - strKib (gb x w) } (gb x w)) ∧
  (∀ s c x w, Issues s c 0x2F x w → inBounds x (zH w) (ga x w) (gb x w) = true → inBounds x (zFl w % 8) (gd x w) (gb x w) = true →
    strKib (gb x w) ≤ x.strLeft →
    Streams (.cmpb c) s c { compared x 0x2F w (zFl w / 8 % 4)
        (decide (hread x (zH w) (ga x w) (gb x w) = hread x (zFl w % 8) (gd x w) (gb x w))) with
      pc := x.pc, wait := .instr, strLeft := x.strLeft - strKib (gb x w) } (gb x w))

/-- For every state and context whose next word is an HXIN or HXOUT, not guarded off, within its budget, with its
buffer extent in bounds, its operands multiples of 4 and its descriptor extent within the descriptor bytes and
HOSTLEFT: the context waits on it, HOSTLEFT is less by Gb, and the commit beat is this one if none was set before.
From a ring, the descriptors of the extent stand at the end of one channel's store of the engine the context
picks, an HXIN has sent the read requests of the extent, in order, none longer than Max_Read_Request_Size or
across a 4 KiB boundary, and no more bytes are left to move than the framed bytes of the transfer. A context
without a ring moves its bytes in module memory: nothing else changes. Registers, predicates, handles, other
contexts and the rest of the module but planner bookings stay (05_zci_instructions.md, 10_data_movers.md,
03_rings_commands.md, 02_beat_admission.md). -/
def Obligations.HostTransferInstructions : Prop :=
  (∀ s c x w g, Issues s c 0x20 x w → x.ringOf = some g → inBounds x (zH w) (ga x w) (gb x w) = true → ga x w % 4 = 0 → gb x w % 4 = 0 →
    gd x w % 4 = 0 → gd x w + gb x w ≤ dBytes x → gb x w ≤ x.hostLeft →
    Waits (.hxin c) s c (fun t => { s with ctxs := t.ctxs, movers := t.movers, plan := { s.plan with near := t.plan.near }, out := t.out }) fun t y =>
      y = { ran s x 0x20 w with wait := .instr, hostLeft := x.hostLeft - gb x w, left := y.left, drawn := y.drawn, late := y.late } ∧
      y.left ≤ (readBytes s x (gb x w)).1 ∧ t.out = s.out ++ dataReads s x (gd x w) (gb x w) ∧
      t.movers = (modEngine s (pickEngine s x false) fun e =>
        { e with descs := e.descs ++ chainOf s (ran s x 0x20 w) false (freeChan s (pickEngine s x false)) (gd x w) (gb x w) }).movers) ∧
  (∀ s c x w g, Issues s c 0x21 x w → x.ringOf = some g → inBounds x (zH w) (ga x w) (gb x w) = true → ga x w % 4 = 0 → gb x w % 4 = 0 →
    gd x w % 4 = 0 → gd x w + gb x w ≤ dBytes x → gb x w ≤ x.hostLeft →
    Waits (.hxout c) s c (fun t => { s with ctxs := t.ctxs, movers := t.movers, plan := { s.plan with near := t.plan.near } }) fun t y =>
      y = { ran s x 0x21 w with wait := .instr, hostLeft := x.hostLeft - gb x w, left := y.left, drawn := y.drawn, late := y.late } ∧
      y.left ≤ writeBytes s x (gb x w) ∧
      t.movers = (modEngine s (pickEngine s x true) fun e =>
        { e with descs := e.descs ++ chainOf s (ran s x 0x21 w) true (freeChan s (pickEngine s x true)) (gd x w) (gb x w) }).movers) ∧
  (∀ s c x w i op, (i, op) ∈ [(Instr.hxin c, 0x20), (.hxout c, 0x21)] → Issues s c op x w → x.ringOf = none →
    inBounds x (zH w) (ga x w) (gb x w) = true → ga x w % 4 = 0 → gb x w % 4 = 0 → gd x w % 4 = 0 → gd x w + gb x w ≤ dBytes x → gb x w ≤ x.hostLeft →
    Lands i s c { ran s x op w with wait := .instr, hostLeft := x.hostLeft - gb x w, left := 0 })

/-- For every state and context whose next word is an MRD, MCMP, MCAS, MWR, MTRIM, MZERO, MFLUSH or FENCE, not guarded
off, within its budget, with its granules in the entry range, its direction declared, its extent in bounds and its
counts within RDLEFT and WRLEFT: the context waits on it at the same PC; a reading one has begun a read of each
granule Ga + i, in order, and counted n against RDLEFT, a writing one has counted n against WRLEFT, MCAS against
both. An MTRIM or MZERO of a command with ATOM joins its group, unless it names no granule, and leaves the map as
it was; what the program has read ahead of those granules is dropped. Only deep recovery may have been entered
besides (05_zci_instructions.md, 04_zci_machine.md, 06_translation.md). -/
def Obligations.MediaInstructionsIssue : Prop :=
  (∀ s c x w ns, Issues s c 0x24 x w → ctxNs s x = some ns → MediaOk s x w 1 true false →
    Waits (.mrd c) s c (fun t => { s with ctxs := t.ctxs, xlat := { s.xlat with deep := t.xlat.deep } }) fun _ y =>
      y = { ran s x 0x24 w with wait := .instr, rdLeft := x.rdLeft - gb x w, reads := y.reads } ∧
      y.reads.map GranRead.gran = (List.range (gb x w)).map (ga x w + ·)) ∧
  (∀ s c x w ns, Issues s c 0x29 x w → ctxNs s x = some ns → MediaOk s x w 1 true false →
    Waits (.mcmp c) s c (fun t => { s with ctxs := t.ctxs, xlat := { s.xlat with deep := t.xlat.deep } }) fun _ y =>
      y = { ran s x 0x29 w with wait := .instr, rdLeft := x.rdLeft - gb x w, reads := y.reads } ∧
      y.reads.map GranRead.gran = (List.range (gb x w)).map (ga x w + ·)) ∧
  (∀ s c x w ns, Issues s c 0x2A x w → ctxNs s x = some ns → MediaOk s x w 2 true true →
    Waits (.mcas c) s c (fun t => { s with ctxs := t.ctxs, xlat := { s.xlat with deep := t.xlat.deep } }) fun _ y =>
      y = { ran s x 0x2A w with wait := .instr, rdLeft := x.rdLeft - gb x w, wrLeft := x.wrLeft - gb x w, reads := y.reads } ∧
      y.reads.map GranRead.gran = (List.range (gb x w)).map (ga x w + ·)) ∧
  (∀ s c x w ns, Issues s c 0x25 x w → ctxNs s x = some ns → MediaOk s x w 1 false true →
    Lands (.mwr c) s c { ran s x 0x25 w with wait := .instr, wrLeft := x.wrLeft - gb x w, snap := 0 }) ∧
  (∀ s c x w ns, Issues s c 0x26 x w → ctxNs s x = some ns → MediaOk s x w 0 false true → x.entry.atom = true →
    Lands (.mtrim c) s c { ran s x 0x26 w with
      wait := .instr, wrLeft := x.wrLeft - gb x w, fed := x.fed.filter fun r => decide (r.gran < ga x w ∨ ga x w + gb x w ≤ r.gran),
      atom := if gb x w = 0 then x.atom else x.atom ++ [.unmap (ga x w) (gb x w)] }) ∧
  (∀ s c x w ns, Issues s c 0x27 x w → ctxNs s x = some ns → MediaOk s x w 0 false true → x.entry.atom = true →
    Lands (.mzero c) s c { ran s x 0x27 w with
      wait := .instr, wrLeft := x.wrLeft - gb x w, fed := x.fed.filter fun r => decide (r.gran < ga x w ∨ ga x w + gb x w ≤ r.gran),
      atom := if gb x w = 0 then x.atom else x.atom ++ [.unmap (ga x w) (gb x w)] }) ∧
  (∀ s c x w, Issues s c 0x28 x w → Lands (.mflush c) s c { ran s x 0x28 w with wait := .instr }) ∧
  (∀ s c x w, Issues s c 0x31 x w → Lands (.fence c) s c { ran s x 0x31 w with wait := .instr })

/-- For every state: a TRIM or ZERO whose resident parison may run, and an MTRIM or MZERO that issues with its
granules in the entry range, WRITES declared and its count within WRLEFT, of an entry without ATOM, answers a next
state in which the map entry of each of the n granules named is unmapped and every other map entry is as it was.
The direct op has its POST to come with OK; the instruction waits, its count taken. An ATOM TRIM or ZERO joins its
group and leaves the map as it was (05_zci_instructions.md, 02_beat_admission.md, 06_translation.md). -/
def Obligations.UnmapOperations : Prop :=
  (∀ s c x ns i, (i = Instr.trim c ∧ Resident s c 0x04 1 x ∨ i = Instr.zero c ∧ Resident s c 0x05 1 x) → ctxNs s x = some ns → x.entry.atom = false →
    Does i s fun t =>
      (∀ j, mapGet t j = if (List.range x.entry.length.toNat).any (fun k => j == mapIdx ns (x.entry.lba.toNat + k)) then .unmapped else mapGet s j) ∧
      ∃ y, getCtx t c = some y ∧ y.wait = .posting ∧ y.status = St.ok ∧ y.commitBeat = some (x.commitBeat.getD s.beat)) ∧
  (∀ s c x ns i, (i = Instr.trim c ∧ Resident s c 0x04 1 x ∨ i = Instr.zero c ∧ Resident s c 0x05 1 x) → ctxNs s x = some ns → x.entry.atom = true →
    Does i s fun t => t = { s with ctxs := t.ctxs } ∧
      ∃ y, getCtx t c = some y ∧ y.wait = .posting ∧ y.status = St.ok ∧ y.atom = x.atom ++ [.unmap x.entry.lba.toNat x.entry.length.toNat]) ∧
  (∀ s c x w ns i, (i = Instr.mtrim c ∧ Issues s c 0x26 x w ∨ i = Instr.mzero c ∧ Issues s c 0x27 x w) → ctxNs s x = some ns →
    MediaOk s x w 0 false true → x.entry.atom = false →
    Does i s fun t =>
      (∀ j, mapGet t j = if (List.range (gb x w)).any (fun k => j == mapIdx ns (ga x w + k)) then .unmapped else mapGet s j) ∧
      ∃ y, getCtx t c = some y ∧ y.wait = .instr ∧ y.pc = x.pc ∧ y.wrLeft = x.wrLeft - gb x w ∧ y.regs = x.regs)

/-- For every state and context that waits on an instruction and is not stopped: once what it waits for is complete,
WAIT_COMPLETE makes it ready at the next PC; MRD has then put delivered contents or zeros into its extent and set
Pp to whether all were delivered, MCMP has set Pp to whether all were delivered and equal, leaving the buffer; an
HXIN whose bytes have moved has put them into its extent, an HXOUT has sent them as the write requests of its
extent, in order, none longer than Max_Payload_Size or across a 4 KiB boundary, each from or to the request's data
where the command came from no ring; a stream instruction with no byte left to move, a FENCE whose durability
holds and an MFLUSH whose own and earlier writes are durable just retire, as does an MWR with no granule left to
enter or verify; a SET of an NV setting that is durable gives outcome word 0 and Pp true (05_zci_instructions.md). -/
def Obligations.WaitingInstructionsRetire : Prop :=
  (∀ s c x bytes st, getCtx s c = some x → x.wait = .instr → x.stopping = false → zOp x.word = 0x24 → x.reads.all GranRead.done = true →
    Does (.waitComplete c bytes st) s fun t => t = { s with ctxs := t.ctxs } ∧ ∃ y, getCtx t c = some y ∧ y.wait = .ready ∧ y.pc = x.pc + 1 ∧
      pget y (zFl x.word % 4) = (zFl x.word % 4 == 0 || x.reads.all GranRead.delivered) ∧ y.regs = x.regs ∧ y.reads = []) ∧
  (∀ s c x bytes st r b, getCtx s c = some x → x.wait = .instr → x.stopping = false → zOp x.word = 0x24 → x.reads = [r] → r.done = true →
    hget x (zH x.word) = some b →
    Does (.waitComplete c bytes st) s fun t => ∃ y, getCtx t c = some y ∧ hget y (zH x.word) =
      some { b with bytes := Mem.splice b.bytes (gd x x.word) (gran s x) (if r.delivered then r.bytes else []) }) ∧
  (∀ s c x bytes st, getCtx s c = some x → x.wait = .instr → x.stopping = false → zOp x.word = 0x29 → x.reads.all GranRead.done = true →
    Does (.waitComplete c bytes st) s fun t => t = { s with ctxs := t.ctxs } ∧ ∃ y, getCtx t c = some y ∧ y.wait = .ready ∧ y.pc = x.pc + 1 ∧
      pget y (zFl x.word % 4) = (zFl x.word % 4 == 0 || readsEqual s x (zH x.word) (gd x x.word)) ∧ y.hnd = x.hnd ∧ y.regs = x.regs) ∧
  (∀ s c x bytes st, getCtx s c = some x → x.wait = .instr → x.stopping = false → zOp x.word = 0x20 → x.left = 0 →
    (∀ g, x.ringOf = some g → (hostReach s x = true ∨ gb x x.word = 0) ∧ bytes.length = gb x x.word) →
    Does (.waitComplete c bytes st) s fun t => t = { s with ctxs := t.ctxs, movers := t.movers } ∧
      getCtx t c = some { hwrite x (zH x.word) (ga x x.word) (if x.ringOf.isSome then bytes else (x.data.drop (gd x x.word)).take (gb x x.word)) with
        wait := .ready, pc := x.pc + 1 } ∧
      t.movers.fromHost = satAdd s.movers.fromHost (if x.ringOf.isSome then gb x x.word else 0)) ∧
  (∀ s c x g bytes st, getCtx s c = some x → x.wait = .instr → x.stopping = false → zOp x.word = 0x21 → x.left = 0 → x.ringOf = some g →
    (hostReach s x = true ∨ gb x x.word = 0) →
    Does (.waitComplete c bytes st) s fun t => t = { s with ctxs := t.ctxs, movers := t.movers, out := t.out } ∧
      getCtx t c = some { x with wait := .ready, pc := x.pc + 1 } ∧
      t.out = s.out ++ (writeReqs s x (gd x x.word) (hread x (zH x.word) (ga x x.word) (gb x x.word))).map
        (fun p => .hostWrite x.fn (BitVec.ofNat 64 p.1) p.2) ∧
      t.movers.toHost = satAdd s.movers.toHost (gb x x.word)) ∧
  (∀ s c x bytes st, getCtx s c = some x → x.wait = .instr → x.stopping = false → zOp x.word = 0x21 → x.left = 0 → x.ringOf = none →
    Does (.waitComplete c bytes st) s fun t => t = { s with ctxs := t.ctxs, movers := t.movers } ∧ t.movers.toHost = satAdd s.movers.toHost 0 ∧
      ∃ k, k = hread x (zH x.word) (ga x x.word) (gb x x.word) ∧ getCtx t c = some { x with
        wait := .ready, pc := x.pc + 1, data := x.data.take (gd x x.word) ++ k ++ x.data.drop (gd x x.word + k.length) }) ∧
  (∀ s c x bytes st, getCtx s c = some x → x.wait = .instr → x.stopping = false →
    ([0x2C, 0x2D, 0x2E, 0x2F].contains (zOp x.word) = true ∧ x.left = 0 ∨ zOp x.word = 0x28 ∧ flushed s x = true ∨
      zOp x.word = 0x31 ∧ (bit (zImm x.word) 0 = false ∨ durable s x = true) ∨
      zOp x.word = 0x25 ∧ gb x x.word ≤ x.snap ∧ (s.xlat.gather.any fun g => g.through && !g.atom && g.owner == c) = false) →
    Lands (.waitComplete c bytes st) s c { x with wait := .ready, pc := x.pc + 1 }) ∧
  (∀ s c x bytes st, getCtx s c = some x → x.wait = .instr → x.stopping = false → zOp x.word = 0x34 → specialSet (setArgs x).1 = false →
    settingWriting s (setArgs x).1 = false →
    Does (.waitComplete c bytes st) s fun t => ∃ y, getCtx t c = some y ∧ y.wait = .ready ∧ y.pc = x.pc + 1 ∧ rget y (zD x.word) = 0 ∧
      pget y (zFn x.word % 4) = true)

/-- For every state and admin context whose next word is a GET or SET within its budget and not guarded off: a GET
that the access checks pass puts the setting's value into Gd, then 0 into Gb and true into Pp; one they refuse
puts the outcome word of status and detail into Gb and false into Pp; in both PC is one higher and nothing else
changes. A SET they refuse gives the outcome word in Gd and false in Pp and changes no setting. A SET they pass of
a setting that is neither NV nor has a command of its own stores the value and gives outcome 0 and Pp true; one of
an NV setting begins its system-area entry and waits; of the others the fault, test, rearm, rotation, revocation
and certificate settings act at once, as their own commands do (05_zci_instructions.md, 01_anatomy.md). -/
def Obligations.SettingInstructions : Prop :=
  (∀ s c x w, Issues s c 0x35 x w → x.admin = true → accessCheck s (ga x w % 2 ^ 32) none = none →
    Lands (.get c) s c (pset (rset (rset (x.countIssue 0x35 w) (zD w) (readSetting s (ga x w % 2 ^ 32))) (zB w) 0) (zFn w % 4) true).next) ∧
  (∀ s c x w st d, Issues s c 0x35 x w → x.admin = true → accessCheck s (ga x w % 2 ^ 32) none = some (st, d) →
    Lands (.get c) s c (pset (rset (x.countIssue 0x35 w) (zB w) (outcomeWord st d)) (zFn w % 4) false).next) ∧
  (∀ s c x w st d, Issues s c 0x34 x w → x.admin = true → accessCheck s (ga x w % 2 ^ 32) (some (rget x (zB w))) = some (st, d) →
    Lands (.set c) s c { pset (rset (ran s x 0x34 w) (zD w) (outcomeWord st d)) (zFn w % 4) (st == St.ok) with wait := .ready, pc := x.pc + 1 }) ∧
  (∀ s c x w, Issues s c 0x34 x w → x.admin = true → accessCheck s (ga x w % 2 ^ 32) (some (rget x (zB w))) = none →
    settingNv (ga x w % 2 ^ 32) = true →
    Waits (.set c) s c (fun t => { s with ctxs := t.ctxs, nor := t.nor }) fun t y => y = { ran s x 0x34 w with wait := .instr } ∧
      ∃ e, t.nor.writing = s.nor.writing ++ [e] ∧ e.typ = 5 ∧ e.key = settingKey s.nor.schema (ga x w % 2 ^ 32) ∧
        e.value = settingBody s (ga x w % 2 ^ 32) (rget x (zB w))) ∧
  (∀ s c x w, Issues s c 0x34 x w → x.admin = true → accessCheck s (ga x w % 2 ^ 32) (some (rget x (zB w))) = none →
    settingNv (ga x w % 2 ^ 32) = false → specialSet (ga x w % 2 ^ 32) = false →
    ∃ y, exec (.set c) s = .next (putCtx (applySet (modCtx s c fun _ => ran s x 0x34 w) (ga x w % 2 ^ 32) (rget x (zB w))) y) ∧
      y = { pset (rset (ran s x 0x34 w) (zD w) 0) (zFn w % 4) true with wait := .ready, pc := x.pc + 1 }) ∧
  (∀ s c x w, Issues s c 0x34 x w → x.admin = true → accessCheck s (ga x w % 2 ^ 32) (some (rget x (zB w))) = none →
    settingNv (ga x w % 2 ^ 32) = false → specialSet (ga x w % 2 ^ 32) = true →
    exec (.set c) s = .next (specialNow (modCtx s c fun _ => { ran s x 0x34 w with wait := .instr }) c (ga x w % 2 ^ 32)))

/-- For every state and context whose next word is a DOZE, RCALL or RAW within its budget and not guarded off: an
admin DOZE, of class D7 where DAY_TARGET names Night or Midnight, leaves the request of the time of day named
pending for its context, an earlier request superseded, and finishes at once with 0 when that is the time of day
already; an RCALL whose header passes its checks, that may still travel and names this module's own node, waits
with its request entered in the Cane queue where there is room, and any other that passes them goes on to its
session or is answered at once; a RAW in an admin D7 context in BENCH with BENCHCLOSE unblown waits, and where no
code keeps it from starting it has sent the commands of its ROP. Each side-effecting one fixes the commit beat
(05_zci_instructions.md, 14_times_of_day_thermal.md, 12_twin_cane.md). -/
def Obligations.DozeRcallRawIssue : Prop :=
  (∀ s c x w, Issues s c 0x36 x w → x.admin = true → (nvVal s 0x0E000001 < 2 ∨ x.entry.cls = 7) → dayOf (nvVal s 0x0E000001) ≠ s.day.day →
    s.day.pendReq = none →
    Waits (.doze c) s c (fun t => { s with ctxs := t.ctxs, day := { s.day with pendReq := t.day.pendReq } }) fun t y =>
      y = { ran s x 0x36 w with wait := .instr } ∧ t.day.pendReq = some (dayOf (nvVal s 0x0E000001), c)) ∧
  (∀ s c x w d z, Issues s c 0x36 x w → x.admin = true → (nvVal s 0x0E000001 < 2 ∨ x.entry.cls = 7) → dayOf (nvVal s 0x0E000001) ≠ s.day.day →
    s.day.pendReq = some (d, z) → z ≠ c →
    Does (.doze c) s fun t => t.day.pendReq = some (dayOf (nvVal s 0x0E000001), c) ∧ t.day.superseded = min (s.day.superseded + 1) (2 ^ 32 - 1) ∧
      ∃ y, getCtx t c = some y ∧ y.wait = .instr ∧ y.pc = x.pc) ∧
  (∀ s c x w, Issues s c 0x36 x w → x.admin = true → (nvVal s 0x0E000001 < 2 ∨ x.entry.cls = 7) → dayOf (nvVal s 0x0E000001) = s.day.day →
    s.day.pendReq = none → x.entry.isProg = true →
    Lands (.doze c) s c { rset (ran s x 0x36 w) (zD w) 0 with wait := .ready, pc := x.pc + 1 }) ∧
  (∀ s c x w, Issues s c 0x36 x w → x.admin = true → (nvVal s 0x0E000001 < 2 ∨ x.entry.cls = 7) →
    exec (.doze c) s = .next (requestDay (modCtx s c fun _ => { ran s x 0x36 w with wait := .instr }) c (dayOf (nvVal s 0x0E000001)))) ∧
  (∀ s c x w, Issues s c 0x38 x w → firstFault (rcallChecks x w) = none →
    exec (.rcall c) s = .next (rcallSend (modCtx s c fun _ => { ran s x 0x38 w with wait := .instr, reply := [] }) (ran s x 0x38 w) w)) ∧
  (∀ s c x w, Issues s c 0x38 x w → firstFault (rcallChecks x w) = none → hopsOf x ≤ nvVal s 0x0C000016 →
    field (hread x (zH w) (ga x w) 64) 0 2 % 16384 = ownNode s → s.cane.queue.length < nvVal s 0x0C000015 →
    Waits (.rcall c) s c (fun t => { s with ctxs := t.ctxs, cane := { s.cane with queue := t.cane.queue } }) fun t y =>
      y = { ran s x 0x38 w with wait := .instr, reply := [] } ∧ ∃ q, t.cane.queue = s.cane.queue ++ [q] ∧ q.sid = 0 ∧ q.msgId = x.adm ∧ q.at_ = s.beat) ∧
  (∀ s c x w, Issues s c 0x3A x w → x.admin = true → s.sec.life = .bench → s.sec.benchClose = false → x.entry.cls = 7 →
    inBounds x (zH w) (ga x w) (gb x w) = true → 64 + rawDbytes x w ≤ gb x w → rawDbytes x w % 4 = 0 →
    Waits (.raw c) s c (fun t => { s with ctxs := t.ctxs, out := t.out }) fun t y => y = { ran s x 0x3A w with wait := .instr } ∧
      ∃ h, h = hread x (zH w) (ga x w) 64 ∧ t.out = (if rawCode s (field h 0 1) (field h 8 8 % 2 ^ 36 / 2 ^ 25) false = 0 then
        rawCmds s h (hread x (zH w) (ga x w + 64) (rawDbytes x w)) else s).out)

/-- For every state and context of an ACTIVE ring whose next word is a POST, not guarded off and within its budget,
that holds no atom group, whose writes are durable and that no earlier overlapping command precedes, with its
function writable: the next state has one more completion entry, in the ring's slot at CQ_TAIL with its PHASE,
that holds the command's CID, the status, detail and result that the sticky media state and the fields of POST
give, the admission sequence and this beat; the ring's CQ_TAIL has gone one further round the ring; the context is
gone. Only interrupt messages may follow the entry in what the module sends (05_zci_instructions.md,
03_rings_commands.md). -/
def Obligations.PostDeliversTheCompletion : Prop :=
  ∀ s c x w g r f, Issues s c 0x01 x w → x.src = .ring g → getRing s g = some r → r.rst = none → x.withheld = false → x.entry.isProg = true →
    getFn s r.fn = some f → f.writable = true → s.plan.resetFlush = false → x.atom = [] → durable s x = true → postBlocked s x = false →
    ∃ k : Completion, Does (.post c) s fun t => getCtx t c = none ∧ (∀ d, d ≠ c → getCtx t d = getCtx s d) ∧
      (∃ l : List Out, t.out = s.out ++ .completion g r.cqTail k :: l ∧ l.length ≤ 1) ∧
      (∃ q, getRing t g = some q ∧ q.cqTail = (r.cqTail + 1) % r.cqSize) ∧
      (k.status, k.detail, k.result) = fixStatus x.sticky (postStatus (zFn w)) (BitVec.ofNat 8 (gb x w)) (rget x (zA w)) ∧
      k.cid = x.entry.cid ∧ k.phase = r.phase ∧ k.admSeq = BitVec.ofNat 64 x.adm ∧ k.cbeat = BitVec.ofNat 48 s.beat ∧
      t.beat = s.beat ∧ t.xlat.map = s.xlat.map ∧ t.nv = s.nv

/-- For every state and context at a word: TRAP within its budget faults with 0x0C; a word that counts against a
budget of 0, outside D7, faults with 0x06; a PC past the last instruction faults with 0x03, as does RET with an
empty stack; CALL at depth 8 with 0x08; GET, SET and DOZE in a tenant context with 0x07; LD and ST out of bounds
with 0x04, in bounds but misaligned with 0x05. The issue has counted before the fault (05_zci_instructions.md,
04_zci_machine.md). -/
def Obligations.IssueFaults : Prop :=
  (∀ s c x w, Issues s c 0x3C x w → exec (.trap c) s = .next (faultCtx (modCtx s c fun _ => x.countIssue 0x3C w) c 0x0C)) ∧
  (∀ i s c op x w k, zciRow i = some (c, op, k) → (∀ f, k = some f → zFl w = f) → AtWord s c op x w → zMedia op = false → x.budget = 0 →
    x.entry.cls ≠ 7 → exec i s = .next (faultCtx (modCtx s c fun _ => x.countIssue op w) c 0x06)) ∧
  (∀ i s c op x, zciRow i = some (c, op, none) → getCtx s c = some x → canIssue s x = true → wordAt s x = none →
    exec i s = .next (faultCtx s c 0x03)) ∧
  (∀ s c x w, Issues s c 0x16 x w → x.stack = [] → exec (.ret c) s = .next (faultCtx (modCtx s c fun _ => x.countIssue 0x16 w) c 0x03)) ∧
  (∀ s c x w, Issues s c 0x15 x w → 8 ≤ x.stack.length → exec (.call c) s = .next (faultCtx (modCtx s c fun _ => x.countIssue 0x15 w) c 0x08)) ∧
  (∀ s c x w i op, (i, op) ∈ [(Instr.get c, 0x35), (.set c, 0x34), (.doze c, 0x36)] → Issues s c op x w → x.admin = false →
    exec i s = .next (faultCtx (modCtx s c fun _ => x.countIssue op w) c 0x07)) ∧
  (∀ s c x w i op, (i, op) ∈ [(Instr.ld c, 0x18), (.st c, 0x19)] → Issues s c op x w → inBounds x (zH w) (memOff x w) (memWidth w) = false →
    exec i s = .next (faultCtx (modCtx s c fun _ => x.countIssue op w) c 0x04)) ∧
  (∀ s c x w i op, (i, op) ∈ [(Instr.ld c, 0x18), (.st c, 0x19)] → Issues s c op x w → inBounds x (zH w) (memOff x w) (memWidth w) = true →
    memOff x w % memWidth w ≠ 0 → exec i s = .next (faultCtx (modCtx s c fun _ => x.countIssue op w) c 0x05))

/-- For every state and context of an ACTIVE ring with no atom group and no earlier overlapping command before it,
with its function writable and no status fixed yet: a run-time fault with code k completes the command with status
ZCI_FAULT and detail k, posted in the completion ring in the beat of the fault; its result word holds the PC in
[15:0], the slot, or 0xFFFF for a host-memory program, in [31:16] and the instructions issued, at most 2^32 - 1,
in [63:32]; with an earlier overlapping command still to be posted the completion waits, its status and result
fixed. ZCI_FAULTS has counted the fault (04_zci_machine.md). -/
def Obligations.RunTimeFaultWord : Prop :=
  (∀ s c x g r f k, getCtx s c = some x → x.wait ≠ .fixed → x.src = .ring g → getRing s g = some r → r.rst = none → x.withheld = false →
    x.entry.isProg = true → getFn s r.fn = some f → f.writable = true → s.plan.resetFlush = false → x.atom = [] → postBlocked s x = false → k < 256 →
    ∃ (e : Completion) (l : List Out), (faultCtx s c k).out = s.out ++ .completion g r.cqTail e :: l ∧ getCtx (faultCtx s c k) c = none ∧
      e.status = 0x0601 ∧ e.detail.toNat = k ∧ e.cid = x.entry.cid ∧ (faultCtx s c k).zci.faults = satAdd s.zci.faults 1 ∧
      bits e.result.toNat 15 0 = x.pc % 2 ^ 16 ∧ bits e.result.toNat 31 16 = (if x.prog = 0x1000 then 0xFFFF else x.prog) % 2 ^ 16 ∧
      bits e.result.toNat 63 32 = min x.issued (2 ^ 32 - 1)) ∧
  (∀ s c x k, getCtx s c = some x → x.wait ≠ .fixed → x.atom = [] → x.entry.isProg = true → s.twin.st = .solo → postBlocked s x = true →
    ∃ y, getCtx (faultCtx s c k) c = some y ∧ y.wait = .fixed ∧ y.status = 0x0601 ∧ y.detail = BitVec.ofNat 8 k ∧ y.result = faultWord x ∧
      (faultCtx s c k).out = s.out)

/-- For every context and word, the guard lets the word take effect exactly when P[g[1:0]] XOR g[2] is 1, P0 reading
true. For every state and every one of the forty opcodes, an instruction that issues guarded off answers a next
state in which its context has PC one higher and the instruction counted, against the budget where its opcode
counts there, and nothing else of the context, of any other context or of the module has changed: a POST has not
ended the context, a branch has fallen through, no data has moved. With a budget of 0, outside D7, it faults with
0x06 (R122). -/
def Obligations.GuardedOffInstruction : Prop :=
  (∀ x w, guardOn x w = xor (decide (zbits w 1 0 = 0) || vget x.preds (zbits w 1 0) false) (w.getLsbD 2)) ∧
  (∀ i s c op x w k, zciRow i = some (c, op, k) → (∀ f, k = some f → zFl w = f) → AtWord s c op x w → BudgetLeft x op → guardOn x w = false →
    Lands i s c { x.countIssue op w with pc := x.pc + 1 }) ∧
  (∀ i s c op x w k, zciRow i = some (c, op, k) → (∀ f, k = some f → zFl w = f) → AtWord s c op x w → guardOn x w = false → ¬ BudgetLeft x op →
    exec i s = .next (faultCtx (modCtx s c fun _ => x.countIssue op w) c 0x06))

/-- For every state and context whose resident READ, COMPARE or VERIFY may run: while it has no reads it begins one of
each granule of its range, in order. With all reads terminal, a READ whose transfer has started and whose function
can be written sends the delivered granules, and only host writes of its function, has its POST to come with OK
and counts the granules sent; of one 4 KiB or 16 KiB granule in a single buffer it sends exactly the granule's
bytes to DADDR on, as write requests none longer than Max_Payload_Size or across a 4 KiB boundary. A VERIFY has
its POST to come and sends nothing. A COMPARE whose host bytes have arrived has its POST to come with OK where
every delivered granule equals them, and with COMPARE_MISMATCH and the offset of the first that differs where
nothing worse than a parity delivery was met (02_beat_admission.md, 03_rings_commands.md, 05_zci_instructions.md). -/
def Obligations.DirectReadsAndVerify : Prop :=
  (∀ s c x ns i b, (i = Instr.read c ∧ Resident s c 0x01 1 x ∨ i = Instr.compare c b ∧ Resident s c 0x06 1 x ∨ i = Instr.verify c ∧ Resident s c 0x07 1 x) →
    x.reads = [] → ctxNs s x = some ns →
    Does i s fun t => t = { s with ctxs := t.ctxs, xlat := { s.xlat with deep := t.xlat.deep } } ∧ ∃ y, getCtx t c = some y ∧
      y = { x with reads := y.reads } ∧ y.reads.map GranRead.gran = (List.range x.entry.length.toNat).map (x.entry.lba.toNat + ·)) ∧
  (∀ s c x, Resident s c 0x01 1 x → x.reads ≠ [] → readsDone x = true → x.reads.any GranRead.delivered = true → x.snap ≠ 0 → hostReach s x = true →
    Does (.read c) s fun t => t.xlat = s.xlat ∧ t.beat = s.beat ∧ ∃ y, getCtx t c = some y ∧ y.wait = .posting ∧ y.status = St.ok ∧
      y.hostWrites = (x.reads.filter GranRead.delivered).length ∧ y.sticky = directSticky x ∧
      ∃ l, t.out = s.out ++ l ∧ ∀ o ∈ l, ∃ a bs, o = Out.hostWrite x.fn a bs) ∧
  (∀ s c x r g, Resident s c 0x01 1 x → x.reads = [r] → r.delivered = true → x.snap ≠ 0 → x.ringOf = some g → hostReach s x = true →
    x.entry.dcount.getLsbD 31 = false → gran s x ≤ x.entry.dcount.toNat →
    Does (.read c) s fun t => t.out = s.out ++ (splitReqs (reqLimit s x.fn true) (gran s x) x.entry.daddr.toNat (gran s x)).map fun q =>
      .hostWrite x.fn (BitVec.ofNat 64 q.1) (((Mem.readN r.bytes 0 (gran s x)).drop (q.1 - x.entry.daddr.toNat)).take q.2)) ∧
  (∀ s c x, Resident s c 0x01 1 x → x.reads ≠ [] → readsDone x = true → x.reads.any GranRead.delivered = false →
    Posts (.read c) s c St.ok 0 0 (fun t => { s with ctxs := t.ctxs }) fun _ => True) ∧
  (∀ s c x, Resident s c 0x07 1 x → x.reads ≠ [] → readsDone x = true →
    Posts (.verify c) s c St.ok 0 0 (fun t => { s with ctxs := t.ctxs }) fun _ => True) ∧
  (∀ s c x b, Resident s c 0x06 1 x → x.reads ≠ [] → readsDone x = true → hostReach s x = true → b.length = x.entry.length.toNat * gran s x →
    firstDiff (gran s x) (Mem.ofList b) x.reads = none →
    Posts (.compare c b) s c St.ok 0 0 (fun t => { s with ctxs := t.ctxs, movers := t.movers }) fun _ => True) ∧
  (∀ s c x b k, Resident s c 0x06 1 x → x.reads ≠ [] → readsDone x = true → hostReach s x = true → b.length = x.entry.length.toNat * gran s x →
    firstDiff (gran s x) (Mem.ofList b) x.reads = some k → (directSticky x).rank ≤ 1 →
    Posts (.compare c b) s c St.compareMismatch 0 (BitVec.ofNat 64 k) (fun t => { s with ctxs := t.ctxs, movers := t.movers }) fun _ => True)

/-- For every state and context whose resident WRITE of n granules may run, with its function reachable, the bytes of
all its granules arrived and room for them in the gather buffer: the POST is to come with OK, the commit beat is
fixed; without ATOM each granule of the range is mapped to a gather slot and no other map entry has changed; with
ATOM the map is as it was. Before its bytes have come the WRITE queues its transfer on a mover engine and sends
its read requests. A write of one 4 KiB granule with a gather slot free reads back: the slot it is mapped to holds
the bytes and the TAG. A FLUSH has its POST to come with OK and changes nothing else (02_beat_admission.md,
03_rings_commands.md, 06_translation.md). -/
def Obligations.DirectWriteAndFlush : Prop :=
  (∀ s c x ns b, Resident s c 0x02 1 x → ctxNs s x = some ns → hostReach s x = true → x.snap = 1 → 0 < x.entry.length.toNat →
    b.length = x.entry.length.toNat * ns.granule → gatherTakes s x x.entry.length.toNat = true → x.entry.atom = false →
    Does (.write c b) s fun t => (∃ y, getCtx t c = some y ∧ y.wait = .posting ∧ y.status = St.ok ∧ y.commitBeat = some (x.commitBeat.getD s.beat)) ∧
      (∀ k < x.entry.length.toNat, ∃ slot, mapGet t (mapIdx ns (x.entry.lba.toNat + k)) = .gather slot) ∧
      (∀ j, (∀ k < x.entry.length.toNat, j ≠ mapIdx ns (x.entry.lba.toNat + k)) → mapGet t j = mapGet s j)) ∧
  (∀ s c x ns b, Resident s c 0x02 1 x → ctxNs s x = some ns → hostReach s x = true → x.snap = 1 → 0 < x.entry.length.toNat →
    b.length = x.entry.length.toNat * ns.granule → gatherTakes s x x.entry.length.toNat = true → x.entry.atom = true →
    Does (.write c b) s fun t => (∃ y, getCtx t c = some y ∧ y.wait = .posting ∧ y.status = St.ok) ∧ t.xlat.map = s.xlat.map) ∧
  (∀ s c x ns g, Resident s c 0x02 1 x → ctxNs s x = some ns → x.snap = 0 → x.ringOf = some g →
    Does (.write c []) s fun t => t = { s with ctxs := t.ctxs, movers := t.movers, out := t.out } ∧ getCtx t c = some { x with snap := 1 } ∧
      t.out = s.out ++ dataReads s x 0 (x.entry.length.toNat * ns.granule) ∧
      t.movers = (beginTransfer s x false 0 (x.entry.length.toNat * ns.granule)).movers) ∧
  (∀ s c x ns b slot, Resident s c 0x02 1 x → ctxNs s x = some ns → ns.g16k = false → hostReach s x = true → x.snap = 1 → x.entry.length = 1 →
    b.length = 4096 → gatherTakes s x 1 = true → x.entry.atom = false → freeGather s 1 = some slot →
    Does (.write c b) s fun t => mapGet t (mapIdx ns x.entry.lba.toNat) = .gather slot ∧
      (∀ a < 4096, some (Mem.read (locBytes t 1 (.gather slot)) a) = b[a]?) ∧ locTag t (.gather slot) = x.entry.tag.setWidth 64) ∧
  (∀ s c x, Resident s c 0x03 1 x → Posts (.flush c) s c St.ok 0 0 (fun t => { s with ctxs := t.ctxs }) fun _ => True)

/-- For every state: the context of a library or host-memory program that nothing stands in the way of becomes ready
at its first instruction and nothing else changes. A GET_SETTING has its POST to come with the setting's value, or
with the status and detail of the check that refuses it. A SET_SETTING that a check refuses has its POST to come
with that status and changes no setting; one of an NV setting without a command of its own begins its system-area
entry and, once that is durable, takes effect; one of a setting that is neither takes effect at once, and one with
a command of its own waits for that command. A LOG_READ of a page that does not exist, or from an offset past its
end or not a multiple of 4, ends with RANGE detail 0x02; otherwise it starts its transfer, and ends with OK and
the page's length (03_rings_commands.md, 01_anatomy.md, 02_beat_admission.md). -/
def Obligations.ProgramsStartAndSettingOps : Prop :=
  (∀ s c x i k, (i = Instr.libraryProgram c ∧ k = 2 ∨ i = Instr.hostMemoryProgram c ∧ k = 3) → getCtx s c = some x → x.wait = .resident →
    x.entry.typ.toNat = k → x.stopping = false → effBlocked s x = false → Lands i s c { x with wait := .ready }) ∧
  (∀ s c x, Resident s c 0x86 4 x → accessCheck s (x.entry.a0.toNat % 2 ^ 32) none = none →
    Posts (.getSetting c) s c St.ok 0 (readSetting s (x.entry.a0.toNat % 2 ^ 32)) (fun t => { s with ctxs := t.ctxs }) fun _ => True) ∧
  (∀ s c x st d, Resident s c 0x86 4 x → accessCheck s (x.entry.a0.toNat % 2 ^ 32) none = some (st, d) →
    Posts (.getSetting c) s c st d 0 (fun t => { s with ctxs := t.ctxs }) fun _ => True) ∧
  (∀ s c x st d, Resident s c 0x87 4 x → x.snap = 0 → accessCheck s (x.entry.a0.toNat % 2 ^ 32) (some x.entry.a1) = some (st, d) →
    Posts (.setSetting c) s c st d 0 (fun t => { s with ctxs := t.ctxs }) fun _ => True) ∧
  (∀ s c x, Resident s c 0x87 4 x → x.snap = 0 → accessCheck s (x.entry.a0.toNat % 2 ^ 32) (some x.entry.a1) = none →
    settingNv (x.entry.a0.toNat % 2 ^ 32) = true →
    Does (.setSetting c) s fun t => t = { s with ctxs := t.ctxs, nor := t.nor } ∧ getCtx t c = some { x with snap := 1 } ∧
      ∃ e, t.nor.writing = s.nor.writing ++ [e] ∧ e.typ = 5 ∧ e.key = settingKey s.nor.schema (x.entry.a0.toNat % 2 ^ 32) ∧ e.value = settingBody s (x.entry.a0.toNat % 2 ^ 32) x.entry.a1) ∧
  (∀ s c x, Resident s c 0x87 4 x → x.snap = 0 → accessCheck s (x.entry.a0.toNat % 2 ^ 32) (some x.entry.a1) = none →
    settingNv (x.entry.a0.toNat % 2 ^ 32) = false → specialSet (x.entry.a0.toNat % 2 ^ 32) = false →
    exec (.setSetting c) s = .next (residentPost (applySet s (x.entry.a0.toNat % 2 ^ 32) x.entry.a1) c St.ok 0 0)) ∧
  (∀ s c x, Resident s c 0x87 4 x → x.snap = 0 → accessCheck s (x.entry.a0.toNat % 2 ^ 32) (some x.entry.a1) = none →
    settingNv (x.entry.a0.toNat % 2 ^ 32) = false → specialSet (x.entry.a0.toNat % 2 ^ 32) = true → Lands (.setSetting c) s c { x with snap := 1 }) ∧
  (∀ s c x, Resident s c 0x87 4 x → x.snap ≠ 0 → specialSet (x.entry.a0.toNat % 2 ^ 32) = false → settingWriting s (x.entry.a0.toNat % 2 ^ 32) = false →
    exec (.setSetting c) s = .next (residentPost (applySet s (x.entry.a0.toNat % 2 ^ 32) x.entry.a1) c St.ok 0 0)) ∧
  (∀ s c x pg, Resident s c 0x95 4 x → logPage s (x.entry.a0.toNat % 256) = some pg → x.entry.a1.toNat < pg.length → x.entry.a1.toNat % 4 = 0 →
    x.snap ≠ 0 → hostReach s x = true →
    Does (.logRead c) s fun t => t.xlat = s.xlat ∧ ∃ y, getCtx t c = some y ∧ y.wait = .posting ∧ y.status = St.ok ∧ y.result = BitVec.ofNat 64 pg.length) ∧
  (∀ s c x pg, Resident s c 0x95 4 x → logPage s (x.entry.a0.toNat % 256) = some pg → x.entry.a1.toNat < pg.length → x.entry.a1.toNat % 4 = 0 →
    x.snap = 0 → exec (.logRead c) s = .next (beginTransfer (modCtx s c fun y => { y with snap := 1 }) x true 0 (dBytes x))) ∧
  (∀ s c x, Resident s c 0x95 4 x → (∀ pg, logPage s (x.entry.a0.toNat % 256) = some pg → pg.length ≤ x.entry.a1.toNat ∨ x.entry.a1.toNat % 4 ≠ 0) →
    Posts (.logRead c) s c St.range 0x02 0 (fun t => { s with ctxs := t.ctxs }) fun _ => True)

/-- For every state: a RING_CREATE takes the lowest free pair of the pool, makes it ACTIVE with indices 0, PHASE 1 and
the bases, sizes, mode, vector and weight of its operands, and posts its number. A RING_DELETE removes just the
named pair once no command and no undecided fetched entry of it is left, and waits before. A RING_RESET marks its
pair RESETTING and ends its uncommitted commands. RING_RESET_COMPLETE of a pair whose commands are all terminal
counts those that an earlier overlapping command still keeps from their end, which post nowhere, sets its indices
and doorbells to 0, PHASE to 1 and the pair ACTIVE, and posts the reset's counts where a RING_RESET waits for it;
an admin pair that a disable released is freed. An ABORT that finds no target ends with ABORT_NOT_FOUND, one whose
target's commit beat has come with ABORT_TOO_LATE, and neither touches another command; one in time ends with OK
and its target is fixed as ABORTED. A DAY_ENTER of a value above 3 ends with RANGE; otherwise it stores DAY_TARGET
and its request is pending (03_rings_commands.md). -/
def Obligations.RingOperations : Prop :=
  (∀ s c x g, Resident s c 0x80 4 x → lowest (fun k => (getRing s k).isNone) 6 1018 = some g →
    Does (.ringCreate c) s fun t => t = { s with ctxs := t.ctxs, rings := t.rings, nv := t.nv, due := t.due } ∧
      (∀ id, id ≠ 0x04000585 + g → id ≠ 0x04000985 + g → nvVal t id = nvVal s id) ∧ ∃ r, t.rings = s.rings ++ [r] ∧ r.g = g ∧ r.fn = selFn x ∧
      r.loc = selLocal x.entry ∧ r.st = .active ∧ r.sqHead = 0 ∧ r.sqTail = 0 ∧ r.cqTail = 0 ∧ r.cqHead = 0 ∧ r.phase = true ∧ r.sqBase = x.entry.a0 ∧
      r.cqBase = x.entry.a1 ∧ r.sqLog2 = bits x.entry.a2.toNat 4 0 ∧ r.cqLog2 = bits x.entry.a2.toNat 9 5 ∧ r.hold = bit x.entry.a2.toNat 10 ∧
      r.vector = bits x.entry.a2.toNat 39 29 ∧ r.weight = bits x.entry.a2.toNat 20 13 ∧
      ∃ y, getCtx t c = some y ∧ y.wait = .posting ∧ y.status = St.ok ∧ y.result = BitVec.ofNat 64 g) ∧
  (∀ s c x r, Resident s c 0x81 4 x → getLocal s (selFn x) (selLocal x.entry) = some r → ringBusy s r.g = false →
    Posts (.ringDelete c) s c St.ok 0 0 (fun t => { s with ctxs := t.ctxs, rings := t.rings, due := t.due }) fun t =>
      ∀ q, q ∈ t.rings ↔ q ∈ s.rings ∧ q.g ≠ r.g) ∧
  (∀ s c x, Resident s c 0x81 4 x → getLocal s (selFn x) (selLocal x.entry) = none →
    Posts (.ringDelete c) s c St.ok 0 0 (fun t => { s with ctxs := t.ctxs }) fun _ => True) ∧
  (∀ s c x r, Resident s c 0x81 4 x → getLocal s (selFn x) (selLocal x.entry) = some r → ringBusy s r.g = true → Idle (.ringDelete c) s) ∧
  (∀ s c x r, Resident s c 0x82 4 x → getLocal s (selFn x) (selLocal x.entry) = some r → x.snap = 0 →
    exec (.ringReset c) s = .next (startRingReset (modCtx s c fun y => { y with snap := 1 }) r.g (some c))) ∧
  (∀ s g r k c x, getRing s g = some r → r.rst = some k → k.byCtx = some c → getCtx s c = some x → x.entry.typ = 4 → x.entry.op = 0x82 →
    resetWaits s k = false → ringBusy s g = false → r.loc ≠ 0 → (∀ z ∈ s.ctxs, z.ringOf = some g → z.wait = .fixed → z.withheld = true) →
    Posts (.ringResetComplete g) s c St.ok 0 (resetWord k.withheld k.aborted k.ok)
      (fun t => { s with ctxs := t.ctxs, rings := t.rings, plan := { s.plan with ringResets := satAdd s.plan.ringResets 1 } }) fun t =>
      getRing t g = some { r with st := .active, sqHead := 0, sqTail := 0, sqVisible := 0, cqTail := 0, cqHead := 0, cqCredit := 0, phase := true, rst := none, held := none }) ∧
  (∀ s g r k c x z, getRing s g = some r → r.rst = some k → k.byCtx = some c → getCtx s c = some x → x.entry.typ = 4 → x.entry.op = 0x82 →
    resetWaits s k = false → ringBusy s g = false → r.loc ≠ 0 → z.c ≠ c → getCtx s z.c = some z →
    (s.ctxs.filter fun y => y.ringOf == some g && y.wait == .fixed && !y.withheld) = [z] →
    Does (.ringResetComplete g) s fun t => t.out = s.out ∧ getCtx t z.c = some { z with withheld := true } ∧ ∃ y, getCtx t c = some y ∧
      y.wait = .posting ∧ y.result = resetWord (k.count z.status).withheld (k.count z.status).aborted (k.count z.status).ok) ∧
  (∀ s g r k, getRing s g = some r → r.rst = some k → k.byCtx = none → ringBusy s g = false → (∀ z ∈ s.ctxs, z.ringOf = some g → z.wait = .fixed → z.withheld = true) →
    Does (.ringResetComplete g) s fun t => t = { s with rings := t.rings, fns := t.fns, due := t.due, plan := { s.plan with ringResets := satAdd s.plan.ringResets 1 } } ∧
      getRing t g = if r.loc = 0 ∧ ((getFn s r.fn).map HostFn.aringRelease).getD false = true ∧ fnFunc r.fn = 0 then none
        else some { r with st := .active, sqHead := 0, sqTail := 0, sqVisible := 0, cqTail := 0, cqHead := 0, cqCredit := 0, phase := true, rst := none, held := none }) ∧
  (∀ s c x, getCtx s c = some x → x.wait = .resident → x.entry.typ = 4 → x.entry.op = 0x83 → abortTarget s x = none →
    Posts (.abort c) s c St.abortNotFound 0 0 (fun t => { s with ctxs := t.ctxs }) fun _ => True) ∧
  (∀ s c x y, getCtx s c = some x → x.wait = .resident → x.entry.typ = 4 → x.entry.op = 0x83 → abortTarget s x = some y → committed s y = true →
    Posts (.abort c) s c St.abortTooLate 0 0 (fun t => { s with ctxs := t.ctxs }) fun _ => True) ∧
  (∀ s c x y, getCtx s c = some x → x.wait = .resident → x.entry.typ = 4 → x.entry.op = 0x83 → abortTarget s x = some y → committed s y = false →
    getCtx s y.c = some y → y.atom = [] →
    Does (.abort c) s fun t => (∃ z, getCtx t c = some z ∧ z.wait = .posting ∧ z.status = St.ok) ∧
      (∃ z, getCtx t y.c = some z ∧ z.wait = .fixed ∧ z.status = St.aborted ∧ z.postBeat = s.beat + 1) ∧
      t.plan.abortsDone = satAdd s.plan.abortsDone 1 ∧ t.out = s.out) ∧
  (∀ s c x, Resident s c 0x92 4 x → x.snap = 0 → 3 < x.entry.a0.toNat →
    Posts (.dayEnter c) s c St.range 0x02 0 (fun t => { s with ctxs := t.ctxs }) fun _ => True) ∧
  (∀ s c x, Resident s c 0x92 4 x → x.snap = 0 → x.entry.a0.toNat ≤ 3 → dayOf x.entry.a0.toNat ≠ s.day.day → s.day.pendReq = none →
    Does (.dayEnter c) s fun t => t.day.pendReq = some (dayOf x.entry.a0.toNat, c) ∧ nvVal t 0x0E000001 = x.entry.a0.toNat ∧ t.day.day = s.day.day ∧
      getCtx t c = some { x with snap := 1 }) ∧
  (∀ s c x, Resident s c 0x92 4 x → x.snap = 0 → x.entry.a0.toNat ≤ 3 →
    exec (.dayEnter c) s = .next (requestDay (storeNv (modCtx s c fun y => { y with snap := 1 }) 0x0E000001 x.entry.a0) c (dayOf x.entry.a0.toNat)))

/-- For every state with the function present: a write of 4 aligned bytes is one dword write, one of 8 the low dword
and then the high one, followed by the wake a doorbell may bring; another width or offset writes the dwords it
covers whole and reads the bytes it names of the dwords it touches; an access past the 8 MiB of BAR0 faults. A
4-byte read of a lit register that is not part of a pair answers its value; of the low half of a pair it answers
it and latches the high half, which the next read of the high half answers and forgets. A write to GEVENT clears
the bits written 1, and bit 0 clears the record of dark accesses; a dark access of the same cycle, recorded as the
read or write it was, and any other event of that cycle win. A write to GEVENT_CFG sets vector and mask and leaves
the bits pending. An access to a dark register is counted and recorded, raises DARK_ACCESS, reads all ones and
writes nothing (01_anatomy.md, 11_host_ports.md, 14_times_of_day_thermal.md). -/
def Obligations.RegisterAccess : Prop :=
  (∀ s fn o v, (getFn s fn).isSome = true → o % 4 = 0 → o + 4 ≤ 0x800000 →
    exec (.registerWrite fn o 4 v) s = .next (doorbellWake s (hostWrite s fn o (BitVec.ofNat 32 (v.toNat % 2 ^ 32))))) ∧
  (∀ s fn o v, (getFn s fn).isSome = true → o % 4 = 0 → o + 8 ≤ 0x800000 →
    exec (.registerWrite fn o 8 v) s = .next (doorbellWake s
      (hostWrite (hostWrite s fn o (BitVec.ofNat 32 v.toNat)) fn (o + 4) (BitVec.ofNat 32 (v.toNat / 2 ^ 32))))) ∧
  (∀ s fn o n v, o + n ≤ 0x800000 → exec (.registerWrite fn o n v) s = .next (doorbellWake s (barWrite s fn o n v))) ∧
  (∀ s fn o n, (getFn s fn).isSome = true → 0 < n → n ≤ 8 → o + n ≤ 0x800000 →
    exec (.latchingRead fn o n) s = .next (emit (hostReads fn (o / 4 * 4) (ceilDiv (o + n - o / 4 * 4) 4) s).2
      (.regRead fn (BitVec.ofNat 64 ((hostReads fn (o / 4 * 4) (ceilDiv (o + n - o / 4 * 4) 4) s).1 / 2 ^ (8 * (o - o / 4 * 4)) % 2 ^ (8 * n)))))) ∧
  (∀ s fn o n v, 0x800000 < o + n → exec (.registerWrite fn o n v) s = .fault (.outsideBar o) ∧ exec (.latchingRead fn o n) s = .fault (.outsideBar o)) ∧
  (∀ s fn o f, getFn s fn = some f → o % 4 = 0 → o + 4 ≤ 0x800000 → bar0Dark s o = false → lowHalf o = false → (o < 4 ∨ lowHalf (o - 4) = false) →
    exec (.latchingRead fn o 4) s = .next (emit s (.regRead fn (BitVec.ofNat 64 (readDword s f o % 2 ^ 32))))) ∧
  (∀ s fn o f, getFn s fn = some f → o % 4 = 0 → bar0Dark s o = false → lowHalf o = true →
    Does (.latchingRead fn o 4) s fun t => t = { s with fns := t.fns, out := t.out } ∧
      t.out = s.out ++ [.regRead fn (BitVec.ofNat 64 (readDword s f o % 2 ^ 32))] ∧
      ∃ g, getFn t fn = some g ∧ g = { f with hiLatch := g.hiLatch } ∧ Assoc.get g.hiLatch o = some (BitVec.ofNat 32 (readDword s f (o + 4)))) ∧
  (∀ s fn o f v, getFn s fn = some f → o % 4 = 0 → 4 ≤ o → lowHalf (o - 4) = true → bar0Dark s o = false → Assoc.get f.hiLatch (o - 4) = some v →
    Does (.latchingRead fn o 4) s fun t => t.out = s.out ++ [.regRead fn (v.setWidth 64)] ∧
      ∃ g, getFn t fn = some g ∧ Assoc.get g.hiLatch (o - 4) = none) ∧
  (∀ s fn f v, getFn s fn = some f →
    Does (.geventWrite fn v 0 none) s fun t => t = { s with fns := t.fns } ∧ ∃ g, getFn t fn = some g ∧
      g = { f with gevent := g.gevent, darkCount := g.darkCount, darkWrite := g.darkWrite, darkOffset := g.darkOffset } ∧
      (∀ k < 8, g.gevent.getLsbD k = (f.gevent.getLsbD k && !v.getLsbD k)) ∧ (v.getLsbD 0 = true → g.darkCount = 0) ∧
      (v.getLsbD 0 = false → g.darkCount = f.darkCount ∧ g.darkOffset = f.darkOffset)) ∧
  (∀ s fn f v o w, getFn s fn = some f → Does (.geventWrite fn v 0 (some (o, w))) s fun t => ∃ g, getFn t fn = some g ∧ g.gevent.getLsbD 0 = true ∧
    g.darkCount = (if v.getLsbD 0 then 1 else min 255 (f.darkCount + 1)) ∧
    (v.getLsbD 0 = true ∨ f.darkCount = 0 → g.darkOffset = BitVec.ofNat 23 o ∧ g.darkWrite = w)) ∧
  (∀ s fn f v k d, getFn s fn = some f → Does (.geventWrite fn v k d) s fun t => ∃ g, getFn t fn = some g ∧
    (d.isSome = true → g.gevent.getLsbD 0 = true) ∧ ∀ j, 0 < j → j < 8 → k.getLsbD j = true → g.gevent.getLsbD j = true) ∧
  (∀ s fn f v, getFn s fn = some f →
    Does (.geventCfgWrite fn v) s fun t => t = { s with fns := t.fns, out := t.out } ∧ ∃ g, getFn t fn = some g ∧
      g = { f with cfgVector := (v >>> 16).setWidth 11, cfgMask := v.setWidth 8, pba := g.pba }) ∧
  (∀ s fn f o w, getFn s fn = some f → bar0Dark s o = true →
    Does (.darkDomainAccess fn o w) s fun t => t.day.darkAccesses = satAdd s.day.darkAccesses 1 ∧ t.rings = s.rings ∧ t.plan = s.plan ∧
      (w = false → ∃ l, t.out = l ++ [.regRead fn 0xFFFFFFFF]) ∧
      ∃ g, getFn t fn = some g ∧ g.gevent.getLsbD 0 = true ∧ g.darkCount = min 255 (f.darkCount + 1) ∧ (f.darkCount = 0 → g.darkOffset = BitVec.ofNat 23 o ∧ g.darkWrite = w))

/-- For every state in Noon or Dusk, not stopped, with the function present and the local ring below its limit:
SQ_TAIL below the ring's size on an ACTIVE pair stores the tail; CQ_HEAD that does not pass the last posted
completion stores the head; on a pair that does not exist or is being reset, or with an index out of range, the
write is dropped, DBERR of the pair is set and RING_DB_ERRORS counts. RSTAT written with bit 4 clears DBERR of its
pair only. Unmasking a vector whose Pending Bit is set, with MSI-X enabled and no reset of the function running,
sends its message and clears the bit; unmasking the function enables MSI-X and sends what is pending. The check of
coalescing clears the count and sends one message, or leaves it pending where the vector is masked, once the count
or the age is reached, and otherwise changes nothing (03_rings_commands.md, 11_host_ports.md). -/
def Obligations.DoorbellsAndVectors : Prop :=
  (∀ s fn loc v f r, s.day.fatal = false → s.day.day = .noon ∨ s.day.day = .dusk → s.therm.hotAt = none → getFn s fn = some f → loc < fnLimit s fn →
    getLocal s fn loc = some r → getRing s r.g = some r → r.st = .active → v.toNat < r.sqSize → r.sqSize ≤ 2 ^ 16 →
    Does (.sqTail fn loc v) s fun t => t = { s with rings := t.rings, links := t.links } ∧ getRing t r.g = some { r with sqTail := v.toNat } ∧
      ∀ g, g ≠ r.g → getRing t g = getRing s g) ∧
  (∀ s fn loc v f r, getFn s fn = some f → loc < fnLimit s fn → getLocal s fn loc = some r → getRing s r.g = some r → r.st = .active →
    v.toNat < r.cqSize → r.cqSize ≤ 2 ^ 16 → (v.toNat + r.cqSize - r.cqHead) % r.cqSize ≤ r.unconsumed →
    Does (.cqHead fn loc v) s fun t => t = { s with rings := t.rings, links := t.links } ∧ getRing t r.g = some { r with cqHead := v.toNat } ∧
      ∀ g, g ≠ r.g → getRing t g = getRing s g) ∧
  (∀ s fn loc v, exec (.sqTail fn loc v) s = .next (doorbellWake s (sqTailWrite s fn loc v))) ∧
  (∀ s fn loc v f, getFn s fn = some f → loc < fnLimit s fn →
    (getLocal s fn loc = none ∨ ∃ r, getLocal s fn loc = some r ∧ (r.st = .resetting ∨ r.sqSize ≤ v.toNat % 2 ^ 16)) →
    exec (.sqTail fn loc v) s = .next (doorbellWake s (dbError s fn loc)) ∧ (dbError s fn loc).plan.dbErrors = satAdd s.plan.dbErrors 1) ∧
  (∀ s fn loc v f, getFn s fn = some f → loc < fnLimit s fn →
    (getLocal s fn loc = none ∨ ∃ r, getLocal s fn loc = some r ∧ (r.st = .resetting ∨ r.cqSize ≤ v.toNat % 2 ^ 16 ∨
      r.unconsumed < (v.toNat % 2 ^ 16 + r.cqSize - r.cqHead) % r.cqSize)) →
    Does (.cqHead fn loc v) s fun t => t.rings = s.rings ∧ t.plan.dbErrors = satAdd s.plan.dbErrors 1 ∧
      ∃ g, getFn t fn = some g ∧ g.dbErr.contains loc = true) ∧
  (∀ s fn loc v f, getFn s fn = some f → loc < fnLimit s fn → bar0Dark s (0x100004 + loc * 0x1000) = false → v.getLsbD 4 = true →
    Does (.rstatClear fn loc v) s fun t => t = { s with fns := t.fns } ∧ getFn t fn = some { f with dbErr := f.dbErr.filter (· != loc) }) ∧
  (∀ s fn f v, getFn s fn = some f → v < f.vectors → f.msixEnable = true → f.msixMask = false → f.writable = true → f.resetting = false → f.pba.contains v = true →
    Does (.msixUnmask fn (some v)) s fun t => t = { s with fns := t.fns, out := t.out } ∧
      t.out = s.out ++ [.msix fn v (f.msix v).addr (f.msix v).data] ∧
      ∃ g, getFn t fn = some g ∧ g.pba = f.pba.filter (· != v) ∧ (g.msix v).masked = false) ∧
  (∀ s fn f v, getFn s fn = some f → v < f.vectors → (f.pba.contains v = false ∨ f.msixEnable = false ∨ f.msixMask = true ∨ f.writable = false ∨ f.resetting = true) →
    Does (.msixUnmask fn (some v)) s fun t => t = { s with fns := t.fns } ∧
      ∃ g, getFn t fn = some g ∧ g = { f with msixTable := g.msixTable } ∧ (g.msix v).masked = false) ∧
  (∀ s fn, exec (.msixUnmask fn none) s = .next (msixDrainAll (modFn s fn fun f => { f with msixEnable := true, msixMask := false }) fn)) ∧
  (∀ s g r f, getRing s g = some r → 0 < r.pend → (max r.coalCount 1 ≤ r.pend ∨ r.coalBeats ≤ s.beat - r.oldest) → getFn s r.fn = some f →
    f.msixEnable = true → r.vector < f.vectors → f.msixMask = false → (f.msix r.vector).masked = false → f.writable = true → f.resetting = false →
    Does (.coalesceCheck g) s fun t => t = { s with rings := t.rings, out := t.out } ∧ getRing t g = some { r with pend := 0 } ∧
      t.out = s.out ++ [.msix r.fn r.vector (f.msix r.vector).addr (f.msix r.vector).data]) ∧
  (∀ s g r, getRing s g = some r → 0 < r.pend → (max r.coalCount 1 ≤ r.pend ∨ r.coalBeats ≤ s.beat - r.oldest) →
    exec (.coalesceCheck g) s = .next (sendMsix (modRing s g fun q => { q with pend := 0 }) r.fn r.vector)) ∧
  (∀ s g, (∀ r, getRing s g = some r → r.pend = 0 ∨ r.pend < max r.coalCount 1 ∧ s.beat - r.oldest < r.coalBeats) → Idle (.coalesceCheck g) s)

/-- For every state with the registers lit and no reset of the admin ring running: enabling it with a valid
configuration sets EN, clears CFGERR and lets it become ready two beats later; with a size outside 4 to 12 or a
vector the function lacks it leaves EN at 0 and sets CFGERR. Ready outside Dawn and not stopped, with no reset of
the function running, the local pair 0 appears, ACTIVE, with the bases, sizes, mode and vector of the registers. A
reset with EN at 1 starts the ring reset of the pair. Disabling clears EN and starts the reset after which the
pair is released, or, before the pair is there, takes the enable back (03_rings_commands.md, 11_host_ports.md). -/
def Obligations.AdminRingControl : Prop :=
  (∀ s fn f, getFn s fn = some f → bar0Dark s 0x1014 = false → fnFunc fn = 0 → aringResetting s fn = false → f.aringEn = false →
    4 ≤ bits f.aringCfg.toNat 3 0 → bits f.aringCfg.toNat 3 0 ≤ 12 → 4 ≤ bits f.aringCfg.toNat 7 4 → bits f.aringCfg.toNat 7 4 ≤ 12 →
    bits f.aringCfg.toNat 26 16 < f.vectors →
    Does (.aringEnable fn) s fun t => t = { s with fns := t.fns } ∧
      getFn t fn = some { f with aringEn := true, aringCfgErr := false, aringReadyAt := some (s.beat + 2) }) ∧
  (∀ s fn f, getFn s fn = some f → bar0Dark s 0x1014 = false → fnFunc fn = 0 → aringResetting s fn = false → f.aringEn = false →
    (bits f.aringCfg.toNat 3 0 < 4 ∨ 12 < bits f.aringCfg.toNat 3 0 ∨ bits f.aringCfg.toNat 7 4 < 4 ∨ 12 < bits f.aringCfg.toNat 7 4 ∨
      f.vectors ≤ bits f.aringCfg.toNat 26 16) →
    Does (.aringEnable fn) s fun t => t = { s with fns := t.fns } ∧ getFn t fn = some { f with aringEn := false, aringCfgErr := true }) ∧
  (∀ s fn f b, getFn s fn = some f → f.aringReadyAt = some b → s.day.day ≠ .dawn → s.day.fatal = false →
    f.resetting = false →
    Does (.aringReady fn) s fun t => t = { s with fns := t.fns, rings := t.rings, nv := t.nv, due := t.due } ∧ getFn t fn = some { f with aringReadyAt := none } ∧
      ∃ r, t.rings = s.rings ++ [r] ∧ r.g = fnLink fn ∧ r.fn = fn ∧ r.loc = 0 ∧ r.admin = true ∧ r.st = .active ∧ r.sqBase = f.aringSq ∧
        r.cqBase = f.aringCq ∧ r.sqLog2 = bits f.aringCfg.toNat 3 0 ∧ r.cqLog2 = bits f.aringCfg.toNat 7 4 ∧ r.hold = bit f.aringCfg.toNat 8) ∧
  (∀ s fn f r, getFn s fn = some f → bar0Dark s 0x1014 = false → f.aringEn = true → fnFunc fn = 0 → getLocal s fn 0 = some r → r.st = .active →
    exec (.aringReset fn) s = .next (startRingReset s r.g none)) ∧
  (∀ s fn f r, getFn s fn = some f → bar0Dark s 0x1014 = false → f.aringEn = true → fnFunc fn = 0 → aringResetting s fn = false →
    getLocal s fn 0 = some r → s.ctxs = [] → f.kept = [] → getRing s r.g = some r → r.fn = fn →
    Does (.aringDisable fn) s fun t => t = { s with fns := t.fns, rings := t.rings } ∧
      getFn t fn = some { f with aringEn := false, aringReadyAt := none, aringRelease := true } ∧
      ∃ q, getRing t r.g = some q ∧ q.st = .resetting ∧ q.held = none) ∧
  (∀ s fn f r, getFn s fn = some f → bar0Dark s 0x1014 = false → f.aringEn = true → fnFunc fn = 0 → aringResetting s fn = false →
    getLocal s fn 0 = some r →
    exec (.aringDisable fn) s = .next (startRingReset (modFn (modFn s fn fun f => { f with aringEn := false, aringReadyAt := none }) fn
      fun f => { f with aringRelease := true }) r.g none)) ∧
  (∀ s fn f, getFn s fn = some f → bar0Dark s 0x1014 = false → f.aringEn = true → fnFunc fn = 0 → aringResetting s fn = false →
    getLocal s fn 0 = none →
    Does (.aringDisable fn) s fun t => t = { s with fns := t.fns } ∧ getFn t fn = some { f with aringEn := false, aringReadyAt := none })

/-- For every state: a PCIe link that may train, is down and has no functions left comes up with its rate and width
and presents its PF with 2,048 vectors; a USB4 tunnel of an enabled port that entered USB4 likewise; other
functions and rings stay. A link without functions that goes down loses its rate, width and VF settings and, where
it was up, is counted; so on PERST, both links of the port, with the port's mode and clock settings taken. The end
of PERST lets training begin 5,000 beats later. VF_ENABLE with a NumVFs within TotalVFs stores it; a change while
VFs are enabled is ignored, and clearing it disables them. Links that go down with functions reset those, and no
other link changes. The module answers a source's capabilities with a request at no current, Discover Identity
with its four objects, and Enter_USB for USB4 with an accept (11_host_ports.md, 03_rings_commands.md). -/
def Obligations.HostLinksComeAndGo : Prop :=
  (∀ s l r w fl, l < 4 → mayTrain s l = true → (getLink s l).st < 2 → linkHasFns s l = false → r ≤ 5 →
    bits (nvVal s 0x0A000003) (3 * (l / 2) + 2) (3 * (l / 2)) ≤ r → widthOk s l w = true →
    Does (.linkUp l r w fl) s fun t => t = { s with fns := t.fns, links := t.links } ∧ (getLink t l).st = 2 ∧ (getLink t l).rate = r ∧
      (getLink t l).width = w ∧ (∃ f, f ∈ t.fns ∧ f.n = 64 * l ∧ f.vectors = 2048) ∧ ∀ f, f ∈ s.fns → f ∈ t.fns) ∧
  (∀ s l, l < 6 → getFn s (64 * l) = none → 2 ≤ (getLink s l).st →
    Does (.linkDown l) s fun t => t = { s with links := t.links } ∧ (getLink t l).st = 0 ∧ (getLink t l).width = 0 ∧ (getLink t l).vfEnable = false ∧
      (getLink t l).numVfs = 0 ∧ (getLink t l).downs = satAdd (getLink s l).downs 1 ∧ ∀ k < 6, k ≠ l → getLink t k = getLink s k) ∧
  (∀ s l, l < 6 → Does (.linkDown l) s fun t => (getLink t l).st = 0 ∧ ∀ k < 6, k ≠ l → getLink t k = getLink s k) ∧
  (∀ s p, p < 2 → Does (.perstAssert p) s fun t => (∀ l, l = 2 * p ∨ l = 2 * p + 1 → (getLink t l).st = 0 ∧ (getLink t l).perst = true ∧
      (getLink t l).trainFrom = none) ∧ ∀ k < 6, k / 2 ≠ p → getLink t k = getLink s k) ∧
  (∀ s p, p < 2 → getFn s (128 * p) = none → getFn s (128 * p + 64) = none →
    Does (.perstAssert p) s fun t => t = { s with links := t.links } ∧ ∀ l, l = 2 * p ∨ l = 2 * p + 1 → (getLink t l).st = 0 ∧
      (getLink t l).perst = true ∧ (getLink t l).trainFrom = none ∧ (getLink t l).mode2x8 = bit (nvVal s 0x0A000001) p) ∧
  (∀ s p, p < 2 → (getLink s (2 * p)).perst = true → s.day.day = .noon ∨ s.day.day = .dusk → s.day.fatal = false →
    Does (.perstDeassert p) s fun t => t = { s with links := t.links } ∧
      ∀ l, l = 2 * p ∨ l = 2 * p + 1 → (getLink t l).perst = false ∧ (getLink t l).trainFrom = some (s.beat + 5000)) ∧
  (∀ s p m, p < 2 → m < 5 → s.day.hostOn = true → bit (nvVal s 0x0A000004) p = true → (getLink s (4 + p)).usbEntered = true →
    (getLink s (4 + p)).st < 2 → linkHasFns s (4 + p) = false →
    Does (.usb4TunnelUp p m) s fun t => t = { s with fns := t.fns, links := t.links } ∧ (getLink t (4 + p)).st = 2 ∧ (getLink t (4 + p)).usbMode = m ∧
      ∃ f, f ∈ t.fns ∧ f.n = 64 * (4 + p)) ∧
  (∀ s p, p < 2 → getFn s (64 * (4 + p)) = none → 2 ≤ (getLink s (4 + p)).st →
    Does (.usb4TunnelDown p) s fun t => t = { s with links := t.links } ∧ (getLink t (4 + p)).st = 0 ∧
      (getLink t (4 + p)).downs = satAdd (getLink s (4 + p)).downs 1) ∧
  (∀ s p, p < 2 → Does (.usb4TunnelDown p) s fun t => (getLink t (4 + p)).st = 0) ∧
  (∀ s p m, p < 2 → s.day.hostOn = true → 0 < bits (field m 0 2) 14 12 → bits (field m 0 2) 4 0 = 1 →
    Does (.enterUsb p m) s fun t => t = { s with out := s.out ++ [.pd (pdMessage 2 [2 ^ 28])] }) ∧
  (∀ s p m, p < 2 → s.day.hostOn = true → 0 < bits (field m 0 2) 14 12 → bits (field m 0 2) 4 0 = 15 → bits (field m 2 4) 31 16 = 0xFF00 →
    bits (field m 2 4) 4 0 = 1 → bits (field m 2 4) 7 6 = 0 →
    Does (.enterUsb p m) s fun t => t = { s with out := t.out, freeCtr := s.freeCtr + 3 } ∧
      ∃ l, l.length = 4 ∧ t.out = s.out ++ [.pd (pdMessage 15 l)]) ∧
  (∀ s p m, p < 2 → s.day.hostOn = true → 0 < bits (field m 0 2) 14 12 → bits (field m 0 2) 4 0 = 8 → bits (field m 2 4) 30 28 = 2 →
    Does (.enterUsb p m) s fun t => t = { s with links := t.links, out := t.out } ∧ (getLink t (4 + p)).usbEntered = true ∧
      t.out = s.out ++ [.pd (pdMessage 3 [])]) ∧
  (∀ s l k, l < 6 → (getLink s l).st = 2 → (getFn s (64 * l)).isSome = true → (getLink s l).vfEnable = false →
    (s.fns.any fun f => fnLink f.n == l && fnFunc f.n != 0) = false → k ≤ totalVfs s l →
    Does (.vfEnable l true k) s fun t => t = { s with fns := t.fns, links := t.links } ∧ (getLink t l).numVfs = k ∧ (getLink t l).vfEnable = true ∧
      ∀ i, 1 ≤ i → i ≤ k → ∃ f, f ∈ t.fns ∧ f.n = 64 * l + i) ∧
  (∀ s l k, l < 6 → (getLink s l).st = 2 → (getFn s (64 * l)).isSome = true → (getLink s l).vfEnable = true →
    Does (.vfEnable l false k) s fun t => (getLink t l).vfEnable = false ∧ (getLink t l).st = 2 ∧ ∀ j < 6, j ≠ l → getLink t j = getLink s j) ∧
  (∀ s l k, (getLink s l).vfEnable = true → Idle (.vfEnable l true k) s)

/-- For every state with the function present: entering D3hot, or losing Bus Master Enable, sets just that. Its return
writes the kept completions in order, each in its ring's next slot with this beat and the head of now, a command's
with the end of its context, sends only messages besides and forgets them; after a hot stop or a loss of power it
writes none. A function reset removes the rings of the functions it takes in, drops their kept completions and
marks them resetting, and where none of their commands runs it ends no command; a FUNC_RESET does so for the VF it
names. Once no command of a resetting function is left, the reset's end presents it with its registers at their
reset values but GEVENT, GEVENT_CFG and DARK_ADDR, which stay (the model's choice, log entry 28), and a waiting
FUNC_RESET has its POST to come; it is not there where its link is down or its VF Enable is off. A command being
stopped is fixed as RING_RESET or gone at its boundary, and a pending time-of-day request of its own is withdrawn
(11_host_ports.md, 03_rings_commands.md, 05_zci_instructions.md). -/
def Obligations.FunctionPowerAndReset : Prop :=
  (∀ s fn f, getFn s fn = some f → Does (.functionD3hot fn true) s fun t => t = { s with fns := t.fns } ∧ getFn t fn = some { f with d3hot := true }) ∧
  (∀ s fn f, getFn s fn = some f → Does (.functionD3hot fn false) s fun t => t = { s with fns := t.fns } ∧ getFn t fn = some { f with busMaster := false }) ∧
  (∀ s fn f, getFn s fn = some f → s.therm.hotAt = none → s.power.lost = false →
    Does (.functionReturnD0 fn) s fun t => ∃ g, getFn t fn = some g ∧ g.d3hot = false ∧ g.busMaster = true ∧ g.kept = []) ∧
  (∀ s fn f, getFn s fn = some f → (s.therm.hotAt ≠ none ∨ s.power.lost = true) →
    Does (.functionReturnD0 fn) s fun t => t = { s with fns := t.fns } ∧ getFn t fn = some { f with d3hot := false, busMaster := true }) ∧
  (∀ s fn f, getFn s fn = some f → s.therm.hotAt = none → s.power.lost = false →
    exec (.functionReturnD0 fn) s = .next (msixDrainAll (f.kept.foldl writeKept (modFn s fn fun g => { g with d3hot := false, busMaster := true, kept := [] })) fn)) ∧
  (∀ s fn f k r, getFn s fn = some f → s.therm.hotAt = none → s.power.lost = false → f.kept = [k] → k.ctx = none → getRing s k.ring = some r → r.fn = fn →
    Does (.functionReturnD0 fn) s fun t => ∃ (e : Completion) (l : List Out), t.out = s.out ++ .completion k.ring r.cqTail e :: l ∧
      (∀ o ∈ l, ∃ v a d, o = Out.msix fn v a d) ∧ e.status = k.status ∧ e.cid = k.cid ∧ e.detail = k.detail ∧ e.result = k.result ∧ e.admSeq = 0 ∧
      e.cbeat = BitVec.ofNat 48 s.beat ∧ e.sqHead = BitVec.ofNat 16 r.sqHead ∧ ∃ q, getRing t k.ring = some q ∧ q.cqTail = (r.cqTail + 1) % r.cqSize) ∧
  (∀ s fn f k r c x, getFn s fn = some f → s.therm.hotAt = none → s.power.lost = false → f.kept = [k] → k.ctx = some c → getCtx s c = some x →
    x.wait = .fixed → postBlocked s x = false → durable s x = true → x.src = .ring k.ring → getRing s k.ring = some r → r.fn = fn → r.rst = none →
    x.withheld = false → s.plan.resetFlush = false → x.entry.isProg = true →
    Does (.functionReturnD0 fn) s fun t => getCtx t c = none ∧ ∃ (e : Completion) (l : List Out), t.out = s.out ++ .completion k.ring r.cqTail e :: l ∧
      (∀ o ∈ l, ∃ v a d, o = Out.msix fn v a d) ∧ e.status = x.status ∧ e.cid = x.entry.cid ∧ e.admSeq = BitVec.ofNat 64 x.adm ∧
      e.cbeat = BitVec.ofNat 48 s.beat ∧ e.sqHead = BitVec.ofNat 16 r.sqHead) ∧
  (∀ s fn, 2 ≤ (getLink s (fnLink fn)).st → exec (.functionReset fn) s = .next (functionReset s fn none)) ∧
  (∀ s fn f, getFn s fn = some f → 2 ≤ (getLink s (fnLink fn)).st →
    (∀ r ∈ s.rings, (resetSet s fn).contains r.fn = true → r.rst = none ∧ ∀ y ∈ s.ctxs, y.ringOf ≠ some r.g) → (∀ g ∈ s.fns, ∀ k ∈ g.kept, k.ctx = none) → (resetSet s fn).contains fn = true →
    Does (.functionReset fn) s fun t => t = { s with fns := t.fns, rings := t.rings, links := t.links, nv := t.nv, due := t.due, ctxs := t.ctxs, plan := { s.plan with fetching := t.plan.fetching, fetched := t.plan.fetched, gone := t.plan.gone } } ∧
      t.ctxs.map Ctx.c = s.ctxs.map Ctx.c ∧ (∀ r, r ∈ t.rings → r ∈ s.rings ∧ (resetSet s fn).contains r.fn = false) ∧
      ∃ g, getFn t fn = some g ∧ g.resetting = true ∧ g.kept = []) ∧
  (∀ s c x f, Resident s c 0x84 4 x → x.snap = 0 → getFn s (selFn x) = some f →
    exec (.funcReset c) s = .next (functionReset (commitNow (modCtx s c fun y => { y with snap := 1 }) c) (selFn x) (some c))) ∧
  (∀ s fn f, getFn s fn = some f → f.resetting = true → fnBusy s fn = false → 2 ≤ (getLink s (fnLink fn)).st →
    (fnFunc fn = 0 ∨ (getLink s (fnLink fn)).vfEnable = true) →
    Does (.functionResetComplete fn) s fun t => t = { s with fns := t.fns, links := t.links, nv := t.nv, ctxs := t.ctxs, plan := { s.plan with fetching := t.plan.fetching, fetched := t.plan.fetched, gone := t.plan.gone } } ∧
      getFn t fn = some f.afterReset ∧
      ∀ c x, f.resetBy = some c → getCtx s c = some x → x.wait = .resident → x.entry.typ = 4 → x.entry.op = 0x84 → x.stopping = false →
        ∃ y, getCtx t c = some y ∧ y.wait = .posting ∧ y.status = St.ok) ∧
  (∀ s fn f, getFn s fn = some f → f.resetting = true → fnBusy s fn = false →
    ((getLink s (fnLink fn)).st < 2 ∨ fnFunc fn ≠ 0 ∧ (getLink s (fnLink fn)).vfEnable = false) →
    Does (.functionResetComplete fn) s fun t => getFn t fn = none) ∧
  (∀ s c x, getCtx s c = some x → x.stopping = true → (settingNv (setArgs x).1 = false ∨ specialSet (setArgs x).1 = false) →
    Does (.commandStop c) s fun t => (∀ y, getCtx t c = some y → y.wait = .fixed ∧ y.status = St.ringReset) ∧
      ∀ d, t.day.pendReq = some (d, c) → False)

/-- For every state: a MODULE_RESET that is the only command, with no entry fetched and no stop under way, stops
admission, leaves the module flushing, stops its own command, the heartbeat and the waiting Cane and sideband
entries, and posts nothing. Once every command has ended, the flush, the wipe and Dawn follow: the next state is
in Dawn at step 1, with no function, ring, context, booking or cached line, with every domain but the always-on
one dark and both bank halves to be tested; BEAT goes on (03_rings_commands.md, 14_times_of_day_thermal.md,
01_anatomy.md). -/
def Obligations.ModuleReset : Prop :=
  (∀ s c x, Resident s c 0x85 4 x → exec (.moduleReset c) s = .next (moduleReset (commitNow s c))) ∧
  (∀ s c x, Resident s c 0x85 4 x → s.ctxs = [x] → s.plan.fetched = [] → (∀ b, x.commitBeat = some b → b ≤ s.beat) →
    (x.ringOf = none ∨ ∃ g r, x.ringOf = some g ∧ getRing s g = some r ∧ (getFn s r.fn).isSome = true ∧ (getFn s (64 * fnLink r.fn)).isSome = true) → s.plan.resetFlush = false → s.power.llAt = none → s.power.lost = false →
    s.therm.hotAt = none → s.sec.tamperAt = none → (∀ r ∈ s.rings, r.rst = none) →
    Does (.moduleReset c) s fun t => t.plan.stopped = true ∧ t.plan.resetFlush = true ∧ t.twin.hbStopped = true ∧ t.cane.queue = [] ∧
      t.side.adminEntry = none ∧ t.out = s.out ∧ t.beat = s.beat ∧ ∃ y, getCtx t c = some y ∧ y.stopping = true) ∧
  (∀ s, s.plan.resetFlush = true → s.ctxs = [] → s.power.llAt = none → s.therm.hotAt = none → s.sec.tamperAt = none →
    Does .moduleResetCommandsEnded s fun t => t.day.day = .dawn ∧ t.day.step = 1 ∧ t.day.fatal = false ∧ t.fns = [] ∧ t.rings = [] ∧ t.ctxs = [] ∧
      t.plan = Planner.init ∧ t.xlat.ways = [] ∧ t.xlat.gather = [] ∧ t.day.hostOn = false ∧ t.day.coreOn = false ∧ t.day.sramOn = false ∧
      t.day.dramOn = false ∧ t.power.armed = 0 ∧ t.power.dawnTests = 2 ∧ t.beat = s.beat)

/-- For every state: a bus error on a channel of an engine stops it, to restart two beats later while its second tag
pool is free and for good otherwise, puts a tag pool into quarantine, records the error word and counts it; where
no context has a descriptor there, or bytes booked there for this beat or the next, no other component changes but
the link's error count. At that beat a restarting engine runs. A drained quarantine gives a pool back, and a
stopped engine runs with it. Asserting a pacing source starts the bursts of its copies; withdrawing it holds them,
counted where one had started. The other engines stay as they are (10_data_movers.md). -/
def Obligations.MoverEngines : Prop :=
  (∀ s e ch k, e < 4 → 1 ≤ k → k ≤ 5 → ch / 16 = e → (getEngine s e).spare = true → engineOwners s e = [] →
    engineBooked s e s.beat 2 = [] →
    Does (.busError e ch k) s fun t => t = { s with movers := t.movers, links := t.links } ∧ (getEngine t e).st = .restarting ∧
      (getEngine t e).resumeAt = s.beat + 2 ∧ (getEngine t e).spare = false ∧ (getEngine t e).quarantine = min ((getEngine s e).quarantine + 1) 2 ∧
      (getEngine t e).lastError = lastErrorWord s e ch k ∧ (getEngine t e).descs = (getEngine s e).descs ∧
      t.movers.busErrors = satAdd s.movers.busErrors 1 ∧ ∀ d < 4, d ≠ e → getEngine t d = getEngine s d) ∧
  (∀ s e ch k, e < 4 → 1 ≤ k → k ≤ 5 → ch / 16 = e →
    Does (.busError e ch k) s fun t => (getEngine t e).st = (if (getEngine s e).spare then .restarting else .stopped) ∧
      (getEngine t e).spare = false ∧ (getEngine t e).quarantine = min ((getEngine s e).quarantine + 1) 2 ∧
      t.movers.busErrors = satAdd s.movers.busErrors 1) ∧
  (∀ s e, e < 4 → (getEngine s e).st = .restarting → (getEngine s e).resumeAt ≤ s.beat →
    Does (.engineResume e) s fun t => t = { s with movers := t.movers } ∧ getEngine t e = { getEngine s e with st := .running } ∧
      ∀ d < 4, d ≠ e → getEngine t d = getEngine s d) ∧
  (∀ s e, e < 4 → (getEngine s e).quarantine ≠ 0 →
    Does (.quarantineDrained e) s fun t => t = { s with movers := t.movers } ∧ getEngine t e = { getEngine s e with
        quarantine := (getEngine s e).quarantine - 1, st := if (getEngine s e).st = .stopped then .running else (getEngine s e).st,
        spare := decide ((getEngine s e).st ≠ .stopped) } ∧ ∀ d < 4, d ≠ e → getEngine t d = getEngine s d) ∧
  (∀ s p, p < 3 → Does (.paceAssert p) s fun t => t = { s with movers := t.movers } ∧ vget t.movers.pacer p false = true ∧
      ∀ e < 4, ∀ d ∈ (getEngine t e).descs, d.pacer = some p → d.started = true) ∧
  (∀ s p, p < 3 → vget s.movers.pacer p false = true →
    Does (.paceWithdraw p) s fun t => t = { s with movers := t.movers } ∧ vget t.movers.pacer p false = false ∧
      t.movers.paceWithdrawn = (if burstStarted s p then satAdd s.movers.paceWithdrawn 1 else s.movers.paceWithdrawn) ∧
      ∀ e < 4, ∀ d ∈ (getEngine t e).descs, d.pacer = some p → d.started = false)

/-- For every state: the data of the oldest fetch of an index of a pair, of the ring that is there or of one a reset
removed, leaves the fetches and waits for its decision. A held entry past its time on an ACTIVE HOLD ring is
fetched and refused with its latest cause: one completion with that status and admission sequence 0 in the ring's
next slot, the head one further, the ring's deficit one less, the refusal counted, where the beat's 4,096
completions are not taken. A decision of an entry that fails a check posts exactly that refusal at a cost of 1;
one with room takes a context at the end of the contexts with the next admission sequence and counts it; a cause
that the ring holds leaves the entry held with the cause and stops the visit. The cycle of a beat in which the
module neither serves nor drains only sends what the dies' operations put on their buses, nothing where none runs;
one that drains writes journal, care records and checkpoint on; in one it serves in it decides, unless admissions
are stopped, between the doorbells and the care work (02_beat_admission.md, 03_rings_commands.md). -/
def Obligations.PlannerDecisions : Prop :=
  (∀ s g i e sg pr d f, (s.plan.fetching.find? fun f => f.ring % 1024 == g && f.idx == i) = some f → fetchedData e sg pr = some d → (ringOrGone s f.ring).isSome = true →
    Does (.fetchDataReturn g i e sg pr) s fun t => t = { s with plan := { s.plan with fetching := t.plan.fetching, fetched := t.plan.fetched } } ∧
      t.plan.fetched = s.plan.fetched ++ [⟨f.ring, i, d, s.beat⟩] ∧ f ∉ t.plan.fetching ∧ ∀ k ∈ s.plan.fetching, k ≠ f → k ∈ t.plan.fetching) ∧
  (∀ s g r h f, getRing s g = some r → r.held = some h → h.since + nvVal s 0x02000007 ≤ s.beat → s.therm.hotAt = none → s.power.lost = false → r.hold = true → r.st = .active → r.rst = none →
    getFn s r.fn = some f → f.writable = true → compsFull s = false →
    Does (.holdTimeout g) s fun t => (∃ k l, t.out = s.out ++ .completion g r.cqTail k :: l ∧ k.status = h.cause ∧ k.admSeq = 0 ∧ k.cid = h.data.entry.cid) ∧
      (∃ q, getRing t g = some q ∧ q.held = none ∧ q.sqHead = (r.sqHead + 1) % r.sqSize ∧ q.deficit = r.deficit - 1) ∧ t.plan.refused = satAdd s.plan.refused 1 ∧
      t.plan.admSeq = s.plan.admSeq ∧ t.ctxs = s.ctxs) ∧
  (∀ w o d r, checks w.st o d = some r → decideOne w o d = { w with st := postRefusal (decidedHead (spend w.st o 1) o) o d.entry r }) ∧
  (∀ w o d t x g r, checks w.st o d = none → decideRoom w.st o d = .take t x → o.src = .ring g → x.ringOf = some g → getRing w.st g = some r → r.st = .active →
    x.entry.isAdm 0x81 = false → x.entry.isAdm 0x82 = false → t.st.plan.admSeq = w.st.plan.admSeq → t.st.rings = w.st.rings →
    (decideOne w o d).st.ctxs = t.st.ctxs ++ [x] ∧ (decideOne w o d).admits = w.admits + 1 ∧
      (decideOne w o d).st.plan.admSeq = w.st.plan.admSeq + 1 ∧ (decideOne w o d).st.out = t.st.out) ∧
  (∀ w o d st g r, checks w.st o d = none → decideRoom w.st o d = .cause st → st ≠ St.noSpace → o.src = .ring g → getRing w.st g = some r → r.hold = true →
    r.st = .active →
    (decideOne w o d).stop = true ∧ (decideOne w o d).st.out = w.st.out ∧
      ∃ q h, getRing (decideOne w o d).st g = some q ∧ q.held = some h ∧ h.cause = st ∧ h.data = d ∧ q.sqHead = r.sqHead) ∧
  (∀ s, serving s = false → (s.day.sealed = none ∨ s.day.fatal = true) → exec .plannerBeatCycle s = .next (busBeat s)) ∧
  (∀ s, serving s = false → s.day.sealed.isSome = true → s.day.fatal = false → ∃ u,
    u = (if s.day.puntyOn ∧ s.twin.hbStopped = false then heartbeat s else s) ∧
    exec .plannerBeatCycle s = .next (busBeat (ckptBeat (careBeat (sysBeat u))))) ∧
  (∀ s, serving s = true → ∃ u v w, u = countSuspends (passHoldback (laySpans 64 (sampleDoorbells (stoppedEngines (twinBeat (wornCheck (wearCheck (holdOps (armLowers s))))))))) ∧
    v = (if s.plan.stopped then u else decideBeat u) ∧ w = careOffer (retryOps (replBeat (initSweep (armedDrain v))) false) ∧
    exec .plannerBeatCycle s = .next (busBeat (ckptBeat (careBeat (sysBeat (journalOut w (if w.power.jthrough then 1 else 128))))))) ∧
  (∀ s, (∀ x ∈ s.flash.dies, x.dark = true ∨ x.ops = []) → busBeat s = s)

/-- For every state: with the core clock a BEAT_TICK adds one to BEAT and to the beats counted for the time of day,
takes the measured voltages and input power, drops the bookings whose window is over, ages the pins of filled ways
by one and notes a heartbeat edge; no ring, map, stored slot or setting changes where no setting, time-of-day
request, conditional update, oct to drain or module reset waits and no USB4 port is up, and of the contexts, where
none has bytes to move, only the counts of a beat start anew. A CRYSTAL_TICK then does nothing. Without the core
clock it is the other way round: a CRYSTAL_TICK adds the whole beats of 1,000,000/131,072 and keeps the 17-bit
fraction, so that the addition is exact, after a hot stop too (R18). -/
def Obligations.TimePasses : Prop :=
  (∀ s a b w hb, s.power.aonPowered = true → coreClock s = true → s.day.pendReq = none → s.plan.resetAfter = false → s.due = [] →
    s.care.cond = [] → (∀ k < 16, (getOct s k).toDrain = false) → (∀ u < 2, (getLink s (4 + u)).st < 2) →
    Does (.beatTick a b w hb) s fun t =>
      t = { s with beat := s.beat + 1, day := { s.day with res := t.day.res }, power := t.power, plan := { s.plan with near := t.plan.near }, ctxs := t.ctxs, zci := { s.zci with ended := [], units := [] }, movers := t.movers, media := { s.media with tries := t.media.tries }, xlat := { s.xlat with ways := t.xlat.ways }, links := t.links, twin := t.twin, fns := t.fns, side := t.side, out := t.out } ∧
      t.day.res = vset s.day.res s.day.day.code (satAdd (vget s.day.res s.day.day.code 0) 1) ∧
      t.power.inputMw = w ∧ t.power.halves[0].mv = a ∧ t.power.halves[1].mv = b ∧
      ((∀ x ∈ s.ctxs, x.left = 0) → t.ctxs = s.ctxs.map (Ctx.carry s s.beat) ∧ t.movers = s.movers ∧
        t.plan.near = s.plan.near.filter (fun k => decide (windowStart k.res (s.beat + 1) ≤ k.beat))) ∧
      t.xlat.ways = s.xlat.ways.map (fun k => { k with pins := k.pins - 1 }) ∧
      t.twin.lastEdge = (if hb then s.beat + 1 else s.twin.lastEdge)) ∧
  (∀ s a b w hb, s.power.aonPowered = true → coreClock s = true → Does (.beatTick a b w hb) s fun t => t.beat = s.beat + 1) ∧
  (∀ s a b w hb, s.power.aonPowered = false ∨ coreClock s = false → Idle (.beatTick a b w hb) s) ∧
  (∀ s, s.power.aonPowered = true → coreClock s = false → hotStopped s = false →
    Does .crystalTick s fun t =>
      t = { s with beat := s.beat + (s.beatFrac + 1000000) / 131072, beatFrac := (s.beatFrac + 1000000) % 131072, day := { s.day with res := t.day.res } }) ∧
  (∀ s, s.power.aonPowered = true → coreClock s = false →
    Does .crystalTick s fun t => t.beat * 131072 + t.beatFrac = s.beat * 131072 + s.beatFrac + 1000000 ∧ t.beatFrac < 2 ^ 17) ∧
  (∀ s, s.power.aonPowered = false ∨ coreClock s = true → Idle .crystalTick s)

/-- For every state and context: a command still running or waiting at D, of a bounded class, of whose write-through
programs darkness took none away, takes fault 0x06 with its transfers dropped, or ends with the outcome of its
reads where all they await is deep recovery; one of whose programs darkness did take away ends DOMAIN_OFF with the
offset of the first granule not verified and their count. One that has posted all but the twin's acknowledgement
posts on this module's own copy, the module then SOLO. A download block not stored by D has STATE with detail 3 as
its POST to come and the block counts as interrupted. Before D nothing changes. A D7 command not terminal at its
internal D gets a new one 8,191 beats after the last beat booked for it. A D1 write whose twin has not
acknowledged by the end of A + 6 while mirroring makes the module SOLO, and no write waits for the twin any longer
(02_beat_admission.md, 05_zci_instructions.md, 04_zci_machine.md, 16_boot_flash_firmware.md, 12_twin_cane.md). -/
def Obligations.DeadlinesPass : Prop :=
  (∀ s c x, getCtx s c = some x → x.dOpen = false → x.dline ≤ s.beat → (x.wait = .ready ∨ x.wait = .resident ∨
      x.wait = .instr ∧ tookDark s x = false ∨ x.wait = .posting ∧ tookDark s x = false ∧ durable s x = false ∧ awaitsTwin s x = false) →
    ¬ (x.wait = .resident ∧ x.entry.typ = 4 ∧ x.entry.op = 0x8C) → (readsDone x = true ∨ readsDone (leaveDeep s x) = false) →
    exec (.contextDeadline c) s = .next (faultCtx (dropDescs s c) c 0x06)) ∧
  (∀ s c x, getCtx s c = some x → x.dOpen = false → x.dline ≤ s.beat → (x.wait = .ready ∨ x.wait = .resident ∨
      x.wait = .instr ∧ tookDark s x = false ∨ x.wait = .posting ∧ tookDark s x = false ∧ durable s x = false ∧ awaitsTwin s x = false) →
    ¬ (x.wait = .resident ∧ x.entry.typ = 4 ∧ x.entry.op = 0x8C) → readsDone x = false → readsDone (leaveDeep s x) = true →
    exec (.contextDeadline c) s = .next (deepEnd (modCtx (dropDescs s c) c fun _ => leaveDeep s x) (leaveDeep s x))) ∧
  (∀ s c x, getCtx s c = some x → x.dOpen = false → x.dline ≤ s.beat → (x.wait = .instr ∨ x.wait = .posting) → tookDark s x = true → awaitsTwin s x = false →
    exec (.contextDeadline c) s = .next (endWith (modCtx s c fun y => { y with mirrorWait := [] }) c St.domainOff 0 (BitVec.ofNat 64
      (((unverified s x).foldl min ((unverified s x).head?.getD 0) - x.entry.lba.toNat) % 2 ^ 32 + (unverified s x).length * 2 ^ 32)))) ∧
  (∀ s c x, getCtx s c = some x → x.dOpen = false → x.dline ≤ s.beat → x.wait = .resident → x.entry.typ = 4 → x.entry.op = 0x8C →
    Posts (.contextDeadline c) s c St.state 3 0 (fun t => { s with ctxs := t.ctxs, movers := t.movers, nor := s.nor.interrupt }) fun _ => True) ∧
  (∀ s c x, getCtx s c = some x → (x.dOpen = true ∨ s.beat < x.dline ∨ x.wait = .fixed ∨ x.wait = .posting ∧ tookDark s x = false ∧ durable s x = true ∧ awaitsTwin s x = false) →
    Idle (.contextDeadline c) s) ∧
  (∀ s c x, getCtx s c = some x → x.dOpen = false → x.dline ≤ s.beat → x.wait = .posting → awaitsTwin s x = true →
    exec (.contextDeadline c) s = .next (post (toSolo (endAsked s St.twinUnavailable 0) false) c) ∧
      (toSolo (endAsked s St.twinUnavailable 0) false).twin.st = .solo ∧ ∀ y ∈ (toSolo (endAsked s St.twinUnavailable 0) false).ctxs, y.mirrorWait = []) ∧
  (∀ s c x, getCtx s c = some x → x.dOpen = true → x.wait ≠ .fixed → x.dline ≤ s.beat →
    Does (.d7DeadlineExtend c) s fun t => ∃ y, getCtx t c = some y ∧ y = { x with dline := y.dline, postBeat := y.postBeat, eventBeat := y.eventBeat, commitBeat := y.commitBeat } ∧ s.beat + 8191 ≤ y.dline) ∧
  (∀ s c x, getCtx s c = some x → x.dOpen = true → x.wait ≠ .fixed → x.dline ≤ s.beat → x.entry.isProg = false → x.reads.filter (unqueued s x) = [] → x.wait = .posting →
    Lands (.d7DeadlineExtend c) s c { x with dline := lastBooked s x.adm s.beat + 8191 }) ∧
  (∀ s c x u, getCtx s c = some x → x.dOpen = true → x.wait ≠ .fixed → x.dline ≤ s.beat → x.entry.isProg = false → x.reads.filter (unqueued s x) = [] → x.wait ≠ .posting →
    u = extendMoves s x → exec (.d7DeadlineExtend c) s = .next (modCtx u c fun y => { y with dline := lastBooked u x.adm s.beat + 8191 })) ∧
  (∀ s c x, getCtx s c = some x → (x.dOpen = false ∨ s.beat < x.dline) → Idle (.d7DeadlineExtend c) s) ∧
  (∀ s c x p, getCtx s c = some x → x.entry.cls = 1 → mirroring s = true → x.admBeat + 7 ≤ s.beat → p ∈ x.mirrorWait → s.twin.ackedPseq < p →
    s.twin.attachBy = none → s.twin.detachBy = none →
    Does (.twinAckTimeout c) s fun t => t.twin.st = .solo ∧ (∀ y ∈ t.ctxs, y.mirrorWait = []) ∧ t.twin.asked = 0 ∧
      t.twin.retryAt = s.beat + nvVal s 0x0B000007 ∧ t.twin.stale = s.twin.stale ∧ t.ctxs = s.ctxs.map fun y => { y with mirrorWait := [] })

/-- For every state and die: at the beat of a suspend the die that is suspended changes nothing, and one that is not
goes on, the reads suspended for left to their fallback. Otherwise, before the booked occupancy of its next
operation ends nothing changes. At the end a read counts one page read of its block, and one not ready leaves the
slots that wait for it to their fallback; a program or erase still busy is late, counted once and told to reset;
an erase that passed outside a band gives the block one more PE, its counts zero and ERASED, its slots empty; a
failed erase or program counts; one that covers blocks of several planes does so for each. A program or an erase
busy at four times its occupancy, its suspensions not counted, gets RESET at the die and counts as failed; a die
reset a second time within 1,000,000 beats, or not ready 250 beats after its RESET, goes dark alone
(09_flash_channels.md, 08_care.md). -/
def Obligations.ArrayOutcomes : Prop :=
  (∀ s die d o k b, getDie s die = some d → suspending s d = some (o, k) → Idle (.arrayStatus die true b) s ∧
    exec (.arrayStatus die false b) s = .next (suspendFailed s die o k)) ∧
  (∀ s die d o k b, getDie s die = some d → suspending s d = some (o, k) → s.ctxs = [] →
    Does (.arrayStatus die false b) s fun t => getDie t die = some { d with
      ops := updIf (· == o) (fun p => { p with susps := p.susps.erase k, busy := p.busy - k.len }) (d.ops.filter fun p => !k.holds p) }) ∧
  (∀ s die d o a b, getDie s die = some d → suspending s d = none → dueOp d = some o → s.beat < o.start + o.busy → Idle (.arrayStatus die a b) s) ∧
  (∀ s die d o b, getDie s die = some d → suspending s d = none → dueOp d = some o → o.start + o.busy ≤ s.beat → o.kind = .read → stored s 0x07000016 = 0 → stored s 0x07000017 = 0 →
    Does (.arrayStatus die true b) s fun t => t = { s with flash := t.flash, care := t.care } ∧ getDie t die = some { d with ops := d.ops.erase o } ∧
      getBlock t (blockIdx die o.block) = { getBlock s (blockIdx die o.block) with rdCount := min ((getBlock s (blockIdx die o.block)).rdCount + 1) (2 ^ 32 - 1) }) ∧
  (∀ s die d o b, getDie s die = some d → suspending s d = none → dueOp d = some o → o.start + o.busy ≤ s.beat → o.kind = .read →
    exec (.arrayStatus die true b) s = .next (countRead (popOp s die o) die o.block) ∧
    exec (.arrayStatus die false b) s = .next (fallbackWhere (countLate (countRead (popOp s die o) die o.block)) fun psa =>
      psaDie psa == die && psaBlock psa == o.block && psaPage psa == o.page)) ∧
  (∀ s die d o b, getDie s die = some d → suspending s d = none → dueOp d = some o → o.start + o.busy ≤ s.beat → o.kind ≠ .read → o.reset = true → Idle (.arrayStatus die false b) s) ∧
  (∀ s die d o b, getDie s die = some d → suspending s d = none → dueOp d = some o → o.start + o.busy ≤ s.beat → o.kind ≠ .read → o.reset = false →
    Does (.arrayStatus die false b) s fun t => t = { s with flash := t.flash } ∧ t.flash.lateOps = satAdd s.flash.lateOps 1 ∧
      getDie t die = some { d with ops := updIf (· == o) (fun p => { p with reset := true }) d.ops }) ∧
  (∀ s die d o, getDie s die = some d → suspending s d = none → dueOp d = some o → o.start + o.busy ≤ s.beat → o.kind = .erase → o.also = [] →
    (s.media.bands.find? fun k => k.columns.contains (die, o.block)) = none → (getBlock s (blockIdx die o.block)).candidate = false →
    nvVal s 0x0700001D = 0 → s.care.worn = false →
    Does (.arrayStatus die true false) s fun t => t = { s with flash := t.flash, care := t.care, media := { s.media with slots := t.media.slots, raw := t.media.raw } } ∧
      (getBlock t (blockIdx die o.block)).pe = (getBlock s (blockIdx die o.block)).pe + 1 ∧ (getBlock t (blockIdx die o.block)).st = .erased ∧
      (getBlock t (blockIdx die o.block)).rdCount = 0 ∧ (getBlock t (blockIdx die o.block)).depth = 0 ∧ t.care.erases = satAdd s.care.erases 1 ∧
      t.media.slots = s.media.slots.filter fun p => !(psaDie p.1 == die && psaBlock p.1 == o.block)) ∧
  (∀ s die d o, getDie s die = some d → suspending s d = none → dueOp d = some o → o.start + o.busy ≤ s.beat → o.kind = .erase →
    exec (.arrayStatus die true false) s = .next ((o.block :: o.also).foldl (fun s b => erasePassed s die b) (popOp s die o)) ∧
    exec (.arrayStatus die true true) s = .next ((o.block :: o.also).foldl (fun s b => eraseFailed s die b) (popOp s die o))) ∧
  (∀ s die d o, getDie s die = some d → suspending s d = none → dueOp d = some o → o.start + o.busy ≤ s.beat → o.kind = .program →
    exec (.arrayStatus die true false) s = .next ((o.block :: o.also).foldl (fun s b => programPassed s die b o.page) (popOp s die o)) ∧
    exec (.arrayStatus die true true) s = .next ((o.block :: o.also).foldl (fun s b => programFailed s die b) (popOp s die o))) ∧
  (∀ s die d l r, getDie s die = some d → l = (d.ops.find? fun p => p.kind != .read && decide (p.start + p.busy ≤ s.beat) && decide (p.start + 4 * p.occ ≤ s.beat)) →
    (∀ o v, l = some o → v = (o.block :: o.also).foldl (fun u b => if o.kind = .program then programFailed u die b else eraseFailed u die b)
        (emit (modDie (popOp s die o) die fun k => { k with resetAt := some s.beat }) (.nand die 0xFF 0 [])) →
      ((∀ b, d.resetAt = some b → b + 1000000 < s.beat) → exec (.lateOpReset die r) s = .next v) ∧
      ((∃ b, d.resetAt = some b ∧ s.beat ≤ b + 1000000) → exec (.lateOpReset die r) s = .next (dieDark v die))) ∧
    (l = none → d.resetAt = some (s.beat - 250) → 250 ≤ s.beat → d.dark = false → exec (.lateOpReset die false) s = .next (dieDark s die)) ∧
    (l = none → (r = true ∨ d.dark = true ∨ ∀ b, d.resetAt = some b → s.beat ≠ b + 250) → Idle (.lateOpReset die r) s)) ∧
  (∀ s die d o r, getDie s die = some d → (d.ops.find? fun p => p.kind != .read && decide (p.start + p.busy ≤ s.beat) && decide (p.start + 4 * p.occ ≤ s.beat)) = some o →
    (s.media.bands.find? fun k => k.columns.contains (die, o.block)) = none → d.resetAt = none → o.kind = .erase → o.also = [] →
    Does (.lateOpReset die r) s fun t => .nand die 0xFF 0 [] ∈ t.out ∧ t.care.eraseFails = satAdd s.care.eraseFails 1 ∧
      (getBlock t (blockIdx die o.block)).st = .retired ∧ (getBlock t (blockIdx die o.block)).rcause = 2 ∧
      getDie t die = some { d with ops := d.ops.erase o, resetAt := some s.beat })

/-- For every state: a slot that one read outside D5 waits for, decoded at step 1 with its CRC and passing the slot
check, is delivered with its bytes and tag to that read, with one hard decode counted; not converged it is left to
the fallback of R59 with a failed hard decode counted, and a hard decode too unless the slot reads as erased; one
that no context waits for is care work's, which goes on to steps 2 to 4 after a hard decode that does not
converge, and nothing's where no care read awaits it. Deep recovery of a granule still named at the failed place,
with no read waiting and every column readable, marks the granule unrecoverable and ends when every step failed,
its read waiting for the column while one is dark; delivered, its D5 readers have it and the granule's copy is
placed. A released gather slot outside the write window stays; within it, placed, each slot of its granule takes
its PSA (07_media_format.md, 02_beat_admission.md). -/
def Obligations.DecodedSlots : Prop :=
  (∀ s psa zeros iter c gran part x r, Assoc.get s.media.slots psa = some r → nvVal s 0x06000008 < zeros → readingSlots s (· == psa) = [(c, gran, part)] →
    aroundPlaces s = [] → s.media.tries = [] →
    getCtx s c = some x → x.entry.cls ≠ 5 → r.gone = false → placeCheck (useKey s r.nsid r.epoch) psa r = true → requestCheck (useKey s r.nsid r.epoch) c gran part r = true →
    Does (.slotDecode psa zeros 1 iter true) s fun t =>
      t = { s with ctxs := t.ctxs, media := { s.media with hardDecodes := satAdd s.media.hardDecodes 1 }, care := t.care, sec := t.sec, plan := { s.plan with near := t.plan.near, far := t.plan.far } } ∧
      getCtx t c = some { x with reads := updIf (fun k => k.gran == gran) (fun k => { k with slots := k.slots.set part .direct, tag := r.tag, bytes := Mem.splice k.bytes (4096 * part) 4096 (Mem.slice r.bytes 0 4096 0) }) x.reads } ∧
      ∀ d, d ≠ c → getCtx t d = getCtx s d) ∧
  (∀ s psa zeros iter b c gran part x r, Assoc.get s.media.slots psa = some r → readingSlots s (· == psa) = [(c, gran, part)] →
    aroundPlaces s = [] → s.media.tries = [] → getCtx s c = some x → x.entry.cls ≠ 5 →
    exec (.slotDecode psa zeros 0 iter b) s = .next (fallbackSlot (countDecode (useKey s r.nsid r.epoch) false (decide (zeros ≤ nvVal s 0x06000008)) false) c gran part)) ∧
  (∀ s psa zeros step iter b r, Assoc.get s.media.slots psa = some r → readingSlots s (· == psa) = [] → aroundPlaces s = [] → s.media.tries = [] →
    (step ≠ 2 ∨ nvVal s 0x06000009 ≠ 0) →
    exec (.slotDecode psa zeros step iter b) s = .next (careDecode (useKey s r.nsid r.epoch) psa step iter b (decide (zeros ≤ nvVal s 0x06000008)) r)) ∧
  (∀ s psa zeros iter b r e, Assoc.get s.media.slots psa = some r → readingSlots s (· == psa) = [] → aroundPlaces s = [] → s.media.tries = [] →
    (s.care.reads.find? fun e => e.psa == psa && e.use != .deep && e.booked && !e.done && decide (e.stage ≤ 2)) = some e → e.stage = 0 →
    exec (.slotDecode psa zeros 0 iter b) s = .next (modRead (useKey s r.nsid r.epoch) e fun k => { k with stage := 1, booked := false })) ∧
  (∀ s psa zeros step iter b r, Assoc.get s.media.slots psa = some r → readingSlots s (· == psa) = [] → aroundPlaces s = [] → s.media.tries = [] →
    (s.care.reads.find? fun e => e.psa == psa && e.use != .deep && e.booked && !e.done && decide (e.stage ≤ 2)) = none →
    (step ≠ 2 ∨ nvVal s 0x06000009 ≠ 0) → exec (.slotDecode psa zeros step iter b) s = .next (useKey s r.nsid r.epoch)) ∧
  (∀ s idx d ns, (s.xlat.deep.find? fun k => k.idx == idx) = some d → getNs s d.nsid = some ns → mapIdx ns d.gran = idx → mapGet s idx = .media d.psa →
    waitingSlots s (fun p => decide (d.psa ≤ p) && decide (p < d.psa + ns.gslots)) = [] → columnDark s d.psa = false → s.xlat.unrecov.contains idx = false →
    Does (.deepRecoveryDone idx false) s fun t => t.xlat.unrecov = s.xlat.unrecov ++ [idx] ∧ t.xlat.deep = s.xlat.deep.filter (fun k => k.idx != idx) ∧
      t.xlat.map = s.xlat.map ∧ t.media = s.media ∧ t.ctxs = s.ctxs ∧ (∃ j, t.xlat.staging = s.xlat.staging ++ [j] ∧ j.typ = .unrecov ∧ j.nsid = ns.nsid ∧ j.lba = d.gran)) ∧
  (∀ s idx d ns, (s.xlat.deep.find? fun k => k.idx == idx) = some d → getNs s d.nsid = some ns → mapGet s idx = .media d.psa → copyPending s d.psa = false →
    waitingSlots s (fun p => decide (d.psa ≤ p) && decide (p < d.psa + ns.gslots)) = [] →
    ∃ u, u = (modDeepRead s d.psa fun e => { e with done := true }) ∧ exec (.deepRecoveryDone idx true) s = .next (match placeCopy u ns d.psa with
      | some (_, v) => v
      | none => u)) ∧
  (∀ s idx d ns, (s.xlat.deep.find? fun k => k.idx == idx) = some d → getNs s d.nsid = some ns → columnDark s d.psa = true →
    exec (.deepRecoveryDone idx false) s = .next (modDeepRead s d.psa fun e => { e with stage := 3, booked := false })) ∧
  (∀ s idx d ns u, (s.xlat.deep.find? fun k => k.idx == idx) = some d → getNs s d.nsid = some ns → u = deepAnswer (modDeepRead s d.psa fun e => { e with done := true }) idx d.psa ns d.gran true →
    exec (.deepRecoveryDone idx true) s = .next (if mapGet u idx = .media d.psa ∧ copyPending u d.psa = false then ((placeCopy u ns d.psa).map Prod.snd).getD u else u)) ∧
  (∀ s slot, s.therm.window = false → s.day.sealed = none → Idle (.gatherSlotPlace slot) s) ∧
  (∀ s slot g ns, (s.xlat.gather.find? fun k => k.slot == slot) = some g → g.atom = false → g.psa = none → g.part = 0 → (g.mapped = true ∨ g.through = true) →
    (s.therm.window = true ∨ s.day.sealed.isSome = true) → getNs s g.nsid = some ns →
    Does (.gatherSlotPlace slot) s fun t => ∀ r, r = placeRecs s (if g.through then 3 else g.profile) false ns.sideB
        (g.through && !(s.xlat.gather.any fun h => h.through && !h.atom && h.psa.isNone && !(decide (slot ≤ h.slot) && decide (h.slot < slot + ns.gslots)))) (((List.range ns.gslots).filterMap fun i => s.xlat.gather.find? fun h => h.slot == slot + i).map (gatherRec s)) →
      (r = none → t = s) ∧ ∀ q u, r = some (q, u) → t = { u with xlat := { u.xlat with gather := t.xlat.gather } } ∧
        t.xlat.gather = u.xlat.gather.map fun h => if slot ≤ h.slot ∧ h.slot < slot + ns.gslots then { h with psa := some (q + (h.slot - slot)) } else h)

/-- For every state: a band chosen as victim that still holds a valid slot, a system slot that is needed, or is
pinned, and any victim outside the write window or Noon and Dusk, stays as it is; otherwise, empty and unpinned,
it is ERASING, the erase of each block on a usable die booked or waiting for beats. The wear-levelling gap is
computed every 2^20 beats: wear levelling starts at CARE_WL_START and ends at CARE_WL_STOP; without a CLOSED band
the check alone is done. A patrol pass starts when the one before is over, no read of it left but those that wait
for a dark column, and its period has passed, with all its sample pages left; at a window's start an even share of
the pages left falls due. At a window's end outside Midnight and Dawn the thermal clock gains 1,024 times the rate
of the window's highest reading (08_care.md). -/
def Obligations.CareWork : Prop :=
  (∀ s n b, getBand s n = some b → (b.st ≠ .victim ∨ b.valid ≠ 0 ∨ sysHeld s b = true ∨ bandPinned s b = true ∨ s.therm.window = false ∨ careRuns s = false) → Idle (.victimEmptied n) s) ∧
  (∀ s n, getBand s n = none → Idle (.victimEmptied n) s) ∧
  (∀ s n b, getBand s n = some b → b.st = .victim → b.valid = 0 → sysHeld s b = false → bandPinned s b = false → s.therm.window = true → careRuns s = true →
    exec (.victimEmptied n) s = .next (freeSerial (b.columns.foldl (fun s c => if (getBlock s (blockIdx c.1 c.2)).st == .banded && dieUsable s c.1 then bookErase s c.1 c.2 else s)
      (unlistBand (modBand s n fun b => { b with st := .erasing }) n)) n)) ∧
  (∀ s n b die blk, getBand s n = some b → b.st = .victim → b.valid = 0 → sysHeld s b = false → bandPinned s b = false → s.therm.window = true → careRuns s = true → b.columns = [(die, blk)] →
    (getBlock s (blockIdx die blk)).st = .banded → dieUsable s die = true →
    Does (.victimEmptied n) s fun t => getBand t n = some { b with st := .erasing } ∧ ((∃ d, getDie t die = some d ∧ ∃ o ∈ d.ops, o.kind = .erase ∧ (o.block :: o.also).contains blk = true) ∨
        ∃ w ∈ t.flash.waiting, w.die = die ∧ w.op.kind = .erase ∧ w.op.block = blk) ∧
      t.xlat.map = s.xlat.map ∧ (∀ g ∈ t.xlat.gens, g.bands.contains n = false) ∧ t.ctxs = s.ctxs ∧ t.media.slots = s.media.slots) ∧
  (∀ s, s.beat - s.care.wlChecked < 2 ^ 20 → Idle .wearLevelCheck s) ∧
  (∀ s, 2 ^ 20 ≤ s.beat - s.care.wlChecked → leastBy (bandPe s) (s.media.bands.filter fun k => k.st == .closed) = none →
    exec .wearLevelCheck s = .next { s with care := { s.care with wlChecked := s.beat } }) ∧
  (∀ s b, 2 ^ 20 ≤ s.beat - s.care.wlChecked → leastBy (bandPe s) (s.media.bands.filter fun k => k.st == .closed) = some b →
    exec .wearLevelCheck s = .next { s with care := { s.care with wlChecked := s.beat, wlOn := if nvVal s 0x0700000E ≤ ((poolPe s : Int) - bandPe s b) then true else if (poolPe s : Int) - bandPe s b ≤ nvVal s 0x0700000F then false else s.care.wlOn } }) ∧
  (∀ s, s.care.passLeft ≠ 0 ∨ (∃ e ∈ s.care.reads, e.use = .patrol ∧ e.stage ≠ 3) ∨ s.care.pass ≠ 0 ∧ s.beat < s.care.passStart + s.care.passPeriod → Idle .patrolPassStart s) ∧
  (∀ s, s.care.passLeft = 0 → (∀ e ∈ s.care.reads, e.use = .patrol → e.stage = 3) → (s.care.pass = 0 ∨ s.care.passStart + s.care.passPeriod ≤ s.beat) →
    Does .patrolPassStart s fun t => t = { s with care := t.care } ∧ t.care.patrolDue = 0 ∧ t.care.schedAt = s.beat ∧ t.care.schedPages = t.care.passLeft ∧
      t.care.passed = (s.care.passed || decide (s.care.pass ≠ 0)) ∧ t.care.reads = s.care.reads ∧ t.care.pass = (s.care.pass + 1) % 2 ^ 32 ∧
      t.care.passStart = s.beat ∧ t.care.passLeft = nvVal s 0x07000012 * (patrolBlocks s).length ∧ t.care.passPages = nvVal s 0x07000012 ∧
      t.care.passPeriod = nvVal s 0x07000011 * 21600000 ∧ t.care.lastSampled = s.care.passSampled ∧
      t.care.passSampled = 0 ∧ t.care.blocks = s.care.blocks) ∧
  (∀ s, careRuns s = false ∨ s.beat % 1024 ≠ 0 ∨ s.care.passLeft = 0 → Idle .patrolWindow s) ∧
  (∀ s, careRuns s = true → s.beat % 1024 = 0 → s.care.passLeft ≠ 0 →
    exec .patrolWindow s = .next { s with care := { s.care with patrolDue := min s.care.passLeft (ceilDiv (s.care.passLeft * 1024) (max (s.care.passStart + s.care.passPeriod - s.beat) 1024)), lag := patrolLag s } }) ∧
  (∀ s, s.beat % 1024 ≠ 0 ∨ s.day.day = .midnight ∨ s.day.day = .dawn → Idle .tclkWindow s) ∧
  (∀ s, s.beat % 1024 = 0 → s.day.day ≠ .midnight → s.day.day ≠ .dawn →
    Does .tclkWindow s fun t => t = { s with care := t.care, media := { s.media with bands := t.media.bands } } ∧
      t.care.tclk = s.care.tclk + 1024 * thermalAf (s.care.tMax / 16) (nvVal s 0x07000019) ∧ t.care.tMax = (carrierT s).getD 640 ∧
      (∀ b ∈ t.media.bands, ∃ c ∈ s.media.bands, b = c ∨ b = { c with refresh := true }))

/-- For every state: a filled line of a namespace whose CRC holds and whose entries are legal, or that lies at or
above INITLINES, is cached in a way of its set; one that fails is suspect, counted, and not cached; a suspect line
is rebuilt from the newest checkpoint and the journal and suspect no more. A due checkpoint cycle, none other nor
its care records being written, starts with the next generation at this beat and stages CK_BEGIN; its end, once
all its slots are placed and verified, stages CK_END and, at once or in journal-through once journaled, stores the
generation as written with its care records begun, and starts to write the anchor that names it, the older
generations and the anchor so far kept. Recovery acts in Dawn step 5 only; where no path can complete it stops as
fatal with cause 2; otherwise the module is in Noon, its cache, gather buffer, suspects and deep recoveries empty
of what stood before (06_translation.md, 16_boot_flash_firmware.md). -/
def Obligations.MapLinesAndCheckpoints : Prop :=
  (∀ s k n b w, lineNs s k = some n → lineCached s k = false → fillWay s (lineSet k) = some w → ((b = true ∧ lineGood s k = true) ∨ nsLine0 n + n.initLines ≤ k) →
    Does (.mapLineFill k b) s fun t => t = { s with xlat := { s.xlat with ways := t.xlat.ways, plru := t.xlat.plru, misses := satAdd s.xlat.misses 1 } } ∧
      lineCached t k = true ∧ { set := lineSet k, way := w, line := k, pins := 2 } ∈ t.xlat.ways) ∧
  (∀ s k n b, lineNs s k = some n → lineCached s k = false → (b = true ∧ lineGood s k = true ∨ nsLine0 n + n.initLines ≤ k) → exec (.mapLineFill k b) s = .next (placeLine s k)) ∧
  (∀ s k n b, lineNs s k = some n → lineCached s k = false → k < nsLine0 n + n.initLines → (b = false ∨ lineGood s k = false) →
    Does (.mapLineFill k b) s fun t => t.xlat.suspect.contains k = true ∧ lineCached t k = false ∧ t.xlat.crcErrors = satAdd s.xlat.crcErrors 1 ∧
      t.xlat.map = s.xlat.map ∧ t = { s with xlat := t.xlat, ctxs := t.ctxs }) ∧
  (∀ s k b, lineNs s k = none ∨ lineCached s k = true → Idle (.mapLineFill k b) s) ∧
  (∀ s k, s.xlat.suspect.contains k = false → Idle (.lineRebuild k) s) ∧
  (∀ s k, s.xlat.suspect.contains k = true → Does (.lineRebuild k) s fun t => t = { s with xlat := { s.xlat with map := t.xlat.map, suspect := s.xlat.suspect.filter (· != k) } } ∧
    (lineNs s k = none → t.xlat.map = s.xlat.map) ∧
    (∀ n, lineNs s k = some n → (∀ e, e < 12 → (Assoc.get t.xlat.map (12 * k + e)).getD .unmapped = (Assoc.get (rebuiltLine s n k) (12 * k + e)).getD .unmapped) ∧
      ∀ i, i / 12 ≠ k → Assoc.get t.xlat.map i = Assoc.get s.xlat.map i)) ∧
  (∀ s, s.xlat.ck.isSome = true ∨ s.care.recWrite.isSome = true ∨ ckptDue s = false → Idle .checkpointStart s) ∧
  (∀ s, s.xlat.ck = none → s.care.recWrite = none → ckptDue s = true →
    Does .checkpointStart s fun t => t = { s with xlat := t.xlat, twin := t.twin, movers := t.movers } ∧
      (∃ j, t.xlat.staging = s.xlat.staging ++ [j] ∧ j.typ = .ckBegin ∧ j.value = (s.xlat.ckGen + 1) % 2 ^ 32) ∧ t.xlat.ckStart = s.beat ∧ t.xlat.ckWant = false ∧
      t.xlat.ck = some { gen := (s.xlat.ckGen + 1) % 2 ^ 32, nextLine := 0, rate := if s.day.sealed.isSome then 64 else nvVal s 0x05000009, beginJpos := nextJpos s, written := 0, seq0 := s.xlat.seq }) ∧
  (∀ s k, s.xlat.ck = some k → k.ended = false → ckptPlaced s k = true → bandsVerified s k.bands = true →
    Does .checkpointEnd s fun t => t.xlat.map = s.xlat.map ∧
      (s.power.jthrough = true → t.xlat.ck = some { k with ended := true } ∧ t.xlat.gens = s.xlat.gens ∧
        (∃ j, t.xlat.staging = s.xlat.staging ++ [j] ∧ j.typ = .ckEnd ∧ j.value = k.gen ∧ j.count = k.written ∧ j.lba = k.beginJpos)) ∧
      (s.power.jthrough = false → t.xlat.ck = none ∧ t.xlat.ckGen = k.gen ∧ norWriting t 0x02 0 = true ∧
        (∃ g, t.xlat.gens = s.xlat.gens ++ [g] ∧ g.gen = k.gen ∧ g.beginJpos = k.beginJpos ∧ g.seq0 = k.seq0 ∧ g.map = k.map ∧ g.nss = k.nss ∧ g.bands = k.bands) ∧
        t.nor.anchor = s.nor.anchor ∧ (∃ e a, t.nor.writing = s.nor.writing ++ [e] ∧ e.typ = 0x02 ∧ e.key = 0 ∧ e.value = anchorBody a ∧ a.gen = k.gen ∧ a.beginJpos = k.beginJpos) ∧
        (∃ w, t.care.recWrite = some w ∧ w.next = 0 ∧ w.set.gen = k.gen ∧ w.set.blocks = s.care.blocks) ∧ t.care.recSets = s.care.recSets)) ∧
  (∀ s, s.xlat.ck = none → Idle .checkpointEnd s) ∧
  (∀ s k, s.xlat.ck = some k → (k.ended = true ∨ ckptPlaced s k = false ∨ bandsVerified s k.bands = false) → Idle .checkpointEnd s) ∧
  (∀ s c j d, dawnAt s 5 = false → Idle (.recovery c j d) s) ∧
  (∀ s a c j d, a = c ++ j ++ d → dawnAt s 5 = true → recoverMap s a = none → exec (.recovery c j d) s = .next (goFatal s 2 1)) ∧
  (∀ s a c j d u, a = c ++ j ++ d → dawnAt s 5 = true → recoverMap s a = some u → recoveryPath u = 3 → scanLost s a = true → exec (.recovery c j d) s = .next (goFatal s 2 2)) ∧
  (∀ s a c j d u, a = c ++ j ++ d → dawnAt s 5 = true → recoverMap s a = some u → (recoveryPath u ≠ 3 ∨ scanLost s a = false) →
    Does (.recovery c j d) s fun t => t.day.day = .noon ∧ t.day.step = 0 ∧ t.beat = u.beat ∧ t.xlat.map = u.xlat.map ∧ t.plan.near = [] ∧ t.plan.far = [] ∧ t.day.puntyOn = true ∧ t.power.llBands = [] ∧
      t.xlat.ways = [] ∧ t.xlat.gather = [] ∧ t.xlat.suspect = [] ∧ t.xlat.deep = [])

/-- For every state and resident NS_CREATE that may run: where a check fails it has that status and detail as its POST
to come and nothing else changes; otherwise it takes the next key epoch and begins to write the record of the key
generated; once that is durable and the checks still hold, the namespace exists on the lowest free run of map
lines, still creating, with its capacity, KEYABLE, its record staged, every other namespace as it was, and the
POST is to come with OK; where a check fails by then, the key goes again and the POST has that failure. A resident
NS_DELETE marks the namespace as deleting, unmaps exactly its range, retires its key record, takes KEYABLE away
and has its POST to come with OK (06_translation.md, 17_security_life_cycle.md, 12_twin_cane.md). -/
def Obligations.NamespaceCommands : Prop :=
  (∀ s c x k st d, Resident s c 0x88 4 x → x.snap = 0 → createFails s x = some (st, d) → Posts (.nsCreate c k) s c st d 0 (fun t => { s with ctxs := t.ctxs }) fun _ => True) ∧
  (∀ s c x k, Resident s c 0x88 4 x → x.snap = 0 → createFails s x = none → keyOk k = true →
    Does (.nsCreate c k) s fun t => t = { s with ctxs := t.ctxs, sec := t.sec, nor := t.nor } ∧ t.sec.epochNext = newEpoch s + 2 ∧
      norWriting t 0x0D (recKey x.entry.nsid.toNat (newEpoch s)) = true ∧
      getCtx t c = some { x with snap := newEpoch s, commitBeat := some (x.commitBeat.getD s.beat) }) ∧
  (∀ s c x k, Resident s c 0x88 4 x → x.snap ≠ 0 → norWriting s 0x0D (recKey x.entry.nsid.toNat x.snap) = false → createFails s x = none →
    Does (.nsCreate c k) s fun t => (∃ m, getNs t x.entry.nsid.toNat = some m ∧ m.cap = x.entry.a0.toNat ∧ m.creating = some x.adm ∧ m.initLines = 0 ∧
        m.g16k = (x.entry.a1 == 1) ∧ some (m.mbase / 12) = lowestRun s (ceilDiv x.entry.a0.toNat 12) ∧ m.cseq = s.xlat.seq) ∧
      (∀ n, n ≠ x.entry.nsid.toNat → getNs t n = getNs s n) ∧ t.xlat.map = s.xlat.map ∧ t.sec.keyable = s.sec.keyable ++ [x.entry.nsid.toNat] ∧
      (∃ j, t.xlat.staging = s.xlat.staging ++ [j] ∧ j.typ = .nsCreate ∧ j.nsid = x.entry.nsid.toNat) ∧
      ∃ y, getCtx t c = some y ∧ y.wait = .posting ∧ y.status = St.ok) ∧
  (∀ s c x k st d, Resident s c 0x88 4 x → x.snap ≠ 0 → norWriting s 0x0D (recKey x.entry.nsid.toNat x.snap) = false → createFails s x = some (st, d) →
    Posts (.nsCreate c k) s c st d 0 (fun t => { s with ctxs := t.ctxs, sec := t.sec, nor := t.nor }) fun t => ∀ r ∈ t.sec.keyrecs, ¬ (r.nsid = x.entry.nsid.toNat ∧ r.epoch = x.snap)) ∧
  (∀ s c x k, Resident s c 0x88 4 x → x.snap ≠ 0 → norWriting s 0x0D (recKey x.entry.nsid.toNat x.snap) = true → Idle (.nsCreate c k) s) ∧
  (∀ s c x ns, Resident s c 0x89 4 x → ctxNs s x = some ns →
    Does (.nsDelete c) s fun t => (∃ m, getNs t ns.nsid = some m ∧ m.deleting = true) ∧
      (∀ i, mapGet t i = if decide (ns.mbase ≤ i) && decide (i < ns.mbase + ns.cap) then .unmapped else mapGet s i) ∧
      (∀ r ∈ t.sec.keyrecs, ¬ (r.nsid = ns.nsid ∧ r.epoch = nsEpoch s ns.nsid)) ∧ ns.nsid ∉ t.sec.keyable ∧
      ∃ y, getCtx t c = some y ∧ y.wait = .posting ∧ y.status = St.ok)

/-- For every state and resident LIB_LOAD that may run: with no bytes yet it queues its transfer on a mover engine and
sends its read requests; with its bytes arrived and a program that passes the verifier it puts the program into
its slot, unpinned, begins to write its system-area entry, its image slots wait for their places, and it has its
POST to come with OK and the number of words; with one that does not pass, the POST is ZCI_FAULT with code and
index, the failure is counted and no slot changes. A resident LIB_UNLOAD of a slot that nothing pins or calls
frees it and no other, retires the slot's entry and has its POST to come with OK (04_zci_machine.md,
16_boot_flash_firmware.md). -/
def Obligations.LibraryCommands : Prop :=
  (∀ s c x g, Resident s c 0x8A 4 x → x.snap = 0 → x.ringOf = some g → hostInDone s x (dBytes x) [] = false →
    Does (.libLoad c []) s fun t => t = { s with ctxs := t.ctxs, movers := t.movers, out := t.out } ∧ t.out = s.out ++ dataReads s x 0 (dBytes x) ∧ getCtx t c = some { x with snap := 1 } ∧
      t.movers = (beginTransfer s x false 0 (dBytes x)).movers) ∧
  (∀ s c x b k, Resident s c 0x8A 4 x → hostInDone s x (dBytes x) b = true → k = codeOfBytes (hostIn x 0 (dBytes x) b) →
    verify s { own := some x.entry.a0.toNat, admin := bit k.dmode 2, raw := rawAllowed s, limit := some 4194304, noAdminDecl := false } k = none →
    Posts (.libLoad c b) s c St.ok 0 (BitVec.ofNat 64 k.words.length)
      (fun t => { s with ctxs := t.ctxs, movers := t.movers, zci := t.zci, nor := t.nor, media := { s.media with sysWait := t.media.sysWait } }) fun t =>
      t.zci = { s.zci with lib := s.zci.lib ++ [{ slot := x.entry.a0.toNat, code := k, pins := 0 }], codeFree := s.zci.codeFree - k.pages } ∧
      t.media.sysWait = s.media.sysWait ++ imageSlots s x.entry.a0.toNat k ∧ norWriting t 0x08 x.entry.a0.toNat = true) ∧
  (∀ s c x b k f i, Resident s c 0x8A 4 x → hostInDone s x (dBytes x) b = true → k = codeOfBytes (hostIn x 0 (dBytes x) b) →
    verify s { own := some x.entry.a0.toNat, admin := bit k.dmode 2, raw := rawAllowed s, limit := some 4194304, noAdminDecl := false } k = some (f, i) →
    Posts (.libLoad c b) s c St.zciFault (BitVec.ofNat 8 f) (verifyResult x.entry.a0.toNat i) (fun t => { s with ctxs := t.ctxs, movers := t.movers, zci := t.zci }) fun t =>
      t.zci = { s.zci with verifyFails := satAdd s.zci.verifyFails 1 }) ∧
  (∀ s c x, Resident s c 0x8B 4 x → (libPinned s x.entry.a0.toNat = true ∨ libCalled s x.entry.a0.toNat = true) →
    Posts (.libUnload c) s c St.state 5 0 (fun t => { s with ctxs := t.ctxs }) fun _ => True) ∧
  (∀ s c x, Resident s c 0x8B 4 x → libPinned s x.entry.a0.toNat = false → libCalled s x.entry.a0.toNat = false →
    Posts (.libUnload c) s c St.ok 0 0 (fun t => { s with ctxs := t.ctxs, zci := t.zci, nor := t.nor }) fun t =>
      t.zci = { s.zci with lib := s.zci.lib.filter (fun l => l.slot != x.entry.a0.toNat), codeFree := s.zci.codeFree + ((getLib s x.entry.a0.toNat).map fun l => l.code.pages).getD 0 } ∧
      t.nor = { s.nor with log := s.nor.log.filter fun e => !(e.typ == 0x08 && e.key == x.entry.a0.toNat) })

/-- For every state: a resident CRYPTO_ERASE begins a new key record; once that is durable every granule of the
namespace is unmapped, the old record is gone and the POST is to come with OK. A KEY_IMPORT whose bytes have
arrived begins the record of the key they bring, or has its POST to come with the failure, counted; once durable,
the old record goes and the POST is to come with OK. An ATTEST whose nonce has come keeps the evidence for it and
starts to send; a SIDEBAND_ATTEST answers up to 1,000 bytes of it from an offset below 4,020. LIFE_CYCLE burns its
transition's fuses and has its POST to come with OK. A key scrub moves the current entries of its sector and frees
it (17_security_life_cycle.md, 03_rings_commands.md). -/
def Obligations.KeyCommands : Prop :=
  (∀ s c x ns k, Resident s c 0x90 4 x → ctxNs s x = some ns → x.snap = 0 → keyOk k = true →
    Does (.cryptoErase c k) s fun t => t = { s with ctxs := t.ctxs, sec := t.sec, nor := t.nor } ∧ norWriting t 0x0D (recKey ns.nsid (newEpoch s)) = true ∧
      ∃ y, getCtx t c = some y ∧ y.snap = newEpoch s) ∧
  (∀ s c x ns k, Resident s c 0x90 4 x → ctxNs s x = some ns → x.snap ≠ 0 → norWriting s 0x0D (recKey ns.nsid x.snap) = false →
    Does (.cryptoErase c k) s fun t => (∀ i, mapGet t i = if decide (ns.mbase ≤ i) && decide (i < ns.mbase + ns.cap) then .unmapped else mapGet s i) ∧
      (∀ r ∈ t.sec.keyrecs, ¬ (r.nsid = ns.nsid ∧ r.epoch = (nth x.aux 0 0).toNat)) ∧ ns.nsid ∈ t.sec.keyable ∧
      ∃ y, getCtx t c = some y ∧ y.wait = .posting ∧ y.status = St.ok) ∧
  (∀ s c x b st d, Resident s c 0x8F 4 x → x.aux = [] → hostInDone s x 1184 b = true → importKey s x.entry.nsid.toNat (hostIn x 0 1184 b) = .inl (st, d) →
    Posts (.keyImport c b) s c st d 0 (fun t => { s with ctxs := t.ctxs, movers := t.movers, sec := t.sec }) fun t =>
      t.sec = { s.sec with importFails := satAdd32 s.sec.importFails 1 }) ∧
  (∀ s c x b, Resident s c 0x8F 4 x → x.aux = [] → hostInDone s x 1184 b = false → x.snap = 0 →
    exec (.keyImport c b) s = .next (beginTransfer (modCtx s c fun y => { y with snap := 1 }) x false 0 1184)) ∧
  (∀ s c x n, Resident s c 0x8E 4 x → hostInDone s x 32 n = false → x.snap = 0 →
    exec (.attest c n) s = .next (beginTransfer (modCtx s c fun y => { y with snap := 1 }) x false 0 32)) ∧
  (∀ s c x b, Resident s c 0x8F 4 x → x.aux = [] → hostInDone s x 1184 b = true →
    Does (.keyImport c b) s fun t => t.sec.keyrecs = s.sec.keyrecs ∧ ∀ k, importKey s x.entry.nsid.toNat (hostIn x 0 1184 b) = .inr k →
      norWriting t 0x0D (recKey x.entry.nsid.toNat (newEpoch s)) = true ∧
      ∃ y, getCtx t c = some y ∧ y.aux = [BitVec.ofNat 64 (newEpoch s), BitVec.ofNat 64 (nsEpoch s x.entry.nsid.toNat)]) ∧
  (∀ s c x b e o, Resident s c 0x8F 4 x → x.aux = [e, o] → norWriting s 0x0D (recKey x.entry.nsid.toNat e.toNat) = false →
    Does (.keyImport c b) s fun t => t.xlat = s.xlat ∧ (∀ r ∈ t.sec.keyrecs, ¬ (r.nsid = x.entry.nsid.toNat ∧ r.epoch = o.toNat)) ∧
      ∃ y, getCtx t c = some y ∧ y.wait = .posting ∧ y.status = St.ok) ∧
  (∀ s c x n, Resident s c 0x8E 4 x → x.snap ≤ 1 → hostInDone s x 32 n = true → s.sec.nonce ≠ some (hostIn x 0 32 n) →
    Does (.attest c n) s fun t => t.sec.nonce = some (hostIn x 0 32 n) ∧ t.xlat = s.xlat ∧ ∃ y, getCtx t c = some y ∧ y.snap = 2) ∧
  (∀ s c x n, Resident s c 0x8E 4 x → x.snap = 2 → hostReach s x = true →
    Does (.attest c n) s fun t => t.sec = s.sec ∧ ∃ y, getCtx t c = some y ∧ y.wait = .posting ∧ y.status = St.ok ∧ y.result = 4020) ∧
  (∀ s q b, s.power.aonPowered = true → logicDark s = true → exec (.sidebandAttest q b) s = .next (reply s 0x05 St.domainOff q [])) ∧
  (∀ s q b, s.power.aonPowered = true → logicDark s = false → 4020 ≤ field b 32 4 →
    exec (.sidebandAttest q b) s = .next (reply (attest s (padTo 32 (b.take 32))) 0x05 St.range q [])) ∧
  (∀ s q b, s.power.aonPowered = true → logicDark s = false → field b 32 4 < 4020 →
    exec (.sidebandAttest q b) s = .next (reply (attest s (padTo 32 (b.take 32))) 0x05 St.ok q
      (leBytes 4 4020 ++ ((attest s (padTo 32 (b.take 32))).sec.evidence.drop (field b 32 4)).take 1000))) ∧
  (∀ s q b, s.power.aonPowered = true → logicDark s = false → s.sec.nonce = some (padTo 32 (b.take 32)) → field b 32 4 < 4020 →
    exec (.sidebandAttest q b) s = .next (reply s 0x05 St.ok q (leBytes 4 4020 ++ (s.sec.evidence.drop (field b 32 4)).take 1000))) ∧
  (∀ s c x, Resident s c 0x91 4 x →
    Does (.lifeCycle c) s fun t => (s.sec.life = .blank → t.sec.life = .bench) ∧ (s.sec.life = .bench → t.sec.life = .sealed ∧ t.sec.benchClose = true) ∧
      (s.sec.life = .sealed → t.sec.life = .returned ∧ t.sec.cert = none ∧ t.sec.lock = false) ∧
      (s.sec.life = .returned → t.sec.life = .scrapped ∧ t.sec.secretBlown = true) ∧ t = { s with sec := t.sec, nor := t.nor, ctxs := t.ctxs } ∧
      ∃ y, getCtx t c = some y ∧ y.wait = .posting ∧ y.status = St.ok) ∧
  (∀ s k, s.sec.scrub.contains k = true →
    Does (.keyScrub k) s fun t => t = { s with sec := { s.sec with scrub := s.sec.scrub.filter (· != k) }, nor := t.nor } ∧ k ∉ t.nor.sysUsed ∧
      ∀ e ∈ s.nor.log, e.sector ≠ k → e ∈ t.nor.log ∨ ∃ f ∈ s.nor.log, f.sector = k ∧ f.typ = e.typ ∧ f.key = e.key)

/-- For every state: a resident FW_DOWNLOAD with a block out of place or out of bounds has its failure as its POST to
come; its transfer is queued and its read requests go out; a later block that has arrived stands in the staging
bank at its offset and waits to be stored; a first block whose manifest fails a check, and a block of which a
word's program is refused, make the staging FAILED. LIVE activation is under way from its admission beat, the
entries of migrated settings and then its BOOTCTL entry being written. Each of AT_RESET, COMMIT, ROLLBACK and
DISCARD first begins to write its BOOTCTL entry, and once that is durable has its POST to come with OK: AT_RESET
and ROLLBACK count as activations, COMMIT raises the version floor, forgets the old settings and retires entries
of other schemas, DISCARD leaves nothing preloaded (16_boot_flash_firmware.md, 03_rings_commands.md). -/
def Obligations.FirmwareCommands : Prop :=
  (∀ s c x b st d, Resident s c 0x8C 4 x → x.snap = 0 → blockFault s x = some (st, d) → Posts (.fwDownload c b) s c st d 0 (fun t => { s with ctxs := t.ctxs }) fun _ => True) ∧
  (∀ s c x, Resident s c 0x8C 4 x → x.snap = 0 → blockFault s x = none → hostInDone s x (dBytes x) [] = false →
    Does (.fwDownload c []) s fun t => t = { s with ctxs := t.ctxs, movers := t.movers, out := t.out } ∧ getCtx t c = some { x with snap := 1 } ∧
      ((x.ringOf.bind (getRing s)).isSome = true → t.out = s.out ++ dataReads s x 0 (dBytes x))) ∧
  (∀ s c x b, Resident s c 0x8C 4 x → (x.snap = 2 ∨ x.snap = 1 ∧ hostInDone s x (dBytes x) b = false) → Idle (.fwDownload c b) s) ∧
  (∀ s c x b w, Resident s c 0x8C 4 x → x.snap = 1 → hostInDone s x (dBytes x) b = true → x.entry.a0 ≠ 0 → w = programBlock s (stageBank s) x.entry.a0.toNat (hostIn x 0 (dBytes x) b) → w.2 ≠ 0 →
    Does (.fwDownload c b) s fun t => t.nor.stage = .failed ∧ t.nor.dlBusy = none ∧ t.nor.progRefused = satAdd s.nor.progRefused w.2 ∧
      ∃ y, getCtx t c = some y ∧ y.wait = .posting ∧ y.status = St.signature ∧ y.detail = 7) ∧
  (∀ s c x b w, Resident s c 0x8C 4 x → x.snap = 1 → hostInDone s x (dBytes x) b = true → x.entry.a0 ≠ 0 → s.nor.stage = .receiving →
    w = programBlock s (stageBank s) x.entry.a0.toNat (hostIn x 0 (dBytes x) b) → w.2 = 0 →
    Does (.fwDownload c b) s fun t => t = { s with ctxs := t.ctxs, movers := t.movers, nor := t.nor } ∧ t.nor.dlBusy = some (c, x.entry.a0.toNat, dBytes x) ∧
      (imageOf t (stageBank s)).bytes = Mem.writeN (imageOf s (stageBank s)).bytes x.entry.a0.toNat w.1 ∧
      (imageOf t (1 - stageBank s)) = imageOf s (1 - stageBank s) ∧ t.nor.stage = .receiving ∧ ∃ y, getCtx t c = some y ∧ y.snap = 2) ∧
  (∀ s c x b u k w, Resident s c 0x8C 4 x → x.snap = 1 → hostInDone s x (dBytes x) b = true → x.entry.a0 = 0 →
    w = programBlock s (stageBank s) 0 (hostIn x 0 (dBytes x) b) →
    u = (modImage (endTransfer (commitNow s c) c false (dBytes x)) (stageBank s) (fun i => { i with bytes := Mem.writeN i.bytes 0 w.1 })).updNor (fun m => { m with progRefused := satAdd m.progRefused w.2 }) →
    manifestFault u (stageBank s) = some k →
    Does (.fwDownload c b) s fun t => t.nor.stage = .failed ∧ t.nor.dlBusy = none ∧ ∃ y, getCtx t c = some y ∧ y.wait = .posting ∧ y.status = St.signature ∧ y.detail = BitVec.ofNat 8 k) ∧
  (∀ s c x, Resident s c 0x8D 4 x → (x.entry.a0 ≠ 0 ∨ s.nor.activating ≠ some (c, 1)) → Idle (.fwActivateLive c) s) ∧
  (∀ s c x, Resident s c 0x8D 4 x → x.entry.a0 = 0 → s.nor.activating = some (c, 1) →
    Does (.fwActivateLive c) s fun t => t = { s with ctxs := t.ctxs, nor := t.nor } ∧ t.nor.activating = some (c, 3) ∧ t.nor.actAt = s.nor.actAt ∧
      ∃ l e, t.nor.writing = s.nor.writing ++ l ++ [e] ∧ l.map (fun k => (k.typ, k.key, k.value)) = migration s (imageOf s (stageBank s)) ∧ e.typ = 1 ∧
        e.value = bootBody (stageBank s) (some s.nor.active) true 0 .previous) ∧
  (∀ s i, i.schema ≤ s.nor.schema → migration s i = []) ∧
  (∀ s i p, s.nor.schema < i.schema → p ∈ s.nv → settingNv p.1 = true →
    (0x05, settingKey i.schema p.1, settingUnder i.schema p.1 ((Config.setmap i.version p.1 p.2).getD p.2)) ∈ migration s i) ∧
  (∀ s c x i v, (i = Instr.fwActivateAtReset c ∧ x.entry.a0 = 1 ∧ v = bootBody (stageBank s) (some s.nor.active) true 0 .previous ∨
      i = Instr.fwActivateCommit c ∧ x.entry.a0 = 2 ∧ v = bootBody s.nor.active none false 0 .erasing ∨
      i = Instr.fwActivateRollback c ∧ x.entry.a0 = 3 ∧ v = bootBody (s.nor.prev.getD 0) none false 0 .failed ∨
      i = Instr.fwActivateDiscard c ∧ x.entry.a0 = 4 ∧ v = bootBody s.nor.active s.nor.prev s.nor.trial s.nor.attempts .erasing) →
    Resident s c 0x8D 4 x → x.snap = 0 →
    Does i s fun t => t = { s with ctxs := t.ctxs, nor := t.nor } ∧ getCtx t c = some { x with snap := 1, commitBeat := some (x.commitBeat.getD s.beat) } ∧
      t.nor.stage = s.nor.stage ∧ t.nor.active = s.nor.active ∧ ∃ e, t.nor.writing = s.nor.writing ++ [e] ∧ e.typ = 1 ∧ e.key = 0 ∧ e.value = v) ∧
  (∀ s c x, Resident s c 0x8D 4 x → x.snap ≠ 0 → norWriting s 0x01 0 = false →
    (x.entry.a0 = 1 → Does (.fwActivateAtReset c) s fun t => t.nor.activations = satAdd32 s.nor.activations 1 ∧ t.nor.lastAct = 2 ∧ t.nor.active = s.nor.active ∧
      ∃ y, getCtx t c = some y ∧ y.wait = .posting ∧ y.status = St.ok) ∧
    (x.entry.a0 = 2 → Does (.fwActivateCommit c) s fun t => t.nor.svnMin = max s.nor.svnMin (imageOf s s.nor.active).svn ∧ t.nor.oldNv = [] ∧
      (∀ e ∈ t.nor.log, e.typ = 5 → e.key / 2 ^ 32 = s.nor.schema) ∧
      ∃ y, getCtx t c = some y ∧ y.wait = .posting ∧ y.status = St.ok) ∧
    (x.entry.a0 = 3 → Does (.fwActivateRollback c) s fun t => t.nor.activations = satAdd32 s.nor.activations 1 ∧ t.nor.lastAct = 3 ∧
      ∃ y, getCtx t c = some y ∧ y.wait = .posting ∧ y.status = St.ok) ∧
    (x.entry.a0 = 4 → Does (.fwActivateDiscard c) s fun t => t.nor.preloaded = false ∧ t.nor.svnMin = s.nor.svnMin ∧
      ∃ y, getCtx t c = some y ∧ y.wait = .posting ∧ y.status = St.ok))

/-- For every state: a system-area entry that reads back is current from then on, in place of the one of its kind and
key; one that does not is written again; a key record becomes usable, and that of a rotation the current key; an
anchor that is written is the one recovery starts from, and the generation before the previous one is released. A
system sector whose erase verified is free and its REERASE entry gone; of an image sector the bytes are gone, and
with the last of an ERASING staging bank that bank is BLANK; an erase that does not verify runs again. A verified
image is preloaded. At the switch beat the activation waits for the Servitors, the old vendor code stays for
contexts already started, and the activation is counted; each Servitor restarts in order, and with the last the
activation ends and FW_ACTIVATE has its POST to come with OK. An expiry of a Servitor that is not halted is
counted and changes nothing else (16_boot_flash_firmware.md, 17_security_life_cycle.md, 15_onchip_memory.md). -/
def Obligations.FirmwareEvents : Prop :=
  (∀ s e l, s.nor.writing = e :: l → Does (.norProgramDone false) s fun t => t = { s with nor := t.nor } ∧ t.nor.writing = s.nor.writing ∧ t.nor.log = s.nor.log) ∧
  (∀ s e l, s.nor.writing = e :: l → e.typ ≠ 0x02 → e.typ ≠ 0x07 → e.typ ≠ 0x09 → e.typ ≠ 0x0D → s.nor.sysUsed.length < 240 →
    Does (.norProgramDone true) s fun t => t = { s with nor := t.nor } ∧ t.nor.writing = l ∧ (∃ f ∈ t.nor.log, f.typ = e.typ ∧ f.key = e.key ∧ f.value = e.value) ∧
      (∀ f ∈ s.nor.log, ¬ (f.typ = e.typ ∧ f.key = e.key) → f ∈ t.nor.log) ∧
      t.nor.eraseSuspends = satAdd s.nor.eraseSuspends (b2n s.nor.erasing.isSome)) ∧
  (∀ s e l, s.nor.writing = e :: l → exec (.norProgramDone true) s = .next (compact (entryDurable ((s.updNor fun n =>
    { n with eraseSuspends := satAdd n.eraseSuspends (b2n n.erasing.isSome) }).updNor fun n => { n with writing := l }.durable e) e))) ∧
  (∀ s c o n b, s.nor.writing = [] → s.nor.dlBusy = some (c, o, n) → exec (.norProgramDone b) s = .next (blockStored s c o n b)) ∧
  (∀ s e l, s.nor.writing = e :: l → e.typ = 0x0D → s.nor.sysUsed.length < 240 →
    Does (.norProgramDone true) s fun t => t = { s with nor := t.nor, sec := t.sec } ∧ recOfBody s e.value ∈ t.sec.keyrecs ∧
      (field e.value 0 2 = 0 → s.sec.rotKey = some (field e.value 4 4) →
        t.sec.sysEpochPrev = s.sec.sysEpoch ∧ t.sec.sysEpoch = field e.value 4 4 ∧ t.sec.sysEpochs = s.sec.sysEpochs + 1 ∧ t.sec.rotKey = none) ∧
      (s.sec.rotKey ≠ some (field e.value 4 4) → t.sec.sysEpoch = s.sec.sysEpoch ∧ t.sec.rotKey = s.sec.rotKey)) ∧
  (∀ s e l, s.nor.writing = e :: l → e.typ = 0x02 → s.nor.sysUsed.length < 240 →
    Does (.norProgramDone true) s fun t => t.nor.writing = l ∧ (∃ a, t.nor.anchor = some a ∧ a.gen = field e.value 0 4 ∧ t.xlat.gens = keepGens s.xlat.gens a.gen) ∧
      t.xlat.map = s.xlat.map ∧ t.ctxs = s.ctxs ∧ t.rings = s.rings ∧ t.media = s.media ∧ t.flash = s.flash ∧ t.sec = s.sec) ∧
  (∀ s b, s.nor.writing = [] → s.nor.dlBusy = none → Idle (.norProgramDone b) s) ∧
  (∀ s b k, s.nor.erasing = some (b, k) → 768 ≤ k → (s.nor.log.any fun e => e.typ == 0x09 && e.key == eraseKey (1 - b) k) = false →
    (s.nor.writing.any fun e => e.typ == 0x09 && e.key == eraseKey (1 - b) k) = false →
    Does (.norEraseDone true) s fun t => t = { s with nor := t.nor } ∧ t.nor.sysUsed = s.nor.sysUsed.filter (· != k - 768) ∧
      t.nor.log = s.nor.log.filter fun e => !(e.typ == 0x09 && e.key == eraseKey b k)) ∧
  (∀ s b, s.nor.erasing = none → Idle (.norEraseDone b) s) ∧
  (∀ s p, s.nor.erasing = some p → exec (.norEraseDone false) s = .next (erasePump (s.updNor fun n => { n with erasing := none }))) ∧
  (∀ s b k, s.nor.erasing = some (b, k) → k < 768 → Does (.norEraseDone true) s fun t => t = { s with nor := t.nor } ∧
    (s.nor.stage ≠ .erasing → t.nor.stage = s.nor.stage ∧ (imageOf t b).bytes = (imageOf s b).bytes.filter fun c => !(decide (65536 * k ≤ c.1) && decide (c.1 < 65536 * (k + 1)))) ∧
    (s.nor.stage = .erasing → b = stageBank s → k = s.nor.eraseNext → k < 767 → t.nor.stage = .erasing ∧ t.nor.eraseNext = k + 1) ∧
    (s.nor.stage = .erasing → b = stageBank s → k = s.nor.eraseNext → k = 767 → b < 2 → t.nor.stage = .blank ∧ imageOf t b = Image.init ∧ t.nor.dlNext = 0)) ∧
  (∀ s, s.nor.stage = .verified → exec .fwPreloadDone s = .next { s with nor := { s.nor with preloaded := true } }) ∧
  (∀ s, s.nor.stage ≠ .verified → Idle .fwPreloadDone s) ∧
  (∀ s c, s.nor.activating = some (c, 3) → norWriting s 0x01 0 = false →
    Does .fwSwitchBeat s fun t => t = { s with nor := t.nor, zci := t.zci, nv := t.nv } ∧ t.nor.activating = some (c, 5) ∧ t.nor.switchBeat = s.beat ∧
      t.zci.oldVlib = s.zci.lib.filter (fun l => decide (l.slot < 256)) ∧ t.nor.preloaded = false ∧ t.nor.activations = satAdd32 s.nor.activations 1) ∧
  (∀ s c, s.nor.activating = some (c, 3) → norWriting s 0x01 0 = true → Idle .fwSwitchBeat s) ∧
  (∀ s c n, s.nor.activating = some (c, 5) → s.nor.restarted = n → n < 7 → exec (.servitorRestart n) s = .next { s with nor := { s.nor with restarted := n + 1 } }) ∧
  (∀ s n, (s.nor.activating.map Prod.snd ≠ some 5 ∨ s.nor.restarted ≠ n) → Idle (.servitorRestart n) s) ∧
  (∀ s, s.nor.activating.map Prod.snd ≠ some 3 → Idle .fwSwitchBeat s) ∧
  (∀ s c, s.nor.activating = some (c, 5) → s.nor.restarted = 7 →
    exec (.servitorRestart 7) s = .next (finishAdm (event (s.updNor fun m => { m with activating := none, restarted := 0 }) 6 0xFF) c 0x8D St.ok 0 0)) ∧
  (∀ s c x, s.nor.activating = some (c, 5) → s.nor.restarted = 7 → getCtx s c = some x → x.wait = .resident → x.entry.typ = 4 → x.entry.op = 0x8D → x.stopping = false →
    Does (.servitorRestart 7) s fun t => t.nor = { s.nor with activating := none, restarted := 0 } ∧ getCtx t c = some { x with wait := .posting, status := St.ok, detail := 0, result := 0 }) ∧
  (∀ s n, n < 8 → vget s.mem.servHalted n false = false → exec (.watchdogExpiry n) s = .next { s with nor := { s.nor with wdtExpiries := satAdd s.nor.wdtExpiries 1 } }) ∧
  (∀ s n, 8 ≤ n ∨ vget s.mem.servHalted n false = true → Idle (.watchdogExpiry n) s)

/-- For every state: a cause that is not watched does nothing. A watched first cause outside Midnight zeroes the
vault, leaves no function, ring or context, darkens every domain but the always-on one, records the cause with its
beat and counts it, and under ERASE, as the setting stands after the wipe, burns the next TAMPER bit; a further
cause is counted and recorded, and in Midnight the vault is zeroed as well; the restart is a Dawn at step 1 no
sooner than 250,000 beats after it. A SET of SEC_CERT_COMMIT is answered OK only where the certificate verifies
and is the module's own; a key slot is revoked only while another stays valid and, for firmware, is not the
running image's; SEC_SYSKEY_ROTATE is refused at 64 epochs. Each of these SETs and SEC_LOCK acts from the next
beat: the certificate is installed, the lock is set and never cleared, the slot's revoke bit is burned, and the
rotation's key is generated, its record's write begun; the current key changes with that record (FirmwareEvents)
(17_security_life_cycle.md). -/
def Obligations.TamperAndSecuritySettings : Prop :=
  (∀ s k, tamperWatched s k = false → Idle (.tamperDetect k) s) ∧
  (∀ s k, s.power.aonPowered = true → tamperWatched s k = true → s.sec.tamperAt = none → s.day.day ≠ .midnight →
    Does (.tamperDetect k) s fun t => t.sec.tamperAt = some s.beat ∧ t.sec.nskeys = [] ∧ t.sec.vaultZero = true ∧ t.fns = [] ∧ t.rings = [] ∧ t.ctxs = [] ∧
      t.day.hostOn = false ∧ t.day.coreOn = false ∧ t.day.sramOn = false ∧ t.day.dramOn = false ∧ t.twin.hbStopped = true ∧ k ∈ t.sec.tamperCauses ∧
      t.sec.tamperEvents = satAdd32 s.sec.tamperEvents 1 ∧ t.sec.tamperLast = BitVec.ofNat 56 (k + s.beat * 2 ^ 8) ∧ t.beat = s.beat ∧
      (nvVal (wipe s) 0x12000004 = 1 → s.sec.tampers < 32 → t.sec.tampers = s.sec.tampers + 1)) ∧
  (∀ s k, s.power.aonPowered = true → tamperWatched s k = true → (s.sec.tamperAt.isSome = true ∨ s.day.day = .midnight) →
    Does (.tamperDetect k) s fun t => t = { s with sec := t.sec } ∧ t.sec.tamperEvents = satAdd32 s.sec.tamperEvents 1 ∧ k ∈ t.sec.tamperCauses ∧
      t.sec.tamperLast = BitVec.ofNat 56 (k + s.beat * 2 ^ 8) ∧ t.sec.tamperAt = s.sec.tamperAt ∧ (s.sec.tamperAt = none → t.sec.nskeys = [] ∧ t.sec.vaultZero = true)) ∧
  (∀ s, s.sec.tamperAt = none → Idle .tamperRestart s) ∧
  (∀ s b, s.sec.tamperAt = some b → (s.beat < b + 250000 ∨ s.power.lost = true) → Idle .tamperRestart s) ∧
  (∀ s b, s.sec.tamperAt = some b → b + 250000 ≤ s.beat → s.power.lost = false →
    Does .tamperRestart s fun t => t.day.day = .dawn ∧ t.day.step = 1 ∧ t.sec.tamperAt = none ∧ t.sec.tamperCauses = [] ∧ t.beat = s.beat) ∧
  (∀ s c x i v b, waitsSet s c 0x12000010 1 = some (x, i, v) → b = certBytes s 6292 →
    exec (.secCertCommit c) s = .next (if v = 6292 ∧ s.sec.life = .sealed ∧ certOk s b = true ∧ certMine s b = true then
      setDone ((storeDue s 0x12000010 v).updSec fun k => { k with certNew := some b }) c St.ok 0 else setDone s c St.signature 0)) ∧
  (∀ s b v, s.sec.certNew = some b →
    secActs s 0x12000010 v = (norPut s 0x0C 0 (leBytes 4 6292 ++ b)).updSec fun k => { k with cert := some b, certState := 1, certNew := none }) ∧
  (∀ s v, secActs s 0x12000002 v = { s with sec := { s.sec with lock := s.sec.lock || v == 1 } }) ∧
  (∀ s v, secActs s 0x1200000B v = { s with sec := { s.sec with rotate := s.sec.rotate + v.toNat } }) ∧
  (∀ s v, secActs s 0x1200000D v = { s with sec := { s.sec with fwKeys := revoke s.sec.fwKeys v.toNat } }) ∧
  (∀ s v, secActs s 0x1200000E v = { s with sec := { s.sec with caKeys := revoke s.sec.caKeys v.toNat } }) ∧
  (∀ s c x i v, waitsSet s c 0x12000002 1 = some (x, i, v) → exec (.secLock c) s = .next (setDone (storeDue s 0x12000002 v) c St.ok 0)) ∧
  (∀ s c x i v, waitsSet s c 0x1200000D 1 = some (x, i, v) → v.toNat ≠ (imageOf s s.nor.active).keySlot → otherSlot s.sec.fwKeys (dueNow s 0x1200000D).toNat v.toNat = true →
    exec (.secFwKeyRevoke c) s = .next (setDone (revokeNext s 0x1200000D v.toNat) c St.ok 0)) ∧
  (∀ s c x i v, waitsSet s c 0x1200000D 1 = some (x, i, v) → (v.toNat = (imageOf s s.nor.active).keySlot ∨ otherSlot s.sec.fwKeys (dueNow s 0x1200000D).toNat v.toNat = false) →
    exec (.secFwKeyRevoke c) s = .next (setDone s c St.denied 0)) ∧
  (∀ s c x i v, waitsSet s c 0x1200000E 1 = some (x, i, v) →
    exec (.secCaRevoke c) s = .next (if otherSlot s.sec.caKeys (dueNow s 0x1200000E).toNat v.toNat then setDone (revokeNext s 0x1200000E v.toNat) c St.ok 0 else setDone s c St.denied 0)) ∧
  (∀ s c x i k, waitsSet s c 0x1200000B 1 = some (x, i, 0) → exec (.secSyskeyRotate c k) s = .next (setDone s c St.ok 0)) ∧
  (∀ s c x i v k, waitsSet s c 0x1200000B 1 = some (x, i, v) → v ≠ 0 → 64 ≤ epochsAhead s → exec (.secSyskeyRotate c k) s = .next (setDone s c St.range 2)) ∧
  (∀ s c x i v k, waitsSet s c 0x1200000B 1 = some (x, i, v) → v ≠ 0 → epochsAhead s < 64 →
    exec (.secSyskeyRotate c k) s = .next (setDone (storeDue s 0x1200000B (dueNow s 0x1200000B + 1)) c St.ok 0)) ∧
  (∀ s c k, waitsSet s c 0x1200000B 1 = none → s.sec.rotate ≠ 0 → s.sec.rotKey = none → keyOk k = true →
    Does (.secSyskeyRotate c k) s fun t => t = { s with sec := t.sec, nor := t.nor } ∧ t.sec.epochNext = newEpoch s + 2 ∧ t.sec.rotKey = some (newEpoch s) ∧
      t.sec.rotate = s.sec.rotate - 1 ∧ t.sec.sysEpoch = s.sec.sysEpoch ∧ norWriting t 0x0D (recKey 0 (newEpoch s)) = true) ∧
  (∀ s c k, waitsSet s c 0x1200000B 1 = none → (s.sec.rotate = 0 ∨ s.sec.rotKey.isSome = true ∨ keyOk k = false) → Idle (.secSyskeyRotate c k) s)

/-- For every state with always-on power: a packet whose framing fails is counted as an error and nothing else
changes, one for another endpoint does nothing, one that neither starts nor continues a message is counted, and
where it is out of sequence ends the message of its source and tag; a first or middle packet joins the message
assembled, whose bytes a last packet hands over. Set Endpoint ID takes an ID from 1 to 254 and answers with it,
and answers any other with an error code, leaving the ID; the reads of the endpoint ID, the versions, the message
types and the vendor set answer and change no other state but the count of free values. An alert response gives
the module's address while the alert is raised and releases it. Without that power nothing is answered
(11_host_ports.md). -/
def Obligations.ManagementPackets : Prop :=
  (∀ s p, s.power.aonPowered = true → packetOk s p = false → exec (.mctpPacket p) s = .next { s with side := { s.side with errors := satAdd s.side.errors 1 } }) ∧
  (∀ s p, s.power.aonPowered = true → packetOk s p = true → field p 5 1 ≠ 0 → field p 5 1 ≠ s.side.eid → Idle (.mctpPacket p) s) ∧
  (∀ s p, s.power.aonPowered = true → packetOk s p = true → field p 5 1 = s.side.eid → bit (field p 7 1) 7 = true → bit (field p 7 1) 6 = false →
    exec (.mctpPacket p) s = .next { s with side := { s.side with asm := (p.drop 8).dropLast, asmOn := true, asmKey := packetKey p, asmSeq := (packetSeq p + 1) % 4 } }) ∧
  (∀ s p, s.power.aonPowered = true → packetOk s p = true → field p 5 1 = s.side.eid → bit (field p 7 1) 7 = false → s.side.asmOn = false →
    exec (.mctpPacket p) s = .next { s with side := { s.side with errors := satAdd s.side.errors 1 } }) ∧
  (∀ s p, s.power.aonPowered = true → packetOk s p = true → field p 5 1 = s.side.eid → bit (field p 7 1) 7 = false → s.side.asmOn = true → packetKey p ≠ s.side.asmKey →
    exec (.mctpPacket p) s = .next { s with side := { s.side with errors := satAdd s.side.errors 1 } }) ∧
  (∀ s p, s.power.aonPowered = true → packetOk s p = true → field p 5 1 = s.side.eid → bit (field p 7 1) 7 = false → s.side.asmOn = true → packetKey p = s.side.asmKey →
    packetSeq p ≠ s.side.asmSeq → exec (.mctpPacket p) s = .next { s with side := { s.side with errors := satAdd s.side.errors 1, asm := [], asmOn := false } }) ∧
  (∀ s p, s.power.aonPowered = true → packetOk s p = true → field p 5 1 = s.side.eid → bit (field p 7 1) 7 = false → bit (field p 7 1) 6 = false → s.side.asmOn = true →
    packetKey p = s.side.asmKey → packetSeq p = s.side.asmSeq →
    exec (.mctpPacket p) s = .next { s with side := { s.side with asm := s.side.asm ++ (p.drop 8).dropLast, asmOn := true, asmSeq := (s.side.asmSeq + 1) % 4 } }) ∧
  (∀ s p, s.power.aonPowered = true → packetOk s p = true → field p 5 1 = s.side.eid → bit (field p 7 1) 7 = false → bit (field p 7 1) 6 = true → s.side.asmOn = true →
    packetKey p = s.side.asmKey → packetSeq p = s.side.asmSeq →
    exec (.mctpPacket p) s = .next (messageIn { s with side := { s.side with asm := [], asmOn := false } } (s.side.asm ++ (p.drop 8).dropLast))) ∧
  (∀ s op e, s.power.aonPowered = true → op < 2 → 0 < e → e < 255 →
    exec (.setEndpointId op e) s = .next { s with side := { s.side with eid := e }, out := s.out ++ [.mctp [0, 1, 0, 0, BitVec.ofNat 8 e, 0]] }) ∧
  (∀ s op e, s.power.aonPowered = true → (2 ≤ op ∨ e = 0 ∨ 255 ≤ e) → exec (.setEndpointId op e) s = .next { s with out := s.out ++ [.mctp [0, 1, 2]] }) ∧
  (∀ s, s.power.aonPowered = true → exec .getEndpointId s = .next { s with out := s.out ++ [.mctp [0, 2, 0, BitVec.ofNat 8 s.side.eid, 0, 0]] }) ∧
  (∀ s k, s.power.aonPowered = true → (k = 0 ∨ k = 0x7F ∨ k = 0xFF) →
    Does (.getMctpVersionSupport k) s fun t => t = { s with freeCtr := s.freeCtr + 1, out := t.out } ∧ ∃ v, v.length = 4 ∧ t.out = s.out ++ [.mctp ([0, 4, 0, 1] ++ v)]) ∧
  (∀ s k, s.power.aonPowered = true → k ≠ 0 → k ≠ 0x7F → k ≠ 0xFF → exec (.getMctpVersionSupport k) s = .next { s with out := s.out ++ [.mctp [0, 4, 0x80]] }) ∧
  (∀ s, s.power.aonPowered = true → exec .getMessageTypeSupport s = .next { s with out := s.out ++ [.mctp [0, 5, 0, 1, 0x7F]] }) ∧
  (∀ s, s.power.aonPowered = true →
    Does (.getVendorDefinedSupport 0) s fun t => t = { s with freeCtr := s.freeCtr + 1, out := t.out } ∧ ∃ v, v.length = 2 ∧ t.out = s.out ++ [.mctp ([0, 6, 0, 0xFF, 1, 0, 0, 0xE3, 0x66] ++ v)]) ∧
  (∀ s k, s.power.aonPowered = true → k ≠ 0 → exec (.getVendorDefinedSupport k) s = .next { s with out := s.out ++ [.mctp [0, 6, 2]] }) ∧
  (∀ s, s.power.aonPowered = true → s.side.alert = false → Idle .alertResponse s) ∧
  (∀ s, s.power.aonPowered = true → s.side.alert = true →
    exec .alertResponse s = .next { s with side := { s.side with alert := false }, out := s.out ++ [.mctp [BitVec.ofNat 8 (smbAddr s)]] }) ∧
  (∀ s i, s.power.aonPowered = false → (∃ p, i = Instr.mctpPacket p) ∨ (∃ a b, i = Instr.setEndpointId a b) ∨ i = .getEndpointId ∨ (∃ k, i = .getMctpVersionSupport k) ∨ i = .getMessageTypeSupport ∨
    (∃ k, i = .getVendorDefinedSupport k) ∨ i = .alertResponse → Idle i s)

/-- For every state with always-on power: HEALTH and POWER are always answered OK, TEMPS in the deep dark with
DOMAIN_OFF and otherwise OK with 28 readings; each is counted, and besides the side component, what was sent and
the count of free values nothing changes. EVENTS returns the pending bits and clears them and the alert. An ADMIN
entry of the right form, with sideband administration on, no other busy and the logic lit waits in the sideband
queue with its data; a bad form, a dark logic, administration off or a busy mailbox is answered so and nothing
waits. LOG answers up to 1,000 bytes of a listed page from an aligned offset within it, page 1 also while the
module is fatal. RESET with its key answers OK and a module reset or the wake of R438 follows; WAKE answers OK and
is wake source 2. Without that power none is answered (11_host_ports.md, 14_times_of_day_thermal.md). -/
def Obligations.MailboxRequests : Prop :=
  (∀ s q i, s.power.aonPowered = true → (i = Instr.health q ∨ i = Instr.power q) →
    Does i s fun t => t = { s with side := { s.side with messages := satAdd s.side.messages 1 }, out := t.out, freeCtr := t.freeCtr } ∧
      ∃ k b, (k = 1 ∨ k = 3) ∧ t.out = s.out ++ [.sideband k 0 q b]) ∧
  (∀ s q, s.power.aonPowered = true → deepDark s = false →
    Does (.temps q) s fun t => t = { s with side := { s.side with messages := satAdd s.side.messages 1 }, out := t.out } ∧
      ∃ b, b.length = 56 ∧ t.out = s.out ++ [.sideband 2 0 q b]) ∧
  (∀ s q, s.power.aonPowered = true → deepDark s = true → exec (.temps q) s = .next (reply s 0x02 St.domainOff q [])) ∧
  (∀ s q, s.power.aonPowered = true →
    exec (.events q) s = .next { s with side := { s.side with messages := satAdd s.side.messages 1, pend := 0, alert := false }, out := s.out ++ [.sideband 4 0 q [BitVec.ofNat 8 s.side.pend.toNat]] }) ∧
  (∀ s q b, s.power.aonPowered = true → adminForm b = true → logicDark s = false → s.plan.resetFlush = false → nvVal s 0x0A000009 ≠ 0 → s.side.adminBusy = false →
    exec (.sidebandAdmin q b) s = .next { s with side := { s.side with adminBusy := true, adminSeq := q, adminEntry := some (entryOf b), adminData := b.drop 64 } }) ∧
  (∀ s q b, s.power.aonPowered = true → exec (.sidebandAdmin q b) s =
      .next (if adminForm b = false then reply s 0x06 St.badEntry q [] else if logicDark s || s.plan.resetFlush then reply s 0x06 St.domainOff q []
        else if nvVal s 0x0A000009 = 0 then reply s 0x06 St.denied q [] else if s.side.adminBusy then reply s 0x06 St.sidebandBusy q []
        else { s with side := { s.side with adminBusy := true, adminSeq := q, adminEntry := some (entryOf b), adminData := b.drop 64 } })) ∧
  (∀ s q b, s.power.aonPowered = true → exec (.log q b) s =
      .next (if b.length ≠ 8 ∨ field b 1 3 ≠ 0 then reply s 0x07 St.badEntry q []
        else if logicDark s = true ∧ ¬ (s.day.fatal = true ∧ field b 0 1 = 1) then reply s 0x07 St.domainOff q []
        else match logPage s (field b 0 1) with
          | none => reply s 0x07 St.range q []
          | some l => if l.length ≤ field b 4 4 ∨ field b 4 4 % 4 ≠ 0 then reply s 0x07 St.range q [] else reply s 0x07 St.ok q ((l.drop (field b 4 4)).take 1000))) ∧
  (∀ s q b l, s.power.aonPowered = true → b.length = 8 → field b 1 3 = 0 → logicDark s = false → logPage s (field b 0 1) = some l → field b 4 4 < l.length → field b 4 4 % 4 = 0 →
    exec (.log q b) s = .next (reply s 0x07 St.ok q ((l.drop (field b 4 4)).take 1000))) ∧
  (∀ s q b, s.power.aonPowered = true → b.length = 8 → field b 1 3 = 0 → logicDark s = false → logPage s (field b 0 1) = none →
    exec (.log q b) s = .next (reply s 0x07 St.range q [])) ∧
  (∀ s q b, s.power.aonPowered = true → b.length = 4 → field b 0 4 = 0x7E5E7E5E → nvVal s 0x0A00000A ≠ 0 → s.plan.resetFlush = false → hotStopped s = false →
    (s.day.day = .noon ∨ s.day.day = .dusk) → exec (.sidebandReset q b) s = .next (moduleReset (reply s 0x08 St.ok q []))) ∧
  (∀ s q b, s.power.aonPowered = true → b.length = 4 → field b 0 4 = 0x7E5E7E5E → nvVal s 0x0A00000A ≠ 0 → s.plan.resetFlush = false →
    s.day.day = .midnight → exec (.sidebandReset q b) s = .next (wake (reply s 0x08 St.ok q []) 7)) ∧
  (∀ s q b, s.power.aonPowered = true → (b.length ≠ 4 ∨ field b 0 4 ≠ 0x7E5E7E5E) → exec (.sidebandReset q b) s = .next (reply s 0x08 St.badEntry q [])) ∧
  (∀ s q b, s.power.aonPowered = true → b.length = 4 → field b 0 4 = 0x7E5E7E5E → exec (.sidebandReset q b) s =
      .next (if nvVal s 0x0A00000A = 0 then reply s 0x08 St.denied q [] else if s.plan.resetFlush then reply s 0x08 St.sidebandBusy q []
        else if hotStopped s = true ∨ s.day.day = .midnight then wake (reply s 0x08 St.ok q []) 7
        else if s.day.day = .night then moduleReset (noteWake (reply s 0x08 St.ok q []) 7) else moduleReset (reply s 0x08 St.ok q []))) ∧
  (∀ s i, s.power.aonPowered = false → (∃ q, i = Instr.health q ∨ i = .temps q ∨ i = .power q ∨ i = .events q ∨ i = .sidebandWake q ∨
    ∃ b, i = .sidebandAdmin q b ∨ i = .log q b ∨ i = .sidebandReset q b) → Idle i s) ∧
  (∀ s q, s.power.aonPowered = true → exec (.sidebandWake q) s = .next (wake (reply s 0x09 St.ok q []) 2)) ∧
  (∀ s cmd st q b, reply s cmd st q b = { s with side := { s.side with messages := satAdd s.side.messages 1 }, out := s.out ++ [.sideband cmd st.toNat q b] })

/-- For every state and oct: a DARK oct that is requested, present, not faulted, not leaving, and on a switched
carrier assigned and granted starts its power-up with VCC when octs may power up. VCC good within 500 beats turns
VCCQ on, VCCQ good within 250 makes the channels idle one beat later, and 25 beats after that RESET goes to each
of the 64 chip enables; where the request was withdrawn the sequence stops at that step, VCCQ off first. A LUN
ready within 250 beats is asked for its ID and parameter page and counted once; its die joins the oct, with its
row cycles, where the parameters match the profile, and an earlier die in its place goes where they do not; with
the last of 128 each target is switched to the interface of the profile and the channels with a die train; one not
ready 250 beats after RESET counts as absent. A rail not good in time makes the oct DARK with its fault latched. A
step at another phase or beat does nothing, and no step touches another oct (09_flash_channels.md). -/
def Obligations.OctPowerUp : Prop :=
  (∀ s k, k < 16 → (getOct s k).st = .dark → (getOct s k).fault = false → octWanted s k = true → octPresent s k = true →
    (octSwitched s k = true → octAssigned s k = true ∧ (getOct s k).gnt = true) → ¬ (s.mem.testState = 1 ∧ s.mem.testBank = 2 ∧ s.mem.testUnit / 8 = k) →
    (getOct s k).hotHold = none → octsMayPower s = true → octLeaving s k = false → s.day.sealed = none →
    OctTo (.octPowerStart k) s k { getOct s k with st := .powering, phase := 1, phaseAt := s.beat, vcc := (if bit (profSet s k 2) 5 then 33 else 25), vccq := false, downReq := false, prompt := false, seen := [], switched := octSwitched s k, profile := Vector.ofFn fun f => BitVec.ofNat 64 (profSet s k f.val) }) ∧
  (∀ s k, 16 ≤ k ∨ (getOct s k).fault = true ∨ octWanted s k = false ∨ octPresent s k = false ∨ octsMayPower s = false → Idle (.octPowerStart k) s) ∧
  (∀ s k o, k < 16 → o = getOct s k → o.st = .powering → o.phase = 1 → o.phaseAt < s.beat → s.beat ≤ o.phaseAt + 500 → o.downReq = false →
    OctTo (.octVccGood k) s k { o with phase := 2, phaseAt := s.beat, vccq := true }) ∧
  (∀ s k o, k < 16 → o = getOct s k → o.st = .powering → o.phase = 2 → o.phaseAt < s.beat → s.beat ≤ o.phaseAt + 250 → o.downReq = false →
    OctTo (.octVccqGood k) s k { o with phase := 3, phaseAt := s.beat + 1 }) ∧
  (∀ s k o, k < 16 → o = getOct s k → o.st = .powering → o.phase = 3 → s.beat = o.phaseAt + 25 → o.downReq = false →
    Does (.octResetTimer k) s fun t => t = { s with flash := { s.flash with octs := t.flash.octs }, out := t.out } ∧
      getOct t k = { o with phase := 4, phaseAt := s.beat } ∧ (∀ j, j ≠ k → getOct t j = getOct s j) ∧ t.out = s.out ++ (List.range 64).map fun i => .nand (128 * k + 2 * i) 0xFF 0 []) ∧
  (∀ s k o, k < 16 → o = getOct s k → o.st = .powering → o.downReq = true →
    (o.phase = 1 → o.phaseAt < s.beat → s.beat ≤ o.phaseAt + 500 → o.vccq = false → exec (.octVccGood k) s = .next (goDark s k)) ∧
    (o.phase = 2 → o.phaseAt < s.beat → s.beat ≤ o.phaseAt + 250 → o.vccq = true →
      OctTo (.octVccqGood k) s k { o with st := .draining, drainAt := s.beat, downReq := false, vccq := false }) ∧
    (o.phase = 3 → s.beat = o.phaseAt + 25 → o.vccq = true →
      OctTo (.octResetTimer k) s k { o with st := .draining, drainAt := s.beat, downReq := false, vccq := false })) ∧
  (∀ s k o, o = getOct s k →
    ((o.st ≠ .powering ∨ o.phase ≠ 1 ∨ s.beat ≤ o.phaseAt ∨ o.phaseAt + 500 < s.beat) → Idle (.octVccGood k) s) ∧
    ((o.st ≠ .powering ∨ o.phase ≠ 2 ∨ s.beat ≤ o.phaseAt ∨ o.phaseAt + 250 < s.beat) → Idle (.octVccqGood k) s) ∧
    ((o.st ≠ .powering ∨ o.phase ≠ 3 ∨ s.beat ≠ o.phaseAt + 25) → Idle (.octResetTimer k) s)) ∧
  (∀ s die l o, o = getOct s (dieOct die) → dieOct die < 16 → o.st = .powering → o.phase = 4 → o.seen.contains die = false → o.seen.length < 127 →
    o.phaseAt < s.beat → s.beat ≤ o.phaseAt + 250 →
    Does (.lunReady die l) s fun t => t = { s with flash := { s.flash with octs := t.flash.octs, dies := t.flash.dies }, out := t.out } ∧
      t.out = s.out ++ [.nand die 0x90 0 [0], .nand die 0xEC 0 [0]] ∧ getOct t (dieOct die) = { o with seen := o.seen ++ [die] } ∧
      getDie t die = (if lunOk s (dieOct die) l then some { d := die, ready := false, dark := false, ops := [], resetAt := none, rowCycles := if nth l 9 0 = 4 then 4 else 3 } else none) ∧
      ∀ d, d ≠ die → getDie t d = getDie s d) ∧
  (∀ s die o, o = getOct s (dieOct die) → dieOct die < 16 → o.st = .powering → o.phase = 4 → o.seen.contains die = false → o.seen.length < 127 → o.phaseAt + 250 ≤ s.beat →
    Does (.lunReadyTimeout die) s fun t => t = { s with flash := { s.flash with octs := t.flash.octs, dies := t.flash.dies } } ∧
      getOct t (dieOct die) = { o with seen := o.seen ++ [die] } ∧ getDie t die = none ∧ ∀ d, d ≠ die → getDie t d = getDie s d) ∧
  (∀ s die l o, o = getOct s (dieOct die) → (o.st ≠ .powering ∨ o.phase ≠ 4 ∨ o.seen.contains die = true ∨ s.beat ≤ o.phaseAt ∨ o.phaseAt + 250 < s.beat) → Idle (.lunReady die l) s) ∧
  (∀ s die l o u, o = getOct s (dieOct die) → o.st = .powering → o.phase = 4 → o.seen.contains die = false → 127 ≤ o.seen.length → lunOk s (dieOct die) l = false →
    o.phaseAt < s.beat → s.beat ≤ o.phaseAt + 250 → u = modOct (identifyCmds s die) (dieOct die) (fun o => { o with seen := o.seen ++ [die] }) →
    exec (.lunReady die l) s = .next (identified { u with flash := { u.flash with dies := u.flash.dies.filter fun d => d.d != die } } (dieOct die))) ∧
  (∀ s k o t, k < 16 → o = getOct s k → 128 ≤ o.seen.length → o.downReq = false → (s.flash.dies.any fun d => dieOct d.d == k) = true → identified s k = t →
    getOct t k = { o with phase := 6, phaseAt := s.beat } ∧
      (∀ n, n / 8 = k → (getChan t n).svc = (if s.flash.dies.any fun d => dieChan d.d == n then 2 else 0) ∧ (getChan t n).dieMask = 0) ∧
      t.out = s.out ++ (s.flash.dies.filter fun d => inOct k d.d && dieLun d.d == 0).map fun d => .nand d.d 0xEF 0 [BitVec.ofNat 8 (b2n (bit (profOf s k 2) 0))]) ∧
  (∀ s die, s.beat < (getOct s (dieOct die)).phaseAt + 250 → Idle (.lunReadyTimeout die) s) ∧
  (∀ s k, k < 16 → (getOct s k).st = .powering → ((getOct s k).phase = 1 ∧ (getOct s k).phaseAt + 500 ≤ s.beat ∨ (getOct s k).phase = 2 ∧ (getOct s k).phaseAt + 250 ≤ s.beat) →
    Does (.railGoodTimeout k) s fun t => Darkened t k ∧ (getOct t k).fault = true ∧ ∀ j, j ≠ k → getOct t j = getOct s j)

/-- For every state: an oct asked to leave in the ordered way is DRAINING from the next beat; with nothing booked, or
8,192 beats after its drain began, it turns VCCQ off, and with VCCQ down it goes DARK: rails off and none of its
dies ready. A rail trip makes an oct DARK with its fault latched; a carrier that is lost makes its eight octs
DARK. A channel that retrains in a LIVE oct, once no operation is in progress on it, takes the fastest rate whose
eye reaches FCH_EYE_MIN, counting the rates that failed, and goes out of service where none does or its buffer is
out; at power-up the end of the last training makes the oct LIVE. A re-centre that is due takes two beats of the
channel and keeps the eye it found; below FCH_EYE_MIN the channel goes out of service to retrain, its running
operations going on; one not due does nothing (09_flash_channels.md, 08_care.md). -/
def Obligations.OctsGoDark : Prop :=
  (∀ s k, k < 16 → (getOct s k).st = .draining → (getOct s k).vccq = true → (octBusy s k = false ∨ (getOct s k).drainAt + 8192 ≤ s.beat) →
    Does (.octDrainEnd k) s fun t => getOct t k = { getOct s k with vccq := false } ∧ (∀ j, j ≠ k → getOct t j = getOct s j) ∧ ∀ d ∈ t.flash.dies, dieOct d.d = k → d.ops = []) ∧
  (∀ s k, k < 16 → (getOct s k).st = .live → askDrain s k = modOct s k (fun o => { o with toDrain := true })) ∧
  (∀ s k, k < 16 → (getOct s k).st = .live → (∀ j, j ≠ k → (getOct s j).toDrain = false) → (getOct s k).toDrain = true →
    drainAsked s = modOct s k (fun o => { o with st := .draining, drainAt := s.beat, prompt := false, toDrain := false })) ∧
  (∀ s k, (getOct s k).st ≠ .draining ∨ octBusy s k = true ∧ s.beat < (getOct s k).drainAt + 8192 → Idle (.octDrainEnd k) s) ∧
  (∀ s k, k < 16 → (getOct s k).st = .draining → (getOct s k).vccq = false →
    Does (.octVccqOff k) s fun t => Darkened t k ∧ (getOct t k).darkSince = s.beat ∧ (getOct t k).fault = (getOct s k).fault ∧ ∀ j, j ≠ k → getOct t j = getOct s j) ∧
  (∀ s k, (getOct s k).st ≠ .draining ∨ (getOct s k).vccq = true → Idle (.octVccqOff k) s) ∧
  (∀ s k, k < 16 → (getOct s k).st ≠ .dark → Does (.railTrip k) s fun t => Darkened t k ∧ (getOct t k).fault = true ∧ ∀ j, j ≠ k → getOct t j = getOct s j) ∧
  (∀ s k, (getOct s k).st = .dark → Idle (.railTrip k) s) ∧
  (∀ s j, j < 2 → Does (.carrierPresenceLoss j) s fun t => (∀ i < 8, (getOct t (8 * j + i)).st = .dark) ∧ vget t.flash.present j true = false ∧
      ∀ k, k / 8 ≠ j → getOct t k = getOct s k) ∧
  (∀ s n lo r eyes out, n < 128 → (getChan s n).svc = 2 → (getOct s (n / 8)).st = .live → chanBusy s n = false → vget s.mem.chbufOut n false = false →
    lo = firstRate s n (getChan s n).rate → lowest (fun r => decide (nvVal s 0x08000007 ≤ nth eyes r 0)) lo (7 - lo) = some r →
    Does (.trainingDone n eyes out) s fun t => t = { s with flash := t.flash } ∧ (getChan t n).rate = r ∧ (getChan t n).perBeat = ladderPerBeat r ∧
      (getChan t n).eye = nth eyes r 0 ∧ (getChan t n).lastCentre = s.beat ∧ (getChan t n).centreTs = octTs s (n / 8) ∧ t.flash.trainFails = satAdd s.flash.trainFails ((if s.flash.dies.any fun d => dieChan d.d == n && out.contains d.d then 7 else r) - lo) ∧
      (∀ m, m ≠ n → getChan t m = getChan s m) ∧ t.flash.octs = s.flash.octs) ∧
  (∀ s n lo eyes out, n < 128 → (getChan s n).svc = 2 → (getOct s (n / 8)).st = .live → chanBusy s n = false → vget s.mem.chbufOut n false = false →
    lo = firstRate s n (getChan s n).rate → lowest (fun r => decide (nvVal s 0x08000007 ≤ nth eyes r 0)) lo (7 - lo) = none →
    Does (.trainingDone n eyes out) s fun t => (getChan t n).svc = 0 ∧ (getChan t n).dieMask = 0 ∧ (∀ d ∈ t.flash.dies, dieChan d.d ≠ n) ∧ ∀ m, m ≠ n → getChan t m = getChan s m) ∧
  (∀ s n eyes out, (getOct s (n / 8)).st = .live → chanBusy s n = true → Idle (.trainingDone n eyes out) s) ∧
  (∀ s n e, n < 128 → (getChan s n).svc = 1 → (getOct s (n / 8)).st = .live → recentreDue s n = true → nvVal s 0x08000007 ≤ e →
    Does (.recentre n e) s fun t => t = { s with flash := { s.flash with chans := t.flash.chans }, plan := t.plan } ∧
      getChan t n = { getChan s n with eye := e, lastCentre := s.beat, centreTs := octTs s (n / 8) } ∧ ∀ m, m ≠ n → getChan t m = getChan s m) ∧
  (∀ s n e, n < 128 → (getChan s n).svc = 1 → (getOct s (n / 8)).st = .live → recentreDue s n = true → e < nvVal s 0x08000007 →
    Does (.recentre n e) s fun t => (getChan t n).svc = 2 ∧ ((s.flash.dies.map Die.d).Nodup → ∀ d ∈ s.flash.dies, dieChan d.d = n → ∃ e ∈ t.flash.dies, e.d = d.d ∧ e.ops = d.ops.filter fun o => o.running s.beat) ∧ (getChan t n).eye = e ∧ ∀ m, m ≠ n → getChan t m = getChan s m) ∧
  (∀ s n eyes out, n < 128 → (getChan s n).svc = 2 → (getOct s (n / 8)).st = .powering → (getOct s (n / 8)).phase = 6 →
    exec (.trainingDone n eyes out) s = .next (if (getOct s (n / 8)).downReq then stopPowering s (n / 8) else octLive (trainEnd s n 0 eyes out) (n / 8))) ∧
  (∀ s n eyes out, n < 128 → (getChan s n).svc = 2 → (getOct s (n / 8)).st = .live → chanBusy s n = false → vget s.mem.chbufOut n false = true →
    Does (.trainingDone n eyes out) s fun t => (getChan t n).svc = 0 ∧ (∀ d ∈ t.flash.dies, dieChan d.d ≠ n) ∧ ∀ m, m ≠ n → getChan t m = getChan s m) ∧
  (∀ s n eyes out, (128 ≤ n ∨ (getChan s n).svc ≠ 2) → Idle (.trainingDone n eyes out) s) ∧
  (∀ s n e, (128 ≤ n ∨ (getChan s n).svc ≠ 1 ∨ (getOct s (n / 8)).st ≠ .live ∨ recentreDue s n = false) → Idle (.recentre n e) s)

/-- For every state and oct: a grant reaches a toggling oct and no other; outside a takeover it changes nothing else.
With no grant in FCH_OWN_WAIT beats the toggling stops, and a takeover with no oct left to ask for ends SOLO. A
grant lost while toggling makes the oct DARK, counts, and sets a retry 250,000 beats later; not toggling, it ends
the lease and makes an oct still powered from a switched carrier DARK. A retry that is due starts the lease again
where the oct is still the module's; an oct that goes dark keeps a lease it is still due; a SET of FCH_OWN_MODE
starts the leases of dark octs now due and ends those of octs no longer switched. A SET of FCH_OCT_POWER or
FCH_OCT_FAULT is due for the next beat, in which the first is stored, starts to drain each LIVE oct whose bit is
clear and withdraws a pending stop where it is set, and the second clears the latches of its set bits and no other
(09_flash_channels.md, 12_twin_cane.md). -/
def Obligations.Leases : Prop :=
  (∀ s k, k < 16 → (getOct s k).req = true → (getOct s k).gnt = false → s.twin.takeoverAt = none → OctTo (.ownGrant k) s k { getOct s k with gnt := true }) ∧
  (∀ s k, k < 16 → (getOct s k).req = true → (getOct s k).gnt = false → sided s = true → octSideB s k ≠ s.twin.side → s.twin.takeoverAt.isSome = true → s.twin.st = .solo →
    exec (.ownGrant k) s = .next (firstGrant (modOct s k fun o => { o with gnt := true }))) ∧
  (∀ s k, 16 ≤ k ∨ (getOct s k).req = false ∨ (getOct s k).gnt = true → Idle (.ownGrant k) s) ∧
  (∀ s k, k < 16 → (getOct s k).req = true → (getOct s k).gnt = false → (getOct s k).leaseAt + nvVal s 0x0800000C ≤ s.beat → s.twin.takeoverAt = none →
    OctTo (.grantWaitTimeout k) s k { getOct s k with req := false }) ∧
  (∀ s k, k < 16 → (getOct s k).req = true → (getOct s k).gnt = false → (getOct s k).leaseAt + nvVal s 0x0800000C ≤ s.beat → sided s = true →
    s.twin.takeoverAt.isSome = true → s.twin.st = .solo → (∀ j < 16, j ≠ k → octSideB s j ≠ s.twin.side → (getOct s j).req = false ∧ (getOct s j).gnt = false) →
    Does (.grantWaitTimeout k) s fun t => (getOct t k).req = false ∧ t.twin.st = .solo ∧ t.twin.takeoverAt = none ∧ t.twin.lastTakeover = 3 ∧ t.twin.stale = true) ∧
  (∀ s k j, k < 16 → (getOct s k).req = true → (getOct s k).gnt = false → (getOct s k).leaseAt + nvVal s 0x0800000C ≤ s.beat → sided s = true →
    s.twin.takeoverAt.isSome = true → j < 16 → j ≠ k → octSideB s j ≠ s.twin.side → ((getOct s j).req = true ∨ (getOct s j).gnt = true) →
    OctTo (.grantWaitTimeout k) s k { getOct s k with req := false }) ∧
  (∀ s k, (s.beat < (getOct s k).leaseAt + nvVal s 0x0800000C ∨ 16 ≤ k ∨ (getOct s k).req = false ∨ (getOct s k).gnt = true) → Idle (.grantWaitTimeout k) s) ∧
  (∀ s k, k < 16 → (getOct s k).gnt = true → (getOct s k).req = false → ((getOct s k).switched = false ∨ (getOct s k).st = .dark) →
    OctTo (.grantLoss k) s k { getOct s k with gnt := false }) ∧
  (∀ s k, k < 16 → (getOct s k).gnt = true → (getOct s k).req = false → (getOct s k).switched = true → (getOct s k).st ≠ .dark →
    Does (.grantLoss k) s fun t => Darkened t k ∧ (getOct t k).gnt = false ∧ t.flash.grantLosses = s.flash.grantLosses ∧ ∀ j, j ≠ k → getOct t j = getOct s j) ∧
  (∀ s k, k < 16 → (getOct s k).gnt = true → (getOct s k).req = true → (getOct s k).st = .dark →
    Does (.grantLoss k) s fun t => getOct t k = { getOct s k with gnt := false, req := false, retryAt := some (s.beat + 250000) } ∧
      t.flash.grantLosses = satAdd s.flash.grantLosses 1 ∧ ∀ j, j ≠ k → getOct t j = getOct s j) ∧
  (∀ s k, k < 16 → (getOct s k).gnt = true → (getOct s k).req = true → (getOct s k).st ≠ .dark →
    Does (.grantLoss k) s fun t => Darkened t k ∧ (getOct t k).gnt = false ∧ (getOct t k).req = false ∧ (getOct t k).retryAt = some (s.beat + 250000) ∧
      t.flash.grantLosses = satAdd s.flash.grantLosses 1 ∧ ∀ j, j ≠ k → getOct t j = getOct s j) ∧
  (∀ s k, (getOct s k).gnt = false → Idle (.grantLoss k) s) ∧
  (∀ s k b, k < 16 → (getOct s k).retryAt = some b → b ≤ s.beat → leaseDue s k = true →
    OctTo (.leaseRetry k) s k { getOct s k with req := true, leaseAt := s.beat, retryAt := none }) ∧
  (∀ s k b, k < 16 → (getOct s k).retryAt = some b → b ≤ s.beat → leaseDue s k = false → OctTo (.leaseRetry k) s k { getOct s k with retryAt := none }) ∧
  (∀ s k, (getOct s k).retryAt = none → Idle (.leaseRetry k) s) ∧
  (∀ s k b, (getOct s k).retryAt = some b → s.beat < b → Idle (.leaseRetry k) s) ∧
  (∀ s c x i v, waitsSet s c 0x08000001 1 = some (x, i, v) → exec (.fchOctPower c) s = .next (setDone (storeDue s 0x08000001 v) c St.ok 0)) ∧
  (∀ s v, s.due = [(0x08000001, v)] → actDue s = octPower { s with due := [] } v) ∧
  (∀ s v t, octPower s v = t → nvVal t 0x08000001 = v.toNat ∧
      ∀ k < 16, (v.getLsbD k = false → (getOct s k).st = .live → (getOct t k).st = .draining ∧ (getOct t k).drainAt = s.beat) ∧
        (v.getLsbD k = true → (getOct t k).st = (getOct s k).st ∧ (getOct t k).downReq = false)) ∧
  (∀ s c x i v, waitsSet s c 0x08000003 1 = some (x, i, v) →
    exec (.fchOctFault c) s = .next (setDone (storeDue s 0x08000003 (v ||| (Assoc.get s.due 0x08000003).getD 0)) c St.ok 0)) ∧
  (∀ s k, k < 16 → (getOct s k).st ≠ .dark → (getOct (goDark s k) k).req = ((getOct s k).req && leaseDue s k) ∧ (getOct (goDark s k) k).retryAt = (getOct s k).retryAt) ∧
  (∀ s v, s.due = [(0x08000004, v)] → actDue s = ownMode (storeNv { s with due := [] } 0x08000004 v)) ∧
  (∀ s k, k < 16 → (getOct s k).st = .dark → octSwitched s k = false → (getOct (ownMode s) k).req = false ∧ (getOct (ownMode s) k).retryAt = none) ∧
  (∀ s k, k < 16 → (getOct s k).st = .dark → leaseDue s k = true → (getOct s k).req = false → (getOct s k).retryAt = none →
    getOct (ownMode s) k = { getOct s k with req := true, leaseAt := s.beat }) ∧
  (∀ s v, s.due = [(0x08000003, v)] →
    actDue s = { s with due := [], flash := { s.flash with octs := s.flash.octs.mapFinIdx fun k o _ => if v.getLsbD k then { o with fault := false } else o } })

/-- For every state: over a link that is down, or with a PSEQ already taken, no frame changes anything; an
acknowledgement over a link that is up raises the acknowledged PSEQ, never beyond what was sent. A fresh HB
records what the twin tells; JREC stages its records and sets the entry a MAP record names, and an NS_CREATE
record enters its namespace, unless side A has one with the same NSID or lines, while a namespace of that NSID
that side B is still creating gives way and its NS_CREATE fails with STATE detail 0x02; GATHER puts its granule
into the mirror area, named by the entry or held for its group, or into the gather buffer for a granule of the own
side; ACOMMIT names the held members and drops the group, ADISCARD drops it; SYNC sets the entries it carries and
no other; NSTAB replaces the namespaces of the sides the twin is the source of; ANCHOR is kept; KEYX stores or
destroys a key, but stores none for a namespace this module is creating; CERT records whether the certificate
verifies (12_twin_cane.md, 17_security_life_cycle.md, 16_boot_flash_firmware.md). -/
def Obligations.TwinFrames : Prop :=
  (∀ s p i, (puntyUp s = false ∨ p ≤ s.twin.rxPseq) → ((∃ a b, i = Instr.hb p a b) ∨ (∃ l, i = Instr.jrec p l) ∨ (∃ g a b c d e f, i = Instr.gather p g a b c d e f) ∨
      (∃ a l, i = Instr.acommit p a l) ∨ (∃ a, i = Instr.adiscard p a) ∨ (∃ a l, i = Instr.sync p a l) ∨ (∃ l, i = Instr.nstab p l) ∨ (∃ l, i = Instr.anchor p l) ∨
      (∃ l, i = Instr.keyx p l) ∨ (∃ l, i = Instr.cert p l)) → Idle i s) ∧
  (∀ s p, puntyUp s = false → Idle (.puntyAck p) s) ∧
  (∀ s p, puntyUp s = true → Does (.puntyAck p) s fun t => t = { s with twin := t.twin, xlat := { s.xlat with gather := t.xlat.gather } } ∧
    t.twin = { s.twin with ackedPseq := max s.twin.ackedPseq (min p (s.twin.txPseq - 1)), lastFrame := s.beat, peerPresent := true }) ∧
  (∀ s p q a, Fresh s p → Does (.hb p q a) s fun t => t = { s with twin := t.twin, xlat := { s.xlat with seq := t.xlat.seq } } ∧
    t.twin = { s.twin with rxPseq := p, lastFrame := s.beat, peerPresent := true, peerSeq := q, peerArmed := a } ∧ (sided s = true → q < t.xlat.seq) ∧ s.xlat.seq ≤ t.xlat.seq) ∧
  (∀ s p l, Fresh s p → (s.twin.side = false ∨ ∀ j ∈ l.filterMap JRecord.ofBytes, j.typ ≠ .nsCreate) → Does (.jrec p l) s fun t => t.xlat.staging = s.xlat.staging ++ l.filterMap JRecord.ofBytes ∧ t.twin.rxPseq = p ∧ t.twin.txPseq = s.twin.txPseq + 1 ∧ t.ctxs = s.ctxs) ∧
  (∀ s p l j n, Fresh s p → l.filterMap JRecord.ofBytes = [j] → j.typ = .map → j.count ≤ 1 → getNs s j.nsid = some n →
    Does (.jrec p l) s fun t => mapGet t (mapIdx n j.lba) = .media (j.value % 2 ^ 38) ∧ ∀ i, i ≠ mapIdx n j.lba → mapGet t i = mapGet s i) ∧
  (∀ s p l j, Fresh s p → l.filterMap JRecord.ofBytes = [j] → j.typ = .nsCreate → s.xlat.nss.filter (claimsSame j) = [] →
    Does (.jrec p l) s fun t => getNs t j.nsid = some (twinNs s j) ∧ (∀ n, n.nsid ≠ j.nsid → (n ∈ t.xlat.nss ↔ n ∈ s.xlat.nss)) ∧ t.ctxs = s.ctxs) ∧
  (∀ s p l j, Fresh s p → l.filterMap JRecord.ofBytes = [j] → j.typ = .nsCreate → s.twin.side = false → s.xlat.nss.filter (claimsSame j) ≠ [] →
    Does (.jrec p l) s fun t => t.xlat.nss = s.xlat.nss ∧ t.ctxs = s.ctxs) ∧
  (∀ s p l j n x, Fresh s p → l.filterMap JRecord.ofBytes = [j] → j.typ = .nsCreate → s.twin.side = true → s.xlat.nss.filter (claimsSame j) = [n] →
    n.nsid = j.nsid → creatorOf s n = some x →
    Does (.jrec p l) s fun t => getNs t j.nsid = some (twinNs s j) ∧ ∃ y, getCtx t x.c = some y ∧ y.wait = .posting ∧ y.status = St.state ∧ y.detail = 2) ∧
  (∀ s p m g q tg b n, Fresh s p → getNs s n.nsid = some n → n.sideB ≠ s.twin.side →
    Does (.gather p none m n.nsid g q tg b) s fun t => mapGet t (mapIdx n g) = .gather (gatherSlots + m) ∧ (∀ i, i ≠ mapIdx n g → mapGet t i = mapGet s i) ∧
      (∀ h ∈ granSlots n m g q 0 tg false b, h ∈ t.twin.mirror) ∧ t.twin.rxPseq = p) ∧
  (∀ s p k m g q tg b n, Fresh s p → getNs s n.nsid = some n → n.sideB ≠ s.twin.side →
    Does (.gather p (some k) m n.nsid g q tg b) s fun t => t.xlat = s.xlat ∧ (∀ h ∈ granSlots n m g q k tg true b, h ∈ t.twin.mirror) ∧ t.twin.rxPseq = p) ∧
  (∀ s p k m g q tg b n a, Fresh s p → getNs s n.nsid = some n → n.sideB = s.twin.side → freeGather s n.gslots = some a →
    Does (.gather p k m n.nsid g q tg b) s fun t => mapGet t (mapIdx n g) = .gather a ∧ (∀ i, i ≠ mapIdx n g → mapGet t i = mapGet s i)) ∧
  (∀ s p k q h n, Fresh s p → heldMembers s k = [h] → getNs s h.nsid = some n →
    Does (.acommit p k [q]) s fun t => mapGet t (mapIdx n h.gran) = .gather (gatherSlots + h.slot) ∧ (∀ i, i ≠ mapIdx n h.gran → mapGet t i = mapGet s i) ∧
      ∀ g ∈ t.twin.mirror, ¬ (g.atom = true ∧ g.owner = k)) ∧
  (∀ s p k, Fresh s p → Does (.adiscard p k) s fun t => t.twin.mirror = s.twin.mirror.filter (fun h => !(h.atom && h.owner == k)) ∧ t.xlat = s.xlat ∧ t.twin.rxPseq = p) ∧
  (∀ s p line l, Fresh s p → s.twin.st = .syncing →
    Does (.sync p line l) s fun t => t = { got s p with xlat := { s.xlat with map := t.xlat.map } } ∧
      ∀ i, mapGet t i = if 12 * line ≤ i ∧ i < 12 * line + l.length then wordLoc (nth l (i - 12 * line) 0).toNat else mapGet s i) ∧
  (∀ s p l, Fresh s p → s.twin.st = .syncing →
    Does (.nstab p l) s fun t => t = { got s p with xlat := { s.xlat with nss := t.xlat.nss } } ∧
      (∀ n ∈ t.xlat.nss, n ∈ s.xlat.nss ∧ sourceOf s n.sideB = true ∨ (∃ r ∈ l, n = nsOfRow r) ∧ sourceOf s n.sideB = false)) ∧
  (∀ s p line l i, Fresh s p → s.twin.st ≠ .syncing → (i = Instr.sync p line l ∨ ∃ r, i = Instr.nstab p r) → exec i s = .next (got s p)) ∧
  (∀ s p b, Fresh s p → Does (.anchor p b) s fun t => t = { got s p with twin := t.twin } ∧ ∃ a, t.twin = { (got s p).twin with peerAnchor := some a } ∧
    a.gen = field b 0 4 ∧ a.beginJpos = field b 4 6 ∧ a.careGen = field b 12 4 ∧ a.peMean = field b 16 4) ∧
  (∀ s p b, Fresh s p → field b 4 4 = 0 → Does (.keyx p b) s fun t => t.xlat = s.xlat ∧ ∀ r ∈ t.sec.keyrecs, ¬ (r.nsid = field b 0 2 ∧ r.epoch = field b 8 4)) ∧
  (∀ s p b, Fresh s p → field b 4 4 ≠ 0 → field b 8 4 = 0 → (∀ n, getNs s (field b 0 2) = some n → n.creating = none) → 
    Does (.keyx p b) s fun t => t.xlat = s.xlat ∧ t.twin.rxPseq = p ∧ (openKey s (b.take 12) ((b.drop 12).take 1088) ((b.drop 1100).take 80) = none → t = got s p) ∧
      ∀ k, openKey s (b.take 12) ((b.drop 12).take 1088) ((b.drop 1100).take 80) = some k →
        recOfBody s (recBody s (field b 0 2) 2 (field b 4 4) k) ∈ t.sec.keyrecs ∧ t.twin.txPseq = s.twin.txPseq + 1) ∧
  (∀ s p b n, Fresh s p → field b 4 4 ≠ 0 → getNs s (field b 0 2) = some n → n.creating.isSome = true → exec (.keyx p b) s = .next (sendAck (got s p))) ∧
  (∀ s p b k u, Fresh s p → field b 4 4 ≠ 0 → (∀ n, getNs s (field b 0 2) = some n → n.creating = none) → openKey s (b.take 12) ((b.drop 12).take 1088) ((b.drop 1100).take 80) = some k →
    u = addKeyRec (norPut (got s p) 0x0D (recKey (field b 0 2) (field b 4 4)) (recBody (got s p) (field b 0 2) 2 (field b 4 4) k)) (recBody (got s p) (field b 0 2) 2 (field b 4 4) k) →
    exec (.keyx p b) s = .next (sendAck (if field b 8 4 = 0 then u else destroyKey u (field b 0 2) (field b 8 4)))) ∧
  (∀ s p b, Fresh s p → exec (.cert p b) s = .next ((got s p).updTwin fun t => { t with peerCertOk := certOk s b }))

/-- For every state: TWIN_ATTACH answers OK when an attach is under way and STATE when the module cannot ask, and
otherwise asks, as AUTO_ATTACH does when its conditions hold; TWIN_DETACH asks while PAIRED. A fresh CTRL ATTACH
that may be granted makes the module SYNCING with the epochs it was told, any other is refused; GRANTED makes a
module that asked to attach SYNCING and one that asked to detach DETACHING; REFUSED ends what was asked; DETACH is
granted while PAIRED, but side A's own request comes first; RELEASED starts a warm takeover in a PAIRED module;
READY and LL_DONE are noted; COVERING makes a module that released its side DETACHED. In other states a frame is
only received (12_twin_cane.md, 16_boot_flash_firmware.md). -/
def Obligations.TwinControl : Prop :=
  (∀ s c x, Resident s c 0x94 4 x → x.snap = 0 → (s.twin.st = .syncing ∨ s.twin.asked = 1) → Posts (.twinAttach c) s c St.ok 0 0 (fun t => { s with ctxs := t.ctxs }) fun _ => True) ∧
  (∀ s c x, Resident s c 0x94 4 x → x.snap = 0 → s.twin.st ≠ .syncing → s.twin.asked ≠ 1 → (puntyUp s = false ∨ mayPair s = false ∨ s.twin.st = .paired ∨ s.twin.st = .recovering ∨ s.twin.st = .detaching) →
    Posts (.twinAttach c) s c St.state 6 0 (fun t => { s with ctxs := t.ctxs }) fun _ => True) ∧
  (∀ s c x, Resident s c 0x94 4 x → x.snap = 0 → (s.twin.st = .solo ∨ s.twin.st = .covering ∨ s.twin.st = .detached) → s.twin.asked ≠ 1 → puntyUp s = true → mayPair s = true →
    Does (.twinAttach c) s fun t => t.twin.asked = 1 ∧ t.twin.attachBy = some c ∧ t.twin.txPseq = s.twin.txPseq + 2 ∧ t.twin.st = s.twin.st) ∧
  (∀ s c x, Resident s c 0x93 4 x → x.snap = 0 → (s.twin.st ≠ .paired ∨ puntyUp s = false ∨ s.twin.asked ≠ 0) →
    Posts (.twinDetach c) s c St.state 6 0 (fun t => { s with ctxs := t.ctxs }) fun _ => True) ∧
  (∀ s c x, Resident s c 0x93 4 x → x.snap = 0 → s.twin.st = .paired → puntyUp s = true → s.twin.asked = 0 →
    Does (.twinDetach c) s fun t => t.twin.asked = 2 ∧ t.twin.detachBy = some c ∧ t.twin.txPseq = s.twin.txPseq + 1 ∧ t.twin.st = .paired) ∧
  (∀ s, nvVal s 0x0B000005 = 1 → s.twin.st = .solo → s.twin.asked = 0 → s.twin.dawnWait = none → mayPair s = true → puntyUp s = true → twinSeen s = true →
    exec .autoAttach s = .next (askAttach s none)) ∧
  (∀ s, nvVal s 0x0B000005 ≠ 1 ∨ s.twin.st ≠ .solo ∨ s.twin.asked ≠ 0 ∨ twinSeen s = false ∨ s.twin.dawnWait.isSome = true ∨ mayPair s = false ∨ puntyUp s = false → Idle .autoAttach s) ∧
  (∀ s p b v m, Fresh s p → v = nth b 1 0 → m = (imageOf s s.nor.active).version.toNat → mayPair s = true → (s.twin.st = .solo ∨ s.twin.st = .covering ∨ s.twin.st = .detached ∧ s.twin.asked = 1) → s.twin.peerCertOk = true →
    nth b 0 0 = nvVal s 0x0B000003 → verMajor v = verMajor m → verMinor v ≤ verMinor m + 1 → verMinor m ≤ verMinor v + 1 →
    Does (.ctrlAttach p b) s fun t => t.twin.st = .syncing ∧ t.twin.peerEpochA = nth b 2 0 ∧ t.twin.peerEpochB = nth b 3 0 ∧ t.twin.syncCursor = 0 ∧ t.twin.mirror = [] ∧
      t.twin.asked = 0 ∧ t.twin.readySent = false ∧ t.twin.txPseq = s.twin.txPseq + 2) ∧
  (∀ s p b v m, Fresh s p → v = nth b 1 0 → m = (imageOf s s.nor.active).version.toNat →
    (mayPair s = false ∨ s.twin.peerCertOk = false ∨ nth b 0 0 ≠ nvVal s 0x0B000003 ∨ verMajor v ≠ verMajor m ∨ verMinor m + 1 < verMinor v ∨ verMinor v + 1 < verMinor m ∨
      s.twin.st ≠ .solo ∧ s.twin.st ≠ .covering ∧ (s.twin.st ≠ .detached ∨ s.twin.asked ≠ 1)) → Does (.ctrlAttach p b) s fun t => t.twin.st = s.twin.st ∧ t.twin.asked = s.twin.asked ∧ t.twin.txPseq = s.twin.txPseq + 2 ∧ t.ctxs = s.ctxs) ∧
  (∀ s p, Fresh s p → exec (.ctrlDetach p) s = .next (sendCtrl (got s p) (if s.twin.st = .paired ∧ ¬ (s.twin.asked = 2 ∧ s.twin.side = false) then 3 else 4))) ∧
  (∀ s p b, Fresh s p → s.twin.asked = 1 → Does (.ctrlGranted p b) s fun t => t.twin.st = .syncing ∧ t.twin.peerEpochA = nth b 2 0 ∧ t.twin.attachBy = none ∧
    ∀ c x, s.twin.attachBy = some c → s.twin.detachBy = none → getCtx s c = some x → getCtx t c = some { x with wait := .posting, status := St.ok, detail := 0, result := 0 }) ∧
  (∀ s p b, Fresh s p → s.twin.asked = 2 → Does (.ctrlGranted p b) s fun t => t.twin.st = .detaching ∧ t.twin.asked = 0 ∧ t.twin.released = false) ∧
  (∀ s p, Fresh s p → s.twin.asked ≠ 0 → exec (.ctrlRefused p) s = .next (endAsked (got s p) St.state 6)) ∧
  (∀ s p i, Fresh s p → s.twin.asked = 0 → (i = Instr.ctrlRefused p ∨ ∃ b, i = Instr.ctrlGranted p b) → exec i s = .next (got s p)) ∧
  (∀ s p c x, Fresh s p → s.twin.asked ≠ 0 → s.twin.attachBy = some c → s.twin.detachBy = none → getCtx s c = some x →
    Does (.ctrlRefused p) s fun t => t.twin.asked = 0 ∧ t.twin.attachBy = none ∧ getCtx t c = some { x with wait := .posting, status := St.state, detail := 6, result := 0 }) ∧
  (∀ s p, Fresh s p → s.twin.st = .paired → Does (.ctrlReleased p) s fun t => t.twin.takeoverAt = some s.beat ∧ t.twin.takeoverWarm = true ∧ t.twin.released = true ∧
    t.twin.takeovers = satAdd s.twin.takeovers 1 ∧ ∀ x ∈ t.ctxs, x.mirrorWait = []) ∧
  (∀ s p, Fresh s p → s.twin.st = .syncing → Does (.ctrlReleased p) s fun t => t.twin.released = true ∧ t.twin.st = .syncing) ∧
  (∀ s p, Fresh s p → s.twin.st ≠ .paired → s.twin.st ≠ .syncing → exec (.ctrlReleased p) s = .next (got s p)) ∧
  (∀ s p, Fresh s p → exec (.ctrlReady p) s = .next (if s.twin.st = .syncing then (got s p).updTwin fun t => { t with readySeen := true } else got s p)) ∧
  (∀ s p, Fresh s p → exec (.ctrlLlDone p) s = .next ((got s p).updTwin fun t => { t with llDone := true })) ∧
  (∀ s p, Fresh s p → s.twin.st = .detaching → s.twin.released = true → Does (.ctrlCovering p) s fun t => t.twin.st = .detached ∧ t.twin.detachBy = none ∧ t.twin.released = false ∧
    ∀ c x, s.twin.detachBy = some c → getCtx s c = some x → getCtx t c = some { x with wait := .posting, status := St.ok, detail := 0, result := 0 }) ∧
  (∀ s p, Fresh s p → (s.twin.st ≠ .detaching ∨ s.twin.released = false) → exec (.ctrlCovering p) s = .next (got s p))

/-- For every state: the link comes up with 8 or 4 lanes and PSEQ restarts, and goes down with no lane and every
request not answered ended with STATE. Neither edge nor frame within the limit concludes that the twin is absent,
a PAIRED module with a current copy then starting a warm takeover that counts; a missing frame alone leaves the
pair with a stale copy, a missing edge alone counts a heartbeat fault. A removed peer is absent at once. A SOLO
module concludes it once, until it sees the twin again; past its retry beat it leases the twin's octs again; a
wait at Dawn that ends unseen takes over. A cold scan that is done makes a RECOVERING module COVERING; the care
records of the side taken over are taken as they are (12_twin_cane.md, 10_data_movers.md). -/
def Obligations.TwinAbsence : Prop :=
  (∀ s n, s.day.puntyOn = true → 4 ≤ n → exec (.puntyLinkUp n) s = .next (s.updTwin fun t => { t with lanes := if 8 ≤ n then 8 else 4, txPseq := 1, rxPseq := 0, ackedPseq := 0 })) ∧
  (∀ s n, s.day.puntyOn = false ∨ n < 4 → Idle (.puntyLinkUp n) s) ∧
  (∀ s, Does .puntyLinkDown s fun t => t.twin.lanes = 0 ∧ t.twin.asked = 0 ∧ vget t.movers.pacer 0 true = false ∧ t.xlat = s.xlat ∧ t.twin.st = s.twin.st) ∧
  (∀ s, sided s = false ∨ s.twin.hbStopped = true → Idle .twinHbMiss s) ∧
  (∀ s, sided s = true → s.twin.hbStopped = false → s.twin.lastEdge + nvVal s 0x0B000006 ≤ s.beat → s.twin.lastFrame + nvVal s 0x0B000006 ≤ s.beat →
    exec .twinHbMiss s = .next (concludeAbsent s)) ∧
  (∀ s, sided s = true → s.twin.hbStopped = false → s.beat < s.twin.lastEdge + nvVal s 0x0B000006 → s.twin.lastFrame + nvVal s 0x0B000006 ≤ s.beat →
    exec .twinHbMiss s = .next (linkLost s) ∧ (s.twin.st = .paired → (linkLost s).twin.st = .solo ∧ (linkLost s).twin.stale = true)) ∧
  (∀ s, sided s = true → s.twin.hbStopped = false → s.twin.lastEdge + nvVal s 0x0B000006 ≤ s.beat → s.beat < s.twin.lastFrame + nvVal s 0x0B000006 →
    exec .twinHbMiss s = .next { s with twin := { s.twin with hbFaults := satAdd32 s.twin.hbFaults 1, lastEdge := s.beat } }) ∧
  (∀ s, sided s = true → s.twin.hbStopped = false → s.beat < s.twin.lastEdge + nvVal s 0x0B000006 → s.beat < s.twin.lastFrame + nvVal s 0x0B000006 → Idle .twinHbMiss s) ∧
  (∀ s, s.twin.hbStopped = true → exec .twinPeerRemoved s = .next { s with twin := { s.twin with peerPresent := false } }) ∧
  (∀ s, s.twin.hbStopped = false → exec .twinPeerRemoved s = .next (concludeAbsent { s with twin := { s.twin with peerPresent := false } })) ∧
  (∀ s, s.twin.hbStopped = false → sided s = true → s.twin.takeoverAt = none → s.twin.st = .paired →
    Does .twinPeerRemoved s fun t => t.twin.peerPresent = false ∧ t.twin.takeoverAt = some s.beat ∧ t.twin.takeoverWarm = !s.twin.stale ∧
      t.twin.takeovers = satAdd s.twin.takeovers 1 ∧ ∀ x ∈ t.ctxs, x.mirrorWait = []) ∧
  (∀ s, sided s = true → s.twin.st = .solo → s.twin.takeoverAt = none → stillAbsent s = true → concludeAbsent s = s) ∧
  (∀ s, sided s = true → s.twin.st = .solo → s.twin.takeoverAt = none → stillAbsent s = false →
    (concludeAbsent s).twin.takeoverAt = some s.beat ∧ (concludeAbsent s).twin.absentAt = some s.beat) ∧
  (∀ s, sided s = true → s.twin.st = .solo → s.twin.takeoverAt = none → s.twin.dawnWait = none → s.twin.retryAt ≤ s.beat → s.twin.hbStopped = false →
    Does .twinRetry s fun t => t.twin.takeoverAt = some s.beat ∧ t.twin.takeoverWarm = (!s.twin.stale) ∧ t.twin.takeovers = s.twin.takeovers) ∧
  (∀ s, sided s = false ∨ s.twin.st ≠ .solo ∨ s.beat < s.twin.retryAt ∨ s.twin.takeoverAt.isSome = true ∨ s.twin.dawnWait.isSome = true ∨ s.twin.hbStopped = true → Idle .twinRetry s) ∧
  (∀ s b, s.twin.dawnWait = none → Idle (.twinDawnWait b) s) ∧
  (∀ s b, s.twin.dawnWait = some b → s.beat < b → Idle (.twinDawnWait false) s) ∧
  (∀ s b, s.twin.dawnWait = some b → (s.twin.wasDetached = false ∧ nvVal s 0x0B000005 ≠ 1 ∨ mayPair s = false ∨ puntyUp s = false ∨ s.twin.asked ≠ 0) →
    exec (.twinDawnWait true) s = .next { s with twin := { s.twin with dawnWait := none, wasDetached := false } }) ∧
  (∀ s b, s.twin.dawnWait = some b → b ≤ s.beat → sided s = false → exec (.twinDawnWait false) s = .next { s with twin := { s.twin with dawnWait := none, wasDetached := false } }) ∧
  (∀ s b, s.twin.dawnWait = some b → b ≤ s.beat → sided s = true → (s.twin.st = .solo ∨ s.twin.st = .detached) →
    Does (.twinDawnWait false) s fun t => t.twin.dawnWait = none ∧ t.twin.takeoverAt = some s.beat ∧ t.twin.takeovers = satAdd s.twin.takeovers 1) ∧
  (∀ s b, s.twin.dawnWait = some b → (s.twin.wasDetached = true ∨ nvVal s 0x0B000005 = 1) → mayPair s = true → puntyUp s = true → s.twin.asked = 0 →
    Does (.twinDawnWait true) s fun t => t.twin.dawnWait = none ∧ t.twin.asked = 1 ∧ t.twin.attachBy = none) ∧
  (∀ s a b, s.twin.st ≠ .recovering → Idle (.coldScanDone a b) s) ∧
  (∀ s a b, s.twin.st = .recovering → Does (.coldScanDone a b) s fun t => t.twin.st = .covering ∧ t.twin.scanDone = true ∧ t.ctxs = s.ctxs ∧ s.xlat.seq ≤ t.xlat.seq ∧ t.xlat.ways = []) ∧
  (∀ s l, s.care.takeoverCare = false → Idle (.takeoverCare l) s) ∧
  (∀ s l, s.care.takeoverCare = true → Does (.takeoverCare l) s fun t => t.care.takeoverCare = false ∧ t.ctxs = s.ctxs ∧ t.xlat.map = s.xlat.map ∧
    ∀ j, octSideB s (dieOct (j / 8192)) = s.twin.side → getBlock t j = getBlock s j) ∧
  (∀ s i b, s.care.takeoverCare = true → s.media.bands = [] → octSideB s (dieOct (i / 8192)) ≠ s.twin.side →
    Does (.takeoverCare [(i, b)]) s fun t => t = { s with care := t.care } ∧ t.care.takeoverCare = false ∧ getBlock t i = Block.ofBytes b ∧ ∀ j, j ≠ i → getBlock t j = getBlock s j)

/-- For every state: a frame of no established session does nothing, one whose FCOUNT was accepted before is dropped
and counted, one whose tag fails is counted as an authentication failure. Of an established session: a REQ with a
new MSGID enters the queue where it has room and is answered at once where it has none, and one kept enters no
second time; a REP gives the RCALL that waits its reply and ends the request; an acknowledgement of a message
records how far; CREDIT sets what may still be sent and sends it; KEEPALIVE is received; CLOSE ends the session,
its sent RCALLs unreachable. A REPL that fits is applied once at the replica and noted with its SEQ, one of
another granule size or capacity is an error, one for no replica is only received; a REPL_ACK ends the operations
up to its mark at the source, and completes a cutover it covers. A session that was replaced goes on receiving,
its successor answering (12_twin_cane.md). -/
def Obligations.CaneFrames : Prop :=
  (∀ s sid f tag i, IsFrame i sid f tag → getSession s sid = none → Idle i s) ∧
  (∀ s sid f tag i x, IsFrame i sid f tag → getSession s sid = some x → x.phase < 2 → Idle i s) ∧
  (∀ s sid f tag i x, IsFrame i sid f tag → getSession s sid = some x → 2 ≤ x.phase → x.fresh f = false →
    exec i s = .next (s.updCane fun c => { c with replayDrops := satAdd c.replayDrops 1 })) ∧
  (∀ s sid f i x, IsFrame i sid f false → getSession s sid = some x → 2 ≤ x.phase → x.fresh f = true → exec i s = .next (s.updCane fun c => { c with authFails := satAdd c.authFails 1 })) ∧
  (∀ s sid f x m h b, Takes s sid f x → (x.dedup.find? fun d => d.msgId == m) = none → s.cane.queue.length < nvVal s 0x0C000015 →
    Does (.req sid f true m h b) s fun t => (∃ q, t.cane.queue = s.cane.queue ++ [q] ∧ q.sid = sid ∧ q.msgId = m ∧ q.hops = h ∧ q.node = x.node ∧ q.repCap = field b 24 4 ∧ q.data = reqEntry x.node b) ∧
      t.ctxs = s.ctxs ∧ t.xlat = s.xlat ∧ ∃ y, getSession t sid = some y ∧ y.dedup = x.dedup ++ [{ msgId := m, rep := none, repAt := 0 }]) ∧
  (∀ s sid f x m h b, Takes s sid f x → (x.dedup.find? fun d => d.msgId == m) = none → nvVal s 0x0C000015 ≤ s.cane.queue.length → sid ≠ 0 →
    Does (.req sid f true m h b) s fun t => t.cane.queue = s.cane.queue ∧ t.ctxs = s.ctxs ∧ t.xlat = s.xlat ∧ ∃ y, getSession t sid = some y ∧
      y.dedup = x.dedup ++ [{ msgId := m, rep := some (repMessage St.classFull 0 0 []), repAt := s.beat }]) ∧
  (∀ s sid f x m h b d, Takes s sid f x → (x.dedup.find? fun d => d.msgId == m) = some d →
    Does (.req sid f true m h b) s fun t => t.cane.queue = s.cane.queue ∧ t.ctxs = s.ctxs) ∧
  (∀ s sid f x m b o a, Takes s sid f x → (x.out.find? fun k => k.typ == 0x10 && k.msgId == m) = some o → o.call = some a →
    Does (.rep sid f true m b) s fun t => t.ctxs = (tellCall s a b).ctxs ∧ ∃ y, getSession t sid = some y ∧ y.out = x.out.filter fun k => !(k.typ == 0x10 && k.msgId == m)) ∧
  (∀ s sid f x m b, Takes s sid f x → (x.out.find? fun k => k.typ == 0x10 && k.msgId == m) = none →
    Does (.rep sid f true m b) s fun t => t.ctxs = s.ctxs ∧ t.xlat = s.xlat ∧ ∃ y, getSession t sid = some y ∧ y.out.length = x.out.length) ∧
  (∀ s sid f x m n, Takes s sid f x → (x.out.find? fun k => k.msgId == m && k.open_) = none → exec (.caneAck sid f true m n) s = .next (took s sid f 1)) ∧
  (∀ s sid f x u k, getSession s sid = some x → x.phase = 3 → x.fresh f = true → u = took s sid f 1 → k = replySid u (x.accept f s.beat) →
    exec (.keepalive sid f true) s = .next u ∧ (∀ n, exec (.credit sid f true n) s = .next (canePump (modSession u k fun y => { y with credit := n }) k)) ∧
    exec (.close sid f true) s = .next (dropSession (modSession u sid fun y => { y with out := x.out.filter fun m => !(m.typ == 0x10 && m.sent == 0) }) sid)) ∧
  (∀ s sid f x m n o, Takes s sid f x → (x.out.find? fun k => k.msgId == m && k.open_) = some o →
    Does (.caneAck sid f true m n) s fun t => t = { s with cane := t.cane } ∧ ∃ y, getSession t sid = some y ∧ y.lastAck = s.beat ∧
      y.out = (updIf o.same (fun k => { k with acked := max k.acked (min n k.bytes.length) }) x.out).filter fun k => !o.same k || k.open_ || k.typ == 0x10) ∧
  (∀ s sid f x n, Takes s sid f x → exec (.credit sid f true n) s = .next (canePump (modSession (took s sid f 1) sid fun y => { y with credit := n }) sid)) ∧
  (∀ s sid f x, Takes s sid f x → exec (.keepalive sid f true) s = .next (took s sid f 1)) ∧
  (∀ s sid f x, Takes s sid f x → x.out = [] → Does (.close sid f true) s fun t => t = { s with cane := t.cane } ∧ getSession t sid = none) ∧
  (∀ s sid f x, Takes s sid f x → (∀ m ∈ x.out, m.typ = 0x10 → m.sent ≠ 0) → exec (.close sid f true) s = .next (dropSession (took s sid f 1) sid)) ∧
  (∀ s sid f x m a, Takes s sid f x → x.out = [m] → m.call = some a → m.sent ≠ 0 →
    Does (.close sid f true) s fun t => getSession t sid = none ∧ t.ctxs = (unreachable s a).ctxs) ∧
  (∀ s sid f x m n r q g k b, Takes s sid f x → getNs s n.nsid = some n → getRepl s n.nsid = some r → replReplica s n.nsid = true → replNode s n.nsid = x.node →
    serves s n.sideB = true → n.deleting = false → opsFit s n [(g, k, [])] = true → s.plan.stopped = false → (r.lastMsg.1 ≠ sid ∨ r.lastMsg.2 < m) →
    Does (.repl sid f true m n.nsid n.g16k n.cap q b false false [(g, k, [])]) s fun t => (∀ j, g ≤ j → j < g + k → mapGet t (mapIdx n j) = .unmapped) ∧
      (∀ i, (i < mapIdx n g ∨ mapIdx n (g + k) ≤ i) → mapGet t i = mapGet s i) ∧
      ∃ u, getRepl t n.nsid = some u ∧ u.mode = (if b then 2 else 3) ∧ u.mark = (if b then r.mark else max r.mark q) ∧ u.lastMsg = (sid, m)) ∧
  (∀ s sid f x m n r q b at_ cut ops, Takes s sid f x → getNs s n.nsid = some n → getRepl s n.nsid = some r → replReplica s n.nsid = true → replNode s n.nsid = x.node →
    serves s n.sideB = true → n.deleting = false → opsFit s n ops = true → s.plan.stopped = false →
    Does (.repl sid f true m n.nsid n.g16k n.cap q b at_ cut ops) s fun t => ((r.lastMsg.1 ≠ sid ∨ r.lastMsg.2 < m) → ∃ u, getRepl t n.nsid = some u ∧ u.mode = (if b then 2 else 3) ∧
        u.mark = (if b then r.mark else max r.mark q) ∧ u.lastMsg = (sid, m) ∧ u.cut = if cut then some q else r.cut) ∧
      (r.lastMsg.1 = sid → m ≤ r.lastMsg.2 → t.xlat = s.xlat ∧ t.ctxs = s.ctxs)) ∧
  (∀ s sid f x m n r g cap q b at_ cut ops, Takes s sid f x → getNs s n.nsid = some n → getRepl s n.nsid = some r → replReplica s n.nsid = true → replNode s n.nsid = x.node →
    serves s n.sideB = true → n.deleting = false → (g ≠ n.g16k ∨ cap ≠ n.cap) →
    Does (.repl sid f true m n.nsid g cap q b at_ cut ops) s fun t => t.xlat = s.xlat ∧ ∃ u, getRepl t n.nsid = some u ∧ u.mode = 5) ∧
  (∀ s sid f x m k g cap q b at_ cut ops, Takes s sid f x → (getNs s k = none ∨ getRepl s k = none ∨ replReplica s k = false ∨ replNode s k ≠ x.node) →
    exec (.repl sid f true m k g cap q b at_ cut ops) s =
      .next (took s sid f (segments (Config.replMessage [k, b2n g, cap, q, b2n b, b2n at_, b2n cut] ops)).length)) ∧
  (∀ s sid f x g cap b, Takes s sid f x → (getNs s (field b 0 2) = none ∨ getRepl s (field b 0 2) = none ∨ replSource s (field b 0 2) = false ∨ replNode s (field b 0 2) ≠ x.node) →
    exec (.replAck sid f true g cap b) s = .next (took s sid f 1)) ∧
  (∀ s sid f x g cap n r b, Takes s sid f x → n.nsid = field b 0 2 → getNs s n.nsid = some n → getRepl s n.nsid = some r → replSource s n.nsid = true → replNode s n.nsid = x.node →
    r.mode ≠ 4 → Does (.replAck sid f true g cap b) s fun t => ∃ u, getRepl t n.nsid = some u ∧
      ((g ≠ n.g16k ∨ cap ≠ n.cap) → u.mode = 5 ∧ u.ops = []) ∧
      (g = n.g16k → cap = n.cap → u.mark = max r.mark (field b 8 8) ∧ u.ops = r.ops.filter (fun o => !(o.sent && decide (o.seq ≤ field b 8 8))) ∧
        (∀ q, r.cut = some q → q ≤ field b 8 8 → u.mode = 4) ∧ (r.cut = none → u.mode = if r.mode = 1 then 2 else r.mode))) ∧
  (∀ s sid f x n r b, Takes s sid f x → n.nsid = field b 0 2 → getNs s n.nsid = some n → getRepl s n.nsid = some r → replSource s n.nsid = true → replNode s n.nsid = x.node →
    r.mode = 3 → r.cut = none →
    Does (.replAck sid f true n.g16k n.cap b) s fun t => ∃ u, getRepl t n.nsid = some u ∧ u.mode = 3 ∧ u.mark = max r.mark (field b 8 8) ∧
      u.ops = r.ops.filter fun o => !(o.sent && decide (o.seq ≤ field b 8 8)))

/-- For every state: without a link up and a certificate KX1 does nothing; a repeated one gets the same KX2 again, a
new one that is not acceptable counts as a failure, an acceptable one is answered, and of two opened at once the
lower node's is kept. KX2 and KX3 establish the session they belong to where key and signature check, and
otherwise end it and count a failure; with no such handshake they do nothing. A handshake or message past its
limit is sent again or given up, a kept MSGID and the old keys of a replaced session expire, and a session due a
rekey begins a new handshake. A link takes the state it is told. Neighbour solicitations and echo requests for the
port's own address are answered, others not. A SET of CANE_REPL_n that clears EN ends that replication
(12_twin_cane.md). -/
def Obligations.CaneSessions : Prop :=
  (∀ s n b, canKex s = false → Idle (.kx1 n b) s) ∧
  (∀ s n b x, canKex s = true → kexAnswered s n = some x → x.kx1 = b →
    exec (.kx1 n b) s = .next (sendKex (s.updCane fun c => { c with retransmits := satAdd c.retransmits (segments x.kx2).length }) x.sid 2 x.kx2)) ∧
  (∀ s n b x, canKex s = true → kexAnswered s n = some x → x.kx1 ≠ b →
    exec (.kx1 n b) s = .next (if kexOk s b 1224 = false then authFail s
      else answerKx1 (s.updCane fun c => { c with sessions := c.sessions.filter fun y => y.sid != x.sid }) n b x.out x.rekeyOf)) ∧
  (∀ s n b x, canKex s = true → kexAnswered s n = none → kexBegun s n = none → sessionTo s n = some x →
    exec (.kx1 n b) s = .next (if kexOk s b 1224 = false then authFail s else answerKx1 s n b [] (some x.sid))) ∧
  (∀ s n b, canKex s = true → kexAnswered s n = none → kexBegun s n = none → sessionTo s n = none → sessionRoom s = none →
    exec (.kx1 n b) s = .next (if kexOk s b 1224 = false then authFail s else s)) ∧
  (∀ s n b, canKex s = true → kexAnswered s n = none → (b.drop 32).take 8 ≠ domainBytes s → exec (.kx1 n b) s = .next (authFail s)) ∧
  (∀ s n b x, canKex s = true → kexAnswered s n = none → kexBegun s n = some x →
    exec (.kx1 n b) s = .next (if kexOk s b 1224 = false then authFail s else if ownNode s < n then s
      else answerKx1 (s.updCane fun c => { c with sessions := c.sessions.filter fun y => y.sid != x.sid }) n b x.out x.rekeyOf)) ∧
  (∀ s n b u, canKex s = true → kexAnswered s n = none → kexBegun s n = none → sessionTo s n = none → sessionRoom s = some u →
    exec (.kx1 n b) s = .next (if kexOk s b 1224 = false then authFail s else answerKx1 u n b [] none)) ∧
  (∀ s n b, kexBegun s n = none → Idle (.kx2 n b) s) ∧
  (∀ s n b x cert, kexBegun s n = some x → cert = certAt b 1132 →
    Does (.kx2 n b) s fun t => (Config.kemDecap x.seed ((b.drop 44).take 1088) = none → t = failKex s x.sid) ∧
      ∀ k, Config.kemDecap x.seed ((b.drop 44).take 1088) = some k →
        t = (if kexOk s b 1132 = true ∧ Config.sigOk (subjKey cert) (sha3 (x.kx1 ++ b.take (1136 + cert.length))) ((b.drop (1136 + cert.length)).take 2420) = true then
          establish (sendKex (modSession s x.sid fun y => { y with kx2 := b, peerSid := field b 40 4, keyTx := (kexKeys k x.kx1 b).1, keyRx := (kexKeys k x.kx1 b).2 }) x.sid 3
            (leBytes 4 x.sid ++ signed s (x.kx1 ++ b))) x.sid
          else failKex s x.sid)) ∧
  (∀ s n b, kexAnswered s n = none → Idle (.kx3 n b) s) ∧
  (∀ s n b x, kexAnswered s n = some x →
    exec (.kx3 n b) s = .next (if Config.sigOk (subjKey (certAt x.kx1 1224)) (sha3 (x.kx1 ++ x.kx2)) ((b.drop 4).take 2420) = true then
      establish (modSession s x.sid fun y => { y with peerSid := field b 0 4 }) x.sid else failKex s x.sid)) ∧
  (∀ s sid x, getSession s sid = some x → x.out = [] → (failKex s sid).cane.authFails = satAdd s.cane.authFails 1 ∧ getSession (failKex s sid) sid = none) ∧
  (∀ s sid m x, getSession s sid = some x → x.phase = 0 → x.kexAt + nvVal s 0x0C00000F ≤ s.beat →
    exec (.caneRto sid m) s = .next (sendKex (s.updCane fun c => { c with retransmits := satAdd c.retransmits (segments x.kx1).length }) sid 1 x.kx1)) ∧
  (∀ s sid m x, getSession s sid = some x → x.phase = 0 → s.beat < x.kexAt + nvVal s 0x0C00000F → Idle (.caneRto sid m) s) ∧
  (∀ s sid m, (getSession s sid = none ∨ ∃ x, getSession s sid = some x ∧ (x.phase = 1 ∨ 2 ≤ x.phase ∧ caneUp s = false ∨ 2 ≤ x.phase ∧ x.out = [])) → Idle (.caneRto sid m) s) ∧
  (∀ s sid m x o k, getSession s sid = some x → x.phase = 2 → caneUp s = true → x.out = [o] → o.msgId = m → o.open_ = true → o.acked < o.sent → o.sentAt + nvVal s 0x0C00000F ≤ s.beat →
    k = o.acked / segBytes * segBytes →
    Does (.caneRto sid m) s fun t => t.xlat = s.xlat ∧ t.ctxs = s.ctxs ∧
      t.cane.retransmits = satAdd s.cane.retransmits ((segmentsFrom (o.bytes.length / segBytes + 1) o.bytes k).take (ceilDiv (o.sent - k) segBytes)).length ∧
      ∃ y, getSession t sid = some y ∧ y.out = [{ o with sentAt := s.beat }]) ∧
  (∀ s sid m x, getSession s sid = some x → x.phase = 0 →
    exec (.caneGiveup sid m) s = .next (if x.opened + nvVal s 0x0C000010 ≤ s.beat then dropSession s sid else s)) ∧
  (∀ s sid m x, getSession s sid = some x → x.phase = 1 → x.kexAt + nvVal s 0x0C000010 ≤ s.beat → exec (.caneGiveup sid m) s = .next (dropSession s sid)) ∧
  (∀ s sid m x o a, getSession s sid = some x → x.phase = 2 → x.out = [o] → o.msgId = m → o.open_ = true → o.typ = 0x10 → o.call = some a →
    max x.lastAck o.firstAt + nvVal s 0x0C000010 ≤ s.beat →
    Does (.caneGiveup sid m) s fun t => t.ctxs = (unreachable s a).ctxs ∧ ∃ y, getSession t sid = some y ∧ y.out = []) ∧
  (∀ s sid m x, getSession s sid = some x → 2 ≤ x.phase → x.out = [] → Idle (.caneGiveup sid m) s) ∧
  (∀ s sid m x, getSession s sid = some x →
    Does (.caneDedupExpiry sid m) s fun t => t = { s with cane := t.cane } ∧ getSession t sid = some { x with dedup := x.dedup.filter fun d => !(d.msgId == m && d.rep.isSome && decide (d.repAt + nvVal s 0x0C000011 ≤ s.beat)) }) ∧
  (∀ s sid x b, getSession s sid = some x → x.oldUntil = some b → b ≤ s.beat →
    Does (.oldSessionKeysExpiry sid) s fun t => t = { s with cane := { s.cane with sessions := s.cane.sessions.filter fun y => y.sid != sid } }) ∧
  (∀ s sid x b, getSession s sid = some x → (x.oldUntil = none ∨ x.oldUntil = some b ∧ s.beat < b) → Idle (.oldSessionKeysExpiry sid) s) ∧
  (∀ s sid x, getSession s sid = some x → rekeyDue s x = true → canKex s = true → exec (.caneRekey sid) s = .next (startKex s x.node (some sid)).2) ∧
  (∀ s sid x, getSession s sid = some x → (rekeyDue s x = false ∨ canKex s = false) → Idle (.caneRekey sid) s) ∧
  (∀ s p st, s.day.caneOn = true → p < 2 → st ≤ 2 → Does (.caneLinkChange p st) s fun t => vget t.cane.link p 9 = st ∧ vget t.cane.link (1 - p) 9 = vget s.cane.link (1 - p) 9 ∧
    t.cane.queue = s.cane.queue ∧ t.ctxs = s.ctxs) ∧
  (∀ s p st, s.day.caneOn = false ∨ 2 ≤ p ∨ 2 < st → Idle (.caneLinkChange p st) s) ∧
  (∀ s p src, p < 2 → canePort s p = true → Does (.neighborSolicitation p (ownAddress s p) src) s fun t => t = { s with out := t.out } ∧ ∃ b, t.out = s.out ++ [.icmp p 136 src b]) ∧
  (∀ s p src b, p < 2 → canePort s p = true → exec (.echoRequest p src (ownAddress s p) b) s = .next { s with out := s.out ++ [.icmp p 129 src b] }) ∧
  (∀ s p src d b, (d ≠ ownAddress s p ∨ 2 ≤ p ∨ canePort s p = false) → Idle (.neighborSolicitation p d src) s ∧ Idle (.echoRequest p src d b) s) ∧
  (∀ s c x i v, waitsSet s c 0x0C00001D 4095 = some (x, i, v) → bit v.toNat 0 = false →
    Does (.caneRepl c) s fun t => getRepl t (i + 1) = none ∧ nvVal t (0x0C00001D + i) = v.toNat ∧ ∀ n, n ≠ i + 1 → getRepl t n = getRepl s n) ∧
  (∀ s c x i v, waitsSet s c 0x0C00001D 4095 = some (x, i, v) → bit v.toNat 0 = true → bits (replVal s (i + 1)) 33 8 ≠ bits v.toNat 33 8 →
    Does (.caneRepl c) s fun t => (getRepl t (i + 1)).map ReplState.mode = some 1 ∧ nvVal t (0x0C00001D + i) = v.toNat) ∧
  (∀ s c x i v, waitsSet s c 0x0C00001D 4095 = some (x, i, v) → bit v.toNat 0 = true → bits (replVal s (i + 1)) 33 8 = bits v.toNat 33 8 →
    Does (.caneRepl c) s fun t => nvVal t (0x0C00001D + i) = v.toNat ∧ (replVal s (i + 1) % 4 ≠ v.toNat % 4 → (getRepl t (i + 1)).map ReplState.mode = some 1) ∧
      (replVal s (i + 1) % 4 = v.toNat % 4 → getRepl t (i + 1) = getRepl s (i + 1)))

/-- For every state and feed: a feed that rises above 35.0 V is good from then on, and 25,000 beats later it conducts.
In a running module that is all; where the always-on domain had no power, BEAT counts from 0 and Dawn begins;
after Last Light Dawn begins with wake source 6; after a controller hot stop nothing restarts. Above 78.0 V a feed
locks out and conducts no more; below 34.0 V it is no longer good and conducts no more; between them only its
voltage changes; a good feed that is lost is counted once. A breaker that trips ends conduction. Below 76.0 V a
lockout ends, and the switch closes where the feed is good. No event at one feed changes the other
(13_power_entry_last_light.md, 14_times_of_day_thermal.md). -/
def Obligations.FeedsComeAndGo : Prop :=
  (∀ s f mv, f < 2 → 35000 < mv → mv ≤ 78000 → (getFeed s f).good = false → (getFeed s f).lockout = false →
    FeedTo (.feedGood f mv) s f { getFeed s f with mv := mv, good := true, reversed := false, goodAt := s.beat }) ∧
  (∀ s f mv, 2 ≤ f ∨ mv ≤ 35000 ∨ 78000 < mv ∨ (getFeed s f).good = true ∨ (getFeed s f).lockout = true → Idle (.feedGood f mv) s) ∧
  (∀ s f, f < 2 → (getFeed s f).good = true → (getFeed s f).conduct = false → (getFeed s f).breaker = false → s.power.aonPowered = true →
    (getFeed s f).goodAt + 25000 ≤ s.beat → s.power.lost = false → FeedTo (.feedConduct f) s f { getFeed s f with conduct := true }) ∧
  (∀ s f, f < 2 → (getFeed s f).good = true → (getFeed s f).conduct = false → (getFeed s f).breaker = false → s.power.aonPowered = true →
    (getFeed s f).goodAt + 25000 ≤ s.beat → s.power.lost = true → s.sec.tamperAt = none →
    (hotStopped s = true → Does (.feedConduct f) s fun t => t = { s with power := t.power } ∧ t.power.lost = false ∧ getFeed t f = { getFeed s f with conduct := true }) ∧
    (hotStopped s = false → Does (.feedConduct f) s fun t => Dawned s t ∧ t.beat = s.beat ∧ t.day.lastWake = BitVec.ofNat 64 (6 + s.beat * 2 ^ 16) ∧
      getFeed t f = { getFeed s f with conduct := true })) ∧
  (∀ s f, f < 2 → (getFeed s f).good = true → (getFeed s f).conduct = false → (getFeed s f).breaker = false → s.power.aonPowered = true →
    (getFeed s f).goodAt + 25000 ≤ s.beat → s.sec.tamperAt.isSome = true → FeedTo (.feedConduct f) s f { getFeed s f with conduct := true }) ∧
  (∀ s f, f < 2 → (getFeed s f).good = true → (getFeed s f).conduct = false → (getFeed s f).breaker = false → s.power.aonPowered = false →
    Does (.feedConduct f) s fun t => Dawned s t ∧ t.beat = 0 ∧ t.beatFrac = 0 ∧ t.power.aonPowered = true ∧ (getFeed t f).conduct = true) ∧
  (∀ s f, (getFeed s f).good = false ∨ (getFeed s f).conduct = true ∨ (getFeed s f).breaker = true ∨
    s.power.aonPowered = true ∧ s.beat < (getFeed s f).goodAt + 25000 → Idle (.feedConduct f) s) ∧
  (∀ s f mv, f < 2 → FeedTo (.feedDrop f mv false) s f ((getFeed s f).drop mv)) ∧
  (∀ s f mv, f < 2 → FeedTo (.feedDrop f mv true) s f
    { getFeed s f with mv := mv, breaker := true, conduct := false, drops := if (getFeed s f).breaker then (getFeed s f).drops else satAdd32 (getFeed s f).drops 1 }) ∧
  (∀ s f mv b, 2 ≤ f → Idle (.feedDrop f mv b) s) ∧
  (∀ s f mv, f < 2 → 78000 < mv → (getFeed s f).drops < 4294967295 → FeedTo (.feedDrop f mv false) s f
    { getFeed s f with mv := mv, lockout := true, good := false, conduct := false, reversed := false, drops := (getFeed s f).drops + if (getFeed s f).good then 1 else 0 }) ∧
  (∀ s f mv, f < 2 → 0 ≤ mv → mv < 34000 → (getFeed s f).drops < 4294967295 → FeedTo (.feedDrop f mv false) s f
    { getFeed s f with mv := mv, good := false, conduct := false, reversed := false, breaker := (getFeed s f).breaker && decide (20000 ≤ mv), drops := (getFeed s f).drops + if (getFeed s f).good then 1 else 0 }) ∧
  (∀ s f mv, f < 2 → 34000 ≤ mv → mv ≤ 78000 → FeedTo (.feedDrop f mv false) s f { getFeed s f with mv := mv, reversed := false }) ∧
  (∀ s f mv, f < 2 → mv < 0 → Does (.feedDrop f mv false) s fun t => (getFeed t f).reversed = true ∧ (getFeed t f).good = false ∧ (getFeed t f).conduct = false) ∧
  (∀ s f mv, f < 2 → (getFeed s f).breaker = false → (getFeed s f).drops < 4294967295 → FeedTo (.feedDrop f mv true) s f
    { getFeed s f with mv := mv, breaker := true, conduct := false, drops := (getFeed s f).drops + 1 }) ∧
  (∀ s f mv, f < 2 → (getFeed s f).lockout = true → mv < 76000 → FeedTo (.overvoltageLockoutRelease f mv) s f
    { getFeed s f with mv := mv, lockout := false, good := decide (35000 < mv), goodAt := s.beat, conduct := decide (35000 < mv) && !(getFeed s f).breaker }) ∧
  (∀ s f mv, 2 ≤ f ∨ (getFeed s f).lockout = false ∨ 76000 ≤ mv → Idle (.overvoltageLockoutRelease f mv) s)

/-- For every state: a test of the half not tested last starts when one is due, the charger may run and both halves
are charged; nothing but the test's own state changes. Taking the sink away keeps the measured capacitance and
ESR. The end of the test stores them, marks the half faulty when the capacitance is below its limit, the ESR above
its limit or the voltage did not move, counts a failure, and computes E, n and G anew, a G that rises waiting for
the next beat (R414), E being half the sum of C (V² - 32²) over the working halves; a change of G sets GEVENT.ARM.
G is 0 with fewer than four counted octs, with the charger stopped, with no half passed since Dawn or outside Noon
and Dusk, and else 64 MiB times the least of 32, 4 n, the limit in such units and the floor of (E - 2,150) /
(229.6875 max(1, 8/n)). A SET of PWR_TEST_NOW to 1 asks for a test and completes (13_power_entry_last_light.md). -/
def Obligations.BankTests : Prop :=
  (∀ s h, h < 2 → s.power.testing = 0 → s.power.aonPowered = true → s.power.lost = false → s.power.llAt = none → h + s.power.lastHalf = 1 →
    s.power.charging = true → (∀ i < 2, nvVal s 0x0D000006 ≤ (vget s.power.halves i Half.init).mv + 500) → testDue s h = true →
    Does (.pwrTestStart h) s fun t => t = { s with power := { s.power with testing := h + 1, sink := true, testMoved := true, aborted := false } }) ∧
  (∀ s h, s.power.testing ≠ 0 ∨ h + s.power.lastHalf ≠ 1 ∨ s.power.charging = false ∨ testDue s h = false ∨ s.power.aonPowered = false ∨ s.power.lost = true ∨ s.power.llAt.isSome = true ∨
    (∃ i < 2, (vget s.power.halves i Half.init).mv + 500 < nvVal s 0x0D000006) → Idle (.pwrTestStart h) s) ∧
  (∀ s cap esr moved, s.power.testing ≠ 0 → s.power.sink = true → cap < 2 ^ 13 → esr < 2 ^ 12 →
    Does (.pwrTestSinkEnd cap esr moved) s fun t => t = { s with power := { s.power with sink := false, testCap := cap, testEsr := esr, testMoved := moved } }) ∧
  (∀ s cap esr moved, s.power.testing ≠ 0 → s.power.sink = true → exec (.pwrTestSinkEnd cap esr moved) s =
    .next (s.updPower fun p => { p with sink := false, testCap := capBits 13 cap, testEsr := capBits 12 esr, testMoved := moved })) ∧
  (∀ s cap esr moved, (s.power.sink = false ∨ s.power.testing = 0) → Idle (.pwrTestSinkEnd cap esr moved) s) ∧
  (∀ s h fail, h < 2 → s.power.testing = h + 1 → s.power.sink = false →
    (fail = true ↔ s.power.testCap < nvVal s 0x0D00000D ∨ nvVal s 0x0D00000E < s.power.testEsr ∨ s.power.testMoved = false) →
    Does .pwrTestDone s fun t =>
      t = { s with power := t.power, fns := t.fns, side := t.side, out := t.out } ∧
      vget t.power.halves h Half.init = { vget s.power.halves h Half.init with capUf := s.power.testCap, esr := s.power.testEsr, faulty := fail, passed := (vget s.power.halves h Half.init).passed || !fail, testT := vget s.therm.reading 17 0 } ∧
      vget t.power.halves (1 - h) Half.init = vget s.power.halves (1 - h) Half.init ∧
      t.power.testFails = satAdd s.power.testFails (if fail then 1 else 0) ∧ t.power.lastTest = s.beat ∧ t.power.lastHalf = h ∧ t.power.testing = 0 ∧
      t.power.testWant = false ∧ t.power.dawnTests = s.power.dawnTests - 1 ∧
      t.power.energy = energyNow t ∧ t.power.armOcts = (countedOcts s).length ∧ t.power.armed = min s.power.armed (armTarget t t.power.armOcts t.power.energy) ∧ t.power.jthrough = decide (t.power.energy < 2150 ∨ t.power.armOcts < 4) ∧
      (t.power.armed = s.power.armed → t.fns = s.fns)) ∧
  (∀ s, s.power.testing = 0 ∨ s.power.sink = true → Idle .pwrTestDone s) ∧
  (∀ s n e, (n < 4 ∨ s.power.charging = false ∨ (∀ h < 2, (vget s.power.halves h Half.init).passed = false) ∨ s.day.day ≠ .noon ∧ s.day.day ≠ .dusk) → armTarget s n e = 0) ∧
  (∀ s n e h, 4 ≤ n → s.power.charging = true → h < 2 → (vget s.power.halves h Half.init).passed = true → (s.day.day = .noon ∨ s.day.day = .dusk) → 2150 ≤ e →
    armTarget s n e = min 32 (min (4 * n) (min (nvVal s 0x0D000015 / 2 ^ 26) ((e - 2150) * 10000 * n / (2296875 * max n 8)))) * 2 ^ 26) ∧
  (∀ s a b, (∀ h v, (h = 0 ∧ v = a ∨ h = 1 ∧ v = b) → (vget s.power.halves h Half.init).faulty = false ∧ 32000 ≤ (vget s.power.halves h Half.init).mv ∧
      v = (vget s.power.halves h Half.init).capUf * ((vget s.power.halves h Half.init).mv ^ 2 - 32000 ^ 2)) → energyNow s = (a + b) / (2 * 10 ^ 9)) ∧
  (∀ s, (∀ h, (vget s.power.halves h Half.init).faulty = true ∨ (vget s.power.halves h Half.init).mv < 32000) → energyNow s = 0) ∧
  (∀ s c x i v, waitsSet s c 0x0D000010 1 = some (x, i, v) →
    exec (.pwrTestNow c) s = .next (setDone (storeDue s 0x0D000010 (v ||| (Assoc.get s.due 0x0D000010).getD 0)) c St.ok 0)) ∧
  (∀ (s : State) (v : BitVec 64), s.due = [(0x0D000010, v)] → actDue s = { s with due := [], power := { s.power with testWant := s.power.testWant || v == 1 } })

/-- For every state: a loss is declared only with both feeds below 33.0 V. In Midnight and after a controller hot stop
it only marks the loss. Otherwise it starts Last Light at that beat with the armed size and the pairing in force,
aborts a running test of the bank and a memory test, drops every context and stops fetching, the heartbeat and
every oct request, and takes over any hot stop, entry or reset flush; map, gather buffer and media stand. When
what Last Light wrote is verified, media hold what the flush put there, the record stands in the boot flash and in
PWR_LL_LAST, everything outside the always-on domain is lost, and the module waits for a feed. With no feed
conducting the always-on domain loses power: BEAT is 0, what is not kept in fuses, flash or boot flash is lost
(13_power_entry_last_light.md, 01_anatomy.md). -/
def Obligations.LossAndLastLight : Prop :=
  (∀ s, (getFeed s 0).below = false ∨ (getFeed s 1).below = false ∨ s.power.aonPowered = false ∨ s.power.llAt.isSome = true ∨ s.power.lost = true → Idle .lossDeclared s) ∧
  (∀ s, (getFeed s 0).below = true → (getFeed s 1).below = true → s.power.aonPowered = true → s.power.llAt = none → s.power.lost = false →
    (hotStopped s = true ∨ s.day.day = .midnight ∧ s.day.sealed = none →
      Does .lossDeclared s fun t => t = { s with power := t.power } ∧ t.power.lost = true ∧ t.power.llAt = none ∧ ∀ f < 2, (getFeed t f).conduct = false) ∧
    (hotStopped s = false → ¬ (s.day.day = .midnight ∧ s.day.sealed = none) →
      Does .lossDeclared s fun t =>
        t = { s with ctxs := [], plan := t.plan, movers := t.movers, twin := { s.twin with hbStopped := true }, flash := t.flash, cane := { s.cane with queue := [] }, day := { s.day with pendReq := none, sealed := none, entryStep := 0, waking := false, wakePend := none }, power := t.power, therm := { s.therm with hotAt := none }, mem := { s.mem with testState := if s.mem.testState = 1 then 0 else s.mem.testState } } ∧
        t.power.llAt = some s.beat ∧ t.power.llG = s.power.armed ∧ t.power.llPaired = (s.twin.st == .paired) ∧ t.power.testing = 0 ∧ t.power.sink = false ∧
        t.power.aborted = (s.power.aborted || s.power.testing != 0) ∧ (∀ f < 2, (getFeed t f).conduct = false) ∧ t.plan.stopped = true ∧ t.plan.fetching = [] ∧
        t.plan.resetFlush = false ∧ (∀ k < 16, (getOct t k).req = false ∧ (getOct t k).st = (getOct s k).st) ∧ ∀ e < 4, (getEngine t e).descs = [])) ∧
  (∀ s, s.power.llAt = none → Idle .lastLightFlushed s) ∧
  (∀ s l mirror w, s.power.llAt = some l → (getFeed s 0).conduct = false → (getFeed s 1).conduct = false →
    mirror = (s.power.llPaired && !s.twin.llDone && decide (0 < s.power.llG)) → w = flushAll s (decide (0 < s.power.llG)) mirror →
    Does .lastLightFlushed s fun t => Wiped w t ∧ t.media = w.media.dark ∧ t.beat = s.beat ∧ t.power.llAt = none ∧ t.power.lost = true ∧
      t.power.llCount = satAdd32 s.power.llCount 1 ∧ t.power.llMirror = mirror ∧ t.power.llLast.getLsbD 0 = true ∧ t.power.llLast.getLsbD 1 = s.power.llPaired ∧
      t.power.llLast.getLsbD 2 = mirror ∧ bits t.power.llLast.toNat 15 8 = min (countedOcts s).length 255 ∧ bits t.power.llLast.toNat 31 16 = min (s.power.llG / 2 ^ 20) 65535 ∧
      bits t.power.llLast.toNat 47 32 = min (s.beat - l) 65535 ∧
      ∃ e ∈ t.nor.log, e.typ = 3 ∧ e.key = 0 ∧ e.value = leBytes 8 t.power.llLast.toNat ++ leBytes 6 l) ∧
  (∀ s l, s.power.llAt = some l → (getFeed s 0).conduct = true ∨ (getFeed s 1).conduct = true →
    Does .lastLightFlushed s fun t => t.day.day = .dawn ∧ t.day.step = 1 ∧ t.power.llAt = none ∧ t.power.lost = false ∧ t.power.llCount = satAdd32 s.power.llCount 1 ∧
      t.day.lastWake = BitVec.ofNat 64 (6 + s.beat * 2 ^ 16)) ∧
  (∀ s, s.power.aonPowered = false ∨ (getFeed s 0).conduct = true ∨ (getFeed s 1).conduct = true → Idle .aonPowerLoss s) ∧
  (∀ s, s.power.aonPowered = true → (getFeed s 0).conduct = false → (getFeed s 1).conduct = false →
    Does .aonPowerLoss s fun t => t.beat = 0 ∧ t.beatFrac = 0 ∧ t.power.aonPowered = false ∧ t.power.armed = 0 ∧ t.power.llAt = none ∧ t.ctxs = [] ∧ t.rings = [] ∧ t.fns = [] ∧
      t.media = s.media.dark ∧ t.xlat = s.xlat.dark ∧ t.day.day = s.day.day ∧ t.day.hostOn = false ∧ t.sec.nskeys = [] ∧ t.sec.vaultZero = true ∧ t.sec.life = s.sec.life ∧
      t.sec.fwKeys = s.sec.fwKeys ∧ t.nor.log = s.nor.log ∧ t.mem.fuseRows = s.mem.fuseRows ∧ t.power.llCount = s.power.llCount ∧ t.power.llLast = s.power.llLast ∧
      t.therm.hotStops = s.therm.hotStops ∧ ∀ p ∈ t.nv, settingNv p.1 = true)

/-- For every state: a sample takes the readings of fitted sensors and judges broken those out of range or stuck; the
charger's window moves by its hysteresis. While zones act and none is hot for a second sample, each zone's demand
and alarm follow from its reading, a zone with a broken member demanding 15, the throttle step is the highest
demand, and nothing else of the module moves but module events. A hot carrier zone makes its octs leave LIVE
promptly and wait; a hot die or module zone starts a controller hot stop, which drops every context and stops
fetching. When what the stop wrote is verified, the record stands in the boot flash, the module is fatal with
cause 5 and everything outside the always-on domain is lost. An oct of a zone that is cool again, dark for 250,000
beats, may return. A SET of THERM_REARM has the named sensors judged again and completes
(14_times_of_day_thermal.md, 13_power_entry_last_light.md). -/
def Obligations.SensorsAndHotStops : Prop :=
  (∀ s raw ch, s.power.aonPowered = false → Idle (.sensorSample raw ch) s) ∧
  (∀ s raw ch, s.power.aonPowered = true → zonesAct s = false →
    Does (.sensorSample raw ch) s fun t =>
      t = { s with therm := { s.therm with reading := t.therm.reading, rawSince := t.therm.rawSince, mateRef := t.therm.mateRef, broken := t.therm.broken }, power := { s.power with charging := t.power.charging }, fns := t.fns, side := t.side, out := t.out } ∧
      (∀ i < 28, vget t.therm.reading i 0 = if sensorFitted s i then nth raw i (vget s.therm.reading i 0) else vget s.therm.reading i 0) ∧
      (∀ i < 28, sensorFitted s i = true → readingBad (nth raw i (vget s.therm.reading i 0)) = true → vget t.therm.broken i false = true) ∧
      (∀ i < 28, sensorFitted s i = false → vget t.therm.broken i false = vget s.therm.broken i false) ∧ (∀ i < 28, vget s.therm.broken i false = true → vget t.therm.broken i false = true) ∧
      t.power.charging = (sensorWorks t 17 && if s.power.charging then decide (-400 ≤ vget t.therm.reading 17 0 ∧ vget t.therm.reading 17 0 ≤ 1360)
        else decide (-368 ≤ vget t.therm.reading 17 0 ∧ vget t.therm.reading 17 0 ≤ 1328))) ∧
  (∀ s raw ch u, s.power.aonPowered = true → zonesAct s = true → u = chargeWindow (judge (takeReadings s raw ch)) → hotZones u = [] →
    Does (.sensorSample raw ch) s fun t =>
      t = { s with therm := t.therm, power := { s.power with charging := t.power.charging }, care := { s.care with tMax := t.care.tMax }, fns := t.fns, side := t.side, out := t.out } ∧
      (∀ z < 18, vget t.therm.demand z 0 = demandOf u z ∧ vget t.therm.alarm z false = alarmOf u z ∧ vget t.therm.hotOnce z false = atHot u z) ∧
      (∀ z < 18, vget t.therm.demand z 0 ≤ t.therm.step) ∧ nvVal s 0x0F000002 ≤ t.therm.step ∧ (t.therm.step = nvVal s 0x0F000002 ∨ ∃ z < 18, vget t.therm.demand z 0 = t.therm.step) ∧
      s.care.tMax ≤ t.care.tMax ∧ t.therm.hotAt = s.therm.hotAt ∧ t.therm.windowSet = true) ∧
  (∀ s z, 0 < zoneBroken s z → demandOf s z = 15 ∧ alarmOf s z = true) ∧
  (∀ s z, atHot s z = true ↔ ∃ i ∈ zoneMembers s z, sensorWorks s i = true ∧ 16 * ((zoneLimits s z).2.2 : Int) ≤ vget s.therm.reading i 0) ∧
  (∀ s z x, zoneReading s z = some x → (zoneLimits s z).1 < (zoneLimits s z).2.1 →
    (16 * ((zoneLimits s z).2.1 : Int) ≤ x → demandOf s z = 15 ∧ alarmOf s z = true) ∧
    (x + 32 ≤ 16 * ((zoneLimits s z).1 : Int) → demandOf s z = 0 ∧ alarmOf s z = false) ∧
    (16 * ((zoneLimits s z).1 : Int) < x → x ≤ 16 * ((zoneLimits s z).2.1 : Int) → vget s.therm.demand z 0 = 0 →
      15 * (x - 16 * ((zoneLimits s z).1 : Int)) ≤ demandOf s z * (16 * (((zoneLimits s z).2.1 : Int) - (zoneLimits s z).1)) ∧
      ((demandOf s z : Int) - 1) * (16 * (((zoneLimits s z).2.1 : Int) - (zoneLimits s z).1)) < 15 * (x - 16 * ((zoneLimits s z).1 : Int)))) ∧
  (∀ s raw ch u z, s.power.aonPowered = true → zonesAct s = true → s.therm.hotAt = none → u = chargeWindow (judge (takeReadings s raw ch)) → hotZones u = [z] → z < 10 →
    Does (.sensorSample raw ch) s fun t => t.therm.hotAt = some s.beat ∧ t.therm.hotZone = z ∧ t.therm.hotStops = satAdd32 s.therm.hotStops 1 ∧ t.ctxs = [] ∧
      t.plan.stopped = true ∧ t.plan.fetching = [] ∧ t.day.sealed = none ∧ t.day.pendReq = none ∧ t.twin.hbStopped = true ∧ t.xlat = s.xlat ∧ t.media = s.media ∧ t.rings = s.rings) ∧
  (∀ s raw ch u, s.power.aonPowered = true → zonesAct s = true → s.therm.hotAt = none → u = chargeWindow (judge (takeReadings s raw ch)) → (∃ z ∈ hotZones u, z < 10) →
    Does (.sensorSample raw ch) s fun t => t.therm.hotAt = some s.beat ∧ t.therm.hotStops = satAdd32 s.therm.hotStops 1 ∧ t.ctxs = [] ∧ t.plan.stopped = true ∧ t.plan.fetching = [] ∧
      t.twin.hbStopped = true ∧ t.therm.hotZone ∈ hotZones u ∧ t.therm.hotZone < 10) ∧
  (∀ s raw ch u, s.power.aonPowered = true → zonesAct s = true → u = chargeWindow (judge (takeReadings s raw ch)) → (∀ z ∈ hotZones u, 10 ≤ z) →
    Does (.sensorSample raw ch) s fun t => t.therm.hotAt = s.therm.hotAt ∧ t.ctxs.length = s.ctxs.length ∧ ∀ z < 18, vget t.therm.shut z false = (vget s.therm.shut z false || (hotZones u).contains z)) ∧
  (∀ s raw ch u z, s.power.aonPowered = true → zonesAct s = true → u = chargeWindow (judge (takeReadings s raw ch)) → hotZones u = [z] → 10 ≤ z → vget s.therm.shut z false = false →
    Does (.sensorSample raw ch) s fun t => vget t.therm.shut z false = true ∧ t.therm.hotAt = s.therm.hotAt ∧
      (∀ k ∈ zoneOcts z, (getOct t k).hotHold = some s.beat ∧ ((getOct s k).st = .live → (getOct t k).st = .draining ∧ (getOct t k).drainAt = s.beat ∧ (getOct t k).prompt = true)) ∧
      ∀ k < 16, (zoneOcts z).contains k = false → getOct t k = getOct s k) ∧
  (∀ s k, k < 16 → (getOct s k).hotHold.isSome = true → (getOct s k).st = .dark → (getOct s k).darkSince + 250000 ≤ s.beat →
    (∀ z ∈ zonesOfOct k, vget s.therm.shut z false = true → zoneCool s z = true) →
    Does (.carrierZoneReturn k) s fun t => t = { s with flash := { s.flash with octs := t.flash.octs }, therm := { s.therm with shut := t.therm.shut } } ∧
      getOct t k = { getOct s k with hotHold := none } ∧ (∀ j, j ≠ k → getOct t j = getOct s j) ∧
      ∀ z < 18, vget t.therm.shut z false = (vget s.therm.shut z false && !((zoneOcts z).contains k && (zoneOcts z).all fun j => (getOct t j).hotHold.isNone))) ∧
  (∀ s k, (getOct s k).hotHold = none ∨ (getOct s k).st ≠ .dark ∨ s.beat < (getOct s k).darkSince + 250000 ∨
    (∃ z ∈ zonesOfOct k, vget s.therm.shut z false = true ∧ zoneCool s z = false) → Idle (.carrierZoneReturn k) s) ∧
  (∀ s, s.therm.hotAt = none ∨ hotStopped s = true ∨ s.power.llAt.isSome = true → Idle .hotStopFlushed s) ∧
  (∀ s h w, s.therm.hotAt = some h → hotStopped s = false → s.power.llAt = none → w = flushAll s true false →
    Does .hotStopFlushed s fun t => Wiped w t ∧ t.day.fatal = true ∧ t.day.fcause = 5 ∧ t.day.day = s.day.day ∧ t.beat = s.beat ∧ t.therm.hotAt = some h ∧
      ∃ e ∈ t.nor.log, e.typ = 4 ∧ e.key = 0 ∧ e.value = leBytes 1 s.therm.hotZone ++ leBytes 1 0 ++ leBytes 2 (sbits 16 s.therm.hotTemp) ++ leBytes 6 h) ∧
  (∀ s c x i v, waitsSet s c 0x0F000004 1 = some (x, i, v) →
    exec (.thermRearm c) s = .next (setDone (s.updTherm fun t => { t with broken := Vector.ofFn fun i => vget t.broken i.val false && !v.getLsbD i.val }) c St.ok 0))

/-- For every state with SRAM on: corrected words are counted for their bank, for the module and, in a channel buffer,
for the channel, and change nothing else. An uncorrectable word is counted; a cache line or set it held is dropped
but where a command has pinned it; in banks 4, 6 and 8 it is fatal with cause 4 and the bank, and the signals to
the other module stop; in the vault the keys are zeroed first; a mover engine's memory stops the engine; in
another bank only the counts change. A SET of MEM_TEST_REQ starts a test of a quiesced unit of bank 2, 3 or 10 and
is refused with state 5 of any other; while a test runs it changes nothing; it completes with OK either way. No
test ends before its operations are made; one that ends without failing rows has passed; the unit is released.
Failing rows of the unit each take the lowest free spare of their macro (15_onchip_memory.md, 10_data_movers.md). -/
def Obligations.OnChipMemories : Prop :=
  (∀ s b u n, s.day.sramOn = true → b < 11 → b ≠ 2 →
    Does (.scrub b u n) s fun t => t = { s with mem := { s.mem with banks := t.mem.banks, ceTotal := satAdd s.mem.ceTotal n } } ∧
      vget t.mem.banks b MemBank.init = { vget s.mem.banks b MemBank.init with ce := min 4095 ((vget s.mem.banks b MemBank.init).ce + n) } ∧
      ∀ d, d ≠ b → vget t.mem.banks d MemBank.init = vget s.mem.banks d MemBank.init) ∧
  (∀ s u n, s.day.sramOn = true → u < 128 →
    Does (.scrub 2 u n) s fun t => t = { s with mem := { s.mem with banks := t.mem.banks, ceTotal := satAdd s.mem.ceTotal n, chbufCe := t.mem.chbufCe } } ∧
      vget t.mem.chbufCe u 0 = min 2047 (vget s.mem.chbufCe u 0 + n) ∧ ∀ d, d ≠ u → vget t.mem.chbufCe d 0 = vget s.mem.chbufCe d 0) ∧
  (∀ s b u n, s.day.sramOn = true → b < 11 → Does (.scrub b u n) s fun t => t = { s with mem := t.mem } ∧ t.mem.ceTotal = satAdd s.mem.ceTotal n ∧
    (vget t.mem.banks b MemBank.init).ce = min 4095 ((vget s.mem.banks b MemBank.init).ce + n)) ∧
  (∀ s b u n, s.day.sramOn = false ∨ 11 ≤ b → Idle (.scrub b u n) s ∧ Idle (.sramUncorrectable b u) s) ∧
  (∀ s b u, s.day.sramOn = true → b < 11 →
    Does (.sramUncorrectable b u) s fun t => (vget t.mem.banks b MemBank.init).ue = min 255 ((vget s.mem.banks b MemBank.init).ue + 1) ∧ t.mem.ueTotal = satAdd s.mem.ueTotal 1 ∧
      (b = 0 → t = { s with mem := t.mem, xlat := { s.xlat with ways := s.xlat.ways.filter fun w => decide (0 < w.pins) || w.line != u } }) ∧
      (b = 1 → t = { s with mem := t.mem, xlat := { s.xlat with ways := s.xlat.ways.filter fun w => decide (0 < w.pins) || w.set != u } }) ∧
      (b = 2 ∨ b = 3 ∨ b = 5 ∨ b = 10 → t = { s with mem := t.mem }) ∧
      (b = 9 → 4 ≤ u → t = { s with mem := t.mem }) ∧ (b = 9 → u < 4 → (getEngine t u).st = if (getEngine s u).spare then .restarting else .stopped) ∧
      (b = 4 ∨ b = 6 ∨ b = 8 → t = { s with mem := t.mem, day := t.day, twin := { s.twin with hbStopped := true }, flash := (stopSignals s).flash } ∧ t.day.fatal = true ∧ t.day.fcause = 4 ∧ t.day.fdetail = b ∧ (vget t.mem.banks b MemBank.init).health = 2) ∧
      (b = 7 → t = { s with mem := t.mem, day := t.day, sec := t.sec, twin := { s.twin with hbStopped := true }, flash := (stopSignals s).flash } ∧ t.day.fatal = true ∧ t.day.fcause = 4 ∧ t.day.fdetail = 7 ∧ t.sec.nskeys = [] ∧ t.sec.vaultZero = true ∧
        t.sec.life = s.sec.life ∧ t.sec.fwKeys = s.sec.fwKeys) ∧
      (b = 9 → u < 4 → engineOwners s u = [] → t = { s with mem := t.mem, movers := t.movers } ∧
        (getEngine t u).st = (if (getEngine s u).spare then .restarting else .stopped) ∧ (getEngine t u).spare = false ∧ ∀ e, e ≠ u → getEngine t e = getEngine s e)) ∧
  (∀ s c x i v u, waitsSet s c 0x10000003 1 = some (x, i, v) → s.mem.testState ≠ 1 →
    u = (if unitQuiet s (bits v.toNat 3 0) (bits v.toNat 15 4) && bits v.toNat 3 0 == 3 then s.media.accTest ++ [bits v.toNat 15 4] else s.media.accTest) →
    exec (.memTestReq c) s = .next (setDone { s with
      mem := { s.mem with testState := if unitQuiet s (bits v.toNat 3 0) (bits v.toNat 15 4) then 1 else 5, testBank := bits v.toNat 3 0, testUnit := bits v.toNat 15 4 % 256, testPreserve := v.getLsbD 17, testAt := s.beat, testSs := v.getLsbD 16, testBkg := v.getLsbD 18 }
      media := { s.media with accTest := u } } c St.ok 0)) ∧
  (∀ s c x i v, waitsSet s c 0x10000003 1 = some (x, i, v) → s.mem.testState = 1 → exec (.memTestReq c) s = .next (setDone s c St.ok 0)) ∧
  (∀ s b u, unitQuiet s b u = true → (s.day.day = .noon ∨ s.day.day = .dusk) ∧
    (b = 2 ∧ u < 128 ∧ (getOct s (u / 8)).st = .dark ∨ b = 3 ∧ u < 16 ∧ (∀ k ∈ s.media.bands, k.acc ≠ some u) ∨ b = 10 ∧ u < 8 ∧ vget s.mem.servHalted u false = false)) ∧
  (∀ s f r, (s.mem.testState ≠ 1 ∨ testRunOver s = false) → Idle (.memTestDone f r) s) ∧
  (∀ s f r mine, s.mem.testState = 1 → testRunOver s = true →
    mine = f.filter (fun k => macroBank k.1 == s.mem.testBank && macroUnit k.1 == s.mem.testUnit && decide (k.1 < 2048) && decide (k.2 < 132)) →
    exec (.memTestDone f r) s = .next (((repairRows s mine r).2.updMem fun m => { m with testState := if mine.isEmpty then 2 else if (repairRows s mine r).1.isEmpty then 3 else 4 }).updMedia fun x =>
      { x with accTest := x.accTest.filter (· != s.mem.testUnit) })) ∧
  (∀ s r, s.mem.testState = 1 → testRunOver s = true →
    Does (.memTestDone [] r) s fun t => t = { s with mem := t.mem, media := { s.media with accTest := s.media.accTest.filter (· != s.mem.testUnit) } } ∧ t.mem.testState = 2 ∧
      t.mem.softRows = s.mem.softRows ∧ t.mem.fuseRows = s.mem.fuseRows) ∧
  (∀ s m row k r, s.mem.testState = 1 → testRunOver s = true → m < 2048 → row < 128 → macroBank m = s.mem.testBank → macroUnit m = s.mem.testUnit → freeSpare s m = some k → r.contains m = false →
    Does (.memTestDone [(m, row)] r) s fun t => t.mem.testState = 3 ∧ t.mem.softRows = s.mem.softRows ++ [{ bank := s.mem.testBank, mac := m, row := row, spare := k }] ∧
      t.mem.fuseRows = s.mem.fuseRows ∧ t.media = { s.media with accTest := s.media.accTest.filter (· != s.mem.testUnit) } ∧ t.day = s.day) ∧
  (∀ s m row r, s.mem.testState = 1 → testRunOver s = true → m < 2048 → row < 128 → macroBank m = s.mem.testBank → macroUnit m = s.mem.testUnit → freeSpare s m = none → macroBank m = 2 →
    Does (.memTestDone [(m, row)] r) s fun t => t.mem.testState = 4 ∧ vget t.mem.chbufOut (macroUnit m) false = true ∧ t.mem.softRows = s.mem.softRows ∧ t.day = s.day)

/-- For every state: the seal takes the time of day when the DOZE's context is the only one left and nothing else
stands in the way; the DOZE finishes with OK and armed gather is zero. An entry drains the gather buffer and
staging first; toward Night the fabrics then go dark, then SRAM, DRAM and CORE; toward Midnight a checkpoint is
asked for, the octs drain from the next beat once it and its care records are written, and with all of them DARK
everything outside the always-on domain is lost. A link whose functions are idle in Dusk goes to L1. A wake source
that is enabled starts the clocks from Night and Dawn from Midnight, is kept while an entry runs, has no effect in
Noon, Dusk and Dawn, and after a controller hot stop acts no sooner than 250,000 beats later. The wake from Night
ends in Noon with empty calendars, what was booked and had not run waiting to be booked anew
(14_times_of_day_thermal.md, 06_translation.md). -/
def Obligations.NightAndMidnight : Prop :=
  (∀ s t c, s.day.pendReq = some (t, c) → (t = .night ∨ t = .midnight) → (∀ x ∈ s.ctxs, x.c = c) → (∀ f ∈ s.fns, f.kept = []) → s.nor.activating = none → serving s = true →
    (sided s = true → s.twin.st ≠ .paired ∧ s.twin.st ≠ .detaching) → s.plan.resetFlush = false →
    exec .nightSeal s = .next (rearm (dozeDone ((setDay s t).updDay fun d => { d with pendReq := none, sealed := some s.beat, entryStep := 0 }) c St.ok)) ∧
    Does .nightSeal s fun u => u.day.day = t ∧ u.day.sealed = some s.beat ∧ u.day.pendReq = none ∧ u.day.entryStep = 0 ∧ u.power.armed = 0 ∧ u.xlat.gather = s.xlat.gather ∧
      vget u.day.entries t.code 0 = satAdd32 (vget s.day.entries t.code 0) 1) ∧
  (∀ s, (s.day.pendReq = none ∨ (∃ c, s.day.pendReq = some (.noon, c) ∨ s.day.pendReq = some (.dusk, c)) ∨ (∃ x t c, s.day.pendReq = some (t, c) ∧ x ∈ s.ctxs ∧ x.c ≠ c) ∨
      (∃ f ∈ s.fns, f.kept ≠ []) ∨ s.nor.activating.isSome = true ∨ serving s = false ∨ sided s = true ∧ (s.twin.st = .paired ∨ s.twin.st = .detaching) ∨ s.plan.resetFlush = true) →
    Idle .nightSeal s) ∧
  (∀ s t, (t = .night ∨ t = .midnight) → entryAt s t 0 = true → undrained s ≠ [] →
    exec (if t = .night then .nightEntryStep else .midnightEntryStep) s = .next (drainStripes s (undrained s))) ∧
  (∀ s t, (t = .night ∨ t = .midnight) → entryAt s t 0 = true → undrained s = [] → journaled s = false →
    exec (if t = .night then .nightEntryStep else .midnightEntryStep) s = .next (journalOut s 1)) ∧
  (∀ s, (∀ k < 2, entryAt s .night k = false) → Idle .nightEntryStep s) ∧ (∀ s, (∀ k < 3, entryAt s .midnight k = false) → Idle .midnightEntryStep s) ∧
  (∀ s, entryAt s .night 0 = true → undrained s = [] → journaled s = true →
    Does .nightEntryStep s fun t => t.day.entryStep = 1 ∧ t.day.puntyOn = false ∧ t.day.caneOn = false ∧ t.twin.lanes = 0 ∧ t.twin.hbStopped = true ∧ t.cane.link = Vector.replicate 2 0 ∧
      t.movers.pacer = Vector.replicate 3 false ∧ t.day.day = .night ∧ t.xlat = s.xlat ∧ t.media = s.media ∧ t.flash = s.flash) ∧
  (∀ s l, l < 6 → getLink (linksRest s) l = if 2 ≤ (getLink s l).st ∧ (getLink s l).aspmL1 = true then { getLink s l with inL1 := true } else getLink s l) ∧
  (∀ s, entryAt s .night 1 = true → s.day.wakePend = none → ¬ (0 < s.day.wakeAt ∧ s.day.wakeAt ≤ s.beat) →
    Does .nightEntryStep s fun t => t = { linksRest s with day := { s.day with sramOn := false, dramOn := false, coreOn := false, sealed := none, entryStep := 0 } }) ∧
  (∀ s, entryAt s .night 1 = true → s.day.wakePend = none → 0 < s.day.wakeAt → s.day.wakeAt ≤ s.beat →
    exec .nightEntryStep s = .next (wake { linksRest s with day := { s.day with sramOn := false, dramOn := false, coreOn := false, sealed := none, entryStep := 0, wakePend := none } } 3)) ∧
  (∀ s k, entryAt s .night 1 = true → s.day.wakePend = some k →
    exec .nightEntryStep s = .next (wake { linksRest s with day := { s.day with sramOn := false, dramOn := false, coreOn := false, sealed := none, entryStep := 0, wakePend := none } } k)) ∧
  (∀ s, entryAt s .midnight 0 = true → undrained s = [] → journaled s = true →
    Does .midnightEntryStep s fun t => t = { s with day := { s.day with entryStep := 1 }, xlat := { s.xlat with ckWant := true } }) ∧
  (∀ s, entryAt s .midnight 1 = true → s.xlat.ckWant = true ∨ s.xlat.ck.isSome = true ∨ s.care.recWrite.isSome = true ∨ norWriting s 0x02 0 = true → Idle .midnightEntryStep s) ∧
  (∀ s, entryAt s .midnight 1 = true → s.xlat.ckWant = false → s.xlat.ck = none → s.care.recWrite = none → norWriting s 0x02 0 = false →
    (undrained s ≠ [] → exec .midnightEntryStep s = .next (drainStripes s (undrained s))) ∧ (undrained s = [] → journaled s = false → exec .midnightEntryStep s = .next (journalOut s 1))) ∧
  (∀ s, entryAt s .midnight 1 = true → s.xlat.ckWant = false → s.xlat.ck = none → s.care.recWrite = none → norWriting s 0x02 0 = false → undrained s = [] → journaled s = true →
    Does .midnightEntryStep s fun t => t.day.entryStep = 2 ∧ ∀ k < 16, ((getOct s k).st = .live → getOct t k = { getOct s k with toDrain := true }) ∧ ((getOct s k).st = .dark → (getOct t k).st = .dark)) ∧
  (∀ s k, entryAt s .midnight 2 = true → k < 16 → (getOct s k).st ≠ .dark → Idle .midnightEntryStep s) ∧
  (∀ s, entryAt s .midnight 2 = true → (∀ k < 16, (getOct s k).st = .dark) → s.day.wakePend = none → ¬ (0 < s.day.wakeAt ∧ s.day.wakeAt ≤ s.beat) →
    Does .midnightEntryStep s fun t => Wiped (closeAll s) t ∧ t.day.day = .midnight ∧ t.day.sealed = none ∧ t.day.stayAt = some s.beat ∧ t.beat = s.beat ∧ t.beatFrac = 0) ∧
  (∀ s l, l < 6 → s.day.day = .dusk → 2 ≤ (getLink s l).st → (getLink s l).aspmL1 = true → (∀ x ∈ s.ctxs, x.ringOf.isSome = true → fnLink x.fn ≠ l) →
    (∀ r ∈ s.rings, fnLink r.fn = l → r.held = none ∧ r.pend = 0 ∧ ∀ f ∈ s.plan.fetching, f.ring ≠ r.g) →
    Does (.duskIdle l) s fun t => t = { s with links := t.links } ∧ getLink t l = { getLink s l with inL1 := true } ∧ ∀ m, m ≠ l → getLink t m = getLink s m) ∧
  (∀ s l, (6 ≤ l ∨ s.day.day ≠ .dusk ∨ (getLink s l).st < 2 ∨ (getLink s l).aspmL1 = false ∨ (∃ x ∈ s.ctxs, x.ringOf.isSome = true ∧ fnLink x.fn = l) ∨
    (∃ r ∈ s.rings, fnLink r.fn = l ∧ (r.held.isSome = true ∨ 0 < r.pend ∨ ∃ f ∈ s.plan.fetching, f.ring = r.g))) → Idle (.duskIdle l) s) ∧
  (∀ s i k, (i = Instr.wakeNLow ∧ k = 1 ∨ i = Instr.dayWakeAt ∧ k = 3 ∧ 0 < s.day.wakeAt ∧ s.day.wakeAt ≤ s.beat) → wakeEnabled s k = true → s.power.aonPowered = true →
    s.power.llAt = none → s.sec.tamperAt = none → s.power.lost = false →
    (hotStopped s = false → s.therm.hotAt = none → s.day.sealed = none →
      (s.day.day = .night → s.day.waking = false → Does i s fun t =>
        t = { s with day := { s.day with waking := true, coreOn := true, lastWake := BitVec.ofNat 64 (k + s.beat * 2 ^ 16), wakeAt := if k = 3 then 0 else s.day.wakeAt } }) ∧
      (s.day.day = .midnight → Does i s fun t => Dawned s t ∧ t.beat = s.beat ∧ t.day.lastWake = BitVec.ofNat 64 (k + s.beat * 2 ^ 16)) ∧
      (s.day.day = .noon ∨ s.day.day = .dusk ∨ s.day.day = .dawn → Idle i s)) ∧
    (hotStopped s = false → s.therm.hotAt = none → s.day.sealed.isSome = true → (s.day.day = .night ∨ s.day.day = .midnight) →
      Does i s fun t => t = { s with day := { s.day with wakePend := some (s.day.wakePend.getD k) } }) ∧
    (hotStopped s = true → k = 3 → Idle i s) ∧
    (hotStopped s = true → k = 1 → s.therm.hotAt.getD 0 + 250000 ≤ s.beat → Does i s fun t => Dawned s t ∧ t.therm.hotAt = none) ∧
    (hotStopped s = true → k = 1 → s.beat < s.therm.hotAt.getD 0 + 250000 → Does i s fun t => t = { s with day := { s.day with wakePend := some 1 } })) ∧
  (∀ s, wakeEnabled s 1 = false → Idle .wakeNLow s) ∧ (∀ s, s.day.wakeAt = 0 ∨ s.beat < s.day.wakeAt → Idle .dayWakeAt s) ∧
  (∀ s bad f r, s.day.day ≠ .night ∨ s.day.waking = false → Idle (.wakeFromNight bad f r) s) ∧
  (∀ s bad f r, s.day.day = .night → s.day.waking = true → s.day.fatal = false → (nvVal s 0x10000006 ≠ 1 ∨ bad = []) →
    Does (.wakeFromNight bad f r) s fun t => t.day.day = .noon ∧ t.day.waking = false ∧ t.day.coreOn = true ∧ t.day.sramOn = true ∧ t.day.dramOn = true ∧ t.day.puntyOn = true ∧
      t.day.caneOn = (nvVal s 0x0C000001 == 1) ∧ t.plan.near = [] ∧ t.plan.far = [] ∧ t.rings = s.rings ∧ t.xlat = s.xlat ∧ t.media = s.media ∧
      t.flash = { s.flash with dies := t.flash.dies, waiting := t.flash.waiting } ∧ (∀ d ∈ t.flash.dies, ∀ o ∈ d.ops, o.kind ≠ .read ∧ o.start < s.beat) ∧
      t.care = { s.care with reads := s.care.reads.map (fun e => { e with booked := false }), schedAt := s.beat, schedPages := s.care.passLeft, patrolDue := 0 } ∧
      t.twin.hbStopped = false ∧ t.twin.st = s.twin.st ∧ t.beat = s.beat) ∧
  (∀ s bad f r, s.day.day = .night → s.day.waking = true → nvVal s 0x10000006 = 1 →
    Does (.wakeFromNight bad f r) s fun t => t.day.waking = false ∧ t.day.coreOn = true ∧ t.day.sramOn = true ∧ t.day.dramOn = true ∧ t.xlat.map = s.xlat.map ∧ t.beat = s.beat ∧
      (t.day.fatal = false → t.day.day = .noon) ∧ (t.day.fatal = true → t.day.day = .night) ∧
      ((∃ m ∈ bad, m < 2048 ∧ (macroBank m = 0 ∨ macroBank m = 1)) → t.xlat.ways = []))

/-- For every state: a step of Dawn runs only at its own turn. The regulators bring step 2. The oscillators, with the
image whole and not on trial, turn on HOST, CORE and BOOT, drop BEAT's fraction, have broken sensors judged anew
and bring step 3; an image that fails gives way to the previous one and Dawn restarts, or is fatal with cause 3;
one on trial takes an attempt more, or past its limit is rolled back. The wait to cool ends when every die and
module zone is 5 °C below START. A failing DRAM channel is fatal with cause 1; else, once the SRAM test can be
over, its rows are repaired, ROOT is derived and SRAM and DRAM are on. With its components whole the logic brings
step 5, with a fresh key start where one is due. A step that misses its limit is fatal; its cause and detail are
free values (log entry 3) (14_times_of_day_thermal.md, 16_boot_flash_firmware.md, 15_onchip_memory.md,
17_security_life_cycle.md). -/
def Obligations.DawnSteps : Prop :=
  (∀ s k, dawnAt s k = false → (k = 1 → Idle .dawnRegulators s) ∧ (k = 2 → ∀ a b, Idle (.dawnOscillators a b) s) ∧
    (k = 3 → Idle .dawnCool s ∧ ∀ a b c, Idle (.dawnMemories a b c) s) ∧ (k = 4 → ∀ a b, Idle (.dawnLogic a b) s)) ∧
  (∀ s, dawnAt s 1 = true → s.sec.tamperCauses = [] → Does .dawnRegulators s fun t => t = { s with day := { s.day with step := 2, stepFrom := s.beat } }) ∧
  (∀ s, dawnAt s 1 = true → Does .dawnRegulators s fun t => t.day.step = 2 ∧ t.day.stepFrom = s.beat ∧ t.sec.tamperCauses = [] ∧ t.nv = s.nv ∧ t.media = s.media) ∧
  (∀ s prevOk, dawnAt s 2 = true → (loadBoot s).nor.trial = false →
    Does (.dawnOscillators true prevOk) s fun t => t.beatFrac = 0 ∧ t.beat = s.beat ∧ t.day.step = 3 ∧ t.day.stepFrom = s.beat ∧ t.day.hostOn = true ∧ t.day.coreOn = true ∧ t.day.bootOn = true ∧
      t.day.fatal = false ∧ t.nor.active = (loadBoot s).nor.active ∧ (imageOf t t.nor.active).valid = true ∧ t.therm.broken = Vector.replicate 28 false ∧
      t.day.cooling = (List.range 10).any (zoneWarm s)) ∧
  (∀ s, dawnAt s 2 = true → (loadBoot s).nor.trial = false → (loadBoot s).nor.prev = none →
    Does (.dawnOscillators false false) s fun t => t.day.fatal = true ∧ t.day.fcause = 3 ∧ t.day.fdetail = 3 ∧ t.day.step = 2) ∧
  (∀ s p, dawnAt s 2 = true → (loadBoot s).nor.trial = false → (loadBoot s).nor.prev = some p → p ≠ (loadBoot s).nor.active →
    Does (.dawnOscillators false true) s fun t => t.day.day = .dawn ∧ t.day.step = 1 ∧ t.day.fatal = false ∧ t.nor.active = p ∧ t.nor.prev = none ∧
      ∃ e ∈ t.nor.log, e.typ = 1 ∧ e.key = 0 ∧ e.value = bootBody p none false 0 .failed) ∧
  (∀ s b, dawnAt s 2 = true → (loadBoot s).nor.trial = true → ((loadBoot s).nor.prev = none ∨ (loadBoot s).nor.attempts + 1 ≤ nvVal s 0x1100000A) →
    Does (.dawnOscillators true b) s fun t => t.nor.attempts = (loadBoot s).nor.attempts + 1 ∧ t.nor.trial = true ∧ t.nor.active = (loadBoot s).nor.active ∧ t.day.step = 3) ∧
  (∀ s a p, dawnAt s 2 = true → (loadBoot s).nor.trial = true → (loadBoot s).nor.prev = some p → p ≠ (loadBoot s).nor.active → nvVal s 0x1100000A < (loadBoot s).nor.attempts + 1 →
    Does (.dawnOscillators a true) s fun t => t.nor.active = p ∧ t.nor.prev = none ∧ t.nor.trial = false ∧ t.nor.activations = satAdd32 s.nor.activations 1 ∧ t.day.step = 3) ∧
  (∀ s, dawnAt s 3 = true → s.day.cooling = true → (∀ z < 10, zoneCool s z = true) → Does .dawnCool s fun t => t = { s with day := { s.day with cooling := false, stepFrom := s.beat } }) ∧
  (∀ s z, z < 10 → zoneCool s z = false → Idle .dawnCool s) ∧
  (∀ s a b c, s.day.cooling = true → Idle (.dawnMemories a b c) s) ∧
  (∀ s ok f r, dawnAt s 3 = true → s.day.cooling = false → dramFailing ok ≠ 0 → exec (.dawnMemories ok f r) s = .next (goFatal s 1 (dramFailing ok))) ∧
  (∀ s c d, goFatal s c d = { s with day := { s.day with fatal := true, wasFatal := true, fcause := c, fdetail := d % 2 ^ 16, fatalBeat := s.beat }, twin := { s.twin with hbStopped := true }, flash := { s.flash with octs := s.flash.octs.map fun o => { o with req := false } } }) ∧
  (∀ s ok f r, dawnAt s 3 = true → s.day.cooling = false → dramFailing ok = 0 → dawnRunOver s = false → Idle (.dawnMemories ok f r) s) ∧
  (∀ s ok f r u, dawnAt s 3 = true → s.day.cooling = false → dramFailing ok = 0 → dawnRunOver s = true →
    u = (repairRows (s.updMem fun m => { m with softRows := [], badSpares := [], banks := Vector.ofFn fun b => { MemBank.init with inUse := bankMacros b.val } })
      (f.filter fun r => decide (r.1 < 2048) && decide (r.2 < 132) && !(s.mem.fuseRows.any fun f => f.mac == r.1 && f.row == r.2)) r).2 →
    (u.day.fatal = true → exec (.dawnMemories ok f r) s = .next u) ∧
    (u.day.fatal = false → Does (.dawnMemories ok f r) s fun t => t.day.step = 4 ∧ t.day.stepFrom = s.beat ∧ t.day.memAt = s.beat ∧ t.day.sramOn = true ∧ t.day.dramOn = true ∧ t.sec.vaultZero = false ∧
      t.sec.rootLife = s.sec.life ∧ t.sec.rootTampers = s.sec.tampers ∧ t.flash.present = Vector.replicate 2 true)) ∧
  (∀ ok c, c < 8 → (bit (dramFailing ok) c = true ↔ nth ok c false = false)) ∧
  (∀ s r, dawnAt s 3 = true → s.day.cooling = false → dawnRunOver s = true →
    Does (.dawnMemories (List.replicate 8 true) [] r) s fun t => t.day.step = 4 ∧ t.day.stepFrom = s.beat ∧ t.day.memAt = s.beat ∧ t.day.sramOn = true ∧ t.day.dramOn = true ∧ t.sec.vaultZero = false ∧
      t.sec.rootLife = s.sec.life ∧ t.sec.rootTampers = s.sec.tampers ∧ t.mem.softRows = [] ∧ t.flash.present = Vector.replicate 2 true ∧ t.sec.life = s.sec.life ∧ t.sec.fwKeys = s.sec.fwKeys) ∧
  (∀ s u random, dawnAt s 4 = true → u = reloadLib (migrate s s.nor.active) → (freshDue u = true → keyOk random = true) →
    exec (.dawnLogic true random) s = .next (dawnNext (loadCare (erasePump (if freshDue u then (freshKeys u random).updCare fun c => { c with recSets := [] } else u)))) ∧
    Does (.dawnLogic true random) s fun t => t.day.step = 5 ∧ t.day.stepFrom = s.beat ∧ t.beat = s.beat ∧ t.day.stayAt = none ∧
      (freshDue u = true → t.xlat.nss = [] ∧ t.xlat.map = [] ∧ t.xlat.gather = [] ∧ t.sec.sysEpoch ≠ 0)) ∧
  (∀ s random, dawnAt s 4 = true → freshDue (reloadLib (migrate s s.nor.active)) = true → keyOk random = false → Idle (.dawnLogic true random) s) ∧
  (∀ s random p, dawnAt s 4 = true → s.nor.prev = some p → (imageOf s p).valid = false → exec (.dawnLogic false random) s = .next (goFatal s 3 3)) ∧
  (∀ s random p, dawnAt s 4 = true → s.nor.prev = some p → (imageOf s p).valid = true →
    Does (.dawnLogic false random) s fun t => t.day.day = .dawn ∧ t.day.step = 1 ∧ t.day.fatal = false ∧ t.nor.active = p ∧ t.nor.prev = none) ∧
  (∀ s random, dawnAt s 4 = true → s.nor.prev = none → Does (.dawnLogic false random) s fun t => t.day.fatal = true ∧ t.day.fcause = 3 ∧ t.day.fdetail = 3) ∧
  (∀ s k, 1 ≤ k → k ≤ 4 → dawnAt s k = true → s.day.cooling = false → s.day.stepFrom + dawnLimit k < s.beat →
    exec .dawnStepTimeout s = .next (goFatal { s with freeCtr := s.freeCtr + 1 } ((Config.freeValue s.freeCtr).toNat % 256) ((Config.freeValue s.freeCtr).toNat / 256))) ∧
  (∀ s, s.day.day ≠ .dawn ∨ s.day.step < 1 ∨ 4 < s.day.step ∨ dawnAt s s.day.step = false ∨ s.day.cooling = true ∨ s.beat ≤ s.day.stepFrom + dawnLimit s.day.step → Idle .dawnStepTimeout s)

/-- After reset BEAT and its fraction are 0, the module is at step 1 of Dawn and not fatal, no context, ring,
function, booking, gather slot, journal record, namespace or waiting command is there, nothing has been sent,
every defined setting holds its table's reset value, and the invariant every step keeps holds (01_anatomy.md,
14_times_of_day_thermal.md, 03_rings_commands.md, 95_what_each_step_holds.md). -/
def Obligations.ResetState : Prop :=
  State.reset.beat = 0 ∧ State.reset.beatFrac = 0 ∧ State.reset.day.day = .dawn ∧ State.reset.day.step = 1 ∧ State.reset.day.fatal = false ∧
  State.reset.ctxs = [] ∧ State.reset.rings = [] ∧ State.reset.fns = [] ∧ State.reset.plan.near = [] ∧ State.reset.plan.far = [] ∧ State.reset.xlat.gather = [] ∧
  State.reset.xlat.staging = [] ∧ State.reset.xlat.nss = [] ∧ State.reset.out = [] ∧ State.reset.pending = [] ∧ State.reset.power.armed = 0 ∧
  (∀ id r, findSetting id = some r → nvVal State.reset id = r.reset) ∧ Invariant State.reset

/-- For every state that meets the invariant (every waiting command well-formed; no more than 32 TAMPER bits and 256
row repairs burned; BENCHCLOSE burned in SEALED and RETURNED) and every step that answers a next state, that state
meets it, and its queue is the old one without the command at its front: no command puts another in the queue or
takes one out (17_security_life_cycle.md, 15_onchip_memory.md, 95_what_each_step_holds.md). -/
def Obligations.StepKeepsInvariant : Prop :=
  ∀ s t, Invariant s → step s = .next t → Invariant t ∧ t.pending = s.pending.tail

/-- For every command, state and next state: BEAT is at least what it was, unless the command is AON_POWER_LOSS or a
feed that begins to conduct while the always-on domain has no power; the life-cycle state goes only forward,
BENCHCLOSE and the blown secret stay burned, TAMPER bits only grow in number, a key slot keeps its digest and its
valid bit and stays revoked once revoked, and burned row repairs stay in their order. A module reset, a function
reset and a LIFE_CYCLE leave BEAT as it is (01_anatomy.md, 17_security_life_cycle.md, 15_onchip_memory.md,
13_power_entry_last_light.md). -/
def Obligations.BeatAndFusesOnlyGrow : Prop :=
  (∀ i s t, exec i s = .next t → FusesGrow s t ∧ (restartsBeat s i = false → s.beat ≤ t.beat)) ∧
  (∀ c s t, (exec (.lifeCycle c) s = .next t ∨ exec (.moduleReset c) s = .next t ∨ exec (.funcReset c) s = .next t ∨ exec (.functionReset c) s = .next t) → t.beat = s.beat)
end

