-- ==== Sys2Proof/Laws/State.lean ====
section
/-! SUPPORT. One lemma per component per update: an update changes its own component and no other. -/

namespace Sys2Proof.Machine

@[simp] theorem State.updBeat_beat (s : State) (f : Nat → Nat) : (s.updBeat f).beat = f s.beat := rfl
@[simp] theorem State.updBeat_beatFrac (s : State) (f : Nat → Nat) : (s.updBeat f).beatFrac = s.beatFrac := rfl
@[simp] theorem State.updBeat_fns (s : State) (f : Nat → Nat) : (s.updBeat f).fns = s.fns := rfl
@[simp] theorem State.updBeat_links (s : State) (f : Nat → Nat) : (s.updBeat f).links = s.links := rfl
@[simp] theorem State.updBeat_rings (s : State) (f : Nat → Nat) : (s.updBeat f).rings = s.rings := rfl
@[simp] theorem State.updBeat_plan (s : State) (f : Nat → Nat) : (s.updBeat f).plan = s.plan := rfl
@[simp] theorem State.updBeat_ctxs (s : State) (f : Nat → Nat) : (s.updBeat f).ctxs = s.ctxs := rfl
@[simp] theorem State.updBeat_zci (s : State) (f : Nat → Nat) : (s.updBeat f).zci = s.zci := rfl
@[simp] theorem State.updBeat_xlat (s : State) (f : Nat → Nat) : (s.updBeat f).xlat = s.xlat := rfl
@[simp] theorem State.updBeat_media (s : State) (f : Nat → Nat) : (s.updBeat f).media = s.media := rfl
@[simp] theorem State.updBeat_care (s : State) (f : Nat → Nat) : (s.updBeat f).care = s.care := rfl
@[simp] theorem State.updBeat_flash (s : State) (f : Nat → Nat) : (s.updBeat f).flash = s.flash := rfl
@[simp] theorem State.updBeat_movers (s : State) (f : Nat → Nat) : (s.updBeat f).movers = s.movers := rfl
@[simp] theorem State.updBeat_twin (s : State) (f : Nat → Nat) : (s.updBeat f).twin = s.twin := rfl
@[simp] theorem State.updBeat_cane (s : State) (f : Nat → Nat) : (s.updBeat f).cane = s.cane := rfl
@[simp] theorem State.updBeat_power (s : State) (f : Nat → Nat) : (s.updBeat f).power = s.power := rfl
@[simp] theorem State.updBeat_day (s : State) (f : Nat → Nat) : (s.updBeat f).day = s.day := rfl
@[simp] theorem State.updBeat_therm (s : State) (f : Nat → Nat) : (s.updBeat f).therm = s.therm := rfl
@[simp] theorem State.updBeat_mem (s : State) (f : Nat → Nat) : (s.updBeat f).mem = s.mem := rfl
@[simp] theorem State.updBeat_nor (s : State) (f : Nat → Nat) : (s.updBeat f).nor = s.nor := rfl
@[simp] theorem State.updBeat_sec (s : State) (f : Nat → Nat) : (s.updBeat f).sec = s.sec := rfl
@[simp] theorem State.updBeat_side (s : State) (f : Nat → Nat) : (s.updBeat f).side = s.side := rfl
@[simp] theorem State.updBeat_nv (s : State) (f : Nat → Nat) : (s.updBeat f).nv = s.nv := rfl
@[simp] theorem State.updBeat_due (s : State) (f : Nat → Nat) : (s.updBeat f).due = s.due := rfl
@[simp] theorem State.updBeat_out (s : State) (f : Nat → Nat) : (s.updBeat f).out = s.out := rfl
@[simp] theorem State.updBeat_freeCtr (s : State) (f : Nat → Nat) : (s.updBeat f).freeCtr = s.freeCtr := rfl
@[simp] theorem State.updBeat_pending (s : State) (f : Nat → Nat) : (s.updBeat f).pending = s.pending := rfl
@[simp] theorem State.updBeatFrac_beat (s : State) (f : Nat → Nat) : (s.updBeatFrac f).beat = s.beat := rfl
@[simp] theorem State.updBeatFrac_beatFrac (s : State) (f : Nat → Nat) : (s.updBeatFrac f).beatFrac = f s.beatFrac := rfl
@[simp] theorem State.updBeatFrac_fns (s : State) (f : Nat → Nat) : (s.updBeatFrac f).fns = s.fns := rfl
@[simp] theorem State.updBeatFrac_links (s : State) (f : Nat → Nat) : (s.updBeatFrac f).links = s.links := rfl
@[simp] theorem State.updBeatFrac_rings (s : State) (f : Nat → Nat) : (s.updBeatFrac f).rings = s.rings := rfl
@[simp] theorem State.updBeatFrac_plan (s : State) (f : Nat → Nat) : (s.updBeatFrac f).plan = s.plan := rfl
@[simp] theorem State.updBeatFrac_ctxs (s : State) (f : Nat → Nat) : (s.updBeatFrac f).ctxs = s.ctxs := rfl
@[simp] theorem State.updBeatFrac_zci (s : State) (f : Nat → Nat) : (s.updBeatFrac f).zci = s.zci := rfl
@[simp] theorem State.updBeatFrac_xlat (s : State) (f : Nat → Nat) : (s.updBeatFrac f).xlat = s.xlat := rfl
@[simp] theorem State.updBeatFrac_media (s : State) (f : Nat → Nat) : (s.updBeatFrac f).media = s.media := rfl
@[simp] theorem State.updBeatFrac_care (s : State) (f : Nat → Nat) : (s.updBeatFrac f).care = s.care := rfl
@[simp] theorem State.updBeatFrac_flash (s : State) (f : Nat → Nat) : (s.updBeatFrac f).flash = s.flash := rfl
@[simp] theorem State.updBeatFrac_movers (s : State) (f : Nat → Nat) : (s.updBeatFrac f).movers = s.movers := rfl
@[simp] theorem State.updBeatFrac_twin (s : State) (f : Nat → Nat) : (s.updBeatFrac f).twin = s.twin := rfl
@[simp] theorem State.updBeatFrac_cane (s : State) (f : Nat → Nat) : (s.updBeatFrac f).cane = s.cane := rfl
@[simp] theorem State.updBeatFrac_power (s : State) (f : Nat → Nat) : (s.updBeatFrac f).power = s.power := rfl
@[simp] theorem State.updBeatFrac_day (s : State) (f : Nat → Nat) : (s.updBeatFrac f).day = s.day := rfl
@[simp] theorem State.updBeatFrac_therm (s : State) (f : Nat → Nat) : (s.updBeatFrac f).therm = s.therm := rfl
@[simp] theorem State.updBeatFrac_mem (s : State) (f : Nat → Nat) : (s.updBeatFrac f).mem = s.mem := rfl
@[simp] theorem State.updBeatFrac_nor (s : State) (f : Nat → Nat) : (s.updBeatFrac f).nor = s.nor := rfl
@[simp] theorem State.updBeatFrac_sec (s : State) (f : Nat → Nat) : (s.updBeatFrac f).sec = s.sec := rfl
@[simp] theorem State.updBeatFrac_side (s : State) (f : Nat → Nat) : (s.updBeatFrac f).side = s.side := rfl
@[simp] theorem State.updBeatFrac_nv (s : State) (f : Nat → Nat) : (s.updBeatFrac f).nv = s.nv := rfl
@[simp] theorem State.updBeatFrac_due (s : State) (f : Nat → Nat) : (s.updBeatFrac f).due = s.due := rfl
@[simp] theorem State.updBeatFrac_out (s : State) (f : Nat → Nat) : (s.updBeatFrac f).out = s.out := rfl
@[simp] theorem State.updBeatFrac_freeCtr (s : State) (f : Nat → Nat) : (s.updBeatFrac f).freeCtr = s.freeCtr := rfl
@[simp] theorem State.updBeatFrac_pending (s : State) (f : Nat → Nat) : (s.updBeatFrac f).pending = s.pending := rfl
@[simp] theorem State.updFns_beat (s : State) (f : (List HostFn) → (List HostFn)) : (s.updFns f).beat = s.beat := rfl
@[simp] theorem State.updFns_beatFrac (s : State) (f : (List HostFn) → (List HostFn)) : (s.updFns f).beatFrac = s.beatFrac := rfl
@[simp] theorem State.updFns_fns (s : State) (f : (List HostFn) → (List HostFn)) : (s.updFns f).fns = f s.fns := rfl
@[simp] theorem State.updFns_links (s : State) (f : (List HostFn) → (List HostFn)) : (s.updFns f).links = s.links := rfl
@[simp] theorem State.updFns_rings (s : State) (f : (List HostFn) → (List HostFn)) : (s.updFns f).rings = s.rings := rfl
@[simp] theorem State.updFns_plan (s : State) (f : (List HostFn) → (List HostFn)) : (s.updFns f).plan = s.plan := rfl
@[simp] theorem State.updFns_ctxs (s : State) (f : (List HostFn) → (List HostFn)) : (s.updFns f).ctxs = s.ctxs := rfl
@[simp] theorem State.updFns_zci (s : State) (f : (List HostFn) → (List HostFn)) : (s.updFns f).zci = s.zci := rfl
@[simp] theorem State.updFns_xlat (s : State) (f : (List HostFn) → (List HostFn)) : (s.updFns f).xlat = s.xlat := rfl
@[simp] theorem State.updFns_media (s : State) (f : (List HostFn) → (List HostFn)) : (s.updFns f).media = s.media := rfl
@[simp] theorem State.updFns_care (s : State) (f : (List HostFn) → (List HostFn)) : (s.updFns f).care = s.care := rfl
@[simp] theorem State.updFns_flash (s : State) (f : (List HostFn) → (List HostFn)) : (s.updFns f).flash = s.flash := rfl
@[simp] theorem State.updFns_movers (s : State) (f : (List HostFn) → (List HostFn)) : (s.updFns f).movers = s.movers := rfl
@[simp] theorem State.updFns_twin (s : State) (f : (List HostFn) → (List HostFn)) : (s.updFns f).twin = s.twin := rfl
@[simp] theorem State.updFns_cane (s : State) (f : (List HostFn) → (List HostFn)) : (s.updFns f).cane = s.cane := rfl
@[simp] theorem State.updFns_power (s : State) (f : (List HostFn) → (List HostFn)) : (s.updFns f).power = s.power := rfl
@[simp] theorem State.updFns_day (s : State) (f : (List HostFn) → (List HostFn)) : (s.updFns f).day = s.day := rfl
@[simp] theorem State.updFns_therm (s : State) (f : (List HostFn) → (List HostFn)) : (s.updFns f).therm = s.therm := rfl
@[simp] theorem State.updFns_mem (s : State) (f : (List HostFn) → (List HostFn)) : (s.updFns f).mem = s.mem := rfl
@[simp] theorem State.updFns_nor (s : State) (f : (List HostFn) → (List HostFn)) : (s.updFns f).nor = s.nor := rfl
@[simp] theorem State.updFns_sec (s : State) (f : (List HostFn) → (List HostFn)) : (s.updFns f).sec = s.sec := rfl
@[simp] theorem State.updFns_side (s : State) (f : (List HostFn) → (List HostFn)) : (s.updFns f).side = s.side := rfl
@[simp] theorem State.updFns_nv (s : State) (f : (List HostFn) → (List HostFn)) : (s.updFns f).nv = s.nv := rfl
@[simp] theorem State.updFns_due (s : State) (f : (List HostFn) → (List HostFn)) : (s.updFns f).due = s.due := rfl
@[simp] theorem State.updFns_out (s : State) (f : (List HostFn) → (List HostFn)) : (s.updFns f).out = s.out := rfl
@[simp] theorem State.updFns_freeCtr (s : State) (f : (List HostFn) → (List HostFn)) : (s.updFns f).freeCtr = s.freeCtr := rfl
@[simp] theorem State.updFns_pending (s : State) (f : (List HostFn) → (List HostFn)) : (s.updFns f).pending = s.pending := rfl
@[simp] theorem State.updLinks_beat (s : State) (f : (Vector HostLink 6) → (Vector HostLink 6)) : (s.updLinks f).beat = s.beat := rfl
@[simp] theorem State.updLinks_beatFrac (s : State) (f : (Vector HostLink 6) → (Vector HostLink 6)) : (s.updLinks f).beatFrac = s.beatFrac := rfl
@[simp] theorem State.updLinks_fns (s : State) (f : (Vector HostLink 6) → (Vector HostLink 6)) : (s.updLinks f).fns = s.fns := rfl
@[simp] theorem State.updLinks_links (s : State) (f : (Vector HostLink 6) → (Vector HostLink 6)) : (s.updLinks f).links = f s.links := rfl
@[simp] theorem State.updLinks_rings (s : State) (f : (Vector HostLink 6) → (Vector HostLink 6)) : (s.updLinks f).rings = s.rings := rfl
@[simp] theorem State.updLinks_plan (s : State) (f : (Vector HostLink 6) → (Vector HostLink 6)) : (s.updLinks f).plan = s.plan := rfl
@[simp] theorem State.updLinks_ctxs (s : State) (f : (Vector HostLink 6) → (Vector HostLink 6)) : (s.updLinks f).ctxs = s.ctxs := rfl
@[simp] theorem State.updLinks_zci (s : State) (f : (Vector HostLink 6) → (Vector HostLink 6)) : (s.updLinks f).zci = s.zci := rfl
@[simp] theorem State.updLinks_xlat (s : State) (f : (Vector HostLink 6) → (Vector HostLink 6)) : (s.updLinks f).xlat = s.xlat := rfl
@[simp] theorem State.updLinks_media (s : State) (f : (Vector HostLink 6) → (Vector HostLink 6)) : (s.updLinks f).media = s.media := rfl
@[simp] theorem State.updLinks_care (s : State) (f : (Vector HostLink 6) → (Vector HostLink 6)) : (s.updLinks f).care = s.care := rfl
@[simp] theorem State.updLinks_flash (s : State) (f : (Vector HostLink 6) → (Vector HostLink 6)) : (s.updLinks f).flash = s.flash := rfl
@[simp] theorem State.updLinks_movers (s : State) (f : (Vector HostLink 6) → (Vector HostLink 6)) : (s.updLinks f).movers = s.movers := rfl
@[simp] theorem State.updLinks_twin (s : State) (f : (Vector HostLink 6) → (Vector HostLink 6)) : (s.updLinks f).twin = s.twin := rfl
@[simp] theorem State.updLinks_cane (s : State) (f : (Vector HostLink 6) → (Vector HostLink 6)) : (s.updLinks f).cane = s.cane := rfl
@[simp] theorem State.updLinks_power (s : State) (f : (Vector HostLink 6) → (Vector HostLink 6)) : (s.updLinks f).power = s.power := rfl
@[simp] theorem State.updLinks_day (s : State) (f : (Vector HostLink 6) → (Vector HostLink 6)) : (s.updLinks f).day = s.day := rfl
@[simp] theorem State.updLinks_therm (s : State) (f : (Vector HostLink 6) → (Vector HostLink 6)) : (s.updLinks f).therm = s.therm := rfl
@[simp] theorem State.updLinks_mem (s : State) (f : (Vector HostLink 6) → (Vector HostLink 6)) : (s.updLinks f).mem = s.mem := rfl
@[simp] theorem State.updLinks_nor (s : State) (f : (Vector HostLink 6) → (Vector HostLink 6)) : (s.updLinks f).nor = s.nor := rfl
@[simp] theorem State.updLinks_sec (s : State) (f : (Vector HostLink 6) → (Vector HostLink 6)) : (s.updLinks f).sec = s.sec := rfl
@[simp] theorem State.updLinks_side (s : State) (f : (Vector HostLink 6) → (Vector HostLink 6)) : (s.updLinks f).side = s.side := rfl
@[simp] theorem State.updLinks_nv (s : State) (f : (Vector HostLink 6) → (Vector HostLink 6)) : (s.updLinks f).nv = s.nv := rfl
@[simp] theorem State.updLinks_due (s : State) (f : (Vector HostLink 6) → (Vector HostLink 6)) : (s.updLinks f).due = s.due := rfl
@[simp] theorem State.updLinks_out (s : State) (f : (Vector HostLink 6) → (Vector HostLink 6)) : (s.updLinks f).out = s.out := rfl
@[simp] theorem State.updLinks_freeCtr (s : State) (f : (Vector HostLink 6) → (Vector HostLink 6)) : (s.updLinks f).freeCtr = s.freeCtr := rfl
@[simp] theorem State.updLinks_pending (s : State) (f : (Vector HostLink 6) → (Vector HostLink 6)) : (s.updLinks f).pending = s.pending := rfl
@[simp] theorem State.updRings_beat (s : State) (f : (List Ring) → (List Ring)) : (s.updRings f).beat = s.beat := rfl
@[simp] theorem State.updRings_beatFrac (s : State) (f : (List Ring) → (List Ring)) : (s.updRings f).beatFrac = s.beatFrac := rfl
@[simp] theorem State.updRings_fns (s : State) (f : (List Ring) → (List Ring)) : (s.updRings f).fns = s.fns := rfl
@[simp] theorem State.updRings_links (s : State) (f : (List Ring) → (List Ring)) : (s.updRings f).links = s.links := rfl
@[simp] theorem State.updRings_rings (s : State) (f : (List Ring) → (List Ring)) : (s.updRings f).rings = f s.rings := rfl
@[simp] theorem State.updRings_plan (s : State) (f : (List Ring) → (List Ring)) : (s.updRings f).plan = s.plan := rfl
@[simp] theorem State.updRings_ctxs (s : State) (f : (List Ring) → (List Ring)) : (s.updRings f).ctxs = s.ctxs := rfl
@[simp] theorem State.updRings_zci (s : State) (f : (List Ring) → (List Ring)) : (s.updRings f).zci = s.zci := rfl
@[simp] theorem State.updRings_xlat (s : State) (f : (List Ring) → (List Ring)) : (s.updRings f).xlat = s.xlat := rfl
@[simp] theorem State.updRings_media (s : State) (f : (List Ring) → (List Ring)) : (s.updRings f).media = s.media := rfl
@[simp] theorem State.updRings_care (s : State) (f : (List Ring) → (List Ring)) : (s.updRings f).care = s.care := rfl
@[simp] theorem State.updRings_flash (s : State) (f : (List Ring) → (List Ring)) : (s.updRings f).flash = s.flash := rfl
@[simp] theorem State.updRings_movers (s : State) (f : (List Ring) → (List Ring)) : (s.updRings f).movers = s.movers := rfl
@[simp] theorem State.updRings_twin (s : State) (f : (List Ring) → (List Ring)) : (s.updRings f).twin = s.twin := rfl
@[simp] theorem State.updRings_cane (s : State) (f : (List Ring) → (List Ring)) : (s.updRings f).cane = s.cane := rfl
@[simp] theorem State.updRings_power (s : State) (f : (List Ring) → (List Ring)) : (s.updRings f).power = s.power := rfl
@[simp] theorem State.updRings_day (s : State) (f : (List Ring) → (List Ring)) : (s.updRings f).day = s.day := rfl
@[simp] theorem State.updRings_therm (s : State) (f : (List Ring) → (List Ring)) : (s.updRings f).therm = s.therm := rfl
@[simp] theorem State.updRings_mem (s : State) (f : (List Ring) → (List Ring)) : (s.updRings f).mem = s.mem := rfl
@[simp] theorem State.updRings_nor (s : State) (f : (List Ring) → (List Ring)) : (s.updRings f).nor = s.nor := rfl
@[simp] theorem State.updRings_sec (s : State) (f : (List Ring) → (List Ring)) : (s.updRings f).sec = s.sec := rfl
@[simp] theorem State.updRings_side (s : State) (f : (List Ring) → (List Ring)) : (s.updRings f).side = s.side := rfl
@[simp] theorem State.updRings_nv (s : State) (f : (List Ring) → (List Ring)) : (s.updRings f).nv = s.nv := rfl
@[simp] theorem State.updRings_due (s : State) (f : (List Ring) → (List Ring)) : (s.updRings f).due = s.due := rfl
@[simp] theorem State.updRings_out (s : State) (f : (List Ring) → (List Ring)) : (s.updRings f).out = s.out := rfl
@[simp] theorem State.updRings_freeCtr (s : State) (f : (List Ring) → (List Ring)) : (s.updRings f).freeCtr = s.freeCtr := rfl
@[simp] theorem State.updRings_pending (s : State) (f : (List Ring) → (List Ring)) : (s.updRings f).pending = s.pending := rfl
@[simp] theorem State.updPlan_beat (s : State) (f : Planner → Planner) : (s.updPlan f).beat = s.beat := rfl
@[simp] theorem State.updPlan_beatFrac (s : State) (f : Planner → Planner) : (s.updPlan f).beatFrac = s.beatFrac := rfl
@[simp] theorem State.updPlan_fns (s : State) (f : Planner → Planner) : (s.updPlan f).fns = s.fns := rfl
@[simp] theorem State.updPlan_links (s : State) (f : Planner → Planner) : (s.updPlan f).links = s.links := rfl
@[simp] theorem State.updPlan_rings (s : State) (f : Planner → Planner) : (s.updPlan f).rings = s.rings := rfl
@[simp] theorem State.updPlan_plan (s : State) (f : Planner → Planner) : (s.updPlan f).plan = f s.plan := rfl
@[simp] theorem State.updPlan_ctxs (s : State) (f : Planner → Planner) : (s.updPlan f).ctxs = s.ctxs := rfl
@[simp] theorem State.updPlan_zci (s : State) (f : Planner → Planner) : (s.updPlan f).zci = s.zci := rfl
@[simp] theorem State.updPlan_xlat (s : State) (f : Planner → Planner) : (s.updPlan f).xlat = s.xlat := rfl
@[simp] theorem State.updPlan_media (s : State) (f : Planner → Planner) : (s.updPlan f).media = s.media := rfl
@[simp] theorem State.updPlan_care (s : State) (f : Planner → Planner) : (s.updPlan f).care = s.care := rfl
@[simp] theorem State.updPlan_flash (s : State) (f : Planner → Planner) : (s.updPlan f).flash = s.flash := rfl
@[simp] theorem State.updPlan_movers (s : State) (f : Planner → Planner) : (s.updPlan f).movers = s.movers := rfl
@[simp] theorem State.updPlan_twin (s : State) (f : Planner → Planner) : (s.updPlan f).twin = s.twin := rfl
@[simp] theorem State.updPlan_cane (s : State) (f : Planner → Planner) : (s.updPlan f).cane = s.cane := rfl
@[simp] theorem State.updPlan_power (s : State) (f : Planner → Planner) : (s.updPlan f).power = s.power := rfl
@[simp] theorem State.updPlan_day (s : State) (f : Planner → Planner) : (s.updPlan f).day = s.day := rfl
@[simp] theorem State.updPlan_therm (s : State) (f : Planner → Planner) : (s.updPlan f).therm = s.therm := rfl
@[simp] theorem State.updPlan_mem (s : State) (f : Planner → Planner) : (s.updPlan f).mem = s.mem := rfl
@[simp] theorem State.updPlan_nor (s : State) (f : Planner → Planner) : (s.updPlan f).nor = s.nor := rfl
@[simp] theorem State.updPlan_sec (s : State) (f : Planner → Planner) : (s.updPlan f).sec = s.sec := rfl
@[simp] theorem State.updPlan_side (s : State) (f : Planner → Planner) : (s.updPlan f).side = s.side := rfl
@[simp] theorem State.updPlan_nv (s : State) (f : Planner → Planner) : (s.updPlan f).nv = s.nv := rfl
@[simp] theorem State.updPlan_due (s : State) (f : Planner → Planner) : (s.updPlan f).due = s.due := rfl
@[simp] theorem State.updPlan_out (s : State) (f : Planner → Planner) : (s.updPlan f).out = s.out := rfl
@[simp] theorem State.updPlan_freeCtr (s : State) (f : Planner → Planner) : (s.updPlan f).freeCtr = s.freeCtr := rfl
@[simp] theorem State.updPlan_pending (s : State) (f : Planner → Planner) : (s.updPlan f).pending = s.pending := rfl
@[simp] theorem State.updCtxs_beat (s : State) (f : (List Ctx) → (List Ctx)) : (s.updCtxs f).beat = s.beat := rfl
@[simp] theorem State.updCtxs_beatFrac (s : State) (f : (List Ctx) → (List Ctx)) : (s.updCtxs f).beatFrac = s.beatFrac := rfl
@[simp] theorem State.updCtxs_fns (s : State) (f : (List Ctx) → (List Ctx)) : (s.updCtxs f).fns = s.fns := rfl
@[simp] theorem State.updCtxs_links (s : State) (f : (List Ctx) → (List Ctx)) : (s.updCtxs f).links = s.links := rfl
@[simp] theorem State.updCtxs_rings (s : State) (f : (List Ctx) → (List Ctx)) : (s.updCtxs f).rings = s.rings := rfl
@[simp] theorem State.updCtxs_plan (s : State) (f : (List Ctx) → (List Ctx)) : (s.updCtxs f).plan = s.plan := rfl
@[simp] theorem State.updCtxs_ctxs (s : State) (f : (List Ctx) → (List Ctx)) : (s.updCtxs f).ctxs = f s.ctxs := rfl
@[simp] theorem State.updCtxs_zci (s : State) (f : (List Ctx) → (List Ctx)) : (s.updCtxs f).zci = s.zci := rfl
@[simp] theorem State.updCtxs_xlat (s : State) (f : (List Ctx) → (List Ctx)) : (s.updCtxs f).xlat = s.xlat := rfl
@[simp] theorem State.updCtxs_media (s : State) (f : (List Ctx) → (List Ctx)) : (s.updCtxs f).media = s.media := rfl
@[simp] theorem State.updCtxs_care (s : State) (f : (List Ctx) → (List Ctx)) : (s.updCtxs f).care = s.care := rfl
@[simp] theorem State.updCtxs_flash (s : State) (f : (List Ctx) → (List Ctx)) : (s.updCtxs f).flash = s.flash := rfl
@[simp] theorem State.updCtxs_movers (s : State) (f : (List Ctx) → (List Ctx)) : (s.updCtxs f).movers = s.movers := rfl
@[simp] theorem State.updCtxs_twin (s : State) (f : (List Ctx) → (List Ctx)) : (s.updCtxs f).twin = s.twin := rfl
@[simp] theorem State.updCtxs_cane (s : State) (f : (List Ctx) → (List Ctx)) : (s.updCtxs f).cane = s.cane := rfl
@[simp] theorem State.updCtxs_power (s : State) (f : (List Ctx) → (List Ctx)) : (s.updCtxs f).power = s.power := rfl
@[simp] theorem State.updCtxs_day (s : State) (f : (List Ctx) → (List Ctx)) : (s.updCtxs f).day = s.day := rfl
@[simp] theorem State.updCtxs_therm (s : State) (f : (List Ctx) → (List Ctx)) : (s.updCtxs f).therm = s.therm := rfl
@[simp] theorem State.updCtxs_mem (s : State) (f : (List Ctx) → (List Ctx)) : (s.updCtxs f).mem = s.mem := rfl
@[simp] theorem State.updCtxs_nor (s : State) (f : (List Ctx) → (List Ctx)) : (s.updCtxs f).nor = s.nor := rfl
@[simp] theorem State.updCtxs_sec (s : State) (f : (List Ctx) → (List Ctx)) : (s.updCtxs f).sec = s.sec := rfl
@[simp] theorem State.updCtxs_side (s : State) (f : (List Ctx) → (List Ctx)) : (s.updCtxs f).side = s.side := rfl
@[simp] theorem State.updCtxs_nv (s : State) (f : (List Ctx) → (List Ctx)) : (s.updCtxs f).nv = s.nv := rfl
@[simp] theorem State.updCtxs_due (s : State) (f : (List Ctx) → (List Ctx)) : (s.updCtxs f).due = s.due := rfl
@[simp] theorem State.updCtxs_out (s : State) (f : (List Ctx) → (List Ctx)) : (s.updCtxs f).out = s.out := rfl
@[simp] theorem State.updCtxs_freeCtr (s : State) (f : (List Ctx) → (List Ctx)) : (s.updCtxs f).freeCtr = s.freeCtr := rfl
@[simp] theorem State.updCtxs_pending (s : State) (f : (List Ctx) → (List Ctx)) : (s.updCtxs f).pending = s.pending := rfl
@[simp] theorem State.updZci_beat (s : State) (f : Zci → Zci) : (s.updZci f).beat = s.beat := rfl
@[simp] theorem State.updZci_beatFrac (s : State) (f : Zci → Zci) : (s.updZci f).beatFrac = s.beatFrac := rfl
@[simp] theorem State.updZci_fns (s : State) (f : Zci → Zci) : (s.updZci f).fns = s.fns := rfl
@[simp] theorem State.updZci_links (s : State) (f : Zci → Zci) : (s.updZci f).links = s.links := rfl
@[simp] theorem State.updZci_rings (s : State) (f : Zci → Zci) : (s.updZci f).rings = s.rings := rfl
@[simp] theorem State.updZci_plan (s : State) (f : Zci → Zci) : (s.updZci f).plan = s.plan := rfl
@[simp] theorem State.updZci_ctxs (s : State) (f : Zci → Zci) : (s.updZci f).ctxs = s.ctxs := rfl
@[simp] theorem State.updZci_zci (s : State) (f : Zci → Zci) : (s.updZci f).zci = f s.zci := rfl
@[simp] theorem State.updZci_xlat (s : State) (f : Zci → Zci) : (s.updZci f).xlat = s.xlat := rfl
@[simp] theorem State.updZci_media (s : State) (f : Zci → Zci) : (s.updZci f).media = s.media := rfl
@[simp] theorem State.updZci_care (s : State) (f : Zci → Zci) : (s.updZci f).care = s.care := rfl
@[simp] theorem State.updZci_flash (s : State) (f : Zci → Zci) : (s.updZci f).flash = s.flash := rfl
@[simp] theorem State.updZci_movers (s : State) (f : Zci → Zci) : (s.updZci f).movers = s.movers := rfl
@[simp] theorem State.updZci_twin (s : State) (f : Zci → Zci) : (s.updZci f).twin = s.twin := rfl
@[simp] theorem State.updZci_cane (s : State) (f : Zci → Zci) : (s.updZci f).cane = s.cane := rfl
@[simp] theorem State.updZci_power (s : State) (f : Zci → Zci) : (s.updZci f).power = s.power := rfl
@[simp] theorem State.updZci_day (s : State) (f : Zci → Zci) : (s.updZci f).day = s.day := rfl
@[simp] theorem State.updZci_therm (s : State) (f : Zci → Zci) : (s.updZci f).therm = s.therm := rfl
@[simp] theorem State.updZci_mem (s : State) (f : Zci → Zci) : (s.updZci f).mem = s.mem := rfl
@[simp] theorem State.updZci_nor (s : State) (f : Zci → Zci) : (s.updZci f).nor = s.nor := rfl
@[simp] theorem State.updZci_sec (s : State) (f : Zci → Zci) : (s.updZci f).sec = s.sec := rfl
@[simp] theorem State.updZci_side (s : State) (f : Zci → Zci) : (s.updZci f).side = s.side := rfl
@[simp] theorem State.updZci_nv (s : State) (f : Zci → Zci) : (s.updZci f).nv = s.nv := rfl
@[simp] theorem State.updZci_due (s : State) (f : Zci → Zci) : (s.updZci f).due = s.due := rfl
@[simp] theorem State.updZci_out (s : State) (f : Zci → Zci) : (s.updZci f).out = s.out := rfl
@[simp] theorem State.updZci_freeCtr (s : State) (f : Zci → Zci) : (s.updZci f).freeCtr = s.freeCtr := rfl
@[simp] theorem State.updZci_pending (s : State) (f : Zci → Zci) : (s.updZci f).pending = s.pending := rfl
@[simp] theorem State.updXlat_beat (s : State) (f : Xlat → Xlat) : (s.updXlat f).beat = s.beat := rfl
@[simp] theorem State.updXlat_beatFrac (s : State) (f : Xlat → Xlat) : (s.updXlat f).beatFrac = s.beatFrac := rfl
@[simp] theorem State.updXlat_fns (s : State) (f : Xlat → Xlat) : (s.updXlat f).fns = s.fns := rfl
@[simp] theorem State.updXlat_links (s : State) (f : Xlat → Xlat) : (s.updXlat f).links = s.links := rfl
@[simp] theorem State.updXlat_rings (s : State) (f : Xlat → Xlat) : (s.updXlat f).rings = s.rings := rfl
@[simp] theorem State.updXlat_plan (s : State) (f : Xlat → Xlat) : (s.updXlat f).plan = s.plan := rfl
@[simp] theorem State.updXlat_ctxs (s : State) (f : Xlat → Xlat) : (s.updXlat f).ctxs = s.ctxs := rfl
@[simp] theorem State.updXlat_zci (s : State) (f : Xlat → Xlat) : (s.updXlat f).zci = s.zci := rfl
@[simp] theorem State.updXlat_xlat (s : State) (f : Xlat → Xlat) : (s.updXlat f).xlat = f s.xlat := rfl
@[simp] theorem State.updXlat_media (s : State) (f : Xlat → Xlat) : (s.updXlat f).media = s.media := rfl
@[simp] theorem State.updXlat_care (s : State) (f : Xlat → Xlat) : (s.updXlat f).care = s.care := rfl
@[simp] theorem State.updXlat_flash (s : State) (f : Xlat → Xlat) : (s.updXlat f).flash = s.flash := rfl
@[simp] theorem State.updXlat_movers (s : State) (f : Xlat → Xlat) : (s.updXlat f).movers = s.movers := rfl
@[simp] theorem State.updXlat_twin (s : State) (f : Xlat → Xlat) : (s.updXlat f).twin = s.twin := rfl
@[simp] theorem State.updXlat_cane (s : State) (f : Xlat → Xlat) : (s.updXlat f).cane = s.cane := rfl
@[simp] theorem State.updXlat_power (s : State) (f : Xlat → Xlat) : (s.updXlat f).power = s.power := rfl
@[simp] theorem State.updXlat_day (s : State) (f : Xlat → Xlat) : (s.updXlat f).day = s.day := rfl
@[simp] theorem State.updXlat_therm (s : State) (f : Xlat → Xlat) : (s.updXlat f).therm = s.therm := rfl
@[simp] theorem State.updXlat_mem (s : State) (f : Xlat → Xlat) : (s.updXlat f).mem = s.mem := rfl
@[simp] theorem State.updXlat_nor (s : State) (f : Xlat → Xlat) : (s.updXlat f).nor = s.nor := rfl
@[simp] theorem State.updXlat_sec (s : State) (f : Xlat → Xlat) : (s.updXlat f).sec = s.sec := rfl
@[simp] theorem State.updXlat_side (s : State) (f : Xlat → Xlat) : (s.updXlat f).side = s.side := rfl
@[simp] theorem State.updXlat_nv (s : State) (f : Xlat → Xlat) : (s.updXlat f).nv = s.nv := rfl
@[simp] theorem State.updXlat_due (s : State) (f : Xlat → Xlat) : (s.updXlat f).due = s.due := rfl
@[simp] theorem State.updXlat_out (s : State) (f : Xlat → Xlat) : (s.updXlat f).out = s.out := rfl
@[simp] theorem State.updXlat_freeCtr (s : State) (f : Xlat → Xlat) : (s.updXlat f).freeCtr = s.freeCtr := rfl
@[simp] theorem State.updXlat_pending (s : State) (f : Xlat → Xlat) : (s.updXlat f).pending = s.pending := rfl
@[simp] theorem State.updMedia_beat (s : State) (f : Media → Media) : (s.updMedia f).beat = s.beat := rfl
@[simp] theorem State.updMedia_beatFrac (s : State) (f : Media → Media) : (s.updMedia f).beatFrac = s.beatFrac := rfl
@[simp] theorem State.updMedia_fns (s : State) (f : Media → Media) : (s.updMedia f).fns = s.fns := rfl
@[simp] theorem State.updMedia_links (s : State) (f : Media → Media) : (s.updMedia f).links = s.links := rfl
@[simp] theorem State.updMedia_rings (s : State) (f : Media → Media) : (s.updMedia f).rings = s.rings := rfl
@[simp] theorem State.updMedia_plan (s : State) (f : Media → Media) : (s.updMedia f).plan = s.plan := rfl
@[simp] theorem State.updMedia_ctxs (s : State) (f : Media → Media) : (s.updMedia f).ctxs = s.ctxs := rfl
@[simp] theorem State.updMedia_zci (s : State) (f : Media → Media) : (s.updMedia f).zci = s.zci := rfl
@[simp] theorem State.updMedia_xlat (s : State) (f : Media → Media) : (s.updMedia f).xlat = s.xlat := rfl
@[simp] theorem State.updMedia_media (s : State) (f : Media → Media) : (s.updMedia f).media = f s.media := rfl
@[simp] theorem State.updMedia_care (s : State) (f : Media → Media) : (s.updMedia f).care = s.care := rfl
@[simp] theorem State.updMedia_flash (s : State) (f : Media → Media) : (s.updMedia f).flash = s.flash := rfl
@[simp] theorem State.updMedia_movers (s : State) (f : Media → Media) : (s.updMedia f).movers = s.movers := rfl
@[simp] theorem State.updMedia_twin (s : State) (f : Media → Media) : (s.updMedia f).twin = s.twin := rfl
@[simp] theorem State.updMedia_cane (s : State) (f : Media → Media) : (s.updMedia f).cane = s.cane := rfl
@[simp] theorem State.updMedia_power (s : State) (f : Media → Media) : (s.updMedia f).power = s.power := rfl
@[simp] theorem State.updMedia_day (s : State) (f : Media → Media) : (s.updMedia f).day = s.day := rfl
@[simp] theorem State.updMedia_therm (s : State) (f : Media → Media) : (s.updMedia f).therm = s.therm := rfl
@[simp] theorem State.updMedia_mem (s : State) (f : Media → Media) : (s.updMedia f).mem = s.mem := rfl
@[simp] theorem State.updMedia_nor (s : State) (f : Media → Media) : (s.updMedia f).nor = s.nor := rfl
@[simp] theorem State.updMedia_sec (s : State) (f : Media → Media) : (s.updMedia f).sec = s.sec := rfl
@[simp] theorem State.updMedia_side (s : State) (f : Media → Media) : (s.updMedia f).side = s.side := rfl
@[simp] theorem State.updMedia_nv (s : State) (f : Media → Media) : (s.updMedia f).nv = s.nv := rfl
@[simp] theorem State.updMedia_due (s : State) (f : Media → Media) : (s.updMedia f).due = s.due := rfl
@[simp] theorem State.updMedia_out (s : State) (f : Media → Media) : (s.updMedia f).out = s.out := rfl
@[simp] theorem State.updMedia_freeCtr (s : State) (f : Media → Media) : (s.updMedia f).freeCtr = s.freeCtr := rfl
@[simp] theorem State.updMedia_pending (s : State) (f : Media → Media) : (s.updMedia f).pending = s.pending := rfl
@[simp] theorem State.updCare_beat (s : State) (f : Care → Care) : (s.updCare f).beat = s.beat := rfl
@[simp] theorem State.updCare_beatFrac (s : State) (f : Care → Care) : (s.updCare f).beatFrac = s.beatFrac := rfl
@[simp] theorem State.updCare_fns (s : State) (f : Care → Care) : (s.updCare f).fns = s.fns := rfl
@[simp] theorem State.updCare_links (s : State) (f : Care → Care) : (s.updCare f).links = s.links := rfl
@[simp] theorem State.updCare_rings (s : State) (f : Care → Care) : (s.updCare f).rings = s.rings := rfl
@[simp] theorem State.updCare_plan (s : State) (f : Care → Care) : (s.updCare f).plan = s.plan := rfl
@[simp] theorem State.updCare_ctxs (s : State) (f : Care → Care) : (s.updCare f).ctxs = s.ctxs := rfl
@[simp] theorem State.updCare_zci (s : State) (f : Care → Care) : (s.updCare f).zci = s.zci := rfl
@[simp] theorem State.updCare_xlat (s : State) (f : Care → Care) : (s.updCare f).xlat = s.xlat := rfl
@[simp] theorem State.updCare_media (s : State) (f : Care → Care) : (s.updCare f).media = s.media := rfl
@[simp] theorem State.updCare_care (s : State) (f : Care → Care) : (s.updCare f).care = f s.care := rfl
@[simp] theorem State.updCare_flash (s : State) (f : Care → Care) : (s.updCare f).flash = s.flash := rfl
@[simp] theorem State.updCare_movers (s : State) (f : Care → Care) : (s.updCare f).movers = s.movers := rfl
@[simp] theorem State.updCare_twin (s : State) (f : Care → Care) : (s.updCare f).twin = s.twin := rfl
@[simp] theorem State.updCare_cane (s : State) (f : Care → Care) : (s.updCare f).cane = s.cane := rfl
@[simp] theorem State.updCare_power (s : State) (f : Care → Care) : (s.updCare f).power = s.power := rfl
@[simp] theorem State.updCare_day (s : State) (f : Care → Care) : (s.updCare f).day = s.day := rfl
@[simp] theorem State.updCare_therm (s : State) (f : Care → Care) : (s.updCare f).therm = s.therm := rfl
@[simp] theorem State.updCare_mem (s : State) (f : Care → Care) : (s.updCare f).mem = s.mem := rfl
@[simp] theorem State.updCare_nor (s : State) (f : Care → Care) : (s.updCare f).nor = s.nor := rfl
@[simp] theorem State.updCare_sec (s : State) (f : Care → Care) : (s.updCare f).sec = s.sec := rfl
@[simp] theorem State.updCare_side (s : State) (f : Care → Care) : (s.updCare f).side = s.side := rfl
@[simp] theorem State.updCare_nv (s : State) (f : Care → Care) : (s.updCare f).nv = s.nv := rfl
@[simp] theorem State.updCare_due (s : State) (f : Care → Care) : (s.updCare f).due = s.due := rfl
@[simp] theorem State.updCare_out (s : State) (f : Care → Care) : (s.updCare f).out = s.out := rfl
@[simp] theorem State.updCare_freeCtr (s : State) (f : Care → Care) : (s.updCare f).freeCtr = s.freeCtr := rfl
@[simp] theorem State.updCare_pending (s : State) (f : Care → Care) : (s.updCare f).pending = s.pending := rfl
@[simp] theorem State.updFlash_beat (s : State) (f : Flash → Flash) : (s.updFlash f).beat = s.beat := rfl
@[simp] theorem State.updFlash_beatFrac (s : State) (f : Flash → Flash) : (s.updFlash f).beatFrac = s.beatFrac := rfl
@[simp] theorem State.updFlash_fns (s : State) (f : Flash → Flash) : (s.updFlash f).fns = s.fns := rfl
@[simp] theorem State.updFlash_links (s : State) (f : Flash → Flash) : (s.updFlash f).links = s.links := rfl
@[simp] theorem State.updFlash_rings (s : State) (f : Flash → Flash) : (s.updFlash f).rings = s.rings := rfl
@[simp] theorem State.updFlash_plan (s : State) (f : Flash → Flash) : (s.updFlash f).plan = s.plan := rfl
@[simp] theorem State.updFlash_ctxs (s : State) (f : Flash → Flash) : (s.updFlash f).ctxs = s.ctxs := rfl
@[simp] theorem State.updFlash_zci (s : State) (f : Flash → Flash) : (s.updFlash f).zci = s.zci := rfl
@[simp] theorem State.updFlash_xlat (s : State) (f : Flash → Flash) : (s.updFlash f).xlat = s.xlat := rfl
@[simp] theorem State.updFlash_media (s : State) (f : Flash → Flash) : (s.updFlash f).media = s.media := rfl
@[simp] theorem State.updFlash_care (s : State) (f : Flash → Flash) : (s.updFlash f).care = s.care := rfl
@[simp] theorem State.updFlash_flash (s : State) (f : Flash → Flash) : (s.updFlash f).flash = f s.flash := rfl
@[simp] theorem State.updFlash_movers (s : State) (f : Flash → Flash) : (s.updFlash f).movers = s.movers := rfl
@[simp] theorem State.updFlash_twin (s : State) (f : Flash → Flash) : (s.updFlash f).twin = s.twin := rfl
@[simp] theorem State.updFlash_cane (s : State) (f : Flash → Flash) : (s.updFlash f).cane = s.cane := rfl
@[simp] theorem State.updFlash_power (s : State) (f : Flash → Flash) : (s.updFlash f).power = s.power := rfl
@[simp] theorem State.updFlash_day (s : State) (f : Flash → Flash) : (s.updFlash f).day = s.day := rfl
@[simp] theorem State.updFlash_therm (s : State) (f : Flash → Flash) : (s.updFlash f).therm = s.therm := rfl
@[simp] theorem State.updFlash_mem (s : State) (f : Flash → Flash) : (s.updFlash f).mem = s.mem := rfl
@[simp] theorem State.updFlash_nor (s : State) (f : Flash → Flash) : (s.updFlash f).nor = s.nor := rfl
@[simp] theorem State.updFlash_sec (s : State) (f : Flash → Flash) : (s.updFlash f).sec = s.sec := rfl
@[simp] theorem State.updFlash_side (s : State) (f : Flash → Flash) : (s.updFlash f).side = s.side := rfl
@[simp] theorem State.updFlash_nv (s : State) (f : Flash → Flash) : (s.updFlash f).nv = s.nv := rfl
@[simp] theorem State.updFlash_due (s : State) (f : Flash → Flash) : (s.updFlash f).due = s.due := rfl
@[simp] theorem State.updFlash_out (s : State) (f : Flash → Flash) : (s.updFlash f).out = s.out := rfl
@[simp] theorem State.updFlash_freeCtr (s : State) (f : Flash → Flash) : (s.updFlash f).freeCtr = s.freeCtr := rfl
@[simp] theorem State.updFlash_pending (s : State) (f : Flash → Flash) : (s.updFlash f).pending = s.pending := rfl
@[simp] theorem State.updMovers_beat (s : State) (f : Movers → Movers) : (s.updMovers f).beat = s.beat := rfl
@[simp] theorem State.updMovers_beatFrac (s : State) (f : Movers → Movers) : (s.updMovers f).beatFrac = s.beatFrac := rfl
@[simp] theorem State.updMovers_fns (s : State) (f : Movers → Movers) : (s.updMovers f).fns = s.fns := rfl
@[simp] theorem State.updMovers_links (s : State) (f : Movers → Movers) : (s.updMovers f).links = s.links := rfl
@[simp] theorem State.updMovers_rings (s : State) (f : Movers → Movers) : (s.updMovers f).rings = s.rings := rfl
@[simp] theorem State.updMovers_plan (s : State) (f : Movers → Movers) : (s.updMovers f).plan = s.plan := rfl
@[simp] theorem State.updMovers_ctxs (s : State) (f : Movers → Movers) : (s.updMovers f).ctxs = s.ctxs := rfl
@[simp] theorem State.updMovers_zci (s : State) (f : Movers → Movers) : (s.updMovers f).zci = s.zci := rfl
@[simp] theorem State.updMovers_xlat (s : State) (f : Movers → Movers) : (s.updMovers f).xlat = s.xlat := rfl
@[simp] theorem State.updMovers_media (s : State) (f : Movers → Movers) : (s.updMovers f).media = s.media := rfl
@[simp] theorem State.updMovers_care (s : State) (f : Movers → Movers) : (s.updMovers f).care = s.care := rfl
@[simp] theorem State.updMovers_flash (s : State) (f : Movers → Movers) : (s.updMovers f).flash = s.flash := rfl
@[simp] theorem State.updMovers_movers (s : State) (f : Movers → Movers) : (s.updMovers f).movers = f s.movers := rfl
@[simp] theorem State.updMovers_twin (s : State) (f : Movers → Movers) : (s.updMovers f).twin = s.twin := rfl
@[simp] theorem State.updMovers_cane (s : State) (f : Movers → Movers) : (s.updMovers f).cane = s.cane := rfl
@[simp] theorem State.updMovers_power (s : State) (f : Movers → Movers) : (s.updMovers f).power = s.power := rfl
@[simp] theorem State.updMovers_day (s : State) (f : Movers → Movers) : (s.updMovers f).day = s.day := rfl
@[simp] theorem State.updMovers_therm (s : State) (f : Movers → Movers) : (s.updMovers f).therm = s.therm := rfl
@[simp] theorem State.updMovers_mem (s : State) (f : Movers → Movers) : (s.updMovers f).mem = s.mem := rfl
@[simp] theorem State.updMovers_nor (s : State) (f : Movers → Movers) : (s.updMovers f).nor = s.nor := rfl
@[simp] theorem State.updMovers_sec (s : State) (f : Movers → Movers) : (s.updMovers f).sec = s.sec := rfl
@[simp] theorem State.updMovers_side (s : State) (f : Movers → Movers) : (s.updMovers f).side = s.side := rfl
@[simp] theorem State.updMovers_nv (s : State) (f : Movers → Movers) : (s.updMovers f).nv = s.nv := rfl
@[simp] theorem State.updMovers_due (s : State) (f : Movers → Movers) : (s.updMovers f).due = s.due := rfl
@[simp] theorem State.updMovers_out (s : State) (f : Movers → Movers) : (s.updMovers f).out = s.out := rfl
@[simp] theorem State.updMovers_freeCtr (s : State) (f : Movers → Movers) : (s.updMovers f).freeCtr = s.freeCtr := rfl
@[simp] theorem State.updMovers_pending (s : State) (f : Movers → Movers) : (s.updMovers f).pending = s.pending := rfl
@[simp] theorem State.updTwin_beat (s : State) (f : Twin → Twin) : (s.updTwin f).beat = s.beat := rfl
@[simp] theorem State.updTwin_beatFrac (s : State) (f : Twin → Twin) : (s.updTwin f).beatFrac = s.beatFrac := rfl
@[simp] theorem State.updTwin_fns (s : State) (f : Twin → Twin) : (s.updTwin f).fns = s.fns := rfl
@[simp] theorem State.updTwin_links (s : State) (f : Twin → Twin) : (s.updTwin f).links = s.links := rfl
@[simp] theorem State.updTwin_rings (s : State) (f : Twin → Twin) : (s.updTwin f).rings = s.rings := rfl
@[simp] theorem State.updTwin_plan (s : State) (f : Twin → Twin) : (s.updTwin f).plan = s.plan := rfl
@[simp] theorem State.updTwin_ctxs (s : State) (f : Twin → Twin) : (s.updTwin f).ctxs = s.ctxs := rfl
@[simp] theorem State.updTwin_zci (s : State) (f : Twin → Twin) : (s.updTwin f).zci = s.zci := rfl
@[simp] theorem State.updTwin_xlat (s : State) (f : Twin → Twin) : (s.updTwin f).xlat = s.xlat := rfl
@[simp] theorem State.updTwin_media (s : State) (f : Twin → Twin) : (s.updTwin f).media = s.media := rfl
@[simp] theorem State.updTwin_care (s : State) (f : Twin → Twin) : (s.updTwin f).care = s.care := rfl
@[simp] theorem State.updTwin_flash (s : State) (f : Twin → Twin) : (s.updTwin f).flash = s.flash := rfl
@[simp] theorem State.updTwin_movers (s : State) (f : Twin → Twin) : (s.updTwin f).movers = s.movers := rfl
@[simp] theorem State.updTwin_twin (s : State) (f : Twin → Twin) : (s.updTwin f).twin = f s.twin := rfl
@[simp] theorem State.updTwin_cane (s : State) (f : Twin → Twin) : (s.updTwin f).cane = s.cane := rfl
@[simp] theorem State.updTwin_power (s : State) (f : Twin → Twin) : (s.updTwin f).power = s.power := rfl
@[simp] theorem State.updTwin_day (s : State) (f : Twin → Twin) : (s.updTwin f).day = s.day := rfl
@[simp] theorem State.updTwin_therm (s : State) (f : Twin → Twin) : (s.updTwin f).therm = s.therm := rfl
@[simp] theorem State.updTwin_mem (s : State) (f : Twin → Twin) : (s.updTwin f).mem = s.mem := rfl
@[simp] theorem State.updTwin_nor (s : State) (f : Twin → Twin) : (s.updTwin f).nor = s.nor := rfl
@[simp] theorem State.updTwin_sec (s : State) (f : Twin → Twin) : (s.updTwin f).sec = s.sec := rfl
@[simp] theorem State.updTwin_side (s : State) (f : Twin → Twin) : (s.updTwin f).side = s.side := rfl
@[simp] theorem State.updTwin_nv (s : State) (f : Twin → Twin) : (s.updTwin f).nv = s.nv := rfl
@[simp] theorem State.updTwin_due (s : State) (f : Twin → Twin) : (s.updTwin f).due = s.due := rfl
@[simp] theorem State.updTwin_out (s : State) (f : Twin → Twin) : (s.updTwin f).out = s.out := rfl
@[simp] theorem State.updTwin_freeCtr (s : State) (f : Twin → Twin) : (s.updTwin f).freeCtr = s.freeCtr := rfl
@[simp] theorem State.updTwin_pending (s : State) (f : Twin → Twin) : (s.updTwin f).pending = s.pending := rfl
@[simp] theorem State.updCane_beat (s : State) (f : Cane → Cane) : (s.updCane f).beat = s.beat := rfl
@[simp] theorem State.updCane_beatFrac (s : State) (f : Cane → Cane) : (s.updCane f).beatFrac = s.beatFrac := rfl
@[simp] theorem State.updCane_fns (s : State) (f : Cane → Cane) : (s.updCane f).fns = s.fns := rfl
@[simp] theorem State.updCane_links (s : State) (f : Cane → Cane) : (s.updCane f).links = s.links := rfl
@[simp] theorem State.updCane_rings (s : State) (f : Cane → Cane) : (s.updCane f).rings = s.rings := rfl
@[simp] theorem State.updCane_plan (s : State) (f : Cane → Cane) : (s.updCane f).plan = s.plan := rfl
@[simp] theorem State.updCane_ctxs (s : State) (f : Cane → Cane) : (s.updCane f).ctxs = s.ctxs := rfl
@[simp] theorem State.updCane_zci (s : State) (f : Cane → Cane) : (s.updCane f).zci = s.zci := rfl
@[simp] theorem State.updCane_xlat (s : State) (f : Cane → Cane) : (s.updCane f).xlat = s.xlat := rfl
@[simp] theorem State.updCane_media (s : State) (f : Cane → Cane) : (s.updCane f).media = s.media := rfl
@[simp] theorem State.updCane_care (s : State) (f : Cane → Cane) : (s.updCane f).care = s.care := rfl
@[simp] theorem State.updCane_flash (s : State) (f : Cane → Cane) : (s.updCane f).flash = s.flash := rfl
@[simp] theorem State.updCane_movers (s : State) (f : Cane → Cane) : (s.updCane f).movers = s.movers := rfl
@[simp] theorem State.updCane_twin (s : State) (f : Cane → Cane) : (s.updCane f).twin = s.twin := rfl
@[simp] theorem State.updCane_cane (s : State) (f : Cane → Cane) : (s.updCane f).cane = f s.cane := rfl
@[simp] theorem State.updCane_power (s : State) (f : Cane → Cane) : (s.updCane f).power = s.power := rfl
@[simp] theorem State.updCane_day (s : State) (f : Cane → Cane) : (s.updCane f).day = s.day := rfl
@[simp] theorem State.updCane_therm (s : State) (f : Cane → Cane) : (s.updCane f).therm = s.therm := rfl
@[simp] theorem State.updCane_mem (s : State) (f : Cane → Cane) : (s.updCane f).mem = s.mem := rfl
@[simp] theorem State.updCane_nor (s : State) (f : Cane → Cane) : (s.updCane f).nor = s.nor := rfl
@[simp] theorem State.updCane_sec (s : State) (f : Cane → Cane) : (s.updCane f).sec = s.sec := rfl
@[simp] theorem State.updCane_side (s : State) (f : Cane → Cane) : (s.updCane f).side = s.side := rfl
@[simp] theorem State.updCane_nv (s : State) (f : Cane → Cane) : (s.updCane f).nv = s.nv := rfl
@[simp] theorem State.updCane_due (s : State) (f : Cane → Cane) : (s.updCane f).due = s.due := rfl
@[simp] theorem State.updCane_out (s : State) (f : Cane → Cane) : (s.updCane f).out = s.out := rfl
@[simp] theorem State.updCane_freeCtr (s : State) (f : Cane → Cane) : (s.updCane f).freeCtr = s.freeCtr := rfl
@[simp] theorem State.updCane_pending (s : State) (f : Cane → Cane) : (s.updCane f).pending = s.pending := rfl
@[simp] theorem State.updPower_beat (s : State) (f : Power → Power) : (s.updPower f).beat = s.beat := rfl
@[simp] theorem State.updPower_beatFrac (s : State) (f : Power → Power) : (s.updPower f).beatFrac = s.beatFrac := rfl
@[simp] theorem State.updPower_fns (s : State) (f : Power → Power) : (s.updPower f).fns = s.fns := rfl
@[simp] theorem State.updPower_links (s : State) (f : Power → Power) : (s.updPower f).links = s.links := rfl
@[simp] theorem State.updPower_rings (s : State) (f : Power → Power) : (s.updPower f).rings = s.rings := rfl
@[simp] theorem State.updPower_plan (s : State) (f : Power → Power) : (s.updPower f).plan = s.plan := rfl
@[simp] theorem State.updPower_ctxs (s : State) (f : Power → Power) : (s.updPower f).ctxs = s.ctxs := rfl
@[simp] theorem State.updPower_zci (s : State) (f : Power → Power) : (s.updPower f).zci = s.zci := rfl
@[simp] theorem State.updPower_xlat (s : State) (f : Power → Power) : (s.updPower f).xlat = s.xlat := rfl
@[simp] theorem State.updPower_media (s : State) (f : Power → Power) : (s.updPower f).media = s.media := rfl
@[simp] theorem State.updPower_care (s : State) (f : Power → Power) : (s.updPower f).care = s.care := rfl
@[simp] theorem State.updPower_flash (s : State) (f : Power → Power) : (s.updPower f).flash = s.flash := rfl
@[simp] theorem State.updPower_movers (s : State) (f : Power → Power) : (s.updPower f).movers = s.movers := rfl
@[simp] theorem State.updPower_twin (s : State) (f : Power → Power) : (s.updPower f).twin = s.twin := rfl
@[simp] theorem State.updPower_cane (s : State) (f : Power → Power) : (s.updPower f).cane = s.cane := rfl
@[simp] theorem State.updPower_power (s : State) (f : Power → Power) : (s.updPower f).power = f s.power := rfl
@[simp] theorem State.updPower_day (s : State) (f : Power → Power) : (s.updPower f).day = s.day := rfl
@[simp] theorem State.updPower_therm (s : State) (f : Power → Power) : (s.updPower f).therm = s.therm := rfl
@[simp] theorem State.updPower_mem (s : State) (f : Power → Power) : (s.updPower f).mem = s.mem := rfl
@[simp] theorem State.updPower_nor (s : State) (f : Power → Power) : (s.updPower f).nor = s.nor := rfl
@[simp] theorem State.updPower_sec (s : State) (f : Power → Power) : (s.updPower f).sec = s.sec := rfl
@[simp] theorem State.updPower_side (s : State) (f : Power → Power) : (s.updPower f).side = s.side := rfl
@[simp] theorem State.updPower_nv (s : State) (f : Power → Power) : (s.updPower f).nv = s.nv := rfl
@[simp] theorem State.updPower_due (s : State) (f : Power → Power) : (s.updPower f).due = s.due := rfl
@[simp] theorem State.updPower_out (s : State) (f : Power → Power) : (s.updPower f).out = s.out := rfl
@[simp] theorem State.updPower_freeCtr (s : State) (f : Power → Power) : (s.updPower f).freeCtr = s.freeCtr := rfl
@[simp] theorem State.updPower_pending (s : State) (f : Power → Power) : (s.updPower f).pending = s.pending := rfl
@[simp] theorem State.updDay_beat (s : State) (f : Day → Day) : (s.updDay f).beat = s.beat := rfl
@[simp] theorem State.updDay_beatFrac (s : State) (f : Day → Day) : (s.updDay f).beatFrac = s.beatFrac := rfl
@[simp] theorem State.updDay_fns (s : State) (f : Day → Day) : (s.updDay f).fns = s.fns := rfl
@[simp] theorem State.updDay_links (s : State) (f : Day → Day) : (s.updDay f).links = s.links := rfl
@[simp] theorem State.updDay_rings (s : State) (f : Day → Day) : (s.updDay f).rings = s.rings := rfl
@[simp] theorem State.updDay_plan (s : State) (f : Day → Day) : (s.updDay f).plan = s.plan := rfl
@[simp] theorem State.updDay_ctxs (s : State) (f : Day → Day) : (s.updDay f).ctxs = s.ctxs := rfl
@[simp] theorem State.updDay_zci (s : State) (f : Day → Day) : (s.updDay f).zci = s.zci := rfl
@[simp] theorem State.updDay_xlat (s : State) (f : Day → Day) : (s.updDay f).xlat = s.xlat := rfl
@[simp] theorem State.updDay_media (s : State) (f : Day → Day) : (s.updDay f).media = s.media := rfl
@[simp] theorem State.updDay_care (s : State) (f : Day → Day) : (s.updDay f).care = s.care := rfl
@[simp] theorem State.updDay_flash (s : State) (f : Day → Day) : (s.updDay f).flash = s.flash := rfl
@[simp] theorem State.updDay_movers (s : State) (f : Day → Day) : (s.updDay f).movers = s.movers := rfl
@[simp] theorem State.updDay_twin (s : State) (f : Day → Day) : (s.updDay f).twin = s.twin := rfl
@[simp] theorem State.updDay_cane (s : State) (f : Day → Day) : (s.updDay f).cane = s.cane := rfl
@[simp] theorem State.updDay_power (s : State) (f : Day → Day) : (s.updDay f).power = s.power := rfl
@[simp] theorem State.updDay_day (s : State) (f : Day → Day) : (s.updDay f).day = f s.day := rfl
@[simp] theorem State.updDay_therm (s : State) (f : Day → Day) : (s.updDay f).therm = s.therm := rfl
@[simp] theorem State.updDay_mem (s : State) (f : Day → Day) : (s.updDay f).mem = s.mem := rfl
@[simp] theorem State.updDay_nor (s : State) (f : Day → Day) : (s.updDay f).nor = s.nor := rfl
@[simp] theorem State.updDay_sec (s : State) (f : Day → Day) : (s.updDay f).sec = s.sec := rfl
@[simp] theorem State.updDay_side (s : State) (f : Day → Day) : (s.updDay f).side = s.side := rfl
@[simp] theorem State.updDay_nv (s : State) (f : Day → Day) : (s.updDay f).nv = s.nv := rfl
@[simp] theorem State.updDay_due (s : State) (f : Day → Day) : (s.updDay f).due = s.due := rfl
@[simp] theorem State.updDay_out (s : State) (f : Day → Day) : (s.updDay f).out = s.out := rfl
@[simp] theorem State.updDay_freeCtr (s : State) (f : Day → Day) : (s.updDay f).freeCtr = s.freeCtr := rfl
@[simp] theorem State.updDay_pending (s : State) (f : Day → Day) : (s.updDay f).pending = s.pending := rfl
@[simp] theorem State.updTherm_beat (s : State) (f : Therm → Therm) : (s.updTherm f).beat = s.beat := rfl
@[simp] theorem State.updTherm_beatFrac (s : State) (f : Therm → Therm) : (s.updTherm f).beatFrac = s.beatFrac := rfl
@[simp] theorem State.updTherm_fns (s : State) (f : Therm → Therm) : (s.updTherm f).fns = s.fns := rfl
@[simp] theorem State.updTherm_links (s : State) (f : Therm → Therm) : (s.updTherm f).links = s.links := rfl
@[simp] theorem State.updTherm_rings (s : State) (f : Therm → Therm) : (s.updTherm f).rings = s.rings := rfl
@[simp] theorem State.updTherm_plan (s : State) (f : Therm → Therm) : (s.updTherm f).plan = s.plan := rfl
@[simp] theorem State.updTherm_ctxs (s : State) (f : Therm → Therm) : (s.updTherm f).ctxs = s.ctxs := rfl
@[simp] theorem State.updTherm_zci (s : State) (f : Therm → Therm) : (s.updTherm f).zci = s.zci := rfl
@[simp] theorem State.updTherm_xlat (s : State) (f : Therm → Therm) : (s.updTherm f).xlat = s.xlat := rfl
@[simp] theorem State.updTherm_media (s : State) (f : Therm → Therm) : (s.updTherm f).media = s.media := rfl
@[simp] theorem State.updTherm_care (s : State) (f : Therm → Therm) : (s.updTherm f).care = s.care := rfl
@[simp] theorem State.updTherm_flash (s : State) (f : Therm → Therm) : (s.updTherm f).flash = s.flash := rfl
@[simp] theorem State.updTherm_movers (s : State) (f : Therm → Therm) : (s.updTherm f).movers = s.movers := rfl
@[simp] theorem State.updTherm_twin (s : State) (f : Therm → Therm) : (s.updTherm f).twin = s.twin := rfl
@[simp] theorem State.updTherm_cane (s : State) (f : Therm → Therm) : (s.updTherm f).cane = s.cane := rfl
@[simp] theorem State.updTherm_power (s : State) (f : Therm → Therm) : (s.updTherm f).power = s.power := rfl
@[simp] theorem State.updTherm_day (s : State) (f : Therm → Therm) : (s.updTherm f).day = s.day := rfl
@[simp] theorem State.updTherm_therm (s : State) (f : Therm → Therm) : (s.updTherm f).therm = f s.therm := rfl
@[simp] theorem State.updTherm_mem (s : State) (f : Therm → Therm) : (s.updTherm f).mem = s.mem := rfl
@[simp] theorem State.updTherm_nor (s : State) (f : Therm → Therm) : (s.updTherm f).nor = s.nor := rfl
@[simp] theorem State.updTherm_sec (s : State) (f : Therm → Therm) : (s.updTherm f).sec = s.sec := rfl
@[simp] theorem State.updTherm_side (s : State) (f : Therm → Therm) : (s.updTherm f).side = s.side := rfl
@[simp] theorem State.updTherm_nv (s : State) (f : Therm → Therm) : (s.updTherm f).nv = s.nv := rfl
@[simp] theorem State.updTherm_due (s : State) (f : Therm → Therm) : (s.updTherm f).due = s.due := rfl
@[simp] theorem State.updTherm_out (s : State) (f : Therm → Therm) : (s.updTherm f).out = s.out := rfl
@[simp] theorem State.updTherm_freeCtr (s : State) (f : Therm → Therm) : (s.updTherm f).freeCtr = s.freeCtr := rfl
@[simp] theorem State.updTherm_pending (s : State) (f : Therm → Therm) : (s.updTherm f).pending = s.pending := rfl
@[simp] theorem State.updMem_beat (s : State) (f : Mem → Mem) : (s.updMem f).beat = s.beat := rfl
@[simp] theorem State.updMem_beatFrac (s : State) (f : Mem → Mem) : (s.updMem f).beatFrac = s.beatFrac := rfl
@[simp] theorem State.updMem_fns (s : State) (f : Mem → Mem) : (s.updMem f).fns = s.fns := rfl
@[simp] theorem State.updMem_links (s : State) (f : Mem → Mem) : (s.updMem f).links = s.links := rfl
@[simp] theorem State.updMem_rings (s : State) (f : Mem → Mem) : (s.updMem f).rings = s.rings := rfl
@[simp] theorem State.updMem_plan (s : State) (f : Mem → Mem) : (s.updMem f).plan = s.plan := rfl
@[simp] theorem State.updMem_ctxs (s : State) (f : Mem → Mem) : (s.updMem f).ctxs = s.ctxs := rfl
@[simp] theorem State.updMem_zci (s : State) (f : Mem → Mem) : (s.updMem f).zci = s.zci := rfl
@[simp] theorem State.updMem_xlat (s : State) (f : Mem → Mem) : (s.updMem f).xlat = s.xlat := rfl
@[simp] theorem State.updMem_media (s : State) (f : Mem → Mem) : (s.updMem f).media = s.media := rfl
@[simp] theorem State.updMem_care (s : State) (f : Mem → Mem) : (s.updMem f).care = s.care := rfl
@[simp] theorem State.updMem_flash (s : State) (f : Mem → Mem) : (s.updMem f).flash = s.flash := rfl
@[simp] theorem State.updMem_movers (s : State) (f : Mem → Mem) : (s.updMem f).movers = s.movers := rfl
@[simp] theorem State.updMem_twin (s : State) (f : Mem → Mem) : (s.updMem f).twin = s.twin := rfl
@[simp] theorem State.updMem_cane (s : State) (f : Mem → Mem) : (s.updMem f).cane = s.cane := rfl
@[simp] theorem State.updMem_power (s : State) (f : Mem → Mem) : (s.updMem f).power = s.power := rfl
@[simp] theorem State.updMem_day (s : State) (f : Mem → Mem) : (s.updMem f).day = s.day := rfl
@[simp] theorem State.updMem_therm (s : State) (f : Mem → Mem) : (s.updMem f).therm = s.therm := rfl
@[simp] theorem State.updMem_mem (s : State) (f : Mem → Mem) : (s.updMem f).mem = f s.mem := rfl
@[simp] theorem State.updMem_nor (s : State) (f : Mem → Mem) : (s.updMem f).nor = s.nor := rfl
@[simp] theorem State.updMem_sec (s : State) (f : Mem → Mem) : (s.updMem f).sec = s.sec := rfl
@[simp] theorem State.updMem_side (s : State) (f : Mem → Mem) : (s.updMem f).side = s.side := rfl
@[simp] theorem State.updMem_nv (s : State) (f : Mem → Mem) : (s.updMem f).nv = s.nv := rfl
@[simp] theorem State.updMem_due (s : State) (f : Mem → Mem) : (s.updMem f).due = s.due := rfl
@[simp] theorem State.updMem_out (s : State) (f : Mem → Mem) : (s.updMem f).out = s.out := rfl
@[simp] theorem State.updMem_freeCtr (s : State) (f : Mem → Mem) : (s.updMem f).freeCtr = s.freeCtr := rfl
@[simp] theorem State.updMem_pending (s : State) (f : Mem → Mem) : (s.updMem f).pending = s.pending := rfl
@[simp] theorem State.updNor_beat (s : State) (f : Nor → Nor) : (s.updNor f).beat = s.beat := rfl
@[simp] theorem State.updNor_beatFrac (s : State) (f : Nor → Nor) : (s.updNor f).beatFrac = s.beatFrac := rfl
@[simp] theorem State.updNor_fns (s : State) (f : Nor → Nor) : (s.updNor f).fns = s.fns := rfl
@[simp] theorem State.updNor_links (s : State) (f : Nor → Nor) : (s.updNor f).links = s.links := rfl
@[simp] theorem State.updNor_rings (s : State) (f : Nor → Nor) : (s.updNor f).rings = s.rings := rfl
@[simp] theorem State.updNor_plan (s : State) (f : Nor → Nor) : (s.updNor f).plan = s.plan := rfl
@[simp] theorem State.updNor_ctxs (s : State) (f : Nor → Nor) : (s.updNor f).ctxs = s.ctxs := rfl
@[simp] theorem State.updNor_zci (s : State) (f : Nor → Nor) : (s.updNor f).zci = s.zci := rfl
@[simp] theorem State.updNor_xlat (s : State) (f : Nor → Nor) : (s.updNor f).xlat = s.xlat := rfl
@[simp] theorem State.updNor_media (s : State) (f : Nor → Nor) : (s.updNor f).media = s.media := rfl
@[simp] theorem State.updNor_care (s : State) (f : Nor → Nor) : (s.updNor f).care = s.care := rfl
@[simp] theorem State.updNor_flash (s : State) (f : Nor → Nor) : (s.updNor f).flash = s.flash := rfl
@[simp] theorem State.updNor_movers (s : State) (f : Nor → Nor) : (s.updNor f).movers = s.movers := rfl
@[simp] theorem State.updNor_twin (s : State) (f : Nor → Nor) : (s.updNor f).twin = s.twin := rfl
@[simp] theorem State.updNor_cane (s : State) (f : Nor → Nor) : (s.updNor f).cane = s.cane := rfl
@[simp] theorem State.updNor_power (s : State) (f : Nor → Nor) : (s.updNor f).power = s.power := rfl
@[simp] theorem State.updNor_day (s : State) (f : Nor → Nor) : (s.updNor f).day = s.day := rfl
@[simp] theorem State.updNor_therm (s : State) (f : Nor → Nor) : (s.updNor f).therm = s.therm := rfl
@[simp] theorem State.updNor_mem (s : State) (f : Nor → Nor) : (s.updNor f).mem = s.mem := rfl
@[simp] theorem State.updNor_nor (s : State) (f : Nor → Nor) : (s.updNor f).nor = f s.nor := rfl
@[simp] theorem State.updNor_sec (s : State) (f : Nor → Nor) : (s.updNor f).sec = s.sec := rfl
@[simp] theorem State.updNor_side (s : State) (f : Nor → Nor) : (s.updNor f).side = s.side := rfl
@[simp] theorem State.updNor_nv (s : State) (f : Nor → Nor) : (s.updNor f).nv = s.nv := rfl
@[simp] theorem State.updNor_due (s : State) (f : Nor → Nor) : (s.updNor f).due = s.due := rfl
@[simp] theorem State.updNor_out (s : State) (f : Nor → Nor) : (s.updNor f).out = s.out := rfl
@[simp] theorem State.updNor_freeCtr (s : State) (f : Nor → Nor) : (s.updNor f).freeCtr = s.freeCtr := rfl
@[simp] theorem State.updNor_pending (s : State) (f : Nor → Nor) : (s.updNor f).pending = s.pending := rfl
@[simp] theorem State.updSec_beat (s : State) (f : Sec → Sec) : (s.updSec f).beat = s.beat := rfl
@[simp] theorem State.updSec_beatFrac (s : State) (f : Sec → Sec) : (s.updSec f).beatFrac = s.beatFrac := rfl
@[simp] theorem State.updSec_fns (s : State) (f : Sec → Sec) : (s.updSec f).fns = s.fns := rfl
@[simp] theorem State.updSec_links (s : State) (f : Sec → Sec) : (s.updSec f).links = s.links := rfl
@[simp] theorem State.updSec_rings (s : State) (f : Sec → Sec) : (s.updSec f).rings = s.rings := rfl
@[simp] theorem State.updSec_plan (s : State) (f : Sec → Sec) : (s.updSec f).plan = s.plan := rfl
@[simp] theorem State.updSec_ctxs (s : State) (f : Sec → Sec) : (s.updSec f).ctxs = s.ctxs := rfl
@[simp] theorem State.updSec_zci (s : State) (f : Sec → Sec) : (s.updSec f).zci = s.zci := rfl
@[simp] theorem State.updSec_xlat (s : State) (f : Sec → Sec) : (s.updSec f).xlat = s.xlat := rfl
@[simp] theorem State.updSec_media (s : State) (f : Sec → Sec) : (s.updSec f).media = s.media := rfl
@[simp] theorem State.updSec_care (s : State) (f : Sec → Sec) : (s.updSec f).care = s.care := rfl
@[simp] theorem State.updSec_flash (s : State) (f : Sec → Sec) : (s.updSec f).flash = s.flash := rfl
@[simp] theorem State.updSec_movers (s : State) (f : Sec → Sec) : (s.updSec f).movers = s.movers := rfl
@[simp] theorem State.updSec_twin (s : State) (f : Sec → Sec) : (s.updSec f).twin = s.twin := rfl
@[simp] theorem State.updSec_cane (s : State) (f : Sec → Sec) : (s.updSec f).cane = s.cane := rfl
@[simp] theorem State.updSec_power (s : State) (f : Sec → Sec) : (s.updSec f).power = s.power := rfl
@[simp] theorem State.updSec_day (s : State) (f : Sec → Sec) : (s.updSec f).day = s.day := rfl
@[simp] theorem State.updSec_therm (s : State) (f : Sec → Sec) : (s.updSec f).therm = s.therm := rfl
@[simp] theorem State.updSec_mem (s : State) (f : Sec → Sec) : (s.updSec f).mem = s.mem := rfl
@[simp] theorem State.updSec_nor (s : State) (f : Sec → Sec) : (s.updSec f).nor = s.nor := rfl
@[simp] theorem State.updSec_sec (s : State) (f : Sec → Sec) : (s.updSec f).sec = f s.sec := rfl
@[simp] theorem State.updSec_side (s : State) (f : Sec → Sec) : (s.updSec f).side = s.side := rfl
@[simp] theorem State.updSec_nv (s : State) (f : Sec → Sec) : (s.updSec f).nv = s.nv := rfl
@[simp] theorem State.updSec_due (s : State) (f : Sec → Sec) : (s.updSec f).due = s.due := rfl
@[simp] theorem State.updSec_out (s : State) (f : Sec → Sec) : (s.updSec f).out = s.out := rfl
@[simp] theorem State.updSec_freeCtr (s : State) (f : Sec → Sec) : (s.updSec f).freeCtr = s.freeCtr := rfl
@[simp] theorem State.updSec_pending (s : State) (f : Sec → Sec) : (s.updSec f).pending = s.pending := rfl
@[simp] theorem State.updSide_beat (s : State) (f : Side → Side) : (s.updSide f).beat = s.beat := rfl
@[simp] theorem State.updSide_beatFrac (s : State) (f : Side → Side) : (s.updSide f).beatFrac = s.beatFrac := rfl
@[simp] theorem State.updSide_fns (s : State) (f : Side → Side) : (s.updSide f).fns = s.fns := rfl
@[simp] theorem State.updSide_links (s : State) (f : Side → Side) : (s.updSide f).links = s.links := rfl
@[simp] theorem State.updSide_rings (s : State) (f : Side → Side) : (s.updSide f).rings = s.rings := rfl
@[simp] theorem State.updSide_plan (s : State) (f : Side → Side) : (s.updSide f).plan = s.plan := rfl
@[simp] theorem State.updSide_ctxs (s : State) (f : Side → Side) : (s.updSide f).ctxs = s.ctxs := rfl
@[simp] theorem State.updSide_zci (s : State) (f : Side → Side) : (s.updSide f).zci = s.zci := rfl
@[simp] theorem State.updSide_xlat (s : State) (f : Side → Side) : (s.updSide f).xlat = s.xlat := rfl
@[simp] theorem State.updSide_media (s : State) (f : Side → Side) : (s.updSide f).media = s.media := rfl
@[simp] theorem State.updSide_care (s : State) (f : Side → Side) : (s.updSide f).care = s.care := rfl
@[simp] theorem State.updSide_flash (s : State) (f : Side → Side) : (s.updSide f).flash = s.flash := rfl
@[simp] theorem State.updSide_movers (s : State) (f : Side → Side) : (s.updSide f).movers = s.movers := rfl
@[simp] theorem State.updSide_twin (s : State) (f : Side → Side) : (s.updSide f).twin = s.twin := rfl
@[simp] theorem State.updSide_cane (s : State) (f : Side → Side) : (s.updSide f).cane = s.cane := rfl
@[simp] theorem State.updSide_power (s : State) (f : Side → Side) : (s.updSide f).power = s.power := rfl
@[simp] theorem State.updSide_day (s : State) (f : Side → Side) : (s.updSide f).day = s.day := rfl
@[simp] theorem State.updSide_therm (s : State) (f : Side → Side) : (s.updSide f).therm = s.therm := rfl
@[simp] theorem State.updSide_mem (s : State) (f : Side → Side) : (s.updSide f).mem = s.mem := rfl
@[simp] theorem State.updSide_nor (s : State) (f : Side → Side) : (s.updSide f).nor = s.nor := rfl
@[simp] theorem State.updSide_sec (s : State) (f : Side → Side) : (s.updSide f).sec = s.sec := rfl
@[simp] theorem State.updSide_side (s : State) (f : Side → Side) : (s.updSide f).side = f s.side := rfl
@[simp] theorem State.updSide_nv (s : State) (f : Side → Side) : (s.updSide f).nv = s.nv := rfl
@[simp] theorem State.updSide_due (s : State) (f : Side → Side) : (s.updSide f).due = s.due := rfl
@[simp] theorem State.updSide_out (s : State) (f : Side → Side) : (s.updSide f).out = s.out := rfl
@[simp] theorem State.updSide_freeCtr (s : State) (f : Side → Side) : (s.updSide f).freeCtr = s.freeCtr := rfl
@[simp] theorem State.updSide_pending (s : State) (f : Side → Side) : (s.updSide f).pending = s.pending := rfl
@[simp] theorem State.updNv_beat (s : State) (f : (List (Nat × BitVec 64)) → (List (Nat × BitVec 64))) : (s.updNv f).beat = s.beat := rfl
@[simp] theorem State.updNv_beatFrac (s : State) (f : (List (Nat × BitVec 64)) → (List (Nat × BitVec 64))) : (s.updNv f).beatFrac = s.beatFrac := rfl
@[simp] theorem State.updNv_fns (s : State) (f : (List (Nat × BitVec 64)) → (List (Nat × BitVec 64))) : (s.updNv f).fns = s.fns := rfl
@[simp] theorem State.updNv_links (s : State) (f : (List (Nat × BitVec 64)) → (List (Nat × BitVec 64))) : (s.updNv f).links = s.links := rfl
@[simp] theorem State.updNv_rings (s : State) (f : (List (Nat × BitVec 64)) → (List (Nat × BitVec 64))) : (s.updNv f).rings = s.rings := rfl
@[simp] theorem State.updNv_plan (s : State) (f : (List (Nat × BitVec 64)) → (List (Nat × BitVec 64))) : (s.updNv f).plan = s.plan := rfl
@[simp] theorem State.updNv_ctxs (s : State) (f : (List (Nat × BitVec 64)) → (List (Nat × BitVec 64))) : (s.updNv f).ctxs = s.ctxs := rfl
@[simp] theorem State.updNv_zci (s : State) (f : (List (Nat × BitVec 64)) → (List (Nat × BitVec 64))) : (s.updNv f).zci = s.zci := rfl
@[simp] theorem State.updNv_xlat (s : State) (f : (List (Nat × BitVec 64)) → (List (Nat × BitVec 64))) : (s.updNv f).xlat = s.xlat := rfl
@[simp] theorem State.updNv_media (s : State) (f : (List (Nat × BitVec 64)) → (List (Nat × BitVec 64))) : (s.updNv f).media = s.media := rfl
@[simp] theorem State.updNv_care (s : State) (f : (List (Nat × BitVec 64)) → (List (Nat × BitVec 64))) : (s.updNv f).care = s.care := rfl
@[simp] theorem State.updNv_flash (s : State) (f : (List (Nat × BitVec 64)) → (List (Nat × BitVec 64))) : (s.updNv f).flash = s.flash := rfl
@[simp] theorem State.updNv_movers (s : State) (f : (List (Nat × BitVec 64)) → (List (Nat × BitVec 64))) : (s.updNv f).movers = s.movers := rfl
@[simp] theorem State.updNv_twin (s : State) (f : (List (Nat × BitVec 64)) → (List (Nat × BitVec 64))) : (s.updNv f).twin = s.twin := rfl
@[simp] theorem State.updNv_cane (s : State) (f : (List (Nat × BitVec 64)) → (List (Nat × BitVec 64))) : (s.updNv f).cane = s.cane := rfl
@[simp] theorem State.updNv_power (s : State) (f : (List (Nat × BitVec 64)) → (List (Nat × BitVec 64))) : (s.updNv f).power = s.power := rfl
@[simp] theorem State.updNv_day (s : State) (f : (List (Nat × BitVec 64)) → (List (Nat × BitVec 64))) : (s.updNv f).day = s.day := rfl
@[simp] theorem State.updNv_therm (s : State) (f : (List (Nat × BitVec 64)) → (List (Nat × BitVec 64))) : (s.updNv f).therm = s.therm := rfl
@[simp] theorem State.updNv_mem (s : State) (f : (List (Nat × BitVec 64)) → (List (Nat × BitVec 64))) : (s.updNv f).mem = s.mem := rfl
@[simp] theorem State.updNv_nor (s : State) (f : (List (Nat × BitVec 64)) → (List (Nat × BitVec 64))) : (s.updNv f).nor = s.nor := rfl
@[simp] theorem State.updNv_sec (s : State) (f : (List (Nat × BitVec 64)) → (List (Nat × BitVec 64))) : (s.updNv f).sec = s.sec := rfl
@[simp] theorem State.updNv_side (s : State) (f : (List (Nat × BitVec 64)) → (List (Nat × BitVec 64))) : (s.updNv f).side = s.side := rfl
@[simp] theorem State.updNv_nv (s : State) (f : (List (Nat × BitVec 64)) → (List (Nat × BitVec 64))) : (s.updNv f).nv = f s.nv := rfl
@[simp] theorem State.updNv_due (s : State) (f : (List (Nat × BitVec 64)) → (List (Nat × BitVec 64))) : (s.updNv f).due = s.due := rfl
@[simp] theorem State.updNv_out (s : State) (f : (List (Nat × BitVec 64)) → (List (Nat × BitVec 64))) : (s.updNv f).out = s.out := rfl
@[simp] theorem State.updNv_freeCtr (s : State) (f : (List (Nat × BitVec 64)) → (List (Nat × BitVec 64))) : (s.updNv f).freeCtr = s.freeCtr := rfl
@[simp] theorem State.updNv_pending (s : State) (f : (List (Nat × BitVec 64)) → (List (Nat × BitVec 64))) : (s.updNv f).pending = s.pending := rfl
@[simp] theorem State.updDue_beat (s : State) (f : (List (Nat × BitVec 64)) → (List (Nat × BitVec 64))) : (s.updDue f).beat = s.beat := rfl
@[simp] theorem State.updDue_beatFrac (s : State) (f : (List (Nat × BitVec 64)) → (List (Nat × BitVec 64))) : (s.updDue f).beatFrac = s.beatFrac := rfl
@[simp] theorem State.updDue_fns (s : State) (f : (List (Nat × BitVec 64)) → (List (Nat × BitVec 64))) : (s.updDue f).fns = s.fns := rfl
@[simp] theorem State.updDue_links (s : State) (f : (List (Nat × BitVec 64)) → (List (Nat × BitVec 64))) : (s.updDue f).links = s.links := rfl
@[simp] theorem State.updDue_rings (s : State) (f : (List (Nat × BitVec 64)) → (List (Nat × BitVec 64))) : (s.updDue f).rings = s.rings := rfl
@[simp] theorem State.updDue_plan (s : State) (f : (List (Nat × BitVec 64)) → (List (Nat × BitVec 64))) : (s.updDue f).plan = s.plan := rfl
@[simp] theorem State.updDue_ctxs (s : State) (f : (List (Nat × BitVec 64)) → (List (Nat × BitVec 64))) : (s.updDue f).ctxs = s.ctxs := rfl
@[simp] theorem State.updDue_zci (s : State) (f : (List (Nat × BitVec 64)) → (List (Nat × BitVec 64))) : (s.updDue f).zci = s.zci := rfl
@[simp] theorem State.updDue_xlat (s : State) (f : (List (Nat × BitVec 64)) → (List (Nat × BitVec 64))) : (s.updDue f).xlat = s.xlat := rfl
@[simp] theorem State.updDue_media (s : State) (f : (List (Nat × BitVec 64)) → (List (Nat × BitVec 64))) : (s.updDue f).media = s.media := rfl
@[simp] theorem State.updDue_care (s : State) (f : (List (Nat × BitVec 64)) → (List (Nat × BitVec 64))) : (s.updDue f).care = s.care := rfl
@[simp] theorem State.updDue_flash (s : State) (f : (List (Nat × BitVec 64)) → (List (Nat × BitVec 64))) : (s.updDue f).flash = s.flash := rfl
@[simp] theorem State.updDue_movers (s : State) (f : (List (Nat × BitVec 64)) → (List (Nat × BitVec 64))) : (s.updDue f).movers = s.movers := rfl
@[simp] theorem State.updDue_twin (s : State) (f : (List (Nat × BitVec 64)) → (List (Nat × BitVec 64))) : (s.updDue f).twin = s.twin := rfl
@[simp] theorem State.updDue_cane (s : State) (f : (List (Nat × BitVec 64)) → (List (Nat × BitVec 64))) : (s.updDue f).cane = s.cane := rfl
@[simp] theorem State.updDue_power (s : State) (f : (List (Nat × BitVec 64)) → (List (Nat × BitVec 64))) : (s.updDue f).power = s.power := rfl
@[simp] theorem State.updDue_day (s : State) (f : (List (Nat × BitVec 64)) → (List (Nat × BitVec 64))) : (s.updDue f).day = s.day := rfl
@[simp] theorem State.updDue_therm (s : State) (f : (List (Nat × BitVec 64)) → (List (Nat × BitVec 64))) : (s.updDue f).therm = s.therm := rfl
@[simp] theorem State.updDue_mem (s : State) (f : (List (Nat × BitVec 64)) → (List (Nat × BitVec 64))) : (s.updDue f).mem = s.mem := rfl
@[simp] theorem State.updDue_nor (s : State) (f : (List (Nat × BitVec 64)) → (List (Nat × BitVec 64))) : (s.updDue f).nor = s.nor := rfl
@[simp] theorem State.updDue_sec (s : State) (f : (List (Nat × BitVec 64)) → (List (Nat × BitVec 64))) : (s.updDue f).sec = s.sec := rfl
@[simp] theorem State.updDue_side (s : State) (f : (List (Nat × BitVec 64)) → (List (Nat × BitVec 64))) : (s.updDue f).side = s.side := rfl
@[simp] theorem State.updDue_nv (s : State) (f : (List (Nat × BitVec 64)) → (List (Nat × BitVec 64))) : (s.updDue f).nv = s.nv := rfl
@[simp] theorem State.updDue_due (s : State) (f : (List (Nat × BitVec 64)) → (List (Nat × BitVec 64))) : (s.updDue f).due = f s.due := rfl
@[simp] theorem State.updDue_out (s : State) (f : (List (Nat × BitVec 64)) → (List (Nat × BitVec 64))) : (s.updDue f).out = s.out := rfl
@[simp] theorem State.updDue_freeCtr (s : State) (f : (List (Nat × BitVec 64)) → (List (Nat × BitVec 64))) : (s.updDue f).freeCtr = s.freeCtr := rfl
@[simp] theorem State.updDue_pending (s : State) (f : (List (Nat × BitVec 64)) → (List (Nat × BitVec 64))) : (s.updDue f).pending = s.pending := rfl
@[simp] theorem State.updOut_beat (s : State) (f : (List Out) → (List Out)) : (s.updOut f).beat = s.beat := rfl
@[simp] theorem State.updOut_beatFrac (s : State) (f : (List Out) → (List Out)) : (s.updOut f).beatFrac = s.beatFrac := rfl
@[simp] theorem State.updOut_fns (s : State) (f : (List Out) → (List Out)) : (s.updOut f).fns = s.fns := rfl
@[simp] theorem State.updOut_links (s : State) (f : (List Out) → (List Out)) : (s.updOut f).links = s.links := rfl
@[simp] theorem State.updOut_rings (s : State) (f : (List Out) → (List Out)) : (s.updOut f).rings = s.rings := rfl
@[simp] theorem State.updOut_plan (s : State) (f : (List Out) → (List Out)) : (s.updOut f).plan = s.plan := rfl
@[simp] theorem State.updOut_ctxs (s : State) (f : (List Out) → (List Out)) : (s.updOut f).ctxs = s.ctxs := rfl
@[simp] theorem State.updOut_zci (s : State) (f : (List Out) → (List Out)) : (s.updOut f).zci = s.zci := rfl
@[simp] theorem State.updOut_xlat (s : State) (f : (List Out) → (List Out)) : (s.updOut f).xlat = s.xlat := rfl
@[simp] theorem State.updOut_media (s : State) (f : (List Out) → (List Out)) : (s.updOut f).media = s.media := rfl
@[simp] theorem State.updOut_care (s : State) (f : (List Out) → (List Out)) : (s.updOut f).care = s.care := rfl
@[simp] theorem State.updOut_flash (s : State) (f : (List Out) → (List Out)) : (s.updOut f).flash = s.flash := rfl
@[simp] theorem State.updOut_movers (s : State) (f : (List Out) → (List Out)) : (s.updOut f).movers = s.movers := rfl
@[simp] theorem State.updOut_twin (s : State) (f : (List Out) → (List Out)) : (s.updOut f).twin = s.twin := rfl
@[simp] theorem State.updOut_cane (s : State) (f : (List Out) → (List Out)) : (s.updOut f).cane = s.cane := rfl
@[simp] theorem State.updOut_power (s : State) (f : (List Out) → (List Out)) : (s.updOut f).power = s.power := rfl
@[simp] theorem State.updOut_day (s : State) (f : (List Out) → (List Out)) : (s.updOut f).day = s.day := rfl
@[simp] theorem State.updOut_therm (s : State) (f : (List Out) → (List Out)) : (s.updOut f).therm = s.therm := rfl
@[simp] theorem State.updOut_mem (s : State) (f : (List Out) → (List Out)) : (s.updOut f).mem = s.mem := rfl
@[simp] theorem State.updOut_nor (s : State) (f : (List Out) → (List Out)) : (s.updOut f).nor = s.nor := rfl
@[simp] theorem State.updOut_sec (s : State) (f : (List Out) → (List Out)) : (s.updOut f).sec = s.sec := rfl
@[simp] theorem State.updOut_side (s : State) (f : (List Out) → (List Out)) : (s.updOut f).side = s.side := rfl
@[simp] theorem State.updOut_nv (s : State) (f : (List Out) → (List Out)) : (s.updOut f).nv = s.nv := rfl
@[simp] theorem State.updOut_due (s : State) (f : (List Out) → (List Out)) : (s.updOut f).due = s.due := rfl
@[simp] theorem State.updOut_out (s : State) (f : (List Out) → (List Out)) : (s.updOut f).out = f s.out := rfl
@[simp] theorem State.updOut_freeCtr (s : State) (f : (List Out) → (List Out)) : (s.updOut f).freeCtr = s.freeCtr := rfl
@[simp] theorem State.updOut_pending (s : State) (f : (List Out) → (List Out)) : (s.updOut f).pending = s.pending := rfl
@[simp] theorem State.updFreeCtr_beat (s : State) (f : Nat → Nat) : (s.updFreeCtr f).beat = s.beat := rfl
@[simp] theorem State.updFreeCtr_beatFrac (s : State) (f : Nat → Nat) : (s.updFreeCtr f).beatFrac = s.beatFrac := rfl
@[simp] theorem State.updFreeCtr_fns (s : State) (f : Nat → Nat) : (s.updFreeCtr f).fns = s.fns := rfl
@[simp] theorem State.updFreeCtr_links (s : State) (f : Nat → Nat) : (s.updFreeCtr f).links = s.links := rfl
@[simp] theorem State.updFreeCtr_rings (s : State) (f : Nat → Nat) : (s.updFreeCtr f).rings = s.rings := rfl
@[simp] theorem State.updFreeCtr_plan (s : State) (f : Nat → Nat) : (s.updFreeCtr f).plan = s.plan := rfl
@[simp] theorem State.updFreeCtr_ctxs (s : State) (f : Nat → Nat) : (s.updFreeCtr f).ctxs = s.ctxs := rfl
@[simp] theorem State.updFreeCtr_zci (s : State) (f : Nat → Nat) : (s.updFreeCtr f).zci = s.zci := rfl
@[simp] theorem State.updFreeCtr_xlat (s : State) (f : Nat → Nat) : (s.updFreeCtr f).xlat = s.xlat := rfl
@[simp] theorem State.updFreeCtr_media (s : State) (f : Nat → Nat) : (s.updFreeCtr f).media = s.media := rfl
@[simp] theorem State.updFreeCtr_care (s : State) (f : Nat → Nat) : (s.updFreeCtr f).care = s.care := rfl
@[simp] theorem State.updFreeCtr_flash (s : State) (f : Nat → Nat) : (s.updFreeCtr f).flash = s.flash := rfl
@[simp] theorem State.updFreeCtr_movers (s : State) (f : Nat → Nat) : (s.updFreeCtr f).movers = s.movers := rfl
@[simp] theorem State.updFreeCtr_twin (s : State) (f : Nat → Nat) : (s.updFreeCtr f).twin = s.twin := rfl
@[simp] theorem State.updFreeCtr_cane (s : State) (f : Nat → Nat) : (s.updFreeCtr f).cane = s.cane := rfl
@[simp] theorem State.updFreeCtr_power (s : State) (f : Nat → Nat) : (s.updFreeCtr f).power = s.power := rfl
@[simp] theorem State.updFreeCtr_day (s : State) (f : Nat → Nat) : (s.updFreeCtr f).day = s.day := rfl
@[simp] theorem State.updFreeCtr_therm (s : State) (f : Nat → Nat) : (s.updFreeCtr f).therm = s.therm := rfl
@[simp] theorem State.updFreeCtr_mem (s : State) (f : Nat → Nat) : (s.updFreeCtr f).mem = s.mem := rfl
@[simp] theorem State.updFreeCtr_nor (s : State) (f : Nat → Nat) : (s.updFreeCtr f).nor = s.nor := rfl
@[simp] theorem State.updFreeCtr_sec (s : State) (f : Nat → Nat) : (s.updFreeCtr f).sec = s.sec := rfl
@[simp] theorem State.updFreeCtr_side (s : State) (f : Nat → Nat) : (s.updFreeCtr f).side = s.side := rfl
@[simp] theorem State.updFreeCtr_nv (s : State) (f : Nat → Nat) : (s.updFreeCtr f).nv = s.nv := rfl
@[simp] theorem State.updFreeCtr_due (s : State) (f : Nat → Nat) : (s.updFreeCtr f).due = s.due := rfl
@[simp] theorem State.updFreeCtr_out (s : State) (f : Nat → Nat) : (s.updFreeCtr f).out = s.out := rfl
@[simp] theorem State.updFreeCtr_freeCtr (s : State) (f : Nat → Nat) : (s.updFreeCtr f).freeCtr = f s.freeCtr := rfl
@[simp] theorem State.updFreeCtr_pending (s : State) (f : Nat → Nat) : (s.updFreeCtr f).pending = s.pending := rfl

end Sys2Proof.Machine
end

