-- ==== Sys2Proof/Laws/Frame.lean ====
section
/-! SUPPORT. What no command but a few touches: the queue, BEAT and the fuses. One lemma per function that changes the
state: it keeps what `held` names. -/

namespace Sys2Proof.Laws

open Sys2Proof.Machine Sys2Proof.Safety

/-- The queue, BEAT and what stands in fuses: life-cycle state, tamper count, keys, row repairs (R20, R503, R466). -/
structure Held where
  pending : List Instr
  beat : Nat
  life : Life
  benchClose : Bool
  secretBlown : Bool
  tampers : Nat
  fwKeys : Vector KeySlot 4
  caKeys : Vector KeySlot 4
  fuseRows : List RowRepair

/-- What a state holds of these. -/
def held (s : State) : Held :=
  ⟨s.pending, s.beat, s.sec.life, s.sec.benchClose, s.sec.secretBlown, s.sec.tampers, s.sec.fwKeys, s.sec.caKeys, s.mem.fuseRows⟩

theorem updBeatFrac_held (s : State) (f) : held (s.updBeatFrac f) = held s := rfl
theorem updFns_held (s : State) (f) : held (s.updFns f) = held s := rfl
theorem updLinks_held (s : State) (f) : held (s.updLinks f) = held s := rfl
theorem updRings_held (s : State) (f) : held (s.updRings f) = held s := rfl
theorem updPlan_held (s : State) (f) : held (s.updPlan f) = held s := rfl
theorem updCtxs_held (s : State) (f) : held (s.updCtxs f) = held s := rfl
theorem updZci_held (s : State) (f) : held (s.updZci f) = held s := rfl
theorem updXlat_held (s : State) (f) : held (s.updXlat f) = held s := rfl
theorem updMedia_held (s : State) (f) : held (s.updMedia f) = held s := rfl
theorem updCare_held (s : State) (f) : held (s.updCare f) = held s := rfl
theorem updFlash_held (s : State) (f) : held (s.updFlash f) = held s := rfl
theorem updMovers_held (s : State) (f) : held (s.updMovers f) = held s := rfl
theorem updTwin_held (s : State) (f) : held (s.updTwin f) = held s := rfl
theorem updCane_held (s : State) (f) : held (s.updCane f) = held s := rfl
theorem updPower_held (s : State) (f) : held (s.updPower f) = held s := rfl
theorem updDay_held (s : State) (f) : held (s.updDay f) = held s := rfl
theorem updTherm_held (s : State) (f) : held (s.updTherm f) = held s := rfl
theorem updNor_held (s : State) (f) : held (s.updNor f) = held s := rfl
theorem updSide_held (s : State) (f) : held (s.updSide f) = held s := rfl
theorem updNv_held (s : State) (f) : held (s.updNv f) = held s := rfl
theorem updDue_held (s : State) (f) : held (s.updDue f) = held s := rfl
theorem updOut_held (s : State) (f) : held (s.updOut f) = held s := rfl
theorem updFreeCtr_held (s : State) (f) : held (s.updFreeCtr f) = held s := rfl
theorem updSec_held (s : State) (f : Sec → Sec) (h : (f s.sec).life = s.sec.life ∧ (f s.sec).benchClose = s.sec.benchClose ∧
    (f s.sec).secretBlown = s.sec.secretBlown ∧ (f s.sec).tampers = s.sec.tampers ∧ (f s.sec).fwKeys = s.sec.fwKeys ∧ (f s.sec).caKeys = s.sec.caKeys) :
    held (s.updSec f) = held s := by
  obtain ⟨h1, h2, h3, h4, h5, h6⟩ := h
  simp only [held, State.updSec, h1, h2, h3, h4, h5, h6]
theorem updMem_held (s : State) (f : Mem → Mem) (h : (f s.mem).fuseRows = s.mem.fuseRows) : held (s.updMem f) = held s := by
  simp only [held, State.updMem, h]
theorem mk_held (s : State) x_beatFrac x_fns x_links x_rings x_plan x_ctxs x_zci x_xlat x_media x_care x_flash x_movers x_twin x_cane x_power x_day x_therm x_nor x_side x_nv x_due x_out x_freeCtr :
    held (State.mk s.beat x_beatFrac x_fns x_links x_rings x_plan x_ctxs x_zci x_xlat x_media x_care x_flash x_movers x_twin x_cane x_power x_day x_therm s.mem x_nor s.sec x_side x_nv x_due x_out x_freeCtr s.pending) = held s := rfl
theorem foldl_held {α : Type} (f : State → α → State) (h : ∀ s a, held (f s a) = held s) (l : List α) (s : State) : held (l.foldl f s) = held s := by
  induction l generalizing s with
  | nil => rfl
  | cons a l ih => rw [List.foldl_cons, ih, h]
theorem ite_held {c : Prop} [Decidable c] {a b : State} {x : Held} (ha : held a = x) (hb : held b = x) : held (if c then a else b) = x := by
  split <;> assumption
theorem ite_held1 {α : Type} {c : Prop} [Decidable c] {a b : State × α} {x : Held} (ha : held a.1 = x) (hb : held b.1 = x) : held (if c then a else b).1 = x := by
  split <;> assumption
theorem ite_held2 {α : Type} {c : Prop} [Decidable c] {a b : α × State} {x : Held} (ha : held a.2 = x) (hb : held b.2 = x) : held (if c then a else b).2 = x := by
  split <;> assumption
theorem bindFold_held {α : Type} (f : State → α → Option State) (hf : ∀ s a t, f s a = some t → held t = held s) (l : List α) (m : Option State) (x : Held)
    (hm : ∀ u, m = some u → held u = x) (t : State) (h : l.foldl (fun m a => m.bind fun s => f s a) m = some t) : held t = x := by
  induction l generalizing m with
  | nil => exact hm t h
  | cons a l ih =>
    refine ih _ (fun u hu => ?_) h
    obtain ⟨s, e, hs⟩ := Option.bind_eq_some_iff.mp hu
    exact (hf s a u hs).trans (hm s e)
theorem map_held {α : Type} {m : Option (α × State)} {t : State} {x : Held} (hf : ∀ p u, m = some (p, u) → held u = x) (h : m.map Prod.snd = some t) :
    held t = x := by
  obtain ⟨⟨p, u⟩, e, rfl⟩ := Option.map_eq_some_iff.mp h
  exact hf p u e
theorem getD_held {m : Option State} {s : State} {x : Held} (hs : held s = x) (hm : ∀ t, m = some t → held t = x) : held (m.getD s) = x := by
  cases m with
  | none => exact hs
  | some t => exact hm t rfl
theorem some_held {α : Type} (p : α) (s : State) : ∀ q u, some (p, s) = some (q, u) → held u = held s := fun _ _ e => by
  cases e
  rfl
theorem some_held1 (s : State) : ∀ u, some s = some u → held u = held s := fun _ e => by
  cases e
  rfl
theorem stepFold_held {α β : Type} (g : Option (β × State) → α → Option (β × State))
    (hg : ∀ m a p t, g m a = some (p, t) → ∃ e s, m = some (e, s) ∧ held t = held s) (l : List α) (m : Option (β × State)) (x : Held)
    (hm : ∀ p u, m = some (p, u) → held u = x) (p : β) (t : State) (h : l.foldl g m = some (p, t)) : held t = x := by
  induction l generalizing m with
  | nil => exact hm p t h
  | cons a l ih =>
    refine ih _ (fun q u hu => ?_) h
    obtain ⟨e, s, e1, e2⟩ := hg _ _ _ _ hu
    exact e2.trans (hm _ _ e1)
theorem ite_none {α : Type} {c : Prop} [Decidable c] {m : Option α} {p : α} (h : (if c then none else m) = some p) : m = some p := by
  by_cases hc : c
  · rw [if_pos hc] at h
    cases h
  · rwa [if_neg hc] at h
theorem omapFold_held {α : Type} (g : Option State → α → Option State) (hg : ∀ m a t, g m a = some t → ∃ s, m = some s ∧ held t = held s) (l : List α)
    (m : Option State) (x : Held) (hm : ∀ u, m = some u → held u = x) (t : State) (h : l.foldl g m = some t) : held t = x := by
  induction l generalizing m with
  | nil => exact hm t h
  | cons a l ih =>
    refine ih _ (fun u hu => ?_) h
    obtain ⟨s, e, hs⟩ := hg m a u hu
    exact hs.trans (hm s e)
theorem firstFold_held {α β : Type} (g : Option (β × State) → α → Option (β × State)) (x : Held)
    (hg : ∀ m a p t, g m a = some (p, t) → m = some (p, t) ∨ held t = x) (l : List α)
    (m : Option (β × State)) (hm : ∀ p u, m = some (p, u) → held u = x) (p : β) (t : State) (h : l.foldl g m = some (p, t)) : held t = x := by
  induction l generalizing m with
  | nil => exact hm p t h
  | cons a l ih => exact ih _ (fun q u hu => (hg m a q u hu).elim (hm q u) id) h
theorem readFold_held {α β : Type} (f : α → β × State → Option (β × State)) (hf : ∀ a q p t, f a q = some (p, t) → held t = held q.2) (l : List α)
    (m : Option (β × State)) (x : Held) (hm : ∀ p u, m = some (p, u) → held u = x) (p : β) (t : State)
    (h : l.foldl (fun m a => m.bind (f a)) m = some (p, t)) : held t = x := by
  induction l generalizing m with
  | nil => exact hm p t h
  | cons a l ih =>
    refine ih _ (fun q u hu => ?_) h
    obtain ⟨⟨r, s⟩, e, hs⟩ := Option.bind_eq_some_iff.mp hu
    exact (hf a _ q u hs).trans (hm r s e)
theorem storeNv_held (s : State) (id : Nat) (v : BitVec 64) :
    held (storeNv s id v) = held s := rfl
theorem storeDue_held (s : State) (id : Nat) (v : BitVec 64) :
    held (storeDue s id v) = held s := by
  unfold storeDue
  with_reducible repeat' first | rfl | refine (updDue_held ..).trans ?_
theorem drawFree_held (s : State) :
    held (drawFree s).2 = held s := rfl
theorem emit_held (s : State) (o : Out) :
    held (emit s o) = held s := rfl
theorem modEngine_held (s : State) (e : Nat) (f : Engine → Engine) :
    held (modEngine s e f) = held s := rfl
theorem queueFrame_held (s : State) (p : Nat) (len : Nat) (o : Out) :
    held (queueFrame s p len o) = held s := rfl
theorem modFn_held (s : State) (n : Nat) (f : HostFn → HostFn) :
    held (modFn s n f) = held s := rfl
theorem modLink_held (s : State) (l : Nat) (f : HostLink → HostLink) :
    held (modLink s l f) = held s := rfl
theorem sendMsix_held (s : State) (n : Nat) (v : Nat) :
    held (sendMsix s n v) = held s := by
  unfold sendMsix
  with_reducible repeat' first | rfl | refine (modFn_held ..).trans ?_ | refine (emit_held ..).trans ?_ | split
theorem raiseIn_held (s : State) (n : Nat) (k : Nat) :
    held (raiseIn s n k) = held s := by
  unfold raiseIn
  with_reducible repeat' first | rfl | refine (modFn_held ..).trans ?_ | refine (sendMsix_held ..).trans ?_ | split
theorem raiseEvent_held (s : State) (k : Nat) :
    held (raiseEvent s k) = held s := by
  unfold raiseEvent
  with_reducible repeat' first | rfl | refine (raiseIn_held ..).trans ?_ | refine (foldl_held _ (fun _ _ => ?_) _ _).trans ?_
theorem modRing_held (s : State) (g : Nat) (f : Ring → Ring) :
    held (modRing s g f) = held s := rfl
theorem coalesce_held (s : State) (g : Nat) :
    held (coalesce s g) = held s := by
  unfold coalesce
  with_reducible repeat' first | rfl | refine (sendMsix_held ..).trans ?_ | refine (modRing_held ..).trans ?_ | split
theorem keepCompletion_held (s : State) (n : Nat) (k : KeptCompletion) :
    held (keepCompletion s n k) = held s := by
  unfold keepCompletion
  try dsimp only
  with_reducible repeat' first | rfl | refine (modFn_held ..).trans ?_ | refine (foldl_held _ (fun _ _ => ?_) _ _).trans ?_ | refine ite_held ?_ ?_ | refine ite_held2 ?_ ?_ | split
theorem writeCompletion_held (s : State) (g : Nat) (status : BitVec 16) (cid : BitVec 16) (detail : BitVec 8) (result : BitVec 64) (adm : BitVec 64) (dline : Option Nat) (noIrq : Bool) :
    held (writeCompletion s g status cid detail result adm dline noIrq) = held s := by
  unfold writeCompletion
  dsimp only
  with_reducible repeat' first | rfl | refine (modRing_held ..).trans ?_ | refine (coalesce_held ..).trans ?_ | refine (emit_held ..).trans ?_ | refine (modFn_held ..).trans ?_ | split
theorem modCtx_held (s : State) (c : Nat) (f : Ctx → Ctx) :
    held (modCtx s c f) = held s := rfl
theorem modNs_held (s : State) (n : Nat) (f : Namespace → Namespace) :
    held (modNs s n f) = held s := rfl
theorem modOct_held (s : State) (k : Nat) (f : Oct → Oct) :
    held (modOct s k f) = held s := rfl
theorem modChan_held (s : State) (n : Nat) (f : Chan → Chan) :
    held (modChan s n f) = held s := rfl
theorem modDie_held (s : State) (d : Nat) (f : Die → Die) :
    held (modDie s d f) = held s := rfl
theorem modSession_held (s : State) (sid : Nat) (f : Session → Session) :
    held (modSession s sid f) = held s := rfl
theorem caneFrame_held (s : State) (sid : Nat) (typ : Nat) (flags : Nat) (msgId : Nat) (body : List Byte) :
    held (caneFrame s sid typ flags msgId body) = held s := by
  unfold caneFrame
  with_reducible repeat' first | rfl | refine (updCane_held ..).trans ?_ | refine (modSession_held ..).trans ?_ | refine (queueFrame_held ..).trans ?_ | split
theorem canePump_held (s : State) (sid : Nat) :
    held (canePump s sid) = held s := by
  unfold canePump
  with_reducible repeat' first | rfl | refine (modSession_held ..).trans ?_ | refine (caneFrame_held ..).trans ?_ | refine (foldl_held _ (fun _ _ => ?_) _ _).trans ?_ | split
theorem caneQueue_held (s : State) (sid : Nat) (msgId : Nat) (typ : Nat) (hops : Nat) (bs : List Byte) (call : Option Nat) :
    held (caneQueue s sid msgId typ hops bs call) = held s := by
  unfold caneQueue
  with_reducible repeat' first | rfl | refine (canePump_held ..).trans ?_ | refine (modSession_held ..).trans ?_
theorem caneSend_held (s : State) (sid : Nat) (typ : Nat) (hops : Nat) (bs : List Byte) (call : Option Nat) :
    held (caneSend s sid typ hops bs call) = held s := by
  unfold caneSend
  with_reducible repeat' first | rfl | refine (caneQueue_held ..).trans ?_ | refine (modSession_held ..).trans ?_ | split
theorem sendKex_held (s : State) (sid : Nat) (typ : Nat) (bs : List Byte) :
    held (sendKex s sid typ bs) = held s := by
  unfold sendKex
  with_reducible repeat' first | rfl | refine (caneFrame_held ..).trans ?_ | refine (modSession_held ..).trans ?_ | refine (foldl_held _ (fun _ _ => ?_) _ _).trans ?_ | split
theorem tellCall_held (s : State) (adm : Nat) (m : List Byte) :
    held (tellCall s adm m) = held s := rfl
theorem unreachable_held (s : State) (adm : Nat) :
    held (unreachable s adm) = held s := by
  unfold unreachable
  with_reducible repeat' first | rfl | refine (tellCall_held ..).trans ?_
theorem failMsgs_held (s : State) (ms : List CaneMsg) :
    held (failMsgs s ms) = held s := by
  unfold failMsgs
  with_reducible repeat' first | rfl | refine (unreachable_held ..).trans ?_ | refine (foldl_held _ (fun _ _ => ?_) _ _).trans ?_
theorem dropSession_held (s : State) (sid : Nat) :
    held (dropSession s sid) = held s := by
  unfold dropSession
  with_reducible repeat' first | rfl | refine (updCane_held ..).trans ?_ | refine (failMsgs_held ..).trans ?_
theorem closeSession_held (s : State) (sid : Nat) :
    held (closeSession s sid) = held s := by
  unfold closeSession
  with_reducible repeat' first | rfl | refine (dropSession_held ..).trans ?_ | refine (caneFrame_held ..).trans ?_ | split
theorem closeAll_held (s : State) :
    held (closeAll s) = held s := by
  unfold closeAll
  with_reducible repeat' first | rfl | refine (closeSession_held ..).trans ?_ | refine (foldl_held _ (fun _ _ => ?_) _ _).trans ?_
theorem replNote_held (s : State) (nsid : Nat) (seq : Nat) (gran : Nat) (count : Nat) (slot : Option Nat) (grp : Nat) :
    held (replNote s nsid seq gran count slot grp) = held s := rfl
theorem takeSeq_held (s : State) (k : Nat) :
    held (takeSeq s k).2 = held s := rfl
theorem sendPunty_held (s : State) (typ : Nat) (a0 : Nat) (a1 : Nat) (body : List (BitVec 64)) (data : List Host.Cell) :
    held (sendPunty s typ a0 a1 body data) = held s := by
  unfold sendPunty
  with_reducible repeat' first | rfl | refine (updTwin_held ..).trans ?_ | refine (queueFrame_held ..).trans ?_
theorem journalAdd_held (s : State) (rs : List JRecord) :
    held (journalAdd s rs) = held s := by
  unfold journalAdd
  with_reducible repeat' first | rfl | refine (updXlat_held ..).trans ?_ | refine (sendPunty_held ..).trans ?_ | refine ite_held ?_ ?_
theorem journalSlot_held (s : State) :
    held (journalSlot s) = held s := rfl
theorem journalDrain_held (a0 : Nat) (a1 : Nat) (a2 : State) :
    held (journalDrain a0 a1 a2) = held a2 := by
  induction a0 generalizing a2 with
  | zero => rfl
  | succ k ih =>
    unfold journalDrain
    try dsimp only
    with_reducible repeat' (first | rfl | refine (foldl_held _ (fun _ _ => ?_) _ _).trans ?_ | refine ite_held ?_ ?_ | refine ite_held2 ?_ ?_ | refine (updBeatFrac_held _ _).trans ?_ | refine (updFns_held _ _).trans ?_ | refine (updLinks_held _ _).trans ?_ | refine (updRings_held _ _).trans ?_ | refine (updPlan_held _ _).trans ?_ | refine (updCtxs_held _ _).trans ?_ | refine (updZci_held _ _).trans ?_ | refine (updXlat_held _ _).trans ?_ | refine (updMedia_held _ _).trans ?_ | refine (updCare_held _ _).trans ?_ | refine (updFlash_held _ _).trans ?_ | refine (updMovers_held _ _).trans ?_ | refine (updTwin_held _ _).trans ?_ | refine (updCane_held _ _).trans ?_ | refine (updPower_held _ _).trans ?_ | refine (updDay_held _ _).trans ?_ | refine (updTherm_held _ _).trans ?_ | refine (updNor_held _ _).trans ?_ | refine (updSide_held _ _).trans ?_ | refine (updNv_held _ _).trans ?_ | refine (updDue_held _ _).trans ?_ | refine (updOut_held _ _).trans ?_ | refine (updFreeCtr_held _ _).trans ?_ | refine (journalSlot_held ..).trans ?_ | refine (ih _).trans ?_ | split)
theorem modBlock_held (s : State) (i : Nat) (f : Block → Block) :
    held (modBlock s i f) = held s := rfl
theorem modBand_held (s : State) (serial : Nat) (f : Band → Band) :
    held (modBand s serial f) = held s := rfl
theorem addValid_held (s : State) (psa : Nat) (k : Nat) :
    held (addValid s psa k) = held s := by
  unfold addValid
  with_reducible repeat' first | rfl | refine (modBand_held ..).trans ?_ | split
theorem subValid_held (s : State) (psa : Nat) (k : Nat) :
    held (subValid s psa k) = held s := by
  unfold subValid
  with_reducible repeat' first | rfl | refine (modBand_held ..).trans ?_ | split
theorem sweepGather_held (s : State) :
    held (sweepGather s) = held s := rfl
theorem enterGather_held (s : State) (ns : Namespace) (owner : Nat) (gran : Nat) (tag : BitVec 64) (atom : Bool) (armed : Bool) (bytes : List Host.Cell) :
    held (enterGather s ns owner gran tag atom armed bytes).2 = held s := by
  unfold enterGather
  with_reducible repeat' first | rfl | refine (updXlat_held ..).trans ?_ | refine (takeSeq_held ..).trans ?_ | refine ite_held2 ?_ ?_
theorem supersede_held (s : State) (idx : Nat) :
    held (supersede s idx) = held s := rfl
theorem unname_held (s : State) (ns : Namespace) (gran : Nat) (l : Loc) :
    held (unname s ns gran l) = held s := by
  unfold unname
  with_reducible repeat' first | rfl | refine (updXlat_held ..).trans ?_ | refine (subValid_held ..).trans ?_ | split
theorem setEntry_held (s : State) (ns : Namespace) (gran : Nat) (l : Loc) :
    held (setEntry s ns gran l) = held s := by
  unfold setEntry
  with_reducible repeat' first | rfl | refine (updXlat_held ..).trans ?_ | refine (unname_held ..).trans ?_ | refine (addValid_held ..).trans ?_ | split
theorem noteSent_held (s : State) (slot : Nat) (n : Nat) :
    held (noteSent s slot n) = held s := rfl
theorem writeGranule_held (s : State) (x : Ctx) (ns : Namespace) (gran : Nat) (tag : BitVec 64) (bytes : List Host.Cell) :
    held (writeGranule s x ns gran tag bytes) = held s := by
  unfold writeGranule
  with_reducible repeat' first | rfl | refine (enterGather_held ..).trans ?_ | refine (replNote_held ..).trans ?_ | refine (setEntry_held ..).trans ?_ | refine (supersede_held ..).trans ?_ | refine (sendPunty_held ..).trans ?_ | refine (noteSent_held ..).trans ?_ | refine (modCtx_held ..).trans ?_ | refine ite_held ?_ ?_
theorem holdGranule_held (s : State) (x : Ctx) (ns : Namespace) (gran : Nat) (tag : BitVec 64) (bytes : List Host.Cell) :
    held (holdGranule s x ns gran tag bytes) = held s := by
  unfold holdGranule
  with_reducible repeat' first | rfl | refine (enterGather_held ..).trans ?_ | refine (sendPunty_held ..).trans ?_ | refine (noteSent_held ..).trans ?_ | refine (modCtx_held ..).trans ?_ | refine ite_held ?_ ?_
theorem unmapRange_held (s : State) (ns : Namespace) (first : Nat) (n : Nat) :
    held (unmapRange s ns first n) = held s := by
  unfold unmapRange
  with_reducible repeat' first | rfl | refine (takeSeq_held ..).trans ?_ | refine (setEntry_held ..).trans ?_ | refine (supersede_held ..).trans ?_ | refine (sweepGather_held ..).trans ?_ | refine (replNote_held ..).trans ?_ | refine (journalAdd_held ..).trans ?_ | refine (foldl_held _ (fun _ _ => ?_) _ _).trans ?_ | refine ite_held ?_ ?_
theorem commitAtom_held (s : State) (x : Ctx) (ns : Namespace) (ops : List AtomOp) :
    held (commitAtom s x ns ops) = held s := by
  unfold commitAtom
  with_reducible repeat' first | rfl | refine (updXlat_held ..).trans ?_ | refine (takeSeq_held ..).trans ?_ | refine (journalAdd_held ..).trans ?_ | refine (setEntry_held ..).trans ?_ | refine (supersede_held ..).trans ?_ | refine (replNote_held ..).trans ?_ | refine (sendPunty_held ..).trans ?_ | refine (sweepGather_held ..).trans ?_ | refine (modCtx_held ..).trans ?_ | refine (foldl_held _ (fun _ _ => ?_) _ _).trans ?_ | refine ite_held ?_ ?_
theorem discardAtom_held (s : State) (x : Ctx) :
    held (discardAtom s x) = held s := by
  unfold discardAtom
  with_reducible repeat' first | rfl | refine (updXlat_held ..).trans ?_ | refine (sendPunty_held ..).trans ?_ | refine (modCtx_held ..).trans ?_ | refine ite_held ?_ ?_
theorem registerDeep_held (s : State) (ns : Namespace) (rs : List GranRead) :
    held (registerDeep s ns rs) = held s := by
  unfold registerDeep
  dsimp only
  with_reducible repeat' first | rfl | refine (updXlat_held ..).trans ?_ | refine (foldl_held _ (fun _ _ => ?_) _ _).trans ?_ | split
theorem raisePe_held (s : State) (die : Nat) (block : Nat) :
    held (raisePe s die block) = held s := by
  unfold raisePe
  try dsimp only
  with_reducible repeat' first | rfl | refine (modBlock_held ..).trans ?_ | refine (foldl_held _ (fun _ _ => ?_) _ _).trans ?_ | refine ite_held ?_ ?_ | refine ite_held2 ?_ ?_ | split
theorem event_held (s : State) (k : Nat) (who : Nat) :
    held (event s k who) = held s := by
  unfold event
  with_reducible repeat' first | rfl | refine (updSide_held ..).trans ?_ | refine (raiseEvent_held ..).trans ?_
theorem eventIf_held (b : Bool) (s : State) (k : Nat) (who : Nat) :
    held (eventIf b s k who) = held s := by
  unfold eventIf
  with_reducible repeat' first | rfl | refine (event_held ..).trans ?_ | refine ite_held ?_ ?_
theorem countCode_held (s : State) :
    held (countCode s) = held s := by
  unfold countCode
  with_reducible repeat' first | rfl | refine (updZci_held ..).trans ?_
theorem useKey_held (s : State) (n : Nat) (e : Nat) :
    held (useKey s n e) = held s := by
  unfold useKey
  with_reducible repeat' first | rfl | refine (updSec_held _ _ ⟨rfl, rfl, rfl, rfl, rfl, rfl⟩).trans ?_ | refine ite_held ?_ ?_
theorem caneEnable_held (s : State) (on : Bool) :
    held (caneEnable s on) = held s := by
  unfold caneEnable
  with_reducible repeat' first | rfl | refine (updDay_held ..).trans ?_ | refine (updCane_held ..).trans ?_ | refine (closeAll_held ..).trans ?_ | refine ite_held ?_ ?_
theorem actNow_held (s : State) (id : Nat) (v : BitVec 64) :
    held (actNow s id v) = held s := by
  unfold actNow
  with_reducible repeat' first | rfl | refine (updDay_held ..).trans ?_ | refine (updNor_held ..).trans ?_ | refine (updSec_held _ _ ⟨rfl, rfl, rfl, rfl, rfl, rfl⟩).trans ?_ | refine (modRing_held ..).trans ?_ | refine (storeNv_held ..).trans ?_ | refine (caneEnable_held ..).trans ?_ | refine (closeAll_held ..).trans ?_ | split
theorem addRing_held (s : State) (r : Ring) :
    held (addRing s r) = held s := by
  unfold addRing
  with_reducible repeat' first | rfl | refine (updDue_held ..).trans ?_ | refine (updNv_held ..).trans ?_ | refine (updRings_held ..).trans ?_
theorem freeRing_held (s : State) (g : Nat) :
    held (freeRing s g) = held s := by
  unfold freeRing
  with_reducible repeat' first | rfl | refine (updDue_held ..).trans ?_ | refine (updRings_held ..).trans ?_
theorem applySet_held (s : State) (id : Nat) (v : BitVec 64) :
    held (applySet s id v) = held s := by
  unfold applySet
  with_reducible repeat' first | rfl | refine (storeDue_held ..).trans ?_ | refine (actNow_held ..).trans ?_ | refine ite_held ?_ ?_
theorem releaseBookings_held (s : State) (adm : Nat) :
    held (releaseBookings s adm) = held s := rfl
theorem endCtx_held (s : State) (c : Nat) :
    held (endCtx s c) = held s := by
  unfold endCtx
  with_reducible repeat' first | rfl | refine (updZci_held ..).trans ?_ | refine (updXlat_held ..).trans ?_ | refine (updCtxs_held ..).trans ?_ | refine (releaseBookings_held ..).trans ?_ | refine (sweepGather_held ..).trans ?_ | split
theorem sidebandDone_held (s : State) (status : BitVec 16) (cid : BitVec 16) (detail : BitVec 8) (result : BitVec 64) (adm : BitVec 64) (slack : BitVec 16) (data : List Byte) :
    held (sidebandDone s status cid detail result adm slack data) = held s := by
  unfold sidebandDone
  with_reducible repeat' first | rfl | refine (updSide_held ..).trans ?_ | refine (emit_held ..).trans ?_
theorem sendRep_held (s : State) (sid : Nat) (msgId : Nat) (status : BitVec 16) (detail : BitVec 8) (result : BitVec 64) (data : List Byte) :
    held (sendRep s sid msgId status detail result data) = held s := by
  unfold sendRep
  with_reducible repeat' first | rfl | refine (tellCall_held ..).trans ?_ | refine (modSession_held ..).trans ?_ | refine (caneQueue_held ..).trans ?_ | refine ite_held ?_ ?_
theorem addCounts_held (s : State) (c : Nat) (k : RingReset) :
    held (addCounts s c k) = held s := rfl
theorem countGone_held (s : State) (fn : Nat) (g : Nat) (k : RingReset) :
    held (countGone s fn g k) = held s := by
  unfold countGone
  with_reducible repeat' first | rfl | refine (addCounts_held ..).trans ?_ | refine (foldl_held _ (fun _ _ => ?_) _ _).trans ?_
theorem countFnReset_held (s : State) (fn : Nat) (g : Nat) (st : BitVec 16) :
    held (countFnReset s fn g st) = held s := by
  unfold countFnReset
  with_reducible repeat' first | rfl | refine (countGone_held ..).trans ?_
theorem afterAdm_held (s : State) (x : Ctx) :
    held (afterAdm s x) = held s := by
  unfold afterAdm
  dsimp only
  with_reducible repeat' first | rfl | refine (updXlat_held ..).trans ?_ | refine (updNor_held ..).trans ?_ | refine (updPlan_held ..).trans ?_ | split
theorem complete_held (s : State) (x : Ctx) :
    held (complete s x) = held s := by
  unfold complete
  try dsimp only
  with_reducible repeat' first | rfl | refine (updPlan_held ..).trans ?_ | refine (updSec_held _ _ ⟨rfl, rfl, rfl, rfl, rfl, rfl⟩).trans ?_ | refine (afterAdm_held ..).trans ?_ | refine (endCtx_held ..).trans ?_ | refine (sidebandDone_held ..).trans ?_ | refine (sendRep_held ..).trans ?_ | refine (countFnReset_held ..).trans ?_ | refine (modRing_held ..).trans ?_ | refine (writeCompletion_held ..).trans ?_ | refine (keepCompletion_held ..).trans ?_ | refine (foldl_held _ (fun _ _ => ?_) _ _).trans ?_ | refine ite_held ?_ ?_ | refine ite_held2 ?_ ?_ | split
theorem tryComplete_held (s : State) (c : Nat) :
    held (tryComplete s c) = held s := by
  unfold tryComplete
  with_reducible repeat' first | rfl | refine (complete_held ..).trans ?_ | split
theorem fixEnd_held (s : State) (c : Nat) (st : BitVec 16) (detail : BitVec 8) (res : BitVec 64) :
    held (fixEnd s c st detail res) = held s := by
  unfold fixEnd
  with_reducible repeat' first | rfl | refine (updXlat_held ..).trans ?_ | refine (releaseBookings_held ..).trans ?_ | refine (discardAtom_held ..).trans ?_ | refine (modCtx_held ..).trans ?_ | split
theorem endWith_held (s : State) (c : Nat) (st : BitVec 16) (detail : BitVec 8) (res : BitVec 64) :
    held (endWith s c st detail res) = held s := by
  unfold endWith
  with_reducible repeat' first | rfl | refine (tryComplete_held ..).trans ?_ | refine (fixEnd_held ..).trans ?_
theorem endWord_held (s : State) (x : Ctx) :
    held (endWord s x).2 = held s := by
  unfold endWord
  with_reducible repeat' first | rfl | refine (drawFree_held ..).trans ?_ | refine ite_held2 ?_ ?_
theorem faultCtx_held (s : State) (c : Nat) (code : Nat) :
    held (faultCtx s c code) = held s := by
  unfold faultCtx
  with_reducible repeat' first | rfl | refine (updFreeCtr_held ..).trans ?_ | refine (updZci_held ..).trans ?_ | refine (endWord_held ..).trans ?_ | refine (endWith_held ..).trans ?_ | split
theorem countAbort_held (s : State) :
    held (countAbort s) = held s := rfl
theorem abortCtx_held (s : State) (c : Nat) :
    held (abortCtx s c) = held s := by
  unfold abortCtx
  with_reducible repeat' first | rfl | refine (endWith_held ..).trans ?_ | refine (countAbort_held ..).trans ?_
theorem abortNext_held (s : State) (c : Nat) :
    held (abortNext s c) = held s := by
  unfold abortNext
  with_reducible repeat' first | rfl | refine (modCtx_held ..).trans ?_ | refine (fixEnd_held ..).trans ?_ | refine (countAbort_held ..).trans ?_
theorem post_held (s : State) (c : Nat) :
    held (post s c) = held s := by
  unfold post
  with_reducible repeat' first | rfl | refine (tryComplete_held ..).trans ?_ | refine (modCtx_held ..).trans ?_ | refine (commitAtom_held ..).trans ?_ | refine (discardAtom_held ..).trans ?_ | split
theorem residentPost_held (s : State) (c : Nat) (st : BitVec 16) (detail : BitVec 8) (res : BitVec 64) :
    held (residentPost s c st detail res) = held s := rfl
theorem commitNow_held (s : State) (c : Nat) :
    held (commitNow s c) = held s := rfl
theorem norAppend_held (s : State) (kind : Nat) (key : Nat) (body : List Byte) :
    held (norAppend s kind key body) = held s := rfl
theorem norPut_held (s : State) (kind : Nat) (key : Nat) (body : List Byte) :
    held (norPut s kind key body) = held s := rfl
theorem norRetire_held (s : State) (kind : Nat) (key : Nat) :
    held (norRetire s kind key) = held s := rfl
theorem settingAppend_held (s : State) (id : Nat) (v : BitVec 64) :
    held (settingAppend s id v) = held s := by
  unfold settingAppend
  try dsimp only
  with_reducible repeat' first | rfl | refine (norAppend_held ..).trans ?_ | refine (foldl_held _ (fun _ _ => ?_) _ _).trans ?_ | refine ite_held ?_ ?_ | refine ite_held2 ?_ ?_ | split
theorem readReqs_held (s : State) (x : Ctx) (off : Nat) (n : Nat) :
    held (readReqs s x off n) = held s := by
  unfold readReqs
  try dsimp only
  with_reducible repeat' first | rfl | refine (emit_held ..).trans ?_ | refine (foldl_held _ (fun _ _ => ?_) _ _).trans ?_ | refine ite_held ?_ ?_ | refine ite_held2 ?_ ?_ | split
theorem beginTransfer_held (s : State) (x : Ctx) (toHost : Bool) (off : Nat) (n : Nat) :
    held (beginTransfer s x toHost off n) = held s := by
  unfold beginTransfer
  try dsimp only
  with_reducible repeat' first | rfl | refine (modEngine_held ..).trans ?_ | refine (readReqs_held ..).trans ?_ | refine (foldl_held _ (fun _ _ => ?_) _ _).trans ?_ | refine ite_held ?_ ?_ | refine ite_held2 ?_ ?_ | split
theorem finishDescs_held (s : State) (c : Nat) (left : Nat) :
    held (finishDescs s c left) = held s := by
  unfold finishDescs
  try dsimp only
  with_reducible repeat' first | rfl | refine (updMovers_held ..).trans ?_ | refine (foldl_held _ (fun _ _ => ?_) _ _).trans ?_ | refine ite_held ?_ ?_ | refine ite_held2 ?_ ?_ | split
theorem dropDescs_held (s : State) (c : Nat) :
    held (dropDescs s c) = held s := rfl
theorem hostOut_held (s : State) (x : Ctx) (off : Nat) (bs : List Byte) :
    held (hostOut s x off bs) = held s := by
  unfold hostOut
  with_reducible repeat' first | rfl | refine (emit_held ..).trans ?_ | refine (modCtx_held ..).trans ?_ | refine (foldl_held _ (fun _ _ => ?_) _ _).trans ?_ | split
theorem endTransfer_held (s : State) (c : Nat) (toHost : Bool) (n : Nat) :
    held (endTransfer s c toHost n) = held s := by
  unfold endTransfer
  with_reducible repeat' first | rfl | refine (updMovers_held ..).trans ?_ | refine (dropDescs_held ..).trans ?_
theorem book_held (s : State) (r : Res) (sh : Share) (b : Nat) (k : Nat) (owner : Nat) :
    held (book s r sh b k owner) = held s := by
  unfold book
  with_reducible repeat' first | rfl | refine (updPlan_held ..).trans ?_ | refine ite_held ?_ ?_
theorem useUnit_held (s : State) (c : Nat) (k : Nat) (n : Nat) :
    held (useUnit s c k n) = held s := by
  unfold useUnit
  try dsimp only
  with_reducible repeat' first | rfl | refine (updZci_held ..).trans ?_ | refine (foldl_held _ (fun _ _ => ?_) _ _).trans ?_ | refine ite_held ?_ ?_ | refine ite_held2 ?_ ?_ | split
theorem bookLate_held (s : State) (x : Ctx) (k : Nat) (n : Nat) :
    held (bookLate s x k n) = held s := by
  unfold bookLate
  try dsimp only
  with_reducible repeat' first | rfl | refine (book_held ..).trans ?_ | refine (foldl_held _ (fun _ _ => ?_) _ _).trans ?_ | refine ite_held ?_ ?_ | refine ite_held2 ?_ ?_ | split
theorem drawBeat_held (s : State) (c : Nat) :
    held (drawBeat s c) = held s := by
  unfold drawBeat
  try dsimp only
  with_reducible repeat' first | rfl | refine (modCtx_held ..).trans ?_ | refine (useUnit_held ..).trans ?_ | refine (bookLate_held ..).trans ?_ | refine (foldl_held _ (fun _ _ => ?_) _ _).trans ?_ | refine ite_held ?_ ?_ | refine ite_held2 ?_ ?_ | split
theorem finishDrawn_held (s : State) (c : Nat) :
    held (finishDrawn s c) = held s := by
  unfold finishDrawn
  try dsimp only
  with_reducible repeat' first | rfl | refine (finishDescs_held ..).trans ?_ | refine (foldl_held _ (fun _ _ => ?_) _ _).trans ?_ | refine ite_held ?_ ?_ | refine ite_held2 ?_ ?_ | split
theorem startDraw_held (s : State) (c : Nat) (n : Nat) :
    held (startDraw s c n) = held s := by
  unfold startDraw
  with_reducible repeat' first | rfl | refine (drawBeat_held ..).trans ?_ | refine (modCtx_held ..).trans ?_ | split
theorem drawAll_held (s : State) :
    held (drawAll s) = held s := by
  unfold drawAll
  try dsimp only
  with_reducible repeat' first | rfl | refine (updZci_held ..).trans ?_ | refine (updCtxs_held ..).trans ?_ | refine (finishDrawn_held ..).trans ?_ | refine (drawBeat_held ..).trans ?_ | refine (foldl_held _ (fun _ _ => ?_) _ _).trans ?_ | refine ite_held ?_ ?_ | refine ite_held2 ?_ ?_ | split
theorem busCmd_held (s : State) (d : Nat) (cmd : Nat) (row : Nat) (body : List Byte) :
    held (busCmd s d cmd row body) = held s := by
  unfold busCmd
  with_reducible repeat' first | rfl | refine (emit_held ..).trans ?_
theorem programCmds_held (s : State) (d : Nat) (o : ArrayOp) (n : Nat) :
    held (programCmds s d o n) = held s := by
  unfold programCmds
  with_reducible repeat' first | rfl | refine (busCmd_held ..).trans ?_ | refine (foldl_held _ (fun _ _ => ?_) _ _).trans ?_
theorem eraseCmds_held (s : State) (d : Nat) (o : ArrayOp) :
    held (eraseCmds s d o) = held s := by
  unfold eraseCmds
  try dsimp only
  with_reducible repeat' first | rfl | refine (busCmd_held ..).trans ?_ | refine (foldl_held _ (fun _ _ => ?_) _ _).trans ?_ | refine ite_held ?_ ?_ | refine ite_held2 ?_ ?_ | split
theorem startCmds_held (s : State) (d : Nat) (o : ArrayOp) :
    held (startCmds s d o) = held s := by
  unfold startCmds
  try dsimp only
  with_reducible repeat' first | rfl | refine (busCmd_held ..).trans ?_ | refine (programCmds_held ..).trans ?_ | refine (eraseCmds_held ..).trans ?_ | refine (foldl_held _ (fun _ _ => ?_) _ _).trans ?_ | refine ite_held ?_ ?_ | refine ite_held2 ?_ ?_ | split
theorem slotCmds_held (s : State) (d : Nat) (o : ArrayOp) :
    held (slotCmds s d o) = held s := by
  unfold slotCmds
  with_reducible repeat' first | rfl | refine (busCmd_held ..).trans ?_ | refine (foldl_held _ (fun _ _ => ?_) _ _).trans ?_
theorem opCmds_held (s : State) (d : Nat) (o : ArrayOp) :
    held (opCmds s d o) = held s := by
  unfold opCmds
  with_reducible repeat' first | rfl | refine (startCmds_held ..).trans ?_ | refine (slotCmds_held ..).trans ?_ | refine (busCmd_held ..).trans ?_ | refine ite_held ?_ ?_
theorem busBeat_held (s : State) :
    held (busBeat s) = held s := by
  unfold busBeat
  with_reducible repeat' first | rfl | refine (opCmds_held ..).trans ?_ | refine (foldl_held _ (fun _ _ => ?_) _ _).trans ?_ | refine ite_held ?_ ?_
theorem markRefresh_held (s : State) (die : Nat) (block : Nat) :
    held (markRefresh s die block).2 = held s := by
  unfold markRefresh
  with_reducible repeat' first | rfl | refine (modBand_held ..).trans ?_ | split
theorem countRead_held (s : State) (die : Nat) (block : Nat) :
    held (countRead s die block) = held s := by
  unfold countRead
  with_reducible repeat' first | rfl | refine (updCare_held ..).trans ?_ | refine (modBlock_held ..).trans ?_ | refine (markRefresh_held ..).trans ?_ | refine ite_held ?_ ?_
theorem journalPlain_held (s : State) (t : JType) (flags : Nat) (nsid : Nat) (count : Nat) (lba : Nat) (value : Nat) :
    held (journalPlain s t flags nsid count lba value) = held s := by
  unfold journalPlain
  with_reducible repeat' first | rfl | refine (journalAdd_held ..).trans ?_
theorem markClosed_held (s : State) (serial : Nat) :
    held (markClosed s serial) = held s := by
  unfold markClosed
  with_reducible repeat' first | rfl | refine (modBand_held ..).trans ?_ | refine (journalPlain_held ..).trans ?_ | split
theorem dropPrograms_held (s : State) (b : Band) :
    held (dropPrograms s b) = held s := by
  unfold dropPrograms
  try dsimp only
  with_reducible repeat' first | rfl | refine (updFlash_held ..).trans ?_ | refine (foldl_held _ (fun _ _ => ?_) _ _).trans ?_ | refine ite_held ?_ ?_ | refine ite_held2 ?_ ?_ | split
theorem cutBand_held (s : State) (serial : Nat) (dark : Bool) :
    held (cutBand s serial dark) = held s := by
  unfold cutBand
  try dsimp only
  with_reducible repeat' first | rfl | refine (updMedia_held ..).trans ?_ | refine (updXlat_held ..).trans ?_ | refine (modBand_held ..).trans ?_ | refine (dropPrograms_held ..).trans ?_ | refine (markClosed_held ..).trans ?_ | refine (foldl_held _ (fun _ _ => ?_) _ _).trans ?_ | refine ite_held ?_ ?_ | refine ite_held2 ?_ ?_ | split
theorem rawTouch_held (s : State) (ppn : Nat) :
    held (rawTouch s ppn) = held s := by
  unfold rawTouch
  try dsimp only
  with_reducible repeat' first | rfl | refine (modBlock_held ..).trans ?_ | refine (cutBand_held ..).trans ?_ | refine (modBand_held ..).trans ?_ | refine (foldl_held _ (fun _ _ => ?_) _ _).trans ?_ | refine ite_held ?_ ?_ | refine ite_held2 ?_ ?_ | split
theorem slotsGone_held (s : State) (p : Nat → Bool) :
    held (slotsGone s p) = held s := by
  unfold slotsGone
  try dsimp only
  with_reducible repeat' first | rfl | refine (updMedia_held ..).trans ?_ | refine (foldl_held _ (fun _ _ => ?_) _ _).trans ?_ | refine ite_held ?_ ?_ | refine ite_held2 ?_ ?_ | split
theorem rawProgram_held (s : State) (ppn : Nat) (column : Nat) (bytes : List Byte) :
    held (rawProgram s ppn column bytes) = held s := by
  unfold rawProgram
  try dsimp only
  with_reducible repeat' first | rfl | refine (updMedia_held ..).trans ?_ | refine (rawTouch_held ..).trans ?_ | refine (slotsGone_held ..).trans ?_ | refine (foldl_held _ (fun _ _ => ?_) _ _).trans ?_ | refine ite_held ?_ ?_ | refine ite_held2 ?_ ?_ | split
theorem rawErase_held (s : State) (ppn : Nat) :
    held (rawErase s ppn) = held s := by
  unfold rawErase
  try dsimp only
  with_reducible repeat' first | rfl | refine (updMedia_held ..).trans ?_ | refine (slotsGone_held ..).trans ?_ | refine (raisePe_held ..).trans ?_ | refine (rawTouch_held ..).trans ?_ | refine (modBlock_held ..).trans ?_ | refine (foldl_held _ (fun _ _ => ?_) _ _).trans ?_ | refine ite_held ?_ ?_ | refine ite_held2 ?_ ?_ | split
theorem issue_held (s : State) (c : Nat) (op : Nat) (checks : Ctx → BitVec 32 → List (Bool × Nat)) (eff : State → Ctx → BitVec 32 → State) (heff : ∀ u y1 y2, held (eff u y1 y2) = held u) :
    held (issue s c op checks eff) = held s := by
  unfold issue
  dsimp only
  with_reducible repeat' first | rfl | refine (faultCtx_held ..).trans ?_ | refine (modCtx_held ..).trans ?_ | refine (commitNow_held ..).trans ?_ | refine (heff _ _ _).trans ?_ | split
theorem putCtx_held (s : State) (x : Ctx) :
    held (putCtx s x) = held s := rfl
theorem local__held (s : State) (c : Nat) (op : Nat) (f : Ctx → BitVec 32 → Ctx) :
    held (local_ s c op f) = held s := by
  unfold local_
  with_reducible repeat' first | rfl | refine (issue_held _ _ _ _ _ (fun _ _ _ => ?_)).trans ?_ | refine (putCtx_held ..).trans ?_
theorem execNop_held (c : Nat) (s : State) {t : State} (h : execNop c s = .next t) :
    held t = held s := by
  cases h
  with_reducible repeat' first | rfl | refine (local__held ..).trans ?_
theorem execMovi_held (c : Nat) (s : State) {t : State} (h : execMovi c s = .next t) :
    held t = held s := by
  cases h
  with_reducible repeat' first | rfl | refine (local__held ..).trans ?_
theorem execShin_held (c : Nat) (s : State) {t : State} (h : execShin c s = .next t) :
    held t = held s := by
  cases h
  with_reducible repeat' first | rfl | refine (local__held ..).trans ?_
theorem execAlu_held (c : Nat) (s : State) {t : State} (h : execAlu c s = .next t) :
    held t = held s := by
  cases h
  with_reducible repeat' first | rfl | refine (local__held ..).trans ?_
theorem execAddi_held (c : Nat) (s : State) {t : State} (h : execAddi c s = .next t) :
    held t = held s := by
  cases h
  with_reducible repeat' first | rfl | refine (local__held ..).trans ?_
theorem execAndi_held (c : Nat) (s : State) {t : State} (h : execAndi c s = .next t) :
    held t = held s := by
  cases h
  with_reducible repeat' first | rfl | refine (local__held ..).trans ?_
theorem execOri_held (c : Nat) (s : State) {t : State} (h : execOri c s = .next t) :
    held t = held s := by
  cases h
  with_reducible repeat' first | rfl | refine (local__held ..).trans ?_
theorem execXori_held (c : Nat) (s : State) {t : State} (h : execXori c s = .next t) :
    held t = held s := by
  cases h
  with_reducible repeat' first | rfl | refine (local__held ..).trans ?_
theorem execShli_held (c : Nat) (s : State) {t : State} (h : execShli c s = .next t) :
    held t = held s := by
  cases h
  with_reducible repeat' first | rfl | refine (local__held ..).trans ?_
theorem execShri_held (c : Nat) (s : State) {t : State} (h : execShri c s = .next t) :
    held t = held s := by
  cases h
  with_reducible repeat' first | rfl | refine (local__held ..).trans ?_
theorem execCmp_held (c : Nat) (s : State) {t : State} (h : execCmp c s = .next t) :
    held t = held s := by
  cases h
  with_reducible repeat' first | rfl | refine (local__held ..).trans ?_
theorem execCmpi_held (c : Nat) (s : State) {t : State} (h : execCmpi c s = .next t) :
    held t = held s := by
  cases h
  with_reducible repeat' first | rfl | refine (local__held ..).trans ?_
theorem execBr_held (c : Nat) (s : State) {t : State} (h : execBr c s = .next t) :
    held t = held s := by
  cases h
  with_reducible repeat' first | rfl | refine (local__held ..).trans ?_
theorem execLoop_held (c : Nat) (s : State) {t : State} (h : execLoop c s = .next t) :
    held t = held s := by
  cases h
  with_reducible repeat' first | rfl | refine (local__held ..).trans ?_
theorem execCall_held (c : Nat) (s : State) {t : State} (h : execCall c s = .next t) :
    held t = held s := by
  cases h
  with_reducible repeat' first | rfl | refine (issue_held _ _ _ _ _ (fun _ _ _ => ?_)).trans ?_ | refine (putCtx_held ..).trans ?_
theorem execRet_held (c : Nat) (s : State) {t : State} (h : execRet c s = .next t) :
    held t = held s := by
  cases h
  with_reducible repeat' first | rfl | refine (issue_held _ _ _ _ _ (fun _ _ _ => ?_)).trans ?_ | refine (putCtx_held ..).trans ?_
theorem execTrap_held (c : Nat) (s : State) {t : State} (h : execTrap c s = .next t) :
    held t = held s := by
  cases h
  with_reducible repeat' first | rfl | refine (issue_held _ _ _ _ _ (fun _ _ _ => ?_)).trans ?_
theorem execLd_held (c : Nat) (s : State) {t : State} (h : execLd c s = .next t) :
    held t = held s := by
  cases h
  with_reducible repeat' first | rfl | refine (issue_held _ _ _ _ _ (fun _ _ _ => ?_)).trans ?_ | refine (putCtx_held ..).trans ?_
theorem execSt_held (c : Nat) (s : State) {t : State} (h : execSt c s = .next t) :
    held t = held s := by
  cases h
  with_reducible repeat' first | rfl | refine (issue_held _ _ _ _ _ (fun _ _ _ => ?_)).trans ?_ | refine (putCtx_held ..).trans ?_
theorem execBufGet_held (c : Nat) (s : State) {t : State} (h : execBufGet c s = .next t) :
    held t = held s := by
  cases h
  with_reducible repeat' first | rfl | refine (issue_held _ _ _ _ _ (fun _ _ _ => ?_)).trans ?_ | refine (drawFree_held ..).trans ?_ | refine (putCtx_held ..).trans ?_ | split
theorem execBufPut_held (c : Nat) (s : State) {t : State} (h : execBufPut c s = .next t) :
    held t = held s := by
  cases h
  with_reducible repeat' first | rfl | refine (local__held ..).trans ?_ | refine ite_held ?_ ?_
theorem execBufSize_held (c : Nat) (s : State) {t : State} (h : execBufSize c s = .next t) :
    held t = held s := by
  cases h
  with_reducible repeat' first | rfl | refine (local__held ..).trans ?_ | refine ite_held ?_ ?_
theorem execHxin_held (c : Nat) (s : State) {t : State} (h : execHxin c s = .next t) :
    held t = held s := by
  cases h
  with_reducible repeat' first | rfl | refine (issue_held _ _ _ _ _ (fun _ _ _ => ?_)).trans ?_ | refine (startDraw_held ..).trans ?_ | refine (beginTransfer_held ..).trans ?_ | refine (putCtx_held ..).trans ?_
theorem execHxout_held (c : Nat) (s : State) {t : State} (h : execHxout c s = .next t) :
    held t = held s := by
  cases h
  with_reducible repeat' first | rfl | refine (issue_held _ _ _ _ _ (fun _ _ _ => ?_)).trans ?_ | refine (startDraw_held ..).trans ?_ | refine (beginTransfer_held ..).trans ?_ | refine (putCtx_held ..).trans ?_
theorem issueRead_held (s : State) (x : Ctx) (w : BitVec 32) (wr : Bool) :
    held (issueRead s x w wr) = held s := by
  unfold issueRead
  with_reducible repeat' first | rfl | refine (putCtx_held ..).trans ?_ | refine (registerDeep_held ..).trans ?_ | split
theorem execMrd_held (c : Nat) (s : State) {t : State} (h : execMrd c s = .next t) :
    held t = held s := by
  cases h
  with_reducible repeat' first | rfl | refine (issue_held _ _ _ _ _ (fun _ _ _ => ?_)).trans ?_ | refine (issueRead_held ..).trans ?_
theorem execMcmp_held (c : Nat) (s : State) {t : State} (h : execMcmp c s = .next t) :
    held t = held s := by
  cases h
  with_reducible repeat' first | rfl | refine (issue_held _ _ _ _ _ (fun _ _ _ => ?_)).trans ?_ | refine (issueRead_held ..).trans ?_
theorem execMcas_held (c : Nat) (s : State) {t : State} (h : execMcas c s = .next t) :
    held t = held s := by
  cases h
  with_reducible repeat' first | rfl | refine (issue_held _ _ _ _ _ (fun _ _ _ => ?_)).trans ?_ | refine (issueRead_held ..).trans ?_
theorem awaitMirror_held (s0 : State) (s : State) (c : Nat) :
    held (awaitMirror s0 s c) = held s := by
  unfold awaitMirror
  with_reducible repeat' first | rfl | refine (modCtx_held ..).trans ?_ | refine ite_held ?_ ?_
theorem putGranule_held (s : State) (c : Nat) (ns : Namespace) (atom : Bool) (gran : Nat) (tag : BitVec 64) (bytes : List Host.Cell) :
    held (putGranule s c ns atom gran tag bytes) = held s := by
  unfold putGranule
  with_reducible repeat' first | rfl | refine (holdGranule_held ..).trans ?_ | refine (writeGranule_held ..).trans ?_ | split
theorem putGranules_held (s : State) (c : Nat) (ns : Namespace) (atom : Bool) (first : Nat) (n : Nat) (tag : BitVec 64) (buf : List Host.Cell) (off : Nat) :
    held (putGranules s c ns atom first n tag buf off) = held s := by
  unfold putGranules
  with_reducible repeat' first | rfl | refine (putGranule_held ..).trans ?_ | refine (foldl_held _ (fun _ _ => ?_) _ _).trans ?_
theorem execMwr_held (c : Nat) (s : State) {t : State} (h : execMwr c s = .next t) :
    held t = held s := by
  cases h
  with_reducible repeat' first | rfl | refine (issue_held _ _ _ _ _ (fun _ _ _ => ?_)).trans ?_ | refine (putCtx_held ..).trans ?_ | split
theorem issueUnmap_held (s : State) (x : Ctx) (w : BitVec 32) :
    held (issueUnmap s x w) = held s := by
  unfold issueUnmap
  with_reducible repeat' first | rfl | refine (putCtx_held ..).trans ?_ | refine (modCtx_held ..).trans ?_ | refine (awaitMirror_held ..).trans ?_ | refine (unmapRange_held ..).trans ?_ | split
theorem execMtrim_held (c : Nat) (s : State) {t : State} (h : execMtrim c s = .next t) :
    held t = held s := by
  cases h
  with_reducible repeat' first | rfl | refine (issue_held _ _ _ _ _ (fun _ _ _ => ?_)).trans ?_ | refine (issueUnmap_held ..).trans ?_
theorem execMzero_held (c : Nat) (s : State) {t : State} (h : execMzero c s = .next t) :
    held t = held s := by
  cases h
  with_reducible repeat' first | rfl | refine (issue_held _ _ _ _ _ (fun _ _ _ => ?_)).trans ?_ | refine (issueUnmap_held ..).trans ?_
theorem execMflush_held (c : Nat) (s : State) {t : State} (h : execMflush c s = .next t) :
    held t = held s := by
  cases h
  with_reducible repeat' first | rfl | refine (issue_held _ _ _ _ _ (fun _ _ _ => ?_)).trans ?_ | refine (putCtx_held ..).trans ?_
theorem streamOn_held (s : State) (x : Ctx) (n : Nat) :
    held (streamOn s x n) = held s := by
  unfold streamOn
  with_reducible repeat' first | rfl | refine (startDraw_held ..).trans ?_ | refine (putCtx_held ..).trans ?_
theorem execScan_held (c : Nat) (s : State) {t : State} (h : execScan c s = .next t) :
    held t = held s := by
  cases h
  with_reducible repeat' first | rfl | refine (issue_held _ _ _ _ _ (fun _ _ _ => ?_)).trans ?_ | refine (streamOn_held ..).trans ?_
theorem execDigest_held (c : Nat) (s : State) {t : State} (h : execDigest c s = .next t) :
    held t = held s := by
  cases h
  with_reducible repeat' first | rfl | refine (issue_held _ _ _ _ _ (fun _ _ _ => ?_)).trans ?_ | refine (streamOn_held ..).trans ?_ | refine ite_held ?_ ?_
theorem execCopy_held (c : Nat) (s : State) {t : State} (h : execCopy c s = .next t) :
    held t = held s := by
  cases h
  with_reducible repeat' first | rfl | refine (issue_held _ _ _ _ _ (fun _ _ _ => ?_)).trans ?_ | refine (streamOn_held ..).trans ?_
theorem execCmpb_held (c : Nat) (s : State) {t : State} (h : execCmpb c s = .next t) :
    held t = held s := by
  cases h
  with_reducible repeat' first | rfl | refine (issue_held _ _ _ _ _ (fun _ _ _ => ?_)).trans ?_ | refine (streamOn_held ..).trans ?_
theorem execFence_held (c : Nat) (s : State) {t : State} (h : execFence c s = .next t) :
    held t = held s := by
  cases h
  with_reducible repeat' first | rfl | refine (issue_held _ _ _ _ _ (fun _ _ _ => ?_)).trans ?_ | refine (putCtx_held ..).trans ?_
theorem execGet_held (c : Nat) (s : State) {t : State} (h : execGet c s = .next t) :
    held t = held s := by
  cases h
  dsimp only
  with_reducible repeat' first | rfl | refine (issue_held _ _ _ _ _ (fun _ _ _ => ?_)).trans ?_ | refine (putCtx_held ..).trans ?_ | split
theorem setDone_held (s : State) (c : Nat) (st : BitVec 16) (d : BitVec 8) :
    held (setDone s c st d) = held s := by
  unfold setDone
  with_reducible repeat' first | rfl | refine (putCtx_held ..).trans ?_ | refine (residentPost_held ..).trans ?_ | split
theorem dozeDone_held (s : State) (c : Nat) (st : BitVec 16) :
    held (dozeDone s c st) = held s := by
  unfold dozeDone
  with_reducible repeat' first | rfl | refine (putCtx_held ..).trans ?_ | refine (residentPost_held ..).trans ?_ | split
theorem requestDay_held (s : State) (c : Nat) (t : DayState) :
    held (requestDay s c t) = held s := by
  unfold requestDay
  with_reducible repeat' first | rfl | refine (updDay_held ..).trans ?_ | refine (dozeDone_held ..).trans ?_ | split
theorem execDoze_held (c : Nat) (s : State) {t : State} (h : execDoze c s = .next t) :
    held t = held s := by
  cases h
  with_reducible repeat' first | rfl | refine (issue_held _ _ _ _ _ (fun _ _ _ => ?_)).trans ?_ | refine (requestDay_held ..).trans ?_ | refine (putCtx_held ..).trans ?_
theorem rawCmds_held (s : State) (h : List Byte) (data : List Byte) :
    held (rawCmds s h data) = held s := by
  unfold rawCmds
  try dsimp only
  with_reducible repeat' first | rfl | refine (busCmd_held ..).trans ?_ | refine (foldl_held _ (fun _ _ => ?_) _ _).trans ?_ | refine ite_held ?_ ?_ | refine ite_held2 ?_ ?_ | split
theorem execRaw_held (c : Nat) (s : State) {t : State} (h : execRaw c s = .next t) :
    held t = held s := by
  cases h
  try dsimp only
  with_reducible repeat' first | rfl | refine (issue_held _ _ _ _ _ (fun _ _ _ => ?_)).trans ?_ | refine (rawCmds_held ..).trans ?_ | refine (putCtx_held ..).trans ?_ | refine (foldl_held _ (fun _ _ => ?_) _ _).trans ?_ | refine ite_held ?_ ?_ | refine ite_held2 ?_ ?_ | split
theorem rawDone_held (s : State) (x : Ctx) (bytes : List Byte) (status : Nat) :
    held (rawDone s x bytes status) = held s := by
  unfold rawDone
  try dsimp only
  with_reducible repeat' first | rfl | refine (putCtx_held ..).trans ?_ | refine (busCmd_held ..).trans ?_ | refine (countRead_held ..).trans ?_ | refine (rawProgram_held ..).trans ?_ | refine (rawErase_held ..).trans ?_ | refine (foldl_held _ (fun _ _ => ?_) _ _).trans ?_ | refine ite_held ?_ ?_ | refine ite_held2 ?_ ?_ | split
theorem mrdDone_held (s : State) (x : Ctx) :
    held (mrdDone s x) = held s := by
  unfold mrdDone
  with_reducible repeat' first | rfl | refine (putCtx_held ..).trans ?_
theorem mcmpDone_held (s : State) (x : Ctx) :
    held (mcmpDone s x) = held s := by
  unfold mcmpDone
  with_reducible repeat' first | rfl | refine (putCtx_held ..).trans ?_
theorem mcasDone_held (s : State) (x : Ctx) :
    held (mcasDone s x) = held s := by
  unfold mcasDone
  dsimp only
  with_reducible repeat' first | rfl | refine (putCtx_held ..).trans ?_ | refine (putGranules_held ..).trans ?_ | refine (modCtx_held ..).trans ?_ | refine (commitAtom_held ..).trans ?_ | split
theorem rcallDone_held (s : State) (x : Ctx) :
    held (rcallDone s x) = held s := by
  unfold rcallDone
  with_reducible repeat' first | rfl | refine (putCtx_held ..).trans ?_
theorem mwrNext_held (s : State) (x : Ctx) :
    held (mwrNext s x) = held s := by
  unfold mwrNext
  with_reducible repeat' first | rfl | refine (putCtx_held ..).trans ?_ | refine (putGranules_held ..).trans ?_ | refine (modCtx_held ..).trans ?_ | split
theorem retireInstr_held (s : State) (x : Ctx) (bytes : List Byte) (status : Nat) :
    held (retireInstr s x bytes status) = held s := by
  unfold retireInstr
  dsimp only
  with_reducible repeat' first | rfl | refine (endTransfer_held ..).trans ?_ | refine (putCtx_held ..).trans ?_ | refine (hostOut_held ..).trans ?_ | refine (mrdDone_held ..).trans ?_ | refine (mcmpDone_held ..).trans ?_ | refine (mcasDone_held ..).trans ?_ | refine (mwrNext_held ..).trans ?_ | refine (applySet_held ..).trans ?_ | refine (rcallDone_held ..).trans ?_ | refine (rawDone_held ..).trans ?_ | split
theorem execWaitComplete_held (c : Nat) (bytes : List Byte) (status : Nat) (s : State) {t : State} (h : execWaitComplete c bytes status s = .next t) :
    held t = held s := by
  cases h
  with_reducible repeat' first | rfl | refine (retireInstr_held ..).trans ?_ | split
theorem postUnverified_held (s : State) (x : Ctx) :
    held (postUnverified s x) = held s := by
  unfold postUnverified
  with_reducible repeat' first | rfl | refine (endWith_held ..).trans ?_ | refine (modCtx_held ..).trans ?_
theorem postAbort_held (s : State) (x : Ctx) :
    held (postAbort s x) = held s := by
  unfold postAbort
  with_reducible repeat' first | rfl | refine (post_held ..).trans ?_ | refine (tryComplete_held ..).trans ?_ | refine ite_held ?_ ?_
theorem execPost_held (c : Nat) (s : State) {t : State} (h : execPost c s = .next t) :
    held t = held s := by
  cases h
  with_reducible repeat' first | rfl | refine (issue_held _ _ _ _ _ (fun _ _ _ => ?_)).trans ?_ | refine (post_held ..).trans ?_ | refine (putCtx_held ..).trans ?_ | refine (postUnverified_held ..).trans ?_ | refine (postAbort_held ..).trans ?_ | split
theorem darkAccess_held (s : State) (n : Nat) (o : Nat) (write : Bool) :
    held (darkAccess s n o write) = held s := by
  unfold darkAccess
  with_reducible repeat' first | rfl | refine (updDay_held ..).trans ?_ | refine (modFn_held ..).trans ?_ | refine (raiseIn_held ..).trans ?_
theorem execDarkDomainAccess_held (fn : Nat) (offset : Nat) (write : Bool) (s : State) {t : State} (h : execDarkDomainAccess fn offset write s = .next t) :
    held t = held s := by
  cases h
  with_reducible repeat' first | rfl | refine (darkAccess_held ..).trans ?_ | refine (emit_held ..).trans ?_ | refine ite_held ?_ ?_
theorem geventClear_held (s : State) (n : Nat) (v : BitVec 32) :
    held (geventClear s n v) = held s := rfl
theorem execGeventWrite_held (fn : Nat) (value : BitVec 32) (coincident : BitVec 8) (dark : Option (Nat × Bool)) (s : State) {t : State} (h : execGeventWrite fn value coincident dark s = .next t) :
    held t = held s := by
  cases h
  with_reducible repeat' first | rfl | refine (geventClear_held ..).trans ?_ | refine (event_held ..).trans ?_ | refine (darkAccess_held ..).trans ?_ | refine (foldl_held _ (fun _ _ => ?_) _ _).trans ?_ | split
theorem geventCfg_held (s : State) (n : Nat) (v : BitVec 32) :
    held (geventCfg s n v) = held s := by
  unfold geventCfg
  with_reducible repeat' first | rfl | refine (modFn_held ..).trans ?_ | refine (sendMsix_held ..).trans ?_ | refine (foldl_held _ (fun _ _ => ?_) _ _).trans ?_ | split
theorem execGeventCfgWrite_held (fn : Nat) (value : BitVec 32) (s : State) {t : State} (h : execGeventCfgWrite fn value s = .next t) :
    held t = held s := by
  cases h
  with_reducible repeat' first | rfl | refine (geventCfg_held ..).trans ?_
theorem dbError_held (s : State) (fn : Nat) (loc : Nat) :
    held (dbError s fn loc) = held s := rfl
theorem sqTailWrite_held (s : State) (fn : Nat) (loc : Nat) (v : BitVec 32) :
    held (sqTailWrite s fn loc v) = held s := by
  unfold sqTailWrite
  dsimp only
  with_reducible repeat' first | rfl | refine (dbError_held ..).trans ?_ | refine (modLink_held ..).trans ?_ | refine (modRing_held ..).trans ?_ | split
theorem cqHeadWrite_held (s : State) (fn : Nat) (loc : Nat) (v : BitVec 32) :
    held (cqHeadWrite s fn loc v) = held s := by
  unfold cqHeadWrite
  dsimp only
  with_reducible repeat' first | rfl | refine (dbError_held ..).trans ?_ | refine (modLink_held ..).trans ?_ | refine (modRing_held ..).trans ?_ | split
theorem rstatWrite_held (s : State) (fn : Nat) (loc : Nat) (v : BitVec 32) :
    held (rstatWrite s fn loc v) = held s := by
  unfold rstatWrite
  with_reducible repeat' first | rfl | refine (modFn_held ..).trans ?_ | refine ite_held ?_ ?_
theorem execCqHead_held (fn : Nat) (loc : Nat) (value : BitVec 32) (s : State) {t : State} (h : execCqHead fn loc value s = .next t) :
    held t = held s := by
  cases h
  with_reducible repeat' first | rfl | refine (cqHeadWrite_held ..).trans ?_
theorem execRstatClear_held (fn : Nat) (loc : Nat) (value : BitVec 32) (s : State) {t : State} (h : execRstatClear fn loc value s = .next t) :
    held t = held s := by
  cases h
  with_reducible repeat' first | rfl | refine (darkAccess_held ..).trans ?_ | refine (rstatWrite_held ..).trans ?_ | refine ite_held ?_ ?_
theorem dropKept_held (s : State) (g : Nat) :
    held (dropKept s g) = held s := by
  unfold dropKept
  try dsimp only
  with_reducible repeat' first | rfl | refine (modFn_held ..).trans ?_ | refine (complete_held ..).trans ?_ | refine (modRing_held ..).trans ?_ | refine (foldl_held _ (fun _ _ => ?_) _ _).trans ?_ | refine ite_held ?_ ?_ | refine ite_held2 ?_ ?_ | split
theorem markResetting_held (s : State) (g : Nat) (by_ : Option Nat) :
    held (markResetting s g by_) = held s := by
  unfold markResetting
  with_reducible repeat' first | rfl | refine (modRing_held ..).trans ?_
theorem startRingReset_held (s : State) (g : Nat) (by_ : Option Nat) :
    held (startRingReset s g by_) = held s := by
  unfold startRingReset
  with_reducible repeat' first | rfl | refine (markResetting_held ..).trans ?_ | refine (dropKept_held ..).trans ?_ | refine (abortCtx_held ..).trans ?_ | refine (modCtx_held ..).trans ?_ | refine (foldl_held _ (fun _ _ => ?_) _ _).trans ?_ | refine ite_held ?_ ?_
theorem aringEnable_held (s : State) (fn : Nat) :
    held (aringEnable s fn) = held s := by
  unfold aringEnable
  dsimp only
  with_reducible repeat' first | rfl | refine (modFn_held ..).trans ?_ | split
theorem aringReset_held (s : State) (fn : Nat) :
    held (aringReset s fn) = held s := by
  unfold aringReset
  with_reducible repeat' first | rfl | refine (startRingReset_held ..).trans ?_ | split
theorem aringDisable_held (s : State) (fn : Nat) :
    held (aringDisable s fn) = held s := by
  unfold aringDisable
  with_reducible repeat' first | rfl | refine (modFn_held ..).trans ?_ | refine (startRingReset_held ..).trans ?_ | split
theorem execAringReady_held (fn : Nat) (s : State) {t : State} (h : execAringReady fn s = .next t) :
    held t = held s := by
  cases h
  with_reducible repeat' first | rfl | refine (addRing_held ..).trans ?_ | refine (modFn_held ..).trans ?_ | split
theorem execAringEnable_held (fn : Nat) (s : State) {t : State} (h : execAringEnable fn s = .next t) :
    held t = held s := by
  cases h
  with_reducible repeat' first | rfl | refine (darkAccess_held ..).trans ?_ | refine (aringEnable_held ..).trans ?_ | refine ite_held ?_ ?_
theorem execAringReset_held (fn : Nat) (s : State) {t : State} (h : execAringReset fn s = .next t) :
    held t = held s := by
  cases h
  with_reducible repeat' first | rfl | refine (darkAccess_held ..).trans ?_ | refine (aringReset_held ..).trans ?_ | refine ite_held ?_ ?_
theorem execAringDisable_held (fn : Nat) (s : State) {t : State} (h : execAringDisable fn s = .next t) :
    held t = held s := by
  cases h
  with_reducible repeat' first | rfl | refine (darkAccess_held ..).trans ?_ | refine (aringDisable_held ..).trans ?_ | refine ite_held ?_ ?_
theorem aringCtrl_held (s : State) (fn : Nat) (v : BitVec 32) :
    held (aringCtrl s fn v) = held s := by
  unfold aringCtrl
  with_reducible repeat' first | rfl | refine (aringDisable_held ..).trans ?_ | refine (aringReset_held ..).trans ?_ | refine (aringEnable_held ..).trans ?_ | split
theorem msixDrain_held (s : State) (n : Nat) (v : Nat) :
    held (msixDrain s n v) = held s := by
  unfold msixDrain
  with_reducible repeat' first | rfl | refine (emit_held ..).trans ?_ | refine (modFn_held ..).trans ?_ | split
theorem msixDrainAll_held (s : State) (n : Nat) :
    held (msixDrainAll s n) = held s := by
  unfold msixDrainAll
  with_reducible repeat' first | rfl | refine (msixDrain_held ..).trans ?_ | refine (foldl_held _ (fun _ _ => ?_) _ _).trans ?_ | split
theorem execMsixUnmask_held (fn : Nat) (vec : Option Nat) (s : State) {t : State} (h : execMsixUnmask fn vec s = .next t) :
    held t = held s := by
  cases h
  with_reducible repeat' first | rfl | refine (msixDrain_held ..).trans ?_ | refine (modFn_held ..).trans ?_ | refine (msixDrainAll_held ..).trans ?_ | split
theorem msixWrite_held (s : State) (n : Nat) (v : Nat) (part : Nat) (val : BitVec 32) :
    held (msixWrite s n v part val) = held s := by
  unfold msixWrite
  with_reducible repeat' first | rfl | refine (msixDrain_held ..).trans ?_ | refine (modFn_held ..).trans ?_ | split
theorem hostRead_held (s : State) (n : Nat) (o : Nat) :
    held (hostRead s n o).2 = held s := by
  unfold hostRead
  with_reducible repeat' first | rfl | refine (darkAccess_held ..).trans ?_ | refine (modFn_held ..).trans ?_ | split
theorem hostReads_held (n : Nat) (a1 : Nat) (a2 : Nat) (a3 : State) :
    held (hostReads n a1 a2 a3).2 = held a3 := by
  induction a2 generalizing a1 a3 with
  | zero => rfl
  | succ k ih =>
    rw [hostReads]
    split
    rename_i v s1 e1
    split
    rename_i r s2 e2
    have h1 := hostRead_held a3 n a1
    have h2 := ih (a1 + 4) s1
    rw [e1] at h1
    rw [e2] at h2
    exact h2.trans h1
theorem execLatchingRead_held (fn : Nat) (offset : Nat) (bytes : Nat) (s : State) {t : State} (h : execLatchingRead fn offset bytes s = .next t) :
    held t = held s := by
  unfold execLatchingRead at h
  split at h
  · cases h
  · cases h
    split
    · rfl
    · exact (emit_held _ _).trans (hostReads_held _ _ _ _)
theorem baseWrite_held (s : State) (n : Nat) (o : Nat) (v : BitVec 32) :
    held (baseWrite s n o v) = held s := by
  unfold baseWrite
  with_reducible repeat' first | rfl | refine (modFn_held ..).trans ?_ | split
theorem hostWrite_held (s : State) (n : Nat) (o : Nat) (v : BitVec 32) :
    held (hostWrite s n o v) = held s := by
  unfold hostWrite
  dsimp only
  with_reducible repeat' first | rfl | refine (darkAccess_held ..).trans ?_ | refine (geventClear_held ..).trans ?_ | refine (geventCfg_held ..).trans ?_ | refine (baseWrite_held ..).trans ?_ | refine (modFn_held ..).trans ?_ | refine (aringCtrl_held ..).trans ?_ | refine (sqTailWrite_held ..).trans ?_ | refine (rstatWrite_held ..).trans ?_ | refine (cqHeadWrite_held ..).trans ?_ | refine (msixWrite_held ..).trans ?_ | split
theorem hostWrites_held (n : Nat) (a1 : Nat) (a2 : Nat) (a3 : Nat) (a4 : State) :
    held (hostWrites n a1 a2 a3 a4) = held a4 := by
  induction a3 generalizing a1 a2 a4 with
  | zero => rfl
  | succ k ih =>
    unfold hostWrites
    try dsimp only
    with_reducible repeat' (first | rfl | refine (foldl_held _ (fun _ _ => ?_) _ _).trans ?_ | refine ite_held ?_ ?_ | refine ite_held2 ?_ ?_ | refine (updBeatFrac_held _ _).trans ?_ | refine (updFns_held _ _).trans ?_ | refine (updLinks_held _ _).trans ?_ | refine (updRings_held _ _).trans ?_ | refine (updPlan_held _ _).trans ?_ | refine (updCtxs_held _ _).trans ?_ | refine (updZci_held _ _).trans ?_ | refine (updXlat_held _ _).trans ?_ | refine (updMedia_held _ _).trans ?_ | refine (updCare_held _ _).trans ?_ | refine (updFlash_held _ _).trans ?_ | refine (updMovers_held _ _).trans ?_ | refine (updTwin_held _ _).trans ?_ | refine (updCane_held _ _).trans ?_ | refine (updPower_held _ _).trans ?_ | refine (updDay_held _ _).trans ?_ | refine (updTherm_held _ _).trans ?_ | refine (updNor_held _ _).trans ?_ | refine (updSide_held _ _).trans ?_ | refine (updNv_held _ _).trans ?_ | refine (updDue_held _ _).trans ?_ | refine (updOut_held _ _).trans ?_ | refine (updFreeCtr_held _ _).trans ?_ | refine (hostWrite_held ..).trans ?_ | refine (ih _ _ _).trans ?_ | split)
theorem barWrite_held (s : State) (fn : Nat) (offset : Nat) (bytes : Nat) (value : BitVec 64) :
    held (barWrite s fn offset bytes value) = held s := by
  unfold barWrite
  with_reducible repeat' first | rfl | refine (darkAccess_held ..).trans ?_ | refine (hostWrites_held ..).trans ?_ | refine ite_held ?_ ?_
theorem execCoalesceCheck_held (g : Nat) (s : State) {t : State} (h : execCoalesceCheck g s = .next t) :
    held t = held s := by
  cases h
  with_reducible repeat' first | rfl | refine (coalesce_held ..).trans ?_
theorem resident_held (s : State) (c : Nat) (typ : Nat) (op : Nat) (f : State → Ctx → State) (hf : ∀ u y1, held (f u y1) = held u) :
    held (resident s c typ op f) = held s := by
  unfold resident
  with_reducible repeat' first | rfl | refine (hf _ _).trans ?_ | split
theorem beginReads_held (s : State) (x : Ctx) :
    held (beginReads s x) = held s := by
  unfold beginReads
  with_reducible repeat' first | rfl | refine (modCtx_held ..).trans ?_ | refine (registerDeep_held ..).trans ?_ | split
theorem deliverReads_held (s : State) (x : Ctx) (k : Nat) :
    held (deliverReads s x k) = held s := by
  unfold deliverReads
  with_reducible repeat' first | rfl | refine (hostOut_held ..).trans ?_ | refine (foldl_held _ (fun _ _ => ?_) _ _).trans ?_ | refine ite_held ?_ ?_
theorem directRead_held (s : State) (x : Ctx) :
    held (directRead s x) = held s := by
  unfold directRead
  with_reducible repeat' first | rfl | refine (beginReads_held ..).trans ?_ | refine (residentPost_held ..).trans ?_ | refine (modCtx_held ..).trans ?_ | refine (beginTransfer_held ..).trans ?_ | refine (commitNow_held ..).trans ?_ | refine (endTransfer_held ..).trans ?_ | refine (deliverReads_held ..).trans ?_ | refine ite_held ?_ ?_
theorem execRead_held (c : Nat) (s : State) {t : State} (h : execRead c s = .next t) :
    held t = held s := by
  cases h
  with_reducible repeat' first | rfl | refine (resident_held _ _ _ _ _ (fun _ _ => ?_)).trans ?_ | refine (directRead_held ..).trans ?_
theorem directWrite_held (bytes : List Byte) (s : State) (x : Ctx) :
    held (directWrite bytes s x) = held s := by
  unfold directWrite
  dsimp only
  with_reducible repeat' first | rfl | refine (beginTransfer_held ..).trans ?_ | refine (modCtx_held ..).trans ?_ | refine (putGranules_held ..).trans ?_ | refine (commitNow_held ..).trans ?_ | refine (residentPost_held ..).trans ?_ | refine (endTransfer_held ..).trans ?_ | split
theorem execWrite_held (c : Nat) (bytes : List Byte) (s : State) {t : State} (h : execWrite c bytes s = .next t) :
    held t = held s := by
  cases h
  with_reducible repeat' first | rfl | refine (resident_held _ _ _ _ _ (fun _ _ => ?_)).trans ?_ | refine (directWrite_held ..).trans ?_
theorem execFlush_held (c : Nat) (s : State) {t : State} (h : execFlush c s = .next t) :
    held t = held s := by
  cases h
  with_reducible repeat' first | rfl | refine (resident_held _ _ _ _ _ (fun _ _ => ?_)).trans ?_ | refine (residentPost_held ..).trans ?_
theorem directUnmap_held (s : State) (x : Ctx) :
    held (directUnmap s x) = held s := by
  unfold directUnmap
  with_reducible repeat' first | rfl | refine (commitNow_held ..).trans ?_ | refine (modCtx_held ..).trans ?_ | refine (awaitMirror_held ..).trans ?_ | refine (unmapRange_held ..).trans ?_ | refine (residentPost_held ..).trans ?_ | split
theorem execTrim_held (c : Nat) (s : State) {t : State} (h : execTrim c s = .next t) :
    held t = held s := by
  cases h
  with_reducible repeat' first | rfl | refine (resident_held _ _ _ _ _ (fun _ _ => ?_)).trans ?_ | refine (directUnmap_held ..).trans ?_
theorem execZero_held (c : Nat) (s : State) {t : State} (h : execZero c s = .next t) :
    held t = held s := by
  cases h
  with_reducible repeat' first | rfl | refine (resident_held _ _ _ _ _ (fun _ _ => ?_)).trans ?_ | refine (directUnmap_held ..).trans ?_
theorem directCompare_held (bytes : List Byte) (s : State) (x : Ctx) :
    held (directCompare bytes s x) = held s := by
  unfold directCompare
  dsimp only
  with_reducible repeat' first | rfl | refine (beginReads_held ..).trans ?_ | refine (beginTransfer_held ..).trans ?_ | refine (modCtx_held ..).trans ?_ | refine (endTransfer_held ..).trans ?_ | refine (residentPost_held ..).trans ?_ | split
theorem execCompare_held (c : Nat) (bytes : List Byte) (s : State) {t : State} (h : execCompare c bytes s = .next t) :
    held t = held s := by
  cases h
  with_reducible repeat' first | rfl | refine (resident_held _ _ _ _ _ (fun _ _ => ?_)).trans ?_ | refine (directCompare_held ..).trans ?_
theorem execVerify_held (c : Nat) (s : State) {t : State} (h : execVerify c s = .next t) :
    held t = held s := by
  cases h
  with_reducible repeat' first | rfl | refine (resident_held _ _ _ _ _ (fun _ _ => ?_)).trans ?_ | refine (beginReads_held ..).trans ?_ | refine (residentPost_held ..).trans ?_ | refine (modCtx_held ..).trans ?_ | refine ite_held ?_ ?_
theorem stopTransfer_held (s : State) (x : Ctx) :
    held (stopTransfer s x) = held s := by
  unfold stopTransfer
  try dsimp only
  with_reducible repeat' first | rfl | refine (endTransfer_held ..).trans ?_ | refine (hostOut_held ..).trans ?_ | refine (deliverReads_held ..).trans ?_ | refine (foldl_held _ (fun _ _ => ?_) _ _).trans ?_ | refine ite_held ?_ ?_ | refine ite_held2 ?_ ?_ | split
theorem execCommandStop_held (c : Nat) (s : State) {t : State} (h : execCommandStop c s = .next t) :
    held t = held s := by
  cases h
  dsimp only
  with_reducible repeat' first | rfl | refine (updDay_held ..).trans ?_ | refine (applySet_held ..).trans ?_ | refine (dropDescs_held ..).trans ?_ | refine (stopTransfer_held ..).trans ?_ | refine (endWith_held ..).trans ?_ | refine (modCtx_held ..).trans ?_ | split
theorem startProgram_held (s : State) (c : Nat) (typ : Nat) :
    held (startProgram s c typ) = held s := by
  unfold startProgram
  with_reducible repeat' first | rfl | refine (modCtx_held ..).trans ?_ | split
theorem execLibraryProgram_held (c : Nat) (s : State) {t : State} (h : execLibraryProgram c s = .next t) :
    held t = held s := by
  cases h
  with_reducible repeat' first | rfl | refine (startProgram_held ..).trans ?_
theorem execHostMemoryProgram_held (c : Nat) (s : State) {t : State} (h : execHostMemoryProgram c s = .next t) :
    held t = held s := by
  cases h
  with_reducible repeat' first | rfl | refine (startProgram_held ..).trans ?_
theorem execGetSetting_held (c : Nat) (s : State) {t : State} (h : execGetSetting c s = .next t) :
    held t = held s := by
  cases h
  dsimp only
  with_reducible repeat' first | rfl | refine (resident_held _ _ _ _ _ (fun _ _ => ?_)).trans ?_ | refine (residentPost_held ..).trans ?_ | split
theorem execSetSetting_held (c : Nat) (s : State) {t : State} (h : execSetSetting c s = .next t) :
    held t = held s := by
  cases h
  try dsimp only
  with_reducible repeat' first | rfl | refine (resident_held _ _ _ _ _ (fun _ _ => ?_)).trans ?_ | refine (residentPost_held ..).trans ?_ | refine (modCtx_held ..).trans ?_ | refine (settingAppend_held ..).trans ?_ | refine (applySet_held ..).trans ?_ | refine (foldl_held _ (fun _ _ => ?_) _ _).trans ?_ | refine ite_held ?_ ?_ | refine ite_held2 ?_ ?_ | split
theorem execRingCreate_held (c : Nat) (s : State) {t : State} (h : execRingCreate c s = .next t) :
    held t = held s := by
  cases h
  with_reducible repeat' first | rfl | refine (resident_held _ _ _ _ _ (fun _ _ => ?_)).trans ?_ | refine (residentPost_held ..).trans ?_ | refine (addRing_held ..).trans ?_ | split
theorem execRingDelete_held (c : Nat) (s : State) {t : State} (h : execRingDelete c s = .next t) :
    held t = held s := by
  cases h
  with_reducible repeat' first | rfl | refine (resident_held _ _ _ _ _ (fun _ _ => ?_)).trans ?_ | refine (residentPost_held ..).trans ?_ | refine (freeRing_held ..).trans ?_ | split
theorem execRingReset_held (c : Nat) (s : State) {t : State} (h : execRingReset c s = .next t) :
    held t = held s := by
  cases h
  with_reducible repeat' first | rfl | refine (resident_held _ _ _ _ _ (fun _ _ => ?_)).trans ?_ | refine (startRingReset_held ..).trans ?_ | refine (modCtx_held ..).trans ?_ | split
theorem withholdFixed_held (s : State) (g : Nat) :
    held (withholdFixed s g) = held s := by
  unfold withholdFixed
  try dsimp only
  with_reducible repeat' first | rfl | refine (modCtx_held ..).trans ?_ | refine (modRing_held ..).trans ?_ | refine (foldl_held _ (fun _ _ => ?_) _ _).trans ?_ | refine ite_held ?_ ?_ | refine ite_held2 ?_ ?_ | split
theorem execRingResetComplete_held (g : Nat) (s : State) {t : State} (h : execRingResetComplete g s = .next t) :
    held t = held s := by
  cases h
  try dsimp only
  with_reducible repeat' first | rfl | refine (updPlan_held ..).trans ?_ | refine (withholdFixed_held ..).trans ?_ | refine (modRing_held ..).trans ?_ | refine (freeRing_held ..).trans ?_ | refine (modFn_held ..).trans ?_ | refine (residentPost_held ..).trans ?_ | refine (foldl_held _ (fun _ _ => ?_) _ _).trans ?_ | refine ite_held ?_ ?_ | refine ite_held2 ?_ ?_ | split
theorem execAbort_held (c : Nat) (s : State) {t : State} (h : execAbort c s = .next t) :
    held t = held s := by
  cases h
  with_reducible repeat' first | rfl | refine (residentPost_held ..).trans ?_ | refine (modCtx_held ..).trans ?_ | refine (abortNext_held ..).trans ?_ | refine (dropDescs_held ..).trans ?_ | split
theorem waitSys_held (s : State) (rs : List SlotRec) :
    held (waitSys s rs) = held s := by
  unfold waitSys
  with_reducible repeat' first | rfl | refine (updMedia_held ..).trans ?_
theorem execLibLoad_held (c : Nat) (bytes : List Byte) (s : State) {t : State} (h : execLibLoad c bytes s = .next t) :
    held t = held s := by
  cases h
  dsimp only
  with_reducible repeat' first | rfl | refine (updZci_held ..).trans ?_ | refine (resident_held _ _ _ _ _ (fun _ _ => ?_)).trans ?_ | refine (beginTransfer_held ..).trans ?_ | refine (modCtx_held ..).trans ?_ | refine (endTransfer_held ..).trans ?_ | refine (residentPost_held ..).trans ?_ | refine (norAppend_held ..).trans ?_ | refine (waitSys_held ..).trans ?_ | split
theorem execLibUnload_held (c : Nat) (s : State) {t : State} (h : execLibUnload c s = .next t) :
    held t = held s := by
  cases h
  with_reducible repeat' first | rfl | refine (updZci_held ..).trans ?_ | refine (resident_held _ _ _ _ _ (fun _ _ => ?_)).trans ?_ | refine (residentPost_held ..).trans ?_ | refine (norRetire_held ..).trans ?_ | refine ite_held ?_ ?_
theorem execLogRead_held (c : Nat) (s : State) {t : State} (h : execLogRead c s = .next t) :
    held t = held s := by
  cases h
  dsimp only
  with_reducible repeat' first | rfl | refine (resident_held _ _ _ _ _ (fun _ _ => ?_)).trans ?_ | refine (residentPost_held ..).trans ?_ | refine (beginTransfer_held ..).trans ?_ | refine (modCtx_held ..).trans ?_ | refine (endTransfer_held ..).trans ?_ | refine (hostOut_held ..).trans ?_ | split
theorem execDayEnter_held (c : Nat) (s : State) {t : State} (h : execDayEnter c s = .next t) :
    held t = held s := by
  cases h
  with_reducible repeat' first | rfl | refine (resident_held _ _ _ _ _ (fun _ _ => ?_)).trans ?_ | refine (residentPost_held ..).trans ?_ | refine (requestDay_held ..).trans ?_ | refine (storeNv_held ..).trans ?_ | refine (modCtx_held ..).trans ?_ | refine ite_held ?_ ?_
theorem bookEven_held (s : State) (r : Res) (sh : Share) (b : Nat) (n : Nat) (total : Nat) (owner : Nat) :
    held (bookEven s r sh b n total owner) = held s := by
  unfold bookEven
  with_reducible repeat' first | rfl | refine (book_held ..).trans ?_ | refine (foldl_held _ (fun _ _ => ?_) _ _).trans ?_
theorem queueOp_held (s : State) (d : Nat) (o : ArrayOp) :
    held (queueOp s d o) = held s := rfl
theorem bookXfer_held (s : State) (d : Nat) (n : Nat) (sh : Share) (t : Nat) (owner : Nat) :
    held (bookXfer s d n sh t owner) = held s := by
  unfold bookXfer
  with_reducible repeat' first | rfl | refine (book_held ..).trans ?_
theorem bookRead_held (s : State) (psa : Nat) (r : Nat) (n : Nat) (sh : Share) (t : Nat) (dline : Nat) (owner : Nat) :
    held (bookRead s psa r n sh t dline owner) = held s := by
  unfold bookRead
  with_reducible repeat' first | rfl | refine (queueOp_held ..).trans ?_ | refine (bookEven_held ..).trans ?_ | refine (bookXfer_held ..).trans ?_
theorem planSlot_held (s : State) (psa : Nat) (n : Nat) (sh : Share) (b : Nat) (limit : Nat) (dline : Nat) (owner : Nat) {p0 : _} {t : State} (h : planSlot s psa n sh b limit dline owner = some (p0, t)) :
    held t = held s := by
  unfold planSlot at h
  (repeat' first | cases h | split at h) <;> with_reducible repeat' first | rfl | refine (bookRead_held ..).trans ?_
theorem aroundFold_held (n : Nat) (sh : Share) (b limit dline owner : Nat) (l : List Nat) (m : Option (Nat × State)) (x : Held)
    (hm : ∀ e u, m = some (e, u) → held u = x) (e : Nat) (t : State)
    (h : l.foldl (fun m q => match m with
      | none => none
      | some (e, s1) => match planSlot s1 q n sh b limit dline owner with
        | none => none
        | some (e1, s2) => some (max e e1, s2)) m = some (e, t)) : held t = x := by
  induction l generalizing m with
  | nil => exact hm e t h
  | cons q l ih => exact ih _ (by grind [→ planSlot_held]) h
theorem planAround_held (s : State) (psa : Nat) (n : Nat) (sh : Share) (b : Nat) (limit : Nat) (dline : Nat) (owner : Nat) {p0 : _} {t : State} (h : planAround s psa n sh b limit dline owner = some (p0, t)) :
    held t = held s := by
  unfold planAround at h
  split at h
  · cases h
  · exact aroundFold_held n sh b limit dline owner _ _ _ (fun _ _ e => by cases e; rfl) _ _ h
theorem suspendFor_held (s : State) (psa : Nat) (n : Nat) (b : Nat) (limit : Nat) (dline : Nat) (owner : Nat) (o : ArrayOp) {p0 : _} {t : State} (h : suspendFor s psa n b limit dline owner o = some (p0, t)) :
    held t = held s := by
  unfold suspendFor at h
  try dsimp only at h
  (repeat' first | cases h | split at h) <;> with_reducible repeat' first | rfl | refine (modDie_held ..).trans ?_ | refine (bookEven_held ..).trans ?_ | refine (queueOp_held ..).trans ?_ | refine (bookXfer_held ..).trans ?_ | refine (foldl_held _ (fun _ _ => ?_) _ _).trans ?_ | refine ite_held ?_ ?_ | refine ite_held2 ?_ ?_ | split
theorem planSuspend_held (s : State) (psa : Nat) (n : Nat) (b : Nat) (limit : Nat) (dline : Nat) (owner : Nat) {p0 : _} {t : State} (h : planSuspend s psa n b limit dline owner = some (p0, t)) :
    held t = held s := by
  unfold planSuspend at h
  refine firstFold_held _ _ (fun m a p t e => ?_) _ none (fun _ _ e => by cases e) _ _ h
  cases m with
  | none => exact .inr (suspendFor_held _ _ _ _ _ _ _ _ e)
  | some r => exact .inl e
theorem shareRead_held (s : State) (psa : Nat) (n : Nat) (b : Nat) (limit : Nat) (owner : Nat) {p0 : _} {t : State} (h : shareRead s psa n b limit owner = some (p0, t)) :
    held t = held s := by
  unfold shareRead at h
  dsimp only at h
  (repeat' first | cases h | split at h) <;> with_reducible repeat' first | rfl | refine (bookXfer_held ..).trans ?_
theorem setSlot_held (s : State) (c : Nat) (gran : Nat) (part : Nat) (d : Deliver) :
    held (setSlot s c gran part d) = held s := rfl
theorem slipCommit_held (s : State) (c : Nat) :
    held (slipCommit s c) = held s := rfl
theorem releaseLadder_held (s : State) (c : Nat) (psa : Nat) :
    held (releaseLadder s c psa) = held s := by
  unfold releaseLadder
  with_reducible repeat' first | rfl | refine (updPlan_held ..).trans ?_ | split
theorem fallbackSlot_held (s0 : State) (c : Nat) (gran : Nat) (part : Nat) :
    held (fallbackSlot s0 c gran part) = held s0 := by
  unfold fallbackSlot
  dsimp only
  with_reducible repeat' first | rfl | refine (slipCommit_held ..).trans ?_ | refine (setSlot_held ..).trans ?_ | refine (registerDeep_held ..).trans ?_ | refine (planAround_held _ _ _ _ _ _ _ _ (by assumption)).trans ?_ | split
theorem fallbackWhere_held (s : State) (p : Nat → Bool) :
    held (fallbackWhere s p) = held s := by
  unfold fallbackWhere
  with_reducible repeat' first | rfl | refine (fallbackSlot_held ..).trans ?_ | refine (foldl_held _ (fun _ _ => ?_) _ _).trans ?_
theorem aroundLost_held (s : State) :
    held (aroundLost s) = held s := by
  unfold aroundLost
  with_reducible repeat' first | rfl | refine (fallbackSlot_held ..).trans ?_ | refine (foldl_held _ (fun _ _ => ?_) _ _).trans ?_
theorem deepEnd_held (s : State) (y : Ctx) :
    held (deepEnd s y) = held s := by
  unfold deepEnd
  try dsimp only
  with_reducible repeat' first | rfl | refine (endTransfer_held ..).trans ?_ | refine (deliverReads_held ..).trans ?_ | refine (endWith_held ..).trans ?_ | refine (foldl_held _ (fun _ _ => ?_) _ _).trans ?_ | refine ite_held ?_ ?_ | refine ite_held2 ?_ ?_ | split
theorem endAtDeadline_held (s : State) (x : Ctx) :
    held (endAtDeadline s x) = held s := by
  unfold endAtDeadline
  with_reducible repeat' first | rfl | refine (updNor_held ..).trans ?_ | refine (postUnverified_held ..).trans ?_ | refine (residentPost_held ..).trans ?_ | refine (dropDescs_held ..).trans ?_ | refine (deepEnd_held ..).trans ?_ | refine (modCtx_held ..).trans ?_ | refine (faultCtx_held ..).trans ?_ | refine ite_held ?_ ?_
theorem wearCheck_held (s : State) :
    held (wearCheck s) = held s := by
  unfold wearCheck
  with_reducible repeat' first | rfl | refine (updCare_held ..).trans ?_ | refine (event_held ..).trans ?_ | refine ite_held ?_ ?_
theorem retireBlock_held (s : State) (die : Nat) (block : Nat) (cause : Nat) :
    held (retireBlock s die block cause) = held s := by
  unfold retireBlock
  with_reducible repeat' first | rfl | refine (updCare_held ..).trans ?_ | refine (modBlock_held ..).trans ?_ | refine (wearCheck_held ..).trans ?_
theorem countPfail_held (s : State) (die : Nat) (block : Nat) :
    held (countPfail s die block) = held s := rfl
theorem startBand_held (s : State) (b0 : Band) (cols : List (Nat × Nat)) (pmode : Nat) {p0 : _} {t : State} (h : startBand s b0 cols pmode = some (p0, t)) :
    held t = held s := by
  unfold startBand at h
  (repeat' first | cases h | split at h) <;> with_reducible repeat' first | rfl | refine (updMedia_held ..).trans ?_ | refine (modBlock_held ..).trans ?_ | refine (journalPlain_held ..).trans ?_ | refine (foldl_held _ (fun _ _ => ?_) _ _).trans ?_
theorem openBand_held (s : State) (profile : Nat) (cold : Bool) (sideB : Bool) {p0 : _} {t : State} (h : openBand s profile cold sideB = some (p0, t)) :
    held t = held s := by
  unfold openBand at h
  try dsimp only at h
  (repeat' first | cases h | split at h) <;> with_reducible repeat' first | rfl | refine (foldl_held _ (fun _ _ => ?_) _ _).trans ?_ | refine ite_held ?_ ?_ | refine ite_held2 ?_ ?_ | refine (startBand_held _ _ _ _ (by assumption)).trans ?_ | split
theorem putSlot_held (s : State) (b : Band) (psa : Nat) (r : SlotRec) :
    held (putSlot s b psa r) = held s := by
  unfold putSlot
  with_reducible repeat' first | rfl | refine (updMedia_held ..).trans ?_ | refine (useKey_held ..).trans ?_
theorem writeParity_held (s : State) (b : Band) (p : Nat) :
    held (writeParity s b p) = held s := by
  unfold writeParity
  with_reducible repeat' first | rfl | refine (putSlot_held ..).trans ?_ | refine (foldl_held _ (fun _ _ => ?_) _ _).trans ?_ | refine ite_held ?_ ?_
theorem opTake_held (s : State) (r : Res) (sh : Share) (b : Nat) (k : Nat) :
    held (opTake s r sh b k) = held s := by
  unfold opTake
  try dsimp only
  with_reducible repeat' first | rfl | refine (updPlan_held ..).trans ?_ | refine (book_held ..).trans ?_ | refine (foldl_held _ (fun _ _ => ?_) _ _).trans ?_ | refine ite_held ?_ ?_ | refine ite_held2 ?_ ?_ | split
theorem startOp_held (s : State) (d : Nat) (t : Nat) (o : ArrayOp) :
    held (startOp s d t o) = held s := by
  unfold startOp
  try dsimp only
  with_reducible repeat' first | rfl | refine (bookEven_held ..).trans ?_ | refine (queueOp_held ..).trans ?_ | refine (opTake_held ..).trans ?_ | refine (foldl_held _ (fun _ _ => ?_) _ _).trans ?_ | refine ite_held ?_ ?_ | refine ite_held2 ?_ ?_ | split
theorem placeOp_held (s : State) (d : Nat) (b : Nat) (last : Nat) (o : ArrayOp) {t : State} (h : placeOp s d b last o = some t) :
    held t = held s := by
  unfold placeOp at h
  grind [startOp_held, Option.map_eq_some_iff, Option.bind_eq_some_iff]
theorem layXfers_held (d : Nat) (last : Nat) (sh : Share) (a3 : Nat) (a4 : State) (a5 : Nat) (a6 : Nat) {p0 : _} {t : State} (h : layXfers d last sh a3 a4 a5 a6 = some (p0, t)) :
    held t = held a4 := by
  induction a3 generalizing a4 a5 a6 with
  | zero => cases h
  | succ k ih =>
    unfold layXfers at h
    split at h
    · cases h
      rfl
    · split at h
      · cases h
      · exact (ih _ _ _ h).trans ((opTake_held _ _ _ _ _).trans ((opTake_held _ _ _ _ _).trans (book_held _ _ _ _ _ _)))
theorem mergeOp_held (s : State) (d : Nat) (n : Nat) (o : ArrayOp) {t : State} (h : mergeOp s d n o = some t) :
    held t = held s := by
  unfold mergeOp at h
  grind [modDie_held, → layXfers_held, Option.map_eq_some_iff, Option.bind_eq_some_iff]
theorem bookNow_held (s : State) (d : Nat) (n : Nat) (o : ArrayOp) {t : State} (h : bookNow s d n o = some t) :
    held t = held s := by
  unfold bookNow at h
  grind [→ mergeOp_held, → layXfers_held, → placeOp_held, Option.map_eq_some_iff, Option.bind_eq_some_iff]
theorem bookOp_held (s : State) (d : Nat) (n : Nat) (o : ArrayOp) :
    held (bookOp s d n o) = held s := by
  unfold bookOp
  try dsimp only
  with_reducible repeat' first | rfl | refine (updFlash_held ..).trans ?_ | refine (foldl_held _ (fun _ _ => ?_) _ _).trans ?_ | refine ite_held ?_ ?_ | refine ite_held2 ?_ ?_ | refine (bookNow_held _ _ _ _ (by assumption)).trans ?_ | split
theorem retryOps_held (s : State) (care : Bool) :
    held (retryOps s care) = held s := by
  unfold retryOps
  try dsimp only
  with_reducible repeat' first | rfl | refine (updFlash_held ..).trans ?_ | refine (bookOp_held ..).trans ?_ | refine (foldl_held _ (fun _ _ => ?_) _ _).trans ?_ | refine ite_held ?_ ?_ | refine ite_held2 ?_ ?_ | split
theorem programWl_held (s : State) (b : Band) (page : Nat) :
    held (programWl s b page) = held s := by
  unfold programWl
  with_reducible repeat' first | rfl | refine (layXfers_held ..).trans ?_ | refine (bookOp_held ..).trans ?_ | refine (foldl_held _ (fun _ _ => ?_) _ _).trans ?_
theorem fillStripe_held (s : State) (b : Band) :
    held (fillStripe s b) = held s := by
  unfold fillStripe
  with_reducible repeat' first | rfl | refine (putSlot_held ..).trans ?_ | refine (modBand_held ..).trans ?_ | refine (writeParity_held ..).trans ?_ | refine (foldl_held _ (fun _ _ => ?_) _ _).trans ?_
theorem closeStripe_held (s : State) (serial : Nat) :
    held (closeStripe s serial) = held s := by
  unfold closeStripe
  with_reducible repeat' first | rfl | refine (fillStripe_held ..).trans ?_ | refine (programWl_held ..).trans ?_ | split
theorem placeSummary_held (s : State) (serial : Nat) (r : SlotRec) :
    held (placeSummary s serial r) = held s := by
  unfold placeSummary
  dsimp only
  with_reducible repeat' first | rfl | refine (putSlot_held ..).trans ?_ | refine (closeStripe_held ..).trans ?_ | split
theorem closeRest_held (a0 : Nat) (a1 : State) (a2 : Nat) :
    held (closeRest a0 a1 a2) = held a1 := by
  induction a0 generalizing a1 with
  | zero => rfl
  | succ k ih =>
    unfold closeRest
    try dsimp only
    with_reducible repeat' (first | rfl | refine (foldl_held _ (fun _ _ => ?_) _ _).trans ?_ | refine ite_held ?_ ?_ | refine ite_held2 ?_ ?_ | refine (updBeatFrac_held _ _).trans ?_ | refine (updFns_held _ _).trans ?_ | refine (updLinks_held _ _).trans ?_ | refine (updRings_held _ _).trans ?_ | refine (updPlan_held _ _).trans ?_ | refine (updCtxs_held _ _).trans ?_ | refine (updZci_held _ _).trans ?_ | refine (updXlat_held _ _).trans ?_ | refine (updMedia_held _ _).trans ?_ | refine (updCare_held _ _).trans ?_ | refine (updFlash_held _ _).trans ?_ | refine (updMovers_held _ _).trans ?_ | refine (updTwin_held _ _).trans ?_ | refine (updCane_held _ _).trans ?_ | refine (updPower_held _ _).trans ?_ | refine (updDay_held _ _).trans ?_ | refine (updTherm_held _ _).trans ?_ | refine (updNor_held _ _).trans ?_ | refine (updSide_held _ _).trans ?_ | refine (updNv_held _ _).trans ?_ | refine (updDue_held _ _).trans ?_ | refine (updOut_held _ _).trans ?_ | refine (updFreeCtr_held _ _).trans ?_ | refine (closeStripe_held ..).trans ?_ | refine (ih _).trans ?_ | split)
theorem closeBand_held (s : State) (serial : Nat) :
    held (closeBand s serial) = held s := by
  unfold closeBand
  with_reducible repeat' first | rfl | refine (placeSummary_held ..).trans ?_ | refine (closeRest_held ..).trans ?_ | refine (markClosed_held ..).trans ?_ | refine (modBand_held ..).trans ?_ | refine (foldl_held _ (fun _ _ => ?_) _ _).trans ?_ | split
theorem bandFor_held (s : State) (profile : Nat) (cold : Bool) (sideB : Bool) {p0 : _} {t : State} (h : bandFor s profile cold sideB = some (p0, t)) :
    held t = held s := by
  unfold bandFor at h
  (repeat' first | cases h | split at h) <;> with_reducible repeat' first | rfl | refine (openBand_held _ _ _ _ (by assumption)).trans ?_
theorem takeAcc_held (s : State) (serial : Nat) :
    held (takeAcc s serial) = held s := rfl
theorem closeFull_held (s : State) (serial : Nat) :
    held (closeFull s serial) = held s := by
  unfold closeFull
  with_reducible repeat' first | rfl | refine (markClosed_held ..).trans ?_ | refine (closeBand_held ..).trans ?_ | split
theorem placeIn_held (s : State) (serial : Nat) (early : Bool) (rs : List SlotRec) {p0 : _} {t : State} (h : placeIn s serial early rs = some (p0, t)) :
    held t = held s := by
  unfold placeIn at h
  dsimp only at h
  (repeat' first | cases h | split at h) <;> with_reducible repeat' first | rfl | refine (closeStripe_held ..).trans ?_ | refine (putSlot_held ..).trans ?_ | refine (takeAcc_held ..).trans ?_ | refine (modBand_held ..).trans ?_ | refine (closeFull_held ..).trans ?_ | refine (foldl_held _ (fun _ _ => ?_) _ _).trans ?_ | split
theorem placeRecs_held (s : State) (profile : Nat) (cold : Bool) (sideB : Bool) (early : Bool) (rs : List SlotRec) {p0 : _} {t : State} (h : placeRecs s profile cold sideB early rs = some (p0, t)) :
    held t = held s := by
  unfold placeRecs at h
  (repeat' first | cases h | split at h) <;> with_reducible repeat' first | rfl | refine (bandFor_held _ _ _ _ (by assumption)).trans ?_ | refine (placeIn_held _ _ _ _ (by assumption)).trans ?_
theorem placeGather_held (s : State) (slot : Nat) :
    held (placeGather s slot) = held s := by
  unfold placeGather
  dsimp only
  with_reducible repeat' first | rfl | refine (updXlat_held ..).trans ?_ | refine (placeRecs_held _ _ _ _ _ _ (by assumption)).trans ?_ | split
theorem placeCopy_held (s : State) (ns : Namespace) (psa : Nat) {p0 : _} {t : State} (h : placeCopy s ns psa = some (p0, t)) :
    held t = held s := by
  unfold placeCopy at h
  dsimp only at h
  (repeat' first | cases h | split at h) <;> with_reducible repeat' first | rfl | refine (placeRecs_held _ _ _ _ _ _ (by assumption)).trans ?_
theorem bookUpdate_held (s : State) :
    held (bookUpdate s) = held s := by
  unfold bookUpdate
  try dsimp only
  with_reducible repeat' first | rfl | refine (book_held ..).trans ?_ | refine (foldl_held _ (fun _ _ => ?_) _ _).trans ?_ | refine ite_held ?_ ?_ | refine ite_held2 ?_ ?_ | split
theorem verifySlot_held (s : State) (psa : Nat) :
    held (verifySlot s psa) = held s := by
  unfold verifySlot
  try dsimp only
  with_reducible repeat' first | rfl | refine (updXlat_held ..).trans ?_ | refine (updCare_held ..).trans ?_ | refine (journalAdd_held ..).trans ?_ | refine (setEntry_held ..).trans ?_ | refine (bookUpdate_held ..).trans ?_ | refine (sweepGather_held ..).trans ?_ | refine (foldl_held _ (fun _ _ => ?_) _ _).trans ?_ | refine ite_held ?_ ?_ | refine ite_held2 ?_ ?_ | split
theorem conditionalUpdate_held (s : State) (psa : Nat) :
    held (conditionalUpdate s psa) = held s := by
  unfold conditionalUpdate
  try dsimp only
  with_reducible repeat' first | rfl | refine (updCare_held ..).trans ?_ | refine (updXlat_held ..).trans ?_ | refine (journalAdd_held ..).trans ?_ | refine (setEntry_held ..).trans ?_ | refine (bookUpdate_held ..).trans ?_ | refine (foldl_held _ (fun _ _ => ?_) _ _).trans ?_ | refine ite_held ?_ ?_ | refine ite_held2 ?_ ?_ | split
theorem conditionalUpdates_held (s : State) :
    held (conditionalUpdates s) = held s := by
  unfold conditionalUpdates
  try dsimp only
  with_reducible repeat' first | rfl | refine (updCare_held ..).trans ?_ | refine (conditionalUpdate_held ..).trans ?_ | refine (foldl_held _ (fun _ _ => ?_) _ _).trans ?_ | refine ite_held ?_ ?_ | refine ite_held2 ?_ ?_ | split
theorem releaseAcc_held (s : State) (serial : Nat) :
    held (releaseAcc s serial) = held s := by
  unfold releaseAcc
  dsimp only
  with_reducible repeat' first | rfl | refine (modBand_held ..).trans ?_ | split
theorem verifyJournal_held (s : State) (psa : Nat) :
    held (verifyJournal s psa) = held s := by
  unfold verifyJournal
  with_reducible repeat' first | rfl | refine (updXlat_held ..).trans ?_
theorem verifyStripe_held (s : State) (b : Band) (p : Nat) :
    held (verifyStripe s b p) = held s := by
  unfold verifyStripe
  with_reducible repeat' first | rfl | refine (verifyJournal_held ..).trans ?_ | refine (verifySlot_held ..).trans ?_ | refine (foldl_held _ (fun _ _ => ?_) _ _).trans ?_ | refine ite_held ?_ ?_
theorem programPassed_held (s : State) (die : Nat) (block : Nat) (page : Nat) :
    held (programPassed s die block page) = held s := by
  unfold programPassed
  with_reducible repeat' first | rfl | refine (updMedia_held ..).trans ?_ | refine (updCare_held ..).trans ?_ | refine (verifyStripe_held ..).trans ?_ | refine (releaseAcc_held ..).trans ?_ | refine (foldl_held _ (fun _ _ => ?_) _ _).trans ?_ | split
theorem programFailed_held (s : State) (die : Nat) (block : Nat) :
    held (programFailed s die block) = held s := by
  unfold programFailed
  dsimp only
  with_reducible repeat' first | rfl | refine (updCare_held ..).trans ?_ | refine (countPfail_held ..).trans ?_ | refine (retireBlock_held ..).trans ?_ | refine (cutBand_held ..).trans ?_ | refine (modBand_held ..).trans ?_ | split
theorem freeSerial_held (s : State) (serial : Nat) :
    held (freeSerial s serial) = held s := by
  unfold freeSerial
  with_reducible repeat' first | rfl | refine (updMedia_held ..).trans ?_ | refine (modBlock_held ..).trans ?_ | refine (foldl_held _ (fun _ _ => ?_) _ _).trans ?_ | split
theorem wornCheck_held (s : State) :
    held (wornCheck s) = held s := by
  unfold wornCheck
  with_reducible repeat' first | rfl | refine (updXlat_held ..).trans ?_ | refine (updCare_held ..).trans ?_ | refine (event_held ..).trans ?_ | refine ite_held ?_ ?_
theorem erasePassed_held (s : State) (die : Nat) (block : Nat) :
    held (erasePassed s die block) = held s := by
  unfold erasePassed
  with_reducible repeat' first | rfl | refine (updCare_held ..).trans ?_ | refine (updMedia_held ..).trans ?_ | refine (modBlock_held ..).trans ?_ | refine (retireBlock_held ..).trans ?_ | refine (freeSerial_held ..).trans ?_ | refine (wornCheck_held ..).trans ?_ | split
theorem eraseFailed_held (s : State) (die : Nat) (block : Nat) :
    held (eraseFailed s die block) = held s := by
  unfold eraseFailed
  try dsimp only
  with_reducible repeat' first | rfl | refine (updCare_held ..).trans ?_ | refine (countPfail_held ..).trans ?_ | refine (retireBlock_held ..).trans ?_ | refine (cutBand_held ..).trans ?_ | refine (modBand_held ..).trans ?_ | refine (freeSerial_held ..).trans ?_ | refine (foldl_held _ (fun _ _ => ?_) _ _).trans ?_ | refine ite_held ?_ ?_ | refine ite_held2 ?_ ?_ | split
theorem bookErase_held (s : State) (die : Nat) (block : Nat) :
    held (bookErase s die block) = held s := by
  unfold bookErase
  with_reducible repeat' first | rfl | refine (bookOp_held ..).trans ?_
theorem reach_held (s : State) (p : Nat → Bool) (octDark : Bool) :
    held (reach s p octDark) = held s := by
  unfold reach
  try dsimp only
  with_reducible repeat' first | rfl | refine (updCare_held ..).trans ?_ | refine (updFlash_held ..).trans ?_ | refine (cutBand_held ..).trans ?_ | refine (modBand_held ..).trans ?_ | refine (aroundLost_held ..).trans ?_ | refine (fallbackWhere_held ..).trans ?_ | refine (foldl_held _ (fun _ _ => ?_) _ _).trans ?_ | refine ite_held ?_ ?_ | refine ite_held2 ?_ ?_ | split
theorem drawReserve_held (s : State) (serial : Nat) :
    held (drawReserve s serial) = held s := by
  unfold drawReserve
  with_reducible repeat' first | rfl | refine (updPower_held ..).trans ?_ | refine (modOct_held ..).trans ?_ | refine (foldl_held _ (fun _ _ => ?_) _ _).trans ?_
theorem openSys_held (s : State) (stream : Nat) (reserve : Bool) {p0 : _} {t : State} (h : openSys s stream reserve = some (p0, t)) :
    held t = held s := by
  unfold openSys at h
  try dsimp only at h
  (repeat' first | cases h | split at h) <;> with_reducible repeat' first | rfl | refine (drawReserve_held ..).trans ?_ | refine (foldl_held _ (fun _ _ => ?_) _ _).trans ?_ | refine ite_held ?_ ?_ | refine ite_held2 ?_ ?_ | refine (startBand_held _ _ _ _ (by assumption)).trans ?_ | split
theorem sysBand_held (s : State) (stream : Nat) (reserve : Bool) {p0 : _} {t : State} (h : sysBand s stream reserve = some (p0, t)) :
    held t = held s := by
  unfold sysBand at h
  dsimp only at h
  (repeat' first | cases h | split at h) <;> with_reducible repeat' first | rfl | refine (openSys_held _ _ _ (by assumption)).trans ?_
theorem placeSys_held (s : State) (stream : Nat) (early : Bool) (reserve : Bool) (r : SlotRec) {p0 : _} {t : State} (h : placeSys s stream early reserve r = some (p0, t)) :
    held t = held s := by
  unfold placeSys at h
  (repeat' first | cases h | split at h) <;> with_reducible repeat' first | rfl | refine (sysBand_held _ _ _ (by assumption)).trans ?_ | refine (placeIn_held _ _ _ _ (by assumption)).trans ?_
theorem flushStream_held (s : State) (stream : Nat) :
    held (flushStream s stream) = held s := by
  unfold flushStream
  with_reducible repeat' first | rfl | refine (closeFull_held ..).trans ?_ | refine (closeStripe_held ..).trans ?_ | refine (foldl_held _ (fun _ _ => ?_) _ _).trans ?_ | refine ite_held ?_ ?_
theorem modJournal_held (s : State) (jpos : Nat) (f : JSlot → JSlot) :
    held (modJournal s jpos f) = held s := by
  unfold modJournal
  with_reducible repeat' first | rfl | refine (updXlat_held ..).trans ?_
theorem placeCopyOf_held (s : State) (j : JSlot) (second : Bool) (early : Bool) (reserve : Bool) :
    held (placeCopyOf s j second early reserve) = held s := by
  unfold placeCopyOf
  with_reducible repeat' first | rfl | refine (modJournal_held ..).trans ?_ | refine (placeSys_held _ _ _ _ _ (by assumption)).trans ?_ | split
theorem placeJournal_held (s : State) (early : Bool) (reserve : Bool) :
    held (placeJournal s early reserve) = held s := by
  unfold placeJournal
  with_reducible repeat' first | rfl | refine (placeCopyOf_held ..).trans ?_ | refine (flushStream_held ..).trans ?_ | refine (foldl_held _ (fun _ _ => ?_) _ _).trans ?_ | refine ite_held ?_ ?_
theorem journalOut_held (s : State) (least : Nat) :
    held (journalOut s least) = held s := by
  unfold journalOut
  with_reducible repeat' first | rfl | refine (placeJournal_held ..).trans ?_ | refine (journalDrain_held ..).trans ?_
theorem placeKind_held (s : State) (r : SlotRec) {t : State} (h : placeKind s r = some t) :
    held t = held s := by
  unfold placeKind at h
  (repeat' first | cases h | split at h) <;> with_reducible repeat' first | rfl | refine (updXlat_held ..).trans ?_ | refine (updCare_held ..).trans ?_ | refine (placeSys_held _ _ _ _ _ (by assumption)).trans ?_ | split
theorem sysBeat_held (s : State) :
    held (sysBeat s) = held s := by
  unfold sysBeat
  dsimp only
  with_reducible repeat' first | rfl | refine (updMedia_held ..).trans ?_ | refine (waitSys_held ..).trans ?_ | refine (flushStream_held ..).trans ?_ | refine (foldl_held _ (fun _ _ => ?_) _ _).trans ?_ | refine (placeKind_held _ _ (by assumption)).trans ?_ | split
theorem closeStream_held (s : State) (stream : Nat) :
    held (closeStream s stream) = held s := by
  unfold closeStream
  with_reducible repeat' first | rfl | refine (markClosed_held ..).trans ?_ | refine (flushStream_held ..).trans ?_ | refine (foldl_held _ (fun _ _ => ?_) _ _).trans ?_
theorem moveSys_held (s : State) (b : Band) (psa : Nat) (r : SlotRec) :
    held (moveSys s b psa r) = held s := by
  unfold moveSys
  dsimp only
  with_reducible repeat' first | rfl | refine (updXlat_held ..).trans ?_ | refine (updCare_held ..).trans ?_ | refine (modJournal_held ..).trans ?_ | refine (placeSys_held _ _ _ _ _ (by assumption)).trans ?_ | split
theorem writeAnchor_held (s : State) :
    held (writeAnchor s) = held s := by
  unfold writeAnchor
  with_reducible repeat' first | rfl | refine (updNor_held ..).trans ?_ | refine (norAppend_held ..).trans ?_ | refine (sendPunty_held ..).trans ?_ | split
theorem unlistBand_held (s : State) (serial : Nat) :
    held (unlistBand s serial) = held s := by
  unfold unlistBand
  with_reducible repeat' first | rfl | refine (updCare_held ..).trans ?_ | refine (updXlat_held ..).trans ?_ | refine (writeAnchor_held ..).trans ?_ | refine ite_held ?_ ?_
theorem popOp_held (s : State) (die : Nat) (o : ArrayOp) :
    held (popOp s die o) = held s := rfl
theorem countLate_held (s : State) :
    held (countLate s) = held s := rfl
theorem opStatus_held (s : State) (die : Nat) (o : ArrayOp) (ready : Bool) (fail : Bool) :
    held (opStatus s die o ready fail) = held s := by
  unfold opStatus
  try dsimp only
  with_reducible repeat' first | rfl | refine (popOp_held ..).trans ?_ | refine (countRead_held ..).trans ?_ | refine (fallbackWhere_held ..).trans ?_ | refine (countLate_held ..).trans ?_ | refine (modDie_held ..).trans ?_ | refine (programFailed_held ..).trans ?_ | refine (programPassed_held ..).trans ?_ | refine (eraseFailed_held ..).trans ?_ | refine (erasePassed_held ..).trans ?_ | refine (foldl_held _ (fun _ _ => ?_) _ _).trans ?_ | refine ite_held ?_ ?_ | refine ite_held2 ?_ ?_ | split
theorem suspendFailed_held (s : State) (die : Nat) (o : ArrayOp) (k : Susp) :
    held (suspendFailed s die o k) = held s := by
  unfold suspendFailed
  try dsimp only
  with_reducible repeat' first | rfl | refine (modDie_held ..).trans ?_ | refine (fallbackWhere_held ..).trans ?_ | refine (foldl_held _ (fun _ _ => ?_) _ _).trans ?_ | refine ite_held ?_ ?_ | refine ite_held2 ?_ ?_ | split
theorem execArrayStatus_held (die : Nat) (ready : Bool) (fail : Bool) (s : State) {t : State} (h : execArrayStatus die ready fail s = .next t) :
    held t = held s := by
  cases h
  try dsimp only
  with_reducible repeat' first | rfl | refine (suspendFailed_held ..).trans ?_ | refine (opStatus_held ..).trans ?_ | refine (foldl_held _ (fun _ _ => ?_) _ _).trans ?_ | refine ite_held ?_ ?_ | refine ite_held2 ?_ ?_ | split
theorem dieDark_held (s : State) (die : Nat) :
    held (dieDark s die) = held s := by
  unfold dieDark
  with_reducible repeat' first | rfl | refine (reach_held ..).trans ?_ | refine (modDie_held ..).trans ?_
theorem lateReset_held (s : State) (die : Nat) (o : ArrayOp) :
    held (lateReset s die o) = held s := by
  unfold lateReset
  try dsimp only
  with_reducible repeat' first | rfl | refine (emit_held ..).trans ?_ | refine (modDie_held ..).trans ?_ | refine (popOp_held ..).trans ?_ | refine (programFailed_held ..).trans ?_ | refine (eraseFailed_held ..).trans ?_ | refine (foldl_held _ (fun _ _ => ?_) _ _).trans ?_ | refine ite_held ?_ ?_ | refine ite_held2 ?_ ?_ | split
theorem execLateOpReset_held (die : Nat) (readyAfter : Bool) (s : State) {t : State} (h : execLateOpReset die readyAfter s = .next t) :
    held t = held s := by
  cases h
  try dsimp only
  with_reducible repeat' first | rfl | refine (dieDark_held ..).trans ?_ | refine (lateReset_held ..).trans ?_ | refine (foldl_held _ (fun _ _ => ?_) _ _).trans ?_ | refine ite_held ?_ ?_ | refine ite_held2 ?_ ?_ | split
theorem raiseDepth_held (s : State) (die : Nat) (block : Nat) (k : Nat) :
    held (raiseDepth s die block k) = held s := rfl
theorem markUnrecov_held (s : State) (ns : Namespace) (gran : Nat) (seq : Nat) :
    held (markUnrecov s ns gran seq) = held s := by
  unfold markUnrecov
  with_reducible repeat' first | rfl | refine (updXlat_held ..).trans ?_ | refine (journalAdd_held ..).trans ?_ | refine ite_held ?_ ?_
theorem patrolFinding_held (s : State) (psa : Nat) (r : SlotRec) (k : Nat) :
    held (patrolFinding s psa r k) = held s := by
  unfold patrolFinding
  dsimp only
  with_reducible repeat' first | rfl | refine (updCare_held ..).trans ?_ | refine (markUnrecov_held ..).trans ?_ | refine (markRefresh_held ..).trans ?_ | split
theorem modRead_held (s : State) (e : CareRead) (f : CareRead → CareRead) :
    held (modRead s e f) = held s := by
  unfold modRead
  try dsimp only
  with_reducible repeat' first | rfl | refine (updCare_held ..).trans ?_ | refine (foldl_held _ (fun _ _ => ?_) _ _).trans ?_ | refine ite_held ?_ ?_ | refine ite_held2 ?_ ?_ | split
theorem dropReads_held (s : State) (p : CareRead → Bool) :
    held (dropReads s p) = held s := by
  unfold dropReads
  try dsimp only
  with_reducible repeat' first | rfl | refine (updCare_held ..).trans ?_ | refine (foldl_held _ (fun _ _ => ?_) _ _).trans ?_ | refine ite_held ?_ ?_ | refine ite_held2 ?_ ?_ | split
theorem copyGranule_held (s : State) (ns : Namespace) (base : Nat) :
    held (copyGranule s ns base) = held s := by
  unfold copyGranule
  try dsimp only
  with_reducible repeat' first | rfl | refine (dropReads_held ..).trans ?_ | refine (foldl_held _ (fun _ _ => ?_) _ _).trans ?_ | refine ite_held ?_ ?_ | refine ite_held2 ?_ ?_ | refine (placeCopy_held _ _ _ (by assumption)).trans ?_ | split
theorem relocate_held (s : State) (psa : Nat) (r : SlotRec) (ok : Bool) :
    held (relocate s psa r ok) = held s := by
  unfold relocate
  try dsimp only
  with_reducible repeat' first | rfl | refine (updMedia_held ..).trans ?_ | refine (dropReads_held ..).trans ?_ | refine (copyGranule_held ..).trans ?_ | refine (subValid_held ..).trans ?_ | refine (markUnrecov_held ..).trans ?_ | refine (foldl_held _ (fun _ _ => ?_) _ _).trans ?_ | refine ite_held ?_ ?_ | refine ite_held2 ?_ ?_ | split
theorem relocateSys_held (s : State) (b : Band) (psa : Nat) (r : SlotRec) (ok : Bool) :
    held (relocateSys s b psa r ok) = held s := by
  unfold relocateSys
  with_reducible repeat' first | rfl | refine (updXlat_held ..).trans ?_ | refine (moveSys_held ..).trans ?_ | refine (modJournal_held ..).trans ?_ | refine (waitSys_held ..).trans ?_ | split
theorem relocateSysRead_held (s : State) (b : Band) (e : CareRead) (r : SlotRec) (ok : Bool) :
    held (relocateSysRead s b e r ok) = held s := by
  unfold relocateSysRead
  try dsimp only
  with_reducible repeat' first | rfl | refine (relocateSys_held ..).trans ?_ | refine (dropReads_held ..).trans ?_ | refine (foldl_held _ (fun _ _ => ?_) _ _).trans ?_ | refine ite_held ?_ ?_ | refine ite_held2 ?_ ?_ | split
theorem endCareRead_held (s : State) (e : CareRead) (r : SlotRec) (k : Nat) (iter : Nat) :
    held (endCareRead s e r k iter) = held s := by
  unfold endCareRead
  try dsimp only
  with_reducible repeat' first | rfl | refine (updCare_held ..).trans ?_ | refine (raiseDepth_held ..).trans ?_ | refine (modBlock_held ..).trans ?_ | refine (modRead_held ..).trans ?_ | refine (relocateSysRead_held ..).trans ?_ | refine (relocate_held ..).trans ?_ | refine (patrolFinding_held ..).trans ?_ | refine (dropReads_held ..).trans ?_ | refine (foldl_held _ (fun _ _ => ?_) _ _).trans ?_ | refine ite_held ?_ ?_ | refine ite_held2 ?_ ?_ | split
theorem deliver_held (s : State) (c : Nat) (gran : Nat) (part : Nat) (r : SlotRec) (d : Deliver) :
    held (deliver s c gran part r d) = held s := by
  unfold deliver
  with_reducible repeat' first | rfl | refine (modCtx_held ..).trans ?_ | refine (releaseLadder_held ..).trans ?_ | split
theorem countMedia_held (s : State) (f : Media → Media) :
    held (countMedia s f) = held s := rfl
theorem countDecode_held (s : State) (d5 : Bool) (erased : Bool) (ok : Bool) :
    held (countDecode s d5 erased ok) = held s := by
  unfold countDecode
  with_reducible repeat' first | rfl | refine (countMedia_held ..).trans ?_
theorem checkFailed_held (s : State) (d5 : Bool) (step : Nat) (c : Nat) (gran : Nat) (part : Nat) :
    held (checkFailed s d5 step c gran part) = held s := by
  unfold checkFailed
  with_reducible repeat' first | rfl | refine (fallbackSlot_held ..).trans ?_ | refine (countMedia_held ..).trans ?_ | refine ite_held ?_ ?_
theorem ctxDecode_held (s : State) (psa : Nat) (c : Nat) (gran : Nat) (part : Nat) (step : Nat) (crcOk : Bool) (erased : Bool) (got : Option SlotRec) :
    held (ctxDecode s psa c gran part step crcOk erased got) = held s := by
  unfold ctxDecode
  dsimp only
  with_reducible repeat' first | rfl | refine (countDecode_held ..).trans ?_ | refine (fallbackSlot_held ..).trans ?_ | refine (checkFailed_held ..).trans ?_ | refine (countMedia_held ..).trans ?_ | refine (raiseDepth_held ..).trans ?_ | refine (deliver_held ..).trans ?_ | split
theorem sweepTries_held (s : State) :
    held (sweepTries s) = held s := by
  unfold sweepTries
  with_reducible repeat' first | rfl | refine (updMedia_held ..).trans ?_ | refine ite_held ?_ ?_
theorem columnTry_held (s : State) (target : Nat) (q : Nat) (step : Nat) (crcOk : Bool) (erased : Bool) :
    held (columnTry s target q step crcOk erased) = held s := by
  unfold columnTry
  with_reducible repeat' first | rfl | refine (updMedia_held ..).trans ?_ | refine (countMedia_held ..).trans ?_ | refine (countDecode_held ..).trans ?_ | refine ite_held ?_ ?_
theorem ctxRebuild_held (s : State) (psa : Nat) (c : Nat) (gran : Nat) (part : Nat) (crcOk : Bool) (got : Option SlotRec) :
    held (ctxRebuild s psa c gran part crcOk got) = held s := by
  unfold ctxRebuild
  dsimp only
  with_reducible repeat' first | rfl | refine (updPlan_held ..).trans ?_ | refine (fallbackSlot_held ..).trans ?_ | refine (countMedia_held ..).trans ?_ | refine (raiseDepth_held ..).trans ?_ | refine (deliver_held ..).trans ?_ | split
theorem learnSlot_held (s : State) (psa : Nat) :
    held (learnSlot s psa) = held s := by
  unfold learnSlot
  with_reducible repeat' first | rfl | refine (updMedia_held ..).trans ?_ | refine (updFreeCtr_held ..).trans ?_ | split
theorem endColumn_held (s : State) (e : CareRead) (converged : Bool) (passed : Bool) :
    held (endColumn s e converged passed) = held s := by
  unfold endColumn
  try dsimp only
  with_reducible repeat' first | rfl | refine (updMedia_held ..).trans ?_ | refine (dropReads_held ..).trans ?_ | refine (foldl_held _ (fun _ _ => ?_) _ _).trans ?_ | refine ite_held ?_ ?_ | refine ite_held2 ?_ ?_ | split
theorem careRebuild_held (s : State) (e : CareRead) (r : SlotRec) (crcOk : Bool) :
    held (careRebuild s e r crcOk) = held s := by
  unfold careRebuild
  try dsimp only
  with_reducible repeat' first | rfl | refine (endCareRead_held ..).trans ?_ | refine (countMedia_held ..).trans ?_ | refine (modRead_held ..).trans ?_ | refine (foldl_held _ (fun _ _ => ?_) _ _).trans ?_ | refine ite_held ?_ ?_ | refine ite_held2 ?_ ?_ | split
theorem careDecode_held (s : State) (psa : Nat) (step : Nat) (iter : Nat) (crcOk : Bool) (erased : Bool) (r : SlotRec) :
    held (careDecode s psa step iter crcOk erased r) = held s := by
  unfold careDecode
  try dsimp only
  with_reducible repeat' first | rfl | refine (sweepTries_held ..).trans ?_ | refine (careRebuild_held ..).trans ?_ | refine (countMedia_held ..).trans ?_ | refine (endColumn_held ..).trans ?_ | refine (endCareRead_held ..).trans ?_ | refine (modRead_held ..).trans ?_ | refine (foldl_held _ (fun _ _ => ?_) _ _).trans ?_ | refine ite_held ?_ ?_ | refine ite_held2 ?_ ?_ | split
theorem slotDecode_held (s0 : State) (psa : Nat) (zeros : Nat) (step : Nat) (iter : Nat) (crcOk : Bool) :
    held (slotDecode s0 psa zeros step iter crcOk) = held s0 := by
  unfold slotDecode
  try dsimp only
  with_reducible repeat' first | rfl | refine (learnSlot_held ..).trans ?_ | refine (sweepTries_held ..).trans ?_ | refine (useKey_held ..).trans ?_ | refine (ctxRebuild_held ..).trans ?_ | refine (columnTry_held ..).trans ?_ | refine (ctxDecode_held ..).trans ?_ | refine (careDecode_held ..).trans ?_ | refine (foldl_held _ (fun _ _ => ?_) _ _).trans ?_ | refine ite_held ?_ ?_ | refine ite_held2 ?_ ?_ | split
theorem execSlotDecode_held (psa : Nat) (zeros : Nat) (step : Nat) (iter : Nat) (crcOk : Bool) (s : State) {t : State} (h : execSlotDecode psa zeros step iter crcOk s = .next t) :
    held t = held s := by
  cases h
  with_reducible repeat' first | rfl | refine (slotDecode_held ..).trans ?_
theorem deepAnswer_held (s : State) (idx : Nat) (psa : Nat) (ns : Namespace) (gran : Nat) (ok : Bool) :
    held (deepAnswer s idx psa ns gran ok) = held s := by
  unfold deepAnswer
  with_reducible repeat' first | rfl | refine (deliver_held ..).trans ?_ | refine (setSlot_held ..).trans ?_ | refine (foldl_held _ (fun _ _ => ?_) _ _).trans ?_ | split
theorem rewriteDeep_held (s : State) (d : DeepRec) (ns : Namespace) :
    held (rewriteDeep s d ns) = held s := by
  unfold rewriteDeep
  try dsimp only
  with_reducible repeat' first | rfl | refine (foldl_held _ (fun _ _ => ?_) _ _).trans ?_ | refine ite_held ?_ ?_ | refine ite_held2 ?_ ?_ | refine (placeCopy_held _ _ _ (by assumption)).trans ?_ | split
theorem modDeepRead_held (s : State) (psa : Nat) (f : CareRead → CareRead) :
    held (modDeepRead s psa f) = held s := by
  unfold modDeepRead
  try dsimp only
  with_reducible repeat' first | rfl | refine (updCare_held ..).trans ?_ | refine (foldl_held _ (fun _ _ => ?_) _ _).trans ?_ | refine ite_held ?_ ?_ | refine ite_held2 ?_ ?_ | split
theorem execDeepRecoveryDone_held (idx : Nat) (ok : Bool) (s : State) {t : State} (h : execDeepRecoveryDone idx ok s = .next t) :
    held t = held s := by
  cases h
  try dsimp only
  with_reducible repeat' first | rfl | refine (updXlat_held ..).trans ?_ | refine (rewriteDeep_held ..).trans ?_ | refine (deepAnswer_held ..).trans ?_ | refine (modDeepRead_held ..).trans ?_ | refine (raiseDepth_held ..).trans ?_ | refine (markUnrecov_held ..).trans ?_ | refine (foldl_held _ (fun _ _ => ?_) _ _).trans ?_ | refine ite_held ?_ ?_ | refine ite_held2 ?_ ?_ | split
theorem execGatherSlotPlace_held (slot : Nat) (s : State) {t : State} (h : execGatherSlotPlace slot s = .next t) :
    held t = held s := by
  cases h
  with_reducible repeat' first | rfl | refine (placeGather_held ..).trans ?_
theorem takeVictim_held (s : State) (b : Band) (step : Nat) :
    held (takeVictim s b step) = held s := rfl
theorem planCare_held (s : State) (psa : Nat) (n : Nat) {t : State} (h : planCare s psa n = some t) :
    held t = held s := map_held (fun _ _ => planSlot_held _ _ _ _ _ _ _ _) h
theorem noteReads__held (s : State) (use : CareUse) (booked : Bool) (stage : Nat) (target : Nat) (psas : List Nat) :
    held (noteReads_ s use booked stage target psas) = held s := by
  unfold noteReads_
  try dsimp only
  with_reducible repeat' first | rfl | refine (updCare_held ..).trans ?_ | refine (foldl_held _ (fun _ _ => ?_) _ _).trans ?_ | refine ite_held ?_ ?_ | refine ite_held2 ?_ ?_ | split
theorem planLadder_held (s : State) (psa : Nat) (n : Nat) (sh : Share) {t : State} (h : planLadder s psa n sh = some t) :
    held t = held s := by
  unfold planLadder at h
  obtain ⟨⟨b, u⟩, h1, h2⟩ := Option.bind_eq_some_iff.mp h
  obtain ⟨_, _, rfl⟩ := Option.map_eq_some_iff.mp h2
  refine (book_held _ _ _ _ _ _).trans (readFold_held _ (fun _ _ _ _ e => ?_) _ _ _ (fun _ _ e => by cases e; rfl) _ _ h1)
  obtain ⟨⟨_, _⟩, e1, e2⟩ := Option.map_eq_some_iff.mp e
  cases e2
  exact planSlot_held _ _ _ _ _ _ _ _ e1
theorem planStage_held (s : State) (e : CareRead) {t : State} (h : planStage s e = some t) :
    held t = held s := by
  unfold planStage at h
  split at h
  · exact planCare_held _ _ _ h
  · split at h
    · exact planLadder_held _ _ _ _ h
    · obtain ⟨u, h1, rfl⟩ := Option.map_eq_some_iff.mp h
      exact (noteReads__held _ _ _ _ _ _).trans (bindFold_held _ (fun _ _ _ e => planCare_held _ _ _ e) _ _ _ (fun _ e => by cases e; rfl) _ h1)
theorem offerRead_held (s : State) (e : CareRead) :
    held (offerRead s e) = held s := by
  unfold offerRead
  try dsimp only
  with_reducible repeat' first | rfl | refine (modRead_held ..).trans ?_ | refine (dropReads_held ..).trans ?_ | refine (foldl_held _ (fun _ _ => ?_) _ _).trans ?_ | refine ite_held ?_ ?_ | refine ite_held2 ?_ ?_ | refine (planStage_held _ _ (by assumption)).trans ?_ | split
theorem offerReads_held (s : State) (us : List CareUse) :
    held (offerReads s us) = held s := by
  unfold offerReads
  try dsimp only
  with_reducible repeat' first | rfl | refine (offerRead_held ..).trans ?_ | refine (foldl_held _ (fun _ _ => ?_) _ _).trans ?_ | refine ite_held ?_ ?_ | refine ite_held2 ?_ ?_ | split
theorem bookEntry_held (s : State) (b : Band) (psa : Nat) {t : State} (h : bookEntry s b psa = some t) :
    held t = held s := by
  unfold bookEntry at h
  grind [→ planCare_held, updCare_held, Option.map_eq_some_iff, Option.bind_eq_some_iff]
theorem bookVictimSlot_held (s : State) (b : Band) (psa : Nat) (r : SlotRec) {t : State} (h : bookVictimSlot s b psa r = some t) :
    held t = held s := by
  unfold bookVictimSlot at h
  grind [book_held, → bookEntry_held, noteReads__held, → planCare_held, Option.map_eq_some_iff, Option.bind_eq_some_iff]
theorem bookVictimFrom_held (b : Band) (a1 : List (Nat × SlotRec)) (a2 : State) :
    held (bookVictimFrom b a1 a2) = held a2 := by
  induction a1 generalizing a2 with
  | nil => rfl
  | cons p ps ih =>
    unfold bookVictimFrom
    split
    · rename_i h
      exact (ih _).trans ((updCare_held _ _).trans (bookVictimSlot_held _ _ _ _ h))
    · rfl
theorem copyAgain_held (s : State) (b : Band) :
    held (copyAgain s b) = held s := by
  unfold copyAgain
  try dsimp only
  with_reducible repeat' first | rfl | refine (relocateSysRead_held ..).trans ?_ | refine (relocate_held ..).trans ?_ | refine (dropReads_held ..).trans ?_ | refine (foldl_held _ (fun _ _ => ?_) _ _).trans ?_ | refine ite_held ?_ ?_ | refine ite_held2 ?_ ?_ | split
theorem bookVictim_held (s0 : State) (b : Band) :
    held (bookVictim s0 b) = held s0 := by
  unfold bookVictim
  try dsimp only
  with_reducible repeat' first | rfl | refine (offerReads_held ..).trans ?_ | refine (copyAgain_held ..).trans ?_ | refine (bookVictimFrom_held ..).trans ?_ | refine (foldl_held _ (fun _ _ => ?_) _ _).trans ?_ | refine ite_held ?_ ?_ | refine ite_held2 ?_ ?_ | split
theorem execVictimEmptied_held (serial : Nat) (s : State) {t : State} (h : execVictimEmptied serial s = .next t) :
    held t = held s := by
  cases h
  with_reducible repeat' first | rfl | refine (unlistBand_held ..).trans ?_ | refine (modBand_held ..).trans ?_ | refine (bookErase_held ..).trans ?_ | refine (freeSerial_held ..).trans ?_ | refine (foldl_held _ (fun _ _ => ?_) _ _).trans ?_ | split
theorem execWearLevelCheck_held (s : State) {t : State} (h : execWearLevelCheck s = .next t) :
    held t = held s := by
  cases h
  with_reducible repeat' first | rfl | refine (updCare_held ..).trans ?_ | split
theorem startPass_held (s : State) (period : Nat) :
    held (startPass s period) = held s := by
  unfold startPass
  with_reducible repeat' first | rfl | refine (updCare_held ..).trans ?_
theorem execPatrolPassStart_held (s : State) {t : State} (h : execPatrolPassStart s = .next t) :
    held t = held s := by
  cases h
  with_reducible repeat' first | rfl | refine (updCare_held ..).trans ?_ | refine (wearCheck_held ..).trans ?_ | refine (startPass_held ..).trans ?_ | refine ite_held ?_ ?_
theorem planPage_held (s : State) (use : CareUse) (die : Nat) (block : Nat) (page : Nat) (now : Bool) {t : State} (h : planPage s use die block page now = some t) :
    held t = held s := by
  unfold planPage at h
  grind [→ planSlot_held, → planCare_held, noteReads__held, Option.map_eq_some_iff]
theorem countPatrol_held (s : State) :
    held (countPatrol s) = held s := rfl
theorem patrolPast_held (s : State) (b : Band) (col : Nat) (k : Nat) :
    held (patrolPast s b col k) = held s := by
  unfold patrolPast
  with_reducible repeat' first | rfl | refine (updCare_held ..).trans ?_
theorem bookPatrol_held (now : Bool) (a1 : Nat) (a2 : State) :
    held (bookPatrol now a1 a2) = held a2 := by
  induction a1 generalizing a2 with
  | zero => rfl
  | succ k ih =>
    unfold bookPatrol
    split
    · rfl
    · split
      · exact updCare_held _ _
      · dsimp only
        split
        · exact (ih _).trans (patrolPast_held _ _ _ _)
        · split
          · rename_i e
            exact (ih _).trans ((patrolPast_held _ _ _ _).trans ((countPatrol_held _).trans (planPage_held _ _ _ _ _ _ e)))
          · rfl
theorem patrolResume_held (s : State) :
    held (patrolResume s) = held s := by
  unfold patrolResume
  try dsimp only
  with_reducible repeat' first | rfl | refine (updCare_held ..).trans ?_ | refine (foldl_held _ (fun _ _ => ?_) _ _).trans ?_ | refine ite_held ?_ ?_ | refine ite_held2 ?_ ?_ | split
theorem execPatrolWindow_held (s : State) {t : State} (h : execPatrolWindow s = .next t) :
    held t = held s := by
  cases h
  with_reducible repeat' first | rfl | refine (updCare_held ..).trans ?_ | refine (bookPatrol_held ..).trans ?_ | refine ite_held ?_ ?_
theorem ageRefresh_held (s : State) :
    held (ageRefresh s) = held s := rfl
theorem execTclkWindow_held (s : State) {t : State} (h : execTclkWindow s = .next t) :
    held t = held s := by
  cases h
  with_reducible repeat' first | rfl | refine (updCare_held ..).trans ?_ | refine (ageRefresh_held ..).trans ?_ | refine ite_held ?_ ?_
theorem planDisturb_held (s : State) (b : Band) (die : Nat) (block : Nat) {t : State} (h : planDisturb s b die block = some t) :
    held t = held s := bindFold_held _ (fun s a t e => by
    obtain ⟨u, e1, rfl⟩ := Option.map_eq_some_iff.mp e
    exact (countPatrol_held _).trans (planPage_held _ _ _ _ _ _ e1)) _ _ _ (fun _ e => by cases e; rfl) _ h
theorem bookDisturb_held (s : State) :
    held (bookDisturb s) = held s := by
  unfold bookDisturb
  with_reducible repeat' first | rfl | refine (updCare_held ..).trans ?_ | refine (foldl_held _ (fun _ _ => ?_) _ _).trans ?_ | refine (planDisturb_held _ _ _ _ (by assumption)).trans ?_ | split
theorem eraseDirty_held (s : State) :
    held (eraseDirty s) = held s := by
  unfold eraseDirty
  with_reducible repeat' first | rfl | refine (bookErase_held ..).trans ?_ | refine (foldl_held _ (fun _ _ => ?_) _ _).trans ?_ | split
theorem eraseAgain_held (s : State) :
    held (eraseAgain s) = held s := by
  unfold eraseAgain
  with_reducible repeat' first | rfl | refine (bookErase_held ..).trans ?_ | refine (foldl_held _ (fun _ _ => ?_) _ _).trans ?_ | refine ite_held ?_ ?_
theorem cullet_held (s : State) :
    held (cullet s) = held s := by
  unfold cullet
  try dsimp only
  with_reducible repeat' first | rfl | refine (eraseDirty_held ..).trans ?_ | refine (eraseAgain_held ..).trans ?_ | refine (retryOps_held ..).trans ?_ | refine (bookVictim_held ..).trans ?_ | refine (takeVictim_held ..).trans ?_ | refine (foldl_held _ (fun _ _ => ?_) _ _).trans ?_ | refine ite_held ?_ ?_ | refine ite_held2 ?_ ?_ | split
theorem fillReserve_held (s : State) :
    held (fillReserve s) = held s := by
  unfold fillReserve
  with_reducible repeat' first | rfl | refine (modOct_held ..).trans ?_ | refine (modBlock_held ..).trans ?_ | refine (foldl_held _ (fun _ _ => ?_) _ _).trans ?_ | split
theorem planDeep_held (s : State) (psa : Nat) (n : Nat) (sh : Share) {t : State} (h : planDeep s psa n sh = some t) :
    held t = held s := bindFold_held _ (fun s a t e => by
    obtain ⟨⟨p, u⟩, e1, e2⟩ := Option.bind_eq_some_iff.mp e
    exact (planLadder_held _ _ _ _ e2).trans (planSlot_held _ _ _ _ _ _ _ _ e1)) _ _ _ (fun _ e => by cases e; rfl) _ h
theorem bookDeepRead_held (s : State) (d : DeepRec) (n : Nat) :
    held (bookDeepRead s d n) = held s := by
  unfold bookDeepRead
  split
  · rfl
  · rename_i u e
    have e1 : held u = held s := by
      cases e2 : planDeep s d.psa n .care with
      | some v => rw [e2] at e; cases e; exact planDeep_held _ _ _ _ e2
      | none => rw [e2] at e; exact planDeep_held _ _ _ _ e
    exact ite_held ((modDeepRead_held _ _ _).trans e1) ((noteReads__held _ _ _ _ _ _).trans e1)
theorem bookDeep_held (s : State) :
    held (bookDeep s) = held s := by
  unfold bookDeep
  refine (foldl_held _ (fun s d => ?_) _ _).trans (dropReads_held _ _)
  split
  · rfl
  · split
    · exact ite_held rfl (bookDeepRead_held _ _ _)
    · exact ite_held (rewriteDeep_held _ _ _) (ite_held rfl (bookDeepRead_held _ _ _))
theorem lehr_held (s : State) (now : Bool) (k : Nat) :
    held (lehr s now k) = held s := by
  unfold lehr
  try dsimp only
  with_reducible repeat' first | rfl | refine (bookPatrol_held ..).trans ?_ | refine (bookDisturb_held ..).trans ?_ | refine (offerReads_held ..).trans ?_ | refine (foldl_held _ (fun _ _ => ?_) _ _).trans ?_ | refine ite_held ?_ ?_ | refine ite_held2 ?_ ?_ | split
theorem holdOps_held (s : State) :
    held (holdOps s) = held s := by
  unfold holdOps
  try dsimp only
  with_reducible repeat' first | rfl | refine (updPlan_held ..).trans ?_ | refine (updFlash_held ..).trans ?_ | refine (dropReads_held ..).trans ?_ | refine (foldl_held _ (fun _ _ => ?_) _ _).trans ?_ | refine ite_held ?_ ?_ | refine ite_held2 ?_ ?_ | split
theorem careOffer_held (s : State) :
    held (careOffer s) = held s := by
  unfold careOffer
  try dsimp only
  with_reducible repeat' first | rfl | refine (bookDeep_held ..).trans ?_ | refine (cullet_held ..).trans ?_ | refine (lehr_held ..).trans ?_ | refine (fillReserve_held ..).trans ?_ | refine (foldl_held _ (fun _ _ => ?_) _ _).trans ?_ | refine ite_held ?_ ?_ | refine ite_held2 ?_ ?_ | split
theorem touchLine_held (s : State) (line : Nat) (lookups : Nat) :
    held (touchLine s line lookups) = held s := by
  unfold touchLine
  with_reducible repeat' first | rfl | refine (updXlat_held ..).trans ?_ | split
theorem placeLine_held (s : State) (line : Nat) :
    held (placeLine s line) = held s := by
  unfold placeLine
  dsimp only
  with_reducible repeat' first | rfl | refine (updXlat_held ..).trans ?_ | split
theorem undeliverLine_held (s : State) (line : Nat) :
    held (undeliverLine s line) = held s := rfl
theorem execMapLineFill_held (line : Nat) (crcOk : Bool) (s : State) {t : State} (h : execMapLineFill line crcOk s = .next t) :
    held t = held s := by
  cases h
  with_reducible repeat' first | rfl | refine (updXlat_held ..).trans ?_ | refine (placeLine_held ..).trans ?_ | refine (undeliverLine_held ..).trans ?_ | split
theorem initSweep_held (s : State) :
    held (initSweep s) = held s := rfl
theorem execCheckpointStart_held (s : State) {t : State} (h : execCheckpointStart s = .next t) :
    held t = held s := by
  cases h
  with_reducible repeat' first | rfl | refine (updXlat_held ..).trans ?_ | refine (journalPlain_held ..).trans ?_ | refine ite_held ?_ ?_
theorem ckptOne_held (s : State) {t : State} (h : ckptOne s = some t) :
    held t = held s := by
  unfold ckptOne at h
  split at h
  · cases h
  · split at h
    · obtain ⟨u, e, rfl⟩ := Option.map_eq_some_iff.mp h
      exact (updXlat_held _ _).trans (placeKind_held _ _ e)
    · split at h
      · cases h
      · obtain ⟨u, e, rfl⟩ := Option.map_eq_some_iff.mp h
        exact (updXlat_held _ _).trans (placeKind_held _ _ e)
theorem ckptWrite_held (a0 : Nat) (a1 : State) :
    held (ckptWrite a0 a1) = held a1 := by
  induction a0 generalizing a1 with
  | zero => rfl
  | succ k ih =>
    unfold ckptWrite
    split
    · rename_i h
      exact (ih _).trans (ckptOne_held _ h)
    · rfl
theorem careWrite_held (a0 : Nat) (a1 : State) :
    held (careWrite a0 a1) = held a1 := by
  induction a0 generalizing a1 with
  | zero => rfl
  | succ k ih =>
    unfold careWrite
    split
    · rfl
    · refine ite_held rfl ?_
      split
      · rfl
      · rename_i h
        exact (ih _).trans ((updCare_held _ _).trans (placeKind_held _ _ h))
theorem careEnd_held (s : State) (w : CareWrite) :
    held (careEnd s w) = held s := by
  unfold careEnd
  with_reducible repeat' first | rfl | refine (updCare_held ..).trans ?_ | refine (writeAnchor_held ..).trans ?_ | refine (closeStream_held ..).trans ?_
theorem careBeat_held (s : State) :
    held (careBeat s) = held s := by
  unfold careBeat
  dsimp only
  with_reducible repeat' first | rfl | refine (careWrite_held ..).trans ?_ | refine (flushStream_held ..).trans ?_ | refine (careEnd_held ..).trans ?_ | split
theorem releaseJournal_held (s : State) (jpos : Nat) :
    held (releaseJournal s jpos) = held s := by
  unfold releaseJournal
  with_reducible repeat' first | rfl | refine (updXlat_held ..).trans ?_ | refine (journalAdd_held ..).trans ?_
theorem anchorDurable_held (s : State) (body : List Byte) :
    held (anchorDurable s body) = held s := by
  unfold anchorDurable
  try dsimp only
  with_reducible repeat' first | rfl | refine (updXlat_held ..).trans ?_ | refine (updNor_held ..).trans ?_ | refine (releaseJournal_held ..).trans ?_ | refine (foldl_held _ (fun _ _ => ?_) _ _).trans ?_ | refine ite_held ?_ ?_ | refine ite_held2 ?_ ?_ | split
theorem finishCkpt_held (s : State) (k : Ckpt) :
    held (finishCkpt s k) = held s := by
  unfold finishCkpt
  with_reducible repeat' first | rfl | refine (updXlat_held ..).trans ?_ | refine (updCare_held ..).trans ?_ | refine (closeStream_held ..).trans ?_ | refine (writeAnchor_held ..).trans ?_ | refine (releaseJournal_held ..).trans ?_
theorem ckptBeat_held (s : State) :
    held (ckptBeat s) = held s := by
  unfold ckptBeat
  dsimp only
  with_reducible repeat' first | rfl | refine (finishCkpt_held ..).trans ?_ | refine (ckptWrite_held ..).trans ?_ | refine (flushStream_held ..).trans ?_ | split
theorem execCheckpointEnd_held (s : State) {t : State} (h : execCheckpointEnd s = .next t) :
    held t = held s := by
  cases h
  with_reducible repeat' first | rfl | refine (updXlat_held ..).trans ?_ | refine (journalPlain_held ..).trans ?_ | refine (finishCkpt_held ..).trans ?_ | split
theorem recountValid_held (s : State) :
    held (recountValid s) = held s := rfl
theorem finishRecovery_held (s : State) (r : Rec) (path : Nat) (full : Nat) :
    held (finishRecovery s r path full) = held s := by
  unfold finishRecovery
  with_reducible repeat' first | rfl | refine (updXlat_held ..).trans ?_ | refine (recountValid_held ..).trans ?_ | refine (journalAdd_held ..).trans ?_
theorem recoverMap_held (s : State) (lost : List Nat) {t : State} (h : recoverMap s lost = some t) :
    held t = held s := by
  unfold recoverMap at h
  dsimp only at h
  (repeat' first | cases h | split at h) <;> with_reducible repeat' first | rfl | refine (updXlat_held ..).trans ?_ | refine (storeNv_held ..).trans ?_ | refine (finishRecovery_held ..).trans ?_
theorem execLineRebuild_held (line : Nat) (s : State) {t : State} (h : execLineRebuild line s = .next t) :
    held t = held s := by
  cases h
  with_reducible repeat' first | rfl | refine (updXlat_held ..).trans ?_ | split
theorem setDay_held (s : State) (t : DayState) :
    held (setDay s t) = held s := rfl
theorem stopSignals_held (s : State) :
    held (stopSignals s) = held s := by
  unfold stopSignals
  with_reducible repeat' first | rfl | refine (updFlash_held ..).trans ?_ | refine (updTwin_held ..).trans ?_
theorem goFatal_held (s : State) (cause : Nat) (detail : Nat) :
    held (goFatal s cause detail) = held s := rfl
theorem zeroVault_held (s : State) :
    held (zeroVault s) = held s := rfl
theorem wipe_held (s : State) :
    held (wipe s) = held s := (show held (wipe s) = held (zeroVault s) from rfl).trans (zeroVault_held s)
theorem startDawn_held (s : State) :
    held (startDawn s) = held s := by
  unfold startDawn
  with_reducible repeat' first | rfl | refine (updPower_held ..).trans ?_ | refine (updDay_held ..).trans ?_ | refine (setDay_held ..).trans ?_ | refine (wipe_held ..).trans ?_
theorem noteWake_held (s : State) (code : Nat) :
    held (noteWake s code) = held s := rfl
theorem wakeNight_held (s : State) (code : Nat) :
    held (wakeNight s code) = held s := by
  unfold wakeNight
  with_reducible repeat' first | rfl | refine (updDay_held ..).trans ?_ | refine (noteWake_held ..).trans ?_
theorem runWake_held (s : State) (code : Nat) :
    held (runWake s code) = held s := by
  unfold runWake
  with_reducible repeat' first | rfl | refine (wakeNight_held ..).trans ?_ | refine (startDawn_held ..).trans ?_ | refine (noteWake_held ..).trans ?_ | refine ite_held ?_ ?_
theorem wake_held (s : State) (code : Nat) :
    held (wake s code) = held s := by
  unfold wake
  with_reducible repeat' first | rfl | refine (updDay_held ..).trans ?_ | refine (updTherm_held ..).trans ?_ | refine (startDawn_held ..).trans ?_ | refine (noteWake_held ..).trans ?_ | refine (runWake_held ..).trans ?_ | refine ite_held ?_ ?_
theorem entryEnds_held (s : State) :
    held (entryEnds s) = held s := by
  unfold entryEnds
  with_reducible repeat' first | rfl | refine (updDay_held ..).trans ?_ | refine (wake_held ..).trans ?_ | split
theorem execWakeNLow_held (s : State) {t : State} (h : execWakeNLow s = .next t) :
    held t = held s := by
  cases h
  with_reducible repeat' first | rfl | refine (wake_held ..).trans ?_
theorem execDayWakeAt_held (s : State) {t : State} (h : execDayWakeAt s = .next t) :
    held t = held s := by
  cases h
  with_reducible repeat' first | rfl | refine (wake_held ..).trans ?_ | refine ite_held ?_ ?_
theorem busEnd_held (s : State) (c : Nat) :
    held (busEnd s c) = held s := by
  unfold busEnd
  with_reducible repeat' first | rfl | refine (endWord_held ..).trans ?_ | refine (dropDescs_held ..).trans ?_ | refine (endWith_held ..).trans ?_ | split
theorem execBusError_held (engine : Nat) (chan : Nat) (code : Nat) (s : State) {t : State} (h : execBusError engine chan code s = .next t) :
    held t = held s := by
  cases h
  with_reducible repeat' first | rfl | refine (updMovers_held ..).trans ?_ | refine (modEngine_held ..).trans ?_ | refine (modLink_held ..).trans ?_ | refine (busEnd_held ..).trans ?_ | refine (foldl_held _ (fun _ _ => ?_) _ _).trans ?_ | split
theorem stoppedEngines_held (s : State) :
    held (stoppedEngines s) = held s := by
  unfold stoppedEngines
  with_reducible repeat' first | rfl | refine (updMovers_held ..).trans ?_ | refine (busEnd_held ..).trans ?_ | refine (foldl_held _ (fun _ _ => ?_) _ _).trans ?_ | refine ite_held ?_ ?_
theorem execEngineResume_held (engine : Nat) (s : State) {t : State} (h : execEngineResume engine s = .next t) :
    held t = held s := by
  cases h
  with_reducible repeat' first | rfl | refine (modEngine_held ..).trans ?_ | refine ite_held ?_ ?_
theorem execQuarantineDrained_held (engine : Nat) (s : State) {t : State} (h : execQuarantineDrained engine s = .next t) :
    held t = held s := by
  cases h
  with_reducible repeat' first | rfl | refine (modEngine_held ..).trans ?_ | refine ite_held ?_ ?_
theorem markBursts_held (s : State) (p : Nat) (on : Bool) :
    held (markBursts s p on) = held s := rfl
theorem execPaceAssert_held (source : Nat) (s : State) {t : State} (h : execPaceAssert source s = .next t) :
    held t = held s := by
  cases h
  with_reducible repeat' first | rfl | refine (updMovers_held ..).trans ?_ | refine (markBursts_held ..).trans ?_ | refine ite_held ?_ ?_
theorem execPaceWithdraw_held (source : Nat) (s : State) {t : State} (h : execPaceWithdraw source s = .next t) :
    held t = held s := by
  cases h
  with_reducible repeat' first | rfl | refine (updMovers_held ..).trans ?_ | refine (markBursts_held ..).trans ?_ | refine ite_held ?_ ?_
theorem drainEngine_held (s : State) (e : Nat) :
    held (drainEngine s e) = held s := by
  unfold drainEngine
  dsimp only
  with_reducible repeat' first | rfl | refine (updMovers_held ..).trans ?_ | refine (modEngine_held ..).trans ?_ | refine (emit_held ..).trans ?_ | refine (foldl_held _ (fun _ _ => ?_) _ _).trans ?_ | split
theorem drainPaced_held (s : State) :
    held (drainPaced s) = held s := by
  unfold drainPaced
  with_reducible repeat' first | rfl | refine (drainEngine_held ..).trans ?_ | refine (foldl_held _ (fun _ _ => ?_) _ _).trans ?_
theorem take_held (s : State) (r : Res) (b : Nat) (k : Nat) (owner : Nat) :
    held (take s r b k owner) = held s := by
  unfold take
  with_reducible repeat' first | rfl | refine (updPlan_held ..).trans ?_ | refine (book_held ..).trans ?_ | split
theorem fill_held (a0 : Nat) (a1 : State) (a2 : Res) (a3 : Nat) (a4 : Nat) (a5 : Nat) (a6 : Nat) {p0 : _} {t : State} (h : fill a0 a1 a2 a3 a4 a5 a6 = some (p0, t)) :
    held t = held a1 := by
  induction a0 generalizing a1 a3 a5 p0 t with
  | zero => cases h
  | succ k ih =>
    unfold fill at h
    grind [take_held]
theorem spread_held (a0 : Nat) (a1 : State) (a2 : Res) (a3 : Nat) (a4 : Nat) (a5 : Nat) (a6 : Nat) (a7 : Nat) {t : State} (h : spread a0 a1 a2 a3 a4 a5 a6 a7 = some t) :
    held t = held a1 := by
  induction a0 generalizing a1 a4 t with
  | zero => cases h
  | succ k ih =>
    unfold spread at h
    grind [take_held]
theorem evenly_held (s : State) (r : Res) (lo : Nat) (hi : Nat) (total : Nat) (owner : Nat) {t : State} (h : evenly s r lo hi total owner = some t) :
    held t = held s := by
  unfold evenly at h
  (repeat' first | cases h | split at h) <;> with_reducible repeat' first | rfl | refine (spread_held _ _ _ _ _ _ _ _ (by assumption)).trans ?_
theorem bookOut_held (s : State) (x : Ctx) (first : Nat) (last : Nat) (n : Nat) {p0 : _} {t : State} (h : bookOut s x first last n = some (p0, t)) :
    held t = held s := by
  unfold bookOut at h
  (repeat' first | cases h | split at h) <;> with_reducible repeat' first | rfl | refine (fill_held _ _ _ _ _ _ _ (by assumption)).trans ?_
theorem bookIn_held (s : State) (x : Ctx) (first : Nat) (last : Nat) (n : Nat) {p0 : _} {t : State} (h : bookIn s x first last n = some (p0, t)) :
    held t = held s := by
  unfold bookIn at h
  grind [→ fill_held, Option.map_eq_some_iff]
theorem bookFill_held (s : State) (line : Nat) (b : Nat) (last : Nat) (owner : Nat) {p0 : _} {t : State} (h : bookFill s line b last owner = some (p0, t)) :
    held t = held s := by
  unfold bookFill at h
  obtain ⟨u, _, h⟩ := Option.map_eq_some_iff.mp h
  cases h
  exact ite_held rfl (take_held _ _ _ _ _)
theorem planFar_held (s : State) (psa : Nat) (n : Nat) (b : Nat) (limit : Nat) (owner : Nat) {p0 : _} {t : State} (h : planFar s psa n b limit owner = some (p0, t)) :
    held t = held s := by
  unfold planFar at h
  dsimp only at h
  (repeat' first | cases h | split at h) <;> with_reducible repeat' first | rfl | refine (take_held ..).trans ?_
theorem tagSince_held (s : State) (t : State) (tag : Nat) :
    held (tagSince s t tag) = held t := by
  unfold tagSince
  with_reducible repeat' first | rfl | refine (updPlan_held ..).trans ?_
theorem ladderSlot_held (s : State) (x : Ctx) (psa : Nat) (i : Nat) (b : Nat) (limit : Nat) (sensed : Bool) {t : State} (h : ladderSlot s x psa i b limit sensed = some t) :
    held t = held s := by
  unfold ladderSlot at h
  obtain ⟨u, h1, rfl⟩ := Option.map_eq_some_iff.mp h
  refine (tagSince_held _ _ _).trans ?_
  clear h
  have go : ∀ (m : Option State) (r : Res) (k : Nat) (u : State), (m.bind fun s => (fill calFuel s r b limit k x.adm).map Prod.snd) = some u →
      ∃ v, m = some v ∧ held u = held v := fun m r k u e => by
    obtain ⟨v, e1, e2⟩ := Option.bind_eq_some_iff.mp e
    exact ⟨v, e1, map_held (fun _ _ e => fill_held _ _ _ _ _ _ _ e) e2⟩
  obtain ⟨v1, e1, k1⟩ := go _ _ _ _ h1
  obtain ⟨v2, e2, k2⟩ := go _ _ _ _ e1
  obtain ⟨v3, e3, k3⟩ := go _ _ _ _ e2
  obtain ⟨v4, e4, k4⟩ := go _ _ _ _ e3
  obtain ⟨v5, e5, k5⟩ := go _ _ _ _ e4
  obtain ⟨v6, e6, k6⟩ := go _ _ _ _ e5
  cases e6
  exact k1.trans (k2.trans (k3.trans (k4.trans (k5.trans k6))))
theorem bookLadder_held (s : State) (x : Ctx) (psa : Nat) (n : Nat) (b : Nat) (limit : Nat) (sensed : Bool) {t : State} (h : bookLadder s x psa n b limit sensed = some t) :
    held t = held s := by
  unfold bookLadder at h
  split at h
  · cases h
    rfl
  · exact bindFold_held _ (fun _ _ _ e => ladderSlot_held _ _ _ _ _ _ _ e) _ _ _ (fun _ e => by cases e; rfl) _ h
theorem opTime_held (s : State) (d : Nat) (en : Nat) (o : ArrayOp) :
    held (opTime s d en o) = held s := by
  unfold opTime
  try dsimp only
  with_reducible repeat' first | rfl | refine (bookEven_held ..).trans ?_ | refine (foldl_held _ (fun _ _ => ?_) _ _).trans ?_ | refine ite_held ?_ ?_ | refine ite_held2 ?_ ?_ | split
theorem unqueue_held (s : State) (d : Nat) (n : Nat) (o : ArrayOp) :
    held (unqueue s d n o) = held s := by
  unfold unqueue
  with_reducible repeat' first | rfl | refine (updPlan_held ..).trans ?_ | refine (modDie_held ..).trans ?_
theorem movePost_held (s : State) (x : Ctx) (e : Nat) {t : State} (h : movePost s x e = some t) :
    held t = held s := by
  unfold movePost at h
  grind [→ bookOut_held, modCtx_held, take_held, updPlan_held, Option.map_eq_some_iff, Option.bind_eq_some_iff]
theorem requeueRead_held (s : State) (d : Nat) (n : Nat) (o : ArrayOp) {t : State} (h : requeueRead s d n o = some t) :
    held t = held s := by
  unfold requeueRead at h
  grind [→ planSlot_held, → movePost_held, Option.map_eq_some_iff, Option.bind_eq_some_iff]
theorem requeueProgram_held (s : State) (d : Nat) (o : ArrayOp) {t : State} (h : requeueProgram s d o = some t) :
    held t = held s := by
  unfold requeueProgram at h
  grind [opTime_held, queueOp_held, Option.map_eq_some_iff, Option.bind_eq_some_iff]
theorem requeue_held (s : State) (d : Nat) (n : Nat) (o : ArrayOp) {t : State} (h : requeue s d n o = some t) :
    held t = held s := by
  unfold requeue at h
  grind [→ requeueRead_held, → requeueProgram_held, → planSlot_held, → placeOp_held, Option.map_eq_some_iff, Option.bind_eq_some_iff]
theorem planAhead_held (s : State) (psa : Nat) (n : Nat) (b : Nat) (limit : Nat) (dline : Nat) (owner : Nat) {p0 : _} {t : State} (h : planAhead s psa n b limit dline owner = some (p0, t)) :
    held t = held s := by
  unfold planAhead at h
  dsimp only at h
  split at h
  · cases h
  · split at h
    · cases h
    · split at h
      · cases h
      · rename_i e s1 h1
        obtain ⟨u, h2, e2⟩ := Option.map_eq_some_iff.mp h
        cases e2
        refine (bindFold_held _ (fun _ _ _ e => requeue_held _ _ _ _ e) _ _ _ (fun _ e => by cases e; rfl) _ h2).trans ?_
        exact (planSlot_held _ _ _ _ _ _ _ _ h1).trans (foldl_held _ (fun _ _ => unqueue_held _ _ _ _) _ _)
theorem ladder_held {x : Ctx} {psa n b limit : Nat} {c : Bool} {r : GranRead} {m : Option (Nat × State)} {y : Held} (hm : ∀ e u, m = some (e, u) → held u = y)
    {p0 : Nat} {p1 : GranRead} {t : State} (h : (m.bind fun p => (bookLadder p.2 x psa n b limit c).map fun s1 => (p.1, r, s1)) = some (p0, p1, t)) :
    held t = y := by
  obtain ⟨⟨e, u⟩, hu, h⟩ := Option.bind_eq_some_iff.mp h
  obtain ⟨v, hv, h⟩ := Option.map_eq_some_iff.mp h
  cases h
  exact (bookLadder_held _ _ _ _ _ _ _ hv).trans (hm e u hu)
theorem around_held {s : State} {psa n : Nat} {sh : Share} {b limit dline owner : Nat} (e : Nat) (u : State)
    (h : ((planAround s psa n sh b limit dline owner).map fun p => (p.1 + 1, p.2)) = some (e, u)) : held u = held s := by
  obtain ⟨p, hp, h⟩ := Option.map_eq_some_iff.mp h
  cases h
  exact planAround_held _ _ _ _ _ _ _ _ hp
theorem planGran_held (s : State) (x : Ctx) (r : GranRead) (b : Nat) (limit : Nat) {p0 : _} {p1 : _} {t : State} (h : planGran s x r b limit = some (p0, p1, t)) :
    held t = held s := by
  unfold planGran at h
  dsimp only at h
  split at h
  · split at h
    · exact ladder_held around_held h
    · split at h
      · split at h
        · rename_i hp
          cases h
          exact ladder_held (fun _ _ => shareRead_held _ _ _ _ _ _) hp
        split at h
        · rename_i hp
          cases h
          exact ladder_held (fun _ _ => planSlot_held _ _ _ _ _ _ _ _) hp
        split at h
        · rename_i hp
          cases h
          refine ladder_held (fun _ _ e => ?_) hp
          split at e
          · exact planFar_held _ _ _ _ _ _ e
          · cases e
        split at h
        · rename_i hp
          cases h
          exact ladder_held (fun _ _ => planAhead_held _ _ _ _ _ _ _) hp
        replace h := ite_none h
        split at h
        · rename_i hp
          cases h
          exact ladder_held (fun _ _ => planSuspend_held _ _ _ _ _ _ _) hp
        · exact ladder_held around_held h
      · cases h
        rfl
  · cases h
    rfl
theorem planGrans_held (s : State) (x : Ctx) (from_ : Nat → Nat) (limit : Nat) (a4 : List GranRead) {p0 : _} {p1 : _} {t : State} (h : planGrans s x from_ limit a4 = some (p0, p1, t)) :
    held t = held s := by
  induction a4 generalizing s p0 p1 t with
  | nil => cases h; rfl
  | cons r rs ih =>
    unfold planGrans at h
    grind [→ planGran_held, Option.map_eq_some_iff]
theorem bookRecords_held (s : State) (x : Ctx) (records : Nat) (from_ : Nat) {t : State} (h : bookRecords s x records from_ = some t) :
    held t = held s := by
  unfold bookRecords at h
  grind [→ fill_held, Option.map_eq_some_iff, Option.bind_eq_some_iff]
theorem bookDrain_held (s : State) (x : Ctx) (p : Nat) (slots : Nat) (records : Nat) (from_ : Nat) (sideB : Bool) {t : State} (h : bookDrain s x p slots records from_ sideB = some t) :
    held t = held s := by
  unfold bookDrain at h
  dsimp only at h
  have go : ∀ (m : Option State) (r : Res) (last k : Nat) (u : State), (m.bind fun s => (fill calFuel s r from_ last k (drainOwner x.adm)).map Prod.snd) = some u →
      ∃ v, m = some v ∧ held u = held v := fun m r last k u e => by
    obtain ⟨v, e1, e2⟩ := Option.bind_eq_some_iff.mp e
    exact ⟨v, e1, map_held (fun _ _ e => fill_held _ _ _ _ _ _ _ e) e2⟩
  obtain ⟨v1, e1, k1⟩ := go _ _ _ _ _ h
  obtain ⟨v2, e2, k2⟩ := go _ _ _ _ _ e1
  obtain ⟨v3, e3, k3⟩ := go _ _ _ _ _ e2
  exact k1.trans (k2.trans (k3.trans (bookRecords_held _ _ _ _ e3)))
theorem bookThrough_held (s : State) (x : Ctx) (b : Nat) (last : Nat) (slots : Nat) (sideB : Bool) {p0 : _} {t : State} (h : bookThrough s x b last slots sideB = some (p0, t)) :
    held t = held s := by
  unfold bookThrough at h
  dsimp only at h
  (repeat' first | cases h | split at h) <;> with_reducible repeat' first | rfl | refine (fill_held _ _ _ _ _ _ _ (by assumption)).trans ?_
theorem bookJournal_held (s : State) (x : Ctx) (b : Nat) (last : Nat) {p0 : _} {t : State} (h : bookJournal s x b last = some (p0, t)) :
    held t = held s := by
  unfold bookJournal at h
  dsimp only at h
  (repeat' first | cases h | split at h) <;> with_reducible repeat' first | rfl | refine (fill_held _ _ _ _ _ _ _ (by assumption)).trans ?_
theorem Trial_plain_held (s : State) (post : Nat) (last : Nat) (commit : Option Nat) :
    held (Trial.plain s post last commit).st = held s := rfl
theorem bookLookups_held {s : State} {ns : Namespace} {first n b last owner : Nat} {q : Lookups} (h : bookLookups s ns first n b last owner = some q) :
    held q.st = held s := by
  unfold bookLookups at h
  dsimp only at h
  split at h
  · cases h
  · rename_i at_ s1 hf
    have h1 : held s1 = held s := by
      refine stepFold_held _ (fun m l p v hp => ?_) _ _ _ (fun p u e => ?_) _ _ hf
      · rcases m with _ | ⟨acc, u⟩
        · cases hp
        · refine ⟨acc, u, rfl, ?_⟩
          dsimp only at hp
          split at hp
          · rename_i hb
            split at hp
            · cases hp
            · cases hp
              exact bookFill_held _ _ _ _ _ hb
          · cases hp
      · cases e
        exact foldl_held _ (fun _ _ => touchLine_held _ _ _) _ _
    obtain ⟨⟨e, t⟩, hr, rfl⟩ := Option.map_eq_some_iff.mp h
    refine (stepFold_held _ (fun m l p v hp => ?_) _ _ (held s1) (some_held _ _) _ _ hr).trans h1
    rcases m with _ | ⟨acc, u⟩
    · cases hp
    · refine ⟨acc, u, rfl, ?_⟩
      dsimp only at hp
      split at hp
      · cases hp
        exact take_held _ _ _ _ _
      · split at hp
        · cases hp
        · obtain ⟨w, e, hp⟩ := Option.map_eq_some_iff.mp hp
          cases hp
          exact fill_held _ _ _ _ _ _ _ e
theorem tryReads_held (s : State) (x : Ctx) (ns : Namespace) {t : Trial} (h : tryReads s x ns = some t) :
    held t.st = held s := by
  unfold tryReads at h
  dsimp only at h
  split at h
  · cases h
  · rename_i q hq
    split at h
    · cases h
    · split at h
      · cases h
      · rename_i e rs1 s2 hp
        split at h
        · cases h
        · rename_i l s3 hh
          replace h := ite_none h
          · cases h
            refine Eq.trans ?_ ((planGrans_held _ _ _ _ _ hp).trans (bookLookups_held hq))
            clear hp hq
            split at hh
            · exact bookOut_held _ _ _ _ _ hh
            · split at hh
              · exact bookIn_held _ _ _ _ _ hh
              · cases hh
                rfl
theorem bookUpdates_held (s : State) (x : Ctx) (b : Nat) (last : Nat) (n : Nat) {t : State} (h : bookUpdates s x b last n = some t) :
    held t = held s := map_held (fun _ _ => fill_held _ _ _ _ _ _ _) h
theorem tryWrite_held (s : State) (x : Ctx) (ns : Namespace) (through : Bool) (from_ : Nat) {t : Trial} (h : tryWrite s x ns through from_ = some t) :
    held t.st = held s := by
  unfold tryWrite at h
  dsimp only at h
  split at h
  · cases h
  · rename_i l s1 h1
    split at h
    · cases h
    · rename_i p s3 h3
      split at h
      · cases h
      · rename_i j s4 h4
        replace h := ite_none h
        · cases h
          refine (bookJournal_held _ _ _ _ h4).trans (Eq.trans ?_ (bookIn_held _ _ _ _ _ h1))
          clear h4 h1
          split at h3
          · cases h3
          · rename_i s2 h2
            have e2 : held s2 = held s1 := by
              split at h2
              · exact map_held (fun _ _ e => fill_held _ _ _ _ _ _ _ e) h2
              · cases h2
                rfl
            refine Eq.trans ?_ e2
            split at h3
            · obtain ⟨⟨q, u⟩, k1, k2⟩ := Option.bind_eq_some_iff.mp h3
              obtain ⟨v, k3, k4⟩ := Option.bind_eq_some_iff.mp k2
              obtain ⟨w, k5, k6⟩ := Option.map_eq_some_iff.mp k4
              cases k6
              exact (bookUpdates_held _ _ _ _ _ k5).trans ((bookRecords_held _ _ _ _ k3).trans (bookThrough_held _ _ _ _ _ _ k1))
            · obtain ⟨v, k3, k4⟩ := Option.bind_eq_some_iff.mp h3
              obtain ⟨w, k5, k6⟩ := Option.map_eq_some_iff.mp k4
              cases k6
              exact (bookUpdates_held _ _ _ _ _ k5).trans (bookDrain_held _ _ _ _ _ _ _ k3)
theorem tryUnmap_held (s : State) (x : Ctx) {t : Trial} (h : tryUnmap s x = some t) :
    held t.st = held s := by
  unfold tryUnmap at h
  grind [→ fill_held, → bookRecords_held, → bookJournal_held, Trial_plain_held, Option.map_eq_some_iff, Option.bind_eq_some_iff]
theorem tryFlush_held (s : State) (x : Ctx) {t : Trial} (h : tryFlush s x = some t) :
    held t.st = held s := by
  unfold tryFlush at h
  dsimp only at h
  (repeat' first | cases h | split at h) <;> with_reducible repeat' first | rfl | refine (Trial_plain_held ..).trans ?_
theorem pickGaffer_held (s : State) (x : Ctx) (f : Nat) (p : Nat) (e : Nat) {p0 : _} {t : State} (h : pickGaffer s x f p e = some (p0, t)) :
    held t = held s := by
  unfold pickGaffer at h
  grind [→ evenly_held, Option.map_eq_some_iff]
theorem bookMoves_held (s : State) (x : Ctx) (f : Nat) (p : Nat) {t : State} (h : bookMoves s x f p = some t) :
    held t = held s := by
  unfold bookMoves at h
  dsimp only at h
  split at h
  · cases h
  · rename_i s1 hh
    refine (evenly_held _ _ _ _ _ _ h).trans ?_
    clear h
    split at hh
    · cases hh
      rfl
    · split at hh
      · cases hh
      · rename_i s2 h2
        obtain ⟨s3, h3, hh⟩ := Option.bind_eq_some_iff.mp hh
        exact (evenly_held _ _ _ _ _ _ hh).trans ((evenly_held _ _ _ _ _ _ h3).trans (evenly_held _ _ _ _ _ _ h2))
theorem placeProgram_held (s : State) (x : Ctx) (f : Nat) (e : Nat) (limit : Nat) {p0 : _} {p1 : _} {t : State} (h : placeProgram s x f e limit = some (p0, p1, t)) :
    held t = held s := by
  unfold placeProgram at h
  dsimp only at h
  split at h
  · cases h
  · obtain ⟨p, _, h⟩ := Option.bind_eq_some_iff.mp h
    split at h
    · cases h
    · rename_i s1 h1
      obtain ⟨r, hr, h⟩ := Option.map_eq_some_iff.mp h
      cases h
      exact (pickGaffer_held _ _ _ _ _ hr).trans (bookMoves_held _ _ _ _ h1)
theorem bookMirror_held (s : State) (x : Ctx) (b : Nat) (last : Nat) (ns : Namespace) {t : State} (h : bookMirror s x b last ns = some t) :
    held t = held s := by
  unfold bookMirror at h
  split at h
  · exact map_held (fun _ _ => fill_held _ _ _ _ _ _ _) h
  · cases h
    rfl
theorem tryProgram_held (s : State) (x : Ctx) (ns : Option Namespace) (through : Bool) (from_ : Nat) {t : Trial} (h : tryProgram s x ns through from_ = some t) :
    held t.st = held s := by
  unfold tryProgram at h
  dsimp only at h
  split at h
  · cases h
  · rename_i e m fed s1 hr
    have h1 : held s1 = held s := by
      clear h
      grind [→ bookLookups_held, → planGrans_held, Option.map_eq_some_iff]
    clear hr
    split at h
    · cases h
    · rename_i e1 s2 hm
      have h2 : held s2 = held s1 := by
        clear h
        split at hm
        · split at hm
          · cases hm
            rfl
          · split at hm
            · obtain ⟨⟨q, u⟩, k1, k2⟩ := Option.bind_eq_some_iff.mp hm
              obtain ⟨v, k3, k4⟩ := Option.bind_eq_some_iff.mp k2
              obtain ⟨w, k5, k6⟩ := Option.map_eq_some_iff.mp k4
              cases k6
              exact (bookUpdates_held _ _ _ _ _ k5).trans ((bookRecords_held _ _ _ _ k3).trans (bookThrough_held _ _ _ _ _ _ k1))
            · obtain ⟨v, k3, k4⟩ := Option.bind_eq_some_iff.mp hm
              obtain ⟨u, k1, k2⟩ := Option.bind_eq_some_iff.mp k3
              obtain ⟨w, k5, k6⟩ := Option.map_eq_some_iff.mp k4
              cases k6
              exact (bookUpdates_held _ _ _ _ _ k5).trans ((bookMirror_held _ _ _ _ _ k2).trans (bookDrain_held _ _ _ _ _ _ _ k1))
        · cases hm
          rfl
      clear hm
      split at h
      · cases h
      · rename_i j s3 hj
        have h3 : held s3 = held s2 := by
          clear h
          split at hj
          · exact bookJournal_held _ _ _ _ hj
          · cases hj
            rfl
        clear hj
        obtain ⟨⟨p, g, u⟩, k1, rfl⟩ := Option.map_eq_some_iff.mp h
        exact (placeProgram_held _ _ _ _ _ k1).trans (h3.trans (h2.trans h1))
theorem settleOp_held (s : State) (die : Nat) (o : ArrayOp) :
    held (settleOp s die o) = held s := by
  unfold settleOp
  try dsimp only
  with_reducible repeat' first | rfl | refine (programPassed_held ..).trans ?_ | refine (modBlock_held ..).trans ?_ | refine (foldl_held _ (fun _ _ => ?_) _ _).trans ?_ | refine ite_held ?_ ?_ | refine ite_held2 ?_ ?_ | split
theorem settle_held (s : State) :
    held (settle s) = held s := by
  unfold settle
  with_reducible repeat' first | rfl | refine (updFlash_held ..).trans ?_ | refine (settleOp_held ..).trans ?_ | refine (foldl_held _ (fun _ _ => ?_) _ _).trans ?_
theorem openFlushBand_held (s : State) (octs : List Nat) {p0 : _} {t : State} (h : openFlushBand s octs = some (p0, t)) :
    held t = held s := by
  unfold openFlushBand at h
  (repeat' first | cases h | split at h) <;> with_reducible repeat' first | rfl | refine (drawReserve_held ..).trans ?_ | refine (takeAcc_held ..).trans ?_ | refine (startBand_held _ _ _ _ (by assumption)).trans ?_
theorem flushBandFor_held (s : State) (octs : List Nat) (cur : Option Nat) (page : Bool) {p0 : _} {t : State} (h : flushBandFor s octs cur page = some (p0, t)) :
    held t = held s := by
  unfold flushBandFor at h
  dsimp only at h
  (repeat' first | cases h | split at h) <;> with_reducible repeat' first | rfl | refine (fillStripe_held ..).trans ?_ | refine (openFlushBand_held _ _ (by assumption)).trans ?_
theorem flushOne_held (octs : List Nat) (w : Option Nat × State) (rs : List SlotRec) :
    held (flushOne octs w rs).2 = held w.2 := by
  unfold flushOne
  with_reducible repeat' first | rfl | refine (modBand_held ..).trans ?_ | refine (putSlot_held ..).trans ?_ | refine (foldl_held _ (fun _ _ => ?_) _ _).trans ?_ | refine (flushBandFor_held _ _ _ _ (by assumption)).trans ?_ | split
theorem flushJournal_held (a0 : Nat) (a1 : State) :
    held (flushJournal a0 a1) = held a1 := by
  induction a0 generalizing a1 with
  | zero => rfl
  | succ k ih =>
    unfold flushJournal
    exact ite_held rfl ((ih _).trans ((placeJournal_held _ _ _).trans (journalDrain_held _ _ _)))
theorem padStripe_held (s : State) (serial : Nat) :
    held (padStripe s serial) = held s := by
  unfold padStripe
  with_reducible repeat' first | rfl | refine (fillStripe_held ..).trans ?_ | split
theorem verifyFlush_held (s : State) :
    held (verifyFlush s) = held s := rfl
theorem flushes_held (octs : List Nat) (l : List (List GatherSlot)) (w : Option Nat × State) :
    held (l.foldl (fun w g => flushOne octs w (g.map (gatherRec w.2))) w).2 = held w.2 := by
  induction l generalizing w with
  | nil => rfl
  | cons g l ih => exact (ih _).trans (flushOne_held _ _ _)
theorem flushAll_held (s : State) (write : Bool) (mirror : Bool) :
    held (flushAll s write mirror) = held s := by
  refine (verifyFlush_held _).trans ((foldl_held _ (fun _ _ => padStripe_held _ _) _ _).trans ?_)
  have h := (flushes_held (countedOcts s) (if write then flushGranules (settle s).xlat.gather ++ (if mirror then flushGranules (settle s).twin.mirror else []) else [])
    (none, ((settle s).updMedia fun m => { m with bands := m.bands.map fun b => { b with acc := none } }).updXlat fun x =>
      { x with journal := x.journal.map JSlot.unplaced })).trans ((updXlat_held _ _).trans ((updMedia_held _ _).trans (settle_held s)))
  exact ite_held h ((flushJournal_held _ _).trans h)
theorem freeze_held (s : State) :
    held (freeze s) = held s := rfl
theorem startLease_held (s : State) (k : Nat) :
    held (startLease s k) = held s := rfl
theorem startLeases_held (s : State) (ks : List Nat) :
    held (startLeases s ks) = held s := by
  unfold startLeases
  with_reducible repeat' first | rfl | refine (startLease_held ..).trans ?_ | refine (foldl_held _ (fun _ _ => ?_) _ _).trans ?_ | refine ite_held ?_ ?_
theorem goDark_held (s : State) (k : Nat) :
    held (goDark s k) = held s := by
  unfold goDark
  with_reducible repeat' first | rfl | refine (updFlash_held ..).trans ?_ | refine (reach_held ..).trans ?_ | refine (modOct_held ..).trans ?_ | refine (event_held ..).trans ?_
theorem faultDown_held (s : State) (k : Nat) :
    held (faultDown s k) = held s := by
  unfold faultDown
  with_reducible repeat' first | rfl | refine (goDark_held ..).trans ?_ | refine ite_held ?_ ?_
theorem reachRunning_held (s : State) (p : Nat → Bool) (octDark : Bool) :
    held (reachRunning s p octDark) = held s := by
  unfold reachRunning
  try dsimp only
  with_reducible repeat' first | rfl | refine (modDie_held ..).trans ?_ | refine (reach_held ..).trans ?_ | refine (foldl_held _ (fun _ _ => ?_) _ _).trans ?_ | refine ite_held ?_ ?_ | refine ite_held2 ?_ ?_ | split
theorem startDrain_held (s : State) (k : Nat) (prompt : Bool) :
    held (startDrain s k prompt) = held s := by
  unfold startDrain
  try dsimp only
  with_reducible repeat' first | rfl | refine (modOct_held ..).trans ?_ | refine (reachRunning_held ..).trans ?_ | refine (foldl_held _ (fun _ _ => ?_) _ _).trans ?_ | refine ite_held ?_ ?_ | refine ite_held2 ?_ ?_ | split
theorem askDrain_held (s : State) (k : Nat) :
    held (askDrain s k) = held s := by
  unfold askDrain
  try dsimp only
  with_reducible repeat' first | rfl | refine (modOct_held ..).trans ?_ | refine (startDrain_held ..).trans ?_ | refine (foldl_held _ (fun _ _ => ?_) _ _).trans ?_ | refine ite_held ?_ ?_ | refine ite_held2 ?_ ?_ | split
theorem drainAsked_held (s : State) :
    held (drainAsked s) = held s := by
  unfold drainAsked
  try dsimp only
  with_reducible repeat' first | rfl | refine (startDrain_held ..).trans ?_ | refine (foldl_held _ (fun _ _ => ?_) _ _).trans ?_ | refine ite_held ?_ ?_ | refine ite_held2 ?_ ?_ | split
theorem stopPowering_held (s : State) (k : Nat) :
    held (stopPowering s k) = held s := by
  unfold stopPowering
  try dsimp only
  with_reducible repeat' first | rfl | refine (modOct_held ..).trans ?_ | refine (goDark_held ..).trans ?_ | refine (foldl_held _ (fun _ _ => ?_) _ _).trans ?_ | refine ite_held ?_ ?_ | refine ite_held2 ?_ ?_ | split
theorem execOctDrainEnd_held (k : Nat) (s : State) {t : State} (h : execOctDrainEnd k s = .next t) :
    held t = held s := by
  cases h
  with_reducible repeat' first | rfl | refine (reach_held ..).trans ?_ | refine (modOct_held ..).trans ?_ | refine ite_held ?_ ?_
theorem execOctVccqOff_held (k : Nat) (s : State) {t : State} (h : execOctVccqOff k s = .next t) :
    held t = held s := by
  cases h
  with_reducible repeat' first | rfl | refine (goDark_held ..).trans ?_ | refine ite_held ?_ ?_
theorem execRailTrip_held (k : Nat) (s : State) {t : State} (h : execRailTrip k s = .next t) :
    held t = held s := by
  cases h
  with_reducible repeat' first | rfl | refine (modOct_held ..).trans ?_ | refine (faultDown_held ..).trans ?_ | refine ite_held ?_ ?_
theorem execCarrierPresenceLoss_held (j : Nat) (s : State) {t : State} (h : execCarrierPresenceLoss j s = .next t) :
    held t = held s := by
  cases h
  with_reducible repeat' first | rfl | refine (updFlash_held ..).trans ?_ | refine (faultDown_held ..).trans ?_ | refine (foldl_held _ (fun _ _ => ?_) _ _).trans ?_ | refine ite_held ?_ ?_
theorem execOctPowerStart_held (k : Nat) (s : State) {t : State} (h : execOctPowerStart k s = .next t) :
    held t = held s := by
  cases h
  with_reducible repeat' first | rfl | refine (modOct_held ..).trans ?_ | refine ite_held ?_ ?_
theorem powerStep_held (s : State) (k : Nat) (phase : Nat) (first : Nat) (last : Nat) (f : State → State) (hf : ∀ u, held (f u) = held u) :
    held (powerStep s k phase first last f) = held s := by
  unfold powerStep
  try dsimp only
  with_reducible repeat' first | rfl | refine (stopPowering_held ..).trans ?_ | refine (hf _).trans ?_ | refine (foldl_held _ (fun _ _ => ?_) _ _).trans ?_ | refine ite_held ?_ ?_ | refine ite_held2 ?_ ?_ | split
theorem execOctVccGood_held (k : Nat) (s : State) {t : State} (h : execOctVccGood k s = .next t) :
    held t = held s := by
  cases h
  try dsimp only
  with_reducible repeat' first | rfl | refine (powerStep_held _ _ _ _ _ _ (fun _ => ?_)).trans ?_ | refine (modOct_held ..).trans ?_ | refine (foldl_held _ (fun _ _ => ?_) _ _).trans ?_ | refine ite_held ?_ ?_ | refine ite_held2 ?_ ?_ | split
theorem execOctVccqGood_held (k : Nat) (s : State) {t : State} (h : execOctVccqGood k s = .next t) :
    held t = held s := by
  cases h
  try dsimp only
  with_reducible repeat' first | rfl | refine (powerStep_held _ _ _ _ _ _ (fun _ => ?_)).trans ?_ | refine (modOct_held ..).trans ?_ | refine (foldl_held _ (fun _ _ => ?_) _ _).trans ?_ | refine ite_held ?_ ?_ | refine ite_held2 ?_ ?_ | split
theorem execOctResetTimer_held (k : Nat) (s : State) {t : State} (h : execOctResetTimer k s = .next t) :
    held t = held s := by
  cases h
  try dsimp only
  with_reducible repeat' first | rfl | refine (powerStep_held _ _ _ _ _ _ (fun _ => ?_)).trans ?_ | refine (emit_held ..).trans ?_ | refine (modOct_held ..).trans ?_ | refine (foldl_held _ (fun _ _ => ?_) _ _).trans ?_ | refine ite_held ?_ ?_ | refine ite_held2 ?_ ?_ | split
theorem execRailGoodTimeout_held (k : Nat) (s : State) {t : State} (h : execRailGoodTimeout k s = .next t) :
    held t = held s := by
  cases h
  with_reducible repeat' first | rfl | refine (modOct_held ..).trans ?_ | refine (faultDown_held ..).trans ?_ | refine ite_held ?_ ?_
theorem clearDark_held (s : State) :
    held (clearDark s) = held s := rfl
theorem octLive_held (s : State) (k : Nat) :
    held (octLive s k) = held s := by
  unfold octLive
  with_reducible repeat' first | rfl | refine (updFlash_held ..).trans ?_ | refine (modOct_held ..).trans ?_ | refine (clearDark_held ..).trans ?_ | refine (event_held ..).trans ?_ | refine ite_held ?_ ?_
theorem setInterface_held (s : State) (k : Nat) :
    held (setInterface s k) = held s := by
  unfold setInterface
  try dsimp only
  with_reducible repeat' first | rfl | refine (busCmd_held ..).trans ?_ | refine (foldl_held _ (fun _ _ => ?_) _ _).trans ?_ | refine ite_held ?_ ?_ | refine ite_held2 ?_ ?_ | split
theorem identified_held (s : State) (k : Nat) :
    held (identified s k) = held s := by
  unfold identified
  try dsimp only
  with_reducible repeat' first | rfl | refine (stopPowering_held ..).trans ?_ | refine (octLive_held ..).trans ?_ | refine (modChan_held ..).trans ?_ | refine (setInterface_held ..).trans ?_ | refine (modOct_held ..).trans ?_ | refine (foldl_held _ (fun _ _ => ?_) _ _).trans ?_ | refine ite_held ?_ ?_ | refine ite_held2 ?_ ?_ | split
theorem lunSeen_held (s : State) (die : Nat) (rows : Nat) (found : Bool) :
    held (lunSeen s die rows found) = held s := by
  unfold lunSeen
  with_reducible repeat' first | rfl | refine (updFlash_held ..).trans ?_ | refine (modOct_held ..).trans ?_ | refine (identified_held ..).trans ?_ | refine ite_held ?_ ?_
theorem identifyCmds_held (s : State) (die : Nat) :
    held (identifyCmds s die) = held s := by
  unfold identifyCmds
  try dsimp only
  with_reducible repeat' first | rfl | refine (busCmd_held ..).trans ?_ | refine (foldl_held _ (fun _ _ => ?_) _ _).trans ?_ | refine ite_held ?_ ?_ | refine ite_held2 ?_ ?_ | split
theorem execLunReady_held (die : Nat) (params : List Nat) (s : State) {t : State} (h : execLunReady die params s = .next t) :
    held t = held s := by
  cases h
  try dsimp only
  with_reducible repeat' first | rfl | refine (lunSeen_held ..).trans ?_ | refine (identifyCmds_held ..).trans ?_ | refine (foldl_held _ (fun _ _ => ?_) _ _).trans ?_ | refine ite_held ?_ ?_ | refine ite_held2 ?_ ?_ | split
theorem execLunReadyTimeout_held (die : Nat) (s : State) {t : State} (h : execLunReadyTimeout die s = .next t) :
    held t = held s := by
  cases h
  with_reducible repeat' first | rfl | refine (lunSeen_held ..).trans ?_ | refine ite_held ?_ ?_
theorem trainEnd_held (s : State) (n : Nat) (from_ : Nat) (eyes : List Nat) (out : List Nat) :
    held (trainEnd s n from_ eyes out) = held s := by
  unfold trainEnd
  dsimp only
  with_reducible repeat' first | rfl | refine (updFlash_held ..).trans ?_ | refine (modChan_held ..).trans ?_ | split
theorem execTrainingDone_held (chan : Nat) (eyes : List Nat) (out : List Nat) (s : State) {t : State} (h : execTrainingDone chan eyes out s = .next t) :
    held t = held s := by
  cases h
  try dsimp only
  with_reducible repeat' first | rfl | refine (stopPowering_held ..).trans ?_ | refine (octLive_held ..).trans ?_ | refine (trainEnd_held ..).trans ?_ | refine (foldl_held _ (fun _ _ => ?_) _ _).trans ?_ | refine ite_held ?_ ?_ | refine ite_held2 ?_ ?_ | split
theorem execRecentre_held (chan : Nat) (eye : Nat) (s : State) {t : State} (h : execRecentre chan eye s = .next t) :
    held t = held s := by
  cases h
  try dsimp only
  with_reducible repeat' first | rfl | refine (book_held ..).trans ?_ | refine (modChan_held ..).trans ?_ | refine (reachRunning_held ..).trans ?_ | refine (foldl_held _ (fun _ _ => ?_) _ _).trans ?_ | refine ite_held ?_ ?_ | refine ite_held2 ?_ ?_ | split
theorem octPower_held (s : State) (v : BitVec 64) :
    held (octPower s v) = held s := by
  unfold octPower
  with_reducible repeat' first | rfl | refine (updFlash_held ..).trans ?_ | refine (storeNv_held ..).trans ?_ | refine (modOct_held ..).trans ?_ | refine (startDrain_held ..).trans ?_ | refine (startLeases_held ..).trans ?_ | refine (foldl_held _ (fun _ _ => ?_) _ _).trans ?_ | refine ite_held ?_ ?_
theorem octFault_held (s : State) (v : BitVec 64) :
    held (octFault s v) = held s := by
  unfold octFault
  with_reducible repeat' first | rfl | refine (updFlash_held ..).trans ?_
theorem execFchOctPower_held (c : Nat) (s : State) {t : State} (h : execFchOctPower c s = .next t) :
    held t = held s := by
  cases h
  with_reducible repeat' first | rfl | refine (setDone_held ..).trans ?_ | refine (storeDue_held ..).trans ?_ | split
theorem execFchOctFault_held (c : Nat) (s : State) {t : State} (h : execFchOctFault c s = .next t) :
    held t = held s := by
  cases h
  with_reducible repeat' first | rfl | refine (setDone_held ..).trans ?_ | refine (storeDue_held ..).trans ?_ | split
theorem ownMode_held (s : State) :
    held (ownMode s) = held s := by
  unfold ownMode
  try dsimp only
  with_reducible repeat' first | rfl | refine (updFlash_held ..).trans ?_ | refine (startLeases_held ..).trans ?_ | refine (foldl_held _ (fun _ _ => ?_) _ _).trans ?_ | refine ite_held ?_ ?_ | refine ite_held2 ?_ ?_ | split
theorem execGrantLoss_held (k : Nat) (s : State) {t : State} (h : execGrantLoss k s = .next t) :
    held t = held s := by
  cases h
  with_reducible repeat' first | rfl | refine (updFlash_held ..).trans ?_ | refine (modOct_held ..).trans ?_ | refine (faultDown_held ..).trans ?_ | refine ite_held ?_ ?_
theorem execLeaseRetry_held (k : Nat) (s : State) {t : State} (h : execLeaseRetry k s = .next t) :
    held t = held s := by
  cases h
  dsimp only
  with_reducible repeat' first | rfl | refine (startLease_held ..).trans ?_ | refine (modOct_held ..).trans ?_ | split
theorem setTwin_held (s : State) (t : TwinSt) :
    held (setTwin s t) = held s := by
  unfold setTwin
  with_reducible repeat' first | rfl | refine (updTwin_held ..).trans ?_ | refine (eventIf_held ..).trans ?_
theorem raiseEpoch_held (s : State) (sideB : Bool) :
    held (raiseEpoch s sideB) = held s := rfl
theorem drawWords_held (s : State) (n : Nat) :
    held (drawWords s n).2 = held s := rfl
theorem sendCtrl_held (s : State) (code : Nat) :
    held (sendCtrl s code) = held s := by
  unfold sendCtrl
  with_reducible repeat' first | rfl | refine (drawFree_held ..).trans ?_ | refine (sendPunty_held ..).trans ?_
theorem sendAck_held (s : State) :
    held (sendAck s) = held s := by
  unfold sendAck
  with_reducible repeat' first | rfl | refine (sendPunty_held ..).trans ?_
theorem sendKeyx_held (s : State) (nsid : Nat) (epoch : Nat) (old : Nat) :
    held (sendKeyx s nsid epoch old) = held s := by
  unfold sendKeyx
  with_reducible repeat' first | rfl | refine (drawWords_held ..).trans ?_ | refine (sendPunty_held ..).trans ?_
theorem sendGranule_held (s : State) (ns : Namespace) (gran : Nat) (slot : Nat) (seq : Nat) (key : Nat) (l : Loc) :
    held (sendGranule s ns gran slot seq key l) = held s := by
  unfold sendGranule
  with_reducible repeat' first | rfl | refine (sendPunty_held ..).trans ?_
theorem heartbeat_held (s : State) :
    held (heartbeat s) = held s := by
  unfold heartbeat
  with_reducible repeat' first | rfl | refine (updTwin_held ..).trans ?_ | refine (sendPunty_held ..).trans ?_ | refine ite_held ?_ ?_
theorem closeLine_held (a0 : Nat) (a1 : State) (a2 : Nat) :
    held (closeLine a0 a1 a2) = held a1 := by
  induction a0 generalizing a1 with
  | zero => rfl
  | succ k ih =>
    unfold closeLine
    try dsimp only
    with_reducible repeat' (first | rfl | refine (foldl_held _ (fun _ _ => ?_) _ _).trans ?_ | refine ite_held ?_ ?_ | refine ite_held2 ?_ ?_ | refine (updBeatFrac_held _ _).trans ?_ | refine (updFns_held _ _).trans ?_ | refine (updLinks_held _ _).trans ?_ | refine (updRings_held _ _).trans ?_ | refine (updPlan_held _ _).trans ?_ | refine (updCtxs_held _ _).trans ?_ | refine (updZci_held _ _).trans ?_ | refine (updXlat_held _ _).trans ?_ | refine (updMedia_held _ _).trans ?_ | refine (updCare_held _ _).trans ?_ | refine (updFlash_held _ _).trans ?_ | refine (updMovers_held _ _).trans ?_ | refine (updTwin_held _ _).trans ?_ | refine (updCane_held _ _).trans ?_ | refine (updPower_held _ _).trans ?_ | refine (updDay_held _ _).trans ?_ | refine (updTherm_held _ _).trans ?_ | refine (updNor_held _ _).trans ?_ | refine (updSide_held _ _).trans ?_ | refine (updNv_held _ _).trans ?_ | refine (updDue_held _ _).trans ?_ | refine (updOut_held _ _).trans ?_ | refine (updFreeCtr_held _ _).trans ?_ | refine (closeStripe_held ..).trans ?_ | refine (closeBand_held ..).trans ?_ | refine (ih _).trans ?_ | split)
theorem closePartial_held (s : State) :
    held (closePartial s) = held s := by
  unfold closePartial
  with_reducible repeat' first | rfl | refine (closeLine_held ..).trans ?_ | refine (foldl_held _ (fun _ _ => ?_) _ _).trans ?_
theorem drainStripes_held (s : State) (gs : List GatherSlot) :
    held (drainStripes s gs) = held s := by
  unfold drainStripes
  with_reducible repeat' first | rfl | refine (closePartial_held ..).trans ?_ | refine ite_held ?_ ?_
theorem releaseSide_held (s : State) (sideB : Bool) :
    held (releaseSide s sideB) = held s := by
  unfold releaseSide
  try dsimp only
  with_reducible repeat' first | rfl | refine (updTwin_held ..).trans ?_ | refine (modOct_held ..).trans ?_ | refine (sendCtrl_held ..).trans ?_ | refine (askDrain_held ..).trans ?_ | refine (foldl_held _ (fun _ _ => ?_) _ _).trans ?_ | refine ite_held ?_ ?_ | refine ite_held2 ?_ ?_ | split
theorem detachBeat_held (s : State) :
    held (detachBeat s) = held s := by
  unfold detachBeat
  with_reducible repeat' first | rfl | refine (releaseSide_held ..).trans ?_ | refine (drainStripes_held ..).trans ?_ | refine ite_held ?_ ?_
theorem beginDetach_held (s : State) :
    held (beginDetach s) = held s := by
  unfold beginDetach
  with_reducible repeat' first | rfl | refine (updTwin_held ..).trans ?_ | refine (setTwin_held ..).trans ?_
theorem admitSide_held (s : State) (sideB : Bool) :
    held (admitSide s sideB) = held s := by
  unfold admitSide
  with_reducible repeat' first | rfl | refine (updTwin_held ..).trans ?_ | refine (sendCtrl_held ..).trans ?_ | refine ite_held ?_ ?_
theorem coverBeat_held (s : State) :
    held (coverBeat s) = held s := by
  unfold coverBeat
  with_reducible repeat' first | rfl | refine (updCare_held ..).trans ?_ | refine (updTwin_held ..).trans ?_ | refine (admitSide_held ..).trans ?_ | refine ite_held ?_ ?_
theorem startSync_held (s : State) (peerA : Nat) (peerB : Nat) :
    held (startSync s peerA peerB) = held s := by
  unfold startSync
  with_reducible repeat' first | rfl | refine (updTwin_held ..).trans ?_ | refine (updXlat_held ..).trans ?_ | refine (setTwin_held ..).trans ?_
theorem sendTables_held (s : State) :
    held (sendTables s) = held s := by
  unfold sendTables
  with_reducible repeat' first | rfl | refine (updTwin_held ..).trans ?_ | refine (sendKeyx_held ..).trans ?_ | refine (sendPunty_held ..).trans ?_ | refine (foldl_held _ (fun _ _ => ?_) _ _).trans ?_
theorem sendForeign_held (s : State) (n : Namespace) (line : Nat) (cnt : Nat) :
    held (sendForeign s n line cnt) = held s := by
  unfold sendForeign
  dsimp only
  with_reducible repeat' first | rfl | refine (drawFree_held ..).trans ?_ | refine (sendGranule_held ..).trans ?_ | refine (foldl_held _ (fun _ _ => ?_) _ _).trans ?_ | split
theorem syncRuns_held (a0 : Nat) (a1 : Nat) (a2 : State) :
    held (syncRuns a0 a1 a2) = held a2 := by
  induction a0 generalizing a1 a2 with
  | zero => rfl
  | succ k ih =>
    unfold syncRuns
    try dsimp only
    with_reducible repeat' (first | rfl | refine (foldl_held _ (fun _ _ => ?_) _ _).trans ?_ | refine ite_held ?_ ?_ | refine ite_held2 ?_ ?_ | refine (updBeatFrac_held _ _).trans ?_ | refine (updFns_held _ _).trans ?_ | refine (updLinks_held _ _).trans ?_ | refine (updRings_held _ _).trans ?_ | refine (updPlan_held _ _).trans ?_ | refine (updCtxs_held _ _).trans ?_ | refine (updZci_held _ _).trans ?_ | refine (updXlat_held _ _).trans ?_ | refine (updMedia_held _ _).trans ?_ | refine (updCare_held _ _).trans ?_ | refine (updFlash_held _ _).trans ?_ | refine (updMovers_held _ _).trans ?_ | refine (updTwin_held _ _).trans ?_ | refine (updCane_held _ _).trans ?_ | refine (updPower_held _ _).trans ?_ | refine (updDay_held _ _).trans ?_ | refine (updTherm_held _ _).trans ?_ | refine (updNor_held _ _).trans ?_ | refine (updSide_held _ _).trans ?_ | refine (updNv_held _ _).trans ?_ | refine (updDue_held _ _).trans ?_ | refine (updOut_held _ _).trans ?_ | refine (updFreeCtr_held _ _).trans ?_ | refine (sendForeign_held ..).trans ?_ | refine (sendPunty_held ..).trans ?_ | refine (ih _ _).trans ?_ | split)
theorem handbackBeat_held (s : State) :
    held (handbackBeat s) = held s := by
  unfold handbackBeat
  with_reducible repeat' first | rfl | refine (updTwin_held ..).trans ?_ | refine (releaseSide_held ..).trans ?_ | refine (drainStripes_held ..).trans ?_ | refine ite_held ?_ ?_
theorem sendWaiting_held (s : State) :
    held (sendWaiting s) = held s := by
  unfold sendWaiting
  with_reducible repeat' first | rfl | refine (noteSent_held ..).trans ?_ | refine (sendGranule_held ..).trans ?_ | refine (foldl_held _ (fun _ _ => ?_) _ _).trans ?_ | split
theorem readyBeat_held (s : State) :
    held (readyBeat s) = held s := by
  unfold readyBeat
  with_reducible repeat' first | rfl | refine (updTwin_held ..).trans ?_ | refine (sendCtrl_held ..).trans ?_ | refine (sendWaiting_held ..).trans ?_ | refine ite_held ?_ ?_
theorem pair_held (s : State) :
    held (pair s) = held s := by
  unfold pair
  with_reducible repeat' first | rfl | refine (updTwin_held ..).trans ?_ | refine (setTwin_held ..).trans ?_
theorem syncBeat_held (s : State) :
    held (syncBeat s) = held s := by
  unfold syncBeat
  with_reducible repeat' first | rfl | refine (pair_held ..).trans ?_ | refine (sendTables_held ..).trans ?_ | refine (handbackBeat_held ..).trans ?_ | refine (syncRuns_held ..).trans ?_ | refine (admitSide_held ..).trans ?_ | refine (readyBeat_held ..).trans ?_ | refine ite_held ?_ ?_
theorem twinBeat_held (s : State) :
    held (twinBeat s) = held s := by
  unfold twinBeat
  dsimp only
  with_reducible repeat' first | rfl | refine (heartbeat_held ..).trans ?_ | refine (syncBeat_held ..).trans ?_ | refine (detachBeat_held ..).trans ?_ | refine (coverBeat_held ..).trans ?_ | refine (beginDetach_held ..).trans ?_ | split
theorem rearmBy_held (s : State) (up : Bool) :
    held (rearmBy s up) = held s := by
  unfold rearmBy
  with_reducible repeat' first | rfl | refine (updPower_held ..).trans ?_ | refine (eventIf_held ..).trans ?_
theorem rearm_held (s : State) :
    held (rearm s) = held s := by
  unfold rearm
  with_reducible repeat' first | rfl | refine (rearmBy_held ..).trans ?_
theorem armLowers_held (s : State) :
    held (armLowers s) = held s := by
  unfold armLowers
  try dsimp only
  with_reducible repeat' first | rfl | refine (rearmBy_held ..).trans ?_ | refine (foldl_held _ (fun _ _ => ?_) _ _).trans ?_ | refine ite_held ?_ ?_ | refine ite_held2 ?_ ?_ | split
theorem modFeed_held (s : State) (f : Nat) (g : Feed → Feed) :
    held (modFeed s f g) = held s := rfl
theorem execFeedGood_held (f : Nat) (mv : Int) (s : State) {t : State} (h : execFeedGood f mv s = .next t) :
    held t = held s := by
  cases h
  with_reducible repeat' first | rfl | refine (modFeed_held ..).trans ?_ | refine ite_held ?_ ?_
theorem execFeedDrop_held (f : Nat) (mv : Int) (breaker : Bool) (s : State) {t : State} (h : execFeedDrop f mv breaker s = .next t) :
    held t = held s := by
  cases h
  with_reducible repeat' first | rfl | refine (modFeed_held ..).trans ?_ | refine ite_held ?_ ?_
theorem execOvervoltageLockoutRelease_held (f : Nat) (mv : Int) (s : State) {t : State} (h : execOvervoltageLockoutRelease f mv s = .next t) :
    held t = held s := by
  cases h
  with_reducible repeat' first | rfl | refine (modFeed_held ..).trans ?_ | refine ite_held ?_ ?_
theorem execPwrTestStart_held (h : Nat) (s : State) {t : State} (h : execPwrTestStart h s = .next t) :
    held t = held s := by
  cases h
  with_reducible repeat' first | rfl | refine (updPower_held ..).trans ?_ | refine ite_held ?_ ?_
theorem execPwrTestSinkEnd_held (capUf : Nat) (esr : Nat) (moved : Bool) (s : State) {t : State} (h : execPwrTestSinkEnd capUf esr moved s = .next t) :
    held t = held s := by
  cases h
  with_reducible repeat' first | rfl | refine (updPower_held ..).trans ?_ | refine ite_held ?_ ?_
theorem execPwrTestDone_held (s : State) {t : State} (h : execPwrTestDone s = .next t) :
    held t = held s := by
  cases h
  with_reducible repeat' first | rfl | refine (updPower_held ..).trans ?_ | refine (rearmBy_held ..).trans ?_ | refine ite_held ?_ ?_
theorem execPwrTestNow_held (c : Nat) (s : State) {t : State} (h : execPwrTestNow c s = .next t) :
    held t = held s := by
  cases h
  try dsimp only
  with_reducible repeat' first | rfl | refine (setDone_held ..).trans ?_ | refine (storeDue_held ..).trans ?_ | refine (foldl_held _ (fun _ _ => ?_) _ _).trans ?_ | refine ite_held ?_ ?_ | refine ite_held2 ?_ ?_ | split
theorem stopTest_held (s : State) :
    held (stopTest s) = held s := by
  unfold stopTest
  try dsimp only
  with_reducible repeat' first | rfl | refine (updMem_held _ _ rfl).trans ?_ | refine (foldl_held _ (fun _ _ => ?_) _ _).trans ?_ | refine ite_held ?_ ?_ | refine ite_held2 ?_ ?_ | split
theorem execLossDeclared_held (s : State) {t : State} (h : execLossDeclared s = .next t) :
    held t = held s := by
  cases h
  try dsimp only
  with_reducible repeat' first | rfl | refine (updPower_held ..).trans ?_ | refine (updDay_held ..).trans ?_ | refine (updTherm_held ..).trans ?_ | refine (updPlan_held ..).trans ?_ | refine (freeze_held ..).trans ?_ | refine (stopTest_held ..).trans ?_ | refine (foldl_held _ (fun _ _ => ?_) _ _).trans ?_ | refine ite_held ?_ ?_ | refine ite_held2 ?_ ?_ | split
theorem execLastLightFlushed_held (s : State) {t : State} (h : execLastLightFlushed s = .next t) :
    held t = held s := by
  cases h
  dsimp only
  with_reducible repeat' first | rfl | refine (updPower_held ..).trans ?_ | refine (flushAll_held ..).trans ?_ | refine (sendCtrl_held ..).trans ?_ | refine (norPut_held ..).trans ?_ | refine (wipe_held ..).trans ?_ | refine (startDawn_held ..).trans ?_ | refine (noteWake_held ..).trans ?_ | split
theorem drawBytes_held (s : State) (n : Nat) :
    held (drawBytes s n).2 = held s := by
  unfold drawBytes
  with_reducible repeat' first | rfl | refine (drawWords_held ..).trans ?_
theorem sessionRoom_held (s : State) {t : State} (h : sessionRoom s = some t) :
    held t = held s := by
  unfold sessionRoom at h
  split at h
  · cases h; rfl
  · obtain ⟨x, _, rfl⟩ := Option.map_eq_some_iff.mp h
    exact closeSession_held _ _
theorem addSession_held (s : State) (x : Session) :
    held (addSession s x).2 = held s := rfl
theorem startKex_held (s : State) (node : Nat) (rekeyOf : Option Nat) :
    held (startKex s node rekeyOf).2 = held s := by
  unfold startKex
  with_reducible repeat' first | rfl | refine (drawBytes_held ..).trans ?_ | refine (addSession_held ..).trans ?_ | refine (sendKex_held ..).trans ?_
theorem openTo_held (s : State) (node : Nat) {p0 : _} {t : State} (h : openTo s node = some (p0, t)) :
    held t = held s := by
  unfold openTo at h
  grind [startKex_held, → sessionRoom_held, Option.map_eq_some_iff]
theorem modRepl_held (s : State) (n : Nat) (f : ReplState → ReplState) :
    held (modRepl s n f) = held s := rfl
theorem replStart_held (s : State) :
    held (replStart s) = held s := rfl
theorem replSend_held (s : State) (sid : Nat) (ns : Namespace) (base : Bool) (atom : Bool) (cut : Bool) (seq : Nat) (ops : List (Nat × Nat × List Byte)) :
    held (replSend s sid ns base atom cut seq ops) = held s := by
  unfold replSend
  with_reducible repeat' first | rfl | refine (caneSend_held ..).trans ?_
theorem replOps_held (a0 : Nat) (a1 : State) (a2 : Nat) (a3 : Namespace) (a4 : Nat) :
    held (replOps a0 a1 a2 a3 a4).1 = held a1 := by
  induction a0 generalizing a1 a4 with
  | zero => rfl
  | succ k ih =>
    unfold replOps
    dsimp only
    split
    · rfl
    · exact ite_held1 rfl ((ih _ _).trans ((modRepl_held _ _ _).trans (replSend_held _ _ _ _ _ _ _ _)))
theorem planBase_held (s : State) (ns : Namespace) (l : Loc) {t : State} (h : planBase s ns l = some t) :
    held t = held s := by
  unfold planBase at h
  split at h
  · exact map_held (fun _ _ => planSlot_held _ _ _ _ _ _ _ _) h
  · cases h
    rfl
theorem replBase_held (a0 : Nat) (a1 : State) (a2 : Nat) (a3 : Namespace) (a4 : Nat) :
    held (replBase a0 a1 a2 a3 a4) = held a1 := by
  induction a0 generalizing a1 a4 with
  | zero => rfl
  | succ k ih =>
    unfold replBase
    dsimp only
    split
    · rfl
    · refine ite_held rfl (ite_held (modRepl_held _ _ _) (ite_held rfl ?_))
      split
      · rfl
      · rename_i h
        exact (ih _ _).trans ((modRepl_held _ _ _).trans ((replSend_held _ _ _ _ _ _ _ _).trans (planBase_held _ _ _ h)))
theorem rebase_held (s : State) (n : Nat) :
    held (rebase s n) = held s := by
  unfold rebase
  with_reducible repeat' first | rfl | refine (sweepGather_held ..).trans ?_ | refine (modRepl_held ..).trans ?_
theorem replBeatSource_held (s : State) (r : ReplState) (ns : Namespace) :
    held (replBeatSource s r ns) = held s := by
  unfold replBeatSource
  dsimp only
  with_reducible repeat' first | rfl | refine (rebase_held ..).trans ?_ | refine (modRepl_held ..).trans ?_ | refine (replSend_held ..).trans ?_ | refine (replOps_held ..).trans ?_ | refine (replBase_held ..).trans ?_ | refine (openTo_held _ _ (by assumption)).trans ?_ | split
theorem replAck_held (s : State) (r : ReplState) (x : Session) :
    held (replAck s r x) = held s := by
  unfold replAck
  with_reducible repeat' first | rfl | refine (modRepl_held ..).trans ?_ | refine (caneFrame_held ..).trans ?_
theorem cutOver_held (s : State) (n : Nat) :
    held (cutOver s n) = held s := by
  unfold cutOver
  try dsimp only
  with_reducible repeat' first | rfl | refine (modRepl_held ..).trans ?_ | refine (storeNv_held ..).trans ?_ | refine (settingAppend_held ..).trans ?_ | refine (foldl_held _ (fun _ _ => ?_) _ _).trans ?_ | refine ite_held ?_ ?_ | refine ite_held2 ?_ ?_ | split
theorem replBeatReplica_held (s : State) (r : ReplState) :
    held (replBeatReplica s r) = held s := by
  unfold replBeatReplica
  with_reducible repeat' first | rfl | refine (cutOver_held ..).trans ?_ | refine (replAck_held ..).trans ?_ | split
theorem replBeat_held (s : State) :
    held (replBeat s) = held s := by
  unfold replBeat
  with_reducible repeat' first | rfl | refine (replBeatSource_held ..).trans ?_ | refine (replBeatReplica_held ..).trans ?_ | refine (foldl_held _ (fun _ _ => ?_) _ _).trans ?_ | split
theorem tryAdmin_held (s : State) (x : Ctx) (n : Nat) {t : Trial} (h : tryAdmin s x n = some t) :
    held t.st = held s := by
  unfold tryAdmin at h
  grind [→ bookIn_held, → bookOut_held, → bookRecords_held, → bookJournal_held, Trial_plain_held, Option.map_eq_some_iff, Option.bind_eq_some_iff]
theorem tryWriting_held (s : State) (x : Ctx) (ns : Namespace) (through : Bool) (from_ : Nat) {t : Trial} (h : tryWriting s x ns through from_ = some t) :
    held t.st = held s := by
  unfold tryWriting at h
  try dsimp only at h
  (repeat' first | cases h | split at h) <;> with_reducible repeat' first | rfl | refine (foldl_held _ (fun _ _ => ?_) _ _).trans ?_ | refine ite_held ?_ ?_ | refine ite_held2 ?_ ?_ | refine (tryProgram_held _ _ _ _ _ (by assumption)).trans ?_ | refine (tryWrite_held _ _ _ _ _ (by assumption)).trans ?_ | split
theorem tryArmed_held (s : State) (x : Ctx) (ns : Namespace) {t : Trial} (h : tryArmed s x ns = some t) :
    held t.st = held s := by
  unfold tryArmed at h
  grind [→ tryWriting_held, Option.map_eq_some_iff, Option.bind_eq_some_iff]
theorem tryEntry_held (s : State) (x : Ctx) (n : Nat) {t : Trial} (h : tryEntry s x n = some t) :
    held t.st = held s := by
  unfold tryEntry at h
  grind [→ tryAdmin_held, → tryProgram_held, → tryReads_held, → tryFlush_held, → tryUnmap_held, → tryWriting_held, → tryArmed_held, Option.map_eq_some_iff, Option.bind_eq_some_iff]
theorem noEnergy_held (s : State) :
    held (noEnergy s) = held s := rfl
theorem admBegins_held (s : State) (x : Ctx) :
    held (admBegins s x) = held s := by
  unfold admBegins
  with_reducible repeat' first | rfl | refine (updNor_held ..).trans ?_ | refine (markResetting_held ..).trans ?_ | refine (modNs_held ..).trans ?_ | split
theorem takeEntry_held (t : Trial) (x : Ctx) :
    held (takeEntry t x) = held t.st := by
  unfold takeEntry
  dsimp only
  with_reducible repeat' first | rfl | refine (updPlan_held ..).trans ?_ | refine (updCtxs_held ..).trans ?_ | refine (updZci_held ..).trans ?_ | refine (admBegins_held ..).trans ?_ | refine (registerDeep_held ..).trans ?_ | split
theorem countRefused_held (s : State) :
    held (countRefused s) = held s := rfl
theorem postRefusal_held (s : State) (o : Origin) (e : Entry) (r : Refuse) :
    held (postRefusal s o e r) = held s := by
  unfold postRefusal
  try dsimp only
  with_reducible repeat' first | rfl | refine (updZci_held ..).trans ?_ | refine (countRefused_held ..).trans ?_ | refine (book_held ..).trans ?_ | refine (sidebandDone_held ..).trans ?_ | refine (sendRep_held ..).trans ?_ | refine (countFnReset_held ..).trans ?_ | refine (modRing_held ..).trans ?_ | refine (writeCompletion_held ..).trans ?_ | refine (keepCompletion_held ..).trans ?_ | refine (foldl_held _ (fun _ _ => ?_) _ _).trans ?_ | refine ite_held ?_ ?_ | refine ite_held2 ?_ ?_ | split
theorem wornEntry_held (s : State) (o : Origin) (d : EntryData) (st : BitVec 16) :
    held (wornEntry s o d st) = held s := by
  unfold wornEntry
  with_reducible repeat' first | rfl | refine (updXlat_held ..).trans ?_ | refine (updCare_held ..).trans ?_ | refine (event_held ..).trans ?_ | refine ite_held ?_ ?_
theorem spend_held (s : State) (o : Origin) (k : Nat) :
    held (spend s o k) = held s := by
  unfold spend
  with_reducible repeat' first | rfl | refine (updSide_held ..).trans ?_ | refine (updCane_held ..).trans ?_ | refine (modRing_held ..).trans ?_ | split
theorem decidedHead_held (s : State) (o : Origin) :
    held (decidedHead s o) = held s := by
  unfold decidedHead
  with_reducible repeat' first | rfl | refine (modRing_held ..).trans ?_ | split
theorem intoReset_held (s : State) (x : Ctx) :
    held (intoReset s x) = held s := by
  unfold intoReset
  dsimp only
  with_reducible repeat' first | rfl | refine (abortCtx_held ..).trans ?_ | refine (modCtx_held ..).trans ?_ | split
theorem holdEntry_held (s : State) (o : Origin) (d : EntryData) (st : BitVec 16) :
    held (holdEntry s o d st) = held s := by
  unfold holdEntry
  split <;> rfl
theorem decideRoom_held (s : State) (o : Origin) (d : EntryData) (t : Trial) (x : Ctx) (h : decideRoom s o d = .take t x) : held t.st = held s := by
  unfold decideRoom at h
  dsimp only at h
  repeat' split at h
  all_goals first
    | (rename_i t0 h0 _ p _ _ c _ _
       cases h
       exact (take_held _ _ _ _ _).trans (tryEntry_held _ _ _ h0))
    | cases h
theorem cfoldl_held {α : Type} (f : Cycle → α → Cycle) (h : ∀ w a, held (f w a).st = held w.st) (l : List α) (w : Cycle) :
    held (l.foldl f w).st = held w.st := by
  induction l generalizing w with
  | nil => rfl
  | cons a l ih => rw [List.foldl_cons, ih, h]
theorem cite_held {c : Prop} [Decidable c] {a b : Cycle} {x : Held} (ha : held a.st = x) (hb : held b.st = x) : held (if c then a else b).st = x := by
  split <;> assumption
theorem decideOne_held (w : Cycle) (o : Origin) (d : EntryData) :
    held (decideOne w o d).st = held w.st := by
  unfold decideOne
  try dsimp only
  with_reducible repeat' (first | rfl | refine (updPlan_held ..).trans ?_ | refine (postRefusal_held ..).trans ?_ | refine (decidedHead_held ..).trans ?_ | refine (spend_held ..).trans ?_ | refine (takeEntry_held ..).trans ?_ | refine (intoReset_held ..).trans ?_ | refine (wornEntry_held ..).trans ?_ | refine (holdEntry_held ..).trans ?_ | refine (foldl_held _ (fun _ _ => ?_) _ _).trans ?_ | refine ite_held ?_ ?_ | refine ite_held2 ?_ ?_ | split | (rename_i h; refine (decideRoom_held _ _ _ _ _ h).trans ?_))
theorem visitEntry_held (w : Cycle) (o : Origin) (d : EntryData) :
    held (visitEntry w o d).st = held w.st := by
  unfold visitEntry
  with_reducible repeat' first | rfl | refine (decideOne_held ..).trans ?_ | split
theorem fetchRing_held (a0 : Nat) (a1 : Cycle) (a2 : Nat) :
    held (fetchRing a0 a1 a2).st = held a1.st := by
  induction a0 generalizing a1 with
  | zero => rfl
  | succ k ih =>
    unfold fetchRing
    try dsimp only
    with_reducible repeat' (first | rfl | refine (foldl_held _ (fun _ _ => ?_) _ _).trans ?_ | refine ite_held ?_ ?_ | refine ite_held2 ?_ ?_ | refine (updBeatFrac_held _ _).trans ?_ | refine (updFns_held _ _).trans ?_ | refine (updLinks_held _ _).trans ?_ | refine (updRings_held _ _).trans ?_ | refine (updPlan_held _ _).trans ?_ | refine (updCtxs_held _ _).trans ?_ | refine (updZci_held _ _).trans ?_ | refine (updXlat_held _ _).trans ?_ | refine (updMedia_held _ _).trans ?_ | refine (updCare_held _ _).trans ?_ | refine (updFlash_held _ _).trans ?_ | refine (updMovers_held _ _).trans ?_ | refine (updTwin_held _ _).trans ?_ | refine (updCane_held _ _).trans ?_ | refine (updPower_held _ _).trans ?_ | refine (updDay_held _ _).trans ?_ | refine (updTherm_held _ _).trans ?_ | refine (updNor_held _ _).trans ?_ | refine (updSide_held _ _).trans ?_ | refine (updNv_held _ _).trans ?_ | refine (updDue_held _ _).trans ?_ | refine (updOut_held _ _).trans ?_ | refine (updFreeCtr_held _ _).trans ?_ | refine (modRing_held ..).trans ?_ | refine (emit_held ..).trans ?_ | refine (ih _).trans ?_ | split)
theorem dropFetched_held (s : State) (f : Fetched) :
    held (dropFetched s f) = held s := rfl
theorem visitDue_held (w : Cycle) (f : Fetched) :
    held (visitDue w f).st = held w.st := by
  unfold visitDue
  with_reducible repeat' first | rfl | refine (dropFetched_held ..).trans ?_ | refine (decideOne_held ..).trans ?_ | split
theorem visitRing_held (w0 : Cycle) (g : Nat) :
    held (visitRing w0 g).st = held w0.st := by
  unfold visitRing
  try dsimp only
  with_reducible repeat' (first | rfl | refine (visitEntry_held ..).trans ?_ | refine (visitDue_held ..).trans ?_ | refine (fetchRing_held ..).trans ?_ | refine (foldl_held _ (fun _ _ => ?_) _ _).trans ?_ | refine ite_held ?_ ?_ | refine ite_held2 ?_ ?_ | refine (cfoldl_held _ (fun _ _ => ?_) _ _).trans ?_ | refine cite_held ?_ ?_ | refine (fetchRing_held ..).trans ?_ | refine (visitEntry_held ..).trans ?_ | refine (visitDue_held ..).trans ?_ | split)
theorem visitResetting_held (w : Cycle) (g : Nat) :
    held (visitResetting w g).st = held w.st := by
  unfold visitResetting
  try dsimp only
  with_reducible repeat' (first | rfl | refine (dropFetched_held ..).trans ?_ | refine (decideOne_held ..).trans ?_ | refine (foldl_held _ (fun _ _ => ?_) _ _).trans ?_ | refine ite_held ?_ ?_ | refine ite_held2 ?_ ?_ | refine (cfoldl_held _ (fun _ _ => ?_) _ _).trans ?_ | refine cite_held ?_ ?_ | refine (decideOne_held ..).trans ?_ | refine (dropFetched_held ..).trans ?_ | split)
theorem visitSideband_held (w : Cycle) :
    held (visitSideband w).st = held w.st := by
  unfold visitSideband
  dsimp only
  with_reducible repeat' first | rfl | refine (updSide_held ..).trans ?_ | refine (decideOne_held ..).trans ?_ | split
theorem visitCane_held (w : Cycle) :
    held (visitCane w).st = held w.st := by
  unfold visitCane
  try dsimp only
  with_reducible repeat' (first | rfl | refine (updCane_held ..).trans ?_ | refine (decideOne_held ..).trans ?_ | refine (foldl_held _ (fun _ _ => ?_) _ _).trans ?_ | refine ite_held ?_ ?_ | refine ite_held2 ?_ ?_ | refine (cfoldl_held _ (fun _ _ => ?_) _ _).trans ?_ | refine cite_held ?_ ?_ | refine (decideOne_held ..).trans ?_ | split)
theorem sampleDoorbells_held (s : State) :
    held (sampleDoorbells s) = held s := rfl
theorem layRoom_held (a0 : Nat) (a1 : State) (a2 : Res) (a3 : Nat) (a4 : Nat) (a5 : Nat) (a6 : Nat) :
    held (layRoom a0 a1 a2 a3 a4 a5 a6) = held a1 := by
  induction a0 generalizing a1 a3 a5 with
  | zero => rfl
  | succ k ih =>
    unfold layRoom
    exact ite_held rfl ((ih _ _ _).trans (take_held _ _ _ _ _))
theorem laySpread_held (s : State) (k : FarBooking) :
    held (laySpread s k) = held s := by
  unfold laySpread
  try dsimp only
  with_reducible repeat' first | rfl | refine (updPlan_held ..).trans ?_ | refine (layRoom_held ..).trans ?_ | refine (foldl_held _ (fun _ _ => ?_) _ _).trans ?_ | refine ite_held ?_ ?_ | refine ite_held2 ?_ ?_ | split
theorem layReads_held (d owner last fuel : Nat) (m : List FarBooking × State) : held (layReads d owner last fuel m).2 = held m.2 := by
  induction fuel generalizing m with
  | zero => rfl
  | succ k ih =>
    unfold layReads
    dsimp only
    repeat' first | rfl | split
    rename_i e
    exact (ih _).trans (planSlot_held _ _ _ _ _ _ _ _ e)
theorem layFold_held (sp : Nat) (l : List FarBooking) (m : List FarBooking × State) :
    held (l.foldl (fun m k => match k.res with
      | .dieTime d => layReads d k.owner (1024 * sp + 1023) k.amount m
      | _ => m) m).2 = held m.2 := by
  induction l generalizing m with
  | nil => rfl
  | cons a l ih =>
    refine (ih _).trans ?_
    dsimp only
    split
    · exact layReads_held _ _ _ _ _
    · rfl
theorem laySpan_held (s : State) :
    held (laySpan s) = held s := by
  unfold laySpan
  dsimp only
  refine (foldl_held _ (fun _ _ => laySpread_held _ _) _ _).trans ?_
  exact (layFold_held _ _ _).trans (updPlan_held _ _)
theorem laySpans_held (a0 : Nat) (a1 : State) :
    held (laySpans a0 a1) = held a1 := by
  induction a0 generalizing a1 with
  | zero => rfl
  | succ k ih =>
    unfold laySpans
    try dsimp only
    with_reducible repeat' (first | rfl | refine (foldl_held _ (fun _ _ => ?_) _ _).trans ?_ | refine ite_held ?_ ?_ | refine ite_held2 ?_ ?_ | refine (updBeatFrac_held _ _).trans ?_ | refine (updFns_held _ _).trans ?_ | refine (updLinks_held _ _).trans ?_ | refine (updRings_held _ _).trans ?_ | refine (updPlan_held _ _).trans ?_ | refine (updCtxs_held _ _).trans ?_ | refine (updZci_held _ _).trans ?_ | refine (updXlat_held _ _).trans ?_ | refine (updMedia_held _ _).trans ?_ | refine (updCare_held _ _).trans ?_ | refine (updFlash_held _ _).trans ?_ | refine (updMovers_held _ _).trans ?_ | refine (updTwin_held _ _).trans ?_ | refine (updCane_held _ _).trans ?_ | refine (updPower_held _ _).trans ?_ | refine (updDay_held _ _).trans ?_ | refine (updTherm_held _ _).trans ?_ | refine (updNor_held _ _).trans ?_ | refine (updSide_held _ _).trans ?_ | refine (updNv_held _ _).trans ?_ | refine (updDue_held _ _).trans ?_ | refine (updOut_held _ _).trans ?_ | refine (updFreeCtr_held _ _).trans ?_ | refine (laySpan_held ..).trans ?_ | refine (ih _).trans ?_ | split)
theorem passOne_held (s : State) (r : Res) :
    held (passOne s r) = held s := by
  unfold passOne
  with_reducible repeat' first | rfl | refine (updPlan_held ..).trans ?_ | refine ite_held ?_ ?_
theorem passHoldback_held (s : State) :
    held (passHoldback s) = held s := by
  unfold passHoldback
  with_reducible repeat' first | rfl | refine (updPlan_held ..).trans ?_ | refine (passOne_held ..).trans ?_ | refine (foldl_held _ (fun _ _ => ?_) _ _).trans ?_
theorem gainAll_held (s : State) :
    held (gainAll s) = held s := rfl
theorem visit_held (w : Cycle) (k : Nat) :
    held (visit w k).st = held w.st := by
  unfold visit
  try dsimp only
  with_reducible repeat' (first | rfl | refine (visitSideband_held ..).trans ?_ | refine (visitCane_held ..).trans ?_ | refine (visitResetting_held ..).trans ?_ | refine (visitRing_held ..).trans ?_ | refine (foldl_held _ (fun _ _ => ?_) _ _).trans ?_ | refine ite_held ?_ ?_ | refine ite_held2 ?_ ?_ | refine (cfoldl_held _ (fun _ _ => ?_) _ _).trans ?_ | refine cite_held ?_ ?_ | split)
theorem dropGone_held (s : State) :
    held (dropGone s) = held s := by
  unfold dropGone
  with_reducible repeat' first | rfl | refine (updPlan_held ..).trans ?_
theorem decideBeat_held (s : State) :
    held (decideBeat s) = held s := by
  unfold decideBeat
  try dsimp only
  with_reducible repeat' (first | rfl | refine (updPlan_held ..).trans ?_ | refine (gainAll_held ..).trans ?_ | refine (visitResetting_held ..).trans ?_ | refine (dropGone_held ..).trans ?_ | refine (visit_held ..).trans ?_ | refine (foldl_held _ (fun _ _ => ?_) _ _).trans ?_ | refine ite_held ?_ ?_ | refine ite_held2 ?_ ?_ | refine (cfoldl_held _ (fun _ _ => ?_) _ _).trans ?_ | refine cite_held ?_ ?_ | refine (visit_held ..).trans ?_ | refine (gainAll_held ..).trans ?_ | split)
theorem armedDrain_held (s : State) :
    held (armedDrain s) = held s := by
  unfold armedDrain
  with_reducible repeat' first | rfl | refine (drainStripes_held ..).trans ?_ | refine ite_held ?_ ?_
theorem countSuspends_held (s : State) :
    held (countSuspends s) = held s := by
  unfold countSuspends
  with_reducible repeat' first | rfl | refine (updPlan_held ..).trans ?_
theorem planCycle_held (s : State) :
    held (planCycle s) = held s := by
  unfold planCycle
  try dsimp only
  with_reducible repeat' first | rfl | refine (heartbeat_held ..).trans ?_ | refine (ckptBeat_held ..).trans ?_ | refine (careBeat_held ..).trans ?_ | refine (sysBeat_held ..).trans ?_ | refine (countSuspends_held ..).trans ?_ | refine (passHoldback_held ..).trans ?_ | refine (laySpans_held ..).trans ?_ | refine (sampleDoorbells_held ..).trans ?_ | refine (stoppedEngines_held ..).trans ?_ | refine (twinBeat_held ..).trans ?_ | refine (wornCheck_held ..).trans ?_ | refine (wearCheck_held ..).trans ?_ | refine (holdOps_held ..).trans ?_ | refine (armLowers_held ..).trans ?_ | refine (decideBeat_held ..).trans ?_ | refine (careOffer_held ..).trans ?_ | refine (retryOps_held ..).trans ?_ | refine (replBeat_held ..).trans ?_ | refine (initSweep_held ..).trans ?_ | refine (armedDrain_held ..).trans ?_ | refine (journalOut_held ..).trans ?_ | refine (foldl_held _ (fun _ _ => ?_) _ _).trans ?_ | refine ite_held ?_ ?_ | refine ite_held2 ?_ ?_ | split
theorem execPlannerBeatCycle_held (s : State) {t : State} (h : execPlannerBeatCycle s = .next t) :
    held t = held s := by
  cases h
  with_reducible repeat' first | rfl | refine (busBeat_held ..).trans ?_ | refine (planCycle_held ..).trans ?_
theorem execHoldTimeout_held (g : Nat) (s : State) {t : State} (h : execHoldTimeout g s = .next t) :
    held t = held s := by
  cases h
  try dsimp only
  with_reducible repeat' first | rfl | refine (postRefusal_held ..).trans ?_ | refine (decidedHead_held ..).trans ?_ | refine (spend_held ..).trans ?_ | refine (foldl_held _ (fun _ _ => ?_) _ _).trans ?_ | refine ite_held ?_ ?_ | refine ite_held2 ?_ ?_ | split
theorem execFetchDataReturn_held (g : Nat) (idx : Nat) (entry : List Byte) (segs : List (List Byte)) (prog : List Byte) (s : State) {t : State} (h : execFetchDataReturn g idx entry segs prog s = .next t) :
    held t = held s := by
  cases h
  with_reducible repeat' first | rfl | refine (updPlan_held ..).trans ?_ | split
theorem extendProgram_held (s : State) (x : Ctx) :
    held (extendProgram s x) = held s := getD_held (getD_held rfl fun _ => bookMoves_held _ _ _ _) fun _ h =>
    (evenly_held _ _ _ _ _ _ h).trans (getD_held rfl fun _ => bookMoves_held _ _ _ _)
theorem extendMoves_held (s : State) (x : Ctx) :
    held (extendMoves s x) = held s := by
  unfold extendMoves
  dsimp only
  have k : ∀ u : State, held u = held s → ∀ m : Option (List Nat × State), (∀ p v, m = some (p, v) → held v = held u) → held ((m.map Prod.snd).getD u) = held s :=
    fun u hu m hm => (getD_held rfl fun _ e => map_held hm e).trans hu
  have e1 : ∀ (c : Bool) (n : Nat), held (if c = true then ((bookOut s x (s.beat + 1) (farEnd s - 1) n).map Prod.snd).getD s else s) = held s := fun c n =>
    ite_held (k s rfl _ fun _ _ e => bookOut_held _ _ _ _ _ e) rfl
  exact ite_held (k _ (e1 _ _) _ fun _ _ e => bookIn_held _ _ _ _ _ e) (e1 _ _)
theorem execD7DeadlineExtend_held (c : Nat) (s : State) {t : State} (h : execD7DeadlineExtend c s = .next t) :
    held t = held s := by
  cases h
  try dsimp only
  with_reducible repeat' first | rfl | refine (extendProgram_held ..).trans ?_ | refine (extendMoves_held ..).trans ?_ | refine (modCtx_held ..).trans ?_ | refine (foldl_held _ (fun _ _ => ?_) _ _).trans ?_ | refine ite_held ?_ ?_ | refine ite_held2 ?_ ?_ | refine (planGrans_held _ _ _ _ _ (by assumption)).trans ?_ | split
theorem sendCert_held (s : State) :
    held (sendCert s) = held s := by
  unfold sendCert
  with_reducible repeat' first | rfl | refine (sendPunty_held ..).trans ?_
theorem askAttach_held (s : State) (c : Option Nat) :
    held (askAttach s c) = held s := by
  unfold askAttach
  with_reducible repeat' first | rfl | refine (updTwin_held ..).trans ?_ | refine (sendCtrl_held ..).trans ?_ | refine (sendCert_held ..).trans ?_
theorem twinPost_held (s : State) (c : Option Nat) (st : BitVec 16) (d : BitVec 8) :
    held (twinPost s c st d) = held s := by
  unfold twinPost
  with_reducible repeat' first | rfl | refine (residentPost_held ..).trans ?_ | split
theorem endAsked_held (s : State) (st : BitVec 16) (d : BitVec 8) :
    held (endAsked s st d) = held s := by
  unfold endAsked
  with_reducible repeat' first | rfl | refine (updTwin_held ..).trans ?_ | refine (twinPost_held ..).trans ?_
theorem execTwinAttach_held (c : Nat) (s : State) {t : State} (h : execTwinAttach c s = .next t) :
    held t = held s := by
  cases h
  with_reducible repeat' first | rfl | refine (resident_held _ _ _ _ _ (fun _ _ => ?_)).trans ?_ | refine (commitNow_held ..).trans ?_ | refine (modCtx_held ..).trans ?_ | refine (residentPost_held ..).trans ?_ | refine (askAttach_held ..).trans ?_ | refine ite_held ?_ ?_
theorem execTwinDetach_held (c : Nat) (s : State) {t : State} (h : execTwinDetach c s = .next t) :
    held t = held s := by
  cases h
  with_reducible repeat' first | rfl | refine (updTwin_held ..).trans ?_ | refine (resident_held _ _ _ _ _ (fun _ _ => ?_)).trans ?_ | refine (commitNow_held ..).trans ?_ | refine (modCtx_held ..).trans ?_ | refine (residentPost_held ..).trans ?_ | refine (sendCtrl_held ..).trans ?_ | refine ite_held ?_ ?_
theorem execAutoAttach_held (s : State) {t : State} (h : execAutoAttach s = .next t) :
    held t = held s := by
  cases h
  with_reducible repeat' first | rfl | refine (askAttach_held ..).trans ?_ | refine ite_held ?_ ?_
theorem dropWaits_held (s : State) :
    held (dropWaits s) = held s := rfl
theorem toSolo_held (s : State) (stale : Bool) :
    held (toSolo s stale) = held s := by
  unfold toSolo
  with_reducible repeat' first | rfl | refine (updTwin_held ..).trans ?_ | refine (sweepGather_held ..).trans ?_ | refine (setTwin_held ..).trans ?_ | refine (dropWaits_held ..).trans ?_
theorem startTakeover_held (s : State) (warm : Bool) :
    held (startTakeover s warm) = held s := by
  unfold startTakeover
  with_reducible repeat' first | rfl | refine (updTwin_held ..).trans ?_ | refine (dropWaits_held ..).trans ?_ | refine (startLeases_held ..).trans ?_
theorem takeOver_held (s : State) (warm : Bool) :
    held (takeOver s warm) = held s := by
  unfold takeOver
  with_reducible repeat' first | rfl | refine (updTwin_held ..).trans ?_ | refine (startTakeover_held ..).trans ?_
theorem concludeAbsent_held (s : State) :
    held (concludeAbsent s) = held s := by
  unfold concludeAbsent
  with_reducible repeat' first | rfl | refine (updTwin_held ..).trans ?_ | refine (takeOver_held ..).trans ?_ | refine (endAsked_held ..).trans ?_ | refine (setTwin_held ..).trans ?_ | refine (toSolo_held ..).trans ?_ | refine (startLeases_held ..).trans ?_ | split
theorem linkLost_held (s : State) :
    held (linkLost s) = held s := by
  unfold linkLost
  with_reducible repeat' first | rfl | refine (updTwin_held ..).trans ?_ | refine (toSolo_held ..).trans ?_ | refine (endAsked_held ..).trans ?_ | refine (startLeases_held ..).trans ?_ | refine (setTwin_held ..).trans ?_ | split
theorem execTwinHbMiss_held (s : State) {t : State} (h : execTwinHbMiss s = .next t) :
    held t = held s := by
  cases h
  with_reducible repeat' first | rfl | refine (updTwin_held ..).trans ?_ | refine (concludeAbsent_held ..).trans ?_ | refine (linkLost_held ..).trans ?_ | refine ite_held ?_ ?_
theorem execTwinPeerRemoved_held (s : State) {t : State} (h : execTwinPeerRemoved s = .next t) :
    held t = held s := by
  cases h
  with_reducible repeat' first | rfl | refine (updTwin_held ..).trans ?_ | refine (concludeAbsent_held ..).trans ?_ | refine ite_held ?_ ?_
theorem execTwinAckTimeout_held (c : Nat) (s : State) {t : State} (h : execTwinAckTimeout c s = .next t) :
    held t = held s := by
  cases h
  with_reducible repeat' first | rfl | refine (toSolo_held ..).trans ?_ | refine (endAsked_held ..).trans ?_ | split
theorem execContextDeadline_held (c : Nat) (s : State) {t : State} (h : execContextDeadline c s = .next t) :
    held t = held s := by
  cases h
  try dsimp only
  with_reducible repeat' first | rfl | refine (post_held ..).trans ?_ | refine (toSolo_held ..).trans ?_ | refine (endAsked_held ..).trans ?_ | refine (endAtDeadline_held ..).trans ?_ | refine (foldl_held _ (fun _ _ => ?_) _ _).trans ?_ | refine ite_held ?_ ?_ | refine ite_held2 ?_ ?_ | split
theorem adoptMirror_held (s : State) :
    held (adoptMirror s) = held s := by
  unfold adoptMirror
  with_reducible repeat' first | rfl | refine (updXlat_held ..).trans ?_ | refine (updTwin_held ..).trans ?_ | refine (foldl_held _ (fun _ _ => ?_) _ _).trans ?_ | split
theorem firstGrant_held (s : State) :
    held (firstGrant s) = held s := by
  unfold firstGrant
  with_reducible repeat' first | rfl | refine (updTwin_held ..).trans ?_ | refine (raiseEpoch_held ..).trans ?_ | refine (setTwin_held ..).trans ?_ | refine (adoptMirror_held ..).trans ?_ | refine ite_held ?_ ?_
theorem execOwnGrant_held (k : Nat) (s : State) {t : State} (h : execOwnGrant k s = .next t) :
    held t = held s := by
  cases h
  with_reducible repeat' first | rfl | refine (modOct_held ..).trans ?_ | refine (firstGrant_held ..).trans ?_ | refine ite_held ?_ ?_
theorem execGrantWaitTimeout_held (k : Nat) (s : State) {t : State} (h : execGrantWaitTimeout k s = .next t) :
    held t = held s := by
  cases h
  with_reducible repeat' first | rfl | refine (updTwin_held ..).trans ?_ | refine (modOct_held ..).trans ?_ | refine (toSolo_held ..).trans ?_ | refine ite_held ?_ ?_
theorem execTwinRetry_held (s : State) {t : State} (h : execTwinRetry s = .next t) :
    held t = held s := by
  cases h
  with_reducible repeat' first | rfl | refine (startTakeover_held ..).trans ?_ | refine ite_held ?_ ?_
theorem execTwinDawnWait_held (seen : Bool) (s : State) {t : State} (h : execTwinDawnWait seen s = .next t) :
    held t = held s := by
  cases h
  with_reducible repeat' first | rfl | refine (updTwin_held ..).trans ?_ | refine (askAttach_held ..).trans ?_ | refine (takeOver_held ..).trans ?_ | refine (toSolo_held ..).trans ?_ | split
theorem raiseSeq_held (s : State) (q : Nat) :
    held (raiseSeq s q) = held s := rfl
theorem coldScan_held (s : State) (found : List (Nat × SlotRec)) (recs : List JRecord) :
    held (coldScan s found recs) = held s := by
  unfold coldScan
  with_reducible repeat' first | rfl | refine (updXlat_held ..).trans ?_ | refine (raiseSeq_held ..).trans ?_
theorem execColdScanDone_held (found : List (Nat × List Byte)) (records : List (List Byte)) (s : State) {t : State} (h : execColdScanDone found records s = .next t) :
    held t = held s := by
  cases h
  with_reducible repeat' first | rfl | refine (updTwin_held ..).trans ?_ | refine (setTwin_held ..).trans ?_ | refine (coldScan_held ..).trans ?_ | refine ite_held ?_ ?_
theorem execTakeoverCare_held (blocks : List (Nat × List Byte)) (s : State) {t : State} (h : execTakeoverCare blocks s = .next t) :
    held t = held s := by
  cases h
  with_reducible repeat' first | rfl | refine (updCare_held ..).trans ?_ | refine (modBlock_held ..).trans ?_ | refine (modBand_held ..).trans ?_ | refine (cutBand_held ..).trans ?_ | refine (foldl_held _ (fun _ _ => ?_) _ _).trans ?_ | refine ite_held ?_ ?_
theorem execPuntyLinkDown_held (s : State) {t : State} (h : execPuntyLinkDown s = .next t) :
    held t = held s := by
  cases h
  with_reducible repeat' first | rfl | refine (updTwin_held ..).trans ?_ | refine (updCtxs_held ..).trans ?_ | refine (updMovers_held ..).trans ?_ | refine (endAsked_held ..).trans ?_ | refine (markBursts_held ..).trans ?_ | refine ite_held ?_ ?_
theorem execPuntyLinkUp_held (lanes : Nat) (s : State) {t : State} (h : execPuntyLinkUp lanes s = .next t) :
    held t = held s := by
  cases h
  with_reducible repeat' first | rfl | refine (updTwin_held ..).trans ?_ | refine ite_held ?_ ?_
theorem recvFrame_held (s : State) (pseq : Nat) (f : State → State) (hf : ∀ u, held (f u) = held u) :
    held (recvFrame s pseq f) = held s := by
  unfold recvFrame
  with_reducible repeat' first | rfl | refine (updTwin_held ..).trans ?_ | refine (hf _).trans ?_ | refine ite_held ?_ ?_
theorem execHb_held (pseq : Nat) (seq : Nat) (armed : Nat) (s : State) {t : State} (h : execHb pseq seq armed s = .next t) :
    held t = held s := by
  cases h
  with_reducible repeat' first | rfl | refine (updTwin_held ..).trans ?_ | refine (recvFrame_held _ _ _ (fun _ => ?_)).trans ?_ | refine (raiseSeq_held ..).trans ?_ | refine ite_held ?_ ?_
theorem execPuntyAck_held (pseq : Nat) (s : State) {t : State} (h : execPuntyAck pseq s = .next t) :
    held t = held s := by
  cases h
  with_reducible repeat' first | rfl | refine (updTwin_held ..).trans ?_ | refine (sweepGather_held ..).trans ?_ | refine ite_held ?_ ?_
theorem copyEntry_held (s : State) (i : Nat) (l : Loc) (gslots : Nat) :
    held (copyEntry s i l gslots) = held s := by
  unfold copyEntry
  with_reducible repeat' first | rfl | refine (updTwin_held ..).trans ?_ | refine (updXlat_held ..).trans ?_ | split
theorem execGather_held (pseq : Nat) (group : Option Nat) (mslot : Nat) (nsid : Nat) (gran : Nat) (seq : Nat) (tag : BitVec 64) (bytes : List Byte) (s : State) {t : State} (h : execGather pseq group mslot nsid gran seq tag bytes s = .next t) :
    held t = held s := by
  cases h
  with_reducible repeat' first | rfl | refine (updXlat_held ..).trans ?_ | refine (updTwin_held ..).trans ?_ | refine (recvFrame_held _ _ _ (fun _ => ?_)).trans ?_ | refine (sendAck_held ..).trans ?_ | refine (setEntry_held ..).trans ?_ | refine (supersede_held ..).trans ?_ | refine (copyEntry_held ..).trans ?_ | split
theorem mirrorToMedia_held (s : State) (n : Namespace) (i : Nat) (psa : Nat) (seq : Nat) :
    held (mirrorToMedia s n i psa seq) = held s := by
  unfold mirrorToMedia
  with_reducible repeat' first | rfl | refine (updMedia_held ..).trans ?_ | refine (foldl_held _ (fun _ _ => ?_) _ _).trans ?_ | split
theorem destroyKey_held (s : State) (nsid : Nat) (epoch : Nat) :
    held (destroyKey s nsid epoch) = held s := by
  unfold destroyKey
  with_reducible repeat' first | rfl | refine (updSec_held _ _ ⟨rfl, rfl, rfl, rfl, rfl, rfl⟩).trans ?_ | refine (norRetire_held ..).trans ?_
theorem tellKey_held (s : State) (nsid : Nat) (epoch : Nat) (old : Nat) :
    held (tellKey s nsid epoch old) = held s := by
  unfold tellKey
  with_reducible repeat' first | rfl | refine (sendKeyx_held ..).trans ?_ | refine ite_held ?_ ?_
theorem putNs_held (s : State) (n : Namespace) :
    held (putNs s n) = held s := by
  unfold putNs
  try dsimp only
  with_reducible repeat' first | rfl | refine (updXlat_held ..).trans ?_ | refine (foldl_held _ (fun _ _ => ?_) _ _).trans ?_ | refine ite_held ?_ ?_ | refine ite_held2 ?_ ?_ | split
theorem stageOwn_held (s : State) (rs : List JRecord) :
    held (stageOwn s rs) = held s := by
  unfold stageOwn
  try dsimp only
  with_reducible repeat' first | rfl | refine (updXlat_held ..).trans ?_ | refine (foldl_held _ (fun _ _ => ?_) _ _).trans ?_ | refine ite_held ?_ ?_ | refine ite_held2 ?_ ?_ | split
theorem failCreate_held (s : State) (x : Ctx) (nsid : Nat) (epoch : Nat) (st : BitVec 16) (d : BitVec 8) :
    held (failCreate s x nsid epoch st d) = held s := by
  unfold failCreate
  try dsimp only
  with_reducible repeat' first | rfl | refine (updSec_held _ _ ⟨rfl, rfl, rfl, rfl, rfl, rfl⟩).trans ?_ | refine (destroyKey_held ..).trans ?_ | refine (residentPost_held ..).trans ?_ | refine (awaitMirror_held ..).trans ?_ | refine (tellKey_held ..).trans ?_ | refine (foldl_held _ (fun _ _ => ?_) _ _).trans ?_ | refine ite_held ?_ ?_ | refine ite_held2 ?_ ?_ | split
theorem yieldNs_held (j : JRecord) (s : State) (w : Namespace × Ctx × Nat) :
    held (yieldNs j s w) = held s := by
  unfold yieldNs
  try dsimp only
  with_reducible repeat' first | rfl | refine (failCreate_held ..).trans ?_ | refine (stageOwn_held ..).trans ?_ | refine (takeSeq_held ..).trans ?_ | refine (awaitMirror_held ..).trans ?_ | refine (journalAdd_held ..).trans ?_ | refine (putNs_held ..).trans ?_ | refine (foldl_held _ (fun _ _ => ?_) _ _).trans ?_ | refine ite_held ?_ ?_ | refine ite_held2 ?_ ?_ | split
theorem takeTwinNs_held (s : State) (j : JRecord) :
    held (takeTwinNs s j) = held s := by
  unfold takeTwinNs
  try dsimp only
  with_reducible repeat' first | rfl | refine (updXlat_held ..).trans ?_ | refine (putNs_held ..).trans ?_ | refine (yieldNs_held ..).trans ?_ | refine (foldl_held _ (fun _ _ => ?_) _ _).trans ?_ | refine ite_held ?_ ?_ | refine ite_held2 ?_ ?_ | split
theorem dropTwinNs_held (s : State) (n : Namespace) :
    held (dropTwinNs s n) = held s := by
  unfold dropTwinNs
  try dsimp only
  with_reducible repeat' first | rfl | refine (updTwin_held ..).trans ?_ | refine (updXlat_held ..).trans ?_ | refine (foldl_held _ (fun _ _ => ?_) _ _).trans ?_ | refine ite_held ?_ ?_ | refine ite_held2 ?_ ?_ | split
theorem applyTwinRec_held (s : State) (j : JRecord) :
    held (applyTwinRec s j) = held s := by
  unfold applyTwinRec
  try dsimp only
  with_reducible repeat' first | rfl | refine (updXlat_held ..).trans ?_ | refine (copyEntry_held ..).trans ?_ | refine (mirrorToMedia_held ..).trans ?_ | refine (supersede_held ..).trans ?_ | refine (takeTwinNs_held ..).trans ?_ | refine (dropTwinNs_held ..).trans ?_ | refine (foldl_held _ (fun _ _ => ?_) _ _).trans ?_ | refine ite_held ?_ ?_ | refine ite_held2 ?_ ?_ | split
theorem execJrec_held (pseq : Nat) (recs : List (List Byte)) (s : State) {t : State} (h : execJrec pseq recs s = .next t) :
    held t = held s := by
  cases h
  with_reducible repeat' first | rfl | refine (updXlat_held ..).trans ?_ | refine (recvFrame_held _ _ _ (fun _ => ?_)).trans ?_ | refine (sendAck_held ..).trans ?_ | refine (applyTwinRec_held ..).trans ?_ | refine (foldl_held _ (fun _ _ => ?_) _ _).trans ?_
theorem execAcommit_held (pseq : Nat) (group : Nat) (seqs : List Nat) (s : State) {t : State} (h : execAcommit pseq group seqs s = .next t) :
    held t = held s := by
  cases h
  with_reducible repeat' first | rfl | refine (updTwin_held ..).trans ?_ | refine (updXlat_held ..).trans ?_ | refine (recvFrame_held _ _ _ (fun _ => ?_)).trans ?_ | refine (copyEntry_held ..).trans ?_ | refine (supersede_held ..).trans ?_ | refine (sendAck_held ..).trans ?_ | refine (foldl_held _ (fun _ _ => ?_) _ _).trans ?_ | split
theorem execAdiscard_held (pseq : Nat) (group : Nat) (s : State) {t : State} (h : execAdiscard pseq group s = .next t) :
    held t = held s := by
  cases h
  with_reducible repeat' first | rfl | refine (updTwin_held ..).trans ?_ | refine (recvFrame_held _ _ _ (fun _ => ?_)).trans ?_ | refine (sendAck_held ..).trans ?_
theorem execSync_held (pseq : Nat) (line : Nat) (entries : List (BitVec 40)) (s : State) {t : State} (h : execSync pseq line entries s = .next t) :
    held t = held s := by
  cases h
  with_reducible repeat' first | rfl | refine (updXlat_held ..).trans ?_ | refine (recvFrame_held _ _ _ (fun _ => ?_)).trans ?_ | refine (foldl_held _ (fun _ _ => ?_) _ _).trans ?_ | refine ite_held ?_ ?_
theorem execNstab_held (pseq : Nat) (rows : List (List Byte)) (s : State) {t : State} (h : execNstab pseq rows s = .next t) :
    held t = held s := by
  cases h
  with_reducible repeat' first | rfl | refine (updXlat_held ..).trans ?_ | refine (recvFrame_held _ _ _ (fun _ => ?_)).trans ?_ | refine ite_held ?_ ?_
theorem peerTold_held (s : State) (body : List Nat) :
    held (peerTold s body) = held s := rfl
theorem execCtrlAttach_held (pseq : Nat) (body : List Nat) (s : State) {t : State} (h : execCtrlAttach pseq body s = .next t) :
    held t = held s := by
  cases h
  with_reducible repeat' first | rfl | refine (recvFrame_held _ _ _ (fun _ => ?_)).trans ?_ | refine (sendCert_held ..).trans ?_ | refine (peerTold_held ..).trans ?_ | refine (startSync_held ..).trans ?_ | refine (endAsked_held ..).trans ?_ | refine (sendCtrl_held ..).trans ?_ | refine ite_held ?_ ?_
theorem execCtrlDetach_held (pseq : Nat) (s : State) {t : State} (h : execCtrlDetach pseq s = .next t) :
    held t = held s := by
  cases h
  with_reducible repeat' first | rfl | refine (recvFrame_held _ _ _ (fun _ => ?_)).trans ?_ | refine (sendCtrl_held ..).trans ?_ | refine ite_held ?_ ?_
theorem execCtrlGranted_held (pseq : Nat) (body : List Nat) (s : State) {t : State} (h : execCtrlGranted pseq body s = .next t) :
    held t = held s := by
  cases h
  with_reducible repeat' first | rfl | refine (updTwin_held ..).trans ?_ | refine (recvFrame_held _ _ _ (fun _ => ?_)).trans ?_ | refine (startSync_held ..).trans ?_ | refine (endAsked_held ..).trans ?_ | refine (peerTold_held ..).trans ?_ | refine (beginDetach_held ..).trans ?_ | refine ite_held ?_ ?_
theorem execCtrlRefused_held (pseq : Nat) (s : State) {t : State} (h : execCtrlRefused pseq s = .next t) :
    held t = held s := by
  cases h
  with_reducible repeat' first | rfl | refine (recvFrame_held _ _ _ (fun _ => ?_)).trans ?_ | refine (endAsked_held ..).trans ?_ | refine ite_held ?_ ?_
theorem execCtrlReleased_held (pseq : Nat) (s : State) {t : State} (h : execCtrlReleased pseq s = .next t) :
    held t = held s := by
  cases h
  with_reducible repeat' first | rfl | refine (updTwin_held ..).trans ?_ | refine (recvFrame_held _ _ _ (fun _ => ?_)).trans ?_ | refine (takeOver_held ..).trans ?_ | refine (startLeases_held ..).trans ?_ | split
theorem execCtrlReady_held (pseq : Nat) (s : State) {t : State} (h : execCtrlReady pseq s = .next t) :
    held t = held s := by
  cases h
  with_reducible repeat' first | rfl | refine (updTwin_held ..).trans ?_ | refine (recvFrame_held _ _ _ (fun _ => ?_)).trans ?_ | refine ite_held ?_ ?_
theorem execCtrlLlDone_held (pseq : Nat) (s : State) {t : State} (h : execCtrlLlDone pseq s = .next t) :
    held t = held s := by
  cases h
  with_reducible repeat' first | rfl | refine (updTwin_held ..).trans ?_ | refine (recvFrame_held _ _ _ (fun _ => ?_)).trans ?_
theorem execCtrlCovering_held (pseq : Nat) (s : State) {t : State} (h : execCtrlCovering pseq s = .next t) :
    held t = held s := by
  cases h
  with_reducible repeat' first | rfl | refine (updTwin_held ..).trans ?_ | refine (recvFrame_held _ _ _ (fun _ => ?_)).trans ?_ | refine (twinPost_held ..).trans ?_ | refine (setTwin_held ..).trans ?_ | refine ite_held ?_ ?_
theorem execAnchor_held (pseq : Nat) (body : List Byte) (s : State) {t : State} (h : execAnchor pseq body s = .next t) :
    held t = held s := by
  cases h
  with_reducible repeat' first | rfl | refine (updTwin_held ..).trans ?_ | refine (recvFrame_held _ _ _ (fun _ => ?_)).trans ?_
theorem finishAdm_held (s : State) (c : Nat) (op : Nat) (st : BitVec 16) (detail : BitVec 8) (res : BitVec 64) :
    held (finishAdm s c op st detail res) = held s := by
  unfold finishAdm
  with_reducible repeat' first | rfl | refine (residentPost_held ..).trans ?_ | split
theorem stopCommand_held (s : State) (x : Ctx) :
    held (stopCommand s x) = held s := by
  unfold stopCommand
  with_reducible repeat' first | rfl | refine (abortCtx_held ..).trans ?_ | refine (modCtx_held ..).trans ?_ | refine ite_held ?_ ?_
theorem passCounts_held (s : State) (r : Ring) :
    held (passCounts s r) = held s := by
  unfold passCounts
  with_reducible repeat' first | rfl | refine (modCtx_held ..).trans ?_ | split
theorem renameRing_held (s : State) (g : Nat) (h : Nat) :
    held (renameRing s g h) = held s := by
  unfold renameRing
  try dsimp only
  with_reducible repeat' first | rfl | refine (updPlan_held ..).trans ?_ | refine (updCtxs_held ..).trans ?_ | refine (foldl_held _ (fun _ _ => ?_) _ _).trans ?_ | refine ite_held ?_ ?_ | refine ite_held2 ?_ ?_ | split
theorem removeRing_held (s : State) (g : Nat) :
    held (removeRing s g) = held s := by
  unfold removeRing
  try dsimp only
  with_reducible repeat' first | rfl | refine (updPlan_held ..).trans ?_ | refine (dropKept_held ..).trans ?_ | refine (modRing_held ..).trans ?_ | refine (countGone_held ..).trans ?_ | refine (passCounts_held ..).trans ?_ | refine (storeNv_held ..).trans ?_ | refine (freeRing_held ..).trans ?_ | refine (renameRing_held ..).trans ?_ | refine (modFn_held ..).trans ?_ | refine (stopCommand_held ..).trans ?_ | refine (foldl_held _ (fun _ _ => ?_) _ _).trans ?_ | refine ite_held ?_ ?_ | refine ite_held2 ?_ ?_ | split
theorem functionReset_held (s : State) (n : Nat) (by_ : Option Nat) :
    held (functionReset s n by_) = held s := by
  unfold functionReset
  with_reducible repeat' first | rfl | refine (modFn_held ..).trans ?_ | refine (removeRing_held ..).trans ?_ | refine (modLink_held ..).trans ?_ | refine (foldl_held _ (fun _ _ => ?_) _ _).trans ?_ | refine ite_held ?_ ?_
theorem execFunctionReset_held (fn : Nat) (s : State) {t : State} (h : execFunctionReset fn s = .next t) :
    held t = held s := by
  cases h
  with_reducible repeat' first | rfl | refine (functionReset_held ..).trans ?_ | refine ite_held ?_ ?_
theorem execFuncReset_held (c : Nat) (s : State) {t : State} (h : execFuncReset c s = .next t) :
    held t = held s := by
  cases h
  with_reducible repeat' first | rfl | refine (resident_held _ _ _ _ _ (fun _ _ => ?_)).trans ?_ | refine (functionReset_held ..).trans ?_ | refine (commitNow_held ..).trans ?_ | refine (modCtx_held ..).trans ?_ | refine ite_held ?_ ?_
theorem forgetFreed_held (s : State) (f : HostFn) :
    held (forgetFreed s f) = held s := by
  unfold forgetFreed
  with_reducible repeat' first | rfl | refine (updPlan_held ..).trans ?_ | refine (updNv_held ..).trans ?_ | refine (foldl_held _ (fun _ _ => ?_) _ _).trans ?_ | refine ite_held ?_ ?_
theorem endRingResets_held (s : State) (n : Nat) :
    held (endRingResets s n) = held s := by
  unfold endRingResets
  with_reducible repeat' first | rfl | refine (finishAdm_held ..).trans ?_ | refine (foldl_held _ (fun _ _ => ?_) _ _).trans ?_
theorem execFunctionResetComplete_held (fn : Nat) (s : State) {t : State} (h : execFunctionResetComplete fn s = .next t) :
    held t = held s := by
  cases h
  dsimp only
  with_reducible repeat' first | rfl | refine (updFns_held ..).trans ?_ | refine (finishAdm_held ..).trans ?_ | refine (forgetFreed_held ..).trans ?_ | refine (endRingResets_held ..).trans ?_ | refine (modFn_held ..).trans ?_ | refine (modLink_held ..).trans ?_ | refine (foldl_held _ (fun _ _ => ?_) _ _).trans ?_ | split
theorem moduleReset_held (s : State) :
    held (moduleReset s) = held s := by
  unfold moduleReset
  with_reducible repeat' first | rfl | refine (updPlan_held ..).trans ?_ | refine (updSide_held ..).trans ?_ | refine (updCane_held ..).trans ?_ | refine (functionReset_held ..).trans ?_ | refine (stopCommand_held ..).trans ?_ | refine (stopSignals_held ..).trans ?_ | refine (foldl_held _ (fun _ _ => ?_) _ _).trans ?_ | refine ite_held ?_ ?_
theorem execModuleReset_held (c : Nat) (s : State) {t : State} (h : execModuleReset c s = .next t) :
    held t = held s := by
  cases h
  with_reducible repeat' first | rfl | refine (resident_held _ _ _ _ _ (fun _ _ => ?_)).trans ?_ | refine (moduleReset_held ..).trans ?_ | refine (commitNow_held ..).trans ?_
theorem execModuleResetCommandsEnded_held (s : State) {t : State} (h : execModuleResetCommandsEnded s = .next t) :
    held t = held s := by
  cases h
  with_reducible repeat' first | rfl | refine (startDawn_held ..).trans ?_ | refine (flushAll_held ..).trans ?_ | refine ite_held ?_ ?_
theorem doorbellWake_held (s0 : State) (s : State) :
    held (doorbellWake s0 s) = held s := by
  unfold doorbellWake
  with_reducible repeat' first | rfl | refine (wake_held ..).trans ?_ | refine ite_held ?_ ?_
theorem execSqTail_held (fn : Nat) (loc : Nat) (value : BitVec 32) (s : State) {t : State} (h : execSqTail fn loc value s = .next t) :
    held t = held s := by
  cases h
  with_reducible repeat' first | rfl | refine (doorbellWake_held ..).trans ?_ | refine (sqTailWrite_held ..).trans ?_
theorem execRegisterWrite_held (fn : Nat) (offset : Nat) (bytes : Nat) (value : BitVec 64) (s : State) {t : State} (h : execRegisterWrite fn offset bytes value s = .next t) :
    held t = held s := by
  unfold execRegisterWrite at h
  split at h
  · cases h
  · cases h
    exact (doorbellWake_held _ _).trans (barWrite_held _ _ _ _ _)
theorem addFn_held (s : State) (f : HostFn) :
    held (addFn s f) = held s := rfl
theorem execLinkUp_held (link : Nat) (rate : Nat) (width : Nat) (flit : Bool) (s : State) {t : State} (h : execLinkUp link rate width flit s = .next t) :
    held t = held s := by
  cases h
  with_reducible repeat' first | rfl | refine (addFn_held ..).trans ?_ | refine (modLink_held ..).trans ?_ | refine ite_held ?_ ?_
theorem linkDown_held (s : State) (link : Nat) :
    held (linkDown s link) = held s := by
  unfold linkDown
  with_reducible repeat' first | rfl | refine (modLink_held ..).trans ?_ | refine (functionReset_held ..).trans ?_ | refine ite_held ?_ ?_
theorem execLinkDown_held (link : Nat) (s : State) {t : State} (h : execLinkDown link s = .next t) :
    held t = held s := by
  cases h
  with_reducible repeat' first | rfl | refine (linkDown_held ..).trans ?_ | refine ite_held ?_ ?_
theorem execPerstAssert_held (port : Nat) (s : State) {t : State} (h : execPerstAssert port s = .next t) :
    held t = held s := by
  cases h
  with_reducible repeat' first | rfl | refine (modLink_held ..).trans ?_ | refine (linkDown_held ..).trans ?_ | refine (foldl_held _ (fun _ _ => ?_) _ _).trans ?_ | refine ite_held ?_ ?_
theorem execPerstDeassert_held (port : Nat) (s : State) {t : State} (h : execPerstDeassert port s = .next t) :
    held t = held s := by
  cases h
  with_reducible repeat' first | rfl | refine (wake_held ..).trans ?_ | refine (modLink_held ..).trans ?_ | refine (foldl_held _ (fun _ _ => ?_) _ _).trans ?_ | refine ite_held ?_ ?_
theorem addVfs_held (s : State) (link : Nat) (k : Nat) :
    held (addVfs s link k) = held s := by
  unfold addVfs
  with_reducible repeat' first | rfl | refine (addFn_held ..).trans ?_ | refine (foldl_held _ (fun _ _ => ?_) _ _).trans ?_
theorem execVfEnable_held (link : Nat) (enable : Bool) (numVfs : Nat) (s : State) {t : State} (h : execVfEnable link enable numVfs s = .next t) :
    held t = held s := by
  cases h
  with_reducible repeat' first | rfl | refine (modLink_held ..).trans ?_ | refine (functionReset_held ..).trans ?_ | refine (addVfs_held ..).trans ?_ | refine (foldl_held _ (fun _ _ => ?_) _ _).trans ?_ | refine ite_held ?_ ?_
theorem execFunctionD3hot_held (fn : Nat) (d3 : Bool) (s : State) {t : State} (h : execFunctionD3hot fn d3 s = .next t) :
    held t = held s := by
  cases h
  with_reducible repeat' first | rfl | refine (modFn_held ..).trans ?_
theorem writeKept_held (s : State) (k : KeptCompletion) :
    held (writeKept s k) = held s := by
  unfold writeKept
  try dsimp only
  with_reducible repeat' first | rfl | refine (tryComplete_held ..).trans ?_ | refine (writeCompletion_held ..).trans ?_ | refine (foldl_held _ (fun _ _ => ?_) _ _).trans ?_ | refine ite_held ?_ ?_ | refine ite_held2 ?_ ?_ | split
theorem execFunctionReturnD0_held (fn : Nat) (s : State) {t : State} (h : execFunctionReturnD0 fn s = .next t) :
    held t = held s := by
  cases h
  with_reducible repeat' first | rfl | refine (modFn_held ..).trans ?_ | refine (writeKept_held ..).trans ?_ | refine (coalesce_held ..).trans ?_ | refine (msixDrainAll_held ..).trans ?_ | refine (foldl_held _ (fun _ _ => ?_) _ _).trans ?_ | split
theorem execUsb4TunnelUp_held (port : Nat) (mode : Nat) (s : State) {t : State} (h : execUsb4TunnelUp port mode s = .next t) :
    held t = held s := by
  cases h
  with_reducible repeat' first | rfl | refine (addFn_held ..).trans ?_ | refine (modLink_held ..).trans ?_ | refine ite_held ?_ ?_
theorem execUsb4TunnelDown_held (port : Nat) (s : State) {t : State} (h : execUsb4TunnelDown port s = .next t) :
    held t = held s := by
  cases h
  with_reducible repeat' first | rfl | refine (linkDown_held ..).trans ?_ | refine ite_held ?_ ?_
theorem execEnterUsb_held (port : Nat) (message : List Byte) (s : State) {t : State} (h : execEnterUsb port message s = .next t) :
    held t = held s := by
  cases h
  with_reducible repeat' first | rfl | refine (emit_held ..).trans ?_ | refine (drawFree_held ..).trans ?_ | refine (modLink_held ..).trans ?_ | refine ite_held ?_ ?_
theorem reply_held (s : State) (cmd : Nat) (st : BitVec 16) (seq : Nat) (body : List Byte) :
    held (reply s cmd st seq body) = held s := by
  unfold reply
  with_reducible repeat' first | rfl | refine (updSide_held ..).trans ?_ | refine (emit_held ..).trans ?_
theorem messageIn_held (s : State) (m : List Byte) :
    held (messageIn s m) = held s := by
  unfold messageIn
  with_reducible repeat' first | rfl | refine (reply_held ..).trans ?_ | refine ite_held ?_ ?_
theorem strayPacket_held (s : State) (p : List Byte) :
    held (strayPacket s p) = held s := by
  unfold strayPacket
  try dsimp only
  with_reducible repeat' first | rfl | refine (updSide_held ..).trans ?_ | refine (foldl_held _ (fun _ _ => ?_) _ _).trans ?_ | refine ite_held ?_ ?_ | refine ite_held2 ?_ ?_ | split
theorem execMctpPacket_held (packet : List Byte) (s : State) {t : State} (h : execMctpPacket packet s = .next t) :
    held t = held s := by
  cases h
  try dsimp only
  with_reducible repeat' first | rfl | refine (updSide_held ..).trans ?_ | refine (strayPacket_held ..).trans ?_ | refine (messageIn_held ..).trans ?_ | refine (foldl_held _ (fun _ _ => ?_) _ _).trans ?_ | refine ite_held ?_ ?_ | refine ite_held2 ?_ ?_ | split
theorem control_held (s : State) (cmd : Nat) (code : Nat) (body : List Byte) :
    held (Machine.control s cmd code body) = held s := rfl
theorem execSetEndpointId_held (op : Nat) (eid : Nat) (s : State) {t : State} (h : execSetEndpointId op eid s = .next t) :
    held t = held s := by
  cases h
  with_reducible repeat' first | rfl | refine (updSide_held ..).trans ?_ | refine (control_held ..).trans ?_ | refine ite_held ?_ ?_
theorem execGetEndpointId_held (s : State) {t : State} (h : execGetEndpointId s = .next t) :
    held t = held s := by
  cases h
  with_reducible repeat' first | rfl | refine (control_held ..).trans ?_ | refine ite_held ?_ ?_
theorem execGetMctpVersionSupport_held (typ : Nat) (s : State) {t : State} (h : execGetMctpVersionSupport typ s = .next t) :
    held t = held s := by
  cases h
  with_reducible repeat' first | rfl | refine (drawFree_held ..).trans ?_ | refine (control_held ..).trans ?_ | refine ite_held ?_ ?_
theorem execGetMessageTypeSupport_held (s : State) {t : State} (h : execGetMessageTypeSupport s = .next t) :
    held t = held s := by
  cases h
  with_reducible repeat' first | rfl | refine (control_held ..).trans ?_ | refine ite_held ?_ ?_
theorem execGetVendorDefinedSupport_held (sel : Nat) (s : State) {t : State} (h : execGetVendorDefinedSupport sel s = .next t) :
    held t = held s := by
  cases h
  with_reducible repeat' first | rfl | refine (control_held ..).trans ?_ | refine (drawFree_held ..).trans ?_ | refine ite_held ?_ ?_
theorem mv16_held (s : State) (v : Int) :
    held (mv16 s v).2 = held s := by
  unfold mv16
  with_reducible repeat' first | rfl | refine (drawFree_held ..).trans ?_ | refine ite_held2 ?_ ?_
theorem healthRecord_held (s : State) :
    held (healthRecord s).2 = held s := by
  unfold healthRecord
  dsimp only
  with_reducible repeat' first | rfl | refine (drawFree_held ..).trans ?_ | split
theorem execHealth_held (seq : Nat) (s : State) {t : State} (h : execHealth seq s = .next t) :
    held t = held s := by
  cases h
  with_reducible repeat' first | rfl | refine (healthRecord_held ..).trans ?_ | refine (reply_held ..).trans ?_ | refine ite_held ?_ ?_
theorem execTemps_held (seq : Nat) (s : State) {t : State} (h : execTemps seq s = .next t) :
    held t = held s := by
  cases h
  with_reducible repeat' first | rfl | refine (reply_held ..).trans ?_ | refine ite_held ?_ ?_
theorem execPower_held (seq : Nat) (s : State) {t : State} (h : execPower seq s = .next t) :
    held t = held s := by
  cases h
  with_reducible repeat' first | rfl | refine (mv16_held ..).trans ?_ | refine (reply_held ..).trans ?_ | refine ite_held ?_ ?_
theorem execEvents_held (seq : Nat) (s : State) {t : State} (h : execEvents seq s = .next t) :
    held t = held s := by
  cases h
  with_reducible repeat' first | rfl | refine (updSide_held ..).trans ?_ | refine (reply_held ..).trans ?_ | refine ite_held ?_ ?_
theorem execSidebandAdmin_held (seq : Nat) (body : List Byte) (s : State) {t : State} (h : execSidebandAdmin seq body s = .next t) :
    held t = held s := by
  cases h
  with_reducible repeat' first | rfl | refine (updSide_held ..).trans ?_ | refine (reply_held ..).trans ?_ | refine ite_held ?_ ?_
theorem execLog_held (seq : Nat) (body : List Byte) (s : State) {t : State} (h : execLog seq body s = .next t) :
    held t = held s := by
  cases h
  dsimp only
  with_reducible repeat' first | rfl | refine (reply_held ..).trans ?_ | split
theorem execSidebandReset_held (seq : Nat) (body : List Byte) (s : State) {t : State} (h : execSidebandReset seq body s = .next t) :
    held t = held s := by
  cases h
  with_reducible repeat' first | rfl | refine (reply_held ..).trans ?_ | refine (wake_held ..).trans ?_ | refine (moduleReset_held ..).trans ?_ | refine (noteWake_held ..).trans ?_ | refine ite_held ?_ ?_
theorem execSidebandWake_held (seq : Nat) (s : State) {t : State} (h : execSidebandWake seq s = .next t) :
    held t = held s := by
  cases h
  with_reducible repeat' first | rfl | refine (wake_held ..).trans ?_ | refine (reply_held ..).trans ?_ | refine ite_held ?_ ?_
theorem execAlertResponse_held (s : State) {t : State} (h : execAlertResponse s = .next t) :
    held t = held s := by
  cases h
  with_reducible repeat' first | rfl | refine (updSide_held ..).trans ?_ | refine (emit_held ..).trans ?_ | refine ite_held ?_ ?_
theorem addKeyRec_held (s : State) (b : List Byte) :
    held (addKeyRec s b) = held s := rfl
theorem newKey_held (s : State) (nsid : Nat) (flags : Nat) (key : List Byte) :
    held (newKey s nsid flags key).2 = held s := by
  unfold newKey
  with_reducible repeat' first | rfl | refine (updSec_held _ _ ⟨rfl, rfl, rfl, rfl, rfl, rfl⟩).trans ?_ | refine (norAppend_held ..).trans ?_
theorem createNs_held (s : State) (x : Ctx) :
    held (createNs s x) = held s := by
  unfold createNs
  try dsimp only
  with_reducible repeat' first | rfl | refine (updCare_held ..).trans ?_ | refine (updSec_held _ _ ⟨rfl, rfl, rfl, rfl, rfl, rfl⟩).trans ?_ | refine (takeSeq_held ..).trans ?_ | refine (putNs_held ..).trans ?_ | refine (journalAdd_held ..).trans ?_ | refine (foldl_held _ (fun _ _ => ?_) _ _).trans ?_ | refine ite_held ?_ ?_ | refine ite_held2 ?_ ?_ | split
theorem execNsCreate_held (c : Nat) (key : List Byte) (s : State) {t : State} (h : execNsCreate c key s = .next t) :
    held t = held s := by
  cases h
  dsimp only
  with_reducible repeat' first | rfl | refine (resident_held _ _ _ _ _ (fun _ _ => ?_)).trans ?_ | refine (residentPost_held ..).trans ?_ | refine (newKey_held ..).trans ?_ | refine (commitNow_held ..).trans ?_ | refine (modCtx_held ..).trans ?_ | refine (destroyKey_held ..).trans ?_ | refine (awaitMirror_held ..).trans ?_ | refine (tellKey_held ..).trans ?_ | refine (createNs_held ..).trans ?_ | split
theorem clearRange_held (s : State) (ns : Namespace) :
    held (clearRange s ns) = held s := by
  unfold clearRange
  with_reducible repeat' first | rfl | refine (updXlat_held ..).trans ?_ | refine (setEntry_held ..).trans ?_ | refine (sweepGather_held ..).trans ?_ | refine (foldl_held _ (fun _ _ => ?_) _ _).trans ?_
theorem execNsDelete_held (c : Nat) (s : State) {t : State} (h : execNsDelete c s = .next t) :
    held t = held s := by
  cases h
  with_reducible repeat' first | rfl | refine (updSec_held _ _ ⟨rfl, rfl, rfl, rfl, rfl, rfl⟩).trans ?_ | refine (resident_held _ _ _ _ _ (fun _ _ => ?_)).trans ?_ | refine (modNs_held ..).trans ?_ | refine (commitNow_held ..).trans ?_ | refine (modCtx_held ..).trans ?_ | refine (takeSeq_held ..).trans ?_ | refine (clearRange_held ..).trans ?_ | refine (journalAdd_held ..).trans ?_ | refine (destroyKey_held ..).trans ?_ | refine (residentPost_held ..).trans ?_ | refine (awaitMirror_held ..).trans ?_ | refine (tellKey_held ..).trans ?_ | split
theorem eraseTail_held (s s1 : State) (h1 : held s1 = held s) (c n e old k cap : Nat) (l : State → Nat → List JRecord) (g : Namespace → Namespace) (f : List Nat → List Nat) :
    held (residentPost (awaitMirror s (tellKey ((modNs (replNote (journalAdd (takeSeq s1 k).2 (l s1 (takeSeq s1 k).1)) n (takeSeq s1 k).1 0 cap none 0) n g).updSec
      fun y => { y with keyable := f y.keyable }) n e old) c) c St.ok 0 0) = held s :=
  (residentPost_held _ _ _ _ _).trans ((awaitMirror_held _ _ _).trans ((tellKey_held _ _ _ _).trans ((updSec_held _ _ ⟨rfl, rfl, rfl, rfl, rfl, rfl⟩).trans
    ((modNs_held _ _ _).trans ((replNote_held _ _ _ _ _ _ _).trans ((journalAdd_held _ _).trans ((takeSeq_held _ _).trans h1)))))))
theorem execCryptoErase_held (c : Nat) (key : List Byte) (s : State) {t : State} (h : execCryptoErase c key s = .next t) :
    held t = held s := by
  injection h with h
  subst h
  refine (resident_held _ _ _ _ _ (fun u y => ?_)).trans rfl
  split
  · rfl
  · rename_i ns _
    with_reducible refine ite_held (ite_held (Eq.refl _) ((modCtx_held _ _ _).trans ((newKey_held _ _ _ _).trans (commitNow_held _ _)))) (ite_held (Eq.refl _) ?_)
    exact eraseTail_held u (clearRange (destroyKey u ns.nsid (nth y.aux 0 0).toNat) ns) ((clearRange_held _ _).trans (destroyKey_held _ _ _)) c ns.nsid y.snap
      (nth y.aux 0 0).toNat (ceilDiv ns.cap (2 ^ 32 - 1)) ns.cap (fun _ q => unmapRecs (ceilDiv ns.cap (2 ^ 32 - 1)) ns.nsid 0 ns.cap q (seqStep u)) _ (fun l => if l.contains ns.nsid then l else l ++ [ns.nsid])
theorem execKeyImport_held (c : Nat) (bytes : List Byte) (s : State) {t : State} (h : execKeyImport c bytes s = .next t) :
    held t = held s := by
  cases h
  dsimp only
  with_reducible repeat' first | rfl | refine (updSec_held _ _ ⟨rfl, rfl, rfl, rfl, rfl, rfl⟩).trans ?_ | refine (resident_held _ _ _ _ _ (fun _ _ => ?_)).trans ?_ | refine (beginTransfer_held ..).trans ?_ | refine (modCtx_held ..).trans ?_ | refine (endTransfer_held ..).trans ?_ | refine (residentPost_held ..).trans ?_ | refine (newKey_held ..).trans ?_ | refine (commitNow_held ..).trans ?_ | refine (awaitMirror_held ..).trans ?_ | refine (tellKey_held ..).trans ?_ | refine (destroyKey_held ..).trans ?_ | split
theorem execSecCertCommit_held (c : Nat) (s : State) {t : State} (h : execSecCertCommit c s = .next t) :
    held t = held s := by
  cases h
  try dsimp only
  with_reducible repeat' first | rfl | refine (updSec_held _ _ ⟨rfl, rfl, rfl, rfl, rfl, rfl⟩).trans ?_ | refine (setDone_held ..).trans ?_ | refine (storeDue_held ..).trans ?_ | refine (foldl_held _ (fun _ _ => ?_) _ _).trans ?_ | refine ite_held ?_ ?_ | refine ite_held2 ?_ ?_ | split
theorem execCert_held (pseq : Nat) (cert : List Byte) (s : State) {t : State} (h : execCert pseq cert s = .next t) :
    held t = held s := by
  cases h
  with_reducible repeat' first | rfl | refine (updTwin_held ..).trans ?_ | refine (recvFrame_held _ _ _ (fun _ => ?_)).trans ?_
theorem execKeyx_held (pseq : Nat) (body : List Byte) (s : State) {t : State} (h : execKeyx pseq body s = .next t) :
    held t = held s := by
  cases h
  dsimp only
  with_reducible repeat' first | rfl | refine (recvFrame_held _ _ _ (fun _ => ?_)).trans ?_ | refine (sendAck_held ..).trans ?_ | refine (destroyKey_held ..).trans ?_ | refine (addKeyRec_held ..).trans ?_ | refine (norPut_held ..).trans ?_ | split
theorem attest_held (s : State) (nonce : List Byte) :
    held (attest s nonce) = held s := by
  unfold attest
  with_reducible repeat' first | rfl | refine (updSec_held _ _ ⟨rfl, rfl, rfl, rfl, rfl, rfl⟩).trans ?_ | refine ite_held ?_ ?_
theorem execAttest_held (c : Nat) (nonce : List Byte) (s : State) {t : State} (h : execAttest c nonce s = .next t) :
    held t = held s := by
  cases h
  with_reducible repeat' first | rfl | refine (resident_held _ _ _ _ _ (fun _ _ => ?_)).trans ?_ | refine (beginTransfer_held ..).trans ?_ | refine (modCtx_held ..).trans ?_ | refine (attest_held ..).trans ?_ | refine (endTransfer_held ..).trans ?_ | refine (residentPost_held ..).trans ?_ | refine (hostOut_held ..).trans ?_ | refine ite_held ?_ ?_
theorem execSidebandAttest_held (seq : Nat) (body : List Byte) (s : State) {t : State} (h : execSidebandAttest seq body s = .next t) :
    held t = held s := by
  cases h
  with_reducible repeat' first | rfl | refine (reply_held ..).trans ?_ | refine (attest_held ..).trans ?_ | refine ite_held ?_ ?_
theorem rotateKey_held (s : State) (key : List Byte) :
    held (rotateKey s key) = held s := by
  unfold rotateKey
  try dsimp only
  with_reducible repeat' first | rfl | refine (updSec_held _ _ ⟨rfl, rfl, rfl, rfl, rfl, rfl⟩).trans ?_ | refine (newKey_held ..).trans ?_ | refine (foldl_held _ (fun _ _ => ?_) _ _).trans ?_ | refine ite_held ?_ ?_ | refine ite_held2 ?_ ?_ | split
theorem execSecSyskeyRotate_held (c : Nat) (key : List Byte) (s : State) {t : State} (h : execSecSyskeyRotate c key s = .next t) :
    held t = held s := by
  cases h
  try dsimp only
  with_reducible repeat' first | rfl | refine (rotateKey_held ..).trans ?_ | refine (setDone_held ..).trans ?_ | refine (storeDue_held ..).trans ?_ | refine (foldl_held _ (fun _ _ => ?_) _ _).trans ?_ | refine ite_held ?_ ?_ | refine ite_held2 ?_ ?_ | split
theorem keyDurable_held (s : State) (b : List Byte) :
    held (keyDurable s b) = held s := by
  unfold keyDurable
  try dsimp only
  with_reducible repeat' first | rfl | refine (updSec_held _ _ ⟨rfl, rfl, rfl, rfl, rfl, rfl⟩).trans ?_ | refine (addKeyRec_held ..).trans ?_ | refine (foldl_held _ (fun _ _ => ?_) _ _).trans ?_ | refine ite_held ?_ ?_ | refine ite_held2 ?_ ?_ | split
theorem execSecLock_held (c : Nat) (s : State) {t : State} (h : execSecLock c s = .next t) :
    held t = held s := by
  cases h
  try dsimp only
  with_reducible repeat' first | rfl | refine (setDone_held ..).trans ?_ | refine (storeDue_held ..).trans ?_ | refine (foldl_held _ (fun _ _ => ?_) _ _).trans ?_ | refine ite_held ?_ ?_ | refine ite_held2 ?_ ?_ | split
theorem revokeNext_held (s : State) (id : Nat) (k : Nat) :
    held (revokeNext s id k) = held s := by
  unfold revokeNext
  try dsimp only
  with_reducible repeat' first | rfl | refine (storeDue_held ..).trans ?_ | refine (foldl_held _ (fun _ _ => ?_) _ _).trans ?_ | refine ite_held ?_ ?_ | refine ite_held2 ?_ ?_ | split
theorem execSecFwKeyRevoke_held (c : Nat) (s : State) {t : State} (h : execSecFwKeyRevoke c s = .next t) :
    held t = held s := by
  cases h
  try dsimp only
  with_reducible repeat' first | rfl | refine (setDone_held ..).trans ?_ | refine (revokeNext_held ..).trans ?_ | refine (foldl_held _ (fun _ _ => ?_) _ _).trans ?_ | refine ite_held ?_ ?_ | refine ite_held2 ?_ ?_ | split
theorem execSecCaRevoke_held (c : Nat) (s : State) {t : State} (h : execSecCaRevoke c s = .next t) :
    held t = held s := by
  cases h
  try dsimp only
  with_reducible repeat' first | rfl | refine (setDone_held ..).trans ?_ | refine (revokeNext_held ..).trans ?_ | refine (foldl_held _ (fun _ _ => ?_) _ _).trans ?_ | refine ite_held ?_ ?_ | refine ite_held2 ?_ ?_ | split
theorem freshKeys_held (s : State) (key : List Byte) :
    held (freshKeys s key) = held s := by
  unfold freshKeys
  with_reducible repeat' first | rfl | refine (updSec_held _ _ ⟨rfl, rfl, rfl, rfl, rfl, rfl⟩).trans ?_ | refine (updXlat_held ..).trans ?_ | refine (updMedia_held ..).trans ?_ | refine (updCare_held ..).trans ?_ | refine (updNor_held ..).trans ?_ | refine (destroyKey_held ..).trans ?_ | refine (addKeyRec_held ..).trans ?_ | refine (norPut_held ..).trans ?_ | refine (foldl_held _ (fun _ _ => ?_) _ _).trans ?_
theorem execKeyScrub_held (sector : Nat) (s : State) {t : State} (h : execKeyScrub sector s = .next t) :
    held t = held s := by
  cases h
  with_reducible repeat' first | rfl | refine (updNor_held ..).trans ?_ | refine (updSec_held _ _ ⟨rfl, rfl, rfl, rfl, rfl, rfl⟩).trans ?_ | refine (norPut_held ..).trans ?_ | refine (foldl_held _ (fun _ _ => ?_) _ _).trans ?_ | refine ite_held ?_ ?_
theorem execTamperRestart_held (s : State) {t : State} (h : execTamperRestart s = .next t) :
    held t = held s := by
  cases h
  with_reducible repeat' first | rfl | refine (updSec_held _ _ ⟨rfl, rfl, rfl, rfl, rfl, rfl⟩).trans ?_ | refine (startDawn_held ..).trans ?_ | split
theorem enterQueue_held (s : State) (sid : Nat) (msgId : Nat) (hops : Nat) (node : Nat) (m : List Byte) :
    held (enterQueue s sid msgId hops node m) = held s := by
  unfold enterQueue
  with_reducible repeat' first | rfl | refine (updCane_held ..).trans ?_ | refine (sendRep_held ..).trans ?_ | refine ite_held ?_ ?_
theorem rcallSend_held (s : State) (x : Ctx) (w : BitVec 32) :
    held (rcallSend s x w) = held s := by
  unfold rcallSend
  dsimp only
  with_reducible repeat' first | rfl | refine (tellCall_held ..).trans ?_ | refine (enterQueue_held ..).trans ?_ | refine (unreachable_held ..).trans ?_ | refine (caneSend_held ..).trans ?_ | refine (openTo_held _ _ (by assumption)).trans ?_ | split
theorem execRcall_held (c : Nat) (s : State) {t : State} (h : execRcall c s = .next t) :
    held t = held s := by
  cases h
  with_reducible repeat' first | rfl | refine (issue_held _ _ _ _ _ (fun _ _ _ => ?_)).trans ?_ | refine (rcallSend_held ..).trans ?_ | refine (putCtx_held ..).trans ?_
theorem movePaced_held (s : State) (p : Nat) (q : Nat) :
    held (movePaced s p q) = held s := rfl
theorem execCaneLinkChange_held (port : Nat) (st : Nat) (s : State) {t : State} (h : execCaneLinkChange port st s = .next t) :
    held t = held s := by
  cases h
  with_reducible repeat' first | rfl | refine (updCane_held ..).trans ?_ | refine (updMovers_held ..).trans ?_ | refine (markBursts_held ..).trans ?_ | refine (movePaced_held ..).trans ?_ | refine (canePump_held ..).trans ?_ | refine (foldl_held _ (fun _ _ => ?_) _ _).trans ?_ | refine ite_held ?_ ?_
theorem execNeighborSolicitation_held (port : Nat) (target : List Byte) (src : List Byte) (s : State) {t : State} (h : execNeighborSolicitation port target src s = .next t) :
    held t = held s := by
  cases h
  with_reducible repeat' first | rfl | refine (emit_held ..).trans ?_ | refine ite_held ?_ ?_
theorem execEchoRequest_held (port : Nat) (src : List Byte) (dst : List Byte) (body : List Byte) (s : State) {t : State} (h : execEchoRequest port src dst body s = .next t) :
    held t = held s := by
  cases h
  with_reducible repeat' first | rfl | refine (emit_held ..).trans ?_ | refine ite_held ?_ ?_
theorem authFail_held (s : State) :
    held (authFail s) = held s := rfl
theorem grant_held (s : State) (sid : Nat) :
    held (grant s sid) = held s := by
  unfold grant
  with_reducible repeat' first | rfl | refine (drawFree_held ..).trans ?_ | refine (caneFrame_held ..).trans ?_
theorem moveSession_held (s : State) (old : Nat) (new : Nat) :
    held (moveSession s old new) = held s := rfl
theorem establish_held (s : State) (sid : Nat) :
    held (establish s sid) = held s := by
  unfold establish
  with_reducible repeat' first | rfl | refine (modSession_held ..).trans ?_ | refine (moveSession_held ..).trans ?_ | refine (canePump_held ..).trans ?_ | refine (grant_held ..).trans ?_ | split
theorem failKex_held (s : State) (sid : Nat) :
    held (failKex s sid) = held s := by
  unfold failKex
  with_reducible repeat' first | rfl | refine (dropSession_held ..).trans ?_ | refine (authFail_held ..).trans ?_
theorem answerKx1_held (s : State) (node : Nat) (m : List Byte) (out : List CaneMsg) (rekeyOf : Option Nat) :
    held (answerKx1 s node m out rekeyOf) = held s := by
  unfold answerKx1
  with_reducible repeat' first | rfl | refine (drawBytes_held ..).trans ?_ | refine (drawFree_held ..).trans ?_ | refine (addSession_held ..).trans ?_ | refine (sendKex_held ..).trans ?_ | refine (modSession_held ..).trans ?_
theorem execKx1_held (node : Nat) (body : List Byte) (s : State) {t : State} (h : execKx1 node body s = .next t) :
    held t = held s := by
  cases h
  with_reducible repeat' first | rfl | refine (updCane_held ..).trans ?_ | refine (sendKex_held ..).trans ?_ | refine (answerKx1_held ..).trans ?_ | refine (authFail_held ..).trans ?_ | refine (sessionRoom_held _ (by assumption)).trans ?_ | split
theorem execKx2_held (node : Nat) (body : List Byte) (s : State) {t : State} (h : execKx2 node body s = .next t) :
    held t = held s := by
  cases h
  dsimp only
  with_reducible repeat' first | rfl | refine (failKex_held ..).trans ?_ | refine (modSession_held ..).trans ?_ | refine (establish_held ..).trans ?_ | refine (sendKex_held ..).trans ?_ | split
theorem execKx3_held (node : Nat) (body : List Byte) (s : State) {t : State} (h : execKx3 node body s = .next t) :
    held t = held s := by
  cases h
  with_reducible repeat' first | rfl | refine (failKex_held ..).trans ?_ | refine (establish_held ..).trans ?_ | refine (modSession_held ..).trans ?_ | split
theorem execCaneRekey_held (sid : Nat) (s : State) {t : State} (h : execCaneRekey sid s = .next t) :
    held t = held s := by
  cases h
  with_reducible repeat' first | rfl | refine (startKex_held ..).trans ?_ | split
theorem execOldSessionKeysExpiry_held (sid : Nat) (s : State) {t : State} (h : execOldSessionKeysExpiry sid s = .next t) :
    held t = held s := by
  cases h
  with_reducible repeat' first | rfl | refine (updCane_held ..).trans ?_ | split
theorem recvCane_held (s : State) (sid : Nat) (fcount : Nat) (tagOk : Bool) (frames : Nat) (f : State → Session → State) (hf : ∀ u y1, held (f u y1) = held u) :
    held (recvCane s sid fcount tagOk frames f) = held s := by
  unfold recvCane
  with_reducible repeat' first | rfl | refine (updCane_held ..).trans ?_ | refine (authFail_held ..).trans ?_ | refine (modSession_held ..).trans ?_ | refine (hf _ _).trans ?_ | split
theorem ackMessage_held (s : State) (sid : Nat) (msgId : Nat) (m : List Byte) :
    held (ackMessage s sid msgId m) = held s := by
  unfold ackMessage
  with_reducible repeat' first | rfl | refine (grant_held ..).trans ?_ | refine (caneFrame_held ..).trans ?_ | refine (foldl_held _ (fun _ _ => ?_) _ _).trans ?_
theorem execReq_held (sid : Nat) (fcount : Nat) (tagOk : Bool) (msgId : Nat) (hops : Nat) (body : List Byte) (s : State) {t : State} (h : execReq sid fcount tagOk msgId hops body s = .next t) :
    held t = held s := by
  cases h
  dsimp only
  with_reducible repeat' first | rfl | refine (recvCane_held _ _ _ _ _ _ (fun _ _ => ?_)).trans ?_ | refine (ackMessage_held ..).trans ?_ | refine (caneQueue_held ..).trans ?_ | refine (enterQueue_held ..).trans ?_ | refine (modSession_held ..).trans ?_ | split
theorem execRep_held (sid : Nat) (fcount : Nat) (tagOk : Bool) (msgId : Nat) (body : List Byte) (s : State) {t : State} (h : execRep sid fcount tagOk msgId body s = .next t) :
    held t = held s := by
  cases h
  dsimp only
  with_reducible repeat' first | rfl | refine (recvCane_held _ _ _ _ _ _ (fun _ _ => ?_)).trans ?_ | refine (ackMessage_held ..).trans ?_ | refine (modSession_held ..).trans ?_ | refine (tellCall_held ..).trans ?_ | split
theorem execCaneAck_held (sid : Nat) (fcount : Nat) (tagOk : Bool) (msgId : Nat) (seg : Nat) (s : State) {t : State} (h : execCaneAck sid fcount tagOk msgId seg s = .next t) :
    held t = held s := by
  cases h
  dsimp only
  with_reducible repeat' first | rfl | refine (recvCane_held _ _ _ _ _ _ (fun _ _ => ?_)).trans ?_ | refine (modSession_held ..).trans ?_ | split
theorem execCredit_held (sid : Nat) (fcount : Nat) (tagOk : Bool) (bytes : Nat) (s : State) {t : State} (h : execCredit sid fcount tagOk bytes s = .next t) :
    held t = held s := by
  cases h
  with_reducible repeat' first | rfl | refine (recvCane_held _ _ _ _ _ _ (fun _ _ => ?_)).trans ?_ | refine (canePump_held ..).trans ?_ | refine (modSession_held ..).trans ?_
theorem execKeepalive_held (sid : Nat) (fcount : Nat) (tagOk : Bool) (s : State) {t : State} (h : execKeepalive sid fcount tagOk s = .next t) :
    held t = held s := by
  cases h
  with_reducible repeat' first | rfl | refine (recvCane_held _ _ _ _ _ _ (fun _ _ => ?_)).trans ?_
theorem execClose_held (sid : Nat) (fcount : Nat) (tagOk : Bool) (s : State) {t : State} (h : execClose sid fcount tagOk s = .next t) :
    held t = held s := by
  cases h
  dsimp only
  with_reducible repeat' first | rfl | refine (recvCane_held _ _ _ _ _ _ (fun _ _ => ?_)).trans ?_ | refine (dropSession_held ..).trans ?_ | refine (modSession_held ..).trans ?_ | refine (failMsgs_held ..).trans ?_ | refine (caneSend_held ..).trans ?_ | refine (foldl_held _ (fun _ _ => ?_) _ _).trans ?_ | refine (openTo_held _ _ (by assumption)).trans ?_ | split
theorem execCaneRto_held (sid : Nat) (msgId : Nat) (s : State) {t : State} (h : execCaneRto sid msgId s = .next t) :
    held t = held s := by
  cases h
  dsimp only
  with_reducible repeat' first | rfl | refine (updCane_held ..).trans ?_ | refine (sendKex_held ..).trans ?_ | refine (caneFrame_held ..).trans ?_ | refine (modSession_held ..).trans ?_ | refine (foldl_held _ (fun _ _ => ?_) _ _).trans ?_ | split
theorem replLost_held (s : State) (node : Nat) :
    held (replLost s node) = held s := by
  unfold replLost
  with_reducible repeat' first | rfl | refine (updCane_held ..).trans ?_ | refine (sweepGather_held ..).trans ?_
theorem execCaneGiveup_held (sid : Nat) (msgId : Nat) (s : State) {t : State} (h : execCaneGiveup sid msgId s = .next t) :
    held t = held s := by
  cases h
  dsimp only
  with_reducible repeat' first | rfl | refine (dropSession_held ..).trans ?_ | refine (failMsgs_held ..).trans ?_ | refine (modSession_held ..).trans ?_ | refine (replLost_held ..).trans ?_ | split
theorem execCaneDedupExpiry_held (sid : Nat) (msgId : Nat) (s : State) {t : State} (h : execCaneDedupExpiry sid msgId s = .next t) :
    held t = held s := by
  cases h
  with_reducible repeat' first | rfl | refine (modSession_held ..).trans ?_
theorem execCaneRepl_held (c : Nat) (s : State) {t : State} (h : execCaneRepl c s = .next t) :
    held t = held s := by
  cases h
  with_reducible repeat' first | rfl | refine (updCane_held ..).trans ?_ | refine (storeNv_held ..).trans ?_ | refine (sweepGather_held ..).trans ?_ | refine (setDone_held ..).trans ?_ | split
theorem applyOp_held (x : Ctx) (ns : Namespace) (s : State) (o : Nat × Nat × List Byte) :
    held (applyOp x ns s o) = held s := by
  unfold applyOp
  with_reducible repeat' first | rfl | refine (unmapRange_held ..).trans ?_ | refine (writeGranule_held ..).trans ?_ | refine ite_held ?_ ?_
theorem atomOps_held (x : Ctx) (ns : Namespace) (l : List (Nat × Nat × List Byte)) (w : State × List AtomOp) :
    held (l.foldl (fun (w : State × List AtomOp) o =>
      if o.2.2.isEmpty then (w.1, w.2 ++ [.unmap o.1 o.2.1])
      else
        let e := enterGather w.1 ns x.c o.1 0 true (!x.writeThrough) (Mem.ofList o.2.2)
        (e.2, w.2 ++ [.write o.1 e.1])) w).1 = held w.1 := by
  induction l generalizing w with
  | nil => rfl
  | cons o l ih =>
    refine (ih _).trans ?_
    dsimp only
    split
    · rfl
    · exact enterGather_held w.1 ns x.c o.1 0 true (!x.writeThrough) (Mem.ofList o.2.2)
theorem applyAtom_held (x : Ctx) (ns : Namespace) (s : State) (ops : List (Nat × Nat × List Byte)) :
    held (applyAtom x ns s ops) = held s := (commitAtom_held _ _ _ _).trans (atomOps_held _ _ _ _)
theorem execRepl_held (sid : Nat) (fcount : Nat) (tagOk : Bool) (msgId : Nat) (nsid : Nat) (g16k : Bool) (cap : Nat) (seq : Nat) (base : Bool) (atom : Bool) (cut : Bool) (ops : List (Nat × Nat × List Byte)) (s : State) {t : State} (h : execRepl sid fcount tagOk msgId nsid g16k cap seq base atom cut ops s = .next t) :
    held t = held s := by
  cases h
  dsimp only
  with_reducible repeat' first | rfl | refine (recvCane_held _ _ _ _ _ _ (fun _ _ => ?_)).trans ?_ | refine (modRepl_held ..).trans ?_ | refine (ackMessage_held ..).trans ?_ | refine (applyAtom_held ..).trans ?_ | refine (applyOp_held ..).trans ?_ | refine (foldl_held _ (fun _ _ => ?_) _ _).trans ?_ | split
theorem execReplAck_held (sid : Nat) (fcount : Nat) (tagOk : Bool) (g16k : Bool) (cap : Nat) (body : List Byte) (s : State) {t : State} (h : execReplAck sid fcount tagOk g16k cap body s = .next t) :
    held t = held s := by
  cases h
  dsimp only
  with_reducible repeat' first | rfl | refine (recvCane_held _ _ _ _ _ _ (fun _ _ => ?_)).trans ?_ | refine (sweepGather_held ..).trans ?_ | refine (modRepl_held ..).trans ?_ | split
theorem modImage_held (s : State) (b : Nat) (f : Image → Image) :
    held (modImage s b f) = held s := rfl
theorem readManifest_held (s : State) (b : Nat) :
    held (readManifest s b) = held s := rfl
theorem putBoot_held (s : State) :
    held (putBoot s) = held s := by
  unfold putBoot
  with_reducible repeat' first | rfl | refine (norPut_held ..).trans ?_
theorem setStage_held (s : State) (st : StageSt) :
    held (setStage s st) = held s := by
  unfold setStage
  with_reducible repeat' first | rfl | refine (updNor_held ..).trans ?_ | refine (putBoot_held ..).trans ?_
theorem loadBoot_held (s : State) :
    held (loadBoot s) = held s := by
  unfold loadBoot
  with_reducible repeat' first | rfl | refine (updNor_held ..).trans ?_ | split
theorem writeMigration_held (s : State) (i : Image) :
    held (writeMigration s i) = held s := by
  unfold writeMigration
  try dsimp only
  with_reducible repeat' first | rfl | refine (norPut_held ..).trans ?_ | refine (foldl_held _ (fun _ _ => ?_) _ _).trans ?_ | refine ite_held ?_ ?_ | refine ite_held2 ?_ ?_ | split
theorem retireSettings_held (s : State) (p : Nat → Bool) :
    held (retireSettings s p) = held s := by
  unfold retireSettings
  try dsimp only
  with_reducible repeat' first | rfl | refine (updNor_held ..).trans ?_ | refine (foldl_held _ (fun _ _ => ?_) _ _).trans ?_ | refine ite_held ?_ ?_ | refine ite_held2 ?_ ?_ | split
theorem migrate_held (s : State) (b : Nat) :
    held (migrate s b) = held s := by
  unfold migrate
  dsimp only
  split
  · split
    · rfl
    · exact retireSettings_held ..
  · exact writeMigration_held ..
theorem unmigrate_held (s : State) (b : Nat) :
    held (unmigrate s b) = held s := by
  unfold unmigrate
  dsimp only
  split
  · rfl
  · exact retireSettings_held s (· == s.nor.schema)
theorem noteActivation_held (s : State) (kind : Nat) (beats : Nat) :
    held (noteActivation s kind beats) = held s := rfl
theorem swapBack_held (s : State) (p : Nat) :
    held (swapBack s p) = held s := by
  unfold swapBack
  with_reducible repeat' first | rfl | refine (updNor_held ..).trans ?_ | refine (putBoot_held ..).trans ?_ | refine (unmigrate_held ..).trans ?_
theorem askErase_held (s : State) (bank : Nat) (sector : Nat) :
    held (askErase s bank sector) = held s := by
  unfold askErase
  with_reducible repeat' first | rfl | refine (norAppend_held ..).trans ?_
theorem erasePump_held (s : State) :
    held (erasePump s) = held s := by
  unfold erasePump
  with_reducible repeat' first | rfl | refine (updNor_held ..).trans ?_ | refine (askErase_held ..).trans ?_ | split
theorem compact_held (s : State) :
    held (compact s) = held s := by
  unfold compact
  with_reducible repeat' first | rfl | refine (norPut_held ..).trans ?_ | refine (askErase_held ..).trans ?_ | refine (foldl_held _ (fun _ _ => ?_) _ _).trans ?_ | split
theorem execNorEraseDone_held (ok : Bool) (s : State) {t : State} (h : execNorEraseDone ok s = .next t) :
    held t = held s := by
  cases h
  dsimp only
  with_reducible repeat' first | rfl | refine (updNor_held ..).trans ?_ | refine (erasePump_held ..).trans ?_ | refine (norRetire_held ..).trans ?_ | refine (modImage_held ..).trans ?_ | refine (setStage_held ..).trans ?_ | split
theorem dlFail_held (s : State) (c : Nat) (detail : Nat) :
    held (dlFail s c detail) = held s := by
  unfold dlFail
  with_reducible repeat' first | rfl | refine (updNor_held ..).trans ?_ | refine (residentPost_held ..).trans ?_ | refine (event_held ..).trans ?_ | refine (setStage_held ..).trans ?_
theorem execFwDownload_held (c : Nat) (bytes : List Byte) (s : State) {t : State} (h : execFwDownload c bytes s = .next t) :
    held t = held s := by
  cases h
  dsimp only
  with_reducible repeat' first | rfl | refine (updNor_held ..).trans ?_ | refine (resident_held _ _ _ _ _ (fun _ _ => ?_)).trans ?_ | refine (residentPost_held ..).trans ?_ | refine (beginTransfer_held ..).trans ?_ | refine (modCtx_held ..).trans ?_ | refine (endTransfer_held ..).trans ?_ | refine (commitNow_held ..).trans ?_ | refine (modImage_held ..).trans ?_ | refine (dlFail_held ..).trans ?_ | refine (readManifest_held ..).trans ?_ | refine (setStage_held ..).trans ?_ | split
theorem blockStored_held (s : State) (c : Nat) (off : Nat) (n : Nat) (ok : Bool) :
    held (blockStored s c off n ok) = held s := by
  unfold blockStored
  with_reducible repeat' first | rfl | refine (dlFail_held ..).trans ?_ | refine (norAppend_held ..).trans ?_ | refine ite_held ?_ ?_
theorem blockDone_held (s : State) (c : Nat) (off : Nat) (n : Nat) :
    held (blockDone s c off n) = held s := by
  unfold blockDone
  with_reducible repeat' first | rfl | refine (updNor_held ..).trans ?_ | refine (modImage_held ..).trans ?_ | refine (event_held ..).trans ?_ | refine (setStage_held ..).trans ?_ | refine (residentPost_held ..).trans ?_ | refine ite_held ?_ ?_
theorem entryDurable_held (s : State) (e : NorEntry) :
    held (entryDurable s e) = held s := by
  unfold entryDurable
  try dsimp only
  with_reducible repeat' first | rfl | refine (keyDurable_held ..).trans ?_ | refine (anchorDurable_held ..).trans ?_ | refine (blockDone_held ..).trans ?_ | refine (erasePump_held ..).trans ?_ | refine (foldl_held _ (fun _ _ => ?_) _ _).trans ?_ | refine ite_held ?_ ?_ | refine ite_held2 ?_ ?_ | split
theorem execNorProgramDone_held (ok : Bool) (s : State) {t : State} (h : execNorProgramDone ok s = .next t) :
    held t = held s := by
  cases h
  with_reducible repeat' first | rfl | refine (updNor_held ..).trans ?_ | refine (compact_held ..).trans ?_ | refine (entryDurable_held ..).trans ?_ | refine (blockStored_held ..).trans ?_ | split
theorem execFwPreloadDone_held (s : State) {t : State} (h : execFwPreloadDone s = .next t) :
    held t = held s := by
  cases h
  with_reducible repeat' first | rfl | refine (updNor_held ..).trans ?_ | refine ite_held ?_ ?_
theorem activate_held (s : State) (c : Nat) (act : Nat) (body : State → List Byte) (fin : State → State) (hfin : ∀ u, held (fin u) = held u) :
    held (activate s c act body fin) = held s := by
  unfold activate
  with_reducible repeat' first | rfl | refine (resident_held _ _ _ _ _ (fun _ _ => ?_)).trans ?_ | refine (norAppend_held ..).trans ?_ | refine (modCtx_held ..).trans ?_ | refine (commitNow_held ..).trans ?_ | refine (residentPost_held ..).trans ?_ | refine (hfin _).trans ?_ | refine ite_held ?_ ?_
theorem execFwActivateLive_held (c : Nat) (s : State) {t : State} (h : execFwActivateLive c s = .next t) :
    held t = held s := by
  cases h
  try dsimp only
  with_reducible repeat' first | rfl | refine (updNor_held ..).trans ?_ | refine (resident_held _ _ _ _ _ (fun _ _ => ?_)).trans ?_ | refine (commitNow_held ..).trans ?_ | refine (norAppend_held ..).trans ?_ | refine (foldl_held _ (fun _ _ => ?_) _ _).trans ?_ | refine ite_held ?_ ?_ | refine ite_held2 ?_ ?_ | split
theorem execFwActivateAtReset_held (c : Nat) (s : State) {t : State} (h : execFwActivateAtReset c s = .next t) :
    held t = held s := by
  cases h
  with_reducible repeat' first | rfl | refine (activate_held _ _ _ _ _ (fun _ => ?_)).trans ?_ | refine (noteActivation_held ..).trans ?_ | refine (event_held ..).trans ?_
theorem execFwActivateCommit_held (c : Nat) (s : State) {t : State} (h : execFwActivateCommit c s = .next t) :
    held t = held s := by
  cases h
  try dsimp only
  with_reducible repeat' first | rfl | refine (updNor_held ..).trans ?_ | refine (activate_held _ _ _ _ _ (fun _ => ?_)).trans ?_ | refine (loadBoot_held ..).trans ?_ | refine (norPut_held ..).trans ?_ | refine (erasePump_held ..).trans ?_ | refine (retireSettings_held ..).trans ?_ | refine (foldl_held _ (fun _ _ => ?_) _ _).trans ?_ | refine ite_held ?_ ?_ | refine ite_held2 ?_ ?_ | split
theorem execFwActivateRollback_held (c : Nat) (s : State) {t : State} (h : execFwActivateRollback c s = .next t) :
    held t = held s := by
  cases h
  with_reducible repeat' first | rfl | refine (activate_held _ _ _ _ _ (fun _ => ?_)).trans ?_ | refine (noteActivation_held ..).trans ?_ | refine (event_held ..).trans ?_ | refine (unmigrate_held ..).trans ?_
theorem execFwActivateDiscard_held (c : Nat) (s : State) {t : State} (h : execFwActivateDiscard c s = .next t) :
    held t = held s := by
  cases h
  with_reducible repeat' first | rfl | refine (updNor_held ..).trans ?_ | refine (activate_held _ _ _ _ _ (fun _ => ?_)).trans ?_ | refine (erasePump_held ..).trans ?_ | refine (loadBoot_held ..).trans ?_
theorem execFwSwitchBeat_held (s : State) {t : State} (h : execFwSwitchBeat s = .next t) :
    held t = held s := by
  cases h
  with_reducible repeat' first | rfl | refine (updNor_held ..).trans ?_ | refine (updZci_held ..).trans ?_ | refine (migrate_held ..).trans ?_ | refine (loadBoot_held ..).trans ?_ | refine (countCode_held ..).trans ?_ | refine (noteActivation_held ..).trans ?_ | split
theorem resetFollows_held (s : State) :
    held (resetFollows s) = held s := by
  unfold resetFollows
  with_reducible repeat' first | rfl | refine (updPlan_held ..).trans ?_ | refine (moduleReset_held ..).trans ?_ | refine ite_held ?_ ?_
theorem execServitorRestart_held (n : Nat) (s : State) {t : State} (h : execServitorRestart n s = .next t) :
    held t = held s := by
  cases h
  with_reducible repeat' first | rfl | refine (updNor_held ..).trans ?_ | refine (event_held ..).trans ?_ | refine (finishAdm_held ..).trans ?_ | split
theorem execWatchdogExpiry_held (n : Nat) (s : State) {t : State} (h : execWatchdogExpiry n s = .next t) :
    held t = held s := by
  cases h
  with_reducible repeat' first | rfl | refine (updNor_held ..).trans ?_ | refine ite_held ?_ ?_
theorem modBank_held (s : State) (b : Nat) (f : MemBank → MemBank) :
    held (modBank s b f) = held s := rfl
theorem memFatal_held (s : State) (b : Nat) :
    held (memFatal s b) = held s := by
  unfold memFatal
  with_reducible repeat' first | rfl | refine (goFatal_held ..).trans ?_ | refine (modBank_held ..).trans ?_
theorem countRepairs_held (s : State) :
    held (countRepairs s) = held s := rfl
theorem beyondRepair_held (s : State) (m : Nat) :
    held (beyondRepair s m) = held s := by
  unfold beyondRepair
  dsimp only
  with_reducible repeat' first | rfl | refine (updMem_held _ _ rfl).trans ?_ | refine (updMedia_held ..).trans ?_ | refine (modBank_held ..).trans ?_ | refine (memFatal_held ..).trans ?_ | split
theorem repairRow_held (w : State × List Nat) (r : Nat × Nat) :
    held (repairRow w r).1 = held w.1 := by
  unfold repairRow
  with_reducible repeat' first | rfl | refine (updMem_held _ _ rfl).trans ?_ | split
theorem repairFold_held (l : List (Nat × Nat)) (w : State × List Nat) : held (l.foldl repairRow w).1 = held w.1 := by
  induction l generalizing w with
  | nil => rfl
  | cons r l ih => exact (ih _).trans (repairRow_held _ _)
theorem repairRows_held (s : State) (failing : List (Nat × Nat)) (rerun : List Nat) :
    held (repairRows s failing rerun).2 = held s := (countRepairs_held _).trans ((foldl_held _ (fun _ _ => beyondRepair_held _ _) _ _).trans (repairFold_held _ _))
theorem execScrub_held (bank : Nat) (unit : Nat) (words : Nat) (s : State) {t : State} (h : execScrub bank unit words s = .next t) :
    held t = held s := by
  cases h
  with_reducible repeat' first | rfl | refine (updMem_held _ _ rfl).trans ?_ | refine (modBank_held ..).trans ?_ | refine ite_held ?_ ?_
theorem dropLines_held (s : State) (p : CacheWay → Bool) :
    held (dropLines s p) = held s := rfl
theorem engineMemError_held (s : State) (e : Nat) :
    held (engineMemError s e) = held s := by
  unfold engineMemError
  with_reducible repeat' first | rfl | refine (updMovers_held ..).trans ?_ | refine (modEngine_held ..).trans ?_ | refine (busEnd_held ..).trans ?_ | refine (foldl_held _ (fun _ _ => ?_) _ _).trans ?_
theorem execSramUncorrectable_held (bank : Nat) (unit : Nat) (s : State) {t : State} (h : execSramUncorrectable bank unit s = .next t) :
    held t = held s := by
  cases h
  with_reducible repeat' first | rfl | refine (updMem_held _ _ rfl).trans ?_ | refine (modBank_held ..).trans ?_ | refine (dropLines_held ..).trans ?_ | refine (memFatal_held ..).trans ?_ | refine (zeroVault_held ..).trans ?_ | refine (engineMemError_held ..).trans ?_ | split
theorem execMemTestReq_held (c : Nat) (s : State) {t : State} (h : execMemTestReq c s = .next t) :
    held t = held s := by
  cases h
  with_reducible repeat' first | rfl | refine (updMem_held _ _ rfl).trans ?_ | refine (updMedia_held ..).trans ?_ | refine (setDone_held ..).trans ?_ | split
theorem execMemTestDone_held (failing : List (Nat × Nat)) (rerun : List Nat) (s : State) {t : State} (h : execMemTestDone failing rerun s = .next t) :
    held t = held s := by
  cases h
  with_reducible repeat' first | rfl | refine (updMedia_held ..).trans ?_ | refine (updMem_held _ _ rfl).trans ?_ | refine (repairRows_held ..).trans ?_ | refine ite_held ?_ ?_
theorem takeReadings_held (s : State) (raw : List Int) (changed : List Bool) :
    held (takeReadings s raw changed) = held s := by
  unfold takeReadings
  with_reducible repeat' first | rfl | refine (updTherm_held ..).trans ?_
theorem judge_held (s : State) :
    held (judge s) = held s := by
  unfold judge
  with_reducible repeat' first | rfl | refine (updTherm_held ..).trans ?_ | refine (event_held ..).trans ?_ | refine (foldl_held _ (fun _ _ => ?_) _ _).trans ?_
theorem throttle_held (s : State) :
    held (throttle s) = held s := by
  unfold throttle
  with_reducible repeat' first | rfl | refine (updTherm_held ..).trans ?_ | refine (event_held ..).trans ?_ | refine (eventIf_held ..).trans ?_ | refine (foldl_held _ (fun _ _ => ?_) _ _).trans ?_
theorem writeWindow_held (s : State) :
    held (writeWindow s) = held s := rfl
theorem chargeWindow_held (s : State) :
    held (chargeWindow s) = held s := rfl
theorem carrierHot_held (s : State) (z : Nat) :
    held (carrierHot s z) = held s := by
  unfold carrierHot
  with_reducible repeat' first | rfl | refine (updTherm_held ..).trans ?_ | refine (startDrain_held ..).trans ?_ | refine (modOct_held ..).trans ?_ | refine (foldl_held _ (fun _ _ => ?_) _ _).trans ?_
theorem controllerHot_held (s : State) (z : Nat) :
    held (controllerHot s z) = held s := by
  unfold controllerHot
  with_reducible repeat' first | rfl | refine (updTherm_held ..).trans ?_ | refine (updDay_held ..).trans ?_ | refine (updPlan_held ..).trans ?_ | refine (freeze_held ..).trans ?_ | refine ite_held ?_ ?_
theorem execSensorSample_held (raw : List Int) (changed : List Bool) (s : State) {t : State} (h : execSensorSample raw changed s = .next t) :
    held t = held s := by
  cases h
  dsimp only
  with_reducible repeat' first | rfl | refine (updCare_held ..).trans ?_ | refine (updTherm_held ..).trans ?_ | refine (chargeWindow_held ..).trans ?_ | refine (judge_held ..).trans ?_ | refine (takeReadings_held ..).trans ?_ | refine (writeWindow_held ..).trans ?_ | refine (throttle_held ..).trans ?_ | refine (carrierHot_held ..).trans ?_ | refine (controllerHot_held ..).trans ?_ | refine (foldl_held _ (fun _ _ => ?_) _ _).trans ?_ | split
theorem execCarrierZoneReturn_held (k : Nat) (s : State) {t : State} (h : execCarrierZoneReturn k s = .next t) :
    held t = held s := by
  cases h
  with_reducible repeat' first | rfl | refine (updTherm_held ..).trans ?_ | refine (modOct_held ..).trans ?_ | refine (foldl_held _ (fun _ _ => ?_) _ _).trans ?_ | refine ite_held ?_ ?_
theorem execHotStopFlushed_held (s : State) {t : State} (h : execHotStopFlushed s = .next t) :
    held t = held s := by
  cases h
  with_reducible repeat' first | rfl | refine (flushAll_held ..).trans ?_ | refine (norPut_held ..).trans ?_ | refine (wipe_held ..).trans ?_ | refine (goFatal_held ..).trans ?_ | split
theorem execThermRearm_held (c : Nat) (s : State) {t : State} (h : execThermRearm c s = .next t) :
    held t = held s := by
  cases h
  with_reducible repeat' first | rfl | refine (updTherm_held ..).trans ?_ | refine (setDone_held ..).trans ?_ | split
theorem dayTakes_held (s : State) :
    held (dayTakes s) = held s := by
  unfold dayTakes
  with_reducible repeat' first | rfl | refine (updDay_held ..).trans ?_ | refine (dozeDone_held ..).trans ?_ | refine (setDay_held ..).trans ?_ | split
theorem linkBeat_held (s : State) :
    held (linkBeat s) = held s := by
  unfold linkBeat
  with_reducible repeat' first | rfl | refine (updLinks_held ..).trans ?_ | refine (modLink_held ..).trans ?_ | refine (linkDown_held ..).trans ?_ | refine (foldl_held _ (fun _ _ => ?_) _ _).trans ?_ | refine ite_held ?_ ?_
theorem heartbeatSeen_held (s : State) (edge : Bool) :
    held (heartbeatSeen s edge) = held s := by
  unfold heartbeatSeen
  with_reducible repeat' first | rfl | refine (updTwin_held ..).trans ?_ | refine ite_held ?_ ?_
theorem measure_held (s : State) (mvA : Nat) (mvB : Nat) (mw : Nat) :
    held (Machine.measure s mvA mvB mw) = held s := by
  unfold Machine.measure
  try dsimp only
  repeat' (first | with_reducible rfl | with_reducible refine (rearm_held _).trans ?_ | with_reducible refine (updPower_held _ _).trans ?_ | with_reducible refine ite_held ?_ ?_)
theorem execNightSeal_held (s : State) {t : State} (h : execNightSeal s = .next t) :
    held t = held s := by
  cases h
  with_reducible repeat' first | rfl | refine (updDay_held ..).trans ?_ | refine (setDay_held ..).trans ?_ | refine (rearm_held ..).trans ?_ | refine (dozeDone_held ..).trans ?_ | split
theorem drainStep_held (s : State) {t : State} (h : drainStep s = some t) :
    held t = held s := by
  unfold drainStep at h
  (repeat' first | cases h | split at h) <;> with_reducible repeat' first | rfl | refine (drainStripes_held ..).trans ?_ | refine (journalOut_held ..).trans ?_
theorem fabricsDark_held (s : State) :
    held (fabricsDark s) = held s := by
  unfold fabricsDark
  with_reducible repeat' first | rfl | refine (updCane_held ..).trans ?_ | refine (updTwin_held ..).trans ?_ | refine (updDay_held ..).trans ?_ | refine (updMovers_held ..).trans ?_ | refine (closeAll_held ..).trans ?_
theorem entryNext_held (s : State) :
    held (entryNext s) = held s := rfl
theorem linksRest_held (s : State) :
    held (linksRest s) = held s := by
  unfold linksRest
  try dsimp only
  with_reducible repeat' first | rfl | refine (updLinks_held ..).trans ?_ | refine (foldl_held _ (fun _ _ => ?_) _ _).trans ?_ | refine ite_held ?_ ?_ | refine ite_held2 ?_ ?_ | split
theorem execNightEntryStep_held (s : State) {t : State} (h : execNightEntryStep s = .next t) :
    held t = held s := by
  cases h
  try dsimp only
  with_reducible repeat' first | rfl | refine (updDay_held ..).trans ?_ | refine (entryNext_held ..).trans ?_ | refine (fabricsDark_held ..).trans ?_ | refine (entryEnds_held ..).trans ?_ | refine (linksRest_held ..).trans ?_ | refine (foldl_held _ (fun _ _ => ?_) _ _).trans ?_ | refine ite_held ?_ ?_ | refine ite_held2 ?_ ?_ | refine (drainStep_held _ (by assumption)).trans ?_ | split
theorem execMidnightEntryStep_held (s : State) {t : State} (h : execMidnightEntryStep s = .next t) :
    held t = held s := by
  cases h
  try dsimp only
  with_reducible repeat' first | rfl | refine (updXlat_held ..).trans ?_ | refine (updDay_held ..).trans ?_ | refine (updBeatFrac_held ..).trans ?_ | refine (entryNext_held ..).trans ?_ | refine (askDrain_held ..).trans ?_ | refine (wipe_held ..).trans ?_ | refine (closeAll_held ..).trans ?_ | refine (entryEnds_held ..).trans ?_ | refine (foldl_held _ (fun _ _ => ?_) _ _).trans ?_ | refine ite_held ?_ ?_ | refine ite_held2 ?_ ?_ | refine (drainStep_held _ (by assumption)).trans ?_ | split
theorem execDuskIdle_held (link : Nat) (s : State) {t : State} (h : execDuskIdle link s = .next t) :
    held t = held s := by
  cases h
  with_reducible repeat' first | rfl | refine (modLink_held ..).trans ?_ | refine ite_held ?_ ?_
theorem bookAnew_held (s : State) :
    held (bookAnew s) = held s := by
  unfold bookAnew
  try dsimp only
  with_reducible repeat' first | rfl | refine (updCare_held ..).trans ?_ | refine (updFlash_held ..).trans ?_ | refine (foldl_held _ (fun _ _ => ?_) _ _).trans ?_ | refine ite_held ?_ ?_ | refine ite_held2 ?_ ?_ | split
theorem emptyCalendars_held (s0 : State) :
    held (emptyCalendars s0) = held s0 := rfl
theorem fabricsOn_held (s : State) :
    held (fabricsOn s) = held s := rfl
theorem execWakeFromNight_held (bad : List Nat) (failing : List (Nat × Nat)) (rerun : List Nat) (s : State) {t : State} (h : execWakeFromNight bad failing rerun s = .next t) :
    held t = held s := by
  cases h
  try dsimp only
  with_reducible repeat' first | rfl | refine (updDay_held ..).trans ?_ | refine (updXlat_held ..).trans ?_ | refine (repairRows_held ..).trans ?_ | refine (setDay_held ..).trans ?_ | refine (patrolResume_held ..).trans ?_ | refine (fabricsOn_held ..).trans ?_ | refine (emptyCalendars_held ..).trans ?_ | refine (foldl_held _ (fun _ _ => ?_) _ _).trans ?_ | refine ite_held ?_ ?_ | refine ite_held2 ?_ ?_ | split
theorem dawnNext_held (s : State) :
    held (dawnNext s) = held s := rfl
theorem imageFails_held (s : State) (prevOk : Bool) :
    held (imageFails s prevOk) = held s := by
  unfold imageFails
  with_reducible repeat' first | rfl | refine (event_held ..).trans ?_ | refine (startDawn_held ..).trans ?_ | refine (swapBack_held ..).trans ?_ | refine (modImage_held ..).trans ?_ | refine (goFatal_held ..).trans ?_ | split
theorem trialAttempt_held (s : State) :
    held (trialAttempt s) = held s := by
  unfold trialAttempt
  dsimp only
  with_reducible repeat' first | rfl | refine (updNor_held ..).trans ?_ | refine (noteActivation_held ..).trans ?_ | refine (swapBack_held ..).trans ?_ | refine (putBoot_held ..).trans ?_ | split
theorem execDawnOscillators_held (imageOk : Bool) (prevOk : Bool) (s : State) {t : State} (h : execDawnOscillators imageOk prevOk s = .next t) :
    held t = held s := by
  cases h
  with_reducible repeat' first | rfl | refine (updDay_held ..).trans ?_ | refine (updBeatFrac_held ..).trans ?_ | refine (updTherm_held ..).trans ?_ | refine (loadBoot_held ..).trans ?_ | refine (trialAttempt_held ..).trans ?_ | refine (imageFails_held ..).trans ?_ | refine (modImage_held ..).trans ?_ | refine (dawnNext_held ..).trans ?_ | refine ite_held ?_ ?_
theorem execDawnCool_held (s : State) {t : State} (h : execDawnCool s = .next t) :
    held t = held s := by
  cases h
  with_reducible repeat' first | rfl | refine (updDay_held ..).trans ?_ | refine ite_held ?_ ?_
theorem deriveRoot_held (s : State) :
    held (deriveRoot s) = held s := rfl
theorem reloadLib_held (s : State) :
    held (reloadLib s) = held s := rfl
theorem loadSet_held (s : State) (set : Option CareSet) :
    held (loadSet s set) = held s := by
  unfold loadSet
  try dsimp only
  with_reducible repeat' first | rfl | refine (updCare_held ..).trans ?_ | refine (foldl_held _ (fun _ _ => ?_) _ _).trans ?_ | refine ite_held ?_ ?_ | refine ite_held2 ?_ ?_ | split
theorem loadCare_held (s : State) :
    held (loadCare s) = held s := by
  unfold loadCare
  try dsimp only
  with_reducible repeat' first | rfl | refine (updCare_held ..).trans ?_ | refine (updDay_held ..).trans ?_ | refine (loadSet_held ..).trans ?_ | refine (startPass_held ..).trans ?_ | refine (foldl_held _ (fun _ _ => ?_) _ _).trans ?_ | refine ite_held ?_ ?_ | refine ite_held2 ?_ ?_ | split
theorem execDawnLogic_held (imageOk : Bool) (random : List Byte) (s : State) {t : State} (h : execDawnLogic imageOk random s = .next t) :
    held t = held s := by
  cases h
  with_reducible repeat' first | rfl | refine (updCare_held ..).trans ?_ | refine (imageFails_held ..).trans ?_ | refine (reloadLib_held ..).trans ?_ | refine (migrate_held ..).trans ?_ | refine (freshKeys_held ..).trans ?_ | refine (dawnNext_held ..).trans ?_ | refine (loadCare_held ..).trans ?_ | refine (erasePump_held ..).trans ?_ | refine ite_held ?_ ?_
theorem execDawnStepTimeout_held (s : State) {t : State} (h : execDawnStepTimeout s = .next t) :
    held t = held s := by
  cases h
  with_reducible repeat' first | rfl | refine (drawFree_held ..).trans ?_ | refine (goFatal_held ..).trans ?_ | refine ite_held ?_ ?_
theorem careAgain_held (s : State) (lost : List Nat) :
    held (careAgain s lost) = held s := by
  unfold careAgain
  try dsimp only
  with_reducible repeat' first | rfl | refine (updCare_held ..).trans ?_ | refine (loadSet_held ..).trans ?_ | refine (foldl_held _ (fun _ _ => ?_) _ _).trans ?_ | refine ite_held ?_ ?_ | refine ite_held2 ?_ ?_ | split
theorem careCorrect_held (s : State) (set : Option CareSet) :
    held (careCorrect s set) = held s := rfl
theorem dawnCounts_held (s : State) :
    held (dawnCounts s) = held s := by
  unfold dawnCounts
  with_reducible repeat' first | rfl | refine (updCare_held ..).trans ?_ | refine (updXlat_held ..).trans ?_ | refine ite_held ?_ ?_
theorem noteRecovery_held (s : State) :
    held (noteRecovery s) = held s := by
  unfold noteRecovery
  with_reducible repeat' first | rfl | refine (updPower_held ..).trans ?_ | refine (updXlat_held ..).trans ?_
theorem closeOpened_held (s : State) :
    held (closeOpened s) = held s := by
  unfold closeOpened
  with_reducible repeat' first | rfl | refine (markClosed_held ..).trans ?_ | refine (modBand_held ..).trans ?_ | refine (foldl_held _ (fun _ _ => ?_) _ _).trans ?_
theorem reachNoon_held (s : State) :
    held (reachNoon s) = held s := by
  unfold reachNoon
  try dsimp only
  with_reducible repeat' first | rfl | refine (updNor_held ..).trans ?_ | refine (updTwin_held ..).trans ?_ | refine (updDay_held ..).trans ?_ | refine (putBoot_held ..).trans ?_ | refine (fabricsOn_held ..).trans ?_ | refine (emptyCalendars_held ..).trans ?_ | refine (replStart_held ..).trans ?_ | refine (setDay_held ..).trans ?_ | refine (patrolResume_held ..).trans ?_ | refine (foldl_held _ (fun _ _ => ?_) _ _).trans ?_ | refine ite_held ?_ ?_ | refine ite_held2 ?_ ?_ | split
theorem execRecovery_held (ckpts : List Nat) (journals : List Nat) (slots : List Nat) (s : State) {t : State} (h : execRecovery ckpts journals slots s = .next t) :
    held t = held s := by
  cases h
  try dsimp only
  with_reducible repeat' first | rfl | refine (goFatal_held ..).trans ?_ | refine (careAgain_held ..).trans ?_ | refine (careCorrect_held ..).trans ?_ | refine (reachNoon_held ..).trans ?_ | refine (dawnCounts_held ..).trans ?_ | refine (closeOpened_held ..).trans ?_ | refine (noteRecovery_held ..).trans ?_ | refine (foldl_held _ (fun _ _ => ?_) _ _).trans ?_ | refine ite_held ?_ ?_ | refine ite_held2 ?_ ?_ | refine (recoverMap_held _ _ (by assumption)).trans ?_ | split
theorem nextOr_held {s : State} {o : Host.Outcome State Fault Refusal} (h : ∀ t, o = .next t → held t = held s) : held (nextOr s o) = held s := by
  unfold nextOr
  split
  · exact h _ rfl
  · rfl
theorem specialNow_held (s : State) (c : Nat) (id : Nat) :
    held (specialNow s c id) = held s := ite_held (nextOr_held fun _ => execFchOctFault_held _ _) (ite_held (nextOr_held fun _ => execPwrTestNow_held _ _) (ite_held (nextOr_held fun _ => execThermRearm_held _ _)
    (ite_held (nextOr_held fun _ => execMemTestReq_held _ _) (ite_held (nextOr_held fun _ => execSecSyskeyRotate_held _ _ _) (ite_held (nextOr_held fun _ => execSecFwKeyRevoke_held _ _)
    (ite_held (nextOr_held fun _ => execSecCaRevoke_held _ _) (ite_held (nextOr_held fun _ => execSecCertCommit_held _ _) rfl)))))))
theorem execSet_held (c : Nat) (s : State) {t : State} (h : execSet c s = .next t) :
    held t = held s := by
  cases h
  try dsimp only
  with_reducible repeat' first | rfl | refine (issue_held _ _ _ _ _ (fun _ _ _ => ?_)).trans ?_ | refine (putCtx_held ..).trans ?_ | refine (specialNow_held ..).trans ?_ | refine (settingAppend_held ..).trans ?_ | refine (applySet_held ..).trans ?_ | refine (foldl_held _ (fun _ _ => ?_) _ _).trans ?_ | refine ite_held ?_ ?_ | refine ite_held2 ?_ ?_ | split

/-! ### The few that touch them -/

theorem beat_of_held {s t : State} (h : held s = held t) : s.beat = t.beat := congrArg Held.beat h

theorem passBeats__held (s : State) (n : Nat) : held (passBeats_ s n) = { held s with beat := s.beat + n } := rfl
theorem crystal_held (s : State) (k f : Nat) (u : State) (hu : u = (passBeats_ s k).updBeatFrac fun _ => f) (v : State)
    (hv : v = if hotStopped u then (match u.day.wakePend with
      | some c => if u.therm.hotAt.getD 0 + 250000 ≤ u.beat then wake (u.updDay fun d => { d with wakePend := none }) c else u
      | none => u) else u) : held v = { held s with beat := v.beat } ∧ s.beat ≤ v.beat := by
  have h1 : held u = { held s with beat := s.beat + k } := by rw [hu]; rfl
  have h2 : held v = held u := by
    rw [hv]
    refine ite_held ?_ rfl
    split
    · exact ite_held ((wake_held _ _).trans (updDay_held _ _)) rfl
    · rfl
  have hb : v.beat = s.beat + k := congrArg Held.beat (h2.trans h1)
  exact ⟨by rw [h2, h1, hb], by omega⟩
theorem execCrystalTick_held (s : State) {t : State} (h : execCrystalTick s = .next t) :
    held t = { held s with beat := t.beat } ∧ s.beat ≤ t.beat := by
  unfold execCrystalTick at h
  have h := Host.Outcome.next.inj h
  subst h
  split
  · exact ⟨rfl, Nat.le_refl _⟩
  · exact crystal_held s _ _ _ rfl _ rfl
theorem powerUp_held (s : State) : held (powerUp s) = { held s with beat := 0 } :=
  (startDawn_held _).trans rfl
theorem execFeedConduct_held (f : Nat) (s : State) {t : State} (h : execFeedConduct f s = .next t) :
    held t = { held s with beat := t.beat } ∧ (t.beat = s.beat ∨ s.power.aonPowered = false) := by
  cases h
  have e : ∀ u : State, held u = held s → held u = { held s with beat := u.beat } ∧ (u.beat = s.beat ∨ s.power.aonPowered = false) := fun u hu =>
    ⟨by rw [show u.beat = s.beat from congrArg Held.beat hu]; exact hu, .inl (congrArg Held.beat hu)⟩
  dsimp only
  split
  · exact e _ rfl
  · split
    · rename_i hp
      have hp : s.power.aonPowered = false := by
        have hq : (modFeed s f fun k => { k with conduct := true }).power.aonPowered = false := by simpa using hp
        exact hq
      have hu := powerUp_held (modFeed s f fun k => { k with conduct := true })
      refine ⟨?_, .inr hp⟩
      rw [hu, show (powerUp (modFeed s f fun k => { k with conduct := true })).beat = 0 from congrArg Held.beat hu, modFeed_held]
    · refine e _ (ite_held (modFeed_held _ _ _) (ite_held ((updPower_held _ _).trans (modFeed_held _ _ _)) ?_))
      exact (startDawn_held _).trans ((noteWake_held _ _).trans (modFeed_held _ _ _))
theorem execAonPowerLoss_held (s : State) {t : State} (h : execAonPowerLoss s = .next t) : held t = { held s with beat := t.beat } := by
  cases h
  split
  · rfl
  · have e : ∀ (u v : State), held v = { held u with beat := 0 } → held u = held s → held v = { held s with beat := v.beat } := fun u v hv hu => by
      rw [hv, show v.beat = 0 from congrArg Held.beat hv, hu]
    exact e (wipe s) _ rfl (wipe_held s)

/-- What every command does to the queue and the fuses: the queue stays, fuses only grow, and what bounds them holds on. -/
structure Moves (s t : State) : Prop where
  queue : t.pending = s.pending
  fuses : FusesGrow s t
  tampers : s.sec.tampers ≤ 32 → t.sec.tampers ≤ 32
  repairs : s.mem.fuseRows.length ≤ 256 → t.mem.fuseRows.length ≤ 256
  bench : (s.sec.life = .sealed ∨ s.sec.life = .returned → s.sec.benchClose = true) → t.sec.life = .sealed ∨ t.sec.life = .returned → t.sec.benchClose = true
/-- No fuse is touched. -/
theorem moves_of_held {s t : State} (h : held t = { held s with beat := t.beat }) : Moves s t := by
  have h1 : t.sec.life = s.sec.life := congrArg Held.life h
  have h2 : t.sec.benchClose = s.sec.benchClose := congrArg Held.benchClose h
  have h3 : t.sec.secretBlown = s.sec.secretBlown := congrArg Held.secretBlown h
  have h4 : t.sec.tampers = s.sec.tampers := congrArg Held.tampers h
  have h5 : t.sec.fwKeys = s.sec.fwKeys := congrArg Held.fwKeys h
  have h6 : t.sec.caKeys = s.sec.caKeys := congrArg Held.caKeys h
  have h7 : t.mem.fuseRows = s.mem.fuseRows := congrArg Held.fuseRows h
  refine ⟨congrArg Held.pending h, ⟨?_, fun e => h2.trans e, fun e => h3.trans e, ?_, fun _ => ?_, fun _ => ?_, ?_⟩, fun e => ?_, fun e => ?_, fun e k => ?_⟩
  · exact Nat.le_of_eq (congrArg lifeRank h1.symm)
  · exact Nat.le_of_eq h4.symm
  · rw [h5]; exact ⟨rfl, rfl, id⟩
  · rw [h6]; exact ⟨rfl, rfl, id⟩
  · exact h7 ▸ List.prefix_refl _
  · rw [h4]; exact e
  · rw [h7]; exact e
  · rw [h1] at k; exact h2.trans (e k)
/-- Nothing of them is touched. -/
theorem moves_of_kept {s t : State} (h : held t = held s) : Moves s t :=
  moves_of_held (by rw [show t.beat = s.beat from congrArg Held.beat h]; exact h)
theorem moves_trans {s t u : State} (a : Moves s t) (b : Moves t u) : Moves s u where
  queue := b.queue.trans a.queue
  fuses :=
    { life := Nat.le_trans a.fuses.life b.fuses.life
      bench := b.fuses.bench ∘ a.fuses.bench
      secret := b.fuses.secret ∘ a.fuses.secret
      tampers := Nat.le_trans a.fuses.tampers b.fuses.tampers
      fwKeys := fun k => ⟨(b.fuses.fwKeys k).1.trans (a.fuses.fwKeys k).1, (b.fuses.fwKeys k).2.1.trans (a.fuses.fwKeys k).2.1, (b.fuses.fwKeys k).2.2 ∘ (a.fuses.fwKeys k).2.2⟩
      caKeys := fun k => ⟨(b.fuses.caKeys k).1.trans (a.fuses.caKeys k).1, (b.fuses.caKeys k).2.1.trans (a.fuses.caKeys k).2.1, (b.fuses.caKeys k).2.2 ∘ (a.fuses.caKeys k).2.2⟩
      repairs := a.fuses.repairs.trans b.fuses.repairs }
  tampers := b.tampers ∘ a.tampers
  repairs := b.repairs ∘ a.repairs
  bench := b.bench ∘ a.bench
theorem lifeRank_le (l : Life) : lifeRank l ≤ 4 := by cases l <;> decide
/-- A change of the security state that burns fuses. -/
theorem moves_sec (s : State) (f : Sec → Sec) (h1 : lifeRank s.sec.life ≤ lifeRank (f s.sec).life) (h2 : s.sec.benchClose = true → (f s.sec).benchClose = true)
    (h3 : s.sec.secretBlown = true → (f s.sec).secretBlown = true) (h4 : s.sec.tampers ≤ (f s.sec).tampers) (h5 : s.sec.tampers ≤ 32 → (f s.sec).tampers ≤ 32)
    (h6 : ∀ k, KeyGrows (vget s.sec.fwKeys k KeySlot.init) (vget (f s.sec).fwKeys k KeySlot.init))
    (h7 : ∀ k, KeyGrows (vget s.sec.caKeys k KeySlot.init) (vget (f s.sec).caKeys k KeySlot.init))
    (h8 : (s.sec.life = .sealed ∨ s.sec.life = .returned → s.sec.benchClose = true) → (f s.sec).life = .sealed ∨ (f s.sec).life = .returned → (f s.sec).benchClose = true) :
    Moves s (s.updSec f) :=
  ⟨rfl, ⟨h1, h2, h3, h4, h6, h7, List.prefix_refl _⟩, h5, id, h8⟩
/-- A tamper under ERASE burns the next TAMPER bit or SCRAPPED. -/
theorem tamperErase_moves (s : State) : Moves s (tamperErase s) ∧ (tamperErase s).beat = s.beat := by
  unfold tamperErase
  split
  · exact ⟨moves_of_kept rfl, rfl⟩
  · refine ⟨moves_sec _ _ ?_ ?_ ?_ ?_ ?_ (fun _ => ?_) (fun _ => ?_) ?_, rfl⟩ <;> split
    · exact Nat.le_refl _
    · exact lifeRank_le _
    · exact id
    · exact id
    · exact id
    · exact id
    · exact Nat.le_succ _
    · exact Nat.le_refl _
    · intro _; assumption
    · exact id
    · exact ⟨rfl, rfl, id⟩
    · exact ⟨rfl, rfl, id⟩
    · exact ⟨rfl, rfl, id⟩
    · exact ⟨rfl, rfl, id⟩
    · exact id
    · intro _ h; rcases h with h | h <;> cases h
theorem execTamperDetect_moves (cause : Nat) (s : State) {t : State} (h : execTamperDetect cause s = .next t) : Moves s t ∧ t.beat = s.beat := by
  cases h
  have k : ∀ u : State, held u = held s → Moves s u ∧ u.beat = s.beat := fun u hu => ⟨moves_of_kept hu, congrArg Held.beat hu⟩
  split
  · exact k _ rfl
  · dsimp only
    split
    · exact k _ rfl
    · split
      · exact k _ (zeroVault_held _)
      · have j : ∀ u : State, held u = held s → Moves s (tamperErase u) ∧ (tamperErase u).beat = s.beat := fun u hu =>
          ⟨moves_trans (k u hu).1 (tamperErase_moves u).1, (tamperErase_moves u).2.trans (k u hu).2⟩
        exact j _ ((updSec_held _ _ ⟨rfl, rfl, rfl, rfl, rfl, rfl⟩).trans ((updTherm_held _ _).trans ((updPower_held _ _).trans ((wipe_held _).trans rfl))))
theorem execDawnRegulators_moves (s : State) {t : State} (h : execDawnRegulators s = .next t) : Moves s t ∧ t.beat = s.beat := by
  cases h
  split
  · exact ⟨moves_of_kept rfl, rfl⟩
  · split
    · exact ⟨moves_of_kept (dawnNext_held _), rfl⟩
    · exact ⟨moves_trans (tamperErase_moves s).1 (moves_of_kept ((dawnNext_held _).trans rfl)), (tamperErase_moves s).2⟩
theorem revoke_grows (v : Vector KeySlot 4) (mask j : Nat) : KeyGrows (vget v j KeySlot.init) (vget (revoke v mask) j KeySlot.init) := by
  unfold revoke vget
  by_cases e : j < 4
  · rw [Vector.getElem?_eq_getElem e, Vector.getElem?_eq_getElem e, Vector.getElem_mapFinIdx]
    dsimp only [Option.getD_some]
    split
    · exact ⟨rfl, rfl, fun _ => rfl⟩
    · exact ⟨rfl, rfl, id⟩
  · rw [Vector.getElem?_eq_none (by omega), Vector.getElem?_eq_none (by omega)]
    exact ⟨rfl, rfl, id⟩
/-- What a security setting does when it acts: revocations burn fuses, nothing else of it does. -/
theorem secActs_moves (s : State) (id_ : Nat) (v : BitVec 64) : Moves s (secActs s id_ v) ∧ (secActs s id_ v).beat = s.beat := by
  have k : ∀ u : State, held u = held s → Moves s u ∧ u.beat = s.beat := fun u hu => ⟨moves_of_kept hu, congrArg Held.beat hu⟩
  unfold secActs
  split
  · exact k _ (updSec_held _ _ ⟨rfl, rfl, rfl, rfl, rfl, rfl⟩)
  split
  · exact k _ (updSec_held _ _ ⟨rfl, rfl, rfl, rfl, rfl, rfl⟩)
  split
  · exact ⟨moves_sec s _ (Nat.le_refl _) id id (Nat.le_refl _) id (revoke_grows _ _) (fun _ => ⟨rfl, rfl, id⟩) id, rfl⟩
  split
  · exact ⟨moves_sec s _ (Nat.le_refl _) id id (Nat.le_refl _) id (fun _ => ⟨rfl, rfl, id⟩) (revoke_grows _ _) id, rfl⟩
  split
  · exact k _ ((updSec_held _ _ ⟨rfl, rfl, rfl, rfl, rfl, rfl⟩).trans (norPut_held _ _ _ _))
  · exact k _ rfl
theorem dueActs_moves (s : State) (id_ : Nat) (v : BitVec 64) : Moves s (dueActs s id_ v) ∧ (dueActs s id_ v).beat = s.beat := by
  have k : ∀ u : State, held u = held s → Moves s u ∧ u.beat = s.beat := fun u hu => ⟨moves_of_kept hu, congrArg Held.beat hu⟩
  unfold dueActs
  split
  · exact k _ (octPower_held _ _)
  split
  · exact k _ (octFault_held _ _)
  split
  · exact k _ ((ownMode_held _).trans (storeNv_held _ _ _))
  split
  · exact k _ (updPower_held _ _)
  split
  · exact secActs_moves _ _ _
  · exact k _ (actNow_held _ _ _)
theorem actDue_moves (s : State) : Moves s (actDue s) ∧ (actDue s).beat = s.beat := by
  have k : ∀ (l : List (Nat × BitVec 64)) (u : State), Moves s u ∧ u.beat = s.beat →
      Moves s (l.foldl (fun s p => dueActs s p.1 p.2) u) ∧ (l.foldl (fun s p => dueActs s p.1 p.2) u).beat = s.beat := fun l => by
    induction l with
    | nil => exact fun _ h => h
    | cons a l ih => exact fun u h => ih _ ⟨moves_trans h.1 (dueActs_moves u a.1 a.2).1, (dueActs_moves u a.1 a.2).2.trans h.2⟩
  exact k _ _ ⟨moves_of_kept (updDue_held _ _), rfl⟩
/-- A beat: revocations SET in the last one burn; BEAT advances by one at most. -/
theorem execBeatTick_moves (mvA mvB mw : Nat) (hb : Bool) (s : State) {t : State} (h : execBeatTick mvA mvB mw hb s = .next t) :
    Moves s t ∧ s.beat ≤ t.beat := by
  cases h
  split
  · exact ⟨moves_of_kept rfl, Nat.le_refl _⟩
  · have e : ∀ u v : State, held u = { held s with beat := s.beat + 1 } → held v = held (actDue u) → Moves s v ∧ s.beat ≤ v.beat := fun u v hu hv => by
      have hb : u.beat = s.beat + 1 := congrArg Held.beat hu
      have a := actDue_moves u
      have hvb : v.beat = u.beat := (congrArg Held.beat hv).trans a.2
      exact ⟨moves_trans (moves_trans (moves_of_held (by rw [hu, hb])) a.1) (moves_of_kept hv), by omega⟩
    refine e _ _ ?_ ((resetFollows_held _).trans ((dayTakes_held _).trans ((linkBeat_held _).trans ((heartbeatSeen_held _ _).trans
      ((updXlat_held _ _).trans ((updPlan_held _ _).trans ((sweepTries_held _).trans ((drawAll_held _).trans (drainAsked_held _)))))))))
    refine (measure_held _ _ _ _).trans ?_
    rw [passBeats__held, conditionalUpdates_held, show (conditionalUpdates s).beat = s.beat from congrArg Held.beat (conditionalUpdates_held s)]
/-- resident runs its effect or nothing. -/
theorem resident_cases (s : State) (c typ op : Nat) (f : State → Ctx → State) (P : State → Prop) (h0 : P s) (h1 : ∀ x, P (f s x)) : P (resident s c typ op f) := by
  unfold resident
  repeat' split
  all_goals first | exact h0 | exact h1 _
theorem lifeStep_moves (s : State) : Moves s (match s.sec.life with
    | .blank => s.updSec fun k => { k with life := .bench }
    | .bench => s.updSec fun k => { k with life := .sealed, benchClose := true }
    | .sealed => (norRetire s 0x0C 0).updSec fun k => { k with life := .returned, lock := false, cert := none, certState := 0 }
    | .returned => s.updSec fun k => { k with life := .scrapped, secretBlown := true }
    | .scrapped => s) := by
  split <;> rename_i e
  · exact moves_sec s _ (by rw [e]; exact (by decide : lifeRank .blank ≤ lifeRank .bench)) id id (Nat.le_refl _) id (fun _ => ⟨rfl, rfl, id⟩) (fun _ => ⟨rfl, rfl, id⟩) (fun _ h => by rcases h with h | h <;> cases h)
  · exact moves_sec s _ (by rw [e]; exact (by decide : lifeRank .bench ≤ lifeRank .sealed)) (fun _ => rfl) id (Nat.le_refl _) id (fun _ => ⟨rfl, rfl, id⟩) (fun _ => ⟨rfl, rfl, id⟩) (fun _ _ => rfl)
  · exact moves_trans (moves_of_kept (norRetire_held s 0x0C 0)) <| moves_sec (norRetire s 0x0C 0) (fun k => { k with life := .returned, lock := false, cert := none, certState := 0 })
      (by rw [show (norRetire s 0x0C 0).sec.life = .sealed from e]; exact (by decide : lifeRank .sealed ≤ lifeRank .returned)) id id (Nat.le_refl _) id (fun _ => ⟨rfl, rfl, id⟩)
      (fun _ => ⟨rfl, rfl, id⟩) (fun h _ => h (.inl e))
  · exact moves_sec s _ (by rw [e]; exact (by decide : lifeRank .returned ≤ lifeRank .scrapped)) id (fun _ => rfl) (Nat.le_refl _) id (fun _ => ⟨rfl, rfl, id⟩) (fun _ => ⟨rfl, rfl, id⟩) (fun _ h => by rcases h with h | h <;> cases h)
  · exact moves_of_kept rfl
theorem execLifeCycle_moves (c : Nat) (s : State) {t : State} (h : execLifeCycle c s = .next t) : Moves s t ∧ t.beat = s.beat := by
  cases h
  refine resident_cases s c 4 0x91 _ (fun u => Moves s u ∧ u.beat = s.beat) ⟨moves_of_kept rfl, rfl⟩ (fun x => ?_)
  have h1 : held (commitNow s c) = held s := commitNow_held s c
  have h2 := lifeStep_moves (commitNow s c)
  rw [show (commitNow s c).sec.life = s.sec.life from congrArg Held.life h1] at h2
  have hb : ∀ u : State, Moves (commitNow s c) u → u.beat = (commitNow s c).beat → Moves s (residentPost u c St.ok 0 0) ∧ (residentPost u c St.ok 0 0).beat = s.beat :=
    fun u hu he => ⟨moves_trans (moves_trans (moves_of_kept h1) hu) (moves_of_kept (residentPost_held _ _ _ _ _)),
      (congrArg Held.beat (residentPost_held u c St.ok 0 0)).trans (he.trans (congrArg Held.beat h1))⟩
  refine hb _ h2 ?_
  split <;> rfl
theorem moves_mem (s : State) (f : Mem → Mem) (h1 : s.mem.fuseRows <+: (f s.mem).fuseRows) (h2 : s.mem.fuseRows.length ≤ 256 → (f s.mem).fuseRows.length ≤ 256) :
    Moves s (s.updMem f) :=
  ⟨rfl, ⟨Nat.le_refl _, id, id, Nat.le_refl _, fun _ => ⟨rfl, rfl, id⟩, fun _ => ⟨rfl, rfl, id⟩, h1⟩, id, h2, id⟩
theorem logRepairs_moves (s : State) : Moves s (logRepairs s) ∧ (logRepairs s).beat = s.beat := by
  have j : ∀ (u : State) (f : Mem → Mem), held u = held s → u.mem.fuseRows <+: (f u.mem).fuseRows → (u.mem.fuseRows = s.mem.fuseRows → s.mem.fuseRows.length ≤ 256 → (f u.mem).fuseRows.length ≤ 256) →
      Moves s (countRepairs (u.updMem f)) ∧ (countRepairs (u.updMem f)).beat = s.beat := fun u f hu h1 h2 =>
    have e : u.mem.fuseRows = s.mem.fuseRows := congrArg Held.fuseRows hu
    ⟨moves_trans (moves_trans (moves_of_kept hu) (moves_mem u f h1 fun h => h2 e (e ▸ h))) (moves_of_kept (countRepairs_held _)),
      (congrArg Held.beat (countRepairs_held (u.updMem f))).trans (congrArg Held.beat hu)⟩
  unfold logRepairs
  dsimp only
  refine j _ _ ((foldl_held _ (fun _ _ => norPut_held _ _ _ _) _ _).trans (updNor_held _ _)) (List.prefix_append _ _) fun e h => ?_
  rw [List.length_append, e]
  split
  · rw [List.length_take]
    omega
  · simpa using h
theorem execDawnMemories_moves (ok : List Bool) (f : List (Nat × Nat)) (r : List Nat) (s : State) {t : State} (h : execDawnMemories ok f r s = .next t) :
    Moves s t ∧ t.beat = s.beat := by
  cases h
  have k : ∀ u : State, held u = held s → Moves s u ∧ u.beat = s.beat := fun u hu => ⟨moves_of_kept hu, congrArg Held.beat hu⟩
  split
  · exact k _ rfl
  · split
    · exact k _ (goFatal_held _ _ _)
    split
    · exact k _ rfl
    · dsimp only
      have j : ∀ u : State, held u = held s → ∀ l g m, Moves s (startLeases ((dawnNext (((deriveRoot (logRepairs u)).updDay g).updFlash l)).updDay m) (List.range 16)) ∧
          (startLeases ((dawnNext (((deriveRoot (logRepairs u)).updDay g).updFlash l)).updDay m) (List.range 16)).beat = s.beat := fun u hu l g m => by
        have e : held (startLeases ((dawnNext (((deriveRoot (logRepairs u)).updDay g).updFlash l)).updDay m) (List.range 16)) = held (logRepairs u) := by
          with_reducible exact (startLeases_held _ _).trans ((updDay_held _ _).trans ((dawnNext_held _).trans ((updFlash_held _ _).trans ((updDay_held _ _).trans (deriveRoot_held _)))))
        exact ⟨moves_trans (moves_trans (moves_of_kept hu) (logRepairs_moves u).1) (moves_of_kept e), (beat_of_held e).trans ((logRepairs_moves u).2.trans (beat_of_held hu))⟩
      split
      · exact k _ ((repairRows_held _ _ _).trans (updMem_held _ _ rfl))
      · exact j _ ((repairRows_held _ _ _).trans (updMem_held _ _ rfl)) _ _ _

end Sys2Proof.Laws
end

