-- ==== Sys2Proof/Laws/Issue.lean ====
section
/-! SUPPORT. What changing a context does, and what an issue can do: a fault, a guarded-off instruction, its effect. -/

namespace Sys2Proof.Laws

open Sys2Proof.Machine Sys2Proof.Safety

/-- The context found under a number bears it. -/
theorem getCtx_number {s : State} {c : Nat} {x : Ctx} (h : getCtx s c = some x) : x.c = c := by
  have := List.find?_some h
  simpa using this

/-- Looking for a key in an updated list: the update of what was found, when it keeps the key. -/
theorem find_updIf {α : Type} (k : α → Nat) (c : Nat) (f : α → α) (hf : ∀ x, k x = c → k (f x) = c) (l : List α) :
    (updIf (fun x => k x == c) f l).find? (fun x => k x == c) = (l.find? fun x => k x == c).map f := by
  induction l with
  | nil => rfl
  | cons y l ih =>
    by_cases h : k y = c
    · simp [updIf, h, hf y h]
    · have e : updIf (fun x => k x == c) f (y :: l) = y :: updIf (fun x => k x == c) f l := by simp [updIf, h]
      rw [e, List.find?_cons_of_neg (by simp [h]), List.find?_cons_of_neg (by simp [h]), ih]

/-- Looking for another key in an updated list finds what was there. -/
theorem find_updIf_ne {α : Type} (k : α → Nat) (c d : Nat) (hd : d ≠ c) (f : α → α) (hf : ∀ x, k x = c → k (f x) = c) (l : List α) :
    (updIf (fun x => k x == c) f l).find? (fun x => k x == d) = l.find? fun x => k x == d := by
  induction l with
  | nil => rfl
  | cons y l ih =>
    by_cases h : k y = c
    · have e : updIf (fun x => k x == c) f (y :: l) = f y :: updIf (fun x => k x == c) f l := by simp [updIf, h]
      have h1 : ¬ k y = d := fun e => hd (e.symm.trans h)
      have h2 : ¬ k (f y) = d := fun e => hd (e.symm.trans (hf y h))
      rw [e, List.find?_cons_of_neg (by simpa using h2), List.find?_cons_of_neg (by simpa using h1), ih]
    · have e : updIf (fun x => k x == c) f (y :: l) = y :: updIf (fun x => k x == c) f l := by simp [updIf, h]
      by_cases h3 : k y = d
      · rw [e, List.find?_cons_of_pos (by simp [h3]), List.find?_cons_of_pos (by simp [h3])]
      · rw [e, List.find?_cons_of_neg (by simp [h3]), List.find?_cons_of_neg (by simp [h3]), ih]

/-- A changed context reads as changed. -/
theorem getCtx_modCtx (s : State) (c : Nat) (f : Ctx → Ctx) (hf : ∀ x, x.c = c → (f x).c = c) :
    getCtx (modCtx s c f) c = (getCtx s c).map f :=
  find_updIf Ctx.c c f hf s.ctxs

/-- Every other context reads as before. -/
theorem getCtx_modCtx_ne (s : State) (c d : Nat) (hd : d ≠ c) (f : Ctx → Ctx) (hf : ∀ x, x.c = c → (f x).c = c) :
    getCtx (modCtx s c f) d = getCtx s d :=
  find_updIf_ne Ctx.c c d hd f hf s.ctxs

/-- A context replaced by one of its number reads as that one. -/
theorem getCtx_put {s : State} {c : Nat} {x y : Ctx} (h : getCtx s c = some x) (hy : y.c = c) :
    getCtx (modCtx s c fun _ => y) c = some y := by
  rw [getCtx_modCtx s c _ fun _ _ => hy, h]
  rfl

/-- A change of a context that was just replaced. -/
theorem modCtx_put (s : State) (c : Nat) (y : Ctx) (f : Ctx → Ctx) (hy : y.c = c) :
    modCtx (modCtx s c fun _ => y) c f = modCtx s c fun _ => f y := by
  have h : ∀ l : List Ctx, updIf (fun x => x.c == c) f (updIf (fun x => x.c == c) (fun _ => y) l) =
      updIf (fun x => x.c == c) (fun _ => f y) l := by
    intro l
    simp only [updIf, List.map_map]
    apply List.map_congr_left
    intro x _
    by_cases h : x.c = c <;> simp [h, hy]
  simp only [modCtx, State.updCtxs, h]

/-- What the commit of a context leaves, once its issue is counted. -/
theorem commitNow_put (s : State) (c : Nat) (y : Ctx) (hy : y.c = c) :
    commitNow (modCtx s c fun _ => y) c = modCtx s c fun _ => { y with commitBeat := some (y.commitBeat.getD s.beat) } := by
  rw [commitNow, modCtx_put s c y _ hy]
  cases h : y.commitBeat <;> rfl

/-- The effect of an issue that nothing stops (R152). -/
theorem issue_runs {s : State} {c op : Nat} {x : Ctx} {w : BitVec 32} (h : Issues s c op x w)
    (checks : Ctx → BitVec 32 → List (Bool × Nat)) (eff : State → Ctx → BitVec 32 → State)
    (hc : firstFault (checks (x.countIssue op w) w) = none) :
    issue s c op checks eff = eff (modCtx s c fun _ => ran s x op w) (ran s x op w) w := by
  have hx : x.c = c := getCtx_number h.ctx
  have hb : (!zMedia op && x.budget == 0 && x.entry.cls != 7) = false := by
    rcases h.budget with hm | hb | h7
    · simp [hm]
    · simp [hb]
    · simp [h7]
  have h1 : getCtx (modCtx s c fun _ => x.countIssue op w) c = some (x.countIssue op w) := getCtx_put h.ctx hx
  simp only [issue, h.ctx, h.free, h.word, h.opc, hb, h.guard, hc, Bool.not_true, bne_self_eq_false, if_false, Bool.false_eq_true]
  by_cases hs : zSide op = true
  · have h2 := commitNow_put s c (x.countIssue op w) hx
    have hr : ran s x op w = { x.countIssue op w with commitBeat := some (x.commitBeat.getD s.beat) } := by simp [ran, hs]
    have h3 : getCtx (modCtx s c fun _ => ran s x op w) c = some (ran s x op w) := getCtx_put h.ctx (by rw [hr]; exact hx)
    have h4 : commitNow (modCtx s c fun _ => x.countIssue op w) c = modCtx s c fun _ => ran s x op w := by rw [h2, hr]; rfl
    simp [hs, h4, h3]
  · have hr : ran s x op w = x.countIssue op w := by simp [ran, hs]
    simp [hs, hr, h1]

/-- An issue whose word is guarded off changes PC, the budget and the count of issues (R122). -/
theorem issue_guardedOff {s : State} {c op : Nat} {x : Ctx} {w : BitVec 32} (h : AtWord s c op x w) (hb : BudgetLeft x op)
    (hg : guardOn x w = false) (checks : Ctx → BitVec 32 → List (Bool × Nat)) (eff : State → Ctx → BitVec 32 → State) :
    issue s c op checks eff = modCtx s c fun _ => jumped x op w (x.pc + 1) := by
  have hx : x.c = c := getCtx_number h.ctx
  have hb' : (!zMedia op && x.budget == 0 && x.entry.cls != 7) = false := by
    rcases hb with hm | hb | h7
    · simp [hm]
    · simp [hb]
    · simp [h7]
  simp only [issue, h.ctx, h.free, h.word, h.opc, hb', hg, Bool.not_true, Bool.not_false, bne_self_eq_false, if_true, if_false,
    Bool.false_eq_true]
  exact modCtx_put s c _ _ hx

/-- The first of an issue's checks that holds ends the context (R143, R152). -/
theorem issue_faults {s : State} {c op k : Nat} {x : Ctx} {w : BitVec 32} (h : Issues s c op x w)
    (checks : Ctx → BitVec 32 → List (Bool × Nat)) (eff : State → Ctx → BitVec 32 → State)
    (hc : firstFault (checks (x.countIssue op w) w) = some k) :
    issue s c op checks eff = faultCtx (modCtx s c fun _ => x.countIssue op w) c k := by
  have hb : (!zMedia op && x.budget == 0 && x.entry.cls != 7) = false := by
    rcases h.budget with hm | hb | h7
    · simp [hm]
    · simp [hb]
    · simp [h7]
  simp only [issue, h.ctx, h.free, h.word, h.opc, hb, h.guard, hc, Bool.not_true, bne_self_eq_false, if_false, Bool.false_eq_true]

/-- An instruction that completes at issue leaves its context as its effect does, and all else as it was. -/
theorem local_lands {i : Instr} {s : State} {c op : Nat} {x : Ctx} {w : BitVec 32} {f : Ctx → BitVec 32 → Ctx}
    (h : Issues s c op x w) (hi : exec i s = .next (local_ s c op f)) (hf : ∀ y v, (f y v).c = y.c) :
    Lands i s c (f (ran s x op w) w) := by
  have hx : x.c = c := getCtx_number h.ctx
  have hr : (ran s x op w).c = c := by unfold ran; split <;> exact hx
  have e : local_ s c op f = modCtx s c fun _ => f (ran s x op w) w := by
    rw [local_, issue_runs h _ _ rfl]
    show modCtx (modCtx s c fun _ => ran s x op w) (f (ran s x op w) w).c _ = _
    rw [hf, hr]
    exact modCtx_put s c _ _ hr
  refine ⟨_, hi.trans (congrArg _ e), getCtx_put h.ctx ((hf _ _).trans hr), fun d hd => ?_, rfl⟩
  exact getCtx_modCtx_ne s c d hd _ fun _ _ => (hf _ _).trans hr

end Sys2Proof.Laws
end

