-- ==== Sys2Proof/Laws/Mem.lean ====
section
/-! SUPPORT. Sparse bytes: what a write leaves, and that every operation keeps the canonical form. -/

namespace Sys2Proof.Laws

open Sys2Proof.Machine

/-- A canonical list above a bound reads zero below it. -/
theorem read_below {m : List Host.Cell} {lo x : Nat} (h : Mem.wfFrom lo m = true) (hx : x < lo) : Mem.read m x = 0 := by
  cases m with
  | nil => rfl
  | cons c m =>
    simp only [Mem.wfFrom, Bool.and_eq_true, decide_eq_true_eq] at h
    simp only [Mem.read]
    rw [if_neg (by omega), if_pos (by omega)]

/-- A canonical list above a bound is canonical above a lower one. -/
theorem wfFrom_mono {m : List Host.Cell} {lo lo' : Nat} (h : Mem.wfFrom lo m = true) (hl : lo' ≤ lo) : Mem.wfFrom lo' m = true := by
  cases m with
  | nil => rfl
  | cons c m =>
    simp only [Mem.wfFrom, Bool.and_eq_true, decide_eq_true_eq] at h ⊢
    exact ⟨⟨by omega, h.1.2⟩, h.2⟩

/-- A write keeps the canonical form. -/
theorem write_wf {m : List Host.Cell} {lo x : Nat} {v : Byte} (h : Mem.wfFrom lo m = true) (hx : lo ≤ x) : Mem.wfFrom lo (Mem.write m x v) = true := by
  induction m generalizing lo with
  | nil =>
    simp only [Mem.write]
    split
    · rfl
    · rename_i hv
      simp only [Mem.wfFrom, Bool.and_eq_true, decide_eq_true_eq]
      exact ⟨⟨hx, hv⟩, trivial⟩
  | cons c m ih =>
    have hm := h
    simp only [Mem.wfFrom, Bool.and_eq_true, decide_eq_true_eq] at h
    simp only [Mem.write]
    split
    · split
      · exact wfFrom_mono h.2 (by omega)
      · rename_i hv
        simp only [Mem.wfFrom, Bool.and_eq_true, decide_eq_true_eq]
        exact ⟨⟨by omega, hv⟩, by simpa [‹x = c.1›] using h.2⟩
    · split
      · split
        · exact hm
        · rename_i hlt hv
          simp only [Mem.wfFrom, Bool.and_eq_true, decide_eq_true_eq]
          exact ⟨⟨hx, hv⟩, ⟨by omega, h.1.2⟩, h.2⟩
      · simp only [Mem.wfFrom, Bool.and_eq_true, decide_eq_true_eq]
        exact ⟨h.1, ih h.2 (by omega)⟩

/-- What a byte reads after a write. -/
theorem read_write {m : List Host.Cell} {lo x : Nat} {v : Byte} (h : Mem.wfFrom lo m = true) (y : Nat) :
    Mem.read (Mem.write m x v) y = if y = x then v else Mem.read m y := by
  induction m generalizing lo with
  | nil =>
    simp only [Mem.write]
    split
    · split <;> simp_all [Mem.read]
    · simp only [Mem.read]
      split
      · rfl
      · split <;> rfl
  | cons c m ih =>
    have hm := h
    simp only [Mem.wfFrom, Bool.and_eq_true, decide_eq_true_eq] at h
    have low : ∀ z, z ≤ c.1 → Mem.read m z = 0 := fun z hz => read_below h.2 (by omega)
    simp only [Mem.write]
    rcases Nat.lt_trichotomy y x with hy | hy | hy <;> rcases Nat.lt_trichotomy x c.1 with hc | hc | hc <;>
      grind [Mem.read]

/-- Writing several bytes keeps the canonical form. -/
theorem writeN_wf (bs : List Byte) {m : List Host.Cell} {x : Nat} (h : Memory.wf m = true) : Memory.wf (Mem.writeN m x bs) = true := by
  induction bs generalizing m x with
  | nil => exact h
  | cons b bs ih => exact ih (write_wf h (Nat.zero_le _))

/-- Bytes from address 0 are canonical. -/
theorem ofList_wf (bs : List Byte) : Memory.wf (Mem.ofList bs) = true := writeN_wf bs rfl

/-- A byte outside those written reads as before. -/
theorem read_writeN (bs : List Byte) {m : List Host.Cell} {x : Nat} (h : Memory.wf m = true) (y : Nat) (hy : y < x ∨ x + bs.length ≤ y) :
    Mem.read (Mem.writeN m x bs) y = Mem.read m y := by
  induction bs generalizing m x with
  | nil => rfl
  | cons b bs ih =>
    simp only [List.length_cons] at hy
    exact (ih (write_wf h (Nat.zero_le _)) (by omega)).trans ((read_write h y).trans (if_neg (by omega)))

/-- Keeping some cells keeps the canonical form. -/
theorem filter_wf (p : Host.Cell → Bool) {m : List Host.Cell} {lo : Nat} (h : Mem.wfFrom lo m = true) : Mem.wfFrom lo (m.filter p) = true := by
  induction m generalizing lo with
  | nil => rfl
  | cons c m ih =>
    simp only [Mem.wfFrom, Bool.and_eq_true, decide_eq_true_eq] at h
    rw [List.filter_cons]
    split
    · simp only [Mem.wfFrom, Bool.and_eq_true, decide_eq_true_eq]
      exact ⟨h.1, ih h.2⟩
    · exact wfFrom_mono (ih h.2) (by omega)

/-- Every cell of a canonical list is at or above its bound. -/
theorem wfFrom_le {m : List Host.Cell} {lo : Nat} (h : Mem.wfFrom lo m = true) : ∀ c ∈ m, lo ≤ c.1 := by
  induction m generalizing lo with
  | nil => exact fun _ hc => by cases hc
  | cons c m ih =>
    simp only [Mem.wfFrom, Bool.and_eq_true, decide_eq_true_eq] at h
    intro d hd
    rcases List.mem_cons.mp hd with rfl | hd
    · exact h.1.1
    · exact Nat.le_trans (by omega) (ih h.2 d hd)

/-- Moving cells from a at dst keeps the canonical form. -/
theorem move_wf (a dst : Nat) {m : List Host.Cell} {lo : Nat} (h : Mem.wfFrom lo m = true) (ha : a ≤ lo) :
    Mem.wfFrom (lo - a + dst) (m.map fun c => (c.1 - a + dst, c.2)) = true := by
  induction m generalizing lo with
  | nil => rfl
  | cons c m ih =>
    simp only [Mem.wfFrom, Bool.and_eq_true, decide_eq_true_eq] at h
    simp only [List.map_cons, Mem.wfFrom, Bool.and_eq_true, decide_eq_true_eq]
    refine ⟨⟨by omega, h.1.2⟩, ?_⟩
    have := ih h.2 (by omega)
    rw [show c.1 - a + dst + 1 = c.1 + 1 - a + dst by omega]
    exact this

/-- The bytes of an extent, moved, are canonical from their new place on. -/
theorem slice_wf {m : List Host.Cell} (h : Memory.wf m = true) (a n dst : Nat) : Mem.wfFrom dst (Mem.slice m a n dst) = true := by
  have hf : Mem.wfFrom a (m.filter fun c => decide (a ≤ c.1 ∧ c.1 < a + n)) = true := by
    have g : ∀ (l : List Host.Cell) (lo : Nat), Mem.wfFrom lo l = true → Mem.wfFrom (max lo a) (l.filter fun c => decide (a ≤ c.1 ∧ c.1 < a + n)) = true := by
      intro l
      induction l with
      | nil => intro _ _; rfl
      | cons c l ih =>
        intro lo hl
        simp only [Mem.wfFrom, Bool.and_eq_true, decide_eq_true_eq] at hl
        rw [List.filter_cons]
        split
        · rename_i hc
          simp only [decide_eq_true_eq] at hc
          simp only [Mem.wfFrom, Bool.and_eq_true, decide_eq_true_eq]
          exact ⟨⟨by omega, hl.1.2⟩, wfFrom_mono (ih _ hl.2) (by omega)⟩
        · exact wfFrom_mono (ih _ hl.2) (by omega)
    exact wfFrom_mono (g m 0 h) (by omega)
  have := move_wf a dst hf (Nat.le_refl _)
  rw [show a - a + dst = dst by omega] at this
  exact this

/-- Two canonical lists, the second above all of the first, join to one. -/
theorem append_wf {l m : List Host.Cell} {lo hi : Nat} (hl : Mem.wfFrom lo l = true) (hm : Mem.wfFrom hi m = true) (hb : ∀ c ∈ l, c.1 < hi) (hlo : lo ≤ hi) :
    Mem.wfFrom lo (l ++ m) = true := by
  induction l generalizing lo with
  | nil => exact wfFrom_mono hm hlo
  | cons c l ih =>
    simp only [Mem.wfFrom, Bool.and_eq_true, decide_eq_true_eq] at hl
    simp only [List.cons_append, Mem.wfFrom, Bool.and_eq_true, decide_eq_true_eq]
    have := hb c (List.mem_cons_self ..)
    exact ⟨hl.1, ih hl.2 (fun d hd => hb d (List.mem_cons_of_mem _ hd)) (by omega)⟩

/-- Replacing an extent keeps the canonical form. -/
theorem splice_wf {m src : List Host.Cell} (h : Memory.wf m = true) (hs : Memory.wf src = true) (a n : Nat) : Memory.wf (Mem.splice m a n src) = true := by
  have h3 : Mem.wfFrom (a + n) (m.filter fun c => decide (a + n ≤ c.1)) = true := by
    have g : ∀ (l : List Host.Cell) (lo : Nat), Mem.wfFrom lo l = true → Mem.wfFrom (max lo (a + n)) (l.filter fun c => decide (a + n ≤ c.1)) = true := by
      intro l
      induction l with
      | nil => intro _ _; rfl
      | cons c l ih =>
        intro lo hl
        simp only [Mem.wfFrom, Bool.and_eq_true, decide_eq_true_eq] at hl
        rw [List.filter_cons]
        split
        · rename_i hc
          simp only [decide_eq_true_eq] at hc
          simp only [Mem.wfFrom, Bool.and_eq_true, decide_eq_true_eq]
          exact ⟨⟨by omega, hl.1.2⟩, wfFrom_mono (ih _ hl.2) (by omega)⟩
        · exact wfFrom_mono (ih _ hl.2) (by omega)
    exact wfFrom_mono (g m 0 h) (by omega)
  have h2 := slice_wf hs 0 n a
  unfold Mem.splice Memory.wf
  refine append_wf (append_wf (filter_wf _ h) h2 ?_ (Nat.zero_le _)) h3 ?_ (Nat.zero_le _)
  · intro c hc
    simpa using (List.mem_filter.mp hc).2
  · intro c hc
    rcases List.mem_append.mp hc with hc | hc
    · have : c.1 < a := by simpa using (List.mem_filter.mp hc).2
      omega
    · obtain ⟨d, hd, rfl⟩ := List.mem_map.mp hc
      have : 0 ≤ d.1 ∧ d.1 < 0 + n := by simpa using (List.mem_filter.mp hd).2
      simp only
      omega

end Sys2Proof.Laws
end

