-- ==== Sys2Proof/Laws/PerInstr.lean ====
section
/-! SUPPORT. The family Formed: a well-formed command about a context names a context the module has, one lemma
per command. -/

namespace Sys2Proof.Laws.Formed

/-- A well-formed command about a context names one of the 65,536 contexts (R116). -/
def Statement (i : Instr) : Prop := i.wellFormed = true → ∀ c, i.ctxNumber = some c → c < 65536

/-- No context is named where none is there. -/
theorem none_some {c : Nat} {P : Prop} (h : none = some c) : P := by
  cases h

/-- The first of two checks that both pass. -/
theorem and_left {a b : Bool} (h : (a && b) = true) : a = true := by
  cases a <;> simp_all

theorem beatTick (mvA : Nat) (mvB : Nat) (mw : Nat) (hb : Bool) : Statement (.beatTick mvA mvB mw hb) := fun _ _ hk => none_some hk

theorem crystalTick : Statement .crystalTick := fun _ _ hk => none_some hk

theorem plannerBeatCycle : Statement .plannerBeatCycle := fun _ _ hk => none_some hk

theorem holdTimeout (g : Nat) : Statement (.holdTimeout g) := fun _ _ hk => none_some hk

theorem fetchDataReturn (g : Nat) (idx : Nat) (entry : List Byte) (segs : List (List Byte)) (prog : List Byte) : Statement (.fetchDataReturn g idx entry segs prog) := fun _ _ hk => none_some hk

theorem coalesceCheck (g : Nat) : Statement (.coalesceCheck g) := fun _ _ hk => none_some hk

theorem contextDeadline (c : Nat) : Statement (.contextDeadline c) := fun h _ hk => Option.some.inj hk ▸ of_decide_eq_true h

theorem d7DeadlineExtend (c : Nat) : Statement (.d7DeadlineExtend c) := fun h _ hk => Option.some.inj hk ▸ of_decide_eq_true h

theorem twinAckTimeout (c : Nat) : Statement (.twinAckTimeout c) := fun h _ hk => Option.some.inj hk ▸ of_decide_eq_true h

theorem mapLineFill (line : Nat) (crcOk : Bool) : Statement (.mapLineFill line crcOk) := fun _ _ hk => none_some hk

theorem lineRebuild (line : Nat) : Statement (.lineRebuild line) := fun _ _ hk => none_some hk

theorem arrayStatus (die : Nat) (ready : Bool) (fail : Bool) : Statement (.arrayStatus die ready fail) := fun _ _ hk => none_some hk

theorem lateOpReset (die : Nat) (readyAfter : Bool) : Statement (.lateOpReset die readyAfter) := fun _ _ hk => none_some hk

theorem slotDecode (psa : Nat) (zeros : Nat) (step : Nat) (iter : Nat) (crcOk : Bool) : Statement (.slotDecode psa zeros step iter crcOk) := fun _ _ hk => none_some hk

theorem deepRecoveryDone (idx : Nat) (ok : Bool) : Statement (.deepRecoveryDone idx ok) := fun _ _ hk => none_some hk

theorem gatherSlotPlace (slot : Nat) : Statement (.gatherSlotPlace slot) := fun _ _ hk => none_some hk

theorem victimEmptied (serial : Nat) : Statement (.victimEmptied serial) := fun _ _ hk => none_some hk

theorem wearLevelCheck : Statement .wearLevelCheck := fun _ _ hk => none_some hk

theorem patrolPassStart : Statement .patrolPassStart := fun _ _ hk => none_some hk

theorem patrolWindow : Statement .patrolWindow := fun _ _ hk => none_some hk

theorem tclkWindow : Statement .tclkWindow := fun _ _ hk => none_some hk

theorem checkpointStart : Statement .checkpointStart := fun _ _ hk => none_some hk

theorem checkpointEnd : Statement .checkpointEnd := fun _ _ hk => none_some hk

theorem recovery (ckpts journals slots : List Nat) : Statement (.recovery ckpts journals slots) := fun _ _ hk => none_some hk

theorem aringEnable (fn : Nat) : Statement (.aringEnable fn) := fun _ _ hk => none_some hk

theorem aringReady (fn : Nat) : Statement (.aringReady fn) := fun _ _ hk => none_some hk

theorem aringReset (fn : Nat) : Statement (.aringReset fn) := fun _ _ hk => none_some hk

theorem aringDisable (fn : Nat) : Statement (.aringDisable fn) := fun _ _ hk => none_some hk

theorem registerWrite (fn : Nat) (offset : Nat) (bytes : Nat) (value : BitVec 64) : Statement (.registerWrite fn offset bytes value) := fun _ _ hk => none_some hk

theorem latchingRead (fn : Nat) (offset : Nat) (bytes : Nat) : Statement (.latchingRead fn offset bytes) := fun _ _ hk => none_some hk

theorem geventWrite (fn : Nat) (value : BitVec 32) (coincident : BitVec 8) (dark : Option (Nat × Bool)) : Statement (.geventWrite fn value coincident dark) := fun _ _ hk => none_some hk

theorem geventCfgWrite (fn : Nat) (value : BitVec 32) : Statement (.geventCfgWrite fn value) := fun _ _ hk => none_some hk

theorem darkDomainAccess (fn : Nat) (offset : Nat) (write : Bool) : Statement (.darkDomainAccess fn offset write) := fun _ _ hk => none_some hk

theorem sqTail (fn : Nat) (loc : Nat) (value : BitVec 32) : Statement (.sqTail fn loc value) := fun _ _ hk => none_some hk

theorem cqHead (fn : Nat) (loc : Nat) (value : BitVec 32) : Statement (.cqHead fn loc value) := fun _ _ hk => none_some hk

theorem rstatClear (fn : Nat) (loc : Nat) (value : BitVec 32) : Statement (.rstatClear fn loc value) := fun _ _ hk => none_some hk

theorem read (c : Nat) : Statement (.read c) := fun h _ hk => Option.some.inj hk ▸ of_decide_eq_true h

theorem write (c : Nat) (bytes : List Byte) : Statement (.write c bytes) := fun h _ hk => Option.some.inj hk ▸ of_decide_eq_true h

theorem flush (c : Nat) : Statement (.flush c) := fun h _ hk => Option.some.inj hk ▸ of_decide_eq_true h

theorem trim (c : Nat) : Statement (.trim c) := fun h _ hk => Option.some.inj hk ▸ of_decide_eq_true h

theorem zero (c : Nat) : Statement (.zero c) := fun h _ hk => Option.some.inj hk ▸ of_decide_eq_true h

theorem compare (c : Nat) (bytes : List Byte) : Statement (.compare c bytes) := fun h _ hk => Option.some.inj hk ▸ of_decide_eq_true h

theorem verify (c : Nat) : Statement (.verify c) := fun h _ hk => Option.some.inj hk ▸ of_decide_eq_true h

theorem libraryProgram (c : Nat) : Statement (.libraryProgram c) := fun h _ hk => Option.some.inj hk ▸ of_decide_eq_true h

theorem hostMemoryProgram (c : Nat) : Statement (.hostMemoryProgram c) := fun h _ hk => Option.some.inj hk ▸ of_decide_eq_true h

theorem ringCreate (c : Nat) : Statement (.ringCreate c) := fun h _ hk => Option.some.inj hk ▸ of_decide_eq_true h

theorem ringDelete (c : Nat) : Statement (.ringDelete c) := fun h _ hk => Option.some.inj hk ▸ of_decide_eq_true h

theorem ringReset (c : Nat) : Statement (.ringReset c) := fun h _ hk => Option.some.inj hk ▸ of_decide_eq_true h

theorem ringResetComplete (g : Nat) : Statement (.ringResetComplete g) := fun _ _ hk => none_some hk

theorem abort (c : Nat) : Statement (.abort c) := fun h _ hk => Option.some.inj hk ▸ of_decide_eq_true h

theorem funcReset (c : Nat) : Statement (.funcReset c) := fun h _ hk => Option.some.inj hk ▸ of_decide_eq_true h

theorem moduleReset (c : Nat) : Statement (.moduleReset c) := fun h _ hk => Option.some.inj hk ▸ of_decide_eq_true h

theorem moduleResetCommandsEnded : Statement .moduleResetCommandsEnded := fun _ _ hk => none_some hk

theorem getSetting (c : Nat) : Statement (.getSetting c) := fun h _ hk => Option.some.inj hk ▸ of_decide_eq_true h

theorem setSetting (c : Nat) : Statement (.setSetting c) := fun h _ hk => Option.some.inj hk ▸ of_decide_eq_true h

theorem nsCreate (c : Nat) (key : List Byte) : Statement (.nsCreate c key) := fun h _ hk => Option.some.inj hk ▸ of_decide_eq_true (and_left h)

theorem nsDelete (c : Nat) : Statement (.nsDelete c) := fun h _ hk => Option.some.inj hk ▸ of_decide_eq_true h

theorem libLoad (c : Nat) (bytes : List Byte) : Statement (.libLoad c bytes) := fun h _ hk => Option.some.inj hk ▸ of_decide_eq_true h

theorem libUnload (c : Nat) : Statement (.libUnload c) := fun h _ hk => Option.some.inj hk ▸ of_decide_eq_true h

theorem fwDownload (c : Nat) (bytes : List Byte) : Statement (.fwDownload c bytes) := fun h _ hk => Option.some.inj hk ▸ of_decide_eq_true h

theorem fwActivateLive (c : Nat) : Statement (.fwActivateLive c) := fun h _ hk => Option.some.inj hk ▸ of_decide_eq_true h

theorem fwActivateAtReset (c : Nat) : Statement (.fwActivateAtReset c) := fun h _ hk => Option.some.inj hk ▸ of_decide_eq_true h

theorem fwActivateCommit (c : Nat) : Statement (.fwActivateCommit c) := fun h _ hk => Option.some.inj hk ▸ of_decide_eq_true h

theorem fwActivateRollback (c : Nat) : Statement (.fwActivateRollback c) := fun h _ hk => Option.some.inj hk ▸ of_decide_eq_true h

theorem fwActivateDiscard (c : Nat) : Statement (.fwActivateDiscard c) := fun h _ hk => Option.some.inj hk ▸ of_decide_eq_true h

theorem attest (c : Nat) (nonce : List Byte) : Statement (.attest c nonce) := fun h _ hk => Option.some.inj hk ▸ of_decide_eq_true h

theorem keyImport (c : Nat) (bytes : List Byte) : Statement (.keyImport c bytes) := fun h _ hk => Option.some.inj hk ▸ of_decide_eq_true h

theorem cryptoErase (c : Nat) (key : List Byte) : Statement (.cryptoErase c key) := fun h _ hk => Option.some.inj hk ▸ of_decide_eq_true (and_left h)

theorem lifeCycle (c : Nat) : Statement (.lifeCycle c) := fun h _ hk => Option.some.inj hk ▸ of_decide_eq_true h

theorem dayEnter (c : Nat) : Statement (.dayEnter c) := fun h _ hk => Option.some.inj hk ▸ of_decide_eq_true h

theorem twinDetach (c : Nat) : Statement (.twinDetach c) := fun h _ hk => Option.some.inj hk ▸ of_decide_eq_true h

theorem twinAttach (c : Nat) : Statement (.twinAttach c) := fun h _ hk => Option.some.inj hk ▸ of_decide_eq_true h

theorem logRead (c : Nat) : Statement (.logRead c) := fun h _ hk => Option.some.inj hk ▸ of_decide_eq_true h

theorem post (c : Nat) : Statement (.post c) := fun h _ hk => Option.some.inj hk ▸ of_decide_eq_true h

theorem nop (c : Nat) : Statement (.nop c) := fun h _ hk => Option.some.inj hk ▸ of_decide_eq_true h

theorem movi (c : Nat) : Statement (.movi c) := fun h _ hk => Option.some.inj hk ▸ of_decide_eq_true h

theorem shin (c : Nat) : Statement (.shin c) := fun h _ hk => Option.some.inj hk ▸ of_decide_eq_true h

theorem alu (c : Nat) : Statement (.alu c) := fun h _ hk => Option.some.inj hk ▸ of_decide_eq_true h

theorem addi (c : Nat) : Statement (.addi c) := fun h _ hk => Option.some.inj hk ▸ of_decide_eq_true h

theorem andi (c : Nat) : Statement (.andi c) := fun h _ hk => Option.some.inj hk ▸ of_decide_eq_true h

theorem ori (c : Nat) : Statement (.ori c) := fun h _ hk => Option.some.inj hk ▸ of_decide_eq_true h

theorem xori (c : Nat) : Statement (.xori c) := fun h _ hk => Option.some.inj hk ▸ of_decide_eq_true h

theorem shli (c : Nat) : Statement (.shli c) := fun h _ hk => Option.some.inj hk ▸ of_decide_eq_true h

theorem shri (c : Nat) : Statement (.shri c) := fun h _ hk => Option.some.inj hk ▸ of_decide_eq_true h

theorem cmp (c : Nat) : Statement (.cmp c) := fun h _ hk => Option.some.inj hk ▸ of_decide_eq_true h

theorem cmpi (c : Nat) : Statement (.cmpi c) := fun h _ hk => Option.some.inj hk ▸ of_decide_eq_true h

theorem br (c : Nat) : Statement (.br c) := fun h _ hk => Option.some.inj hk ▸ of_decide_eq_true h

theorem call (c : Nat) : Statement (.call c) := fun h _ hk => Option.some.inj hk ▸ of_decide_eq_true h

theorem ret (c : Nat) : Statement (.ret c) := fun h _ hk => Option.some.inj hk ▸ of_decide_eq_true h

theorem loop (c : Nat) : Statement (.loop c) := fun h _ hk => Option.some.inj hk ▸ of_decide_eq_true h

theorem ld (c : Nat) : Statement (.ld c) := fun h _ hk => Option.some.inj hk ▸ of_decide_eq_true h

theorem st (c : Nat) : Statement (.st c) := fun h _ hk => Option.some.inj hk ▸ of_decide_eq_true h

theorem bufGet (c : Nat) : Statement (.bufGet c) := fun h _ hk => Option.some.inj hk ▸ of_decide_eq_true h

theorem bufPut (c : Nat) : Statement (.bufPut c) := fun h _ hk => Option.some.inj hk ▸ of_decide_eq_true h

theorem bufSize (c : Nat) : Statement (.bufSize c) := fun h _ hk => Option.some.inj hk ▸ of_decide_eq_true h

theorem hxin (c : Nat) : Statement (.hxin c) := fun h _ hk => Option.some.inj hk ▸ of_decide_eq_true h

theorem hxout (c : Nat) : Statement (.hxout c) := fun h _ hk => Option.some.inj hk ▸ of_decide_eq_true h

theorem mrd (c : Nat) : Statement (.mrd c) := fun h _ hk => Option.some.inj hk ▸ of_decide_eq_true h

theorem mwr (c : Nat) : Statement (.mwr c) := fun h _ hk => Option.some.inj hk ▸ of_decide_eq_true h

theorem mtrim (c : Nat) : Statement (.mtrim c) := fun h _ hk => Option.some.inj hk ▸ of_decide_eq_true h

theorem mzero (c : Nat) : Statement (.mzero c) := fun h _ hk => Option.some.inj hk ▸ of_decide_eq_true h

theorem mflush (c : Nat) : Statement (.mflush c) := fun h _ hk => Option.some.inj hk ▸ of_decide_eq_true h

theorem mcmp (c : Nat) : Statement (.mcmp c) := fun h _ hk => Option.some.inj hk ▸ of_decide_eq_true h

theorem mcas (c : Nat) : Statement (.mcas c) := fun h _ hk => Option.some.inj hk ▸ of_decide_eq_true h

theorem scan (c : Nat) : Statement (.scan c) := fun h _ hk => Option.some.inj hk ▸ of_decide_eq_true h

theorem digest (c : Nat) : Statement (.digest c) := fun h _ hk => Option.some.inj hk ▸ of_decide_eq_true h

theorem copy (c : Nat) : Statement (.copy c) := fun h _ hk => Option.some.inj hk ▸ of_decide_eq_true h

theorem cmpb (c : Nat) : Statement (.cmpb c) := fun h _ hk => Option.some.inj hk ▸ of_decide_eq_true h

theorem fence (c : Nat) : Statement (.fence c) := fun h _ hk => Option.some.inj hk ▸ of_decide_eq_true h

theorem set (c : Nat) : Statement (.set c) := fun h _ hk => Option.some.inj hk ▸ of_decide_eq_true h

theorem get (c : Nat) : Statement (.get c) := fun h _ hk => Option.some.inj hk ▸ of_decide_eq_true h

theorem doze (c : Nat) : Statement (.doze c) := fun h _ hk => Option.some.inj hk ▸ of_decide_eq_true h

theorem rcall (c : Nat) : Statement (.rcall c) := fun h _ hk => Option.some.inj hk ▸ of_decide_eq_true h

theorem raw (c : Nat) : Statement (.raw c) := fun h _ hk => Option.some.inj hk ▸ of_decide_eq_true h

theorem trap (c : Nat) : Statement (.trap c) := fun h _ hk => Option.some.inj hk ▸ of_decide_eq_true h

theorem waitComplete (c : Nat) (bytes : List Byte) (status : Nat) : Statement (.waitComplete c bytes status) := fun h _ hk => Option.some.inj hk ▸ of_decide_eq_true h

theorem commandStop (c : Nat) : Statement (.commandStop c) := fun h _ hk => Option.some.inj hk ▸ of_decide_eq_true h

theorem functionReset (fn : Nat) : Statement (.functionReset fn) := fun _ _ hk => none_some hk

theorem functionResetComplete (fn : Nat) : Statement (.functionResetComplete fn) := fun _ _ hk => none_some hk

theorem perstAssert (port : Nat) : Statement (.perstAssert port) := fun _ _ hk => none_some hk

theorem perstDeassert (port : Nat) : Statement (.perstDeassert port) := fun _ _ hk => none_some hk

theorem linkUp (link : Nat) (rate : Nat) (width : Nat) (flit : Bool) : Statement (.linkUp link rate width flit) := fun _ _ hk => none_some hk

theorem linkDown (link : Nat) : Statement (.linkDown link) := fun _ _ hk => none_some hk

theorem vfEnable (link : Nat) (enable : Bool) (numVfs : Nat) : Statement (.vfEnable link enable numVfs) := fun _ _ hk => none_some hk

theorem functionReturnD0 (fn : Nat) : Statement (.functionReturnD0 fn) := fun _ _ hk => none_some hk

theorem msixUnmask (fn : Nat) (vec : Option Nat) : Statement (.msixUnmask fn vec) := fun _ _ hk => none_some hk

theorem usb4TunnelUp (port : Nat) (mode : Nat) : Statement (.usb4TunnelUp port mode) := fun _ _ hk => none_some hk

theorem usb4TunnelDown (port : Nat) : Statement (.usb4TunnelDown port) := fun _ _ hk => none_some hk

theorem enterUsb (port : Nat) (message : List Byte) : Statement (.enterUsb port message) := fun _ _ hk => none_some hk

theorem busError (engine : Nat) (chan : Nat) (code : Nat) : Statement (.busError engine chan code) := fun _ _ hk => none_some hk

theorem engineResume (engine : Nat) : Statement (.engineResume engine) := fun _ _ hk => none_some hk

theorem quarantineDrained (engine : Nat) : Statement (.quarantineDrained engine) := fun _ _ hk => none_some hk

theorem paceAssert (source : Nat) : Statement (.paceAssert source) := fun _ _ hk => none_some hk

theorem paceWithdraw (source : Nat) : Statement (.paceWithdraw source) := fun _ _ hk => none_some hk

theorem mctpPacket (packet : List Byte) : Statement (.mctpPacket packet) := fun _ _ hk => none_some hk

theorem setEndpointId (op : Nat) (eid : Nat) : Statement (.setEndpointId op eid) := fun _ _ hk => none_some hk

theorem getEndpointId : Statement .getEndpointId := fun _ _ hk => none_some hk

theorem getMctpVersionSupport (typ : Nat) : Statement (.getMctpVersionSupport typ) := fun _ _ hk => none_some hk

theorem getMessageTypeSupport : Statement .getMessageTypeSupport := fun _ _ hk => none_some hk

theorem getVendorDefinedSupport (sel : Nat) : Statement (.getVendorDefinedSupport sel) := fun _ _ hk => none_some hk

theorem health (seq : Nat) : Statement (.health seq) := fun _ _ hk => none_some hk

theorem temps (seq : Nat) : Statement (.temps seq) := fun _ _ hk => none_some hk

theorem power (seq : Nat) : Statement (.power seq) := fun _ _ hk => none_some hk

theorem events (seq : Nat) : Statement (.events seq) := fun _ _ hk => none_some hk

theorem sidebandAttest (seq : Nat) (body : List Byte) : Statement (.sidebandAttest seq body) := fun _ _ hk => none_some hk

theorem sidebandAdmin (seq : Nat) (body : List Byte) : Statement (.sidebandAdmin seq body) := fun _ _ hk => none_some hk

theorem log (seq : Nat) (body : List Byte) : Statement (.log seq body) := fun _ _ hk => none_some hk

theorem sidebandReset (seq : Nat) (body : List Byte) : Statement (.sidebandReset seq body) := fun _ _ hk => none_some hk

theorem sidebandWake (seq : Nat) : Statement (.sidebandWake seq) := fun _ _ hk => none_some hk

theorem alertResponse : Statement .alertResponse := fun _ _ hk => none_some hk

theorem octPowerStart (k : Nat) : Statement (.octPowerStart k) := fun _ _ hk => none_some hk

theorem octVccGood (k : Nat) : Statement (.octVccGood k) := fun _ _ hk => none_some hk

theorem octVccqGood (k : Nat) : Statement (.octVccqGood k) := fun _ _ hk => none_some hk

theorem octResetTimer (k : Nat) : Statement (.octResetTimer k) := fun _ _ hk => none_some hk

theorem lunReady (die : Nat) (params : List Nat) : Statement (.lunReady die params) := fun _ _ hk => none_some hk

theorem lunReadyTimeout (die : Nat) : Statement (.lunReadyTimeout die) := fun _ _ hk => none_some hk

theorem railGoodTimeout (k : Nat) : Statement (.railGoodTimeout k) := fun _ _ hk => none_some hk

theorem trainingDone (chan : Nat) (eyes : List Nat) (out : List Nat) : Statement (.trainingDone chan eyes out) := fun _ _ hk => none_some hk

theorem recentre (chan : Nat) (eye : Nat) : Statement (.recentre chan eye) := fun _ _ hk => none_some hk

theorem octDrainEnd (k : Nat) : Statement (.octDrainEnd k) := fun _ _ hk => none_some hk

theorem octVccqOff (k : Nat) : Statement (.octVccqOff k) := fun _ _ hk => none_some hk

theorem railTrip (k : Nat) : Statement (.railTrip k) := fun _ _ hk => none_some hk

theorem carrierPresenceLoss (j : Nat) : Statement (.carrierPresenceLoss j) := fun _ _ hk => none_some hk

theorem ownGrant (k : Nat) : Statement (.ownGrant k) := fun _ _ hk => none_some hk

theorem grantWaitTimeout (k : Nat) : Statement (.grantWaitTimeout k) := fun _ _ hk => none_some hk

theorem grantLoss (k : Nat) : Statement (.grantLoss k) := fun _ _ hk => none_some hk

theorem leaseRetry (k : Nat) : Statement (.leaseRetry k) := fun _ _ hk => none_some hk

theorem fchOctPower (c : Nat) : Statement (.fchOctPower c) := fun h _ hk => Option.some.inj hk ▸ of_decide_eq_true h

theorem fchOctFault (c : Nat) : Statement (.fchOctFault c) := fun h _ hk => Option.some.inj hk ▸ of_decide_eq_true h

theorem puntyLinkDown : Statement .puntyLinkDown := fun _ _ hk => none_some hk

theorem puntyLinkUp (lanes : Nat) : Statement (.puntyLinkUp lanes) := fun _ _ hk => none_some hk

theorem twinPeerRemoved : Statement .twinPeerRemoved := fun _ _ hk => none_some hk

theorem twinHbMiss : Statement .twinHbMiss := fun _ _ hk => none_some hk

theorem takeoverCare (blocks : List (Nat × List Byte)) : Statement (.takeoverCare blocks) := fun _ _ hk => none_some hk

theorem coldScanDone (found : List (Nat × List Byte)) (records : List (List Byte)) : Statement (.coldScanDone found records) := fun _ _ hk => none_some hk

theorem twinRetry : Statement .twinRetry := fun _ _ hk => none_some hk

theorem autoAttach : Statement .autoAttach := fun _ _ hk => none_some hk

theorem twinDawnWait (seen : Bool) : Statement (.twinDawnWait seen) := fun _ _ hk => none_some hk

theorem hb (pseq : Nat) (seq : Nat) (armed : Nat) : Statement (.hb pseq seq armed) := fun _ _ hk => none_some hk

theorem gather (pseq : Nat) (group : Option Nat) (mslot : Nat) (nsid : Nat) (gran : Nat) (seq : Nat) (tag : BitVec 64) (bytes : List Byte) : Statement (.gather pseq group mslot nsid gran seq tag bytes) := fun _ _ hk => none_some hk

theorem jrec (pseq : Nat) (recs : List (List Byte)) : Statement (.jrec pseq recs) := fun _ _ hk => none_some hk

theorem puntyAck (pseq : Nat) : Statement (.puntyAck pseq) := fun _ _ hk => none_some hk

theorem acommit (pseq : Nat) (group : Nat) (seqs : List Nat) : Statement (.acommit pseq group seqs) := fun _ _ hk => none_some hk

theorem adiscard (pseq : Nat) (group : Nat) : Statement (.adiscard pseq group) := fun _ _ hk => none_some hk

theorem sync (pseq : Nat) (line : Nat) (entries : List (BitVec 40)) : Statement (.sync pseq line entries) := fun _ _ hk => none_some hk

theorem nstab (pseq : Nat) (rows : List (List Byte)) : Statement (.nstab pseq rows) := fun _ _ hk => none_some hk

theorem ctrlAttach (pseq : Nat) (body : List Nat) : Statement (.ctrlAttach pseq body) := fun _ _ hk => none_some hk

theorem ctrlDetach (pseq : Nat) : Statement (.ctrlDetach pseq) := fun _ _ hk => none_some hk

theorem ctrlGranted (pseq : Nat) (body : List Nat) : Statement (.ctrlGranted pseq body) := fun _ _ hk => none_some hk

theorem ctrlRefused (pseq : Nat) : Statement (.ctrlRefused pseq) := fun _ _ hk => none_some hk

theorem ctrlReleased (pseq : Nat) : Statement (.ctrlReleased pseq) := fun _ _ hk => none_some hk

theorem ctrlReady (pseq : Nat) : Statement (.ctrlReady pseq) := fun _ _ hk => none_some hk

theorem ctrlLlDone (pseq : Nat) : Statement (.ctrlLlDone pseq) := fun _ _ hk => none_some hk

theorem ctrlCovering (pseq : Nat) : Statement (.ctrlCovering pseq) := fun _ _ hk => none_some hk

theorem anchor (pseq : Nat) (body : List Byte) : Statement (.anchor pseq body) := fun _ _ hk => none_some hk

theorem keyx (pseq : Nat) (body : List Byte) : Statement (.keyx pseq body) := fun _ _ hk => none_some hk

theorem cert (pseq : Nat) (cert : List Byte) : Statement (.cert pseq cert) := fun _ _ hk => none_some hk

theorem caneLinkChange (port : Nat) (st : Nat) : Statement (.caneLinkChange port st) := fun _ _ hk => none_some hk

theorem neighborSolicitation (port : Nat) (target : List Byte) (src : List Byte) : Statement (.neighborSolicitation port target src) := fun _ _ hk => none_some hk

theorem echoRequest (port : Nat) (src : List Byte) (dst : List Byte) (body : List Byte) : Statement (.echoRequest port src dst body) := fun _ _ hk => none_some hk

theorem kx1 (node : Nat) (body : List Byte) : Statement (.kx1 node body) := fun _ _ hk => none_some hk

theorem kx2 (node : Nat) (body : List Byte) : Statement (.kx2 node body) := fun _ _ hk => none_some hk

theorem kx3 (node : Nat) (body : List Byte) : Statement (.kx3 node body) := fun _ _ hk => none_some hk

theorem req (sid : Nat) (fcount : Nat) (tagOk : Bool) (msgId : Nat) (hops : Nat) (body : List Byte) : Statement (.req sid fcount tagOk msgId hops body) := fun _ _ hk => none_some hk

theorem rep (sid : Nat) (fcount : Nat) (tagOk : Bool) (msgId : Nat) (body : List Byte) : Statement (.rep sid fcount tagOk msgId body) := fun _ _ hk => none_some hk

theorem caneAck (sid : Nat) (fcount : Nat) (tagOk : Bool) (msgId : Nat) (seg : Nat) : Statement (.caneAck sid fcount tagOk msgId seg) := fun _ _ hk => none_some hk

theorem credit (sid : Nat) (fcount : Nat) (tagOk : Bool) (bytes : Nat) : Statement (.credit sid fcount tagOk bytes) := fun _ _ hk => none_some hk

theorem keepalive (sid : Nat) (fcount : Nat) (tagOk : Bool) : Statement (.keepalive sid fcount tagOk) := fun _ _ hk => none_some hk

theorem close (sid : Nat) (fcount : Nat) (tagOk : Bool) : Statement (.close sid fcount tagOk) := fun _ _ hk => none_some hk

theorem repl (sid : Nat) (fcount : Nat) (tagOk : Bool) (msgId : Nat) (nsid : Nat) (g16k : Bool) (cap : Nat) (seq : Nat) (base : Bool) (atom : Bool) (cut : Bool) (ops : List (Nat × Nat × List Byte)) : Statement (.repl sid fcount tagOk msgId nsid g16k cap seq base atom cut ops) := fun _ _ hk => none_some hk

theorem replAck (sid : Nat) (fcount : Nat) (tagOk : Bool) (g16k : Bool) (cap : Nat) (body : List Byte) : Statement (.replAck sid fcount tagOk g16k cap body) := fun _ _ hk => none_some hk

theorem caneRto (sid : Nat) (msgId : Nat) : Statement (.caneRto sid msgId) := fun _ _ hk => none_some hk

theorem caneGiveup (sid : Nat) (msgId : Nat) : Statement (.caneGiveup sid msgId) := fun _ _ hk => none_some hk

theorem caneRekey (sid : Nat) : Statement (.caneRekey sid) := fun _ _ hk => none_some hk

theorem caneRepl (c : Nat) : Statement (.caneRepl c) := fun h _ hk => Option.some.inj hk ▸ of_decide_eq_true h

theorem feedGood (f : Nat) (mv : Int) : Statement (.feedGood f mv) := fun _ _ hk => none_some hk

theorem feedConduct (f : Nat) : Statement (.feedConduct f) := fun _ _ hk => none_some hk

theorem feedDrop (f : Nat) (mv : Int) (breaker : Bool) : Statement (.feedDrop f mv breaker) := fun _ _ hk => none_some hk

theorem lossDeclared : Statement .lossDeclared := fun _ _ hk => none_some hk

theorem lastLightFlushed : Statement .lastLightFlushed := fun _ _ hk => none_some hk

theorem aonPowerLoss : Statement .aonPowerLoss := fun _ _ hk => none_some hk

theorem pwrTestStart (h : Nat) : Statement (.pwrTestStart h) := fun _ _ hk => none_some hk

theorem pwrTestSinkEnd (capUf : Nat) (esr : Nat) (moved : Bool) : Statement (.pwrTestSinkEnd capUf esr moved) := fun _ _ hk => none_some hk

theorem pwrTestDone : Statement .pwrTestDone := fun _ _ hk => none_some hk

theorem pwrTestNow (c : Nat) : Statement (.pwrTestNow c) := fun h _ hk => Option.some.inj hk ▸ of_decide_eq_true h

theorem nightSeal : Statement .nightSeal := fun _ _ hk => none_some hk

theorem nightEntryStep : Statement .nightEntryStep := fun _ _ hk => none_some hk

theorem midnightEntryStep : Statement .midnightEntryStep := fun _ _ hk => none_some hk

theorem duskIdle (link : Nat) : Statement (.duskIdle link) := fun _ _ hk => none_some hk

theorem wakeNLow : Statement .wakeNLow := fun _ _ hk => none_some hk

theorem dayWakeAt : Statement .dayWakeAt := fun _ _ hk => none_some hk

theorem wakeFromNight (bad : List Nat) (failing : List (Nat × Nat)) (rerun : List Nat) : Statement (.wakeFromNight bad failing rerun) := fun _ _ hk => none_some hk

theorem dawnRegulators : Statement .dawnRegulators := fun _ _ hk => none_some hk

theorem dawnOscillators (imageOk : Bool) (prevOk : Bool) : Statement (.dawnOscillators imageOk prevOk) := fun _ _ hk => none_some hk

theorem dawnCool : Statement .dawnCool := fun _ _ hk => none_some hk

theorem dawnMemories (dramOk : List Bool) (failing : List (Nat × Nat)) (rerun : List Nat) : Statement (.dawnMemories dramOk failing rerun) := fun _ _ hk => none_some hk

theorem dawnLogic (imageOk : Bool) (random : List Byte) : Statement (.dawnLogic imageOk random) := fun _ _ hk => none_some hk

theorem dawnStepTimeout : Statement .dawnStepTimeout := fun _ _ hk => none_some hk

theorem sensorSample (readings : List Int) (changed : List Bool) : Statement (.sensorSample readings changed) := fun _ _ hk => none_some hk

theorem carrierZoneReturn (k : Nat) : Statement (.carrierZoneReturn k) := fun _ _ hk => none_some hk

theorem hotStopFlushed : Statement .hotStopFlushed := fun _ _ hk => none_some hk

theorem thermRearm (c : Nat) : Statement (.thermRearm c) := fun h _ hk => Option.some.inj hk ▸ of_decide_eq_true h

theorem scrub (bank : Nat) (unit : Nat) (words : Nat) : Statement (.scrub bank unit words) := fun _ _ hk => none_some hk

theorem sramUncorrectable (bank : Nat) (unit : Nat) : Statement (.sramUncorrectable bank unit) := fun _ _ hk => none_some hk

theorem memTestReq (c : Nat) : Statement (.memTestReq c) := fun h _ hk => Option.some.inj hk ▸ of_decide_eq_true h

theorem memTestDone (failing : List (Nat × Nat)) (rerun : List Nat) : Statement (.memTestDone failing rerun) := fun _ _ hk => none_some hk

theorem norProgramDone (ok : Bool) : Statement (.norProgramDone ok) := fun _ _ hk => none_some hk

theorem norEraseDone (ok : Bool) : Statement (.norEraseDone ok) := fun _ _ hk => none_some hk

theorem fwPreloadDone : Statement .fwPreloadDone := fun _ _ hk => none_some hk

theorem fwSwitchBeat : Statement .fwSwitchBeat := fun _ _ hk => none_some hk

theorem servitorRestart (n : Nat) : Statement (.servitorRestart n) := fun _ _ hk => none_some hk

theorem watchdogExpiry (n : Nat) : Statement (.watchdogExpiry n) := fun _ _ hk => none_some hk

theorem tamperDetect (cause : Nat) : Statement (.tamperDetect cause) := fun _ _ hk => none_some hk

theorem tamperRestart : Statement .tamperRestart := fun _ _ hk => none_some hk

theorem secSyskeyRotate (c : Nat) (key : List Byte) : Statement (.secSyskeyRotate c key) := fun h _ hk => Option.some.inj hk ▸ of_decide_eq_true (and_left h)

theorem secCertCommit (c : Nat) : Statement (.secCertCommit c) := fun h _ hk => Option.some.inj hk ▸ of_decide_eq_true h

theorem secLock (c : Nat) : Statement (.secLock c) := fun h _ hk => Option.some.inj hk ▸ of_decide_eq_true h

theorem secFwKeyRevoke (c : Nat) : Statement (.secFwKeyRevoke c) := fun h _ hk => Option.some.inj hk ▸ of_decide_eq_true h

theorem secCaRevoke (c : Nat) : Statement (.secCaRevoke c) := fun h _ hk => Option.some.inj hk ▸ of_decide_eq_true h

theorem keyScrub (sector : Nat) : Statement (.keyScrub sector) := fun _ _ hk => none_some hk

theorem functionD3hot (fn : Nat) (d3 : Bool) : Statement (.functionD3hot fn d3) := fun _ _ hk => none_some hk

theorem overvoltageLockoutRelease (f : Nat) (mv : Int) : Statement (.overvoltageLockoutRelease f mv) := fun _ _ hk => none_some hk

theorem caneDedupExpiry (sid : Nat) (msgId : Nat) : Statement (.caneDedupExpiry sid msgId) := fun _ _ hk => none_some hk

theorem oldSessionKeysExpiry (sid : Nat) : Statement (.oldSessionKeysExpiry sid) := fun _ _ hk => none_some hk

end Sys2Proof.Laws.Formed
end

