-- ==== Sys2Proof/Tests/Slice0.lean ====
section
/-! SUPPORT. Small tests: for each statement with hypotheses a state and operands that meet them, single commands
against values worked out from the spec, and an ill-formed term for each check of WellFormed. -/

namespace Sys2Proof.Tests

set_option Elab.async false

open Sys2Proof Sys2Proof.Machine Sys2Proof.Safety

/-- An entry of a program on namespace 1, granules 4096 on. -/
def demoEntry : Entry :=
  { typ := 3, op := 0, flags := 0, cls := 2, cid := 7, nsid := 1, lba := 4096, length := 4096, prog := 0, daddr := 0x10000, dcount := 8192,
    tag := 0, a0 := 0, a1 := 0, a2 := 0 }

/-- A ready context of ring 0 that runs the one word w: G1 = 1, G2 = 4096, G3 = 8, G4 = 4, handles 0 to 2 hold buffers of 8 KiB. -/
def demo (w : BitVec 32) : Ctx :=
  { c := 0, adm := 5, src := .ring 0, fn := 0, admin := true, entry := demoEntry, segs := [], code := some { decl := [], words := [w] },
    regs := Vector.ofFn fun i => [0, 1, 4096, 8, 4].getD i.val 0, preds := Vector.replicate 4 false,
    hnd := Vector.ofFn fun i => if i.val < 3 then some { addr := 0, code := 2, bytes := [] } else none, pc := 0, prog := 0x1000, stack := [],
    budget := 9, issued := 0, rdLeft := 64, wrLeft := 64, slabLeft := 64, strLeft := 64, hostLeft := 4096, slabRes := 64, codePages := 1,
    dmode := 3, mod := true, admBeat := 3, dline := 900, dOpen := false, postBeat := 800, eventBeat := 10, commitBeat := none, wait := .ready,
    word := 0, reads := [], wtGrans := [], writeThrough := false, sticky := Sticky.none, atom := [], ownSlots := [], mirrorWait := [],
    pins := [], status := 0, detail := 0, result := 0, withheld := false, stopping := false, hostWrites := 0, counted := 0, snap := 0,
    aux := [], data := [], reply := [] }

/-- demo in a called program. -/
def deep (w : BitVec 32) : Ctx := { demo w with stack := [(4, 9)] }

/-- demo with an entry that carries ATOM. -/
def atomDemo (w : BitVec 32) : Ctx := { demo w with entry := { demoEntry with flags := 2 } }

/-- Namespace 1. -/
def demoNs : Namespace :=
  { nsid := 1, g16k := false, mbase := 0, cap := 65536, initLines := 0, cseq := 1, creating := none, deleting := false, worn := false,
    sideB := false }

/-- A state in beat 10 with one context and namespace 1. -/
def stWith (x : Ctx) : State :=
  { State.reset with beat := 10, ctxs := [x], xlat := { Xlat.init with nss := [demoNs] } }

/-- A state whose context 0 runs the word w. -/
def zAt (w : BitVec 32) : State := stWith (demo w)

/-- The context alone on its Gaffer may issue. -/
theorem canIssue_demo (w : BitVec 32) : canIssue (zAt w) (demo w) = true := by
  have e : State.reset.zci.ended = [] := rfl
  have h : cycleFor (zAt w) (demo w) = true := by simp [cycleFor, issuedNow, Ctx.past, zAt, stWith, demo, demoEntry, e, sum]
  have r : readyNow (zAt w) (demo w) = true := by
    simp only [readyNow, h, show effBlocked (zAt w) (demo w) = false from rfl]; rfl
  have b : (demo w).before (demo w) = false := by simp [Ctx.before]
  simp only [canIssue, r, show (zAt w).ctxs = [demo w] from rfl, List.any_cons, List.any_nil, b, Bool.and_false, Bool.or_false,
    Bool.not_false, Bool.and_true]

/-- A word without a guard issues in such a state. -/
theorem issues_demo (w : BitVec 32) (op : Nat) (h : zOp w = op) (hg : zG w = 0) : Issues (zAt w) 0 op (demo w) w :=
  ⟨⟨rfl, canIssue_demo w, rfl, h⟩, Or.inr (Or.inl (by simp [demo])), by simp [guardOn, hg, pget]⟩

/-- So does each word of a list without guards. -/
theorem issues_words (l : List (BitVec 32)) (h : l.all (fun w => zG w == 0) = true) : ∀ w ∈ l, Issues (zAt w) 0 (zOp w) (demo w) w :=
  fun w hw => issues_demo w _ rfl (by simpa using List.all_eq_true.mp h w hw)

/-- A resident context of a direct op on granule 4096, length 1, with these flags. -/
def direct (op flags : BitVec 8) : Ctx :=
  { demo 0 with wait := .resident, entry := { demoEntry with typ := 1, op := op, flags := flags, length := 1, dcount := 4096 } }

/-- A resident context of an admin op with operands A0 and A1. -/
def admin (op : BitVec 8) (a0 a1 : BitVec 64) : Ctx :=
  { demo 0 with wait := .resident, dmode := 0, mod := false, entry := { demoEntry with typ := 4, op := op, cls := 6, a0 := a0, a1 := a1, lba := 0 } }

/-- A context that waits on the word w, one granule read. -/
def waiting (w : BitVec 32) : Ctx :=
  { demo w with wait := .instr, word := w, reads := [{ gran := 4096, loc := .unmapped, slots := [.direct], bytes := [], tag := 0 }] }

/-- demo with a zero call header in its buffer and the whole buffer as extent. -/
def bigGb (w : BitVec 32) : Ctx := { demo w with regs := Vector.ofFn fun i => if i.val = 6 then 128 else 0 }

/-- An ACTIVE ring pair of function 0. -/
def demoRing : Ring := { Ring.init with g := 0, fn := 0, loc := 0, admin := true, st := .active, sqLog2 := 6, cqLog2 := 6, phase := true }

/-- Function 0, in D0 with Bus Master Enable at 1. -/
def demoFn : HostFn := { HostFn.init with n := 0, busMaster := true, d3hot := false }

/-- A state in beat 10 with function 0, ring 0 and these contexts. -/
def ringSt (l : List Ctx) : State :=
  { State.reset with beat := 10, ctxs := l, rings := [demoRing], fns := [demoFn], xlat := { Xlat.init with nss := [demoNs] } }

/-- A READ whose one granule is delivered and whose transfer has started. -/
def readDone : Ctx := { direct 0x01 0 with snap := 1, reads := [{ gran := 4096, loc := .unmapped, slots := [.direct], bytes := [], tag := 0 }] }

/-- A WRITE of one granule whose transfer has started. -/
def writeReady (flags : BitVec 8) : Ctx := { direct 0x02 flags with snap := 1 }

/-- Ring pair 7, RESETTING for context 0. -/
def resetRing : Ring :=
  { demoRing with g := 7, loc := 3, st := .resetting, rst := some { byCtx := some 0, withheld := 2, aborted := 1, ok := 1, at_ := 5 } }

/-- A state with ring 7 RESETTING. -/
def resetting (l : List Ctx) : State := { ringSt l with rings := [resetRing] }

/-- An ABORT of CID 7 on local ring 0. -/
def abortOf : Ctx := { admin 0x83 0 0 with entry := { (admin 0x83 0 0).entry with lba := 0x700000000, cid := 9 } }

/-- The command it names. -/
def victim : Ctx := { demo 0 with c := 1, adm := 4 }

/-- The state of ringSt in Noon with every domain on. -/
def noonSt (l : List Ctx) : State :=
  let s := ringSt l
  { s with day := { s.day with day := .noon, hostOn := true, coreOn := true, sramOn := true, dramOn := true, puntyOn := true, caneOn := true, bootOn := true } }

/-- A function with MSI-X enabled, vector 2 unmasked and vector 3 pending. -/
def vecFn : HostFn :=
  { demoFn with vectors := 2048, msixEnable := true, msixMask := false, pba := [3], msixTable := [(2, { addr := 0xFEE00000, data := 5, masked := false })] }

/-- Links 0 and 2 up, function 0 present. -/
def upSt : State := { noonSt [] with links := vset (vset (noonSt []).links 0 { HostLink.init with st := 2 }) 2 { HostLink.init with st := 2 } }

/-- Link 0 in reset, link 2 ready to train, port 4 in USB4. -/
def trainSt : State :=
  let v := vset (noonSt []).links 0 { HostLink.init with perst := true }
  let w := vset v 2 { HostLink.init with perst := false, trainFrom := some 4 }
  { noonSt [] with links := vset w 4 { HostLink.init with usbEntered := true } }

/-- Engine 1 in a state, both tag pools in quarantine, pacing source 2 asserted. -/
def engSt (k : EngSt) : State :=
  let s := modEngine (noonSt []) 1 fun e => { e with st := k, spare := false, quarantine := 2, resumeAt := 9 }
  s.updMovers fun m => { m with pacer := vset m.pacer 2 true }

/-- A HOLD ring with an entry held since beat 1. -/
def holdRing : Ring :=
  { demoRing with hold := true, held := some { data := { entry := demoEntry, segs := [], code := none }, since := 1, cause := St.classFull } }

/-- holdRing, long after. -/
def holdSt : State := { noonSt [] with beat := 30000, rings := [holdRing] }

/-- An entry that stages journal records: NS_DELETE of namespace 1. -/
def libUnload : Entry :=
  { demoEntry with typ := 4, op := 0x89, cls := 6, nsid := 1, lba := 0, length := 1, dcount := 0, daddr := 0 }

/-- A state outside the write window. -/
def fullSt : State := { holdSt with therm := { holdSt.therm with window := false }, twin := { holdSt.twin with st := .covering } }

/-- The data of a GET_SETTING entry. -/
def getData : EntryData :=
  { entry := { demoEntry with typ := 4, op := 0x86, cls := 6, nsid := 0, lba := 0, length := 1, dcount := 0, daddr := 0 }, segs := [], code := none }

/-- The always-on domain has power. -/
def lit (s : State) : State := s.updPower fun p => { p with aonPowered := true }

/-- Gather slot 3: part 0 of granule 4100 of namespace 1, mapped, holding no byte but zeros. -/
def demoSlot : GatherSlot :=
  { slot := 3, nsid := 1, gran := 4100, part := 0, g16k := false, seq := 8, tag := 0, agroup := 0, member := false, last := false, atom := false,
    mapped := true, armed := true, mirrored := false, freeAt := 0, through := false, psa := none, owner := 65536, epoch := 0, bytes := [] }

/-! StepRunsFrontCommand -/

theorem test_front_command : ∃ s : State, s.pending = [Instr.crystalTick, Instr.nightSeal] :=
  ⟨{ State.reset with pending := [Instr.crystalTick, Instr.nightSeal] }, rfl⟩
theorem test_queue_empty_at_reset : State.reset.pending = [] := rfl

/-! RegisterInstructions -/

theorem test_issues_register : ∀ w ∈ [0x08000000#32, 0x10400018#32, 0x14440008#32, 0x20448018#32, 0x24440008#32, 0x28440008#32,
    0x2C440008#32, 0x30440008#32, 0x34440008#32, 0x38440008#32], Issues (zAt w) 0 (zOp w) (demo w) w :=
  issues_words _ (by decide +kernel)
theorem test_shift_amounts : zImm 0x34440008#32 < 64 ∧ zImm 0x38440008#32 < 64 := by decide +kernel

/-! CompareInstructions -/

theorem test_issues_compare : ∀ w ∈ [0x40448000#32, 0x40448008#32, 0x40448010#32, 0x40448018#32, 0x40448020#32, 0x40448028#32, 0x44440008#32],
    Issues (zAt w) 0 (zOp w) (demo w) w := issues_words _ (by decide +kernel)
theorem test_compare_fields : [0x40448000#32, 0x40448008#32, 0x40448010#32, 0x40448018#32, 0x40448020#32, 0x40448028#32].map zFn = [0, 1, 2, 3, 4, 5] ∧
    zD 0x40448000#32 = 1 ∧ zD 0x44440008#32 / 4 = 0 := by decide +kernel

/-! ControlInstructions -/

theorem test_issues_control :
    Issues (zAt 0x50000010#32) 0 0x14 (demo 0x50000010#32) 0x50000010#32 ∧ Issues (zAt 0x5C400008#32) 0 0x17 (demo 0x5C400008#32) 0x5C400008#32 ∧
    Issues (zAt 0x54000028#32) 0 0x15 (demo 0x54000028#32) 0x54000028#32 ∧ (demo 0x54000028#32).stack.length < 8 :=
  ⟨issues_demo _ _ (by decide +kernel) (by decide +kernel), issues_demo _ _ (by decide +kernel) (by decide +kernel), issues_demo _ _ (by decide +kernel) (by decide +kernel), by decide +kernel⟩
theorem test_issues_ret : Issues (stWith (deep 0x58000000#32)) 0 0x16 (deep 0x58000000#32) 0x58000000#32 :=
  ⟨⟨rfl, by decide +kernel, rfl, by decide +kernel⟩, Or.inr (Or.inl (by decide +kernel)), by decide +kernel⟩

/-! BufferInstructions -/

theorem test_issues_buffer : ∀ w ∈ [0x60000000#32, 0x64000000#32, 0x70481800#32, 0x70480000#32, 0x70000008#32, 0x70000010#32],
    Issues (zAt w) 0 (zOp w) (demo w) w := issues_words _ (by decide +kernel)
theorem test_ld_in_bounds : inBounds (demo 0x60000000#32) 0 0 1 = true ∧ memOff (demo 0x60000000#32) 0x60000000#32 = 0 ∧
    memWidth 0x60000000#32 = 1 := by decide +kernel
theorem test_buf_get_takes : hget (demo 0x70481800#32) (zH 0x70481800#32) = none ∧ ga (demo 0x70481800#32) 0x70481800#32 = 2 ^ 12 ∧
    zFl 0x70481800#32 = 0 ∧ zG 0x70481800#32 = 0 ∧ zOp 0x70481800#32 = 0x1C ∧ 2 ^ 12 ≤ 1024 * (demo 0x70481800#32).slabLeft := by decide +kernel
theorem test_buf_get_fails : hget (demo 0x70480000#32) (zH 0x70480000#32) ≠ none ∧ zFl 0x70480000#32 = 0 := by decide +kernel

/-! StreamInstructions -/

theorem test_issues_stream : ∀ w ∈ [0xB0000088#32, 0xB4000000#32, 0xB4000008#32, 0xB8000000#32, 0xB8000040#32, 0xBC000000#32],
    Issues (zAt w) 0 (zOp w) (demo w) w := issues_words _ (by decide +kernel)
theorem test_stream_checks : let x := demo 0xB0000088#32
    inBounds x 0 0 0 = true ∧ inBounds x 1 0 0 = true ∧ inBounds x 2 0 80 = true ∧ zFl 0xB0000088#32 % 8 = 1 ∧
    zFl 0xB0000088#32 / 8 % 8 = 2 ∧ zH 0xB0000088#32 = 0 ∧ gb x 0xB0000088#32 = 0 ∧ digAlg 0xB4000000#32 = 0 ∧ digAlg 0xB4000008#32 = 1 := by decide +kernel

/-! HostTransferInstructions -/

theorem test_issues_host : Issues (zAt 0x8000C000#32) 0 0x20 (demo 0x8000C000#32) 0x8000C000#32 ∧
    Issues (zAt 0x8400C000#32) 0 0x21 (demo 0x8400C000#32) 0x8400C000#32 := ⟨issues_demo _ _ (by decide +kernel) (by decide +kernel), issues_demo _ _ (by decide +kernel) (by decide +kernel)⟩
theorem test_host_extent : let x := demo 0x8000C000#32
    x.ringOf = some 0 ∧ gd x 0x8000C000#32 + gb x 0x8000C000#32 ≤ dBytes x ∧ gb x 0x8000C000#32 ≤ x.hostLeft ∧
    inBounds x (zH 0x8000C000#32) (ga x 0x8000C000#32) (gb x 0x8000C000#32) = true := by decide +kernel
theorem test_host_side : let x := { demo 0x8000C000#32 with src := .sideband, data := List.replicate 64 0 }
    Issues (stWith x) 0 0x20 x 0x8000C000#32 ∧ x.ringOf = none ∧ gd x 0x8000C000#32 + gb x 0x8000C000#32 ≤ dBytes x :=
  ⟨⟨⟨rfl, by decide +kernel, rfl, by decide +kernel⟩, Or.inr (Or.inl (by decide +kernel)), by decide +kernel⟩, rfl, by decide +kernel⟩

/-! MediaInstructionsIssue -/

theorem test_issues_media : ∀ w ∈ [0x90084000#32, 0xA4084000#32, 0xA8084000#32, 0x94084000#32, 0x98084000#32, 0x9C084000#32, 0xA0000000#32, 0xC4000000#32],
    Issues (zAt w) 0 (zOp w) (demo w) w := issues_words _ (by decide +kernel)
theorem test_media_ok : ctxNs (zAt 0x90084000#32) (demo 0x90084000#32) = some demoNs ∧ MediaOk (zAt 0xA8084000#32) (demo 0xA8084000#32) 0xA8084000#32 2 true true := by decide +kernel
theorem test_atom_ok : (atomDemo 0x98084000#32).entry.atom = true ∧ ga (atomDemo 0x98084000#32) 0x98084000#32 = 4096 ∧
    Issues (stWith (atomDemo 0x98084000#32)) 0 0x26 (atomDemo 0x98084000#32) 0x98084000#32 ∧
    gb (atomDemo 0x98084000#32) 0x98084000#32 = 1 ∧ ctxNs (stWith (atomDemo 0x98084000#32)) (atomDemo 0x98084000#32) = some demoNs ∧
    MediaOk (stWith (atomDemo 0x98084000#32)) (atomDemo 0x98084000#32) 0x98084000#32 0 false true :=
  ⟨by decide +kernel, by decide +kernel, ⟨⟨rfl, by decide +kernel, rfl, by decide +kernel⟩, Or.inr (Or.inl (by decide +kernel)), by decide +kernel⟩, by decide +kernel, by decide +kernel, by decide +kernel⟩

/-! UnmapOperations -/

theorem test_trim_resident : Resident (stWith (direct 0x04 0)) 0 0x04 1 (direct 0x04 0) ∧ Resident (stWith (direct 0x05 0)) 0 0x05 1 (direct 0x05 0) ∧
    ctxNs (stWith (direct 0x04 0)) (direct 0x04 0) = some demoNs ∧ (direct 0x04 0).entry.atom = false ∧ (direct 0x05 2).entry.atom = true ∧
    Resident (stWith (direct 0x05 2)) 0 0x05 1 (direct 0x05 2) :=
  ⟨⟨rfl, rfl, rfl, rfl, rfl, rfl⟩, ⟨rfl, rfl, rfl, rfl, rfl, rfl⟩, by decide +kernel, by decide +kernel, by decide +kernel, ⟨rfl, rfl, rfl, rfl, rfl, rfl⟩⟩

/-! WaitingInstructionsRetire -/

theorem test_waiting : getCtx (stWith (waiting 0x90084000#32)) 0 = some (waiting 0x90084000#32) ∧ (waiting 0x90084000#32).wait = .instr ∧
    (waiting 0x90084000#32).reads.all GranRead.done = true ∧ hget (waiting 0x90084000#32) (zH 0x90084000#32) = some { addr := 0, code := 2, bytes := [] } ∧
    [0x90084000#32, 0xA4084000#32, 0x8000C000#32, 0x8400C000#32, 0xB0000088#32, 0xA0000000#32, 0xC4000008#32, 0x94084000#32, 0xD0000000#32].map zOp =
      [0x24, 0x29, 0x20, 0x21, 0x2C, 0x28, 0x31, 0x25, 0x34] ∧ flushed (stWith (waiting 0xA0000000#32)) (waiting 0xA0000000#32) = true ∧ (waiting 0xB0000088#32).left = 0 ∧
    hostReach (ringSt [waiting 0x8000C000#32]) (waiting 0x8000C000#32) = true ∧ gb (waiting 0x8000C000#32) 0x8000C000#32 = 8 ∧
    specialSet (setArgs (waiting 0xD0000000#32)).1 = false ∧ norWriting (stWith (waiting 0xD0000000#32)) 0x05 0 = false := by decide +kernel

/-! SettingInstructions -/

theorem test_setting_words : zOp 0xD4440000#32 = 0x35 ∧ zOp 0xD0440000#32 = 0x34 ∧ zG 0xD4440000#32 = 0 ∧ zG 0xD0440000#32 = 0 := by decide +kernel
theorem test_access : accessCheck (zAt 0xD4440000#32) 0x02000003 none = none ∧ accessCheck (zAt 0xD4440000#32) 0x02FFFFFF none = some (St.range, 1) ∧
    settingNv 0x02000003 = true ∧ specialSet 0x02000003 = false ∧ accessCheck (zAt 0xD0440000#32) 0x02000001 (some 3) = some (St.denied, 0) ∧
    accessCheck (zAt 0xD0440000#32) 0x02000003 (some 32) = none := by decide +kernel
theorem test_live_setting : settingNv 0x0E000004 = false ∧ specialSet 0x0E000004 = false ∧ settingNv 0x0F000004 = false ∧ specialSet 0x0F000004 = true ∧
    accessCheck (zAt 0xD0440000#32) 0x0F000004 (some 1) = none := by decide +kernel

/-! DozeRcallRawIssue -/

theorem test_issues_service : ∀ w ∈ [0xD8000000#32, 0xE0018000#32, 0xE8018000#32], Issues (zAt w) 0 (zOp w) (demo w) w := issues_words _ (by decide +kernel)
theorem test_doze_day : nvVal State.reset 0x0E000001 = 0 ∧ dayOf 0 = .noon ∧ State.reset.day.day = .dawn ∧ State.reset.day.pendReq = none ∧
    (demo 0).entry.isProg = true ∧ rawDbytes (demo 0) 0 = 0 := by decide +kernel
theorem test_raw_bench : ∃ s : State, s.sec.life = .bench ∧ s.sec.benchClose = false :=
  ⟨{ State.reset with sec := { State.reset.sec with life := .bench, benchClose := false } }, rfl, rfl⟩
theorem test_rcall_own : firstFault (rcallChecks (bigGb 0xE0018000#32) 0xE0018000#32) = none ∧ hopsOf (demo 0) ≤ nvVal State.reset 0x0C000016 ∧
    field (hread (demo 0) 0 0 64) 0 2 % 16384 = ownNode State.reset ∧ State.reset.cane.queue.length < nvVal State.reset 0x0C000015 := by decide +kernel

/-! PostDeliversTheCompletion -/

theorem test_post_ready : Issues (ringSt [demo 0x04048000#32]) 0 0x01 (demo 0x04048000#32) 0x04048000#32 ∧
    durable (ringSt [demo 0x04048000#32]) (demo 0x04048000#32) = true ∧ postBlocked (ringSt [demo 0x04048000#32]) (demo 0x04048000#32) = false :=
  ⟨⟨⟨rfl, rfl, rfl, by decide +kernel⟩, Or.inr (Or.inl (by decide +kernel)), by decide +kernel⟩, by decide +kernel, by decide +kernel⟩
theorem test_post_ring : getRing (ringSt []) 0 = some demoRing ∧ demoRing.rst = none ∧ getFn (ringSt []) demoRing.fn = some demoFn ∧
    demoFn.writable = true ∧ (ringSt []).plan.resetFlush = false := by decide +kernel

/-! IssueFaults -/

theorem test_issues_faults : ∀ w ∈ [0xF0000000#32, 0x58000000#32, 0xD4440000#32, 0x60008000#32], Issues (zAt w) 0 (zOp w) (demo w) w :=
  issues_words _ (by decide +kernel)
theorem test_fault_conditions : (demo 0x58000000#32).stack = [] ∧ inBounds (demo 0x60001800#32) (zH 0x60001800#32) 0 1 = false ∧
    memOff (demo 0x60040008#32) 0x60040008#32 = 1 ∧ memWidth 0x60040008#32 = 2 ∧
    wordAt (zAt 0) { demo 0 with pc := 1 } = none := by decide +kernel

/-! RunTimeFaultWord -/

theorem test_fault_ready : getCtx (ringSt [demo 0]) 0 = some (demo 0) ∧ (demo 0).wait ≠ .fixed ∧ (demo 0).src = .ring 0 ∧
    postBlocked (ringSt [demo 0]) (demo 0) = false ∧ (demo 0).atom = [] ∧ (demo 0).withheld = false := by decide +kernel
theorem test_fault_blocked : postBlocked (ringSt [demo 0, { demo 0 with c := 1, adm := 2 }]) (demo 0) = true ∧ State.reset.twin.st = .solo := by decide +kernel

/-! GuardedOffInstruction -/

theorem test_guarded_off : guardOn (demo 0x04048004#32) 0x04048004#32 = false ∧ zOp 0x04048004#32 = 0x01 ∧ zOp 0x50000014#32 = 0x14 ∧
    canIssue (zAt 0x04048004#32) (demo 0x04048004#32) = true ∧ (demo 0x04048004#32).budget ≠ 0 := by decide +kernel
theorem test_guarded_off_spent : ¬ BudgetLeft { demo 0x50000014#32 with budget := 0 } 0x14 :=
  fun h => by rcases h with h | h | h <;> revert h <;> decide +kernel

/-! DirectReadsAndVerify -/

theorem test_reads_start : Resident (stWith (direct 0x01 0)) 0 0x01 1 (direct 0x01 0) ∧ Resident (stWith (direct 0x06 0)) 0 0x06 1 (direct 0x06 0) ∧
    Resident (stWith (direct 0x07 0)) 0 0x07 1 (direct 0x07 0) ∧ (direct 0x07 0).reads = [] :=
  ⟨⟨rfl, rfl, rfl, rfl, rfl, rfl⟩, ⟨rfl, rfl, rfl, rfl, rfl, rfl⟩, ⟨rfl, rfl, rfl, rfl, rfl, rfl⟩, rfl⟩
theorem test_read_delivers : Resident (ringSt [readDone]) 0 0x01 1 readDone ∧ readsDone readDone = true ∧ hostReach (ringSt [readDone]) readDone = true ∧
    readDone.reads.any GranRead.delivered = true ∧ gran (ringSt [readDone]) readDone ≤ readDone.entry.dcount.toNat :=
  ⟨⟨rfl, rfl, rfl, rfl, rfl, rfl⟩, by decide +kernel, by decide +kernel, by decide +kernel, by decide +kernel⟩
theorem test_compare_diff : firstDiff 4096 [(5, 1)] readDone.reads = some 0 ∧ firstDiff 4096 [] readDone.reads = none ∧
    (directSticky readDone).rank ≤ 1 := by decide +kernel

/-! DirectWriteAndFlush -/

theorem test_write_ready : Resident (ringSt [writeReady 0]) 0 0x02 1 (writeReady 0) ∧ Resident (ringSt [writeReady 2]) 0 0x02 1 (writeReady 2) ∧
    (writeReady 2).entry.atom = true ∧ hostReach (ringSt [writeReady 0]) (writeReady 0) = true ∧ (writeReady 0).snap = 1 ∧
    (writeReady 0).entry.length = 1 ∧ freeGather (ringSt [writeReady 0]) 1 = some 0 ∧ gatherTakes (ringSt [writeReady 0]) (writeReady 0) 1 = true ∧ Resident (stWith (direct 0x03 0)) 0 0x03 1 (direct 0x03 0) ∧
    Resident (ringSt [direct 0x02 0]) 0 0x02 1 (direct 0x02 0) :=
  ⟨⟨rfl, rfl, rfl, rfl, rfl, rfl⟩, ⟨rfl, rfl, rfl, rfl, rfl, rfl⟩, by decide +kernel, by decide +kernel, rfl, rfl, by decide +kernel, by decide +kernel,
   ⟨rfl, rfl, rfl, rfl, rfl, rfl⟩, ⟨rfl, rfl, rfl, rfl, rfl, rfl⟩⟩

/-! ProgramsStartAndSettingOps -/

theorem test_setting_ops : Resident (stWith (admin 0x86 0x02000003 0)) 0 0x86 4 (admin 0x86 0x02000003 0) ∧
    Resident (stWith (admin 0x87 0x02000003 40)) 0 0x87 4 (admin 0x87 0x02000003 40) ∧ accessCheck (stWith (admin 0x87 0x02000003 40)) 0x02000003 (some 40) = none ∧
    Resident (stWith (admin 0x95 4 8)) 0 0x95 4 (admin 0x95 4 8) ∧ (logPage State.reset 4).map List.length = some 384 ∧ logPage State.reset 9 = none :=
  ⟨⟨rfl, rfl, rfl, rfl, rfl, rfl⟩, ⟨rfl, rfl, rfl, rfl, rfl, rfl⟩, by decide +kernel, ⟨rfl, rfl, rfl, rfl, rfl, rfl⟩, by decide +kernel, by decide +kernel⟩
theorem test_set_done : norWriting (stWith { admin 0x87 0x02000003 40 with snap := 1 }) 0x05 0x02000003 = false := by decide +kernel

/-! RingOperations -/

theorem test_ring_ops : Resident (ringSt [admin 0x80 0 0]) 0 0x80 4 (admin 0x80 0 0) ∧
    lowest (fun k => (getRing (ringSt []) k).isNone) 6 1018 = some 6 ∧
    ringBusy (ringSt [{ admin 0x81 0 0 with src := .sideband }]) 0 = false ∧
    Resident (ringSt [admin 0x81 0 0]) 0 0x81 4 (admin 0x81 0 0) ∧ Resident (ringSt [admin 0x82 0 0]) 0 0x82 4 (admin 0x82 0 0) ∧
    getLocal (ringSt []) 0 0 = some demoRing ∧ selFn (admin 0x82 0 0) = 0 ∧ Resident (ringSt [admin 0x92 2 0]) 0 0x92 4 (admin 0x92 2 0) :=
  ⟨⟨rfl, rfl, rfl, rfl, rfl, rfl⟩, by decide +kernel, by decide +kernel, ⟨rfl, rfl, rfl, rfl, rfl, rfl⟩, ⟨rfl, rfl, rfl, rfl, rfl, rfl⟩, rfl, by decide +kernel, ⟨rfl, rfl, rfl, rfl, rfl, rfl⟩⟩
theorem test_reset_ends : getRing (resetting []) 7 = some resetRing ∧ resetRing.rst.map RingReset.byCtx = some (some 0) ∧ resetRing.loc ≠ 0 ∧
    ringBusy (resetting [admin 0x82 0 0]) 7 = false ∧ resetRing.rst.map (resetWaits (resetting [{ admin 0x82 0 0 with snap := 1 }])) = some false ∧ getCtx (resetting [admin 0x82 0 0]) 0 = some (admin 0x82 0 0) := by decide +kernel
theorem test_abort_targets : abortTarget (ringSt [admin 0x83 0 0]) (admin 0x83 0 0) = none ∧
    abortTarget (ringSt [abortOf, victim]) abortOf = some victim ∧ committed (ringSt []) victim = false ∧
    committed (ringSt []) { victim with commitBeat := some 9 } = true ∧ getCtx (ringSt [abortOf, victim]) victim.c = some victim := by decide +kernel

/-! RegisterAccess -/

theorem test_register_state : getFn (ringSt []) 0 = some demoFn ∧ bar0Dark (ringSt []) 0x1014 = true ∧ bar0Dark (ringSt []) 0x110 = false ∧
    lowHalf 0x110 = true ∧ lowHalf 0x100 = false ∧ lowHalf (0x100 - 4) = false ∧ bar0Dark (ringSt []) 0x100 = false := by decide +kernel
theorem test_magic_reads : readDword (ringSt []) demoFn 0 = 0x5A484D53 ∧ readDword (ringSt []) demoFn 4 = 0x005A9160 := by decide +kernel
theorem test_latched : Assoc.get ({ demoFn with hiLatch := [(0x110, 7)] } : HostFn).hiLatch (0x114 - 4) = some 7 := by decide +kernel
theorem test_gevent_clears : ((exec (.geventWrite 0 6 0 none) { ringSt [] with fns := [{ demoFn with gevent := 0x0F }] } matches .next _) = true) := by decide +kernel

/-! DoorbellsAndVectors -/

theorem test_doorbell_state : getLocal (noonSt []) 0 0 = some demoRing ∧ getRing (noonSt []) demoRing.g = some demoRing ∧ demoRing.st = .active ∧
    0 < fnLimit (noonSt []) 0 ∧ getLocal (noonSt []) 0 1 = none ∧ 1 < fnLimit (noonSt []) 0 ∧ bar0Dark (noonSt []) 0x100004 = false ∧
    demoRing.sqSize = 64 ∧ demoRing.unconsumed = 0 ∧ (0 + demoRing.cqSize - demoRing.cqHead) % demoRing.cqSize = 0 := by decide +kernel
theorem test_vector_state : vecFn.pba.contains 3 = true ∧ vecFn.writable = true ∧ 3 < vecFn.vectors ∧ (vecFn.msix 2).masked = false ∧
    max ({ demoRing with pend := 1, vector := 2 } : Ring).coalCount 1 ≤ 1 := by decide +kernel

/-! AdminRingControl -/

theorem test_aring_state : bar0Dark (noonSt []) 0x1014 = false ∧ fnFunc 0 = 0 ∧ aringResetting (noonSt []) 0 = false ∧ demoFn.aringEn = false ∧
    bits (0x46 : Nat) 3 0 = 6 ∧ bits (0x46 : Nat) 7 4 = 4 ∧ bits (0x46 : Nat) 26 16 = 0 ∧ (noonSt []).day.day ≠ .dawn ∧
    ({ demoFn with aringReadyAt := some 3 } : HostFn).aringReadyAt = some 3 ∧ getLocal (noonSt []) 0 0 = some demoRing ∧ (noonSt []).ctxs = [] := by decide +kernel

/-! HostLinksComeAndGo -/

theorem test_links : (getLink (upSt) 0).st = 2 ∧ (getFn upSt 0).isSome = true ∧ (getLink upSt 1).st = 0 ∧ (getLink upSt 2).st = 2 ∧ getFn upSt 128 = none ∧
    (getLink upSt 0).vfEnable = false ∧ (getLink { upSt with links := vset upSt.links 4 { HostLink.init with st := 2 } } 4).st = 2 ∧
    getFn upSt 256 = none ∧ getFn upSt 192 = none := by decide +kernel
theorem test_may_train : mayTrain trainSt 2 = true ∧ (getLink trainSt 2).st < 2 ∧ linkHasFns trainSt 2 = false ∧ widthOk trainSt 2 16 = true ∧
    bits (nvVal trainSt 0x0A000003) 5 3 ≤ 5 ∧ (getLink trainSt 0).perst = true ∧ (getLink trainSt 4).usbEntered = true ∧ linkHasFns trainSt 4 = false := by decide +kernel
theorem test_usb_and_vfs : bit (nvVal { trainSt with nv := [(0x0A000004, 3)] } 0x0A000004) 0 = true ∧
    bits (field [0x08, 0x10, 0, 0, 0, 0x20] 0 2) 4 0 = 8 ∧ bits (field [0x08, 0x10, 0, 0, 0, 0x20] 0 2) 14 12 = 1 ∧
    bits (field [0x08, 0x10, 0, 0, 0, 0x20] 2 4) 30 28 = 2 ∧ 0 ≤ totalVfs upSt 0 := by decide +kernel

/-! FunctionPowerAndReset -/

theorem test_d3_state : let x : Ctx := { demo 0 with wait := .fixed, status := St.aborted }
    let s := noonSt [x]
    getFn s 0 = some demoFn ∧ getRing s 0 = some demoRing ∧ demoRing.fn = 0 ∧ getCtx s 0 = some x ∧ postBlocked s x = false ∧ durable s x = true := by decide +kernel
theorem test_reset_state : 2 ≤ (getLink upSt (fnLink 0)).st ∧ upSt.plan.fetched = [] ∧ (resetSet upSt 0).contains 0 = true ∧ demoRing.rst = none ∧
    demoFn.resetBy = none ∧ fnBusy upSt 0 = false ∧ upSt.ctxs = [] ∧ fnFunc 0 = 0 ∧ fnFunc 3 ≠ 0 ∧ (getLink upSt 0).vfEnable = false := by decide +kernel
theorem test_func_reset : Resident (noonSt [admin 0x84 0 0]) 0 0x84 4 (admin 0x84 0 0) ∧ getFn (noonSt []) (selFn (admin 0x84 0 0)) = some demoFn :=
  ⟨⟨rfl, rfl, rfl, rfl, rfl, rfl⟩, by decide +kernel⟩
theorem test_stopped : ({ demo 0 with stopping := true } : Ctx).wait ≠ .fixed ∧ settingNv (setArgs (demo 0)).1 = false ∧ (demo 0).entry.isProg = true := by decide +kernel

/-! ModuleReset -/

theorem test_module_reset : Resident (noonSt [admin 0x85 0 0]) 0 0x85 4 (admin 0x85 0 0) ∧ (noonSt [admin 0x85 0 0]).ctxs = [admin 0x85 0 0] ∧
    (noonSt []).plan.resetFlush = false ∧ (noonSt []).power.llAt = none ∧ (noonSt []).therm.hotAt = none ∧ (noonSt []).sec.tamperAt = none :=
  ⟨⟨rfl, rfl, rfl, rfl, rfl, rfl⟩, rfl, rfl, rfl, rfl, rfl⟩

/-! MoverEngines -/

theorem test_engine_state : engineOwners (noonSt []) 1 = [] ∧ engineBooked (noonSt []) 1 10 2 = [] ∧ 17 / 16 = 1 ∧ (getEngine (noonSt []) 1).spare = true ∧
    (getEngine (engSt .restarting) 1).st = .restarting ∧ (getEngine (engSt .restarting) 1).resumeAt ≤ 10 ∧ (getEngine (engSt .stopped) 1).quarantine ≠ 0 ∧
    (getEngine (engSt .stopped) 1).spare = false ∧ vget (engSt .running).movers.pacer 2 false = true := by decide +kernel

/-! PlannerDecisions -/

theorem test_hold_state : getRing holdSt 0 = some holdRing ∧ holdRing.held.isSome = true ∧ 1 + nvVal holdSt 0x02000007 ≤ holdSt.beat ∧
    compsFull holdSt = false ∧ holdRing.hold = true ∧ getFn holdSt 0 = some demoFn ∧ holdRing.rst = none := by decide +kernel
theorem test_fetch_state : ((noonSt []).updPlan fun p => { p with fetching := [⟨0, 2⟩] }).plan.fetching.find? (fun f => f.ring % 1024 == 0 && f.idx == 2) = some ⟨0, 2⟩ ∧
    (fetchedData (List.replicate 64 0) [] []).isSome = true := by decide +kernel
theorem test_check_fails : (checks (noonSt []) demoRing.origin { entry := { demoEntry with typ := 9 }, segs := [], code := none }).map Refuse.status = some St.badEntry := by
  decide +kernel
theorem test_cycle_drains : let s := (noonSt []).updDay fun d => { d with day := .night, sealed := some 2 }
    serving s = false ∧ s.day.sealed.isSome = true ∧ s.day.fatal = false := by decide +kernel
theorem test_cycle_idle : serving State.reset = false ∧ State.reset.day.sealed = none ∧ serving (noonSt []) = true ∧ (noonSt []).plan.stopped = false := by decide +kernel
theorem test_nothing_fails : checks (noonSt []) demoRing.origin getData = none := by decide +kernel
theorem test_room_taken : (match decideRoom (noonSt []) demoRing.origin getData with | .take _ _ => true | .cause _ => false) = true := by decide +kernel
theorem test_cause_held : ∃ (w : Cycle) (o : Origin) (d : EntryData) (st : BitVec 16) (g : Nat) (r : Ring), checks w.st o d = none ∧ decideRoom w.st o d = .cause st ∧
    st ≠ St.noSpace ∧ o.src = .ring g ∧ getRing w.st g = some r ∧ r.hold = true ∧ r.st = .active :=
  ⟨{ st := fullSt, fetches := 0, admits := 0, stop := false }, holdRing.origin, { entry := libUnload, segs := [], code := none }, St.writeWindow, 0, holdRing,
   by decide +kernel, by rfl, by decide +kernel, rfl, by decide +kernel, rfl, rfl⟩

/-! TimePasses -/

/-- Midnight: always-on power, no core clock. -/
def darkSt : State := let s := noonSt []; { s with day := { s.day with day := .midnight, hostOn := false }, power := { s.power with aonPowered := true } }
theorem test_tick_states : (lit (noonSt [])).power.aonPowered = true ∧ coreClock (lit (noonSt [])) = true ∧ (lit (noonSt [])).day.pendReq = none ∧
    (lit (noonSt [])).plan.resetAfter = false ∧ (lit (noonSt [])).due = [] ∧ (lit (noonSt [])).care.cond = [] ∧ (∀ k < 16, (getOct (lit (noonSt [])) k).toDrain = false) ∧ (∀ u < 2, (getLink (lit (noonSt [])) (4 + u)).st < 2) ∧ coreClock darkSt = false ∧ hotStopped darkSt = false ∧
    darkSt.power.aonPowered = true := by decide +kernel

/-! DeadlinesPass -/

/-- A D7 context past its internal D, and a D1 write that waits for the twin. -/
def d7Ctx : Ctx := { direct 0x01 0 with dOpen := true, dline := 5 }
def d1Ctx : Ctx := { direct 0x02 0 with entry := { (direct 0x02 0).entry with cls := 1 }, mirrorWait := [4], wait := .posting }
/-- A gather slot of context 0 written through, not verified. -/
def throughSlot : GatherSlot := { demoSlot with owner := 0, through := true }
theorem test_dark_deadline : tookDark ((stWith (waiting 0)).updXlat fun x => { x with gather := [{ throughSlot with dark := true }] }) (waiting 0) = true ∧
    tookDark (stWith (demo 0)) (demo 0) = false ∧ awaitsTwin (stWith (waiting 0)) (waiting 0) = false ∧
    (let s := (stWith d1Ctx).updTwin fun t => { t with st := .paired, hbStopped := false, takeoverAt := none }
     awaitsTwin s d1Ctx = true ∧ durable s { d1Ctx with mirrorWait := [] } = true ∧ durable s d1Ctx = false) := by decide +kernel
theorem test_deadlines : getCtx (stWith { demo 0 with dline := 9 }) 0 = some { demo 0 with dline := 9 } ∧ unverified (stWith (demo 0)) (demo 0) = [] ∧
    (demo 0).entry.isProg = true ∧ unverified ((stWith (waiting 0)).updXlat fun x => { x with gather := [throughSlot] }) (waiting 0) = [4100] ∧
    (waiting 0).wait = .instr ∧ readsDone (waiting 0) = true ∧ d7Ctx.entry.isProg = false ∧ (admin 0x8C 0 0).wait = .resident ∧ d7Ctx.wait ≠ .posting ∧ d7Ctx.reads.filter (unqueued (stWith d7Ctx) d7Ctx) = [] ∧
    mirroring ((stWith d1Ctx).updTwin fun t => { t with st := .paired, hbStopped := false, takeoverAt := none }) = true ∧ d1Ctx.admBeat + 7 ≤ 10 := by decide +kernel

/-! ArrayOutcomes -/

/-- An operation of die 2 on block 7, its occupancy over. -/
def demoOp (k : ArrayKind) : ArrayOp :=
  { kind := k, block := 7, page := 0, start := 1, busy := 2, dline := 90, susps := [], owner := 0, reset := false, care := false }
/-- Die 2 with these operations. -/
def dieSt (l : List ArrayOp) : State := (stWith (demo 0)).updFlash fun f => { f with dies := [{ Die.init with d := 2, ready := true, ops := l }] }
/-- A program of die 2 whose suspend issues in beat 10. -/
def suspOp : ArrayOp := { demoOp .program with busy := 20, susps := [{ at_ := 10, resume := 14, cycle := 0 }] }
theorem test_suspending : suspending (dieSt [suspOp]) { Die.init with d := 2, ready := true, ops := [suspOp] } = some (suspOp, { at_ := 10, resume := 14, cycle := 0 }) ∧
    suspending (dieSt []) { Die.init with d := 2, ready := true, ops := [demoOp .read] } = none := by decide +kernel
theorem test_die_state : dueOp { Die.init with d := 2, ready := true, ops := [demoOp .read] } = some (demoOp .read) ∧
    (demoOp .read).start + (demoOp .read).busy ≤ (dieSt []).beat ∧ (dieSt [demoOp .erase]).care.worn = false ∧ (getBlock (dieSt []) (blockIdx 2 7)).candidate = false ∧
    nvVal (dieSt []) 0x0700001D = 0 ∧ (demoOp .erase).start + 4 * (demoOp .erase).occ ≤ (dieSt []).beat ∧ (demoOp .erase).also = [] ∧ (Die.init).resetAt = none := by decide +kernel
/-- CARE_READ_CHECK and CARE_READ_LIMIT of zero. -/
def noChecks : State := storeNv (storeNv (dieSt [demoOp .read]) 0x07000016 0) 0x07000017 0
theorem test_no_checks : stored noChecks 0x07000016 = 0 ∧ stored noChecks 0x07000017 = 0 := by decide +kernel

/-! DecodedSlots -/

/-- A CLOSED band of one column, block 7 of die 2. -/
def demoBand : Band :=
  { serial := 5, bandId := 5, st := .closed, profile := 2, system := false, refresh := false, failed := false, dark := false, cold := false, wl := false, lowSeq := 1, closeBeat := 2, valid := 0, capacity := 100, ageClose := 0, columns := [(2, 7)], cell := .slc, nextPage := 3, summary := true, acc := none }
/-- The slot of granule 4096 of namespace 1 at its first place. -/
def demoRec : SlotRec := { blankSlot .data with lba := 4096, nsid := 1, flags := 1, bandId := 5, seq := 1 }
/-- A context that waits for it. -/
def readWait : Ctx := { demo 0 with wait := .instr, reads := [{ gran := 4096, loc := .media (mkPsa 2 7 0 0), slots := [.waiting], bytes := [], tag := 0 }] }
/-- The state they are in, with granule 4096 under deep recovery. -/
def mediaSt (l : List Ctx) : State :=
  let s := dieSt []
  { s with ctxs := l, media := { s.media with bands := [demoBand], slots := [(mkPsa 2 7 0 0, demoRec)] }, xlat := { s.xlat with map := [(4096, .media (mkPsa 2 7 0 0))], deep := [{ idx := 4096, nsid := 1, gran := 4096, psa := mkPsa 2 7 0 0, since := 1 }], gather := [demoSlot] } }
theorem test_slot_ready : Assoc.get (mediaSt [readWait]).media.slots (mkPsa 2 7 0 0) = some demoRec ∧ nvVal (mediaSt []) 0x06000008 < 30000 ∧
    aroundPlaces (mediaSt [readWait]) = [] ∧ (mediaSt [readWait]).media.tries = [] ∧ readingSlots (mediaSt []) (· == mkPsa 2 7 0 0) = [] ∧
    readingSlots (mediaSt [readWait] |>.updXlat fun x => { x with deep := [] }) (· == mkPsa 2 7 0 0) = [(0, 4096, 0)] ∧
    placeCheck (useKey (mediaSt [readWait]) 1 0) (mkPsa 2 7 0 0) demoRec = true ∧ requestCheck (useKey (mediaSt [readWait]) 1 0) 0 4096 0 demoRec = true := by
  decide +kernel
theorem test_care_read : let e : CareRead := { psa := mkPsa 2 7 0 0, use := .patrol, stage := 0, booked := true, target := 0 }
    (((mediaSt []).updCare fun c => { c with reads := [e] }).care.reads.find? fun e => e.psa == mkPsa 2 7 0 0 && e.use != .deep && e.booked && !e.done && decide (e.stage ≤ 2)) = some e ∧
    demoRec.gone = false := by decide +kernel
theorem test_deep_state : (mediaSt []).xlat.deep.find? (fun k => k.idx == 4096) = some { idx := 4096, nsid := 1, gran := 4096, psa := mkPsa 2 7 0 0, since := 1 } ∧
    mapIdx demoNs 4096 = 4096 ∧ mapGet (mediaSt []) 4096 = .media (mkPsa 2 7 0 0) ∧ (mediaSt []).xlat.unrecov.contains 4096 = false ∧
    copyPending (mediaSt []) (mkPsa 2 7 0 0) = false ∧ (mediaSt []).therm.window = false ∧ (mediaSt []).day.sealed = none ∧
    columnDark { mediaSt [] with media := { (mediaSt []).media with bands := [] } } (mkPsa 2 7 0 0) = false := by decide +kernel

/-! CareWork -/

/-- The demo band as a victim on a usable die, within the write window; its block BANDED. -/
def victimSt (st : BandSt) : State :=
  let s := mediaSt []
  let u := modChan (modOct (noonSt []) 0 fun o => { o with st := .live }) 0 fun c => { c with svc := 1 }
  let f := { u.flash with dies := s.flash.dies }
  { s with flash := f, media := { s.media with bands := [{ demoBand with st := st }] }, care := { s.care with blocks := [(blockIdx 2 7, { Block.init with st := .banded })] }, therm := { s.therm with window := true }, day := u.day }
theorem test_victim : getBand (victimSt .victim) 5 = some { demoBand with st := .victim } ∧ bandPinned (victimSt .victim) demoBand = false ∧ sysHeld (victimSt .victim) demoBand = false ∧
    (getBlock (victimSt .victim) (blockIdx 2 7)).st = .banded ∧ dieUsable (victimSt .victim) 2 = true ∧ (victimSt .victim).therm.window = true ∧ careRuns (victimSt .victim) = true := by decide +kernel
theorem test_wear_state : leastBy (bandPe (mediaSt [])) ((mediaSt []).media.bands.filter fun b => b.st == .closed) = some demoBand ∧
    2 ^ 20 ≤ 2 ^ 21 - (mediaSt []).care.wlChecked := by decide +kernel
theorem test_patrol_states : (mediaSt []).care.passLeft = 0 ∧ (mediaSt []).care.reads = [] ∧ (mediaSt []).care.pass = 0 ∧ careRuns (noonSt []) = true ∧ 2048 % 1024 = 0 ∧
    careRuns State.reset = false ∧ (noonSt []).day.day ≠ .midnight ∧ (noonSt []).day.day ≠ .dawn ∧ State.reset.day.day = .dawn := by decide +kernel

/-! MapLinesAndCheckpoints -/

theorem test_lines : lineNs (noonSt []) 7 = some demoNs ∧ lineCached (noonSt []) 7 = false ∧ lineGood (noonSt []) 7 = true ∧ fillWay (noonSt []) (lineSet 7) = some 0 ∧ 0 ≤ 7 ∧
    lineNs (noonSt []) 99999 = none := by decide +kernel
theorem test_line_bad : lineNs (modNs (noonSt []) 1 fun n => { n with initLines := 8 }) 7 = some { demoNs with initLines := 8 } ∧
    lineCached (modNs (noonSt []) 1 fun n => { n with initLines := 8 }) 7 = false := by decide +kernel
theorem test_ckpt : ckptDue (noonSt []) = false ∧ (noonSt []).xlat.ck = none ∧ ckptDue ((noonSt []).updXlat fun x => { x with ckWant := true }) = true ∧
    (noonSt []).care.recWrite = none ∧ ckptPlaced (noonSt []) { gen := 1, nextLine := 2 ^ 40, rate := 1, beginJpos := 0, written := 32 } = true ∧
    bandsVerified (noonSt []) [] = true := by decide +kernel
/-- Dawn at step 5; with a namespace recorded and an anchor whose journal is lost. -/
def dawn5 : State := let s := lit (noonSt []); { s with day := { s.day with day := .dawn, step := 5 } }
def lost5 : State := dawn5.updXlat fun x => { x with journal := [{ jpos := 0, seq := 0, recs := [] }] }
theorem test_recovery : dawnAt dawn5 5 = true ∧ (recoverMap dawn5 []).isSome = true ∧ dawnAt lost5 5 = true ∧ (recoverMap lost5 []).isNone = true ∧
    dawnAt (noonSt []) 5 = false := by decide +kernel

/-! NamespaceCommands -/

/-- A resident NS_CREATE of namespace 2, 4,096 granules, and a state with room for it. -/
def createCtx : Ctx := { admin 0x88 4096 0 with entry := { (admin 0x88 4096 0).entry with nsid := 2 } }
def roomSt (l : List Ctx) : State := (storeNv (noonSt l) 0x06000010 2).updXlat fun x => { x with physLimit := 2 ^ 40 }
/-- A key with unequal halves. -/
def demoKey : List Byte := List.replicate 32 1 ++ List.replicate 32 2
theorem test_create_fails : Resident (noonSt [createCtx]) 0 0x88 4 createCtx ∧ createFails (noonSt [createCtx]) createCtx = some (St.range, 6) :=
  ⟨⟨rfl, rfl, rfl, rfl, rfl, rfl⟩, by decide +kernel⟩
theorem test_create_room : createFails (roomSt [createCtx]) createCtx = none ∧ keyOk demoKey = true ∧ { createCtx with snap := 2 }.snap ≠ 0 ∧
    norWriting (roomSt [createCtx]) 0x0D (recKey 2 2) = false := by decide +kernel
theorem test_delete : Resident (noonSt [admin 0x89 0 0]) 0 0x89 4 (admin 0x89 0 0) ∧ ctxNs (noonSt [admin 0x89 0 0]) (admin 0x89 0 0) = some demoNs :=
  ⟨⟨rfl, rfl, rfl, rfl, rfl, rfl⟩, by decide +kernel⟩

/-! LibraryCommands -/

theorem test_lib : Resident (noonSt [admin 0x8A 300 0]) 0 0x8A 4 (admin 0x8A 300 0) ∧ Resident (noonSt [admin 0x8B 300 0]) 0 0x8B 4 (admin 0x8B 300 0) ∧
    libPinned (noonSt []) 300 = false ∧ libCalled (noonSt []) 300 = false :=
  ⟨⟨rfl, rfl, rfl, rfl, rfl, rfl⟩, ⟨rfl, rfl, rfl, rfl, rfl, rfl⟩, by decide +kernel, by decide +kernel⟩
/-- An image of one word, POST G0 with status 0, and the context that loads it. -/
def tinyImage : List Byte := leBytes 4 0x3149435A ++ leBytes 60 1 ++ leBytes 4 (0x01 * 2 ^ 26)
def loadCtx : Ctx := { admin 0x8A 300 0 with entry := { (admin 0x8A 300 0).entry with dcount := 68 } }
/-- What it is verified against. -/
def loadEnv : VerifyEnv := { own := some 300, admin := false, raw := rawAllowed (noonSt [loadCtx]), limit := some 4194304, noAdminDecl := false }
theorem test_lib_load : Resident (noonSt [loadCtx]) 0 0x8A 4 loadCtx ∧ hostInDone (noonSt [loadCtx]) loadCtx (dBytes loadCtx) tinyImage = true ∧
    hostInDone (noonSt [loadCtx]) loadCtx (dBytes loadCtx) [] = false ∧ loadCtx.snap = 0 ∧ bit (codeOfBytes (hostIn loadCtx 0 68 tinyImage)).dmode 2 = false ∧
    verify (noonSt [loadCtx]) loadEnv (codeOfBytes (hostIn loadCtx 0 68 tinyImage)) = none ∧
    (verify (noonSt [loadCtx]) loadEnv (codeOfBytes (hostIn loadCtx 0 68 (List.replicate 68 0)))).isSome = true :=
  ⟨⟨rfl, rfl, rfl, rfl, rfl, rfl⟩, by decide +kernel, by decide +kernel, rfl, by decide +kernel, by decide +kernel, by decide +kernel⟩

/-! KeyCommands -/

theorem test_key_commands : Resident (noonSt [admin 0x90 0 0]) 0 0x90 4 (admin 0x90 0 0) ∧ Resident (noonSt [admin 0x8F 0 0]) 0 0x8F 4 (admin 0x8F 0 0) ∧
    Resident (noonSt [admin 0x8E 0 0]) 0 0x8E 4 (admin 0x8E 0 0) ∧ Resident (noonSt [admin 0x91 1 0]) 0 0x91 4 (admin 0x91 1 0) ∧ (admin 0x8F 0 0).aux = [] :=
  ⟨⟨rfl, rfl, rfl, rfl, rfl, rfl⟩, ⟨rfl, rfl, rfl, rfl, rfl, rfl⟩, ⟨rfl, rfl, rfl, rfl, rfl, rfl⟩, ⟨rfl, rfl, rfl, rfl, rfl, rfl⟩, rfl⟩
theorem test_import_fails : importKey (noonSt []) 1 (List.replicate 1184 0) = .inl (St.range, 3) ∧ hostInDone (noonSt [admin 0x8F 0 0]) (admin 0x8F 0 0) 1184 (List.replicate 1184 0) = true ∧
    logicDark (noonSt []) = false ∧ hostInDone (noonSt [admin 0x8E 0 0]) (admin 0x8E 0 0) 32 (List.replicate 32 0) = true ∧ hostReach (noonSt [admin 0x8E 0 0]) (admin 0x8E 0 0) = true := by decide +kernel

/-! FirmwareCommands -/

/-- A download context with its transfer under way. -/
def dlCtx (a0 : BitVec 64) : Ctx := { admin 0x8C a0 0 with snap := 1 }
theorem test_download : Resident (noonSt [admin 0x8C 0 0]) 0 0x8C 4 (admin 0x8C 0 0) ∧ Resident (noonSt [dlCtx 8192]) 0 0x8C 4 (dlCtx 8192) ∧
    blockFault (noonSt [admin 0x8C 0 0]) (admin 0x8C 0 0) = none ∧ blockFault (noonSt []) (admin 0x8C 4 0) = some (St.range, 2) ∧
    hostInDone (noonSt []) (dlCtx 0) 8192 [] = false :=
  ⟨⟨rfl, rfl, rfl, rfl, rfl, rfl⟩, ⟨rfl, rfl, rfl, rfl, rfl, rfl⟩, by decide +kernel, by decide +kernel, by decide +kernel⟩
theorem test_activate : Resident (noonSt [admin 0x8D 0 0]) 0 0x8D 4 (admin 0x8D 0 0) ∧ ((noonSt []).updNor fun n => { n with activating := some (0, 1) }).nor.activating = some (0, 1) ∧
    norWriting (noonSt []) 0x01 0 = false ∧ dBytes (dlCtx 0) = 8192 := ⟨⟨rfl, rfl, rfl, rfl, rfl, rfl⟩, rfl, rfl, by decide +kernel⟩
/-- Zeros written into no bytes leave no bytes. -/
theorem writeN_zeros (n a : Nat) : Mem.writeN [] a (List.replicate n 0) = [] := by
  induction n generalizing a with
  | zero => rfl
  | succ n ih => exact ih (a + 1)
/-- The staging bank with a block that is no manifest. -/
def noImage : State :=
  (modImage (endTransfer (commitNow (noonSt [dlCtx 0]) 0) 0 false 8192) (stageBank (noonSt [dlCtx 0])) fun i => { i with bytes := Mem.writeN [] 0 (List.replicate 8192 0) }).updNor fun m =>
    { m with progRefused := satAdd m.progRefused 0 }
/-- Over erased words, and over words left by an interrupted attempt. -/
theorem test_program_over : programOver (List.replicate 16 0xFF) (List.replicate 16 3) = (List.replicate 16 3, 0) ∧
    programOver (List.replicate 8 2 ++ List.replicate 8 7) (List.replicate 16 3) = (List.replicate 8 2 ++ List.replicate 8 3, 1) := by decide +kernel
theorem test_no_manifest : manifestFault noImage (stageBank (noonSt [dlCtx 0])) = some 1 := by
  unfold noImage
  rw [writeN_zeros]
  decide +kernel
theorem test_block_arrived : hostInDone (noonSt [dlCtx 0]) (dlCtx 0) 8192 (List.replicate 8192 0) = true := by
  simp only [hostInDone, List.length_replicate, decide_true]
  decide +kernel

/-! FirmwareEvents -/

/-- Entries being written, and an activation at a step. -/
def norEntry (k : Nat) : NorEntry := { eseq := 3, typ := k, key := 1, sector := 0, value := leBytes 72 9 }
def norSt (l : List NorEntry) : State := (noonSt [admin 0x8D 0 0]).updNor fun n => { n with writing := l, erasing := some (0, 770) }
def actSt (k n : Nat) : State := (noonSt [admin 0x8D 0 0]).updNor fun m => { m with activating := some (0, k), restarted := n, stage := .verified }
theorem test_nor_states : (norSt [norEntry 5]).nor.writing = norEntry 5 :: [] ∧ (norEntry 5).typ ≠ 7 ∧ (norSt []).nor.sysUsed.length < 240 ∧
    (norSt []).nor.dlBusy = none ∧ (norSt []).nor.erasing = some (0, 770) ∧ (norSt []).nor.log.any (fun e => e.typ == 0x09 && e.key == eraseKey 1 770) = false := by decide +kernel
theorem test_act_states : norWriting (actSt 3 0) 0x01 0 = false ∧ (actSt 5 7).nor.restarted = 7 ∧ (actSt 5 2).nor.activating = some (0, 5) ∧
    vget (noonSt []).mem.servHalted 2 false = false ∧ (noonSt []).nor.stage ≠ .verified := by decide +kernel

/-! TamperAndSecuritySettings -/

/-- A SET_SETTING of an ID to a value, durable and waiting for its own step. -/
def setWait (id v : BitVec 64) : Ctx := { admin 0x87 id v with snap := 1 }
/-- A rotation that acts. -/
def rotSt : State := (noonSt []).updSec fun k => { k with rotate := 1 }
theorem test_waits_set : waitsSet (noonSt [setWait 0x12000002 1]) 0 0x12000002 1 = some (setWait 0x12000002 1, 0, 1) ∧
    waitsSet (noonSt [setWait 0x12000010 6292]) 0 0x12000010 1 = some (setWait 0x12000010 6292, 0, 6292) ∧
    waitsSet (noonSt [setWait 0x1200000D 1]) 0 0x1200000D 1 = some (setWait 0x1200000D 1, 0, 1) ∧
    waitsSet (noonSt [setWait 0x1200000E 1]) 0 0x1200000E 1 = some (setWait 0x1200000E 1, 0, 1) ∧
    waitsSet (noonSt [setWait 0x1200000B 1]) 0 0x1200000B 1 = some (setWait 0x1200000B 1, 0, 1) ∧ epochsAhead (noonSt []) = 0 ∧
    (noonSt []).sec.life = .sealed ∧ waitsSet (rotSt) 0 0x1200000B 1 = none ∧ rotSt.sec.rotate ≠ 0 ∧ rotSt.sec.rotKey = none := by decide +kernel
theorem test_tamper : tamperWatched (lit (noonSt [])) 3 = true ∧ tamperWatched (noonSt []) 7 = false ∧ (noonSt []).sec.tamperAt = none ∧
    (lit (noonSt [])).power.aonPowered = true ∧ (noonSt []).day.day ≠ .midnight ∧ (noonSt []).power.lost = false := by decide +kernel

/-! ManagementPackets -/

/-- A packet of a state: destination endpoint, flags, payload. -/
def packet (s : State) (dst fl : Byte) (b : List Byte) : List Byte :=
  let h := [BitVec.ofNat 8 (2 * smbAddr s), 0x0F, BitVec.ofNat 8 (b.length + 5), 0x21, 1, dst, 8, fl] ++ b
  h ++ [pec h]
/-- noonSt with power, endpoint 9, an alert, and a message begun. -/
def sideSt (asm : Bool) : State := (lit (noonSt [])).updSide fun x => { x with eid := 9, alert := true, asmOn := asm, asmKey := 128, asmSeq := 0 }
theorem test_packets : packetOk (sideSt false) (packet (sideSt false) 9 0x80 [1, 2]) = true ∧ packetOk (sideSt false) [1, 2, 3] = false ∧
    field (packet (sideSt false) 9 0x80 [1, 2]) 5 1 = 9 ∧ bit (field (packet (sideSt false) 9 0x80 [1]) 7 1) 7 = true ∧ (sideSt true).side.asmOn = true ∧
    packetOk (sideSt true) (packet (sideSt true) 9 0x40 [1]) = true ∧ packetOk (sideSt true) (packet (sideSt true) 5 0x40 [1]) = true ∧ (sideSt true).side.eid = 9 ∧
    bit (field (packet (sideSt true) 9 0x40 [1]) 7 1) 6 = true ∧ (sideSt true).power.aonPowered = true ∧ (sideSt true).side.alert = true ∧
    packetOk (sideSt true) (packet (sideSt true) 9 0 [1]) = true ∧ packetKey (packet (sideSt true) 9 0 [1]) = 128 ∧ packetSeq (packet (sideSt true) 9 0 [1]) = 0 ∧
    packetKey (packet (sideSt true) 9 0x40 [1]) = 128 ∧ packetSeq (packet (sideSt true) 9 0x40 [1]) = 0 ∧ packetOk (sideSt true) (packet (sideSt true) 9 0x41 [1]) = true ∧
    packetKey (packet (sideSt true) 9 0x41 [1]) ≠ 128 ∧ packetOk (sideSt true) (packet (sideSt true) 9 0x50 [1]) = true ∧
    packetSeq (packet (sideSt true) 9 0x50 [1]) ≠ 0 := by decide +kernel

/-! MailboxRequests -/

/-- The body of an ADMIN request: a GET_SETTING entry without data. -/
def adminBody : List Byte := [4, 0x86, 0, 6] ++ List.replicate 60 0
theorem test_mailbox : deepDark (sideSt false) = false ∧ deepDark darkSt = true ∧ logicDark (sideSt false) = false ∧ adminForm adminBody = true ∧
    (sideSt false).side.adminBusy = false ∧ (logPage (sideSt false) 1).isSome = true ∧ (logPage (sideSt false) 9).isNone = true ∧
    nvVal (sideSt false) 0x0A00000A ≠ 0 ∧ nvVal (storeNv (sideSt false) 0x0A000009 1) 0x0A000009 ≠ 0 ∧ (sideSt false).plan.resetFlush = false ∧
    field (leBytes 4 0x7E5E7E5E) 0 4 = 0x7E5E7E5E ∧ (sideSt false).day.day = .noon ∧ darkSt.day.day = .midnight := by decide +kernel

/-! OctPowerUp -/

/-- noonSt with power, oct 2 requested and present; the oct at a phase. -/
def octSt (st : OctSt) (ph : Nat) : State :=
  let s := storeNv (lit (noonSt [])) 0x08000001 4
  modOct { s.updFlash fun f => { f with present := Vector.replicate 2 true } with beat := 30 } 2 fun o =>
    { o with st := st, phase := ph, phaseAt := if ph = 0 then 0 else 5, vccq := decide (1 < ph) }
theorem test_oct_start : (getOct (octSt .dark 0) 2).st = .dark ∧ octWanted (octSt .dark 0) 2 = true ∧ octPresent (octSt .dark 0) 2 = true ∧
    octsMayPower (octSt .dark 0) = true ∧ octLeaving (octSt .dark 0) 2 = false ∧ (getOct (octSt .dark 0) 2).fault = false ∧ octSwitched (octSt .dark 0) 2 = false ∧
    (octSt .dark 0).mem.testState ≠ 1 ∧ (getOct (octSt .dark 0) 2).hotHold = none ∧ (octSt .dark 0).day.sealed = none ∧ octWanted (octSt .dark 0) 3 = false := by decide +kernel
theorem test_oct_phases : (getOct (octSt .powering 4) 2).phase = 4 ∧ (getOct (octSt .powering 3) 2).downReq = false ∧ (getOct (octSt .powering 4) 2).seen.length < 127 ∧
    dieOct 300 = 2 ∧ (octSt .powering 3).beat = (getOct (octSt .powering 3) 2).phaseAt + 25 ∧ (getOct (octSt .powering 1) 2).phaseAt < (octSt .powering 1).beat ∧
    (octSt .powering 4).beat ≤ (getOct (octSt .powering 4) 2).phaseAt + 250 ∧ (getOct (octSt .powering 2) 2).vccq = true ∧ (getOct (octSt .powering 1) 2).vccq = false := by decide +kernel

/-! OctsGoDark -/

/-- Oct 2 in a state, channel 17 with a service state; a channel of it out of tune. -/
def chanSt (st : OctSt) (svc : Nat) : State :=
  let s := modChan (octSt st 0) 17 fun c => { c with svc := svc }
  { s with beat := 2 ^ 40 }
theorem test_draining : (getOct (chanSt .draining 1) 2).vccq = false ∧ octBusy (chanSt .draining 1) 2 = false ∧
    (getOct (modOct (chanSt .draining 1) 2 fun o => { o with vccq := true }) 2).vccq = true ∧ (getOct (chanSt .live 1) 2).st ≠ .dark ∧
    (getOct (modOct (chanSt .live 1) 2 fun o => { o with toDrain := true }) 2).toDrain = true := by decide +kernel
theorem test_train : (getChan (chanSt .live 2) 17).svc = 2 ∧ 17 / 8 = 2 ∧ chanBusy (chanSt .live 2) 17 = false ∧ (getOct (chanSt .live 2) 2).st = .live ∧ vget (chanSt .live 2).mem.chbufOut 17 false = false ∧
    (lowest (fun r => decide (nvVal (chanSt .live 2) 0x08000007 ≤ nth (List.replicate 7 200) r 0)) (firstRate (chanSt .live 2) 17 0) (7 - firstRate (chanSt .live 2) 17 0)).isSome = true ∧
    (lowest (fun r => decide (nvVal (chanSt .live 2) 0x08000007 ≤ nth [] r 0)) (firstRate (chanSt .live 2) 17 0) (7 - firstRate (chanSt .live 2) 17 0)).isNone = true := by decide +kernel
theorem test_recentre : recentreDue (chanSt .live 1) 17 = true ∧ nvVal (chanSt .live 1) 0x08000007 ≤ 200 ∧ 0 < nvVal (chanSt .live 1) 0x08000007 ∧
    (getChan (chanSt .live 0) 17).svc ≠ 1 := by decide +kernel

/-! Leases -/

/-- Oct 2 with a request and a grant; waiting for a retry. -/
def leaseSt (req gnt : Bool) : State := modOct { octSt .live 0 with beat := 2 ^ 40 } 2 fun o => { o with req := req, gnt := gnt, retryAt := some 5 }
theorem test_leases : (getOct (leaseSt true false) 2).req = true ∧ (leaseSt true false).twin.takeoverAt = none ∧ (getOct (leaseSt true true) 2).gnt = true ∧
    (getOct (leaseSt true false) 2).leaseAt + nvVal (leaseSt true false) 0x0800000C ≤ 2 ^ 40 ∧ leaseDue (leaseSt false false) 2 = false ∧
    leaseDue (modOct (leaseSt false false) 2 fun o => { o with switched := true }) 2 = true ∧ (getOct (octSt .live 0) 2).retryAt = none := by decide +kernel
theorem test_oct_sets : waitsSet (noonSt [setWait 0x08000001 5]) 0 0x08000001 1 = some (setWait 0x08000001 5, 0, 5) ∧
    waitsSet (noonSt [setWait 0x08000003 5]) 0 0x08000003 1 = some (setWait 0x08000003 5, 0, 5) := by decide +kernel
theorem test_takeover_grant : ∃ k, sided (leaseSt true false) = true ∧ octSideB (leaseSt true false) k ≠ (leaseSt true false).twin.side := ⟨15, by decide +kernel⟩
theorem test_takeover_ends : ∀ j < 16, j ≠ 2 → (getOct (leaseSt true false) j).req = false ∧ (getOct (leaseSt true false) j).gnt = false := by decide +kernel

/-! TwinFrames -/

/-- The punty link up in a twin state, namespace 1 of side A; this module of a side. -/
def pairSt (st : TwinSt) (side : Bool) : State :=
  (noonSt []).updTwin fun t => { t with st := st, lanes := 8, rxPseq := 3, side := side, hbStopped := false, takeoverAt := none, mirror := [{ demoSlot with atom := true, owner := 77 }] }
theorem test_fresh : Fresh (pairSt .syncing true) 4 ∧ puntyUp (noonSt []) = false :=
  ⟨⟨by decide +kernel, by decide +kernel⟩, by decide +kernel⟩
theorem test_twin_frames : getNs (pairSt .paired true) 1 = some demoNs ∧ demoNs.sideB ≠ (pairSt .paired true).twin.side ∧
    demoNs.sideB = (pairSt .paired false).twin.side ∧ freeGather (pairSt .paired false) 1 = some 0 ∧ (pairSt .syncing true).twin.st = .syncing ∧
    heldMembers (pairSt .paired true) 77 = [{ demoSlot with atom := true, owner := 77 }] ∧
    ([[2, 0, 1, 0] ++ leBytes 4 1 ++ leBytes 8 0 ++ leBytes 16 0].filterMap JRecord.ofBytes).length = 1 := by decide +kernel
/-- Side B while it creates namespace 1. -/
def yieldSt : State :=
  ((pairSt .paired true).updCtxs fun _ => [{ admin 0x88 1 0 with adm := 9 }]).updXlat fun x => { x with nss := [{ demoNs with sideB := true, creating := some 9 }] }
/-- An NS_CREATE record of the twin for namespace 1, and one for namespace 2 elsewhere. -/
def createRec (nsid line : Nat) : List Byte := [3, 0] ++ leBytes 2 nsid ++ leBytes 4 0 ++ leBytes 8 12 ++ leBytes 8 8 ++ leBytes 8 (12 * line)
theorem test_creates_meet : Fresh yieldSt 4 ∧ yieldSt.twin.side = true ∧ [createRec 1 0].filterMap JRecord.ofBytes = [jrec .nsCreate 0 1 0 12 8 0] ∧
    yieldSt.xlat.nss.filter (claimsSame (jrec .nsCreate 0 1 0 12 8 0)) = [{ demoNs with sideB := true, creating := some 9 }] ∧
    creatorOf yieldSt { demoNs with sideB := true, creating := some 9 } = some { admin 0x88 1 0 with adm := 9 } ∧ getNs yieldSt 1 = some { demoNs with sideB := true, creating := some 9 } ∧
    (pairSt .paired false).twin.side = false ∧ (pairSt .paired false).xlat.nss.filter (claimsSame (jrec .nsCreate 0 1 0 12 8 0)) ≠ [] ∧
    (pairSt .paired false).xlat.nss.filter (claimsSame (jrec .nsCreate 0 2 0 12 8 (12 * 2 ^ 20))) = [] ∧ demoNs.creating = none :=
  ⟨⟨by decide +kernel, by decide +kernel⟩, by decide +kernel⟩
theorem test_keyx_fields : field (leBytes 12 1) 4 4 = 0 ∧ field (leBytes 12 (1 + 2 ^ 32)) 4 4 ≠ 0 ∧ field (leBytes 12 (1 + 2 ^ 32)) 8 4 = 0 := by decide +kernel

/-! TwinControl -/

theorem test_twin_ops : Resident (noonSt [admin 0x94 0 0]) 0 0x94 4 (admin 0x94 0 0) ∧ Resident (noonSt [admin 0x93 0 0]) 0 0x93 4 (admin 0x93 0 0) ∧
    (noonSt []).twin.st = .solo ∧ mayPair (noonSt []) = false ∧ (noonSt []).twin.asked = 0 :=
  ⟨⟨rfl, rfl, rfl, rfl, rfl, rfl⟩, ⟨rfl, rfl, rfl, rfl, rfl, rfl⟩, rfl, by decide +kernel, rfl⟩
/-- A module that may pair: its certificate installed. -/
def certSt (st : TwinSt) (l : List Ctx) : State :=
  let s := storeNv (pairSt st false) 0x08000001 0
  { s with ctxs := l, sec := { s.sec with certState := 1 }, twin := { s.twin with peerCertOk := true, lastEdge := 10, lastFrame := 10 } }
theorem test_may_pair : mayPair (certSt .solo []) = true ∧ puntyUp (certSt .solo []) = true ∧ twinSeen (certSt .solo []) = true ∧ (certSt .solo []).twin.dawnWait = none ∧
    nvVal (storeNv (certSt .solo []) 0x0B000005 1) 0x0B000005 = 1 ∧ (certSt .paired []).twin.asked = 0 ∧ verMajor 0 = verMajor (imageOf (certSt .solo []) 0).version.toNat ∧
    (certSt .detaching []).twin.st = .detaching := by decide +kernel
theorem test_twin_resident : Resident (certSt .solo [admin 0x94 0 0]) 0 0x94 4 (admin 0x94 0 0) ∧ Resident (certSt .paired [admin 0x93 0 0]) 0 0x93 4 (admin 0x93 0 0) ∧
    Fresh (certSt .detaching []) 4 ∧ Fresh (certSt .paired []) 4 :=
  ⟨⟨rfl, rfl, rfl, rfl, rfl, rfl⟩, ⟨rfl, rfl, rfl, rfl, rfl, rfl⟩, ⟨by decide +kernel, by decide +kernel⟩, ⟨by decide +kernel, by decide +kernel⟩⟩

/-! TwinAbsence -/

theorem test_hb_limits : sided (pairSt .paired true) = true ∧ (pairSt .paired true).twin.hbStopped = false ∧
    (pairSt .paired true).twin.lastEdge + nvVal (pairSt .paired true) 0x0B000006 ≤ 300 ∧ 10 < 10 + nvVal (pairSt .paired true) 0x0B000006 ∧
    (pairSt .paired true).twin.takeoverAt = none ∧ (pairSt .solo true).twin.retryAt ≤ 10 ∧ (pairSt .recovering true).twin.st = .recovering ∧
    (pairSt .paired true).day.puntyOn = true ∧ (noonSt []).care.takeoverCare = false := by decide +kernel
theorem test_still_absent : stillAbsent (pairSt .solo true) = false ∧
    stillAbsent ((pairSt .solo true).updTwin fun t => { t with absentAt := some 300 }) = true := by decide +kernel
theorem test_takeover_care : ((noonSt []).updCare fun c => { c with takeoverCare := true }).care.takeoverCare = true ∧ (noonSt []).media.bands = [] ∧
    octSideB (noonSt []) (dieOct (1920 * 8192 / 8192)) ≠ (noonSt []).twin.side ∧ (noonSt []).twin.dawnWait = none ∧
    (certSt .solo []).twin.asked = 0 := by decide +kernel

/-! CaneFrames -/

/-- Session 1 with node 6, established, with these messages and kept MSGIDs, both links up; namespace 1 replicates with that node. -/
def caneSess (ph : Nat) (out : List CaneMsg) (d : List DedupRec) : Session := { Session.init with sid := 1, node := 6, phase := ph, rxHigh := 4, out := out, dedup := d }
def caneSt (l : List Session) (v : BitVec 64) : State :=
  let s := storeNv (noonSt []) 0x0C00001D v
  { s with cane := { s.cane with link := Vector.replicate 2 2, sessions := l, repl := [{ ReplState.start 1 with mode := 3 }] } }
def demoMsg : CaneMsg := { msgId := 9, typ := 0x10, hops := 1, bytes := [1, 2], sent := 2, acked := 0, sentAt := 1, firstAt := 1, call := some 5 }
theorem test_takes : Takes (caneSt [caneSess 2 [] []] 0) 1 5 (caneSess 2 [] []) ∧ (caneSess 2 [] []).fresh 4 = false ∧
    Takes (caneSt [caneSess 2 [demoMsg] [{ msgId := 9, rep := none, repAt := 0 }]] 0) 1 5 (caneSess 2 [demoMsg] [{ msgId := 9, rep := none, repAt := 0 }]) :=
  ⟨⟨by decide +kernel, rfl, by decide +kernel⟩, by decide +kernel, ⟨by decide +kernel, rfl, by decide +kernel⟩⟩
theorem test_cane_msgs : (caneSess 2 [demoMsg] []).out.find? (fun k => k.typ == 0x10 && k.msgId == 9) = some demoMsg ∧ demoMsg.open_ = true ∧ demoMsg.sent ≠ 0 ∧
    0 < nvVal (caneSt [] 0) 0x0C000015 ∧ getSession (caneSt [] 0) 1 = none := by decide +kernel
theorem test_repl : replReplica (caneSt [] 0x603) 1 = true ∧ replSource (caneSt [] 0x601) 1 = true ∧ replNode (caneSt [] 0x603) 1 = 6 ∧ serves (caneSt [] 0x603) false = true ∧
    opsFit (caneSt [] 0x603) demoNs [(5, 3, [])] = true ∧ (getRepl (caneSt [] 0x603) 1).map ReplState.cut = some none ∧ getNs (caneSt [] 0x603) 1 = some demoNs ∧
    (getRepl (caneSt [] 0x603) 1).map ReplState.lastMsg = some (0, 0) ∧ (caneSt [] 0x603).plan.stopped = false ∧ field (leBytes 16 1) 0 2 = 1 := by decide +kernel

/-! CaneSessions -/

/-- A handshake begun or answered with node 6. -/
def kexSess (ph : Nat) : Session := { Session.init with sid := 1, node := 6, phase := ph, initiator := decide (ph = 0), oldUntil := some 9 }
def kexSt (l : List Session) : State := let s := caneSt l 0; { s with sec := { s.sec with certState := 1 }, beat := 2 ^ 40 }
theorem test_kex : canKex (kexSt []) = true ∧ canKex (noonSt []) = false ∧ kexAnswered (kexSt [kexSess 1]) 6 = some (kexSess 1) ∧ kexBegun (kexSt [kexSess 0]) 6 = some (kexSess 0) ∧
    kexAnswered (kexSt [kexSess 0]) 6 = none ∧ sessionTo (kexSt []) 6 = none ∧ (sessionRoom (kexSt [])).isSome = true ∧ ([] : List Byte).take 8 ≠ domainBytes (kexSt []) ∧
    (kexSess 0).kexAt + nvVal (kexSt []) 0x0C00000F ≤ 2 ^ 40 ∧ (kexSess 1).kexAt + nvVal (kexSt []) 0x0C000010 ≤ 2 ^ 40 ∧ (kexSess 3).oldUntil = some 9 := by decide +kernel
theorem test_sessions : rekeyDue (kexSt [caneSess 2 [] []]) (caneSess 2 [] []) = true ∧ rekeyDue (kexSt []) (kexSess 0) = false ∧ canePort (kexSt []) 1 = true ∧ (kexSt []).day.caneOn = true ∧
    waitsSet { caneSt [] 0x601 with ctxs := [setWait 0x0C00001D 0] } 0 0x0C00001D 4095 = some (setWait 0x0C00001D 0, 0, 0) ∧ bits 0x701 33 8 ≠ bits (replVal (caneSt [] 0x601) 1) 33 8 ∧
    max (caneSess 2 [demoMsg] []).lastAck demoMsg.firstAt + nvVal (kexSt []) 0x0C000010 ≤ 2 ^ 40 ∧ (caneSess 2 [] []).oldUntil = none := by decide +kernel

/-! FeedsComeAndGo -/

/-- A lit module at beat 30,000 whose feed 1 is as k says. -/
def feedSt (k : Feed) : State := modFeed { lit (noonSt []) with beat := 30000 } 1 fun _ => k
/-- A feed good since beat 0 that does not conduct. -/
def idleFeed : Feed := { Feed.init with mv := 54000, conduct := false }
theorem test_feeds : (getFeed (feedSt idleFeed) 1).good = true ∧ (getFeed (feedSt idleFeed) 1).conduct = false ∧ (getFeed (feedSt idleFeed) 1).breaker = false ∧
    (feedSt idleFeed).power.aonPowered = true ∧ (getFeed (feedSt idleFeed) 1).goodAt + 25000 ≤ 30000 ∧ (feedSt idleFeed).power.lost = false ∧
    hotStopped (feedSt idleFeed) = false ∧ (feedSt idleFeed).sec.tamperAt = none ∧ (getFeed (feedSt { idleFeed with good := false }) 1).good = false ∧
    (getFeed (feedSt { idleFeed with lockout := true }) 1).lockout = true ∧ (getFeed (feedSt idleFeed) 1).drops < 4294967295 := by decide +kernel
theorem test_feed_dark : hotStopped (goFatal (feedSt idleFeed) 5 0) = true ∧ ((feedSt idleFeed).updPower fun p => { p with lost := true }).power.lost = true ∧
    ((feedSt idleFeed).updPower fun p => { p with aonPowered := false }).power.aonPowered = false := by decide +kernel

/-! BankTests -/

/-- A lit module with both halves charged to 72 V, half B tested last, a test asked for. -/
def bankSt : State :=
  (lit (noonSt [])).updPower fun p => { p with halves := Vector.replicate 2 { Half.init with mv := 72000, passed := true }, lastHalf := 1, charging := true, testWant := true, testing := 0 }
/-- The same in the test of half A, its sink on or off. -/
def testSt (on : Bool) : State := bankSt.updPower fun p => { p with testing := 1, sink := on }
theorem test_bank : bankSt.power.aonPowered = true ∧ bankSt.power.lost = false ∧ bankSt.power.llAt = none ∧ 0 + bankSt.power.lastHalf = 1 ∧ testDue bankSt 0 = true ∧
    bankSt.power.charging = true ∧ (∀ i < 2, nvVal bankSt 0x0D000006 ≤ (vget bankSt.power.halves i Half.init).mv + 500) ∧ bankSt.day.day = .noon ∧
    (vget bankSt.power.halves 0 Half.init).passed = true ∧ (testSt true).power.testing ≠ 0 ∧ (testSt true).power.sink = true ∧ (testSt false).power.sink = false := by decide +kernel
theorem test_bank_fails : (testSt false).power.testCap < nvVal (testSt false) 0x0D00000D ∧
    energyNow (bankSt.updPower fun p => { p with halves := Vector.replicate 2 { Half.init with mv := 72000, capUf := 2000 } }) = 8320 ∧
    energyNow (lit (noonSt [])) = 0 ∧ waitsSet (noonSt [setWait 0x0D000010 1]) 0 0x0D000010 1 = some (setWait 0x0D000010 1, 0, 1) := by decide +kernel
/-- The spec's own figure: full arming with eight octs needs 9,500 mJ (R412). -/
theorem test_full_arming : armTarget bankSt 8 9500 = 2 ^ 31 ∧ armTarget bankSt 8 9499 = 31 * 2 ^ 26 ∧ armTarget bankSt 3 9500 = 0 := by decide +kernel

/-! LossAndLastLight -/

/-- A lit module in Noon with both feeds at 12 V, in Last Light since beat 3 or not. -/
def lossSt (l : Option Nat) : State := (lit (noonSt [])).updPower fun p => { p with feeds := Vector.replicate 2 { Feed.init with mv := 12000, conduct := false }, llAt := l, llPaired := true, llG := 2 ^ 31 }
theorem test_loss : (getFeed (lossSt none) 0).below = true ∧ (getFeed (lossSt none) 1).below = true ∧ (lossSt none).power.aonPowered = true ∧ (lossSt none).power.llAt = none ∧
    (lossSt none).power.lost = false ∧ hotStopped (lossSt none) = false ∧ (lossSt none).day.day = .noon ∧ (lossSt (some 3)).power.llAt = some 3 ∧
    (getFeed (lossSt none) 0).conduct = false ∧ (getFeed (lossSt none) 1).conduct = false ∧ hotStopped (goFatal (lossSt none) 5 0) = true ∧
    (getFeed (modFeed (lossSt (some 3)) 0 fun k => { k with conduct := true }) 0).conduct = true := by decide +kernel

/-! SensorsAndHotStops -/

/-- Readings of 40 °C everywhere but sensor i, in 1/16 °C. -/
def warm (i : Nat) (t : Int) : List Int := (List.range 28).map fun j => if j = i then t else 640
/-- A lit module, zone z at hot once before. -/
def onceHot (z : Nat) : State := (lit (noonSt [])).updTherm fun t => { t with hotOnce := vset t.hotOnce z true }
/-- The state a sample judges. -/
def sampled (s : State) (raw : List Int) : State := chargeWindow (judge (takeReadings s raw (List.replicate 28 true)))
/-- Only diode 2 fitted. -/
def diodeSt : State := storeNv (onceHot 12) 0x0800000B 4
theorem test_samples : zonesAct (lit (noonSt [])) = true ∧ zonesAct darkSt = false ∧ hotZones (sampled (lit (noonSt [])) (warm 30 0)) = [] ∧
    hotZones (sampled (onceHot 0) (warm 1 2000)) = [0] ∧ (onceHot 0).therm.hotAt = none ∧ hotZones (sampled (onceHot 12) (warm 22 2300)) = [12] ∧ readingBad 2401 = true ∧
    sensorFitted (noonSt []) 3 = true ∧ sensorFitted diodeSt 27 = false := by decide +kernel
theorem test_carrier_hot : hotZones (sampled diodeSt (warm 22 2300)) = [12] ∧ vget diodeSt.therm.shut 12 false = false ∧ zoneOcts 12 = [4, 7] ∧ zoneOcts 10 = [0, 3] := by decide +kernel
theorem test_zone_numbers : zoneReading (sampled (lit (noonSt [])) (warm 0 1600)) 0 = some 1600 ∧ zoneReading (sampled (lit (noonSt [])) (warm 30 0)) 0 = some 640 ∧
    (zoneLimits (noonSt []) 0).1 < (zoneLimits (noonSt []) 0).2.1 ∧ 0 < zoneBroken (sampled (lit (noonSt [])) (warm 0 3000)) 0 ∧
    16 * ((zoneLimits (noonSt []) 0).1 : Int) < 1600 ∧ 1600 ≤ 16 * ((zoneLimits (noonSt []) 0).2.1 : Int) ∧ 16 * ((zoneLimits (noonSt []) 0).2.1 : Int) ≤ 2000 := by decide +kernel
theorem test_hot_return : (getOct (modOct (octSt .dark 0) 2 fun o => { o with hotHold := some 3 }) 2).hotHold.isSome = true ∧ (octSt .dark 0).power.llAt = none ∧
    (modOct { octSt .dark 0 with beat := 250000 } 2 fun o => { o with hotHold := some 3 }).beat = 250000 ∧ (getOct (octSt .dark 0) 2).darkSince + 250000 ≤ 250000 ∧
    (zonesOfOct 2).all (fun z => !vget (octSt .dark 0).therm.shut z false) = true ∧ ((lit (noonSt [])).updTherm fun t => { t with hotAt := some 4 }).therm.hotAt = some 4 ∧
    waitsSet (noonSt [setWait 0x0F000004 1]) 0 0x0F000004 1 = some (setWait 0x0F000004 1, 0, 1) := by decide +kernel

/-! OnChipMemories -/

/-- A test of channel buffer 17 runs. -/
def memSt : State := { noonSt [] with beat := 2 ^ 40 }.updMem fun m => { m with testState := 1, testBank := 2, testUnit := 17 }
/-- The four spares of macro 612 in use. -/
def spentSt : State := memSt.updMem fun m => { m with softRows := (List.range 4).map fun k => { bank := 2, mac := 612, row := k, spare := k } }
theorem test_memories : (noonSt []).day.sramOn = true ∧ macroBank 612 = 2 ∧ macroUnit 612 = 17 ∧ freeSpare memSt 612 = some 0 ∧ freeSpare spentSt 612 = none ∧ memSt.mem.testState = 1 ∧ testRunOver memSt = true ∧ testRunOver ((noonSt []).updMem fun m => { m with testState := 1, testAt := 2 ^ 41 }) = false ∧
    engineOwners (noonSt []) 1 = [] ∧ unitQuiet (noonSt []) 3 2 = true ∧ unitQuiet (noonSt []) 0 2 = false ∧ (noonSt []).mem.testState ≠ 1 := by decide +kernel
theorem test_mem_set : waitsSet (noonSt [setWait 0x10000003 0x23]) 0 0x10000003 1 = some (setWait 0x10000003 0x23, 0, 0x23) := by decide +kernel

/-! NightAndMidnight -/

/-- A lit module that is asked for a time of day by context 0, which waits in its DOZE. -/
def askSt (t : DayState) : State := let s := lit (noonSt [{ admin 0x8B 2 0 with snap := 1 }]); { s with day := { s.day with pendReq := some (t, 0) } }
/-- A sealed module at a step of its entry; its links in L0 with L1 enabled. -/
def entrySt (t : DayState) (k : Nat) : State :=
  let s := lit (noonSt [])
  { s with day := { s.day with day := t, sealed := some 4, entryStep := k }, links := Vector.replicate 6 { HostLink.init with st := 2, aspmL1 := true } }
/-- The same after the entry. -/
def asleep (t : DayState) : State := (entrySt t 0).updDay fun d => { d with sealed := none }
theorem test_seal : serving (askSt .night) = true ∧ (askSt .night).day.pendReq = some (.night, 0) ∧ ((askSt .night).ctxs.all fun x => x.c == 0) = true ∧
    ((askSt .night).fns.all fun f => f.kept.isEmpty) = true ∧ (askSt .night).nor.activating = none ∧ (askSt .night).twin.st = .solo ∧ (askSt .night).plan.resetFlush = false := by decide +kernel
theorem test_entries : entryAt (entrySt .night 0) .night 0 = true ∧ undrained (entrySt .night 0) = [] ∧ journaled (entrySt .night 0) = true ∧ journaled ((entrySt .night 0).updXlat fun x => { x with staging := [jrec .pad 0 0 0 0 0 0] }) = false ∧
    (entrySt .midnight 1).care.recWrite = none ∧ entryAt (entrySt .night 1) .night 1 = true ∧
    (entrySt .night 1).day.wakePend = none ∧ (entrySt .night 1).day.wakeAt = 0 ∧ undrained ((entrySt .night 0).updXlat fun x => { x with gather := [demoSlot] }) ≠ [] ∧
    entryAt (entrySt .midnight 1) .midnight 1 = true ∧ (entrySt .midnight 1).xlat.ckWant = false ∧ (entrySt .midnight 1).xlat.ck = none ∧
    norWriting (entrySt .midnight 1) 0x02 0 = false ∧ entryAt (entrySt .midnight 2) .midnight 2 = true ∧ (∀ k < 16, (getOct (entrySt .midnight 2) k).st = .dark) := by decide +kernel
theorem test_sleep : (asleep .dusk).day.day = .dusk ∧ (getLink (asleep .dusk) 3).aspmL1 = true ∧ 2 ≤ (getLink (asleep .dusk) 3).st ∧ (asleep .dusk).ctxs = [] ∧
    ((asleep .dusk).rings.all fun r => fnLink r.fn != 3) = true ∧ wakeEnabled (asleep .night) 1 = true ∧ wakeEnabled (asleep .night) 3 = true ∧ (asleep .night).sec.tamperAt = none ∧
    hotStopped (asleep .night) = false ∧ (asleep .night).therm.hotAt = none ∧ (asleep .night).day.waking = false ∧ hotStopped (goFatal (asleep .night) 5 0) = true ∧
    wakeEnabled (storeNv (asleep .night) 0x0E000003 0) 1 = false ∧ (asleep .night).power.lost = false ∧ (asleep .night).power.llAt = none ∧ (asleep .night).day.fatal = false := by decide +kernel

/-! DawnSteps -/

/-- A lit module at a step of Dawn, at beat 400,000. -/
def dawnSt (k : Nat) : State := let s := lit (noonSt []); { s with beat := 400000, day := { s.day with day := .dawn, step := k } }
theorem test_dawn : dawnAt (dawnSt 1) 1 = true ∧ dawnAt (dawnSt 2) 2 = true ∧ dawnAt (dawnSt 3) 3 = true ∧ dawnAt (dawnSt 4) 4 = true ∧ dawnAt (dawnSt 4) 3 = false ∧
    (dawnSt 1).sec.tamperCauses = [] ∧ (loadBoot (dawnSt 2)).nor.trial = false ∧ (loadBoot (dawnSt 2)).nor.prev = none ∧ (dawnSt 3).day.cooling = false ∧ dawnRunOver (dawnSt 3) = true ∧ dramFailing (List.replicate 8 true) = 0 ∧
    (dawnSt 4).day.stepFrom + dawnLimit 4 < 400000 ∧ (dawnSt 4).nor.prev = none ∧ keyOk ((List.range 64).map fun k => BitVec.ofNat 8 k) = true ∧
    dramFailing [true, true, false, true, true, true, true, true] = 4 := by decide +kernel
/-- The boot record of bank 0 with bank 1 as PREV. -/
def prevSt : State := norPut (dawnSt 2) 1 0 (bootBody 0 (some 1) false 0 .blank)
theorem test_prev : dawnAt prevSt 2 = true ∧ (loadBoot prevSt).nor.prev = some 1 ∧ (loadBoot prevSt).nor.active = 0 ∧ (loadBoot prevSt).nor.trial = false ∧
    dawnAt ((dawnSt 3).updDay fun d => { d with cooling := true }) 3 = true ∧ ((List.range 10).all fun z => zoneCool (dawnSt 3) z) = true := by decide +kernel

/-! ResetState -/

/-- The settings of R75 and R442 the spec gives these reset values. -/
theorem test_reset_settings : (findSetting 0x0D000006).map Setting.reset = some 72000 ∧ nvVal State.reset 0x0D000006 = 72000 := by decide +kernel

/-! StepKeepsInvariant -/

/-- A module in BENCH with 31 TAMPER bits burned, a LIFE_CYCLE waiting. -/
def benchSt : State := { State.reset with pending := [Instr.crystalTick, Instr.lifeCycle 0], sec := { State.reset.sec with life := .bench, benchClose := false, tampers := 31 } }
theorem test_invariant : Invariant benchSt ∧ ∃ t, step benchSt = .next t := by
  refine ⟨⟨by unfold QueueOk; decide +kernel, by decide, by decide, fun h => ?_⟩, ?_⟩
  · rcases h with h | h <;> cases h
  · exact ⟨_, rfl⟩

/-! BeatAndFusesOnlyGrow -/

theorem test_beat_kept : restartsBeat (lit (noonSt [])) (.feedConduct 0) = false ∧ restartsBeat (lit (noonSt [])) .crystalTick = false ∧ ∃ t, exec .crystalTick (lit (noonSt [])) = .next t :=
  ⟨by decide +kernel, rfl, _, rfl⟩


/-! ## Ill-formed terms, one for each check -/

/-- No context 65536 (R116). -/
theorem test_ill_formed_context : (Instr.read 65536).wellFormed = false := by decide
/-- No ring pair 1024 (R76). -/
theorem test_ill_formed_ring : (Instr.holdTimeout 1024).wellFormed = false := by decide
/-- No function 384 (R346). -/
theorem test_ill_formed_function : (Instr.functionReset 384).wellFormed = false := by decide
/-- No die 2048 (R227). -/
theorem test_ill_formed_die : (Instr.lunReadyTimeout 2048).wellFormed = false := by decide
/-- No oct 16 (R11). -/
theorem test_ill_formed_oct : (Instr.octPowerStart 16).wellFormed = false := by decide
/-- No flash channel 128 (R227). -/
theorem test_ill_formed_channel : (Instr.recentre 128 0).wellFormed = false := by decide
/-- No mover channel 64 (R324). -/
theorem test_ill_formed_mover_channel : (Instr.busError 0 64 0).wellFormed = false := by decide
/-- No mover engine 4 (R324). -/
theorem test_ill_formed_engine : (Instr.engineResume 4).wellFormed = false := by decide
/-- No host link 6 (R344). -/
theorem test_ill_formed_link : (Instr.linkDown 6).wellFormed = false := by decide
/-- No third port (R344). -/
theorem test_ill_formed_port : (Instr.perstAssert 2).wellFormed = false := by decide
/-- No Servitor 8 (R11). -/
theorem test_ill_formed_servitor : (Instr.servitorRestart 8).wellFormed = false := by decide
/-- No fourth pacing source (R336). -/
theorem test_ill_formed_pacer : (Instr.paceAssert 3).wellFormed = false := by decide
/-- No memory bank 11 (R459). -/
theorem test_ill_formed_bank : (Instr.sramUncorrectable 11 0).wellFormed = false := by decide
/-- BAR0 ends at 0x7FFFFF (R354). -/
theorem test_ill_formed_offset : (Instr.latchingRead 0 0x800000 4).wellFormed = false := by decide
/-- No access of nine bytes (R355). -/
theorem test_ill_formed_access : (Instr.latchingRead 0 0 9).wellFormed = false := by decide
/-- An endpoint ID has 8 bits. -/
theorem test_ill_formed_endpoint : (Instr.setEndpointId 0 256).wellFormed = false := by decide
/-- A slot address has 38 bits (R228). -/
theorem test_ill_formed_slot_address : (Instr.slotDecode (2 ^ 38) 0 0 0 true).wellFormed = false := by decide
/-- A key operand has 64 bytes. -/
theorem test_ill_formed_key : (Instr.cryptoErase 0 []).wellFormed = false := by decide

end Sys2Proof.Tests
end

section
/-! PROOF. TimePasses is refuted: its first clause has the occupation of the stream units cleared by every BEAT_TICK, yet an
operation that is still under way takes its unit again in the beat that begins (R148, R547). -/

namespace Sys2Proof.Proofs

open Sys2Proof Sys2Proof.Machine Sys2Proof.Safety

/-- A program on granule 4096 of namespace 1 that waits on a COPY, 4,096 bytes of which are still to move. -/
def copyingCtx : Ctx :=
  { c := 0, adm := 5, src := .ring 0, fn := 0, admin := false
    entry := { typ := 3, op := 0, flags := 0, cls := 2, cid := 7, nsid := 1, lba := 4096, length := 1, prog := 0, daddr := 0, dcount := 0,
               tag := 0, a0 := 0, a1 := 0, a2 := 0 }
    segs := [], code := none, regs := Vector.replicate 16 0, preds := Vector.replicate 4 false, hnd := Vector.replicate 8 none
    pc := 1, prog := 0x1000, stack := [], budget := 9, issued := 1, rdLeft := 0, wrLeft := 0, slabLeft := 0, strLeft := 0, hostLeft := 0
    slabRes := 0, codePages := 1, dmode := 3, mod := false, admBeat := 3, dline := 900, dOpen := false, postBeat := 800, eventBeat := 11
    commitBeat := none, wait := .instr, word := 0x2E#32 <<< 26, reads := [], wtGrans := [], writeThrough := false, sticky := Sticky.none
    atom := [], ownSlots := [], mirrorWait := [], pins := [], status := 0, detail := 0, result := 0, withheld := false, stopping := false
    hostWrites := 0, counted := 0, snap := 0, aux := [], data := [], reply := [], left := 4096 }

/-- Noon, in beat 10, with the bytes of the COPY booked on the stream units for beat 11. -/
def copyingSt : State :=
  { State.reset with
    beat := 10, ctxs := [copyingCtx]
    plan := { Planner.init with near := [{ res := .stream, beat := 11, amount := 4096, share := .host, owner := 5 }] }
    day := { Day.init with day := .noon, hostOn := true, coreOn := true, sramOn := true, dramOn := true }
    power := { Power.init with aonPowered := true } }

/-- Nothing that the first clause of TimePasses excludes waits in copyingSt. -/
theorem copyingSt_nothing_waits : copyingSt.power.aonPowered = true ∧ coreClock copyingSt = true ∧ copyingSt.day.pendReq = none ∧
    copyingSt.plan.resetAfter = false ∧ copyingSt.due = [] ∧ copyingSt.care.cond = [] ∧ (∀ k < 16, (getOct copyingSt k).toDrain = false) ∧
    (∀ u < 2, (getLink copyingSt (4 + u)).st < 2) := by decide +kernel

/-- The 4,096 bytes occupy stream unit 0 for 128 cycles of the beat that begins (R148). -/
theorem beatTick_copyingSt_units : (nextOr copyingSt (exec (.beatTick 0 0 0 false) copyingSt)).zci.units = [(0, 128)] := by decide +kernel

/-- Refutes O29: a BEAT_TICK during a COPY leaves a stream unit occupied, where the first clause has none. -/
theorem not_timePasses : ¬ Obligations.TimePasses := by
  unfold Obligations.TimePasses
  rintro ⟨coreTick, -⟩
  obtain ⟨aon, clock, req, reset, due, cond, octs, ports⟩ := copyingSt_nothing_waits
  obtain ⟨t, tick, frame, -⟩ := coreTick copyingSt 0 0 0 false aon clock req reset due cond octs ports
  have occupied : t.zci.units = [(0, 128)] := by simpa only [tick, nextOr] using beatTick_copyingSt_units
  have idle : t.zci.units = [] := congrArg (fun u : State => u.zci.units) frame
  simp [idle] at occupied

end Sys2Proof.Proofs
end

section
/-! PROOF. GuardedOffInstruction: what the guard bits say, the `issue` that each row of the opcode map is, what an issue with its
budget spent comes to, and from these the statement (R122, R136, R137). -/

namespace Sys2Proof.Proofs

open Sys2Proof Sys2Proof.Machine Sys2Proof.Safety Sys2Proof.Laws

/-- The predicate field of a guard is its low two bits. -/
theorem zG_mod_four (w : BitVec 32) : zG w % 4 = zbits w 1 0 := by
  simp only [zG, zbits]
  omega

/-- The polarity of a guard is bit 2 of the word. -/
theorem decide_four_le_zG (w : BitVec 32) : decide (4 ≤ zG w) = w.getLsbD 2 := by
  simp only [zG, zbits, BitVec.getLsbD, Nat.testBit_eq_decide_div_mod_eq]
  exact decide_eq_decide.mpr (by omega)

/-- The guard in the fields of its word: P[g[1:0]] XOR g[2], P0 reading true (R120, R122). -/
theorem guardOn_eq_xor (x : Ctx) (w : BitVec 32) :
    guardOn x w = xor (decide (zbits w 1 0 = 0) || vget x.preds (zbits w 1 0) false) (w.getLsbD 2) := by
  have predicate : pget x (zbits w 1 0) = (decide (zbits w 1 0 = 0) || vget x.preds (zbits w 1 0) false) := rfl
  calc guardOn x w = (pget x (zbits w 1 0) != w.getLsbD 2) := by rw [guardOn, zG_mod_four, decide_four_le_zG]
    _ = xor (pget x (zbits w 1 0)) (w.getLsbD 2) := rfl
    _ = _ := by rw [predicate]

/-- A context that may issue is READY (R117). -/
theorem wait_eq_ready_of_canIssue {s : State} {x : Ctx} (h : canIssue s x = true) : (x.wait == .ready) = true := by
  simp only [canIssue, readyNow, Bool.and_eq_true] at h
  obtain ⟨⟨⟨⟨ready, -⟩, -⟩, -⟩, -⟩ := h
  exact ready

/-- At a word whose fn field is f, BUF is function f (R161). -/
theorem bufIs_of_atWord {s : State} {c op f : Nat} {x : Ctx} {w : BitVec 32} (h : AtWord s c op x w) (fn : zFl w = f) :
    bufIs f s c = true := by
  simp [bufIs, h.ctx, h.word, fn]

/-- At a word of its row an instruction is an issue of the row's opcode: a POST finds its context READY, and of the three functions
of BUF the one the word selects issues (R152). -/
theorem exec_eq_issue {i : Instr} {s : State} {c op : Nat} {x : Ctx} {w : BitVec 32} {k : Option Nat}
    (row : zciRow i = some (c, op, k)) (fn : ∀ f, k = some f → zFl w = f) (h : AtWord s c op x w) :
    ∃ checks eff, exec i s = .next (issue s c op checks eff) := by
  cases i
  case post =>
    cases row
    simp only [exec, execPost, h.ctx, wait_eq_ready_of_canIssue h.free, if_true]
    exact ⟨_, _, rfl⟩
  case bufGet | bufPut | bufSize =>
    cases row
    simp only [exec, execBufGet, execBufPut, execBufSize, bufIs_of_atWord h (fn _ rfl), Bool.not_true, Bool.false_eq_true, if_false]
    exact ⟨_, _, rfl⟩
  all_goals cases row <;> exact ⟨_, _, rfl⟩

/-- An issue with no budget left ends the context with 0x06, whatever its guard says (R137, R152). -/
theorem issue_budgetSpent {s : State} {c op : Nat} {x : Ctx} {w : BitVec 32} (h : AtWord s c op x w) (spent : ¬ BudgetLeft x op)
    (checks : Ctx → BitVec 32 → List (Bool × Nat)) (eff : State → Ctx → BitVec 32 → State) :
    issue s c op checks eff = faultCtx (modCtx s c fun _ => x.countIssue op w) c 0x06 := by
  have exhausted : (!zMedia op && x.budget == 0 && x.entry.cls != 7) = true := by
    simpa [BudgetLeft, and_assoc] using spent
  simp only [issue, h.ctx, h.free, h.word, h.opc, exhausted, Bool.not_true, bne_self_eq_false, if_true, if_false, Bool.false_eq_true]

/-- A command that only replaces context c by y leaves it as y, and all else as it was. -/
theorem lands_of_exec_eq_put {i : Instr} {s : State} {c : Nat} {x y : Ctx} (found : getCtx s c = some x) (number : y.c = c)
    (run : exec i s = .next (modCtx s c fun _ => y)) : Lands i s c y :=
  ⟨_, run, getCtx_put found number, fun d other => getCtx_modCtx_ne s c d other _ fun _ _ => number, rfl⟩

/-- Settles O16: every row of the opcode map runs as an `issue`, and an issue either faults on its spent budget or steps over a word
that is guarded off before the row's own checks and effect are reached. -/
theorem guardedOffInstruction : Obligations.GuardedOffInstruction := by
  unfold Obligations.GuardedOffInstruction
  refine ⟨guardOn_eq_xor, fun i s c op x w k row fn h budget off => ?_, fun i s c op x w k row fn h _ spent => ?_⟩
  · obtain ⟨checks, eff, run⟩ := exec_eq_issue row fn h
    rw [issue_guardedOff h budget off checks eff] at run
    have number : x.c = c := getCtx_number h.ctx
    exact lands_of_exec_eq_put h.ctx number run
  · obtain ⟨checks, eff, run⟩ := exec_eq_issue row fn h
    rw [run, issue_budgetSpent h spent checks eff]

end Sys2Proof.Proofs
end

section
/-! PROOF. StepKeepsInvariant and BeatAndFusesOnlyGrow: what every command does to the queue, BEAT and the fuses, one arm per
command from the lemmas of Frame, and from it both statements. -/

namespace Sys2Proof.Proofs

open Sys2Proof Sys2Proof.Machine Sys2Proof.Safety Sys2Proof.Laws

/-- What a command may do: fuses grow, and BEAT goes back only where the command restarts it. -/
def Advances (i : Instr) (s t : State) : Prop := Moves s t ∧ (restartsBeat s i = false → s.beat ≤ t.beat)

/-- A command that keeps the queue, BEAT and the fuses. -/
theorem advances_of_held {i : Instr} {s t : State} (h : held t = held s) : Advances i s t :=
  ⟨moves_of_kept h, fun _ => Nat.le_of_eq (congrArg Held.beat h).symm⟩

/-- A command that burns fuses and leaves BEAT. -/
theorem advances_of_moves {i : Instr} {s t : State} (h : Moves s t ∧ t.beat = s.beat) : Advances i s t :=
  ⟨h.1, fun _ => Nat.le_of_eq h.2.symm⟩

/-- A command about a context keeps the queue and BEAT; of these only LIFE_CYCLE burns fuses (R507). -/
theorem exec_advances_of_ctx {i : Instr} {s t : State} {c : Nat} (about : i.ctxNumber = some c) (h : exec i s = .next t) : Advances i s t := by
  cases i with
  | lifeCycle => exact advances_of_moves (execLifeCycle_moves (h := h))
  | contextDeadline => exact advances_of_held (execContextDeadline_held (h := h))
  | d7DeadlineExtend => exact advances_of_held (execD7DeadlineExtend_held (h := h))
  | twinAckTimeout => exact advances_of_held (execTwinAckTimeout_held (h := h))
  | read => exact advances_of_held (execRead_held (h := h))
  | write => exact advances_of_held (execWrite_held (h := h))
  | flush => exact advances_of_held (execFlush_held (h := h))
  | trim => exact advances_of_held (execTrim_held (h := h))
  | zero => exact advances_of_held (execZero_held (h := h))
  | compare => exact advances_of_held (execCompare_held (h := h))
  | verify => exact advances_of_held (execVerify_held (h := h))
  | libraryProgram => exact advances_of_held (execLibraryProgram_held (h := h))
  | hostMemoryProgram => exact advances_of_held (execHostMemoryProgram_held (h := h))
  | ringCreate => exact advances_of_held (execRingCreate_held (h := h))
  | ringDelete => exact advances_of_held (execRingDelete_held (h := h))
  | ringReset => exact advances_of_held (execRingReset_held (h := h))
  | abort => exact advances_of_held (execAbort_held (h := h))
  | funcReset => exact advances_of_held (execFuncReset_held (h := h))
  | moduleReset => exact advances_of_held (execModuleReset_held (h := h))
  | getSetting => exact advances_of_held (execGetSetting_held (h := h))
  | setSetting => exact advances_of_held (execSetSetting_held (h := h))
  | nsCreate => exact advances_of_held (execNsCreate_held (h := h))
  | nsDelete => exact advances_of_held (execNsDelete_held (h := h))
  | libLoad => exact advances_of_held (execLibLoad_held (h := h))
  | libUnload => exact advances_of_held (execLibUnload_held (h := h))
  | fwDownload => exact advances_of_held (execFwDownload_held (h := h))
  | fwActivateLive => exact advances_of_held (execFwActivateLive_held (h := h))
  | fwActivateAtReset => exact advances_of_held (execFwActivateAtReset_held (h := h))
  | fwActivateCommit => exact advances_of_held (execFwActivateCommit_held (h := h))
  | fwActivateRollback => exact advances_of_held (execFwActivateRollback_held (h := h))
  | fwActivateDiscard => exact advances_of_held (execFwActivateDiscard_held (h := h))
  | attest => exact advances_of_held (execAttest_held (h := h))
  | keyImport => exact advances_of_held (execKeyImport_held (h := h))
  | cryptoErase => exact advances_of_held (execCryptoErase_held (h := h))
  | dayEnter => exact advances_of_held (execDayEnter_held (h := h))
  | twinDetach => exact advances_of_held (execTwinDetach_held (h := h))
  | twinAttach => exact advances_of_held (execTwinAttach_held (h := h))
  | logRead => exact advances_of_held (execLogRead_held (h := h))
  | post => exact advances_of_held (execPost_held (h := h))
  | nop => exact advances_of_held (execNop_held (h := h))
  | movi => exact advances_of_held (execMovi_held (h := h))
  | shin => exact advances_of_held (execShin_held (h := h))
  | alu => exact advances_of_held (execAlu_held (h := h))
  | addi => exact advances_of_held (execAddi_held (h := h))
  | andi => exact advances_of_held (execAndi_held (h := h))
  | ori => exact advances_of_held (execOri_held (h := h))
  | xori => exact advances_of_held (execXori_held (h := h))
  | shli => exact advances_of_held (execShli_held (h := h))
  | shri => exact advances_of_held (execShri_held (h := h))
  | cmp => exact advances_of_held (execCmp_held (h := h))
  | cmpi => exact advances_of_held (execCmpi_held (h := h))
  | br => exact advances_of_held (execBr_held (h := h))
  | call => exact advances_of_held (execCall_held (h := h))
  | ret => exact advances_of_held (execRet_held (h := h))
  | loop => exact advances_of_held (execLoop_held (h := h))
  | ld => exact advances_of_held (execLd_held (h := h))
  | st => exact advances_of_held (execSt_held (h := h))
  | bufGet => exact advances_of_held (execBufGet_held (h := h))
  | bufPut => exact advances_of_held (execBufPut_held (h := h))
  | bufSize => exact advances_of_held (execBufSize_held (h := h))
  | hxin => exact advances_of_held (execHxin_held (h := h))
  | hxout => exact advances_of_held (execHxout_held (h := h))
  | mrd => exact advances_of_held (execMrd_held (h := h))
  | mwr => exact advances_of_held (execMwr_held (h := h))
  | mtrim => exact advances_of_held (execMtrim_held (h := h))
  | mzero => exact advances_of_held (execMzero_held (h := h))
  | mflush => exact advances_of_held (execMflush_held (h := h))
  | mcmp => exact advances_of_held (execMcmp_held (h := h))
  | mcas => exact advances_of_held (execMcas_held (h := h))
  | scan => exact advances_of_held (execScan_held (h := h))
  | digest => exact advances_of_held (execDigest_held (h := h))
  | copy => exact advances_of_held (execCopy_held (h := h))
  | cmpb => exact advances_of_held (execCmpb_held (h := h))
  | fence => exact advances_of_held (execFence_held (h := h))
  | set => exact advances_of_held (execSet_held (h := h))
  | get => exact advances_of_held (execGet_held (h := h))
  | doze => exact advances_of_held (execDoze_held (h := h))
  | rcall => exact advances_of_held (execRcall_held (h := h))
  | raw => exact advances_of_held (execRaw_held (h := h))
  | trap => exact advances_of_held (execTrap_held (h := h))
  | waitComplete => exact advances_of_held (execWaitComplete_held (h := h))
  | commandStop => exact advances_of_held (execCommandStop_held (h := h))
  | fchOctPower => exact advances_of_held (execFchOctPower_held (h := h))
  | fchOctFault => exact advances_of_held (execFchOctFault_held (h := h))
  | caneRepl => exact advances_of_held (execCaneRepl_held (h := h))
  | pwrTestNow => exact advances_of_held (execPwrTestNow_held (h := h))
  | thermRearm => exact advances_of_held (execThermRearm_held (h := h))
  | memTestReq => exact advances_of_held (execMemTestReq_held (h := h))
  | secSyskeyRotate => exact advances_of_held (execSecSyskeyRotate_held (h := h))
  | secCertCommit => exact advances_of_held (execSecCertCommit_held (h := h))
  | secLock => exact advances_of_held (execSecLock_held (h := h))
  | secFwKeyRevoke => exact advances_of_held (execSecFwKeyRevoke_held (h := h))
  | secCaRevoke => exact advances_of_held (execSecCaRevoke_held (h := h))
  | _ => cases about

/-- A command about no context: time, tamper, darkness and power set BEAT or burn fuses, every other one keeps both (R20, R503). -/
theorem exec_advances_of_noCtx {i : Instr} {s t : State} (about : i.ctxNumber = none) (h : exec i s = .next t) : Advances i s t := by
  cases i with
  | beatTick =>
    obtain ⟨moves, later⟩ := execBeatTick_moves (h := h)
    exact ⟨moves, fun _ => later⟩
  | crystalTick =>
    obtain ⟨kept, later⟩ := execCrystalTick_held (h := h)
    exact ⟨moves_of_held kept, fun _ => later⟩
  | feedConduct f =>
    obtain ⟨kept, beat⟩ := execFeedConduct_held (h := h)
    refine ⟨moves_of_held kept, fun powered => ?_⟩
    rcases beat with same | unpowered
    · exact Nat.le_of_eq same.symm
    · simp [restartsBeat, unpowered] at powered
  | aonPowerLoss => exact ⟨moves_of_held (execAonPowerLoss_held (h := h)), fun restarts => nomatch restarts⟩
  | tamperDetect => exact advances_of_moves (execTamperDetect_moves (h := h))
  | dawnRegulators => exact advances_of_moves (execDawnRegulators_moves (h := h))
  | dawnMemories => exact advances_of_moves (execDawnMemories_moves (h := h))
  | plannerBeatCycle => exact advances_of_held (execPlannerBeatCycle_held (h := h))
  | holdTimeout => exact advances_of_held (execHoldTimeout_held (h := h))
  | fetchDataReturn => exact advances_of_held (execFetchDataReturn_held (h := h))
  | coalesceCheck => exact advances_of_held (execCoalesceCheck_held (h := h))
  | mapLineFill => exact advances_of_held (execMapLineFill_held (h := h))
  | lineRebuild => exact advances_of_held (execLineRebuild_held (h := h))
  | arrayStatus => exact advances_of_held (execArrayStatus_held (h := h))
  | lateOpReset => exact advances_of_held (execLateOpReset_held (h := h))
  | slotDecode => exact advances_of_held (execSlotDecode_held (h := h))
  | deepRecoveryDone => exact advances_of_held (execDeepRecoveryDone_held (h := h))
  | gatherSlotPlace => exact advances_of_held (execGatherSlotPlace_held (h := h))
  | victimEmptied => exact advances_of_held (execVictimEmptied_held (h := h))
  | wearLevelCheck => exact advances_of_held (execWearLevelCheck_held (h := h))
  | patrolPassStart => exact advances_of_held (execPatrolPassStart_held (h := h))
  | patrolWindow => exact advances_of_held (execPatrolWindow_held (h := h))
  | tclkWindow => exact advances_of_held (execTclkWindow_held (h := h))
  | checkpointStart => exact advances_of_held (execCheckpointStart_held (h := h))
  | checkpointEnd => exact advances_of_held (execCheckpointEnd_held (h := h))
  | recovery => exact advances_of_held (execRecovery_held (h := h))
  | aringEnable => exact advances_of_held (execAringEnable_held (h := h))
  | aringReady => exact advances_of_held (execAringReady_held (h := h))
  | aringReset => exact advances_of_held (execAringReset_held (h := h))
  | aringDisable => exact advances_of_held (execAringDisable_held (h := h))
  | registerWrite => exact advances_of_held (execRegisterWrite_held (h := h))
  | latchingRead => exact advances_of_held (execLatchingRead_held (h := h))
  | geventWrite => exact advances_of_held (execGeventWrite_held (h := h))
  | geventCfgWrite => exact advances_of_held (execGeventCfgWrite_held (h := h))
  | darkDomainAccess => exact advances_of_held (execDarkDomainAccess_held (h := h))
  | sqTail => exact advances_of_held (execSqTail_held (h := h))
  | cqHead => exact advances_of_held (execCqHead_held (h := h))
  | rstatClear => exact advances_of_held (execRstatClear_held (h := h))
  | ringResetComplete => exact advances_of_held (execRingResetComplete_held (h := h))
  | moduleResetCommandsEnded => exact advances_of_held (execModuleResetCommandsEnded_held (h := h))
  | functionReset => exact advances_of_held (execFunctionReset_held (h := h))
  | functionResetComplete => exact advances_of_held (execFunctionResetComplete_held (h := h))
  | perstAssert => exact advances_of_held (execPerstAssert_held (h := h))
  | perstDeassert => exact advances_of_held (execPerstDeassert_held (h := h))
  | linkUp => exact advances_of_held (execLinkUp_held (h := h))
  | linkDown => exact advances_of_held (execLinkDown_held (h := h))
  | vfEnable => exact advances_of_held (execVfEnable_held (h := h))
  | functionReturnD0 => exact advances_of_held (execFunctionReturnD0_held (h := h))
  | msixUnmask => exact advances_of_held (execMsixUnmask_held (h := h))
  | usb4TunnelUp => exact advances_of_held (execUsb4TunnelUp_held (h := h))
  | usb4TunnelDown => exact advances_of_held (execUsb4TunnelDown_held (h := h))
  | enterUsb => exact advances_of_held (execEnterUsb_held (h := h))
  | busError => exact advances_of_held (execBusError_held (h := h))
  | engineResume => exact advances_of_held (execEngineResume_held (h := h))
  | quarantineDrained => exact advances_of_held (execQuarantineDrained_held (h := h))
  | paceAssert => exact advances_of_held (execPaceAssert_held (h := h))
  | paceWithdraw => exact advances_of_held (execPaceWithdraw_held (h := h))
  | mctpPacket => exact advances_of_held (execMctpPacket_held (h := h))
  | setEndpointId => exact advances_of_held (execSetEndpointId_held (h := h))
  | getEndpointId => exact advances_of_held (execGetEndpointId_held (h := h))
  | getMctpVersionSupport => exact advances_of_held (execGetMctpVersionSupport_held (h := h))
  | getMessageTypeSupport => exact advances_of_held (execGetMessageTypeSupport_held (h := h))
  | getVendorDefinedSupport => exact advances_of_held (execGetVendorDefinedSupport_held (h := h))
  | health => exact advances_of_held (execHealth_held (h := h))
  | temps => exact advances_of_held (execTemps_held (h := h))
  | power => exact advances_of_held (execPower_held (h := h))
  | events => exact advances_of_held (execEvents_held (h := h))
  | sidebandAttest => exact advances_of_held (execSidebandAttest_held (h := h))
  | sidebandAdmin => exact advances_of_held (execSidebandAdmin_held (h := h))
  | log => exact advances_of_held (execLog_held (h := h))
  | sidebandReset => exact advances_of_held (execSidebandReset_held (h := h))
  | sidebandWake => exact advances_of_held (execSidebandWake_held (h := h))
  | alertResponse => exact advances_of_held (execAlertResponse_held (h := h))
  | octPowerStart => exact advances_of_held (execOctPowerStart_held (h := h))
  | octVccGood => exact advances_of_held (execOctVccGood_held (h := h))
  | octVccqGood => exact advances_of_held (execOctVccqGood_held (h := h))
  | octResetTimer => exact advances_of_held (execOctResetTimer_held (h := h))
  | lunReady => exact advances_of_held (execLunReady_held (h := h))
  | lunReadyTimeout => exact advances_of_held (execLunReadyTimeout_held (h := h))
  | railGoodTimeout => exact advances_of_held (execRailGoodTimeout_held (h := h))
  | trainingDone => exact advances_of_held (execTrainingDone_held (h := h))
  | recentre => exact advances_of_held (execRecentre_held (h := h))
  | octDrainEnd => exact advances_of_held (execOctDrainEnd_held (h := h))
  | octVccqOff => exact advances_of_held (execOctVccqOff_held (h := h))
  | railTrip => exact advances_of_held (execRailTrip_held (h := h))
  | carrierPresenceLoss => exact advances_of_held (execCarrierPresenceLoss_held (h := h))
  | ownGrant => exact advances_of_held (execOwnGrant_held (h := h))
  | grantWaitTimeout => exact advances_of_held (execGrantWaitTimeout_held (h := h))
  | grantLoss => exact advances_of_held (execGrantLoss_held (h := h))
  | leaseRetry => exact advances_of_held (execLeaseRetry_held (h := h))
  | puntyLinkDown => exact advances_of_held (execPuntyLinkDown_held (h := h))
  | puntyLinkUp => exact advances_of_held (execPuntyLinkUp_held (h := h))
  | twinPeerRemoved => exact advances_of_held (execTwinPeerRemoved_held (h := h))
  | twinHbMiss => exact advances_of_held (execTwinHbMiss_held (h := h))
  | takeoverCare => exact advances_of_held (execTakeoverCare_held (h := h))
  | coldScanDone => exact advances_of_held (execColdScanDone_held (h := h))
  | twinRetry => exact advances_of_held (execTwinRetry_held (h := h))
  | autoAttach => exact advances_of_held (execAutoAttach_held (h := h))
  | twinDawnWait => exact advances_of_held (execTwinDawnWait_held (h := h))
  | hb => exact advances_of_held (execHb_held (h := h))
  | gather => exact advances_of_held (execGather_held (h := h))
  | jrec => exact advances_of_held (execJrec_held (h := h))
  | puntyAck => exact advances_of_held (execPuntyAck_held (h := h))
  | acommit => exact advances_of_held (execAcommit_held (h := h))
  | adiscard => exact advances_of_held (execAdiscard_held (h := h))
  | sync => exact advances_of_held (execSync_held (h := h))
  | nstab => exact advances_of_held (execNstab_held (h := h))
  | ctrlAttach => exact advances_of_held (execCtrlAttach_held (h := h))
  | ctrlDetach => exact advances_of_held (execCtrlDetach_held (h := h))
  | ctrlGranted => exact advances_of_held (execCtrlGranted_held (h := h))
  | ctrlRefused => exact advances_of_held (execCtrlRefused_held (h := h))
  | ctrlReleased => exact advances_of_held (execCtrlReleased_held (h := h))
  | ctrlReady => exact advances_of_held (execCtrlReady_held (h := h))
  | ctrlLlDone => exact advances_of_held (execCtrlLlDone_held (h := h))
  | ctrlCovering => exact advances_of_held (execCtrlCovering_held (h := h))
  | anchor => exact advances_of_held (execAnchor_held (h := h))
  | keyx => exact advances_of_held (execKeyx_held (h := h))
  | cert => exact advances_of_held (execCert_held (h := h))
  | caneLinkChange => exact advances_of_held (execCaneLinkChange_held (h := h))
  | neighborSolicitation => exact advances_of_held (execNeighborSolicitation_held (h := h))
  | echoRequest => exact advances_of_held (execEchoRequest_held (h := h))
  | kx1 => exact advances_of_held (execKx1_held (h := h))
  | kx2 => exact advances_of_held (execKx2_held (h := h))
  | kx3 => exact advances_of_held (execKx3_held (h := h))
  | req => exact advances_of_held (execReq_held (h := h))
  | rep => exact advances_of_held (execRep_held (h := h))
  | caneAck => exact advances_of_held (execCaneAck_held (h := h))
  | credit => exact advances_of_held (execCredit_held (h := h))
  | keepalive => exact advances_of_held (execKeepalive_held (h := h))
  | close => exact advances_of_held (execClose_held (h := h))
  | repl => exact advances_of_held (execRepl_held (h := h))
  | replAck => exact advances_of_held (execReplAck_held (h := h))
  | caneRto => exact advances_of_held (execCaneRto_held (h := h))
  | caneGiveup => exact advances_of_held (execCaneGiveup_held (h := h))
  | caneRekey => exact advances_of_held (execCaneRekey_held (h := h))
  | feedGood => exact advances_of_held (execFeedGood_held (h := h))
  | feedDrop => exact advances_of_held (execFeedDrop_held (h := h))
  | lossDeclared => exact advances_of_held (execLossDeclared_held (h := h))
  | lastLightFlushed => exact advances_of_held (execLastLightFlushed_held (h := h))
  | pwrTestStart half => exact advances_of_held (execPwrTestStart_held half s h)
  | pwrTestSinkEnd => exact advances_of_held (execPwrTestSinkEnd_held (h := h))
  | pwrTestDone => exact advances_of_held (execPwrTestDone_held (h := h))
  | nightSeal => exact advances_of_held (execNightSeal_held (h := h))
  | nightEntryStep => exact advances_of_held (execNightEntryStep_held (h := h))
  | midnightEntryStep => exact advances_of_held (execMidnightEntryStep_held (h := h))
  | duskIdle => exact advances_of_held (execDuskIdle_held (h := h))
  | wakeNLow => exact advances_of_held (execWakeNLow_held (h := h))
  | dayWakeAt => exact advances_of_held (execDayWakeAt_held (h := h))
  | wakeFromNight => exact advances_of_held (execWakeFromNight_held (h := h))
  | dawnOscillators => exact advances_of_held (execDawnOscillators_held (h := h))
  | dawnCool => exact advances_of_held (execDawnCool_held (h := h))
  | dawnLogic => exact advances_of_held (execDawnLogic_held (h := h))
  | dawnStepTimeout => exact advances_of_held (execDawnStepTimeout_held (h := h))
  | sensorSample readings changed => exact advances_of_held (execSensorSample_held readings changed s h)
  | carrierZoneReturn => exact advances_of_held (execCarrierZoneReturn_held (h := h))
  | hotStopFlushed => exact advances_of_held (execHotStopFlushed_held (h := h))
  | scrub => exact advances_of_held (execScrub_held (h := h))
  | sramUncorrectable => exact advances_of_held (execSramUncorrectable_held (h := h))
  | memTestDone => exact advances_of_held (execMemTestDone_held (h := h))
  | norProgramDone => exact advances_of_held (execNorProgramDone_held (h := h))
  | norEraseDone => exact advances_of_held (execNorEraseDone_held (h := h))
  | fwPreloadDone => exact advances_of_held (execFwPreloadDone_held (h := h))
  | fwSwitchBeat => exact advances_of_held (execFwSwitchBeat_held (h := h))
  | servitorRestart => exact advances_of_held (execServitorRestart_held (h := h))
  | watchdogExpiry => exact advances_of_held (execWatchdogExpiry_held (h := h))
  | tamperRestart => exact advances_of_held (execTamperRestart_held (h := h))
  | keyScrub => exact advances_of_held (execKeyScrub_held (h := h))
  | functionD3hot => exact advances_of_held (execFunctionD3hot_held (h := h))
  | overvoltageLockoutRelease => exact advances_of_held (execOvervoltageLockoutRelease_held (h := h))
  | caneDedupExpiry => exact advances_of_held (execCaneDedupExpiry_held (h := h))
  | oldSessionKeysExpiry => exact advances_of_held (execOldSessionKeysExpiry_held (h := h))
  | _ => cases about

/-- Every command keeps the queue, only burns fuses, and sets BEAT back only with the always-on domain's power (R20, R503). -/
theorem exec_advances {i : Instr} {s t : State} (h : exec i s = .next t) : Advances i s t := by
  cases about : i.ctxNumber with
  | none => exact exec_advances_of_noCtx about h
  | some c => exact exec_advances_of_ctx about h

/-- What `Moves` keeps of the invariant, where the queue that is left was well-formed. -/
theorem invariant_of_moves {s t : State} (inv : Invariant s) (moves : Moves s t) : Invariant t where
  queue := fun i waits => inv.queue i (moves.queue ▸ waits)
  tampers := moves.tampers inv.tampers
  repairs := moves.repairs inv.repairs
  bench := moves.bench inv.bench

/-- The invariant does not need the command at the front of the queue. -/
theorem invariant_tail {s : State} {i : Instr} {l : List Instr} (inv : Invariant s) (front : s.pending = i :: l) : Invariant (s.setPending l) :=
  { inv with queue := fun j waits => inv.queue j (front ▸ List.mem_cons_of_mem i waits) }

/-- Settles O59: a step runs the front command on the rest of the queue, and every command keeps what bounds the fuses. -/
theorem stepKeepsInvariant : Obligations.StepKeepsInvariant := by
  unfold Obligations.StepKeepsInvariant
  intro s t inv run
  unfold step at run
  split at run
  next idle =>
    cases run
    exact ⟨inv, by rw [idle]; rfl⟩
  next i l front =>
    obtain ⟨moves, -⟩ := exec_advances run
    exact ⟨invariant_of_moves (invariant_tail inv front) moves, by rw [front]; exact moves.queue⟩

/-- Settles O60: the arms of `exec_advances`, and BEAT as the four commands named leave it. -/
theorem beatAndFusesOnlyGrow : Obligations.BeatAndFusesOnlyGrow := by
  unfold Obligations.BeatAndFusesOnlyGrow
  refine ⟨fun i s t run => ?_, fun c s t run => ?_⟩
  · obtain ⟨moves, later⟩ := exec_advances run
    exact ⟨moves.fuses, later⟩
  · rcases run with run | run | run | run
    · exact (execLifeCycle_moves (h := run)).2
    · exact congrArg Held.beat (execModuleReset_held (h := run))
    · exact congrArg Held.beat (execFuncReset_held (h := run))
    · exact congrArg Held.beat (execFunctionReset_held (h := run))

end Sys2Proof.Proofs
end

section
/-! PROOF. StepRunsFrontCommand, RegisterInstructions, CompareInstructions, ControlInstructions, BufferInstructions: an instruction
that only changes its context lands that context as its effect makes it; what each effect makes of the counted context. -/

namespace Sys2Proof.Proofs

open Sys2Proof Sys2Proof.Machine Sys2Proof.Safety Sys2Proof.Laws

/-- Settles O1: the two cases of `step`. -/
theorem stepRunsFrontCommand : Obligations.StepRunsFrontCommand := by
  unfold Obligations.StepRunsFrontCommand
  refine ⟨fun c l s front => ?_, fun s idle => ?_⟩
  · simp only [step, front, State.setPending]
  · simp only [step, idle]

/-! ### What an issue leaves of its context -/

/-- An instruction that is not side-effecting fixes no commit beat (R145). -/
theorem ran_of_not_side {s : State} {x : Ctx} {op : Nat} {w : BitVec 32} (h : zSide op = false) : ran s x op w = x.countIssue op w := by
  simp [ran, h]

/-- A state whose contexts are those of s with context c replaced by y. -/
theorem ctx_replaced {s t : State} {c : Nat} {x y : Ctx} (found : getCtx s c = some x) (number : y.c = c)
    (ctxs : t.ctxs = (modCtx s c fun _ => y).ctxs) : getCtx t c = some y ∧ ∀ d, d ≠ c → getCtx t d = getCtx s d := by
  have same : ∀ d, getCtx t d = getCtx (modCtx s c fun _ => y) d := fun d => by simp only [getCtx, ctxs]
  exact ⟨(same c).trans (getCtx_put found number), fun d other => (same d).trans (getCtx_modCtx_ne s c d other _ fun _ _ => number)⟩

/-- A state whose contexts are those of s with context c replaced by y and then put back as z. -/
theorem ctx_replaced_put {s t : State} {c : Nat} {x y z : Ctx} (found : getCtx s c = some x) (hy : y.c = c) (hz : z.c = c)
    (ctxs : t.ctxs = (putCtx (modCtx s c fun _ => y) z).ctxs) : getCtx t c = some z ∧ ∀ d, d ≠ c → getCtx t d = getCtx s d := by
  refine ctx_replaced found hz (ctxs.trans ?_)
  simp only [putCtx, hz]
  exact congrArg State.ctxs (modCtx_put s c y _ hy)

/-- A command that only replaces its context leaves that context as replaced and all else as it was. -/
theorem lands_of_put {i : Instr} {s : State} {c : Nat} {x y z : Ctx} (found : getCtx s c = some x) (hy : y.c = c) (hz : z.c = c)
    (run : exec i s = .next (putCtx (modCtx s c fun _ => y) z)) : Lands i s c z := by
  have put : putCtx (modCtx s c fun _ => y) z = modCtx s c fun _ => z := by
    simp only [putCtx, hz]
    exact modCtx_put s c y _ hy
  exact lands_of_exec_eq_put found hz (run.trans (congrArg _ put))

/-- An issue whose checks pass and whose effect only replaces the context. -/
theorem issue_lands {i : Instr} {s : State} {c op : Nat} {x z : Ctx} {w : BitVec 32} {checks : Ctx → BitVec 32 → List (Bool × Nat)}
    {eff : State → Ctx → BitVec 32 → State} (h : Issues s c op x w) (side : zSide op = false) (run : exec i s = .next (issue s c op checks eff))
    (passes : firstFault (checks (x.countIssue op w) w) = none) (number : z.c = x.c)
    (effect : eff (modCtx s c fun _ => x.countIssue op w) (x.countIssue op w) w = putCtx (modCtx s c fun _ => x.countIssue op w) z) :
    Lands i s c z := by
  have hx : x.c = c := getCtx_number h.ctx
  rw [issue_runs h _ _ passes, ran_of_not_side side, effect] at run
  exact lands_of_put (y := x.countIssue op w) h.ctx hx (number.trans hx) run

/-- An instruction that completes at issue and is not side-effecting leaves its context as its effect makes the counted one. -/
theorem local_lands_counted {i : Instr} {s : State} {c op : Nat} {x z : Ctx} {w : BitVec 32} {f : Ctx → BitVec 32 → Ctx} (h : Issues s c op x w)
    (side : zSide op = false) (run : exec i s = .next (local_ s c op f)) (effect : f (x.countIssue op w) w = z) (number : z.c = x.c) : Lands i s c z :=
  issue_lands h side run rfl number (congrArg _ effect)

/-- What a write to Gd leaves of the counted context is `wrote`. -/
theorem setD_countIssue (x : Ctx) (op : Nat) (w : BitVec 32) (v : BitVec 64) : setD (x.countIssue op w) w v = wrote x op w v := by
  unfold setD rset wrote
  split <;> rfl

/-- What a write to a predicate leaves of the counted context is `compared`. -/
theorem pset_countIssue (x : Ctx) (op : Nat) (w : BitVec 32) (p : Nat) (b : Bool) : (pset (x.countIssue op w) p b).next = compared x op w p b := by
  unfold pset compared
  split <;> rfl

/-- An instruction that writes v to Gd at issue. -/
theorem local_wrote {i : Instr} {s : State} {c op : Nat} {x : Ctx} {w : BitVec 32} {f : Ctx → BitVec 32 → BitVec 64} (h : Issues s c op x w)
    (side : zSide op = false) (run : exec i s = .next (local_ s c op fun x w => setD x w (f x w))) :
    Lands i s c (wrote x op w (f (x.countIssue op w) w)) :=
  local_lands_counted h side run (setD_countIssue ..) rfl

/-- An instruction that writes a relation to predicate p at issue. -/
theorem local_compared {i : Instr} {s : State} {c op : Nat} {x : Ctx} {w : BitVec 32} {p : BitVec 32 → Nat} {f : Ctx → BitVec 32 → Bool}
    (h : Issues s c op x w) (side : zSide op = false) (run : exec i s = .next (local_ s c op fun x w => (pset x (p w) (f x w)).next)) :
    Lands i s c (compared x op w (p w) (f (x.countIssue op w) w)) :=
  local_lands_counted h side run (pset_countIssue ..) rfl

/-- Settles O2: each row of the table of register instructions is `local_` with the row's value. -/
theorem registerInstructions : Obligations.RegisterInstructions := by
  unfold Obligations.RegisterInstructions
  refine ⟨fun s c x w h => local_lands_counted h rfl rfl rfl rfl,
    fun s c x w h => local_wrote (f := fun _ w => zImmS w) h rfl rfl,
    fun s c x w h => local_wrote (f := fun x w => (rget x (zA w) <<< 15) ||| BitVec.ofNat 64 (zImm w)) h rfl rfl,
    fun s c x w h => local_wrote (f := fun x w => aluOp (zFn w) (rget x (zA w)) (rget x (zB w))) h rfl rfl,
    fun s c x w h => local_wrote (f := fun x w => rget x (zA w) + zImmS w) h rfl rfl,
    fun s c x w h => local_wrote (f := fun x w => rget x (zA w) &&& zImmS w) h rfl rfl,
    fun s c x w h => local_wrote (f := fun x w => rget x (zA w) ||| zImmS w) h rfl rfl,
    fun s c x w h => local_wrote (f := fun x w => rget x (zA w) ^^^ zImmS w) h rfl rfl,
    fun s c x w h small => ?_, fun s c x w h small => ?_⟩
  · have shifted := local_wrote (i := .shli c) (f := fun x w => rget x (zA w) <<< (zImm w % 64)) h rfl rfl
    rwa [Nat.mod_eq_of_lt small] at shifted
  · have shifted := local_wrote (i := .shri c) (f := fun x w => rget x (zA w) >>> (zImm w % 64)) h rfl rfl
    rwa [Nat.mod_eq_of_lt small] at shifted

/-- A lawful Boolean equality decides equality. -/
theorem beq_eq_decide_eq {α : Type} [BEq α] [LawfulBEq α] [DecidableEq α] (a b : α) : (a == b) = decide (a = b) := by
  by_cases same : a = b
  · rw [decide_eq_true same, beq_iff_eq.mpr same]
  · rw [decide_eq_false same, beq_eq_false_iff_ne.mpr same]

/-- The four relations of CMPI, and the first four of CMP, as the table of R156 names them. -/
theorem relation_of_named {k : Nat} {a b : BitVec 64} {v : Bool}
    (named : k = 0 ∧ v = decide (a = b) ∨ k = 1 ∧ v = decide (a ≠ b) ∨ k = 2 ∧ v = decide (a.toInt < b.toInt) ∨ k = 3 ∧ v = decide (a.toNat < b.toNat)) :
    relation k a b = v := by
  rcases named with ⟨rfl, rfl⟩ | ⟨rfl, rfl⟩ | ⟨rfl, rfl⟩ | ⟨rfl, rfl⟩
  · exact beq_eq_decide_eq ..
  · exact (congrArg (! ·) (beq_eq_decide_eq a b)).trans decide_not.symm
  · rfl
  · rfl

/-- The two relations that CMP alone has. -/
theorem relation_of_named_le {k : Nat} {a b : BitVec 64} {v : Bool}
    (named : k = 4 ∧ v = decide (a.toInt ≤ b.toInt) ∨ k = 5 ∧ v = decide (a.toNat ≤ b.toNat)) : relation k a b = v := by
  rcases named with ⟨rfl, rfl⟩ | ⟨rfl, rfl⟩
  · rfl
  · rfl

/-- Settles O3: the named relation is `relation` of the field, written to the predicate. -/
theorem compareInstructions : Obligations.CompareInstructions := by
  unfold Obligations.CompareInstructions
  refine ⟨fun s c x w b h small named => ?_, fun s c x w b h named => ?_⟩
  · have value : relation (zFn w) (rget x (zA w)) (rget x (zB w)) = b := by
      rcases named with eq | ne | lt | ltu | le
      · exact relation_of_named (.inl eq)
      · exact relation_of_named (.inr (.inl ne))
      · exact relation_of_named (.inr (.inr (.inl lt)))
      · exact relation_of_named (.inr (.inr (.inr ltu)))
      · exact relation_of_named_le le
    have landed := local_compared (i := .cmp c) (p := fun w => zD w % 4) (f := fun x w => relation (zFn w) (rget x (zA w)) (rget x (zB w))) h rfl rfl
    rw [Nat.mod_eq_of_lt small] at landed
    exact value ▸ landed
  · have value := relation_of_named named
    rw [← value]
    exact local_compared (i := .cmpi c) (p := fun w => zD w % 4) (f := fun x w => relation (zD w / 4) (rget x (zA w)) (zImmS w)) h rfl rfl

/-! ### Registers and handles -/

/-- A register field names one of the sixteen registers. -/
theorem zD_lt (w : BitVec 32) : zD w < 16 := Nat.mod_lt _ (by decide)

/-- A handle field names one of the eight handles. -/
theorem zH_lt (w : BitVec 32) : zH w < 8 := Nat.mod_lt _ (by decide)

/-- An element that was set reads as set. -/
theorem vget_vset_same {α : Type} {n i : Nat} (v : Vector α n) (x d : α) (h : i < n) : vget (vset v i x) i d = x := by
  simp [vget, vset, h]

/-- A register other than G0 reads what was written to it. -/
theorem rget_rset_same (x : Ctx) {i : Nat} (v : BitVec 64) (named : i ≠ 0) (h : i < 16) : rget (rset x i v) i = v := by
  simp only [rget, rset, named, if_false]
  exact vget_vset_same _ _ _ h

/-- What LOOP leaves of the counted context (R157). -/
theorem loop_effect (x : Ctx) (op : Nat) (w : BitVec 32) :
    (let x0 := x.countIssue op w
     let x1 := rset x0 (zD w) (rget x0 (zD w) - 1)
     if rget x1 (zD w) = 0 then x1.next else { x1 with pc := branchTo x0.pc (sext 15 (zImm w)) }) =
    { wrote x op w (rget x (zD w) - 1) with
      pc := if zD w ≠ 0 ∧ rget x (zD w) ≠ 1 then ((x.pc : Int) + sext 15 (zImm w)).toNat else x.pc + 1 } := by
  have same : rget (x.countIssue op w) (zD w) = rget x (zD w) := rfl
  by_cases g0 : zD w = 0
  · simp [g0, rget, rset, wrote, Ctx.next, Ctx.countIssue]
  · simp only [same, rget_rset_same _ _ g0 (zD_lt w)]
    by_cases last : rget x (zD w) = 1
    · simp [last, g0, wrote, rset, vset, Ctx.next, Ctx.countIssue]
    · have more : ¬ rget x (zD w) - 1 = 0 := fun e => last (by simpa using BitVec.sub_eq_iff_eq_add.mp e)
      rw [if_neg more, if_pos ⟨g0, last⟩]
      simp [g0, wrote, rset, vset, branchTo, Ctx.countIssue]

/-- Settles O4: BR and LOOP complete at issue; CALL and RET pass their check on the depth of the stack. -/
theorem controlInstructions : Obligations.ControlInstructions := by
  unfold Obligations.ControlInstructions
  refine ⟨fun s c x w h => local_lands_counted h rfl rfl rfl rfl, fun s c x w h => local_lands_counted h rfl rfl (loop_effect ..) rfl,
    fun s c x w h room slot => ?_, fun s c x w p q r h stack => ?_⟩
  · refine issue_lands h rfl rfl ?_ rfl ?_
    · have shallow : ¬ 8 ≤ (x.countIssue 0x15 w).stack.length := Nat.not_le.mpr room
      simp [firstFault, shallow]
    · simp only [Nat.mod_eq_of_lt slot]
      rfl
  · have top : (x.countIssue 0x16 w).stack = (p, q) :: r := stack
    refine issue_lands h rfl rfl ?_ rfl ?_
    · simp [firstFault, top]
    · simp only [top]
      rfl

/-! ### Buffers -/

/-- LD and ST in bounds and aligned meet no fault (R152). -/
theorem memChecks_pass {x : Ctx} {w : BitVec 32} (bounds : inBounds x (zH w) (memOff x w) (memWidth w) = true)
    (aligned : memOff x w % memWidth w = 0) : firstFault (memChecks x w) = none := by
  simp [memChecks, firstFault, bounds, aligned]

/-- An extent within the size of the buffer of a handle is in bounds. -/
theorem inBounds_of_hget {x : Ctx} {h o n : Nat} {b : Buf} (buffer : hget x h = some b) (fits : o + n ≤ b.size) : inBounds x h o n = true := by
  simp [inBounds, buffer, fits]

/-- What `lowest` finds passes its test and lies in its range. -/
theorem lowest_eq_some {p : Nat → Bool} {lo fuel k : Nat} (h : lowest p lo fuel = some k) : lo ≤ k ∧ k < lo + fuel ∧ p k = true := by
  induction fuel generalizing lo with
  | zero => cases h
  | succ n ih =>
    by_cases first : p lo = true
    · simp only [lowest, first, if_true, Option.some.injEq] at h
      subst h
      exact ⟨Nat.le_refl _, by omega, first⟩
    · simp only [lowest, first] at h
      obtain ⟨low, high, passes⟩ := ih h
      exact ⟨by omega, by omega, passes⟩

/-- `lowest` finds something where its range holds a number that passes its test. -/
theorem lowest_isSome {p : Nat → Bool} {lo fuel k : Nat} (low : lo ≤ k) (high : k < lo + fuel) (passes : p k = true) : (lowest p lo fuel).isSome = true := by
  induction fuel generalizing lo with
  | zero => omega
  | succ n ih =>
    by_cases first : p lo = true
    · simp [lowest, first]
    · have later : lo ≠ k := fun e => first (e ▸ passes)
      simp only [lowest, first]
      exact ih (by omega) (by omega)

/-- A permitted size is found by its code, and no other size has one. -/
theorem bufCode_eq_some {n k : Nat} : bufCode n = some k ↔ 1 ≤ k ∧ k ≤ 11 ∧ n = 2 ^ (k + 11) := by
  have sound : ∀ j, bufCode n = some j → 1 ≤ j ∧ j ≤ 11 ∧ n = 2 ^ (j + 11) := fun j h => by
    obtain ⟨low, high, size⟩ := lowest_eq_some h
    exact ⟨low, by omega, by simpa using size⟩
  refine ⟨sound k, fun ⟨low, high, size⟩ => ?_⟩
  obtain ⟨j, found⟩ := Option.isSome_iff_exists.mp (lowest_isSome (p := fun k => n == 2 ^ (k + 11)) low (fuel := 11) (by omega) (by simpa using size))
  obtain ⟨-, -, same⟩ := sound j found
  have exponent : j + 11 = k + 11 := (Nat.pow_right_inj (by decide)).mp (same.symm.trans size)
  exact found.trans (by rw [Nat.add_right_cancel exponent])

/-- A GET that gets nothing clears its predicate and changes nothing else (R161). -/
theorem bufGet_refused {s : State} {c : Nat} {x : Ctx} {w : BitVec 32} (h : Issues s c 0x1C x w) (fn : zFl w = 0)
    (refused : hget x (zH w) ≠ none ∨ (∀ k, 1 ≤ k → k ≤ 11 → ga x w ≠ 2 ^ (k + 11)) ∨ 1024 * x.slabLeft < ga x w) :
    Lands (.bufGet c) s c (compared x 0x1C w (zD w % 4) false) := by
  have selected : bufIs 0 s c = true := bufIs_of_atWord h.toAtWord fn
  refine issue_lands (x := x) (w := w) h rfl (by simp only [exec, execBufGet, selected, Bool.not_true, Bool.false_eq_true, if_false]; rfl) rfl rfl ?_
  have size : (rget (x.countIssue 0x1C w) (zA w)).toNat = ga x w := rfl
  have handle : hget (x.countIssue 0x1C w) (zH w) = hget x (zH w) := rfl
  simp only [size, handle]
  cases code : bufCode (ga x w) with
  | none => exact congrArg (putCtx _) (pset_countIssue ..)
  | some k =>
    obtain ⟨low, high, amount⟩ := bufCode_eq_some.mp code
    have no : ¬ ((hget x (zH w)).isNone && decide (2 ^ (k + 11) ≤ 1024 * (x.countIssue 0x1C w).slabLeft)) = true := by
      have left : (x.countIssue 0x1C w).slabLeft = x.slabLeft := rfl
      rcases refused with taken | none_ | short
      · simp [taken]
      · exact absurd amount (none_ k low high)
      · have : ¬ 2 ^ (k + 11) ≤ 1024 * x.slabLeft := by omega
        simp [left, this]
    simp only [no, if_false, Bool.false_eq_true]
    exact congrArg (putCtx _) (pset_countIssue ..)

/-- A context past a GET that gave handle h a buffer of size code k at address a (R161). -/
def granted (x : Ctx) (w : BitVec 32) (k : Nat) (a : BitVec 40) : Ctx :=
  { compared x 0x1C w (zD w % 4) true with
    hnd := x.hnd.setIfInBounds (zH w) (some { addr := a, code := k, bytes := [] }), slabLeft := x.slabLeft - 2 ^ (k + 1) }

/-- What a GET makes of the counted context. -/
theorem granted_of_countIssue (x : Ctx) (w : BitVec 32) (k : Nat) (a : BitVec 40) :
    (pset { hset (x.countIssue 0x1C w) (zH w) (some { addr := a, code := k, bytes := [] }) with slabLeft := x.slabLeft - 2 ^ (k + 1) }
      (zD w % 4) true).next = granted x w k a := by
  unfold pset granted compared
  split <;> rfl

/-- A GET of a permitted size on an empty handle takes its buffer from SLABLEFT (R161). -/
theorem bufGet_granted {s : State} {c : Nat} {x : Ctx} {w : BitVec 32} {k : Nat} (h : Issues s c 0x1C x w) (fn : zFl w = 0)
    (empty : hget x (zH w) = none) (low : 1 ≤ k) (high : k ≤ 11) (amount : ga x w = 2 ^ (k + 11)) (room : 2 ^ (k + 11) ≤ 1024 * x.slabLeft) :
    Does (.bufGet c) s fun t => (∃ a, getCtx t c = some (granted x w k a)) ∧ (∀ d, d ≠ c → getCtx t d = getCtx s d) ∧
      t = { s with ctxs := t.ctxs, freeCtr := t.freeCtr } := by
  have selected : bufIs 0 s c = true := bufIs_of_atWord h.toAtWord fn
  have hx : x.c = c := getCtx_number h.ctx
  have code : bufCode (rget (x.countIssue 0x1C w) (zA w)).toNat = some k := bufCode_eq_some.mpr ⟨low, high, amount⟩
  have handle : hget (x.countIssue 0x1C w) (zH w) = none := empty
  have left : (x.countIssue 0x1C w).slabLeft = x.slabLeft := rfl
  let a : BitVec 40 := (Config.freeValue s.freeCtr).setWidth 40
  have run : exec (.bufGet c) s = .next (putCtx ((modCtx s c fun _ => x.countIssue 0x1C w).updFreeCtr (· + 1)) (granted x w k a)) := by
    simp only [exec, execBufGet, selected, Bool.not_true, Bool.false_eq_true, if_false]
    rw [issue_runs h _ _ rfl, ran_of_not_side rfl]
    simp only [code, handle, left, room, Option.isNone_none, decide_true, Bool.and_self, if_true]
    exact congrArg (fun y => Host.Outcome.next (putCtx ((modCtx s c fun _ => x.countIssue 0x1C w).updFreeCtr (· + 1)) y)) (granted_of_countIssue x w k a)
  obtain ⟨own, others⟩ := ctx_replaced_put (y := x.countIssue 0x1C w) (z := granted x w k a) h.ctx hx hx
    (t := putCtx ((modCtx s c fun _ => x.countIssue 0x1C w).updFreeCtr (· + 1)) (granted x w k a)) rfl
  exact ⟨_, run, ⟨_, own⟩, others, rfl⟩

/-- Settles O5. -/
theorem bufferInstructions : Obligations.BufferInstructions := by
  unfold Obligations.BufferInstructions
  refine ⟨fun s c x w h bounds aligned => ?_, fun s c x w b h buffer fits aligned => ?_, fun s c x w k h fn empty low high amount room =>
    bufGet_granted h fn empty low high amount room, fun s c x w h fn refused => bufGet_refused h fn refused, fun s c x w h fn => ?_, fun s c x w h fn => ?_⟩
  · exact issue_lands h rfl rfl (memChecks_pass (x := x.countIssue 0x18 w) bounds aligned) rfl (congrArg (putCtx _) (setD_countIssue ..))
  · have bounds : inBounds (x.countIssue 0x19 w) (zH w) (memOff x w) (memWidth w) = true := inBounds_of_hget buffer fits
    have held : hget (x.countIssue 0x19 w) (zH w) = some b := buffer
    refine issue_lands h rfl rfl (memChecks_pass (x := x.countIssue 0x19 w) bounds aligned) rfl (congrArg _ ?_)
    simp only [hwrite, hmod, held]
    rfl
  · have selected : bufIs 1 s c = true := bufIs_of_atWord h.toAtWord fn
    exact local_lands_counted h rfl (by simp only [exec, execBufPut, selected]; rfl) rfl rfl
  · have selected : bufIs 2 s c = true := bufIs_of_atWord h.toAtWord fn
    exact local_wrote (f := fun x w => BitVec.ofNat 64 (hsize x (zH w))) h rfl (by simp only [exec, execBufSize, selected]; rfl)

end Sys2Proof.Proofs
end

section
/-! PROOF. IssueFaults: which check of an issue holds first (R152). -/

namespace Sys2Proof.Proofs

open Sys2Proof Sys2Proof.Machine Sys2Proof.Safety Sys2Proof.Laws

/-- Every row of the opcode map but those of BUF is an issue wherever its context may issue. -/
theorem exec_eq_issue_of_canIssue {i : Instr} {s : State} {c op : Nat} {x : Ctx} (row : zciRow i = some (c, op, none)) (found : getCtx s c = some x)
    (free : canIssue s x = true) : ∃ checks eff, exec i s = .next (issue s c op checks eff) := by
  cases i
  case post =>
    cases row
    simp only [exec, execPost, found, wait_eq_ready_of_canIssue free, if_true]
    exact ⟨_, _, rfl⟩
  all_goals cases row <;> exact ⟨_, _, rfl⟩

/-- An issue past the last instruction faults with 0x03 (R152). -/
theorem issue_pastEnd {s : State} {c op : Nat} {x : Ctx} (found : getCtx s c = some x) (free : canIssue s x = true) (noWord : wordAt s x = none)
    (checks : Ctx → BitVec 32 → List (Bool × Nat)) (eff : State → Ctx → BitVec 32 → State) : issue s c op checks eff = faultCtx s c 0x03 := by
  simp only [issue, found, free, noWord, Bool.not_true, Bool.false_eq_true, if_false]

/-- An instruction whose first check that holds is of code k. -/
theorem faults_of_issue {i : Instr} {s : State} {c op k : Nat} {x : Ctx} {w : BitVec 32} {checks : Ctx → BitVec 32 → List (Bool × Nat)}
    {eff : State → Ctx → BitVec 32 → State} (h : Issues s c op x w) (run : exec i s = .next (issue s c op checks eff))
    (first : firstFault (checks (x.countIssue op w) w) = some k) : exec i s = .next (faultCtx (modCtx s c fun _ => x.countIssue op w) c k) :=
  run.trans (congrArg _ (issue_faults h checks eff first))

/-- Out of bounds comes before misaligned (R152, R160). -/
theorem memChecks_out {x : Ctx} {w : BitVec 32} (out : inBounds x (zH w) (memOff x w) (memWidth w) = false) : firstFault (memChecks x w) = some 0x04 := by
  simp [memChecks, firstFault, out]

/-- In bounds, a misaligned access is the fault. -/
theorem memChecks_misaligned {x : Ctx} {w : BitVec 32} (bounds : inBounds x (zH w) (memOff x w) (memWidth w) = true)
    (odd : memOff x w % memWidth w ≠ 0) : firstFault (memChecks x w) = some 0x05 := by
  simp [memChecks, firstFault, bounds, odd]

/-- Settles O14: each instruction's list of checks, in the order of R152. -/
theorem issueFaults : Obligations.IssueFaults := by
  unfold Obligations.IssueFaults
  refine ⟨fun s c x w h => faults_of_issue h rfl rfl, fun i s c op x w k row fn h counts spent cls => ?_, fun i s c op x row found free noWord => ?_,
    fun s c x w h empty => ?_, fun s c x w h deep => ?_, fun s c x w i op row h tenant => ?_, fun s c x w i op row h out => ?_,
    fun s c x w i op row h bounds odd => ?_⟩
  · obtain ⟨checks, eff, run⟩ := exec_eq_issue row fn h
    have none_left : ¬ BudgetLeft x op := by
      rintro (media | left | d7)
      · simp [counts] at media
      · exact left spent
      · exact cls d7
    rw [run, issue_budgetSpent h none_left checks eff]
  · obtain ⟨checks, eff, run⟩ := exec_eq_issue_of_canIssue row found free
    rw [run, issue_pastEnd found free noWord checks eff]
  · have top : (x.countIssue 0x16 w).stack = [] := empty
    exact faults_of_issue h rfl (by simp [firstFault, top])
  · have depth : 8 ≤ (x.countIssue 0x15 w).stack.length := deep
    exact faults_of_issue h rfl (by simp [firstFault, depth])
  · have privilege : (x.countIssue op w).admin = false := tenant
    simp only [List.mem_cons, Prod.mk.injEq, List.not_mem_nil, or_false] at row
    rcases row with ⟨rfl, rfl⟩ | ⟨rfl, rfl⟩ | ⟨rfl, rfl⟩
    all_goals exact faults_of_issue h rfl (by simp [firstFault, adminCheck, privilege])
  · simp only [List.mem_cons, Prod.mk.injEq, List.not_mem_nil, or_false] at row
    rcases row with ⟨rfl, rfl⟩ | ⟨rfl, rfl⟩
    all_goals exact faults_of_issue h rfl (memChecks_out (x := x.countIssue _ w) out)
  · simp only [List.mem_cons, Prod.mk.injEq, List.not_mem_nil, or_false] at row
    rcases row with ⟨rfl, rfl⟩ | ⟨rfl, rfl⟩
    all_goals exact faults_of_issue h rfl (memChecks_misaligned (x := x.countIssue _ w) bounds odd)

end Sys2Proof.Proofs
end

section
/-! PROOF. RunTimeFaultWord is refuted: nothing bounds the program number of the context, and one of 2^16 carries out of the field
[31:16] of the result word into the count of instructions (R143). -/

namespace Sys2Proof.Proofs

open Sys2Proof Sys2Proof.Machine Sys2Proof.Safety Sys2Proof.Laws

/-- A context in program 2^16, beyond the 4,096 slots and the host-memory program, after nine instructions. -/
def strayCtx : Ctx := { copyingCtx with prog := 2 ^ 16, issued := 9 }

/-- That context alone on an ACTIVE ring of a function that can be written. -/
def straySt : State :=
  { State.reset with
    ctxs := [strayCtx], rings := [Ring.fresh 0 0 1], fns := [{ HostFn.init with n := 0, busMaster := true }] }

/-- The premises of the first clause hold in straySt. -/
theorem straySt_premises : getCtx straySt 0 = some strayCtx ∧ strayCtx.wait ≠ .fixed ∧ strayCtx.src = .ring 0 ∧
    getRing straySt 0 = some (Ring.fresh 0 0 1) ∧ (Ring.fresh 0 0 1).rst = none ∧ strayCtx.withheld = false ∧ strayCtx.entry.isProg = true ∧
    getFn straySt 0 = some { HostFn.init with n := 0, busMaster := true } ∧ ({ HostFn.init with n := 0, busMaster := true } : HostFn).writable = true ∧
    straySt.plan.resetFlush = false ∧ strayCtx.atom = [] ∧ postBlocked straySt strayCtx = false := by decide +kernel

/-- What the fault of straySt writes: ten instructions where nine have issued. -/
theorem faultCtx_straySt_out : ∃ e : Completion, (faultCtx straySt 0 0x0C).out = [.completion 0 0 e] ∧ bits e.result.toNat 63 32 = 10 :=
  ⟨_, rfl, by decide +kernel⟩

/-- Refutes O15: a fault in program 2^16 after nine instructions reports ten. -/
theorem not_runTimeFaultWord : ¬ Obligations.RunTimeFaultWord := by
  unfold Obligations.RunTimeFaultWord
  rintro ⟨posts, -⟩
  obtain ⟨ctx, wait, src, ring, going, kept, prog, fn, writable, flush, atom, order⟩ := straySt_premises
  obtain ⟨e, l, out, -, -, -, -, -, -, -, count⟩ := posts straySt 0 strayCtx 0 _ _ 0x0C ctx wait src ring going kept prog fn writable flush atom order (by decide)
  obtain ⟨e', out', ten⟩ := faultCtx_straySt_out
  obtain ⟨-, same⟩ : _ ∧ e = e' := by simpa using (List.cons.inj (out.symm.trans out')).1
  rw [same, ten] at count
  exact absurd count (by decide)

end Sys2Proof.Proofs
end

section
/-! PROOF. PostDeliversTheCompletion: what a completion written into a ring and the end of a context change, each once; then the path of a
POST that nothing holds back, from its issue to the end of its context (R92, R94, R186). -/

namespace Sys2Proof.Proofs

open Sys2Proof Sys2Proof.Machine Sys2Proof.Safety Sys2Proof.Laws

/-! ### Rings -/

/-- A changed ring pair reads as changed. -/
theorem getRing_modRing (s : State) (g : Nat) (f : Ring → Ring) (keeps : ∀ r, r.g = g → (f r).g = g) :
    getRing (modRing s g f) g = (getRing s g).map f :=
  find_updIf Ring.g g f keeps s.rings

/-- Every other ring pair reads as before. -/
theorem getRing_modRing_ne (s : State) {g h : Nat} (other : h ≠ g) (f : Ring → Ring) (keeps : ∀ r, r.g = g → (f r).g = g) :
    getRing (modRing s g f) h = getRing s h :=
  find_updIf_ne Ring.g g h other f keeps s.rings

/-- A changed ring pair that is there. -/
theorem getRing_modRing_found {s : State} {g : Nat} {r : Ring} (found : getRing s g = some r) (f : Ring → Ring) (keeps : ∀ r, (f r).g = r.g) :
    getRing (modRing s g f) g = some (f r) := by
  rw [getRing_modRing s g f fun r hr => (keeps r).trans hr, found]
  rfl

/-- The ring pair found under a number bears it. -/
theorem getRing_number {s : State} {g : Nat} {r : Ring} (h : getRing s g = some r) : r.g = g := by
  simpa using List.find?_some h

/-- A message sends one interrupt or sets a Pending Bit of its function. -/
theorem sendMsix_frame (s : State) (n v : Nat) : sendMsix s n v = { s with fns := (sendMsix s n v).fns, out := (sendMsix s n v).out } := by
  unfold sendMsix
  repeat' split
  all_goals rfl

/-- A message sends at most one interrupt. -/
theorem sendMsix_out (s : State) (n v : Nat) : ∃ l : List Out, (sendMsix s n v).out = s.out ++ l ∧ l.length ≤ 1 := by
  unfold sendMsix
  repeat' split
  · exact ⟨[], by simp, by simp⟩
  · exact ⟨[], by simp, by simp⟩
  · exact ⟨[], by simp [modFn], by simp⟩
  · exact ⟨_, rfl, by simp⟩

/-- The coalescing rule changes the pending count of a ring pair, a Pending Bit, or sends a message (R99). -/
theorem coalesce_frame (s : State) (g : Nat) :
    coalesce s g = { s with rings := (coalesce s g).rings, fns := (coalesce s g).fns, out := (coalesce s g).out } := by
  unfold coalesce
  repeat' split
  · rfl
  · rw [sendMsix_frame]
    rfl
  · rfl

/-- The coalescing rule sends at most one message. -/
theorem coalesce_out (s : State) (g : Nat) : ∃ l : List Out, (coalesce s g).out = s.out ++ l ∧ l.length ≤ 1 := by
  unfold coalesce
  repeat' split
  · exact ⟨[], by simp, by simp⟩
  · exact sendMsix_out ..
  · exact ⟨[], by simp, by simp⟩

/-- The coalescing rule leaves a ring pair but for its pending count. -/
theorem getRing_coalesce {s : State} {g : Nat} {r : Ring} (found : getRing s g = some r) :
    ∃ n, getRing (coalesce s g) g = some { r with pend := n } := by
  simp only [coalesce, found]
  split
  · refine ⟨0, ?_⟩
    have rings : (sendMsix (modRing s g fun r => { r with pend := 0 }) r.fn r.vector).rings = (modRing s g fun r => { r with pend := 0 }).rings := by
      rw [sendMsix_frame]
    have same : getRing (modRing s g fun r => { r with pend := 0 }) g = some { r with pend := 0 } := getRing_modRing_found found _ fun _ => rfl
    rwa [getRing, ← rings] at same
  · exact ⟨r.pend, found⟩

/-- The entry that a completion of a ring pair writes (R92). -/
def entryOf (s : State) (r : Ring) (status cid : BitVec 16) (detail : BitVec 8) (result adm : BitVec 64) (dline : Option Nat) : Completion :=
  { status := status, cid := cid, sqHead := BitVec.ofNat 16 r.sqHead, phase := r.phase, detail := detail, result := result, admSeq := adm
    cbeat := BitVec.ofNat 48 s.beat, slack := slackAt s.beat dline }

/-- A completion changes its ring pair, Pending Bits and what was sent. -/
theorem writeCompletion_frame (s : State) (g : Nat) (status cid : BitVec 16) (detail : BitVec 8) (result adm : BitVec 64) (dline : Option Nat) (noIrq : Bool) :
    ∃ rings fns out, writeCompletion s g status cid detail result adm dline noIrq = { s with rings := rings, fns := fns, out := out } := by
  unfold writeCompletion
  split
  · exact ⟨_, _, _, rfl⟩
  · rw [coalesce_frame]
    exact ⟨_, _, _, rfl⟩

/-- A completion is written in the slot at CQ_TAIL; at most one message follows (R94, R99). -/
theorem writeCompletion_out {s : State} {g : Nat} {r : Ring} (found : getRing s g = some r) (status cid : BitVec 16) (detail : BitVec 8)
    (result adm : BitVec 64) (dline : Option Nat) (noIrq : Bool) :
    ∃ l : List Out, (writeCompletion s g status cid detail result adm dline noIrq).out =
      s.out ++ .completion g r.cqTail (entryOf s r status cid detail result adm dline) :: l ∧ l.length ≤ 1 := by
  simp only [writeCompletion, found]
  obtain ⟨l, sent, few⟩ := coalesce_out (emit (modRing s g _) (.completion g r.cqTail (entryOf s r status cid detail result adm dline))) g
  exact ⟨l, sent.trans (by simp [emit, modRing]), few⟩

/-- A completion moves CQ_TAIL one round the ring (R94). -/
theorem writeCompletion_tail {s : State} {g : Nat} {r : Ring} (found : getRing s g = some r) (status cid : BitVec 16) (detail : BitVec 8)
    (result adm : BitVec 64) (dline : Option Nat) (noIrq : Bool) :
    ∃ q, getRing (writeCompletion s g status cid detail result adm dline noIrq) g = some q ∧ q.cqTail = (r.cqTail + 1) % r.cqSize := by
  simp only [writeCompletion, found]
  have kept : ∀ (f : Ring → Ring) (o : Out), (∀ r, (f r).g = r.g) → ∃ p, getRing (coalesce (emit (modRing s g f) o) g) g = some p ∧ p.cqTail = (f r).cqTail :=
    fun f o keeps => by
      obtain ⟨n, after⟩ := getRing_coalesce (s := emit (modRing s g f) o) (getRing_modRing_found found f keeps)
      exact ⟨_, after, rfl⟩
  exact kept (fun r => { r with cqTail := (r.cqTail + 1) % r.cqSize, phase := _, oldest := _, pend := _ }) _ fun _ => rfl

/-! ### The end of a context -/

/-- What both branches agree on holds of the choice. -/
theorem ite_agree {α β : Type} (f : α → β) {p : Prop} [Decidable p] {a b : α} {r : β} (first : f a = r) (second : f b = r) : f (if p then a else b) = r := by
  split <;> assumption

/-- A state without what the end of a context changes: bookings, the dies' queues, the library's pins, gather slots and the contexts. -/
def besideEnd (s : State) : State :=
  { s with plan := State.reset.plan, flash := State.reset.flash, zci := State.reset.zci, ctxs := [], xlat := { s.xlat with gather := [] } }

/-- Released bookings are of the planner and the dies. -/
theorem besideEnd_releaseBookings (s : State) (adm : Nat) : besideEnd (releaseBookings s adm) = besideEnd s := rfl

/-- Sweeping changes gather slots only. -/
theorem besideEnd_sweepGather (s : State) : besideEnd (sweepGather s) = besideEnd s := rfl

/-- A command that did not write gives back its share of the drain too (R51, R545). -/
theorem besideEnd_endRelease (s : State) (x : Ctx) :
    besideEnd (if x.status = St.ok ∨ x.status = St.okRebuilt then releaseBookings (releaseBookings s x.adm) (throughOwner x.adm)
      else releaseBookings (releaseBookings (releaseBookings s x.adm) (throughOwner x.adm)) (drainOwner x.adm)) = besideEnd s := by
  have both : besideEnd (releaseBookings (releaseBookings s x.adm) (throughOwner x.adm)) = besideEnd s :=
    (besideEnd_releaseBookings ..).trans (besideEnd_releaseBookings ..)
  exact ite_agree besideEnd both ((besideEnd_releaseBookings ..).trans both)

/-- Releasing bookings leaves the contexts. -/
theorem releaseBookings_ctxs (s : State) (adm : Nat) : (releaseBookings s adm).ctxs = s.ctxs := rfl

theorem besideEnd_updZci (s : State) (f : Zci → Zci) : besideEnd (s.updZci f) = besideEnd s := rfl

theorem besideEnd_updCtxs (s : State) (f : List Ctx → List Ctx) : besideEnd (s.updCtxs f) = besideEnd s := rfl

theorem besideEnd_updGather (s : State) (f : Xlat → List GatherSlot) : besideEnd (s.updXlat fun t => { t with gather := f t }) = besideEnd s := rfl

/-- The end of a context changes nothing beside. -/
theorem besideEnd_endCtx (s : State) (c : Nat) : besideEnd (endCtx s c) = besideEnd s := by
  unfold endCtx
  split
  · rfl
  · refine (besideEnd_sweepGather _).trans (ite_agree besideEnd ?_ ?_)
    · exact (besideEnd_updCtxs ..).trans ((besideEnd_updGather ..).trans ((besideEnd_updZci ..).trans (besideEnd_endRelease ..)))
    · exact (besideEnd_updZci ..).trans ((besideEnd_updCtxs ..).trans ((besideEnd_updGather ..).trans ((besideEnd_updZci ..).trans (besideEnd_endRelease ..))))

/-- The contexts that are left once a context in use has ended. -/
theorem endCtx_ctxs {s : State} {c : Nat} {x : Ctx} (found : getCtx s c = some x) : (endCtx s c).ctxs = s.ctxs.filter fun y => y.c != c := by
  have swept : ∀ t : State, (sweepGather t).ctxs = t.ctxs := fun _ => rfl
  simp only [endCtx, found, swept, apply_ite State.ctxs, State.updCtxs_ctxs, State.updXlat_ctxs, State.updZci_ctxs, releaseBookings_ctxs, ite_self]

/-- A context that has ended is gone. -/
theorem getCtx_endCtx {s : State} {c : Nat} {x : Ctx} (found : getCtx s c = some x) : getCtx (endCtx s c) c = none := by
  simp [getCtx, endCtx_ctxs found]

/-- The end of a context leaves every other. -/
theorem getCtx_endCtx_ne {s : State} {c d : Nat} {x : Ctx} (found : getCtx s c = some x) (other : d ≠ c) : getCtx (endCtx s c) d = getCtx s d := by
  rw [getCtx, endCtx_ctxs found, List.find?_filter]
  refine congrArg (List.find? · s.ctxs) (funext fun y => ?_)
  by_cases same : y.c = d
  · simp [same, other]
  · simp [same]

/-! ### From POST to the completion -/

/-- Replacing a context by one of the same admission number brings no earlier overlapping command. -/
theorem postBlocked_put {s : State} {c : Nat} {x y z : Ctx} (free : postBlocked s x = false) (hy : y.adm = x.adm) (hz : z.adm = x.adm)
    (same : ∀ u, overlaps z u = overlaps x u) : postBlocked (modCtx s c fun _ => y) z = false := by
  simp only [postBlocked, List.any_eq_false] at free ⊢
  intro u hu
  obtain ⟨v, hv, rfl⟩ := List.mem_map.mp hu
  rw [hz, same]
  split
  · simp [hy]
  · exact free v hv

/-- A POST of durable writes with no atom group fixes the status that R185 gives and goes on to the completion. -/
theorem post_fixes {s : State} {c : Nat} {x : Ctx} (found : getCtx s c = some x) (posting : x.wait = .posting) (writes : durable s x = true)
    (going : x.stopping = false) (group : x.atom = []) :
    post s c = tryComplete (modCtx s c fun y => { y with status := (fixStatus x.sticky x.status x.detail x.result).1
                                                         detail := (fixStatus x.sticky x.status x.detail x.result).2.1
                                                         result := (fixStatus x.sticky x.status x.detail x.result).2.2, wait := .fixed }) c := by
  simp [post, found, posting, writes, going, group]

/-- A fixed command that nothing holds back completes. -/
theorem tryComplete_completes {s : State} {c : Nat} {x : Ctx} (found : getCtx s c = some x) (fixed : x.wait = .fixed) (free : postBlocked s x = false)
    (writes : durable s x = true) : tryComplete s c = complete s x := by
  simp [tryComplete, found, fixed, free, writes]

/-- The completion of a program's command goes into its ring, and its context ends. -/
theorem complete_writes {s : State} {x : Ctx} {g : Nat} {r : Ring} (src : x.src = .ring g) (found : getRing s g = some r) (going : r.rst = none)
    (given : x.withheld = false) (prog : x.entry.isProg = true) (writable : fnWritable s r.fn = true) (flush : s.plan.resetFlush = false) :
    ∃ plan sec, complete s x = endCtx (writeCompletion { s with plan := plan, sec := sec } g x.status x.entry.cid x.detail x.result (BitVec.ofNat 64 x.adm)
      x.slackTo x.entry.noIrq) x.c := by
  have typ : (x.entry.typ != 4) = true := by
    simp only [Entry.isProg, Bool.or_eq_true, beq_iff_eq] at prog
    rcases prog with e | e <;> simp [e]
  have idle : afterAdm s x = s := by simp only [afterAdm, typ, if_true]
  simp only [complete, idle, src, flush, found, given, going, writable, Option.isSome_none, Bool.false_eq_true, if_false, if_true]
  split
  · exact ⟨_, _, rfl⟩
  · exact ⟨_, s.sec, rfl⟩

/-- A context whose POST has fixed its status (R185). -/
def posted (s : State) (x : Ctx) (w : BitVec 32) : Ctx :=
  { ran s x 0x01 w with
    status := (fixStatus x.sticky (postStatus (zFn w)) (BitVec.ofNat 8 (gb x w)) (rget x (zA w))).1
    detail := (fixStatus x.sticky (postStatus (zFn w)) (BitVec.ofNat 8 (gb x w)) (rget x (zA w))).2.1
    result := (fixStatus x.sticky (postStatus (zFn w)) (BitVec.ofNat 8 (gb x w)) (rget x (zA w))).2.2, wait := .fixed }

/-- A POST whose command holds no atom group and whose writes are durable fixes its status and goes on to the completion. -/
theorem exec_post_fixes {s : State} {c : Nat} {x : Ctx} {w : BitVec 32} (h : Issues s c 0x01 x w) (group : x.atom = []) (writes : durable s x = true) :
    exec (.post c) s = .next (tryComplete (modCtx s c fun _ => posted s x w) c) := by
  have hx : x.c = c := getCtx_number h.ctx
  have ready : (x.wait == .ready) = true := wait_eq_ready_of_canIssue h.free
  have going : x.stopping = false := by
    have free := h.free
    simp only [canIssue, readyNow, Bool.and_eq_true] at free
    simpa using free.1.1.1.2
  simp only [exec, execPost, h.ctx, ready, if_true]
  rw [issue_runs h _ _ rfl]
  let z : Ctx := { ran s x 0x01 w with status := postStatus (zFn w), detail := BitVec.ofNat 8 (gb (ran s x 0x01 w) w), result := rget (ran s x 0x01 w) (zA w), wait := .posting }
  have zDef : z = { ran s x 0x01 w with status := postStatus (zFn w), detail := BitVec.ofNat 8 (gb (ran s x 0x01 w) w), result := rget (ran s x 0x01 w) (zA w), wait := .posting } := rfl
  rw [← zDef]
  have put : putCtx (modCtx s c fun _ => ran s x 0x01 w) z = modCtx s c fun _ => z := by
    simp only [putCtx, show z.c = c from hx]
    exact modCtx_put s c _ _ hx
  have held : getCtx (modCtx s c fun _ => z) c = some z := getCtx_put h.ctx hx
  rw [put, post_fixes held rfl writes going group, modCtx_put s c z _ hx]
  rfl

/-- Settles O13: the status is fixed, the completion is written, and the context ends. -/
theorem postDeliversTheCompletion : Obligations.PostDeliversTheCompletion := by
  unfold Obligations.PostDeliversTheCompletion
  intro s c x w g r f h src found going given prog fn writable flush group writes order
  have hx : x.c = c := getCtx_number h.ctx
  let y := posted s x w
  let t := modCtx s c fun _ => y
  have held : getCtx t c = some y := getCtx_put h.ctx hx
  have unblocked : postBlocked t y = false := postBlocked_put order rfl rfl fun _ => rfl
  have reachable : fnWritable t r.fn = true := by
    have same : getFn t r.fn = some f := fn
    simp [fnWritable, same, writable]
  obtain ⟨plan, sec, done⟩ := complete_writes (s := t) (x := y) (g := g) (r := r) src found going given prog reachable flush
  let u : State := { t with plan := plan, sec := sec }
  let v := writeCompletion u g y.status y.entry.cid y.detail y.result (BitVec.ofNat 64 y.adm) y.slackTo y.entry.noIrq
  have hv : v = writeCompletion u g y.status y.entry.cid y.detail y.result (BitVec.ofNat 64 y.adm) y.slackTo y.entry.noIrq := rfl
  have run : exec (.post c) s = .next (endCtx v y.c) := by
    rw [exec_post_fixes h group writes, tryComplete_completes held rfl unblocked writes, done]
  obtain ⟨rings, fns, out, frame⟩ := writeCompletion_frame u g y.status y.entry.cid y.detail y.result (BitVec.ofNat 64 y.adm) y.slackTo y.entry.noIrq
  have inUse : getCtx v y.c = some y := by
    have ctxs : v.ctxs = t.ctxs := by rw [hv, frame]
    rw [show y.c = c from hx, getCtx, ctxs]
    exact held
  have ended : besideEnd (endCtx v y.c) = besideEnd v := besideEnd_endCtx v y.c
  obtain ⟨l, sent, few⟩ := writeCompletion_out (s := u) (g := g) (r := r) found y.status y.entry.cid y.detail y.result (BitVec.ofNat 64 y.adm) y.slackTo y.entry.noIrq
  obtain ⟨q, tail, round⟩ := writeCompletion_tail (s := u) (g := g) (r := r) found y.status y.entry.cid y.detail y.result (BitVec.ofNat 64 y.adm) y.slackTo y.entry.noIrq
  refine ⟨entryOf u r y.status y.entry.cid y.detail y.result (BitVec.ofNat 64 y.adm) y.slackTo, _, run, ?_, fun d other => ?_, ⟨l, ?_, few⟩, ⟨q, ?_, round⟩,
    rfl, rfl, rfl, rfl, rfl, ?_, ?_, ?_⟩
  · exact hx ▸ getCtx_endCtx inUse
  · have last : getCtx v d = getCtx t d := by
      have ctxs : v.ctxs = t.ctxs := by rw [hv, frame]
      rw [getCtx, ctxs]
      rfl
    rw [getCtx_endCtx_ne inUse (by rwa [show y.c = c from hx]), last]
    exact getCtx_modCtx_ne s c d other _ fun _ _ => hx
  · exact (congrArg State.out ended).trans sent
  · have same : (endCtx v y.c).rings = v.rings := (congrArg State.rings ended :)
    rw [getRing, same]
    exact tail
  · exact (congrArg State.beat ended).trans (by rw [besideEnd, hv, frame]; rfl)
  · exact (congrArg (fun q : State => q.xlat.map) ended).trans (by rw [besideEnd, hv, frame]; rfl)
  · exact (congrArg State.nv ended).trans (by rw [besideEnd, hv, frame]; rfl)

end Sys2Proof.Proofs
end

section
/-! PROOF. StreamInstructions and HostTransferInstructions: what starting to move bytes changes (R148, R547), then each stream instruction
and host transfer as an issue that replaces its context and starts to move. -/

namespace Sys2Proof.Proofs

open Sys2Proof Sys2Proof.Machine Sys2Proof.Safety Sys2Proof.Laws

/-- A changed context that is there. -/
theorem getCtx_modCtx_found {s : State} {c : Nat} {x : Ctx} (found : getCtx s c = some x) (f : Ctx → Ctx) (keeps : ∀ y, (f y).c = y.c) :
    getCtx (modCtx s c f) c = some (f x) := by
  rw [getCtx_modCtx s c f fun y hy => (keeps y).trans hy, found]
  rfl

/-- A changed context leaves every other. -/
theorem getCtx_modCtx_other (s : State) {c d : Nat} (other : d ≠ c) (f : Ctx → Ctx) (keeps : ∀ y, (f y).c = y.c) :
    getCtx (modCtx s c f) d = getCtx s d :=
  getCtx_modCtx_ne s c d other f fun y hy => (keeps y).trans hy

/-! ### A counted issue leaves the operands -/

section

variable (x : Ctx) (op : Nat) (w v : BitVec 32)

@[simp] theorem rget_countIssue (i : Nat) : rget (x.countIssue op w) i = rget x i := rfl
@[simp] theorem ga_countIssue : ga (x.countIssue op w) v = ga x v := rfl
@[simp] theorem gb_countIssue : gb (x.countIssue op w) v = gb x v := rfl
@[simp] theorem gd_countIssue : gd (x.countIssue op w) v = gd x v := rfl
@[simp] theorem hget_countIssue (h : Nat) : hget (x.countIssue op w) h = hget x h := rfl
@[simp] theorem hread_countIssue (h o n : Nat) : hread (x.countIssue op w) h o n = hread x h o n := rfl
@[simp] theorem inBounds_countIssue (h o n : Nat) : inBounds (x.countIssue op w) h o n = inBounds x h o n := rfl
@[simp] theorem inEntry_countIssue (a n : Nat) : inEntry (x.countIssue op w) a n = inEntry x a n := rfl
@[simp] theorem dReads_countIssue : dReads (x.countIssue op w) = dReads x := rfl
@[simp] theorem dWrites_countIssue : dWrites (x.countIssue op w) = dWrites x := rfl
@[simp] theorem dBytes_countIssue : dBytes (x.countIssue op w) = dBytes x := rfl
@[simp] theorem ringOf_countIssue : (x.countIssue op w).ringOf = x.ringOf := rfl
@[simp] theorem strLeft_countIssue : (x.countIssue op w).strLeft = x.strLeft := rfl
@[simp] theorem hostLeft_countIssue : (x.countIssue op w).hostLeft = x.hostLeft := rfl
@[simp] theorem rdLeft_countIssue : (x.countIssue op w).rdLeft = x.rdLeft := rfl
@[simp] theorem wrLeft_countIssue : (x.countIssue op w).wrLeft = x.wrLeft := rfl

end

/-! ### What starting to move bytes changes -/

/-- A state without what the movement of bytes in a beat changes: contexts, stream units and bookings. -/
def besideDraw (s : State) : State :=
  { s with ctxs := [], zci := { s.zci with units := [] }, plan := { s.plan with near := [] } }

theorem besideDraw_modCtx (s : State) (c : Nat) (f : Ctx → Ctx) : besideDraw (modCtx s c f) = besideDraw s := rfl

theorem besideDraw_useUnit (s : State) (c k n : Nat) : besideDraw (useUnit s c k n) = besideDraw s := by
  unfold useUnit
  split <;> rfl

theorem besideDraw_book (s : State) (r : Res) (sh : Share) (b k owner : Nat) : besideDraw (book s r sh b k owner) = besideDraw s := by
  unfold book
  split <;> rfl

theorem besideDraw_bookLate (s : State) (x : Ctx) (k n : Nat) : besideDraw (bookLate s x k n) = besideDraw s := by
  unfold bookLate
  split
  · exact besideDraw_book ..
  · exact (besideDraw_book ..).trans (besideDraw_book ..)

/-- Two states that agree beside the movement of bytes. -/
theorem eq_of_besideDraw {s t : State} (h : besideDraw t = besideDraw s) :
    t = { s with ctxs := t.ctxs, zci := { s.zci with units := t.zci.units }, plan := { s.plan with near := t.plan.near } } :=
  calc t = { besideDraw t with
      ctxs := t.ctxs, zci := { (besideDraw t).zci with units := t.zci.units }, plan := { (besideDraw t).plan with near := t.plan.near } } := rfl
    _ = _ := by rw [h]; rfl

theorem useUnit_ctxs (s : State) (c k n : Nat) : (useUnit s c k n).ctxs = s.ctxs := by
  unfold useUnit
  split <;> rfl

theorem book_ctxs (s : State) (r : Res) (sh : Share) (b k owner : Nat) : (book s r sh b k owner).ctxs = s.ctxs := by
  unfold book
  split <;> rfl

theorem bookLate_ctxs (s : State) (x : Ctx) (k n : Nat) : (bookLate s x k n).ctxs = s.ctxs := by
  unfold bookLate
  split
  · exact book_ctxs ..
  · exact (book_ctxs ..).trans (book_ctxs ..)

/-- A context that has moved some of the bytes it had left. -/
def Moved (x z : Ctx) : Prop := z = { x with left := z.left, drawn := z.drawn, late := z.late } ∧ z.left ≤ x.left

/-- What an operation moves in a beat is of its own context (R547). -/
theorem drawBeat_moves {s : State} {c : Nat} {x : Ctx} (found : getCtx s c = some x) :
    besideDraw (drawBeat s c) = besideDraw s ∧ ∃ z, Moved x z ∧ getCtx (drawBeat s c) c = some z ∧ ∀ d, d ≠ c → getCtx (drawBeat s c) d = getCtx s d := by
  have still : ∃ z, Moved x z ∧ getCtx s c = some z ∧ ∀ d, d ≠ c → getCtx s d = getCtx s d := ⟨x, ⟨rfl, Nat.le_refl _⟩, found, fun _ _ => rfl⟩
  simp only [drawBeat, found]
  split
  · exact ⟨rfl, still⟩
  next k _ =>
    split
    · exact ⟨rfl, still⟩
    · refine ⟨(besideDraw_bookLate ..).trans ((besideDraw_modCtx ..).trans (besideDraw_useUnit ..)), ?_⟩
      have same : ∀ f n m d, getCtx (bookLate (modCtx (useUnit s c k n) c f) x k m) d = getCtx (modCtx s c f) d := fun f n m d => by
        rw [getCtx, bookLate_ctxs]
        simp only [modCtx, State.updCtxs_ctxs, useUnit_ctxs]
        rfl
      refine ⟨_, ?_, (same ..).trans (getCtx_modCtx_found found _ fun _ => rfl), fun d other => (same ..).trans (getCtx_modCtx_other s other _ fun _ => rfl)⟩
      exact ⟨rfl, Nat.le_trans (Nat.sub_le ..) (Nat.sub_le ..)⟩

/-- An operation of n bytes that starts moves some of its units in the beat of its issue. -/
theorem startDraw_moves {s : State} {c n : Nat} {x : Ctx} (found : getCtx s c = some x) :
    besideDraw (startDraw s c n) = besideDraw s ∧ ∃ z, Moved { x with left := drawUnits s x x.word n } z ∧ getCtx (startDraw s c n) c = some z ∧
      ∀ d, d ≠ c → getCtx (startDraw s c n) d = getCtx s d := by
  simp only [startDraw, found]
  have set_ : getCtx (modCtx s c fun y => { y with left := drawUnits s x x.word n }) c = some { x with left := drawUnits s x x.word n } :=
    getCtx_modCtx_found found _ fun _ => rfl
  obtain ⟨beside, z, moved, own, others⟩ := drawBeat_moves set_
  exact ⟨beside, z, moved, own, fun d other => (others d other).trans (getCtx_modCtx_other s other _ fun _ => rfl)⟩

/-! ### Stream instructions -/

/-- A stream instruction whose checks pass leaves its context as its effect makes it, its bytes starting to move. -/
theorem streams_of_issue {i : Instr} {s : State} {c op n : Nat} {x y : Ctx} {w : BitVec 32} {checks : Ctx → BitVec 32 → List (Bool × Nat)}
    {eff : State → Ctx → BitVec 32 → State} (h : Issues s c op x w) (side : zSide op = false) (kind : drawKind w = some 2)
    (run : exec i s = .next (issue s c op checks eff)) (passes : firstFault (checks (x.countIssue op w) w) = none)
    (effect : eff (modCtx s c fun _ => x.countIssue op w) (x.countIssue op w) w = streamOn (modCtx s c fun _ => x.countIssue op w) y n)
    (number : y.c = x.c) (word : y.word = w) (waits : y.wait = .instr) : Streams i s c y n := by
  have hx : x.c = c := getCtx_number h.ctx
  have hy : y.c = c := number.trans hx
  rw [issue_runs h _ _ passes, ran_of_not_side side, effect, streamOn, hy] at run
  obtain ⟨own, others⟩ := ctx_replaced_put (y := x.countIssue op w) (z := y) h.ctx hx hy (t := putCtx (modCtx s c fun _ => x.countIssue op w) y) rfl
  obtain ⟨beside, z, ⟨moved, less⟩, own', others'⟩ := startDraw_moves (n := n) own
  have units : drawUnits (putCtx (modCtx s c fun _ => x.countIssue op w) y) y y.word n = n := by simp only [drawUnits, word, kind]
  refine ⟨_, run, ⟨z, own', ?_, moved, units ▸ less⟩, fun d other => (others' d other).trans (others d other), eq_of_besideDraw beside⟩
  rw [moved]
  exact waits

/-- The kind of draw of the four stream opcodes. -/
theorem drawKind_stream {w : BitVec 32} {op : Nat} (opc : zOp w = op) (stream : op ∈ [0x2C, 0x2D, 0x2E, 0x2F]) : drawKind w = some 2 := by
  simp only [List.mem_cons, List.not_mem_nil, or_false] at stream
  rcases stream with rfl | rfl | rfl | rfl <;> simp [drawKind, opc]

/-- A context that waits on a stream operation, with k KiB left of STRLEFT. -/
def streaming (x : Ctx) (k : Nat) : Ctx := { x with wait := .instr, strLeft := k }

theorem strHold_eq (x : Ctx) (w : BitVec 32) : x.strHold w = streaming x (x.strLeft - strKib (gb x w)) := rfl

theorem rset_streaming (x : Ctx) (k i : Nat) (v : BitVec 64) : rset (streaming x k) i v = streaming (rset x i v) k := by
  unfold rset
  split <;> rfl

theorem pset_streaming (x : Ctx) (k i : Nat) (b : Bool) : pset (streaming x k) i b = streaming (pset x i b) k := by
  unfold pset
  split <;> rfl

theorem hwrite_streaming (x : Ctx) (k h o : Nat) (bs : List Byte) : hwrite (streaming x k) h o bs = streaming (hwrite x h o bs) k := by
  have same : hget (streaming x k) h = hget x h := rfl
  unfold hwrite hmod
  rw [same]
  split <;> rfl

/-- A write of bytes keeps the number and the word of a context. -/
theorem hwrite_keeps (x : Ctx) (h o : Nat) (bs : List Byte) : (hwrite x h o bs).c = x.c ∧ (hwrite x h o bs).word = x.word := by
  unfold hwrite hmod
  split <;> exact ⟨rfl, rfl⟩

/-- A write to a register keeps the number and the word of a context. -/
theorem rset_keeps (x : Ctx) (i : Nat) (v : BitVec 64) : (rset x i v).c = x.c ∧ (rset x i v).word = x.word := by
  unfold rset
  split <;> exact ⟨rfl, rfl⟩

/-- Settles O6: each stream instruction passes its checks, and its effect is that of the counted context. -/
theorem streamInstructions : Obligations.StreamInstructions := by
  unfold Obligations.StreamInstructions
  refine ⟨fun s c x w h source output filter apart apart' whole room => ⟨_, rfl, ?_⟩, fun s c x w h alg source room => ?_,
    fun s c x w h alg source area aligned blocks room => ?_, fun s c x w h copy output source room => ?_, fun s c x w h fill output room => ?_,
    fun s c x w h source other room => ?_⟩
  · have effect := fun out v => (hwrite_streaming (x.countIssue 0x2C w) (x.strLeft - strKib (gb x w)) (zFl w % 8) (gd x w) out ▸
      rset_streaming (hwrite (x.countIssue 0x2C w) (zFl w % 8) (gd x w) out) (x.strLeft - strKib (gb x w)) (zD w) v)
    refine streams_of_issue h rfl (drawKind_stream h.opc (by decide)) rfl ?_ ?_ ?_ ?_ rfl
    · simp [firstFault, strCheck, source, output, filter, apart, apart', whole, Nat.not_lt.mpr room]
    · exact congrArg (streamOn _ · _) (effect _ _)
    · exact (rset_keeps ..).1.trans (hwrite_keeps ..).1
    · exact (rset_keeps ..).2.trans (hwrite_keeps ..).2
  · have effect : ∀ v, streaming (rset (x.countIssue 0x2D w) (zD w) v) (x.strLeft - strKib (gb x w)) =
        { wrote x 0x2D w v with pc := x.pc, wait := .instr, strLeft := x.strLeft - strKib (gb x w) } := fun v => by
      unfold rset wrote
      split <;> rfl
    refine streams_of_issue h rfl (drawKind_stream h.opc (by decide)) rfl ?_ ?_ rfl rfl rfl
    · simp [firstFault, strCheck, alg, source, Nat.not_lt.mpr room]
    · simp only [alg, if_true]
      exact congrArg (streamOn _ · _) ((rset_streaming (x.countIssue 0x2D w) ..).trans (effect _))
  · refine streams_of_issue h rfl (drawKind_stream h.opc (by decide)) rfl ?_ ?_ ?_ ?_ rfl
    · have whole : (digMode w = 1 ∨ digMode w = 2) ∧ ¬ gb x w % 136 = 0 ↔ False := ⟨fun ⟨modes, part⟩ => part (blocks modes), False.elim⟩
      simp [firstFault, strCheck, alg, source, area, aligned, whole, Nat.not_lt.mpr room]
    · simp only [alg]
      exact congrArg (streamOn _ · _) (hwrite_streaming (x.countIssue 0x2D w) ..)
    · exact (hwrite_keeps ..).1
    · exact (hwrite_keeps ..).2
  · refine streams_of_issue h rfl (drawKind_stream h.opc (by decide)) rfl ?_ ?_ ?_ ?_ rfl
    · simp [firstFault, strCheck, copy, output, source, Nat.not_lt.mpr room]
    · simp only [copy]
      exact congrArg (streamOn _ · _) (hwrite_streaming (x.countIssue 0x2E w) ..)
    · exact (hwrite_keeps ..).1
    · exact (hwrite_keeps ..).2
  · refine streams_of_issue h rfl (drawKind_stream h.opc (by decide)) rfl ?_ ?_ ?_ ?_ rfl
    · simp [firstFault, strCheck, fill, output, Nat.not_lt.mpr room]
    · simp only [fill, if_true]
      exact congrArg (streamOn _ · _) (hwrite_streaming (x.countIssue 0x2E w) ..)
    · exact (hwrite_keeps ..).1
    · exact (hwrite_keeps ..).2
  · have effect : ∀ b, streaming (pset (x.countIssue 0x2F w) (zFl w / 8 % 4) b) (x.strLeft - strKib (gb x w)) =
        { compared x 0x2F w (zFl w / 8 % 4) b with pc := x.pc, wait := .instr, strLeft := x.strLeft - strKib (gb x w) } := fun b => by
      unfold pset compared
      split <;> rfl
    refine streams_of_issue h rfl (drawKind_stream h.opc (by decide)) rfl ?_ ?_ rfl rfl rfl
    · simp [firstFault, strCheck, source, other, Nat.not_lt.mpr room]
    · rw [← beq_eq_decide_eq]
      exact congrArg (streamOn _ · _) ((pset_streaming (x.countIssue 0x2F w) ..).trans (effect _))

end Sys2Proof.Proofs
end

section
/-! PROOF. HostTransferInstructions: the chain and the read requests that a transfer begins with, and the issue of HXIN and HXOUT (R162, R329). -/

namespace Sys2Proof.Proofs

open Sys2Proof Sys2Proof.Machine Sys2Proof.Safety Sys2Proof.Laws

/-- A side-effecting instruction fixes the commit beat where none was set (R105, R145). -/
theorem ran_of_side {s : State} {x : Ctx} {op : Nat} {w : BitVec 32} (h : zSide op = true) :
    ran s x op w = { x.countIssue op w with commitBeat := some (x.commitBeat.getD s.beat) } := by
  simp [ran, h]

/-- A list of messages sent one after the other. -/
theorem foldl_emit {α : Type} (f : α → Out) (l : List α) (s : State) : l.foldl (fun s a => emit s (f a)) s = s.updOut (· ++ l.map f) := by
  induction l generalizing s with
  | nil => simp [State.updOut]
  | cons a l ih =>
    rw [List.foldl_cons, ih]
    simp [emit, State.updOut]

/-- The state in which a context's chain stands in the store of its engine (R325, R328). -/
def chained (s : State) (x : Ctx) (toHost : Bool) (off n : Nat) : State :=
  modEngine s (pickEngine s x toHost) fun e =>
    { e with descs := e.descs ++ chainOf s x toHost (freeChan s (pickEngine s x toHost)) off n }

/-- A host read begins with its chain and its read requests (R329). -/
theorem beginTransfer_read {s : State} {x : Ctx} {g : Nat} (src : x.ringOf = some g) (off n : Nat) :
    beginTransfer s x false off n = (chained s x false off n).updOut (· ++ dataReads s x off n) := by
  simp only [beginTransfer, src]
  exact foldl_emit _ _ _

/-- A host write begins with its chain. -/
theorem beginTransfer_write {s : State} {x : Ctx} {g : Nat} (src : x.ringOf = some g) (off n : Nat) :
    beginTransfer s x true off n = chained s x true off n := by
  simp only [beginTransfer, src]
  rfl

/-- A context of no ring begins no transfer on an engine. -/
theorem beginTransfer_none {s : State} {x : Ctx} (src : x.ringOf = none) (toHost : Bool) (off n : Nat) : beginTransfer s x toHost off n = s := by
  simp only [beginTransfer, src]

/-- Bytes on a link take no stream unit (R148). -/
theorem startDraw_zci {s : State} {c n k : Nat} {x : Ctx} (found : getCtx s c = some x) (kind : drawKind x.word = some k) (link : k ≠ 2) :
    (startDraw s c n).zci = s.zci := by
  have book_zci : ∀ (u : State) (r : Res) (sh : Share) (b m o : Nat), (book u r sh b m o).zci = u.zci := fun u r sh b m o => by
    unfold book
    split <;> rfl
  have late_zci : ∀ (u : State) (y : Ctx) (j m : Nat), (bookLate u y j m).zci = u.zci := fun u y j m => by
    unfold bookLate
    split
    · exact book_zci ..
    · exact (book_zci ..).trans (book_zci ..)
  simp only [startDraw, found]
  have set_ : getCtx (modCtx s c fun y => { y with left := drawUnits s x x.word n }) c = some { x with left := drawUnits s x x.word n } :=
    getCtx_modCtx_found found _ fun _ => rfl
  simp only [drawBeat, set_, kind]
  split
  · rfl
  · rw [late_zci]
    simp only [useUnit, link, if_false]
    rfl

/-- The kinds of draw of the two host transfers. -/
theorem drawKind_hxin {w : BitVec 32} (opc : zOp w = 0x20) : drawKind w = some 0 := by simp [drawKind, opc]

theorem drawKind_hxout {w : BitVec 32} (opc : zOp w = 0x21) : drawKind w = some 1 := by simp [drawKind, opc]

/-- HXIN and HXOUT in bounds, aligned and within their extents meet no fault (R162). -/
theorem hxChecks_pass {x : Ctx} {w : BitVec 32} (op : Nat) (bounds : inBounds x (zH w) (ga x w) (gb x w) = true) (a : ga x w % 4 = 0) (b : gb x w % 4 = 0)
    (d : gd x w % 4 = 0) (extent : gd x w + gb x w ≤ dBytes x) (left : gb x w ≤ x.hostLeft) : firstFault (hxChecks (x.countIssue op w) w) = none := by
  simp [hxChecks, firstFault, bounds, a, b, d, Nat.not_lt.mpr extent, Nat.not_lt.mpr left]

/-- A context that waits on a host transfer, its count taken (R163). -/
def transferring (s : State) (x : Ctx) (op : Nat) (w : BitVec 32) : Ctx := { ran s x op w with wait := .instr, hostLeft := x.hostLeft - gb x w }

theorem ran_number (s : State) (x : Ctx) (op : Nat) (w : BitVec 32) : (ran s x op w).c = x.c := by
  unfold ran
  split <;> rfl

/-- What a host transfer issues: its transfer begins with its context waiting, and it starts to move. -/
theorem transfer_runs {i : Instr} {s : State} {c op : Nat} {x : Ctx} {w : BitVec 32} {toHost : Bool} (h : Issues s c op x w) (side : zSide op = true)
    (run : exec i s = .next (issue s c op hxChecks fun s x w =>
      startDraw (beginTransfer (putCtx s { x.hold with hostLeft := x.hostLeft - gb x w }) x toHost (gd x w) (gb x w)) x.c (gb x w)))
    (bounds : inBounds x (zH w) (ga x w) (gb x w) = true) (a : ga x w % 4 = 0) (b : gb x w % 4 = 0)
    (d : gd x w % 4 = 0) (extent : gd x w + gb x w ≤ dBytes x) (left : gb x w ≤ x.hostLeft) :
    exec i s = .next (startDraw (beginTransfer (modCtx s c fun _ => transferring s x op w) (ran s x op w) toHost (gd x w) (gb x w)) c (gb x w)) := by
  have hx : x.c = c := getCtx_number h.ctx
  have hr : (ran s x op w).c = c := (ran_number ..).trans hx
  have same : gb (ran s x op w) w = gb x w ∧ gd (ran s x op w) w = gd x w ∧ (ran s x op w).hostLeft = x.hostLeft := by
    rw [ran_of_side side]
    exact ⟨rfl, rfl, rfl⟩
  obtain ⟨len, off, limit⟩ := same
  have put : putCtx (modCtx s c fun _ => ran s x op w) (transferring s x op w) = modCtx s c fun _ => transferring s x op w := by
    simp only [putCtx, show (transferring s x op w).c = c from hr]
    exact modCtx_put s c _ _ hr
  rw [run, issue_runs h _ _ (hxChecks_pass op bounds a b d extent left), len, off, limit, hr, ← put]
  rfl

/-- What an operation that starts leaves of its context: of its units none, some or all are still to move. -/
theorem startDraw_leaves {s : State} {c n : Nat} {x : Ctx} (found : getCtx s c = some x) :
    besideDraw (startDraw s c n) = besideDraw s ∧ ∃ z, z = { x with left := z.left, drawn := z.drawn, late := z.late } ∧ z.left ≤ drawUnits s x x.word n ∧
      getCtx (startDraw s c n) c = some z ∧ ∀ d, d ≠ c → getCtx (startDraw s c n) d = getCtx s d := by
  obtain ⟨beside, z, ⟨moved, less⟩, own, others⟩ := startDraw_moves (n := n) found
  exact ⟨beside, z, moved, less, own, others⟩

/-- The state of a host transfer of a ring's command after its issue: its context waits, its chain stands in a store, `sent` went out. -/
theorem transfer_waits {i : Instr} {s u : State} {c op k bound : Nat} {x : Ctx} {w : BitVec 32} (h : Issues s c op x w) (side : zSide op = true)
    (kind : drawKind w = some k) (link : k ≠ 2) (run : exec i s = .next (startDraw u c (gb x w)))
    (state : ∃ out, u = { (chained s (ran s x op w) (decide (k = 1)) (gd x w) (gb x w)) with
      ctxs := (modCtx s c fun _ => transferring s x op w).ctxs, out := out })
    (units : drawUnits u (transferring s x op w) w (gb x w) = bound) :
    Does i s fun t => (∃ y, getCtx t c = some y ∧ y.wait = .instr ∧
        y = { transferring s x op w with left := y.left, drawn := y.drawn, late := y.late } ∧ y.left ≤ bound) ∧
      (∀ d, d ≠ c → getCtx t d = getCtx s d) ∧
      t = { s with ctxs := t.ctxs, movers := t.movers, plan := { s.plan with near := t.plan.near }, out := t.out } ∧ t.movers = u.movers ∧ t.out = u.out := by
  have hx : x.c = c := getCtx_number h.ctx
  have hy : (transferring s x op w).c = c := (ran_number ..).trans hx
  have word : (transferring s x op w).word = w := by
    simp only [transferring, ran_of_side side]
    rfl
  obtain ⟨out, state⟩ := state
  obtain ⟨own, others⟩ := ctx_replaced (t := u) (y := transferring s x op w) h.ctx hy (by rw [state])
  obtain ⟨beside, z, moved, less, own', others'⟩ := startDraw_leaves (n := gb x w) own
  have zci : (startDraw u c (gb x w)).zci = u.zci := startDraw_zci own ((congrArg drawKind word).trans kind) link
  rw [word, units] at less
  have frame := eq_of_besideDraw beside
  refine ⟨_, run, ⟨z, own', ?_, moved, less⟩, fun d other => (others' d other).trans (others d other), ?_, ?_, ?_⟩
  · rw [moved]
    rfl
  · rw [frame, zci, state]
    rfl
  · rw [frame]
  · rw [frame]

/-- A context with nothing left to move books nothing. -/
theorem drawBeat_idle {s : State} {c : Nat} {x : Ctx} (found : getCtx s c = some x) (idle : x.left = 0) : drawBeat s c = s := by
  simp only [drawBeat, found]
  split
  · rfl
  · rw [if_pos (by simp [idle])]

/-- A host transfer of a context of no ring has nothing to move on a link (R364, R398). -/
theorem transfer_stays {i : Instr} {s : State} {c op k : Nat} {x : Ctx} {w : BitVec 32} (h : Issues s c op x w) (side : zSide op = true)
    (kind : drawKind w = some k) (link : k < 2) (src : x.ringOf = none)
    (run : exec i s = .next (startDraw (modCtx s c fun _ => transferring s x op w) c (gb x w))) :
    Lands i s c { ran s x op w with wait := .instr, hostLeft := x.hostLeft - gb x w, left := 0 } := by
  have hx : x.c = c := getCtx_number h.ctx
  have hy : (transferring s x op w).c = c := (ran_number ..).trans hx
  have word : (transferring s x op w).word = w := by
    simp only [transferring, ran_of_side side]
    rfl
  have ring : (transferring s x op w).ringOf = none := by
    simp only [transferring, ran_of_side side]
    exact src
  have own : getCtx (modCtx s c fun _ => transferring s x op w) c = some (transferring s x op w) := getCtx_put h.ctx hy
  have units : drawUnits (modCtx s c fun _ => transferring s x op w) (transferring s x op w) w (gb x w) = 0 := by
    simp only [drawUnits, kind, ring]
    obtain rfl | rfl : k = 0 ∨ k = 1 := by omega
    · rfl
    · rfl
  have still : startDraw (modCtx s c fun _ => transferring s x op w) c (gb x w) = modCtx s c fun _ => { transferring s x op w with left := 0 } := by
    have set0 : startDraw (modCtx s c fun _ => transferring s x op w) c (gb x w) =
        drawBeat (modCtx s c fun _ => { transferring s x op w with left := 0 }) c := by
      rw [← modCtx_put s c (transferring s x op w) (fun y => { y with left := 0 }) hy]
      simp only [startDraw, own, word, units]
    exact set0.trans (drawBeat_idle (x := { transferring s x op w with left := 0 }) (getCtx_put h.ctx hy) rfl)
  exact lands_of_exec_eq_put h.ctx hy (run.trans (congrArg _ still))

/-- Settles O7: the two directions for a context of a ring, and both for one of no ring. -/
theorem hostTransferInstructions : Obligations.HostTransferInstructions := by
  unfold Obligations.HostTransferInstructions
  refine ⟨fun s c x w g h src bounds a b d extent left => ?_, fun s c x w g h src bounds a b d extent left => ?_,
    fun s c x w i op row h src bounds a b d extent left => ?_⟩
  · have run := transfer_runs (i := .hxin c) (toHost := false) h rfl rfl bounds a b d extent left
    have ring : (ran s x 0x20 w).ringOf = some g := src
    rw [beginTransfer_read ring] at run
    obtain ⟨t, run, ⟨y, own, waits, state, less⟩, others, frame, movers, out⟩ := transfer_waits (k := 0) h rfl (drawKind_hxin h.opc) (by decide) run
      ⟨_, rfl⟩ rfl
    have units : drawUnits s x w (gb x w) = (readBytes s x (gb x w)).1 := by simp only [drawUnits, drawKind_hxin h.opc, src, Option.isSome_some, if_true]
    exact ⟨t, run, ⟨y, own, waits, state, Nat.le_trans less (Nat.le_of_eq units), out, movers⟩, others, frame⟩
  · have run := transfer_runs (i := .hxout c) (toHost := true) h rfl rfl bounds a b d extent left
    have ring : (ran s x 0x21 w).ringOf = some g := src
    rw [beginTransfer_write ring] at run
    obtain ⟨t, run, ⟨y, own, waits, state, less⟩, others, frame, movers, out⟩ := transfer_waits (k := 1) h rfl (drawKind_hxout h.opc) (by decide) run
      ⟨_, rfl⟩ rfl
    have units : drawUnits s x w (gb x w) = writeBytes s x (gb x w) := by simp only [drawUnits, drawKind_hxout h.opc, src, Option.isSome_some, if_true]
    rw [out] at frame
    exact ⟨t, run, ⟨y, own, waits, state, Nat.le_trans less (Nat.le_of_eq units), movers⟩, others, frame⟩
  · simp only [List.mem_cons, Prod.mk.injEq, List.not_mem_nil, or_false] at row
    rcases row with ⟨rfl, rfl⟩ | ⟨rfl, rfl⟩
    · have run := transfer_runs (i := .hxin c) (toHost := false) h rfl rfl bounds a b d extent left
      rw [beginTransfer_none (x := ran s x 0x20 w) src] at run
      exact transfer_stays h rfl (drawKind_hxin h.opc) (by decide) src run
    · have run := transfer_runs (i := .hxout c) (toHost := true) h rfl rfl bounds a b d extent left
      rw [beginTransfer_none (x := ran s x 0x21 w) src] at run
      exact transfer_stays h rfl (drawKind_hxout h.opc) (by decide) src run

end Sys2Proof.Proofs
end

section
/-! PROOF. MediaInstructionsIssue: a media instruction whose checks pass holds its context (R159, R160, R161, R167); a reading one has begun
the reads of its granules, and only the list of deep recoveries may have grown besides (R69). -/

namespace Sys2Proof.Proofs

open Sys2Proof Sys2Proof.Machine Sys2Proof.Safety Sys2Proof.Laws

/-- An issue whose checks pass and whose effect only replaces the context, of an instruction that may be side-effecting. -/
theorem issue_lands_ran {i : Instr} {s : State} {c op : Nat} {x z : Ctx} {w : BitVec 32} {checks : Ctx → BitVec 32 → List (Bool × Nat)}
    {eff : State → Ctx → BitVec 32 → State} (h : Issues s c op x w) (run : exec i s = .next (issue s c op checks eff))
    (passes : firstFault (checks (x.countIssue op w) w) = none) (number : z.c = x.c)
    (effect : eff (modCtx s c fun _ => ran s x op w) (ran s x op w) w = putCtx (modCtx s c fun _ => ran s x op w) z) : Lands i s c z := by
  have hx : x.c = c := getCtx_number h.ctx
  rw [issue_runs h _ _ passes, effect] at run
  exact lands_of_put (y := ran s x op w) h.ctx ((ran_number ..).trans hx) (number.trans hx) run

/-- The entry of a context is the one its issue found. -/
@[simp] theorem entry_ran (s : State) (x : Ctx) (op : Nat) (w : BitVec 32) : (ran s x op w).entry = x.entry := by
  unfold ran
  split <;> rfl

/-- Neither counting an issue nor changing contexts changes the namespace a context names. -/
theorem ctxNs_ran (s : State) (c op : Nat) (x : Ctx) (w : BitVec 32) (f : Ctx → Ctx) : ctxNs (modCtx s c f) (ran s x op w) = ctxNs s x := by
  rw [ctxNs, entry_ran]
  rfl

/-- The checks of a media instruction (R159) that the operands and counts of `MediaOk` pass. -/
theorem mediaChecks_pass {s : State} {c k op : Nat} {x : Ctx} {w : BitVec 32} {rd wr : Bool} (found : getCtx s c = some x) (ok : MediaOk s x w k rd wr) :
    firstFault (mchk s c k rd wr (x.countIssue op w) w) = none := by
  obtain ⟨range, reads, writes, most, bounds⟩ := ok
  have fault10 : (rd && !dReads x) = false := by
    cases rd with
    | false => rfl
    | true => simp [(reads rfl).1]
  have fault10' : (wr && !dWrites x) = false := by
    cases wr with
    | false => rfl
    | true => simp [(writes rfl).1]
  have budget : (rd && decide (x.rdLeft < gb x w)) = false := by
    cases rd with
    | false => rfl
    | true => simp [Nat.not_lt.mpr (reads rfl).2]
  have budget' : (wr && decide (x.wrLeft < gb x w)) = false := by
    cases wr with
    | false => rfl
    | true => simp [Nat.not_lt.mpr (writes rfl).2]
  have size : (decide (k = 2) && decide (1048576 < gb x w * gran s x)) = false := by
    by_cases two : k = 2
    · simp [Nat.not_lt.mpr (most two)]
    · simp [two]
  have extent : (decide (0 < k) && !inBounds x (zH w) (gd x w) (k * gb x w * gran s x)) = false := by
    by_cases some_ : 0 < k
    · simp [(bounds some_).1]
    · simp [some_]
  have aligned : (decide (0 < k) && gd x w % 4096 != 0) = false := by
    by_cases some_ : 0 < k
    · simp [(bounds some_).2]
    · simp [some_]
  have same : mchk s c k rd wr (x.countIssue op w) w = mediaChecks (gran s x) k rd wr x w := by
    simp only [mchk, found, Option.map_some, Option.getD_some]
    rfl
  simp only [same, mediaChecks, firstFault, range, fault10, fault10', size, extent, aligned, budget, budget', Bool.not_true, Bool.or_self,
    Bool.false_eq_true, if_false]

/-- Deep recovery entered for reads changes nothing but its list (R69). -/
theorem registerDeep_deep (ns : Namespace) (rs : List GranRead) (s : State) : ∃ d, registerDeep s ns rs = { s with xlat := { s.xlat with deep := d } } := by
  induction rs generalizing s with
  | nil => exact ⟨s.xlat.deep, rfl⟩
  | cons r rs ih =>
    have step : ∃ d, registerDeep s ns [r] = { s with xlat := { s.xlat with deep := d } } := by
      simp only [registerDeep, List.foldl_cons, List.foldl_nil]
      split
      · split
        · exact ⟨_, rfl⟩
        · exact ⟨s.xlat.deep, rfl⟩
      · exact ⟨s.xlat.deep, rfl⟩
    obtain ⟨d, step⟩ := step
    obtain ⟨d', rest⟩ := ih (registerDeep s ns [r])
    refine ⟨d', ?_⟩
    calc registerDeep s ns (r :: rs) = registerDeep (registerDeep s ns [r]) ns rs := rfl
      _ = _ := by rw [rest, step]

/-- The reads begun are of the granules from `first` on, in order. -/
theorem startReads_gran {s : State} {x : Ctx} {ns : Namespace} (named : ctxNs s x = some ns) (first n : Nat) :
    (startReads s x first n).map GranRead.gran = (List.range n).map (first + ·) := by
  simp only [startReads, named, List.map_map]
  rfl

/-- A reading media instruction waits with its reads begun; deep recovery may have been entered (R69, R159). -/
theorem issueRead_waits {i : Instr} {s : State} {c op k : Nat} {x : Ctx} {w : BitVec 32} {ns : Namespace} {wr : Bool} (h : Issues s c op x w)
    (run : exec i s = .next (issue s c op (mchk s c k true wr) fun s x w => issueRead s x w wr)) (named : ctxNs s x = some ns)
    (ok : MediaOk s x w k true wr) :
    Waits i s c (fun t => { s with ctxs := t.ctxs, xlat := { s.xlat with deep := t.xlat.deep } }) fun _ y =>
      y = { (ran s x op w).mediaHold w true wr with reads := y.reads } ∧ y.reads.map GranRead.gran = (List.range (gb x w)).map (ga x w + ·) := by
  have hx : x.c = c := getCtx_number h.ctx
  have hr : (ran s x op w).c = c := (ran_number ..).trans hx
  rw [issue_runs h _ _ (mediaChecks_pass h.ctx ok)] at run
  let u := modCtx s c fun _ => ran s x op w
  have hu : u = modCtx s c fun _ => ran s x op w := rfl
  let y : Ctx := { (ran s x op w).mediaHold w true wr with reads := startReads u (ran s x op w) (ga (ran s x op w) w) (gb (ran s x op w) w) }
  have hy : y = { (ran s x op w).mediaHold w true wr with reads := startReads u (ran s x op w) (ga (ran s x op w) w) (gb (ran s x op w) w) } := rfl
  have named' : ctxNs u (ran s x op w) = some ns := (ctxNs_ran ..).trans named
  obtain ⟨d, deep⟩ := registerDeep_deep ns y.reads (putCtx u y)
  have effect : issueRead u (ran s x op w) w wr = { putCtx u y with xlat := { s.xlat with deep := d } } := by
    simp only [issueRead, named']
    exact deep
  obtain ⟨own, others⟩ := ctx_replaced_put (t := issueRead u (ran s x op w) w wr) (y := ran s x op w) (z := y) h.ctx hr hr (by rw [effect])
  have regs : ga (ran s x op w) w = ga x w ∧ gb (ran s x op w) w = gb x w := by
    unfold ran
    split <;> exact ⟨rfl, rfl⟩
  refine ⟨_, run, ⟨y, own, rfl, rfl, ?_⟩, others, ?_⟩
  · rw [← regs.1, ← regs.2]
    exact startReads_gran named' _ _
  · rw [effect]
    rfl

/-- A media instruction that unmaps, of an entry with ATOM: its granules join the group (R101). -/
theorem issueUnmap_lands {i : Instr} {s : State} {c op : Nat} {x : Ctx} {w : BitVec 32} {ns : Namespace} (h : Issues s c op x w) (side : zSide op = true)
    (run : exec i s = .next (issue s c op (mchk s c 0 false true) issueUnmap)) (named : ctxNs s x = some ns) (ok : MediaOk s x w 0 false true)
    (atom : x.entry.atom = true) :
    Lands i s c { ran s x op w with
      wait := .instr, wrLeft := x.wrLeft - gb x w, fed := x.fed.filter fun r => decide (r.gran < ga x w ∨ ga x w + gb x w ≤ r.gran),
      atom := if gb x w = 0 then x.atom else x.atom ++ [.unmap (ga x w) (gb x w)] } := by
  have hx : x.c = c := getCtx_number h.ctx
  have named' := (ctxNs_ran s c op x w fun _ => ran s x op w).trans named
  have atom' : (ran s x op w).entry.atom = true := by rw [entry_ran]; exact atom
  refine issue_lands_ran h run (mediaChecks_pass h.ctx ok) (ran_number ..) ?_
  simp only [issueUnmap, named', atom', if_true]
  refine (modCtx_put _ _ _ _ rfl).trans ?_
  simp only [ran_of_side side]
  rfl

/-- Settles O8: the three reading instructions by the reads they begin, the rest as issues that hold their context. -/
theorem mediaInstructionsIssue : Obligations.MediaInstructionsIssue := by
  unfold Obligations.MediaInstructionsIssue
  refine ⟨fun s c x w ns h named ok => issueRead_waits (i := .mrd c) h rfl named ok, fun s c x w ns h named ok => issueRead_waits (i := .mcmp c) h rfl named ok,
    fun s c x w ns h named ok => issueRead_waits (i := .mcas c) h rfl named ok, fun s c x w ns h named ok => ?_,
    fun s c x w ns h named ok atom => issueUnmap_lands h rfl rfl named ok atom, fun s c x w ns h named ok atom => issueUnmap_lands h rfl rfl named ok atom,
    fun s c x w h => ?_, fun s c x w h => ?_⟩
  · refine issue_lands_ran h rfl (mediaChecks_pass h.ctx ok) (ran_number ..) ?_
    simp only [ctxNs_ran, named]
    rfl
  · exact issue_lands_ran h rfl rfl (ran_number ..) rfl
  · exact issue_lands_ran h rfl rfl (ran_number ..) rfl

end Sys2Proof.Proofs
end

section
/-! PROOF. UnmapOperations: what setting map entries to unmapped leaves (R191, R193), then the direct TRIM and ZERO (R102) and the
instructions MTRIM and MZERO (R161) as a change of one context around it. -/

namespace Sys2Proof.Proofs

open Sys2Proof Sys2Proof.Machine Sys2Proof.Safety Sys2Proof.Laws

/-- A resident parison that may run does. -/
theorem resident_runs {s : State} {c op typ : Nat} {x : Ctx} (h : Resident s c op typ x) (f : State → Ctx → State) : resident s c typ op f = f s x := by
  simp [resident, h.ctx, h.wait, h.typ, h.op, h.going, h.free]

/-- A changed context, where the change is known from the goal. -/
theorem getCtx_changed {s : State} {c : Nat} {x : Ctx} {f : Ctx → Ctx} (found : getCtx s c = some x) (keeps : ∀ y, (f y).c = y.c := by exact fun _ => rfl) :
    getCtx (modCtx s c f) c = some (f x) :=
  getCtx_modCtx_found found f keeps

/-- The commit beat of a context is set once. -/
theorem getCtx_commitNow {s : State} {c : Nat} {x : Ctx} (found : getCtx s c = some x) :
    getCtx (commitNow s c) c = some { x with commitBeat := some (x.commitBeat.getD s.beat) } := by
  rw [commitNow, getCtx_changed found]
  cases x.commitBeat <;> rfl

/-- A context whose POST is to come. -/
theorem getCtx_residentPost {s : State} {c : Nat} {x : Ctx} (found : getCtx s c = some x) (st : BitVec 16) (detail : BitVec 8) (res : BitVec 64) :
    getCtx (residentPost s c st detail res) c = some { x with status := st, detail := detail, result := res, wait := .posting } :=
  getCtx_changed found

/-- A deleted key is there no more, and every other reads as before. -/
theorem assoc_get_del {α : Type} (l : List (Nat × α)) (i j : Nat) : Assoc.get (Assoc.del l i) j = if j = i then none else Assoc.get l j := by
  induction l with
  | nil => simp [Assoc.del, Assoc.get]
  | cons p l ih =>
    obtain ⟨k, v⟩ := p
    have rest : Assoc.get (l.filter fun p => p.1 != i) j = if j = i then none else Assoc.get l j := ih
    simp only [Assoc.del, List.filter_cons, Assoc.get]
    by_cases ki : k = i
    · subst ki
      by_cases jk : j = k
      · simpa [jk] using rest
      · simpa [jk] using rest
    · by_cases jk : j = k
      · simp [ki, Assoc.get, jk]
      · simp [ki, Assoc.get, jk, rest]

/-- A key that was set reads as set, and every other as before. -/
theorem assoc_get_set {α : Type} (l : List (Nat × α)) (i j : Nat) (v : α) : Assoc.get (Assoc.set l i v) j = if j = i then some v else Assoc.get l j := by
  induction l with
  | nil => rfl
  | cons p l ih =>
    obtain ⟨k, w⟩ := p
    simp only [Assoc.set]
    by_cases ik : i = k
    · subst ik
      by_cases ji : j = i <;> simp [Assoc.get, ji]
    · by_cases lt : i < k
      · simp only [ik, if_false, lt, if_true, Assoc.get]
      · simp only [ik, if_false, lt, Assoc.get, ih]
        by_cases jk : j = k
        · simp [jk, Ne.symm ik]
        · simp [jk]

/-! ### Contexts and the map through the operations of the map -/

/-- The contexts and the page map of a state. -/
def mapped (s : State) : List Ctx × List (Nat × Loc) := (s.ctxs, s.xlat.map)

theorem mapGet_of_mapped {s t : State} (h : mapped t = mapped s) (j : Nat) : mapGet t j = mapGet s j := by
  rw [mapGet, show t.xlat.map = s.xlat.map from congrArg Prod.snd h]
  rfl

theorem subValid_mapped (s : State) (psa k : Nat) : mapped (subValid s psa k) = mapped s := by
  unfold subValid
  split <;> rfl

theorem unname_mapped (s : State) (ns : Namespace) (gran : Nat) (l : Loc) : mapped (unname s ns gran l) = mapped s := by
  unfold unname
  split
  · exact ite_agree mapped (subValid_mapped ..) rfl
  · rfl
  · rfl

theorem sendPunty_mapped (s : State) (typ a b : Nat) (body : List (BitVec 64)) (data : List Host.Cell) :
    mapped (sendPunty s typ a b body data) = mapped s := rfl

theorem journalAdd_mapped (s : State) (rs : List JRecord) : mapped (journalAdd s rs) = mapped s := by
  unfold journalAdd
  exact ite_agree mapped rfl (sendPunty_mapped ..)

/-- Unmapping a granule changes its own map entry. -/
theorem setEntry_unmapped (s : State) (ns : Namespace) (gran : Nat) :
    mapped (setEntry s ns gran .unmapped) = (s.ctxs, Assoc.del s.xlat.map (mapIdx ns gran)) := by
  have kept := unname_mapped s ns gran (mapGet s (mapIdx ns gran))
  rw [mapped, Prod.mk.injEq] at kept
  simp only [setEntry, mapped, Xlat.setMap, State.updXlat_xlat, State.updXlat_ctxs, kept]

/-- Unmapping granules in order leaves the contexts, the entries of those granules unmapped and every other as it was. -/
theorem unmapEach (ns : Namespace) (first n : Nat) (s : State) :
    ((List.range n).foldl (fun s i => setEntry (supersede s (mapIdx ns (first + i))) ns (first + i) .unmapped) s).ctxs = s.ctxs ∧
    ∀ j, mapGet ((List.range n).foldl (fun s i => setEntry (supersede s (mapIdx ns (first + i))) ns (first + i) .unmapped) s) j =
      if (List.range n).any (fun k => j == mapIdx ns (first + k)) then .unmapped else mapGet s j := by
  induction n with
  | zero => exact ⟨rfl, fun j => rfl⟩
  | succ n ih =>
    rw [List.range_succ, List.foldl_append, List.foldl_cons, List.foldl_nil]
    let u := (List.range n).foldl (fun s i => setEntry (supersede s (mapIdx ns (first + i))) ns (first + i) .unmapped) s
    have uDef : u = (List.range n).foldl (fun s i => setEntry (supersede s (mapIdx ns (first + i))) ns (first + i) .unmapped) s := rfl
    rw [← uDef]
    have last := setEntry_unmapped (supersede u (mapIdx ns (first + n))) ns (first + n)
    rw [mapped, Prod.mk.injEq] at last
    refine ⟨last.1.trans ih.1, fun j => ?_⟩
    have entry : mapGet (setEntry (supersede u (mapIdx ns (first + n))) ns (first + n) .unmapped) j =
        if j = mapIdx ns (first + n) then .unmapped else mapGet u j := by
      rw [mapGet, last.2, assoc_get_del]
      split <;> rfl
    rw [entry, ih.2, List.any_append]
    by_cases this : j = mapIdx ns (first + n) <;> simp [this]

/-- Unmapping a range leaves the contexts, the entries of its granules unmapped and every other as it was. -/
theorem unmapRange_unmaps (s : State) (ns : Namespace) (first n : Nat) :
    (unmapRange s ns first n).ctxs = s.ctxs ∧ ∀ j, mapGet (unmapRange s ns first n) j =
      if (List.range n).any (fun k => j == mapIdx ns (first + k)) then .unmapped else mapGet s j := by
  simp only [unmapRange]
  split
  next none_ =>
    subst none_
    exact ⟨rfl, fun j => rfl⟩
  · obtain ⟨ctxs, entries⟩ := unmapEach ns first n (takeSeq s 1).2
    let u := (List.range n).foldl (fun s i => setEntry (supersede s (mapIdx ns (first + i))) ns (first + i) .unmapped) (takeSeq s 1).2
    have uDef : u = (List.range n).foldl (fun s i => setEntry (supersede s (mapIdx ns (first + i))) ns (first + i) .unmapped) (takeSeq s 1).2 := rfl
    rw [← uDef]
    have rest : mapped (sweepGather (replNote (journalAdd u [jrec .unmap 0 ns.nsid n first (takeSeq s 1).1 0]) ns.nsid (takeSeq s 1).1 first n none 0)) =
        mapped u := journalAdd_mapped ..
    exact ⟨(congrArg Prod.fst rest).trans ctxs, fun j => (mapGet_of_mapped rest j).trans (entries j)⟩

/-- Waiting for the twin adds to what the context waits for. -/
theorem awaitMirror_waits {s0 s : State} {c : Nat} {x : Ctx} (found : getCtx s c = some x) :
    ∃ l, getCtx (awaitMirror s0 s c) c = some { x with mirrorWait := l } ∧ ∀ j, mapGet (awaitMirror s0 s c) j = mapGet s j := by
  unfold awaitMirror
  split
  · exact ⟨_, getCtx_modCtx_found found _ fun _ => rfl, fun _ => rfl⟩
  · exact ⟨x.mirrorWait, found, fun _ => rfl⟩

/-- A context whose range is unmapped: its entries go, and it may have to wait for the twin. -/
theorem unmap_awaits {s : State} {c : Nat} {x : Ctx} (found : getCtx s c = some x) (ns : Namespace) (first n : Nat) :
    ∃ l, getCtx (awaitMirror s (unmapRange s ns first n) c) c = some { x with mirrorWait := l } ∧
      ∀ j, mapGet (awaitMirror s (unmapRange s ns first n) c) j =
        if (List.range n).any (fun k => j == mapIdx ns (first + k)) then .unmapped else mapGet s j := by
  obtain ⟨ctxs, entries⟩ := unmapRange_unmaps s ns first n
  have found' : getCtx (unmapRange s ns first n) c = some x := by
    rw [getCtx, ctxs]
    exact found
  obtain ⟨l, own, kept⟩ := awaitMirror_waits (s0 := s) found'
  exact ⟨l, own, fun j => (kept j).trans (entries j)⟩

/-! ### The direct ops and the instructions -/

/-- A direct TRIM or ZERO outside ATOM unmaps its range and posts (R102). -/
theorem directUnmap_unmaps {s : State} {c : Nat} {x : Ctx} {ns : Namespace} (found : getCtx s c = some x) (named : ctxNs s x = some ns)
    (atom : x.entry.atom = false) :
    (∀ j, mapGet (directUnmap s x) j =
      if (List.range x.entry.length.toNat).any (fun k => j == mapIdx ns (x.entry.lba.toNat + k)) then .unmapped else mapGet s j) ∧
    ∃ y, getCtx (directUnmap s x) c = some y ∧ y.wait = .posting ∧ y.status = St.ok ∧ y.commitBeat = some (x.commitBeat.getD s.beat) := by
  have number : x.c = c := getCtx_number found
  obtain ⟨l, own, entries⟩ := unmap_awaits (getCtx_commitNow found) ns x.entry.lba.toNat x.entry.length.toNat
  simp only [directUnmap, named, atom, number, Bool.false_eq_true, if_false]
  exact ⟨entries, _, getCtx_residentPost own _ _ _, rfl, rfl, rfl⟩

/-- A direct TRIM or ZERO with ATOM joins its group (R101). -/
theorem directUnmap_joins {s : State} {c : Nat} {x : Ctx} {ns : Namespace} (found : getCtx s c = some x) (named : ctxNs s x = some ns)
    (atom : x.entry.atom = true) :
    directUnmap s x = { s with ctxs := (directUnmap s x).ctxs } ∧
    ∃ y, getCtx (directUnmap s x) c = some y ∧ y.wait = .posting ∧ y.status = St.ok ∧
      y.atom = x.atom ++ [.unmap x.entry.lba.toNat x.entry.length.toNat] := by
  have number : x.c = c := getCtx_number found
  simp only [directUnmap, named, atom, number, if_true]
  exact ⟨rfl, _, getCtx_residentPost (getCtx_changed (getCtx_commitNow found)) _ _ _, rfl, rfl, rfl⟩

/-- An MTRIM or MZERO outside ATOM unmaps its range and waits (R161). -/
theorem issueUnmap_unmaps {s : State} {c op : Nat} {x : Ctx} {w : BitVec 32} {ns : Namespace} (h : Issues s c op x w) (side : zSide op = true)
    (named : ctxNs s x = some ns) (ok : MediaOk s x w 0 false true) (atom : x.entry.atom = false) :
    let t := issue s c op (mchk s c 0 false true) issueUnmap
    (∀ j, mapGet t j = if (List.range (gb x w)).any (fun k => j == mapIdx ns (ga x w + k)) then .unmapped else mapGet s j) ∧
    ∃ y, getCtx t c = some y ∧ y.wait = .instr ∧ y.pc = x.pc ∧ y.wrLeft = x.wrLeft - gb x w ∧ y.regs = x.regs := by
  have hx : x.c = c := getCtx_number h.ctx
  have hr : (ran s x op w).c = c := (ran_number ..).trans hx
  have named' := (ctxNs_ran s c op x w fun _ => ran s x op w).trans named
  have atom' : (ran s x op w).entry.atom = false := by rw [entry_ran]; exact atom
  intro t
  obtain ⟨u, hu⟩ : ∃ u, u = modCtx s c fun _ => ran s x op w := ⟨_, rfl⟩
  rw [← hu] at named'
  obtain ⟨y, hy⟩ : ∃ y : Ctx, y = { (ran s x op w).mediaHold w false true with
    fed := (ran s x op w).fed.filter fun r => decide (r.gran < ga (ran s x op w) w ∨ ga (ran s x op w) w + gb (ran s x op w) w ≤ r.gran) } := ⟨_, rfl⟩
  have run : t = awaitMirror (putCtx u y) (unmapRange (putCtx u y) ns (ga x w) (gb x w)) c := by
    show issue s c op (mchk s c 0 false true) issueUnmap = _
    rw [issue_runs h _ _ (mediaChecks_pass h.ctx ok), ← hu, hy]
    simp only [issueUnmap, named', atom', Bool.false_eq_true, if_false, hr]
    simp only [ran_of_side side]
    rfl
  obtain ⟨own, -⟩ := ctx_replaced_put (t := putCtx u y) (y := ran s x op w) (z := y) h.ctx hr (by rw [hy]; exact hr) (by rw [hu])
  obtain ⟨l, own', entries⟩ := unmap_awaits own ns (ga x w) (gb x w)
  rw [← run] at own' entries
  refine ⟨fun j => (entries j).trans (by rw [hu]; rfl), _, own', ?_⟩
  simp only [hy, ran_of_side side]
  exact ⟨rfl, rfl, rfl, rfl⟩

/-- Settles O9: the direct ops and the instructions by the one function that unmaps a range. -/
theorem unmapOperations : Obligations.UnmapOperations := by
  unfold Obligations.UnmapOperations
  refine ⟨fun s c x ns i row named atom => ?_, fun s c x ns i row named atom => ?_, fun s c x w ns i row named ok atom => ?_⟩
  · rcases row with ⟨rfl, h⟩ | ⟨rfl, h⟩ <;>
      exact ⟨_, congrArg Host.Outcome.next (resident_runs h directUnmap), directUnmap_unmaps h.ctx named atom⟩
  · rcases row with ⟨rfl, h⟩ | ⟨rfl, h⟩ <;>
      exact ⟨_, congrArg Host.Outcome.next (resident_runs h directUnmap), directUnmap_joins h.ctx named atom⟩
  · rcases row with ⟨rfl, h⟩ | ⟨rfl, h⟩
    · exact ⟨_, rfl, issueUnmap_unmaps h rfl named ok atom⟩
    · exact ⟨_, rfl, issueUnmap_unmaps h rfl named ok atom⟩

end Sys2Proof.Proofs
end

section
/-! PROOF. WaitingInstructionsRetire: the end of a waiting instruction (R152, R163, R167) by its opcode: a replaced context, and with the host
transfers what the mover engines and the link then hold. -/

namespace Sys2Proof.Proofs

open Sys2Proof Sys2Proof.Machine Sys2Proof.Safety Sys2Proof.Laws

/-- The end of what a waiting context waits for retires its instruction. -/
theorem waitComplete_retires {s : State} {c : Nat} {x : Ctx} {bytes : List Byte} {st : Nat} (found : getCtx s c = some x) (waits : x.wait = .instr)
    (going : x.stopping = false) : exec (.waitComplete c bytes st) s = .next (retireInstr s x bytes st) := by
  simp [exec, execWaitComplete, found, waits, going]

/-- A context put back reads as put. -/
theorem getCtx_putCtx {s : State} {c : Nat} {x y : Ctx} (found : getCtx s c = some x) (number : y.c = c) : getCtx (putCtx s y) c = some y := by
  rw [putCtx, number]
  exact getCtx_put found number

/-- A command that puts a context back. -/
theorem lands_of_exec_eq_putCtx {i : Instr} {s : State} {c : Nat} {x y : Ctx} (found : getCtx s c = some x) (number : y.c = x.c)
    (run : exec i s = .next (putCtx s y)) : Lands i s c y := by
  have hy : y.c = c := number.trans (getCtx_number found)
  rw [putCtx, hy] at run
  exact lands_of_exec_eq_put found hy run

/-- A predicate reads what was written to it; P0 reads true (R130). -/
theorem pget_pset_same (x : Ctx) (p : Nat) (v : Bool) (h : p < 4) : pget (pset x p v) p = (p == 0 || v) := by
  by_cases p0 : p = 0
  · simp [pget, p0]
  · simp only [pget, pset, p0, if_false, vget_vset_same _ _ _ h]

theorem pset_regs (x : Ctx) (p : Nat) (v : Bool) : (pset x p v).regs = x.regs := by
  unfold pset
  split <;> rfl

theorem pset_hnd (x : Ctx) (p : Nat) (v : Bool) : (pset x p v).hnd = x.hnd := by
  unfold pset
  split <;> rfl

theorem pset_pc (x : Ctx) (p : Nat) (v : Bool) : (pset x p v).pc = x.pc := by
  unfold pset
  split <;> rfl

theorem pset_c (x : Ctx) (p : Nat) (v : Bool) : (pset x p v).c = x.c := by
  unfold pset
  split <;> rfl

theorem rset_c (x : Ctx) (i : Nat) (v : BitVec 64) : (rset x i v).c = x.c := by
  unfold rset
  split <;> rfl

theorem rset_pc (x : Ctx) (i : Nat) (v : BitVec 64) : (rset x i v).pc = x.pc := by
  unfold rset
  split <;> rfl

/-- A changed buffer leaves the rest of its context. -/
theorem hmod_hnd (x : Ctx) (h : Nat) (f : List Host.Cell → List Host.Cell) : hmod x h f = { x with hnd := (hmod x h f).hnd } := by
  unfold hmod
  split <;> rfl

/-- So do many. -/
theorem foldl_hmod_hnd {α : Type} (h : Nat) (f : α → List Host.Cell → List Host.Cell) (l : List α) (x : Ctx) :
    ∃ b, l.foldl (fun y a => hmod y h (f a)) x = { x with hnd := b } := by
  induction l generalizing x with
  | nil => exact ⟨x.hnd, rfl⟩
  | cons a l ih =>
    obtain ⟨b, rest⟩ := ih (hmod x h (f a))
    refine ⟨b, ?_⟩
    rw [List.foldl_cons, rest, hmod_hnd]

/-- The buffer of a changed handle. -/
theorem hget_hmod {x : Ctx} {h : Nat} {b : Buf} (held : hget x h = some b) (inRange : h < 8) (f : List Host.Cell → List Host.Cell) :
    hget (hmod x h f) h = some { b with bytes := f b.bytes } := by
  simp only [hmod, held]
  exact vget_vset_same _ _ _ inRange

/-- The end of a transfer changes the mover engines only: its descriptors go and its bytes count for a ring's command. -/
theorem endTransfer_counts {s : State} {c : Nat} {x : Ctx} (found : getCtx s c = some x) (toHost : Bool) (n : Nat) :
    endTransfer s c toHost n = { s with movers := (endTransfer s c toHost n).movers } ∧
    (if toHost then (endTransfer s c toHost n).movers.toHost = satAdd s.movers.toHost (if x.ringOf.isSome then n else 0)
      else (endTransfer s c toHost n).movers.fromHost = satAdd s.movers.fromHost (if x.ringOf.isSome then n else 0)) := by
  simp only [endTransfer, found, Option.bind_some]
  cases toHost <;> exact ⟨rfl, rfl⟩

/-- A reading instruction ends with its predicate set and its reads gone (R160, R165). -/
theorem reads_end {i : Instr} {s : State} {c p : Nat} {x z : Ctx} {v : Bool} (found : getCtx s c = some x) (number : z.c = x.c) (small : p < 4)
    (run : exec i s = .next (putCtx s { (pset z p v).retire with reads := [] })) :
    Does i s fun t => t = { s with ctxs := t.ctxs } ∧ ∃ y, getCtx t c = some y ∧ y.wait = .ready ∧ y.pc = z.pc + 1 ∧ pget y p = (p == 0 || v) ∧
      y.regs = z.regs ∧ y.hnd = z.hnd ∧ y.reads = [] := by
  have number' : (pset z p v).c = x.c := (pset_c z p v).trans number
  obtain ⟨t, run, own, -, frame⟩ := lands_of_exec_eq_putCtx (y := { (pset z p v).retire with reads := [] }) found number' run
  exact ⟨t, run, frame, _, own, rfl, congrArg (· + 1) (pset_pc z p v), pget_pset_same z p v small, pset_regs z p v, pset_hnd z p v, rfl⟩

/-- The end of an MRD (R160). -/
theorem mrdDone_lands {i : Instr} {s : State} {c : Nat} {x : Ctx} (found : getCtx s c = some x) (run : exec i s = .next (mrdDone s x)) :
    Does i s fun t => t = { s with ctxs := t.ctxs } ∧ ∃ y, getCtx t c = some y ∧ y.wait = .ready ∧ y.pc = x.pc + 1 ∧
      pget y (zFl x.word % 4) = (zFl x.word % 4 == 0 || x.reads.all GranRead.delivered) ∧ y.regs = x.regs ∧ y.reads = [] := by
  obtain ⟨z, put, number, pc, regs⟩ : ∃ z : Ctx, mrdDone s x = putCtx s { (pset z (zFl x.word % 4) (x.reads.all GranRead.delivered)).retire with reads := [] } ∧
      z.c = x.c ∧ z.pc = x.pc ∧ z.regs = x.regs := by
    refine ⟨_, rfl, ?_⟩
    obtain ⟨b, filled⟩ := foldl_hmod_hnd (zH x.word)
      (fun r m => Mem.splice m (gd x x.word + r.2 * gran s x) (gran s x) r.1.out) x.reads.zipIdx
      (noteReads x (if bit (zFl x.word) 2 then some (rget x 15) else none))
    rw [filled]
    exact ⟨rfl, rfl, rfl⟩
  obtain ⟨t, run, frame, y, own, ready, pc', pred, regs', -, reads⟩ := reads_end found number (Nat.mod_lt _ (by decide)) (run.trans (congrArg _ put))
  exact ⟨t, run, frame, y, own, ready, pc'.trans (congrArg (· + 1) pc), pred, regs'.trans regs, reads⟩

/-- The end of an MCMP (R165). -/
theorem mcmpDone_lands {i : Instr} {s : State} {c : Nat} {x : Ctx} (found : getCtx s c = some x) (run : exec i s = .next (mcmpDone s x)) :
    Does i s fun t => t = { s with ctxs := t.ctxs } ∧ ∃ y, getCtx t c = some y ∧ y.wait = .ready ∧ y.pc = x.pc + 1 ∧
      pget y (zFl x.word % 4) = (zFl x.word % 4 == 0 || readsEqual s x (zH x.word) (gd x x.word)) ∧ y.hnd = x.hnd ∧ y.regs = x.regs := by
  obtain ⟨t, run, frame, y, own, ready, pc, pred, regs, hnd, -⟩ :=
    reads_end (z := noteReads x none) found rfl (Nat.mod_lt _ (by decide)) run
  exact ⟨t, run, frame, y, own, ready, pc, pred, hnd, regs⟩

/-- The single granule of an MRD stands in its extent. -/
theorem mrdDone_fills {s : State} {c : Nat} {x : Ctx} {r : GranRead} {b : Buf} (found : getCtx s c = some x) (one : x.reads = [r])
    (held : hget x (zH x.word) = some b) : ∃ y, getCtx (mrdDone s x) c = some y ∧ hget y (zH x.word) =
      some { b with bytes := Mem.splice b.bytes (gd x x.word) (gran s x) (if r.delivered then r.bytes else []) } := by
  have hx : x.c = c := getCtx_number found
  let y := hmod (noteReads x (if bit (zFl x.word) 2 then some (rget x 15) else none)) (zH x.word) fun m => Mem.splice m (gd x x.word) (gran s x) r.out
  have hy : y = hmod (noteReads x (if bit (zFl x.word) 2 then some (rget x 15) else none)) (zH x.word) fun m => Mem.splice m (gd x x.word) (gran s x) r.out := rfl
  have number : y.c = c := by rw [hy, hmod_hnd]; exact hx
  have fold : mrdDone s x = putCtx s { (pset y (zFl x.word % 4) (x.reads.all GranRead.delivered)).retire with reads := [] } := by
    simp only [mrdDone, one, List.zipIdx_cons, List.zipIdx_nil, List.foldl_cons, List.foldl_nil, Nat.zero_mul, Nat.add_zero, hy]
  have number' : (pset y (zFl x.word % 4) (x.reads.all GranRead.delivered)).c = c := (pset_c ..).trans number
  rw [fold]
  refine ⟨_, getCtx_putCtx (y := { (pset y (zFl x.word % 4) (x.reads.all GranRead.delivered)).retire with reads := [] }) found number', ?_⟩
  have kept : hget { (pset y (zFl x.word % 4) (x.reads.all GranRead.delivered)).retire with reads := [] } (zH x.word) = hget y (zH x.word) :=
    congrArg (fun v => vget v (zH x.word) none) (pset_hnd y _ _)
  rw [kept, hy]
  exact hget_hmod (x := noteReads x _) held (zH_lt _) _

/-- The context of an HXIN whose bytes have come (R163). -/
def received (x : Ctx) (bytes : List Byte) : Ctx :=
  { hwrite x (zH x.word) (ga x x.word) (if x.ringOf.isSome then bytes else (x.data.drop (gd x x.word)).take (gb x x.word)) with
    wait := .ready, pc := x.pc + 1 }

/-- What ends an HXIN. -/
theorem retire_hxin {s : State} {x : Ctx} {bytes : List Byte} {st : Nat} (op : zOp x.word = 0x20) (moved : x.left = 0)
    (arrived : ∀ g, x.ringOf = some g → (hostReach s x = true ∨ gb x x.word = 0) ∧ bytes.length = gb x x.word) :
    retireInstr s x bytes st = endTransfer (putCtx s (received x bytes)) x.c false (gb x x.word) := by
  have done : hostInDone s x (gb x x.word) bytes = true := by
    cases src : x.ringOf with
    | none => simp [hostInDone, src]
    | some g =>
      obtain ⟨reach, all⟩ := arrived g src
      simp [hostInDone, src, all, reach]
  have took : hostIn x (gd x x.word) (gb x x.word) bytes = if x.ringOf.isSome then bytes else (x.data.drop (gd x x.word)).take (gb x x.word) := by
    cases src : x.ringOf with
    | none => simp [hostIn, src]
    | some g => simp [hostIn, src, ← (arrived g src).2]
  have pc : (hwrite x (zH x.word) (ga x x.word) (hostIn x (gd x x.word) (gb x x.word) bytes)).pc = x.pc := by
    rw [hwrite, hmod_hnd]
  simp only [retireInstr, op, moved, ne_eq, not_true_eq_false, and_false, if_false, done, if_true]
  rw [Ctx.retire, pc, took]
  rfl

/-- What ends an HXOUT. -/
theorem retire_hxout {s : State} {x : Ctx} {bytes : List Byte} {st : Nat} (op : zOp x.word = 0x21) (moved : x.left = 0)
    (reach : hostReach s x = true ∨ gb x x.word = 0) :
    retireInstr s x bytes st =
      endTransfer (hostOut (putCtx s x.retire) x (gd x x.word) (hread x (zH x.word) (ga x x.word) (gb x x.word))) x.c true (gb x x.word) := by
  have go : (!hostReach s x && gb x x.word != 0) = false := by
    rcases reach with reach | none_
    · simp [reach]
    · simp [none_]
  simp only [retireInstr, op, moved, ne_eq, not_true_eq_false, and_false, if_false, go, Bool.false_eq_true]

/-- An HXIN ends with its bytes in its extent. -/
theorem hxin_ends {s : State} {c : Nat} {x : Ctx} {bytes : List Byte} {st : Nat} (found : getCtx s c = some x) (op : zOp x.word = 0x20)
    (moved : x.left = 0) (arrived : ∀ g, x.ringOf = some g → (hostReach s x = true ∨ gb x x.word = 0) ∧ bytes.length = gb x x.word) :
    let t := retireInstr s x bytes st
    t = { s with ctxs := t.ctxs, movers := t.movers } ∧ getCtx t c = some (received x bytes) ∧
      t.movers.fromHost = satAdd s.movers.fromHost (if x.ringOf.isSome then gb x x.word else 0) := by
  have hx : x.c = c := getCtx_number found
  have number : (received x bytes).c = c := by
    unfold received
    rw [hwrite, hmod_hnd]
    exact hx
  have ring : (received x bytes).ringOf = x.ringOf := by
    unfold received
    rw [hwrite, hmod_hnd]
    rfl
  intro t
  have run : t = endTransfer (putCtx s (received x bytes)) c false (gb x x.word) := by
    rw [← hx]
    exact retire_hxin op moved arrived
  have put : putCtx s (received x bytes) = modCtx s c fun _ => received x bytes := by rw [putCtx, number]
  rw [put] at run
  have own : getCtx (modCtx s c fun _ => received x bytes) c = some (received x bytes) := getCtx_put found number
  obtain ⟨frame, count⟩ := endTransfer_counts own false (gb x x.word)
  rw [← run] at frame count
  refine ⟨?_, ?_, ?_⟩
  · rw [frame]
    rfl
  · rw [frame]
    exact own
  · rw [← ring]
    exact count

/-- A retired context of no ring that wrote the bytes `k` of its request's data. -/
def sentInside (x : Ctx) (k : List Byte) : Ctx :=
  { x with wait := .ready, pc := x.pc + 1, data := x.data.take (gd x x.word) ++ k ++ x.data.drop (gd x x.word + k.length) }

/-- An HXOUT of a ring's command ends with the write requests of its extent sent. -/
theorem hxout_ends {s : State} {c g : Nat} {x : Ctx} {bytes : List Byte} {st : Nat} (found : getCtx s c = some x) (op : zOp x.word = 0x21)
    (moved : x.left = 0) (src : x.ringOf = some g) (reach : hostReach s x = true ∨ gb x x.word = 0) :
    let t := retireInstr s x bytes st
    t = { s with ctxs := t.ctxs, movers := t.movers, out := t.out } ∧ getCtx t c = some { x with wait := .ready, pc := x.pc + 1 } ∧
      t.out = s.out ++ (writeReqs s x (gd x x.word) (hread x (zH x.word) (ga x x.word) (gb x x.word))).map
        (fun p => .hostWrite x.fn (BitVec.ofNat 64 p.1) p.2) ∧
      t.movers.toHost = satAdd s.movers.toHost (gb x x.word) := by
  have hx : x.c = c := getCtx_number found
  intro t
  let u := modCtx s c fun _ => x.retire
  let sent : List Out := (writeReqs s x (gd x x.word) (hread x (zH x.word) (ga x x.word) (gb x x.word))).map (fun p => .hostWrite x.fn (BitVec.ofNat 64 p.1) p.2)
  have run : t = endTransfer (u.updOut (· ++ sent)) c true (gb x x.word) := by
    rw [← hx]
    refine (retire_hxout op moved reach).trans ?_
    rw [hostOut, src]
    simp only [foldl_emit]
    rw [putCtx, show x.retire.c = c from hx, hx]
    rfl
  have own : getCtx (u.updOut (· ++ sent)) c = some x.retire := getCtx_put (y := x.retire) found hx
  obtain ⟨frame, count⟩ := endTransfer_counts own true (gb x x.word)
  rw [← run] at frame count
  refine ⟨?_, ?_, ?_, ?_⟩
  · rw [frame]
    rfl
  · rw [frame]
    exact own
  · rw [frame]
    rfl
  · have ring : x.retire.ringOf = some g := src
    simp only [ring, Option.isSome_some, if_true] at count
    exact count

/-- An HXOUT of a command of no ring writes its request's data. -/
theorem hxout_ends_inside {s : State} {c : Nat} {x : Ctx} {bytes : List Byte} {st : Nat} (found : getCtx s c = some x) (op : zOp x.word = 0x21)
    (moved : x.left = 0) (src : x.ringOf = none) :
    let t := retireInstr s x bytes st
    t = { s with ctxs := t.ctxs, movers := t.movers } ∧ t.movers.toHost = satAdd s.movers.toHost 0 ∧
      getCtx t c = some (sentInside x (hread x (zH x.word) (ga x x.word) (gb x x.word))) := by
  have hx : x.c = c := getCtx_number found
  have reach : hostReach s x = true := by simp [hostReach, src]
  intro t
  let k := hread x (zH x.word) (ga x x.word) (gb x x.word)
  have run : t = endTransfer (modCtx s c fun _ => sentInside x k) c true (gb x x.word) := by
    rw [← hx]
    refine (retire_hxout op moved (.inl reach)).trans ?_
    rw [hostOut, src]
    simp only [putCtx, show x.retire.c = x.c from rfl]
    rw [modCtx_put s x.c x.retire _ rfl]
    rfl
  have own : getCtx (modCtx s c fun _ => sentInside x k) c = some (sentInside x k) := getCtx_put found hx
  obtain ⟨frame, count⟩ := endTransfer_counts own true (gb x x.word)
  rw [← run] at frame count
  have ring : (sentInside x k).ringOf = none := src
  refine ⟨?_, ?_, ?_⟩
  · rw [frame]
    rfl
  · simp only [ring, Option.isSome_none, if_true, Bool.false_eq_true, if_false] at count
    exact count
  · rw [frame]
    exact own

/-- A stream instruction with nothing left, a flushed MFLUSH, a FENCE whose durability holds and an MWR with nothing to enter or verify just
retire (R167). -/
theorem retireInstr_retires {s : State} {c : Nat} {x : Ctx} {bytes : List Byte} {st : Nat}
    (done : [0x2C, 0x2D, 0x2E, 0x2F].contains (zOp x.word) = true ∧ x.left = 0 ∨ zOp x.word = 0x28 ∧ flushed s x = true ∨
      zOp x.word = 0x31 ∧ (bit (zImm x.word) 0 = false ∨ durable s x = true) ∨
      zOp x.word = 0x25 ∧ gb x x.word ≤ x.snap ∧ (s.xlat.gather.any fun g => g.through && !g.atom && g.owner == c) = false) (number : x.c = c) :
    retireInstr s x bytes st = putCtx s x.retire := by
  rcases done with ⟨op, moved⟩ | ⟨op, all⟩ | ⟨op, wait⟩ | ⟨op, all, verified⟩
  · simp only [List.contains_eq_mem, List.mem_cons, List.not_mem_nil, or_false, decide_eq_true_eq] at op
    rcases op with op | op | op | op <;> simp [retireInstr, op, moved]
  · simp [retireInstr, drawKind, op, all]
  · rcases wait with bit_ | all
    · simp [retireInstr, drawKind, op, bit_]
    · simp [retireInstr, drawKind, op, all]
  · rw [← number] at verified
    simp [retireInstr, drawKind, op, Nat.not_lt.mpr all, verified]

/-- A setting that a SET changes leaves the contexts. -/
theorem applySet_ctxs (s : State) (id : Nat) (v : BitVec 64) : (applySet s id v).ctxs = s.ctxs := by
  unfold applySet
  split
  · rfl
  next now =>
    have cane : id ≠ 0x0C000001 ∧ id ≠ 0x0C000002 := by
      constructor <;> (rintro rfl; exact now rfl)
    simp only [actNow, cane, if_false]
    repeat' split
    all_goals rfl

/-- A SET that ends gives its outcome: word 0 and a true predicate for OK (R25). -/
theorem retireSet_ok (x : Ctx) : let y := x.retireSet St.ok 0
    y.wait = .ready ∧ y.pc = x.pc + 1 ∧ rget y (zD x.word) = 0 ∧ pget y (zFn x.word % 4) = true := by
  intro y
  have regs : y.regs = (rset x (zD x.word) 0).regs := pset_regs ..
  refine ⟨rfl, congrArg (· + 1) ((pset_pc ..).trans (rset_pc ..)), ?_, ?_⟩
  · by_cases g0 : zD x.word = 0
    · simp [rget, g0]
    · have read := rget_rset_same x 0 g0 (zD_lt _)
      rw [rget, if_neg g0] at read ⊢
      rw [regs]
      exact read
  · have set_ := pget_pset_same (rset x (zD x.word) (outcomeWord St.ok 0)) (zFn x.word % 4) (St.ok == St.ok) (Nat.mod_lt _ (by decide))
    rw [show (St.ok == St.ok) = true from rfl, Bool.or_true] at set_
    exact set_

/-- Settles O10: each waiting instruction by what `retireInstr` does at its opcode. -/
theorem waitingInstructionsRetire : Obligations.WaitingInstructionsRetire := by
  unfold Obligations.WaitingInstructionsRetire
  refine ⟨fun s c x bytes st found waits going op all => ?_, fun s c x bytes st r b found waits going op one done held => ?_,
    fun s c x bytes st found waits going op all => ?_, fun s c x bytes st found waits going op moved arrived => ?_,
    fun s c x g bytes st found waits going op moved src reach => ?_, fun s c x bytes st found waits going op moved src => ?_,
    fun s c x bytes st found waits going done => ?_, fun s c x bytes st found waits going op own free => ?_⟩
  · refine mrdDone_lands found ((waitComplete_retires found waits going).trans (congrArg _ ?_))
    simp [retireInstr, drawKind, op, readsDone, all]
  · refine ⟨_, (waitComplete_retires found waits going).trans (congrArg _ ?_), mrdDone_fills found one held⟩
    simp [retireInstr, drawKind, op, readsDone, one, done]
  · refine mcmpDone_lands found ((waitComplete_retires found waits going).trans (congrArg _ ?_))
    simp [retireInstr, drawKind, op, readsDone, all]
  · exact ⟨_, waitComplete_retires found waits going, hxin_ends found op moved arrived⟩
  · exact ⟨_, waitComplete_retires found waits going, hxout_ends found op moved src reach⟩
  · obtain ⟨frame, count, own⟩ := hxout_ends_inside (bytes := bytes) (st := st) found op moved src
    exact ⟨_, waitComplete_retires found waits going, frame, count, _, rfl, own⟩
  · refine lands_of_exec_eq_putCtx found rfl ((waitComplete_retires found waits going).trans (congrArg _ ?_))
    exact retireInstr_retires done (getCtx_number found)
  · have run : retireInstr s x bytes st = putCtx (applySet s (setArgs x).1 (setArgs x).2) (x.retireSet St.ok 0) := by
      simp [retireInstr, drawKind, op, own, free]
    have number : (x.retireSet St.ok 0).c = c := ((pset_c ..).trans (rset_c ..)).trans (getCtx_number found)
    have found' : getCtx (applySet s (setArgs x).1 (setArgs x).2) c = some x := by
      rw [getCtx, applySet_ctxs]
      exact found
    rw [putCtx, number] at run
    exact ⟨_, (waitComplete_retires found waits going).trans (congrArg _ run), _, getCtx_put found' number, retireSet_ok x⟩

end Sys2Proof.Proofs
end

section
/-! PROOF. SettingInstructions is refuted: nothing bounds a state to one context of a number, and counting the issue of a GET replaces every
context of its number, so that the slab bytes it reads (R149) are no longer those of the state before. -/

namespace Sys2Proof.Proofs

open Sys2Proof Sys2Proof.Machine Sys2Proof.Safety Sys2Proof.Laws

/-- GET of the setting named by G1 into G1, its outcome to G0. -/
def getWord : BitVec 32 := 0xD4440000

/-- An admin context about to read ZCI_SLAB_FREE. -/
def readingCtx : Ctx :=
  { copyingCtx with
    admin := true, code := some { decl := [], words := [getWord] }, pc := 0, budget := 9, wait := .ready, slabRes := 0, prog := 0x1000,
    regs := Vector.ofFn fun i => if i.val = 1 then 0x03000005 else 0 }

/-- That context, and another of its number that has five slab bytes reserved. -/
def doubledSt : State := { State.reset with beat := 10, ctxs := [readingCtx, { readingCtx with slabRes := 5 }] }

theorem doubledSt_issues : Issues doubledSt 0 0x35 readingCtx getWord where
  ctx := rfl
  free := by decide +kernel
  word := rfl
  opc := by decide +kernel
  budget := .inr (.inl (by decide))
  guard := by decide +kernel

/-- What the GET of doubledSt puts into G1: no byte is reserved any more. -/
theorem doubledSt_reads : ∃ t, exec (.get 0) doubledSt = .next t ∧ ∃ y, getCtx t 0 = some y ∧ rget y 1 = BitVec.ofNat 64 (2 ^ 36) :=
  ⟨_, rfl, _, rfl, by decide +kernel⟩

/-- Refutes O11: in doubledSt a GET of ZCI_SLAB_FREE does not read the value of the state before. -/
theorem not_settingInstructions : ¬ Obligations.SettingInstructions := by
  unfold Obligations.SettingInstructions
  rintro ⟨get, -⟩
  obtain ⟨t, run, own, -⟩ := get doubledSt 0 readingCtx getWord doubledSt_issues rfl (by decide +kernel)
  obtain ⟨t', run', y, own', value⟩ := doubledSt_reads
  cases run.symm.trans run'
  cases own.symm.trans own'
  exact absurd value (by decide +kernel)

end Sys2Proof.Proofs
end

section
/-! PROOF. DozeRcallRawIssue: each issue that passes its checks puts its context back waiting (R167) and goes on to its service; what the
service of a DOZE (R440, R441), of a call of the own node (R389) and of a RAW (R176) then changes. -/

namespace Sys2Proof.Proofs

open Sys2Proof Sys2Proof.Machine Sys2Proof.Safety Sys2Proof.Laws

/-- A context put back after its issue is the one put there. -/
theorem putCtx_after {s : State} {c : Nat} {y z : Ctx} (hz : z.c = c) (hy : y.c = c) : putCtx (modCtx s c fun _ => y) z = modCtx s c fun _ => z := by
  rw [putCtx, hz]
  exact modCtx_put s c y _ hy

/-- A context that waits after its issue. -/
def waitingOn (s : State) (x : Ctx) (op : Nat) (w : BitVec 32) : Ctx := { ran s x op w with wait := .instr }

theorem waitingOn_number (s : State) (x : Ctx) (op : Nat) (w : BitVec 32) : (waitingOn s x op w).c = x.c := ran_number s x op w

theorem waitingOn_word (s : State) (x : Ctx) (op : Nat) (w : BitVec 32) : (waitingOn s x op w).word = w := by
  unfold waitingOn ran
  split <;> rfl

theorem ran_pc (s : State) (x : Ctx) (op : Nat) (w : BitVec 32) : (ran s x op w).pc = x.pc := by
  unfold ran
  split <;> rfl

theorem ran_adm (s : State) (x : Ctx) (op : Nat) (w : BitVec 32) : (ran s x op w).adm = x.adm := by
  unfold ran
  split <;> rfl

/-! ### DOZE -/

/-- A DOZE that passes its checks requests the time of day of DAY_TARGET. -/
theorem doze_runs {s : State} {c : Nat} {x : Ctx} {w : BitVec 32} (h : Issues s c 0x36 x w) (admin : x.admin = true)
    (allowed : nvVal s 0x0E000001 < 2 ∨ x.entry.cls = 7) :
    exec (.doze c) s = .next (requestDay (modCtx s c fun _ => waitingOn s x 0x36 w) c (dayOf (nvVal s 0x0E000001))) := by
  have hx : x.c = c := getCtx_number h.ctx
  have hr : (ran s x 0x36 w).c = c := (ran_number ..).trans hx
  have passes : firstFault ([adminCheck (x.countIssue 0x36 w), (decide (2 ≤ nvVal s 0x0E000001) && (x.countIssue 0x36 w).entry.cls != 7, 0x07)]) = none := by
    have denied : adminCheck (x.countIssue 0x36 w) = (false, 0x07) := by
      simp only [adminCheck, show (x.countIssue 0x36 w).admin = x.admin from rfl, admin, Bool.not_true]
    have far : (decide (2 ≤ nvVal s 0x0E000001) && (x.countIssue 0x36 w).entry.cls != 7) = false := by
      rcases allowed with near | deep
      · simp [Nat.not_le.mpr near]
      · simp [show (x.countIssue 0x36 w).entry = x.entry from rfl, deep]
    rw [denied, far]
    rfl
  refine congrArg Host.Outcome.next ((issue_runs h _ _ passes).trans ?_)
  show requestDay (putCtx (modCtx s c fun _ => ran s x 0x36 w) (waitingOn s x 0x36 w)) (ran s x 0x36 w).c (dayOf (nvVal s 0x0E000001)) = _
  rw [putCtx_after ((waitingOn_number ..).trans hx) hr, hr]

/-- A DOZE that ends another's request leaves the other contexts and all else. -/
theorem dozeDone_other (s : State) {c z : Nat} (other : z ≠ c) (st : BitVec 16) :
    getCtx (dozeDone s z st) c = getCtx s c ∧ dozeDone s z st = { s with ctxs := (dozeDone s z st).ctxs } := by
  unfold dozeDone
  split
  · exact ⟨rfl, rfl⟩
  next y found =>
    have number : ((rset y (zD y.word) (st.setWidth 64)).retire).c = z := (rset_c ..).trans (getCtx_number found)
    split
    · split
      · refine ⟨?_, rfl⟩
        rw [putCtx, number]
        exact getCtx_modCtx_ne s z c other.symm _ fun _ _ => number
      · exact ⟨rfl, rfl⟩
    · split
      · exact ⟨getCtx_modCtx_ne s z c other.symm _ fun _ => id, rfl⟩
      · exact ⟨rfl, rfl⟩

/-- A request of another time of day than now's is pending. -/
theorem requestDay_pends {s : State} {c : Nat} {t : DayState} (none_ : s.day.pendReq = none) (other : t ≠ s.day.day) :
    requestDay s c t = s.updDay fun d => { d with pendReq := some (t, c) } := by
  simp only [requestDay, none_, other, if_false]

/-- A program's DOZE of the time of day that is now ends at once (R441). -/
theorem requestDay_done {s : State} {c : Nat} {t : DayState} {y : Ctx} (none_ : s.day.pendReq = none) (now : t = s.day.day) (found : getCtx s c = some y)
    (prog : y.entry.isProg = true) (waits : y.wait = .instr) (op : zOp y.word = 0x36) :
    requestDay s c t = putCtx s (rset y (zD y.word) 0).retire := by
  simp only [requestDay, none_, now, if_true, dozeDone, found, prog, waits, op]
  rfl

/-! ### RAW -/

/-- What a RAW sends is sent after what was sent before, whatever the contexts. -/
theorem rawCmds_out (s : State) (h data : List Byte) (f : List Ctx → List Ctx) :
    rawCmds (s.updCtxs f) h data = { rawCmds s h data with ctxs := f s.ctxs } := by
  simp only [rawCmds]
  split
  · split <;> rfl
  all_goals rfl

theorem rawCmds_frame (s : State) (h data : List Byte) : rawCmds s h data = { s with out := (rawCmds s h data).out } := by
  simp only [rawCmds]
  split
  · split <;> rfl
  all_goals rfl

/-- The state of a RAW that may start: its commands have gone out. -/
def rawStarted (s : State) (x : Ctx) (w : BitVec 32) : State :=
  let h := hread x (zH w) (ga x w) 64
  if rawCode s (field h 0 1) (field h 8 8 % 2 ^ 36 / 2 ^ 25) false = 0 then rawCmds s h (hread x (zH w) (ga x w + 64) (rawDbytes x w)) else s

theorem rawStarted_ctxs (s : State) (x : Ctx) (w : BitVec 32) (f : List Ctx → List Ctx) :
    rawStarted (s.updCtxs f) x w = { rawStarted s x w with ctxs := f s.ctxs } := by
  have code : ∀ a b, rawCode (s.updCtxs f) a b false = rawCode s a b false := fun a b => rfl
  simp only [rawStarted, code]
  split
  · exact rawCmds_out ..
  · rfl

theorem rawStarted_frame (s : State) (x : Ctx) (w : BitVec 32) : rawStarted s x w = { s with out := (rawStarted s x w).out } := by
  simp only [rawStarted]
  split
  · exact rawCmds_frame ..
  · rfl

theorem rawStarted_ran (s : State) (x : Ctx) (op : Nat) (w : BitVec 32) : rawStarted s (ran s x op w) w = rawStarted s x w := by
  unfold ran
  split <;> rfl

/-- A RAW that passes its checks waits, with what it starts sent. -/
theorem raw_waits {s : State} {c : Nat} {x : Ctx} {w : BitVec 32} (h : Issues s c 0x3A x w) (admin : x.admin = true) (life : s.sec.life = .bench)
    (close : s.sec.benchClose = false) (cls : x.entry.cls = 7) (bounds : inBounds x (zH w) (ga x w) (gb x w) = true)
    (fits : 64 + rawDbytes x w ≤ gb x w) (aligned : rawDbytes x w % 4 = 0) :
    Waits (.raw c) s c (fun t => { s with ctxs := t.ctxs, out := t.out }) fun t y => y = waitingOn s x 0x3A w ∧ t.out = (rawStarted s x w).out := by
  have hx : x.c = c := getCtx_number h.ctx
  have hr : (ran s x 0x3A w).c = c := (ran_number ..).trans hx
  have dbytes : rawDbytes (x.countIssue 0x3A w) w = rawDbytes x w := rfl
  have passes : firstFault ([(!x.admin || s.sec.life != .bench || s.sec.benchClose || x.entry.cls != 7, 0x07),
      (!inBounds x (zH w) (ga x w) (gb x w) || decide (gb x w < 64 + rawDbytes x w), 0x04), (rawDbytes x w % 4 != 0, 0x05)]) = none := by
    simp [firstFault, admin, life, close, cls, bounds, Nat.not_lt.mpr fits, aligned]
  let u := modCtx s c fun _ => ran s x 0x3A w
  have hu : u = modCtx s c fun _ => ran s x 0x3A w := rfl
  have run : exec (.raw c) s = .next (putCtx (rawStarted u (ran s x 0x3A w) w) (waitingOn s x 0x3A w)) :=
    congrArg Host.Outcome.next ((issue_runs h _ _ passes).trans rfl)
  have started : rawStarted u (ran s x 0x3A w) w = { rawStarted s x w with ctxs := u.ctxs } :=
    (rawStarted_ctxs s _ w _).trans (by rw [rawStarted_ran]; rfl)
  obtain ⟨own, others⟩ := ctx_replaced_put (t := putCtx (rawStarted u (ran s x 0x3A w) w) (waitingOn s x 0x3A w)) (y := ran s x 0x3A w)
    (z := waitingOn s x 0x3A w) h.ctx hr ((waitingOn_number ..).trans hx) (by rw [started]; rfl)
  refine ⟨_, run, ⟨_, own, rfl, rfl, ?_⟩, others, ?_⟩
  · rw [started]
    rfl
  · rw [started, rawStarted_frame]
    rfl

/-! ### RCALL -/

/-- A call that passes its checks is sent on with its context waiting for the reply (R173). -/
theorem rcall_runs {s : State} {c : Nat} {x : Ctx} {w : BitVec 32} (h : Issues s c 0x38 x w) (passes : firstFault (rcallChecks x w) = none) :
    exec (.rcall c) s = .next (rcallSend (modCtx s c fun _ => { ran s x 0x38 w with wait := .instr, reply := [] }) (ran s x 0x38 w) w) := by
  have hx : x.c = c := getCtx_number h.ctx
  have hr : (ran s x 0x38 w).c = c := (ran_number ..).trans hx
  refine congrArg Host.Outcome.next ((issue_runs h rcallChecks _ passes).trans ?_)
  show rcallSend (putCtx _ { (ran s x 0x38 w).hold with reply := [] }) _ w = _
  rw [putCtx_after (z := { (ran s x 0x38 w).hold with reply := [] }) hr hr]
  rfl

/-- A call of the own node enters the Cane queue where it has room (R389). -/
theorem rcallSend_enters {s : State} {x : Ctx} {w : BitVec 32} (travels : hopsOf x ≤ nvVal s 0x0C000016)
    (own : field (hread x (zH w) (ga x w) 64) 0 2 % 16384 = ownNode s) (room : s.cane.queue.length < nvVal s 0x0C000015) :
    ∃ q, rcallSend s x w = s.updCane (fun k => { k with queue := k.queue ++ [q] }) ∧ q.sid = 0 ∧ q.msgId = x.adm ∧ q.at_ = s.beat := by
  simp only [rcallSend, Nat.not_lt.mpr travels, if_false, own, if_true, enterQueue, Nat.not_le.mpr room]
  exact ⟨_, rfl, rfl, rfl, rfl⟩

/-- Settles O12: each of the three by what its service does once the issue has put its context back. -/
theorem dozeRcallRawIssue : Obligations.DozeRcallRawIssue := by
  unfold Obligations.DozeRcallRawIssue
  refine ⟨fun s c x w h admin allowed other none_ => ?_, fun s c x w d z h admin allowed other pending foreign => ?_,
    fun s c x w h admin allowed now none_ prog => ?_, fun s c x w h admin allowed => doze_runs h admin allowed,
    fun s c x w h passes => rcall_runs h passes, fun s c x w h passes travels own room => ?_,
    fun s c x w h admin life close cls bounds fits aligned => ?_⟩
  · have hx : x.c = c := getCtx_number h.ctx
    let u := modCtx s c fun _ => waitingOn s x 0x36 w
    have run := doze_runs h admin allowed
    rw [requestDay_pends (s := u) none_ other] at run
    obtain ⟨own, others⟩ := ctx_replaced (t := u.updDay fun k => { k with pendReq := some (dayOf (nvVal s 0x0E000001), c) }) (y := waitingOn s x 0x36 w)
      h.ctx ((waitingOn_number ..).trans hx) rfl
    exact ⟨_, run, ⟨_, own, rfl, rfl, rfl⟩, others, rfl⟩
  · have hx : x.c = c := getCtx_number h.ctx
    have run := doze_runs h admin allowed
    let u := modCtx s c fun _ => waitingOn s x 0x36 w
    have hu : u = modCtx s c fun _ => waitingOn s x 0x36 w := rfl
    obtain ⟨v, hv⟩ : ∃ v, v = u.updDay fun k => { k with superseded := min (k.superseded + 1) (2 ^ 32 - 1), pendReq := none } := ⟨_, rfl⟩
    have request : requestDay u c (dayOf (nvVal s 0x0E000001)) =
        (dozeDone v z St.superseded).updDay fun k => { k with pendReq := some (dayOf (nvVal s 0x0E000001), c) } := by
      have pending' : u.day.pendReq = some (d, z) := pending
      have other' : ¬ dayOf (nvVal s 0x0E000001) = u.day.day := other
      rw [hv]
      simp only [requestDay, pending', if_neg other']
    obtain ⟨kept, frame⟩ := dozeDone_other v foreign St.superseded
    have own : getCtx v c = some (waitingOn s x 0x36 w) := by
      rw [hv]
      exact getCtx_put h.ctx ((waitingOn_number ..).trans hx)
    refine ⟨_, run.trans (congrArg _ request), rfl, ?_, waitingOn s x 0x36 w, kept.trans own, rfl, ran_pc ..⟩
    rw [frame, hv]
    rfl
  · have hx : x.c = c := getCtx_number h.ctx
    have hw : (waitingOn s x 0x36 w).c = c := (waitingOn_number ..).trans hx
    have run := doze_runs h admin allowed
    have word := waitingOn_word s x 0x36 w
    have prog' : (waitingOn s x 0x36 w).entry.isProg = true := by
      rw [show (waitingOn s x 0x36 w).entry = (ran s x 0x36 w).entry from rfl, entry_ran]
      exact prog
    rw [requestDay_done (s := modCtx s c fun _ => waitingOn s x 0x36 w) none_ now (getCtx_put h.ctx hw) prog' rfl (by rw [word]; exact h.opc), word] at run
    have retired : (rset (waitingOn s x 0x36 w) (zD w) 0).retire = { rset (ran s x 0x36 w) (zD w) 0 with wait := .ready, pc := x.pc + 1 } := by
      have pc := ran_pc s x 0x36 w
      rw [← pc]
      unfold rset waitingOn
      split <;> rfl
    rw [retired] at run
    exact lands_of_put (y := waitingOn s x 0x36 w) (z := { rset (ran s x 0x36 w) (zD w) 0 with wait := .ready, pc := x.pc + 1 }) h.ctx hw
      ((rset_c ..).trans ((ran_number ..).trans hx)) run
  · have hx : x.c = c := getCtx_number h.ctx
    have hr : (ran s x 0x38 w).c = c := (ran_number ..).trans hx
    have run := rcall_runs h passes
    let u := modCtx s c fun _ => { ran s x 0x38 w with wait := .instr, reply := [] }
    have hu : u = modCtx s c fun _ => { ran s x 0x38 w with wait := .instr, reply := [] } := rfl
    have same : hopsOf (ran s x 0x38 w) = hopsOf x ∧ hread (ran s x 0x38 w) (zH w) (ga (ran s x 0x38 w) w) 64 = hread x (zH w) (ga x w) 64 := by
      rw [ran_of_side rfl]
      exact ⟨rfl, rfl⟩
    obtain ⟨q, sent, sid, msg, at_⟩ := rcallSend_enters (s := u) (x := ran s x 0x38 w) (w := w) (by rw [same.1]; exact travels) (by rw [same.2]; exact own) room
    rw [sent] at run
    obtain ⟨own', others⟩ := ctx_replaced (t := u.updCane fun k => { k with queue := k.queue ++ [q] })
      (y := { ran s x 0x38 w with wait := .instr, reply := [] }) h.ctx hr rfl
    exact ⟨_, run, ⟨_, own', rfl, rfl, q, rfl, sid, msg.trans (ran_adm ..), at_⟩, others, rfl⟩
  · obtain ⟨t, run, ⟨y, own, waits, state, out⟩, others, frame⟩ := raw_waits h admin life close cls bounds fits aligned
    exact ⟨t, run, ⟨y, own, waits, state, _, rfl, out⟩, others, frame⟩

end Sys2Proof.Proofs
end

section
/-! PROOF. DirectReadsAndVerify: READ, COMPARE and VERIFY begin the reads of their range (R102), and with all terminal each ends as its kind
does; what a READ sends is written to the host only. -/

namespace Sys2Proof.Proofs

open Sys2Proof Sys2Proof.Machine Sys2Proof.Safety Sys2Proof.Laws

/-- A direct op begins the reads of its range; deep recovery may be entered (R69). -/
theorem beginReads_begins {s : State} {c : Nat} {x : Ctx} {ns : Namespace} (found : getCtx s c = some x) (named : ctxNs s x = some ns) :
    beginReads s x = { s with ctxs := (beginReads s x).ctxs, xlat := { s.xlat with deep := (beginReads s x).xlat.deep } } ∧
    ∃ y, getCtx (beginReads s x) c = some y ∧ y = { x with reads := y.reads } ∧
      y.reads.map GranRead.gran = (List.range x.entry.length.toNat).map (x.entry.lba.toNat + ·) := by
  have number : x.c = c := getCtx_number found
  let rs := startReads s x x.entry.lba.toNat x.entry.length.toNat
  have hrs : rs = startReads s x x.entry.lba.toNat x.entry.length.toNat := rfl
  obtain ⟨d, deep⟩ := registerDeep_deep ns rs (modCtx s c fun y => { y with reads := rs })
  have run : beginReads s x = { modCtx s c fun y => { y with reads := rs } with xlat := { s.xlat with deep := d } } := by
    simp only [beginReads, named, number]
    exact deep
  rw [run]
  exact ⟨rfl, { x with reads := rs }, getCtx_changed (f := fun y => { y with reads := rs }) found, rfl, startReads_gran named _ _⟩

/-- Every other context than a changed one, where the change is known from the goal. -/
theorem getCtx_changed_other {s : State} {c d : Nat} (other : d ≠ c) {f : Ctx → Ctx} (keeps : ∀ y, (f y).c = y.c := by exact fun _ => rfl) :
    getCtx (modCtx s c f) d = getCtx s d :=
  getCtx_modCtx_other s other f keeps

theorem getCtx_residentPost_other {s : State} {c d : Nat} (other : d ≠ c) (st : BitVec 16) (detail : BitVec 8) (res : BitVec 64) :
    getCtx (residentPost s c st detail res) d = getCtx s d :=
  getCtx_changed_other other

/-- A direct op that changes its context and whose POST is then to come. -/
theorem posts_of_changed {i : Instr} {s u : State} {c : Nat} {x : Ctx} {f : Ctx → Ctx} {st : BitVec 16} {det : BitVec 8} {res : BitVec 64}
    {keep : State → State} (found : getCtx s c = some x) (keeps : ∀ y, (f y).c = y.c) (run : exec i s = .next (residentPost u c st det res))
    (frame : residentPost u c st det res = keep (residentPost u c st det res)) (ctxs : u.ctxs = (modCtx s c f).ctxs := by rfl) :
    Posts i s c st det res keep fun _ => True := by
  have same : ∀ d, getCtx u d = getCtx (modCtx s c f) d := fun d => by rw [getCtx, ctxs]; rfl
  have own : getCtx u c = some (f x) := (same c).trans (getCtx_modCtx_found found f keeps)
  refine ⟨_, run, ⟨_, getCtx_residentPost own _ _ _, rfl, rfl, rfl, rfl⟩, fun d other => ?_, frame, trivial⟩
  exact (getCtx_residentPost_other other ..).trans ((same d).trans (getCtx_modCtx_other s other f keeps))

/-! ### What a READ sends -/

/-- From s to t a context of function `fn` under number `c` has written host bytes, or bytes of its own data, and nothing else. -/
def Sent (fn c : Nat) (s t : State) : Prop :=
  t.xlat = s.xlat ∧ t.beat = s.beat ∧ (∃ l, t.out = s.out ++ l ∧ ∀ o ∈ l, ∃ a bs, o = Out.hostWrite fn a bs) ∧
  ∀ y, getCtx s c = some y → ∃ d, getCtx t c = some { y with data := d }

theorem Sent.refl (fn c : Nat) (s : State) : Sent fn c s s :=
  ⟨rfl, rfl, ⟨[], by simp⟩, fun y found => ⟨y.data, found⟩⟩

theorem Sent.trans {fn c : Nat} {s t u : State} (a : Sent fn c s t) (b : Sent fn c t u) : Sent fn c s u := by
  obtain ⟨xlat, beat, ⟨l, out, writes⟩, ctx⟩ := a
  obtain ⟨xlat', beat', ⟨l', out', writes'⟩, ctx'⟩ := b
  refine ⟨xlat'.trans xlat, beat'.trans beat, ⟨l ++ l', by rw [out', out, List.append_assoc], fun o mem => ?_⟩, fun y found => ?_⟩
  · rcases List.mem_append.mp mem with mem | mem
    · exact writes o mem
    · exact writes' o mem
  · obtain ⟨d, found⟩ := ctx y found
    obtain ⟨d', found⟩ := ctx' _ found
    exact ⟨d', found⟩

/-- Bytes sent by a context are host writes of its function, or stay in its data where it came from no ring (R364). -/
theorem hostOut_sent (s : State) (x : Ctx) (off : Nat) (bs : List Byte) : Sent x.fn x.c s (hostOut s x off bs) := by
  unfold hostOut
  split
  · rw [foldl_emit]
    refine ⟨rfl, rfl, ⟨_, rfl, fun o mem => ?_⟩, fun y found => ⟨y.data, found⟩⟩
    obtain ⟨p, -, rfl⟩ := List.mem_map.mp mem
    exact ⟨_, _, rfl⟩
  · exact ⟨rfl, rfl, ⟨[], by simp [modCtx, State.updCtxs]⟩, fun y found => ⟨_, getCtx_changed found⟩⟩

/-- So are the granules of a READ. -/
theorem deliverReads_sent (s : State) (x : Ctx) (k : Nat) : Sent x.fn x.c s (deliverReads s x k) := by
  unfold deliverReads
  generalize (x.reads.take k).zipIdx = l
  simp only
  generalize gran s x = g
  induction l generalizing s with
  | nil => exact Sent.refl ..
  | cons r l ih =>
    refine Sent.trans ?_ (ih _)
    simp only
    split
    · exact hostOut_sent ..
    · exact Sent.refl ..

/-- The end of a READ that delivered something (R103). -/
theorem directRead_sends {s : State} {c : Nat} {x : Ctx} (found : getCtx s c = some x) (some_ : x.reads ≠ []) (done : readsDone x = true)
    (any_ : x.reads.any GranRead.delivered = true) (begun : x.snap ≠ 0) (reach : hostReach s x = true) :
    directRead s x = residentPost (modCtx (endTransfer (deliverReads s x x.reads.length) c true
      ((x.reads.filter GranRead.delivered).length * gran s x)) c fun y =>
        { y with sticky := directSticky x, hostWrites := (x.reads.filter GranRead.delivered).length }) c St.ok 0 0 := by
  have number : x.c = c := getCtx_number found
  have count : ¬ (x.reads.filter GranRead.delivered).length = 0 := by
    obtain ⟨r, mem, was⟩ := List.any_eq_true.mp any_
    exact Nat.ne_of_gt (List.length_pos_iff.mpr (List.ne_nil_of_mem (List.mem_filter.mpr ⟨mem, was⟩)))
  have empty : x.reads.isEmpty = false := by simp [some_]
  simp only [directRead, empty, done, count, begun, reach, number, Bool.not_true, Bool.false_eq_true, if_false]

/-- A delivered read is terminal. -/
theorem done_of_delivered {r : GranRead} (h : r.delivered = true) : r.done = true := by
  simp only [GranRead.delivered, List.all_eq_true, Bool.or_eq_true, beq_iff_eq] at h
  simp only [GranRead.done, List.all_eq_true]
  intro d mem
  rcases h d mem with rfl | rfl <;> rfl

/-- A granule holds at least one byte. -/
theorem gran_pos (s : State) (x : Ctx) : 0 < gran s x := by
  unfold gran
  cases ctxNs s x with
  | none => decide
  | some ns =>
    simp only [Option.map_some, Option.getD_some, Namespace.granule]
    split <;> decide

/-- The write requests of bytes that one buffer takes from its beginning (R329). -/
theorem writeReqs_one {s : State} {x : Ctx} {bs : List Byte} (direct : x.entry.dcount.getLsbD 31 = false) (some_ : 0 < bs.length)
    (fits : bs.length ≤ x.entry.dcount.toNat) :
    writeReqs s x 0 bs = (splitReqs (reqLimit s x.fn true) bs.length x.entry.daddr.toNat bs.length).map fun r =>
      (r.1, (bs.drop (r.1 - x.entry.daddr.toNat)).take r.2) := by
  have count : x.entry.dcount ≠ 0 := by
    intro zero
    rw [zero] at fits
    exact Nat.not_lt.mpr fits some_
  have pieces : descPieces x.entry x.segs = [(x.entry.daddr.toNat, x.entry.dcount.toNat)] := by
    simp only [descPieces, direct, Bool.false_eq_true, if_false, count]
  have nonempty : bs.isEmpty = false := by
    rw [List.isEmpty_eq_false_iff]
    exact List.ne_nil_of_length_pos some_
  have whole : scatterWrites [(x.entry.daddr.toNat, x.entry.dcount.toNat)] 0 bs = [(x.entry.daddr.toNat, bs)] := by
    simp only [scatterWrites, nonempty, Bool.false_eq_true, if_false, Nat.le_zero, show ¬ x.entry.dcount.toNat = 0 by omega, Nat.sub_zero,
      Nat.add_zero, List.take_of_length_le fits]
  simp only [writeReqs, pieces, whole, List.flatMap_cons, List.flatMap_nil, List.append_nil]

/-- Settles O17: the three begin their reads alike, and each ends by its own branch. -/
theorem directReadsAndVerify : Obligations.DirectReadsAndVerify := by
  unfold Obligations.DirectReadsAndVerify
  refine ⟨fun s c x ns i b row empty named => ?_, fun s c x h some_ done any_ begun reach => ?_, fun s c x r g h one was begun src reach direct fits => ?_,
    fun s c x h some_ done none_ => ?_, fun s c x h some_ done => ?_, fun s c x b h some_ done reach all same => ?_,
    fun s c x b k h some_ done reach all differ rank => ?_⟩
  · have empty' : x.reads.isEmpty = true := by simp [empty]
    rcases row with ⟨rfl, h⟩ | ⟨rfl, h⟩ | ⟨rfl, h⟩
    · have run : directRead s x = beginReads s x := by simp only [directRead, empty', if_true]
      exact ⟨_, congrArg Host.Outcome.next ((resident_runs h directRead).trans run), beginReads_begins h.ctx named⟩
    · have run : directCompare b s x = beginReads s x := by simp only [directCompare, empty', if_true]
      exact ⟨_, congrArg Host.Outcome.next ((resident_runs h (directCompare b)).trans run), beginReads_begins h.ctx named⟩
    · refine ⟨_, congrArg Host.Outcome.next ((resident_runs h _).trans ?_), beginReads_begins h.ctx named⟩
      simp only [empty', if_true]
  · have number : x.c = c := getCtx_number h.ctx
    have run : exec (.read c) s = .next (directRead s x) := congrArg Host.Outcome.next (resident_runs h directRead)
    rw [directRead_sends h.ctx some_ done any_ begun reach] at run
    have sent := deliverReads_sent s x x.reads.length
    rw [number] at sent
    obtain ⟨xlat, beat, ⟨l, out, writes⟩, ctx⟩ := sent
    obtain ⟨d, own⟩ := ctx x h.ctx
    obtain ⟨u, hu⟩ : ∃ u, u = deliverReads s x x.reads.length := ⟨_, rfl⟩
    rw [← hu] at run xlat beat out own
    have own' : getCtx (endTransfer u c true ((x.reads.filter GranRead.delivered).length * gran s x)) c = some { x with data := d } := own
    exact ⟨_, run, xlat, beat, _, getCtx_residentPost (getCtx_changed own') _ _ _, rfl, rfl, rfl, rfl, l, out, writes⟩
  · have number : x.c = c := getCtx_number h.ctx
    have done : readsDone x = true := by simp [readsDone, one, done_of_delivered was]
    have any_ : x.reads.any GranRead.delivered = true := by simp [one, was]
    have run : exec (.read c) s = .next (directRead s x) := congrArg Host.Outcome.next (resident_runs h directRead)
    rw [directRead_sends h.ctx (by simp [one]) done any_ begun reach] at run
    refine ⟨_, run, ?_⟩
    have bytes : (Mem.readN r.bytes 0 (gran s x)).length = gran s x := by simp [Mem.readN]
    have delivered : deliverReads s x x.reads.length = hostOut s x 0 (Mem.readN r.bytes 0 (gran s x)) := by
      simp [deliverReads, one, was]
    have reqs := writeReqs_one (s := s) (bs := Mem.readN r.bytes 0 (gran s x)) direct (by rw [bytes]; exact gran_pos s x) (by rw [bytes]; exact fits)
    rw [bytes] at reqs
    rw [delivered]
    simp only [hostOut, src, foldl_emit, reqs, List.map_map]
    rfl
  · have number : x.c = c := getCtx_number h.ctx
    have none' : (x.reads.filter GranRead.delivered).length = 0 := by
      rw [List.length_eq_zero_iff, List.filter_eq_nil_iff]
      intro r mem was
      exact absurd (List.any_eq_true.mpr ⟨r, mem, was⟩) (by simp [none_])
    have empty : x.reads.isEmpty = false := by simp [some_]
    have run : exec (.read c) s = .next (residentPost (modCtx s c fun y => { y with sticky := directSticky x }) c St.ok 0 0) := by
      refine congrArg Host.Outcome.next ((resident_runs h directRead).trans ?_)
      simp only [directRead, empty, done, none', number, Bool.not_true, Bool.false_eq_true, if_false, if_true]
    exact posts_of_changed (f := fun y => { y with sticky := directSticky x }) h.ctx (fun _ => rfl) run rfl
  · have number : x.c = c := getCtx_number h.ctx
    have empty : x.reads.isEmpty = false := by simp [some_]
    have run : exec (.verify c) s = .next (residentPost (modCtx s c fun y => { y with sticky := directSticky x }) c St.ok 0 0) := by
      refine congrArg Host.Outcome.next ((resident_runs h _).trans ?_)
      simp only [empty, done, number, Bool.not_true, Bool.false_eq_true, if_false]
    exact posts_of_changed (f := fun y => { y with sticky := directSticky x }) h.ctx (fun _ => rfl) run rfl
  · have number : x.c = c := getCtx_number h.ctx
    have empty : x.reads.isEmpty = false := by simp [some_]
    have run : exec (.compare c b) s = .next (residentPost (endTransfer (modCtx s c fun y => { y with sticky := directSticky x }) c false
        (x.entry.length.toNat * gran s x)) c St.ok 0 0) := by
      refine congrArg Host.Outcome.next ((resident_runs h _).trans ?_)
      simp only [directCompare, empty, done, number, reach, all, same, Bool.not_true, Bool.false_eq_true, if_false, ne_eq, not_true_eq_false, or_self]
    exact posts_of_changed (f := fun y => { y with sticky := directSticky x }) h.ctx (fun _ => rfl) run rfl
  · have number : x.c = c := getCtx_number h.ctx
    have empty : x.reads.isEmpty = false := by simp [some_]
    have run : exec (.compare c b) s = .next (residentPost (endTransfer (modCtx s c fun y => { y with sticky := directSticky x }) c false
        (x.entry.length.toNat * gran s x)) c St.compareMismatch 0 (BitVec.ofNat 64 k)) := by
      refine congrArg Host.Outcome.next ((resident_runs h _).trans ?_)
      simp only [directCompare, empty, done, number, reach, all, differ, show ¬ 2 ≤ (directSticky x).rank by omega, Bool.not_true, Bool.false_eq_true, if_false, ne_eq,
        not_true_eq_false, or_self]
    exact posts_of_changed (f := fun y => { y with sticky := directSticky x }) h.ctx (fun _ => rfl) run rfl

end Sys2Proof.Proofs
end

section
/-! PROOF. DirectWriteAndFlush: what entering a granule into the gather buffer leaves of the contexts and the page map (R196, R202), the same
for the granules of a WRITE (R102), and the bytes of a gather slot just written. -/

namespace Sys2Proof.Proofs

open Sys2Proof Sys2Proof.Machine Sys2Proof.Safety Sys2Proof.Laws

/-! ### Sparse bytes -/

/-- Cells kept by their address read as before. -/
theorem read_filter {m : List Host.Cell} {lo x : Nat} (h : Mem.wfFrom lo m = true) (p : Host.Cell → Bool) (at_ : Nat → Bool) (by_ : ∀ c, p c = at_ c.1)
    (kept : at_ x = true) : Mem.read (m.filter p) x = Mem.read m x := by
  induction m generalizing lo with
  | nil => rfl
  | cons c m ih =>
    obtain ⟨a, b⟩ := c
    simp only [Mem.wfFrom, Bool.and_eq_true, decide_eq_true_eq] at h
    obtain ⟨-, rest⟩ := h
    rw [List.filter_cons]
    by_cases keep : p (a, b) = true
    · simp only [keep, if_true, Mem.read, ih rest]
    · have other : x ≠ a := by
        rintro rfl
        exact keep ((by_ _).trans kept)
      simp only [keep, Bool.false_eq_true, if_false, Mem.read, other, ih rest]
      split
      next below => exact read_below rest (Nat.lt_succ_of_lt below)
      · rfl

/-- The first bytes of a memory read as there. -/
theorem read_slice_zero {m : List Host.Cell} (h : Memory.wf m = true) {n x : Nat} (within : x < n) : Mem.read (Mem.slice m 0 n 0) x = Mem.read m x := by
  have same : Mem.slice m 0 n 0 = m.filter fun c => decide (0 ≤ c.1 ∧ c.1 < 0 + n) := by
    simp only [Mem.slice, Nat.sub_zero, Nat.add_zero, List.map_id']
  rw [same]
  exact read_filter h _ (fun a => decide (0 ≤ a ∧ a < 0 + n)) (fun _ => rfl) (by simpa using within)

/-- A byte written reads as written. -/
theorem read_writeN_at (bs : List Byte) {m : List Host.Cell} (h : Memory.wf m = true) (a i : Nat) (within : i < bs.length) :
    some (Mem.read (Mem.writeN m a bs) (a + i)) = bs[i]? := by
  induction bs generalizing m a i with
  | nil => exact absurd within (Nat.not_lt_zero i)
  | cons b bs ih =>
    have wf := write_wf (x := a) (v := b) h (Nat.zero_le _)
    cases i with
    | zero =>
      have before : Mem.read (Mem.writeN (Mem.write m a b) (a + 1) bs) a = Mem.read (Mem.write m a b) a := read_writeN bs wf a (.inl (Nat.lt_succ_self a))
      simp only [Mem.writeN, Nat.add_zero, before, read_write h, if_true, List.getElem?_cons_zero]
    | succ i =>
      have next_ := ih wf (a + 1) i (Nat.lt_of_succ_lt_succ within)
      rw [Mem.writeN, List.getElem?_cons_succ, ← next_, Nat.succ_add_eq_add_succ]

/-! ### Entering a granule -/

/-- A context that has entered granules. -/
def Entered (x y : Ctx) : Prop :=
  y = { x with ownSlots := y.ownSlots, fed := y.fed, mirrorWait := y.mirrorWait, wtGrans := y.wtGrans, atom := y.atom }

theorem Entered.trans {x y z : Ctx} (a : Entered x y) (b : Entered y z) : Entered x z := by
  unfold Entered at *
  rw [b, a]

theorem addValid_mapped (s : State) (psa k : Nat) : mapped (addValid s psa k) = mapped s := by
  unfold addValid
  split <;> rfl

/-- The map entry of a granule in the gather buffer is set, and no context is touched. -/
theorem setEntry_gather (s : State) (ns : Namespace) (gran slot : Nat) :
    mapped (setEntry s ns gran (.gather slot)) = (s.ctxs, Assoc.set s.xlat.map (mapIdx ns gran) (.gather slot)) := by
  have kept := unname_mapped s ns gran (mapGet s (mapIdx ns gran))
  rw [mapped, Prod.mk.injEq] at kept
  simp only [setEntry, mapped, Xlat.setMap, State.updXlat_xlat, State.updXlat_ctxs, kept]

/-- The first slot a granule takes. -/
def slotFor (s : State) (ns : Namespace) : Nat := (freeGather s ns.gslots).getD gatherSlots

/-- The state in which a granule has entered and its map entry is set, before it is sent to the twin. -/
def entered (s : State) (ns : Namespace) (owner gran : Nat) (tag : BitVec 64) (armed : Bool) (bytes : List Host.Cell) : State :=
  replNote (setEntry (supersede (enterGather s ns owner gran tag false armed bytes).2 (mapIdx ns gran)) ns gran (.gather (slotFor s ns)))
    ns.nsid s.xlat.seq gran 1 (some (slotFor s ns)) 0

theorem entered_mapped (s : State) (ns : Namespace) (owner gran : Nat) (tag : BitVec 64) (armed : Bool) (bytes : List Host.Cell) :
    mapped (entered s ns owner gran tag armed bytes) = (s.ctxs, Assoc.set s.xlat.map (mapIdx ns gran) (.gather (slotFor s ns))) :=
  setEntry_gather (supersede (enterGather s ns owner gran tag false armed bytes).2 (mapIdx ns gran)) ns gran (slotFor s ns)

/-- The same state once the granule has been sent to a twin that mirrors (R379). -/
def enteredSent (s : State) (x : Ctx) (ns : Namespace) (gran : Nat) (tag : BitVec 64) (bytes : List Host.Cell) : State :=
  if sends s (mapIdx ns gran) && !x.writeThrough then
    sendPunty (noteSent (entered s ns x.c gran tag (!x.writeThrough) bytes) (slotFor s ns) ns.gslots) 0x02 (slotFor s ns) 0
      (granDesc ns false (slotFor s ns) gran s.xlat.seq tag) bytes
  else entered s ns x.c gran tag (!x.writeThrough) bytes

theorem noteSent_mapped (s : State) (slot n : Nat) : mapped (noteSent s slot n) = mapped s := rfl

theorem enteredSent_mapped (s : State) (x : Ctx) (ns : Namespace) (gran : Nat) (tag : BitVec 64) (bytes : List Host.Cell) :
    mapped (enteredSent s x ns gran tag bytes) = (s.ctxs, Assoc.set s.xlat.map (mapIdx ns gran) (.gather (slotFor s ns))) := by
  unfold enteredSent
  exact ite_agree mapped ((sendPunty_mapped ..).trans ((noteSent_mapped ..).trans (entered_mapped ..))) (entered_mapped ..)

/-- What a context notes of a granule it entered. -/
def noteEntered (s : State) (x : Ctx) (ns : Namespace) (gran : Nat) (y : Ctx) : Ctx :=
  { y with
    ownSlots := y.ownSlots ++ [slotFor s ns], fed := y.fed.filter fun r => r.gran != gran
    mirrorWait := if mirroring s && !x.writeThrough then y.mirrorWait ++ [s.twin.txPseq] else y.mirrorWait
    wtGrans := if !x.writeThrough then y.wtGrans else y.wtGrans ++ [gran] }

theorem writeGranule_eq (s : State) (x : Ctx) (ns : Namespace) (gran : Nat) (tag : BitVec 64) (bytes : List Host.Cell) :
    writeGranule s x ns gran tag bytes = modCtx (enteredSent s x ns gran tag bytes) x.c (noteEntered s x ns gran) := by
  unfold writeGranule enteredSent entered noteEntered
  rfl

/-- A granule entered outside ATOM: its map entry names its slot, and its context notes it. -/
theorem writeGranule_enters {s : State} {c : Nat} {x : Ctx} (found : getCtx s c = some x) (ns : Namespace) (gran : Nat) (tag : BitVec 64)
    (bytes : List Host.Cell) :
    (writeGranule s x ns gran tag bytes).xlat.map = Assoc.set s.xlat.map (mapIdx ns gran) (.gather (slotFor s ns)) ∧
    ∃ y, getCtx (writeGranule s x ns gran tag bytes) c = some y ∧ Entered x y := by
  have number : x.c = c := getCtx_number found
  have same := enteredSent_mapped s x ns gran tag bytes
  rw [writeGranule_eq, number]
  obtain ⟨u, hu⟩ : ∃ u, u = enteredSent s x ns gran tag bytes := ⟨_, rfl⟩
  rw [← hu, mapped, Prod.mk.injEq] at same
  rw [← hu]
  have found' : getCtx u c = some x := by
    rw [getCtx, same.1]
    exact found
  exact ⟨same.2, _, getCtx_modCtx_found found' (noteEntered s x ns gran) fun _ => rfl, rfl⟩

/-- A granule held for its group: the map stays, and its context notes it. -/
theorem holdGranule_holds {s : State} {c : Nat} {x : Ctx} (found : getCtx s c = some x) (ns : Namespace) (gran : Nat) (tag : BitVec 64)
    (bytes : List Host.Cell) :
    (holdGranule s x ns gran tag bytes).xlat.map = s.xlat.map ∧ ∃ y, getCtx (holdGranule s x ns gran tag bytes) c = some y ∧ Entered x y := by
  have number : x.c = c := getCtx_number found
  simp only [holdGranule]
  obtain ⟨u, hu⟩ : ∃ u, u = (if (mirroring s && !x.writeThrough) = true then
      sendPunty (noteSent (enterGather s ns x.c gran tag true (!x.writeThrough) bytes).2 (enterGather s ns x.c gran tag true (!x.writeThrough) bytes).1 ns.gslots) 0x02
        (enterGather s ns x.c gran tag true (!x.writeThrough) bytes).1 (groupKey x)
        (granDesc ns true (enterGather s ns x.c gran tag true (!x.writeThrough) bytes).1 gran 0 tag) bytes
    else (enterGather s ns x.c gran tag true (!x.writeThrough) bytes).2) := ⟨_, rfl⟩
  rw [← hu]
  have same : mapped u = mapped s := by
    rw [hu]
    exact ite_agree mapped rfl rfl
  rw [mapped, mapped, Prod.mk.injEq] at same
  have found' : getCtx u c = some x := by
    rw [getCtx, same.1]
    exact found
  rw [number]
  exact ⟨same.2, _, getCtx_changed found', rfl⟩

/-- The granules of a write outside ATOM: each entry of the range names a gather slot, every other is as it was. -/
theorem putGranules_enter (ns : Namespace) (first : Nat) (tag : BitVec 64) (buf : List Host.Cell) (n : Nat) {s : State} {c : Nat} {x : Ctx}
    (found : getCtx s c = some x) :
    let t := putGranules s c ns false first n tag buf 0
    (∃ y, getCtx t c = some y ∧ Entered x y) ∧ (∀ k < n, ∃ slot, mapGet t (mapIdx ns (first + k)) = .gather slot) ∧
      (∀ j, (∀ k < n, j ≠ mapIdx ns (first + k)) → mapGet t j = mapGet s j) := by
  induction n with
  | zero => exact ⟨⟨x, found, rfl⟩, fun k below => absurd below (Nat.not_lt_zero k), fun j _ => rfl⟩
  | succ n ih =>
    intro t
    obtain ⟨⟨y, own, entered⟩, named, kept⟩ := ih
    let u := putGranules s c ns false first n tag buf 0
    have hu : u = putGranules s c ns false first n tag buf 0 := rfl
    replace own : getCtx u c = some y := own
    have run : t = writeGranule u y ns (first + n) tag (Mem.slice buf (0 + n * ns.granule) ns.granule 0) := by
      show putGranules s c ns false first (n + 1) tag buf 0 = _
      rw [putGranules, List.range_succ, List.foldl_append, List.foldl_cons, List.foldl_nil]
      show putGranule u c ns false (first + n) tag _ = _
      simp only [putGranule, own, Bool.false_eq_true, if_false]
    obtain ⟨map, z, own', entered'⟩ := writeGranule_enters own ns (first + n) tag (Mem.slice buf (0 + n * ns.granule) ns.granule 0)
    rw [← run] at map own'
    have entry : ∀ j, mapGet t j = if j = mapIdx ns (first + n) then .gather (slotFor u ns) else mapGet u j := fun j => by
      rw [mapGet, map, assoc_get_set]
      split <;> rfl
    refine ⟨⟨z, own', entered.trans entered'⟩, fun k below => ?_, fun j others => ?_⟩
    · rw [entry]
      split
      · exact ⟨_, rfl⟩
      next other =>
        exact named k (Nat.lt_of_le_of_ne (Nat.lt_succ_iff.mp below) fun last => other (by rw [last]))
    · rw [entry, if_neg (others n (Nat.lt_succ_self n))]
      exact kept j fun k below => others k (Nat.lt_succ_of_lt below)

/-- The granules of a write with ATOM leave the map. -/
theorem putGranules_hold (ns : Namespace) (first : Nat) (tag : BitVec 64) (buf : List Host.Cell) (n : Nat) {s : State} {c : Nat} {x : Ctx}
    (found : getCtx s c = some x) :
    let t := putGranules s c ns true first n tag buf 0
    (∃ y, getCtx t c = some y ∧ Entered x y) ∧ t.xlat.map = s.xlat.map := by
  induction n with
  | zero => exact ⟨⟨x, found, rfl⟩, rfl⟩
  | succ n ih =>
    intro t
    obtain ⟨⟨y, own, entered⟩, kept⟩ := ih
    let u := putGranules s c ns true first n tag buf 0
    have hu : u = putGranules s c ns true first n tag buf 0 := rfl
    replace own : getCtx u c = some y := own
    have run : t = holdGranule u y ns (first + n) tag (Mem.slice buf (0 + n * ns.granule) ns.granule 0) := by
      show putGranules s c ns true first (n + 1) tag buf 0 = _
      rw [putGranules, List.range_succ, List.foldl_append, List.foldl_cons, List.foldl_nil]
      show putGranule u c ns true (first + n) tag _ = _
      simp only [putGranule, own, if_true]
    obtain ⟨map, z, own', entered'⟩ := holdGranule_holds own ns (first + n) tag (Mem.slice buf (0 + n * ns.granule) ns.granule 0)
    rw [← run] at map own'
    exact ⟨⟨z, own', entered.trans entered'⟩, map.trans kept⟩

/-! ### The gather buffer after a write -/

/-- What of the gather buffer a read of a slot sees. -/
def gatherView (s : State) : List (Nat × List Host.Cell × BitVec 64) := s.xlat.gather.map fun g => (g.slot, g.bytes, g.tag)

/-- Marks on slots are not seen. -/
theorem updIf_view (p : GatherSlot → Bool) (f : GatherSlot → GatherSlot) (h : ∀ g, ((f g).slot, (f g).bytes, (f g).tag) = (g.slot, g.bytes, g.tag))
    (l : List GatherSlot) : (updIf p f l).map (fun g => (g.slot, g.bytes, g.tag)) = l.map fun g => (g.slot, g.bytes, g.tag) := by
  rw [updIf, List.map_map]
  refine List.map_congr_left fun g _ => ?_
  simp only [Function.comp]
  split
  · exact h g
  · rfl

theorem unname_view (s : State) (ns : Namespace) (gran : Nat) (l : Loc) : gatherView (unname s ns gran l) = gatherView s := by
  unfold unname
  split
  next psa =>
    have same : gatherView (subValid s psa ns.gslots) = gatherView s := by
      unfold subValid
      split <;> rfl
    exact ite_agree gatherView same rfl
  · exact updIf_view _ (fun y => { y with mapped := false }) (fun _ => rfl) _
  · rfl

theorem setEntry_gather_view (s : State) (ns : Namespace) (gran slot : Nat) : gatherView (setEntry s ns gran (.gather slot)) = gatherView s :=
  (updIf_view _ (fun y => { y with mapped := true }) (fun _ => rfl) _).trans (unname_view ..)

/-- The slot of a granule of one slot, as it enters. -/
theorem writeGranule_view {s : State} {x : Ctx} {ns : Namespace} (small : ns.g16k = false) (gran : Nat) (tag : BitVec 64) (bytes : List Host.Cell) :
    gatherView (writeGranule s x ns gran tag bytes) = gatherView s ++ [(slotFor s ns, Mem.slice bytes 0 4096 0, tag)] := by
  have one : ns.gslots = 1 := by simp [Namespace.gslots, small]
  have new : gatherView (enterGather s ns x.c gran tag false (!x.writeThrough) bytes).2 = gatherView s ++ [(slotFor s ns, Mem.slice bytes 0 4096 0, tag)] := by
    simp only [enterGather, gatherView, slotFor, one, List.range_one, List.map_cons, List.map_nil, Bool.false_eq_true, if_false, State.updXlat_xlat,
      List.map_append]
    rfl
  have set_ : gatherView (entered s ns x.c gran tag (!x.writeThrough) bytes) = gatherView s ++ [(slotFor s ns, Mem.slice bytes 0 4096 0, tag)] :=
    (setEntry_gather_view _ ns gran (slotFor s ns)).trans new
  have sent : ∀ u slot n, gatherView (noteSent u slot n) = gatherView u := fun u slot n =>
    updIf_view _ (fun g => { g with mirrored := true }) (fun _ => rfl) _
  have paced : ∀ u a b d (l : List (BitVec 64)) m, gatherView (sendPunty u a b d l m) = gatherView u := fun u a b d l m => rfl
  rw [writeGranule_eq]
  show gatherView (enteredSent s x ns gran tag bytes) = _
  unfold enteredSent
  exact ite_agree gatherView ((paced ..).trans ((sent ..).trans set_)) set_

/-- The slot found by its number is found in the view. -/
theorem find_view (s : State) (slot : Nat) :
    (s.xlat.gather.find? fun g => g.slot == slot).map (fun g => (g.slot, g.bytes, g.tag)) = (gatherView s).find? fun v => v.1 == slot := by
  rw [gatherView, List.find?_map]
  rfl

/-- What a read of the one slot of a granule sees, where the view has it. -/
theorem read_gather {t : State} {slot : Nat} {v : List Host.Cell × BitVec 64} (seen : (gatherView t).find? (fun v => v.1 == slot) = some (slot, v)) :
    locBytes t 1 (.gather slot) = Mem.slice v.1 0 4096 0 ∧ locTag t (.gather slot) = v.2 := by
  rw [← find_view, Option.map_eq_some_iff] at seen
  obtain ⟨g, found, same⟩ := seen
  cases same
  constructor
  · simp only [locBytes, List.range_one, List.flatMap_cons, List.flatMap_nil, Nat.add_zero, found, List.append_nil, Nat.mul_zero]
  · simp only [locTag, found, Option.map_some, Option.getD_some]

/-! ### WRITE -/

/-- A WRITE whose bytes have all come and fit (R102). -/
theorem directWrite_puts {s : State} {c : Nat} {x : Ctx} {ns : Namespace} {b : List Byte} (found : getCtx s c = some x) (named : ctxNs s x = some ns)
    (reach : hostReach s x = true) (begun : x.snap = 1) (some_ : 0 < x.entry.length.toNat) (all : b.length = x.entry.length.toNat * ns.granule)
    (fits : gatherTakes s x x.entry.length.toNat = true) :
    directWrite b s x = residentPost (endTransfer (putGranules (commitNow s c) c ns x.entry.atom x.entry.lba.toNat x.entry.length.toNat
      (x.entry.tag.setWidth 64) (Mem.ofList b) 0) c false (x.entry.length.toNat * ns.granule)) c St.ok 0 0 := by
  have number : x.c = c := getCtx_number found
  have unit : 0 < ns.granule := by
    unfold Namespace.granule
    split <;> decide
  have count : b.length / ns.granule = x.entry.length.toNat := by rw [all, Nat.mul_div_cancel _ unit]
  have whole : b.length % ns.granule = 0 := by rw [all, Nat.mul_mod_left]
  have go : ¬ ((!hostReach s x) = true ∨ x.entry.length.toNat = 0 ∨ b.length % ns.granule ≠ 0 ∨ x.entry.length.toNat < x.snap - 1 + x.entry.length.toNat ∨
      (!gatherTakes s x x.entry.length.toNat) = true) := by
    simp only [reach, fits, whole, begun]
    simp
    omega
  simp only [directWrite, named, count, if_neg go]
  simp only [begun, number, Nat.sub_self, Nat.add_zero, Nat.zero_add, Nat.lt_irrefl, if_false, Nat.one_ne_zero]

/-- Settles O18: the write by the granules it enters, its slot read back; the transfer before and the FLUSH by their branches. -/
theorem directWriteAndFlush : Obligations.DirectWriteAndFlush := by
  unfold Obligations.DirectWriteAndFlush
  refine ⟨fun s c x ns b h named reach begun some_ all fits atom => ?_, fun s c x ns b h named reach begun some_ all fits atom => ?_,
    fun s c x ns g h named fresh src => ?_, fun s c x ns b slot h named small reach begun one all fits atom free => ?_, fun s c x h => ?_⟩
  · have run : exec (.write c b) s = .next (directWrite b s x) := congrArg Host.Outcome.next (resident_runs h (directWrite b))
    rw [directWrite_puts h.ctx named reach begun some_ all fits, atom] at run
    obtain ⟨⟨y, own, entered⟩, names, kept⟩ := putGranules_enter ns x.entry.lba.toNat (x.entry.tag.setWidth 64) (Mem.ofList b) x.entry.length.toNat
      (getCtx_commitNow h.ctx)
    obtain ⟨u, hu⟩ : ∃ u, u = putGranules (commitNow s c) c ns false x.entry.lba.toNat x.entry.length.toNat (x.entry.tag.setWidth 64) (Mem.ofList b) 0 := ⟨_, rfl⟩
    rw [← hu] at run own names kept
    have own' : getCtx (endTransfer u c false (x.entry.length.toNat * ns.granule)) c = some y := own
    refine ⟨_, run, ⟨_, getCtx_residentPost own' _ _ _, rfl, rfl, ?_⟩, names, kept⟩
    rw [entered]
  · have run : exec (.write c b) s = .next (directWrite b s x) := congrArg Host.Outcome.next (resident_runs h (directWrite b))
    rw [directWrite_puts h.ctx named reach begun some_ all fits, atom] at run
    obtain ⟨⟨y, own, -⟩, map⟩ := putGranules_hold ns x.entry.lba.toNat (x.entry.tag.setWidth 64) (Mem.ofList b) x.entry.length.toNat
      (getCtx_commitNow h.ctx)
    obtain ⟨u, hu⟩ : ∃ u, u = putGranules (commitNow s c) c ns true x.entry.lba.toNat x.entry.length.toNat (x.entry.tag.setWidth 64) (Mem.ofList b) 0 := ⟨_, rfl⟩
    rw [← hu] at run own map
    have own' : getCtx (endTransfer u c false (x.entry.length.toNat * ns.granule)) c = some y := own
    exact ⟨_, run, ⟨_, getCtx_residentPost own' _ _ _, rfl, rfl⟩, map⟩
  · have number : x.c = c := getCtx_number h.ctx
    have run : exec (.write c []) s = .next (directWrite [] s x) := congrArg Host.Outcome.next (resident_runs h (directWrite []))
    have begin_ : directWrite [] s x = (chained (modCtx s c fun y => { y with snap := 1 }) x false 0 (x.entry.length.toNat * ns.granule)).updOut
        (· ++ dataReads s x 0 (x.entry.length.toNat * ns.granule)) := by
      simp only [directWrite, named, fresh, List.length_nil, Nat.zero_div, true_or, or_true, if_true, number]
      exact beginTransfer_read src ..
    rw [begin_] at run
    refine ⟨_, run, rfl, getCtx_changed (f := fun y => { y with snap := 1 }) h.ctx, rfl, ?_⟩
    rw [beginTransfer_read src]
    rfl
  · have length : x.entry.length.toNat = 1 := by rw [one]; rfl
    have granule : ns.granule = 4096 := by simp [Namespace.granule, small]
    have slots : ns.gslots = 1 := by simp [Namespace.gslots, small]
    have run : exec (.write c b) s = .next (directWrite b s x) := congrArg Host.Outcome.next (resident_runs h (directWrite b))
    rw [directWrite_puts h.ctx named reach begun (by omega) (by rw [length, granule, all]) (by rw [length]; exact fits), atom, length] at run
    have own := getCtx_commitNow h.ctx
    obtain ⟨y, hy⟩ : ∃ y : Ctx, y = { x with commitBeat := some (x.commitBeat.getD s.beat) } := ⟨_, rfl⟩
    rw [← hy] at own
    have single : putGranules (commitNow s c) c ns false x.entry.lba.toNat 1 (x.entry.tag.setWidth 64) (Mem.ofList b) 0 =
        writeGranule (commitNow s c) y ns x.entry.lba.toNat (x.entry.tag.setWidth 64) (Mem.slice (Mem.ofList b) 0 4096 0) := by
      simp only [putGranules, List.range_one, List.foldl_cons, List.foldl_nil, putGranule, own, Bool.false_eq_true, if_false, Nat.add_zero, Nat.zero_mul, granule]
    have slotFor_ : slotFor (commitNow s c) ns = slot := by
      have same : freeGather (commitNow s c) 1 = freeGather s 1 := rfl
      rw [slotFor, slots, same, free]
      rfl
    obtain ⟨map, -⟩ := writeGranule_enters own ns x.entry.lba.toNat (x.entry.tag.setWidth 64) (Mem.slice (Mem.ofList b) 0 4096 0)
    have view := writeGranule_view (s := commitNow s c) (x := y) small x.entry.lba.toNat (x.entry.tag.setWidth 64) (Mem.slice (Mem.ofList b) 0 4096 0)
    rw [← single, slotFor_] at map view
    obtain ⟨u, hu⟩ : ∃ u, u = putGranules (commitNow s c) c ns false x.entry.lba.toNat 1 (x.entry.tag.setWidth 64) (Mem.ofList b) 0 := ⟨_, rfl⟩
    rw [← hu] at run map view
    have unused : (gatherView s).find? (fun v => v.1 == slot) = none := by
      have clear : slotUsed s slot = false := by
        have least := (lowest_eq_some free).2.2
        simpa using least
      rw [← find_view, Option.map_eq_none_iff, List.find?_eq_none]
      intro g mem is_
      exact absurd (List.any_eq_true.mpr ⟨g, mem, is_⟩) (by rw [show s.xlat.gather.any (fun g => g.slot == slot) = slotUsed s slot from rfl, clear]; decide)
    have seen : (gatherView u).find? (fun v => v.1 == slot) = some (slot, Mem.slice (Mem.slice (Mem.ofList b) 0 4096 0) 0 4096 0, x.entry.tag.setWidth 64) := by
      rw [view, List.find?_append, show (gatherView (commitNow s c)).find? (fun v => v.1 == slot) = none from unused]
      simp
    obtain ⟨bytes, tag⟩ := read_gather seen
    refine ⟨_, run, ?_, fun a within => ?_, tag⟩
    · show mapGet u _ = _
      rw [mapGet, map, assoc_get_set, if_pos rfl]
      rfl
    · show some (Mem.read (locBytes u 1 (.gather slot)) a) = b[a]?
      have wf := ofList_wf b
      have wf' : Memory.wf (Mem.slice (Mem.ofList b) 0 4096 0) = true := slice_wf wf 0 4096 0
      rw [bytes, read_slice_zero (slice_wf wf' 0 4096 0) within, read_slice_zero wf' within, read_slice_zero wf within]
      have read := read_writeN_at b (m := []) rfl 0 a (by omega)
      rw [Nat.zero_add] at read
      exact read
  · refine posts_of_changed (f := id) h.ctx (fun _ => rfl) (congrArg Host.Outcome.next ((resident_runs h _).trans ?_)) rfl ?_
    · rw [getCtx_number h.ctx]
    · simp [modCtx, updIf]

end Sys2Proof.Proofs
end

section
/-! PROOF. ProgramsStartAndSettingOps: a program's context becomes ready (R121), and the resident ops on settings (R27, R28) and log pages
(R367), a branch at a time. -/

namespace Sys2Proof.Proofs

open Sys2Proof Sys2Proof.Machine Sys2Proof.Safety Sys2Proof.Laws

/-- A command that changes one context. -/
theorem lands_of_changed {i : Instr} {s : State} {c : Nat} {x : Ctx} {f : Ctx → Ctx} (found : getCtx s c = some x) (run : exec i s = .next (modCtx s c f))
    (keeps : ∀ y, (f y).c = y.c := by exact fun _ => rfl) : Lands i s c (f x) :=
  ⟨_, run, getCtx_modCtx_found found f keeps, fun _ other => getCtx_modCtx_other s other f keeps, rfl⟩

/-- A command whose POST is to come, after a change that leaves the contexts. -/
theorem posts_of_kept {i : Instr} {s u : State} {c : Nat} {x : Ctx} {st : BitVec 16} {det : BitVec 8} {res : BitVec 64} {keep : State → State}
    (found : getCtx s c = some x) (run : exec i s = .next (residentPost u c st det res))
    (frame : residentPost u c st det res = keep (residentPost u c st det res)) (ctxs : u.ctxs = s.ctxs := by rfl) :
    Posts i s c st det res keep fun _ => True := by
  have same : ∀ d, getCtx u d = getCtx s d := fun d => by rw [getCtx, ctxs]; rfl
  exact ⟨_, run, ⟨_, getCtx_residentPost ((same c).trans found) _ _ _, rfl, rfl, rfl, rfl⟩,
    fun d other => (getCtx_residentPost_other other ..).trans (same d), frame, trivial⟩

/-- A resident parison runs its branch. -/
theorem exec_resident {i : Instr} {s t : State} {c op typ : Nat} {x : Ctx} {f : State → Ctx → State} (h : Resident s c op typ x)
    (row : exec i s = .next (resident s c typ op f)) (branch : f s x = t) : exec i s = .next t :=
  row.trans (congrArg _ ((resident_runs h f).trans branch))

/-- A program that nothing stands in the way of becomes ready (R121). -/
theorem startProgram_lands {i : Instr} {s : State} {c k : Nat} {x : Ctx} (row : exec i s = .next (startProgram s c k)) (found : getCtx s c = some x)
    (waits : x.wait = .resident) (typ : x.entry.typ.toNat = k) (going : x.stopping = false) (free : effBlocked s x = false) :
    Lands i s c { x with wait := .ready } := by
  refine lands_of_changed (f := fun y => { y with wait := .ready }) found (row.trans (congrArg _ ?_))
  simp only [startProgram, found, waits, typ, going, free, beq_self_eq_true, Bool.not_false, Bool.and_true, if_true]

/-- Settles O19: each clause is one branch of its op. -/
theorem programsStartAndSettingOps : Obligations.ProgramsStartAndSettingOps := by
  unfold Obligations.ProgramsStartAndSettingOps
  refine ⟨fun s c x i k row found waits typ going free => ?_, fun s c x h passes => ?_, fun s c x st d h refused => ?_,
    fun s c x st d h fresh refused => ?_, fun s c x h fresh passes nv => ?_, fun s c x h fresh passes nv own => ?_,
    fun s c x h fresh passes nv own => ?_, fun s c x h begun own written => ?_, fun s c x pg h page within aligned begun reach => ?_,
    fun s c x pg h page within aligned fresh => ?_, fun s c x h bad => ?_⟩
  · rcases row with ⟨rfl, rfl⟩ | ⟨rfl, rfl⟩
    · exact startProgram_lands rfl found waits typ going free
    · exact startProgram_lands rfl found waits typ going free
  · refine posts_of_kept h.ctx (exec_resident h rfl ?_) rfl
    simp only [passes]
  · refine posts_of_kept h.ctx (exec_resident h rfl ?_) rfl
    simp only [refused]
  · refine posts_of_kept h.ctx (exec_resident h rfl ?_) rfl
    simp only [fresh, refused, if_true]
  · refine ⟨settingAppend (modCtx s c fun y => { y with snap := 1 }) (x.entry.a0.toNat % 2 ^ 32) x.entry.a1, exec_resident h rfl ?_, rfl,
      getCtx_changed (f := fun y => { y with snap := 1 }) h.ctx, _, rfl, rfl, rfl, rfl⟩
    simp only [fresh, passes, nv, Bool.not_true, Bool.and_false, Bool.false_eq_true, if_false, if_true]
  · refine exec_resident h rfl ?_
    simp only [fresh, passes, nv, own, Bool.false_and, Bool.false_eq_true, if_false, if_true]
  · refine lands_of_changed (f := fun y => { y with snap := 1 }) h.ctx (exec_resident h rfl ?_)
    simp only [fresh, passes, nv, own, Bool.not_false, Bool.and_self, if_true]
  · refine exec_resident h rfl ?_
    simp only [begun, own, written, Bool.or_self, Bool.false_eq_true, if_false]
  · have branch : ¬ (pg.length ≤ x.entry.a1.toNat ∨ x.entry.a1.toNat % 4 ≠ 0) := by omega
    obtain ⟨u, hu⟩ : ∃ u, u = hostOut s x 0 (padTo (dBytes x) (pg.drop x.entry.a1.toNat)) := ⟨_, rfl⟩
    have run : exec (.logRead c) s = .next (residentPost (endTransfer u c true (dBytes x)) c St.ok 0 (BitVec.ofNat 64 pg.length)) := by
      refine exec_resident h rfl ?_
      simp only [page, if_neg branch, begun, reach, Bool.not_true, Bool.false_eq_true, if_false, hu]
    have sent := hostOut_sent s x 0 (padTo (dBytes x) (pg.drop x.entry.a1.toNat))
    rw [getCtx_number h.ctx, ← hu] at sent
    obtain ⟨xlat, -, -, ctx⟩ := sent
    obtain ⟨d, own⟩ := ctx x h.ctx
    have own' : getCtx (endTransfer u c true (dBytes x)) c = some { x with data := d } := own
    exact ⟨_, run, xlat, _, getCtx_residentPost own' _ _ _, rfl, rfl, rfl⟩
  · have branch : ¬ (pg.length ≤ x.entry.a1.toNat ∨ x.entry.a1.toNat % 4 ≠ 0) := by omega
    refine exec_resident h rfl ?_
    simp only [page, if_neg branch, fresh, if_true]
  · refine posts_of_kept h.ctx (exec_resident h rfl ?_) rfl
    cases page : logPage s (x.entry.a0.toNat % 256) with
    | none => rfl
    | some pg => simp only [if_pos (bad pg page)]

end Sys2Proof.Proofs
end

section
/-! PROOF. RingOperations: the ring pairs that a creation adds and a deletion removes (R84, R85), the end of a ring's reset (R110), ABORT (R105)
and DAY_ENTER (R431). -/

namespace Sys2Proof.Proofs

open Sys2Proof Sys2Proof.Machine Sys2Proof.Safety Sys2Proof.Laws

/-- A command whose POST is to come, after a change that leaves the contexts, and what holds of the state it leaves. -/
theorem posts_of_kept_with {i : Instr} {s u : State} {c : Nat} {x : Ctx} {st : BitVec 16} {det : BitVec 8} {res : BitVec 64} {keep : State → State}
    {Q : State → Prop} (found : getCtx s c = some x) (run : exec i s = .next (residentPost u c st det res))
    (frame : residentPost u c st det res = keep (residentPost u c st det res)) (holds : Q (residentPost u c st det res)) (ctxs : u.ctxs = s.ctxs := by rfl) :
    Posts i s c st det res keep Q := by
  have same : ∀ d, getCtx u d = getCtx s d := fun d => by rw [getCtx, ctxs]; rfl
  exact ⟨_, run, ⟨_, getCtx_residentPost ((same c).trans found) _ _ _, rfl, rfl, rfl, rfl⟩,
    fun d other => (getCtx_residentPost_other other ..).trans (same d), frame, holds⟩

/-! ### Rings come and go -/

/-- A pair that is added leaves every setting but its RING_SCHED and RING_COAL (R115). -/
theorem addRing_nvVal (s : State) (r : Ring) {id : Nat} (sched : id ≠ 0x04000585 + r.g) (coal : id ≠ 0x04000985 + r.g) :
    nvVal (addRing s r) id = nvVal s id := by
  have nv : (addRing s r).nv = Assoc.del (Assoc.del s.nv (0x04000585 + r.g)) (0x04000985 + r.g) := rfl
  rw [nvVal, nv, assoc_get_del, if_neg coal, assoc_get_del, if_neg sched]
  rfl

/-- A freed pair is in the list no more. -/
theorem mem_freeRing (s : State) (g : Nat) (q : Ring) : q ∈ (freeRing s g).rings ↔ q ∈ s.rings ∧ q.g ≠ g := by
  simp [freeRing]

theorem getRing_freeRing (s : State) (g : Nat) : getRing (freeRing s g) g = none := by
  rw [getRing, List.find?_eq_none]
  intro q mem
  have kept := ((mem_freeRing s g q).mp mem).2
  simpa using kept

/-! ### The end of a ring's reset -/

/-- A pair as its reset leaves it (R110). -/
def restarted (r : Ring) : Ring :=
  { r with st := .active, sqHead := 0, sqTail := 0, sqVisible := 0, cqTail := 0, cqHead := 0, cqCredit := 0, phase := true, rst := none, held := none }

/-- With every terminal command counted there is none to withhold. -/
theorem withholdFixed_none {s : State} {g : Nat} (all : ∀ z ∈ s.ctxs, z.ringOf = some g → z.wait = .fixed → z.withheld = true) : withholdFixed s g = s := by
  have empty : (s.ctxs.filter fun x => x.ringOf == some g && x.wait == .fixed && !x.withheld) = [] := by
    rw [List.filter_eq_nil_iff]
    intro z mem sel
    simp only [Bool.and_eq_true, beq_iff_eq, Bool.not_eq_true'] at sel
    obtain ⟨⟨ring, fixed⟩, open_⟩ := sel
    exact absurd (all z mem ring fixed) (by simp [open_])
  rw [withholdFixed, empty]
  rfl

/-- The state once a pair's reset has ended and been counted (R110). -/
def ringRestarted (s : State) (g : Nat) : State :=
  (modRing s g restarted).updPlan fun p => { p with ringResets := satAdd p.ringResets 1 }

theorem getRing_ringRestarted {s : State} {g : Nat} {r : Ring} (found : getRing s g = some r) : getRing (ringRestarted s g) g = some (restarted r) :=
  getRing_modRing_found found restarted fun _ => rfl

/-- Whether a pair is an admin pair that a disable released (R83). -/
def released (s : State) (r : Ring) : Bool := r.loc == 0 && ((getFn s r.fn).map HostFn.aringRelease).getD false && fnFunc r.fn == 0

/-- A pair whose reset has ended is gone where it was released, and ACTIVE otherwise. -/
def ringEnded (s : State) (g : Nat) (r : Ring) : State :=
  if released s r then freeRing (modFn (ringRestarted s g) r.fn fun f => { f with aringRelease := false }) g else ringRestarted s g

theorem ringEnded_of_loc {s : State} {g : Nat} {r : Ring} (loc : r.loc ≠ 0) : ringEnded s g r = ringRestarted s g := by
  have kept : released s r = false := by simp [released, loc]
  rw [ringEnded, kept]
  rfl

/-- The end of a pair's reset, once no command of it is left to end (R110). -/
theorem ringResetComplete_runs {s : State} {g : Nat} {r : Ring} {k : RingReset} (found : getRing s g = some r) (rst : r.rst = some k)
    (ended : ringBusy s g = false) (begun : resetWaits s k = false) {u : State} {k' : RingReset} (counted : withholdFixed s g = u)
    (counts : (getRing u g).bind Ring.rst = some k') :
    exec (.ringResetComplete g) s = .next (match k'.byCtx.bind (getCtx u) with
      | some x => if x.entry.typ == 4 && x.entry.op == 0x82 then
          residentPost (ringEnded u g r) x.c St.ok 0 (resetWord k'.withheld k'.aborted k'.ok) else ringEnded u g r
      | none => ringEnded u g r) := by
  refine congrArg Host.Outcome.next ?_
  simp only [found, rst, ended, begun, Bool.or_self, Bool.false_eq_true, if_false, counted, counts, Option.getD_some]
  rfl

/-- The end of the reset of a pair for which a RING_RESET waits (R110). -/
theorem ringResetComplete_answers {s u : State} {g c : Nat} {r : Ring} {k k' : RingReset} {x : Ctx} (found : getRing s g = some r) (rst : r.rst = some k)
    (ended : ringBusy s g = false) (begun : resetWaits s k = false) (counted : withholdFixed s g = u) (counts : (getRing u g).bind Ring.rst = some k')
    (loc : r.loc ≠ 0) (by_ : k'.byCtx = some c) (ctx : getCtx u c = some x) (typ : x.entry.typ = 4) (op : x.entry.op = 0x82) :
    exec (.ringResetComplete g) s = .next (residentPost (ringRestarted u g) c St.ok 0 (resetWord k'.withheld k'.aborted k'.ok)) := by
  rw [ringResetComplete_runs found rst ended begun counted counts, by_, Option.bind_some, ctx, ringEnded_of_loc loc]
  simp only [typ, op, beq_self_eq_true, Bool.and_self, if_true, getCtx_number ctx]

/-! ### ABORT -/

/-- The target of an ABORT is a context that was admitted before it and is not terminal. -/
theorem abortTarget_some {s : State} {x y : Ctx} (h : abortTarget s x = some y) : y ∈ s.ctxs ∧ y.adm < x.adm ∧ y.wait ≠ .fixed := by
  unfold abortTarget at h
  split at h
  · cases h
  next r _ =>
    let l := s.ctxs.filter fun y => y.ringOf == some r.g && y.entry.cid.toNat == selCid x.entry && decide (y.adm < x.adm) && y.wait != .fixed
    have picks : ∀ (l : List Ctx) (m : Option Ctx), l.foldl (fun m y => match m with
        | none => some y
        | some z => if y.adm < z.adm then some y else some z) m = some y → y ∈ l ∨ m = some y := by
      intro l
      induction l with
      | nil => exact fun m e => .inr e
      | cons a l ih =>
        intro m e
        rcases ih _ e with mem | last
        · exact .inl (List.mem_cons_of_mem a mem)
        · cases m with
          | none => exact .inl (Option.some.inj last ▸ List.mem_cons_self)
          | some z =>
            simp only at last
            split at last
            · exact .inl (Option.some.inj last ▸ List.mem_cons_self)
            · exact .inr last
    rcases picks l none h with mem | none_
    · obtain ⟨mem, sel⟩ := List.mem_filter.mp mem
      simp only [Bool.and_eq_true, decide_eq_true_eq, bne_iff_ne] at sel
      exact ⟨mem, sel.1.2, sel.2⟩
    · cases none_

/-- The state in which the group of a command is discarded, its context still to change (R101). -/
def groupDropped (s : State) (x : Ctx) : State :=
  let t := s.updXlat fun y => { y with gather := y.gather.filter fun g => !(g.atom && g.owner == x.c) }
  if mirroring s && !x.atom.isEmpty then sendPunty t 0x06 (groupKey x) 0 [] [] else t

theorem discardAtom_eq (s : State) (x : Ctx) : discardAtom s x = modCtx (groupDropped s x) x.c fun y => { y with atom := [] } := rfl

/-- Neither contexts, nor what was sent, nor the planner. -/
theorem groupDropped_keeps (s : State) (x : Ctx) :
    ((groupDropped s x).ctxs, (groupDropped s x).out, (groupDropped s x).plan) = (s.ctxs, s.out, s.plan) := by
  unfold groupDropped
  exact ite_agree (fun t : State => (t.ctxs, t.out, t.plan)) rfl rfl

/-- The state of a command that ends, its bookings gone, its context still to be fixed. -/
def endReleased (s : State) (y : Ctx) : State :=
  releaseBookings (releaseBookings (releaseBookings (discardAtom s y) y.adm) (drainOwner y.adm)) (throughOwner y.adm)

theorem endReleased_ctxs (s : State) (y : Ctx) : (endReleased s y).ctxs = (modCtx s y.c fun z => { z with atom := [] }).ctxs := by
  have kept := congrArg Prod.fst (groupDropped_keeps s y)
  simp only [endReleased, releaseBookings_ctxs, discardAtom_eq, modCtx, State.updCtxs_ctxs]
  rw [show (groupDropped s y).ctxs = s.ctxs from kept]

theorem endReleased_out (s : State) (y : Ctx) : (endReleased s y).out = s.out ∧ (endReleased s y).plan.abortsDone = s.plan.abortsDone := by
  have kept := groupDropped_keeps s y
  rw [Prod.mk.injEq, Prod.mk.injEq] at kept
  obtain ⟨-, out, plan⟩ := kept
  have out' : ∀ u a, (releaseBookings u a).out = u.out := fun _ _ => rfl
  have plan' : ∀ u a, (releaseBookings u a).plan.abortsDone = u.plan.abortsDone := fun _ _ => rfl
  simp only [endReleased, out', plan', discardAtom_eq, modCtx, State.updCtxs_out, State.updCtxs_plan, out, plan, and_self]

/-- A command that ends is fixed with its status; what was sent stays, and every other context. -/
theorem fixEnd_fixes {s : State} {c : Nat} {y : Ctx} (found : getCtx s c = some y) (going : y.wait ≠ .fixed) (st : BitVec 16) (det : BitVec 8) (res : BitVec 64) :
    (∃ z, getCtx (fixEnd s c st det res) c = some z ∧ z.wait = .fixed ∧ z.status = st) ∧ (∀ d, d ≠ c → getCtx (fixEnd s c st det res) d = getCtx s d) ∧
      (fixEnd s c st det res).out = s.out ∧ (fixEnd s c st det res).plan.abortsDone = s.plan.abortsDone := by
  have number : y.c = c := getCtx_number found
  have going' : (y.wait == .fixed) = false := by simpa using going
  have ctxs := endReleased_ctxs s y
  have kept := endReleased_out s y
  obtain ⟨v, hv⟩ : ∃ v, v = endReleased s y := ⟨_, rfl⟩
  rw [← hv] at ctxs kept
  rw [number] at ctxs
  have run : fixEnd s c st det res = (modCtx v c fun y => { y with status := st, detail := det, result := res, wait := .fixed, mirrorWait := [], reads := [], fed := [] }).updXlat
      fun t => { t with gather := updIf (fun g => g.through && g.owner == c) (fun g => { g with through := false }) t.gather } := by
    simp only [fixEnd, found, going', Bool.false_eq_true, if_false, hv]
    rfl
  have same : ∀ d, getCtx v d = getCtx (modCtx s c fun z => { z with atom := [] }) d := fun d => by rw [getCtx, ctxs]; rfl
  have own : getCtx v c = some { y with atom := [] } := (same c).trans (getCtx_changed found)
  rw [run]
  exact ⟨⟨_, getCtx_changed (f := fun y => { y with status := st, detail := det, result := res, wait := .fixed, mirrorWait := [], reads := [], fed := [] }) own, rfl, rfl⟩,
    fun d other => (getCtx_changed_other (s := v) other (f := fun y => { y with status := st, detail := det, result := res, wait := .fixed, mirrorWait := [], reads := [], fed := [] })).trans
      ((same d).trans (getCtx_changed_other other)), kept⟩

/-- Settles O20: each clause by the branch of its op, the reset's end by the state it leaves. -/
theorem ringOperations : Obligations.RingOperations := by
  unfold Obligations.RingOperations
  refine ⟨fun s c x g h free => ?_, fun s c x r h named idle => ?_, fun s c x h gone => ?_, fun s c x r h named busy => ?_,
    fun s c x r h named fresh => ?_, fun s g r k c x found rst by_ ctx typ op begun ended loc all => ?_,
    fun s g r k c x z found rst by_ ctx typ op begun ended loc other held one => ?_, fun s g r k found rst by_ ended all => ?_,
    fun s c x found waits typ op none_ => ?_, fun s c x y found waits typ op target late => ?_, fun s c x y found waits typ op target early own atom => ?_,
    fun s c x h fresh big => ?_, fun s c x h fresh small other none_ => ?_, fun s c x h fresh small => ?_⟩
  · have run := exec_resident (i := .ringCreate c) h rfl (by simp only [free]; rfl)
    obtain ⟨r, hr⟩ : ∃ r : Ring, r = { Ring.fresh g (selFn x) (selLocal x.entry) with
          admin := bit x.entry.a2.toNat 11, hold := bit x.entry.a2.toNat 10, nosnoopOk := bit x.entry.a2.toNat 12, sqBase := x.entry.a0, cqBase := x.entry.a1,
          sqLog2 := bits x.entry.a2.toNat 4 0, cqLog2 := bits x.entry.a2.toNat 9 5, vector := bits x.entry.a2.toNat 39 29, coalCount := bits x.entry.a2.toNat 47 40,
          coalBeats := bits x.entry.a2.toNat 63 48, weight := bits x.entry.a2.toNat 20 13, fetch := bits x.entry.a2.toNat 28 21 } := ⟨_, rfl⟩
    have hg : r.g = g := by rw [hr]; rfl
    refine ⟨residentPost (addRing s r) c St.ok 0 (BitVec.ofNat 64 g), by rw [run, hr], rfl, fun id sched coal => ?_, r, rfl, ?_⟩
    · rw [← hg] at sched coal
      exact addRing_nvVal s r sched coal
    · rw [hr]
      exact ⟨rfl, rfl, rfl, rfl, rfl, rfl, rfl, rfl, rfl, rfl, rfl, rfl, rfl, rfl, rfl, rfl, _, getCtx_residentPost h.ctx _ _ _, rfl, rfl, rfl⟩
  · refine posts_of_kept_with (u := freeRing s r.g) h.ctx (exec_resident h rfl ?_) rfl (mem_freeRing s r.g)
    simp only [named, idle, Bool.false_eq_true, if_false]
  · refine posts_of_kept h.ctx (exec_resident h rfl ?_) rfl
    simp only [gone]
  · refine exec_resident h rfl ?_
    simp only [named, busy, if_true]
  · refine exec_resident h rfl ?_
    simp only [named, fresh, if_true]
  · have same := withholdFixed_none all
    have run := ringResetComplete_answers found rst ended begun same (by rw [found]; exact rst) loc by_ ctx typ op
    exact posts_of_kept_with ctx run rfl (getRing_ringRestarted found)
  · obtain ⟨u, hu⟩ : ∃ u, u = modRing s g fun r => { r with rst := r.rst.map fun k => k.count z.status } := ⟨_, rfl⟩
    have same : withholdFixed s g = modCtx u z.c fun y => { y with withheld := true } := by
      rw [withholdFixed, one, hu]
      rfl
    have ring : getRing u g = some { r with rst := some (k.count z.status) } := by
      rw [hu, getRing_modRing_found found (fun r => { r with rst := r.rst.map fun k => k.count z.status }) fun _ => rfl, rst]
      rfl
    have kept : ∀ d, getCtx u d = getCtx s d := fun d => by rw [hu]; rfl
    have ctx' : getCtx (modCtx u z.c fun y => { y with withheld := true }) c = some x :=
      (getCtx_changed_other other.symm).trans ((kept c).trans ctx)
    have counts : (getRing (modCtx u z.c fun y => { y with withheld := true }) g).bind Ring.rst = some (k.count z.status) := congrArg (Option.bind · Ring.rst) ring
    have run := ringResetComplete_answers found rst ended begun same counts loc by_ ctx' typ op
    obtain ⟨v, hv⟩ : ∃ v, v = modCtx u z.c fun y => { y with withheld := true } := ⟨_, rfl⟩
    have held' : getCtx v z.c = some { z with withheld := true } := by
      rw [hv]
      exact getCtx_changed ((kept z.c).trans held)
    have out : v.out = s.out := by rw [hv, hu]; rfl
    rw [← hv] at run ctx'
    exact ⟨_, run, out, (getCtx_residentPost_other other ..).trans held', _, getCtx_residentPost (s := ringRestarted v g) ctx' _ _ _, rfl, rfl⟩
  · have same := withholdFixed_none all
    have begun : resetWaits s k = false := by simp [resetWaits, by_]
    have run := ringResetComplete_runs found rst ended begun same (by rw [found]; exact rst)
    rw [by_, Option.bind_none] at run
    refine ⟨_, run, ?_⟩
    by_cases rel : released s r = true
    · have cond : r.loc = 0 ∧ ((getFn s r.fn).map HostFn.aringRelease).getD false = true ∧ fnFunc r.fn = 0 := by
        simpa [released, and_assoc] using rel
      simp only [ringEnded, rel, if_true, if_pos cond]
      exact ⟨rfl, getRing_freeRing ..⟩
    · have cond : ¬ (r.loc = 0 ∧ ((getFn s r.fn).map HostFn.aringRelease).getD false = true ∧ fnFunc r.fn = 0) := by
        simpa [released, and_assoc] using rel
      simp only [ringEnded, rel, if_neg cond]
      exact ⟨rfl, getRing_ringRestarted found⟩
  · refine posts_of_kept found (congrArg Host.Outcome.next ?_) rfl
    simp [found, waits, typ, op, none_]
  · refine posts_of_kept found (congrArg Host.Outcome.next ?_) rfl
    simp [found, waits, typ, op, target, late]
  · obtain ⟨-, older, going⟩ := abortTarget_some target
    have number : x.c = c := getCtx_number found
    have other : c ≠ y.c := by
      intro e
      rw [← e, found] at own
      cases own
      exact absurd older (Nat.lt_irrefl _)
    have run : exec (.abort c) s = .next (residentPost (modCtx (abortNext (dropDescs s y.c) y.c) c fun z => { z with snap := y.c + 1 }) c St.ok 0 0) := by
      refine congrArg Host.Outcome.next ?_
      simp [found, waits, typ, op, target, early]
    obtain ⟨⟨z, fixed, wait, status⟩, others, out, aborts⟩ := fixEnd_fixes (s := countAbort (dropDescs s y.c)) own going St.aborted 0 0
    obtain ⟨v, hv⟩ : ∃ v, v = fixEnd (countAbort (dropDescs s y.c)) y.c St.aborted 0 0 := ⟨_, rfl⟩
    have next_ : abortNext (dropDescs s y.c) y.c = modCtx v y.c fun z => { z with postBeat := s.beat + 1 } := by
      rw [hv]
      rfl
    rw [← hv] at fixed others out aborts
    rw [next_] at run
    have own' : getCtx (modCtx v y.c fun z => { z with postBeat := s.beat + 1 }) c = some x := (getCtx_changed_other other).trans ((others c other).trans found)
    refine ⟨_, run, ⟨_, getCtx_residentPost (getCtx_changed own') _ _ _, rfl, rfl⟩, ⟨{ z with postBeat := s.beat + 1 }, ?_, wait, status, rfl⟩, aborts, out⟩
    exact (getCtx_residentPost_other other.symm ..).trans ((getCtx_changed_other other.symm).trans (getCtx_changed fixed))
  · refine posts_of_kept h.ctx (exec_resident h rfl ?_) rfl
    simp only [fresh, Nat.zero_ne_one, if_false, big, if_true]
  · have run : exec (.dayEnter c) s = .next (requestDay (storeNv (modCtx s c fun y => { y with snap := 1 }) 0x0E000001 x.entry.a0) c (dayOf x.entry.a0.toNat)) := by
      refine exec_resident h rfl ?_
      simp only [fresh, Nat.zero_ne_one, if_false, Nat.not_lt.mpr small]
    rw [requestDay_pends (s := storeNv (modCtx s c fun y => { y with snap := 1 }) 0x0E000001 x.entry.a0) none_ other] at run
    refine ⟨_, run, rfl, ?_, rfl, getCtx_changed (f := fun y => { y with snap := 1 }) h.ctx⟩
    show (match Assoc.get (Assoc.set s.nv 0x0E000001 x.entry.a0) 0x0E000001 with
      | some v => v.toNat
      | none => _) = _
    rw [assoc_get_set, if_pos rfl]
  · refine exec_resident h rfl ?_
    simp only [fresh, Nat.zero_ne_one, if_false, Nat.not_lt.mpr small]

end Sys2Proof.Proofs
end

section
/-! PROOF. RegisterAccess: what an event and a message leave of a function (R22, R23, R353), then the registers dword by dword (R8, R9, R21). -/

namespace Sys2Proof.Proofs

open Sys2Proof Sys2Proof.Machine Sys2Proof.Safety Sys2Proof.Laws

/-! ### Functions through changes, messages and events -/

/-- A function through a change of the function of a number. -/
theorem getFn_modFn {s : State} {fn : Nat} {f : HostFn} (found : getFn s fn = some f) (n : Nat) {h : HostFn → HostFn}
    (keeps : ∀ g, (h g).n = g.n := by exact fun _ => rfl) : getFn (modFn s n h) fn = some (if fn = n then h f else f) := by
  by_cases same : fn = n
  · subst same
    rw [if_pos rfl]
    refine (find_updIf HostFn.n fn h (fun g hg => (keeps g).trans hg) s.fns).trans ?_
    rw [show s.fns.find? (fun g => g.n == fn) = some f from found]
    rfl
  · rw [if_neg same]
    exact (find_updIf_ne HostFn.n n fn same h (fun g hg => (keeps g).trans hg) s.fns).trans found

/-- A changed function, where the change is known from the goal. -/
theorem getFn_changed {s : State} {fn : Nat} {f : HostFn} {h : HostFn → HostFn} (found : getFn s fn = some f)
    (keeps : ∀ g, (h g).n = g.n := by exact fun _ => rfl) : getFn (modFn s fn h) fn = some (h f) := by
  rw [getFn_modFn found fn keeps, if_pos rfl]

/-- The function found under a number bears it. -/
theorem getFn_number {s : State} {fn : Nat} {f : HostFn} (found : getFn s fn = some f) : f.n = fn := by
  simpa using List.find?_some found

/-- A message changes no more of a function than its Pending Bits. -/
theorem getFn_sendMsix {s : State} {fn : Nat} {f : HostFn} (found : getFn s fn = some f) (n v : Nat) :
    ∃ p, getFn (sendMsix s n v) fn = some { f with pba := p } := by
  unfold sendMsix
  repeat' split
  · exact ⟨f.pba, found⟩
  · exact ⟨f.pba, found⟩
  · rw [getFn_modFn found n]
    split
    · exact ⟨_, rfl⟩
    · exact ⟨f.pba, rfl⟩
  · exact ⟨f.pba, found⟩

/-- What an event of a function changes of a function. -/
def Raises (k : Nat) (this : Bool) (f g : HostFn) : Prop :=
  g = { f with gevent := g.gevent, pba := g.pba } ∧ g.gevent = if this then f.gevent ||| (1#8 <<< k) else f.gevent

/-- An event sets its bit in its function and in no other (R23). -/
theorem getFn_raiseIn {s : State} {fn : Nat} {f : HostFn} (found : getFn s fn = some f) (n k : Nat) :
    ∃ g, getFn (raiseIn s n k) fn = some g ∧ Raises k (fn == n) f g := by
  have set_ := getFn_modFn found n (h := fun f => { f with gevent := f.gevent ||| (1#8 <<< k) })
  have raised : ∀ p, Raises k (fn == n) f { (if fn = n then { f with gevent := f.gevent ||| (1#8 <<< k) } else f) with pba := p } := fun p => by
    by_cases same : fn = n
    · subst same
      simp [Raises]
    · simp [Raises, same]
  unfold raiseIn
  split
  next none_ =>
    have other : fn ≠ n := by
      rintro rfl
      rw [found] at none_
      cases none_
    exact ⟨f, found, by simp [Raises, other]⟩
  · simp only
    split
    · obtain ⟨p, sent⟩ := getFn_sendMsix set_ n _
      exact ⟨_, sent, raised p⟩
    · exact ⟨_, set_, raised _⟩

/-- An event changes functions and may send a message. -/
theorem raiseIn_frame (s : State) (n k : Nat) : raiseIn s n k = { s with fns := (raiseIn s n k).fns, out := (raiseIn s n k).out } := by
  unfold raiseIn
  split
  · rfl
  · simp only
    split
    · rw [sendMsix_frame]
      rfl
    · rfl

/-- From s to t the function `fn` stays, and none of its event bits is cleared. -/
def Grows (fn : Nat) (s t : State) : Prop :=
  ∀ f, getFn s fn = some f → ∃ g, getFn t fn = some g ∧ ∀ j, f.gevent.getLsbD j = true → g.gevent.getLsbD j = true

theorem Grows.refl (fn : Nat) (s : State) : Grows fn s s := fun f found => ⟨f, found, fun _ => id⟩

theorem Grows.trans {fn : Nat} {s t u : State} (a : Grows fn s t) (b : Grows fn t u) : Grows fn s u := fun f found => by
  obtain ⟨g, found', kept⟩ := a f found
  obtain ⟨h, found'', kept'⟩ := b g found'
  exact ⟨h, found'', fun j was => kept' j (kept j was)⟩

theorem raiseIn_grows (fn n k : Nat) (s : State) : Grows fn s (raiseIn s n k) := fun f found => by
  obtain ⟨g, found', -, bits_⟩ := getFn_raiseIn found n k
  refine ⟨g, found', fun j was => ?_⟩
  rw [bits_]
  split
  · simp [was]
  · exact was

theorem foldl_raiseIn_grows (fn k : Nat) (l : List Nat) (s : State) : Grows fn s (l.foldl (fun s n => raiseIn s n k) s) := by
  induction l generalizing s with
  | nil => exact Grows.refl fn s
  | cons n l ih => exact (raiseIn_grows fn n k s).trans (ih _)

theorem event_grows (fn k who : Nat) (s : State) : Grows fn s (event s k who) := foldl_raiseIn_grows fn k _ s

/-- An event of the module is an event of every function (R23). -/
theorem event_raises {s : State} {fn : Nat} {f : HostFn} (found : getFn s fn = some f) {k : Nat} (small : k < 8) (who : Nat) :
    ∃ g, getFn (event s k who) fn = some g ∧ g.gevent.getLsbD k = true := by
  have raised : ∀ (l : List Nat) (u : State) (h : HostFn), fn ∈ l → getFn u fn = some h →
      ∃ g, getFn (l.foldl (fun s n => raiseIn s n k) u) fn = some g ∧ g.gevent.getLsbD k = true := by
    intro l
    induction l with
    | nil => exact fun u h mem => absurd mem List.not_mem_nil
    | cons n l ih =>
      intro u h mem found
      obtain ⟨g, found', -, bits_⟩ := getFn_raiseIn found n k
      by_cases this : fn = n
      · obtain ⟨g', found'', kept⟩ := foldl_raiseIn_grows fn k l _ g found'
        refine ⟨g', found'', kept k ?_⟩
        rw [bits_, if_pos (by simp [this])]
        simp [small]
      · exact ih _ g ((List.mem_cons.mp mem).resolve_left this) found'
  have mem : fn ∈ s.fns.map HostFn.n := List.mem_map.mpr ⟨f, List.mem_of_find?_eq_some found, getFn_number found⟩
  exact raised _ s f mem found

/-! ### Dark accesses -/

/-- A dark access is recorded at its function (R22, R443). -/
theorem getFn_darkAccess {s : State} {fn : Nat} {f : HostFn} (found : getFn s fn = some f) (o : Nat) (w : Bool) :
    ∃ g, getFn (darkAccess s fn o w) fn = some g ∧ g.gevent.getLsbD 0 = true ∧ g.darkCount = min 255 (f.darkCount + 1) ∧
      (f.darkCount = 0 → g.darkOffset = BitVec.ofNat 23 o ∧ g.darkWrite = w) ∧ ∀ j, f.gevent.getLsbD j = true → g.gevent.getLsbD j = true := by
  have noted := getFn_changed (h := fun f =>
    { f with darkCount := min 255 (f.darkCount + 1)
             darkWrite := if f.darkCount = 0 then w else f.darkWrite
             darkOffset := if f.darkCount = 0 then BitVec.ofNat 23 o else f.darkOffset }) found
  obtain ⟨g, found', kept, bits_⟩ := getFn_raiseIn (s := (modFn s fn _).updDay fun d => { d with darkAccesses := satAdd d.darkAccesses 1 }) noted fn 0
  rw [if_pos (beq_self_eq_true fn)] at bits_
  refine ⟨g, found', by simp [bits_], by rw [kept], fun first => ?_, fun j was => ?_⟩
  · rw [kept]
    simp [first]
  · rw [bits_]
    simp [was]

/-- A dark access changes functions and the counts of the day, and may send a message. -/
theorem darkAccess_frame (s : State) (fn o : Nat) (w : Bool) :
    darkAccess s fn o w = { s with fns := (darkAccess s fn o w).fns, out := (darkAccess s fn o w).out, day := { s.day with darkAccesses := satAdd s.day.darkAccesses 1 } } := by
  unfold darkAccess
  rw [raiseIn_frame]
  rfl

/-! ### Reading and writing -/

/-- One dword read. -/
theorem latchingRead_one {s : State} {fn o : Nat} {f : HostFn} (found : getFn s fn = some f) (aligned : o % 4 = 0) (within : o + 4 ≤ 0x800000) :
    exec (.latchingRead fn o 4) s = .next (emit (hostRead s fn o).2 (.regRead fn (BitVec.ofNat 64 ((hostRead s fn o).1 % 2 ^ 32)))) := by
  have start : o / 4 * 4 = o := by omega
  have present : (getFn s fn).isNone = false := by simp [found]
  have count : ceilDiv (o + 4 - o) 4 = 1 := by simp [ceilDiv]
  simp only [exec, execLatchingRead, if_neg (show ¬ 0x800000 < o + 4 by omega), present, Bool.false_or, show ((4 : Nat) == 0) = false from rfl,
    show decide (8 < 4) = false from rfl, Bool.false_eq_true, if_false, start, count, hostReads, Nat.zero_mul, Nat.add_zero, Nat.sub_self,
    Nat.mul_zero, Nat.pow_zero, Nat.div_one]

/-- Dwords that a write of whole dwords covers (R8). -/
theorem barWrite_whole {s : State} {fn o k : Nat} (v : BitVec 64) (present : (getFn s fn).isSome = true) (aligned : o % 4 = 0) (some_ : 0 < k) (most : k ≤ 2) :
    barWrite s fn o (4 * k) v = hostWrites fn o (v.toNat % 2 ^ (8 * (4 * k))) k s := by
  have present' : (getFn s fn).isNone = false := by simpa using present
  have bytes : ((4 * k == 0) || decide (8 < 4 * k)) = false := by
    simp only [Bool.or_eq_false_iff, beq_eq_false_iff_ne, decide_eq_false_iff_not]
    omega
  have first : ceilDiv o 4 * 4 = o := by
    unfold ceilDiv
    omega
  have last : (o + 4 * k) / 4 * 4 = o + 4 * k := by omega
  have count : (o + 4 * k - o) / 4 = k := by omega
  have whole : ¬ (o + 4 * k) % 4 ≠ 0 := by omega
  simp only [barWrite, present', bytes, Bool.false_or, Bool.false_eq_true, if_false, aligned, ne_eq, not_true_eq_false, false_and, first, last,
    count, Nat.sub_self, Nat.mul_zero, Nat.pow_zero, Nat.div_one, whole]

/-- The four low halves (R9). -/
theorem lowHalf_iff (o : Nat) : lowHalf o = true ↔ o = 0x18 ∨ o = 0x110 ∨ o = 0x1000 ∨ o = 0x1008 := by
  simp [lowHalf, or_assoc]

/-- What a write to GEVENT leaves of its function (R23). -/
def cleared (v : BitVec 32) (f : HostFn) : HostFn :=
  { f with
    gevent := f.gevent &&& ~~~ v.setWidth 8, darkCount := if v.getLsbD 0 then 0 else f.darkCount
    darkWrite := if v.getLsbD 0 then false else f.darkWrite, darkOffset := if v.getLsbD 0 then 0 else f.darkOffset }

theorem getFn_geventClear {s : State} {fn : Nat} {f : HostFn} (found : getFn s fn = some f) (v : BitVec 32) :
    getFn (geventClear s fn v) fn = some (cleared v f) := getFn_changed (h := cleared v) found

/-- The events of the cycle of a GEVENT write, and its dark access, win over the clear. -/
theorem geventWrite_runs {s : State} {fn : Nat} {f : HostFn} (found : getFn s fn = some f) (v : BitVec 32) (k : BitVec 8) (d : Option (Nat × Bool)) :
    exec (.geventWrite fn v k d) s = .next
      (let t := ((List.range 8).filter fun j => decide (0 < j) && k.getLsbD j).foldl (fun s j => event s j 0xFF) (geventClear s fn v)
       match d with
       | some (o, w) => darkAccess t fn o w
       | none => t) := by
  have present : (getFn s fn).isNone = false := by simp [found]
  refine congrArg Host.Outcome.next ((if_neg ?_).trans ?_)
  · rw [present]
    exact Bool.false_ne_true
  · cases d <;> rfl

/-- Each event of a list is raised in every function. -/
theorem events_raise {fn : Nat} (l : List Nat) (small : ∀ j ∈ l, j < 8) {s : State} {f : HostFn} (found : getFn s fn = some f) :
    ∃ g, getFn (l.foldl (fun s j => event s j 0xFF) s) fn = some g ∧ ∀ j ∈ l, g.gevent.getLsbD j = true := by
  induction l generalizing s f with
  | nil => exact ⟨f, found, fun j mem => absurd mem List.not_mem_nil⟩
  | cons j l ih =>
    have grows : ∀ (l : List Nat) (u : State), Grows fn u (l.foldl (fun s j => event s j 0xFF) u) := by
      intro l
      induction l with
      | nil => exact Grows.refl fn
      | cons a l ih => exact fun u => (event_grows fn a 0xFF u).trans (ih _)
    obtain ⟨g, found', was⟩ := event_raises found (small j List.mem_cons_self) 0xFF
    obtain ⟨h, found'', all⟩ := ih (fun i mem => small i (List.mem_cons_of_mem j mem)) found'
    obtain ⟨h', found''', kept⟩ := grows l _ g found'
    rw [List.foldl_cons]
    cases found''.symm.trans found'''
    refine ⟨h, found'', fun i mem => ?_⟩
    rcases List.mem_cons.mp mem with rfl | mem
    · exact kept i was
    · exact all i mem

/-- Messages change no more of a function than its Pending Bits, and functions and messages sent alone. -/
theorem foldl_sendMsix {α : Type} (l : List α) (n v : Nat) {s : State} {fn : Nat} {f : HostFn} (found : getFn s fn = some f) :
    (∃ p, getFn (l.foldl (fun s _ => sendMsix s n v) s) fn = some { f with pba := p }) ∧
    l.foldl (fun s _ => sendMsix s n v) s =
      { s with fns := (l.foldl (fun s _ => sendMsix s n v) s).fns, out := (l.foldl (fun s _ => sendMsix s n v) s).out } := by
  induction l generalizing s f with
  | nil => exact ⟨⟨f.pba, found⟩, rfl⟩
  | cons a l ih =>
    obtain ⟨p, sent⟩ := getFn_sendMsix found n v
    obtain ⟨⟨q, rest⟩, frame⟩ := ih sent
    rw [List.foldl_cons]
    refine ⟨⟨q, rest⟩, ?_⟩
    rw [frame, sendMsix_frame]

/-- Settles O21: reads and writes of whole dwords by `hostRead` and `hostWrite`, the event registers by what a clear and a raise leave. -/
theorem registerAccess : Obligations.RegisterAccess := by
  unfold Obligations.RegisterAccess
  refine ⟨fun s fn o v present aligned within => ?_, fun s fn o v present aligned within => ?_, fun s fn o n v within => ?_,
    fun s fn o n present some_ most within => ?_, fun s fn o n v beyond => ⟨if_pos beyond, if_pos beyond⟩,
    fun s fn o f found aligned within lit low high => ?_, fun s fn o f found aligned lit low => ?_,
    fun s fn o f v found aligned four low lit held => ?_, fun s fn f v found => ?_, fun s fn f v o w found => ?_, fun s fn f v k d found => ?_,
    fun s fn f v found => ?_, fun s fn f o w found dark => ?_⟩
  · have write := barWrite_whole (k := 1) v present aligned (by omega) (by omega)
    exact (if_neg (by omega)).trans (congrArg (fun t => Host.Outcome.next (doorbellWake s t)) write)
  · have write := barWrite_whole (k := 2) v present aligned (by omega) (by omega)
    refine (if_neg (by omega)).trans (congrArg (fun t => Host.Outcome.next (doorbellWake s t)) (write.trans ?_))
    have all : v.toNat % 2 ^ (8 * (4 * 2)) = v.toNat := Nat.mod_eq_of_lt v.isLt
    simp only [hostWrites, all]
  · exact if_neg (by omega)
  · have present' : (getFn s fn).isNone = false := by simpa using present
    have bytes : (n == 0 || decide (8 < n)) = false := by
      simp only [Bool.or_eq_false_iff, beq_eq_false_iff_ne, decide_eq_false_iff_not]
      omega
    refine (if_neg (by omega)).trans (congrArg Host.Outcome.next ?_)
    simp only [present', bytes, Bool.false_or, Bool.false_eq_true, if_false]
  · have plain : hostRead s fn o = (readDword s f o, s) := by
      have high' : ¬ (4 ≤ o ∧ lowHalf (o - 4) = true) := by
        rintro ⟨four, was⟩
        rcases high with below | not_
        · omega
        · rw [not_] at was
          cases was
      simp only [hostRead, found, lit, low, Bool.false_eq_true, if_false, if_neg high']
    rw [latchingRead_one found aligned within, plain]
  · have within : o + 4 ≤ 0x800000 := by
      rcases (lowHalf_iff o).mp low with rfl | rfl | rfl | rfl <;> decide
    have latch : hostRead s fn o =
        (readDword s f o, modFn s fn fun f' => { f' with hiLatch := Assoc.set f'.hiLatch o (BitVec.ofNat 32 (readDword s f' (o + 4))) }) := by
      simp only [hostRead, found, lit, low, Bool.false_eq_true, if_false, if_true]
    have run := latchingRead_one found aligned within
    rw [latch] at run
    refine ⟨_, run, rfl, rfl, _, getFn_changed (h := fun f' => { f' with hiLatch := Assoc.set f'.hiLatch o (BitVec.ofNat 32 (readDword s f' (o + 4))) }) found, rfl, ?_⟩
    rw [assoc_get_set, if_pos rfl]
  · have place : o = 0x1C ∨ o = 0x114 ∨ o = 0x1004 ∨ o = 0x100C := by
      rcases (lowHalf_iff (o - 4)).mp low with e | e | e | e <;> omega
    have within : o + 4 ≤ 0x800000 := by omega
    have high : lowHalf o = false := by
      rcases place with rfl | rfl | rfl | rfl <;> rfl
    have answer : hostRead s fn o = (v.toNat, modFn s fn fun f' => { f' with hiLatch := Assoc.del f'.hiLatch (o - 4) }) := by
      simp only [hostRead, found, lit, high, four, low, held, and_self, Bool.false_eq_true, if_false, if_true]
    have run := latchingRead_one found aligned within
    rw [answer] at run
    refine ⟨_, run, ?_, _, getFn_changed (h := fun f' => { f' with hiLatch := Assoc.del f'.hiLatch (o - 4) }) found, ?_⟩
    · have value : BitVec.ofNat 64 (v.toNat % 2 ^ 32) = v.setWidth 64 := by
        rw [Nat.mod_eq_of_lt v.isLt, BitVec.ofNat_toNat]
      rw [value]
      rfl
    · rw [assoc_get_del, if_pos rfl]
  · refine ⟨_, geventWrite_runs found v 0 none, rfl, _, getFn_geventClear found v, rfl, fun k small => ?_, fun first => ?_, fun first => ?_⟩
    · simp [cleared, small]
    · simp only [cleared, first, if_true]
    · simp only [cleared, first, Bool.false_eq_true, if_false, and_self]
  · obtain ⟨g, found', bit_, count, first, -⟩ := getFn_darkAccess (getFn_geventClear found v) o w
    refine ⟨_, geventWrite_runs found v 0 (some (o, w)), g, found', bit_, ?_, fun fresh => first ?_⟩
    · rw [count]
      simp only [cleared]
      split <;> rfl
    · simp only [cleared]
      split
      · rfl
      next not_ => exact fresh.resolve_left not_
  · let l := (List.range 8).filter fun j => decide (0 < j) && k.getLsbD j
    obtain ⟨g, found', all⟩ := events_raise l (fun j mem => List.mem_range.mp (List.mem_filter.mp mem).1) (getFn_geventClear found v)
    have listed : ∀ j, 0 < j → j < 8 → k.getLsbD j = true → j ∈ l := fun j some_ small was =>
      List.mem_filter.mpr ⟨List.mem_range.mpr small, by simp [some_, was]⟩
    refine ⟨_, geventWrite_runs found v k d, ?_⟩
    cases d with
    | none => exact ⟨g, found', fun is_ => absurd is_ (by decide), fun j some_ small was => all j (listed j some_ small was)⟩
    | some p =>
      obtain ⟨o, w⟩ := p
      obtain ⟨h, found'', bit_, -, -, kept⟩ := getFn_darkAccess found' o w
      exact ⟨h, found'', fun _ => bit_, fun j some_ small was => kept j (all j (listed j some_ small was))⟩
  · have set_ := getFn_changed (h := fun f => { f with cfgVector := (v >>> 16).setWidth 11, cfgMask := v.setWidth 8 }) found
    let l := (List.range 8).filter fun k => (f.gevent &&& f.cfgMask &&& ~~~ (v.setWidth 8)).getLsbD k
    have hl : l = (List.range 8).filter fun k => (f.gevent &&& f.cfgMask &&& ~~~ (v.setWidth 8)).getLsbD k := rfl
    obtain ⟨⟨p, sent⟩, frame⟩ := foldl_sendMsix l fn ((v >>> 16).setWidth 11).toNat set_
    have run : exec (.geventCfgWrite fn v) s = .next (l.foldl (fun s _ => sendMsix s fn ((v >>> 16).setWidth 11).toNat)
        (modFn s fn fun f => { f with cfgVector := (v >>> 16).setWidth 11, cfgMask := v.setWidth 8 })) := by
      refine congrArg Host.Outcome.next ?_
      simp only [geventCfg, found]
      rfl
    refine ⟨_, run, ?_, _, sent, rfl⟩
    rw [frame]
    rfl
  · have present : (getFn s fn).isNone = false := by simp [found]
    obtain ⟨g, found', bit_, count, first, -⟩ := getFn_darkAccess found o w
    have frame := darkAccess_frame s fn o w
    obtain ⟨u, hu⟩ : ∃ u, u = darkAccess s fn o w := ⟨_, rfl⟩
    rw [← hu] at found' frame
    have run : exec (.darkDomainAccess fn o w) s = .next (if w then u else emit u (.regRead fn 0xFFFFFFFF)) := by
      refine congrArg Host.Outcome.next ?_
      simp only [present, dark, Bool.not_true, Bool.or_self, Bool.false_eq_true, if_false, hu]
    refine ⟨_, run, ?_⟩
    cases w with
    | true =>
      simp only [if_true]
      exact ⟨by rw [frame], by rw [frame], by rw [frame], fun no => (by cases no), g, found', bit_, count, first⟩
    | false =>
      simp only [Bool.false_eq_true, if_false]
      exact ⟨by rw [frame]; rfl, by rw [frame]; rfl, by rw [frame]; rfl, fun _ => ⟨u.out, rfl⟩, g, found', bit_, count, first⟩

end Sys2Proof.Proofs
end

section
/-! PROOF. DoorbellsAndVectors: the doorbells (R96 to R98), DBERR, and the messages of a vector (R99, R353). -/

namespace Sys2Proof.Proofs

open Sys2Proof Sys2Proof.Machine Sys2Proof.Safety Sys2Proof.Laws

/-- A changed ring pair, where the change is known from the goal. -/
theorem getRing_changed {s : State} {g : Nat} {r : Ring} {f : Ring → Ring} (found : getRing s g = some r) (keeps : ∀ q, (f q).g = q.g := by exact fun _ => rfl) :
    getRing (modRing s g f) g = some (f r) :=
  getRing_modRing_found found f keeps

theorem getRing_changed_other {s : State} {g h : Nat} (other : h ≠ g) {f : Ring → Ring} (keeps : ∀ q, (f q).g = q.g := by exact fun _ => rfl) :
    getRing (modRing s g f) h = getRing s h :=
  getRing_modRing_ne s other f fun q hq => (keeps q).trans hq

/-- A doorbell wakes nothing in Noon and Dusk (R438). -/
theorem wake_of_day {s : State} {code : Nat} (day : s.day.day = .noon ∨ s.day.day = .dusk) (fatal : s.day.fatal = false) : wake s code = s := by
  have from_ : wakesFrom s.day.day code = false := by rcases day with e | e <;> rw [e] <;> rfl
  simp only [wake, hotStopped, fatal, Bool.false_and, Bool.false_eq_true, if_false, from_, Bool.not_false, if_true, ite_self]

theorem doorbellWake_of_day {s t : State} (day : t.day.day = .noon ∨ t.day.day = .dusk) (fatal : t.day.fatal = false) : doorbellWake s t = t := by
  unfold doorbellWake
  rw [wake_of_day day fatal, ite_self]

/-- A dropped doorbell is counted and recorded at its function (R97). -/
theorem getFn_dbError {s : State} {fn : Nat} {f : HostFn} (found : getFn s fn = some f) (loc : Nat) :
    ∃ g, getFn (dbError s fn loc) fn = some g ∧ g.dbErr.contains loc = true := by
  refine ⟨_, getFn_changed (h := fun f => { f with dbErr := if f.dbErr.contains loc then f.dbErr else f.dbErr ++ [loc] }) found, ?_⟩
  simp only
  split
  next was => exact was
  · simp

/-- Whether a vector of a function sends at once (R353). -/
def sendsNow (f : HostFn) (v : Nat) : Bool := f.msixEnable && f.pba.contains v && !f.msixMask && !(f.msix v).masked && f.writable && !f.resetting

/-- A vector as its unmasking leaves it in its function. -/
def unmasked (v : Nat) (f : HostFn) : HostFn := { f with msixTable := Assoc.set f.msixTable v { f.msix v with masked := false } }

theorem unmasked_msix (f : HostFn) (v : Nat) : (unmasked v f).msix v = { f.msix v with masked := false } := by
  rw [HostFn.msix, unmasked, assoc_get_set, if_pos rfl]
  rfl

/-- Unmasking a vector of a function. -/
theorem msixUnmask_runs {s : State} {fn v : Nat} {f : HostFn} (found : getFn s fn = some f) (within : v < f.vectors) :
    exec (.msixUnmask fn (some v)) s = .next (msixDrain (modFn s fn (unmasked v)) fn v) := by
  refine congrArg Host.Outcome.next ?_
  simp only [found, within, if_true]
  rfl

/-- What is pending on a vector that sends at once is sent. -/
theorem msixDrain_sends {s : State} {fn v : Nat} {f : HostFn} (found : getFn s fn = some f) (now : sendsNow f v = true) :
    msixDrain s fn v = emit (modFn s fn fun f => { f with pba := f.pba.filter (· != v) }) (.msix fn v (f.msix v).addr (f.msix v).data) := by
  unfold sendsNow at now
  simp only [msixDrain, found, now, if_true]

/-- A vector that does not send now stays pending. -/
theorem msixDrain_keeps {s : State} {fn v : Nat} {f : HostFn} (found : getFn s fn = some f) (later : sendsNow f v = false) : msixDrain s fn v = s := by
  unfold sendsNow at later
  simp only [msixDrain, found, later, Bool.false_eq_true, if_false]

/-- A message of a function that may send it now. -/
theorem sendMsix_sends {s : State} {n v : Nat} {f : HostFn} (found : getFn s n = some f) (enabled : f.msixEnable = true) (within : v < f.vectors)
    (open_ : f.msixMask = false) (clear : (f.msix v).masked = false) (writable : f.writable = true) (going : f.resetting = false) :
    sendMsix s n v = emit s (.msix n v (f.msix v).addr (f.msix v).data) := by
  simp [sendMsix, found, enabled, going, Nat.not_le.mpr within, open_, clear, writable]

/-- The local pair of a function present, below its limit. -/
theorem doorbell_present {s : State} {fn loc : Nat} {f : HostFn} (found : getFn s fn = some f) (below : loc < fnLimit s fn) :
    ((getFn s fn).isNone || decide (fnLimit s fn ≤ loc)) = false := by
  simp [found, below]

/-- An SQ_TAIL that is dropped (R97). -/
theorem sqTailWrite_drops {s : State} {fn loc : Nat} {v : BitVec 32} {f : HostFn} (found : getFn s fn = some f) (below : loc < fnLimit s fn)
    (bad : getLocal s fn loc = none ∨ ∃ r, getLocal s fn loc = some r ∧ (r.st = .resetting ∨ r.sqSize ≤ v.toNat % 2 ^ 16)) :
    sqTailWrite s fn loc v = dbError s fn loc := by
  simp only [sqTailWrite, doorbell_present found below, Bool.false_eq_true, if_false]
  rcases bad with none_ | ⟨r, some_, why⟩
  · rw [none_]
  · rw [some_]
    exact if_pos why

/-- A CQ_HEAD that is dropped (R97, R98). -/
theorem cqHeadWrite_drops {s : State} {fn loc : Nat} {v : BitVec 32} {f : HostFn} (found : getFn s fn = some f) (below : loc < fnLimit s fn)
    (bad : getLocal s fn loc = none ∨ ∃ r, getLocal s fn loc = some r ∧ (r.st = .resetting ∨ r.cqSize ≤ v.toNat % 2 ^ 16 ∨
      r.unconsumed < (v.toNat % 2 ^ 16 + r.cqSize - r.cqHead) % r.cqSize)) :
    cqHeadWrite s fn loc v = dbError s fn loc := by
  simp only [cqHeadWrite, doorbell_present found below, Bool.false_eq_true, if_false]
  rcases bad with none_ | ⟨r, some_, why⟩
  · rw [none_]
  · rw [some_]
    exact if_pos why

/-- Settles O22: the doorbells by their branches, the messages by whether a vector sends now. -/
theorem doorbellsAndVectors : Obligations.DoorbellsAndVectors := by
  unfold Obligations.DoorbellsAndVectors
  refine ⟨fun s fn loc v f r fatal day cool found below named own active within small => ?_,
    fun s fn loc v f r found below named own active within small passes => ?_, fun s fn loc v => rfl, fun s fn loc v f found below bad => ⟨?_, rfl⟩,
    fun s fn loc v f found below bad => ?_, fun s fn loc v f found below lit clear => ?_,
    fun s fn f v found within enabled open_ writable going pending => ?_, fun s fn f v found within later => ?_, fun s fn => rfl,
    fun s g r f ring some_ due found enabled within open_ clear writable going => ?_, fun s g r ring some_ due => ?_, fun s g not_ => ?_⟩
  · have value : v.toNat % 2 ^ 16 = v.toNat := Nat.mod_eq_of_lt (by omega)
    have good : ¬ (r.st = .resetting ∨ r.sqSize ≤ v.toNat) := by
      rintro (e | e)
      · rw [active] at e
        cases e
      · omega
    have write : sqTailWrite s fn loc v = modLink (modRing s r.g fun r => { r with sqTail := v.toNat }) (fnLink fn) fun l => { l with inL1 := false } := by
      simp only [sqTailWrite, doorbell_present found below, Bool.false_eq_true, if_false, named, value, if_neg good]
    have run : exec (.sqTail fn loc v) s = .next (doorbellWake s (sqTailWrite s fn loc v)) := rfl
    rw [write, doorbellWake_of_day (t := modLink (modRing s r.g fun r => { r with sqTail := v.toNat }) (fnLink fn) fun l => { l with inL1 := false }) day fatal] at run
    exact ⟨_, run, rfl, getRing_changed (f := fun r => { r with sqTail := v.toNat }) own,
      fun g other => getRing_changed_other (f := fun r => { r with sqTail := v.toNat }) other⟩
  · have value : v.toNat % 2 ^ 16 = v.toNat := Nat.mod_eq_of_lt (by omega)
    have good : ¬ (r.st = .resetting ∨ r.cqSize ≤ v.toNat ∨ r.unconsumed < (v.toNat + r.cqSize - r.cqHead) % r.cqSize) := by
      rintro (e | e | e)
      · rw [active] at e
        cases e
      · omega
      · omega
    have write : cqHeadWrite s fn loc v = modLink (modRing s r.g fun r => { r with cqHead := v.toNat }) (fnLink fn) fun l => { l with inL1 := false } := by
      simp only [cqHeadWrite, doorbell_present found below, Bool.false_eq_true, if_false, named, value, if_neg good]
    exact ⟨_, congrArg Host.Outcome.next write, rfl, getRing_changed (f := fun r => { r with cqHead := v.toNat }) own,
      fun g other => getRing_changed_other (f := fun r => { r with cqHead := v.toNat }) other⟩
  · exact congrArg (fun t => Host.Outcome.next (doorbellWake s t)) (sqTailWrite_drops found below bad)
  · exact ⟨_, congrArg Host.Outcome.next (cqHeadWrite_drops found below bad), rfl, rfl, getFn_dbError found loc⟩
  · have present : (getFn s fn).isNone = false := by simp [found]
    have write : exec (.rstatClear fn loc v) s = .next (modFn s fn fun f => { f with dbErr := f.dbErr.filter (· != loc) }) := by
      refine congrArg Host.Outcome.next ?_
      simp only [present, lit, rstatWrite, clear, below, decide_true, Bool.and_self, Bool.false_eq_true, if_false, if_true]
    exact ⟨_, write, rfl, getFn_changed (h := fun f => { f with dbErr := f.dbErr.filter (· != loc) }) found⟩
  · have own : getFn (modFn s fn (unmasked v)) fn = some (unmasked v f) := getFn_changed found
    have now : sendsNow (unmasked v f) v = true := by
      have writable' : (unmasked v f).writable = true := writable
      have masked : ((unmasked v f).msix v).masked = false := by rw [unmasked_msix]
      simp only [sendsNow, masked, writable', show (unmasked v f).msixEnable = true from enabled, show (unmasked v f).msixMask = false from open_,
        show (unmasked v f).resetting = false from going, show (unmasked v f).pba.contains v = true from pending, Bool.not_false, Bool.and_self]
    have run := msixUnmask_runs found within
    rw [msixDrain_sends own now, unmasked_msix] at run
    refine ⟨_, run, rfl, rfl, _, getFn_changed (h := fun f => { f with pba := f.pba.filter (· != v) }) own, rfl, ?_⟩
    exact congrArg MsixEntry.masked (unmasked_msix f v)
  · have own : getFn (modFn s fn (unmasked v)) fn = some (unmasked v f) := getFn_changed found
    have later' : sendsNow (unmasked v f) v = false := by
      have same : (unmasked v f).writable = f.writable := rfl
      rcases later with e | e | e | e | e
      · have none_ : v ∉ f.pba := by simpa using e
        simp [sendsNow, show v ∉ (unmasked v f).pba from none_]
      · simp [sendsNow, show (unmasked v f).msixEnable = false from e]
      · simp [sendsNow, show (unmasked v f).msixMask = true from e]
      · simp [sendsNow, same, e]
      · simp [sendsNow, show (unmasked v f).resetting = true from e]
    have run := msixUnmask_runs found within
    rw [msixDrain_keeps own later'] at run
    exact ⟨_, run, rfl, _, own, rfl, congrArg MsixEntry.masked (unmasked_msix f v)⟩
  · have run : exec (.coalesceCheck g) s = .next (sendMsix (modRing s g fun q => { q with pend := 0 }) r.fn r.vector) := by
      refine congrArg Host.Outcome.next ?_
      simp only [coalesce, ring, if_pos (And.intro some_ due)]
    rw [sendMsix_sends (s := modRing s g fun q => { q with pend := 0 }) found enabled within open_ clear writable going] at run
    exact ⟨_, run, rfl, getRing_changed (f := fun q => { q with pend := 0 }) ring, rfl⟩
  · refine congrArg Host.Outcome.next ?_
    simp only [coalesce, ring, if_pos (And.intro some_ due)]
  · refine congrArg Host.Outcome.next ?_
    unfold coalesce
    split
    · rfl
    next r ring =>
      refine if_neg ?_
      rintro ⟨some_, due⟩
      rcases not_ r ring with e | ⟨few, young⟩ <;> omega

end Sys2Proof.Proofs
end

section
/-! PROOF. AdminRingControl: the bits of ARING_CTRL and the readiness of an admin ring (R77 to R83), a branch at a time. -/

namespace Sys2Proof.Proofs

open Sys2Proof Sys2Proof.Machine Sys2Proof.Safety Sys2Proof.Laws

/-- A write of ARING_CTRL with the registers lit reaches the enable. -/
theorem aringEnable_runs {s : State} {fn : Nat} (lit : bar0Dark s 0x1014 = false) : exec (.aringEnable fn) s = .next (aringEnable s fn) := by
  refine congrArg Host.Outcome.next ?_
  simp only [lit, Bool.false_and, Bool.false_eq_true, if_false]

theorem aringDisable_runs {s : State} {fn : Nat} (lit : bar0Dark s 0x1014 = false) : exec (.aringDisable fn) s = .next (aringDisable s fn) := by
  refine congrArg Host.Outcome.next ?_
  simp only [lit, Bool.false_and, Bool.false_eq_true, if_false]

/-- An admin ring that a disable takes back. -/
def disabled (f : HostFn) : HostFn := { f with aringEn := false, aringReadyAt := none }

/-- What a disable may be applied to. -/
theorem aringDisable_allowed {s : State} {fn : Nat} {f : HostFn} (found : getFn s fn = some f) (on : f.aringEn = true) (pf : fnFunc fn = 0)
    (going : aringResetting s fn = false) : aringDisable s fn = match getLocal s fn 0 with
      | none => modFn s fn disabled
      | some r => startRingReset (modFn (modFn s fn disabled) fn fun f => { f with aringRelease := true }) r.g none := by
  have allowed : ¬ (fnFunc fn ≠ 0 ∨ (!f.aringEn) = true ∨ aringResetting s fn = true) := by simp [on, pf, going]
  simp only [aringDisable, found, if_neg allowed]
  rfl

/-- With no completion kept for a ring, dropping them leaves its function's list. -/
theorem dropKept_none {s : State} {g fn : Nat} {r : Ring} {f : HostFn} (ring : getRing s g = some r) (owner : r.fn = fn) (found : getFn s fn = some f)
    (none_ : f.kept = []) : dropKept s g = modFn s fn fun f => { f with kept := f.kept.filter fun k => k.ring != g } := by
  simp only [dropKept, ring, owner, found, Option.map_some, Option.getD_some, none_, List.filter_nil, List.foldl_nil]

/-- Settles O23: each write by its branch, the disable through the reset it starts. -/
theorem adminRingControl : Obligations.AdminRingControl := by
  unfold Obligations.AdminRingControl
  refine ⟨fun s fn f found lit pf going off a b c d e => ?_, fun s fn f found lit pf going off bad => ?_, fun s fn f b found ready day fatal going => ?_,
    fun s fn f r found lit on pf ring active => ?_, fun s fn f r found lit on pf going ring ctxs kept own owner => ?_,
    fun s fn f r found lit on pf going ring => ?_, fun s fn f found lit on pf going ring => ?_⟩
  · have run : aringEnable s fn = modFn s fn fun f => { f with aringEn := true, aringCfgErr := false, aringReadyAt := some (s.beat + 2) } := by
      have allowed : ¬ (fnFunc fn ≠ 0 ∨ aringResetting s fn = true) := by simp [pf, going]
      simp only [aringEnable, found, if_neg allowed, off, Bool.false_eq_true, if_false, a, b, c, d, e, and_self, if_true]
    exact ⟨_, (aringEnable_runs lit).trans (congrArg _ run), rfl,
      getFn_changed (h := fun f => { f with aringEn := true, aringCfgErr := false, aringReadyAt := some (s.beat + 2) }) found⟩
  · have run : aringEnable s fn = modFn s fn fun f => { f with aringEn := false, aringCfgErr := true } := by
      have allowed : ¬ (fnFunc fn ≠ 0 ∨ aringResetting s fn = true) := by simp [pf, going]
      have wrong : ¬ (4 ≤ bits f.aringCfg.toNat 3 0 ∧ bits f.aringCfg.toNat 3 0 ≤ 12 ∧ 4 ≤ bits f.aringCfg.toNat 7 4 ∧
          bits f.aringCfg.toNat 7 4 ≤ 12 ∧ bits f.aringCfg.toNat 26 16 < f.vectors) := by omega
      simp only [aringEnable, found, if_neg allowed, off, Bool.false_eq_true, if_false, if_neg wrong]
    exact ⟨_, (aringEnable_runs lit).trans (congrArg _ run), rfl, getFn_changed (h := fun f => { f with aringEn := false, aringCfgErr := true }) found⟩
  · obtain ⟨r, hr⟩ : ∃ r : Ring, r = { Ring.fresh (fnLink fn) fn 0 with
            admin := true, hold := bit f.aringCfg.toNat 8, nosnoopOk := bit f.aringCfg.toNat 10, sqBase := f.aringSq, cqBase := f.aringCq,
            sqLog2 := bits f.aringCfg.toNat 3 0, cqLog2 := bits f.aringCfg.toNat 7 4, vector := bits f.aringCfg.toNat 26 16 } := ⟨_, rfl⟩
    have run : exec (.aringReady fn) s = .next (addRing (modFn s fn fun f => { f with aringReadyAt := none }) r) := by
      have go : ¬ (f.aringReadyAt.isNone = true ∨ s.day.day = .dawn ∨ s.day.fatal = true ∨ f.resetting = true) := by simp [ready, day, fatal, going]
      refine congrArg Host.Outcome.next ?_
      simp only [found, if_neg go, hr]
    refine ⟨_, run, rfl, getFn_changed (h := fun f => { f with aringReadyAt := none }) found, r, rfl, ?_⟩
    rw [hr]
    exact ⟨rfl, rfl, rfl, rfl, rfl, rfl, rfl, rfl, rfl, rfl⟩
  · refine congrArg Host.Outcome.next ?_
    simp only [lit, Bool.false_and, Bool.false_eq_true, if_false, found, Option.map_some, Option.getD_some, on, if_true, aringReset, ring, pf, active, and_self]
  · have run := aringDisable_runs (fn := fn) lit
    rw [aringDisable_allowed found on pf going, ring] at run
    obtain ⟨u, hu⟩ : ∃ u, u = modFn (modFn s fn disabled) fn fun f => { f with aringRelease := true } := ⟨_, rfl⟩
    have own' : getFn u fn = some { disabled f with aringRelease := true } := by
      rw [hu]
      exact getFn_changed (getFn_changed (h := disabled) found)
    have marked : getRing (markResetting u r.g none) r.g = some { r with st := .resetting, held := none, rst := some { r.rst.getD RingReset.none with at_ := u.beat, byCtx := none } } :=
      getRing_changed (by rw [hu]; exact own)
    have fnd : getFn (markResetting u r.g none) fn = some { disabled f with aringRelease := true } := own'
    have started : startRingReset u r.g none = modFn (markResetting u r.g none) fn fun f => { f with kept := f.kept.filter fun k => k.ring != r.g } := by
      have drop := dropKept_none marked owner fnd kept
      have empty : (dropKept (markResetting u r.g none) r.g).ctxs = [] := by
        rw [drop, hu]
        exact ctxs
      simp only [startRingReset, empty, List.filter_nil, List.foldl_nil]
      exact drop
    rw [← hu] at run
    refine ⟨_, run.trans (congrArg _ started), by rw [hu]; rfl, ?_, _, marked, rfl, rfl⟩
    have last := getFn_changed (h := fun f => { f with kept := f.kept.filter fun k => k.ring != r.g }) fnd
    rw [last]
    simp only [disabled, kept, List.filter_nil]
  · have run := aringDisable_runs (fn := fn) lit
    rw [aringDisable_allowed found on pf going, ring] at run
    exact run
  · have run := aringDisable_runs (fn := fn) lit
    rw [aringDisable_allowed found on pf going, ring] at run
    exact ⟨_, run, rfl, getFn_changed (h := disabled) found⟩

end Sys2Proof.Proofs
end

section
/-! PROOF. What the end of a command or of a ring leaves: links, media, care work, power, day, sensors, SRAM and the queue. -/

namespace Sys2Proof.Proofs

open Sys2Proof Sys2Proof.Machine Sys2Proof.Safety Sys2Proof.Laws

/-- The components that no command's end and no ring's removal touches. -/
structure Hull where
  beat : Nat
  beatFrac : Nat
  links : Vector HostLink 6
  media : Media
  care : Care
  power : Power
  day : Day
  therm : Therm
  mem : Mem
  pending : List Instr
  engines : Vector Engine 4
  busErrors : Nat

/-- A mover engine without its descriptors. -/
def bare (e : Engine) : Engine := { e with descs := [] }

/-- What a state holds of these. -/
def hull (s : State) : Hull :=
  ⟨s.beat, s.beatFrac, s.links, s.media, s.care, s.power, s.day, s.therm, s.mem, s.pending, s.movers.eng.map bare, s.movers.busErrors⟩

@[simp] theorem updFns_hull (s : State) (f) : hull (s.updFns f) = hull s := rfl
@[simp] theorem updRings_hull (s : State) (f) : hull (s.updRings f) = hull s := rfl
@[simp] theorem updPlan_hull (s : State) (f) : hull (s.updPlan f) = hull s := rfl
@[simp] theorem updCtxs_hull (s : State) (f) : hull (s.updCtxs f) = hull s := rfl
@[simp] theorem updZci_hull (s : State) (f) : hull (s.updZci f) = hull s := rfl
@[simp] theorem updXlat_hull (s : State) (f) : hull (s.updXlat f) = hull s := rfl
@[simp] theorem updFlash_hull (s : State) (f) : hull (s.updFlash f) = hull s := rfl
@[simp] theorem updTwin_hull (s : State) (f) : hull (s.updTwin f) = hull s := rfl
@[simp] theorem updCane_hull (s : State) (f) : hull (s.updCane f) = hull s := rfl
@[simp] theorem updNor_hull (s : State) (f) : hull (s.updNor f) = hull s := rfl
@[simp] theorem updSec_hull (s : State) (f) : hull (s.updSec f) = hull s := rfl
@[simp] theorem updSide_hull (s : State) (f) : hull (s.updSide f) = hull s := rfl
@[simp] theorem updNv_hull (s : State) (f) : hull (s.updNv f) = hull s := rfl
@[simp] theorem updDue_hull (s : State) (f) : hull (s.updDue f) = hull s := rfl
@[simp] theorem updOut_hull (s : State) (f) : hull (s.updOut f) = hull s := rfl
@[simp] theorem updFreeCtr_hull (s : State) (f) : hull (s.updFreeCtr f) = hull s := rfl

theorem foldl_hull {α : Type} {f : State → α → State} (keeps : ∀ s a, hull (f s a) = hull s) (l : List α) (s : State) : hull (l.foldl f s) = hull s := by
  induction l generalizing s with
  | nil => rfl
  | cons a l ih => rw [List.foldl_cons, ih, keeps]

theorem updMovers_hull (s : State) {f : Movers → Movers} (engines : (f s.movers).eng.map bare = s.movers.eng.map bare)
    (errors : (f s.movers).busErrors = s.movers.busErrors) : hull (s.updMovers f) = hull s := by
  simp only [hull, State.updMovers, engines, errors]

theorem modEngine_hull (s : State) (e : Nat) {f : Engine → Engine} (keeps : ∀ g, bare (f g) = bare g) : hull (modEngine s e f) = hull s := by
  refine updMovers_hull s (Vector.ext fun i small => ?_) rfl
  simp only [vset, vget, Vector.getElem_map, Vector.getElem_setIfInBounds]
  split
  · next same =>
    subst same
    rw [keeps, Vector.getElem?_eq_getElem small, Option.getD_some]
  · rfl

@[simp] theorem modFn_hull (s : State) (n f) : hull (modFn s n f) = hull s := rfl
@[simp] theorem modRing_hull (s : State) (g f) : hull (modRing s g f) = hull s := rfl
@[simp] theorem modCtx_hull (s : State) (c f) : hull (modCtx s c f) = hull s := rfl
@[simp] theorem modSession_hull (s : State) (k f) : hull (modSession s k f) = hull s := rfl
@[simp] theorem emit_hull (s : State) (o) : hull (emit s o) = hull s := rfl
@[simp] theorem storeNv_hull (s : State) (id v) : hull (storeNv s id v) = hull s := rfl
@[simp] theorem queueFrame_hull (s : State) (p n o) : hull (queueFrame s p n o) = hull s := modEngine_hull _ _ fun _ => rfl
@[simp] theorem releaseBookings_hull (s : State) (a) : hull (releaseBookings s a) = hull s := rfl
@[simp] theorem sweepGather_hull (s : State) : hull (sweepGather s) = hull s := rfl
@[simp] theorem freeRing_hull (s : State) (g) : hull (freeRing s g) = hull s := rfl
@[simp] theorem renameRing_hull (s : State) (g h) : hull (renameRing s g h) = hull s := rfl
@[simp] theorem countAbort_hull (s : State) : hull (countAbort s) = hull s := rfl
@[simp] theorem tellCall_hull (s : State) (a m) : hull (tellCall s a m) = hull s := rfl
@[simp] theorem addCounts_hull (s : State) (c k) : hull (addCounts s c k) = hull s := rfl
@[simp] theorem sidebandDone_hull (s : State) (a b c d e f g) : hull (sidebandDone s a b c d e f g) = hull s := rfl
@[simp] theorem keepCompletion_hull (s : State) (n k) : hull (keepCompletion s n k) = hull s := rfl
@[simp] theorem sendPunty_hull (s : State) (t a b c d) : hull (sendPunty s t a b c d) = hull s := queueFrame_hull ..

@[simp] theorem countGone_hull (s : State) (fn g k) : hull (countGone s fn g k) = hull s :=
  foldl_hull (fun s c => addCounts_hull s c k) _ s

@[simp] theorem countFnReset_hull (s : State) (fn g st) : hull (countFnReset s fn g st) = hull s := countGone_hull ..

@[simp] theorem sendMsix_hull (s : State) (n v) : hull (sendMsix s n v) = hull s := by
  unfold sendMsix
  repeat' split
  all_goals simp

@[simp] theorem coalesce_hull (s : State) (g) : hull (coalesce s g) = hull s := by
  unfold coalesce
  repeat' split
  all_goals simp

@[simp] theorem writeCompletion_hull (s : State) (g a b c d e f h) : hull (writeCompletion s g a b c d e f h) = hull s := by
  unfold writeCompletion
  split <;> simp

@[simp] theorem caneFrame_hull (s : State) (a b c d e) : hull (caneFrame s a b c d e) = hull s := by
  unfold caneFrame
  repeat' split
  all_goals simp

@[simp] theorem canePump_hull (s : State) (sid) : hull (canePump s sid) = hull s := by
  unfold canePump
  repeat' split
  · rfl
  · rfl
  · refine foldl_hull (fun s m => foldl_hull (fun s b => ?_) _ s) _ s
    repeat' split
    all_goals simp

@[simp] theorem caneQueue_hull (s : State) (a b c d e f) : hull (caneQueue s a b c d e f) = hull s := by
  unfold caneQueue
  simp

@[simp] theorem sendRep_hull (s : State) (a b c d e f) : hull (sendRep s a b c d e f) = hull s := by
  unfold sendRep
  exact ite_agree hull (tellCall_hull ..) (by simp)

@[simp] theorem afterAdm_hull (s : State) (x) : hull (afterAdm s x) = hull s := by
  unfold afterAdm
  dsimp only
  repeat' split
  all_goals simp

@[simp] theorem endCtx_hull (s : State) (c) : hull (endCtx s c) = hull s := by
  unfold endCtx
  split
  · rfl
  · simp [apply_ite hull]

@[simp] theorem complete_hull (s : State) (x) : hull (complete s x) = hull s := by
  unfold complete
  dsimp only
  repeat' split
  all_goals simp

@[simp] theorem tryComplete_hull (s : State) (c) : hull (tryComplete s c) = hull s := by
  unfold tryComplete
  repeat' split
  all_goals simp

@[simp] theorem discardAtom_hull (s : State) (x) : hull (discardAtom s x) = hull s := by
  unfold discardAtom
  simp [apply_ite hull]

@[simp] theorem fixEnd_hull (s : State) (a b c d) : hull (fixEnd s a b c d) = hull s := by
  unfold fixEnd
  repeat' split
  all_goals simp

@[simp] theorem endWith_hull (s : State) (a b c d) : hull (endWith s a b c d) = hull s := by
  unfold endWith
  simp

@[simp] theorem abortCtx_hull (s : State) (c) : hull (abortCtx s c) = hull s := by
  unfold abortCtx
  simp

@[simp] theorem stopCommand_hull (s : State) (x) : hull (stopCommand s x) = hull s := by
  unfold stopCommand
  repeat' split
  all_goals simp

@[simp] theorem dropKept_hull (s : State) (g) : hull (dropKept s g) = hull s := by
  unfold dropKept
  split
  · rfl
  · refine (foldl_hull (fun s k => ?_) _ _).trans (modFn_hull ..)
    split <;> simp

@[simp] theorem passCounts_hull (s : State) (r) : hull (passCounts s r) = hull s := by
  unfold passCounts
  split <;> simp

@[simp] theorem removeRing_hull (s : State) (g) : hull (removeRing s g) = hull s := by
  unfold removeRing
  split
  · rfl
  · refine (foldl_hull stopCommand_hull _ _).trans ?_
    simp [apply_ite hull]

theorem getLink_of_hull {s t : State} (same : hull t = hull s) (l : Nat) : getLink t l = getLink s l :=
  congrArg (fun h : Hull => vget h.links l HostLink.init) same

end Sys2Proof.Proofs

end

section
/-! PROOF. O24: the host links come and go. -/

namespace Sys2Proof.Proofs

open Sys2Proof Sys2Proof.Machine Sys2Proof.Safety Sys2Proof.Laws

theorem vget_vset_ne {α : Type} {n i k : Nat} (v : Vector α n) (x d : α) (h : k ≠ i) : vget (vset v i x) k d = vget v k d := by
  simp only [vget, vset, Vector.getElem?_setIfInBounds, if_neg (Ne.symm h)]

theorem getLink_modLink (s : State) {l : Nat} (h : l < 6) (f : HostLink → HostLink) : getLink (modLink s l f) l = f (getLink s l) :=
  vget_vset_same _ _ _ h

theorem getLink_modLink_ne (s : State) {l k : Nat} (h : k ≠ l) (f : HostLink → HostLink) : getLink (modLink s l f) k = getLink s k :=
  vget_vset_ne _ _ _ h

theorem mem_insertBy {α : Type} (key : α → Nat) (x y : α) (l : List α) : y ∈ insertBy key x l ↔ y = x ∨ y ∈ l := by
  induction l with
  | nil => simp [insertBy]
  | cons z l ih =>
    unfold insertBy
    split
    · simp
    · simp only [List.mem_cons, ih]
      exact or_left_comm

theorem mem_addFn (s : State) (f g : HostFn) : g ∈ (addFn s f).fns ↔ g = f ∨ g ∈ s.fns := mem_insertBy _ _ _ _

theorem addFn_eq (s : State) (f : HostFn) : addFn s f = { s with fns := (addFn s f).fns } := rfl

theorem functionReset_absent {s : State} {n : Nat} (absent : getFn s n = none) (by_ : Option Nat) : functionReset s n by_ = s := by
  unfold functionReset
  rw [absent]
  rfl

/-- A function reset moves the links only by the state of its own function 0's link. -/
theorem functionReset_hull (s : State) (n : Nat) (by_ : Option Nat) :
    hull (functionReset s n by_) = hull s ∨ fnFunc n = 0 ∧ ∃ t f, hull t = hull s ∧ functionReset s n by_ = modLink t (fnLink n) f := by
  unfold functionReset
  split
  · exact .inl rfl
  · dsimp only
    have same : ∀ (a b : State → Nat → State) (c : State → List Nat) (ns : List Nat), (∀ s k, hull (a s k) = hull s) → (∀ s k, hull (b s k) = hull s) →
        hull (ns.foldl b ((c (ns.foldl a s)).foldl removeRing (ns.foldl a s))) = hull s := fun a b c ns ha hb => by
      rw [foldl_hull hb, foldl_hull removeRing_hull, foldl_hull ha]
    split
    · rename_i pf
      exact .inr ⟨pf.1, _, _, same _ _ (fun u => (u.rings.filter fun r => (resetSet s n).contains r.fn).map Ring.g) _
        (fun _ _ => modFn_hull ..) (fun _ _ => modFn_hull ..), rfl⟩
    · exact .inl (same _ _ (fun u => (u.rings.filter fun r => (resetSet s n).contains r.fn).map Ring.g) _
        (fun _ _ => modFn_hull ..) (fun _ _ => modFn_hull ..))

theorem functionReset_vf_hull (s : State) {n : Nat} (vf : fnFunc n ≠ 0) (by_ : Option Nat) : hull (functionReset s n by_) = hull s :=
  (functionReset_hull s n by_).resolve_right fun h => vf h.1

theorem getLink_functionReset_ne (s : State) {l k : Nat} (other : k ≠ l) (by_ : Option Nat) :
    getLink (functionReset s (64 * l) by_) k = getLink s k := by
  rcases functionReset_hull s (64 * l) by_ with h | ⟨-, t, f, ht, h⟩
  · exact getLink_of_hull h k
  · have link : fnLink (64 * l) = l := Nat.mul_div_cancel_left l (by decide)
    rw [h, link, getLink_modLink_ne _ other, getLink_of_hull ht]

theorem linkDown_down (s : State) {l : Nat} (h : l < 6) : (getLink (linkDown s l) l).st = 0 := by
  unfold linkDown
  split
  · rw [getLink_modLink _ h]
  · dsimp only
    rw [getLink_modLink _ h]

theorem getLink_linkDown_ne (s : State) {l k : Nat} (other : k ≠ l) : getLink (linkDown s l) k = getLink s k := by
  unfold linkDown
  split
  · rw [getLink_modLink_ne _ other]
  · dsimp only
    rw [getLink_modLink_ne _ other, getLink_functionReset_ne _ other, getLink_modLink_ne _ other]

/-- A link without functions that goes down touches no other component. -/
theorem linkDown_absent {s : State} {l : Nat} (absent : getFn s (64 * l) = none) : linkDown s l = { s with links := (linkDown s l).links } := by
  unfold linkDown
  split
  · rfl
  · dsimp only
    rw [functionReset_absent (show getFn (modLink s l _) (64 * l) = none from absent)]
    rfl

theorem linkDown_counts {s : State} {l : Nat} (h : l < 6) (absent : getFn s (64 * l) = none) (up : 2 ≤ (getLink s l).st) :
    getLink (linkDown s l) l = { getLink s l with downs := satAdd (getLink s l).downs 1, st := 0, rate := 0, width := 0, flit := false, numVfs := 0, vfEnable := false, aspmL1 := false, inL1 := false, usbMode := 0 } := by
  unfold linkDown
  rw [if_neg (Nat.not_lt.mpr up)]
  dsimp only
  rw [functionReset_absent (show getFn (modLink s l _) (64 * l) = none from absent), getLink_modLink _ h, getLink_modLink _ h]

/-- What PERSTp_N does to one link of its port (R349). -/
def perstLink (port : Nat) (s : State) (l : Nat) : State :=
  modLink (linkDown s l) l fun k =>
    { k with perst := true, trainFrom := none, mode2x8 := bit (nvVal s 0x0A000001) port, sris := bit (nvVal s 0x0A000002) port }

theorem perstAssert_next {p : Nat} (h : p < 2) (s : State) :
    exec (.perstAssert p) s = .next (perstLink p (perstLink p s (2 * p)) (2 * p + 1)) :=
  congrArg Host.Outcome.next (if_neg (Nat.not_le.mpr h))

theorem perstLink_ne (p : Nat) (s : State) {l k : Nat} (other : k ≠ l) : getLink (perstLink p s l) k = getLink s k := by
  unfold perstLink
  rw [getLink_modLink_ne _ other, getLink_linkDown_ne _ other]

theorem perstLink_held (p : Nat) (s : State) {l : Nat} (h : l < 6) :
    (getLink (perstLink p s l) l).st = 0 ∧ (getLink (perstLink p s l) l).perst = true ∧ (getLink (perstLink p s l) l).trainFrom = none ∧
      (getLink (perstLink p s l) l).mode2x8 = bit (nvVal s 0x0A000001) p := by
  unfold perstLink
  rw [getLink_modLink _ h]
  exact ⟨linkDown_down s h, rfl, rfl, rfl⟩

theorem perstLink_absent (p : Nat) {s : State} {l : Nat} (absent : getFn s (64 * l) = none) :
    perstLink p s l = { s with links := (perstLink p s l).links } := by
  unfold perstLink
  obtain ⟨v, hv⟩ : ∃ v, linkDown s l = { s with links := v } := ⟨_, linkDown_absent absent⟩
  rw [hv]
  rfl

theorem mem_addVfs (s : State) (link k : Nat) {i : Nat} (first : 1 ≤ i) (last : i ≤ k) : ∃ f, f ∈ (addVfs s link k).fns ∧ f.n = 64 * link + i := by
  induction k with
  | zero => omega
  | succ k ih =>
    have step : addVfs s link (k + 1) = addFn (addVfs s link k) (newFn (64 * link + k + 1) (nvVal (addVfs s link k) 0x0A000005)) := by
      unfold addVfs
      rw [List.range_succ, List.foldl_append]
      rfl
    rw [step]
    by_cases top : i = k + 1
    · subst top
      exact ⟨_, (mem_addFn _ _ _).mpr (.inl rfl), rfl⟩
    · obtain ⟨f, mem, n⟩ := ih (by omega)
      exact ⟨f, (mem_addFn _ _ _).mpr (.inr mem), n⟩

theorem addVfs_eq (s : State) (link k : Nat) : addVfs s link k = { s with fns := (addVfs s link k).fns } := by
  unfold addVfs
  generalize List.range k = l
  induction l generalizing s with
  | nil => rfl
  | cons i l ih =>
    rw [List.foldl_cons]
    exact ih (addFn s (newFn (64 * link + i + 1) (nvVal s 0x0A000005)))

theorem vfReset_hull (s : State) (link : Nat) (ns : List Nat) :
    hull ((ns.filter fun n => fnLink n == link && fnFunc n != 0).foldl (fun s n => functionReset s n none) s) = hull s := by
  induction ns generalizing s with
  | nil => rfl
  | cons n ns ih =>
    rw [List.filter_cons]
    split
    · rename_i vf
      rw [List.foldl_cons, ih]
      exact functionReset_vf_hull s (by simpa using (Bool.and_eq_true_iff.mp vf).2) none
    · exact ih s

theorem linkUp_runs {s : State} {l r w : Nat} {fl : Bool} (h : l < 4) (train : mayTrain s l = true) (down : (getLink s l).st < 2) (free : linkHasFns s l = false)
    (rate : r ≤ 5) (floor : bits (nvVal s 0x0A000003) (3 * (l / 2) + 2) (3 * (l / 2)) ≤ r) (width : widthOk s l w = true) :
    exec (.linkUp l r w fl) s = .next (addFn (modLink s l fun l => { l with st := 2, rate := r, width := w, flit := fl || r == 0, aspmL1 := true, inL1 := false })
      (newFn (64 * l) 2048)) := by
  refine congrArg Host.Outcome.next (if_neg ?_)
  rw [train, free, width]
  simp only [Bool.not_true, Bool.false_eq_true, false_or, or_false]
  omega

theorem usb4TunnelUp_runs {s : State} {p m : Nat} (h : p < 2) (mode : m < 5) (lit : s.day.hostOn = true) (enabled : bit (nvVal s 0x0A000004) p = true)
    (entered : (getLink s (4 + p)).usbEntered = true) (down : (getLink s (4 + p)).st < 2) (free : linkHasFns s (4 + p) = false) :
    exec (.usb4TunnelUp p m) s = .next (addFn (modLink s (4 + p) fun k => { k with st := 2, rate := m, width := usbLanes m, usbMode := m }) (newFn (64 * (4 + p)) 2048)) := by
  refine congrArg Host.Outcome.next (if_neg ?_)
  rw [lit, enabled, entered, free]
  simp only [Bool.not_true, Bool.false_eq_true, false_or, or_false]
  omega

theorem linkDown_next {s : State} {l : Nat} (h : l < 6) : exec (.linkDown l) s = .next (linkDown s l) :=
  congrArg Host.Outcome.next (if_neg (Nat.not_le.mpr h))

theorem usb4TunnelDown_next {s : State} {p : Nat} (h : p < 2) : exec (.usb4TunnelDown p) s = .next (linkDown s (4 + p)) :=
  congrArg Host.Outcome.next (if_neg (Nat.not_le.mpr h))

theorem perstDeassert_next {s : State} {p : Nat} (h : p < 2) (held : (getLink s (2 * p)).perst = true)
    (day : s.day.day = .noon ∨ s.day.day = .dusk) (fatal : s.day.fatal = false) :
    exec (.perstDeassert p) s = .next (modLink (modLink s (2 * p) fun k => { k with perst := false, trainFrom := some (s.beat + 5000) }) (2 * p + 1)
      fun k => { k with perst := false, trainFrom := some (s.beat + 5000) }) := by
  refine congrArg Host.Outcome.next ((if_neg ?_).trans ?_)
  · rw [held]
    simpa using h
  · exact wake_of_day day fatal

theorem enterUsb_source {s : State} {p : Nat} {m : List Byte} (h : p < 2) (lit : s.day.hostOn = true) (objects : 0 < bits (field m 0 2) 14 12)
    (typ : bits (field m 0 2) 4 0 = 1) : exec (.enterUsb p m) s = .next (emit s (.pd (pdMessage 2 [2 ^ 28]))) := by
  refine congrArg Host.Outcome.next ((if_neg ?_).trans (if_pos ⟨objects, typ⟩))
  rw [lit]
  simpa using h

theorem enterUsb_enters {s : State} {p : Nat} {m : List Byte} (h : p < 2) (lit : s.day.hostOn = true) (objects : 0 < bits (field m 0 2) 14 12)
    (typ : bits (field m 0 2) 4 0 = 8) (usb4 : bits (field m 2 4) 30 28 = 2) :
    exec (.enterUsb p m) s = .next (emit (modLink s (4 + p) fun l => { l with usbEntered := true }) (.pd (pdMessage 3 []))) := by
  refine congrArg Host.Outcome.next ((if_neg ?_).trans ((if_neg ?_).trans ((if_neg ?_).trans (if_pos ⟨objects, typ, usb4⟩))))
  · rw [lit]
    simpa using h
  · rw [typ]
    simp
  · rw [typ]
    simp

/-- Discover Identity answers with the four objects of R359. -/
theorem enterUsb_identity {s : State} {p : Nat} {m : List Byte} (h : p < 2) (lit : s.day.hostOn = true) (objects : 0 < bits (field m 0 2) 14 12)
    (typ : bits (field m 0 2) 4 0 = 15) (svid : bits (field m 2 4) 31 16 = 0xFF00) (cmd : bits (field m 2 4) 4 0 = 1) (req : bits (field m 2 4) 7 6 = 0) :
    ∃ l, l.length = 4 ∧ exec (.enterUsb p m) s = .next (emit (s.updFreeCtr (· + 3)) (.pd (pdMessage 15 l))) := by
  refine ⟨[0xFF008041, (Config.freeValue s.freeCtr).toNat % 2 ^ 32, (Config.freeValue (s.freeCtr + 1)).toNat % 2 ^ 32, (Config.freeValue (s.freeCtr + 1 + 1)).toNat % 2 ^ 32],
    rfl, congrArg Host.Outcome.next ((if_neg ?_).trans ((if_neg ?_).trans ((if_pos ⟨objects, typ, svid, cmd, req⟩).trans rfl)))⟩
  · rw [lit]
    simpa using h
  · rw [typ]
    simp

theorem vfEnable_enables {s : State} {l k : Nat} (h : l < 6) (up : (getLink s l).st = 2) (pf : (getFn s (64 * l)).isSome = true)
    (off : (getLink s l).vfEnable = false) (none_ : (s.fns.any fun f => fnLink f.n == l && fnFunc f.n != 0) = false) (total : k ≤ totalVfs s l) :
    exec (.vfEnable l true k) s = .next (addVfs (modLink s l fun l => { l with numVfs := k, vfEnable := true }) l k) := by
  refine congrArg Host.Outcome.next ((if_neg ?_).trans ?_)
  · rw [up, Option.isNone_eq_false_iff.mpr pf]
    simpa using h
  · dsimp only
    rw [off, none_, if_pos total]
    rfl

theorem vfEnable_disables {s : State} {l k : Nat} (h : l < 6) (up : (getLink s l).st = 2) (pf : (getFn s (64 * l)).isSome = true)
    (on : (getLink s l).vfEnable = true) :
    exec (.vfEnable l false k) s = .next (modLink (((s.fns.map HostFn.n).filter fun n => fnLink n == l && fnFunc n != 0).foldl
      (fun s n => functionReset s n none) s) l fun l => { l with vfEnable := false }) := by
  refine congrArg Host.Outcome.next ((if_neg ?_).trans ?_)
  · rw [up, Option.isNone_eq_false_iff.mpr pf]
    simpa using h
  · dsimp only
    rw [on]
    rfl

theorem vfEnable_enabled {s : State} {l k : Nat} (on : (getLink s l).vfEnable = true) : exec (.vfEnable l true k) s = .next s := by
  refine congrArg Host.Outcome.next ?_
  dsimp only
  split
  · rfl
  · exact if_pos rfl

/-- Settles O24, from what a link's fall and a function reset leave of the links. -/
theorem hostLinksComeAndGo : Obligations.HostLinksComeAndGo := by
  unfold Obligations.HostLinksComeAndGo
  refine ⟨?linkUp, ?linkDown, ?linkDownOther, ?perst, ?perstAbsent, ?perstEnd, ?tunnelUp, ?tunnelDown, ?tunnelSt, ?source, ?identity, ?enters, ?vfOn, ?vfOff, ?vfKept⟩
  case linkUp =>
    intro s l r w fl h train down free rate floor width
    refine ⟨_, linkUp_runs h train down free rate floor width, rfl, ?_⟩
    have link := getLink_modLink s (show l < 6 by omega) fun l => { l with st := 2, rate := r, width := w, flit := fl || r == 0, aspmL1 := true, inL1 := false }
    refine ⟨congrArg HostLink.st link, congrArg HostLink.rate link, congrArg HostLink.width link, ?_⟩
    exact ⟨⟨_, (mem_addFn _ _ _).mpr (.inl rfl), rfl, rfl⟩, fun f mem => (mem_addFn _ _ _).mpr (.inr mem)⟩
  case linkDown =>
    intro s l h absent up
    refine ⟨_, linkDown_next h, linkDown_absent absent, ?_⟩
    rw [linkDown_counts h absent up]
    exact ⟨rfl, rfl, rfl, rfl, rfl, fun k _ other => getLink_linkDown_ne s other⟩
  case linkDownOther =>
    intro s l h
    exact ⟨_, linkDown_next h, linkDown_down s h, fun k _ other => getLink_linkDown_ne s other⟩
  case perst =>
    intro s p h
    refine ⟨_, perstAssert_next h s, ?_, fun k _ other => ?_⟩
    · rintro l (rfl | rfl)
      · rw [perstLink_ne p _ (by omega)]
        obtain ⟨st, perst, train, -⟩ := perstLink_held p s (show 2 * p < 6 by omega)
        exact ⟨st, perst, train⟩
      · obtain ⟨st, perst, train, -⟩ := perstLink_held p (perstLink p s (2 * p)) (show 2 * p + 1 < 6 by omega)
        exact ⟨st, perst, train⟩
    · rw [perstLink_ne p _ (by omega), perstLink_ne p _ (by omega)]
  case perstAbsent =>
    intro s p h absent0 absent1
    obtain ⟨u, hu⟩ : ∃ u, u = perstLink p s (2 * p) := ⟨_, rfl⟩
    have first : u = { s with links := u.links } := by
      rw [hu]
      exact perstLink_absent p (by rw [show 64 * (2 * p) = 128 * p by omega]; exact absent0)
    have absent : getFn u (64 * (2 * p + 1)) = none := by
      rw [first, show 64 * (2 * p + 1) = 128 * p + 64 by omega]
      exact absent1
    have mode : nvVal u 0x0A000001 = nvVal s 0x0A000001 := by
      rw [first]
      rfl
    refine ⟨_, perstAssert_next h s, ?_, ?_⟩
    · rw [← hu, perstLink_absent p absent, first]
    · rintro l (rfl | rfl)
      · rw [perstLink_ne p _ (by omega)]
        exact perstLink_held p s (by omega)
      · rw [← hu, ← mode]
        exact perstLink_held p u (by omega)
  case perstEnd =>
    intro s p h held day fatal
    refine ⟨_, perstDeassert_next h held day fatal, rfl, ?_⟩
    rintro l (rfl | rfl)
    · rw [getLink_modLink_ne _ (by omega), getLink_modLink _ (by omega)]
      exact ⟨rfl, rfl⟩
    · rw [getLink_modLink _ (by omega)]
      exact ⟨rfl, rfl⟩
  case tunnelUp =>
    intro s p m h mode lit enabled entered down free
    have link := getLink_modLink s (show 4 + p < 6 by omega) fun k => { k with st := 2, rate := m, width := usbLanes m, usbMode := m }
    exact ⟨_, usb4TunnelUp_runs h mode lit enabled entered down free, rfl, congrArg HostLink.st link, congrArg HostLink.usbMode link,
      _, (mem_addFn _ _ _).mpr (.inl rfl), rfl⟩
  case tunnelDown =>
    intro s p h absent up
    refine ⟨_, usb4TunnelDown_next h, linkDown_absent absent, ?_⟩
    rw [linkDown_counts (by omega) absent up]
    exact ⟨rfl, rfl⟩
  case tunnelSt =>
    intro s p h
    exact ⟨_, usb4TunnelDown_next h, linkDown_down s (by omega)⟩
  case source =>
    intro s p m h lit objects typ
    exact ⟨_, enterUsb_source h lit objects typ, rfl⟩
  case identity =>
    intro s p m h lit objects typ svid cmd req
    obtain ⟨l, four, runs⟩ := enterUsb_identity h lit objects typ svid cmd req
    exact ⟨_, runs, rfl, l, four, rfl⟩
  case enters =>
    intro s p m h lit objects typ usb4
    refine ⟨_, enterUsb_enters h lit objects typ usb4, rfl, ?_, rfl⟩
    exact congrArg HostLink.usbEntered (getLink_modLink s (show 4 + p < 6 by omega) fun l => { l with usbEntered := true })
  case vfOn =>
    intro s l k h up pf off absent total
    have link := getLink_modLink s h fun l => { l with numVfs := k, vfEnable := true }
    have frame := addVfs_eq (modLink s l fun l => { l with numVfs := k, vfEnable := true }) l k
    have same : ∀ j, getLink (addVfs (modLink s l fun l => { l with numVfs := k, vfEnable := true }) l k) j =
        getLink (modLink s l fun l => { l with numVfs := k, vfEnable := true }) j := fun j => by
      rw [frame]
      rfl
    refine ⟨_, vfEnable_enables h up pf off absent total, ?_, ?_, ?_, fun i first last => mem_addVfs _ l k first last⟩
    · rw [frame]
      rfl
    · rw [same, link]
    · rw [same, link]
  case vfOff =>
    intro s l k h up pf on
    have resets := vfReset_hull s l (s.fns.map HostFn.n)
    refine ⟨_, vfEnable_disables h up pf on, ?_⟩
    dsimp only
    rw [getLink_modLink _ h, getLink_of_hull resets]
    refine ⟨rfl, up, fun j _ other => ?_⟩
    rw [getLink_modLink_ne _ other, getLink_of_hull resets]
  case vfKept =>
    intro s l k on
    exact vfEnable_enabled on

end Sys2Proof.Proofs

end

section
/-! PROOF. O25: functions in D3hot, their reset and its end, and a stopped command. -/

namespace Sys2Proof.Proofs

open Sys2Proof Sys2Proof.Machine Sys2Proof.Safety Sys2Proof.Laws

theorem foldl_keeps {α β : Type} (p : State → β) {f : State → α → State} (keeps : ∀ s a, p (f s a) = p s) (l : List α) (s : State) : p (l.foldl f s) = p s := by
  induction l generalizing s with
  | nil => rfl
  | cons a l ih => rw [List.foldl_cons, ih, keeps]

/-! What the end of a command leaves of the functions. -/

@[simp] theorem countGone_fns (s : State) (fn g k) : (countGone s fn g k).fns = s.fns :=
  foldl_keeps State.fns (fun s c => (rfl : (addCounts s c k).fns = s.fns)) _ s

@[simp] theorem caneFrame_fns (s : State) (a b c d e) : (caneFrame s a b c d e).fns = s.fns := by
  unfold caneFrame
  repeat' split
  all_goals rfl

@[simp] theorem canePump_fns (s : State) (sid) : (canePump s sid).fns = s.fns := by
  unfold canePump
  repeat' split
  · rfl
  · rfl
  · refine foldl_keeps State.fns (fun s m => foldl_keeps State.fns (fun s b => ?_) _ s) _ s
    repeat' split
    · rfl
    · exact caneFrame_fns ..
    · rfl

@[simp] theorem sendRep_fns (s : State) (a b c d e f) : (sendRep s a b c d e f).fns = s.fns := by
  unfold sendRep
  exact ite_agree State.fns rfl (canePump_fns ..)

@[simp] theorem afterAdm_fns (s : State) (x) : (afterAdm s x).fns = s.fns := by
  unfold afterAdm
  dsimp only
  repeat' split
  all_goals rfl

@[simp] theorem endCtx_fns (s : State) (c) : (endCtx s c).fns = s.fns := (congrArg State.fns (besideEnd_endCtx s c) :)

theorem getFn_of_fns {s t : State} (same : t.fns = s.fns) (n : Nat) : getFn t n = getFn s n := by rw [getFn, getFn, same]

/-- Function fn may be written and keeps no completion back (R352). -/
def Serves (fn : Nat) (s : State) : Prop := ∃ f, getFn s fn = some f ∧ f.d3hot = false ∧ f.busMaster = true ∧ f.kept = []

theorem Serves.of_fns {fn : Nat} {s t : State} (serves : Serves fn s) (same : t.fns = s.fns) : Serves fn t := by
  obtain ⟨f, found, rest⟩ := serves
  exact ⟨f, (getFn_of_fns same fn).trans found, rest⟩

theorem Serves.writable {fn : Nat} {s : State} (serves : Serves fn s) : fnWritable s fn = true := by
  obtain ⟨f, found, d3, bus, -⟩ := serves
  simp [fnWritable, found, HostFn.writable, d3, bus]

theorem Serves.modFn_pba {fn : Nat} {s : State} (serves : Serves fn s) (n : Nat) (p : HostFn → List Nat) :
    Serves fn (modFn s n fun f => { f with pba := p f }) := by
  obtain ⟨f, found, d3, bus, kept⟩ := serves
  refine ⟨_, getFn_modFn found n (h := fun f => { f with pba := p f }), ?_⟩
  split <;> exact ⟨d3, bus, kept⟩

theorem Serves.sendMsix {fn : Nat} {s : State} (serves : Serves fn s) (n v : Nat) : Serves fn (sendMsix s n v) := by
  obtain ⟨f, found, rest⟩ := serves
  obtain ⟨p, hp⟩ := getFn_sendMsix found n v
  exact ⟨_, hp, rest⟩

theorem Serves.coalesce {fn : Nat} {s : State} (serves : Serves fn s) (g : Nat) : Serves fn (coalesce s g) := by
  unfold Machine.coalesce
  repeat' split
  · exact serves
  · exact Serves.sendMsix (s := modRing s g _) serves _ _
  · exact serves

theorem Serves.writeCompletion {fn : Nat} {s : State} (serves : Serves fn s) (g : Nat) (st cid : BitVec 16) (d : BitVec 8) (res adm : BitVec 64)
    (line : Option Nat) (noIrq : Bool) : Serves fn (writeCompletion s g st cid d res adm line noIrq) := by
  unfold Machine.writeCompletion
  split
  · exact serves
  · exact Serves.coalesce (s := emit (modRing s g _) _) serves g

/-- What the completion of a command does: it ends the context, with a completion entry before or not, or keeps its completion where the function cannot
be written (R94, R352). -/
theorem complete_cases (s : State) (x : Ctx) :
    (∃ u, u.fns = s.fns ∧ complete s x = endCtx u x.c) ∨
    (∃ u g, u.fns = s.fns ∧ complete s x =
      endCtx (writeCompletion u g x.status x.entry.cid x.detail x.result (BitVec.ofNat 64 x.adm) x.slackTo x.entry.noIrq) x.c) ∨
    ∃ (r : Ring) (k : _), fnWritable s r.fn = false ∧ complete s x = keepCompletion s r.fn k := by
  obtain ⟨counted, hc⟩ : ∃ u, u = (afterAdm s x).updPlan fun p => { p with deepPending := satAdd p.deepPending (b2n (x.status == St.deepPending)) } := ⟨_, rfl⟩
  obtain ⟨posted, hp⟩ : ∃ u, u = if ((x.entry.isProg && dWrites x || x.entry.typ == 1 && x.entry.op == 2) && (x.status == St.ok || x.status == St.okRebuilt)) = true
    then counted.updSec fun k => { k with keyable := k.keyable.filter (· != x.entry.nsid.toNat) } else counted := ⟨_, rfl⟩
  have fc : counted.fns = s.fns := by
    rw [hc]
    exact afterAdm_fns s x
  have fp : posted.fns = s.fns := by
    rw [hp]
    exact ite_agree State.fns fc fc
  unfold complete
  dsimp only
  rw [← hc, ← hp]
  split
  · exact .inl ⟨_, fc, rfl⟩
  · split
    · exact .inl ⟨sidebandDone posted _ _ _ _ _ _ _, fp, rfl⟩
    · exact .inl ⟨_, (sendRep_fns ..).trans fp, rfl⟩
    · split
      · exact .inl ⟨_, (countGone_fns ..).trans fc, rfl⟩
      · split
        · exact .inl ⟨_, fc, rfl⟩
        · split
          · exact .inl ⟨modRing counted _ _, fc, rfl⟩
          · split
            · exact .inr (.inl ⟨_, _, fp, rfl⟩)
            · next r _ _ _ off => exact .inr (.inr ⟨r, _, Bool.eq_false_iff.mpr off, rfl⟩)

theorem Serves.complete {fn : Nat} {s : State} (serves : Serves fn s) (x : Ctx) : Serves fn (complete s x) := by
  rcases complete_cases s x with ⟨u, same, e⟩ | ⟨u, g, same, e⟩ | ⟨r, k, off, e⟩
  · rw [e]
    exact (serves.of_fns same).of_fns (endCtx_fns ..)
  · rw [e]
    exact ((serves.of_fns same).writeCompletion ..).of_fns (endCtx_fns ..)
  · rw [e]
    have other : fn ≠ r.fn := fun same => by
      rw [← same, serves.writable] at off
      cases off
    obtain ⟨f, found, rest⟩ := serves
    refine ⟨f, (getFn_modFn found r.fn (h := fun f => { f with kept := _ })).trans (by rw [if_neg other]), rest⟩

theorem Serves.tryComplete {fn : Nat} {s : State} (serves : Serves fn s) (c : Nat) : Serves fn (tryComplete s c) := by
  unfold Machine.tryComplete
  repeat' split
  · exact serves
  · exact serves.complete _
  · exact serves

theorem Serves.writeKept {fn : Nat} {s : State} (serves : Serves fn s) (k : KeptCompletion) : Serves fn (writeKept s k) := by
  unfold Machine.writeKept
  split
  · exact serves.tryComplete _
  · exact serves.writeCompletion ..

theorem Serves.msixDrain {fn : Nat} {s : State} (serves : Serves fn s) (n v : Nat) : Serves fn (msixDrain s n v) := by
  unfold Machine.msixDrain
  repeat' split
  · exact serves
  · exact serves.modFn_pba n fun f => f.pba.filter (· != v)
  · exact serves

theorem Serves.foldl {fn : Nat} {α : Type} {f : State → α → State} (keeps : ∀ s a, Serves fn s → Serves fn (f s a)) (l : List α) {s : State} (serves : Serves fn s) :
    Serves fn (l.foldl f s) := by
  induction l generalizing s with
  | nil => exact serves
  | cons a l ih => exact ih (keeps s a serves)

theorem Serves.msixDrainAll {fn : Nat} {s : State} (serves : Serves fn s) (n : Nat) : Serves fn (msixDrainAll s n) := by
  unfold Machine.msixDrainAll
  split
  · exact serves
  · exact Serves.foldl (fun s v h => h.msixDrain n v) _ serves

/-! The messages that follow a completion are those of its function. -/

/-- What is sent between two states are messages of function fn. -/
def Messages (fn : Nat) (s t : State) : Prop := ∃ l : List Out, t.out = s.out ++ l ∧ ∀ o ∈ l, ∃ v a d, o = Out.msix fn v a d

theorem Messages.of_out {fn : Nat} {s t : State} (same : t.out = s.out) : Messages fn s t := ⟨[], by simpa using same, by simp⟩

theorem Messages.trans {fn : Nat} {s t u : State} (a : Messages fn s t) (b : Messages fn t u) : Messages fn s u := by
  obtain ⟨l, hl, ml⟩ := a
  obtain ⟨m, hm, mm⟩ := b
  exact ⟨l ++ m, by rw [hm, hl, List.append_assoc], fun o mem => (List.mem_append.mp mem).elim (ml o) (mm o)⟩

theorem sendMsix_messages (s : State) (n v : Nat) : Messages n s (sendMsix s n v) := by
  unfold sendMsix
  repeat' split
  · exact .of_out rfl
  · exact .of_out rfl
  · exact .of_out rfl
  · exact ⟨_, rfl, fun o mem => ⟨_, _, _, List.mem_singleton.mp mem⟩⟩

theorem msixDrain_messages (s : State) (n v : Nat) : Messages n s (msixDrain s n v) := by
  unfold msixDrain
  repeat' split
  · exact .of_out rfl
  · exact ⟨_, rfl, fun o mem => ⟨_, _, _, List.mem_singleton.mp mem⟩⟩
  · exact .of_out rfl

theorem msixDrainAll_messages (s : State) (n : Nat) : Messages n s (msixDrainAll s n) := by
  unfold msixDrainAll
  split
  · exact .of_out rfl
  · next f found =>
    clear found
    generalize f.pba = l
    induction l generalizing s with
    | nil => exact .of_out rfl
    | cons v l ih => exact (msixDrain_messages s n v).trans (ih _)

theorem msixDrain_frame (s : State) (n v : Nat) : msixDrain s n v = { s with fns := (msixDrain s n v).fns, out := (msixDrain s n v).out } := by
  unfold msixDrain
  repeat' split
  all_goals rfl

theorem msixDrainAll_frame (s : State) (n : Nat) : msixDrainAll s n = { s with fns := (msixDrainAll s n).fns, out := (msixDrainAll s n).out } := by
  unfold msixDrainAll
  split
  · rfl
  · next f found =>
    clear found
    generalize f.pba = l
    induction l generalizing s with
    | nil => rfl
    | cons v l ih =>
      rw [List.foldl_cons, ih, msixDrain_frame]

/-- A completion entry, and after it messages of its ring's function only. -/
theorem writeCompletion_messages {s : State} {g : Nat} {r : Ring} (found : getRing s g = some r) (status cid : BitVec 16) (detail : BitVec 8)
    (result adm : BitVec 64) (line : Option Nat) (noIrq : Bool) :
    ∃ l : List Out, (writeCompletion s g status cid detail result adm line noIrq).out =
      s.out ++ .completion g r.cqTail (entryOf s r status cid detail result adm line) :: l ∧ ∀ o ∈ l, ∃ v a d, o = Out.msix r.fn v a d := by
  have sends : ∀ (u : State) (q : Ring), getRing u g = some q → Messages q.fn u (coalesce u g) := fun u q hq => by
    unfold coalesce
    rw [hq]
    dsimp only
    split
    · exact sendMsix_messages (modRing u g _) _ _
    · exact .of_out rfl
  simp only [writeCompletion, found]
  obtain ⟨l, out, all⟩ := sends (emit (modRing s g fun r => { r with
    cqTail := (r.cqTail + 1) % r.cqSize
    phase := if r.cqTail + 1 = r.cqSize then !r.phase else r.phase
    oldest := if noIrq then r.oldest else if r.pend = 0 then s.beat else r.oldest
    pend := if noIrq then r.pend else r.pend + 1 }) (.completion g r.cqTail (entryOf s r status cid detail result adm line))) _ (getRing_changed found)
  exact ⟨l, out.trans (by simp [emit, modRing]), all⟩

theorem getCtx_endCtx_none (s : State) (c : Nat) : getCtx (endCtx s c) c = none := by
  rcases h : getCtx s c with - | x
  · unfold endCtx
    rw [h]
    exact h
  · exact getCtx_endCtx h

/-- A command that is completed is gone, or its completion is kept. -/
theorem getCtx_tryComplete {s : State} {c : Nat} {x : Ctx} (found : getCtx s c = some x) :
    getCtx (tryComplete s c) c = none ∨ getCtx (tryComplete s c) c = some x := by
  have number := getCtx_number found
  unfold tryComplete
  rw [found]
  dsimp only
  split
  · rcases complete_cases s x with ⟨u, -, e⟩ | ⟨u, g, -, e⟩ | ⟨r, k, -, e⟩
    · rw [e, number]
      exact .inl (getCtx_endCtx_none ..)
    · rw [e, number]
      exact .inl (getCtx_endCtx_none ..)
    · rw [e]
      exact .inr found
  · exact .inr found

/-! What the removal of a ring without commands leaves. -/

/-- A state without what the removal of rings changes. -/
def besideRings (s : State) : State :=
  { s with fns := [], rings := [], links := State.reset.links, nv := [], due := [], ctxs := [], plan := { s.plan with fetching := [], fetched := [], gone := [] } }

theorem eq_of_besideRings {s t : State} (h : besideRings t = besideRings s) :
    t = { s with fns := t.fns, rings := t.rings, links := t.links, nv := t.nv, due := t.due, ctxs := t.ctxs,
                 plan := { s.plan with fetching := t.plan.fetching, fetched := t.plan.fetched, gone := t.plan.gone } } :=
  calc t = { besideRings t with
      fns := t.fns, rings := t.rings, links := t.links, nv := t.nv, due := t.due, ctxs := t.ctxs,
      plan := { (besideRings t).plan with fetching := t.plan.fetching, fetched := t.plan.fetched, gone := t.plan.gone } } := rfl
    _ = _ := by rw [h]; rfl

/-- The number and the ring of each context. -/
def owners (s : State) : List (Nat × Option Nat) := s.ctxs.map fun y => (y.c, y.ringOf)

/-- No command has a completion kept. -/
def NoneKept (s : State) : Prop := ∀ f ∈ s.fns, ∀ k ∈ f.kept, k.ctx = none

/-- Function fn is being reset. -/
def Resets (fn : Nat) (s : State) : Prop := ∃ f, getFn s fn = some f ∧ f.resetting = true

theorem owners_modCtx (s : State) (c : Nat) {f : Ctx → Ctx} (keeps : ∀ y, (f y).c = y.c ∧ (f y).ringOf = y.ringOf) : owners (modCtx s c f) = owners s := by
  simp only [owners, modCtx, State.updCtxs, updIf, List.map_map]
  refine List.map_congr_left fun y _ => ?_
  simp only [Function.comp_apply]
  split
  · rw [(keeps y).1, (keeps y).2]
  · rfl

theorem NoneKept.modFn {s : State} (none_ : NoneKept s) (n : Nat) {h : HostFn → HostFn} (keeps : ∀ f, ∀ k ∈ (h f).kept, k ∈ f.kept) : NoneKept (modFn s n h) := by
  intro f mem k hk
  obtain ⟨g, hg, rfl⟩ := List.mem_map.mp mem
  dsimp only at hk
  split at hk
  · exact none_ g hg k (keeps g k hk)
  · exact none_ g hg k hk

theorem Resets.modFn {s : State} {fn : Nat} (resets : Resets fn s) (n : Nat) {h : HostFn → HostFn} (number : ∀ f, (h f).n = f.n)
    (keeps : ∀ f, f.resetting = true → (h f).resetting = true) : Resets fn (modFn s n h) := by
  obtain ⟨f, found, r⟩ := resets
  refine ⟨_, getFn_modFn found n number, ?_⟩
  split
  · exact keeps f r
  · exact r

/-- What a part of the removal of ring g leaves, where it has no command. -/
structure Removing (fn g : Nat) (s t : State) : Prop where
  beside : besideRings t = besideRings s
  owners : owners t = owners s
  rings : ∀ r ∈ t.rings, r.g ≠ g → r ∈ s.rings
  kept : NoneKept s → NoneKept t
  resets : Resets fn s → Resets fn t

theorem Removing.refl (fn g : Nat) (s : State) : Removing fn g s s := ⟨rfl, rfl, fun _ mem _ => mem, id, id⟩

theorem Removing.trans {fn g : Nat} {s t u : State} (a : Removing fn g s t) (b : Removing fn g t u) : Removing fn g s u :=
  ⟨b.beside.trans a.beside, b.owners.trans a.owners, fun r mem other => a.rings r (b.rings r mem other) other, b.kept ∘ a.kept, b.resets ∘ a.resets⟩

/-- A part that changes neither contexts, rings nor functions. -/
theorem Removing.of_same {fn g : Nat} {s t : State} (beside : besideRings t = besideRings s) (ctxs : t.ctxs = s.ctxs) (rings : t.rings = s.rings)
    (fns : t.fns = s.fns) : Removing fn g s t := by
  refine ⟨beside, by rw [Proofs.owners, ctxs]; rfl, fun r mem _ => rings ▸ mem, fun h => ?_, fun ⟨f, found, r⟩ => ⟨f, (getFn_of_fns fns fn).trans found, r⟩⟩
  rw [NoneKept, fns]
  exact h

theorem removing_modCtx (fn g : Nat) (s : State) (c : Nat) {f : Ctx → Ctx} (keeps : ∀ y, (f y).c = y.c ∧ (f y).ringOf = y.ringOf := by exact fun _ => ⟨rfl, rfl⟩) :
    Removing fn g s (modCtx s c f) := ⟨rfl, owners_modCtx s c keeps, fun _ mem _ => mem, id, id⟩

theorem removing_modFn (fn g : Nat) (s : State) (n : Nat) {h : HostFn → HostFn} (kept : ∀ f, ∀ k ∈ (h f).kept, k ∈ f.kept)
    (number : ∀ f, (h f).n = f.n := by exact fun _ => rfl)
    (resets : ∀ f, f.resetting = true → (h f).resetting = true := by exact fun _ => id) : Removing fn g s (modFn s n h) :=
  ⟨rfl, rfl, fun _ mem _ => mem, fun a => a.modFn n kept, fun a => a.modFn n number resets⟩

theorem removing_modRing (fn g : Nat) (s : State) (f : Ring → Ring) (number : ∀ r, (f r).g = r.g) : Removing fn g s (modRing s g f) := by
  refine ⟨rfl, rfl, fun r mem other => ?_, id, id⟩
  obtain ⟨q, hq, e⟩ := List.mem_map.mp mem
  dsimp only at e
  split at e
  · next own =>
    rw [← e, number] at other
    exact absurd (by simpa using own) other
  · exact e ▸ hq

theorem removing_foldl {fn g : Nat} {α : Type} {f : State → α → State} (l : List α) (step : ∀ s, ∀ a ∈ l, Removing fn g s (f s a)) (s : State) :
    Removing fn g s (l.foldl f s) := by
  induction l generalizing s with
  | nil => exact .refl ..
  | cons a l ih => exact (step s a List.mem_cons_self).trans (ih (fun s b mem => step s b (List.mem_cons_of_mem _ mem)) _)

theorem removing_dropKept (fn g : Nat) {s : State} (none_ : NoneKept s) : Removing fn g s (dropKept s g) := by
  unfold dropKept
  split
  · exact .refl ..
  · next r _ =>
    refine (removing_modFn fn g s r.fn (h := fun f => { f with kept := f.kept.filter fun k => k.ring != g }) fun f k mem => (List.mem_filter.mp mem).1).trans (removing_foldl _ (fun u k mem => ?_) _)
    have kept : k.ctx = none := by
      have own := (List.mem_filter.mp mem).1
      rcases found : getFn s r.fn with - | f
      · rw [found] at own
        cases own
      · rw [found] at own
        exact none_ f (List.mem_of_find?_eq_some found) k own
    rw [kept]
    exact removing_modRing fn g u _ fun _ => rfl

theorem removing_passCounts (fn g : Nat) (s : State) (r : Ring) : Removing fn g s (passCounts s r) := by
  unfold passCounts
  split
  · exact removing_modCtx fn g s _
  · exact .refl ..

theorem removing_countGone (fn g : Nat) (s : State) (n h : Nat) (k : RingReset) : Removing fn g s (countGone s n h k) :=
  removing_foldl _ (fun u c _ => removing_modCtx fn g u c) s

theorem ringOf_of_owners {s t : State} (same : owners t = owners s) {o : Option Nat} (none_ : ∀ y ∈ s.ctxs, y.ringOf ≠ o) : ∀ y ∈ t.ctxs, y.ringOf ≠ o := by
  intro y mem e
  have pair : (y.c, y.ringOf) ∈ owners s := same ▸ List.mem_map_of_mem mem
  obtain ⟨z, hz, ez⟩ := List.mem_map.mp pair
  exact none_ z hz ((Prod.mk.inj ez).2.trans e)

theorem removing_renameRing (fn g h : Nat) {s : State} (none_ : ∀ y ∈ s.ctxs, y.ringOf ≠ some g) : Removing fn g s (renameRing s g h) := by
  refine .of_same rfl ?_ rfl rfl
  refine (List.map_congr_left fun y mem => ?_).trans (List.map_id _)
  exact if_neg (by simpa using none_ y mem)

/-- No list without repetition is longer than a list that holds its elements. -/
theorem length_le_of_nodup_of_mem {l m : List Nat} (once : l.Nodup) (held : ∀ x ∈ l, x ∈ m) : l.length ≤ m.length := by
  induction l generalizing m with
  | nil => exact Nat.zero_le _
  | cons a l ih =>
    obtain ⟨fresh, once⟩ := List.nodup_cons.mp once
    have mem := held a List.mem_cons_self
    have rest := ih once (m := m.erase a) fun x hx =>
      (List.mem_erase_of_ne (show x ≠ a from fun same => fresh (same ▸ hx))).mpr (held x (List.mem_cons_of_mem _ hx))
    rw [List.length_erase_of_mem mem] at rest
    have some_ := List.length_pos_of_mem mem
    rw [List.length_cons]
    omega

/-- The name of a ring that goes is that of no command (R84). -/
theorem ringOf_goneName (s : State) (g : Nat) : ∀ y ∈ s.ctxs, y.ringOf ≠ some (goneName s g) := by
  obtain ⟨taken, ht⟩ : ∃ l, l = s.plan.gone.map Ring.g ++ s.ctxs.filterMap Ctx.ringOf := ⟨_, rfl⟩
  have free : ∃ k, 1 ≤ k ∧ k < 1 + (taken.length + 1) ∧ 1024 * k + g ∉ taken := by
    refine Classical.byContradiction fun all => ?_
    have taken_ : ∀ k, k < taken.length + 1 → 1024 * (k + 1) + g ∈ taken := fun k below =>
      Classical.byContradiction fun fresh => all ⟨k + 1, by omega, by omega, fresh⟩
    have few := length_le_of_nodup_of_mem (l := (List.range (taken.length + 1)).map fun k => 1024 * (k + 1) + g)
      (List.pairwise_map.mpr (List.nodup_range.imp fun other same => other (by omega))) (m := taken) fun x hx => by
        obtain ⟨k, hk, rfl⟩ := List.mem_map.mp hx
        exact taken_ k (List.mem_range.mp hk)
    rw [List.length_map, List.length_range] at few
    omega
  obtain ⟨k, low, high, fresh⟩ := free
  obtain ⟨j, hj⟩ := Option.isSome_iff_exists.mp (lowest_isSome (p := fun k => !taken.contains (1024 * k + g)) low high (by simpa using fresh))
  have name : goneName s g = 1024 * j + g := by
    simp only [goneName, ← ht, hj, Option.getD_some]
  have unused := (lowest_eq_some hj).2.2
  rw [name]
  intro y mem own
  have member : 1024 * j + g ∈ taken := ht ▸ List.mem_append_right _ (List.mem_filterMap.mpr ⟨y, mem, own⟩)
  simp [member] at unused

theorem removing_removeRing (fn g : Nat) {s : State} (idle : ∀ y ∈ s.ctxs, y.ringOf ≠ some g) (none_ : NoneKept s) :
    Removing fn g s (removeRing s g) ∧ ∀ r ∈ (removeRing s g).rings, r.g ≠ g := by
  unfold removeRing
  split
  · next absent =>
    refine ⟨.refl .., fun r mem own => ?_⟩
    exact absurd own (by simpa using List.find?_eq_none.mp absent r mem)
  · next r found =>
    dsimp only
    have start : Removing fn g s (modRing s g fun r => { r with rst := some RingReset.none }) := removing_modRing fn g s _ fun _ => rfl
    have dropped := start.trans (removing_dropKept fn g (start.kept none_))
    generalize ((getRing (dropKept (modRing s g fun r => { r with rst := some RingReset.none }) g) g).bind Ring.rst).getD RingReset.none = k
    obtain ⟨u, hu⟩ : ∃ u, u = countGone (passCounts (dropKept (modRing s g fun r => { r with rst := some RingReset.none }) g) { r with g := goneName s g }) r.fn (goneName s g) k := ⟨_, rfl⟩
    have counted : Removing fn g s u := by
      rw [hu]
      exact (dropped.trans (removing_passCounts ..)).trans (removing_countGone ..)
    obtain ⟨v, hv⟩ : ∃ v, v = storeNv (storeNv (freeRing u g) (0x04000585 + g) (BitVec.ofNat 64 (schedWord r))) (0x04000985 + g) (BitVec.ofNat 64 (coalWord r)) := ⟨_, rfl⟩
    have freed : Removing fn g u v := by
      rw [hv]
      exact ⟨rfl, rfl, fun r mem _ => (List.mem_filter.mp mem).1, id, id⟩
    have gone : ∀ r ∈ v.rings, r.g ≠ g := fun r mem => by
      rw [hv] at mem
      simpa using (List.mem_filter.mp mem).2
    rw [← hu, ← hv]
    have stored := counted.trans freed
    have named : Removing fn g s (renameRing (modFn v r.fn fun f => { f with freed := f.freed ++ [g] }) g (goneName s g)) :=
      (stored.trans (removing_modFn fn g v r.fn (h := fun f => { f with freed := f.freed ++ [g] }) fun _ _ => id)).trans
        (removing_renameRing fn g _ (ringOf_of_owners stored.owners idle))
    obtain ⟨w, hw⟩ : ∃ w, w = renameRing (modFn v r.fn fun f => { f with freed := f.freed ++ [g] }) g (goneName s g) := ⟨_, rfl⟩
    have rings : w.rings = v.rings := by
      rw [hw]
      rfl
    rw [← hw] at named ⊢
    have listed : Removing fn g s (if outstanding w (goneName s g) = 0 then w else
        w.updPlan fun p => { p with gone := p.gone ++ [{ r with g := goneName s g, held := none }] }) ∧
        (if outstanding w (goneName s g) = 0 then w else
        w.updPlan fun p => { p with gone := p.gone ++ [{ r with g := goneName s g, held := none }] }).rings = v.rings := by
      split
      · exact ⟨named, rings⟩
      · exact ⟨named.trans (.of_same rfl rfl rfl rfl), rings⟩
    obtain ⟨z, hz⟩ : ∃ z, z = (if outstanding w (goneName s g) = 0 then w else
        w.updPlan fun p => { p with gone := p.gone ++ [{ r with g := goneName s g, held := none }] }) := ⟨_, rfl⟩
    rw [← hz] at listed ⊢
    have idle' : (z.ctxs.filter fun x => x.ringOf == some (goneName s g)) = [] :=
      List.filter_eq_nil_iff.mpr fun y mem => by
        simpa using ringOf_of_owners listed.1.owners (ringOf_goneName s g) y mem
    rw [idle', List.foldl_nil]
    exact ⟨listed.1, fun r mem => gone r (listed.2 ▸ mem)⟩

/-- What the removal of the rings gs leaves, where none of them has a command. -/
structure Removes (fn : Nat) (gs : List Nat) (s t : State) : Prop where
  beside : besideRings t = besideRings s
  owners : owners t = owners s
  rings : ∀ r ∈ t.rings, r ∈ s.rings ∧ r.g ∉ gs
  resets : Resets fn s → Resets fn t

theorem removes_foldl (fn : Nat) (gs : List Nat) {s : State} (idle : ∀ g ∈ gs, ∀ y ∈ s.ctxs, y.ringOf ≠ some g) (none_ : NoneKept s) :
    Removes fn gs s (gs.foldl removeRing s) := by
  induction gs generalizing s with
  | nil => exact ⟨rfl, rfl, fun r mem => ⟨mem, by simp⟩, id⟩
  | cons g gs ih =>
    obtain ⟨first, gone⟩ := removing_removeRing fn g (idle g List.mem_cons_self) none_
    have rest := ih (fun h mem => ringOf_of_owners first.owners (idle h (List.mem_cons_of_mem _ mem))) (first.kept none_)
    refine ⟨rest.beside.trans first.beside, rest.owners.trans first.owners, fun r mem => ?_, rest.resets ∘ first.resets⟩
    obtain ⟨old, other⟩ := rest.rings r mem
    have apart := gone r old
    exact ⟨first.rings r old apart, by simp [apart, other]⟩

theorem Resets.foldl_modFn {fn : Nat} (ns : List Nat) {h : Nat → HostFn → HostFn} (number : ∀ k f, (h k f).n = f.n)
    (keeps : ∀ k f, f.resetting = true → (h k f).resetting = true) {s : State} (resets : Resets fn s) : Resets fn (ns.foldl (fun s k => Machine.modFn s k (h k)) s) := by
  induction ns generalizing s with
  | nil => exact resets
  | cons k ns ih => exact ih (resets.modFn k (number k) (keeps k))

/-- A function among those changed has what the change gives. -/
theorem getFn_foldl_modFn {fn : Nat} {P : HostFn → Prop} (ns : List Nat) {h : Nat → HostFn → HostFn} (number : ∀ k f, (h k f).n = f.n) (gives : ∀ k f, P (h k f))
    {s : State} {f : HostFn} (found : getFn s fn = some f) (named : fn ∈ ns ∨ P f) : ∃ g, getFn (ns.foldl (fun s k => modFn s k (h k)) s) fn = some g ∧ P g := by
  induction ns generalizing s f with
  | nil => exact ⟨f, found, named.resolve_left (by simp)⟩
  | cons k ns ih =>
    refine ih (getFn_modFn found k (number k)) ?_
    by_cases same : fn = k
    · rw [if_pos same]
      exact .inr (gives k f)
    · rw [if_neg same]
      exact named.imp_left fun mem => (List.mem_cons.mp mem).resolve_left same

theorem beside_foldl_modFn (ns : List Nat) (h : Nat → HostFn → HostFn) (s : State) :
    let t := ns.foldl (fun s k => modFn s k (h k)) s
    besideRings t = besideRings s ∧ t.rings = s.rings ∧ t.ctxs = s.ctxs := by
  induction ns generalizing s with
  | nil => exact ⟨rfl, rfl, rfl⟩
  | cons k ns ih => exact ih (modFn s k (h k))

theorem NoneKept.foldl_modFn (ns : List Nat) {h : Nat → HostFn → HostFn} (keeps : ∀ k f, ∀ q ∈ (h k f).kept, q ∈ f.kept) {s : State} (none_ : NoneKept s) :
    NoneKept (ns.foldl (fun s k => Machine.modFn s k (h k)) s) := by
  induction ns generalizing s with
  | nil => exact none_
  | cons k ns ih => exact ih (none_.modFn k (keeps k))

/-- A function k marked in the reset of function fn (R111). -/
def marked (fn : Nat) (by_ : Option Nat) (k : Nat) (f : HostFn) : HostFn :=
  { f with resetting := true, resetBy := if k = fn then f.resetBy <|> by_ else f.resetBy
           resetToo := if k = fn && f.resetBy.isSome then f.resetToo ++ by_.toList else f.resetToo }

/-- The start of a function reset where no command of its rings runs (R111). -/
theorem functionReset_idle {s : State} {fn : Nat} {f : HostFn} (found : getFn s fn = some f)
    (idle : ∀ r ∈ s.rings, (resetSet s fn).contains r.fn = true → ∀ y ∈ s.ctxs, y.ringOf ≠ some r.g) (none_ : NoneKept s)
    (own : (resetSet s fn).contains fn = true) (by_ : Option Nat) :
    let t := functionReset s fn by_
    besideRings t = besideRings s ∧ owners t = owners s ∧ (∀ r ∈ t.rings, r ∈ s.rings ∧ (resetSet s fn).contains r.fn = false) ∧
      ∃ g, getFn t fn = some g ∧ g.resetting = true ∧ g.kept = [] := by
  have present : ¬ (getFn s fn).isNone = true := by simp [found]
  unfold functionReset
  rw [if_neg present]
  dsimp only
  generalize resetSet s fn = ns at idle own ⊢
  have mem : fn ∈ ns := by simpa using own
  obtain ⟨u, hu⟩ : ∃ u, u = ns.foldl (fun s k => modFn s k (marked fn by_ k)) s := ⟨_, rfl⟩
  rw [show ns.foldl (fun s k => modFn s k fun f => { f with
      resetting := true, resetBy := if k = fn then f.resetBy <|> by_ else f.resetBy
      resetToo := if k = fn && f.resetBy.isSome then f.resetToo ++ by_.toList else f.resetToo }) s = u from hu.symm]
  have marks := beside_foldl_modFn ns (marked fn by_) s
  obtain ⟨markedBeside, markedRings, markedCtxs⟩ := hu ▸ marks
  have markedKept : NoneKept u := hu ▸ NoneKept.foldl_modFn ns (h := marked fn by_) (fun _ _ _ => id) none_
  have resetting : Resets fn u := hu ▸ getFn_foldl_modFn (P := fun f => f.resetting = true) ns (h := marked fn by_) (fun _ _ => rfl) (fun _ _ => rfl) found (.inl mem)
  have removes := removes_foldl fn ((u.rings.filter fun r => ns.contains r.fn).map Ring.g) (s := u)
    (fun g hg y hy => by
      obtain ⟨r, hr, rfl⟩ := List.mem_map.mp hg
      obtain ⟨ring, set⟩ := List.mem_filter.mp hr
      exact idle r (markedRings ▸ ring) set y (markedCtxs ▸ hy)) markedKept
  obtain ⟨v, hv⟩ : ∃ v, v = ((u.rings.filter fun r => ns.contains r.fn).map Ring.g).foldl removeRing u := ⟨_, rfl⟩
  rw [← hv] at removes ⊢
  obtain ⟨clearedBeside, clearedRings, clearedCtxs⟩ := beside_foldl_modFn ns (fun _ f => { f with kept := [] }) v
  have resets : Resets fn (ns.foldl (fun s k => modFn s k fun f => { f with kept := [] }) v) :=
    (removes.resets resetting).foldl_modFn ns (h := fun _ f => { f with kept := [] }) (fun _ _ => rfl) fun _ _ => id
  obtain ⟨f', found', -⟩ := removes.resets resetting
  obtain ⟨g', got', empty⟩ := getFn_foldl_modFn (P := fun f => f.kept = []) ns (h := fun _ f => { f with kept := [] }) (fun _ _ => rfl) (fun _ _ => rfl) found' (.inl mem)
  obtain ⟨w, hw⟩ : ∃ w, w = ns.foldl (fun s k => modFn s k fun f => { f with kept := [] }) v := ⟨_, rfl⟩
  rw [← hw] at clearedBeside clearedRings clearedCtxs resets got' ⊢
  obtain ⟨g, got, on⟩ := resets
  rw [← Option.some.inj (got.symm.trans got')] at empty
  have rings : ∀ r ∈ w.rings, r ∈ s.rings ∧ ns.contains r.fn = false := fun r hr => by
    obtain ⟨ring, apart⟩ := removes.rings r (clearedRings ▸ hr)
    refine ⟨markedRings ▸ ring, Bool.eq_false_iff.mpr fun set => apart ?_⟩
    exact List.mem_map_of_mem (List.mem_filter.mpr ⟨ring, set⟩)
  have beside : besideRings w = besideRings s := clearedBeside.trans (removes.beside.trans markedBeside)
  have same : owners w = owners s := by
    rw [owners, clearedCtxs]
    exact removes.owners.trans (by rw [owners, markedCtxs]; rfl)
  split
  · exact ⟨beside, same, rings, g, got, on, empty⟩
  · exact ⟨beside, same, rings, g, got, on, empty⟩

/-! The posts of waiting commands. -/

theorem finishAdm_frame (s : State) (c op : Nat) (st : BitVec 16) (d : BitVec 8) (r : BitVec 64) :
    finishAdm s c op st d r = { s with ctxs := (finishAdm s c op st d r).ctxs } := by
  unfold finishAdm
  repeat' split
  all_goals rfl

theorem foldl_posts {α : Type} {f : State → α → State} (only : ∀ s a, f s a = { s with ctxs := (f s a).ctxs }) (l : List α) (s : State) :
    l.foldl f s = { s with ctxs := (l.foldl f s).ctxs } := by
  induction l generalizing s with
  | nil => rfl
  | cons a l ih =>
    rw [List.foldl_cons, ih]
    obtain ⟨u, hu⟩ : ∃ u, u = f s a := ⟨_, rfl⟩
    have frame : u = { s with ctxs := u.ctxs } := hu ▸ only s a
    rw [← hu, frame]

/-- Context c has its POST to come with OK. -/
def Posts (c : Nat) (s : State) : Prop := ∃ y, getCtx s c = some y ∧ y.wait = .posting ∧ y.status = St.ok

theorem Posts.finishAdm {c : Nat} {s : State} (posts : Posts c s) (k op : Nat) (st : BitVec 16) (d : BitVec 8) (r : BitVec 64) :
    Posts c (finishAdm s k op st d r) := by
  obtain ⟨y, found, wait, ok⟩ := posts
  unfold Machine.finishAdm
  split
  · exact ⟨y, found, wait, ok⟩
  · next z at_ =>
    split
    · next go =>
      by_cases same : c = k
      · subst same
        cases found.symm.trans at_
        simp [wait] at go
      · exact ⟨y, (getCtx_residentPost_other same _ _ _).trans found, wait, ok⟩
    · exact ⟨y, found, wait, ok⟩

theorem Posts.foldl {c : Nat} {α : Type} {f : State → α → State} (keeps : ∀ s a, Posts c s → Posts c (f s a)) (l : List α) {s : State} (posts : Posts c s) :
    Posts c (l.foldl f s) := by
  induction l generalizing s with
  | nil => exact posts
  | cons a l ih => exact ih (keeps s a posts)

theorem finishAdm_posts {s : State} {c : Nat} {x : Ctx} (found : getCtx s c = some x) (wait : x.wait = .resident) (typ : x.entry.typ = 4) (op : x.entry.op = 0x84)
    (going : x.stopping = false) (d : BitVec 8) (r : BitVec 64) : Posts c (finishAdm s c 0x84 St.ok d r) := by
  have run : finishAdm s c 0x84 St.ok d r = residentPost s c St.ok d r := by simp [finishAdm, found, wait, typ, op, going]
  rw [run]
  exact ⟨_, getCtx_residentPost found _ _ _, rfl, rfl⟩

theorem forgetFreed_frame (s : State) (f : HostFn) :
    forgetFreed s f = { s with nv := (forgetFreed s f).nv, plan := { s.plan with fetching := (forgetFreed s f).plan.fetching, gone := (forgetFreed s f).plan.gone } } := by
  have nv : ∀ (l : List Nat) (s : State), ∃ v, l.foldl (fun s g => if (getRing s g).isSome then s else
      s.updNv fun l => Assoc.del (Assoc.del l (0x04000585 + g)) (0x04000985 + g)) s = { s with nv := v } := fun l => by
    induction l with
    | nil => exact fun s => ⟨_, rfl⟩
    | cons g l ih =>
      intro s
      rw [List.foldl_cons]
      split
      · exact ih s
      · obtain ⟨v, hv⟩ := ih (s.updNv fun l => Assoc.del (Assoc.del l (0x04000585 + g)) (0x04000985 + g))
        exact ⟨v, hv⟩
  obtain ⟨v, hv⟩ := nv f.freed s
  unfold forgetFreed
  dsimp only
  rw [hv]
  rfl

/-- The FUNC_RESETs that wait for a function's reset are posted (R111). -/
def resetFinished (l : List Nat) (s : State) : State :=
  l.foldl (fun s c =>
    let a := fun i => (nth (((getCtx s c).map Ctx.aux).getD []) i 0#64).toNat
    finishAdm s c 0x84 St.ok 0 (resetWord (a 0) (a 1) (a 2))) s

/-- The state at the end of a function's reset, with the commands that wait for it posted (R111). -/
def resetPosted (s : State) (fn : Nat) (f : HostFn) : State := endRingResets (resetFinished (f.resetBy.toList ++ f.resetToo) (forgetFreed s f)) fn

theorem resetFinished_frame (l : List Nat) (s : State) : resetFinished l s = { s with ctxs := (resetFinished l s).ctxs } :=
  foldl_posts (fun _ _ => finishAdm_frame ..) l s

theorem endRingResets_frame (s : State) (n : Nat) : endRingResets s n = { s with ctxs := (endRingResets s n).ctxs } :=
  foldl_posts (fun _ _ => finishAdm_frame ..) _ s

theorem resetPosted_frame (s : State) (fn : Nat) (f : HostFn) :
    resetPosted s fn f = { s with nv := (forgetFreed s f).nv, plan := { s.plan with fetching := (forgetFreed s f).plan.fetching, gone := (forgetFreed s f).plan.gone },
                                  ctxs := (resetPosted s fn f).ctxs } := by
  unfold resetPosted
  rw [endRingResets_frame]
  obtain ⟨v, hv⟩ : ∃ v, v = forgetFreed s f := ⟨_, rfl⟩
  have first : v = { s with nv := v.nv, plan := { s.plan with fetching := v.plan.fetching, gone := v.plan.gone } } := hv ▸ forgetFreed_frame s f
  obtain ⟨u, hu⟩ : ∃ u, u = resetFinished (f.resetBy.toList ++ f.resetToo) v := ⟨_, rfl⟩
  have frame : u = { v with ctxs := u.ctxs } := hu ▸ resetFinished_frame _ v
  rw [← hv, ← hu, frame, first]

theorem resetPosted_posts {s : State} (fn : Nat) {f : HostFn} {c : Nat} {x : Ctx} (by_ : f.resetBy = some c) (found : getCtx s c = some x) (wait : x.wait = .resident)
    (typ : x.entry.typ = 4) (op : x.entry.op = 0x84) (going : x.stopping = false) : Posts c (resetPosted s fn f) := by
  unfold resetPosted endRingResets resetFinished
  refine Posts.foldl (fun s y h => h.finishAdm ..) _ ?_
  rw [by_, Option.toList_some, List.singleton_append, List.foldl_cons]
  refine Posts.foldl (fun s y h => h.finishAdm ..) _ ?_
  have same : getCtx (forgetFreed s f) c = some x := by
    rw [forgetFreed_frame]
    exact found
  exact finishAdm_posts same wait typ op going _ _

/-- The state when a function is presented again, or is gone (R111). -/
def presented (u : State) (fn : Nat) (gone : Bool) : State :=
  if gone then u.updFns fun fs => fs.filter fun k => k.n != fn else modFn u fn HostFn.afterReset

theorem functionResetComplete_next {s : State} {fn : Nat} {f : HostFn} (found : getFn s fn = some f) (resetting : f.resetting = true) (idle : fnBusy s fn = false) :
    let gone := decide ((getLink s (fnLink fn)).st < 2 ∨ (fnFunc fn ≠ 0 ∧ !(getLink s (fnLink fn)).vfEnable))
    let v := presented (resetPosted s fn f) fn gone
    exec (.functionResetComplete fn) s = .next v ∨ ∃ h, exec (.functionResetComplete fn) s = .next (modLink v (fnLink fn) h) := by
  dsimp only
  obtain ⟨u, hu⟩ : ∃ u, u = resetPosted s fn f := ⟨_, rfl⟩
  have link : getLink u (fnLink fn) = getLink s (fnLink fn) := by
    rw [hu, resetPosted_frame]
    rfl
  have run : exec (.functionResetComplete fn) s = .next
      (let l := getLink u (fnLink fn)
       let gone := l.st < 2 ∨ (fnFunc fn ≠ 0 ∧ !l.vfEnable)
       let s3 := if gone then u.updFns fun fs => fs.filter fun k => k.n != fn else modFn u fn HostFn.afterReset
       if l.st = 3 ∧ !(s3.fns.any fun k => fnLink k.n == fnLink fn && k.resetting) then modLink s3 (fnLink fn) fun l => { l with st := 2 } else s3) := by
    rw [hu]
    show execFunctionResetComplete fn s = _
    unfold execFunctionResetComplete
    rw [found]
    refine congrArg Host.Outcome.next (if_neg ?_)
    simp [resetting, idle]
  rw [run, ← hu]
  dsimp only
  rw [link]
  have shape : (if (getLink s (fnLink fn)).st < 2 ∨ (fnFunc fn ≠ 0 ∧ (!(getLink s (fnLink fn)).vfEnable) = true) then
      u.updFns fun fs => fs.filter fun k => k.n != fn else modFn u fn HostFn.afterReset) =
      presented u fn (decide ((getLink s (fnLink fn)).st < 2 ∨ (fnFunc fn ≠ 0 ∧ !(getLink s (fnLink fn)).vfEnable))) := by
    unfold presented
    simp only [decide_eq_true_eq]
  rw [shape]
  split
  · exact .inr ⟨_, rfl⟩
  · exact .inl rfl

/-! A stopped command at its boundary. -/

@[simp] theorem dropDescs_hull (s : State) (c) : hull (dropDescs s c) = hull s :=
  updMovers_hull s (Vector.ext fun i small => by simp only [Vector.getElem_map, bare]) rfl

@[simp] theorem endTransfer_hull (s : State) (c b n) : hull (endTransfer s c b n) = hull s := by
  refine (updMovers_hull _ ?_ ?_).trans (dropDescs_hull s c)
  · split <;> rfl
  · split <;> rfl

@[simp] theorem hostOut_hull (s : State) (x o bs) : hull (hostOut s x o bs) = hull s := by
  unfold hostOut
  split
  · exact foldl_hull (fun _ _ => emit_hull ..) _ s
  · rfl

@[simp] theorem deliverReads_hull (s : State) (x k) : hull (deliverReads s x k) = hull s :=
  foldl_hull (fun _ _ => ite_agree hull (hostOut_hull ..) rfl) _ s

@[simp] theorem stopTransfer_hull (s : State) (x) : hull (stopTransfer s x) = hull s := by
  unfold stopTransfer
  repeat' split
  all_goals simp

theorem getCtx_stopTransfer {s : State} {x y : Ctx} (found : getCtx s x.c = some y) : ∃ d, getCtx (stopTransfer s x) x.c = some { y with data := d } := by
  unfold stopTransfer
  repeat' split
  · exact ⟨_, found⟩
  · exact (hostOut_sent s x _ _).2.2.2 y found
  · exact (deliverReads_sent s x _).2.2.2 y found
  · exact (hostOut_sent s x _ _).2.2.2 y found
  · exact ⟨_, found⟩

/-- A command that is fixed and completed, where it can be, is gone or stands with its status. -/
theorem endWith_fixes {s : State} {c : Nat} {y : Ctx} (found : getCtx s c = some y) (going : y.wait ≠ .fixed) (st : BitVec 16) (det : BitVec 8) (res : BitVec 64) :
    ∀ z, getCtx (endWith s c st det res) c = some z → z.wait = .fixed ∧ z.status = st := by
  obtain ⟨⟨w, at_, fixed, status⟩, -⟩ := fixEnd_fixes found going st det res
  intro z hz
  rcases getCtx_tryComplete at_ with gone | kept
  · cases gone.symm.trans hz
  · cases kept.symm.trans hz
    exact ⟨fixed, status⟩

/-- The request a stopped command withdraws, if it is its own. -/
def withdrawn (s : State) (c : Nat) : State :=
  s.updDay fun d => { d with pendReq := match d.pendReq with
    | some (t, k) => if k = c then none else some (t, k)
    | none => none }

theorem withdrawn_pendReq (s : State) (c : Nat) (d : DayState) : (withdrawn s c).day.pendReq ≠ some (d, c) := by
  rcases h : s.day.pendReq with - | ⟨t, k⟩
  · simp [withdrawn, h]
  · simp only [withdrawn, State.updDay, h]
    split
    · simp
    · next other => exact fun e => other (Prod.mk.inj (Option.some.inj e)).2

theorem commandStop_runs {s : State} {c : Nat} {x : Ctx} (found : getCtx s c = some x) (stopping : x.stopping = true)
    (plain : settingNv (setArgs x).1 = false ∨ specialSet (setArgs x).1 = false) :
    ∃ u, u.ctxs = s.ctxs ∧ exec (.commandStop c) s = .next (endWith (modCtx (dropDescs (stopTransfer (withdrawn u c) x) c) c
      fun y => { y with wait := if y.wait = .fixed then .posting else y.wait }) c St.ringReset 0 0) := by
  obtain ⟨b, hb⟩ : ∃ b, b = (if x.entry.isProg then x.wait == .instr && zOp x.word == 0x34
        else x.wait == .resident && x.entry.typ == 4 && x.entry.op == 0x87 && x.snap == 1) := ⟨_, rfl⟩
  refine ⟨if settingNv (setArgs x).1 && b then applySet s (setArgs x).1 (setArgs x).2 else s, ite_agree State.ctxs (applySet_ctxs ..) rfl, ?_⟩
  show execCommandStop c s = _
  unfold execCommandStop
  rw [found]
  dsimp only
  rw [← hb]
  refine congrArg Host.Outcome.next (if_neg ?_)
  rw [stopping]
  rcases plain with e | e <;> simp [e]

theorem functionReturnD0_runs {s : State} {fn : Nat} {f : HostFn} (found : getFn s fn = some f) (cool : s.therm.hotAt = none) (power : s.power.lost = false) :
    exec (.functionReturnD0 fn) s =
      .next (msixDrainAll (f.kept.foldl writeKept (modFn s fn fun g => { g with d3hot := false, busMaster := true, kept := [] })) fn) := by
  show execFunctionReturnD0 fn s = _
  unfold execFunctionReturnD0
  rw [found]
  refine congrArg Host.Outcome.next (if_neg ?_)
  rw [cool, power]
  simp

theorem getRing_msixDrainAll (s : State) (n g : Nat) : getRing (msixDrainAll s n) g = getRing s g := by
  rw [msixDrainAll_frame]
  rfl

theorem getCtx_msixDrainAll (s : State) (n c : Nat) : getCtx (msixDrainAll s n) c = getCtx s c := by
  rw [msixDrainAll_frame]
  rfl

theorem endCtx_out (s : State) (c : Nat) : (endCtx s c).out = s.out := (congrArg State.out (besideEnd_endCtx s c) :)

/-- Settles O25: the kept completions by `Serves`, a reset by the removal of its rings, its end by the posts it makes. -/
theorem functionPowerAndReset : Obligations.FunctionPowerAndReset := by
  unfold Obligations.FunctionPowerAndReset
  refine ⟨?d3, ?master, ?serves, ?stale, ?runs, ?entry, ?command, ?reset, ?resets, ?funcReset, ?present, ?absent, ?stop⟩
  case d3 =>
    intro s fn f found
    exact ⟨_, rfl, rfl, getFn_changed found⟩
  case master =>
    intro s fn f found
    exact ⟨_, rfl, rfl, getFn_changed found⟩
  case stale =>
    intro s fn f found lost
    refine ⟨modFn s fn fun f => { f with d3hot := false, busMaster := true }, ?_, rfl, getFn_changed found⟩
    show execFunctionReturnD0 fn s = _
    unfold execFunctionReturnD0
    rw [found]
    refine congrArg Host.Outcome.next (if_pos ?_)
    rcases lost with hot | lost
    · rw [Option.isSome_iff_ne_none.mpr hot]
      rfl
    · rw [lost, Bool.or_true]
  case runs =>
    intro s fn f found cool power
    exact functionReturnD0_runs found cool power
  case serves =>
    intro s fn f found cool power
    have start : Serves fn (modFn s fn fun g => { g with d3hot := false, busMaster := true, kept := [] }) := ⟨_, getFn_changed found, rfl, rfl, rfl⟩
    exact ⟨_, functionReturnD0_runs found cool power, (Serves.foldl (fun _ k h => h.writeKept k) f.kept start).msixDrainAll fn⟩
  case reset =>
    intro s fn up
    exact congrArg Host.Outcome.next (if_pos up)
  case resets =>
    intro s fn f found up idle none_ own
    obtain ⟨beside, same, rings, g, got, on, empty⟩ := functionReset_idle found (fun r mem set => (idle r mem set).2) none_ own none
    refine ⟨_, congrArg Host.Outcome.next (if_pos up), eq_of_besideRings beside, ?_, rings, g, got, on, empty⟩
    simpa [owners, Function.comp_def] using congrArg (List.map Prod.fst) same
  case funcReset =>
    intro s c x f h fresh found
    refine exec_resident h rfl (if_neg ?_)
    simp [fresh, found]
  case present =>
    intro s fn f found resetting idle up there
    have stays : decide ((getLink s (fnLink fn)).st < 2 ∨ (fnFunc fn ≠ 0 ∧ !(getLink s (fnLink fn)).vfEnable)) = false := by
      refine decide_eq_false ?_
      rintro (low | ⟨other, off⟩)
      · omega
      · rcases there with pf | on
        · exact other pf
        · simp [on] at off
    have own : getFn (presented (resetPosted s fn f) fn false) fn = some f.afterReset := by
      refine getFn_changed (h := HostFn.afterReset) ?_ (fun g => rfl)
      rw [resetPosted_frame]
      exact found
    have posts : ∀ c x, f.resetBy = some c → getCtx s c = some x → x.wait = .resident → x.entry.typ = 4 → x.entry.op = 0x84 → x.stopping = false →
        ∃ y, getCtx (presented (resetPosted s fn f) fn false) c = some y ∧ y.wait = .posting ∧ y.status = St.ok :=
      fun c x by_ ctx wait typ op going => resetPosted_posts fn by_ ctx wait typ op going
    obtain ⟨v, hv⟩ : ∃ v, v = presented (resetPosted s fn f) fn false := ⟨_, rfl⟩
    have frame : v = { s with fns := v.fns, nv := v.nv, ctxs := v.ctxs, plan := { s.plan with fetching := v.plan.fetching, gone := v.plan.gone } } := by
      rw [hv]
      unfold presented
      rw [resetPosted_frame]
      rfl
    have run := functionResetComplete_next found resetting idle
    dsimp only at run
    rw [stays, ← hv] at run
    rw [← hv] at own posts
    rcases run with run | ⟨h, run⟩
    · refine ⟨_, run, ?_, own, posts⟩
      rw [frame]
    · refine ⟨_, run, ?_, own, posts⟩
      rw [frame]
      rfl
  case absent =>
    intro s fn f found resetting idle down
    have goes : decide ((getLink s (fnLink fn)).st < 2 ∨ (fnFunc fn ≠ 0 ∧ !(getLink s (fnLink fn)).vfEnable)) = true := by
      rcases down with down | ⟨vf, off⟩
      · simp [down]
      · simp [vf, off]
    have run := functionResetComplete_next found resetting idle
    dsimp only at run
    rw [goes] at run
    have gone : getFn (presented (resetPosted s fn f) fn true) fn = none := by
      refine List.find?_eq_none.mpr fun g mem => ?_
      simpa using (List.mem_filter.mp mem).2
    rcases run with run | ⟨h, run⟩
    · exact ⟨_, run, gone⟩
    · exact ⟨_, run, gone⟩
  case stop =>
    intro s c x found stopping plain
    have number := getCtx_number found
    obtain ⟨u, ctxs, run⟩ := commandStop_runs found stopping plain
    have at_ : getCtx (withdrawn u c) x.c = some x := by
      rw [number, getCtx, show (withdrawn u c).ctxs = s.ctxs from ctxs]
      exact found
    obtain ⟨d, stopped⟩ := getCtx_stopTransfer at_
    rw [number] at stopped
    obtain ⟨z, at_, going⟩ : ∃ z, getCtx (modCtx (dropDescs (stopTransfer (withdrawn u c) x) c) c fun y => { y with wait := if y.wait = .fixed then .posting else y.wait }) c =
        some z ∧ z.wait ≠ .fixed := by
      refine ⟨_, getCtx_changed (s := dropDescs (stopTransfer (withdrawn u c) x) c) (f := fun y => { y with wait := if y.wait = .fixed then .posting else y.wait }) stopped, ?_⟩
      dsimp only
      split
      · simp
      · assumption
    refine ⟨_, run, endWith_fixes at_ going _ _ _, fun d same => ?_⟩
    · have kept := congrArg Hull.day (show hull (endWith (modCtx (dropDescs (stopTransfer (withdrawn u c) x) c) c
        fun y => { y with wait := if y.wait = .fixed then .posting else y.wait }) c St.ringReset 0 0) = hull (withdrawn u c) by simp)
      exact withdrawn_pendReq u c d ((congrArg Day.pendReq kept).symm.trans same)
  case entry =>
    intro s fn f k r found cool power kept own ring owner
    have run := functionReturnD0_runs found cool power
    rw [kept, List.foldl_cons, List.foldl_nil, writeKept, own] at run
    obtain ⟨u, hu⟩ : ∃ u, u = modFn s fn fun g => { g with d3hot := false, busMaster := true, kept := [] } := ⟨_, rfl⟩
    have ringU : getRing u k.ring = some r := by
      rw [hu]
      exact ring
    have outU : u.out = s.out := by
      rw [hu]
      rfl
    have beatU : u.beat = s.beat := by
      rw [hu]
      rfl
    rw [← hu] at run
    obtain ⟨l, out, all⟩ := writeCompletion_messages ringU k.status k.cid k.detail k.result 0 (some 0) k.noIrq
    obtain ⟨m, sent, all'⟩ := msixDrainAll_messages (writeCompletion u k.ring k.status k.cid k.detail k.result 0 (some 0) k.noIrq) fn
    obtain ⟨q, ringQ, tail⟩ := writeCompletion_tail ringU k.status k.cid k.detail k.result 0 (some 0) k.noIrq
    refine ⟨_, run, entryOf u r k.status k.cid k.detail k.result 0 (some 0), l ++ m, ?_, fun o mem => ?_, rfl, rfl, rfl, rfl, rfl, ?_, rfl,
      q, (getRing_msixDrainAll ..).trans ringQ, tail⟩
    · rw [sent, out, outU, List.append_assoc, List.cons_append]
    · rw [owner] at all
      exact (List.mem_append.mp mem).elim (all o) (all' o)
    · exact congrArg (BitVec.ofNat 48) beatU
  case command =>
    intro s fn f k r c x found cool power kept own ctx fixed free writes src ring owner going given flush prog
    have run := functionReturnD0_runs found cool power
    rw [kept, List.foldl_cons, List.foldl_nil, writeKept, own] at run
    obtain ⟨u, hu⟩ : ∃ u, u = modFn s fn fun g => { g with d3hot := false, busMaster := true, kept := [] } := ⟨_, rfl⟩
    have keeps : getRing u k.ring = some r ∧ u.out = s.out ∧ u.beat = s.beat ∧ getCtx u c = some x ∧ postBlocked u x = false ∧ durable u x = true ∧
        u.plan.resetFlush = false := by
      rw [hu]
      exact ⟨ring, rfl, rfl, ctx, free, writes, flush⟩
    obtain ⟨ringU, outU, beatU, ctxU, freeU, writesU, flushU⟩ := keeps
    have serves : Serves fn u := by
      rw [hu]
      exact ⟨_, getFn_changed found, rfl, rfl, rfl⟩
    rw [← hu] at run
    obtain ⟨plan, sec, complete⟩ := complete_writes src ringU going given prog (owner ▸ serves.writable) flushU
    have number := getCtx_number ctx
    simp only [tryComplete_completes ctxU fixed freeU writesU, complete, number] at run
    obtain ⟨v, hv⟩ : ∃ v, v = { u with plan := plan, sec := sec } := ⟨_, rfl⟩
    have keeps : getRing v k.ring = some r ∧ v.out = s.out ∧ v.beat = s.beat := by
      rw [hv]
      exact ⟨ringU, outU, beatU⟩
    obtain ⟨ringV, outV, beatV⟩ := keeps
    rw [← hv] at run
    obtain ⟨l, out, all⟩ := writeCompletion_messages ringV x.status x.entry.cid x.detail x.result (BitVec.ofNat 64 x.adm) x.slackTo x.entry.noIrq
    obtain ⟨m, sent, all'⟩ := msixDrainAll_messages (endCtx (writeCompletion v k.ring x.status x.entry.cid x.detail x.result (BitVec.ofNat 64 x.adm) x.slackTo x.entry.noIrq) c) fn
    refine ⟨_, run, (getCtx_msixDrainAll ..).trans (getCtx_endCtx_none ..),
      entryOf v r x.status x.entry.cid x.detail x.result (BitVec.ofNat 64 x.adm) x.slackTo, l ++ m, ?_, fun o mem => ?_, rfl, rfl, rfl, ?_, rfl⟩
    · rw [sent, endCtx_out, out, outV, List.append_assoc, List.cons_append]
    · rw [owner] at all
      exact (List.mem_append.mp mem).elim (all o) (all' o)
    · exact congrArg (BitVec.ofNat 48) beatV

end Sys2Proof.Proofs

end

section
/-! PROOF. O26: a completion kept for a command that still runs. -/

namespace Sys2Proof.Proofs

open Sys2Proof Sys2Proof.Machine Sys2Proof.Safety Sys2Proof.Laws

/-- A MODULE_RESET at its start. -/
def resettingCtx : Ctx := { copyingCtx with entry := { copyingCtx.entry with typ := 4, op := 0x85 }, wait := .resident }

/-- The only command is that MODULE_RESET, and its function has a completion kept for it. -/
def keptSt : State :=
  { State.reset with
    beat := 10, ctxs := [resettingCtx], rings := [Ring.fresh 0 0 1]
    fns := [{ HostFn.init with n := 0, kept := [{ ring := 0, ctx := some 0, status := 0, cid := 7, detail := 0, result := 0, noIrq := false }] }] }

theorem keptSt_resident : Resident keptSt 0 0x85 4 resettingCtx where
  ctx := rfl
  wait := rfl
  typ := rfl
  op := rfl
  going := rfl
  free := by decide +kernel

/-- The reset drops the kept completion, and with it the context of the command. -/
theorem moduleReset_keptSt : ∃ t, exec (.moduleReset 0) keptSt = .next t ∧ (getCtx t 0).isNone = true := ⟨_, rfl, by decide +kernel⟩

/-- Refutes O26: the MODULE_RESET of keptSt does not leave its own command stopped, but ends its context. -/
theorem not_moduleReset : ¬ Obligations.ModuleReset := by
  unfold Obligations.ModuleReset
  rintro ⟨-, begins, -⟩
  obtain ⟨t, run, -, -, -, -, -, -, -, y, own, -⟩ := begins keptSt 0 resettingCtx keptSt_resident rfl rfl (fun b early => by cases early)
    (.inr ⟨0, Ring.fresh 0 0 1, rfl, rfl, rfl, rfl⟩) rfl rfl rfl rfl rfl (fun r mem => by cases List.mem_singleton.mp mem; rfl)
  obtain ⟨t', run', gone⟩ := moduleReset_keptSt
  cases run.symm.trans run'
  rw [own] at gone
  cases gone

end Sys2Proof.Proofs

end

section
/-! PROOF. O27: the mover engines. -/

namespace Sys2Proof.Proofs

open Sys2Proof Sys2Proof.Machine Sys2Proof.Safety Sys2Proof.Laws

theorem getEngine_modEngine (s : State) {e : Nat} (h : e < 4) (f : Engine → Engine) : getEngine (modEngine s e f) e = f (getEngine s e) :=
  vget_vset_same _ _ _ h

theorem getEngine_modEngine_ne (s : State) {e d : Nat} (other : d ≠ e) (f : Engine → Engine) : getEngine (modEngine s e f) d = getEngine s d :=
  vget_vset_ne _ _ _ other

theorem vget_map {α β : Type} {n i : Nat} (v : Vector α n) (f : α → β) (d : α) (h : i < n) : vget (v.map f) i (f d) = f (vget v i d) := by
  simp only [vget, Vector.getElem?_eq_getElem h, Vector.getElem_map, Option.getD_some]

theorem bare_of_hull {s t : State} (same : hull t = hull s) {e : Nat} (h : e < 4) : bare (getEngine t e) = bare (getEngine s e) := by
  unfold getEngine
  rw [← vget_map _ bare _ h, ← vget_map _ bare _ h]
  exact congrArg (fun k : Hull => vget k.engines e (bare Engine.init)) same

@[simp] theorem busEnd_hull (s : State) (c : Nat) : hull (busEnd s c) = hull s := by
  unfold busEnd
  split
  · rfl
  · next x _ =>
    have word : hull (endWord (dropDescs s c) x).2 = hull s := by
      unfold endWord
      split
      · exact dropDescs_hull ..
      · exact (updFreeCtr_hull ..).trans (dropDescs_hull ..)
    exact (endWith_hull ..).trans word

/-- An engine that stopped for a bus error, with its tag pool in quarantine (R333). -/
def halted (now : Nat) (w : BitVec 64) (e : Engine) : Engine :=
  { e with st := if e.spare then .restarting else .stopped, resumeAt := now + 2, spare := false
           quarantine := min (e.quarantine + 1) 2, pending := Vector.replicate 16 0, lastError := w }

/-- A bus error once it is recorded, before the commands it meets end. -/
def busErrorNoted (s : State) (e ch k n : Nat) : State :=
  let s2 := (modEngine s e (halted s.beat (lastErrorWord s e ch k))).updMovers fun m => { m with busErrors := satAdd m.busErrors 1, affected := satAdd m.affected n }
  match ((getEngine s e).descs.find? fun d => d.chan == ch).map Desc.fn with
  | some n => modLink s2 (fnLink n) fun l => { l with aerUncorr := satAdd l.aerUncorr 1 }
  | none => s2

theorem busErrorNoted_engines (s : State) (e ch k n : Nat) :
    getEngine (busErrorNoted s e ch k n) = getEngine (modEngine s e (halted s.beat (lastErrorWord s e ch k))) ∧
      (busErrorNoted s e ch k n).movers.busErrors = satAdd s.movers.busErrors 1 := by
  unfold busErrorNoted
  dsimp only
  split <;> exact ⟨rfl, rfl⟩

theorem busErrorNoted_frame (s : State) (e ch k n : Nat) :
    busErrorNoted s e ch k n = { s with movers := (busErrorNoted s e ch k n).movers, links := (busErrorNoted s e ch k n).links } := by
  unfold busErrorNoted
  dsimp only
  split <;> rfl

theorem busError_runs {s : State} {e ch k : Nat} (h : e < 4) (low : 1 ≤ k) (high : k ≤ 5) (chan : ch / 16 = e) :
    let owners := engineOwners s e ++ (engineBooked s e s.beat 2).filter fun c => !(engineOwners s e).contains c
    exec (.busError e ch k) s = .next (owners.foldl busEnd (busErrorNoted s e ch k owners.length)) := by
  refine congrArg Host.Outcome.next ((if_neg ?_).trans ?_)
  · omega
  · unfold busErrorNoted
    dsimp only
    cases ((getEngine s e).descs.find? fun d => d.chan == ch).map Desc.fn <;> rfl

theorem mem_updIf {α : Type} {p : α → Bool} {f : α → α} {l : List α} {x : α} (mem : x ∈ updIf p f l) : ∃ y ∈ l, x = if p y then f y else y := by
  obtain ⟨y, hy, e⟩ := List.mem_map.mp mem
  exact ⟨y, hy, e.symm⟩

/-- An engine whose copies paced by source p are marked (R337). -/
def marking (p : Nat) (on : Bool) (e : Engine) : Engine := { e with descs := updIf (fun d => d.pacer == some p) (fun d => { d with started := on }) e.descs }

/-- After marking, each paced copy of the source stands as marked. -/
theorem markBursts_marks (s : State) (p : Nat) (on : Bool) {e : Nat} (h : e < 4) {d : Desc} (mem : d ∈ (getEngine (markBursts s p on) e).descs)
    (paced : d.pacer = some p) : d.started = on := by
  have marked : getEngine (markBursts s p on) e = marking p on (getEngine s e) := vget_map s.movers.eng (marking p on) Engine.init h
  rw [marked] at mem
  obtain ⟨q, -, e⟩ := mem_updIf mem
  split at e
  · rw [e]
  · next other =>
    rw [e] at paced
    simp [paced] at other

/-- Settles O27: the engine's record by `halted`, which the ends of commands leave. -/
theorem moverEngines : Obligations.MoverEngines := by
  unfold Obligations.MoverEngines
  refine ⟨?alone, ?error, ?resume, ?drained, ?assert, ?withdraw⟩
  case alone =>
    intro s e ch k h low high chan spare stored booked
    have run := busError_runs (s := s) h low high chan
    rw [stored, booked] at run
    obtain ⟨engines, errors⟩ := busErrorNoted_engines s e ch k 0
    refine ⟨_, run, busErrorNoted_frame .., ?_⟩
    rw [List.filter_nil, List.append_nil, List.foldl_nil, List.length_nil, engines, getEngine_modEngine s h, halted, if_pos spare]
    exact ⟨rfl, rfl, rfl, rfl, rfl, rfl, errors, fun d _ other => getEngine_modEngine_ne s other _⟩
  case error =>
    intro s e ch k h low high chan
    refine ⟨_, busError_runs h low high chan, ?_⟩
    generalize engineOwners s e ++ (engineBooked s e s.beat 2).filter (fun c => !(engineOwners s e).contains c) = owners
    obtain ⟨engines, errors⟩ := busErrorNoted_engines s e ch k owners.length
    have same := foldl_hull busEnd_hull owners (busErrorNoted s e ch k owners.length)
    have engine := bare_of_hull same h
    rw [engines, getEngine_modEngine s h] at engine
    exact ⟨congrArg Engine.st engine, congrArg Engine.spare engine, congrArg Engine.quarantine engine, (congrArg Hull.busErrors same).trans errors⟩
  case resume =>
    intro s e h restarting due
    exact ⟨_, congrArg Host.Outcome.next (if_pos ⟨h, restarting, due⟩), rfl, getEngine_modEngine s h _, fun d _ other => getEngine_modEngine_ne s other _⟩
  case drained =>
    intro s e h pool
    refine ⟨_, congrArg Host.Outcome.next (if_neg ?_), rfl, (getEngine_modEngine s h _).trans ?_, fun d _ other => getEngine_modEngine_ne s other _⟩
    · simp [pool, h]
    · by_cases stopped : (getEngine s e).st = .stopped <;> simp [stopped]
  case assert =>
    intro s p h
    exact ⟨_, congrArg Host.Outcome.next (if_neg (Nat.not_le.mpr h)), rfl, vget_vset_same _ _ _ h, fun e he d mem paced => markBursts_marks _ p true he mem paced⟩
  case withdraw =>
    intro s p h on
    refine ⟨_, congrArg Host.Outcome.next (if_neg ?_), rfl, vget_vset_same _ _ _ h, rfl, fun e he d mem paced => markBursts_marks _ p false he mem paced⟩
    simp [on, h]

end Sys2Proof.Proofs

end

section
/-! PROOF. O28: fetched data, held entries, decisions and the planner's cycle. -/

namespace Sys2Proof.Proofs

open Sys2Proof Sys2Proof.Machine Sys2Proof.Safety Sys2Proof.Laws

theorem fetchDataReturn_waits {s : State} {g i : Nat} {e pr : List Byte} {sg : List (List Byte)} {d : EntryData} {f : Fetching}
    (found : (s.plan.fetching.find? fun f => f.ring % 1024 == g && f.idx == i) = some f) (data : fetchedData e sg pr = some d)
    (ring : (ringOrGone s f.ring).isSome = true) :
    exec (.fetchDataReturn g i e sg pr) s = .next ((s.updPlan fun p => { p with fetching := p.fetching.filter fun k => k != f }).updPlan fun p =>
      { p with fetched := p.fetched ++ [{ ring := f.ring, idx := i, data := d, at_ := s.beat }] }) := by
  have there : ¬ (ringOrGone s f.ring).isNone = true := by
    rw [Option.isNone_eq_false_iff.mpr ring]
    exact Bool.false_ne_true
  show execFetchDataReturn g i e sg pr s = _
  unfold execFetchDataReturn
  rw [found, data]
  exact congrArg Host.Outcome.next (if_neg there)

/-- A completion changes no ring but its own place for completions. -/
theorem getRing_writeCompletion {s : State} {g : Nat} {r : Ring} (found : getRing s g = some r) (st cid : BitVec 16) (d : BitVec 8) (res adm : BitVec 64)
    (line : Option Nat) (noIrq : Bool) :
    ∃ q, getRing (writeCompletion s g st cid d res adm line noIrq) g = some q ∧ q.held = r.held ∧ q.sqHead = r.sqHead ∧ q.deficit = r.deficit := by
  simp only [writeCompletion, found]
  obtain ⟨n, hn⟩ := getRing_coalesce (s := emit (modRing s g fun r => { r with
    cqTail := (r.cqTail + 1) % r.cqSize
    phase := if r.cqTail + 1 = r.cqSize then !r.phase else r.phase
    oldest := if noIrq then r.oldest else if r.pend = 0 then s.beat else r.oldest
    pend := if noIrq then r.pend else r.pend + 1 }) (.completion g r.cqTail (entryOf s r st cid d res adm line))) (getRing_changed found)
  exact ⟨_, hn, rfl, rfl, rfl⟩

/-- A refusal of an entry of a ring in service posts its one completion, with admission sequence 0 (R40, R88). -/
theorem postRefusal_posts {s : State} {o : Origin} {g : Nat} {r : Ring} (src : o.src = .ring g) (found : getRing s g = some r) (going : r.rst = none)
    (writable : fnWritable s r.fn = true) (e : Entry) {x : Refuse} (plain : x.verifyFail = false) :
    postRefusal s o e x = writeCompletion (countRefused (book s .comps .host s.beat 1 0)) g x.status e.cid x.detail x.result 0 (some 0) e.noIrq := by
  have found' : getRing (countRefused (book s .comps .host s.beat 1 0)) g = some r := found
  have writable' : fnWritable (countRefused (book s .comps .host s.beat 1 0)) r.fn = true := writable
  simp only [postRefusal, plain, Bool.false_eq_true, if_false, src, found', going, Option.isSome_none, writable', if_true]

theorem holdTimeout_refuses {s : State} {g : Nat} {r : Ring} {h : HeldEntry} (found : getRing s g = some r) (held : r.held = some h)
    (late : h.since + nvVal s 0x02000007 ≤ s.beat) (cool : s.therm.hotAt = none) (power : s.power.lost = false) (room : compsFull s = false) :
    exec (.holdTimeout g) s = .next (postRefusal (decidedHead (spend s r.origin 1) r.origin) r.origin h.data.entry (ref h.cause 0)) := by
  show execHoldTimeout g s = _
  unfold execHoldTimeout
  simp only [found, held]
  refine congrArg Host.Outcome.next (if_neg ?_)
  simp [Nat.not_lt.mpr late, cool, power, room]

/-- The ring of a decided entry, with its head one further where it holds (R40). -/
theorem getRing_decided {s : State} {g : Nat} {r : Ring} (found : getRing s g = some r) {o : Origin} (src : o.src = .ring g) (k : Nat) :
    getRing (decidedHead (spend s o k) o) g = some (if r.hold && r.st == .active then { r with deficit := r.deficit - k, sqHead := (r.sqHead + 1) % r.sqSize, held := none }
      else { r with deficit := r.deficit - k }) := by
  have spent : getRing (spend s o k) g = some { r with deficit := r.deficit - k } := by
    simp only [spend, src]
    exact getRing_changed (f := fun r => { r with deficit := r.deficit - k }) found
  simp only [decidedHead, src]
  exact getRing_changed (f := fun r => if r.hold && r.st == .active then { r with sqHead := (r.sqHead + 1) % r.sqSize, held := none } else r) spent
    (fun q => by split <;> rfl)

theorem decided_frame {s : State} {g : Nat} {o : Origin} (src : o.src = .ring g) (k : Nat) :
    decidedHead (spend s o k) o = { s with rings := (decidedHead (spend s o k) o).rings } := by
  simp only [decidedHead, spend, src]
  rfl

theorem admBegins_none {s : State} {x : Ctx} (create : x.entry.isAdm 0x81 = false) (delete : x.entry.isAdm 0x82 = false) :
    (admBegins s x).ctxs = s.ctxs ∧ (admBegins s x).plan = s.plan ∧ (admBegins s x).out = s.out ∧ (admBegins s x).rings = s.rings := by
  unfold admBegins
  rw [create, delete]
  repeat' split
  · contradiction
  · contradiction
  · exact ⟨rfl, rfl, rfl, rfl⟩
  · exact ⟨rfl, rfl, rfl, rfl⟩
  · exact ⟨rfl, rfl, rfl, rfl⟩

/-- An entry that is taken adds its context and takes the next admission sequence (R31). -/
theorem takeEntry_adds (t : Trial) {x : Ctx} (create : x.entry.isAdm 0x81 = false) (delete : x.entry.isAdm 0x82 = false) :
    (takeEntry t x).ctxs = t.st.ctxs ++ [x] ∧ (takeEntry t x).plan.admSeq = t.st.plan.admSeq + 1 ∧ (takeEntry t x).out = t.st.out ∧
      (takeEntry t x).rings = t.st.rings := by
  unfold takeEntry
  dsimp only
  split
  · next ns _ =>
    obtain ⟨d, hd⟩ := registerDeep_deep ns (x.reads ++ x.fed) (State.updZci ((t.st.updCtxs fun l => l ++ [x]).updPlan fun p =>
      { p with admSeq := p.admSeq + 1, admitted := satAdd p.admitted 1 }) fun z =>
        { z with lib := updIf (fun l => x.pins.contains l.slot) (fun l => { l with pins := l.pins + 1 }) z.lib
                 codeFree := z.codeFree - x.codePages
                 ctxPeak := max z.ctxPeak ((t.st.updCtxs fun l => l ++ [x]).updPlan fun p =>
                   { p with admSeq := p.admSeq + 1, admitted := satAdd p.admitted 1 }).ctxs.length })
    obtain ⟨ctxs, plan, out, rings⟩ := admBegins_none (s := registerDeep _ ns (x.reads ++ x.fed)) create delete
    rw [ctxs, plan, out, rings, hd]
    exact ⟨rfl, rfl, rfl, rfl⟩
  · obtain ⟨ctxs, plan, out, rings⟩ := admBegins_none (s := State.updZci _ _) create delete
    rw [ctxs, plan, out, rings]
    exact ⟨rfl, rfl, rfl, rfl⟩

theorem intoReset_active {s : State} {x : Ctx} {g : Nat} {r : Ring} (own : x.ringOf = some g) (found : getRing s g = some r) (active : r.st = .active) :
    intoReset s x = s := by
  simp [intoReset, own, found, active]

theorem planCycle_rests {s : State} (idle : serving s = false) (open_ : s.day.sealed = none ∨ s.day.fatal = true) : planCycle s = s := by
  unfold planCycle
  rcases open_ with e | e <;> simp [idle, e]

theorem planCycle_drains {s : State} (idle : serving s = false) (sealed : s.day.sealed.isSome = true) (going : s.day.fatal = false) :
    planCycle s = ckptBeat (careBeat (sysBeat (if s.day.puntyOn ∧ s.twin.hbStopped = false then heartbeat s else s))) := by
  unfold planCycle
  simp [idle, sealed, going]

theorem planCycle_serves {s : State} (on : serving s = true) :
    let u := countSuspends (passHoldback (laySpans 64 (sampleDoorbells (stoppedEngines (twinBeat (wornCheck (wearCheck (holdOps (armLowers s)))))))))
    let w := careOffer (retryOps (replBeat (initSweep (armedDrain (if s.plan.stopped then u else decideBeat u)))) false)
    planCycle s = ckptBeat (careBeat (sysBeat (journalOut w (if w.power.jthrough then 1 else 128)))) := by
  unfold planCycle
  rw [on]
  exact if_neg (by simp)

theorem busBeat_dark {s : State} (quiet : ∀ x ∈ s.flash.dies, x.dark = true ∨ x.ops = []) : busBeat s = s := by
  have fold : ∀ (l : List Die), (∀ x ∈ l, x.dark = true ∨ x.ops = []) →
      l.foldl (fun s x => if x.dark then s else x.ops.foldl (fun s o => opCmds s x.d o) s) s = s := fun l quiet => by
    induction l with
    | nil => rfl
    | cons x l ih =>
      have first : (if x.dark then s else x.ops.foldl (fun s o => opCmds s x.d o) s) = s := by
        rcases quiet x List.mem_cons_self with dark | none_
        · rw [if_pos dark]
        · rw [none_]
          exact ite_self s
      rw [List.foldl_cons, first]
      exact ih fun y mem => quiet y (List.mem_cons_of_mem _ mem)
  exact fold _ quiet

/-- Settles O28: each decision by its branch, the ring through `getRing_decided`, the cycle by its two modes. -/
theorem plannerDecisions : Obligations.PlannerDecisions := by
  unfold Obligations.PlannerDecisions
  refine ⟨?fetched, ?timeout, ?refused, ?taken, ?heldBack, ?rests, ?drains, ?serves, ?dark⟩
  case fetched =>
    intro s g i e sg pr d f found data ring
    refine ⟨_, fetchDataReturn_waits found data ring, rfl, rfl, fun mem => ?_, fun k mem other => List.mem_filter.mpr ⟨mem, by simpa using other⟩⟩
    simpa using (List.mem_filter.mp mem).2
  case timeout =>
    intro s g r h f found held late cool power hold active going fn writable room
    have run := holdTimeout_refuses found held late cool power room
    have src : r.origin.src = .ring g := congrArg Src.ring (getRing_number found)
    have ring := getRing_decided found src 1
    rw [hold, active] at ring
    have frame := decided_frame (s := s) src 1
    obtain ⟨u, hu⟩ : ∃ u, u = decidedHead (spend s r.origin 1) r.origin := ⟨_, rfl⟩
    rw [← hu] at run ring frame
    have keeps : u.out = s.out ∧ u.plan = s.plan ∧ u.ctxs = s.ctxs ∧ u.fns = s.fns := by
      rw [frame]
      exact ⟨rfl, rfl, rfl, rfl⟩
    obtain ⟨out, plan, ctxs, fns⟩ := keeps
    have canWrite : fnWritable u r.fn = true := by
      simp [fnWritable, getFn_of_fns fns, fn, writable]
    rw [postRefusal_posts src ring going canWrite _ (by rfl)] at run
    have ring' : getRing (countRefused (book u .comps .host u.beat 1 0)) g = some _ := ring
    obtain ⟨l, sent, -⟩ := writeCompletion_out ring' (ref h.cause 0).status h.data.entry.cid (ref h.cause 0).detail (ref h.cause 0).result 0 (some 0) h.data.entry.noIrq
    obtain ⟨q, at_, none_, head, deficit⟩ := getRing_writeCompletion ring' (ref h.cause 0).status h.data.entry.cid (ref h.cause 0).detail (ref h.cause 0).result 0 (some 0) h.data.entry.noIrq
    obtain ⟨rings, fns', out', done⟩ := writeCompletion_frame (countRefused (book u .comps .host u.beat 1 0)) g (ref h.cause 0).status h.data.entry.cid (ref h.cause 0).detail
      (ref h.cause 0).result 0 (some 0) h.data.entry.noIrq
    have entry := sent.trans (congrArg (· ++ _) out)
    refine ⟨_, run, ⟨_, l, entry, rfl, rfl, rfl⟩, ⟨q, at_, none_, head, deficit⟩, ?_, ?_, ?_⟩
    · rw [done, ← plan]
      rfl
    · rw [done, ← plan]
      rfl
    · rw [done]
      exact ctxs
  case refused =>
    intro w o d r bad
    simp only [decideOne, bad]
  case taken =>
    intro w o d t x g r good verdict src own found active create delete seq rings
    obtain ⟨ctxs, admSeq, out, rings'⟩ := takeEntry_adds t create delete
    obtain ⟨u, hu⟩ : ∃ u, u = takeEntry t x := ⟨_, rfl⟩
    rw [← hu] at ctxs admSeq out rings'
    have foundU : getRing u g = some r := by
      rw [getRing, rings', rings]
      exact found
    have ring := getRing_decided foundU src (costOf w.st o d)
    have isRing : o.isRing = true := by simp [Origin.isRing, src]
    have run : decideOne w o d = { w with
        st := intoReset (decidedHead ((spend u o (costOf w.st o d)).updPlan fun p =>
          { p with fnTotals := Assoc.set p.fnTotals o.fn (fnTotal (spend u o (costOf w.st o d)) o.fn + costOf w.st o d) }) o) x
        admits := w.admits + 1 } := by
      simp only [decideOne, good, verdict, isRing, if_true, hu]
    obtain ⟨v, hv⟩ : ∃ v, v = decidedHead ((spend u o (costOf w.st o d)).updPlan fun p =>
          { p with fnTotals := Assoc.set p.fnTotals o.fn (fnTotal (spend u o (costOf w.st o d)) o.fn + costOf w.st o d) }) o := ⟨_, rfl⟩
    have same : v = { u with rings := (decidedHead (spend u o (costOf w.st o d)) o).rings, plan := v.plan } ∧ v.plan.admSeq = u.plan.admSeq := by
      rw [hv]
      simp only [decidedHead, spend, src]
      exact ⟨rfl, rfl⟩
    obtain ⟨frame, seqV⟩ := same
    have ringV : getRing v g = getRing (decidedHead (spend u o (costOf w.st o d)) o) g := by
      rw [frame]
      rfl
    have stays : intoReset v x = v := by
      refine intoReset_active own (ringV.trans ring) ?_
      split <;> exact active
    rw [← hv, stays] at run
    rw [run]
    refine ⟨?_, rfl, ?_, ?_⟩
    · show v.ctxs = _
      rw [frame]
      exact ctxs
    · show v.plan.admSeq = _
      rw [seqV, admSeq, seq]
    · show v.out = _
      rw [frame]
      exact out
  case heldBack =>
    intro w o d st g r good verdict space src found hold active
    have fits : wornEntry w.st o d st = w.st := if_neg fun h => space h.1
    have keeps : holds w.st o st = true := by
      simp [holds, src, found, hold, active, space]
    have run : decideOne w o d = { w with st := holdEntry w.st o d st, stop := true } := by
      simp only [decideOne, good, verdict, fits, keeps, if_true]
    rw [run]
    simp only [holdEntry, src]
    exact ⟨trivial, rfl, _, _, getRing_changed (f := fun r =>
      { r with held := some { data := d, since := (r.held.map HeldEntry.since).getD w.st.beat, cause := st } }) found, rfl, rfl, rfl, rfl⟩
  case rests =>
    intro s idle open_
    exact congrArg (fun u => Host.Outcome.next (busBeat u)) (planCycle_rests idle open_)
  case drains =>
    intro s idle sealed going
    exact ⟨_, rfl, congrArg (fun u => Host.Outcome.next (busBeat u)) (planCycle_drains idle sealed going)⟩
  case serves =>
    intro s on
    exact ⟨_, _, _, rfl, rfl, rfl, congrArg (fun u => Host.Outcome.next (busBeat u)) (planCycle_serves on)⟩
  case dark =>
    intro s quiet
    exact busBeat_dark quiet

end Sys2Proof.Proofs

end

section
/-! PROOF. What a booking leaves: all but the calendars, the dies' operations and the beats a moved POST has. -/

namespace Sys2Proof.Proofs

open Sys2Proof Sys2Proof.Machine Sys2Proof.Safety Sys2Proof.Laws

/-- A context without the beats that a moved POST changes (R61). -/
def unposted (y : Ctx) : Ctx := { y with postBeat := 0, eventBeat := 0, commitBeat := none }

/-- A state without what bookings change. -/
def unbooked (s : State) : State := { s with plan := Planner.init, flash := { s.flash with dies := [] }, ctxs := s.ctxs.map unposted }

@[simp] theorem updPlan_unbooked (s : State) (f) : unbooked (s.updPlan f) = unbooked s := rfl
@[simp] theorem modDie_unbooked (s : State) (d f) : unbooked (modDie s d f) = unbooked s := rfl
@[simp] theorem queueOp_unbooked (s : State) (d o) : unbooked (queueOp s d o) = unbooked s := rfl
@[simp] theorem tagSince_unbooked (s t : State) (k) : unbooked (tagSince s t k) = unbooked t := rfl
@[simp] theorem unqueue_unbooked (s : State) (d n o) : unbooked (unqueue s d n o) = unbooked s := rfl

theorem modCtx_unbooked (s : State) (c : Nat) {f : Ctx → Ctx} (keeps : ∀ y, unposted (f y) = unposted y) : unbooked (modCtx s c f) = unbooked s := by
  have ctxs : (modCtx s c f).ctxs.map unposted = s.ctxs.map unposted := by
    simp only [modCtx, State.updCtxs, updIf, List.map_map]
    refine List.map_congr_left fun y _ => ?_
    simp only [Function.comp_apply]
    split
    · exact keeps y
    · rfl
  unfold unbooked
  rw [ctxs]
  rfl

@[simp] theorem book_unbooked (s : State) (r sh b k o) : unbooked (book s r sh b k o) = unbooked s := by
  unfold book
  split <;> rfl

@[simp] theorem take_unbooked (s : State) (r b k o) : unbooked (take s r b k o) = unbooked s := by
  unfold take
  dsimp only
  repeat' split
  all_goals simp

@[simp] theorem bookEven_unbooked (s : State) (r sh b n k o) : unbooked (bookEven s r sh b n k o) = unbooked s :=
  foldl_keeps unbooked (fun _ _ => book_unbooked ..) _ s

@[simp] theorem bookXfer_unbooked (s : State) (d n sh t o) : unbooked (bookXfer s d n sh t o) = unbooked s := by
  unfold bookXfer
  simp

@[simp] theorem bookRead_unbooked (s : State) (psa r n sh t l o) : unbooked (bookRead s psa r n sh t l o) = unbooked s := by
  unfold bookRead
  simp

@[simp] theorem opTime_unbooked (s : State) (d n o) : unbooked (opTime s d n o) = unbooked s := by
  unfold opTime
  simp

@[simp] theorem opTake_unbooked (s : State) (r sh b k) : unbooked (opTake s r sh b k) = unbooked s := by
  unfold opTake
  dsimp only
  repeat' split
  all_goals simp

@[simp] theorem startOp_unbooked (s : State) (d t o) : unbooked (startOp s d t o) = unbooked s := by
  unfold startOp
  exact (foldl_keeps unbooked (fun _ _ => (opTake_unbooked ..).trans (opTake_unbooked ..)) _ _).trans ((bookEven_unbooked ..).trans (queueOp_unbooked ..))

theorem fill_unbooked {n : Nat} {s : State} {r : Res} {b last k o : Nat} {l : List Nat} {t : State} (h : fill n s r b last k o = some (l, t)) : unbooked t = unbooked s := by
  induction n generalizing s b k l t with
  | zero => cases h
  | succ n ih =>
    unfold fill at h
    grind [take_unbooked]

theorem spread_unbooked {n : Nat} {s : State} {r : Res} {lo b hi k o : Nat} {t : State} (h : spread n s r lo b hi k o = some t) : unbooked t = unbooked s := by
  induction n generalizing s b t with
  | zero => cases h
  | succ n ih =>
    unfold spread at h
    grind [take_unbooked]

theorem evenly_unbooked {s : State} {r : Res} {lo hi k o : Nat} {t : State} (h : evenly s r lo hi k o = some t) : unbooked t = unbooked s := by
  unfold evenly at h
  grind [→ spread_unbooked]

theorem bookOut_unbooked {s : State} {x : Ctx} {a b n : Nat} {l : List Nat} {t : State} (h : bookOut s x a b n = some (l, t)) : unbooked t = unbooked s := by
  unfold bookOut at h
  grind [→ fill_unbooked]

theorem bookIn_unbooked {s : State} {x : Ctx} {a b n : Nat} {l : List Nat} {t : State} (h : bookIn s x a b n = some (l, t)) : unbooked t = unbooked s := by
  unfold bookIn at h
  grind [→ fill_unbooked, Option.map_eq_some_iff]

theorem planSlot_unbooked {s : State} {psa n : Nat} {sh : Share} {b l d o e : Nat} {t : State} (h : planSlot s psa n sh b l d o = some (e, t)) :
    unbooked t = unbooked s := by
  unfold planSlot at h
  grind [bookRead_unbooked]

theorem shareRead_unbooked {s : State} {psa n b l o e : Nat} {t : State} (h : shareRead s psa n b l o = some (e, t)) : unbooked t = unbooked s := by
  unfold shareRead at h
  grind [bookXfer_unbooked]

theorem planFar_unbooked {s : State} {psa n b l o e : Nat} {t : State} (h : planFar s psa n b l o = some (e, t)) : unbooked t = unbooked s := by
  unfold planFar at h
  grind [take_unbooked]

theorem placeOp_unbooked {s : State} {d b last : Nat} {o : ArrayOp} {t : State} (h : placeOp s d b last o = some t) : unbooked t = unbooked s := by
  unfold placeOp at h
  grind [startOp_unbooked, Option.map_eq_some_iff]

/-- A step that may fail keeps what bookings leave, over a list. -/
theorem bindFold_unbooked {α : Type} {f : State → α → Option State} (keeps : ∀ s a t, f s a = some t → unbooked t = unbooked s) (l : List α) {s t : State}
    (h : l.foldl (fun m a => m.bind fun s => f s a) (some s) = some t) : unbooked t = unbooked s := by
  have all : ∀ (l : List α) (m : Option State), l.foldl (fun m a => m.bind fun s => f s a) m = some t → ∃ u, m = some u ∧ unbooked t = unbooked u := fun l => by
    induction l with
    | nil => exact fun m e => ⟨t, e, rfl⟩
    | cons a l ih =>
      intro m e
      obtain ⟨v, hv, ev⟩ := ih _ e
      obtain ⟨u, hu, eu⟩ := Option.bind_eq_some_iff.mp hv
      exact ⟨u, hu, ev.trans (keeps u a v eu)⟩
  obtain ⟨u, hu, e⟩ := all l _ h
  cases hu
  exact e

theorem planAround_unbooked {s : State} {psa n : Nat} {sh : Share} {b l d o e : Nat} {t : State} (h : planAround s psa n sh b l d o = some (e, t)) :
    unbooked t = unbooked s := by
  have fold : ∀ (q : List Nat) (e : Nat) (u : State), q.foldl (fun m q => match m with
      | none => none
      | some (e, s1) => match planSlot s1 q n sh b l d o with
        | none => none
        | some (e1, s2) => some (max e e1, s2)) (some (e, u)) = none ∨ ∃ e' v, q.foldl (fun m q => match m with
      | none => none
      | some (e, s1) => match planSlot s1 q n sh b l d o with
        | none => none
        | some (e1, s2) => some (max e e1, s2)) (some (e, u)) = some (e', v) ∧ unbooked v = unbooked u := fun q => by
    induction q with
    | nil => exact fun e u => .inr ⟨e, u, rfl, rfl⟩
    | cons a q ih =>
      intro e u
      rw [List.foldl_cons]
      dsimp only
      rcases step : planSlot u a n sh b l d o with - | ⟨e1, v⟩
      · refine .inl ?_
        clear ih
        induction q with
        | nil => rfl
        | cons a q ih => exact ih
      · rcases ih (max e e1) v with none_ | ⟨e', w, run, same⟩
        · exact .inl none_
        · exact .inr ⟨e', w, run, same.trans (planSlot_unbooked step)⟩
  unfold planAround at h
  split at h
  · cases h
  · rcases fold (otherSlots s psa) b s with none_ | ⟨e', v, run, same⟩
    · cases none_.symm.trans h
    · cases run.symm.trans h
      exact same

theorem suspendFor_unbooked {s : State} {psa n b l d w e : Nat} {o : ArrayOp} {t : State} (h : suspendFor s psa n b l d w o = some (e, t)) : unbooked t = unbooked s := by
  unfold suspendFor at h
  dsimp only at h
  repeat' split at h
  all_goals cases h
  all_goals simp

theorem planSuspend_unbooked {s : State} {psa n b l d w e : Nat} {t : State} (h : planSuspend s psa n b l d w = some (e, t)) : unbooked t = unbooked s := by
  have fold : ∀ (os : List ArrayOp) (m : Option (Nat × State)), (∀ p, m = some p → unbooked p.2 = unbooked s) → ∀ p,
      os.foldl (fun m o => match m with
        | some p => some p
        | none => suspendFor s psa n b l d w o) m = some p → unbooked p.2 = unbooked s := fun os => by
    induction os with
    | nil => exact fun m hm p e => hm p e
    | cons o os ih =>
      intro m hm p e
      refine ih _ (fun q hq => ?_) p e
      cases m with
      | some r => exact hm q hq
      | none => exact suspendFor_unbooked hq
  exact fold _ none (fun _ e => by cases e) _ h

theorem ladderSlot_unbooked {s : State} {x : Ctx} {psa i b l : Nat} {c : Bool} {t : State} (h : ladderSlot s x psa i b l c = some t) : unbooked t = unbooked s := by
  have go : ∀ {m : Option State} {r : Res} {k : Nat} {u : State}, (m.bind fun s => (fill calFuel s r b l k x.adm).map Prod.snd) = some u →
      ∃ v, m = some v ∧ unbooked u = unbooked v := fun e => by
    obtain ⟨v, e1, e2⟩ := Option.bind_eq_some_iff.mp e
    obtain ⟨p, e3, rfl⟩ := Option.map_eq_some_iff.mp e2
    exact ⟨v, e1, fill_unbooked e3⟩
  unfold ladderSlot at h
  obtain ⟨u, h1, rfl⟩ := Option.map_eq_some_iff.mp h
  obtain ⟨v1, e1, k1⟩ := go h1
  obtain ⟨v2, e2, k2⟩ := go e1
  obtain ⟨v3, e3, k3⟩ := go e2
  obtain ⟨v4, e4, k4⟩ := go e3
  obtain ⟨v5, e5, k5⟩ := go e4
  obtain ⟨v6, e6, k6⟩ := go e5
  cases e6
  exact k1.trans (k2.trans (k3.trans (k4.trans (k5.trans k6))))

theorem bookLadder_unbooked {s : State} {x : Ctx} {psa n b l : Nat} {c : Bool} {t : State} (h : bookLadder s x psa n b l c = some t) : unbooked t = unbooked s := by
  unfold bookLadder at h
  split at h
  · cases h
    rfl
  · exact bindFold_unbooked (fun _ _ _ e => ladderSlot_unbooked e) _ h

theorem movePost_unbooked {s : State} {x : Ctx} {e : Nat} {t : State} (h : movePost s x e = some t) : unbooked t = unbooked s := by
  unfold movePost at h
  dsimp only at h
  split at h
  · cases h
  · next l u booked =>
    have first : unbooked u = unbooked s := by
      split at booked
      · exact (bookOut_unbooked booked).trans (updPlan_unbooked ..)
      · obtain ⟨-, e⟩ := Prod.mk.inj (Option.some.inj booked)
        rw [← e]
        exact updPlan_unbooked ..
    split at h
    · cases h
    · rw [← Option.some.inj h]
      refine Eq.trans (modCtx_unbooked _ _ ?_) ((take_unbooked ..).trans first)
      exact fun _ => rfl

theorem requeue_unbooked {s : State} {d n : Nat} {o : ArrayOp} {t : State} (h : requeue s d n o = some t) : unbooked t = unbooked s := by
  have read : ∀ {t}, requeueRead s d n o = some t → unbooked t = unbooked s := fun h => by
    unfold requeueRead at h
    grind [→ planSlot_unbooked, → movePost_unbooked, Option.bind_eq_some_iff]
  have program : ∀ {t}, requeueProgram s d o = some t → unbooked t = unbooked s := fun h => by
    unfold requeueProgram at h
    grind [opTime_unbooked, queueOp_unbooked, Option.map_eq_some_iff]
  unfold requeue at h
  grind [→ planSlot_unbooked, → placeOp_unbooked, Option.map_eq_some_iff]

theorem planAhead_unbooked {s : State} {psa n b l d w e : Nat} {t : State} (h : planAhead s psa n b l d w = some (e, t)) : unbooked t = unbooked s := by
  unfold planAhead at h
  dsimp only at h
  split at h
  · cases h
  · split at h
    · cases h
    · split at h
      · cases h
      · next e' u h1 =>
        obtain ⟨v, h2, e2⟩ := Option.map_eq_some_iff.mp h
        cases e2
        exact (bindFold_unbooked (fun _ _ _ e => requeue_unbooked e) _ h2).trans
          ((planSlot_unbooked h1).trans (foldl_keeps unbooked (fun _ _ => unqueue_unbooked ..) _ _))

theorem laddered_unbooked {s : State} {x : Ctx} {psa n b l : Nat} {c : Bool} {r : GranRead} {m : Option (Nat × State)} (hm : ∀ e u, m = some (e, u) → unbooked u = unbooked s)
    {p : Nat × GranRead × State} (h : (m.bind fun p => (bookLadder p.2 x psa n b l c).map fun s1 => (p.1, r, s1)) = some p) : unbooked p.2.2 = unbooked s := by
  obtain ⟨⟨e, u⟩, hu, h⟩ := Option.bind_eq_some_iff.mp h
  obtain ⟨v, hv, rfl⟩ := Option.map_eq_some_iff.mp h
  exact (bookLadder_unbooked hv).trans (hm e u hu)

theorem planGran_unbooked {s : State} {x : Ctx} {r : GranRead} {b l : Nat} {p : Nat × GranRead × State} (h : planGran s x r b l = some p) : unbooked p.2.2 = unbooked s := by
  have around : ∀ {psa n : Nat} {sh : Share} {b l d o : Nat} (e : Nat) (u : State),
      ((planAround s psa n sh b l d o).map fun p => (p.1 + 1, p.2)) = some (e, u) → unbooked u = unbooked s := fun e u h => by
    obtain ⟨p, hp, h⟩ := Option.map_eq_some_iff.mp h
    cases h
    exact planAround_unbooked hp
  unfold planGran at h
  dsimp only at h
  split at h
  · split at h
    · exact laddered_unbooked around h
    · split at h
      · split at h
        · next hp =>
          cases h
          exact laddered_unbooked (fun _ _ => shareRead_unbooked) hp
        split at h
        · next hp =>
          cases h
          exact laddered_unbooked (fun _ _ => planSlot_unbooked) hp
        split at h
        · next hp =>
          cases h
          refine laddered_unbooked (fun _ _ e => ?_) hp
          split at e
          · exact planFar_unbooked e
          · cases e
        split at h
        · next hp =>
          cases h
          exact laddered_unbooked (fun _ _ => planAhead_unbooked) hp
        split at h
        · cases h
        split at h
        · next hp =>
          cases h
          exact laddered_unbooked (fun _ _ => planSuspend_unbooked) hp
        · exact laddered_unbooked around h
      · cases h
        rfl
  · cases h
    rfl

theorem planGrans_unbooked {s : State} {x : Ctx} {from_ : Nat → Nat} {l : Nat} {rs : List GranRead} {p : Nat × List GranRead × State}
    (h : planGrans s x from_ l rs = some p) : unbooked p.2.2 = unbooked s := by
  induction rs generalizing s p with
  | nil =>
    cases h
    rfl
  | cons r rs ih =>
    unfold planGrans at h
    split at h
    · cases h
    · next hp =>
      obtain ⟨q, hq, rfl⟩ := Option.map_eq_some_iff.mp h
      exact (ih hq).trans (planGran_unbooked hp)

theorem bookMoves_unbooked {s : State} {x : Ctx} {a b : Nat} {t : State} (h : bookMoves s x a b = some t) : unbooked t = unbooked s := by
  unfold bookMoves at h
  dsimp only at h
  grind [→ evenly_unbooked, Option.bind_eq_some_iff]

theorem getD_unbooked {m : Option State} {s : State} (keeps : ∀ t, m = some t → unbooked t = unbooked s) : unbooked (m.getD s) = unbooked s := by
  cases m with
  | none => rfl
  | some t => exact keeps t rfl

end Sys2Proof.Proofs

end

section
/-! PROOF. O30: what happens at a deadline. -/

namespace Sys2Proof.Proofs

open Sys2Proof Sys2Proof.Machine Sys2Proof.Safety Sys2Proof.Laws

/-! Events and the twin's state. -/

theorem raiseEvent_frame (s : State) (k : Nat) : raiseEvent s k = { s with fns := (raiseEvent s k).fns, out := (raiseEvent s k).out } := by
  unfold raiseEvent
  generalize s.fns.map HostFn.n = l
  induction l generalizing s with
  | nil => rfl
  | cons n l ih =>
    rw [List.foldl_cons, ih]
    obtain ⟨u, hu⟩ : ∃ u, u = raiseIn s n k := ⟨_, rfl⟩
    have frame : u = { s with fns := u.fns, out := u.out } := hu ▸ raiseIn_frame s n k
    rw [← hu, frame]

theorem event_frame (s : State) (k who : Nat) :
    event s k who = { s with fns := (event s k who).fns, out := (event s k who).out, side := (event s k who).side } := by
  unfold event
  rw [raiseEvent_frame]
  rfl

theorem eventIf_frame (b : Bool) (s : State) (k who : Nat) :
    eventIf b s k who = { s with fns := (eventIf b s k who).fns, out := (eventIf b s k who).out, side := (eventIf b s k who).side } := by
  cases b
  · rfl
  · exact event_frame s k who

theorem setTwin_frame (s : State) (t : TwinSt) :
    setTwin s t = { s with twin := { s.twin with st := t }, fns := (setTwin s t).fns, out := (setTwin s t).out, side := (setTwin s t).side } :=
  eventIf_frame _ (s.updTwin fun x => { x with st := t }) 3 0xFF

theorem toSolo_twin (s : State) (b : Bool) :
    (toSolo s b).twin = { s.twin with st := .solo, stale := s.twin.stale || b, retryAt := s.beat + nvVal s 0x0B000007, takeoverAt := none, released := false,
                                      handback := false, served := [], readySent := false, readySeen := false } := by
  unfold toSolo
  rw [setTwin_frame]
  rfl

theorem toSolo_ctxs (s : State) (b : Bool) : (toSolo s b).ctxs = s.ctxs.map fun y => { y with mirrorWait := [] } := by
  unfold toSolo
  rw [setTwin_frame]
  rfl

theorem toSolo_waits (s : State) (b : Bool) : ∀ y ∈ (toSolo s b).ctxs, y.mirrorWait = [] := by
  rw [toSolo_ctxs]
  intro y mem
  obtain ⟨z, -, rfl⟩ := List.mem_map.mp mem
  rfl

/-! The deadline of a command. -/

/-- A command whose end is not decided yet: it still runs, or posts what is not durable (R51). -/
def Undecided (s : State) (x : Ctx) : Prop :=
  x.wait = .ready ∨ x.wait = .resident ∨ x.wait = .instr ∧ tookDark s x = false ∨
    x.wait = .posting ∧ tookDark s x = false ∧ durable s x = false ∧ awaitsTwin s x = false

theorem Undecided.lit {s : State} {x : Ctx} (h : Undecided s x) : ((x.wait == .instr || x.wait == .posting) && tookDark s x) = false := by
  rcases h with e | e | ⟨e, lit⟩ | ⟨e, lit, -⟩ <;> simp_all

theorem Undecided.open_ {s : State} {x : Ctx} (h : Undecided s x) : (x.wait == .posting && durable s x) = false := by
  rcases h with e | e | ⟨e, -⟩ | ⟨e, -, late, -⟩ <;> simp_all

theorem Undecided.alone {s : State} {x : Ctx} (h : Undecided s x) : awaitsTwin s x = false := by
  rcases h with e | e | ⟨e, -⟩ | ⟨-, -, -, alone⟩
  · simp [awaitsTwin, e]
  · simp [awaitsTwin, e]
  · simp [awaitsTwin, e]
  · exact alone

theorem Undecided.going {s : State} {x : Ctx} (h : Undecided s x) : x.wait ≠ .fixed := by
  rcases h with e | e | ⟨e, -⟩ | ⟨e, -⟩ <;> simp [e]

theorem contextDeadline_ends {s : State} {c : Nat} {x : Ctx} (found : getCtx s c = some x) (bounded : x.dOpen = false) (due : x.dline ≤ s.beat)
    (going : x.wait ≠ .fixed) (alone : awaitsTwin s x = false) : exec (.contextDeadline c) s = .next (endAtDeadline s x) := by
  show execContextDeadline c s = _
  unfold execContextDeadline
  rw [found]
  dsimp only
  rw [if_neg (by simp [bounded, due, going]), alone]
  rfl

theorem endAtDeadline_undecided {s : State} {x : Ctx} (undecided : Undecided s x) (notBlock : ¬ (x.wait = .resident ∧ x.entry.typ = 4 ∧ x.entry.op = 0x8C)) :
    endAtDeadline s x = if !readsDone x && readsDone (leaveDeep s x) then deepEnd (modCtx (dropDescs s x.c) x.c fun _ => leaveDeep s x) (leaveDeep s x)
      else faultCtx (dropDescs s x.c) x.c 0x06 := by
  have other : (x.wait == .resident && x.entry.typ == 4 && x.entry.op == 0x8C) = false := by
    simpa [and_assoc] using notBlock
  unfold endAtDeadline
  rw [undecided.lit, undecided.open_, other]
  rfl

/-- The reads not queued yet, booked anew by a D7 command's new deadline (R61). -/
def readsBooked (s : State) (x : Ctx) : State :=
  match planGrans s x (fun _ => s.beat + 1) (farEnd s - 1) (x.reads.filter (unqueued s x)) with
  | some (_, _, s1) => s1
  | none => s

theorem d7DeadlineExtend_runs {s : State} {c : Nat} {x : Ctx} (found : getCtx s c = some x) (open_ : x.dOpen = true) (going : x.wait ≠ .fixed) (due : x.dline ≤ s.beat) :
    ∃ u v, unbooked u = unbooked s ∧ unbooked v = unbooked u ∧ (x.reads.filter (unqueued s x) = [] → u = s) ∧
      (x.entry.isProg = false → v = if x.wait == .posting then u else extendMoves u x) ∧
      exec (.d7DeadlineExtend c) s = .next (modCtx v c fun y => { y with dline := lastBooked v x.adm s.beat + 8191 }) := by
  have run : exec (.d7DeadlineExtend c) s = .next
      (let v := if x.entry.isProg then extendProgram (readsBooked s x) x else if x.wait == .posting then readsBooked s x else extendMoves (readsBooked s x) x
       modCtx v c fun y => { y with dline := lastBooked v x.adm s.beat + 8191 }) := by
    show execD7DeadlineExtend c s = _
    unfold execD7DeadlineExtend
    rw [found]
    exact congrArg Host.Outcome.next (if_neg (by simp [open_, going, due]))
  obtain ⟨u, hu⟩ : ∃ u, u = readsBooked s x := ⟨_, rfl⟩
  rw [← hu] at run
  refine ⟨u, if x.entry.isProg then extendProgram u x else if x.wait == .posting then u else extendMoves u x, ?_, ?_, fun none_ => ?_, fun direct => ?_, ?_⟩
  · rw [hu]
    unfold readsBooked
    split
    · next booked => exact planGrans_unbooked booked
    · rfl
  · have moves : unbooked (extendMoves u x) = unbooked u := by
      have first : ∀ {p : Prop} [Decidable p] {v : State} {a b n : Nat}, unbooked (if p then ((bookOut v x a b n).map Prod.snd).getD v else v) = unbooked v := fun {_ _ v _ _ _} =>
        ite_agree unbooked (getD_unbooked fun t e => by
          obtain ⟨q, hq, rfl⟩ := Option.map_eq_some_iff.mp e
          exact bookOut_unbooked hq) rfl
      have second : ∀ {p : Prop} [Decidable p] {v : State} {a b n : Nat}, unbooked (if p then ((bookIn v x a b n).map Prod.snd).getD v else v) = unbooked v := fun {_ _ v _ _ _} =>
        ite_agree unbooked (getD_unbooked fun t e => by
          obtain ⟨q, hq, rfl⟩ := Option.map_eq_some_iff.mp e
          exact bookIn_unbooked hq) rfl
      exact second.trans first
    have program : unbooked (extendProgram u x) = unbooked u :=
      (getD_unbooked fun _ e => evenly_unbooked e).trans (getD_unbooked fun _ e => bookMoves_unbooked e)
    exact ite_agree unbooked program (ite_agree unbooked rfl moves)
  · rw [hu, readsBooked, none_]
    rfl
  · rw [direct]
    rfl
  · exact run

/-- The context a booking leaves, but for the beats of its POST. -/
theorem getCtx_of_unbooked {s t : State} (same : unbooked t = unbooked s) {c : Nat} {x : Ctx} (found : getCtx s c = some x) :
    ∃ y, getCtx t c = some y ∧ unposted y = unposted x := by
  have ctxs : t.ctxs.map unposted = s.ctxs.map unposted := congrArg State.ctxs same
  have image : ∀ l : List Ctx, (l.map unposted).find? (fun y => y.c == c) = (l.find? fun y => y.c == c).map unposted := fun l => by
    rw [List.find?_map]
    rfl
  have both := (image t.ctxs).symm.trans ((congrArg (List.find? fun y => y.c == c) ctxs).trans (image s.ctxs))
  rw [show s.ctxs.find? (fun y => y.c == c) = some x from found] at both
  obtain ⟨y, hy, e⟩ := Option.map_eq_some_iff.mp both
  exact ⟨y, hy, e⟩

theorem eq_of_unposted {x y : Ctx} (same : unposted y = unposted x) : y = { x with postBeat := y.postBeat, eventBeat := y.eventBeat, commitBeat := y.commitBeat } :=
  calc y = { unposted y with postBeat := y.postBeat, eventBeat := y.eventBeat, commitBeat := y.commitBeat } := rfl
    _ = _ := by rw [same]; rfl

theorem le_foldl_max {α : Type} (f : α → Nat) (l : List α) (m : Nat) : m ≤ l.foldl (fun m k => max m (f k)) m := by
  induction l generalizing m with
  | nil => exact Nat.le_refl m
  | cons a l ih => exact Nat.le_trans (Nat.le_max_left m (f a)) (ih _)

theorem le_lastBooked (s : State) (adm b : Nat) : b ≤ lastBooked s adm b := Nat.le_trans (le_foldl_max Booking.beat _ b) (le_foldl_max _ _ _)

/-- Settles O30: each branch of a deadline, the extension through what bookings leave. -/
theorem deadlinesPass : Obligations.DeadlinesPass := by
  unfold Obligations.DeadlinesPass
  refine ⟨?fault, ?deep, ?dark, ?block, ?idle, ?twin, ?extend, ?extendPost, ?extendMoves, ?notDue, ?ack⟩
  case fault =>
    intro s c x found bounded due waits notBlock reads
    have undecided : Undecided s x := waits
    rw [contextDeadline_ends found bounded due undecided.going undecided.alone, endAtDeadline_undecided undecided notBlock, getCtx_number found]
    refine congrArg Host.Outcome.next (if_neg ?_)
    rcases reads with e | e <;> simp [e]
  case deep =>
    intro s c x found bounded due waits notBlock read deep
    have undecided : Undecided s x := waits
    rw [contextDeadline_ends found bounded due undecided.going undecided.alone, endAtDeadline_undecided undecided notBlock, getCtx_number found]
    exact congrArg Host.Outcome.next (if_pos (by simp [read, deep]))
  case dark =>
    intro s c x found bounded due waits dark alone
    have going : x.wait ≠ .fixed := by rcases waits with e | e <;> simp [e]
    rw [contextDeadline_ends found bounded due going alone]
    refine congrArg Host.Outcome.next ((if_pos ?_).trans ?_)
    · rcases waits with e | e <;> simp [e, dark]
    · unfold postUnverified
      rw [getCtx_number found]
  case block =>
    intro s c x found bounded due resident typ op
    have number := getCtx_number found
    have run : exec (.contextDeadline c) s = .next (residentPost ((dropDescs s c).updNor Nor.interrupt) c St.state 3 0) := by
      rw [contextDeadline_ends found bounded due (by simp [resident]) (by simp [awaitsTwin, resident])]
      unfold endAtDeadline
      rw [number]
      simp [resident, typ, op]
    exact posts_of_kept_with (u := (dropDescs s c).updNor Nor.interrupt) found run rfl trivial
  case idle =>
    intro s c x found rest
    show execContextDeadline c s = _
    unfold execContextDeadline
    rw [found]
    refine congrArg Host.Outcome.next ?_
    dsimp only
    rcases rest with e | e | e | ⟨posting, lit, writes, alone⟩
    · simp [e]
    · simp [e]
    · simp [e]
    · simp [endAtDeadline, posting, lit, writes, alone]
  case twin =>
    intro s c x found bounded due posting waits
    refine ⟨?_, congrArg Twin.st (toSolo_twin _ _), toSolo_waits _ _⟩
    show execContextDeadline c s = _
    unfold execContextDeadline
    rw [found]
    dsimp only
    rw [if_neg (by simp [bounded, due, posting]), if_pos waits]
  case extend =>
    intro s c x found open_ going due
    obtain ⟨u, v, first, second, -, -, run⟩ := d7DeadlineExtend_runs found open_ going due
    obtain ⟨y, at_, same⟩ := getCtx_of_unbooked (second.trans first) found
    refine ⟨_, run, _, getCtx_changed (f := fun y => { y with dline := lastBooked v x.adm s.beat + 8191 }) at_, ?_, ?_⟩
    · rw [eq_of_unposted same]
    · exact Nat.add_le_add_right (le_lastBooked v x.adm s.beat) 8191
  case extendPost =>
    intro s c x found open_ going due direct none_ posting
    obtain ⟨u, v, -, -, first, second, run⟩ := d7DeadlineExtend_runs found open_ going due
    have same : v = s := by
      rw [second direct, posting]
      exact first none_
    rw [same] at run
    exact lands_of_changed (f := fun y => { y with dline := lastBooked s x.adm s.beat + 8191 }) found run
  case extendMoves =>
    intro s c x u found open_ going due direct none_ notPosting hu
    obtain ⟨w, v, -, -, first, second, run⟩ := d7DeadlineExtend_runs found open_ going due
    have same : v = u := by
      rw [second direct, first none_, hu]
      exact if_neg (by simpa using notPosting)
    rw [same] at run
    exact run
  case notDue =>
    intro s c x found rest
    show execD7DeadlineExtend c s = _
    unfold execD7DeadlineExtend
    rw [found]
    refine congrArg Host.Outcome.next (if_pos ?_)
    rcases rest with e | e <;> simp [e]
  case ack =>
    intro s c x p found cls mirrors late waits unacked noAttach noDetach
    have run : exec (.twinAckTimeout c) s = .next (toSolo (endAsked s St.twinUnavailable 0) false) := by
      show execTwinAckTimeout c s = _
      unfold execTwinAckTimeout
      rw [found]
      have some_ : x.mirrorWait.all (fun p => decide (p ≤ s.twin.ackedPseq)) = false :=
        List.all_eq_false.mpr ⟨p, waits, by simpa using unacked⟩
      refine congrArg Host.Outcome.next (if_neg ?_)
      simp [cls, mirrors, Nat.not_lt.mpr late, some_]
    have asked : endAsked s St.twinUnavailable 0 = s.updTwin fun t => { t with asked := 0, attachBy := none, detachBy := none } := by
      unfold endAsked
      rw [noAttach, noDetach]
      rfl
    rw [asked] at run
    have twin := toSolo_twin (s.updTwin fun t => { t with asked := 0, attachBy := none, detachBy := none }) false
    refine ⟨_, run, congrArg Twin.st twin, toSolo_waits _ _, congrArg Twin.asked twin, congrArg Twin.retryAt twin, ?_, toSolo_ctxs _ _⟩
    exact (congrArg Twin.stale twin).trans (Bool.or_false _)

end Sys2Proof.Proofs

end

section
/-! PROOF. O31: what the status of a die does. -/

namespace Sys2Proof.Proofs

open Sys2Proof Sys2Proof.Machine Sys2Proof.Safety Sys2Proof.Laws

theorem getDie_number {s : State} {n : Nat} {d : Die} (found : getDie s n = some d) : d.d = n := by
  simpa using List.find?_some found

theorem getDie_changed {s : State} {n : Nat} {d : Die} {f : Die → Die} (found : getDie s n = some d) (keeps : ∀ e, (f e).d = e.d := by exact fun _ => rfl) :
    getDie (modDie s n f) n = some (f d) := by
  refine (find_updIf Die.d n f (fun e he => (keeps e).trans he) s.flash.dies).trans ?_
  rw [show s.flash.dies.find? (fun e => e.d == n) = some d from found]
  rfl

theorem getBlock_modBlock (s : State) (i : Nat) (f : Block → Block) : getBlock (modBlock s i f) i = f (getBlock s i) := by
  simp only [getBlock, modBlock, State.updCare, assoc_get_set, if_true, Option.getD_some]

/-! An event appends to what is sent. -/

/-- What is sent in one state is the start of what is sent in the other. -/
def SendsMore (s t : State) : Prop := ∃ l, t.out = s.out ++ l

theorem SendsMore.of_out {s t : State} (same : t.out = s.out) : SendsMore s t := ⟨[], by simpa using same⟩

theorem SendsMore.trans {s t u : State} (a : SendsMore s t) (b : SendsMore t u) : SendsMore s u := by
  obtain ⟨l, hl⟩ := a
  obtain ⟨m, hm⟩ := b
  exact ⟨l ++ m, by rw [hm, hl, List.append_assoc]⟩

theorem SendsMore.foldl {α : Type} {f : State → α → State} (step : ∀ s a, SendsMore s (f s a)) (l : List α) (s : State) : SendsMore s (l.foldl f s) := by
  induction l generalizing s with
  | nil => exact .of_out rfl
  | cons a l ih => exact (step s a).trans (ih _)

theorem sendMsix_sendsMore (s : State) (n v : Nat) : SendsMore s (sendMsix s n v) :=
  let ⟨l, h, _⟩ := sendMsix_out s n v
  ⟨l, h⟩

theorem raiseIn_sendsMore (s : State) (n k : Nat) : SendsMore s (raiseIn s n k) := by
  unfold raiseIn
  dsimp only
  repeat' split
  · exact .of_out rfl
  · exact sendMsix_sendsMore (modFn s n _) _ _
  · exact .of_out rfl

theorem event_sendsMore (s : State) (k who : Nat) : SendsMore s (event s k who) :=
  SendsMore.foldl (fun s n => raiseIn_sendsMore s n k) _ s

/-! The status of a die. -/

theorem arrayStatus_suspending {s : State} {die : Nat} {d : Die} {o : ArrayOp} {k : Susp} (found : getDie s die = some d) (at_ : suspending s d = some (o, k))
    (a b : Bool) : exec (.arrayStatus die a b) s = .next (if a then s else suspendFailed s die o k) := by
  show execArrayStatus die a b s = _
  unfold execArrayStatus
  simp only [found, at_]

theorem arrayStatus_due {s : State} {die : Nat} {d : Die} {o : ArrayOp} (found : getDie s die = some d) (none_ : suspending s d = none) (due : dueOp d = some o)
    (a b : Bool) : exec (.arrayStatus die a b) s = .next (if s.beat < o.start + o.busy then s else opStatus s die o a b) := by
  show execArrayStatus die a b s = _
  unfold execArrayStatus
  simp only [found, none_, due]

theorem arrayStatus_over {s : State} {die : Nat} {d : Die} {o : ArrayOp} (found : getDie s die = some d) (none_ : suspending s d = none) (due : dueOp d = some o)
    (past : o.start + o.busy ≤ s.beat) (a b : Bool) : exec (.arrayStatus die a b) s = .next (opStatus s die o a b) :=
  (arrayStatus_due found none_ due a b).trans (congrArg Host.Outcome.next (if_neg (Nat.not_lt.mpr past)))

theorem opStatus_read (s : State) (die : Nat) {o : ArrayOp} (read : o.kind = .read) (b : Bool) :
    opStatus s die o true b = countRead (popOp s die o) die o.block ∧
    opStatus s die o false b = fallbackWhere (countLate (countRead (popOp s die o) die o.block)) fun psa =>
      psaDie psa == die && psaBlock psa == o.block && psaPage psa == o.page := by
  unfold opStatus
  simp only [read, if_true, Bool.false_eq_true, if_false, true_and]

theorem opStatus_late (s : State) (die : Nat) {o : ArrayOp} (other : o.kind ≠ .read) (b : Bool) :
    opStatus s die o false b = if o.reset then s else modDie (countLate s) die fun d => { d with ops := updIf (· == o) (fun p => { p with reset := true }) d.ops } := by
  unfold opStatus
  simp only [other, if_false, Bool.not_false, if_true]

theorem opStatus_erase (s : State) (die : Nat) {o : ArrayOp} (erase : o.kind = .erase) (b : Bool) :
    opStatus s die o true b = o.covers.foldl (fun s k => if b then eraseFailed s die k else erasePassed s die k) (popOp s die o) := by
  unfold opStatus
  simp only [erase, reduceCtorEq, if_false, Bool.not_true, Bool.false_eq_true]

theorem opStatus_program (s : State) (die : Nat) {o : ArrayOp} (program : o.kind = .program) (b : Bool) :
    opStatus s die o true b = o.covers.foldl (fun s k => if b then programFailed s die k else programPassed s die k o.page) (popOp s die o) := by
  unfold opStatus
  simp only [program, reduceCtorEq, if_false, Bool.not_true, Bool.false_eq_true, if_true]

theorem knownOcts_modDie (s : State) (n : Nat) {f : Die → Die} (keeps : ∀ d, (f d).d = d.d) : knownOcts (modDie s n f) = knownOcts s := by
  have dies : ∀ k, (updIf (fun d => d.d == n) f s.flash.dies).any (fun d => dieOct d.d == k) = s.flash.dies.any fun d => dieOct d.d == k := fun k => by
    rw [updIf, List.any_map]
    refine congrArg (List.any s.flash.dies) (funext fun d => ?_)
    simp only [Function.comp_apply]
    split
    · rw [keeps]
    · rfl
  unfold knownOcts
  refine congrArg (List.filter · (List.range 16)) (funext fun k => ?_)
  exact congrArg ((getOct s k).st == .live || ·) (dies k)

theorem stored_popOp (s : State) (die : Nat) (o : ArrayOp) (id : Nat) : stored (popOp s die o) id = stored s id := by
  have known : knownOcts (popOp s die o) = knownOcts s := knownOcts_modDie s die fun _ => rfl
  have reset : resetOf (popOp s die o) id = resetOf s id := by
    unfold resetOf leastKnown
    rw [known]
    rfl
  unfold stored
  rw [reset]
  rfl

/-- With no read counts to watch, a page read counts and nothing more (R249). -/
theorem countRead_counts {s : State} (die block : Nat) (noCheck : stored s 0x07000016 = 0) (noLimit : stored s 0x07000017 = 0) :
    countRead s die block = modBlock s (blockIdx die block) fun b => { b with rdCount := min ((getBlock s (blockIdx die block)).rdCount + 1) (2 ^ 32 - 1) } := by
  obtain ⟨u, hu⟩ : ∃ u, u = modBlock s (blockIdx die block) fun b => { b with rdCount := min ((getBlock s (blockIdx die block)).rdCount + 1) (2 ^ 32 - 1) } := ⟨_, rfl⟩
  unfold countRead
  dsimp only
  rw [← hu]
  simp only [noCheck, noLimit, ne_eq, not_true_eq_false, false_and, if_false]

/-- Without contexts nothing waits for a slot. -/
theorem fallbackWhere_none {s : State} (none_ : s.ctxs = []) (p : Nat → Bool) : fallbackWhere s p = s := by
  unfold fallbackWhere readingSlots waitingSlots fedIn
  rw [none_]
  rfl

/-- A block that its erase leaves outside a band and in use (R256, R257). -/
def erasedBlock (s : State) (b k : Block) : Block :=
  { k.withPe (peRated s) (b.pe + 1) with
    rdCount := 0, st := .erased, depth := 0, iter := 0, erasedAt := s.beat / 65536, bandId := 0, system := k.system && true
    rawTouched := if b.rawTouched && true then false else k.rawTouched
    candidate := if b.candNew then true else false
    candNew := false }

theorem wornCheck_fresh {s : State} (fresh : s.care.worn = false) : wornCheck s = s := by
  unfold wornCheck
  rw [fresh]
  rfl

theorem erasePassed_free {s : State} {die block : Nat} (free : (s.media.bands.find? fun k => k.columns.contains (die, block)) = none)
    (sound : (getBlock s (blockIdx die block)).candidate = false) (noLimit : nvVal s 0x0700001D = 0) (fresh : s.care.worn = false) :
    erasePassed s die block = (((modBlock s (blockIdx die block) (erasedBlock s (getBlock s (blockIdx die block)))).updCare fun c =>
      { c with erases := satAdd c.erases 1, reads := c.reads.filter fun r => !(psaDie r.psa == die && psaBlock r.psa == block) }).updMedia fun m => { m with
        raw := m.raw.filter (fun p => p.1 / 2 ^ 12 != die * 2 ^ 13 + block)
        slots := m.slots.filter (fun p => !(psaDie p.1 == die && psaBlock p.1 == block)) }) := by
  unfold erasePassed
  simp only [free, sound, noLimit, Option.map_none, Option.getD_none, Option.isNone_none, Bool.false_and, Bool.false_eq_true, if_false, ne_eq, not_true_eq_false, false_and]
  exact wornCheck_fresh fresh

theorem wearCheck_keeps (s : State) :
    (∀ i, getBlock (wearCheck s) i = getBlock s i) ∧ (wearCheck s).care.eraseFails = s.care.eraseFails ∧ (wearCheck s).flash = s.flash ∧ SendsMore s (wearCheck s) := by
  unfold wearCheck
  dsimp only
  split
  · exact ⟨fun _ => rfl, rfl, rfl, .of_out rfl⟩
  · have sends := event_sendsMore (s.updCare fun c => { c with wearStage := wearStageNow s }) 5 0xFF
    rw [event_frame] at sends ⊢
    exact ⟨fun _ => rfl, rfl, rfl, (SendsMore.of_out rfl).trans sends⟩

/-- A block retired outside a band after its erase failed (R257). -/
theorem retireBlock_retires (s : State) (die block cause : Nat) :
    (getBlock (retireBlock s die block cause) (blockIdx die block)).st = .retired ∧ (getBlock (retireBlock s die block cause) (blockIdx die block)).rcause = cause ∧
      (retireBlock s die block cause).care.eraseFails = s.care.eraseFails ∧ (retireBlock s die block cause).flash = s.flash ∧ SendsMore s (retireBlock s die block cause) := by
  have own := getBlock_modBlock s (blockIdx die block) fun b => { b with st := .retired, rcause := cause, candidate := false, candNew := false }
  obtain ⟨blocks, fails, flash, sends⟩ := wearCheck_keeps (State.updCare (modBlock s (blockIdx die block) fun b => { b with st := .retired, rcause := cause, candidate := false, candNew := false })
    fun c => { c with
      retired := min (c.retired + 1) (2 ^ 25 - 1)
      earlyRetired := if cause = 3 then min (c.earlyRetired + 1) (2 ^ 25 - 1) else c.earlyRetired
      passRetired := if cause = 3 then c.passRetired + 1 else c.passRetired
      retireLog := ({ beat := s.beat, die := die, block := block, cause := cause, pe := (getBlock s (blockIdx die block)).pe } :: c.retireLog).take 65536 })
  exact ⟨(congrArg Block.st (blocks _)).trans (congrArg Block.st own), (congrArg Block.rcause (blocks _)).trans (congrArg Block.rcause own), fails, flash,
    (SendsMore.of_out rfl).trans sends⟩

theorem eraseFailed_free {s : State} {die block : Nat} (free : (s.media.bands.find? fun k => k.columns.contains (die, block)) = none) :
    eraseFailed s die block = retireBlock ((countPfail s die block).updCare fun c => { c with eraseFails := satAdd c.eraseFails 1 }) die block 2 := by
  unfold eraseFailed
  dsimp only
  rw [show ((countPfail s die block).updCare fun c => { c with eraseFails := satAdd c.eraseFails 1 }).media = s.media from rfl, free]

/-- The last operation a die is to be reset for (R312). -/
def overdue (s : State) (d : Die) : Option ArrayOp :=
  d.ops.find? fun o => o.kind != .read && decide (o.start + o.busy ≤ s.beat) && decide (o.start + 4 * o.occ ≤ s.beat)

theorem lateOpReset_resets {s : State} {die : Nat} {d : Die} {o : ArrayOp} (found : getDie s die = some d) (late : overdue s d = some o) (r : Bool) :
    ((∀ b, d.resetAt = some b → b + 1000000 < s.beat) → exec (.lateOpReset die r) s = .next (lateReset s die o)) ∧
      ((∃ b, d.resetAt = some b ∧ s.beat ≤ b + 1000000) → exec (.lateOpReset die r) s = .next (dieDark (lateReset s die o) die)) := by
  unfold overdue at late
  have run : exec (.lateOpReset die r) s = .next (match d.resetAt with
      | some b => if s.beat ≤ b + 1000000 then dieDark (lateReset s die o) die else lateReset s die o
      | none => lateReset s die o) := by
    show execLateOpReset die r s = _
    unfold execLateOpReset
    simp only [found, late]
    cases d.resetAt <;> rfl
  rw [run]
  refine ⟨fun early => ?_, fun ⟨b, at_, soon⟩ => ?_⟩
  · cases at_ : d.resetAt with
    | none => rfl
    | some b => exact congrArg Host.Outcome.next (if_neg (Nat.not_le.mpr (early b at_)))
  · rw [at_]
    exact congrArg Host.Outcome.next (if_pos soon)

theorem lateOpReset_waits {s : State} {die : Nat} {d : Die} (found : getDie s die = some d) (none_ : overdue s d = none) (r : Bool) :
    exec (.lateOpReset die r) s = .next (match d.resetAt with
      | some b => if !r && !d.dark && decide (s.beat = b + 250) then dieDark s die else s
      | none => s) := by
  unfold overdue at none_
  show execLateOpReset die r s = _
  unfold execLateOpReset
  simp only [found, none_]
  cases d.resetAt <;> rfl

/-- Settles O31: each branch of the status, the blocks through what an erase leaves. -/
theorem arrayOutcomes : Obligations.ArrayOutcomes := by
  unfold Obligations.ArrayOutcomes
  refine ⟨?suspend, ?suspendAlone, ?early, ?read, ?reads, ?wasReset, ?late, ?erase, ?erases, ?programs, ?reset, ?resetErase⟩
  case suspend =>
    intro s die d o k b found at_
    exact ⟨arrayStatus_suspending found at_ true b, arrayStatus_suspending found at_ false b⟩
  case suspendAlone =>
    intro s die d o k b found at_ alone
    refine ⟨_, arrayStatus_suspending found at_ false b, ?_⟩
    rw [if_neg Bool.false_ne_true, suspendFailed, fallbackWhere_none (s := modDie s die _) alone]
    exact getDie_changed found
  case early =>
    intro s die d o a b found none_ due early
    exact (arrayStatus_due found none_ due a b).trans (congrArg Host.Outcome.next (if_pos early))
  case read =>
    intro s die d o b found none_ due past read noCheck noLimit
    have count : countRead (popOp s die o) die o.block = _ := countRead_counts die o.block
      ((stored_popOp ..).trans noCheck) ((stored_popOp ..).trans noLimit)
    refine ⟨_, (arrayStatus_over found none_ due past true b).trans (congrArg Host.Outcome.next (((opStatus_read s die read b).1).trans count)), rfl, ?_, ?_⟩
    · exact getDie_changed (f := fun d => { d with ops := d.ops.erase o }) found
    · exact getBlock_modBlock (popOp s die o) _ _
  case reads =>
    intro s die d o b found none_ due past read
    obtain ⟨ready, notReady⟩ := opStatus_read s die read b
    exact ⟨(arrayStatus_over found none_ due past true b).trans (congrArg Host.Outcome.next ready),
      (arrayStatus_over found none_ due past false b).trans (congrArg Host.Outcome.next notReady)⟩
  case wasReset =>
    intro s die d o b found none_ due past other reset
    refine (arrayStatus_over found none_ due past false b).trans (congrArg Host.Outcome.next ((opStatus_late s die other b).trans (if_pos reset)))
  case late =>
    intro s die d o b found none_ due past other fresh
    have run := (arrayStatus_over found none_ due past false b).trans (congrArg Host.Outcome.next ((opStatus_late s die other b).trans (if_neg (by simp [fresh]))))
    exact ⟨_, run, rfl, rfl, getDie_changed (s := countLate s) (f := fun d => { d with ops := updIf (· == o) (fun p => { p with reset := true }) d.ops }) found⟩
  case erase =>
    intro s die d o found none_ due past erase alone free sound noLimit fresh
    have run := (arrayStatus_over found none_ due past true false).trans (congrArg Host.Outcome.next (opStatus_erase s die erase false))
    rw [ArrayOp.covers, alone, List.foldl_cons, List.foldl_nil, if_neg Bool.false_ne_true,
      erasePassed_free (s := popOp s die o) (die := die) (block := o.block) free sound noLimit fresh] at run
    have block := getBlock_modBlock (popOp s die o) (blockIdx die o.block) (erasedBlock (popOp s die o) (getBlock (popOp s die o) (blockIdx die o.block)))
    exact ⟨_, run, rfl, congrArg Block.pe block, congrArg Block.st block, congrArg Block.rdCount block, congrArg Block.depth block, rfl, rfl⟩
  case erases =>
    intro s die d o found none_ due past erase
    exact ⟨(arrayStatus_over found none_ due past true false).trans (congrArg Host.Outcome.next (opStatus_erase s die erase false)),
      (arrayStatus_over found none_ due past true true).trans (congrArg Host.Outcome.next (opStatus_erase s die erase true))⟩
  case programs =>
    intro s die d o found none_ due past program
    exact ⟨(arrayStatus_over found none_ due past true false).trans (congrArg Host.Outcome.next (opStatus_program s die program false)),
      (arrayStatus_over found none_ due past true true).trans (congrArg Host.Outcome.next (opStatus_program s die program true))⟩
  case reset =>
    intro s die d l r found hl
    have late : overdue s d = l := hl.symm
    refine ⟨fun o v some_ hv => ?_, fun none_ at_ old lit => ?_, fun none_ rest => ?_⟩
    · rw [hv]
      exact lateOpReset_resets found (late.trans some_) r
    · rw [lateOpReset_waits found (late.trans none_), at_]
      exact congrArg Host.Outcome.next (if_pos (by simp [lit, Nat.sub_add_cancel old]))
    · show exec _ s = _
      rw [lateOpReset_waits found (late.trans none_)]
      cases at_ : d.resetAt with
      | none => rfl
      | some b =>
        refine congrArg Host.Outcome.next (if_neg ?_)
        rcases rest with e | e | e
        · simp [e]
        · simp [e]
        · simp [e b at_]
  case resetErase =>
    intro s die d o r found late free noReset erase alone
    have run := (lateOpReset_resets found (show overdue s d = some o from late) r).1 (fun b e => by cases noReset.symm.trans e)
    obtain ⟨u, hu⟩ : ∃ u, u = emit (modDie (popOp s die o) die fun d => { d with resetAt := some s.beat }) (.nand die 0xFF 0 []) := ⟨_, rfl⟩
    have freeU : (u.media.bands.find? fun k => k.columns.contains (die, o.block)) = none := by
      rw [hu]
      exact free
    have result : lateReset s die o = retireBlock ((countPfail u die o.block).updCare fun c => { c with eraseFails := satAdd c.eraseFails 1 }) die o.block 2 := by
      unfold lateReset
      rw [← hu, ArrayOp.covers, alone, List.foldl_cons, List.foldl_nil, if_neg (by simp [erase]), eraseFailed_free freeU]
    obtain ⟨st, cause, fails, flash, l, out⟩ := retireBlock_retires ((countPfail u die o.block).updCare fun c => { c with eraseFails := satAdd c.eraseFails 1 }) die o.block 2
    refine ⟨_, run, ?_⟩
    rw [result]
    refine ⟨?_, fails.trans ?_, st, cause, ?_⟩
    · rw [out]
      refine List.mem_append_left _ ?_
      show _ ∈ u.out
      rw [hu]
      exact List.mem_append_right _ (List.mem_singleton.mpr rfl)
    · show satAdd u.care.eraseFails 1 = _
      rw [hu]
      rfl
    · rw [getDie, flash]
      show getDie u die = _
      rw [hu]
      exact getDie_changed (s := popOp s die o) (f := fun d => { d with resetAt := some s.beat })
        (getDie_changed (f := fun d => { d with ops := d.ops.erase o }) found)

end Sys2Proof.Proofs

end

section
/-! PROOF. O32: decoded slots, deep recovery and the placing of gather slots. -/

namespace Sys2Proof.Proofs

open Sys2Proof Sys2Proof.Machine Sys2Proof.Safety Sys2Proof.Laws

theorem useKey_frame (s : State) (n e : Nat) : useKey s n e = { s with sec := (useKey s n e).sec } := by
  unfold useKey
  split <;> rfl

/-- With no slot rebuilt around, none waits for the columns of another. -/
theorem aroundSlots_none {s : State} (none_ : aroundPlaces s = []) (psa : Nat) : aroundSlots s psa = [] := by
  unfold aroundPlaces at none_
  unfold aroundSlots
  simp only [List.flatMap_eq_nil_iff] at none_ ⊢
  intro x hx r hr
  have own := none_ x hx r hr
  split
  · next q at_ =>
    rw [at_] at own
    simp only [List.map_eq_nil_iff, List.filter_eq_nil_iff] at own ⊢
    intro d hd both
    exact own d hd (Bool.and_eq_true_iff.mp both).1
  · rfl

theorem sweepTries_none {s : State} (none_ : s.media.tries = []) : sweepTries s = s := by
  unfold sweepTries
  rw [none_]
  rfl

theorem learnSlot_known {s : State} {psa : Nat} {r : SlotRec} (known : Assoc.get s.media.slots psa = some r) : learnSlot s psa = s := by
  unfold learnSlot
  rw [known]

/-- A decode of a known slot that no rebuild concerns: for the reads that wait, or care work's (R59). -/
theorem slotDecode_known {s : State} {psa step : Nat} {r : SlotRec} (known : Assoc.get s.media.slots psa = some r) (around : aroundPlaces s = [])
    (tries : s.media.tries = []) (plain : step ≠ 2 ∨ nvVal s 0x06000009 ≠ 0) (zeros iter : Nat) (b : Bool) :
    slotDecode s psa zeros step iter b =
      let u := useKey s r.nsid r.epoch
      let erased := decide (zeros ≤ nvVal s 0x06000008)
      if readingSlots s (· == psa) = [] then careDecode u psa step iter b erased r
      else if step = 5 then u
      else (byDeadline u (readingSlots s (· == psa))).foldl (fun t w => ctxDecode t psa w.1 w.2.1 w.2.2 step b erased (some r |>.filter fun r => !r.gone)) u := by
  obtain ⟨u, hu⟩ : ∃ u, u = useKey s r.nsid r.epoch := ⟨_, rfl⟩
  have keeps : Assoc.get u.media.slots psa = some r ∧ aroundPlaces u = [] ∧ readingSlots u (· == psa) = readingSlots s (· == psa) ∧
      nvVal u 0x06000008 = nvVal s 0x06000008 ∧ nvVal u 0x06000009 = nvVal s 0x06000009 := by
    rw [hu, useKey_frame]
    exact ⟨known, around, rfl, rfl, rfl⟩
  obtain ⟨knownU, aroundU, reading, erased, off⟩ := keeps
  have plainU : ¬ (step = 2 ∧ nvVal u 0x06000009 = 0) := by
    rw [off]
    rcases plain with e | e <;> simp [e]
  unfold slotDecode
  simp only [sweepTries_none tries, learnSlot_known known, known, ← hu, aroundU, reading, knownU, erased, plainU, aroundSlots_none aroundU, if_false,
    List.eraseDups_nil, List.filter_nil, ne_eq, not_true_eq_false, and_false, or_false, List.foldl_nil, ite_not]

theorem byDeadline_one (s : State) (w : Nat × Nat × Nat) : byDeadline s [w] = [w] := rfl

theorem ladderOk_zero (d5 erased : Bool) : ladderOk d5 erased 0 = false := by cases d5 <;> cases erased <;> rfl

theorem deliver_frame (s : State) (c gran part : Nat) (r : SlotRec) (d : Deliver) :
    ∃ near far, deliver s c gran part r d = { modCtx s c (fun y => { y with reads := updIf (fun k => k.gran == gran) (fun k =>
      { k with slots := k.slots.set part d, tag := r.tag, bytes := Mem.splice k.bytes (4096 * part) 4096 (Mem.slice r.bytes 0 4096 0) }) y.reads }) with
        plan := { s.plan with near := near, far := far } } := by
  unfold deliver releaseLadder
  dsimp only
  repeat' split
  all_goals exact ⟨_, _, rfl⟩

/-- A slot converged at step 1 that passes its checks is delivered (R59). -/
theorem ctxDecode_delivers {s : State} {psa c gran part : Nat} {x : Ctx} {r : SlotRec} (found : getCtx s c = some x) (shallow : x.entry.cls ≠ 5)
    (place : placeCheck s psa r = true) (request : requestCheck s c gran part r = true) :
    ctxDecode s psa c gran part 1 true false (some r) =
      raiseDepth (deliver (countMedia s fun m => { m with hardDecodes := satAdd m.hardDecodes 1 }) c gran part r .direct) (psaDie psa) (psaBlock psa) 1 := by
  have d5 : (x.entry.cls == 5) = false := by simpa using shallow
  unfold ctxDecode
  simp only [found, d5, place, request]
  rfl

theorem ctxDecode_fails {s : State} {psa c gran part : Nat} {x : Ctx} (found : getCtx s c = some x) (shallow : x.entry.cls ≠ 5) (b erased : Bool) (got : Option SlotRec) :
    ctxDecode s psa c gran part 0 b erased got = fallbackSlot (countDecode s false erased false) c gran part := by
  have d5 : (x.entry.cls == 5) = false := by simpa using shallow
  unfold ctxDecode
  simp only [found, d5, ladderOk_zero, Bool.not_false, if_true]

/-- After a hard decode that does not converge care work goes on to the next steps (R59). -/
theorem careDecode_goesOn {s : State} {psa iter : Nat} {b erased : Bool} {r : SlotRec} {e : CareRead}
    (found : (s.care.reads.find? fun e => e.psa == psa && e.use != .deep && e.booked && !e.done && decide (e.stage ≤ 2)) = some e) (first : e.stage = 0) :
    careDecode s psa 0 iter b erased r = modRead s e fun k => { k with stage := 1, booked := false } := by
  unfold careDecode
  rw [found]
  simp [first, countMedia]
  rfl

theorem careDecode_none {s : State} {psa : Nat} (none_ : (s.care.reads.find? fun e => e.psa == psa && e.use != .deep && e.booked && !e.done && decide (e.stage ≤ 2)) = none)
    (step iter : Nat) (b erased : Bool) (r : SlotRec) : careDecode s psa step iter b erased r = s := by
  unfold careDecode
  rw [none_]

/-- With no read waiting, deep recovery answers nobody. -/
theorem deepAnswer_none {s : State} {psa : Nat} {ns : Namespace} (none_ : waitingSlots s (fun p => decide (psa ≤ p) && decide (p < psa + ns.gslots)) = [])
    (idx gran : Nat) (ok : Bool) : deepAnswer s idx psa ns gran ok = s := by
  unfold deepAnswer
  rw [none_]
  rfl

theorem deepRecoveryDone_runs {s : State} {idx : Nat} {d : DeepRec} {ns : Namespace} (found : (s.xlat.deep.find? fun k => k.idx == idx) = some d)
    (owner : getNs s d.nsid = some ns) (ok : Bool) :
    exec (.deepRecoveryDone idx ok) s = .next (
      if ok then rewriteDeep (deepAnswer (modDeepRead s d.psa fun e => { e with done := true }) idx d.psa ns d.gran true) d ns
      else if columnDark s d.psa then modDeepRead s d.psa fun e => { e with stage := 3, booked := false }
      else
        let s1 := raiseDepth (deepAnswer s idx d.psa ns d.gran false) (psaDie d.psa) (psaBlock d.psa) 6
        if mapGet s1 idx = .media d.psa then markUnrecov s1 ns d.gran (((Assoc.get s.media.slots d.psa).map SlotRec.seq).getD 0)
        else s1.updXlat fun x => { x with deep := x.deep.filter fun e => e.idx != idx }) := by
  show execDeepRecoveryDone idx ok s = _
  unfold execDeepRecoveryDone
  simp only [found, owner]

theorem journalAdd_stages (s : State) (rs : List JRecord) :
    (journalAdd s rs).xlat = { s.xlat with staging := s.xlat.staging ++ rs } ∧ (journalAdd s rs).media = s.media ∧ (journalAdd s rs).ctxs = s.ctxs := by
  unfold journalAdd
  dsimp only
  split
  · exact ⟨rfl, rfl, rfl⟩
  · exact ⟨rfl, rfl, rfl⟩

theorem markUnrecov_marks {s : State} {ns : Namespace} {gran : Nat} (fresh : s.xlat.unrecov.contains (mapIdx ns gran) = false) (seq : Nat) :
    (markUnrecov s ns gran seq).xlat = { s.xlat with unrecov := s.xlat.unrecov ++ [mapIdx ns gran], deep := s.xlat.deep.filter fun d => d.idx != mapIdx ns gran
                                                     staging := s.xlat.staging ++ [jrec .unrecov 0 ns.nsid 1 gran seq 0] } ∧
      (markUnrecov s ns gran seq).media = s.media ∧ (markUnrecov s ns gran seq).ctxs = s.ctxs := by
  unfold markUnrecov
  dsimp only
  rw [if_neg (by rw [fresh]; exact Bool.false_ne_true)]
  exact journalAdd_stages (s.updXlat _) _

theorem placeGather_places {s : State} {slot : Nat} {g : GatherSlot} {ns : Namespace} (found : (s.xlat.gather.find? fun k => k.slot == slot) = some g)
    (plain : g.atom = false) (fresh : g.psa = none) (first : g.part = 0) (live : g.mapped = true ∨ g.through = true)
    (window : s.therm.window = true ∨ s.day.sealed.isSome = true) (owner : getNs s g.nsid = some ns) :
    placeGather s slot =
      match placeRecs s (if g.through then 3 else g.profile) false ns.sideB
        (g.through && !(s.xlat.gather.any fun h => h.through && !h.atom && h.psa.isNone && !(decide (slot ≤ h.slot) && decide (h.slot < slot + ns.gslots))))
        (((List.range ns.gslots).filterMap fun i => s.xlat.gather.find? fun h => h.slot == slot + i).map (gatherRec s)) with
      | none => s
      | some (q, u) => u.updXlat fun x => { x with gather := x.gather.map fun h =>
          if slot ≤ h.slot ∧ h.slot < slot + ns.gslots then { h with psa := some (q + (h.slot - slot)) } else h } := by
  have go : (g.atom || g.psa.isSome || g.part != 0 || !(g.mapped || g.through) || !(s.therm.window || s.day.sealed.isSome)) = false := by
    rcases live with a | a <;> rcases window with b | b <;> simp [plain, fresh, first, a, b]
  unfold placeGather
  simp only [found, go, owner, Bool.false_eq_true, if_false] <;> rfl

theorem gatherSlotPlace_waits {s : State} {slot : Nat} (shut : s.therm.window = false) (open_ : s.day.sealed = none) : placeGather s slot = s := by
  unfold placeGather
  split
  · rfl
  · exact if_pos (by simp [shut, open_])

/-- Settles O32: a decode by who waits for it, deep recovery and placing by their branches. -/
theorem decodedSlots : Obligations.DecodedSlots := by
  unfold Obligations.DecodedSlots
  refine ⟨?delivered, ?fallback, ?care, ?careOn, ?nobody, ?unrecoverable, ?rewritten, ?dark, ?answered, ?shut, ?placed⟩
  case delivered =>
    intro s psa zeros iter c gran part x r known few reading around tries found shallow whole place request
    have run := slotDecode_known known around tries (step := 1) (.inl (by decide)) zeros iter true
    dsimp only at run
    rw [reading, if_neg (by simp), if_neg (by decide), byDeadline_one, List.foldl_cons, List.foldl_nil, decide_eq_false (Nat.not_le.mpr few),
      show (some r |>.filter fun r => !r.gone) = some r by simp [whole]] at run
    obtain ⟨u, hu⟩ : ∃ u, u = useKey s r.nsid r.epoch := ⟨_, rfl⟩
    have frame : u = { s with sec := u.sec } := hu ▸ useKey_frame s _ _
    have foundU : getCtx u c = some x := by
      rw [frame]
      exact found
    rw [← hu] at run place request
    rw [ctxDecode_delivers foundU shallow place request] at run
    obtain ⟨near, far, delivered⟩ := deliver_frame (countMedia u fun m => { m with hardDecodes := satAdd m.hardDecodes 1 }) c gran part r .direct
    rw [delivered] at run
    refine ⟨_, congrArg Host.Outcome.next run, ?_, ?_, fun d other => ?_⟩
    · rw [frame]
      rfl
    · exact getCtx_changed (f := fun y => { y with reads := updIf (fun k => k.gran == gran) (fun k =>
        { k with slots := k.slots.set part .direct, tag := r.tag, bytes := Mem.splice k.bytes (4096 * part) 4096 (Mem.slice r.bytes 0 4096 0) }) y.reads }) foundU
    · refine (getCtx_changed_other (s := u) other (f := fun y => { y with reads := updIf (fun k => k.gran == gran) (fun k =>
        { k with slots := k.slots.set part .direct, tag := r.tag, bytes := Mem.splice k.bytes (4096 * part) 4096 (Mem.slice r.bytes 0 4096 0) }) y.reads })).trans ?_
      rw [frame]
      rfl
  case fallback =>
    intro s psa zeros iter b c gran part x r known reading around tries found shallow
    have run := slotDecode_known known around tries (step := 0) (.inl (by decide)) zeros iter b
    dsimp only at run
    rw [reading, if_neg (by simp), if_neg (by decide), byDeadline_one, List.foldl_cons, List.foldl_nil] at run
    have foundU : getCtx (useKey s r.nsid r.epoch) c = some x := by
      rw [useKey_frame]
      exact found
    exact congrArg Host.Outcome.next (run.trans (ctxDecode_fails foundU shallow _ _ _))
  case care =>
    intro s psa zeros step iter b r known reading around tries plain
    have run := slotDecode_known known around tries plain zeros iter b
    dsimp only at run
    rw [reading, if_pos rfl] at run
    exact congrArg Host.Outcome.next run
  case careOn =>
    intro s psa zeros iter b r e known reading around tries found first
    have run := slotDecode_known known around tries (step := 0) (.inl (by decide)) zeros iter b
    dsimp only at run
    rw [reading, if_pos rfl] at run
    refine congrArg Host.Outcome.next (run.trans (careDecode_goesOn ?_ first))
    rw [useKey_frame]
    exact found
  case nobody =>
    intro s psa zeros step iter b r known reading around tries none_ plain
    have run := slotDecode_known known around tries plain zeros iter b
    dsimp only at run
    rw [reading, if_pos rfl] at run
    refine congrArg Host.Outcome.next (run.trans (careDecode_none ?_ ..))
    rw [useKey_frame]
    exact none_
  case unrecoverable =>
    intro s idx d ns found owner at_ names none_ lit fresh
    have run := deepRecoveryDone_runs found owner false
    rw [if_neg Bool.false_ne_true, lit, if_neg Bool.false_ne_true, deepAnswer_none none_] at run
    dsimp only at run
    obtain ⟨u, hu⟩ : ∃ u, u = raiseDepth s (psaDie d.psa) (psaBlock d.psa) 6 := ⟨_, rfl⟩
    have keeps : u.xlat = s.xlat ∧ u.media = s.media ∧ u.ctxs = s.ctxs ∧ mapGet u idx = mapGet s idx := by
      rw [hu]
      exact ⟨rfl, rfl, rfl, rfl⟩
    obtain ⟨xlat, media, ctxs, same⟩ := keeps
    rw [← hu, if_pos (same.trans names)] at run
    obtain ⟨marks, media', ctxs'⟩ := markUnrecov_marks (s := u) (ns := ns) (gran := d.gran) (by rw [xlat, at_]; exact fresh)
      (((Assoc.get s.media.slots d.psa).map SlotRec.seq).getD 0)
    rw [at_, xlat] at marks
    exact ⟨_, run, congrArg Xlat.unrecov marks, congrArg Xlat.deep marks, (congrArg Xlat.map marks :), media'.trans media, ctxs'.trans ctxs,
      _, congrArg Xlat.staging marks, rfl, rfl, rfl⟩
  case rewritten =>
    intro s idx d ns found owner names pending none_
    have run := deepRecoveryDone_runs found owner true
    rw [if_pos rfl] at run
    obtain ⟨u, hu⟩ : ∃ u, u = modDeepRead s d.psa fun e => { e with done := true } := ⟨_, rfl⟩
    have keeps : waitingSlots u (fun p => decide (d.psa ≤ p) && decide (p < d.psa + ns.gslots)) = [] ∧ mapGet u idx = .media d.psa ∧ copyPending u d.psa = false := by
      rw [hu]
      exact ⟨none_, names, pending⟩
    obtain ⟨noneU, namesU, pendingU⟩ := keeps
    have number : d.idx = idx := by simpa using List.find?_some found
    refine ⟨u, hu, ?_⟩
    rw [run, ← hu, deepAnswer_none noneU]
    refine congrArg Host.Outcome.next ?_
    unfold rewriteDeep
    rw [number]
    refine (if_pos ⟨namesU, by rw [pendingU]; rfl⟩).trans ?_
    cases placeCopy u ns d.psa <;> rfl
  case dark =>
    intro s idx d ns found owner dark
    have run := deepRecoveryDone_runs found owner false
    rw [if_neg Bool.false_ne_true, if_pos dark] at run
    exact run
  case answered =>
    intro s idx d ns u found owner hu
    have run := deepRecoveryDone_runs found owner true
    rw [if_pos rfl] at run
    have number : d.idx = idx := by simpa using List.find?_some found
    rw [run, ← hu]
    refine congrArg Host.Outcome.next ?_
    unfold rewriteDeep
    rw [number]
    simp only [Bool.not_eq_true']
    split
    · cases placeCopy u ns d.psa <;> rfl
    · rfl
  case shut =>
    intro s slot shut open_
    exact congrArg Host.Outcome.next (gatherSlotPlace_waits shut open_)
  case placed =>
    intro s slot g ns found plain fresh first live window owner
    refine ⟨_, congrArg Host.Outcome.next (placeGather_places found plain fresh first live window owner), fun r hr => ?_⟩
    rw [← hr]
    refine ⟨fun none_ => by rw [none_], fun q u some_ => ?_⟩
    rw [some_]
    exact ⟨rfl, rfl⟩

end Sys2Proof.Proofs

end


section
/-! PROOF. O33: a victim's erase, the wear-levelling check, patrol's passes and the thermal clock. -/

namespace Sys2Proof.Proofs

open Sys2Proof Sys2Proof.Machine Sys2Proof.Safety Sys2Proof.Laws

/-- A state without its calendars. -/
def unplanned (s : State) : State := { s with plan := Planner.init }

theorem book_unplanned (s : State) (r sh b k o) : unplanned (book s r sh b k o) = unplanned s := by
  unfold book
  split <;> rfl

theorem opTake_unplanned (s : State) (r sh b k) : unplanned (opTake s r sh b k) = unplanned s :=
  (book_unplanned ..).trans (ite_agree unplanned rfl rfl)

theorem bookEven_unplanned (s : State) (r sh b n k o) : unplanned (bookEven s r sh b n k o) = unplanned s :=
  foldl_keeps unplanned (fun _ _ => book_unplanned ..) _ s

theorem layXfers_unplanned {d last : Nat} {sh : Share} {fuel : Nat} {s : State} {b n : Nat} {r : Nat × State} (h : layXfers d last sh fuel s b n = some r) :
    unplanned r.2 = unplanned s := by
  induction fuel generalizing s b n with
  | zero => cases h
  | succ fuel ih =>
    unfold layXfers at h
    grind [opTake_unplanned, book_unplanned]

theorem startOp_unplanned (s : State) (d t : Nat) (o : ArrayOp) : unplanned (startOp s d t o) = queueOp (unplanned s) d { o with start := t } :=
  (foldl_keeps unplanned (fun _ _ => (opTake_unplanned ..).trans (opTake_unplanned ..)) _ _).trans (bookEven_unplanned ..)

/-- An operation stands among a die's: as itself, or as a further plane's block of one (§6.4, §4.3.3 of JESD). -/
def Holds (o : ArrayOp) (ops : List ArrayOp) : Prop := ∃ p ∈ ops, p.kind = o.kind ∧ (p.block :: p.also).contains o.block = true

/-- A change of a die's operations after which an operation stands among them. -/
def Queues (s : State) (d : Nat) (o : ArrayOp) (f : Die → Die) : Prop := (∀ x, (f x).d = x.d) ∧ ∀ x, getDie s d = some x → Holds o (f x).ops

theorem mergeOp_queues {s : State} {d n : Nat} {o : ArrayOp} {t : State} (h : mergeOp s d n o = some t) :
    ∃ f, Queues s d o f ∧ unplanned t = modDie (unplanned s) d f := by
  unfold mergeOp at h
  split at h
  next => cases h
  next p hp =>
    obtain ⟨x, hx, hf⟩ := Option.bind_eq_some_iff.mp hp
    obtain ⟨r, hr, rfl⟩ := Option.map_eq_some_iff.mp h
    refine ⟨fun x => { x with ops := updIf (· == p) (fun q => { q with also := q.also ++ [o.block], dline := min q.dline o.dline }) x.ops },
      ⟨fun _ => rfl, fun y hy => ?_⟩, congrArg (fun u => modDie u d _) (layXfers_unplanned hr)⟩
    cases hx.symm.trans hy
    have kind : p.kind = o.kind := by
      have := List.find?_some hf
      simp only [mergesWith, Bool.and_eq_true, beq_iff_eq] at this
      exact this.1.1.1.1.1
    exact ⟨_, List.mem_map.mpr ⟨p, List.mem_of_find?_eq_some hf, rfl⟩, by simp [kind]⟩

theorem placeOp_queues {s : State} {d b last : Nat} {o : ArrayOp} {t : State} (h : placeOp s d b last o = some t) :
    ∃ f, Queues s d o f ∧ unplanned t = modDie (unplanned s) d f := by
  unfold placeOp at h
  split at h
  · cases h
  · obtain ⟨i, -, rfl⟩ := Option.map_eq_some_iff.mp h
    refine ⟨fun x => { x with ops := (x.ops.filter fun p => decide (p.dline ≤ o.dline)) ++ [{ o with start := i }] ++ (x.ops.filter fun p => decide (o.dline < p.dline)) },
      ⟨fun _ => rfl, fun x _ => ⟨{ o with start := i }, ?_, rfl, ?_⟩⟩, startOp_unplanned s d i o⟩
    · exact List.mem_append_left _ (List.mem_append_right _ (List.mem_singleton_self _))
    · exact List.contains_iff_mem.mpr (List.mem_cons_self)

theorem bookNow_queues {s : State} {d n : Nat} {o : ArrayOp} {t : State} (h : bookNow s d n o = some t) :
    ∃ f, Queues s d o f ∧ unplanned t = modDie (unplanned s) d f := by
  unfold bookNow at h
  split at h
  next u hu =>
    cases h
    exact mergeOp_queues hu
  next =>
    obtain ⟨r, hr, hp⟩ := Option.bind_eq_some_iff.mp h
    obtain ⟨f, ⟨keeps, holds⟩, e⟩ := placeOp_queues hp
    have laid := layXfers_unplanned hr
    have dies : getDie r.2 d = getDie s d := (congrArg (fun u => getDie u d) laid :)
    exact ⟨f, ⟨keeps, fun x hx => holds x (dies.trans hx)⟩, e.trans (congrArg (fun u => modDie u d f) laid)⟩

/-- An operation booked stands among its die's, or waits for beats (R333). -/
theorem bookOp_queues (s : State) (d n : Nat) (o : ArrayOp) (x : Die) (found : getDie s d = some x) :
    (bookOp s d n o).media = s.media ∧ (bookOp s d n o).care = s.care ∧ (bookOp s d n o).ctxs = s.ctxs ∧ (bookOp s d n o).xlat = s.xlat ∧
      ((∃ y, getDie (bookOp s d n o) d = some y ∧ Holds o y.ops) ∨ ∃ w ∈ (bookOp s d n o).flash.waiting, w.die = d ∧ w.op = o) := by
  unfold bookOp
  split
  next t ht =>
    obtain ⟨f, ⟨keeps, holds⟩, e⟩ := bookNow_queues ht
    have die : getDie t d = some (f x) := ((congrArg (fun u => getDie u d) e :) : getDie t d = _).trans (getDie_changed found keeps)
    exact ⟨(congrArg State.media e :), (congrArg State.care e :), (congrArg State.ctxs e :), (congrArg State.xlat e :), .inl ⟨f x, die, holds x found⟩⟩
  next => exact ⟨rfl, rfl, rfl, rfl, .inr ⟨_, List.mem_append_right _ (List.mem_singleton_self _), rfl, rfl⟩⟩

theorem writeAnchor_frame (s : State) : (writeAnchor s).media = s.media ∧ (writeAnchor s).care = s.care ∧ (writeAnchor s).flash = s.flash ∧
    (writeAnchor s).ctxs = s.ctxs ∧ (writeAnchor s).xlat = s.xlat := by
  unfold writeAnchor
  split
  · exact ⟨rfl, rfl, rfl, rfl, rfl⟩
  · dsimp only
    exact ⟨ite_agree State.media rfl rfl, ite_agree State.care rfl rfl, ite_agree State.flash rfl rfl, ite_agree State.ctxs rfl rfl, ite_agree State.xlat rfl rfl⟩

theorem unlistBand_frame (s : State) (n : Nat) : (unlistBand s n).media = s.media ∧ (unlistBand s n).care.blocks = s.care.blocks ∧ (unlistBand s n).flash = s.flash ∧
    (unlistBand s n).ctxs = s.ctxs ∧ (unlistBand s n).xlat.map = s.xlat.map ∧ ∀ g ∈ (unlistBand s n).xlat.gens, g.bands.contains n = false := by
  unfold unlistBand
  extract_lets listed
  split
  next no =>
    simp only [listed, Bool.not_eq_true', Bool.or_eq_false_iff, List.any_eq_false, Bool.not_eq_true] at no
    exact ⟨rfl, rfl, rfl, rfl, rfl, no.1⟩
  next =>
    obtain ⟨media, care, flash, ctxs, xlat⟩ := writeAnchor_frame ((s.updXlat fun x =>
      { x with gens := x.gens.map fun g => { g with bands := g.bands.filter (· != n) } }).updCare fun c =>
        { c with recSets := c.recSets.map fun k => { k with inBands := k.inBands.filter (· != n) } })
    refine ⟨media, (congrArg Care.blocks care :), flash, ctxs, (congrArg Xlat.map xlat :), fun g hg => ?_⟩
    rw [xlat] at hg
    obtain ⟨h, -, rfl⟩ := List.mem_map.mp hg
    simp

theorem getBand_modBand {s : State} {n : Nat} {b : Band} {f : Band → Band} (found : getBand s n = some b) (keeps : ∀ e, (f e).serial = e.serial := by exact fun _ => rfl) :
    getBand (modBand s n f) n = some (f b) := by
  refine (find_updIf Band.serial n f (fun e he => (keeps e).trans he) s.media.bands).trans ?_
  rw [show s.media.bands.find? (fun e => e.serial == n) = some b from found]
  rfl

/-- A band with a block still to be erased stays. -/
theorem freeSerial_waits {s : State} {n : Nat} {b : Band} {c : Nat × Nat} (found : getBand s n = some b) (has : c ∈ b.columns)
    (banded : (getBlock s (blockIdx c.1 c.2)).st = .banded) : freeSerial s n = s := by
  unfold freeSerial
  rw [found]
  refine if_neg fun all => ?_
  have none_ := List.all_eq_true.mp (Bool.and_eq_true_iff.mp all).2 c has
  simp [unerased, banded] at none_

/-- The erases of a victim's blocks on usable dies, and the band freed where none is left (R214). -/
def eraseBand (s : State) (b : Band) (n : Nat) : State :=
  freeSerial (b.columns.foldl (fun s c => if (getBlock s (blockIdx c.1 c.2)).st == .banded && dieUsable s c.1 then bookErase s c.1 c.2 else s)
    (unlistBand (modBand s n fun b => { b with st := .erasing }) n)) n

theorem victimEmptied_erases {s : State} {n : Nat} {b : Band} (found : getBand s n = some b) (victim : b.st = .victim) (empty : b.valid = 0) (sys : sysHeld s b = false)
    (pin : bandPinned s b = false) (window : s.therm.window = true) (runs : careRuns s = true) : exec (.victimEmptied n) s = .next (eraseBand s b n) := by
  show execVictimEmptied n s = _
  unfold execVictimEmptied
  rw [found]
  exact congrArg Host.Outcome.next (if_pos (by simp [victim, empty, sys, pin, window, runs]))

theorem dieUsable_getDie {s : State} {d : Nat} (usable : dieUsable s d = true) : ∃ x, getDie s d = some x := by
  unfold dieUsable at usable
  split at usable
  next x hx => exact ⟨x, hx⟩
  next => cases usable

theorem eraseBand_single {s : State} {b : Band} {n die blk : Nat} (found : getBand s n = some b) (one : b.columns = [(die, blk)])
    (banded : (getBlock s (blockIdx die blk)).st = .banded) (usable : dieUsable s die = true) :
    let t := eraseBand s b n
    getBand t n = some { b with st := .erasing } ∧ ((∃ d, getDie t die = some d ∧ ∃ o ∈ d.ops, o.kind = .erase ∧ (o.block :: o.also).contains blk = true) ∨
        ∃ w ∈ t.flash.waiting, w.die = die ∧ w.op.kind = .erase ∧ w.op.block = blk) ∧
      t.xlat.map = s.xlat.map ∧ (∀ g ∈ t.xlat.gens, g.bands.contains n = false) ∧ t.ctxs = s.ctxs ∧ t.media.slots = s.media.slots := by
  obtain ⟨u, hu⟩ : ∃ u, u = unlistBand (modBand s n fun b => { b with st := .erasing }) n := ⟨_, rfl⟩
  have frame := unlistBand_frame (modBand s n fun b => { b with st := .erasing }) n
  rw [← hu] at frame
  obtain ⟨media, blocks, flash, ctxs, map, unlisted⟩ := frame
  have bandU : getBand u n = some { b with st := .erasing } := by
    unfold getBand
    rw [media]
    exact getBand_modBand found
  have blockU : getBlock u (blockIdx die blk) = getBlock s (blockIdx die blk) := by
    unfold getBlock
    rw [blocks]
    rfl
  have usableU : dieUsable u die = true := by
    have same : dieUsable u die = dieUsable s die := by
      unfold dieUsable getDie getOct getChan
      rw [flash]
      rfl
    exact same.trans usable
  obtain ⟨x, die_⟩ := dieUsable_getDie usableU
  obtain ⟨v, hv⟩ : ∃ v, v = bookErase u die blk := ⟨_, rfl⟩
  obtain ⟨mediaV, careV, ctxsV, xlatV, queued⟩ := bookOp_queues u die 0 (mkOp .erase blk 0 0 (occErase u (dieOct die)) (u.beat + 8191) 0 true) x die_
  rw [show bookOp u die 0 (mkOp .erase blk 0 0 (occErase u (dieOct die)) (u.beat + 8191) 0 true) = v from hv.symm] at mediaV careV ctxsV xlatV queued
  have bandV : getBand v n = some { b with st := .erasing } := by
    unfold getBand
    rw [show v.media = u.media from mediaV]
    exact bandU
  have stays : eraseBand s b n = v := by
    unfold eraseBand
    rw [one, ← hu]
    simp only [List.foldl_cons, List.foldl_nil, blockU, banded, usableU, BEq.rfl, Bool.and_self, if_true]
    rw [← hv]
    refine freeSerial_waits bandV (c := (die, blk)) (by simp [one]) ?_
    unfold getBlock
    rw [careV]
    exact (congrArg Block.st blockU).trans banded
  intro t
  rw [show t = v from stays]
  refine ⟨bandV, ?_, (congrArg Xlat.map xlatV).trans map, fun g hg => unlisted g (by rwa [xlatV] at hg), ctxsV.trans ctxs, (congrArg Media.slots mediaV).trans (congrArg Media.slots media :)⟩
  refine queued.imp (fun ⟨y, hy, o, ho, kind, has⟩ => ⟨y, hy, o, ho, kind, has⟩) fun ⟨w, hw, at_, op⟩ => ⟨w, hw, at_, ?_⟩
  rw [op]
  exact ⟨rfl, rfl⟩

/-- Settles O33: the guards of each care event decide it, and a victim's erase stands among its die's operations or waits for beats. -/
theorem careWork : Obligations.CareWork := by
  unfold Obligations.CareWork
  refine ⟨?held, ?unknown, ?erased, ?single, ?soon, ?noBand, ?gap, ?passing, ?passes, ?still, ?window, ?cold, ?clock⟩
  case held =>
    intro s n b found held
    show execVictimEmptied n s = _
    unfold execVictimEmptied
    rw [found]
    exact congrArg Host.Outcome.next (if_neg (by grind))
  case unknown =>
    intro s n none_
    show execVictimEmptied n s = _
    unfold execVictimEmptied
    rw [none_]
  case erased => exact fun s n b found victim empty sys pin window runs => victimEmptied_erases found victim empty sys pin window runs
  case single =>
    exact fun s n b die blk found victim empty sys pin window runs one banded usable =>
      ⟨_, victimEmptied_erases found victim empty sys pin window runs, eraseBand_single found one banded usable⟩
  case soon => exact fun s early => congrArg Host.Outcome.next (if_pos early)
  case noBand =>
    intro s due none_
    refine congrArg Host.Outcome.next ((if_neg (by omega)).trans ?_)
    rw [none_]
    rfl
  case gap =>
    intro s b due some_
    refine congrArg Host.Outcome.next ((if_neg (by omega)).trans ?_)
    rw [some_]
    rfl
  case passing =>
    intro s busy
    refine congrArg Host.Outcome.next (if_pos (busy.imp_right (Or.imp_left fun ⟨e, he, use, stage⟩ => ?_)))
    exact List.any_eq_true.mpr ⟨e, he, by simp [use, stage]⟩
  case passes =>
    intro s none_ read due
    refine ⟨_, congrArg Host.Outcome.next (if_neg ?_), rfl, rfl, rfl, rfl, ?_, rfl, rfl, rfl, rfl, rfl, rfl, rfl, rfl, rfl⟩
    · simp only [List.any_eq_true]
      grind
    · show (s.care.passed || s.care.pass != 0) = _
      by_cases h : s.care.pass = 0 <;> simp [h]
  case still =>
    intro s still
    exact congrArg Host.Outcome.next (if_pos (still.imp_left fun h => by simp [h]))
  case window =>
    intro s runs at_ left
    exact congrArg Host.Outcome.next (if_neg (by simp [runs, at_, left]))
  case cold => exact fun s cold => congrArg Host.Outcome.next (if_pos cold)
  case clock =>
    intro s at_ light late
    refine ⟨_, congrArg Host.Outcome.next (if_neg (by simp [at_, light, late])), rfl, rfl, rfl, fun b hb => ?_⟩
    obtain ⟨c, hc, rfl⟩ := List.mem_map.mp (show b ∈ updIf _ _ s.media.bands from hb)
    refine ⟨c, hc, ?_⟩
    split
    · exact .inr rfl
    · exact .inl rfl

end Sys2Proof.Proofs

end


section
/-! PROOF. O34: line fills and rebuilds, checkpoint cycles and the recovery of the map. -/

namespace Sys2Proof.Proofs

open Sys2Proof Sys2Proof.Machine Sys2Proof.Safety Sys2Proof.Laws

/-- BEAT, the map and what recovery empties, the boot flash and the care record sets: what placing system slots leaves. -/
def standing (s : State) :=
  ((s.beat, s.xlat.map, s.xlat.ways, s.xlat.gather, s.xlat.suspect, s.xlat.deep), s.nor, s.care.recSets)

theorem journalAdd_standing (s : State) (rs) : standing (journalAdd s rs) = standing s := ite_agree standing rfl rfl

theorem bookOp_standing (s : State) (d n : Nat) (o : ArrayOp) : standing (bookOp s d n o) = standing s := by
  unfold bookOp
  split
  next t ht =>
    obtain ⟨f, -, e⟩ := bookNow_queues ht
    exact (congrArg standing e :)
  next => rfl

theorem putSlot_standing (s : State) (b : Band) (psa : Nat) (r : SlotRec) : standing (putSlot s b psa r) = standing s :=
  (congrArg standing (useKey_frame s r.nsid r.epoch) :)

theorem writeParity_standing (s : State) (b : Band) (p : Nat) : standing (writeParity s b p) = standing s :=
  foldl_keeps standing (fun _ _ => ite_agree standing ((putSlot_standing ..).trans (putSlot_standing ..)) (putSlot_standing ..)) _ _

theorem fillStripe_standing (s : State) (b : Band) : standing (fillStripe s b) = standing s :=
  (writeParity_standing ..).trans (foldl_keeps standing (fun _ _ => putSlot_standing ..) _ _)

theorem programWl_standing (s : State) (b : Band) (p : Nat) : standing (programWl s b p) = standing s :=
  foldl_keeps standing (fun _ _ => bookOp_standing ..) _ _

theorem closeStripe_standing (s : State) (n : Nat) : standing (closeStripe s n) = standing s := by
  unfold closeStripe
  split
  · rfl
  · exact ite_agree standing ((programWl_standing ..).trans (fillStripe_standing ..)) (fillStripe_standing ..)

theorem closeRest_standing (fuel : Nat) (s : State) (n : Nat) : standing (closeRest fuel s n) = standing s := by
  induction fuel generalizing s with
  | zero => rfl
  | succ fuel ih =>
    unfold closeRest
    split
    · rfl
    · exact ite_agree standing rfl ((ih _).trans (closeStripe_standing ..))

theorem placeSummary_standing (s : State) (n : Nat) (r : SlotRec) : standing (placeSummary s n r) = standing s := by
  unfold placeSummary
  repeat' split
  · rfl
  · rfl
  · exact ite_agree standing ((closeStripe_standing ..).trans (putSlot_standing ..)) (putSlot_standing ..)

theorem markClosed_standing (s : State) (n : Nat) : standing (markClosed s n) = standing s := by
  unfold markClosed
  split
  · rfl
  · exact journalAdd_standing ..

theorem closeBand_standing (s : State) (n : Nat) : standing (closeBand s n) = standing s := by
  unfold closeBand
  split
  · rfl
  · exact (markClosed_standing ..).trans ((closeRest_standing ..).trans (foldl_keeps standing (fun _ _ => placeSummary_standing ..) _ _))

theorem closeFull_standing (s : State) (n : Nat) : standing (closeFull s n) = standing s := by
  unfold closeFull
  split
  · rfl
  · exact ite_agree standing (ite_agree standing (markClosed_standing ..) rfl) (ite_agree standing (closeBand_standing ..) rfl)

theorem closeStream_standing (s : State) (k : Nat) : standing (closeStream s k) = standing s :=
  (foldl_keeps standing (fun _ _ => markClosed_standing ..) _ _).trans
    (foldl_keeps standing (fun _ _ => ite_agree standing ((closeFull_standing ..).trans (closeStripe_standing ..)) rfl) _ _)

/-- The generation a finished cycle leaves. -/
def genOf (k : Ckpt) : CkGen := { gen := k.gen, beginJpos := k.beginJpos, seq0 := k.seq0, nss := k.nss, map := k.map, bands := k.bands }

/-- The care records a finished cycle takes. -/
def recordsOf (s : State) (k : Ckpt) : CareSet := { gen := k.gen, blocks := s.care.blocks, bands := s.media.bands, tclk := s.care.tclk, pass := s.care.pass }

theorem journalAdd_frame (s : State) (rs) :
    journalAdd s rs = { s with xlat := { s.xlat with staging := s.xlat.staging ++ rs }, twin := (journalAdd s rs).twin, movers := (journalAdd s rs).movers } := by
  unfold journalAdd
  dsimp only
  split <;> rfl

/-- The anchor names the newest generation, and its entry is begun (§5.9). -/
theorem writeAnchor_writes {s : State} {g : CkGen} (last : s.xlat.gens.getLast? = some g) :
    ∃ a, (writeAnchor s).nor.writing = s.nor.writing ++ [{ eseq := s.nor.eseq, typ := 0x02, key := 0, sector := 0, value := anchorBody a }] ∧ a.gen = g.gen ∧
      a.beginJpos = g.beginJpos ∧ (writeAnchor s).nor.anchor = s.nor.anchor := by
  unfold writeAnchor
  rw [last]
  exact ⟨_, ite_agree (fun t : State => t.nor.writing) rfl rfl, rfl, rfl, ite_agree (fun t : State => t.nor.anchor) rfl rfl⟩

theorem setMap_same (x : Xlat) (i : Nat) (l : Loc) : (Assoc.get (x.setMap i l).map i).getD .unmapped = l := by
  cases l <;> simp [Xlat.setMap, assoc_get_del, assoc_get_set]

theorem setMap_other (x : Xlat) {i j : Nat} (l : Loc) (other : j ≠ i) : Assoc.get (x.setMap i l).map j = Assoc.get x.map j := by
  cases l <;> simp [Xlat.setMap, assoc_get_del, assoc_get_set, other]

/-- The entries of a map line set in order, each to its own value. -/
def setLine (k : Nat) (v : Nat → Loc) (n : Nat) (x : Xlat) : Xlat := (List.range n).foldl (fun x e => x.setMap (12 * k + e) (v e)) x

theorem setLine_succ (k : Nat) (v : Nat → Loc) (n : Nat) (x : Xlat) : setLine k v (n + 1) x = (setLine k v n x).setMap (12 * k + n) (v n) := by
  simp [setLine, List.range_succ, List.foldl_append]

theorem setLine_frame (k : Nat) (v : Nat → Loc) (n : Nat) (x : Xlat) : setLine k v n x = { x with map := (setLine k v n x).map } := by
  induction n with
  | zero => rfl
  | succ n ih =>
    rw [setLine_succ]
    exact (congrArg (fun y : Xlat => { y with map := ((setLine k v n x).setMap (12 * k + n) (v n)).map }) ih :)

theorem setLine_same (k : Nat) (v : Nat → Loc) (n : Nat) (x : Xlat) (e : Nat) (within : e < n) :
    (Assoc.get (setLine k v n x).map (12 * k + e)).getD .unmapped = v e := by
  induction n with
  | zero => omega
  | succ n ih =>
    rw [setLine_succ]
    by_cases last : e = n
    · rw [last]
      exact setMap_same ..
    · rw [setMap_other _ _ (by omega)]
      exact ih (by omega)

theorem setLine_other (k : Nat) (v : Nat → Loc) (n : Nat) (x : Xlat) (i : Nat) (small : n ≤ 12) (other : i / 12 ≠ k) :
    Assoc.get (setLine k v n x).map i = Assoc.get x.map i := by
  induction n with
  | zero => rfl
  | succ n ih =>
    rw [setLine_succ, setMap_other _ _ (by omega)]
    exact ih (by omega)

/-- What recovery finds is empty but for the map (§5.10). -/
def Emptied (s : State) : Prop := s.xlat.ways = [] ∧ s.xlat.gather = [] ∧ s.xlat.suspect = [] ∧ s.xlat.deep = []

theorem finishRecovery_emptied (s : State) (r : Rec) (path full : Nat) : Emptied (finishRecovery s r path full) := by
  unfold Emptied finishRecovery recountValid
  dsimp only [State.updMedia]
  rw [(journalAdd_stages _ _).1]
  exact ⟨rfl, rfl, rfl, rfl⟩

theorem recoverMap_emptied {s : State} {lost : List Nat} {u : State} (h : recoverMap s lost = some u) : Emptied u := by
  have store : ∀ (t : State) (id : Nat) (v), Emptied t → Emptied (storeNv t id v) := fun _ _ _ h => h
  unfold recoverMap at h
  extract_lets newest s0 prev viaScan via fresh at h
  have scan : ∀ t, viaScan = some t → Emptied t := fun t ht => by
    simp only [viaScan] at ht
    split at ht
    · cases ht
    · cases ht
      exact store _ _ _ (finishRecovery_emptied ..)
  have path : ∀ g p t, via g p = some t → Emptied t := fun g p t ht => by
    simp only [via] at ht
    split at ht
    · cases ht
    · cases ht
      exact finishRecovery_emptied ..
  clear_value via viaScan fresh s0 prev newest
  split at h
  · exact scan u h
  · split at h
    · split at h
      · exact path _ _ u h
      · split at h
        · split at h
          · exact path _ _ u h
          · exact scan u h
        · exact scan u h
    · split at h
      · cases h
        exact finishRecovery_emptied ..
      · exact scan u h

theorem careAgain_standing (s : State) (lost : List Nat) : (standing (careAgain s lost)).1 = (standing s).1 := by
  unfold careAgain loadSet
  dsimp only
  split
  · rfl
  · split <;> rfl

theorem closeOpened_standing (s : State) : standing (closeOpened s) = standing s :=
  foldl_keeps standing (fun s k => (markClosed_standing (modBand s k fun b => { b with acc := none }) k).trans rfl) _ _

theorem dawnCounts_standing (s : State) : (standing (dawnCounts s)).1 = (standing s).1 := ite_agree (fun t => (standing t).1) rfl rfl

theorem closeOpened_power (s : State) : (closeOpened s).power = s.power := by
  have mark : ∀ (s : State) (n : Nat), (markClosed s n).power = s.power := fun s n => by
    unfold markClosed
    split
    · rfl
    · exact ite_agree State.power rfl rfl
  exact foldl_keeps State.power (fun s k => (mark (modBand s k fun b => { b with acc := none }) k).trans rfl) _ _

theorem bookAnew_frame (s : State) : bookAnew s = { s with flash := (bookAnew s).flash, care := { s.care with reads := (bookAnew s).care.reads } } := rfl

theorem emptyCalendars_empty (s : State) : (standing (emptyCalendars s)).1 = (standing s).1 ∧ (emptyCalendars s).power = s.power ∧ (emptyCalendars s).plan.near = [] ∧
    (emptyCalendars s).plan.far = [] := by
  unfold emptyCalendars
  extract_lets u
  have same : (standing u).1 = (standing s).1 ∧ u.power = s.power := by
    rw [show u = _ from bookAnew_frame s]
    exact ⟨rfl, rfl⟩
  clear_value u
  exact ⟨same.1, same.2, rfl, rfl⟩

theorem fabricsOn_on (s : State) : (standing (fabricsOn s)).1 = (standing s).1 ∧ (fabricsOn s).power = s.power ∧ (fabricsOn s).plan = s.plan ∧
    (fabricsOn s).day.puntyOn = true := ⟨rfl, rfl, rfl, rfl⟩

/-- The first beat of Noon (§14.2). -/
def noonBegun (s : State) : State := replStart ((setDay (patrolResume s) .noon).updDay fun d => { d with step := 0 })

theorem withDay_keeps (s : State) (c : Care) (d : Day) (k : Cane) : (standing { s with care := c, day := d, cane := k }).1 = (standing s).1 ∧
    { s with care := c, day := d, cane := k }.power = s.power ∧ { s with care := c, day := d, cane := k }.plan = s.plan := ⟨rfl, rfl, rfl⟩

theorem noonBegun_keeps (s : State) : (standing (noonBegun s)).1 = (standing s).1 ∧ (noonBegun s).power = s.power ∧ (noonBegun s).day.day = .noon ∧
    (noonBegun s).day.step = 0 ∧ (noonBegun s).day.puntyOn = s.day.puntyOn ∧ (noonBegun s).plan = s.plan := by
  obtain ⟨stands, power, plan⟩ := withDay_keeps s (noonBegun s).care (noonBegun s).day (noonBegun s).cane
  exact ⟨stands, power, rfl, rfl, rfl, plan⟩

theorem reachNoon_noon (s : State) : (standing (reachNoon s)).1 = (standing s).1 ∧ (reachNoon s).power = s.power ∧ (reachNoon s).day.day = .noon ∧
    (reachNoon s).day.step = 0 ∧ (reachNoon s).day.puntyOn = true ∧ (reachNoon s).plan.near = [] ∧ (reachNoon s).plan.far = [] := by
  unfold reachNoon
  extract_lets s1 s2 s3
  have stands : (standing s1).1 = (standing s).1 := ite_agree (fun t => (standing t).1) rfl rfl
  have power : s1.power = s.power := ite_agree State.power rfl rfl
  clear_value s1
  have on : (standing s2).1 = (standing (emptyCalendars s1)).1 ∧ s2.power = (emptyCalendars s1).power ∧ s2.plan = (emptyCalendars s1).plan ∧ s2.day.puntyOn = true :=
    fabricsOn_on _
  clear_value s2
  obtain ⟨stands2, power2, plan2, punty⟩ := on
  obtain ⟨stands1, power1, near, far⟩ := emptyCalendars_empty s1
  have lone : (standing s3).1 = (standing s2).1 ∧ s3.power = s2.power ∧ s3.day = s2.day ∧ s3.plan = s2.plan := ⟨rfl, rfl, rfl, rfl⟩
  clear_value s3
  obtain ⟨stands3, power3, day, plan⟩ := lone
  obtain ⟨stands4, power4, noon, step, punty4, plan4⟩ := noonBegun_keeps s3
  have plans := plan4.trans (plan.trans plan2)
  exact ⟨stands4.trans (stands3.trans (stands2.trans (stands1.trans stands))), power4.trans (power3.trans (power2.trans (power1.trans power))), noon, step,
    punty4.trans ((congrArg Day.puntyOn day).trans punty), (congrArg Planner.near plans).trans near, (congrArg Planner.far plans).trans far⟩

theorem noted_standing (s : State) (v : BitVec 64) :
    (standing ((s.updXlat fun x => { x with lastRecovery := v }).updPower fun p => { p with llBands := [] })).1 = (standing s).1 := rfl

theorem noteRecovery_notes (s : State) : (standing (noteRecovery s)).1 = (standing s).1 ∧ (noteRecovery s).power.llBands = [] := by
  unfold noteRecovery
  exact ⟨noted_standing s _, rfl⟩

theorem dawnCounts_power (s : State) : (dawnCounts s).power = s.power := ite_agree State.power rfl rfl

/-- The care records recovery goes on with (§7.4). -/
def careFound (s u : State) (lost : List Nat) : State :=
  if recoveryPath u = 0 ∧ readInFull s lost 0 = 0 then careAgain u lost else careCorrect (careAgain u lost) (bestSet (careAgain u lost) lost)

theorem careFound_standing (s u : State) (lost : List Nat) : (standing (careFound s u lost)).1 = (standing u).1 :=
  ite_agree (fun t => (standing t).1) (careAgain_standing ..) (careAgain_standing ..)

theorem recovery_runs {s u : State} {c j d : List Nat} (dawn : dawnAt s 5 = true) (found : recoverMap s (c ++ j ++ d) = some u)
    (kept : recoveryPath u ≠ 3 ∨ scanLost s (c ++ j ++ d) = false) :
    exec (.recovery c j d) s = .next (reachNoon (dawnCounts (closeOpened (noteRecovery (careFound s u (c ++ j ++ d)))))) := by
  show execRecovery c j d s = _
  unfold execRecovery
  extract_lets lost
  have path : ¬(recoveryPath u = 3 ∧ scanLost s lost = true) := by
    rintro ⟨three, scan⟩
    exact kept.elim (fun h => h three) fun h => Bool.false_ne_true (h.symm.trans scan)
  refine congrArg Host.Outcome.next ((if_neg (by rw [dawn]; exact Bool.false_ne_true)).trans ?_)
  rw [show recoverMap s lost = some u from found]
  exact if_neg path

theorem mapLineFill_suspects {s : State} {k : Nat} {n : Namespace} {b : Bool} (owner : lineNs s k = some n) (fresh : lineCached s k = false)
    (within : k < nsLine0 n + n.initLines) (bad : b = false ∨ lineGood s k = false) :
    Does (.mapLineFill k b) s fun t => t.xlat.suspect.contains k = true ∧ lineCached t k = false ∧ t.xlat.crcErrors = satAdd s.xlat.crcErrors 1 ∧
      t.xlat.map = s.xlat.map ∧ t = { s with xlat := t.xlat, ctxs := t.ctxs } := by
  obtain ⟨u, hu⟩ : ∃ u, u = placeLine s k := ⟨_, rfl⟩
  have frame : u = { s with xlat := u.xlat } ∧ u.xlat.suspect = s.xlat.suspect ∧ u.xlat.crcErrors = s.xlat.crcErrors ∧ u.xlat.map = s.xlat.map := by
    rw [hu]
    unfold placeLine
    dsimp only
    split <;> exact ⟨rfl, rfl, rfl, rfl⟩
  obtain ⟨same, suspect, errors, map⟩ := frame
  obtain ⟨t, ht⟩ : ∃ t, t = undeliverLine (u.updXlat fun x =>
    { x with suspect := if x.suspect.contains k then x.suspect else x.suspect ++ [k], crcErrors := satAdd x.crcErrors 1, ways := x.ways.filter fun w => w.line != k }) k := ⟨_, rfl⟩
  have split_ : t = { u with xlat := t.xlat, ctxs := t.ctxs } := by
    rw [ht]
    rfl
  have xlat : t.xlat = { u.xlat with suspect := if u.xlat.suspect.contains k then u.xlat.suspect else u.xlat.suspect ++ [k], crcErrors := satAdd u.xlat.crcErrors 1,
                                     ways := u.xlat.ways.filter fun w => w.line != k } := by
    rw [ht]
    rfl
  refine ⟨t, ?_, ?_, ?_, ?_, (congrArg Xlat.map xlat).trans map, split_.trans (congrArg (fun v : State => { v with xlat := t.xlat, ctxs := t.ctxs }) same)⟩
  · show execMapLineFill k b s = _
    unfold execMapLineFill
    rw [owner]
    dsimp only
    rw [← hu, ht]
    refine congrArg Host.Outcome.next ((if_neg (by simp [fresh])).trans (if_neg ?_))
    rcases bad with bad | bad <;> simp [bad, within]
  · rw [xlat]
    dsimp only
    split
    · assumption
    · simp
  · unfold lineCached
    rw [xlat]
    simp
  · rw [xlat, ← errors]

theorem lineRebuild_rebuilds {s : State} {k : Nat} (suspect : s.xlat.suspect.contains k = true) :
    Does (.lineRebuild k) s fun t => t = { s with xlat := { s.xlat with map := t.xlat.map, suspect := s.xlat.suspect.filter (· != k) } } ∧
      (lineNs s k = none → t.xlat.map = s.xlat.map) ∧
      (∀ n, lineNs s k = some n → (∀ e, e < 12 → (Assoc.get t.xlat.map (12 * k + e)).getD .unmapped = (Assoc.get (rebuiltLine s n k) (12 * k + e)).getD .unmapped) ∧
        ∀ i, i / 12 ≠ k → Assoc.get t.xlat.map i = Assoc.get s.xlat.map i) := by
  cases owner : lineNs s k with
  | none =>
    refine ⟨_, congrArg Host.Outcome.next (if_neg (by rw [suspect]; exact Bool.false_ne_true)), ?_⟩
    rw [owner]
    exact ⟨rfl, fun _ => rfl, fun n h => nomatch h⟩
  | some n =>
    obtain ⟨v, hv⟩ : ∃ v : Nat → Loc, v = fun e => (Assoc.get (rebuiltLine s n k) (12 * k + e)).getD .unmapped := ⟨_, rfl⟩
    refine ⟨s.updXlat fun x => { setLine k v 12 x with suspect := x.suspect.filter (· != k) }, ?_, ?_, (fun h => nomatch h), ?_⟩
    · refine congrArg Host.Outcome.next ((if_neg (by rw [suspect]; exact Bool.false_ne_true)).trans ?_)
      rw [owner, hv]
      rfl
    · exact (congrArg (fun x : Xlat => { s with xlat := { x with suspect := s.xlat.suspect.filter (· != k) } }) (setLine_frame k v 12 s.xlat) :)
    · rintro m ⟨⟩
      refine ⟨fun e within => (setLine_same k v 12 s.xlat e within).trans (by rw [hv]), fun i other => setLine_other k v 12 s.xlat i (by omega) other⟩

theorem recovery_reachesNoon {s u : State} {c j d : List Nat} (dawn : dawnAt s 5 = true) (found : recoverMap s (c ++ j ++ d) = some u)
    (kept : recoveryPath u ≠ 3 ∨ scanLost s (c ++ j ++ d) = false) :
    Does (.recovery c j d) s fun t => t.day.day = .noon ∧ t.day.step = 0 ∧ t.beat = u.beat ∧ t.xlat.map = u.xlat.map ∧ t.plan.near = [] ∧ t.plan.far = [] ∧
      t.day.puntyOn = true ∧ t.power.llBands = [] ∧ t.xlat.ways = [] ∧ t.xlat.gather = [] ∧ t.xlat.suspect = [] ∧ t.xlat.deep = [] := by
  obtain ⟨v, hv⟩ : ∃ v, v = careFound s u (c ++ j ++ d) := ⟨_, rfl⟩
  have standsV : (standing v).1 = (standing u).1 := (congrArg (fun t => (standing t).1) hv).trans (careFound_standing ..)
  have run := recovery_runs dawn found kept
  rw [← hv] at run
  obtain ⟨w, hw⟩ : ∃ w, w = dawnCounts (closeOpened (noteRecovery v)) := ⟨_, rfl⟩
  have standsW : (standing w).1 = (standing u).1 :=
    (congrArg (fun t => (standing t).1) hw).trans ((dawnCounts_standing _).trans ((congrArg Prod.fst (closeOpened_standing (noteRecovery v))).trans ((noteRecovery_notes v).1.trans standsV)))
  have power : w.power = (noteRecovery v).power := (congrArg State.power hw).trans ((dawnCounts_power _).trans (closeOpened_power _))
  rw [← hw] at run
  obtain ⟨standsN, powerN, day, step, punty, near, far⟩ := reachNoon_noon w
  have stands := standsN.trans standsW
  obtain ⟨ways, gather, suspect, deep⟩ := recoverMap_emptied found
  exact ⟨_, run, day, step, congrArg (fun x => x.1) stands, congrArg (fun x => x.2.1) stands, near, far, punty, (congrArg Power.llBands (powerN.trans power)).trans (noteRecovery_notes v).2,
    (congrArg (fun x => x.2.2.1) stands).trans ways, (congrArg (fun x => x.2.2.2.1) stands).trans gather, (congrArg (fun x => x.2.2.2.2.1) stands).trans suspect,
    (congrArg (fun x => x.2.2.2.2.2) stands).trans deep⟩

/-- Settles O34: each event's guard decides it; the anchor written at a cycle's end names its generation, and recovery leaves the map it found. -/
theorem mapLinesAndCheckpoints : Obligations.MapLinesAndCheckpoints := by
  unfold Obligations.MapLinesAndCheckpoints
  have fill : ∀ s k n b, lineNs s k = some n → lineCached s k = false → ((b = true ∧ lineGood s k = true) ∨ nsLine0 n + n.initLines ≤ k) →
      exec (.mapLineFill k b) s = .next (placeLine s k) := by
    intro s k n b owner fresh good
    show execMapLineFill k b s = _
    unfold execMapLineFill
    rw [owner]
    exact congrArg Host.Outcome.next ((if_neg (by simp [fresh])).trans (if_pos (by simpa using good)))
  refine ⟨?filled, fill, ?suspect, ?cached, ?sound, ?rebuilt, ?notDue, ?started, ?ended, ?noCycle, ?notDone, ?early, ?noPath, ?noSummary, ?recovered⟩
  case filled =>
    intro s k n b w owner fresh way good
    refine ⟨_, fill s k n b owner fresh good, ?_⟩
    unfold placeLine
    simp only [way]
    refine ⟨rfl, ?_, ?_⟩
    · exact List.any_eq_true.mpr ⟨_, List.mem_append_right _ (List.mem_singleton_self _), by simp⟩
    · exact List.mem_append_right _ (List.mem_singleton_self _)
  case suspect =>
    exact fun s k n b owner fresh within bad => mapLineFill_suspects owner fresh within bad
  case cached =>
    intro s k b still
    show execMapLineFill k b s = _
    unfold execMapLineFill
    cases owner : lineNs s k with
    | none => rfl
    | some n => exact congrArg Host.Outcome.next (if_pos (still.resolve_left (by simp [owner])))
  case sound =>
    intro s k sound
    exact congrArg Host.Outcome.next (if_pos (by simp only [sound, Bool.not_false]))
  case rebuilt =>
    exact fun s k suspect => lineRebuild_rebuilds suspect
  case notDue =>
    intro s held
    refine congrArg Host.Outcome.next (if_pos ?_)
    rcases held with h | h | h <;> simp [h]
  case started =>
    intro s none_ idle due
    refine ⟨_, congrArg Host.Outcome.next (if_neg (by simp [none_, idle, due])), ?_⟩
    obtain ⟨t, ht⟩ : ∃ t, t = journalPlain (s.updXlat fun x =>
      { x with ck := some { gen := (s.xlat.ckGen + 1) % 2 ^ 32, nextLine := 0, rate := if s.day.sealed.isSome then 64 else nvVal s 0x05000009, beginJpos := nextJpos s,
                            written := 0, seq0 := s.xlat.seq }
               ckWant := false, ckStart := s.beat, ckBeginJpos := nextJpos s }) .ckBegin 0 0 0 0 ((s.xlat.ckGen + 1) % 2 ^ 32) := ⟨_, rfl⟩
    have frame := ht.trans (journalAdd_frame _ _)
    rw [← show t = journalAdd _ _ from ht] at frame
    have xlat := congrArg State.xlat frame
    dsimp only
    rw [← ht]
    refine ⟨(congrArg (fun v : State => { v with xlat := t.xlat }) frame :), ⟨_, congrArg Xlat.staging xlat, rfl, rfl⟩, congrArg Xlat.ckStart xlat, congrArg Xlat.ckWant xlat,
      congrArg Xlat.ck xlat⟩
  case ended =>
    intro s k cycle open_ placed verified
    obtain ⟨u, hu⟩ : ∃ u, u = journalPlain s .ckEnd 0 0 k.written k.beginJpos k.gen := ⟨_, rfl⟩
    have frame := hu.trans (journalAdd_frame _ _)
    rw [← show u = journalAdd _ _ from hu] at frame
    have xlat := congrArg State.xlat frame
    have run : exec .checkpointEnd s = .next (if s.power.jthrough then u.updXlat fun x => { x with ck := x.ck.map fun c => { c with ended := true } } else finishCkpt u k) := by
      show execCheckpointEnd s = _
      unfold execCheckpointEnd
      rw [cycle]
      dsimp only
      rw [← hu]
      exact congrArg Host.Outcome.next (if_neg (by simp [open_, placed, verified]))
    cases through : s.power.jthrough with
    | true =>
      rw [through, if_pos rfl] at run
      refine ⟨_, run, (congrArg Xlat.map xlat :), fun _ => ⟨?_, (congrArg Xlat.gens xlat :), _, (congrArg Xlat.staging xlat :), rfl, rfl, rfl, rfl⟩, fun h => nomatch h⟩
      show u.xlat.ck.map _ = _
      rw [show u.xlat.ck = s.xlat.ck from (congrArg Xlat.ck xlat :), cycle]
      rfl
    | false =>
      rw [through, if_neg Bool.false_ne_true] at run
      have gens : u.xlat.gens = s.xlat.gens := (congrArg Xlat.gens xlat :)
      have blocks : u.care.blocks = s.care.blocks := (congrArg (fun v : State => v.care.blocks) frame :)
      obtain ⟨v, hv⟩ : ∃ v, v = closeStream u 3 := ⟨_, rfl⟩
      have stands : standing v = standing s := (congrArg standing hv).trans ((closeStream_standing ..).trans (congrArg standing frame :))
      obtain ⟨w, hw⟩ : ∃ w, w = (v.updXlat fun x => { x with ck := none, ckGen := k.gen, gens := u.xlat.gens ++ [genOf k] }).updCare fun c =>
        { c with recWrite := some { set := recordsOf u k, next := 0, rate := nvVal u 0x05000009 } } := ⟨_, rfl⟩
      have done : finishCkpt u k = writeAnchor w := by
        rw [hw, hv]
        rfl
      have keeps : w.xlat.map = v.xlat.map ∧ w.xlat.ck = none ∧ w.xlat.ckGen = k.gen ∧ w.nor = v.nor ∧ w.care.recSets = v.care.recSets ∧
          w.xlat.gens = u.xlat.gens ++ [genOf k] ∧
          w.care.recWrite = some { set := recordsOf u k, next := 0, rate := nvVal u 0x05000009 } := by
        rw [hw]
        exact ⟨rfl, rfl, rfl, rfl, rfl, rfl, rfl⟩
      obtain ⟨map, ck, ckGen, nor, recSets, all, write⟩ := keeps
      have norS : w.nor = s.nor := nor.trans (congrArg (fun x => x.2.1) stands)
      obtain ⟨a, writing, gen, begin_, anchor⟩ := writeAnchor_writes (s := w) (by rw [all]; exact List.getLast?_concat ..)
      obtain ⟨-, careW, -, -, xlatW⟩ := writeAnchor_frame w
      rw [done] at run
      refine ⟨_, run, ?_, (fun h => nomatch h), fun _ => ⟨?_, ?_, ?_, ?_, ?_, ?_, ?_, ?_⟩⟩
      · rw [xlatW, map]
        exact congrArg (fun x => x.1.2.1) stands
      · rw [xlatW, ck]
      · rw [xlatW, ckGen]
      · unfold norWriting
        rw [writing]
        simp
      · rw [xlatW, all, gens]
        exact ⟨_, rfl, rfl, rfl, rfl, rfl, rfl, rfl⟩
      · rw [anchor, norS]
      · rw [norS] at writing
        exact ⟨_, a, writing, rfl, rfl, rfl, gen, begin_⟩
      · rw [careW, write]
        exact ⟨_, rfl, rfl, rfl, blocks⟩
      · rw [careW, recSets]
        exact congrArg (fun x => x.2.2) stands
  case noCycle =>
    intro s none_
    show execCheckpointEnd s = _
    unfold execCheckpointEnd
    rw [none_]
  case notDone =>
    intro s k cycle held
    show execCheckpointEnd s = _
    unfold execCheckpointEnd
    rw [cycle]
    refine congrArg Host.Outcome.next (if_pos ?_)
    rcases held with h | h | h <;> simp [h]
  case early =>
    intro s c j d early
    exact congrArg Host.Outcome.next (if_pos (by simp [early]))
  case noPath =>
    intro s a c j d all dawn none_
    subst all
    refine congrArg Host.Outcome.next ((if_neg (by simp [dawn])).trans ?_)
    rw [none_]
  case noSummary =>
    intro s a c j d u all dawn found path lost
    subst all
    refine congrArg Host.Outcome.next ((if_neg (by simp [dawn])).trans ?_)
    rw [found]
    exact if_pos ⟨path, lost⟩
  case recovered =>
    intro s a c j d u all dawn found kept
    subst all
    exact recovery_reachesNoon dawn found kept

end Sys2Proof.Proofs

end


section
/-! PROOF. O35: NS_CREATE's two visits, and what NS_DELETE unmaps and destroys. -/

namespace Sys2Proof.Proofs

open Sys2Proof Sys2Proof.Machine Sys2Proof.Safety Sys2Proof.Laws

/-- The contexts, the translation and the keys: what telling the twin of a key leaves. -/
def keyView (s : State) := (s.ctxs, s.xlat, s.sec)

theorem tellKey_keyView (s : State) (nsid epoch old : Nat) : keyView (tellKey s nsid epoch old) = keyView s := ite_agree keyView rfl rfl

theorem find_insertBy {α : Type} (key : α → Nat) (x : α) (k : Nat) (l : List α) (fresh : l.find? (fun y => key y == key x) = none) :
    (insertBy key x l).find? (fun y => key y == k) = if k = key x then some x else l.find? fun y => key y == k := by
  induction l with
  | nil =>
    by_cases h : k = key x
    · simp [insertBy, h]
    · simp [insertBy, h, Ne.symm h]
  | cons y l ih =>
    obtain ⟨other, rest⟩ : key y ≠ key x ∧ l.find? (fun y => key y == key x) = none := by
      rw [List.find?_cons] at fresh
      split at fresh
      · cases fresh
      next ne => exact ⟨by simpa using ne, fresh⟩
    unfold insertBy
    split
    · by_cases h : k = key x
      · simp [h]
      · rw [if_neg h, List.find?_cons]
        rw [beq_false_of_ne (Ne.symm h)]
    · rw [List.find?_cons, ih rest, List.find?_cons]
      by_cases h : k = key x
      · rw [h, beq_false_of_ne other, if_pos rfl]
      · simp only [if_neg h]

/-- A direct op whose POST is to come with OK once the twin has acknowledged what it was told. -/
theorem awaited_posts {s0 u : State} {c : Nat} {x : Ctx} (found : getCtx u c = some x) :
    let t := residentPost (awaitMirror s0 u c) c St.ok 0 0
    t.xlat = u.xlat ∧ t.sec = u.sec ∧ ∃ y, getCtx t c = some y ∧ y.wait = .posting ∧ y.status = St.ok := by
  obtain ⟨l, waits, -⟩ := awaitMirror_waits (s0 := s0) found
  exact ⟨ite_agree State.xlat rfl rfl, ite_agree State.sec rfl rfl, _, getCtx_residentPost waits _ _ _, rfl, rfl⟩

/-- With a key's record written, a create either fails or makes its namespace. -/
theorem createFails_free {s : State} {x : Ctx} (passes : createFails s x = none) :
    getNs s x.entry.nsid.toNat = none ∧ ∃ l, lowestRun s (ceilDiv x.entry.a0.toNat 12) = some l := by
  unfold createFails at passes
  dsimp only at passes
  split at passes
  · cases passes
  split at passes
  · cases passes
  next free =>
    split at passes
    · cases passes
    next run =>
      exact ⟨by simpa using free, Option.ne_none_iff_exists'.mp (by simpa using run)⟩

/-- The namespace a create makes (R190). -/
def created (s : State) (x : Ctx) : Namespace :=
  { nsid := x.entry.nsid.toNat, g16k := x.entry.a1 == 1, mbase := 12 * (lowestRun s (ceilDiv x.entry.a0.toNat 12)).getD 0, cap := x.entry.a0.toNat, initLines := 0,
    cseq := s.xlat.seq, creating := some x.adm, deleting := false, worn := s.care.worn, sideB := sided s && s.twin.side }

theorem createNs_creates (s : State) (x : Ctx) : (createNs s x).ctxs = s.ctxs ∧ (createNs s x).xlat.nss = insertBy Namespace.nsid (created s x) s.xlat.nss ∧
    (createNs s x).xlat.map = s.xlat.map ∧ (createNs s x).sec.keyable = s.sec.keyable ++ [x.entry.nsid.toNat] ∧
    ∃ j, (createNs s x).xlat.staging = s.xlat.staging ++ [j] ∧ j.typ = .nsCreate ∧ j.nsid = x.entry.nsid.toNat := by
  have frame := journalAdd_frame (((putNs (takeSeq s 1).2 (created s x)).updCare fun c => { c with sysFixed := true }).updSec fun k =>
      { k with keyable := k.keyable ++ [(created s x).nsid] })
    [jrec .nsCreate (4 * b2n (created s x).g16k) (created s x).nsid 0 x.entry.a0.toNat s.xlat.seq (created s x).mbase]
  have run : createNs s x = _ := frame
  rw [run]
  exact ⟨rfl, rfl, rfl, rfl, _, rfl, rfl, rfl⟩

theorem nsCreate_creates {s : State} {c : Nat} {x : Ctx} (k : List Byte) (h : Resident s c 0x88 4 x) (begun : x.snap ≠ 0)
    (written : norWriting s 0x0D (recKey x.entry.nsid.toNat x.snap) = false) (passes : createFails s x = none) :
    Does (.nsCreate c k) s fun t => (∃ m, getNs t x.entry.nsid.toNat = some m ∧ m.cap = x.entry.a0.toNat ∧ m.creating = some x.adm ∧ m.initLines = 0 ∧
        m.g16k = (x.entry.a1 == 1) ∧ some (m.mbase / 12) = lowestRun s (ceilDiv x.entry.a0.toNat 12) ∧ m.cseq = s.xlat.seq) ∧
      (∀ n, n ≠ x.entry.nsid.toNat → getNs t n = getNs s n) ∧ t.xlat.map = s.xlat.map ∧ t.sec.keyable = s.sec.keyable ++ [x.entry.nsid.toNat] ∧
      (∃ j, t.xlat.staging = s.xlat.staging ++ [j] ∧ j.typ = .nsCreate ∧ j.nsid = x.entry.nsid.toNat) ∧
      ∃ y, getCtx t c = some y ∧ y.wait = .posting ∧ y.status = St.ok := by
  obtain ⟨ctxs, nss, map, keyable, staged⟩ := createNs_creates s x
  have told := tellKey_keyView (createNs s x) x.entry.nsid.toNat x.snap 0
  obtain ⟨u, hu⟩ : ∃ u, u = tellKey (createNs s x) x.entry.nsid.toNat x.snap 0 := ⟨_, rfl⟩
  have run : exec (.nsCreate c k) s = .next (residentPost (awaitMirror s u c) c St.ok 0 0) :=
    exec_resident h rfl ((if_neg begun).trans ((if_neg (by simp [written])).trans (by rw [passes, hu])))
  rw [← hu] at told
  have xlat : u.xlat = (createNs s x).xlat := congrArg (fun v => v.2.1) told
  have sec : u.sec = (createNs s x).sec := congrArg (fun v => v.2.2) told
  have found : getCtx u c = some x := by
    rw [getCtx, show u.ctxs = s.ctxs from (congrArg (fun v => v.1) told).trans ctxs]
    exact h.ctx
  obtain ⟨xlatT, secT, posts⟩ := awaited_posts (s0 := s) found
  obtain ⟨free, l, low⟩ := createFails_free passes
  have look : ∀ n, getNs (residentPost (awaitMirror s u c) c St.ok 0 0) n = if n = x.entry.nsid.toNat then some (created s x) else getNs s n := fun n => by
    rw [getNs, xlatT, xlat, nss]
    exact find_insertBy Namespace.nsid (created s x) n s.xlat.nss free
  refine ⟨_, run, ⟨created s x, (look _).trans (if_pos rfl), rfl, rfl, rfl, rfl, ?_, rfl⟩, fun n other => (look n).trans (if_neg other), ?_, ?_, ?_, posts⟩
  · simp [created, low]
  · rw [xlatT, xlat, map]
  · rw [secT, sec, keyable]
  · rw [xlatT, xlat]
    exact staged

/-! ### What NS_DELETE clears -/

theorem assoc_get_absent {α : Type} (l : List (Nat × α)) (i : Nat) (absent : i ∉ l.map Prod.fst) : Assoc.get l i = none := by
  induction l with
  | nil => rfl
  | cons p l ih =>
    obtain ⟨other, rest⟩ := not_or.mp (mt List.mem_cons.mpr absent)
    exact (if_neg other).trans (ih rest)

/-- The contexts, the namespaces and the keys: what unmapping an entry leaves. -/
def ownView (s : State) := (s.ctxs, s.xlat.nss, s.sec)

theorem setEntry_unmapped_ownView (s : State) (ns : Namespace) (gran : Nat) : ownView (setEntry s ns gran .unmapped) = ownView s := by
  have sub : ∀ (s : State) (psa k : Nat), ownView (subValid s psa k) = ownView s := fun s psa k => by
    unfold subValid
    split <;> rfl
  have name : ∀ l, ownView (unname s ns gran l) = ownView s := fun l => by
    unfold unname
    split
    · exact ite_agree ownView (sub ..) rfl
    · rfl
    · rfl
  exact (name (mapGet s (mapIdx ns gran)))

theorem unmapList (ns : Namespace) (l : List Nat) (within : ∀ i ∈ l, ns.mbase ≤ i) (s : State) :
    ownView (l.foldl (fun s i => setEntry s ns (i - ns.mbase) .unmapped) s) = ownView s ∧
    ∀ j, mapGet (l.foldl (fun s i => setEntry s ns (i - ns.mbase) .unmapped) s) j = if j ∈ l then .unmapped else mapGet s j := by
  induction l generalizing s with
  | nil => exact ⟨rfl, fun j => by simp⟩
  | cons i l ih =>
    obtain ⟨view, entries⟩ := ih (fun j hj => within j (List.mem_cons_of_mem _ hj)) (setEntry s ns (i - ns.mbase) .unmapped)
    have idx : mapIdx ns (i - ns.mbase) = i := Nat.add_sub_cancel' (within i List.mem_cons_self)
    have first : ∀ j, mapGet (setEntry s ns (i - ns.mbase) .unmapped) j = if j = i then .unmapped else mapGet s j := fun j => by
      have set_ := setEntry_unmapped s ns (i - ns.mbase)
      rw [mapped, Prod.mk.injEq, idx] at set_
      rw [mapGet, set_.2, assoc_get_del]
      split <;> rfl
    refine ⟨view.trans (setEntry_unmapped_ownView ..), fun j => (entries j).trans ?_⟩
    rw [first]
    by_cases at_ : j = i <;> simp [at_]

/-- Clearing a range unmaps just its entries. -/
theorem clearRange_clears (s : State) (ns : Namespace) : ownView (clearRange s ns) = ownView s ∧
    ∀ i, mapGet (clearRange s ns) i = if decide (ns.mbase ≤ i) && decide (i < ns.mbase + ns.cap) then .unmapped else mapGet s i := by
  obtain ⟨l, hl⟩ : ∃ l, l = (s.xlat.map.map Prod.fst).filter fun i => decide (ns.mbase ≤ i) && decide (i < ns.mbase + ns.cap) := ⟨_, rfl⟩
  obtain ⟨view, entries⟩ := unmapList ns l (fun i hi => by rw [hl, List.mem_filter] at hi; simp at hi; exact hi.2.1) s
  obtain ⟨u, hu⟩ : ∃ u, u = l.foldl (fun s i => setEntry s ns (i - ns.mbase) .unmapped) s := ⟨_, rfl⟩
  have rest : ownView (clearRange s ns) = ownView u ∧ (clearRange s ns).xlat.map = u.xlat.map := by
    rw [hu, hl]
    exact ⟨rfl, rfl⟩
  rw [← hu] at view entries
  refine ⟨rest.1.trans view, fun i => ?_⟩
  rw [mapGet, rest.2]
  refine (entries i).trans ?_
  by_cases mine : (decide (ns.mbase ≤ i) && decide (i < ns.mbase + ns.cap)) = true
  · rw [if_pos mine]
    split
    · rfl
    next absent =>
      rw [mapGet, assoc_get_absent _ _ fun has => absent ?_]
      · rfl
      · rw [hl]
        exact List.mem_filter.mpr ⟨has, mine⟩
  · rw [if_neg mine, if_neg]
    rw [hl]
    exact fun has => mine (List.mem_filter.mp has).2

/-- The state in which a NS_DELETE's POST is to come, but for what the twin is told. -/
def deleted (s : State) (c : Nat) (ns : Namespace) : State :=
  let s1 := modNs (commitNow (modCtx s c fun y => { y with snap := 1 }) c) ns.nsid fun n => { n with deleting := true }
  let s2 := (takeSeq (clearRange s1 ns) 1).2
  let s3 := journalAdd s2 [jrec .nsDelete 0 ns.nsid 0 0 (takeSeq (clearRange s1 ns) 1).1 0]
  (destroyKey s3 ns.nsid (nsEpoch s ns.nsid)).updSec fun k => { k with keyable := k.keyable.filter (· != ns.nsid) }

theorem deleted_clears (s : State) (c : Nat) (ns : Namespace) :
    (deleted s c ns).ctxs = (commitNow (modCtx s c fun y => { y with snap := 1 }) c).ctxs ∧
    (deleted s c ns).xlat.nss = updIf (fun y => y.nsid == ns.nsid) (fun n => { n with deleting := true }) s.xlat.nss ∧
    (∀ i, mapGet (deleted s c ns) i = if decide (ns.mbase ≤ i) && decide (i < ns.mbase + ns.cap) then .unmapped else mapGet s i) ∧
    (∀ r ∈ (deleted s c ns).sec.keyrecs, ¬ (r.nsid = ns.nsid ∧ r.epoch = nsEpoch s ns.nsid)) ∧ ns.nsid ∉ (deleted s c ns).sec.keyable := by
  unfold deleted
  extract_lets s1 s2 s3
  obtain ⟨view, entries⟩ := clearRange_clears s1 ns
  have frame := journalAdd_frame s2 [jrec .nsDelete 0 ns.nsid 0 0 (takeSeq (clearRange s1 ns) 1).1 0]
  have stood : ownView s3 = ownView s1 ∧ s3.xlat.map = (clearRange s1 ns).xlat.map :=
    ⟨(congrArg ownView frame).trans view, (congrArg (fun v : State => v.xlat.map) frame :)⟩
  clear_value s3
  obtain ⟨view3, map3⟩ := stood
  refine ⟨congrArg (fun v => v.1) view3, congrArg (fun v => v.2.1) view3, fun i => ?_, fun r mem => ?_, ?_⟩
  · rw [mapGet]
    exact (congrArg (fun m => (Assoc.get m i).getD Loc.unmapped) map3).trans (entries i)
  · have := (List.mem_filter.mp mem).2
    rintro ⟨e, f⟩
    simp [e, f] at this
  · exact fun mem => by simpa using (List.mem_filter.mp mem).2

theorem nsDelete_deletes {s : State} {c : Nat} {x : Ctx} {ns : Namespace} (h : Resident s c 0x89 4 x) (named : ctxNs s x = some ns) :
    Does (.nsDelete c) s fun t => (∃ m, getNs t ns.nsid = some m ∧ m.deleting = true) ∧
      (∀ i, mapGet t i = if decide (ns.mbase ≤ i) && decide (i < ns.mbase + ns.cap) then .unmapped else mapGet s i) ∧
      (∀ r ∈ t.sec.keyrecs, ¬ (r.nsid = ns.nsid ∧ r.epoch = nsEpoch s ns.nsid)) ∧ ns.nsid ∉ t.sec.keyable ∧
      ∃ y, getCtx t c = some y ∧ y.wait = .posting ∧ y.status = St.ok := by
  obtain ⟨ctxs, nss, entries, recs, keyable⟩ := deleted_clears s c ns
  have told := tellKey_keyView (deleted s c ns) ns.nsid 0 (nsEpoch s ns.nsid)
  obtain ⟨u, hu⟩ : ∃ u, u = tellKey (deleted s c ns) ns.nsid 0 (nsEpoch s ns.nsid) := ⟨_, rfl⟩
  have run : exec (.nsDelete c) s = .next (residentPost (awaitMirror s u c) c St.ok 0 0) :=
    exec_resident h rfl (by rw [named, hu]; rfl)
  rw [← hu] at told
  have xlat : u.xlat = (deleted s c ns).xlat := congrArg (fun v => v.2.1) told
  have sec : u.sec = (deleted s c ns).sec := congrArg (fun v => v.2.2) told
  have found : ∃ y, getCtx u c = some y := by
    rw [getCtx, show u.ctxs = _ from (congrArg (fun v => v.1) told).trans ctxs]
    exact ⟨_, getCtx_changed (f := fun y => { y with commitBeat := match y.commitBeat with
      | none => some s.beat
      | some b => some b }) (getCtx_changed (f := fun y => { y with snap := 1 }) h.ctx)⟩
  obtain ⟨y, found⟩ := found
  obtain ⟨xlatT, secT, posts⟩ := awaited_posts (s0 := s) found
  refine ⟨_, run, ?_, fun i => ?_, fun r mem => recs r (by rwa [secT, sec] at mem), by rwa [secT, sec], posts⟩
  · have number : ns.nsid = x.entry.nsid.toNat := by simpa using List.find?_some named
    refine ⟨{ ns with deleting := true }, ?_, rfl⟩
    rw [getNs, xlatT, xlat, nss]
    refine (find_updIf Namespace.nsid ns.nsid (fun n => { n with deleting := true }) (fun _ e => e) s.xlat.nss).trans ?_
    rw [show s.xlat.nss.find? (fun y => y.nsid == ns.nsid) = some ns from number ▸ named]
    rfl
  · rw [mapGet, xlatT, xlat]
    exact entries i

/-- Settles O35: an NS_CREATE's key record comes first; a delete unmaps just its range. -/
theorem namespaceCommands : Obligations.NamespaceCommands := by
  unfold Obligations.NamespaceCommands
  refine ⟨?fails, ?begins, ?creates, ?failsLate, ?waits, ?deletes⟩
  case fails =>
    intro s c x k st d h fresh fails
    exact posts_of_kept h.ctx (exec_resident h rfl ((if_pos fresh).trans (by rw [fails]))) rfl
  case begins =>
    intro s c x k h fresh passes ok
    have run : exec (.nsCreate c k) s = .next (modCtx (newKey (commitNow s c) x.entry.nsid.toNat 0 k).2 c fun y => { y with snap := newEpoch s }) :=
      exec_resident h rfl ((if_pos fresh).trans (by rw [passes, ok]; rfl))
    refine ⟨_, run, rfl, rfl, ?_, ?_⟩
    · simp only [norWriting, modCtx, newKey, norAppend, State.updCtxs, State.updNor, List.any_append]
      simp
      exact .inr rfl
    · refine (getCtx_changed (f := fun y => { y with snap := newEpoch s }) (s := (newKey (commitNow s c) x.entry.nsid.toNat 0 k).2)
        (getCtx_changed (f := fun y => { y with commitBeat := match y.commitBeat with
          | none => some s.beat
          | some b => some b }) h.ctx)).trans ?_
      cases x.commitBeat <;> rfl
  case creates => exact fun s c x k h begun written passes => nsCreate_creates k h begun written passes
  case failsLate =>
    intro s c x k st d h begun written fails
    refine posts_of_kept_with (u := destroyKey s x.entry.nsid.toNat x.snap) h.ctx (exec_resident h rfl ((if_neg begun).trans ((if_neg (by simp [written])).trans (by rw [fails])))) rfl ?_
    intro r mem
    have := (List.mem_filter.mp mem).2
    rintro ⟨e, f⟩
    simp [e, f] at this
  case waits =>
    intro s c x k h begun written
    exact exec_resident h rfl ((if_neg begun).trans (if_pos written))
  case deletes => exact fun s c x ns h named => nsDelete_deletes h named

end Sys2Proof.Proofs

end


section
/-! PROOF. O36: a program comes in by the host and goes into its slot; its slot is freed. -/

namespace Sys2Proof.Proofs

open Sys2Proof Sys2Proof.Machine Sys2Proof.Safety Sys2Proof.Laws

/-- A direct op's first visit queues its transfer from the host and sends its read requests (R325, R329). -/
theorem firstVisit_begins {i : Instr} {s : State} {c : Nat} {x : Ctx} {g n : Nat} (found : getCtx s c = some x) (src : x.ringOf = some g)
    (run : exec i s = .next (beginTransfer (modCtx s c fun y => { y with snap := 1 }) x false 0 n)) :
    Does i s fun t => t = { s with ctxs := t.ctxs, movers := t.movers, out := t.out } ∧ t.out = s.out ++ dataReads s x 0 n ∧ getCtx t c = some { x with snap := 1 } ∧
      t.movers = (beginTransfer s x false 0 n).movers := by
  rw [beginTransfer_read src] at run
  refine ⟨_, run, rfl, rfl, getCtx_changed (f := fun y => { y with snap := 1 }) found, ?_⟩
  rw [beginTransfer_read src]
  rfl

theorem norWriting_append (s : State) (kind key : Nat) (body : List Byte) : norWriting (norAppend s kind key body) kind key = true := by
  simp [norWriting, norAppend]

/-- What LIB_LOAD verifies a program against (R118). -/
def loadEnv (s : State) (x : Ctx) (k : Code) : VerifyEnv :=
  { own := some x.entry.a0.toNat, admin := bit k.dmode 2, raw := rawAllowed s, limit := some 4194304, noAdminDecl := false }

/-- The state with a program in its slot, its entry being written and its image slots waiting (R120, R474). -/
def loaded (s : State) (c : Nat) (x : Ctx) (k : Code) : State :=
  waitSys (norAppend ((endTransfer s c false (dBytes x)).updZci fun z =>
      { z with lib := z.lib ++ [{ slot := x.entry.a0.toNat, code := k, pins := 0 }], codeFree := z.codeFree - k.pages })
    0x08 x.entry.a0.toNat (leBytes 2 x.entry.a0.toNat ++ leBytes 2 k.words.length ++ leBytes 4 0 ++ leBytes 8 (s.xlat.seq - seqStep s))) (imageSlots s x.entry.a0.toNat k)

theorem loaded_writing (s : State) (c : Nat) (x : Ctx) (k : Code) : norWriting (loaded s c x k) 0x08 x.entry.a0.toNat = true :=
  norWriting_append ((endTransfer s c false (dBytes x)).updZci fun z =>
    { z with lib := z.lib ++ [{ slot := x.entry.a0.toNat, code := k, pins := 0 }], codeFree := z.codeFree - k.pages }) 0x08 x.entry.a0.toNat _

/-- The state with a slot freed and its entry retired (R120). -/
def unloaded (s : State) (slot : Nat) : State :=
  norRetire (s.updZci fun z => { z with lib := z.lib.filter fun l => l.slot != slot
                                        codeFree := z.codeFree + (((getLib s slot).map fun l => l.code.pages).getD 0) }) 0x08 slot

theorem loaded_frame (s : State) (c : Nat) (x : Ctx) (k : Code) : loaded s c x k =
    { s with movers := (endTransfer s c false (dBytes x)).movers, nor := (loaded s c x k).nor, media := { s.media with sysWait := s.media.sysWait ++ imageSlots s x.entry.a0.toNat k }
             zci := { s.zci with lib := s.zci.lib ++ [{ slot := x.entry.a0.toNat, code := k, pins := 0 }], codeFree := s.zci.codeFree - k.pages } } := rfl

theorem unloaded_frame (s : State) (slot : Nat) : unloaded s slot =
    { s with nor := { s.nor with log := s.nor.log.filter fun e => !(e.typ == 0x08 && e.key == slot) }
             zci := { s.zci with lib := s.zci.lib.filter (fun l => l.slot != slot), codeFree := s.zci.codeFree + ((getLib s slot).map fun l => l.code.pages).getD 0 } } := rfl

theorem libLoad_ends {s : State} {c : Nat} {x : Ctx} {b : List Byte} {k : Code} (h : Resident s c 0x8A 4 x) (done : hostInDone s x (dBytes x) b = true)
    (code : k = codeOfBytes (hostIn x 0 (dBytes x) b)) :
    exec (.libLoad c b) s = .next (match verify s (loadEnv s x k) k with
      | some (f, i) => residentPost ((endTransfer s c false (dBytes x)).updZci fun z => { z with verifyFails := satAdd z.verifyFails 1 }) c St.zciFault
          (BitVec.ofNat 8 f) (verifyResult x.entry.a0.toNat i)
      | none => residentPost (loaded s c x k) c St.ok 0 (BitVec.ofNat 64 k.words.length)) := by
  subst code
  refine exec_resident h rfl ((if_neg (by simp [done])).trans ?_)
  dsimp only [loadEnv]
  cases verify s { own := some x.entry.a0.toNat, admin := bit (codeOfBytes (hostIn x 0 (dBytes x) b)).dmode 2, raw := rawAllowed s, limit := some 4194304,
                   noAdminDecl := false } (codeOfBytes (hostIn x 0 (dBytes x) b)) <;> rfl

/-- Settles O36: the verifier's answer decides a LIB_LOAD, pins and calls decide a LIB_UNLOAD. -/
theorem libraryCommands : Obligations.LibraryCommands := by
  unfold Obligations.LibraryCommands
  refine ⟨?begins, ?loads, ?refused, ?held, ?frees⟩
  case begins =>
    intro s c x g h fresh src waits
    exact firstVisit_begins h.ctx src (exec_resident h rfl ((if_pos (by simp [waits])).trans (if_pos fresh)))
  case loads =>
    intro s c x b k h done code passes
    have run := libLoad_ends h done code
    rw [show verify s (loadEnv s x k) k = none from passes] at run
    have written := loaded_writing s c x k
    obtain ⟨u, hu⟩ : ∃ u, u = loaded s c x k := ⟨_, rfl⟩
    have frame := hu.trans (loaded_frame s c x k)
    rw [← hu] at run written frame
    clear hu
    exact posts_of_kept_with h.ctx run (by rw [frame]; rfl) ⟨congrArg State.zci frame, congrArg (fun t : State => t.media.sysWait) frame, written⟩ (congrArg State.ctxs frame :)
  case refused =>
    intro s c x b k f i h done code fails
    have run := libLoad_ends h done code
    rw [show verify s (loadEnv s x k) k = some (f, i) from fails] at run
    exact posts_of_kept_with h.ctx run rfl rfl
  case held =>
    intro s c x h held
    refine posts_of_kept h.ctx (exec_resident h rfl (if_pos ?_)) rfl
    rcases held with held | held <;> simp [held]
  case frees =>
    intro s c x h unpinned uncalled
    have run : exec (.libUnload c) s = .next (residentPost (unloaded s x.entry.a0.toNat) c St.ok 0 0) := exec_resident h rfl (if_neg (by simp [unpinned, uncalled]))
    obtain ⟨u, hu⟩ : ∃ u, u = unloaded s x.entry.a0.toNat := ⟨_, rfl⟩
    have frame := hu.trans (unloaded_frame s x.entry.a0.toNat)
    rw [← hu] at run
    clear hu
    exact posts_of_kept_with h.ctx run (by rw [frame]; rfl) ⟨congrArg State.zci frame, congrArg State.nor frame⟩ (congrArg State.ctxs frame :)

end Sys2Proof.Proofs

end


section
/-! PROOF. O37: keys made, brought and destroyed, evidence, the life cycle's fuses and a sector's scrub. -/

namespace Sys2Proof.Proofs

open Sys2Proof Sys2Proof.Machine Sys2Proof.Safety Sys2Proof.Laws

/-! ### CRYPTO_ERASE -/

theorem getCtx_of_ctxs {s t : State} {c : Nat} (same : t.ctxs = s.ctxs) : getCtx t c = getCtx s c := by
  rw [getCtx, same]
  rfl

/-- The state of an erase of a range that takes k sequence numbers and stages some records, but for what the twin is told. -/
def erasedWith (s : State) (ns : Namespace) (old k : Nat) (rs : List JRecord) : State :=
  let q := takeSeq (clearRange (destroyKey s ns.nsid old) ns) k
  let s3 := replNote (journalAdd q.2 rs) ns.nsid q.1 0 ns.cap none 0
  (modNs s3 ns.nsid fun y => { y with initLines := 0 }).updSec fun y =>
    { y with keyable := if y.keyable.contains ns.nsid then y.keyable else y.keyable ++ [ns.nsid] }

/-- The state of an erase, but for what the twin is told: the old record destroyed, the range unmapped and journaled (R517). -/
def erased (s : State) (ns : Namespace) (old : Nat) : State :=
  let k := ceilDiv ns.cap (2 ^ 32 - 1)
  erasedWith s ns old k (unmapRecs k ns.nsid 0 ns.cap (takeSeq (clearRange (destroyKey s ns.nsid old) ns) k).1 (seqStep s))

theorem erasedWith_clears (s : State) (ns : Namespace) (old k : Nat) (rs : List JRecord) : (erasedWith s ns old k rs).ctxs = s.ctxs ∧
    (∀ i, mapGet (erasedWith s ns old k rs) i = if decide (ns.mbase ≤ i) && decide (i < ns.mbase + ns.cap) then .unmapped else mapGet s i) ∧
    (∀ r ∈ (erasedWith s ns old k rs).sec.keyrecs, ¬ (r.nsid = ns.nsid ∧ r.epoch = old)) ∧ ns.nsid ∈ (erasedWith s ns old k rs).sec.keyable := by
  unfold erasedWith
  extract_lets q s3
  obtain ⟨view, entries⟩ := clearRange_clears (destroyKey s ns.nsid old) ns
  have frame := journalAdd_frame q.2 rs
  have stood : ownView s3 = ownView (destroyKey s ns.nsid old) ∧ s3.xlat.map = (clearRange (destroyKey s ns.nsid old) ns).xlat.map :=
    ⟨(congrArg ownView frame).trans view, (congrArg (fun v : State => v.xlat.map) frame :)⟩
  clear_value s3
  obtain ⟨view3, map3⟩ := stood
  have sec3 : s3.sec = (destroyKey s ns.nsid old).sec := congrArg (fun v => v.2.2) view3
  refine ⟨congrArg (fun v => v.1) view3, fun i => ?_, fun r mem => ?_, ?_⟩
  · rw [mapGet]
    exact (congrArg (fun m => (Assoc.get m i).getD Loc.unmapped) map3).trans (entries i)
  · have := (List.mem_filter.mp (sec3 ▸ mem : r ∈ (destroyKey s ns.nsid old).sec.keyrecs)).2
    rintro ⟨e, f⟩
    simp [e, f] at this
  · show ns.nsid ∈ if s3.sec.keyable.contains ns.nsid then _ else _
    split
    next has => exact List.contains_iff_mem.mp has
    next => simp

theorem erased_clears (s : State) (ns : Namespace) (old : Nat) : (erased s ns old).ctxs = s.ctxs ∧
    (∀ i, mapGet (erased s ns old) i = if decide (ns.mbase ≤ i) && decide (i < ns.mbase + ns.cap) then .unmapped else mapGet s i) ∧
    (∀ r ∈ (erased s ns old).sec.keyrecs, ¬ (r.nsid = ns.nsid ∧ r.epoch = old)) ∧ ns.nsid ∈ (erased s ns old).sec.keyable :=
  erasedWith_clears ..

/-- What a CRYPTO_ERASE of a namespace does at a visit. -/
def eraseVisit (c : Nat) (x : Ctx) (ns : Namespace) (key : List Byte) (s : State) : State :=
  let n := ns.nsid
  if x.snap = 0 then
    if !keyOk key then s
    else
      let e := newKey (commitNow s c) n 0 key
      modCtx e.2 c fun y => { y with snap := e.1, aux := [BitVec.ofNat 64 (nsEpoch s n)] }
  else if norWriting s 0x0D (recKey n x.snap) then s
  else
    let old := (nth x.aux 0 0).toNat
    residentPost (awaitMirror s (tellKey (erased s ns old) n x.snap old) c) c St.ok 0 0

theorem cryptoErase_visits {s : State} {c : Nat} {x : Ctx} {ns : Namespace} (k : List Byte) (h : Resident s c 0x90 4 x) (named : ctxNs s x = some ns) :
    exec (.cryptoErase c k) s = .next (eraseVisit c x ns k s) := by
  have row : exec (.cryptoErase c k) s = .next (resident s c 4 0x90 fun s x => match ctxNs s x with
    | none => s
    | some ns => eraseVisit c x ns k s) := rfl
  refine exec_resident h row ?_
  rw [named]

theorem eraseVisit_erases {s : State} {c : Nat} {x : Ctx} {ns : Namespace} (k : List Byte) (begun : x.snap ≠ 0)
    (written : norWriting s 0x0D (recKey ns.nsid x.snap) = false) : eraseVisit c x ns k s =
      residentPost (awaitMirror s (tellKey (erased s ns (nth x.aux 0 0).toNat) ns.nsid x.snap (nth x.aux 0 0).toNat) c) c St.ok 0 0 := by
  unfold eraseVisit
  exact (if_neg begun).trans (if_neg (by rw [written]; exact Bool.false_ne_true))

theorem cryptoErase_erases {s : State} {c : Nat} {x : Ctx} {ns : Namespace} (k : List Byte) (h : Resident s c 0x90 4 x) (named : ctxNs s x = some ns)
    (begun : x.snap ≠ 0) (written : norWriting s 0x0D (recKey ns.nsid x.snap) = false) :
    Does (.cryptoErase c k) s fun t => (∀ i, mapGet t i = if decide (ns.mbase ≤ i) && decide (i < ns.mbase + ns.cap) then .unmapped else mapGet s i) ∧
      (∀ r ∈ t.sec.keyrecs, ¬ (r.nsid = ns.nsid ∧ r.epoch = (nth x.aux 0 0).toNat)) ∧ ns.nsid ∈ t.sec.keyable ∧
      ∃ y, getCtx t c = some y ∧ y.wait = .posting ∧ y.status = St.ok := by
  have run := cryptoErase_visits k h named
  rw [eraseVisit_erases k begun written] at run
  have clears := erased_clears s ns (nth x.aux 0 0).toNat
  obtain ⟨e, he⟩ : ∃ e, e = erased s ns (nth x.aux 0 0).toNat := ⟨_, rfl⟩
  rw [← he] at run clears
  clear he
  obtain ⟨ctxs, entries, recs, keyable⟩ := clears
  have told := tellKey_keyView e ns.nsid x.snap (nth x.aux 0 0).toNat
  obtain ⟨u, hu⟩ : ∃ u, u = tellKey e ns.nsid x.snap (nth x.aux 0 0).toNat := ⟨_, rfl⟩
  rw [← hu] at told run
  clear hu
  have xlat : u.xlat = _ := congrArg (fun v => v.2.1) told
  have sec : u.sec = _ := congrArg (fun v => v.2.2) told
  obtain ⟨xlatT, secT, posts⟩ := awaited_posts (s0 := s) ((getCtx_of_ctxs ((congrArg (fun v => v.1) told).trans ctxs)).trans h.ctx)
  refine ⟨_, run, fun i => ?_, fun r mem => recs r (by rwa [secT, sec] at mem), by rw [secT, sec]; exact keyable, posts⟩
  rw [mapGet, xlatT, xlat]
  exact entries i

theorem cryptoErase_begins {s : State} {c : Nat} {x : Ctx} {ns : Namespace} {k : List Byte} (h : Resident s c 0x90 4 x) (named : ctxNs s x = some ns)
    (fresh : x.snap = 0) (ok : keyOk k = true) :
    Does (.cryptoErase c k) s fun t => t = { s with ctxs := t.ctxs, sec := t.sec, nor := t.nor } ∧ norWriting t 0x0D (recKey ns.nsid (newEpoch s)) = true ∧
      ∃ y, getCtx t c = some y ∧ y.snap = newEpoch s := by
  have run : exec (.cryptoErase c k) s = .next (modCtx (newKey (commitNow s c) ns.nsid 0 k).2 c fun y =>
      { y with snap := newEpoch s, aux := [BitVec.ofNat 64 (nsEpoch s ns.nsid)] }) := by
    rw [cryptoErase_visits k h named]
    unfold eraseVisit
    exact congrArg Host.Outcome.next ((if_pos fresh).trans (if_neg (by rw [ok]; exact Bool.false_ne_true)))
  have committed := getCtx_commitNow h.ctx
  obtain ⟨u, hu⟩ : ∃ u, u = commitNow s c := ⟨_, rfl⟩
  have frame : u = { s with ctxs := u.ctxs } := by
    rw [hu]
    rfl
  have epoch : newEpoch u = newEpoch s := by
    rw [hu]
    rfl
  rw [← hu] at run committed
  refine ⟨_, run, ?_, ?_, _, getCtx_changed (f := fun y => { y with snap := newEpoch s, aux := [BitVec.ofNat 64 (nsEpoch s ns.nsid)] })
    (s := (newKey u ns.nsid 0 k).2) committed, rfl⟩
  · rw [frame]
    rfl
  · rw [← epoch]
    exact norWriting_append (u.updSec fun k => { k with epochNext := newEpoch u + 2 }) 0x0D (recKey ns.nsid (newEpoch u)) (recBody u ns.nsid 0 (newEpoch u) k)

/-! ### KEY_IMPORT -/

/-- The first visit with the bytes arrived, ended as importKey answers. -/
theorem keyImport_takes {s : State} {c : Nat} {x : Ctx} {b : List Byte} (h : Resident s c 0x8F 4 x) (fresh : x.aux = []) (done : hostInDone s x 1184 b = true) :
    exec (.keyImport c b) s = .next (match importKey s x.entry.nsid.toNat (hostIn x 0 1184 b) with
      | .inl (st, d) => residentPost ((endTransfer s c false 1184).updSec fun k => { k with importFails := satAdd32 k.importFails 1 }) c st d 0
      | .inr key => modCtx (newKey (commitNow (endTransfer s c false 1184) c) x.entry.nsid.toNat 4 key).2 c fun y =>
          { y with aux := [BitVec.ofNat 64 (newKey (commitNow (endTransfer s c false 1184) c) x.entry.nsid.toNat 4 key).1, BitVec.ofNat 64 (nsEpoch s x.entry.nsid.toNat)] }) := by
  refine exec_resident h rfl ?_
  refine (if_pos (by rw [fresh]; rfl)).trans ((if_neg (by simp [done])).trans ?_)
  cases importKey s x.entry.nsid.toNat (hostIn x 0 1184 b) <;> rfl

theorem keyImport_begins {s : State} {c : Nat} {x : Ctx} {b : List Byte} (h : Resident s c 0x8F 4 x) (fresh : x.aux = []) (done : hostInDone s x 1184 b = true) :
    Does (.keyImport c b) s fun t => t.sec.keyrecs = s.sec.keyrecs ∧ ∀ k, importKey s x.entry.nsid.toNat (hostIn x 0 1184 b) = .inr k →
      norWriting t 0x0D (recKey x.entry.nsid.toNat (newEpoch s)) = true ∧
      ∃ y, getCtx t c = some y ∧ y.aux = [BitVec.ofNat 64 (newEpoch s), BitVec.ofNat 64 (nsEpoch s x.entry.nsid.toNat)] := by
  have run := keyImport_takes h fresh done
  cases answer : importKey s x.entry.nsid.toNat (hostIn x 0 1184 b) with
  | inl f =>
    rw [answer] at run
    exact ⟨_, run, rfl, fun k e => nomatch e⟩
  | inr key =>
    rw [answer] at run
    dsimp only at run
    obtain ⟨u, hu⟩ : ∃ u, u = commitNow (endTransfer s c false 1184) c := ⟨_, rfl⟩
    have committed := getCtx_commitNow (s := endTransfer s c false 1184) h.ctx
    have keeps : newEpoch u = newEpoch s ∧ u.sec = s.sec := by
      rw [hu]
      exact ⟨rfl, rfl⟩
    obtain ⟨epoch, sec⟩ := keeps
    rw [← hu] at run committed
    refine ⟨_, run, (congrArg Sec.keyrecs sec :), ?_⟩
    rintro k ⟨⟩
    refine ⟨?_, _, getCtx_changed (f := fun y => { y with aux := [BitVec.ofNat 64 (newKey u x.entry.nsid.toNat 4 key).1, BitVec.ofNat 64 (nsEpoch s x.entry.nsid.toNat)] })
      (s := (newKey u x.entry.nsid.toNat 4 key).2) committed, ?_⟩
    · rw [← epoch]
      exact norWriting_append (u.updSec fun k => { k with epochNext := newEpoch u + 2 }) 0x0D (recKey x.entry.nsid.toNat (newEpoch u))
        (recBody u x.entry.nsid.toNat 4 (newEpoch u) key)
    · show [BitVec.ofNat 64 (newEpoch u), _] = _
      rw [epoch]

theorem keyImport_ends {s : State} {c : Nat} {x : Ctx} {e o : BitVec 64} (b : List Byte) (h : Resident s c 0x8F 4 x) (begun : x.aux = [e, o])
    (written : norWriting s 0x0D (recKey x.entry.nsid.toNat e.toNat) = false) :
    Does (.keyImport c b) s fun t => t.xlat = s.xlat ∧ (∀ r ∈ t.sec.keyrecs, ¬ (r.nsid = x.entry.nsid.toNat ∧ r.epoch = o.toNat)) ∧
      ∃ y, getCtx t c = some y ∧ y.wait = .posting ∧ y.status = St.ok := by
  have told := tellKey_keyView (destroyKey s x.entry.nsid.toNat o.toNat) x.entry.nsid.toNat e.toNat o.toNat
  obtain ⟨u, hu⟩ : ∃ u, u = tellKey (destroyKey s x.entry.nsid.toNat o.toNat) x.entry.nsid.toNat e.toNat o.toNat := ⟨_, rfl⟩
  have run : exec (.keyImport c b) s = .next (residentPost (awaitMirror s u c) c St.ok 0 0) := by
    refine exec_resident h rfl ((if_neg (by rw [begun]; exact Bool.false_ne_true)).trans ?_)
    rw [begun, hu]
    exact if_neg (by rw [show (nth [e, o] 0 0 : BitVec 64) = e from rfl, written]; exact Bool.false_ne_true)
  rw [← hu] at told
  have sec : u.sec = (destroyKey s x.entry.nsid.toNat o.toNat).sec := congrArg (fun v => v.2.2) told
  obtain ⟨xlatT, secT, posts⟩ := awaited_posts (s0 := s) ((getCtx_of_ctxs (congrArg (fun v => v.1) told)).trans h.ctx)
  refine ⟨_, run, xlatT.trans (congrArg (fun v => v.2.1) told), fun r mem => ?_, posts⟩
  rw [secT, sec] at mem
  have := (List.mem_filter.mp mem).2
  rintro ⟨e, f⟩
  simp [e, f] at this

/-! ### ATTEST -/

theorem attest_takes {s : State} {c : Nat} {x : Ctx} {n : List Byte} (h : Resident s c 0x8E 4 x) (early : x.snap ≤ 1) (done : hostInDone s x 32 n = true)
    (new : s.sec.nonce ≠ some (hostIn x 0 32 n)) :
    Does (.attest c n) s fun t => t.sec.nonce = some (hostIn x 0 32 n) ∧ t.xlat = s.xlat ∧ ∃ y, getCtx t c = some y ∧ y.snap = 2 := by
  obtain ⟨u, hu⟩ : ∃ u, u = attest (endTransfer s c false 32) (hostIn x 0 32 n) := ⟨_, rfl⟩
  have keeps : u.sec.nonce = some (hostIn x 0 32 n) ∧ u.xlat = s.xlat ∧ u.ctxs = s.ctxs := by
    rw [hu]
    unfold attest
    rw [if_neg (show ¬ (endTransfer s c false 32).sec.nonce = _ from new)]
    exact ⟨rfl, rfl, rfl⟩
  obtain ⟨nonce, xlat, ctxs⟩ := keeps
  obtain ⟨v, hv⟩ : ∃ v, v = modCtx u c fun y => { y with snap := 2, aux := bytesWords u.sec.evidence } := ⟨_, rfl⟩
  have run : exec (.attest c n) s = .next (beginTransfer v x true 0 4020) := by
    rw [hv, hu]
    exact exec_resident h rfl ((if_pos early).trans (if_neg (by simp [done])))
  have ctx : getCtx v c = some { x with snap := 2, aux := bytesWords u.sec.evidence } := by
    rw [hv]
    exact getCtx_changed (f := fun y => { y with snap := 2, aux := bytesWords u.sec.evidence }) ((getCtx_of_ctxs ctxs).trans h.ctx)
  have same : (beginTransfer v x true 0 4020).sec = v.sec ∧ (beginTransfer v x true 0 4020).xlat = v.xlat ∧ (beginTransfer v x true 0 4020).ctxs = v.ctxs := by
    unfold beginTransfer
    split <;> exact ⟨rfl, rfl, rfl⟩
  have keepsV : v.sec = u.sec ∧ v.xlat = u.xlat := by
    rw [hv]
    exact ⟨rfl, rfl⟩
  obtain ⟨secT, xlatT, ctxsT⟩ := same
  exact ⟨_, run, (congrArg Sec.nonce (secT.trans keepsV.1)).trans nonce, xlatT.trans (keepsV.2.trans xlat), _, (getCtx_of_ctxs ctxsT).trans ctx, rfl⟩

theorem attest_ends {s : State} {c : Nat} {x : Ctx} (n : List Byte) (h : Resident s c 0x8E 4 x) (ready : x.snap = 2) (reach : hostReach s x = true) :
    Does (.attest c n) s fun t => t.sec = s.sec ∧ ∃ y, getCtx t c = some y ∧ y.wait = .posting ∧ y.status = St.ok ∧ y.result = 4020 := by
  have number : x.c = c := getCtx_number h.ctx
  obtain ⟨bs, hbs⟩ : ∃ bs, bs = padTo 4020 (x.aux.flatMap fun w => leBytes 8 w.toNat) := ⟨_, rfl⟩
  have run : exec (.attest c n) s = .next (residentPost (endTransfer (hostOut s x 0 bs) c true 4020) c St.ok 0 4020) := by
    rw [hbs]
    exact exec_resident h rfl ((if_neg (by omega)).trans (if_neg (by simp [reach])))
  obtain ⟨-, -, -, sent⟩ := hostOut_sent s x 0 bs
  obtain ⟨d, found⟩ := sent x (number ▸ h.ctx)
  rw [number] at found
  have sec : (hostOut s x 0 bs).sec = s.sec := by
    unfold hostOut
    split
    · exact foldl_keeps State.sec (f := fun s (w : Nat × List Byte) => emit s (.hostWrite x.fn (BitVec.ofNat 64 w.1) w.2)) (fun _ _ => rfl) _ _
    · rfl
  obtain ⟨u, hu⟩ : ∃ u, u = endTransfer (hostOut s x 0 bs) c true 4020 := ⟨_, rfl⟩
  have keeps : u.sec = (hostOut s x 0 bs).sec ∧ u.ctxs = (hostOut s x 0 bs).ctxs := by
    rw [hu]
    exact ⟨rfl, rfl⟩
  rw [← hu] at run
  exact ⟨_, run, keeps.1.trans sec, _, getCtx_residentPost ((getCtx_of_ctxs keeps.2).trans found) _ _ _, rfl, rfl, rfl⟩

/-! ### The key scrub -/

theorem norPut_log (s : State) (typ key : Nat) (body : List Byte) :
    ∃ k, (norPut s typ key body).nor.log = (s.nor.log.filter fun e => !(e.typ == typ && e.key == key)) ++ [k] ∧
      norPut s typ key body = { s with nor := (norPut s typ key body).nor } := by
  obtain ⟨m, hm⟩ : ∃ m, m = Nor.advance { s.nor with eseq := s.nor.eseq + 1 } (entryLen body.length) := ⟨_, rfl⟩
  have log : m.log = s.nor.log := by
    rw [hm]
    unfold Nor.advance
    split <;> rfl
  refine ⟨{ eseq := s.nor.eseq, typ := typ, key := key, sector := m.head, value := body }, ?_, rfl⟩
  rw [← log, hm]
  rfl

/-- Entries written again keep every other entry. -/
theorem norPuts_keep (l : List NorEntry) (s : State) :
    (l.foldl (fun s (e : NorEntry) => norPut s e.typ e.key e.value) s) = { s with nor := (l.foldl (fun s (e : NorEntry) => norPut s e.typ e.key e.value) s).nor } ∧
    ∀ e ∈ s.nor.log, e ∈ (l.foldl (fun s (e : NorEntry) => norPut s e.typ e.key e.value) s).nor.log ∨ ∃ f ∈ l, f.typ = e.typ ∧ f.key = e.key := by
  induction l generalizing s with
  | nil => exact ⟨rfl, fun e mem => .inl mem⟩
  | cons f l ih =>
    obtain ⟨frame, keeps⟩ := ih (norPut s f.typ f.key f.value)
    obtain ⟨k, log, first⟩ := norPut_log s f.typ f.key f.value
    refine ⟨frame.trans ?_, fun e mem => ?_⟩
    · rw [List.foldl_cons]
      exact congrArg (fun v : State => { v with nor := (l.foldl (fun s (e : NorEntry) => norPut s e.typ e.key e.value) (norPut s f.typ f.key f.value)).nor }) first
    · by_cases same : f.typ = e.typ ∧ f.key = e.key
      · exact .inr ⟨f, List.mem_cons_self, same⟩
      · refine (keeps e ?_).imp_right fun ⟨g, mem, same⟩ => ⟨g, List.mem_cons_of_mem _ mem, same⟩
        rw [log]
        refine List.mem_append_left _ (List.mem_filter.mpr ⟨mem, ?_⟩)
        simp only [Bool.not_eq_true', Bool.and_eq_false_iff, beq_eq_false_iff_ne]
        grind

theorem keyScrub_moves {s : State} {k : Nat} (asked : s.sec.scrub.contains k = true) :
    Does (.keyScrub k) s fun t => t = { s with sec := { s.sec with scrub := s.sec.scrub.filter (· != k) }, nor := t.nor } ∧ k ∉ t.nor.sysUsed ∧
      ∀ e ∈ s.nor.log, e.sector ≠ k → e ∈ t.nor.log ∨ ∃ f ∈ s.nor.log, f.sector = k ∧ f.typ = e.typ ∧ f.key = e.key := by
  obtain ⟨v, hv⟩ : ∃ v, v = s.updNor fun n => { n with headOff := if s.nor.head = k then 65536 else s.nor.headOff } := ⟨_, rfl⟩
  obtain ⟨u, hu⟩ : ∃ u, u = (s.nor.log.filter fun e => e.sector == k).foldl (fun s (e : NorEntry) => norPut s e.typ e.key e.value) v := ⟨_, rfl⟩
  have moved := norPuts_keep (s.nor.log.filter fun e => e.sector == k) v
  rw [← hu] at moved
  obtain ⟨frame, keeps⟩ := moved
  have log : v.nor.log = s.nor.log ∧ v = { s with nor := v.nor } := by
    rw [hv]
    exact ⟨rfl, rfl⟩
  refine ⟨(u.updNor fun n => { n with sysUsed := n.sysUsed.filter (· != k) }).updSec fun x => { x with scrub := x.scrub.filter (· != k) }, ?_, ?_, ?_, fun e mem _ => ?_⟩
  · rw [hu, hv]
    exact congrArg Host.Outcome.next (if_neg (by rw [asked]; exact Bool.false_ne_true))
  · have frameS : u = { s with nor := u.nor } := frame.trans (congrArg (fun w : State => { w with nor := u.nor }) log.2)
    have sec : u.sec = s.sec := (congrArg State.sec frameS :)
    exact (congrArg (fun w : State => { w with nor := { u.nor with sysUsed := u.nor.sysUsed.filter (· != k) }, sec := { u.sec with scrub := u.sec.scrub.filter (· != k) } }) frameS).trans
      (by rw [sec])
  · exact fun mem => by simpa using (List.mem_filter.mp mem).2
  · exact (keeps e (log.1 ▸ mem)).imp_right fun ⟨f, has, same⟩ =>
      ⟨f, (List.mem_filter.mp has).1, by simpa using (List.mem_filter.mp has).2, same⟩

/-! ### LIFE_CYCLE -/

/-- The fuses a life-cycle transition burns (R504). -/
def transitioned (s : State) (c : Nat) : State :=
  match s.sec.life with
  | .blank => (commitNow s c).updSec fun k => { k with life := .bench }
  | .bench => (commitNow s c).updSec fun k => { k with life := .sealed, benchClose := true }
  | .sealed => (norRetire (commitNow s c) 0x0C 0).updSec fun k => { k with life := .returned, lock := false, cert := none, certState := 0 }
  | .returned => (commitNow s c).updSec fun k => { k with life := .scrapped, secretBlown := true }
  | .scrapped => commitNow s c

theorem transitioned_burns (s : State) (c : Nat) : (s.sec.life = .blank → (transitioned s c).sec.life = .bench) ∧
    (s.sec.life = .bench → (transitioned s c).sec.life = .sealed ∧ (transitioned s c).sec.benchClose = true) ∧
    (s.sec.life = .sealed → (transitioned s c).sec.life = .returned ∧ (transitioned s c).sec.cert = none ∧ (transitioned s c).sec.lock = false) ∧
    (s.sec.life = .returned → (transitioned s c).sec.life = .scrapped ∧ (transitioned s c).sec.secretBlown = true) ∧
    transitioned s c = { s with sec := (transitioned s c).sec, nor := (transitioned s c).nor, ctxs := (commitNow s c).ctxs } := by
  unfold transitioned
  cases s.sec.life <;> simp [norRetire, State.updSec, State.updNor, commitNow, modCtx, State.updCtxs]

theorem lifeCycle_burns {s : State} {c : Nat} {x : Ctx} (h : Resident s c 0x91 4 x) :
    Does (.lifeCycle c) s fun t => (s.sec.life = .blank → t.sec.life = .bench) ∧ (s.sec.life = .bench → t.sec.life = .sealed ∧ t.sec.benchClose = true) ∧
      (s.sec.life = .sealed → t.sec.life = .returned ∧ t.sec.cert = none ∧ t.sec.lock = false) ∧
      (s.sec.life = .returned → t.sec.life = .scrapped ∧ t.sec.secretBlown = true) ∧ t = { s with sec := t.sec, nor := t.nor, ctxs := t.ctxs } ∧
      ∃ y, getCtx t c = some y ∧ y.wait = .posting ∧ y.status = St.ok := by
  obtain ⟨blank, bench, sealed_, returned, frame⟩ := transitioned_burns s c
  have run : exec (.lifeCycle c) s = .next (residentPost (transitioned s c) c St.ok 0 0) := by
    refine exec_resident h rfl ?_
    unfold transitioned
    cases s.sec.life <;> rfl
  obtain ⟨u, hu⟩ : ∃ u, u = transitioned s c := ⟨_, rfl⟩
  rw [← hu] at run blank bench sealed_ returned frame
  have found : getCtx u c = _ := (getCtx_of_ctxs (s := commitNow s c) (congrArg State.ctxs frame :)).trans (getCtx_commitNow h.ctx)
  refine ⟨_, run, blank, bench, sealed_, returned, ?_, _, getCtx_residentPost found _ _ _, rfl, rfl⟩
  exact (congrArg (fun v : State => { v with ctxs := (residentPost u c St.ok 0 0).ctxs }) frame :)

/-- Settles O37: a key's record comes before what it replaces goes; the other ops end in one visit. -/
theorem keyCommands : Obligations.KeyCommands := by
  unfold Obligations.KeyCommands
  refine ⟨fun s c x ns k h named fresh ok => cryptoErase_begins h named fresh ok, fun s c x ns k h named begun written => cryptoErase_erases k h named begun written,
    ?failed, ?asks, ?nonce, fun s c x b h fresh done => keyImport_begins h fresh done, fun s c x b e o h begun written => keyImport_ends b h begun written,
    fun s c x n h early done new => attest_takes h early done new, fun s c x n h ready reach => attest_ends n h ready reach, ?dark, ?outside, ?within, ?kept,
    fun s c x h => lifeCycle_burns h, fun s k asked => keyScrub_moves asked⟩
  case failed =>
    intro s c x b st d h fresh done answer
    have run := keyImport_takes h fresh done
    rw [answer] at run
    exact posts_of_kept_with h.ctx run rfl rfl
  case asks =>
    intro s c x b h fresh waits first
    exact exec_resident h rfl ((if_pos (by rw [fresh]; rfl)).trans ((if_pos (by simp [waits])).trans (if_pos first)))
  case nonce =>
    intro s c x n h waits first
    exact exec_resident h rfl ((if_pos (by omega)).trans ((if_pos (by simp [waits])).trans (if_pos first)))
  case dark =>
    intro s q b power dark
    exact congrArg Host.Outcome.next ((if_neg (by simp [power])).trans (if_pos dark))
  case outside =>
    intro s q b power lit out
    exact congrArg Host.Outcome.next ((if_neg (by simp [power])).trans ((if_neg (by simp [lit])).trans (if_pos out)))
  case within =>
    intro s q b power lit within
    exact congrArg Host.Outcome.next ((if_neg (by simp [power])).trans ((if_neg (by simp [lit])).trans (if_neg (by omega))))
  case kept =>
    intro s q b power lit same within
    refine congrArg Host.Outcome.next ((if_neg (by simp [power])).trans ((if_neg (by simp [lit])).trans ((if_neg (by omega)).trans ?_)))
    rw [show attest s (padTo 32 (b.take 32)) = s from if_pos same]

end Sys2Proof.Proofs

end


section
/-! PROOF. O38: blocks of an image come in, and each action of FW_ACTIVATE writes its BOOTCTL entry first. -/

namespace Sys2Proof.Proofs

open Sys2Proof Sys2Proof.Machine Sys2Proof.Safety Sys2Proof.Laws

/-! ### FW_DOWNLOAD -/

theorem norPut_nor (s : State) (typ key : Nat) (body : List Byte) : (norPut s typ key body).nor.stage = s.nor.stage ∧ (norPut s typ key body).nor.dlBusy = s.nor.dlBusy ∧
    (norPut s typ key body).nor.progRefused = s.nor.progRefused ∧ (norPut s typ key body).nor.svnMin = s.nor.svnMin := by
  unfold norPut Nor.durable Nor.advance
  dsimp only [State.updNor]
  split <;> exact ⟨rfl, rfl, rfl, rfl⟩

/-- A failed download: the staging FAILED, no block on its way, and the POST to come with its detail (R478). -/
theorem dlFail_fails {u : State} {c : Nat} {x : Ctx} (found : getCtx u c = some x) (k : Nat) :
    (dlFail u c k).nor.stage = .failed ∧ (dlFail u c k).nor.dlBusy = none ∧ (dlFail u c k).nor.progRefused = u.nor.progRefused ∧
      ∃ y, getCtx (dlFail u c k) c = some y ∧ y.wait = .posting ∧ y.status = St.signature ∧ y.detail = BitVec.ofNat 8 k := by
  obtain ⟨v, hv⟩ : ∃ v, v = setStage (u.updNor fun n => { n with dlBusy := none }) .failed := ⟨_, rfl⟩
  have stages : v.nor.stage = .failed ∧ v.nor.dlBusy = none ∧ v.nor.progRefused = u.nor.progRefused ∧ v.ctxs = u.ctxs := by
    obtain ⟨stage, busy, refused, -⟩ := norPut_nor ((u.updNor fun n => { n with dlBusy := none }).updNor fun n =>
      { n with stage := .failed, preloaded := n.preloaded && StageSt.failed == .verified }) 0x01 0
      (bootNow ((u.updNor fun n => { n with dlBusy := none }).updNor fun n => { n with stage := .failed, preloaded := n.preloaded && StageSt.failed == .verified }))
    rw [hv]
    exact ⟨stage, busy, refused, rfl⟩
  obtain ⟨stage, busy, refused, ctxs⟩ := stages
  obtain ⟨w, hw⟩ : ∃ w, w = event v 6 0xFF := ⟨_, rfl⟩
  have frame := hw.trans (event_frame v 6 0xFF)
  have nor : w.nor = v.nor := (congrArg State.nor frame :)
  have run : dlFail u c k = residentPost w c St.signature (BitVec.ofNat 8 k) 0 := by
    rw [hw, hv]
    rfl
  have found' : getCtx w c = some x := (getCtx_of_ctxs ((congrArg State.ctxs frame :).trans ctxs)).trans found
  rw [run]
  exact ⟨(congrArg Nor.stage nor).trans stage, (congrArg Nor.dlBusy nor).trans busy, (congrArg Nor.progRefused nor).trans refused, _,
    getCtx_residentPost found' _ _ _, rfl, rfl, rfl⟩

/-- A block's bytes in the staging bank. -/
def staged (s : State) (c : Nat) (x : Ctx) (w : List Byte × Nat) : State :=
  (modImage (endTransfer (commitNow s c) c false (dBytes x)) (stageBank s) fun i => { i with bytes := Mem.writeN i.bytes x.entry.a0.toNat w.1 }).updNor fun m =>
    { m with progRefused := satAdd m.progRefused w.2 }

/-- What a block that has arrived fails with, if it does. -/
def blockRefused (u : State) (b off bad : Nat) : Option Nat :=
  match (if off = 0 then manifestFault u b else none) with
  | some k => some k
  | none => if bad = 0 then none else some 7

theorem fwDownload_takes {s : State} {c : Nat} {x : Ctx} {b : List Byte} {w : List Byte × Nat} (h : Resident s c 0x8C 4 x) (begun : x.snap = 1)
    (done : hostInDone s x (dBytes x) b = true) (hw : w = programBlock s (stageBank s) x.entry.a0.toNat (hostIn x 0 (dBytes x) b)) :
    exec (.fwDownload c b) s = .next (match blockRefused (staged s c x w) (stageBank s) x.entry.a0.toNat w.2 with
      | some k => dlFail (staged s c x w) c k
      | none =>
        let s3 := if x.entry.a0.toNat = 0 then readManifest (staged s c x w) (stageBank s) else staged s c x w
        let s4 := s3.updNor fun m => { m with dlBusy := some (c, x.entry.a0.toNat, dBytes x) }
        modCtx (if s.nor.stage = .receiving then s4 else setStage s4 .receiving) c fun y => { y with snap := 2 }) := by
  subst hw
  refine exec_resident h rfl ?_
  refine (if_neg (by omega)).trans ((if_neg (by omega)).trans ((if_neg (by rw [done]; exact Bool.false_ne_true)).trans ?_))
  unfold blockRefused
  rfl

theorem staged_ctx {s : State} {c : Nat} {x : Ctx} (found : getCtx s c = some x) (w : List Byte × Nat) : ∃ y, getCtx (staged s c x w) c = some y :=
  ⟨_, getCtx_commitNow found⟩

theorem staged_frame (s : State) (c : Nat) (x : Ctx) (w : List Byte × Nat) :
    staged s c x w = { s with ctxs := (commitNow s c).ctxs, movers := (staged s c x w).movers, nor := (staged s c x w).nor } ∧
    (staged s c x w).nor.progRefused = satAdd s.nor.progRefused w.2 ∧ (staged s c x w).nor.stage = s.nor.stage ∧
    (imageOf (staged s c x w) (stageBank s)).bytes = Mem.writeN (imageOf s (stageBank s)).bytes x.entry.a0.toNat w.1 ∧
    imageOf (staged s c x w) (1 - stageBank s) = imageOf s (1 - stageBank s) := by
  refine ⟨rfl, rfl, rfl, ?_, ?_⟩
  · exact congrArg Image.bytes (vget_vset_same s.nor.images { imageOf s (stageBank s) with
      bytes := Mem.writeN (imageOf s (stageBank s)).bytes x.entry.a0.toNat w.1 } Image.init (by unfold stageBank; omega))
  · exact vget_vset_ne _ _ _ (by unfold stageBank; omega)

/-! ### FW_ACTIVATE -/

/-- What FW_ACTIVATE's first visit leaves: its commit beat, and its BOOTCTL entry begun. -/
theorem activate_begins {i : Instr} {s : State} {c act : Nat} {x : Ctx} {body : State → List Byte} {fin : State → State}
    (row : exec i s = .next (activate s c act body fin)) (h : Resident s c 0x8D 4 x) (own : x.entry.a0.toNat = act) (fresh : x.snap = 0) :
    Does i s fun t => t = { s with ctxs := t.ctxs, nor := t.nor } ∧ getCtx t c = some { x with snap := 1, commitBeat := some (x.commitBeat.getD s.beat) } ∧
      t.nor.stage = s.nor.stage ∧ t.nor.active = s.nor.active ∧ ∃ e, t.nor.writing = s.nor.writing ++ [e] ∧ e.typ = 1 ∧ e.key = 0 ∧ e.value = body s := by
  have run : exec i s = .next (norAppend (modCtx (commitNow s c) c fun y => { y with snap := 1 }) 0x01 0 (body s)) :=
    exec_resident h row ((if_neg (by omega)).trans (if_pos fresh))
  exact ⟨_, run, rfl, getCtx_changed (f := fun y => { y with snap := 1 }) (getCtx_commitNow h.ctx), rfl, rfl, _, rfl, rfl, rfl, rfl⟩

/-- FW_ACTIVATE's second visit, once its entry is written. -/
theorem activate_ends {i : Instr} {s : State} {c act : Nat} {x : Ctx} {body : State → List Byte} {fin : State → State}
    (row : exec i s = .next (activate s c act body fin)) (h : Resident s c 0x8D 4 x) (own : x.entry.a0.toNat = act) (begun : x.snap ≠ 0)
    (written : norWriting s 0x01 0 = false) {P : State → Prop} (ctxs : (fin s).ctxs = s.ctxs) (holds : ∀ u, u = fin s → P (residentPost u c St.ok 0 0)) :
    Does i s fun t => P t ∧ ∃ y, getCtx t c = some y ∧ y.wait = .posting ∧ y.status = St.ok := by
  have run : exec i s = .next (residentPost (fin s) c St.ok 0 0) :=
    exec_resident h row ((if_neg (by omega)).trans ((if_neg begun).trans (if_neg (by rw [written]; exact Bool.false_ne_true))))
  obtain ⟨u, hu⟩ : ∃ u, u = fin s := ⟨_, rfl⟩
  rw [← hu] at run ctxs
  exact ⟨_, run, holds u hu, _, getCtx_residentPost ((getCtx_of_ctxs ctxs).trans h.ctx) _ _ _, rfl, rfl⟩

theorem erasePump_keeps (s : State) : (erasePump s).nor.log = s.nor.log ∧ (erasePump s).nor.svnMin = s.nor.svnMin ∧ (erasePump s).nor.oldNv = s.nor.oldNv ∧
    (erasePump s).nor.preloaded = s.nor.preloaded ∧ (erasePump s).ctxs = s.ctxs := by
  unfold erasePump askErase
  split
  · exact ⟨rfl, rfl, rfl, rfl, rfl⟩
  · split
    · exact ⟨rfl, rfl, rfl, rfl, rfl⟩
    · split <;> exact ⟨rfl, rfl, rfl, rfl, rfl⟩

theorem loadBoot_keeps (s : State) : (loadBoot s).nor.log = s.nor.log ∧ (loadBoot s).nor.svnMin = s.nor.svnMin ∧ (loadBoot s).nor.schema = s.nor.schema ∧ (loadBoot s).ctxs = s.ctxs := by
  unfold loadBoot
  split <;> exact ⟨rfl, rfl, rfl, rfl⟩

/-- What COMMIT leaves of the version floor, the old settings and the log (R481). -/
def committed (s : State) : State :=
  let svn := (imageOf s s.nor.active).svn
  let s1 := loadBoot s
  let s2 := if s.nor.svnMin < svn then
      norPut (s1.updNor fun n => { n with svnMin := svn }) 0x05 (settingKey s.nor.schema 0x11000004) (settingBody s 0x11000004 (BitVec.ofNat 64 svn)) else s1
  erasePump ((retireSettings s2 (· != s.nor.schema)).updNor fun n => { n with oldNv := [], eraseNext := 0 })

theorem committed_commits (s : State) : (committed s).nor.svnMin = max s.nor.svnMin (imageOf s s.nor.active).svn ∧ (committed s).nor.oldNv = [] ∧
    (∀ e ∈ (committed s).nor.log, e.typ = 5 → e.key / 2 ^ 32 = s.nor.schema) ∧ (committed s).ctxs = s.ctxs := by
  obtain ⟨-, floor, -, ctxs⟩ := loadBoot_keeps s
  unfold committed
  extract_lets svn s1 s2
  have floor2 : s2.nor.svnMin = max s.nor.svnMin svn := by
    simp only [s2]
    split
    next low =>
      rw [(norPut_nor _ _ _ _).2.2.2]
      exact (Nat.max_eq_right (Nat.le_of_lt low)).symm
    next high => exact floor.trans (Nat.max_eq_left (Nat.le_of_not_lt high)).symm
  have ctxs2 : s2.ctxs = s.ctxs := ite_agree State.ctxs ctxs ctxs
  clear_value s2
  obtain ⟨log, svnMin, old, -, same⟩ := erasePump_keeps ((retireSettings s2 (· != s.nor.schema)).updNor fun n => { n with oldNv := [], eraseNext := 0 })
  refine ⟨svnMin.trans floor2, old, fun e mem typ => ?_, same.trans ctxs2⟩
  rw [log] at mem
  simpa [typ] using (List.mem_filter.mp mem).2

theorem noteActivation_notes (s : State) (kind : Nat) : (noteActivation s kind 0).nor.activations = satAdd32 s.nor.activations 1 ∧
    (noteActivation s kind 0).nor.lastAct = BitVec.ofNat 48 kind ∧ (noteActivation s kind 0).nor.active = s.nor.active ∧ (noteActivation s kind 0).ctxs = s.ctxs :=
  ⟨rfl, congrArg (BitVec.ofNat 48) (by simp), rfl, rfl⟩

/-- Entries begun one after the other. -/
theorem norAppends_write (l : List (Nat × Nat × List Byte)) (s : State) :
    ∃ es, l.foldl (fun s e => norAppend s e.1 e.2.1 e.2.2) s = { s with nor := (l.foldl (fun s e => norAppend s e.1 e.2.1 e.2.2) s).nor } ∧
      (l.foldl (fun s e => norAppend s e.1 e.2.1 e.2.2) s).nor.writing = s.nor.writing ++ es ∧ es.map (fun k => (k.typ, k.key, k.value)) = l ∧
      (l.foldl (fun s e => norAppend s e.1 e.2.1 e.2.2) s).nor.activating = s.nor.activating ∧
      (l.foldl (fun s e => norAppend s e.1 e.2.1 e.2.2) s).nor.actAt = s.nor.actAt := by
  induction l generalizing s with
  | nil => exact ⟨[], rfl, by simp, rfl, rfl, rfl⟩
  | cons e l ih =>
    obtain ⟨es, frame, writing, map, activating, at_⟩ := ih (norAppend s e.1 e.2.1 e.2.2)
    refine ⟨{ eseq := s.nor.eseq, typ := e.1, key := e.2.1, sector := 0, value := e.2.2 } :: es, ?_, ?_, ?_, activating, at_⟩
    · rw [List.foldl_cons]
      exact frame
    · rw [List.foldl_cons, writing]
      simp [norAppend]
    · rw [List.map_cons, map]

/-- Settles O38: a block by its verdict, an action of FW_ACTIVATE by its visit. -/
theorem firmwareCommands : Obligations.FirmwareCommands := by
  unfold Obligations.FirmwareCommands
  refine ⟨?badBlock, ?begins, ?waits, ?refused, ?stored, ?manifest, ?notLive, ?live, ?noMigration, ?migrates, ?begun, ?ended⟩
  case badBlock =>
    intro s c x b st d h fresh bad
    refine posts_of_kept h.ctx (exec_resident h rfl ((if_neg (by omega)).trans ((if_pos ⟨fresh, by rw [bad]; rfl⟩).trans ?_))) rfl
    rw [bad]
    rfl
  case begins =>
    intro s c x h fresh good waits
    obtain ⟨g, src⟩ : ∃ g, x.ringOf = some g := by
      cases src : x.ringOf with
      | none => simp [hostInDone, src] at waits
      | some g => exact ⟨g, rfl⟩
    have run : exec (.fwDownload c []) s = .next (beginTransfer (modCtx s c fun y => { y with snap := 1 }) x false 0 (dBytes x)) :=
      exec_resident h rfl ((if_neg (by omega)).trans ((if_neg (by simp [good])).trans ((if_pos (by simp [waits])).trans (if_pos fresh))))
    obtain ⟨t, step, frame, out, ctx, -⟩ := firstVisit_begins h.ctx src run
    exact ⟨t, step, frame, ctx, fun _ => out⟩
  case waits =>
    intro s c x b h held
    rcases held with two | ⟨one, waits⟩
    · exact exec_resident h rfl (if_pos two)
    · exact exec_resident h rfl ((if_neg (by omega)).trans ((if_neg (by omega)).trans ((if_pos (by simp [waits])).trans (if_neg (by omega)))))
  case refused =>
    intro s c x b w h begun done offset hw bad
    have run := fwDownload_takes h begun done hw
    have off : x.entry.a0.toNat ≠ 0 := fun z => offset (BitVec.eq_of_toNat_eq z)
    rw [show blockRefused (staged s c x w) (stageBank s) x.entry.a0.toNat w.2 = some 7 by simp [blockRefused, off, bad]] at run
    obtain ⟨y, found⟩ := staged_ctx h.ctx w
    obtain ⟨stage, busy, refused, ctx⟩ := dlFail_fails found 7
    exact ⟨_, run, stage, busy, refused.trans (staged_frame s c x w).2.1, ctx⟩
  case stored =>
    intro s c x b w h begun done offset receiving hw good
    have run := fwDownload_takes h begun done hw
    have off : x.entry.a0.toNat ≠ 0 := fun z => offset (BitVec.eq_of_toNat_eq z)
    rw [show blockRefused (staged s c x w) (stageBank s) x.entry.a0.toNat w.2 = none by simp [blockRefused, off, good]] at run
    simp only [if_neg off, if_pos receiving] at run
    obtain ⟨y, found⟩ := staged_ctx h.ctx w
    obtain ⟨frame, -, stage, bytes, other⟩ := staged_frame s c x w
    obtain ⟨u, hu⟩ : ∃ u, u = staged s c x w := ⟨_, rfl⟩
    rw [← hu] at run frame stage bytes other found
    refine ⟨_, run, ?_, rfl, bytes, other, stage.trans receiving, _, getCtx_changed (f := fun y => { y with snap := 2 }) (s := u.updNor _) found, rfl⟩
    rw [frame]
    rfl
  case manifest =>
    intro s c x b u k w h begun done first hw hu fault
    have off : x.entry.a0.toNat = 0 := by rw [first]; rfl
    have hw' : w = programBlock s (stageBank s) x.entry.a0.toNat (hostIn x 0 (dBytes x) b) := by rw [hw, off]
    have same : staged s c x w = u := by
      rw [hu, staged, off]
    have run := fwDownload_takes h begun done hw'
    rw [same, show blockRefused u (stageBank s) x.entry.a0.toNat w.2 = some k by simp [blockRefused, off, fault]] at run
    obtain ⟨y, found⟩ := staged_ctx h.ctx w
    obtain ⟨stage, busy, -, ctx⟩ := dlFail_fails (same ▸ found) k
    exact ⟨_, run, stage, busy, ctx⟩
  case notLive => exact fun s c x h other => exec_resident h rfl (if_pos other)
  case live =>
    intro s c x h own mine
    obtain ⟨l, hl⟩ : ∃ l, l = migration s (imageOf s (stageBank s)) := ⟨_, rfl⟩
    obtain ⟨v, hv⟩ : ∃ v, v = (commitNow s c).updNor fun n => { n with activating := some (c, 3), restarted := 0 } := ⟨_, rfl⟩
    have keeps : v = { s with ctxs := v.ctxs, nor := v.nor } ∧ v.nor.writing = s.nor.writing ∧ v.nor.activating = some (c, 3) ∧ v.nor.actAt = s.nor.actAt := by
      rw [hv]
      exact ⟨rfl, rfl, rfl, rfl⟩
    obtain ⟨frameV, writingV, activatingV, atV⟩ := keeps
    obtain ⟨es, frame, writing, map, activating, at_⟩ := norAppends_write l v
    obtain ⟨u, hu⟩ : ∃ u, u = l.foldl (fun s e => norAppend s e.1 e.2.1 e.2.2) v := ⟨_, rfl⟩
    have run : exec (.fwActivateLive c) s = .next (norAppend u 0x01 0 (bootBody (stageBank s) (some s.nor.active) true 0 .previous)) := by
      rw [hu, hv, hl]
      exact exec_resident h rfl (if_neg (by simp [own, mine]))
    rw [← hu] at frame writing activating at_
    refine ⟨_, run, ?_, activating.trans activatingV, at_.trans atV, es, { eseq := u.nor.eseq, typ := 0x01, key := 0, sector := 0, value := _ }, ?_, map.trans hl, rfl, rfl⟩
    · rw [frame, frameV]
      rfl
    · rw [← writingV, ← writing]
      rfl
  case noMigration => exact fun s i old => if_pos old
  case migrates =>
    intro s i p new mem nv
    unfold migration
    rw [if_neg (Nat.not_le.mpr new)]
    refine List.mem_append_left _ (List.mem_append_right _ (List.mem_map.mpr ⟨(p.1, (Config.setmap i.version p.1 p.2).getD p.2), ?_, rfl⟩))
    exact List.mem_map.mpr ⟨p, List.mem_filter.mpr ⟨mem, nv⟩, rfl⟩
  case begun =>
    intro s c x i v action h fresh
    rcases action with ⟨rfl, own, rfl⟩ | ⟨rfl, own, rfl⟩ | ⟨rfl, own, rfl⟩ | ⟨rfl, own, rfl⟩
    · exact activate_begins (i := .fwActivateAtReset c) (act := 1) (body := fun s => bootBody (stageBank s) (some s.nor.active) true 0 .previous) rfl h (by rw [own]; rfl) fresh
    · exact activate_begins (i := .fwActivateCommit c) (act := 2) (body := fun s => bootBody s.nor.active none false 0 .erasing) rfl h (by rw [own]; rfl) fresh
    · exact activate_begins (i := .fwActivateRollback c) (act := 3) (body := fun s => bootBody (s.nor.prev.getD 0) none false 0 .failed) rfl h (by rw [own]; rfl) fresh
    · exact activate_begins (i := .fwActivateDiscard c) (act := 4) (body := fun s => bootBody s.nor.active s.nor.prev s.nor.trial s.nor.attempts .erasing) rfl h (by rw [own]; rfl) fresh
  case ended =>
    intro s c x h begun written
    refine ⟨fun own => ?_, fun own => ?_, fun own => ?_, fun own => ?_⟩
    · have event_ := event_frame s 6 0xFF
      have run := activate_ends (i := .fwActivateAtReset c) (act := 1) rfl h (by rw [own]; rfl) begun written
        (P := fun t => t.nor.activations = satAdd32 s.nor.activations 1 ∧ t.nor.lastAct = 2 ∧ t.nor.active = s.nor.active) (congrArg State.ctxs event_ :) ?_
      · obtain ⟨t, step, ⟨a, b, e⟩, post⟩ := run
        exact ⟨t, step, a, b, e, post⟩
      · rintro u rfl
        obtain ⟨w, hw⟩ : ∃ w, w = event s 6 0xFF := ⟨_, rfl⟩
        have nor : w.nor = s.nor := (congrArg State.nor (hw.trans event_) :)
        rw [← hw, ← nor]
        obtain ⟨count, last, active, -⟩ := noteActivation_notes w 2
        exact ⟨count, last, active⟩
    · obtain ⟨floor, old, log, ctxs⟩ := committed_commits s
      obtain ⟨t, step, ⟨a, b, e⟩, post⟩ := activate_ends (i := .fwActivateCommit c) (act := 2) (fin := committed) rfl h (by rw [own]; rfl) begun written
        (P := fun t => t.nor.svnMin = max s.nor.svnMin (imageOf s s.nor.active).svn ∧ t.nor.oldNv = [] ∧ ∀ e ∈ t.nor.log, e.typ = 5 → e.key / 2 ^ 32 = s.nor.schema) ctxs
        (by rintro u rfl; exact ⟨floor, old, log⟩)
      exact ⟨t, step, a, b, e, post⟩
    · have same : ∀ b, (unmigrate s b).nor.activations = s.nor.activations ∧ (unmigrate s b).ctxs = s.ctxs := fun b => by
        unfold unmigrate
        dsimp only
        split <;> exact ⟨rfl, rfl⟩
      obtain ⟨count, ctxs⟩ := same (s.nor.prev.getD 0)
      have event_ := event_frame (unmigrate s (s.nor.prev.getD 0)) 6 0xFF
      have run := activate_ends (i := .fwActivateRollback c) (act := 3) rfl h (by rw [own]; rfl) begun written
        (P := fun t => t.nor.activations = satAdd32 s.nor.activations 1 ∧ t.nor.lastAct = 3) ((congrArg State.ctxs event_ :).trans ctxs) ?_
      · obtain ⟨t, step, ⟨a, b⟩, post⟩ := run
        exact ⟨t, step, a, b, post⟩
      · rintro u rfl
        obtain ⟨w, hw⟩ : ∃ w, w = event (unmigrate s (s.nor.prev.getD 0)) 6 0xFF := ⟨_, rfl⟩
        have nor : w.nor.activations = s.nor.activations := (congrArg (fun v : State => v.nor.activations) (hw.trans event_) :).trans count
        rw [← hw, ← nor]
        obtain ⟨counts, last, -, -⟩ := noteActivation_notes w 3
        exact ⟨counts, last⟩
    · obtain ⟨-, floor, -, ctxs⟩ := loadBoot_keeps s
      obtain ⟨-, floorE, -, preloaded, ctxsE⟩ := erasePump_keeps ((loadBoot s).updNor fun n => { n with eraseNext := 0, preloaded := false })
      obtain ⟨t, step, ⟨a, b⟩, post⟩ := activate_ends (i := .fwActivateDiscard c) (act := 4) (fin := fun s =>
          erasePump ((loadBoot s).updNor fun n => { n with eraseNext := 0, preloaded := false })) rfl h (by rw [own]; rfl) begun written
        (P := fun t => t.nor.preloaded = false ∧ t.nor.svnMin = s.nor.svnMin) (ctxsE.trans ctxs) (by rintro u rfl; exact ⟨preloaded, floorE.trans floor⟩)
      exact ⟨t, step, a, b, post⟩

end Sys2Proof.Proofs

end


section
/-! PROOF. O39: what a boot-flash program or erase leaves at its end, the switch beat and the restarts. -/

namespace Sys2Proof.Proofs

open Sys2Proof Sys2Proof.Machine Sys2Proof.Safety Sys2Proof.Laws

/-! ### The end of a program -/

theorem durable_keeps (n : Nor) (e : NorEntry) : (n.durable e).writing = n.writing ∧ (n.durable e).eraseSuspends = n.eraseSuspends ∧
    (n.durable e).sysUsed.length ≤ n.sysUsed.length + 1 ∧ (n.durable e).log = (n.log.filter fun k => !(k.typ == e.typ && k.key == e.key)) ++
      [{ e with sector := (n.advance (entryLen e.value.length)).head }] := by
  unfold Nor.durable Nor.advance
  dsimp only
  split
  · exact ⟨rfl, rfl, by simp, rfl⟩
  · exact ⟨rfl, rfl, by simp, rfl⟩

/-- An entry that reads back stands in the log in place of the one of its kind and key (§16.2). -/
def readBack (s : State) (e : NorEntry) (l : List NorEntry) : State :=
  (s.updNor fun n => { n with eraseSuspends := satAdd n.eraseSuspends (b2n n.erasing.isSome) }).updNor fun n => { n with writing := l }.durable e

theorem readBack_keeps (s : State) (e : NorEntry) (l : List NorEntry) : readBack s e l = { s with nor := (readBack s e l).nor } ∧ (readBack s e l).nor.writing = l ∧
    (readBack s e l).nor.eraseSuspends = satAdd s.nor.eraseSuspends (b2n s.nor.erasing.isSome) ∧ (readBack s e l).nor.sysUsed.length ≤ s.nor.sysUsed.length + 1 ∧
    (∃ f ∈ (readBack s e l).nor.log, f.typ = e.typ ∧ f.key = e.key ∧ f.value = e.value) ∧
    ∀ f ∈ s.nor.log, ¬ (f.typ = e.typ ∧ f.key = e.key) → f ∈ (readBack s e l).nor.log := by
  obtain ⟨n, hn⟩ : ∃ n : Nor, n = { s.nor with eraseSuspends := satAdd s.nor.eraseSuspends (b2n s.nor.erasing.isSome), writing := l } := ⟨_, rfl⟩
  have run : readBack s e l = { s with nor := n.durable e } := by
    rw [hn]
    rfl
  have keepsN : n.writing = l ∧ n.eraseSuspends = satAdd s.nor.eraseSuspends (b2n s.nor.erasing.isSome) ∧ n.sysUsed = s.nor.sysUsed ∧ n.log = s.nor.log := by
    rw [hn]
    exact ⟨rfl, rfl, rfl, rfl⟩
  obtain ⟨writingN, suspendsN, usedN, logN⟩ := keepsN
  obtain ⟨writing, suspends, used, log⟩ := durable_keeps n e
  rw [run]
  refine ⟨rfl, writing.trans writingN, suspends.trans suspendsN, usedN ▸ used, ?_, fun f mem other => ?_⟩
  · show ∃ f ∈ (n.durable e).log, _
    rw [log]
    exact ⟨_, List.mem_append_right _ (List.mem_singleton_self _), rfl, rfl, rfl⟩
  · show f ∈ (n.durable e).log
    rw [log, logN]
    refine List.mem_append_left _ (List.mem_filter.mpr ⟨mem, ?_⟩)
    simp only [Bool.not_eq_true', Bool.and_eq_false_iff, beq_eq_false_iff_ne]
    grind

theorem compact_small {s : State} (small : s.nor.sysUsed.length ≤ 240) : compact s = s := by
  unfold compact
  split
  · rfl
  · exact if_pos (by simp [small])

theorem norProgramDone_reads {s : State} {e : NorEntry} {l : List NorEntry} (front : s.nor.writing = e :: l) :
    exec (.norProgramDone true) s = .next (compact (entryDurable (readBack s e l) e)) := by
  show execNorProgramDone true s = _
  unfold execNorProgramDone
  rw [front]
  rfl

theorem entryDurable_key {s : State} {e : NorEntry} (kind : e.typ = 0x0D) : entryDurable s e = keyDurable s e.value := by
  cases e
  cases kind
  rfl

theorem entryDurable_anchor {s : State} {e : NorEntry} (kind : e.typ = 0x02) : entryDurable s e = anchorDurable s e.value := by
  cases e
  cases kind
  rfl

theorem keyDurable_adds (s : State) (b : List Byte) : keyDurable s b = { s with sec := (keyDurable s b).sec } ∧ recOfBody s b ∈ (keyDurable s b).sec.keyrecs ∧
    (field b 0 2 = 0 → s.sec.rotKey = some (field b 4 4) → (keyDurable s b).sec.sysEpochPrev = s.sec.sysEpoch ∧ (keyDurable s b).sec.sysEpoch = field b 4 4 ∧
      (keyDurable s b).sec.sysEpochs = s.sec.sysEpochs + 1 ∧ (keyDurable s b).sec.rotKey = none) ∧
    (s.sec.rotKey ≠ some (field b 4 4) → (keyDurable s b).sec.sysEpoch = s.sec.sysEpoch ∧ (keyDurable s b).sec.rotKey = s.sec.rotKey) := by
  have has : recOfBody s b ∈ (addKeyRec s b).sec.keyrecs := List.mem_append_right _ (List.mem_singleton_self _)
  unfold keyDurable
  dsimp only
  split
  next turn => exact ⟨rfl, has, fun _ _ => ⟨rfl, rfl, rfl, rfl⟩, fun other => absurd turn.2 other⟩
  next plain => exact ⟨rfl, has, fun a b => absurd ⟨a, b⟩ plain, fun _ => ⟨rfl, rfl⟩⟩

theorem anchorDurable_keeps (s : State) (b : List Byte) : (anchorDurable s b).nor.writing = s.nor.writing ∧ (anchorDurable s b).nor.sysUsed = s.nor.sysUsed ∧
    (∃ a, (anchorDurable s b).nor.anchor = some a ∧ a.gen = field b 0 4 ∧ (anchorDurable s b).xlat.gens = keepGens s.xlat.gens a.gen) ∧
    (anchorDurable s b).xlat.map = s.xlat.map ∧ (anchorDurable s b).ctxs = s.ctxs ∧ (anchorDurable s b).rings = s.rings ∧ (anchorDurable s b).media = s.media ∧
    (anchorDurable s b).flash = s.flash ∧ (anchorDurable s b).sec = s.sec := by
  have release : ∀ (u : State) (j : Nat), (releaseJournal u j).nor = u.nor ∧ (releaseJournal u j).xlat.gens = u.xlat.gens ∧ (releaseJournal u j).xlat.map = u.xlat.map ∧
      (releaseJournal u j).ctxs = u.ctxs ∧ (releaseJournal u j).rings = u.rings ∧ (releaseJournal u j).media = u.media ∧ (releaseJournal u j).flash = u.flash ∧
      (releaseJournal u j).sec = u.sec := fun u j => by
    unfold releaseJournal
    extract_lets old live s1
    have frame := journalAdd_frame s1 (live.map fun r => { r with flags := r.flags ||| 2 })
    rw [frame]
    exact ⟨rfl, rfl, rfl, rfl, rfl, rfl, rfl, rfl⟩
  unfold anchorDurable
  extract_lets src a kept
  obtain ⟨nor, gens, map, ctxs, rings, media, flash, sec⟩ :=
    release ((s.updNor fun x => { x with anchor := some a }).updXlat fun x => { x with gens := kept }) ((kept.head?.map CkGen.beginJpos).getD 0)
  exact ⟨(congrArg Nor.writing nor :), (congrArg Nor.sysUsed nor :), ⟨a, (congrArg Nor.anchor nor :), rfl, gens⟩, map, ctxs, rings, media, flash, sec⟩

/-! ### The end of an erase -/

theorem erasePump_frame (s : State) : erasePump s = { s with nor := (erasePump s).nor } ∧ (erasePump s).nor.sysUsed = s.nor.sysUsed ∧
    (erasePump s).nor.stage = s.nor.stage ∧ (erasePump s).nor.images = s.nor.images ∧ (erasePump s).nor.eraseNext = s.nor.eraseNext := by
  unfold erasePump askErase
  split
  · exact ⟨rfl, rfl, rfl, rfl, rfl⟩
  · split
    · exact ⟨rfl, rfl, rfl, rfl, rfl⟩
    · split <;> exact ⟨rfl, rfl, rfl, rfl, rfl⟩

theorem systemErase_frees {s : State} {b k : Nat} (running : s.nor.erasing = some (b, k)) (system : 768 ≤ k)
    (logged : (s.nor.log.any fun e => e.typ == 0x09 && e.key == eraseKey (1 - b) k) = false)
    (written : (s.nor.writing.any fun e => e.typ == 0x09 && e.key == eraseKey (1 - b) k) = false) :
    Does (.norEraseDone true) s fun t => t = { s with nor := t.nor } ∧ t.nor.sysUsed = s.nor.sysUsed.filter (· != k - 768) ∧
      t.nor.log = s.nor.log.filter fun e => !(e.typ == 0x09 && e.key == eraseKey b k) := by
  obtain ⟨u, hu⟩ : ∃ u, u = norRetire (s.updNor fun n => { n with erasing := none }) 0x09 (eraseKey b k) := ⟨_, rfl⟩
  have keeps : u = { s with nor := u.nor } ∧ u.nor.sysUsed = s.nor.sysUsed ∧ u.nor.writing = s.nor.writing ∧
      u.nor.log = s.nor.log.filter fun e => !(e.typ == 0x09 && e.key == eraseKey b k) := by
    rw [hu]
    exact ⟨rfl, rfl, rfl, rfl⟩
  obtain ⟨frame, used, writing, log⟩ := keeps
  have single : (u.nor.log.any (fun e => e.typ == 0x09 && e.key == eraseKey (1 - b) k) ||
      u.nor.writing.any (fun e => e.typ == 0x09 && e.key == eraseKey (1 - b) k)) = false := by
    rw [writing, written, Bool.or_false, log, List.any_eq_false]
    exact fun e mem => List.any_eq_false.mp logged e (List.mem_filter.mp mem).1
  have run : exec (.norEraseDone true) s = .next (erasePump (u.updNor fun n => { n with sysUsed := n.sysUsed.filter (· != k - 768) })) := by
    show execNorEraseDone true s = _
    unfold execNorEraseDone
    rw [running]
    dsimp only
    rw [← hu]
    refine congrArg Host.Outcome.next ((if_neg (by simp)).trans ((if_pos system).trans ?_))
    rw [single]
    rfl
  obtain ⟨frameE, usedE, -, -, -⟩ := erasePump_frame (u.updNor fun n => { n with sysUsed := n.sysUsed.filter (· != k - 768) })
  obtain ⟨logE, -, -, -, -⟩ := erasePump_keeps (u.updNor fun n => { n with sysUsed := n.sysUsed.filter (· != k - 768) })
  refine ⟨_, run, frameE.trans ?_, usedE.trans (by rw [← used]; rfl), logE.trans log⟩
  exact (congrArg (fun v : State => { v with nor := (erasePump (u.updNor fun n => { n with sysUsed := n.sysUsed.filter (· != k - 768) })).nor }) frame :)

/-- An image sector's bytes gone from its bank. -/
def sectorGone (s : State) (b k : Nat) : State :=
  modImage (norRetire (s.updNor fun n => { n with erasing := none }) 0x09 (eraseKey b k)) b fun i =>
    { i with bytes := i.bytes.filter fun c => !(decide (65536 * k ≤ c.1) && decide (c.1 < 65536 * (k + 1))) }

theorem vget_vset_const {α : Type} {n : Nat} (v : Vector α n) (i : Nat) (f : α → α) (d : α) (keeps : f d = d) : vget (vset v i (f (vget v i d))) i d = f (vget v i d) := by
  by_cases h : i < n
  · exact vget_vset_same v _ d h
  · have out : ∀ w : Vector α n, vget w i d = d := fun w => by simp [vget, h]
    rw [out, out, keeps]

/-- An ERASING staging bank whose last sector is erased is BLANK (R478); else the next erase goes on. -/
def bankErased (s : State) : State :=
  if s.nor.stage = .erasing ∧ 768 ≤ s.nor.eraseNext then
    setStage ((modImage s (stageBank s) fun _ => Image.init).updNor fun n => { n with dlNext := 0, dlTries := 0, dlProgrammed := 0, eraseNext := 0 }) .blank
  else erasePump s

/-- An image sector is erased: the count of an ERASING bank goes on with it. -/
def imageErased (s : State) (b k : Nat) : State :=
  bankErased (if s.nor.stage = .erasing ∧ b = stageBank s ∧ k = s.nor.eraseNext then s.updNor fun n => { n with eraseNext := n.eraseNext + 1 } else s)

theorem durable_frame (n : Nor) (e : NorEntry) : n.durable e = { n with log := (n.durable e).log, sysUsed := (n.durable e).sysUsed, headOff := (n.durable e).headOff } := by
  unfold Nor.durable Nor.advance
  dsimp only
  split <;> rfl

theorem norPut_frame (s : State) (typ key : Nat) (body : List Byte) :
    ∃ log used off, norPut s typ key body = { s with nor := { s.nor with eseq := s.nor.eseq + 1, log := log, sysUsed := used, headOff := off } } :=
  ⟨_, _, _, congrArg (fun n : Nor => { s with nor := n }) (durable_frame { s.nor with eseq := s.nor.eseq + 1 }
    { eseq := s.nor.eseq, typ := typ, key := key, sector := 0, value := body })⟩

theorem setStage_sets (s : State) (st : StageSt) : setStage s st = { s with nor := (setStage s st).nor } ∧ (setStage s st).nor.stage = st ∧
    (setStage s st).nor.images = s.nor.images ∧ (setStage s st).nor.dlNext = s.nor.dlNext := by
  obtain ⟨log, used, off, frame⟩ := norPut_frame (s.updNor fun n => { n with stage := st, preloaded := n.preloaded && st == .verified }) 0x01 0
    (bootNow (s.updNor fun n => { n with stage := st, preloaded := n.preloaded && st == .verified }))
  have run : setStage s st = _ := frame
  rw [run]
  exact ⟨rfl, rfl, rfl, rfl⟩

theorem bankErased_frame (s : State) : bankErased s = { s with nor := (bankErased s).nor } := by
  unfold bankErased
  split
  · exact (setStage_sets _ _).1
  · exact (erasePump_frame s).1

theorem imageErased_frame (s : State) (b k : Nat) : imageErased s b k = { s with nor := (imageErased s b k).nor } := by
  unfold imageErased
  split
  · exact bankErased_frame _
  · exact bankErased_frame _

theorem imageErased_other {s : State} {b k : Nat} (other : s.nor.stage ≠ .erasing) : (imageErased s b k).nor.stage = s.nor.stage ∧
    (imageErased s b k).nor.images = s.nor.images := by
  obtain ⟨-, -, stage, images, -⟩ := erasePump_frame s
  rw [imageErased, if_neg fun h => other h.1, bankErased, if_neg fun h => other h.1]
  exact ⟨stage, images⟩

theorem imageErased_next {s : State} {b k : Nat} (erasing : s.nor.stage = .erasing) (own : b = stageBank s) (turn : k = s.nor.eraseNext) (early : k < 767) :
    (imageErased s b k).nor.stage = .erasing ∧ (imageErased s b k).nor.eraseNext = k + 1 := by
  obtain ⟨u, hu⟩ : ∃ u, u = s.updNor fun n => { n with eraseNext := n.eraseNext + 1 } := ⟨_, rfl⟩
  have keeps : u.nor.stage = s.nor.stage ∧ u.nor.eraseNext = s.nor.eraseNext + 1 := by
    rw [hu]
    exact ⟨rfl, rfl⟩
  obtain ⟨-, -, stage, -, next⟩ := erasePump_frame u
  rw [imageErased, if_pos ⟨erasing, own, turn⟩, ← hu, bankErased, if_neg (by omega)]
  exact ⟨stage.trans (keeps.1.trans erasing), next.trans (keeps.2.trans (by rw [turn]))⟩

theorem imageErased_last {s : State} {b k : Nat} (erasing : s.nor.stage = .erasing) (own : b = stageBank s) (turn : k = s.nor.eraseNext) (last : k = 767) :
    (imageErased s b k).nor.stage = .blank ∧ imageOf (imageErased s b k) b = Image.init ∧ (imageErased s b k).nor.dlNext = 0 := by
  obtain ⟨u, hu⟩ : ∃ u, u = s.updNor fun n => { n with eraseNext := n.eraseNext + 1 } := ⟨_, rfl⟩
  have keeps : u.nor.stage = s.nor.stage ∧ u.nor.eraseNext = s.nor.eraseNext + 1 ∧ stageBank u = b := by
    rw [hu, own]
    exact ⟨rfl, rfl, rfl⟩
  obtain ⟨stageU, nextU, bank⟩ := keeps
  obtain ⟨w, hw⟩ : ∃ w, w = (modImage u (stageBank u) fun _ => Image.init).updNor fun n => { n with dlNext := 0, dlTries := 0, dlProgrammed := 0, eraseNext := 0 } := ⟨_, rfl⟩
  have blank : w.nor.dlNext = 0 ∧ vget w.nor.images b Image.init = Image.init := by
    rw [hw, bank]
    exact ⟨rfl, vget_vset_same u.nor.images _ _ (by rw [own]; unfold stageBank; omega)⟩
  obtain ⟨-, stage, images, next⟩ := setStage_sets w .blank
  rw [imageErased, if_pos ⟨erasing, own, turn⟩, ← hu, bankErased, if_pos ⟨stageU.trans erasing, by omega⟩, ← hw]
  exact ⟨stage, (congrArg (vget · b Image.init) images).trans blank.2, next.trans blank.1⟩

theorem imageErase_ends {s : State} {b k : Nat} (running : s.nor.erasing = some (b, k)) (image : k < 768) :
    exec (.norEraseDone true) s = .next (imageErased (sectorGone s b k) b k) := by
  show execNorEraseDone true s = _
  unfold execNorEraseDone
  rw [running]
  dsimp only
  refine congrArg Host.Outcome.next ((if_neg (by simp)).trans ((if_neg (by omega)).trans ?_))
  unfold imageErased bankErased sectorGone
  rfl

/-! ### The switch beat and the restarts -/

/-- The count of activations, and the state but for the boot flash and the settings: what the switch's migration leaves. -/
def switchView (s : State) : Nat × (Nor → List (Nat × BitVec 64) → State) := (s.nor.activations, fun n l => { s with nor := n, nv := l })

theorem loadBoot_switchView (s : State) : switchView (loadBoot s) = switchView s := by
  unfold loadBoot
  split <;> rfl

theorem norPut_switchView (s : State) (typ key : Nat) (body : List Byte) : switchView (norPut s typ key body) = switchView s := by
  obtain ⟨log, used, off, frame⟩ := norPut_frame s typ key body
  rw [frame]
  rfl

theorem migrate_switchView (s : State) (b : Nat) : switchView (migrate s b) = switchView s := by
  have write : ∀ (u : State) (i : Image), switchView (writeMigration u i) = switchView u := fun u i => by
    unfold writeMigration
    extract_lets all due
    exact foldl_keeps switchView (f := fun s (e : Nat × Nat × List Byte) => norPut s e.1 e.2.1 e.2.2) (fun s e => norPut_switchView s e.1 e.2.1 e.2.2) due u
  unfold migrate
  dsimp only
  split
  · split <;> rfl
  · exact (write s (imageOf s b))

theorem fwSwitchBeat_switches {s : State} {c : Nat} (at_ : s.nor.activating = some (c, 3)) (written : norWriting s 0x01 0 = false) :
    Does .fwSwitchBeat s fun t => t = { s with nor := t.nor, zci := t.zci, nv := t.nv } ∧ t.nor.activating = some (c, 5) ∧ t.nor.switchBeat = s.beat ∧
      t.zci.oldVlib = s.zci.lib.filter (fun l => decide (l.slot < 256)) ∧ t.nor.preloaded = false ∧ t.nor.activations = satAdd32 s.nor.activations 1 := by
  obtain ⟨u, hu⟩ : ∃ u, u = migrate (loadBoot s) (stageBank s) := ⟨_, rfl⟩
  have view : switchView u = switchView s := (congrArg switchView hu).trans ((migrate_switchView ..).trans (loadBoot_switchView s))
  have count : u.nor.activations = s.nor.activations := congrArg Prod.fst view
  have frame : u = { s with nor := u.nor, nv := u.nv } := congrFun (congrFun (congrArg Prod.snd view) u.nor) u.nv
  obtain ⟨v, hv⟩ : ∃ v, v = u.updNor fun n => { n with activating := some (c, 5), switchBeat := s.beat, preloaded := false } := ⟨_, rfl⟩
  have run : exec .fwSwitchBeat s = .next (noteActivation (countCode (v.updZci fun z =>
      { z with oldVlib := s.zci.lib.filter fun l => decide (l.slot < 256), lib := vendorCode (imageOf v v.nor.active).version ++ z.lib.filter fun l => decide (256 ≤ l.slot) }))
        1 (s.beat - s.nor.actAt)) := by
    rw [hv, hu]
    show execFwSwitchBeat s = _
    unfold execFwSwitchBeat
    rw [at_]
    exact congrArg Host.Outcome.next (if_neg (by rw [written]; exact Bool.false_ne_true))
  have keeps : v = { u with nor := v.nor } ∧ v.nor.activating = some (c, 5) ∧ v.nor.switchBeat = s.beat ∧ v.nor.preloaded = false ∧ v.nor.activations = u.nor.activations := by
    rw [hv]
    exact ⟨rfl, rfl, rfl, rfl, rfl⟩
  obtain ⟨frameV, activating, beat, preloaded, countV⟩ := keeps
  clear hv hu
  obtain ⟨t, ht⟩ : ∃ t, t = noteActivation (countCode (v.updZci fun z =>
      { z with oldVlib := s.zci.lib.filter fun l => decide (l.slot < 256), lib := vendorCode (imageOf v v.nor.active).version ++ z.lib.filter fun l => decide (256 ≤ l.slot) }))
        1 (s.beat - s.nor.actAt) := ⟨_, rfl⟩
  have keepsT : t = { v with nor := t.nor, zci := t.zci } ∧ t.nor.activating = v.nor.activating ∧ t.nor.switchBeat = v.nor.switchBeat ∧ t.nor.preloaded = v.nor.preloaded ∧
      t.nor.activations = satAdd32 v.nor.activations 1 ∧ t.zci.oldVlib = s.zci.lib.filter fun l => decide (l.slot < 256) := by
    rw [ht]
    exact ⟨rfl, rfl, rfl, rfl, rfl, rfl⟩
  obtain ⟨frameT, activatingT, beatT, preloadedT, countT, old⟩ := keepsT
  rw [← ht] at run
  refine ⟨t, run, ?_, activatingT.trans activating, beatT.trans beat, old, preloadedT.trans preloaded, countT.trans (by rw [countV, count])⟩
  have nvT : t.nv = u.nv := (congrArg State.nv frameT :).trans (congrArg State.nv frameV :)
  calc t = { v with nor := t.nor, zci := t.zci } := frameT
    _ = { u with nor := t.nor, zci := t.zci } := (congrArg (fun w : State => { w with nor := t.nor, zci := t.zci }) frameV :)
    _ = { s with nor := t.nor, zci := t.zci, nv := u.nv } := (congrArg (fun w : State => { w with nor := t.nor, zci := t.zci }) frame :)
    _ = { s with nor := t.nor, zci := t.zci, nv := t.nv } := by rw [nvT]

/-- The last Servitor's restart ends the activation and its command (R485). -/
theorem servitorRestart_last {s : State} {c : Nat} (at_ : s.nor.activating = some (c, 5)) (seven : s.nor.restarted = 7) :
    exec (.servitorRestart 7) s = .next (finishAdm (event (s.updNor fun m => { m with activating := none, restarted := 0 }) 6 0xFF) c 0x8D St.ok 0 0) := by
  show execServitorRestart 7 s = _
  unfold execServitorRestart
  rw [at_]
  exact congrArg Host.Outcome.next ((if_neg (by omega)).trans (if_neg (by omega)))

/-- Settles O39: each event by its guard; what an entry's durability does stands in the lemma of its kind. -/
theorem firmwareEvents : Obligations.FirmwareEvents := by
  unfold Obligations.FirmwareEvents
  refine ⟨?failed, ?plain, ?reads, ?block, ?key, ?anchor, ?idle, fun s b k running system logged written => systemErase_frees running system logged written,
    ?notErasing, ?again, ?image, ?preloads, ?notVerified, fun s c at_ written => fwSwitchBeat_switches at_ written, ?writing, ?restarts, ?notNow, ?notSwitching,
    fun s c at_ seven => servitorRestart_last at_ seven, ?ends, ?counts, ?halted⟩
  case failed =>
    intro s e l front
    refine ⟨(s.updNor fun n => { n with eraseSuspends := satAdd n.eraseSuspends (b2n n.erasing.isSome) }).updNor fun n => n.advance (entryLen e.value.length), ?_, rfl, ?_, ?_⟩
    · show execNorProgramDone false s = _
      unfold execNorProgramDone
      rw [front]
      rfl
    · exact ite_agree Nor.writing rfl rfl
    · exact ite_agree Nor.log rfl rfl
  case plain =>
    intro s e l front anchor block erase key small
    obtain ⟨frame, writing, suspends, used, has, keeps⟩ := readBack_keeps s e l
    have same : entryDurable (readBack s e l) e = readBack s e l := by
      unfold entryDurable
      split <;> first | contradiction | rfl
    refine ⟨readBack s e l, ?_, frame, writing, has, keeps, suspends⟩
    rw [norProgramDone_reads front, same, compact_small (by omega)]
  case reads => exact fun s e l front => norProgramDone_reads front
  case block =>
    intro s c o n b none_ busy
    show execNorProgramDone b s = _
    unfold execNorProgramDone
    rw [none_, busy]
  case key =>
    intro s e l front kind small
    obtain ⟨frame, -, -, used, -, -⟩ := readBack_keeps s e l
    obtain ⟨u, hu⟩ : ∃ u, u = readBack s e l := ⟨_, rfl⟩
    have run := norProgramDone_reads front
    rw [← hu] at run frame used
    obtain ⟨frameK, adds, turns, stays⟩ := keyDurable_adds u e.value
    have sec : u.sec = s.sec := (congrArg State.sec frame :)
    have rec_ : recOfBody u e.value = recOfBody s e.value := by
      unfold recOfBody
      rw [sec]
    have nor : (keyDurable u e.value).nor = u.nor := (congrArg State.nor frameK :)
    rw [entryDurable_key kind, compact_small (by rw [nor]; omega)] at run
    rw [sec] at turns stays
    refine ⟨_, run, ?_, rec_ ▸ adds, turns, stays⟩
    exact (frameK.trans (congrArg (fun v : State => { v with sec := (keyDurable u e.value).sec }) frame)).trans (by rw [nor])
  case anchor =>
    intro s e l front kind small
    obtain ⟨frame, writing, -, used, -, -⟩ := readBack_keeps s e l
    obtain ⟨u, hu⟩ : ∃ u, u = readBack s e l := ⟨_, rfl⟩
    have run := norProgramDone_reads front
    rw [← hu] at run frame used writing
    obtain ⟨writingA, usedA, ⟨a, anchor, gen, gens⟩, map, ctxs, rings, media, flash, sec⟩ := anchorDurable_keeps u e.value
    rw [entryDurable_anchor kind, compact_small (by rw [usedA]; omega)] at run
    have xlat : u.xlat = s.xlat := (congrArg State.xlat frame :)
    exact ⟨_, run, writingA.trans writing, ⟨a, anchor, gen, gens.trans (by rw [xlat])⟩, map.trans (by rw [xlat]), ctxs.trans (congrArg State.ctxs frame :),
      rings.trans (congrArg State.rings frame :), media.trans (congrArg State.media frame :), flash.trans (congrArg State.flash frame :),
      sec.trans (congrArg State.sec frame :)⟩
  case idle =>
    intro s b none_ free
    show execNorProgramDone b s = _
    unfold execNorProgramDone
    rw [none_, free]
  case notErasing =>
    intro s b none_
    show execNorEraseDone b s = _
    unfold execNorEraseDone
    rw [none_]
  case again =>
    rintro s ⟨b, k⟩ running
    show execNorEraseDone false s = _
    unfold execNorEraseDone
    rw [running]
    rfl
  case image =>
    intro s b k running image
    obtain ⟨u, hu⟩ : ∃ u, u = sectorGone s b k := ⟨_, rfl⟩
    have keeps : u = { s with nor := u.nor } ∧ u.nor.stage = s.nor.stage ∧ stageBank u = stageBank s ∧ u.nor.eraseNext = s.nor.eraseNext ∧
        (imageOf u b).bytes = (imageOf s b).bytes.filter fun c => !(decide (65536 * k ≤ c.1) && decide (c.1 < 65536 * (k + 1))) := by
      rw [hu]
      exact ⟨rfl, rfl, rfl, rfl, congrArg Image.bytes (vget_vset_const s.nor.images b (fun i =>
        { i with bytes := i.bytes.filter fun c => !(decide (65536 * k ≤ c.1) && decide (c.1 < 65536 * (k + 1))) }) Image.init rfl)⟩
    obtain ⟨frame, stage, bank, next, bytes⟩ := keeps
    have run := imageErase_ends running image
    rw [← hu] at run
    refine ⟨_, run, ?_, fun other => ?_, fun erasing own turn early => ?_, fun erasing own turn last _ => ?_⟩
    · exact (imageErased_frame u b k).trans (congrArg (fun v : State => { v with nor := (imageErased u b k).nor }) frame)
    · obtain ⟨stageE, images⟩ := imageErased_other (b := b) (k := k) (show u.nor.stage ≠ .erasing by rwa [stage])
      exact ⟨stageE.trans stage, (congrArg (fun v => (vget v b Image.init).bytes) images).trans bytes⟩
    · exact imageErased_next (stage.trans erasing) (own.trans bank.symm) (turn.trans next.symm) early
    · exact imageErased_last (stage.trans erasing) (own.trans bank.symm) (turn.trans next.symm) last
  case preloads => exact fun s verified => congrArg Host.Outcome.next (if_pos verified)
  case notVerified => exact fun s other => congrArg Host.Outcome.next (if_neg other)
  case writing =>
    intro s c at_ written
    show execFwSwitchBeat s = _
    unfold execFwSwitchBeat
    rw [at_]
    exact congrArg Host.Outcome.next (if_pos written)
  case restarts =>
    intro s c n at_ turn early
    show execServitorRestart n s = _
    unfold execServitorRestart
    rw [at_]
    exact congrArg Host.Outcome.next ((if_neg (by omega)).trans (if_pos early))
  case notNow =>
    intro s n other
    show execServitorRestart n s = _
    unfold execServitorRestart
    split
    next c at_ => exact congrArg Host.Outcome.next (if_pos (other.resolve_left (by simp [at_])).symm)
    next => rfl
  case notSwitching =>
    intro s other
    show execFwSwitchBeat s = _
    unfold execFwSwitchBeat
    split
    next c at_ => exact absurd (by rw [at_]; rfl) other
    next => rfl
  case ends =>
    intro s c x at_ seven found waits typ op going
    have run := servitorRestart_last at_ seven
    obtain ⟨v, hv⟩ : ∃ v, v = s.updNor fun m => { m with activating := none, restarted := 0 } := ⟨_, rfl⟩
    rw [← hv] at run
    have frame := event_frame v 6 0xFF
    obtain ⟨w, hw⟩ : ∃ w, w = event v 6 0xFF := ⟨_, rfl⟩
    rw [← hw] at run frame
    have nor : w.nor = { s.nor with activating := none, restarted := 0 } := (congrArg State.nor frame :).trans (by rw [hv]; rfl)
    have found' : getCtx w c = some x := (getCtx_of_ctxs ((congrArg State.ctxs frame :).trans (by rw [hv]; rfl))).trans found
    have post : finishAdm w c 0x8D St.ok 0 0 = residentPost w c St.ok 0 0 := by
      unfold finishAdm
      rw [found']
      exact if_pos (by simp [waits, typ, op, going])
    rw [post] at run
    exact ⟨_, run, nor, getCtx_residentPost found' _ _ _⟩
  case counts => exact fun s n small lit => congrArg Host.Outcome.next (if_neg (by simp [lit]; omega))
  case halted => exact fun s n held => congrArg Host.Outcome.next (if_pos held)

end Sys2Proof.Proofs

end


section
/-! PROOF. O40: a tamper's darkness and the restart, and the security settings that have a step of their own. -/

namespace Sys2Proof.Proofs

open Sys2Proof Sys2Proof.Machine Sys2Proof.Safety Sys2Proof.Laws

/-! ### Tamper -/

/-- A tamper counted and recorded (R522). -/
def tampered (s : State) (cause : Nat) : State :=
  s.updSec fun k =>
    { k with tamperEvents := satAdd32 k.tamperEvents 1, tamperLast := BitVec.ofNat 56 (cause + s.beat * 2 ^ 8)
             tamperCauses := if k.tamperCauses.contains cause then k.tamperCauses else k.tamperCauses ++ [cause] }

theorem tampered_records (s : State) (k : Nat) : tampered s k = { s with sec := (tampered s k).sec } ∧
    (tampered s k).sec.tamperEvents = satAdd32 s.sec.tamperEvents 1 ∧ k ∈ (tampered s k).sec.tamperCauses ∧
    (tampered s k).sec.tamperLast = BitVec.ofNat 56 (k + s.beat * 2 ^ 8) ∧ (tampered s k).sec.tamperAt = s.sec.tamperAt ∧ (tampered s k).sec.tampers = s.sec.tampers := by
  refine ⟨rfl, rfl, ?_, rfl, rfl, rfl⟩
  show k ∈ if s.sec.tamperCauses.contains k then _ else _
  split
  next has => exact List.contains_iff_mem.mp has
  next => simp

/-- The module dark after a first tamper (R523). -/
def darkened (s : State) (u : State) : State :=
  (((wipe u).updPower fun p => { p with llAt := none, lost := p.lost || p.llAt.isSome }).updTherm fun t => { t with hotAt := none }).updSec fun k =>
    { k with tamperAt := some s.beat }

theorem darkened_dark (s u : State) : (darkened s u).sec.tamperAt = some s.beat ∧ (darkened s u).sec.nskeys = [] ∧ (darkened s u).sec.vaultZero = true ∧
    (darkened s u).fns = [] ∧ (darkened s u).rings = [] ∧ (darkened s u).ctxs = [] ∧ (darkened s u).day.hostOn = false ∧ (darkened s u).day.coreOn = false ∧
    (darkened s u).day.sramOn = false ∧ (darkened s u).day.dramOn = false ∧ (darkened s u).twin.hbStopped = true ∧
    (darkened s u).sec.tamperCauses = u.sec.tamperCauses ∧ (darkened s u).sec.tamperEvents = u.sec.tamperEvents ∧ (darkened s u).sec.tamperLast = u.sec.tamperLast ∧
    (darkened s u).beat = u.beat ∧ (darkened s u).sec.tampers = u.sec.tampers ∧ (darkened s u).nv = (wipe u).nv :=
  ⟨rfl, rfl, rfl, rfl, rfl, rfl, rfl, rfl, rfl, rfl, rfl, rfl, rfl, rfl, rfl, rfl, rfl⟩

theorem tamperErase_keeps (s : State) : tamperErase s = { s with sec := { s.sec with tampers := (tamperErase s).sec.tampers, life := (tamperErase s).sec.life } } ∧
    (nvVal s 0x12000004 = 1 → s.sec.tampers < 32 → (tamperErase s).sec.tampers = s.sec.tampers + 1) := by
  unfold tamperErase
  split
  next off => exact ⟨rfl, fun on => absurd on off⟩
  next =>
    dsimp only [State.updSec]
    split
    next => exact ⟨rfl, fun _ _ => rfl⟩
    next full => exact ⟨rfl, fun _ room => absurd room full⟩

theorem tamperDetect_darkens {s : State} {k : Nat} (power : s.power.aonPowered = true) (watched : tamperWatched s k = true) (first : s.sec.tamperAt = none)
    (light : s.day.day ≠ .midnight) :
    Does (.tamperDetect k) s fun t => t.sec.tamperAt = some s.beat ∧ t.sec.nskeys = [] ∧ t.sec.vaultZero = true ∧ t.fns = [] ∧ t.rings = [] ∧ t.ctxs = [] ∧
      t.day.hostOn = false ∧ t.day.coreOn = false ∧ t.day.sramOn = false ∧ t.day.dramOn = false ∧ t.twin.hbStopped = true ∧ k ∈ t.sec.tamperCauses ∧
      t.sec.tamperEvents = satAdd32 s.sec.tamperEvents 1 ∧ t.sec.tamperLast = BitVec.ofNat 56 (k + s.beat * 2 ^ 8) ∧ t.beat = s.beat ∧
      (nvVal (wipe s) 0x12000004 = 1 → s.sec.tampers < 32 → t.sec.tampers = s.sec.tampers + 1) := by
  have records := tampered_records s k
  obtain ⟨u, hu⟩ : ∃ u, u = tampered s k := ⟨_, rfl⟩
  have run : exec (.tamperDetect k) s = .next (tamperErase (darkened s u)) := by
    rw [hu]
    exact congrArg Host.Outcome.next ((if_neg (by simp [power, watched])).trans ((if_neg (by simp [first])).trans (if_neg light)))
  rw [← hu] at records
  obtain ⟨frame, events, causes, last, -, tampers⟩ := records
  obtain ⟨at_, keys, vault, fns, rings, ctxs, host, core, sram, dram, hb, causesD, eventsD, lastD, beat, tampersD, nv⟩ := darkened_dark s u
  have setting : nvVal (darkened s u) 0x12000004 = nvVal (wipe s) 0x12000004 := by
    have same : (wipe u).nv = (wipe s).nv := by
      rw [frame]
      rfl
    unfold nvVal
    rw [nv, same]
  have beatU : u.beat = s.beat := (congrArg State.beat frame :)
  obtain ⟨v, hv⟩ : ∃ v, v = darkened s u := ⟨_, rfl⟩
  rw [← hv] at run at_ keys vault fns rings ctxs host core sram dram hb causesD eventsD lastD beat tampersD setting
  clear hv nv
  obtain ⟨frameE, burns⟩ := tamperErase_keeps v
  obtain ⟨w, hw⟩ : ∃ w, w = tamperErase v := ⟨_, rfl⟩
  rw [← hw] at run frameE burns
  clear hw
  exact ⟨w, run, (congrArg (fun x : State => x.sec.tamperAt) frameE :).trans at_, (congrArg (fun x : State => x.sec.nskeys) frameE :).trans keys,
    (congrArg (fun x : State => x.sec.vaultZero) frameE :).trans vault, (congrArg State.fns frameE :).trans fns, (congrArg State.rings frameE :).trans rings,
    (congrArg State.ctxs frameE :).trans ctxs, (congrArg (fun x : State => x.day.hostOn) frameE :).trans host, (congrArg (fun x : State => x.day.coreOn) frameE :).trans core,
    (congrArg (fun x : State => x.day.sramOn) frameE :).trans sram, (congrArg (fun x : State => x.day.dramOn) frameE :).trans dram,
    (congrArg (fun x : State => x.twin.hbStopped) frameE :).trans hb, by rw [(congrArg (fun x : State => x.sec.tamperCauses) frameE :), causesD]; exact causes,
    (congrArg (fun x : State => x.sec.tamperEvents) frameE :).trans (eventsD.trans events), (congrArg (fun x : State => x.sec.tamperLast) frameE :).trans (lastD.trans last),
    (congrArg State.beat frameE :).trans (beat.trans beatU), fun on room => (burns (setting.trans on) (by rw [tampersD, tampers]; exact room)).trans (by rw [tampersD, tampers])⟩

theorem tamperDetect_records {s : State} {k : Nat} (power : s.power.aonPowered = true) (watched : tamperWatched s k = true)
    (later : s.sec.tamperAt.isSome = true ∨ s.day.day = .midnight) :
    Does (.tamperDetect k) s fun t => t = { s with sec := t.sec } ∧ t.sec.tamperEvents = satAdd32 s.sec.tamperEvents 1 ∧ k ∈ t.sec.tamperCauses ∧
      t.sec.tamperLast = BitVec.ofNat 56 (k + s.beat * 2 ^ 8) ∧ t.sec.tamperAt = s.sec.tamperAt ∧ (s.sec.tamperAt = none → t.sec.nskeys = [] ∧ t.sec.vaultZero = true) := by
  have records := tampered_records s k
  obtain ⟨u, hu⟩ : ∃ u, u = tampered s k := ⟨_, rfl⟩
  have run : exec (.tamperDetect k) s = .next (if s.sec.tamperAt.isSome then u else if s.day.day = .midnight then zeroVault u else tamperErase (darkened s u)) := by
    rw [hu]
    exact congrArg Host.Outcome.next (if_neg (by simp [power, watched]))
  rw [← hu] at records
  clear hu
  obtain ⟨frame, events, causes, last, at_, -⟩ := records
  cases already : s.sec.tamperAt with
  | some b =>
    rw [already] at run
    exact ⟨u, run, frame, events, causes, last, at_.trans already, fun h => nomatch h⟩
  | none =>
    rw [already] at run
    have midnight : s.day.day = .midnight := later.resolve_left (by simp [already])
    rw [if_neg (by simp), if_pos midnight] at run
    have zero : zeroVault u = { u with sec := (zeroVault u).sec } ∧ (zeroVault u).sec.tamperEvents = u.sec.tamperEvents ∧ (zeroVault u).sec.tamperCauses = u.sec.tamperCauses ∧
        (zeroVault u).sec.tamperLast = u.sec.tamperLast ∧ (zeroVault u).sec.tamperAt = u.sec.tamperAt ∧ (zeroVault u).sec.nskeys = [] ∧ (zeroVault u).sec.vaultZero = true :=
      ⟨rfl, rfl, rfl, rfl, rfl, rfl, rfl⟩
    obtain ⟨frameZ, eventsZ, causesZ, lastZ, atZ, keys, vault⟩ := zero
    exact ⟨_, run, frameZ.trans (congrArg (fun x : State => { x with sec := (zeroVault u).sec }) frame), eventsZ.trans events, by rw [causesZ]; exact causes, lastZ.trans last,
      atZ.trans (at_.trans already), fun _ => ⟨keys, vault⟩⟩

/-! ### The settings -/

theorem rotateKey_generates {s : State} {k : List Byte} (asked : s.sec.rotate ≠ 0) (idle : s.sec.rotKey = none) (ok : keyOk k = true) :
    rotateKey s k = (newKey s 0 1 k).2.updSec fun y => { y with rotate := y.rotate - 1, rotKey := some (newEpoch s) } :=
  if_neg (by simp [asked, idle, ok])

/-- Settles O40: a setting's own step by the SET that waits for it, a tamper by whether it is the first. -/
theorem tamperAndSecuritySettings : Obligations.TamperAndSecuritySettings := by
  unfold Obligations.TamperAndSecuritySettings
  refine ⟨?unwatched, fun s k power watched first light => tamperDetect_darkens power watched first light, fun s k power watched later => tamperDetect_records power watched later,
    ?noTamper, ?early, ?restarts, ?cert, ?certActs, fun _ _ => rfl, fun _ _ => rfl, fun _ _ => rfl, fun _ _ => rfl, ?lock, ?revokes, ?denied, ?ca, ?rotateNone, ?rotateFull,
    ?rotates, ?generates, ?waits⟩
  case unwatched => exact fun s k off => congrArg Host.Outcome.next (if_pos (by simp [off]))
  case noTamper =>
    intro s none_
    show execTamperRestart s = _
    unfold execTamperRestart
    rw [none_]
  case early =>
    intro s b at_ early
    show execTamperRestart s = _
    unfold execTamperRestart
    rw [at_]
    exact congrArg Host.Outcome.next (if_pos early)
  case restarts =>
    intro s b at_ late power
    obtain ⟨u, hu⟩ : ∃ u, u = s.updSec fun k => { k with tamperAt := none, tamperCauses := [] } := ⟨_, rfl⟩
    have run : exec .tamperRestart s = .next (startDawn u) := by
      rw [hu]
      show execTamperRestart s = _
      unfold execTamperRestart
      rw [at_]
      exact congrArg Host.Outcome.next (if_neg (by simp [power]; omega))
    have keeps : u.sec.tamperAt = none ∧ u.sec.tamperCauses = [] ∧ u.beat = s.beat := by
      rw [hu]
      exact ⟨rfl, rfl, rfl⟩
    have dawn : (startDawn u).day.day = .dawn ∧ (startDawn u).day.step = 1 ∧ (startDawn u).sec.tamperAt = u.sec.tamperAt ∧
        (startDawn u).sec.tamperCauses = u.sec.tamperCauses ∧ (startDawn u).beat = u.beat := ⟨rfl, rfl, rfl, rfl, rfl⟩
    obtain ⟨day, step, atD, causes, beat⟩ := dawn
    exact ⟨_, run, day, step, atD.trans keeps.1, causes.trans keeps.2.1, beat.trans keeps.2.2⟩
  case cert =>
    intro s c x i v b waits hb
    have row : execSecCertCommit c s = .next (match waitsSet s c 0x12000010 1 with
      | none => s
      | some (_, _, v) => if v = 6292 ∧ s.sec.life = .sealed ∧ certOk s (certBytes s 6292) ∧ certMine s (certBytes s 6292) then
          setDone ((storeDue s 0x12000010 v).updSec fun k => { k with certNew := some (certBytes s 6292) }) c St.ok 0 else setDone s c St.signature 0) := rfl
    refine row.trans ?_
    rw [waits, ← hb]
  case certActs =>
    intro s b v new
    unfold secActs
    rw [if_neg (by decide), if_neg (by decide), if_neg (by decide), if_neg (by decide), new]
  case lock =>
    intro s c x i v waits
    show execSecLock c s = _
    unfold execSecLock
    rw [waits]
  case revokes =>
    intro s c x i v waits other valid
    show execSecFwKeyRevoke c s = _
    unfold execSecFwKeyRevoke
    rw [waits]
    exact congrArg Host.Outcome.next (if_neg (by simp [other, valid]))
  case denied =>
    intro s c x i v waits denied
    show execSecFwKeyRevoke c s = _
    unfold execSecFwKeyRevoke
    rw [waits]
    exact congrArg Host.Outcome.next (if_pos (by simpa using denied))
  case ca =>
    intro s c x i v waits
    show execSecCaRevoke c s = _
    unfold execSecCaRevoke
    rw [waits]
    dsimp only
    cases otherSlot s.sec.caKeys (dueNow s 0x1200000E).toNat v.toNat <;> rfl
  case rotateNone =>
    intro s c x i k waits
    show execSecSyskeyRotate c k s = _
    unfold execSecSyskeyRotate
    rw [waits]
    rfl
  case rotateFull =>
    intro s c x i v k waits some_ full
    show execSecSyskeyRotate c k s = _
    unfold execSecSyskeyRotate
    rw [waits]
    exact congrArg Host.Outcome.next ((if_neg some_).trans (if_pos full))
  case rotates =>
    intro s c x i v k waits some_ room
    show execSecSyskeyRotate c k s = _
    unfold execSecSyskeyRotate
    rw [waits]
    exact congrArg Host.Outcome.next ((if_neg some_).trans (if_neg (by omega)))
  case generates =>
    intro s c k none_ asked idle ok
    have run : exec (.secSyskeyRotate c k) s = .next (rotateKey s k) := by
      show execSecSyskeyRotate c k s = _
      unfold execSecSyskeyRotate
      rw [none_]
    rw [rotateKey_generates asked idle ok] at run
    exact ⟨_, run, rfl, rfl, rfl, rfl, rfl, norWriting_append (s.updSec fun k => { k with epochNext := newEpoch s + 2 }) ..⟩
  case waits =>
    intro s c k none_ held
    show execSecSyskeyRotate c k s = _
    unfold execSecSyskeyRotate
    rw [none_]
    refine congrArg Host.Outcome.next (if_pos ?_)
    rcases held with h | h | h
    · exact .inl h
    · exact .inr (.inl h)
    · exact .inr (.inr (by simp [h]))

end Sys2Proof.Proofs

end


section
/-! PROOF. O41 and O42: packets and messages of the management link. -/

namespace Sys2Proof.Proofs

open Sys2Proof Sys2Proof.Machine Sys2Proof.Safety Sys2Proof.Laws

theorem leBytes_length (n v : Nat) : (leBytes n v).length = n := by
  induction n generalizing v with
  | zero => rfl
  | succ n ih => simp [leBytes, ih]

/-! ### Packets -/

/-- A packet for this endpoint, well framed. -/
theorem mctpPacket_own {s t : State} {p : List Byte} (power : s.power.aonPowered = true) (ok : packetOk s p = true) (own : field p 5 1 = s.side.eid)
    (run : (if !bit (field p 7 1) 7 && !(s.side.asmOn && packetKey p == s.side.asmKey && packetSeq p == s.side.asmSeq) then strayPacket s p
      else
        let m := if bit (field p 7 1) 7 then (p.drop 8).dropLast else s.side.asm ++ (p.drop 8).dropLast
        if bit (field p 7 1) 6 then messageIn (s.updSide fun x => { x with asm := [], asmOn := false }) m
        else s.updSide fun x => { x with asm := m, asmOn := true, asmKey := packetKey p, asmSeq := (packetSeq p + 1) % 4 }) = t) :
    exec (.mctpPacket p) s = .next t :=
  congrArg Host.Outcome.next ((if_neg (by simp [power])).trans ((if_neg (by simp [ok])).trans ((if_neg fun h => h.2 own).trans run)))

/-- A packet that continues no message is counted; out of sequence it ends the message of its source and tag. -/
theorem mctpPacket_stray {s : State} {p : List Byte} (power : s.power.aonPowered = true) (ok : packetOk s p = true) (own : field p 5 1 = s.side.eid)
    (later : bit (field p 7 1) 7 = false) (stray : (s.side.asmOn && packetKey p == s.side.asmKey && packetSeq p == s.side.asmSeq) = false) :
    exec (.mctpPacket p) s = .next (strayPacket s p) :=
  mctpPacket_own power ok own (if_pos (by rw [later, stray]; rfl))

theorem strayPacket_counts {s : State} {p : List Byte} (other : (s.side.asmOn && packetKey p == s.side.asmKey) = false) :
    strayPacket s p = { s with side := { s.side with errors := satAdd s.side.errors 1 } } := by
  simp only [strayPacket, other, Bool.not_false, Bool.and_true, Bool.false_eq_true, if_false, State.updSide]

theorem strayPacket_ends {s : State} {p : List Byte} (same : (s.side.asmOn && packetKey p == s.side.asmKey) = true) :
    strayPacket s p = { s with side := { s.side with errors := satAdd s.side.errors 1, asm := [], asmOn := false } } := by
  simp only [strayPacket, same, Bool.not_true, Bool.and_false, if_true, State.updSide]

/-- Settles O41: a packet by its framing, its endpoint and whether it continues the message assembled. -/
theorem managementPackets : Obligations.ManagementPackets := by
  unfold Obligations.ManagementPackets
  have answers : ∀ {s t u : State}, s.power.aonPowered = true → t = u → (if !s.power.aonPowered then s else t) = u := fun power e => (if_neg (by simp [power])).trans e
  refine ⟨?framing, ?other, ?first, ?noMessage, ?otherMessage, ?sequence, ?middle, ?last, ?setEid, ?badEid, ?getEid, ?version, ?noVersion, ?types, ?vendor, ?noVendor, ?quiet, ?alert, ?dark⟩
  case framing => exact fun s p power bad => congrArg Host.Outcome.next (answers power (if_pos (by simp [bad])))
  case other => exact fun s p power ok some_ other => congrArg Host.Outcome.next (answers power ((if_neg (by simp [ok])).trans (if_pos ⟨some_, other⟩)))
  case first =>
    intro s p power ok own som eom
    exact mctpPacket_own power ok own (by simp only [som, eom, Bool.not_true, Bool.false_and, Bool.false_eq_true, if_false, if_true]; rfl)
  case noMessage =>
    intro s p power ok own later none_
    rw [mctpPacket_stray power ok own later (by rw [none_]; rfl), strayPacket_counts (by rw [none_]; rfl)]
  case otherMessage =>
    intro s p power ok own later on other
    rw [mctpPacket_stray power ok own later (by rw [beq_false_of_ne other, Bool.and_false, Bool.false_and]), strayPacket_counts (by rw [beq_false_of_ne other, Bool.and_false])]
  case sequence =>
    intro s p power ok own later on same other
    rw [mctpPacket_stray power ok own later (by rw [beq_false_of_ne other, Bool.and_false]), strayPacket_ends (by simp [on, same])]
  case middle =>
    intro s p power ok own later eom on same seq
    refine mctpPacket_own power ok own ((if_neg (by simp [on, same, seq])).trans ?_)
    simp only [later, eom, Bool.false_eq_true, if_false]
    rw [same, seq]
    rfl
  case last =>
    intro s p power ok own later eom on same seq
    refine mctpPacket_own power ok own ((if_neg (by simp [on, same, seq])).trans ?_)
    simp only [later, eom, Bool.false_eq_true, if_false, if_true] <;> rfl
  case setEid => exact fun s op e power low some_ small => congrArg Host.Outcome.next (answers power (if_neg (by omega)))
  case badEid => exact fun s op e power bad => congrArg Host.Outcome.next (answers power (if_pos bad))
  case getEid => exact fun s power => congrArg Host.Outcome.next (if_pos power)
  case version =>
    intro s k power known
    exact ⟨_, congrArg Host.Outcome.next (answers power (if_pos known)), rfl, leBytes 4 (drawFree s).1.toNat, leBytes_length .., rfl⟩
  case noVersion => exact fun s k power a b c => congrArg Host.Outcome.next (answers power (if_neg (by omega)))
  case types => exact fun s power => congrArg Host.Outcome.next (if_pos power)
  case vendor =>
    intro s power
    exact ⟨_, congrArg Host.Outcome.next (answers power (if_neg (by omega))), rfl, leBytes 2 (drawFree s).1.toNat, leBytes_length .., rfl⟩
  case noVendor => exact fun s k power other => congrArg Host.Outcome.next (answers power (if_pos other))
  case quiet => exact fun s power quiet => congrArg Host.Outcome.next (if_neg (by simp [quiet]))
  case alert => exact fun s power raised => congrArg Host.Outcome.next (if_pos (by simp [power, raised]))
  case dark =>
    intro s i dark which
    have off : (!s.power.aonPowered) = true := by simp [dark]
    rcases which with ⟨p, rfl⟩ | ⟨a, b, rfl⟩ | rfl | ⟨k, rfl⟩ | rfl | ⟨k, rfl⟩ | rfl
    · exact congrArg Host.Outcome.next (if_pos off)
    · exact congrArg Host.Outcome.next (if_pos off)
    · exact congrArg Host.Outcome.next (if_neg (by simp [dark]))
    · exact congrArg Host.Outcome.next (if_pos off)
    · exact congrArg Host.Outcome.next (if_neg (by simp [dark]))
    · exact congrArg Host.Outcome.next (if_pos off)
    · exact congrArg Host.Outcome.next (if_neg (by simp [dark]))

/-! ### The mailbox -/

/-- HEALTH's bytes may take a free value. -/
theorem healthRecord_draws (s : State) : ∃ k, (healthRecord s).2 = { s with freeCtr := k } := by
  unfold healthRecord
  cases hottest s (List.range 28)
  · exact ⟨_, rfl⟩
  · exact ⟨s.freeCtr, rfl⟩

theorem mv16_draws (s : State) (v : Int) : ∃ k, (mv16 s v).2 = { s with freeCtr := k } := by
  unfold mv16
  split
  · exact ⟨s.freeCtr, rfl⟩
  · split
    · exact ⟨s.freeCtr, rfl⟩
    · exact ⟨_, rfl⟩

/-- A choice whose condition and branches agree. -/
theorem ite_of_iff {α : Type} {a b : Prop} [Decidable a] [Decidable b] {x y u v : α} (same : a ↔ b) (first : x = u) (second : y = v) :
    (if a then x else y) = if b then u else v := by
  subst first second
  simp only [same]

theorem reply_eq (s : State) (cmd : Nat) (st : BitVec 16) (q : Nat) (b : List Byte) :
    reply s cmd st q b = { s with side := { s.side with messages := satAdd s.side.messages 1 }, out := s.out ++ [.sideband cmd st.toNat q b] } := rfl

/-- An answer after free values drawn. -/
theorem reply_drawn {s u : State} {k : Nat} (drawn : ∃ f, u = { s with freeCtr := f }) (q : Nat) (b : List Byte) :
    reply u k St.ok q b = { s with side := { s.side with messages := satAdd s.side.messages 1 }, out := (reply u k St.ok q b).out, freeCtr := (reply u k St.ok q b).freeCtr } ∧
      (reply u k St.ok q b).out = s.out ++ [.sideband k 0 q b] := by
  obtain ⟨f, rfl⟩ := drawn
  exact ⟨rfl, rfl⟩

theorem sidebandReset_keyed {s : State} {b : List Byte} (q : Nat) (power : s.power.aonPowered = true) (four : b.length = 4) (key : field b 0 4 = 0x7E5E7E5E) :
    exec (.sidebandReset q b) s =
      .next (if nvVal s 0x0A00000A = 0 then reply s 0x08 St.denied q [] else if s.plan.resetFlush then reply s 0x08 St.sidebandBusy q []
        else if hotStopped s = true ∨ s.day.day = .midnight then wake (reply s 0x08 St.ok q []) 7
        else if s.day.day = .night then moduleReset (noteWake (reply s 0x08 St.ok q []) 7) else moduleReset (reply s 0x08 St.ok q [])) := by
  refine congrArg Host.Outcome.next ((if_neg (by simp [power])).trans ((if_neg (by simp [four, key])).trans ?_))
  simp only [Bool.or_eq_true, beq_iff_eq]

/-- Settles O42: each request's answer by the state of the module and the request's form. -/
theorem mailboxRequests : Obligations.MailboxRequests := by
  unfold Obligations.MailboxRequests
  have lit : ∀ {s t u : State}, s.power.aonPowered = true → t = u → (if !s.power.aonPowered then s else t) = u := fun power e => (if_neg (by simp [power])).trans e
  have admin : ∀ s q b, s.power.aonPowered = true → exec (.sidebandAdmin q b) s =
      .next (if adminForm b = false then reply s 0x06 St.badEntry q [] else if logicDark s || s.plan.resetFlush then reply s 0x06 St.domainOff q []
        else if nvVal s 0x0A000009 = 0 then reply s 0x06 St.denied q [] else if s.side.adminBusy then reply s 0x06 St.sidebandBusy q []
        else { s with side := { s.side with adminBusy := true, adminSeq := q, adminEntry := some (Machine.entryOf b), adminData := b.drop 64 } }) := by
    intro s q b power
    refine congrArg Host.Outcome.next (lit power ?_)
    simp only [Bool.not_eq_true'] <;> rfl
  have page : ∀ s q b, s.power.aonPowered = true → exec (.log q b) s =
      .next (if b.length ≠ 8 ∨ field b 1 3 ≠ 0 then reply s 0x07 St.badEntry q []
        else if logicDark s = true ∧ ¬ (s.day.fatal = true ∧ field b 0 1 = 1) then reply s 0x07 St.domainOff q []
        else match logPage s (field b 0 1) with
          | none => reply s 0x07 St.range q []
          | some l => if l.length ≤ field b 4 4 ∨ field b 4 4 % 4 ≠ 0 then reply s 0x07 St.range q [] else reply s 0x07 St.ok q ((l.drop (field b 4 4)).take 1000)) := by
    intro s q b power
    refine congrArg Host.Outcome.next (lit power ?_)
    refine ite_of_iff Iff.rfl rfl (ite_of_iff ?_ rfl ?_)
    · cases logicDark s <;> cases s.day.fatal <;> simp
    · cases logPage s (field b 0 1) <;> rfl
  refine ⟨?health, ?temps, ?deep, ?events, ?waits, admin, page, ?whole, ?noPage, ?reset, ?midnight, ?badKey, fun s q b power four key => sidebandReset_keyed q power four key,
    ?dark, fun s q power => congrArg Host.Outcome.next (if_pos power), reply_eq⟩
  case health =>
    rintro s q i power (rfl | rfl)
    · obtain ⟨frame, out⟩ := reply_drawn (k := 1) (healthRecord_draws s) q (healthRecord s).1
      exact ⟨_, congrArg Host.Outcome.next (lit power rfl), frame, 1, _, .inl rfl, out⟩
    · obtain ⟨fa, ha⟩ := mv16_draws s (vget s.power.feeds 0 Feed.init).mv
      obtain ⟨fb, hb⟩ := mv16_draws (mv16 s (vget s.power.feeds 0 Feed.init).mv).2 (vget s.power.feeds 1 Feed.init).mv
      obtain ⟨fh, hh⟩ := mv16_draws (mv16 (mv16 s (vget s.power.feeds 0 Feed.init).mv).2 (vget s.power.feeds 1 Feed.init).mv).2 (bankMv s)
      obtain ⟨bytes, run⟩ : ∃ bytes, execPower q s = .next (if !s.power.aonPowered then s else
          reply (mv16 (mv16 (mv16 s (vget s.power.feeds 0 Feed.init).mv).2 (vget s.power.feeds 1 Feed.init).mv).2 (bankMv s)).2 0x03 St.ok q bytes) := ⟨_, rfl⟩
      obtain ⟨frame, out⟩ := reply_drawn (k := 3) (u := (mv16 (mv16 (mv16 s (vget s.power.feeds 0 Feed.init).mv).2 (vget s.power.feeds 1 Feed.init).mv).2 (bankMv s)).2)
        ⟨fh, by rw [hh, hb, ha]⟩ q bytes
      exact ⟨_, run.trans (congrArg Host.Outcome.next (if_neg (by simp [power]))), frame, 3, _, .inr rfl, out⟩
  case temps =>
    intro s q power light
    refine ⟨_, congrArg Host.Outcome.next (lit power (if_neg (by simp [light]))), rfl, _, ?_, rfl⟩
    exact List.length_flatMap.trans ((congrArg List.sum (List.map_congr_left fun _ _ => leBytes_length ..)).trans rfl)
  case deep => exact fun s q power dark => congrArg Host.Outcome.next (lit power (if_pos dark))
  case events => exact fun s q power => congrArg Host.Outcome.next (lit power rfl)
  case waits =>
    intro s q b power form light flush on idle
    rw [admin s q b power]
    simp [form, light, flush, on, idle]
  case whole =>
    intro s q b l power eight zero light some_ within aligned
    rw [page s q b power, if_neg (by simp [eight, zero]), if_neg (by simp [light]), some_]
    exact congrArg Host.Outcome.next (if_neg (by omega))
  case noPage =>
    intro s q b power eight zero light none_
    rw [page s q b power, if_neg (by simp [eight, zero]), if_neg (by simp [light]), none_]
  case reset =>
    intro s q b power four key on flush cool day
    rw [sidebandReset_keyed q power four key, if_neg on, if_neg (by simp [flush]), if_neg (by rcases day with d | d <;> simp [cool, d])]
    exact congrArg Host.Outcome.next (if_neg (by rcases day with d | d <;> simp [d]))
  case midnight =>
    intro s q b power four key on flush day
    rw [sidebandReset_keyed q power four key, if_neg on, if_neg (by simp [flush]), if_pos (.inr day)]
  case badKey => exact fun s q b power bad => congrArg Host.Outcome.next (lit power (if_pos bad))
  case dark =>
    intro s i dark which
    have off : (!s.power.aonPowered) = true := by simp [dark]
    obtain ⟨q, rfl | rfl | rfl | rfl | rfl | ⟨b, rfl | rfl | rfl⟩⟩ := which
    · exact congrArg Host.Outcome.next (if_pos off)
    · exact congrArg Host.Outcome.next (if_pos off)
    · exact congrArg Host.Outcome.next (if_pos off)
    · exact congrArg Host.Outcome.next (if_pos off)
    · exact congrArg Host.Outcome.next (if_neg (by simp [dark]))
    · exact congrArg Host.Outcome.next (if_pos off)
    · exact congrArg Host.Outcome.next (if_pos off)
    · exact congrArg Host.Outcome.next (if_pos off)

end Sys2Proof.Proofs

end


section
/-! PROOF. Octs: one rule per operation on the octs, the channels and the dies; what an oct out of reach leaves of them. -/

namespace Sys2Proof.Proofs

open Sys2Proof Sys2Proof.Machine Sys2Proof.Safety Sys2Proof.Laws

theorem getOct_modOct {s : State} {k : Nat} (h : k < 16) (f : Oct → Oct) : getOct (modOct s k f) k = f (getOct s k) :=
  vget_vset_same s.flash.octs _ _ h

theorem getOct_modOct_ne {s : State} {j k : Nat} (h : j ≠ k) (f : Oct → Oct) : getOct (modOct s k f) j = getOct s j := vget_vset_ne _ _ _ h

theorem getChan_modChan {s : State} {n : Nat} (h : n < 128) (f : Chan → Chan) : getChan (modChan s n f) n = f (getChan s n) :=
  vget_vset_same s.flash.chans _ _ h

theorem getChan_modChan_ne {s : State} {m n : Nat} (h : m ≠ n) (f : Chan → Chan) : getChan (modChan s n f) m = getChan s m := vget_vset_ne _ _ _ h

theorem getOct_of_octs {s t : State} (same : t.flash.octs = s.flash.octs) (k : Nat) : getOct t k = getOct s k := congrArg (vget · k Oct.init) same

theorem getChan_of_chans {s t : State} (same : t.flash.chans = s.flash.chans) (n : Nat) : getChan t n = getChan s n := congrArg (vget · n Chan.init) same

/-- A command that changes one oct. -/
theorem octTo_of_modOct {i : Instr} {s : State} {k : Nat} {f : Oct → Oct} (h : k < 16) (run : exec i s = .next (modOct s k f)) : OctTo i s k (f (getOct s k)) :=
  ⟨_, run, rfl, getOct_modOct h f, fun _ other => getOct_modOct_ne other f⟩

/-! ### Slots out of reach -/

/-- From one set of carriers to another the octs, the channels, the presence and the dies' numbers stand, and no die of an oct that is not LIVE takes an
operation. -/
structure Shed (f g : Flash) : Prop where
  octs : g.octs = f.octs
  chans : g.chans = f.chans
  present : g.present = f.present
  losses : g.grantLosses = f.grantLosses
  dies : g.dies.map Die.d = f.dies.map Die.d
  quiet : ∀ k, (vget f.octs k Oct.init).st ≠ .live → (∀ d ∈ f.dies, dieOct d.d = k → d.ops = []) → ∀ d ∈ g.dies, dieOct d.d = k → d.ops = []

theorem Shed.refl (f : Flash) : Shed f f := ⟨rfl, rfl, rfl, rfl, rfl, fun _ _ h => h⟩

theorem Shed.of_eq {f g : Flash} (same : g = f) : Shed f g := same ▸ Shed.refl f

theorem Shed.trans {f g h : Flash} (a : Shed f g) (b : Shed g h) : Shed f h :=
  ⟨b.octs.trans a.octs, b.chans.trans a.chans, b.present.trans a.present, b.losses.trans a.losses, b.dies.trans a.dies,
    fun k off none_ => b.quiet k (by rw [a.octs]; exact off) (a.quiet k off none_)⟩

theorem Shed.foldl {α : Type} {f : State → α → State} (step : ∀ s a, Shed s.flash (f s a).flash) (l : List α) (s : State) : Shed s.flash (l.foldl f s).flash := by
  induction l generalizing s with
  | nil => exact .refl _
  | cons a l ih => exact (step s a).trans (ih _)

theorem shed_ite {p : Prop} [Decidable p] {f : Flash} {a b : State} (first : Shed f a.flash) (second : Shed f b.flash) : Shed f (if p then a else b).flash := by
  split <;> assumption

theorem bookXfer_unplanned (s : State) (d n sh t o) : unplanned (bookXfer s d n sh t o) = unplanned s :=
  (book_unplanned ..).trans ((book_unplanned ..).trans ((book_unplanned ..).trans (book_unplanned ..)))

theorem bookRead_unplanned (s : State) (psa r n : Nat) (sh : Share) (t l o : Nat) : unplanned (bookRead s psa r n sh t l o) =
    queueOp (unplanned s) (psaDie psa) (mkOp .read (psaBlock psa) (psaPage psa) t r l o (sh == .care)) :=
  (bookXfer_unplanned ..).trans ((bookEven_unplanned ..).trans ((bookEven_unplanned ..).trans (bookEven_unplanned ..)))

theorem modDie_numbers (s : State) (d : Nat) (f : Die → Die) (keeps : ∀ x, (f x).d = x.d) : (modDie s d f).flash.dies.map Die.d = s.flash.dies.map Die.d := by
  simp only [modDie, State.updFlash, updIf, List.map_map]
  refine List.map_congr_left fun x _ => ?_
  simp only [Function.comp_apply]
  split
  · exact keeps x
  · rfl

/-- An operation at a die of a LIVE oct. -/
theorem queueOp_shed {s : State} {d : Nat} (usable : dieUsable s d = true) (o : ArrayOp) : Shed s.flash (queueOp s d o).flash := by
  refine ⟨rfl, rfl, rfl, rfl, modDie_numbers s d _ fun _ => rfl, fun k off none_ x hx own => ?_⟩
  obtain ⟨y, hy, rfl⟩ := List.mem_map.mp (show x ∈ updIf _ _ s.flash.dies from hx)
  split at own
  next at_ =>
    have live : (getOct s (d / 128)).st = .live := by
      unfold dieUsable at usable
      split at usable
      · simp only [Bool.and_eq_true, beq_iff_eq] at usable
        exact usable.1.2
      · cases usable
    have number : y.d = d := by simpa using at_
    refine absurd (show (vget s.flash.octs k Oct.init).st = .live from ?_) off
    rw [← own]
    show (getOct s (y.d / 128)).st = .live
    rw [number]
    exact live
  next away =>
    rw [if_neg away]
    exact none_ y hy own

theorem planSlot_shed {s : State} {psa n : Nat} {sh : Share} {b l d o e : Nat} {t : State} (h : planSlot s psa n sh b l d o = some (e, t)) : Shed s.flash t.flash := by
  unfold planSlot at h
  split at h
  · cases h
  next u start =>
    cases h
    have usable : dieUsable s (psaDie psa) = true := by
      unfold readStart at start
      dsimp only at start
      split at start
      · cases start
      next ok =>
        exact Classical.byContradiction fun off => ok (.inl (by simpa using off))
    have flash := congrArg State.flash (bookRead_unplanned s psa (occRead s (dieOct (psaDie psa)) (blockCell s (psaDie psa) (psaBlock psa))) n sh u d o)
    have same : (bookRead s psa (occRead s (dieOct (psaDie psa)) (blockCell s (psaDie psa) (psaBlock psa))) n sh u d o).flash = (queueOp s (psaDie psa) _).flash := flash
    rw [same]
    exact queueOp_shed usable _

theorem planAround_shed {s : State} {psa n : Nat} {sh : Share} {b l d o e : Nat} {t : State} (h : planAround s psa n sh b l d o = some (e, t)) : Shed s.flash t.flash := by
  have fold : ∀ (q : List Nat) (m : Option (Nat × State)) (w : Nat × State), (q.foldl (fun m q => match m with
      | none => none
      | some (e, s1) => match planSlot s1 q n sh b l d o with
        | none => none
        | some (e1, s2) => some (max e e1, s2)) m) = some w → ∃ v, m = some v ∧ Shed v.2.flash w.2.flash := fun q => by
    induction q with
    | nil => exact fun m w h => ⟨w, h, .refl _⟩
    | cons a q ih =>
      intro m w run
      obtain ⟨v, hv, shed⟩ := ih _ w run
      rcases m with - | ⟨e, u⟩
      · cases hv
      · dsimp only at hv
        rcases step : planSlot u a n sh b l d o with - | ⟨e1, u1⟩
        · rw [step] at hv
          cases hv
        · rw [step] at hv
          cases hv
          exact ⟨(e, u), rfl, (planSlot_shed step).trans shed⟩
  unfold planAround at h
  split at h
  · cases h
  · obtain ⟨v, hv, shed⟩ := fold _ _ _ h
    cases hv
    exact shed

theorem fallbackSlot_shed (s : State) (c g p : Nat) : Shed s.flash (fallbackSlot s c g p).flash := by
  have deep : ∀ (u : State) (ns : Namespace) (rs), (registerDeep u ns rs).flash = u.flash := fun u ns rs => by
    obtain ⟨d, e⟩ := registerDeep_deep ns rs u
    rw [e]
  unfold fallbackSlot
  extract_lets u
  have slip : Shed s.flash u.flash := .refl _
  clear_value u
  split
  next => exact slip
  next x _ =>
    split
    next => exact slip
    next r _ =>
      split
      next psa _ =>
        extract_lets toDeep
        have deep_ : Shed s.flash toDeep.flash := by
          simp only [toDeep]
          split
          · exact slip.trans (.of_eq (deep _ _ _))
          · exact slip
        clear_value toDeep
        split
        · split
          next e v plan => exact slip.trans (show Shed u.flash v.flash from planAround_shed plan)
          next => exact deep_
        · split
          · exact deep_
          · exact slip
      next => exact slip

theorem fallbackWhere_shed (s : State) (p : Nat → Bool) : Shed s.flash (fallbackWhere s p).flash := Shed.foldl (fun _ _ => fallbackSlot_shed ..) _ s

theorem aroundLost_shed (s : State) : Shed s.flash (aroundLost s).flash := Shed.foldl (fun _ _ => fallbackSlot_shed ..) _ s

theorem dropPrograms_shed (s : State) (b : Band) : Shed s.flash (dropPrograms s b).flash := by
  refine ⟨rfl, rfl, rfl, rfl, ?_, fun k off none_ x hx own => ?_⟩
  · simp only [dropPrograms, State.updFlash, List.map_map]
    exact List.map_congr_left fun _ _ => rfl
  · obtain ⟨y, hy, rfl⟩ := List.mem_map.mp (show x ∈ s.flash.dies.map _ from hx)
    exact (congrArg (List.filterMap _) (none_ y hy own)).trans rfl

theorem markClosed_flash (s : State) (n : Nat) : (markClosed s n).flash = s.flash := by
  unfold markClosed
  split
  · rfl
  · exact ite_agree State.flash rfl rfl

theorem cutBand_shed (s : State) (n : Nat) (dark : Bool) : Shed s.flash (cutBand s n dark).flash := by
  unfold cutBand
  split
  next => exact .refl _
  next b _ =>
    extract_lets inBand bad lost still again s1 free s2 s3
    have shed : Shed s.flash s3.flash := dropPrograms_shed s2 b
    clear_value s3
    exact shed_ite (.refl _) (shed_ite (shed.trans (.of_eq (markClosed_flash ..))) shed)

/-- The slots of some dies out of reach: no die of an oct that is not LIVE and whose dies are among them keeps an operation (R308). -/
theorem reach_sheds (s : State) (p : Nat → Bool) (dark : Bool) : (reach s p dark).flash.octs = s.flash.octs ∧ (reach s p dark).flash.chans = s.flash.chans ∧
    (reach s p dark).flash.present = s.flash.present ∧ (reach s p dark).flash.grantLosses = s.flash.grantLosses ∧
    (reach s p dark).flash.dies.map Die.d = s.flash.dies.map Die.d ∧
    ∀ k, (getOct s k).st ≠ .live → (∀ d, dieOct d = k → p d = true) → ∀ d ∈ (reach s p dark).flash.dies, dieOct d.d = k → d.ops = [] := by
  unfold reach
  extract_lets s1 bs s2
  have bands : Shed s1.flash s2.flash := Shed.foldl (f := fun (t : State) (b : Band) =>
    cutBand (modBand t b.serial fun b => { b with dark := b.dark || dark }) b.serial true)
    (fun t b => show Shed (modBand t b.serial fun b => { b with dark := b.dark || dark }).flash _ from cutBand_shed ..) bs s1
  have shed : Shed s1.flash (aroundLost (fallbackWhere s2 fun psa => p (psaDie psa))).flash := bands.trans ((fallbackWhere_shed ..).trans (aroundLost_shed ..))
  have first : s1.flash.dies.map Die.d = s.flash.dies.map Die.d := by
    simp only [s1, State.updCare, State.updFlash, List.map_map]
    refine List.map_congr_left fun d _ => ?_
    simp only [Function.comp_apply]
    split <;> rfl
  refine ⟨shed.octs, shed.chans, shed.present, shed.losses, shed.dies.trans first, fun k off all => shed.quiet k off fun d hd own => ?_⟩
  obtain ⟨y, hy, rfl⟩ := List.mem_map.mp (show d ∈ s.flash.dies.map _ from hd)
  have at_ : p y.d = true := all y.d (by split at own <;> exact own)
  rw [if_pos at_]

/-- The ways that end with an oct DARK (R308). -/
theorem goDark_darkens {s : State} {k : Nat} (h : k < 16) : Darkened (goDark s k) k ∧
    getOct (goDark s k) k = { getOct s k with st := .dark, phase := 0, vcc := 0, vccq := false, downReq := false, prompt := false, toDrain := false, seen := [],
                                              darkSince := s.beat, req := (getOct s k).req && leaseDue s k } ∧
    (∀ j, j ≠ k → getOct (goDark s k) j = getOct s j) ∧ (goDark s k).flash.present = s.flash.present ∧ (goDark s k).flash.grantLosses = s.flash.grantLosses := by
  obtain ⟨s1, hs1⟩ : ∃ s1, s1 = modOct s k fun o => { o with st := .dark, phase := 0, vcc := 0, vccq := false, downReq := false, prompt := false, toDrain := false, seen := [],
                                                             darkSince := s.beat, req := o.req && leaseDue s k } := ⟨_, rfl⟩
  have own : getOct s1 k = _ := (congrArg (getOct · k) hs1).trans (getOct_modOct h _)
  have others : ∀ j, j ≠ k → getOct s1 j = getOct s j := fun j other => (congrArg (getOct · j) hs1).trans (getOct_modOct_ne other _)
  have plain : s1.flash.present = s.flash.present ∧ s1.flash.grantLosses = s.flash.grantLosses := by
    rw [hs1]
    exact ⟨rfl, rfl⟩
  obtain ⟨s2, hs2⟩ : ∃ s2, s2 = reach s1 (inOct k) true := ⟨_, rfl⟩
  obtain ⟨octs, -, present, losses, -, -⟩ := reach_sheds s1 (inOct k) true
  rw [← hs2] at octs present losses
  obtain ⟨s3, hs3⟩ : ∃ s3, s3 = s2.updFlash fun f =>
    { f with dies := f.dies.map fun d => if inOct k d.d then { d with ready := false, ops := [] } else d
             chans := f.chans.mapFinIdx fun n c _ => if n / 8 == k then { c with svc := 0, dieMask := 0 } else c } := ⟨_, rfl⟩
  have run : goDark s k = event s3 2 k := by
    rw [hs3, hs2, hs1]
    rfl
  have flash : (goDark s k).flash = s3.flash := by
    rw [run, event_frame]
  have octs3 : s3.flash.octs = s1.flash.octs ∧ s3.flash.present = s2.flash.present ∧ s3.flash.grantLosses = s2.flash.grantLosses ∧
      s3.flash.dies = s2.flash.dies.map fun d => if inOct k d.d then { d with ready := false, ops := [] } else d := by
    rw [hs3]
    exact ⟨octs, rfl, rfl, rfl⟩
  obtain ⟨octs3, present3, losses3, dies3⟩ := octs3
  have look : ∀ j, getOct (goDark s k) j = getOct s1 j := getOct_of_octs ((congrArg Flash.octs flash).trans octs3)
  have mine := (look k).trans own
  refine ⟨⟨by rw [mine], by rw [mine], by rw [mine], fun d hd at_ => ?_⟩, mine, fun j other => (look j).trans (others j other),
    (congrArg Flash.present flash).trans (present3.trans (present.trans plain.1)), (congrArg Flash.grantLosses flash).trans (losses3.trans (losses.trans plain.2))⟩
  rw [flash, dies3] at hd
  obtain ⟨y, hy, rfl⟩ := List.mem_map.mp hd
  have in_ : inOct k y.d = true := by
    split at at_
    next yes => exact yes
    next => exact beq_iff_eq.mpr at_
  rw [if_pos in_]
  exact ⟨rfl, rfl⟩

end Sys2Proof.Proofs

end


section
/-! PROOF. O43: the steps of an oct's power-up, its LUNs and the start of its training. -/

namespace Sys2Proof.Proofs

open Sys2Proof Sys2Proof.Machine Sys2Proof.Safety Sys2Proof.Laws

/-! ### Steps -/

/-- A step at its phase and beat runs its change, or stops where the request was withdrawn (R307, R310). -/
theorem powerStep_runs {s : State} {k p a b : Nat} {f : State → State} (st : (getOct s k).st = .powering) (phase : (getOct s k).phase = p)
    (first : (getOct s k).phaseAt + a ≤ s.beat) (last : s.beat ≤ (getOct s k).phaseAt + b) :
    powerStep s k p a b f = if (getOct s k).downReq then stopPowering s k else f s := by
  unfold powerStep
  refine if_neg ?_
  rintro (h | h | h | h)
  · exact h st
  · exact h phase
  · omega
  · omega

theorem powerStep_waits {s : State} {k p a b : Nat} {f : State → State}
    (away : (getOct s k).st ≠ .powering ∨ (getOct s k).phase ≠ p ∨ s.beat < (getOct s k).phaseAt + a ∨ (getOct s k).phaseAt + b < s.beat) : powerStep s k p a b f = s := by
  unfold powerStep
  exact if_pos away

/-- A request withdrawn ends at the step: VCCQ off first where it is on. -/
theorem stopPowering_drains {s : State} {k : Nat} (on : (getOct s k).vccq = true) :
    stopPowering s k = modOct s k fun o => { o with st := .draining, drainAt := s.beat, downReq := false, vccq := false } := if_pos on

/-! ### LUNs -/

/-- A LUN seen before the last one: its die joins, or an earlier one goes. -/
theorem lunSeen_joins {s : State} {die rows : Nat} {found : Bool} (h : dieOct die < 16) (st : (getOct s (dieOct die)).st = .powering)
    (phase : (getOct s (dieOct die)).phase = 4) (fresh : (getOct s (dieOct die)).seen.contains die = false) (early : (getOct s (dieOct die)).seen.length < 127) :
    let t := lunSeen s die rows found
    t = { s with flash := { s.flash with octs := t.flash.octs, dies := t.flash.dies } } ∧
      getOct t (dieOct die) = { getOct s (dieOct die) with seen := (getOct s (dieOct die)).seen ++ [die] } ∧
      getDie t die = (if found then some { d := die, ready := false, dark := false, ops := [], resetAt := none, rowCycles := rows } else none) ∧
      ∀ d, d ≠ die → getDie t d = getDie s d := by
  intro t
  obtain ⟨u, hu⟩ : ∃ u, u = (modOct s (dieOct die) fun o => { o with seen := o.seen ++ [die] }).updFlash fun f =>
      { f with dies := if found then insertBy Die.d { Die.init with d := die, rowCycles := rows } (f.dies.filter fun d => d.d != die) else f.dies.filter fun d => d.d != die } :=
    ⟨_, rfl⟩
  have oct : getOct u (dieOct die) = { getOct s (dieOct die) with seen := (getOct s (dieOct die)).seen ++ [die] } := by
    rw [hu]
    exact (getOct_modOct (s := s) h fun o => { o with seen := o.seen ++ [die] } :)
  have dies : u.flash.dies = if found then insertBy Die.d { Die.init with d := die, rowCycles := rows } (s.flash.dies.filter fun d => d.d != die) else
      s.flash.dies.filter fun d => d.d != die := by
    rw [hu]
    rfl
  have frame : u = { s with flash := { s.flash with octs := u.flash.octs, dies := u.flash.dies } } := by
    rw [hu]
    rfl
  have run : t = u := by
    have same : t = identified u (dieOct die) := by
      rw [hu]
      refine if_neg ?_
      rintro (h | h | h)
      · exact h st
      · exact h phase
      · exact Bool.false_ne_true (fresh.symm.trans h)
    rw [same]
    unfold identified
    exact if_pos (by rw [oct]; simp; omega)
  have none_ : (s.flash.dies.filter fun d => d.d != die).find? (fun x => x.d == die) = none := by simp
  have other : ∀ d, d ≠ die → (s.flash.dies.filter fun x => x.d != die).find? (fun x => x.d == d) = s.flash.dies.find? fun x => x.d == d := fun d away => by
    rw [List.find?_filter]
    refine congrArg (List.find? · _) (funext fun x => ?_)
    by_cases e : x.d = d <;> simp [e, away]
  rw [run]
  refine ⟨frame, oct, ?_, fun d away => ?_⟩
  · unfold getDie
    rw [dies]
    cases found with
    | false => exact none_
    | true => exact (find_insertBy Die.d _ die _ none_).trans (if_pos rfl)
  · unfold getDie
    rw [dies]
    cases found with
    | false => exact other d away
    | true => exact (find_insertBy Die.d _ d _ none_).trans ((if_neg away).trans (other d away))

theorem execLunReady_runs {s : State} {die : Nat} {l : List Nat} (st : (getOct s (dieOct die)).st = .powering) (phase : (getOct s (dieOct die)).phase = 4)
    (fresh : (getOct s (dieOct die)).seen.contains die = false) (first : (getOct s (dieOct die)).phaseAt < s.beat) (last : s.beat ≤ (getOct s (dieOct die)).phaseAt + 250) :
    exec (.lunReady die l) s = .next (lunSeen (identifyCmds s die) die (if nth l 9 0 = 4 then 4 else 3) (lunOk s (dieOct die) l)) := by
  refine congrArg Host.Outcome.next (if_neg ?_)
  rintro (h | h | h | h | h)
  · exact h st
  · exact h phase
  · rw [fresh] at h
    exact Bool.false_ne_true h
  · omega
  · omega

/-! ### The start of training -/

/-- Every channel up to a count of an oct begins its training, or has no die to train. -/
def trainFirst (k : Nat) : Nat → State → State
  | 0, s => s
  | n + 1, s => (fun s => modChan s (8 * k + n) fun ch =>
      { ch with svc := if s.flash.dies.any fun d => dieChan d.d == 8 * k + n then 2 else 0, dieMask := 0, maxRate := nvVal s 0x0800000A }) (trainFirst k n s)

theorem trainFirst_trains {k : Nat} (h : k < 16) (s : State) (n : Nat) (small : n ≤ 8) :
    trainFirst k n s = { s with flash := { s.flash with chans := (trainFirst k n s).flash.chans } } ∧
    ∀ m, m / 8 = k → m % 8 < n → (getChan (trainFirst k n s) m).svc = (if s.flash.dies.any fun d => dieChan d.d == m then 2 else 0) ∧
      (getChan (trainFirst k n s) m).dieMask = 0 := by
  induction n with
  | zero => exact ⟨rfl, fun _ _ h => absurd h (Nat.not_lt_zero _)⟩
  | succ n ih =>
    obtain ⟨frame, chans⟩ := ih (by omega)
    obtain ⟨u, hu⟩ : ∃ u, u = trainFirst k n s := ⟨_, rfl⟩
    rw [← hu] at frame chans
    have dies : u.flash.dies = s.flash.dies := (congrArg (fun v : State => v.flash.dies) frame :)
    have run : trainFirst k (n + 1) s = modChan u (8 * k + n) fun ch =>
        { ch with svc := if u.flash.dies.any fun d => dieChan d.d == 8 * k + n then 2 else 0, dieMask := 0, maxRate := nvVal u 0x0800000A } := by
      rw [hu]
      rfl
    obtain ⟨v, hv⟩ : ∃ v, v = trainFirst k (n + 1) s := ⟨_, rfl⟩
    rw [← hv] at run ⊢
    have frameV : v = { u with flash := { u.flash with chans := v.flash.chans } } := by
      rw [run]
      rfl
    refine ⟨frameV.trans (congrArg (fun w : State => { w with flash := { w.flash with chans := v.flash.chans } }) frame), fun m own low => ?_⟩
    by_cases last : m = 8 * k + n
    · rw [run, last, getChan_modChan (by omega), dies]
      exact ⟨rfl, rfl⟩
    · rw [run, getChan_modChan_ne last]
      exact chans m own (by omega)

/-- The interface is set at each target of the oct. -/
theorem setInterface_sends (s : State) (k : Nat) : setInterface s k = s.updOut (· ++
    (s.flash.dies.filter fun d => inOct k d.d && dieLun d.d == 0).map fun d => .nand d.d 0xEF 0 [BitVec.ofNat 8 (b2n (bit (profOf s k 2) 0))]) := by
  have fold : ∀ (l : List Die) (v : List Byte) (u : State), (∀ w : State, w.flash = u.flash → [BitVec.ofNat 8 (b2n (bit (profOf w k 2) 0))] = v) →
      l.foldl (fun s d => busCmd s d.d 0xEF 0 [BitVec.ofNat 8 (b2n (bit (profOf s k 2) 0))]) u = u.updOut (· ++ l.map fun d => .nand d.d 0xEF 0 v) := fun l v => by
    induction l with
    | nil => intro u _; simp [State.updOut]
    | cons d l ih =>
      intro u same
      rw [List.foldl_cons]
      refine (ih (busCmd u d.d 0xEF 0 [BitVec.ofNat 8 (b2n (bit (profOf u k 2) 0))]) same).trans ?_
      rw [same u rfl]
      simp [busCmd, emit, State.updOut]
  exact fold _ _ s fun w e => by unfold profOf getOct; rw [e]

/-- With every LUN seen and a die to train, the interface is set and the channels train (R307, R311). -/
theorem identified_trains {s : State} {k : Nat} (h : k < 16) (all : 128 ≤ (getOct s k).seen.length) (on : (getOct s k).downReq = false)
    (some_ : (s.flash.dies.any fun d => dieOct d.d == k) = true) :
    identified s k = trainFirst k 8 (setInterface (modOct s k fun o => { o with phase := 6, phaseAt := s.beat }) k) := by
  obtain ⟨u, hu⟩ : ∃ u, u = trainFirst k 8 (setInterface (modOct s k fun o => { o with phase := 6, phaseAt := s.beat }) k) := ⟨_, rfl⟩
  have run : identified s k = octLive u k := by
    rw [hu]
    exact (if_neg (by omega)).trans (if_neg (by rw [on]; exact Bool.false_ne_true))
  obtain ⟨-, chans⟩ := trainFirst_trains h (setInterface (modOct s k fun o => { o with phase := 6, phaseAt := s.beat }) k) 8 (Nat.le_refl _)
  rw [← hu] at chans ⊢
  rw [run]
  unfold octLive
  refine if_pos (List.any_eq_true.mpr ?_)
  obtain ⟨d, hd, own⟩ := List.any_eq_true.mp some_
  have own : d.d / 128 = k := beq_iff_eq.mp own
  refine ⟨d.d / 16 % 8, List.mem_range.mpr (by omega), ?_⟩
  have at_ : 8 * k + d.d / 16 % 8 = d.d / 16 := by omega
  rw [at_, (chans (d.d / 16) (by omega) (by omega)).1, if_pos]
  · rfl
  · refine List.any_eq_true.mpr ⟨d, ?_, beq_iff_eq.mpr rfl⟩
    rw [setInterface_sends]
    exact hd

/-! ### Faults -/

/-- A fault of an oct that is not DARK darkens it and is latched (R308). -/
theorem faulted_darkens {s : State} {k : Nat} (h : k < 16) (st : (getOct s k).st ≠ .dark) :
    let t := modOct (faultDown s k) k fun o => { o with fault := true }
    Darkened t k ∧ (getOct t k).fault = true ∧ ∀ j, j ≠ k → getOct t j = getOct s j := by
  obtain ⟨⟨dst, vcc, vccq, dies⟩, -, others, -, -⟩ := goDark_darkens (s := s) h
  have down : faultDown s k = goDark s k := if_neg st
  obtain ⟨u, hu⟩ : ∃ u, u = goDark s k := ⟨_, rfl⟩
  rw [down, ← hu]
  rw [← hu] at dst vcc vccq dies others
  clear hu down
  have mine := getOct_modOct (s := u) h fun o => { o with fault := true }
  intro t
  refine ⟨⟨?_, ?_, ?_, dies⟩, ?_, fun j other => (getOct_modOct_ne other _).trans (others j other)⟩
  · rw [mine]; exact dst
  · rw [mine]; exact vcc
  · rw [mine]; exact vccq
  · rw [mine]

/-- Settles O43: a step of the power-up by its phase, its beat and whether the request stands. -/
theorem octPowerUp : Obligations.OctPowerUp := by
  unfold Obligations.OctPowerUp
  refine ⟨?starts, ?held, ?vcc, ?vccq, ?reset, ?withdrawn, ?away, ?joins, ?absent, ?notNow, ?last, ?trains, ?soon, ?fault⟩
  case starts =>
    intro s k h st fault wanted present granted test hold may leaving sealed_
    refine octTo_of_modOct (f := fun o => { o with st := .powering, phase := 1, phaseAt := s.beat, vcc := (if bit (profSet s k 2) 5 then 33 else 25), vccq := false, downReq := false, prompt := false, seen := [], switched := octSwitched s k, profile := Vector.ofFn fun f => BitVec.ofNat 64 (profSet s k f.val) })
      h (congrArg Host.Outcome.next (if_neg ?_))
    rintro (h' | h' | h' | h' | h' | h' | h' | h' | h' | h' | h')
    · omega
    · exact h' st
    · exact Bool.false_ne_true (fault.symm.trans h')
    · simp [wanted] at h'
    · simp [present] at h'
    · obtain ⟨switched, lacks⟩ := h'
      simp [granted switched] at lacks
    · exact test h'
    · simp [hold] at h'
    · simp [may] at h'
    · exact Bool.false_ne_true (leaving.symm.trans h')
    · simp [sealed_] at h'
  case held =>
    intro s k held
    refine congrArg Host.Outcome.next (if_pos ?_)
    rcases held with h | h | h | h | h
    · exact .inl h
    · exact .inr (.inr (.inl h))
    · exact .inr (.inr (.inr (.inl (by simp [h]))))
    · exact .inr (.inr (.inr (.inr (.inl (by simp [h])))))
    · exact .inr (.inr (.inr (.inr (.inr (.inr (.inr (.inr (.inl (by simp [h])))))))))
  case vcc =>
    rintro s k o h rfl st phase first last on
    refine octTo_of_modOct (f := fun o => { o with phase := 2, phaseAt := s.beat, vccq := true }) h (congrArg Host.Outcome.next ((powerStep_runs st phase first last).trans ?_))
    exact if_neg (by rw [on]; exact Bool.false_ne_true)
  case vccq =>
    rintro s k o h rfl st phase first last on
    refine octTo_of_modOct (f := fun o => { o with phase := 3, phaseAt := s.beat + 1 }) h (congrArg Host.Outcome.next ((powerStep_runs st phase first last).trans ?_))
    exact if_neg (by rw [on]; exact Bool.false_ne_true)
  case reset =>
    rintro s k o h rfl st phase at_ on
    have fold : ∀ (l : List Nat) (u : State), l.foldl (fun s i => emit s (.nand (128 * k + 2 * i) 0xFF 0 [])) u = u.updOut (· ++ l.map fun i => .nand (128 * k + 2 * i) 0xFF 0 []) := fun l => by
      induction l with
      | nil => intro u; simp [State.updOut]
      | cons i l ih => intro u; rw [List.foldl_cons, ih]; simp [emit, State.updOut]
    have run : exec (.octResetTimer k) s = .next ((modOct s k fun o => { o with phase := 4, phaseAt := s.beat }).updOut (· ++ (List.range 64).map fun i => .nand (128 * k + 2 * i) 0xFF 0 [])) := by
      refine congrArg Host.Outcome.next ((powerStep_runs st phase (by omega) (by omega)).trans ((if_neg (by rw [on]; exact Bool.false_ne_true)).trans ?_))
      exact fold _ _
    exact ⟨_, run, rfl, (getOct_modOct (s := s) h fun o => { o with phase := 4, phaseAt := s.beat } :),
      fun j other => (getOct_modOct_ne (s := s) other fun o => { o with phase := 4, phaseAt := s.beat } :), rfl⟩
  case withdrawn =>
    rintro s k o h rfl st down
    refine ⟨fun phase first last off => ?_, fun phase first last on => ?_, fun phase at_ on => ?_⟩
    · exact congrArg Host.Outcome.next ((powerStep_runs st phase first last).trans ((if_pos down).trans (if_neg (by rw [off]; exact Bool.false_ne_true))))
    · exact octTo_of_modOct (f := fun o => { o with st := .draining, drainAt := s.beat, downReq := false, vccq := false }) h
        (congrArg Host.Outcome.next ((powerStep_runs st phase first last).trans ((if_pos down).trans (stopPowering_drains on))))
    · exact octTo_of_modOct (f := fun o => { o with st := .draining, drainAt := s.beat, downReq := false, vccq := false }) h
        (congrArg Host.Outcome.next ((powerStep_runs st phase (by omega) (by omega)).trans ((if_pos down).trans (stopPowering_drains on))))
  case away =>
    rintro s k o rfl
    refine ⟨fun away => ?_, fun away => ?_, fun away => ?_⟩
    · exact congrArg Host.Outcome.next (powerStep_waits (away.imp_right (Or.imp_right (Or.imp_left Nat.lt_succ_of_le))))
    · exact congrArg Host.Outcome.next (powerStep_waits (away.imp_right (Or.imp_right (Or.imp_left Nat.lt_succ_of_le))))
    · exact congrArg Host.Outcome.next (powerStep_waits (away.imp_right (Or.imp_right fun other => by omega)))
  case joins =>
    rintro s die l o rfl h st phase fresh early first last
    obtain ⟨u, hu⟩ : ∃ u, u = identifyCmds s die := ⟨_, rfl⟩
    have keeps : u = { s with out := s.out ++ [.nand die 0x90 0 [0], .nand die 0xEC 0 [0]] } := by
      rw [hu]
      simp [identifyCmds, busCmd, emit, State.updOut]
    have run := execLunReady_runs (l := l) st phase fresh first last
    rw [← hu] at run
    have octs : getOct u (dieOct die) = getOct s (dieOct die) := by rw [keeps]; rfl
    obtain ⟨frame, oct, die_, others⟩ := lunSeen_joins (s := u) (rows := if nth l 9 0 = 4 then 4 else 3) (found := lunOk s (dieOct die) l) h (by rw [octs]; exact st)
      (by rw [octs]; exact phase) (by rw [octs]; exact fresh) (by rw [octs]; exact early)
    refine ⟨_, run, ?_, ?_, oct.trans (by rw [octs]), die_, fun d away => (others d away).trans (by rw [keeps]; rfl)⟩
    · rw [frame, keeps]
    · rw [frame, keeps]
  case absent =>
    rintro s die o rfl h st phase fresh early late
    have run : exec (.lunReadyTimeout die) s = .next (lunSeen s die 3 false) := congrArg Host.Outcome.next (if_pos late)
    obtain ⟨frame, oct, die_, others⟩ := lunSeen_joins (rows := 3) (found := false) h st phase fresh early
    exact ⟨_, run, frame, oct, die_, others⟩
  case notNow =>
    rintro s die l o rfl away
    exact congrArg Host.Outcome.next (if_pos (away.imp_right (Or.imp_right (Or.imp_right (Or.imp_left Nat.lt_succ_of_le)))))
  case last =>
    rintro s die l o u rfl st phase fresh late bad first last rfl
    rw [execLunReady_runs st phase fresh first last, bad]
    refine congrArg Host.Outcome.next (if_neg ?_)
    rintro (h | h | h)
    · exact h st
    · exact h phase
    · exact Bool.false_ne_true (fresh.symm.trans h)
  case trains =>
    rintro s k o t h rfl all on some_ rfl
    rw [identified_trains h all on some_]
    obtain ⟨v, hv⟩ : ∃ v, v = modOct s k fun o => { o with phase := 6, phaseAt := s.beat } := ⟨_, rfl⟩
    have own : getOct v k = { getOct s k with phase := 6, phaseAt := s.beat } := (congrArg (getOct · k) hv).trans (getOct_modOct h _)
    have keeps : v.flash.dies = s.flash.dies ∧ v.out = s.out ∧ profOf v k 2 = profOf s k 2 := by
      refine ⟨?_, ?_, ?_⟩
      · rw [hv]; rfl
      · rw [hv]; rfl
      · unfold profOf; rw [own]
    obtain ⟨dies, out, prof⟩ := keeps
    obtain ⟨w, hw⟩ : ∃ w, w = setInterface v k := ⟨_, rfl⟩
    have keepsW : w.flash = v.flash ∧ w.out = s.out ++ (s.flash.dies.filter fun d => inOct k d.d && dieLun d.d == 0).map fun d => .nand d.d 0xEF 0 [BitVec.ofNat 8 (b2n (bit (profOf s k 2) 0))] := by
      rw [hw, setInterface_sends, ← dies, ← out, ← prof]
      exact ⟨rfl, rfl⟩
    obtain ⟨flash, sent⟩ := keepsW
    rw [← hv, ← hw]
    clear hw hv
    obtain ⟨frame, chans⟩ := trainFirst_trains h w 8 (Nat.le_refl _)
    obtain ⟨x, hx⟩ : ∃ x, x = trainFirst k 8 w := ⟨_, rfl⟩
    rw [← hx] at frame chans ⊢
    clear hx
    have octsX : x.flash.octs = w.flash.octs := (congrArg (fun y : State => y.flash.octs) frame :)
    have octs : x.flash.octs = v.flash.octs := by rw [octsX, flash]
    refine ⟨(getOct_of_octs octs k).trans own, fun n at_ => ?_, (congrArg State.out frame).trans sent⟩
    obtain ⟨svc, mask⟩ := chans n at_ (by omega)
    rw [svc, mask, flash, dies]
    exact ⟨rfl, rfl⟩
  case soon => exact fun s die soon => congrArg Host.Outcome.next (if_neg (by omega))
  case fault =>
    intro s k h st late
    exact ⟨_, congrArg Host.Outcome.next (if_pos ⟨st, late⟩), faulted_darkens h (by rw [st]; exact fun h => nomatch h)⟩

end Sys2Proof.Proofs

end


section
/-! PROOF. O44: how an oct drains and goes dark, and the training and re-centring of its channels. -/

namespace Sys2Proof.Proofs

open Sys2Proof Sys2Proof.Machine Sys2Proof.Safety Sys2Proof.Laws

/-! ### Folds over the octs -/

/-- Two states that differ in their octs only. -/
def OctsOnly (s t : State) : Prop := t = { s with flash := { s.flash with octs := t.flash.octs } }

theorem octsOnly_trans {s t u : State} (a : OctsOnly s t) (b : OctsOnly t u) : OctsOnly s u :=
  Eq.trans b (congrArg (fun v : State => { v with flash := { v.flash with octs := u.flash.octs } }) a)

/-- The octs are all there is to tell such states apart. -/
theorem octsOnly_ext {s t u : State} (a : OctsOnly s t) (b : OctsOnly s u) (same : ∀ k < 16, getOct t k = getOct u k) : t = u := by
  have octs : t.flash.octs = u.flash.octs := Vector.ext fun k h => by
    have at_ := same k h
    unfold getOct vget at at_
    simpa [h] using at_
  unfold OctsOnly at a b
  rw [octs] at a
  exact a.trans b.symm

/-- A fold over the octs that at each changes that oct only does each oct's change, at some time in between. -/
theorem eachOct {f : State → Nat → State} (step : ∀ s k, k < 16 → OctsOnly s (f s k) ∧ ∀ j, j ≠ k → getOct (f s k) j = getOct s j) (s : State) :
    OctsOnly s ((List.range 16).foldl f s) ∧
      ∀ k < 16, ∃ u, OctsOnly s u ∧ getOct u k = getOct s k ∧ getOct ((List.range 16).foldl f s) k = getOct (f u k) k := by
  have first : ∀ n ≤ 16, OctsOnly s ((List.range n).foldl f s) ∧ (∀ k, n ≤ k → getOct ((List.range n).foldl f s) k = getOct s k) ∧
      ∀ k < n, ∃ u, OctsOnly s u ∧ getOct u k = getOct s k ∧ getOct ((List.range n).foldl f s) k = getOct (f u k) k := fun n => by
    induction n with
    | zero => exact fun _ => ⟨rfl, fun _ _ => rfl, fun _ h => absurd h (Nat.not_lt_zero _)⟩
    | succ n ih =>
      intro small
      obtain ⟨only, later, done⟩ := ih (by omega)
      rw [List.range_succ, List.foldl_append, List.foldl_cons, List.foldl_nil]
      obtain ⟨only', others⟩ := step ((List.range n).foldl f s) n (by omega)
      refine ⟨octsOnly_trans only only', fun k h => (others k (by omega)).trans (later k (by omega)), fun k h => ?_⟩
      by_cases last : k = n
      · rw [last]
        exact ⟨_, only, later n (Nat.le_refl _), rfl⟩
      · obtain ⟨u, onlyU, before, after⟩ := done k (by omega)
        exact ⟨u, onlyU, before, (others k last).trans after⟩
  exact ⟨(first 16 (Nat.le_refl _)).1, (first 16 (Nat.le_refl _)).2.2⟩

theorem modOct_only (s : State) (k : Nat) (f : Oct → Oct) : OctsOnly s (modOct s k f) := rfl

/-- The ordered way begins: a LIVE oct drains, of one that powers up the request is withdrawn (R308). -/
theorem startDrain_ordered (s : State) (k : Nat) :
    startDrain s k false = if (getOct s k).st = .live then modOct s k fun o => { o with st := .draining, drainAt := s.beat, prompt := false, toDrain := false }
      else if (getOct s k).st = .powering then modOct s k fun o => { o with downReq := true } else s := rfl

theorem startDrain_one (s : State) (k : Nat) : OctsOnly s (startDrain s k false) ∧ ∀ j, j ≠ k → getOct (startDrain s k false) j = getOct s j := by
  rw [startDrain_ordered]
  split
  · exact ⟨rfl, fun _ other => getOct_modOct_ne other _⟩
  · split
    · exact ⟨rfl, fun _ other => getOct_modOct_ne other _⟩
    · exact ⟨rfl, fun _ _ => rfl⟩

/-- The only oct asked to drain does (R308). -/
theorem drainAsked_one {s : State} {k : Nat} (h : k < 16) (st : (getOct s k).st = .live) (others : ∀ j, j ≠ k → (getOct s j).toDrain = false)
    (asked : (getOct s k).toDrain = true) : drainAsked s = modOct s k fun o => { o with st := .draining, drainAt := s.beat, prompt := false, toDrain := false } := by
  obtain ⟨only, each⟩ := eachOct (f := fun s k => if (getOct s k).toDrain then startDrain s k false else s) (fun s k _ => by
    split
    · exact startDrain_one s k
    · exact ⟨rfl, fun _ _ => rfl⟩) s
  refine octsOnly_ext only (modOct_only s k _) fun j small => ?_
  obtain ⟨u, frame, before, after⟩ := each j small
  refine Eq.trans after ?_
  have beat : u.beat = s.beat := (congrArg State.beat frame :)
  by_cases own : j = k
  · subst own
    rw [before, if_pos asked, startDrain_ordered, if_pos (by rw [before]; exact st), getOct_modOct h, getOct_modOct h, before, beat]
  · rw [before, others j own, getOct_modOct_ne own]
    exact before

/-! ### Faults -/

theorem faultDown_dark {s : State} {k : Nat} (h : k < 16) : (getOct (faultDown s k) k).st = .dark ∧ (∀ j, j ≠ k → getOct (faultDown s k) j = getOct s j) ∧
    (faultDown s k).flash.present = s.flash.present := by
  unfold faultDown
  split
  next dark => exact ⟨dark, fun _ _ => rfl, rfl⟩
  next =>
    obtain ⟨⟨st, -, -, -⟩, -, others, present, -⟩ := goDark_darkens (s := s) h
    exact ⟨st, others, present⟩

/-- Octs that go dark one after another. -/
theorem faultsDown_dark {b n : Nat} (h : b + n ≤ 16) (s : State) :
    let t := (List.range n).foldl (fun s i => faultDown s (b + i)) s
    (∀ i < n, (getOct t (b + i)).st = .dark) ∧ (∀ k, k < b ∨ b + n ≤ k → getOct t k = getOct s k) ∧ t.flash.present = s.flash.present := by
  induction n with
  | zero => exact ⟨fun _ h => absurd h (Nat.not_lt_zero _), fun _ _ => rfl, rfl⟩
  | succ n ih =>
    obtain ⟨dark, others, present⟩ := ih (by omega)
    intro t
    have run : t = faultDown ((List.range n).foldl (fun s i => faultDown s (b + i)) s) (b + n) := by
      simp only [t, List.range_succ, List.foldl_append, List.foldl_cons, List.foldl_nil]
    obtain ⟨last, stay, present'⟩ := faultDown_dark (s := (List.range n).foldl (fun s i => faultDown s (b + i)) s) (k := b + n) (by omega)
    rw [run]
    refine ⟨fun i small => ?_, fun k away => (stay k (by omega)).trans (others k (by omega)), present'.trans present⟩
    by_cases own : i = n
    · rw [own]
      exact last
    · rw [stay (b + i) (by omega)]
      exact dark i (by omega)

/-! ### Channels -/

theorem of_unplanned {s t : State} (same : unplanned t = unplanned s) : t = { s with plan := t.plan } :=
  congrArg (fun u : State => { u with plan := t.plan }) same

/-- A channel whose buffer is out goes out of service with its dies (R315). -/
theorem trainEnd_out {s : State} {n from_ : Nat} {eyes out : List Nat} (bad : vget s.mem.chbufOut n false = true) : trainEnd s n from_ eyes out =
    modChan (s.updFlash fun f => { f with dies := f.dies.filter fun d => dieChan d.d != n }) n fun c => { c with svc := 0, dieMask := 0 } := if_pos bad

/-- What a training leaves of the dies and the count of failed rates, of which `failed` is the first that held (R311). -/
def trained (s : State) (n lo failed : Nat) (out : List Nat) : State :=
  s.updFlash fun f => { f with dies := f.dies.filter fun d => !(dieChan d.d == n && out.contains d.d), trainFails := satAdd f.trainFails (failed - lo) }

/-- A rate holds: the channel takes it (R311). -/
theorem trainEnd_takes {s : State} {n from_ r : Nat} {eyes out : List Nat} (good : vget s.mem.chbufOut n false = false)
    (pick : lowest (fun r => decide (nvVal s 0x08000007 ≤ nth eyes r 0)) (firstRate s n from_) (7 - firstRate s n from_) = some r) :
    ∃ svc mask, trainEnd s n from_ eyes out =
      modChan (trained s n (firstRate s n from_) (if s.flash.dies.any fun d => dieChan d.d == n && out.contains d.d then 7 else r) out) n fun c =>
        { c with rate := r, perBeat := ladderPerBeat r, svc := svc, dieMask := mask, eye := nth eyes r 0, lastCentre := s.beat, centreTs := octTs s (n / 8) } := by
  unfold trainEnd
  rw [if_neg (by rw [good]; exact Bool.false_ne_true)]
  dsimp only
  rw [pick]
  exact ⟨_, _, rfl⟩

/-- No rate holds: the channel goes out of service with its dies (R311). -/
theorem trainEnd_fails {s : State} {n from_ : Nat} {eyes out : List Nat} (good : vget s.mem.chbufOut n false = false)
    (pick : lowest (fun r => decide (nvVal s 0x08000007 ≤ nth eyes r 0)) (firstRate s n from_) (7 - firstRate s n from_) = none) :
    ∃ failed, trainEnd s n from_ eyes out =
      modChan ((trained s n (firstRate s n from_) failed out).updFlash fun f => { f with dies := f.dies.filter fun d => dieChan d.d != n }) n fun c =>
        { c with svc := 0, dieMask := 0 } := by
  unfold trainEnd
  rw [if_neg (by rw [good]; exact Bool.false_ne_true)]
  dsimp only
  rw [pick]
  exact ⟨_, rfl⟩

/-- A channel out of service: none of its dies is left, and no other channel changes. -/
theorem outOfService {s : State} {n : Nat} (h : n < 128) :
    let t := modChan (s.updFlash fun f => { f with dies := f.dies.filter fun d => dieChan d.d != n }) n fun c => { c with svc := 0, dieMask := 0 }
    ((getChan t n).svc = 0 ∧ (getChan t n).dieMask = 0) ∧ (∀ d ∈ t.flash.dies, dieChan d.d ≠ n) ∧ ∀ m, m ≠ n → getChan t m = getChan s m := by
  intro t
  have mine := getChan_modChan (s := s.updFlash fun f => { f with dies := f.dies.filter fun d => dieChan d.d != n }) h fun c => { c with svc := 0, dieMask := 0 }
  refine ⟨⟨?_, ?_⟩, fun d mem => ?_, fun m other => getChan_modChan_ne (s := s.updFlash fun f => { f with dies := f.dies.filter fun d => dieChan d.d != n }) other _⟩
  · rw [mine]
  · rw [mine]
  · exact by simpa using (List.mem_filter.mp (show d ∈ s.flash.dies.filter _ from mem)).2

theorem execTrainingDone_runs {s : State} {n : Nat} {eyes out : List Nat} (h : n < 128) (svc : (getChan s n).svc = 2) (st : (getOct s (n / 8)).st = .live)
    (idle : chanBusy s n = false) : exec (.trainingDone n eyes out) s = .next (trainEnd s n (getChan s n).rate eyes out) := by
  refine congrArg Host.Outcome.next ((if_neg ?_).trans ((if_neg ?_).trans (if_pos ⟨st, by simp [idle]⟩)))
  · rintro (big | other)
    · omega
    · exact other svc
  · rintro ⟨powering, -⟩
    rw [st] at powering
    cases powering

/-- A step that keeps the running operations of some dies of a list, whose numbers are the state's. -/
theorem keepRunning_ops {p : Nat → Bool} {b : Nat} (l : List Die) (distinct : (l.map Die.d).Nodup) (s : State) (known : ∀ d ∈ l, ∃ e ∈ s.flash.dies, e.d = d.d) :
    let t := l.foldl (fun t d => if p d.d then modDie t d.d fun x => { x with ops := d.ops.filter fun o => o.running b } else t) s
    t.flash.chans = s.flash.chans ∧ t.flash.dies.map Die.d = s.flash.dies.map Die.d ∧
      (∀ e ∈ s.flash.dies, (∀ d ∈ l, d.d ≠ e.d) → e ∈ t.flash.dies) ∧
      ∀ d ∈ l, p d.d = true → ∃ e ∈ t.flash.dies, e.d = d.d ∧ e.ops = d.ops.filter fun o => o.running b := by
  induction l generalizing s with
  | nil => exact ⟨rfl, rfl, fun _ h _ => h, fun _ h => nomatch h⟩
  | cons a l ih =>
    obtain ⟨fresh, distinct⟩ := List.nodup_cons.mp (show (a.d :: l.map Die.d).Nodup from distinct)
    have fresh : ∀ d ∈ l, d.d ≠ a.d := fun d hd same => fresh (List.mem_map.mpr ⟨d, hd, same⟩)
    intro t
    obtain ⟨u, hu⟩ : ∃ u, u = if p a.d then modDie s a.d fun x => { x with ops := a.ops.filter fun o => o.running b } else s := ⟨_, rfl⟩
    have run : t = l.foldl (fun t d => if p d.d then modDie t d.d fun x => { x with ops := d.ops.filter fun o => o.running b } else t) u := by
      rw [hu]
      rfl
    have first : u.flash.chans = s.flash.chans ∧ u.flash.dies.map Die.d = s.flash.dies.map Die.d ∧ (∀ e ∈ s.flash.dies, e.d ≠ a.d → e ∈ u.flash.dies) ∧
        (p a.d = true → ∃ e ∈ u.flash.dies, e.d = a.d ∧ e.ops = a.ops.filter fun o => o.running b) := by
      rw [hu]
      split
      next =>
        refine ⟨rfl, modDie_numbers s a.d _ fun _ => rfl, fun e he other => List.mem_map.mpr ⟨e, he, if_neg (by simpa using other)⟩, fun _ => ?_⟩
        obtain ⟨e, he, same⟩ := known a (List.mem_cons_self ..)
        exact ⟨{ e with ops := a.ops.filter fun o => o.running b }, List.mem_map.mpr ⟨e, he, if_pos (by simpa using same)⟩, same, rfl⟩
      next no => exact ⟨rfl, rfl, fun _ h _ => h, fun yes => absurd yes no⟩
    obtain ⟨chans, numbers, kept, mine⟩ := first
    have knownU : ∀ d ∈ l, ∃ e ∈ u.flash.dies, e.d = d.d := fun d hd => by
      obtain ⟨e, he, same⟩ := known d (List.mem_cons_of_mem _ hd)
      have mem : d.d ∈ u.flash.dies.map Die.d := by
        rw [numbers]
        exact List.mem_map.mpr ⟨e, he, same⟩
      exact List.mem_map.mp mem
    obtain ⟨chans', numbers', kept', mine'⟩ := ih distinct u knownU
    rw [run]
    refine ⟨chans'.trans chans, numbers'.trans numbers, fun e he away => kept' e (kept e he fun same => away a (List.mem_cons_self ..) same.symm)
      fun d hd => away d (List.mem_cons_of_mem _ hd), fun d hd at_ => ?_⟩
    rcases List.mem_cons.mp hd with rfl | hd
    · obtain ⟨e, he, same, ops⟩ := mine at_
      exact ⟨e, kept' e he fun d hd => by rw [same]; exact fresh d hd, same, ops⟩
    · exact mine' d hd at_

/-- The dies out of reach keep what runs (R308, R312). -/
theorem reachRunning_keeps {s : State} {p : Nat → Bool} {dark : Bool} :
    (reachRunning s p dark).flash.chans = s.flash.chans ∧
      ((s.flash.dies.map Die.d).Nodup → ∀ d ∈ s.flash.dies, p d.d = true → ∃ e ∈ (reachRunning s p dark).flash.dies, e.d = d.d ∧ e.ops = d.ops.filter fun o => o.running s.beat) := by
  obtain ⟨-, chans, -, -, numbers, -⟩ := reach_sheds s p dark
  refine ⟨Eq.trans (foldl_keeps (f := fun (t : State) (d : Die) => if p d.d then modDie t d.d fun x => { x with ops := d.ops.filter fun o => o.running s.beat } else t)
    (fun t : State => t.flash.chans) (fun t d => ite_agree (fun t : State => t.flash.chans) rfl rfl) _ _) chans, fun distinct => ?_⟩
  refine (keepRunning_ops s.flash.dies distinct (reach s p dark) fun d hd => ?_).2.2.2
  have mem : d.d ∈ (reach s p dark).flash.dies.map Die.d := by
    rw [numbers]
    exact List.mem_map.mpr ⟨d, hd, rfl⟩
  exact List.mem_map.mp mem

/-- The state after a re-centre that took its beats and found its eye (R312). -/
def recentred (s : State) (n e : Nat) : State :=
  modChan ((List.range 2).foldl (fun t i => book t (.chan n) .care (s.beat + i) (chanRate s n) 0) s) n fun c =>
    { c with eye := e, lastCentre := s.beat, centreTs := octTs s (n / 8) }

theorem recentred_keeps {s : State} {n e : Nat} (h : n < 128) : recentred s n e = { s with flash := { s.flash with chans := (recentred s n e).flash.chans }, plan := (recentred s n e).plan } ∧
    getChan (recentred s n e) n = { getChan s n with eye := e, lastCentre := s.beat, centreTs := octTs s (n / 8) } ∧
    ∀ m, m ≠ n → getChan (recentred s n e) m = getChan s m := by
  obtain ⟨u, hu⟩ : ∃ u, u = (List.range 2).foldl (fun t i => book t (.chan n) .care (s.beat + i) (chanRate s n) 0) s := ⟨_, rfl⟩
  have frame : u = { s with plan := u.plan } := by
    rw [hu]
    exact of_unplanned (foldl_keeps unplanned (fun _ _ => book_unplanned ..) _ s)
  have chans : ∀ m, getChan u m = getChan s m := getChan_of_chans (congrArg (fun v : State => v.flash.chans) frame :)
  obtain ⟨v, hv⟩ : ∃ v, v = modChan u n fun c => { c with eye := e, lastCentre := s.beat, centreTs := octTs s (n / 8) } := ⟨_, rfl⟩
  have frameV : v = { u with flash := { u.flash with chans := v.flash.chans } } := by
    rw [hv]
    rfl
  unfold recentred
  rw [← hu, ← hv]
  refine ⟨frameV.trans ?_, ?_⟩
  · have flash : u.flash = s.flash := (congrArg State.flash frame :)
    have plan : v.plan = u.plan := (congrArg State.plan frameV :)
    rw [flash, plan]
    exact congrArg (fun w : State => { w with flash := { s.flash with chans := v.flash.chans } }) frame
  rw [hv]
  exact ⟨(getChan_modChan h _).trans (by rw [chans]), fun m other => (getChan_modChan_ne other _).trans (chans m)⟩

theorem execRecentre_runs {s : State} {n e : Nat} (h : n < 128) (svc : (getChan s n).svc = 1) (st : (getOct s (n / 8)).st = .live) (due : recentreDue s n = true) :
    exec (.recentre n e) s = .next (if nvVal s 0x08000007 ≤ e then recentred s n e else
      reachRunning (modChan (recentred s n e) n fun c => { c with svc := 2, maxRate := nvVal s 0x0800000A }) (fun d => dieChan d == n) false) := by
  refine congrArg Host.Outcome.next (if_neg ?_)
  rintro (big | other | off | early)
  · omega
  · exact other svc
  · exact off st
  · simp [due] at early

/-- Settles O44: draining and the ways to go dark by the state and the rails of the oct, training by the rate found, re-centring by the eye. -/
theorem octsGoDark : Obligations.OctsGoDark := by
  unfold Obligations.OctsGoDark
  refine ⟨?drained, ?asked, ?drains, ?waits, ?off, ?notOff, ?trip, ?tripped, ?carrier, ?takes, ?fails, ?busy, ?centred, ?lost, ?powering, ?buffer, ?notTraining, ?notDue⟩
  case drained =>
    intro s k h st on ready
    obtain ⟨u, hu⟩ : ∃ u, u = modOct s k fun o => { o with vccq := false } := ⟨_, rfl⟩
    have own : getOct u k = { getOct s k with vccq := false } := (congrArg (getOct · k) hu).trans (getOct_modOct h _)
    have others : ∀ j, j ≠ k → getOct u j = getOct s j := fun j other => (congrArg (getOct · j) hu).trans (getOct_modOct_ne other _)
    obtain ⟨octs, -, -, -, -, quiet⟩ := reach_sheds u (inOct k) true
    have run : exec (.octDrainEnd k) s = .next (reach u (inOct k) true) := by
      rw [hu]
      refine congrArg Host.Outcome.next (if_neg ?_)
      rintro (other | off | ⟨busy, early⟩)
      · exact other st
      · simp [on] at off
      · rcases ready with idle | late
        · exact Bool.false_ne_true (idle.symm.trans busy)
        · omega
    refine ⟨_, run, (getOct_of_octs octs k).trans own, fun j other => (getOct_of_octs octs j).trans (others j other), quiet k ?_ fun d at_ => beq_iff_eq.mpr at_⟩
    rw [own, st]
    exact fun h => nomatch h
  case asked => exact fun s k _ st => if_pos st
  case drains => exact fun s k h st others asked => drainAsked_one h st others asked
  case waits =>
    intro s k why
    refine congrArg Host.Outcome.next (if_pos ?_)
    rcases why with other | busy
    · exact .inl other
    · exact .inr (.inr busy)
  case off =>
    intro s k h st off
    obtain ⟨dark, own, others, -, -⟩ := goDark_darkens (s := s) h
    exact ⟨_, congrArg Host.Outcome.next (if_pos ⟨st, by simp [off]⟩), dark, by rw [own], by rw [own], others⟩
  case notOff =>
    intro s k why
    refine congrArg Host.Outcome.next (if_neg ?_)
    rintro ⟨st, off⟩
    rcases why with other | on
    · exact other st
    · simp [on] at off
  case trip => exact fun s k h st => ⟨_, congrArg Host.Outcome.next (if_neg st), faulted_darkens h st⟩
  case tripped => exact fun s k st => congrArg Host.Outcome.next (if_pos st)
  case carrier =>
    intro s j h
    obtain ⟨u, hu⟩ : ∃ u, u = s.updFlash fun f => { f with present := vset f.present j false } := ⟨_, rfl⟩
    have octs : u.flash.octs = s.flash.octs ∧ vget u.flash.present j true = false := by
      rw [hu]
      exact ⟨rfl, vget_vset_same _ _ _ h⟩
    have run : exec (.carrierPresenceLoss j) s = .next ((List.range 8).foldl (fun s i => faultDown s (8 * j + i)) u) := by
      rw [hu]
      exact congrArg Host.Outcome.next (if_neg (by omega))
    obtain ⟨dark, others, present⟩ := faultsDown_dark (b := 8 * j) (n := 8) (by omega) u
    exact ⟨_, run, dark, by rw [present]; exact octs.2, fun k away => (others k (by omega)).trans (getOct_of_octs octs.1 k)⟩
  case takes =>
    rintro s n lo r eyes out h svc st idle good rfl pick
    obtain ⟨_, _, run⟩ := trainEnd_takes (out := out) good pick
    refine ⟨_, (execTrainingDone_runs h svc st idle).trans (congrArg _ run), rfl, ?_, ?_, ?_, ?_, ?_, rfl,
      fun m other => getChan_modChan_ne (s := trained s n _ _ out) other _, rfl⟩
    all_goals rw [getChan_modChan h]
  case fails =>
    rintro s n lo eyes out h svc st idle good rfl pick
    obtain ⟨failed, run⟩ := trainEnd_fails (out := out) good pick
    obtain ⟨⟨off, mask⟩, dies, others⟩ := outOfService (s := trained s n (firstRate s n (getChan s n).rate) failed out) h
    exact ⟨_, (execTrainingDone_runs h svc st idle).trans (congrArg _ run), off, mask, dies, others⟩
  case busy =>
    intro s n eyes out st busy
    refine congrArg Host.Outcome.next (ite_eq_left_iff.mpr fun _ => (if_neg ?_).trans (if_neg ?_))
    · rintro ⟨powering, -⟩
      rw [st] at powering
      cases powering
    · rintro ⟨-, idle⟩
      simp [busy] at idle
  case centred =>
    intro s n e h svc st due wide
    obtain ⟨frame, own, others⟩ := recentred_keeps (s := s) (e := e) h
    exact ⟨_, (execRecentre_runs h svc st due).trans (congrArg _ (if_pos wide)), frame, own, others⟩
  case lost =>
    intro s n e h svc st due low
    obtain ⟨frame, own, others⟩ := recentred_keeps (s := s) (e := e) h
    obtain ⟨u, hu⟩ : ∃ u, u = recentred s n e := ⟨_, rfl⟩
    have run := (execRecentre_runs (e := e) h svc st due).trans (congrArg _ (if_neg (by omega)))
    rw [← hu] at frame own others run
    have plain : u.flash.dies = s.flash.dies ∧ u.beat = s.beat := by
      rw [frame]
      exact ⟨rfl, rfl⟩
    clear hu frame
    obtain ⟨chans, ops⟩ := reachRunning_keeps (s := modChan u n fun c => { c with svc := 2, maxRate := nvVal s 0x0800000A }) (p := fun d => dieChan d == n) (dark := false)
    have mine := (getChan_of_chans chans n).trans (getChan_modChan h _)
    refine ⟨_, run, by rw [mine], fun distinct d hd at_ => ?_, by rw [mine, own], fun m other => (getChan_of_chans chans m).trans ((getChan_modChan_ne other _).trans (others m other))⟩
    obtain ⟨e, he, same, kept⟩ := ops (by rw [show (modChan u n _).flash.dies = _ from plain.1]; exact distinct) d (by rw [show (modChan u n _).flash.dies = _ from plain.1]; exact hd)
      (beq_iff_eq.mpr at_)
    exact ⟨e, he, same, kept.trans (by rw [show (modChan u n _).beat = _ from plain.2])⟩
  case powering =>
    intro s n eyes out h svc st phase
    refine congrArg Host.Outcome.next ((if_neg ?_).trans (if_pos ⟨st, phase⟩))
    rintro (big | other)
    · omega
    · exact other svc
  case buffer =>
    intro s n eyes out h svc st idle bad
    obtain ⟨⟨off, -⟩, dies, others⟩ := outOfService (s := s) h
    exact ⟨_, (execTrainingDone_runs h svc st idle).trans (congrArg _ (trainEnd_out bad)), off, dies, others⟩
  case notTraining => exact fun s n eyes out why => congrArg Host.Outcome.next (if_pos why)
  case notDue =>
    intro s n e why
    refine congrArg Host.Outcome.next (if_pos ?_)
    rcases why with h | h | h | h
    · exact .inl h
    · exact .inr (.inl h)
    · exact .inr (.inr (.inl h))
    · exact .inr (.inr (.inr (by simp [h])))

end Sys2Proof.Proofs

end


section
/-! PROOF. O45: the leases of the octs on a switched carrier, and the settings of an oct's power and faults. -/

namespace Sys2Proof.Proofs

open Sys2Proof Sys2Proof.Machine Sys2Proof.Safety Sys2Proof.Laws

/-! ### Leases -/

theorem startLease_one (s : State) (k : Nat) : OctsOnly s (startLease s k) ∧ ∀ j, j ≠ k → getOct (startLease s k) j = getOct s j :=
  ⟨rfl, fun _ other => getOct_modOct_ne other _⟩

theorem nvVal_only {s t : State} (only : OctsOnly s t) (id : Nat) : nvVal t id = nvVal s id := (congrArg (nvVal · id) only :)

/-- What a lease is due by, but for the oct itself, is not of the octs. -/
theorem leaseDue_octs {s u : State} {k : Nat} (only : OctsOnly s u) (same : getOct u k = getOct s k) : leaseDue u k = leaseDue s k := by
  unfold leaseDue octSwitched octWanted octAssigned
  rw [same]
  have nv := nvVal_only only
  have twin : u.twin = s.twin := (congrArg State.twin only :)
  unfold sided octSideB
  simp only [nv, twin]

/-- The leases start at the octs they are due at, and at no other. -/
theorem startLeases_starts (s : State) : OctsOnly s (startLeases s (List.range 16)) ∧ ∀ k < 16, getOct (startLeases s (List.range 16)) k =
    if (leaseDue s k && !(getOct s k).req && (getOct s k).retryAt.isNone) = true then { getOct s k with req := true, leaseAt := s.beat, retryAt := none } else getOct s k := by
  obtain ⟨only, each⟩ := eachOct (f := fun s k => if leaseDue s k && !(getOct s k).req && (getOct s k).retryAt.isNone then startLease s k else s) (fun s k _ => by
    split
    · exact startLease_one s k
    · exact ⟨rfl, fun _ _ => rfl⟩) s
  refine ⟨only, fun k h => ?_⟩
  obtain ⟨u, frame, before, after⟩ := each k h
  refine Eq.trans after ?_
  have beat : u.beat = s.beat := (congrArg State.beat frame :)
  rw [leaseDue_octs frame before, before]
  split
  · exact (getOct_modOct h _).trans (by rw [before, beat])
  · exact before

/-- Every oct changed by its number and its state before. -/
theorem getOct_mapAll {s : State} {k : Nat} (h : k < 16) (f : Nat → Oct → Oct) :
    getOct (s.updFlash fun g => { g with octs := g.octs.mapFinIdx fun k o _ => f k o }) k = f k (getOct s k) := by
  unfold getOct vget State.updFlash
  simp [h]

/-! ### Settings of the octs -/

/-- Each oct as the bits of FCH_OCT_POWER ask it to power (R307, R308). -/
theorem octPower_asks (s : State) (v : BitVec 64) :
    let t := (List.range 16).foldl (fun s k => if v.getLsbD k then modOct s k fun o => { o with downReq := false } else startDrain s k false) s
    OctsOnly s t ∧ ∀ k < 16, (v.getLsbD k = false → (getOct s k).st = .live → (getOct t k).st = .draining ∧ (getOct t k).drainAt = s.beat) ∧
      (v.getLsbD k = true → (getOct t k).st = (getOct s k).st ∧ (getOct t k).downReq = false) := by
  obtain ⟨only, each⟩ := eachOct (f := fun s k => if v.getLsbD k then modOct s k fun o => { o with downReq := false } else startDrain s k false) (fun s k _ => by
    split
    · exact ⟨rfl, fun _ other => getOct_modOct_ne other _⟩
    · exact startDrain_one s k) s
  refine ⟨only, fun k h => ?_⟩
  obtain ⟨u, frame, before, after⟩ := each k h
  have beat : u.beat = s.beat := (congrArg State.beat frame :)
  rw [after]
  refine ⟨fun off live => ?_, fun on => ?_⟩
  · rw [if_neg (by rw [off]; exact Bool.false_ne_true), startDrain_ordered, if_pos (by rw [before]; exact live), getOct_modOct h]
    exact ⟨rfl, beat⟩
  · rw [if_pos on, getOct_modOct h, before]
    exact ⟨rfl, rfl⟩

/-- FCH_OCT_POWER is stored, the LIVE octs whose bit is clear drain, and no stop of one whose bit is set stands (R307, R308). -/
theorem octPower_powers (s : State) (v : BitVec 64) : nvVal (octPower s v) 0x08000001 = v.toNat ∧
    ∀ k < 16, (v.getLsbD k = false → (getOct s k).st = .live → (getOct (octPower s v) k).st = .draining ∧ (getOct (octPower s v) k).drainAt = s.beat) ∧
      (v.getLsbD k = true → (getOct (octPower s v) k).st = (getOct s k).st ∧ (getOct (octPower s v) k).downReq = false) := by
  obtain ⟨s1, h1⟩ : ∃ s1, s1 = storeNv s 0x08000001 v := ⟨_, rfl⟩
  have first : nvVal s1 0x08000001 = v.toNat ∧ s1.beat = s.beat ∧ ∀ k, getOct s1 k = getOct s k := by
    rw [h1]
    refine ⟨?_, rfl, fun _ => rfl⟩
    unfold nvVal storeNv State.updNv
    rw [assoc_get_set, if_pos rfl]
  obtain ⟨value, beat, octs⟩ := first
  obtain ⟨only, asks⟩ := octPower_asks s1 v
  obtain ⟨s2, h2⟩ : ∃ s2, s2 = (List.range 16).foldl (fun s k => if v.getLsbD k then modOct s k fun o => { o with downReq := false } else startDrain s k false) s1 := ⟨_, rfl⟩
  rw [← h2] at only asks
  obtain ⟨s3, h3⟩ : ∃ s3, s3 = s2.updFlash fun f => { f with octs := f.octs.mapFinIdx fun k o _ =>
    if !(v.getLsbD k) && o.st == .dark then { o with req := false, retryAt := none } else o } := ⟨_, rfl⟩
  have only3 : OctsOnly s2 s3 := by
    rw [h3]
    rfl
  have same3 : ∀ k < 16, (getOct s3 k).st = (getOct s2 k).st ∧ (getOct s3 k).drainAt = (getOct s2 k).drainAt ∧ (getOct s3 k).downReq = (getOct s2 k).downReq := fun k h => by
    rw [h3, getOct_mapAll h fun k o => if !(v.getLsbD k) && o.st == .dark then { o with req := false, retryAt := none } else o]
    split <;> exact ⟨rfl, rfl, rfl⟩
  obtain ⟨only4, starts⟩ := startLeases_starts s3
  have run : octPower s v = startLeases s3 (List.range 16) := by
    rw [h3, h2, h1]
    rfl
  rw [← run] at only4 starts
  have same4 : ∀ k < 16, (getOct (octPower s v) k).st = (getOct s3 k).st ∧ (getOct (octPower s v) k).drainAt = (getOct s3 k).drainAt ∧
      (getOct (octPower s v) k).downReq = (getOct s3 k).downReq := fun k h => by
    rw [starts k h]
    split <;> exact ⟨rfl, rfl, rfl⟩
  have all := octsOnly_trans only (octsOnly_trans only3 only4)
  refine ⟨(nvVal_only all _).trans value, fun k h => ?_⟩
  obtain ⟨st3, drain3, down3⟩ := same3 k h
  obtain ⟨st4, drain4, down4⟩ := same4 k h
  obtain ⟨drains, stays⟩ := asks k h
  rw [octs k, beat] at drains
  rw [octs k] at stays
  rw [st4, drain4, down4, st3, drain3, down3]
  exact ⟨drains, stays⟩

/-- FCH_OWN_MODE: the leases of the DARK octs that are not switched end, and those now due start (R304). -/
theorem ownMode_leases {s : State} {k : Nat} {o : Oct} (h : k < 16)
    (before : (if (getOct s k).st = .dark ∧ octSwitched s k = false then { getOct s k with req := false, retryAt := none } else getOct s k) = o) :
    getOct (ownMode s) k = if (leaseDue s k && !o.req && o.retryAt.isNone) = true then { o with req := true, leaseAt := s.beat, retryAt := none } else o := by
  obtain ⟨u, hu⟩ : ∃ u, u = s.updFlash fun f => { f with octs := f.octs.mapFinIdx fun k o _ =>
    if o.st == .dark && !(octSwitched s k) then { o with req := false, retryAt := none } else o } := ⟨_, rfl⟩
  have own : getOct u k = o := by
    rw [hu, getOct_mapAll h fun k o => if o.st == .dark && !(octSwitched s k) then { o with req := false, retryAt := none } else o]
    rw [← before]
    simp
  have stands : o.st = (getOct s k).st ∧ o.switched = (getOct s k).switched := by
    rw [← before]
    split <;> exact ⟨rfl, rfl⟩
  have due : leaseDue u k = leaseDue s k := by
    have nv : ∀ id, nvVal u id = nvVal s id := fun id => by rw [hu]; rfl
    have twin : u.twin = s.twin := by rw [hu]; rfl
    unfold leaseDue octSwitched octWanted octAssigned sided octSideB
    rw [own, stands.1, stands.2]
    simp only [nv, twin]
  have beat : u.beat = s.beat := by rw [hu]; rfl
  have run : ownMode s = startLeases u (List.range 16) := by
    rw [hu]
    rfl
  rw [run, (startLeases_starts u).2 k h, due, own, beat]

theorem actDue_one {s : State} {id : Nat} {v : BitVec 64} (due : s.due = [(id, v)]) : actDue s = dueActs { s with due := [] } id v := by
  unfold actDue
  rw [due]
  rfl

/-! ### Grants -/

/-- A toggling oct whose grant did not come in time stops toggling, and a takeover with no oct left to ask for ends SOLO (R317). -/
theorem execGrantWaitTimeout_runs {s : State} {k : Nat} (h : k < 16) (req : (getOct s k).req = true) (gnt : (getOct s k).gnt = false)
    (late : (getOct s k).leaseAt + nvVal s 0x0800000C ≤ s.beat) : exec (.grantWaitTimeout k) s = .next (
      let s1 := modOct s k fun o => { o with req := false }
      if sided s ∧ s.twin.takeoverAt.isSome ∧ s.twin.st ≠ .covering ∧ s.twin.st ≠ .recovering ∧
          !(sideOcts s1 (!s.twin.side)).any fun j => (getOct s1 j).req || (getOct s1 j).gnt then
        (toSolo s1 true).updTwin fun t => { t with lastTakeover := 3 }
      else s1) := by
  refine congrArg Host.Outcome.next (if_neg ?_)
  rintro (big | no | yes | early)
  · omega
  · simp [req] at no
  · exact Bool.false_ne_true (gnt.symm.trans yes)
  · omega

/-- Settles O45: grants and their loss by the oct's lease, a wait by the takeover under way, and each setting by what its due value does. -/
theorem leases : Obligations.Leases := by
  unfold Obligations.Leases
  refine ⟨?grant, ?takes, ?noGrant, ?stops, ?solo, ?others, ?waits, ?ended, ?endsPowered, ?lostDark, ?lostPowered, ?noLoss, ?retries, ?gives, ?noRetry, ?early,
    ?powerSet, ?powerDue, ?powers, ?faultSet, ?keeps, ?modeDue, ?unswitched, ?starts, ?faultDue⟩
  case grant =>
    intro s k h req gnt idle
    refine octTo_of_modOct (f := fun o => { o with gnt := true }) h (congrArg Host.Outcome.next ((if_neg ?_).trans (if_neg ?_)))
    · rintro (big | no | yes)
      · omega
      · simp [req] at no
      · exact Bool.false_ne_true (gnt.symm.trans yes)
    · rintro ⟨-, -, takeover, -⟩
      simp [idle] at takeover
  case takes =>
    intro s k h req gnt sided_ other takeover solo
    refine congrArg Host.Outcome.next ((if_neg ?_).trans (if_pos ⟨sided_, other, takeover, ?_, ?_⟩))
    · rintro (big | no | yes)
      · omega
      · simp [req] at no
      · exact Bool.false_ne_true (gnt.symm.trans yes)
    · rw [solo]; exact fun h => nomatch h
    · rw [solo]; exact fun h => nomatch h
  case noGrant =>
    intro s k why
    refine congrArg Host.Outcome.next (if_pos ?_)
    rcases why with big | no | yes
    · exact .inl big
    · exact .inr (.inl (by simp [no]))
    · exact .inr (.inr yes)
  case stops =>
    intro s k h req gnt late idle
    refine octTo_of_modOct (f := fun o => { o with req := false }) h ((execGrantWaitTimeout_runs h req gnt late).trans (congrArg Host.Outcome.next (if_neg ?_)))
    rintro ⟨-, takeover, -⟩
    simp [idle] at takeover
  case solo =>
    intro s k h req gnt late sided_ takeover solo noOther
    obtain ⟨u, hu⟩ : ∃ u, u = modOct s k fun o => { o with req := false } := ⟨_, rfl⟩
    have own : getOct u k = { getOct s k with req := false } := (congrArg (getOct · k) hu).trans (getOct_modOct h _)
    have rest : ∀ j, j ≠ k → getOct u j = getOct s j := fun j other => (congrArg (getOct · j) hu).trans (getOct_modOct_ne other _)
    have sides : ∀ j, octSideB u j = octSideB s j := fun j => by rw [hu]; rfl
    have run := execGrantWaitTimeout_runs h req gnt late
    dsimp only at run
    rw [← hu, if_pos] at run
    · have octs : ∀ b, (toSolo u b).flash.octs = u.flash.octs := fun b => by
        unfold toSolo
        rw [setTwin_frame]
        rfl
      refine ⟨_, run, (congrArg Oct.req (getOct_of_octs (s := u) (octs true) k)).trans (by rw [own]), ?_, ?_, rfl, ?_⟩
      · exact (congrArg Twin.st (toSolo_twin u true)).trans rfl
      · exact (congrArg Twin.takeoverAt (toSolo_twin u true)).trans rfl
      · exact (congrArg Twin.stale (toSolo_twin u true)).trans (Bool.or_true _)
    · refine ⟨sided_, takeover, by rw [solo]; decide, by rw [solo]; decide, ?_⟩
      simp only [Bool.not_eq_true', List.any_eq_false]
      intro j hj
      obtain ⟨small, side⟩ := List.mem_filter.mp hj
      rw [sides] at side
      by_cases mine : j = k
      · rw [mine, own]
        simp [gnt]
      · rw [rest j mine]
        obtain ⟨noReq, noGnt⟩ := noOther j (List.mem_range.mp small) mine (by intro e; rw [e] at side; revert side; cases s.twin.side <;> exact fun h => nomatch h)
        simp [noReq, noGnt]
  case others =>
    intro s k j h req gnt late sided_ takeover small away side asks
    refine octTo_of_modOct (f := fun o => { o with req := false }) h ((execGrantWaitTimeout_runs h req gnt late).trans (congrArg Host.Outcome.next (if_neg ?_)))
    rintro ⟨-, -, -, -, none_⟩
    simp only [Bool.not_eq_true', List.any_eq_false] at none_
    have mem : j ∈ sideOcts (modOct s k fun o => { o with req := false }) (!s.twin.side) := by
      refine List.mem_filter.mpr ⟨List.mem_range.mpr small, beq_iff_eq.mpr ?_⟩
      show octSideB s j = _
      revert side
      cases octSideB s j <;> cases s.twin.side <;> simp
    refine none_ j mem ?_
    rw [getOct_modOct_ne away]
    rcases asks with h | h <;> simp [h]
  case waits =>
    intro s k why
    refine congrArg Host.Outcome.next (if_pos ?_)
    rcases why with early | big | no | yes
    · exact .inr (.inr (.inr early))
    · exact .inl big
    · exact .inr (.inl (by simp [no]))
    · exact .inr (.inr (.inl yes))
  case ended =>
    intro s k h gnt req off
    have run : exec (.grantLoss k) s = .next (if (getOct s k).switched then faultDown (modOct s k fun o => { o with gnt := false }) k else modOct s k fun o => { o with gnt := false }) :=
      congrArg Host.Outcome.next ((if_neg (by simp [gnt])).trans (if_pos (by simp [req])))
    refine octTo_of_modOct (f := fun o => { o with gnt := false }) h (run.trans (congrArg Host.Outcome.next ?_))
    split
    next on =>
      refine if_pos ?_
      rw [getOct_modOct h]
      exact off.resolve_left fun unswitched => Bool.false_ne_true (unswitched.symm.trans on)
    next => rfl
  case endsPowered =>
    intro s k h gnt req on st
    obtain ⟨u, hu⟩ : ∃ u, u = modOct s k fun o => { o with gnt := false } := ⟨_, rfl⟩
    have own : getOct u k = { getOct s k with gnt := false } := (congrArg (getOct · k) hu).trans (getOct_modOct h _)
    have losses : u.flash.grantLosses = s.flash.grantLosses := by rw [hu]; rfl
    have run : exec (.grantLoss k) s = .next (goDark u k) := by
      rw [hu]
      exact congrArg Host.Outcome.next ((if_neg (by simp [gnt])).trans ((if_pos (by simp [req])).trans ((if_pos on).trans (if_neg (by rw [getOct_modOct h]; exact st)))))
    obtain ⟨dark, mine, others, -, losses'⟩ := goDark_darkens (s := u) h
    exact ⟨_, run, dark, by rw [mine, own], losses'.trans losses, fun j other => (others j other).trans ((congrArg (getOct · j) hu).trans (getOct_modOct_ne other _))⟩
  case lostDark =>
    intro s k h gnt req st
    obtain ⟨u, hu⟩ : ∃ u, u = modOct s k fun o => { o with gnt := false } := ⟨_, rfl⟩
    have own : getOct u k = { getOct s k with gnt := false } := (congrArg (getOct · k) hu).trans (getOct_modOct h _)
    have losses : u.flash.grantLosses = s.flash.grantLosses := by rw [hu]; rfl
    have stays : faultDown u k = u := if_pos (by rw [own]; exact st)
    have run : exec (.grantLoss k) s = .next ((modOct (faultDown u k) k fun o => { o with req := false, retryAt := some (s.beat + 250000) }).updFlash fun f =>
        { f with grantLosses := satAdd f.grantLosses 1 }) := by
      rw [hu]
      exact congrArg Host.Outcome.next ((if_neg (by simp [gnt])).trans (if_neg (by simp [req])))
    rw [stays] at run
    refine ⟨_, run, ?_, by rw [← losses]; rfl, fun j other => (getOct_modOct_ne (s := u) other fun o => { o with req := false, retryAt := some (s.beat + 250000) }).trans ?_⟩
    · exact (getOct_modOct (s := u) h fun o => { o with req := false, retryAt := some (s.beat + 250000) }).trans (by rw [own])
    · exact (congrArg (getOct · j) hu).trans (getOct_modOct_ne other _)
  case lostPowered =>
    intro s k h gnt req st
    obtain ⟨u, hu⟩ : ∃ u, u = modOct s k fun o => { o with gnt := false } := ⟨_, rfl⟩
    have own : getOct u k = { getOct s k with gnt := false } := (congrArg (getOct · k) hu).trans (getOct_modOct h _)
    have losses : u.flash.grantLosses = s.flash.grantLosses := by rw [hu]; rfl
    have down : faultDown u k = goDark u k := if_neg (by rw [own]; exact st)
    have run : exec (.grantLoss k) s = .next ((modOct (faultDown u k) k fun o => { o with req := false, retryAt := some (s.beat + 250000) }).updFlash fun f =>
        { f with grantLosses := satAdd f.grantLosses 1 }) := by
      rw [hu]
      exact congrArg Host.Outcome.next ((if_neg (by simp [gnt])).trans (if_neg (by simp [req])))
    obtain ⟨⟨dst, vcc, vccq, dies⟩, mine, others, -, losses'⟩ := goDark_darkens (s := u) h
    rw [down] at run
    clear down
    obtain ⟨v, hv⟩ : ∃ v, v = goDark u k := ⟨_, rfl⟩
    rw [← hv] at run dst vcc vccq dies mine others losses'
    clear hv
    have last : getOct ((modOct v k fun o => { o with req := false, retryAt := some (s.beat + 250000) }).updFlash fun f => { f with grantLosses := satAdd f.grantLosses 1 }) k =
        { getOct v k with req := false, retryAt := some (s.beat + 250000) } := getOct_modOct (s := v) h fun o => { o with req := false, retryAt := some (s.beat + 250000) }
    refine ⟨_, run, ⟨?_, ?_, ?_, dies⟩, ?_, ?_, ?_, by rw [← losses, ← losses']; rfl, fun j other => ?_⟩
    · rw [last]; exact dst
    · rw [last]; exact vcc
    · rw [last]; exact vccq
    · rw [last, mine, own]
    · rw [last]
    · rw [last]
    · exact (getOct_modOct_ne (s := v) other fun o => { o with req := false, retryAt := some (s.beat + 250000) }).trans
        ((others j other).trans ((congrArg (getOct · j) hu).trans (getOct_modOct_ne other _)))
  case noLoss => exact fun s k gnt => congrArg Host.Outcome.next (if_pos (by simp [gnt]))
  case retries =>
    intro s k b h at_ late due
    refine octTo_of_modOct (f := fun o => { o with req := true, leaseAt := s.beat, retryAt := none }) h ?_
    refine congrArg Host.Outcome.next ?_
    dsimp only
    rw [at_]
    exact (if_neg (by omega)).trans (if_pos due)
  case gives =>
    intro s k b h at_ late due
    refine octTo_of_modOct (f := fun o => { o with retryAt := none }) h (congrArg Host.Outcome.next ?_)
    dsimp only
    rw [at_]
    exact (if_neg (by omega)).trans (if_neg (by rw [due]; exact Bool.false_ne_true))
  case noRetry =>
    intro s k at_
    refine congrArg Host.Outcome.next ?_
    dsimp only
    rw [at_]
  case early =>
    intro s k b at_ soon
    refine congrArg Host.Outcome.next ?_
    dsimp only
    rw [at_]
    exact if_pos soon
  case powerSet =>
    intro s c x i v waits
    refine congrArg Host.Outcome.next ?_
    rw [waits]
  case powerDue => exact fun s v due => (actDue_one due).trans (if_pos rfl)
  case powers =>
    rintro s v t rfl
    exact octPower_powers s v
  case faultSet =>
    intro s c x i v waits
    refine congrArg Host.Outcome.next ?_
    rw [waits]
  case keeps =>
    intro s k h _
    rw [(goDark_darkens (s := s) h).2.1]
    exact ⟨rfl, rfl⟩
  case modeDue => exact fun s v due => (actDue_one due).trans ((if_neg (by decide)).trans ((if_neg (by decide)).trans (if_pos rfl)))
  case unswitched =>
    intro s k h st off
    have notDue : leaseDue s k = false := by
      unfold leaseDue
      simp [off]
    rw [ownMode_leases h (if_pos ⟨st, off⟩), notDue]
    exact ⟨rfl, rfl⟩
  case starts =>
    intro s k h st due req retry
    have on : ¬ ((getOct s k).st = .dark ∧ octSwitched s k = false) := by
      rintro ⟨-, off⟩
      unfold leaseDue at due
      simp [off] at due
    refine (ownMode_leases h (if_neg on)).trans ((if_pos (by simp [due, req, retry])).trans ?_)
    generalize getOct s k = o at retry
    cases o
    cases retry
    rfl
  case faultDue => exact fun s v due => (actDue_one due).trans ((if_neg (by decide)).trans (if_pos rfl))

end Sys2Proof.Proofs

end


section
/-! PROOF. O46: the frames of the punty link. -/

namespace Sys2Proof.Proofs

open Sys2Proof Sys2Proof.Machine Sys2Proof.Safety Sys2Proof.Laws

/-! ### Frames of the link -/

/-- A frame that is fresh is received once, and then does its work (R372). -/
theorem recvFrame_fresh {s : State} {p : Nat} (fresh : Fresh s p) (f : State → State) : recvFrame s p f = f (got s p) := by
  refine if_neg ?_
  simp [fresh.1, fresh.2]

theorem recvFrame_stale {s : State} {p : Nat} (stale : puntyUp s = false ∨ p ≤ s.twin.rxPseq) (f : State → State) : recvFrame s p f = s := by
  refine if_pos ?_
  rcases stale with h | h <;> simp [h]

/-- What a frame sent changes: the link's PSEQ and the engines that pace it. -/
theorem sendAck_frame (s : State) : sendAck s = { s with twin := { s.twin with txPseq := s.twin.txPseq + 1 }, movers := (sendAck s).movers } := rfl

theorem sendAck_mapped (s : State) : mapped (sendAck s) = mapped s := rfl

theorem copyEntry_xlat (s : State) (i : Nat) (l : Loc) (k : Nat) : (copyEntry s i l k).xlat = s.xlat.setMap i l := by
  unfold copyEntry
  dsimp only
  split <;> rfl

/-- An entry set, and every other as it was. -/
theorem mapGet_setMap {s t : State} {x : Xlat} {i : Nat} {l : Loc} (map : t.xlat.map = (x.setMap i l).map) (rest : ∀ j, j ≠ i → Assoc.get x.map j = Assoc.get s.xlat.map j) :
    mapGet t i = l ∧ ∀ j, j ≠ i → mapGet t j = mapGet s j := by
  unfold mapGet
  rw [map]
  exact ⟨setMap_same .., fun j other => by rw [setMap_other _ _ other, rest j other]⟩

theorem raiseSeq_above (s : State) (q : Nat) : raiseSeq s q = { s with xlat := { s.xlat with seq := (raiseSeq s q).xlat.seq } } ∧ q < (raiseSeq s q).xlat.seq ∧
    s.xlat.seq ≤ (raiseSeq s q).xlat.seq := by
  refine ⟨rfl, Nat.lt_of_lt_of_le ?_ (Nat.le_max_right _ _), Nat.le_max_left _ _⟩
  split <;> omega

/-! ### Journal records of the twin -/

/-- What the records of the twin leave, an NS_CREATE that side B answers aside. -/
def linkView (s : State) := (s.xlat.staging, s.twin.rxPseq, s.twin.txPseq, s.twin.side, s.ctxs)

theorem copyEntry_linkView (s : State) (i : Nat) (l : Loc) (k : Nat) : linkView (copyEntry s i l k) = linkView s := by
  unfold copyEntry
  dsimp only
  split <;> rfl

theorem mirrorToMedia_keeps {β : Type} (v : State → β) (keeps : ∀ s f, v (State.updMedia s f) = v s) (s : State) (n : Namespace) (i psa seq : Nat) :
    v (mirrorToMedia s n i psa seq) = v s := by
  unfold mirrorToMedia
  split
  · exact foldl_keeps (f := fun (s : State) (h : GatherSlot) => s.updMedia fun m =>
      { m with slots := Assoc.set m.slots (psa + h.part) { gatherRec s h with seq := seq, verified := true } }) v (fun s _ => keeps s _) _ s
  · rfl

theorem takeTwinNs_linkView {s : State} (side : s.twin.side = false) (j : JRecord) : linkView (takeTwinNs s j) = linkView s := by
  unfold takeTwinNs
  dsimp only
  rw [side]
  exact ite_agree linkView rfl rfl

theorem applyTwinRec_linkView {s : State} {j : JRecord} (side : s.twin.side = false ∨ j.typ ≠ .nsCreate) : linkView (applyTwinRec s j) = linkView s := by
  unfold applyTwinRec
  dsimp only
  cases typ : j.typ <;> dsimp only
  case map =>
    split
    next n _ =>
      exact foldl_keeps (f := fun (s : State) (k : Nat) => copyEntry (mirrorToMedia s n (mapIdx n (j.lba + k)) (j.value % 2 ^ 38 + k * n.gslots) j.seq)
        (mapIdx n (j.lba + k)) (.media (j.value % 2 ^ 38 + k * n.gslots)) n.gslots) linkView
        (fun s k => (copyEntry_linkView ..).trans (mirrorToMedia_keeps linkView (fun _ _ => rfl) ..)) _ s
    next => rfl
  case unmap =>
    split
    next n _ =>
      exact foldl_keeps (f := fun (s : State) (k : Nat) => copyEntry (supersede s (mapIdx n (j.lba + k))) (mapIdx n (j.lba + k)) .unmapped n.gslots) linkView
        (fun s k => (copyEntry_linkView ..).trans rfl) _ s
    next => rfl
  case nsCreate => exact takeTwinNs_linkView (side.resolve_right fun h => h typ) j
  case unrecov => split <;> rfl
  case nsDelete => split <;> rfl

theorem applyTwinRecs_linkView {l : List JRecord} (s : State) (side : s.twin.side = false ∨ ∀ j ∈ l, j.typ ≠ .nsCreate) : linkView (l.foldl applyTwinRec s) = linkView s := by
  induction l generalizing s with
  | nil => rfl
  | cons j l ih =>
    have first := applyTwinRec_linkView (s := s) (j := j) (side.imp_right fun h => h j (List.mem_cons_self ..))
    have same : (applyTwinRec s j).twin.side = s.twin.side := congrArg (fun v => v.2.2.2.1) first
    rw [List.foldl_cons, ih _ (by rw [same]; exact side.imp_right fun h k hk => h k (List.mem_cons_of_mem _ hk)), first]

theorem execJrec_runs {s : State} {p : Nat} {l : List (List Byte)} (fresh : Fresh s p) : exec (.jrec p l) s =
    .next (sendAck ((l.filterMap JRecord.ofBytes).foldl applyTwinRec ((got s p).updXlat fun x => { x with staging := x.staging ++ l.filterMap JRecord.ofBytes }))) :=
  congrArg Host.Outcome.next (recvFrame_fresh fresh _)

theorem execJrec_one {s : State} {p : Nat} {l : List (List Byte)} {j : JRecord} (fresh : Fresh s p) (one : l.filterMap JRecord.ofBytes = [j]) :
    exec (.jrec p l) s = .next (sendAck (applyTwinRec ((got s p).updXlat fun x => { x with staging := x.staging ++ [j] }) j)) := by
  rw [execJrec_runs fresh, one]
  rfl

/-- A MAP record of one granule sets its entry. -/
theorem applyTwinRec_map {s : State} {j : JRecord} {n : Namespace} (typ : j.typ = .map) (count : j.count ≤ 1) (ns : getNs s j.nsid = some n) :
    (applyTwinRec s j).xlat.map = (s.xlat.setMap (mapIdx n j.lba) (.media (j.value % 2 ^ 38))).map := by
  have one : max j.count 1 = 1 := by omega
  have run : applyTwinRec s j = copyEntry (mirrorToMedia s n (mapIdx n j.lba) (j.value % 2 ^ 38) j.seq) (mapIdx n j.lba) (.media (j.value % 2 ^ 38)) n.gslots := by
    unfold applyTwinRec
    dsimp only
    rw [typ, ns]
    dsimp only
    rw [one]
    simp
  rw [run, copyEntry_xlat, mirrorToMedia_keeps State.xlat (fun _ _ => rfl)]

theorem getNs_putNs {s : State} {n : Namespace} (free : ∀ k ∈ s.xlat.nss, k.nsid ≠ n.nsid) (i : Nat) : getNs (putNs s n) i = if i = n.nsid then some n else getNs s i :=
  find_insertBy Namespace.nsid n i s.xlat.nss (List.find?_eq_none.mpr fun k hk => by simpa using free k hk)

/-- A create that fails by the twin's: its POST is to come with that status (R377). -/
theorem failCreate_posts {s : State} {x z : Ctx} (found : getCtx s x.c = some z) (nsid epoch : Nat) (st : BitVec 16) (d : BitVec 8) :
    (failCreate s x nsid epoch st d).xlat = s.xlat ∧ ∃ y, getCtx (failCreate s x nsid epoch st d) x.c = some y ∧ y.wait = .posting ∧ y.status = st ∧ y.detail = d := by
  obtain ⟨u, hu⟩ : ∃ u, u = tellKey ((destroyKey s nsid epoch).updSec fun k => { k with keyable := k.keyable.filter (· != nsid) }) nsid 0 epoch := ⟨_, rfl⟩
  have view : keyView u = keyView ((destroyKey s nsid epoch).updSec fun k => { k with keyable := k.keyable.filter (· != nsid) }) := by
    rw [hu]
    exact tellKey_keyView ..
  have ctxs : u.ctxs = s.ctxs := congrArg (fun v => v.1) view
  have xlat : u.xlat = s.xlat := congrArg (fun v => v.2.1) view
  have found : getCtx u x.c = some z := by
    rw [getCtx, ctxs]
    exact found
  obtain ⟨l, waits, -⟩ := awaitMirror_waits (s0 := s) found
  have run : failCreate s x nsid epoch st d = residentPost (awaitMirror s u x.c) x.c st d 0 := by
    rw [hu]
    rfl
  rw [run]
  exact ⟨(ite_agree State.xlat rfl rfl : (awaitMirror s u x.c).xlat = u.xlat).trans xlat, _, getCtx_residentPost waits _ _ _, rfl, rfl, rfl⟩

/-- An NS_CREATE whose namespace claims what none has. -/
theorem takeTwinNs_free {s : State} {j : JRecord} (free : s.xlat.nss.filter (claimsSame j) = []) : takeTwinNs s j = putNs s (twinNs s j) := by
  unfold takeTwinNs
  dsimp only
  rw [free]
  rfl

theorem claimsSame_nsid {j : JRecord} {n : Namespace} (h : n.nsid = j.nsid) : claimsSame j n = true := by
  unfold claimsSame
  simp [h]

/-- An NS_CREATE that this side A, or one with a namespace of its own that stands, does not take. -/
theorem takeTwinNs_refused {s : State} {j : JRecord} (side : s.twin.side = false) (claimed : s.xlat.nss.filter (claimsSame j) ≠ []) : takeTwinNs s j = s := by
  unfold takeTwinNs
  dsimp only
  rw [side, if_neg (by simpa using claimed)]
  exact if_neg (by simp)

/-- An NS_CREATE of side A in place of the one namespace of its NSID that this side B is creating (R377). -/
theorem takeTwinNs_yields {s : State} {j : JRecord} {n : Namespace} {x : Ctx} (side : s.twin.side = true) (claimed : s.xlat.nss.filter (claimsSame j) = [n])
    (same : n.nsid = j.nsid) (creator : creatorOf s n = some x) :
    getNs (takeTwinNs s j) j.nsid = some (twinNs s j) ∧ ∃ y, getCtx (takeTwinNs s j) x.c = some y ∧ y.wait = .posting ∧ y.status = St.state ∧ y.detail = 2 := by
  have run : takeTwinNs s j = yieldNs j (putNs (s.updXlat fun x => { x with nss := x.nss.filter fun n => !claimsSame j n }) (twinNs s j)) (n, x, nsEpoch s n.nsid) := by
    unfold takeTwinNs
    dsimp only
    rw [claimed, side]
    simp [creator]
  obtain ⟨u, hu⟩ : ∃ u, u = stageOwn (putNs (s.updXlat fun x => { x with nss := x.nss.filter fun n => !claimsSame j n }) (twinNs s j))
    (if n.cseq < j.seq then [jrec .nsDelete 0 n.nsid 0 0 j.seq 0, j] else []) := ⟨_, rfl⟩
  have yields : takeTwinNs s j = failCreate u x n.nsid (nsEpoch s n.nsid) St.state 2 := by
    rw [run, hu]
    exact if_pos same
  have ns : getNs u j.nsid = some (twinNs s j) := by
    rw [hu]
    refine (getNs_putNs (s := s.updXlat fun x => { x with nss := x.nss.filter fun n => !claimsSame j n }) (n := twinNs s j) (fun k hk e => ?_) j.nsid).trans (if_pos rfl)
    have away := (List.mem_filter.mp hk).2
    rw [claimsSame_nsid e] at away
    cases away
  obtain ⟨z, found⟩ : ∃ z, getCtx u x.c = some z := by
    have ctxs : u.ctxs = s.ctxs := by rw [hu]; rfl
    obtain ⟨a, -, find⟩ := Option.bind_eq_some_iff.mp creator
    rw [getCtx, ctxs, ← Option.isSome_iff_exists, List.find?_isSome]
    exact ⟨x, List.mem_of_find?_eq_some find, beq_iff_eq.mpr rfl⟩
  obtain ⟨xlat, posts⟩ := failCreate_posts found n.nsid (nsEpoch s n.nsid) St.state 2
  rw [yields]
  refine ⟨?_, posts⟩
  rw [getNs, xlat]
  exact ns

/-! ### Granules of the twin -/

/-- A granule that enters the mirror area, held for its group or named by its entry (R379, R385). -/
def mirrors (s : State) (n : Namespace) (m gran seq key : Nat) (tag : BitVec 64) (held : Bool) (bytes : List Byte) : State :=
  s.updTwin fun t => { t with mirror := (t.mirror.filter fun h => !(decide (m ≤ h.slot) && decide (h.slot < m + n.gslots))) ++ granSlots n m gran seq key tag held bytes }

theorem execGather_twins {s : State} {p m gran seq : Nat} {group : Option Nat} {tag : BitVec 64} {bytes : List Byte} {n : Namespace} (fresh : Fresh s p)
    (ns : getNs s n.nsid = some n) (side : n.sideB ≠ s.twin.side) : exec (.gather p group m n.nsid gran seq tag bytes) s = .next (match group with
      | some key => sendAck (mirrors (got s p) n m gran seq key tag true bytes)
      | none => sendAck ((supersede (mirrors (copyEntry (got s p) (mapIdx n gran) .unmapped n.gslots) n m gran seq 0 tag false bytes) (mapIdx n gran)).updXlat fun x =>
          x.setMap (mapIdx n gran) (.gather (gatherSlots + m)))) := by
  refine congrArg Host.Outcome.next ((recvFrame_fresh fresh _).trans ?_)
  dsimp only
  rw [show getNs (got s p) n.nsid = some n from ns]
  refine (if_neg side).trans ?_
  cases group <;> rfl

theorem execGather_own {s : State} {p m gran seq a : Nat} {group : Option Nat} {tag : BitVec 64} {bytes : List Byte} {n : Namespace} (fresh : Fresh s p)
    (ns : getNs s n.nsid = some n) (side : n.sideB = s.twin.side) (room : freeGather s n.gslots = some a) : exec (.gather p group m n.nsid gran seq tag bytes) s =
      .next (sendAck (setEntry (supersede ((got s p).updXlat fun x => { x with gather := x.gather ++ granSlots n a gran seq 65536 tag false bytes }) (mapIdx n gran))
        n gran (.gather a))) := by
  refine congrArg Host.Outcome.next ((recvFrame_fresh fresh _).trans ?_)
  dsimp only
  rw [show getNs (got s p) n.nsid = some n from ns]
  refine (if_pos side).trans ?_
  rw [show freeGather (got s p) n.gslots = some a from room]

/-- The commit of a group with one member. -/
theorem execAcommit_one {s : State} {p k q : Nat} {h : GatherSlot} {n : Namespace} (fresh : Fresh s p) (member : heldMembers s k = [h])
    (ns : getNs s h.nsid = some n) : ∃ u : State, exec (.acommit p k [q]) s = .next (sendAck (u.updTwin fun t => { t with mirror := t.mirror.filter fun h => !(h.atom && h.owner == k) })) ∧
      u.xlat.map = ((s.xlat.setMap (mapIdx n h.gran) .unmapped).setMap (mapIdx n h.gran) (.gather (gatherSlots + h.slot))).map := by
  refine ⟨_, congrArg Host.Outcome.next (recvFrame_fresh fresh _), ?_⟩
  dsimp only
  rw [show heldMembers (got s p) k = [h] from member]
  simp only [List.zip_cons_cons, List.zip_nil_right, List.foldl_cons, List.foldl_nil]
  rw [show getNs (got s p) h.nsid = some n from ns]
  have before := copyEntry_xlat (got s p) (mapIdx n h.gran) .unmapped n.gslots
  obtain ⟨v, hv⟩ : ∃ v, v = copyEntry (got s p) (mapIdx n h.gran) .unmapped n.gslots := ⟨_, rfl⟩
  dsimp only
  rw [← hv] at before ⊢
  show (v.xlat.setMap (mapIdx n h.gran) (.gather (gatherSlots + h.slot))).map = _
  rw [before]
  rfl

/-! ### The twin's map and namespaces -/

/-- The entries of a line taken over in order. -/
theorem syncEntries (b : Nat) (l : List (BitVec 40)) (k : Nat) (s : State) :
    let t := (l.zipIdx k).foldl (fun s e => s.updXlat fun x => x.setMap (b + e.2) (wordLoc e.1.toNat)) s
    t = { s with xlat := { s.xlat with map := t.xlat.map } } ∧
      ∀ i, mapGet t i = if b + k ≤ i ∧ i < b + k + l.length then wordLoc (nth l (i - (b + k)) 0).toNat else mapGet s i := by
  induction l generalizing k s with
  | nil => exact ⟨rfl, fun i => (if_neg (by simp)).symm⟩
  | cons a l ih =>
    intro t
    obtain ⟨frame, look⟩ := ih (k + 1) (s.updXlat fun x => x.setMap (b + k) (wordLoc a.toNat))
    refine ⟨frame, fun i => (look i).trans ?_⟩
    obtain ⟨own, others⟩ := mapGet_setMap (s := s) (t := s.updXlat fun x => x.setMap (b + k) (wordLoc a.toNat)) rfl fun _ _ => rfl
    by_cases at_ : i = b + k
    · rw [at_, if_neg (by omega), if_pos (by simp), own]
      simp [nth]
    · rw [others i at_]
      by_cases in_ : b + (k + 1) ≤ i ∧ i < b + (k + 1) + l.length
      · have later : i - (b + k) = i - (b + (k + 1)) + 1 := by omega
        rw [if_pos in_, if_pos ⟨by omega, by simp; omega⟩, later]
        rfl
      · rw [if_neg in_, if_neg (by simp only [List.length_cons]; omega)]

theorem mem_sortBy {α : Type} (key : α → Nat) (y : α) (l : List α) : y ∈ sortBy key l ↔ y ∈ l := by
  have fold : ∀ (l m : List α), y ∈ l.foldl (fun m x => insertBy key x m) m ↔ y ∈ m ∨ y ∈ l := fun l => by
    induction l with
    | nil => exact fun m => by simp
    | cons x l ih =>
      intro m
      rw [List.foldl_cons, ih, mem_insertBy, List.mem_cons]
      constructor
      · rintro ((rfl | old) | rest)
        · exact .inr (.inl rfl)
        · exact .inl old
        · exact .inr (.inr rest)
      · rintro (old | rfl | rest)
        · exact .inl (.inr old)
        · exact .inl (.inl rfl)
        · exact .inr rest
  exact (fold l []).trans (by simp)

/-- A key destroyed is of no record. -/
theorem destroyKey_gone (s : State) (nsid epoch : Nat) : (destroyKey s nsid epoch).xlat = s.xlat ∧
    ∀ r ∈ (destroyKey s nsid epoch).sec.keyrecs, ¬ (r.nsid = nsid ∧ r.epoch = epoch) := by
  refine ⟨rfl, fun r hr at_ => ?_⟩
  have kept := (List.mem_filter.mp (show r ∈ s.sec.keyrecs.filter _ from hr)).2
  simp [at_] at kept

theorem execKeyx_runs {s : State} {p : Nat} {b : List Byte} (fresh : Fresh s p) (new : field b 4 4 ≠ 0) (stands : ∀ n, getNs s (field b 0 2) = some n → n.creating = none) :
    exec (.keyx p b) s = .next (match openKey s (b.take 12) ((b.drop 12).take 1088) ((b.drop 1100).take 80) with
      | none => got s p
      | some key =>
        let r := recBody (got s p) (field b 0 2) 2 (field b 4 4) key
        let u := addKeyRec (norPut (got s p) 0x0D (recKey (field b 0 2) (field b 4 4)) r) r
        sendAck (if field b 8 4 = 0 then u else destroyKey u (field b 0 2) (field b 8 4))) := by
  refine congrArg Host.Outcome.next ((recvFrame_fresh fresh _).trans ((if_neg new).trans ((if_neg ?_).trans ?_)))
  · show ¬ ((getNs s (field b 0 2)).map fun k => k.creating.isSome).getD false = true
    rcases h : getNs s (field b 0 2) with - | n
    · simp
    · simp [stands n h]
  · rfl

/-- Settles O46: each frame by what it carries and by which side its namespace is of. -/
theorem twinFrames : Obligations.TwinFrames := by
  unfold Obligations.TwinFrames
  refine ⟨?stale, ?ackDown, ?ack, ?hb, ?jrec, ?map, ?create, ?refused, ?yields, ?gather, ?held, ?own, ?commit, ?discard, ?sync, ?nstab, ?notSyncing, ?anchor,
    ?keyGone, ?key, ?keyCreating, ?keyOld, ?cert⟩
  case stale =>
    rintro s p i stale (⟨a, b, rfl⟩ | ⟨l, rfl⟩ | ⟨g, a, b, c, d, e, f, rfl⟩ | ⟨a, l, rfl⟩ | ⟨a, rfl⟩ | ⟨a, l, rfl⟩ | ⟨l, rfl⟩ | ⟨l, rfl⟩ | ⟨l, rfl⟩ | ⟨l, rfl⟩) <;>
      exact congrArg Host.Outcome.next (recvFrame_stale stale _)
  case ackDown => exact fun s p down => congrArg Host.Outcome.next (if_pos (by simp [down]))
  case ack => exact fun s p up => ⟨_, congrArg Host.Outcome.next (if_neg (by simp [up])), rfl, rfl⟩
  case hb =>
    intro s p q a fresh
    obtain ⟨u, hu⟩ : ∃ u, u = (got s p).updTwin fun t => { t with peerSeq := q, peerArmed := a } := ⟨_, rfl⟩
    have twin : u = { s with twin := { s.twin with rxPseq := p, lastFrame := s.beat, peerPresent := true, peerSeq := q, peerArmed := a } } := hu
    have run : exec (.hb p q a) s = .next (if sided s then raiseSeq u q else u) := by
      rw [hu]
      exact congrArg Host.Outcome.next (recvFrame_fresh fresh _)
    by_cases on : sided s = true
    · rw [if_pos on] at run
      obtain ⟨frame, above, grows⟩ := raiseSeq_above u q
      refine ⟨_, run, ?_, ?_, fun _ => above, Nat.le_trans (Nat.le_of_eq (by rw [twin])) grows⟩
      · rw [frame, twin]
      · rw [frame, twin]
    · rw [if_neg on] at run
      refine ⟨_, run, ?_, ?_, fun h => absurd h on, Nat.le_of_eq (by rw [twin])⟩
      · rw [twin]
      · rw [twin]
  case jrec =>
    intro s p l fresh side
    have view := applyTwinRecs_linkView (l := l.filterMap JRecord.ofBytes) ((got s p).updXlat fun x => { x with staging := x.staging ++ l.filterMap JRecord.ofBytes }) side
    obtain ⟨u, hu⟩ : ∃ u, u = (l.filterMap JRecord.ofBytes).foldl applyTwinRec ((got s p).updXlat fun x => { x with staging := x.staging ++ l.filterMap JRecord.ofBytes }) := ⟨_, rfl⟩
    have run := execJrec_runs (l := l) fresh
    rw [← hu] at view run
    simp only [linkView, Prod.mk.injEq] at view
    obtain ⟨staging, rx, tx, -, ctxs⟩ := view
    exact ⟨_, run, staging, rx, congrArg (· + 1) tx, ctxs⟩
  case map =>
    intro s p l j n fresh one typ count ns
    have set := applyTwinRec_map (s := (got s p).updXlat fun x => { x with staging := x.staging ++ [j] }) typ count ns
    obtain ⟨own, others⟩ := mapGet_setMap (s := s) (t := sendAck (applyTwinRec ((got s p).updXlat fun x => { x with staging := x.staging ++ [j] }) j)) set fun _ _ => rfl
    exact ⟨_, execJrec_one fresh one, own, others⟩
  case create =>
    intro s p l j fresh one typ free
    obtain ⟨v, hv⟩ : ∃ v, v = (got s p).updXlat fun x => { x with staging := x.staging ++ [j] } := ⟨_, rfl⟩
    have nss : v.xlat.nss = s.xlat.nss ∧ v.ctxs = s.ctxs ∧ twinNs v j = twinNs s j := by
      rw [hv]
      exact ⟨rfl, rfl, rfl⟩
    obtain ⟨nss, ctxs, same⟩ := nss
    have run := execJrec_one fresh one
    rw [← hv] at run
    have take : applyTwinRec v j = putNs v (twinNs s j) := by
      unfold applyTwinRec
      dsimp only
      rw [typ]
      exact (takeTwinNs_free (by rw [nss]; exact free)).trans (by rw [same])
    rw [take] at run
    have none_ : ∀ k ∈ v.xlat.nss, k.nsid ≠ j.nsid := fun k hk e => by
      rw [nss] at hk
      exact List.filter_eq_nil_iff.mp free k hk (claimsSame_nsid e)
    refine ⟨_, run, (getNs_putNs (n := twinNs s j) none_ j.nsid).trans (if_pos rfl), fun n other => ?_, ctxs⟩
    rw [← nss]
    exact (mem_insertBy Namespace.nsid (twinNs s j) n v.xlat.nss).trans (or_iff_right fun e => other (by rw [e]; rfl))
  case refused =>
    intro s p l j fresh one typ side claimed
    have take : applyTwinRec ((got s p).updXlat fun x => { x with staging := x.staging ++ [j] }) j = (got s p).updXlat fun x => { x with staging := x.staging ++ [j] } := by
      unfold applyTwinRec
      dsimp only
      rw [typ]
      exact takeTwinNs_refused side claimed
    have run := execJrec_one fresh one
    rw [take] at run
    exact ⟨_, run, rfl, rfl⟩
  case yields =>
    intro s p l j n x fresh one typ side claimed same creator
    obtain ⟨ns, y, found, wait, status, detail⟩ := takeTwinNs_yields (s := (got s p).updXlat fun x => { x with staging := x.staging ++ [j] }) side claimed same creator
    have take : applyTwinRec ((got s p).updXlat fun x => { x with staging := x.staging ++ [j] }) j =
        takeTwinNs ((got s p).updXlat fun x => { x with staging := x.staging ++ [j] }) j := by
      unfold applyTwinRec
      dsimp only
      rw [typ]
    have run := execJrec_one fresh one
    rw [take] at run
    obtain ⟨u, hu⟩ : ∃ u, u = takeTwinNs ((got s p).updXlat fun x => { x with staging := x.staging ++ [j] }) j := ⟨_, rfl⟩
    rw [← hu] at run ns found
    exact ⟨_, run, ns, y, found, wait, status, detail⟩
  case gather =>
    intro s p m g q tg b n fresh ns side
    have before := copyEntry_xlat (got s p) (mapIdx n g) .unmapped n.gslots
    have rx : (copyEntry (got s p) (mapIdx n g) .unmapped n.gslots).twin.rxPseq = p := congrArg (fun v => v.2.1) (copyEntry_linkView ..)
    obtain ⟨v, hv⟩ : ∃ v, v = copyEntry (got s p) (mapIdx n g) .unmapped n.gslots := ⟨_, rfl⟩
    have run := execGather_twins (group := none) (m := m) (gran := g) (seq := q) (tag := tg) (bytes := b) fresh ns side
    dsimp only at run
    rw [← hv] at before rx run
    obtain ⟨own, others⟩ := mapGet_setMap (s := s) (t := sendAck ((supersede (mirrors v n m g q 0 tg false b) (mapIdx n g)).updXlat fun x => x.setMap (mapIdx n g) (.gather (gatherSlots + m))))
      rfl fun j other => by
        show Assoc.get v.xlat.map j = _
        rw [before]
        exact setMap_other _ _ other
    exact ⟨_, run, own, others, fun h hh => List.mem_append_right _ hh, rx⟩
  case held =>
    intro s p k m g q tg b n fresh ns side
    exact ⟨_, execGather_twins (group := some k) fresh ns side, rfl, fun h hh => List.mem_append_right _ hh, rfl⟩
  case own =>
    intro s p k m g q tg b n a fresh ns side room
    have view := setEntry_gather (supersede ((got s p).updXlat fun x => { x with gather := x.gather ++ granSlots n a g q 65536 tg false b }) (mapIdx n g)) n g a
    obtain ⟨u, hu⟩ : ∃ u, u = setEntry (supersede ((got s p).updXlat fun x => { x with gather := x.gather ++ granSlots n a g q 65536 tg false b }) (mapIdx n g)) n g (.gather a) := ⟨_, rfl⟩
    have run := execGather_own (group := k) (m := m) (gran := g) (seq := q) (tag := tg) (bytes := b) fresh ns side room
    rw [← hu] at view run
    exact ⟨_, run, mapGet_setMap (s := s) (t := sendAck u) (congrArg Prod.snd view) fun _ _ => rfl⟩
  case commit =>
    intro s p k q h n fresh member ns
    obtain ⟨u, run, set⟩ := execAcommit_one (q := q) fresh member ns
    obtain ⟨own, others⟩ := mapGet_setMap (s := s) (t := sendAck (u.updTwin fun t => { t with mirror := t.mirror.filter fun h => !(h.atom && h.owner == k) })) set fun j other => setMap_other _ _ other
    refine ⟨_, run, own, others, fun g hg at_ => ?_⟩
    have kept := (List.mem_filter.mp (show g ∈ u.twin.mirror.filter _ from hg)).2
    simp [at_] at kept
  case discard =>
    intro s p k fresh
    obtain ⟨u, hu⟩ : ∃ u, u = (got s p).updTwin fun t => { t with mirror := t.mirror.filter fun h => !(h.atom && h.owner == k) } := ⟨_, rfl⟩
    have keeps : u.twin.mirror = s.twin.mirror.filter (fun h => !(h.atom && h.owner == k)) ∧ u.xlat = s.xlat ∧ u.twin.rxPseq = p := by
      rw [hu]
      exact ⟨rfl, rfl, rfl⟩
    have run : exec (.adiscard p k) s = .next (sendAck u) := by
      rw [hu]
      exact congrArg Host.Outcome.next (recvFrame_fresh fresh _)
    exact ⟨_, run, keeps⟩
  case sync =>
    intro s p line l fresh st
    obtain ⟨frame, look⟩ := syncEntries (12 * line) l 0 (got s p)
    exact ⟨_, congrArg Host.Outcome.next ((recvFrame_fresh fresh _).trans (if_neg (not_not_intro st))), frame, look⟩
  case nstab =>
    intro s p l fresh st
    refine ⟨_, congrArg Host.Outcome.next ((recvFrame_fresh fresh _).trans (if_neg (not_not_intro st))), rfl, fun n hn => ?_⟩
    rcases List.mem_append.mp ((mem_sortBy Namespace.nsid n _).mp hn) with old | new
    · obtain ⟨mem, keep⟩ := List.mem_filter.mp old
      simp only [Bool.and_eq_true] at keep
      exact .inl ⟨mem, keep.1⟩
    · obtain ⟨mem, other⟩ := List.mem_filter.mp new
      obtain ⟨r, hr, rfl⟩ := List.mem_map.mp (List.mem_filter.mp mem).1
      exact .inr ⟨⟨r, hr, rfl⟩, show sourceOf (got s p) _ = false by simpa using other⟩
  case notSyncing =>
    rintro s p line l i fresh st (rfl | ⟨r, rfl⟩)
    · exact congrArg Host.Outcome.next ((recvFrame_fresh fresh _).trans (if_pos st))
    · exact congrArg Host.Outcome.next ((recvFrame_fresh fresh _).trans (if_pos st))
  case anchor => exact fun s p b fresh => ⟨_, congrArg Host.Outcome.next (recvFrame_fresh fresh _), rfl, _, rfl, rfl, rfl, rfl, rfl⟩
  case keyGone =>
    intro s p b fresh old
    obtain ⟨xlat, gone⟩ := destroyKey_gone (got s p) (field b 0 2) (field b 8 4)
    have run : exec (.keyx p b) s = .next (sendAck (destroyKey (got s p) (field b 0 2) (field b 8 4))) :=
      congrArg Host.Outcome.next ((recvFrame_fresh fresh _).trans (if_pos old))
    obtain ⟨u, hu⟩ : ∃ u, u = destroyKey (got s p) (field b 0 2) (field b 8 4) := ⟨_, rfl⟩
    rw [← hu] at xlat gone run
    exact ⟨_, run, xlat, gone⟩
  case key =>
    intro s p b fresh new old stands
    have run := execKeyx_runs fresh new stands
    rcases opened : openKey s (b.take 12) ((b.drop 12).take 1088) ((b.drop 1100).take 80) with - | k
    · rw [opened] at run
      exact ⟨_, run, rfl, rfl, fun _ => rfl, fun k h => (nomatch h)⟩
    · rw [opened] at run
      dsimp only at run
      rw [if_pos old] at run
      obtain ⟨log, used, off, frame⟩ := norPut_frame (got s p) 0x0D (recKey (field b 0 2) (field b 4 4)) (recBody (got s p) (field b 0 2) 2 (field b 4 4) k)
      obtain ⟨u, hu⟩ : ∃ u, u = addKeyRec (norPut (got s p) 0x0D (recKey (field b 0 2) (field b 4 4)) (recBody (got s p) (field b 0 2) 2 (field b 4 4) k))
        (recBody (got s p) (field b 0 2) 2 (field b 4 4) k) := ⟨_, rfl⟩
      have keeps : u.xlat = s.xlat ∧ u.twin = (got s p).twin ∧ recOfBody (got s p) (recBody (got s p) (field b 0 2) 2 (field b 4 4) k) ∈ u.sec.keyrecs := by
        rw [hu, frame]
        exact ⟨rfl, rfl, List.mem_append_right _ (List.mem_singleton_self _)⟩
      obtain ⟨xlat, twin, mem⟩ := keeps
      rw [← hu] at run
      clear hu
      refine ⟨_, run, xlat, congrArg Twin.rxPseq twin, fun h => (nomatch h), ?_⟩
      rintro _ ⟨⟩
      exact ⟨mem, (congrArg (fun t : Twin => t.txPseq + 1) twin :)⟩
  case keyCreating =>
    intro s p b n fresh new ns creating
    refine congrArg Host.Outcome.next ((recvFrame_fresh fresh _).trans ((if_neg new).trans (if_pos ?_)))
    show ((getNs s (field b 0 2)).map fun k => k.creating.isSome).getD false = true
    rw [ns]
    exact creating
  case keyOld =>
    rintro s p b k u fresh new stands opened rfl
    rw [execKeyx_runs fresh new stands, opened]
  case cert => exact fun s p b fresh => congrArg Host.Outcome.next (recvFrame_fresh fresh _)

end Sys2Proof.Proofs

end


section
/-! PROOF. O47: attaching to and detaching from the twin. -/

namespace Sys2Proof.Proofs

open Sys2Proof Sys2Proof.Machine Sys2Proof.Safety Sys2Proof.Laws

/-! ### Requests to the twin -/

theorem twinPost_frame (s : State) (c : Option Nat) (st : BitVec 16) (d : BitVec 8) : twinPost s c st d = { s with ctxs := (twinPost s c st d).ctxs } := by
  cases c <;> rfl

theorem endAsked_frame (s : State) (st : BitVec 16) (d : BitVec 8) :
    endAsked s st d = { s with ctxs := (endAsked s st d).ctxs, twin := { s.twin with asked := 0, attachBy := none, detachBy := none } } := by
  unfold endAsked
  rw [twinPost_frame, twinPost_frame s]
  rfl

/-- The TWIN_ATTACH that asked has its POST to come. -/
theorem endAsked_posts {s : State} {c : Nat} {x : Ctx} {st : BitVec 16} {d : BitVec 8} (attach : s.twin.attachBy = some c) (detach : s.twin.detachBy = none)
    (found : getCtx s c = some x) : getCtx (endAsked s st d) c = some { x with wait := .posting, status := st, detail := d, result := 0 } := by
  unfold endAsked
  rw [attach, detach]
  exact getCtx_residentPost found st d 0

/-- The pair synchronises from the first line, by the epochs the twin told (R378). -/
theorem startSync_starts (s : State) (a b : Nat) : ∃ served,
    (startSync s a b).twin = { s.twin with st := .syncing, peerEpochA := a, peerEpochB := b, syncCursor := 0, keysSent := false, readySent := false, readySeen := false,
                                           llDone := false, released := false, handback := s.twin.st == .covering, mirror := [], takeoverAt := none, asked := 0,
                                           served := served } ∧
    (startSync s a b).ctxs = s.ctxs := by
  unfold startSync
  rw [setTwin_frame]
  exact ⟨_, rfl, rfl⟩

theorem startLeases_only (ks : List Nat) (s : State) : OctsOnly s (startLeases s ks) := by
  induction ks generalizing s with
  | nil => rfl
  | cons k ks ih =>
    refine octsOnly_trans ?_ (ih _)
    dsimp only
    split
    · exact (startLease_one s k).1
    · rfl

theorem startTakeover_starts (s : State) (warm : Bool) :
    (startTakeover s warm).twin = { s.twin with takeoverAt := some s.beat, takeoverWarm := warm, scanDone := false } ∧
    (startTakeover s warm).ctxs = s.ctxs.map fun x => { x with mirrorWait := [] } := by
  obtain ⟨u, hu⟩ : ∃ u, u = (dropWaits s).updTwin fun t => { t with takeoverAt := some s.beat, takeoverWarm := warm, scanDone := false } := ⟨_, rfl⟩
  have keeps : u.twin = { s.twin with takeoverAt := some s.beat, takeoverWarm := warm, scanDone := false } ∧ u.ctxs = s.ctxs.map fun x => { x with mirrorWait := [] } := by
    rw [hu]
    exact ⟨rfl, rfl⟩
  have run : startTakeover s warm = startLeases u (sideOcts u (!s.twin.side)) := by
    rw [hu]
    rfl
  have only := startLeases_only (sideOcts u (!s.twin.side)) u
  rw [← run] at only
  exact ⟨(congrArg State.twin only :).trans keeps.1, (congrArg State.ctxs only :).trans keeps.2⟩

/-- A takeover that counts (R381). -/
theorem takeOver_starts (s : State) (warm : Bool) :
    (takeOver s warm).twin = { s.twin with takeovers := satAdd s.twin.takeovers 1, absentAt := some s.beat, takeoverAt := some s.beat, takeoverWarm := warm, scanDone := false } ∧
    ∀ x ∈ (takeOver s warm).ctxs, x.mirrorWait = [] := by
  obtain ⟨twin, ctxs⟩ := startTakeover_starts (s.updTwin fun t => { t with takeovers := satAdd t.takeovers 1, absentAt := some s.beat }) warm
  refine ⟨twin, fun x hx => ?_⟩
  rw [takeOver, ctxs] at hx
  obtain ⟨y, -, rfl⟩ := List.mem_map.mp hx
  rfl

/-! ### The commands -/

/-- A direct op that committed and has its POST to come. -/
theorem posts_committed {i : Instr} {s : State} {c : Nat} {x : Ctx} {st : BitVec 16} {det : BitVec 8} {res : BitVec 64} (found : getCtx s c = some x)
    (run : exec i s = .next (residentPost (commitNow (modCtx s c fun y => { y with snap := 1 }) c) c st det res)) :
    Safety.Posts i s c st det res (fun t => { s with ctxs := t.ctxs }) fun _ => True := by
  refine ⟨_, run, ⟨_, getCtx_residentPost (getCtx_commitNow (getCtx_changed found)) _ _ _, rfl, rfl, rfl, rfl⟩, fun d other => ?_, rfl, trivial⟩
  refine (getCtx_residentPost_other other ..).trans (Eq.trans ?_ (getCtx_modCtx_other s other (fun y => { y with snap := 1 }) fun _ => rfl))
  exact getCtx_modCtx_other _ other _ fun _ => rfl

/-- A first visit of TWIN_ATTACH by the pairing and what stands in its way. -/
theorem execTwinAttach_first {s : State} {c : Nat} {x : Ctx} (h : Resident s c 0x94 4 x) (first : x.snap = 0) : exec (.twinAttach c) s = .next (
    let s1 := commitNow (modCtx s c fun y => { y with snap := 1 }) c
    if s.twin.st = .syncing ∨ s.twin.asked = 1 then residentPost s1 c St.ok 0 0
    else if !puntyUp s || !mayPair s || !(s.twin.st == .solo || s.twin.st == .covering || s.twin.st == .detached) then residentPost s1 c St.state 6 0
    else askAttach s1 (some c)) :=
  exec_resident h rfl (if_neg (not_not_intro first))

theorem execTwinDetach_first {s : State} {c : Nat} {x : Ctx} (h : Resident s c 0x93 4 x) (first : x.snap = 0) : exec (.twinDetach c) s = .next (
    let s1 := commitNow (modCtx s c fun y => { y with snap := 1 }) c
    if s.twin.st ≠ .paired ∨ !puntyUp s ∨ s.twin.asked ≠ 0 then residentPost s1 c St.state 6 0
    else (sendCtrl s1 2).updTwin fun t => { t with asked := 2, detachBy := some c }) :=
  exec_resident h rfl (if_neg (not_not_intro first))

/-! ### CTRL ATTACH -/

/-- Whether an attach may be granted, by what it tells (R378). -/
def grants (s : State) (b : List Nat) : Bool :=
  let v := nth b 1 0
  let mine := (imageOf s s.nor.active).version.toNat
  mayPair s && (s.twin.st == .solo || s.twin.st == .covering || (s.twin.asked == 1 && s.twin.st == .detached)) && s.twin.peerCertOk &&
    decide (nth b 0 0 = nvVal s 0x0B000003) && (decide (verMajor v = verMajor mine) && decide (verMinor v ≤ verMinor mine + 1) && decide (verMinor mine ≤ verMinor v + 1))

theorem execCtrlAttach_runs {s : State} {p : Nat} {b : List Nat} (fresh : Fresh s p) : exec (.ctrlAttach p b) s = .next (
    if grants s b then startSync (endAsked (sendCtrl (sendCert (peerTold (got s p) b)) 3) St.ok 0) (nth b 2 0) (nth b 3 0)
    else sendCtrl (sendCert (peerTold (got s p) b)) 4) :=
  congrArg Host.Outcome.next (recvFrame_fresh fresh _)

theorem sendPunty_link (s : State) (k a b : Nat) (body : List (BitVec 64)) (data : List Host.Cell) :
    (sendPunty s k a b body data).twin = { s.twin with txPseq := s.twin.txPseq + 1 } ∧ (sendPunty s k a b body data).ctxs = s.ctxs := ⟨rfl, rfl⟩

theorem sendCtrl_link (s : State) (k : Nat) : (sendCtrl s k).twin = { s.twin with txPseq := s.twin.txPseq + 1 } ∧ (sendCtrl s k).ctxs = s.ctxs :=
  sendPunty_link (drawFree s).2 ..

theorem sendCert_link (s : State) : (sendCert s).twin = { s.twin with txPseq := s.twin.txPseq + 1 } ∧ (sendCert s).ctxs = s.ctxs := sendPunty_link ..

/-- What is told of an attach and answered to it. -/
theorem answered_keeps (s : State) (p : Nat) (b : List Nat) (k : Nat) :
    let t := sendCtrl (sendCert (peerTold (got s p) b)) k
    t.twin = { (got s p).twin with peerVersion := BitVec.ofNat 32 (nth b 1 0), txPseq := s.twin.txPseq + 2 } ∧ t.ctxs = s.ctxs := by
  obtain ⟨twin, ctxs⟩ := sendCert_link (peerTold (got s p) b)
  obtain ⟨twin', ctxs'⟩ := sendCtrl_link (sendCert (peerTold (got s p) b)) k
  dsimp only
  rw [twin', ctxs', twin, ctxs]
  exact ⟨rfl, rfl⟩

/-- Settles O47: the commands by what stands in their way, the frames by the pairing and by what was asked. -/
theorem twinControl : Obligations.TwinControl := by
  unfold Obligations.TwinControl
  refine ⟨?underWay, ?cannot, ?asks, ?noDetach, ?detach, ?auto_, ?noAuto, ?granted, ?refusedAttach, ?detachFrame, ?grantedAttach, ?grantedDetach, ?refused, ?unasked,
    ?refusedPosts, ?released, ?releasedSync, ?releasedElse, ?ready, ?llDone, ?covering, ?notCovering⟩
  case underWay => exact fun s c x h first on => posts_committed h.ctx ((execTwinAttach_first h first).trans (congrArg Host.Outcome.next (if_pos on)))
  case cannot =>
    intro s c x h first notSync notAsked why
    refine posts_committed h.ctx ((execTwinAttach_first h first).trans (congrArg Host.Outcome.next ((if_neg (by rintro (a | a) <;> contradiction)).trans (if_pos ?_))))
    rcases why with h | h | h | h | h <;> simp [h]
  case asks =>
    intro s c x h first st notAsked up may
    obtain ⟨u, hu⟩ : ∃ u, u = commitNow (modCtx s c fun y => { y with snap := 1 }) c := ⟨_, rfl⟩
    have twin : u.twin = s.twin := by rw [hu]; rfl
    have sent : (sendCtrl (sendCert u) 1).twin = { s.twin with txPseq := s.twin.txPseq + 2 } := by
      rw [(sendCtrl_link _ 1).1, (sendCert_link u).1, twin]
    have run : exec (.twinAttach c) s = .next (askAttach u (some c)) := by
      rw [hu]
      refine (execTwinAttach_first h first).trans (congrArg Host.Outcome.next ((if_neg ?_).trans (if_neg ?_)))
      · rintro (sync | asked)
        · rw [sync] at st
          simp at st
        · exact notAsked asked
      · rcases st with h | h | h <;> simp [up, may, h]
    exact ⟨_, run, rfl, rfl, congrArg Twin.txPseq sent, (congrArg Twin.st sent :)⟩
  case noDetach =>
    intro s c x h first why
    refine posts_committed h.ctx ((execTwinDetach_first h first).trans (congrArg Host.Outcome.next (if_pos ?_)))
    exact why.imp_right (Or.imp_left fun down => by simp [down])
  case detach =>
    intro s c x h first st up asked
    obtain ⟨u, hu⟩ : ∃ u, u = commitNow (modCtx s c fun y => { y with snap := 1 }) c := ⟨_, rfl⟩
    have twin : u.twin = s.twin := by rw [hu]; rfl
    have sent : (sendCtrl u 2).twin = { s.twin with txPseq := s.twin.txPseq + 1 } := by
      rw [(sendCtrl_link u 2).1, twin]
    have run : exec (.twinDetach c) s = .next ((sendCtrl u 2).updTwin fun t => { t with asked := 2, detachBy := some c }) := by
      rw [hu]
      refine (execTwinDetach_first h first).trans (congrArg Host.Outcome.next (if_neg ?_))
      rintro (other | down | busy)
      · exact other st
      · simp [up] at down
      · exact busy asked
    exact ⟨_, run, rfl, rfl, congrArg Twin.txPseq sent, (congrArg Twin.st sent :).trans st⟩
  case auto_ =>
    intro s on st asked wait may up seen
    exact congrArg Host.Outcome.next (if_pos ⟨on, st, asked, by simp [wait], may, up, seen⟩)
  case noAuto =>
    intro s why
    refine congrArg Host.Outcome.next (if_neg ?_)
    rintro ⟨on, st, asked, wait, may, up, seen⟩
    rcases why with h | h | h | h | h | h | h
    · exact h on
    · exact h st
    · exact h asked
    · exact Bool.false_ne_true (h.symm.trans seen)
    · rw [Option.isNone_iff_eq_none] at wait
      simp [wait] at h
    · exact Bool.false_ne_true (h.symm.trans may)
    · exact Bool.false_ne_true (h.symm.trans up)
  case granted =>
    rintro s p b v m fresh rfl rfl may st cert sides major newer older
    have ok : grants s b = true := by
      unfold grants
      rcases st with h | h | ⟨h, asked⟩ <;> simp [*]
    obtain ⟨u, hu⟩ : ∃ u, u = sendCtrl (sendCert (peerTold (got s p) b)) 3 := ⟨_, rfl⟩
    have keeps := answered_keeps s p b 3
    dsimp only at keeps
    rw [← hu] at keeps
    have run : exec (.ctrlAttach p b) s = .next (startSync (endAsked u St.ok 0) (nth b 2 0) (nth b 3 0)) := by
      rw [hu]
      exact (execCtrlAttach_runs fresh).trans (congrArg Host.Outcome.next (if_pos ok))
    obtain ⟨served, twin, -⟩ := startSync_starts (endAsked u St.ok 0) (nth b 2 0) (nth b 3 0)
    have tx : (endAsked u St.ok 0).twin.txPseq = s.twin.txPseq + 2 := by
      rw [endAsked_frame, keeps.1]
    refine ⟨_, run, ?_⟩
    dsimp only
    rw [twin]
    exact ⟨rfl, rfl, rfl, rfl, rfl, rfl, rfl, tx⟩
  case refusedAttach =>
    rintro s p b v m fresh rfl rfl why
    have no : grants s b = false := by
      unfold grants
      rcases why with h | h | h | h | h | h | ⟨a, c, d⟩
      · simp [h]
      · simp [h]
      · simp [h]
      · simp [h]
      · simp [Nat.not_le.mpr h]
      · simp [Nat.not_le.mpr h]
      · have : (s.twin.st == .solo || s.twin.st == .covering || (s.twin.asked == 1 && s.twin.st == .detached)) = false := by
          rcases d with d | d <;> simp [a, c, d]
        simp [this]
    obtain ⟨twin, ctxs⟩ := answered_keeps s p b 4
    have run := (execCtrlAttach_runs (b := b) fresh).trans (congrArg Host.Outcome.next (if_neg (by rw [no]; exact Bool.false_ne_true)))
    exact ⟨_, run, (congrArg Twin.st twin :), (congrArg Twin.asked twin :), (congrArg Twin.txPseq twin :), ctxs⟩
  case detachFrame =>
    intro s p fresh
    refine congrArg Host.Outcome.next ((recvFrame_fresh fresh _).trans ?_)
    have simple : ∀ s : State, (!decide (s.twin.asked = 2 ∧ (!s.twin.side) = true)) = true ↔ ¬ (s.twin.asked = 2 ∧ s.twin.side = false) := fun s => by
      cases s.twin.side <;> simp
    by_cases may : s.twin.st = .paired ∧ ¬ (s.twin.asked = 2 ∧ s.twin.side = false)
    · rw [if_pos may]
      exact if_pos ⟨may.1, (simple s).mpr may.2⟩
    · rw [if_neg may]
      exact if_neg fun h => may ⟨h.1, (simple s).mp h.2⟩
  case grantedAttach =>
    intro s p b fresh asked
    have run : exec (.ctrlGranted p b) s = .next (startSync (endAsked (peerTold (got s p) b) St.ok 0) (nth b 2 0) (nth b 3 0)) :=
      congrArg Host.Outcome.next ((recvFrame_fresh fresh _).trans (if_pos asked))
    obtain ⟨served, twin, ctxs⟩ := startSync_starts (endAsked (peerTold (got s p) b) St.ok 0) (nth b 2 0) (nth b 3 0)
    refine ⟨_, run, by rw [twin], by rw [twin], by rw [twin, endAsked_frame], fun c x attach detach found => ?_⟩
    rw [getCtx, ctxs]
    exact endAsked_posts (s := peerTold (got s p) b) attach detach found
  case grantedDetach =>
    intro s p b fresh asked
    have run : exec (.ctrlGranted p b) s = .next (beginDetach ((got s p).updTwin fun t => { t with asked := 0 })) :=
      congrArg Host.Outcome.next ((recvFrame_fresh fresh _).trans ((if_neg (by show ¬ s.twin.asked = 1; omega)).trans (if_pos asked)))
    have twin : (beginDetach ((got s p).updTwin fun t => { t with asked := 0 })).twin = { (got s p).twin with asked := 0, st := .detaching, released := false } := by
      unfold beginDetach
      rw [setTwin_frame]
      rfl
    exact ⟨_, run, by rw [twin], by rw [twin], by rw [twin]⟩
  case refused => exact fun s p fresh asked => congrArg Host.Outcome.next ((recvFrame_fresh fresh _).trans (if_neg asked))
  case unasked =>
    rintro s p i fresh asked (rfl | ⟨b, rfl⟩)
    · exact congrArg Host.Outcome.next ((recvFrame_fresh fresh _).trans (if_pos asked))
    · exact congrArg Host.Outcome.next ((recvFrame_fresh fresh _).trans ((if_neg (by show ¬ s.twin.asked = 1; omega)).trans (if_neg (by show ¬ s.twin.asked = 2; omega))))
  case refusedPosts =>
    intro s p c x fresh asked attach detach found
    have run : exec (.ctrlRefused p) s = .next (endAsked (got s p) St.state 6) := congrArg Host.Outcome.next ((recvFrame_fresh fresh _).trans (if_neg asked))
    exact ⟨_, run, by rw [endAsked_frame], by rw [endAsked_frame], endAsked_posts (s := got s p) attach detach found⟩
  case released =>
    intro s p fresh st
    have run : exec (.ctrlReleased p) s = .next ((takeOver (got s p) true).updTwin fun t => { t with released := true }) := by
      refine congrArg Host.Outcome.next ((recvFrame_fresh fresh _).trans ?_)
      show (match s.twin.st with | .paired => _ | .syncing => _ | _ => _) = _
      rw [st]
    obtain ⟨twin, ctxs⟩ := takeOver_starts (got s p) true
    obtain ⟨u, hu⟩ : ∃ u, u = takeOver (got s p) true := ⟨_, rfl⟩
    rw [← hu] at run twin ctxs
    exact ⟨_, run, congrArg Twin.takeoverAt twin, congrArg Twin.takeoverWarm twin, rfl, congrArg Twin.takeovers twin, ctxs⟩
  case releasedSync =>
    intro s p fresh st
    have run : exec (.ctrlReleased p) s = .next (startLeases ((got s p).updTwin fun t => { t with released := true })
        (sideOcts ((got s p).updTwin fun t => { t with released := true }) s.twin.side)) := by
      refine congrArg Host.Outcome.next ((recvFrame_fresh fresh _).trans ?_)
      show (match s.twin.st with | .paired => _ | .syncing => _ | _ => _) = _
      rw [st]
      rfl
    have twin := congrArg State.twin (startLeases_only (sideOcts ((got s p).updTwin fun t => { t with released := true }) s.twin.side)
      ((got s p).updTwin fun t => { t with released := true }))
    exact ⟨_, run, congrArg Twin.released twin, (congrArg Twin.st twin).trans st⟩
  case releasedElse =>
    intro s p fresh notPaired notSyncing
    refine congrArg Host.Outcome.next ((recvFrame_fresh fresh _).trans ?_)
    show (match s.twin.st with | .paired => _ | .syncing => _ | _ => _) = _
    cases st : s.twin.st <;> first | rfl | contradiction
  case ready => exact fun s p fresh => congrArg Host.Outcome.next (recvFrame_fresh fresh _)
  case llDone => exact fun s p fresh => congrArg Host.Outcome.next (recvFrame_fresh fresh _)
  case covering =>
    intro s p fresh st released
    obtain ⟨u, hu⟩ : ∃ u, u = setTwin (got s p) .detached := ⟨_, rfl⟩
    have frame := setTwin_frame (got s p) .detached
    rw [← hu] at frame
    have st' : u.twin.st = .detached := by rw [frame]
    have by_ : u.twin.detachBy = s.twin.detachBy := by rw [frame]; rfl
    have ctxs : u.ctxs = s.ctxs := by rw [frame]; rfl
    have run : exec (.ctrlCovering p) s = .next ((twinPost u u.twin.detachBy St.ok 0).updTwin fun t => { t with detachBy := none, released := false }) := by
      rw [by_, hu]
      exact congrArg Host.Outcome.next ((recvFrame_fresh fresh _).trans (if_pos ⟨st, released⟩))
    refine ⟨_, run, ?_, rfl, rfl, fun c x own found => ?_⟩
    · rw [twinPost_frame]
      exact st'
    · rw [by_, own]
      exact getCtx_residentPost (s := u) (by rw [getCtx, ctxs]; exact found) St.ok 0 0
  case notCovering =>
    intro s p fresh why
    refine congrArg Host.Outcome.next ((recvFrame_fresh fresh _).trans (if_neg ?_))
    rintro ⟨st, released⟩
    rcases why with h | h
    · exact h st
    · exact Bool.false_ne_true (h.symm.trans released)

end Sys2Proof.Proofs

end


section
/-! PROOF. O48: the punty link, the absence of the twin, and what a takeover brings in. -/

namespace Sys2Proof.Proofs

open Sys2Proof Sys2Proof.Machine Sys2Proof.Safety Sys2Proof.Laws

theorem concludeAbsent_paired {s : State} (on : sided s = true) (idle : s.twin.takeoverAt = none) (st : s.twin.st = .paired) :
    concludeAbsent s = takeOver (endAsked s St.state 6) (!s.twin.stale) := by
  unfold concludeAbsent
  rw [if_neg (by simp [on, idle]), st]

theorem concludeAbsent_solo {s : State} (on : sided s = true) (idle : s.twin.takeoverAt = none) (st : s.twin.st = .solo) :
    concludeAbsent s = if stillAbsent s then s else takeOver (endAsked s St.state 6) (!s.twin.stale) := by
  unfold concludeAbsent
  rw [if_neg (by simp [on, idle]), st]

theorem linkLost_paired {s : State} (st : s.twin.st = .paired) : linkLost s = toSolo (endAsked s St.state 6) true := by
  unfold linkLost
  rw [st]

/-- A sided module whose heartbeat runs, by which of the twin's signals are missing (R373). -/
theorem execTwinHbMiss_runs {s : State} (on : sided s = true) (beats : s.twin.hbStopped = false) : exec .twinHbMiss s = .next (
    if decide (s.twin.lastEdge + nvVal s 0x0B000006 ≤ s.beat) && decide (s.twin.lastFrame + nvVal s 0x0B000006 ≤ s.beat) then concludeAbsent s
    else if decide (s.twin.lastFrame + nvVal s 0x0B000006 ≤ s.beat) then linkLost s
    else if decide (s.twin.lastEdge + nvVal s 0x0B000006 ≤ s.beat) then s.updTwin fun t => { t with hbFaults := satAdd32 t.hbFaults 1, lastEdge := s.beat }
    else s) :=
  congrArg Host.Outcome.next (if_neg (by simp [on, beats]))

/-- With the link down every request not answered ends (R371). -/
theorem puntyDown_ends (s : State) : ∃ u : State, u.twin.asked = 0 ∧ u.twin.lanes = 0 ∧ u.twin.st = s.twin.st ∧ u.xlat = s.xlat ∧ u.movers = s.movers ∧
    exec .puntyLinkDown s = .next (if vget s.movers.pacer 0 false then
      markBursts (u.updMovers fun m => { m with pacer := vset m.pacer 0 false, paceWithdrawn := if burstStarted s 0 then satAdd m.paceWithdrawn 1 else m.paceWithdrawn }) 0 false
    else u) := by
  obtain ⟨v, hv⟩ : ∃ v, v = (s.updTwin fun t => { t with lanes := 0 }).updCtxs fun l => l.map fun x =>
    { x with mirrorWait := (x.mirrorWait.filter fun p => decide (s.twin.ackedPseq < p)).map fun _ => 2 ^ 64 } := ⟨_, rfl⟩
  have keeps : v.twin = { s.twin with lanes := 0 } ∧ v.xlat = s.xlat ∧ v.movers = s.movers := by
    rw [hv]
    exact ⟨rfl, rfl, rfl⟩
  obtain ⟨twin, xlat, movers⟩ := keeps
  refine ⟨if v.twin.asked = 0 then v else endAsked v St.state 6, ?_, ?_, ?_, ?_, ?_, by rw [hv]; rfl⟩
  · split
    next none_ => exact none_
    next => rw [endAsked_frame]
  · split
    · rw [twin]
    · rw [endAsked_frame, twin]
  · split
    · rw [twin]
    · rw [endAsked_frame, twin]
  · split
    · exact xlat
    · rw [endAsked_frame]
      exact xlat
  · split
    · exact movers
    · rw [endAsked_frame]
      exact movers

theorem coldScan_keeps (s : State) (found : List (Nat × SlotRec)) (recs : List JRecord) :
    (coldScan s found recs).ctxs = s.ctxs ∧ s.xlat.seq ≤ (coldScan s found recs).xlat.seq ∧ (coldScan s found recs).xlat.ways = [] := by
  unfold coldScan
  extract_lets other theirs mine keepIdx isNs body r0 r1 items r2 r3 nss s1
  exact ⟨rfl, (raiseSeq_above s1 _).2.2, rfl⟩

/-- The contexts, the map and the blocks: what a band cut short leaves. -/
def cutView (s : State) := (s.ctxs, s.xlat.map, s.care.blocks)

theorem cutBand_cutView (s : State) (n : Nat) (dark : Bool) : cutView (cutBand s n dark) = cutView s := by
  have mark : ∀ (u : State), cutView (markClosed u n) = cutView u := fun u => by
    unfold markClosed
    split
    · rfl
    · exact ite_agree cutView rfl rfl
  unfold cutBand
  split
  next => rfl
  next b _ =>
    extract_lets inBand bad lost still again s1 free s2 s3
    have third : cutView s3 = cutView s := rfl
    clear_value s3
    exact ite_agree cutView rfl (ite_agree cutView ((mark s3).trans third) third)

theorem getBlock_modBlock_ne (s : State) {i j : Nat} (other : j ≠ i) (f : Block → Block) : getBlock (modBlock s i f) j = getBlock s j := by
  simp only [getBlock, modBlock, State.updCare, assoc_get_set, if_neg other]

/-- The blocks taken as they are leave the others. -/
theorem takenBlocks {l : List (Nat × List Byte)} (s : State) :
    let t := l.foldl (fun s b => modBlock s b.1 fun _ => Block.ofBytes b.2) s
    t.ctxs = s.ctxs ∧ t.xlat.map = s.xlat.map ∧ ∀ j, (∀ b ∈ l, b.1 ≠ j) → getBlock t j = getBlock s j := by
  induction l generalizing s with
  | nil => exact ⟨rfl, rfl, fun _ _ => rfl⟩
  | cons a l ih =>
    obtain ⟨ctxs, map, blocks⟩ := ih (modBlock s a.1 fun _ => Block.ofBytes a.2)
    exact ⟨ctxs, map, fun j away => (blocks j fun b hb => away b (List.mem_cons_of_mem _ hb)).trans
      (getBlock_modBlock_ne s (away a (List.mem_cons_self ..)).symm _)⟩

/-- A module that takes the twin's care over: its blocks as they are, and every open band with a column of the twin's cut short (R383). -/
theorem execTakeoverCare_runs {s : State} {l : List (Nat × List Byte)} (on : s.care.takeoverCare = true) : exec (.takeoverCare l) s = .next (
    let s1 := (l.filter fun b => octSideB s (dieOct (b.1 / 8192)) != s.twin.side).foldl (fun s b => modBlock s b.1 fun _ => Block.ofBytes b.2) s
    ((s1.media.bands.filter fun b => b.st == .opened && b.columns.any fun c => octSideB s (dieOct c.1) != s.twin.side).foldl
      (fun s b => modBand (cutBand s b.serial false) b.serial fun b => { b with refresh := true }) s1).updCare fun c => { c with takeoverCare := false }) :=
  congrArg Host.Outcome.next (if_neg (by simp [on]))

/-- Settles O48: the link by its edges, absence by what is missing, a takeover by the pairing it starts from. -/
theorem twinAbsence : Obligations.TwinAbsence := by
  unfold Obligations.TwinAbsence
  refine ⟨?up, ?notUp, ?down, ?noWatch, ?both, ?frame, ?edge, ?seen, ?stopped, ?removed, ?removedPaired, ?still, ?concludes, ?retries, ?noRetry, ?noDawn, ?dawnEarly,
    ?dawnSeen, ?dawnAlone, ?dawnTakes, ?dawnAsks, ?noScan, ?scan, ?noCare, ?care, ?careOne⟩
  case up =>
    intro s n on four
    refine congrArg Host.Outcome.next (if_neg ?_)
    rintro (off | few)
    · simp [on] at off
    · omega
  case notUp => exact fun s n why => congrArg Host.Outcome.next (if_pos (why.imp_left fun off => by simp [off]))
  case down =>
    intro s
    obtain ⟨u, asked, lanes, st, xlat, movers, run⟩ := puntyDown_ends s
    refine ⟨_, run, ?_⟩
    dsimp only
    split
    next => exact ⟨lanes, asked, vget_vset_same u.movers.pacer _ _ (by decide), xlat, st⟩
    next off =>
      refine ⟨lanes, asked, ?_, xlat, st⟩
      rw [movers]
      unfold vget at off ⊢
      simpa using off
  case noWatch =>
    intro s why
    refine congrArg Host.Outcome.next (if_pos ?_)
    rcases why with h | h <;> simp [h]
  case both => exact fun s on beats edge frame => (execTwinHbMiss_runs on beats).trans (congrArg Host.Outcome.next (if_pos (by simp [edge, frame])))
  case frame =>
    intro s on beats edge frame
    refine ⟨(execTwinHbMiss_runs on beats).trans (congrArg Host.Outcome.next ((if_neg (by simp [Nat.not_le.mpr edge])).trans (if_pos (by simp [frame])))), fun st => ?_⟩
    rw [linkLost_paired st, toSolo_twin]
    exact ⟨rfl, Bool.or_true _⟩
  case edge =>
    intro s on beats edge frame
    exact (execTwinHbMiss_runs on beats).trans (congrArg Host.Outcome.next ((if_neg (by simp [frame])).trans ((if_neg (by simp [frame])).trans (if_pos (by simp [edge])))))
  case seen =>
    intro s on beats edge frame
    exact (execTwinHbMiss_runs on beats).trans (congrArg Host.Outcome.next ((if_neg (by simp [frame])).trans ((if_neg (by simp [frame])).trans (if_neg (by simp [edge])))))
  case stopped => exact fun s off => congrArg Host.Outcome.next (if_pos off)
  case removed => exact fun s beats => congrArg Host.Outcome.next (if_neg (by rw [beats]; exact Bool.false_ne_true))
  case removedPaired =>
    intro s beats on idle st
    obtain ⟨u, hu⟩ : ∃ u, u = s.updTwin fun t => { t with peerPresent := false } := ⟨_, rfl⟩
    have twin : u.twin = { s.twin with peerPresent := false } := by rw [hu]; rfl
    have conclude := concludeAbsent_paired (s := u) (by rw [hu]; exact on) (by rw [twin]; exact idle) (by rw [twin]; exact st)
    have run : exec .twinPeerRemoved s = .next (concludeAbsent u) := by
      rw [hu]
      exact congrArg Host.Outcome.next (if_neg (by rw [beats]; exact Bool.false_ne_true))
    rw [conclude] at run
    obtain ⟨v, hv⟩ : ∃ v, v = endAsked u St.state 6 := ⟨_, rfl⟩
    rw [← hv] at run
    have keeps : v.twin.peerPresent = false ∧ v.twin.takeovers = s.twin.takeovers ∧ v.beat = s.beat ∧ u.twin.stale = s.twin.stale := by
      rw [hv, endAsked_frame, hu]
      exact ⟨rfl, rfl, rfl, rfl⟩
    obtain ⟨present, takeovers, beat, stale⟩ := keeps
    obtain ⟨takes, waits⟩ := takeOver_starts v (!u.twin.stale)
    refine ⟨_, run, ?_, ?_, ?_, ?_, waits⟩
    · rw [takes]; exact present
    · rw [takes, beat]
    · rw [takes, stale]
    · rw [takes, takeovers]
  case still => exact fun s on st idle absent => (concludeAbsent_solo on idle st).trans (if_pos absent)
  case concludes =>
    intro s on st idle absent
    rw [concludeAbsent_solo on idle st, if_neg (by rw [absent]; exact Bool.false_ne_true), (takeOver_starts _ _).1]
    exact ⟨by rw [endAsked_frame], by rw [endAsked_frame]⟩
  case retries =>
    intro s on st idle wait due beats
    have twin := (startTakeover_starts s (!s.twin.stale)).1
    exact ⟨_, congrArg Host.Outcome.next (if_pos ⟨on, st, by simp [idle], by simp [wait], due, by simp [beats]⟩), by rw [twin], by rw [twin], by rw [twin]⟩
  case noRetry =>
    intro s why
    refine congrArg Host.Outcome.next (if_neg ?_)
    rintro ⟨on, st, idle, wait, due, beats⟩
    rcases why with h | h | h | h | h | h
    · exact Bool.false_ne_true (h.symm.trans on)
    · exact h st
    · omega
    · rw [Option.isNone_iff_eq_none] at idle
      simp [idle] at h
    · rw [Option.isNone_iff_eq_none] at wait
      simp [wait] at h
    · simp [h] at beats
  case noDawn =>
    intro s b none_
    refine congrArg Host.Outcome.next ?_
    rw [none_]
  case dawnEarly =>
    intro s b wait early
    refine congrArg Host.Outcome.next ?_
    rw [wait]
    exact if_pos early
  case dawnSeen =>
    intro s b wait why
    refine congrArg Host.Outcome.next ?_
    rw [wait]
    refine (if_pos rfl).trans (if_neg ?_)
    rcases why with ⟨h, h'⟩ | h | h | h
    · simp [h, h']
    · simp [h]
    · simp [h]
    · simp [h]
  case dawnAlone =>
    intro s b wait late off
    refine congrArg Host.Outcome.next ?_
    rw [wait]
    exact (if_neg Bool.false_ne_true).trans ((if_neg (by omega)).trans (if_pos (by simp [off])))
  case dawnTakes =>
    intro s b wait late on st
    obtain ⟨u, hu⟩ : ∃ u, u = if s.twin.st = .detached then toSolo (s.updTwin fun t => { t with dawnWait := none, wasDetached := false }) false
      else s.updTwin fun t => { t with dawnWait := none, wasDetached := false } := ⟨_, rfl⟩
    have run : exec (.twinDawnWait false) s = .next (takeOver u (!s.twin.stale)) := by
      rw [hu]
      refine congrArg Host.Outcome.next ?_
      rw [wait]
      exact (if_neg Bool.false_ne_true).trans ((if_neg (by omega)).trans (if_neg (by simp [on])))
    have keeps : u.twin.dawnWait = none ∧ u.beat = s.beat ∧ u.twin.takeovers = s.twin.takeovers := by
      rw [hu]
      split
      · refine ⟨by rw [toSolo_twin]; rfl, ?_, by rw [toSolo_twin]; rfl⟩
        unfold toSolo
        rw [setTwin_frame]
        rfl
      · exact ⟨rfl, rfl, rfl⟩
    have twin := (takeOver_starts u (!s.twin.stale)).1
    refine ⟨_, run, ?_, ?_, ?_⟩
    · rw [twin]; exact keeps.1
    · rw [twin, keeps.2.1]
    · rw [twin, keeps.2.2]
  case dawnAsks =>
    intro s b wait why may up asked
    obtain ⟨u, hu⟩ : ∃ u, u = s.updTwin fun t => { t with dawnWait := none, wasDetached := false } := ⟨_, rfl⟩
    have run : exec (.twinDawnWait true) s = .next (askAttach u none) := by
      rw [hu]
      refine congrArg Host.Outcome.next ?_
      rw [wait]
      refine (if_pos rfl).trans (if_pos ?_)
      rcases why with h | h <;> simp [h, may, up, asked]
    have sent : (sendCtrl (sendCert u) 1).twin = { u.twin with txPseq := u.twin.txPseq + 2 } := by
      rw [(sendCtrl_link _ 1).1, (sendCert_link u).1]
    exact ⟨_, run, (congrArg Twin.dawnWait sent :).trans (by rw [hu]; rfl), rfl, rfl⟩
  case noScan => exact fun s a b st => congrArg Host.Outcome.next (if_pos st)
  case scan =>
    intro s a b st
    obtain ⟨ctxs, seq, ways⟩ := coldScan_keeps s (a.map fun p => (p.1, metaSlot p.2)) (b.filterMap JRecord.ofBytes)
    obtain ⟨u, hu⟩ : ∃ u, u = coldScan s (a.map fun p => (p.1, metaSlot p.2)) (b.filterMap JRecord.ofBytes) := ⟨_, rfl⟩
    have run : exec (.coldScanDone a b) s = .next (setTwin (u.updTwin fun t => { t with scanDone := true }) .covering) := by
      rw [hu]
      exact congrArg Host.Outcome.next (if_neg (not_not_intro st))
    rw [← hu] at ctxs seq ways
    refine ⟨_, run, ?_⟩
    dsimp only
    rw [setTwin_frame]
    exact ⟨rfl, rfl, ctxs, seq, ways⟩
  case noCare => exact fun s l off => congrArg Host.Outcome.next (if_pos (by simp [off]))
  case care =>
    intro s l on
    obtain ⟨ctxs, map, blocks⟩ := takenBlocks (l := l.filter fun b => octSideB s (dieOct (b.1 / 8192)) != s.twin.side) s
    obtain ⟨u, hu⟩ : ∃ u, u = (l.filter fun b => octSideB s (dieOct (b.1 / 8192)) != s.twin.side).foldl (fun s b => modBlock s b.1 fun _ => Block.ofBytes b.2) s := ⟨_, rfl⟩
    have run := execTakeoverCare_runs (l := l) on
    dsimp only at run
    rw [← hu] at ctxs map blocks run
    have cut : ∀ bs : List Band, cutView (bs.foldl (fun s b => modBand (cutBand s b.serial false) b.serial fun b => { b with refresh := true }) u) = cutView u := fun bs =>
      foldl_keeps (f := fun (s : State) (b : Band) => modBand (cutBand s b.serial false) b.serial fun b => { b with refresh := true }) cutView
        (fun s b => (show cutView (modBand (cutBand s b.serial false) b.serial _) = cutView (cutBand s b.serial false) from rfl).trans (cutBand_cutView ..)) bs u
    specialize cut (u.media.bands.filter fun b => b.st == .opened && b.columns.any fun c => octSideB s (dieOct c.1) != s.twin.side)
    obtain ⟨v, hv⟩ : ∃ v, v = (u.media.bands.filter fun b => b.st == .opened && b.columns.any fun c => octSideB s (dieOct c.1) != s.twin.side).foldl
      (fun s b => modBand (cutBand s b.serial false) b.serial fun b => { b with refresh := true }) u := ⟨_, rfl⟩
    rw [← hv] at cut run
    simp only [cutView, Prod.mk.injEq] at cut
    obtain ⟨ctxs', map', blocks'⟩ := cut
    refine ⟨_, run, rfl, ctxs'.trans ctxs, map'.trans map, fun j own => ?_⟩
    refine (show getBlock v j = getBlock u j from congrArg (fun l => (Assoc.get l j).getD Block.init) blocks').trans (blocks j fun b hb at_ => ?_)
    have theirs := (List.mem_filter.mp hb).2
    rw [at_, own] at theirs
    simp at theirs
  case careOne =>
    intro s i b on none_ theirs
    have run := execTakeoverCare_runs (l := [(i, b)]) on
    rw [List.filter_cons_of_pos (by simpa using theirs)] at run
    dsimp only [List.filter_nil, List.foldl_cons, List.foldl_nil] at run
    rw [show (modBlock s i fun _ => Block.ofBytes b).media.bands = [] from none_] at run
    exact ⟨_, run, rfl, rfl, getBlock_modBlock s i fun _ => Block.ofBytes b,
      fun j other => getBlock_modBlock_ne s other fun _ => Block.ofBytes b⟩

end Sys2Proof.Proofs

end


section
/-! PROOF. O49: the frames of a Cane session. -/

namespace Sys2Proof.Proofs

open Sys2Proof Sys2Proof.Machine Sys2Proof.Safety Sys2Proof.Laws

/-! ### Sessions -/

theorem getSession_modSession {s : State} {k : Nat} {x : Session} {f : Session → Session} (found : getSession s k = some x) (keeps : ∀ y, (f y).sid = y.sid := by exact fun _ => rfl) :
    getSession (modSession s k f) k = some (f x) :=
  (find_updIf Session.sid k f (fun y hy => (keeps y).trans hy) s.cane.sessions).trans (congrArg (Option.map f) found)

/-- A session that ends: its calls end unreachable, whatever it was changed to before (R394). -/
theorem dropSession_modSession {s : State} {k : Nat} {x : Session} {f : Session → Session} (found : getSession s k = some x) (keeps : ∀ y, (f y).sid = y.sid) :
    dropSession (modSession s k f) k = failMsgs (s.updCane fun c => { c with sessions := c.sessions.filter fun y => y.sid != k }) (f x).out := by
  have gone : (updIf (fun y => y.sid == k) f s.cane.sessions).filter (fun y => y.sid != k) = s.cane.sessions.filter fun y => y.sid != k := by
    rw [updIf, List.filter_map]
    have same : ((fun y : Session => y.sid != k) ∘ fun y => if y.sid == k then f y else y) = fun y => y.sid != k := funext fun y => by
      simp only [Function.comp_apply]
      split
      · rw [keeps]
      · rfl
    rw [same]
    refine (List.map_congr_left fun y hy => if_neg ?_).trans (List.map_id _)
    have away := (List.mem_filter.mp hy).2
    simp only [bne_iff_ne] at away
    simpa using away
  unfold dropSession
  rw [getSession_modSession found keeps]
  exact congrArg (fun l => failMsgs { s with cane := { s.cane with sessions := l } } (f x).out) gone

theorem dropSession_found {s : State} {k : Nat} {x : Session} (found : getSession s k = some x) :
    dropSession s k = failMsgs (s.updCane fun c => { c with sessions := c.sessions.filter fun y => y.sid != k }) x.out := by
  unfold dropSession
  rw [found]
  rfl

theorem failMsgs_frame (s : State) (l : List CaneMsg) : failMsgs s l = { s with ctxs := (failMsgs s l).ctxs } := by
  unfold failMsgs
  induction l.filterMap CaneMsg.call generalizing s with
  | nil => rfl
  | cons a l ih => exact (ih _).trans rfl

/-- What is said in a session, besides how far it is counted, is not of the session's frames (R389). -/
def spoken {β : Type} (v : Session → β) (s : State) :=
  (s.ctxs, s.xlat, s.cane.queue, s.cane.repl, s.nv, s.beat, s.cane.link, s.cane.retransmits, s.cane.sessions.map v)

/-- A session's number and what a REQ or REP looks up in it. -/
def talk (x : Session) := (x.sid, x.node, x.phase, x.dedup)

def said (x : Session) := (talk x, x.out)

theorem modSession_spoken {β : Type} (v : Session → β) {f : Session → Session} (keeps : ∀ y, v (f y) = v y) (s : State) (k : Nat) :
    spoken v (modSession s k f) = spoken v s := by
  have same : (updIf (fun y : Session => y.sid == k) f s.cane.sessions).map v = s.cane.sessions.map v := by
    rw [updIf, List.map_map]
    refine List.map_congr_left fun y _ => ?_
    simp only [Function.comp_apply]
    split
    · exact keeps y
    · rfl
  exact congrArg (fun l => (s.ctxs, s.xlat, s.cane.queue, s.cane.repl, s.nv, s.beat, s.cane.link, s.cane.retransmits, l)) same

theorem caneFrame_spoken {β : Type} (v : Session → β) (keeps : ∀ y n, v { y with txCount := n } = v y) (s : State) (sid typ flags m : Nat) (b : List Byte) :
    spoken v (caneFrame s sid typ flags m b) = spoken v s := by
  unfold caneFrame
  split
  · rfl
  · exact ite_agree (spoken v) rfl (modSession_spoken v (fun y => keeps y (y.txCount + 1)) s sid)

theorem ackMessage_spoken {β : Type} (v : Session → β) (keeps : ∀ y n, v { y with txCount := n } = v y) (s : State) (sid m : Nat) (b : List Byte) :
    spoken v (ackMessage s sid m b) = spoken v s := by
  unfold ackMessage
  refine (caneFrame_spoken v keeps _ sid 0x13 0 0 _).trans ?_
  exact foldl_keeps (f := fun (s : State) (i : Nat) => caneFrame s sid 0x12 0 0 (leBytes 8 m ++ leBytes 4 (min b.length (segBytes * (i + 1))))) (spoken v)
    (fun s _ => caneFrame_spoken v keeps s sid 0x12 0 0 _) _ s

theorem canePump_spoken (s : State) (k : Nat) : spoken talk (canePump s k) = spoken talk s := by
  unfold canePump
  split
  next => rfl
  next x _ =>
    refine ite_agree (spoken talk) rfl (foldl_keeps (spoken talk) (fun s m => ?_) _ s)
    refine foldl_keeps (spoken talk) (fun s b => ?_) _ s
    split
    · rfl
    · refine ite_agree (spoken talk) (Eq.trans ?_ (caneFrame_spoken talk (fun _ _ => rfl) s k m.typ m.hops m.msgId b)) rfl
      exact modSession_spoken talk (by exact fun _ => rfl) _ k

theorem caneQueue_spoken (s : State) (k m typ hops : Nat) (bs : List Byte) (call : Option Nat) : spoken talk (caneQueue s k m typ hops bs call) = spoken talk s :=
  (canePump_spoken ..).trans (modSession_spoken talk (by exact fun _ => rfl) s k)

/-- A session reads as before to whom its number is kept. -/
theorem getSession_of_spoken {β : Type} {v : Session → β} {key : β → Nat} (number : ∀ x, key (v x) = x.sid) {s t : State} (same : spoken v t = spoken v s) {k : Nat} {x : Session}
    (found : getSession s k = some x) : ∃ y, getSession t k = some y ∧ v y = v x := by
  have sessions : t.cane.sessions.map v = s.cane.sessions.map v := congrArg (fun w => w.2.2.2.2.2.2.2.2) same
  have look : ∀ l : List Session, (l.map v).find? (fun b => key b == k) = (l.find? fun x => x.sid == k).map v := fun l => by
    rw [List.find?_map]
    exact congrArg (fun p => (l.find? p).map v) (funext fun x => by simp [number])
  have both := (look t.cane.sessions).symm.trans ((congrArg (List.find? fun b => key b == k) sessions).trans (look s.cane.sessions))
  rw [show s.cane.sessions.find? (fun x => x.sid == k) = some x from found] at both
  exact Option.map_eq_some_iff.mp both

/-! ### Frames received -/

theorem getSession_sid {s : State} {k : Nat} {x : Session} (found : getSession s k = some x) : x.sid = k := by
  simpa using List.find?_some found

theorem recvCane_passes {s : State} {sid f : Nat} {x : Session} (found : getSession s sid = some x) (on : 2 ≤ x.phase) (fresh : x.fresh f = true) (n : Nat)
    (g : State → Session → State) : recvCane s sid f true n g = g (took s sid f n) (x.accept f s.beat) := by
  unfold recvCane
  rw [found]
  exact (if_neg (by omega)).trans ((if_neg (by simp [fresh])).trans (if_neg (by simp)))

theorem recvCane_ignores {s : State} {sid f : Nat} {tag : Bool} (none_ : getSession s sid = none ∨ ∃ x, getSession s sid = some x ∧ x.phase < 2) (n : Nat)
    (g : State → Session → State) : recvCane s sid f tag n g = s := by
  unfold recvCane
  rcases none_ with h | ⟨x, h, early⟩
  · rw [h]
  · rw [h]
    exact if_pos early

theorem recvCane_replayed {s : State} {sid f : Nat} {tag : Bool} {x : Session} (found : getSession s sid = some x) (on : 2 ≤ x.phase) (old : x.fresh f = false) (n : Nat)
    (g : State → Session → State) : recvCane s sid f tag n g = s.updCane fun c => { c with replayDrops := satAdd c.replayDrops 1 } := by
  unfold recvCane
  rw [found]
  exact (if_neg (by omega)).trans (if_pos (by simp [old]))

theorem recvCane_forged {s : State} {sid f : Nat} {x : Session} (found : getSession s sid = some x) (on : 2 ≤ x.phase) (fresh : x.fresh f = true) (n : Nat)
    (g : State → Session → State) : recvCane s sid f false n g = authFail s := by
  unfold recvCane
  rw [found]
  exact (if_neg (by omega)).trans ((if_neg (by simp [fresh])).trans (if_pos rfl))

/-- Every frame of a session is received the same way. -/
theorem frame_received {i : Instr} {sid f : Nat} {tag : Bool} (h : IsFrame i sid f tag) (s : State) : ∃ n g, exec i s = .next (recvCane s sid f tag n g) := by
  rcases h with ⟨m, h, b, rfl⟩ | ⟨m, b, rfl⟩ | ⟨m, n, rfl⟩ | ⟨n, rfl⟩ | rfl | rfl | ⟨m, n, g, c, q, a, b, d, o, rfl⟩ | ⟨g, c, b, rfl⟩ <;> exact ⟨_, _, rfl⟩

theorem getSession_took {s : State} {sid f n : Nat} {x : Session} (found : getSession s sid = some x) : getSession (took s sid f n) sid = some (x.accept f s.beat) :=
  getSession_modSession (f := fun y => y.accept f s.beat) found

theorem took_sees {s : State} {sid f : Nat} {x : Session} (h : Takes s sid f x) (n : Nat) (g : State → Session → State) :
    recvCane s sid f true n g = g (took s sid f n) (x.accept f s.beat) :=
  recvCane_passes h.1 (Nat.le_of_eq h.2.1.symm) h.2.2 n g

/-- An established session answers itself. -/
theorem replySid_own {s : State} {sid f : Nat} {x : Session} (h : Takes s sid f x) (u : State) : replySid u (x.accept f s.beat) = sid := by
  refine (if_neg ?_).trans (show x.sid = sid from getSession_sid h.1)
  show ¬ x.phase = 3
  rw [h.2.1]
  decide

/-- A message received and acknowledged: the session says what it said. -/
theorem acked_heard {s : State} {sid f : Nat} {x : Session} (h : Takes s sid f x) (n m : Nat) (b : List Byte) :
    let t := ackMessage (took s sid f n) sid m b
    (t.ctxs = s.ctxs ∧ t.xlat = s.xlat ∧ t.cane.queue = s.cane.queue ∧ t.cane.repl = s.cane.repl ∧ t.nv = s.nv ∧ t.beat = s.beat) ∧
      ∃ y, getSession t sid = some y ∧ y.dedup = x.dedup ∧ y.out = x.out := by
  have same := ackMessage_spoken said (fun _ _ => rfl) (took s sid f n) sid m b
  obtain ⟨y, found, talks⟩ := getSession_of_spoken (key := fun w => w.1.1) (fun _ => rfl) same (getSession_took (n := n) h.1)
  simp only [spoken, Prod.mk.injEq] at same
  obtain ⟨ctxs, xlat, queue, repl, nv, beat, -⟩ := same
  simp only [said, talk, Prod.mk.injEq] at talks
  obtain ⟨⟨-, -, -, dedup⟩, out⟩ := talks
  exact ⟨⟨ctxs, xlat, queue, repl, nv, beat⟩, y, found, dedup, out⟩

/-! ### Requests and replies -/

theorem execReq_runs {s : State} {sid f : Nat} {x : Session} (h : Takes s sid f x) (m hops : Nat) (b : List Byte) :
    ∃ u, u = ackMessage (took s sid f (segments b).length) sid m b ∧ exec (.req sid f true m hops b) s = .next (match x.dedup.find? fun d => d.msgId == m with
      | some d => match d.rep with
        | some r => if ((getSession u sid).map fun y => y.out.any fun o => o.msgId == m && o.typ == 0x11).getD false then u else caneQueue u sid m 0x11 0 r none
        | none => u
      | none => enterQueue (modSession u sid fun y => { y with dedup := y.dedup ++ [{ msgId := m, rep := none, repAt := 0 }] }) sid m hops x.node b) := by
  obtain ⟨-, y, found, dedup, -⟩ := acked_heard h (segments b).length m b
  refine ⟨_, rfl, congrArg Host.Outcome.next ((took_sees h _ _).trans ?_)⟩
  dsimp only
  rw [replySid_own h, found, Option.map_some, Option.bind_some, dedup]
  rfl

theorem execRep_runs {s : State} {sid f : Nat} {x : Session} (h : Takes s sid f x) (m : Nat) (b : List Byte) :
    ∃ u, u = ackMessage (took s sid f (segments b).length) sid m b ∧ exec (.rep sid f true m b) s = .next (match x.out.find? fun k => k.typ == 0x10 && k.msgId == m with
      | none => u
      | some o => match o.call with
        | some a => tellCall (modSession u sid fun y => { y with out := y.out.filter fun o => !(o.typ == 0x10 && o.msgId == m), lastAck := s.beat }) a b
        | none => modSession u sid fun y => { y with out := y.out.filter fun o => !(o.typ == 0x10 && o.msgId == m), lastAck := s.beat }) := by
  obtain ⟨-, y, found, -, out⟩ := acked_heard h (segments b).length m b
  refine ⟨_, rfl, congrArg Host.Outcome.next ((took_sees h _ _).trans ?_)⟩
  dsimp only
  rw [replySid_own h, found, Option.map_some, Option.bind_some, out]
  rfl

/-- A REQ where the queue has no room is answered at once, and the answer kept. -/
theorem sendRep_answers {s : State} {sid : Nat} {x : Session} (found : getSession s sid = some x) (other : sid ≠ 0) (m : Nat) (st : BitVec 16) (d : BitVec 8) (r : BitVec 64)
    (b : List Byte) : ((sendRep s sid m st d r b).cane.queue = s.cane.queue ∧ (sendRep s sid m st d r b).ctxs = s.ctxs ∧ (sendRep s sid m st d r b).xlat = s.xlat) ∧
      ∃ y, getSession (sendRep s sid m st d r b) sid = some y ∧ y.dedup = updIf (fun d => d.msgId == m) (fun e => { e with rep := some (repMessage st d r b), repAt := s.beat }) x.dedup := by
  obtain ⟨u, hu⟩ : ∃ u, u = modSession s sid fun x =>
    { x with dedup := updIf (fun d => d.msgId == m) (fun e => { e with rep := some (repMessage st d r b), repAt := s.beat }) x.dedup } := ⟨_, rfl⟩
  have own : getSession u sid = some _ := (congrArg (getSession · sid) hu).trans (getSession_modSession found)
  have keeps : u.cane.queue = s.cane.queue ∧ u.ctxs = s.ctxs ∧ u.xlat = s.xlat := by
    rw [hu]
    exact ⟨rfl, rfl, rfl⟩
  have run : sendRep s sid m st d r b = caneQueue u sid m 0x11 0 (repMessage st d r b) none := by
    rw [hu]
    exact if_neg other
  have same := caneQueue_spoken u sid m 0x11 0 (repMessage st d r b) none
  rw [← run] at same
  obtain ⟨y, look, talks⟩ := getSession_of_spoken (key := fun w => w.1) (fun _ => rfl) same own
  simp only [spoken, Prod.mk.injEq] at same
  obtain ⟨ctxs, xlat, queue, -⟩ := same
  simp only [talk, Prod.mk.injEq] at talks
  exact ⟨⟨queue.trans keeps.1, ctxs.trans keeps.2.1, xlat.trans keeps.2.2⟩, y, look, talks.2.2.2⟩

/-! ### Acknowledgements and the end of a session -/

theorem execCaneAck_runs {s : State} {sid f : Nat} {x : Session} (h : Takes s sid f x) (m n : Nat) :
    exec (.caneAck sid f true m n) s = .next (match x.out.find? fun k => k.msgId == m && k.open_ with
      | none => took s sid f 1
      | some o => modSession (took s sid f 1) sid fun y =>
          { y with lastAck := s.beat
                   out := (updIf o.same (fun k => { k with acked := max k.acked (min n k.bytes.length) }) y.out).filter fun k => !o.same k || k.open_ || k.typ == 0x10 }) := by
  refine congrArg Host.Outcome.next ((took_sees h _ _).trans ?_)
  dsimp only
  rw [replySid_own h, getSession_took h.1, Option.map_some, Option.bind_some]
  rfl

/-- The messages of a session that none was sent of. -/
def unsent (x : Session) : List CaneMsg := x.out.filter fun m => m.typ == 0x10 && m.sent == 0

theorem mem_unsent {x : Session} {m : CaneMsg} (mem : m ∈ x.out) : (unsent x).contains m = (m.typ == 0x10 && m.sent == 0) := by
  rw [Bool.eq_iff_iff, List.contains_iff_mem, unsent, List.mem_filter]
  exact and_iff_right mem

/-- CLOSE of a session with nothing unsent, or of one that was replaced: its calls that were sent end unreachable (R394). -/
theorem execClose_drops {s : State} {sid f : Nat} {x : Session} (found : getSession s sid = some x) (on : 2 ≤ x.phase) (fresh : x.fresh f = true)
    (plain : unsent x = [] ∨ x.phase ≠ 2) : exec (.close sid f true) s = .next (failMsgs ((took s sid f 1).updCane fun c => { c with sessions := c.sessions.filter fun y => y.sid != sid })
      (x.out.filter fun m => !(m.typ == 0x10 && m.sent == 0))) := by
  refine congrArg Host.Outcome.next ((recvCane_passes found on fresh _ _).trans ((if_pos ?_).trans ?_))
  · rcases plain with none_ | other
    · show ((unsent x).isEmpty || _) = true
      rw [none_]
      rfl
    · show ((unsent x).isEmpty || x.phase != 2) = true
      simp [other]
  · refine (dropSession_modSession (f := fun y => { y with out := y.out.filter fun m => !(unsent x).contains m }) (getSession_took found) fun _ => rfl).trans ?_
    exact congrArg (failMsgs _) (List.filter_congr fun m mem => by rw [mem_unsent (x := x) mem])

/-! ### Replication -/

/-- The replications of a state, but for the operations they hold to be sent. -/
def modes (s : State) : List ReplState := s.cane.repl.map fun r => { r with ops := [] }

theorem replNote_modes (s : State) (n q g c : Nat) (slot : Option Nat) (grp : Nat) : modes (replNote s n q g c slot grp) = modes s := by
  simp only [modes, replNote, State.updCane, updIf, List.map_map]
  refine List.map_congr_left fun r _ => ?_
  simp only [Function.comp_apply]
  split <;> rfl

theorem setEntry_cane (s : State) (ns : Namespace) (gran : Nat) (l : Loc) : (setEntry s ns gran l).cane = s.cane := by
  have sub : ∀ (s : State) (psa k : Nat), (subValid s psa k).cane = s.cane := fun s psa k => by
    unfold subValid
    split <;> rfl
  have add : ∀ (s : State) (psa k : Nat), (addValid s psa k).cane = s.cane := fun s psa k => by
    unfold addValid
    split <;> rfl
  have un : (unname s ns gran (mapGet s (mapIdx ns gran))).cane = s.cane := by
    unfold unname
    split
    · exact ite_agree State.cane (sub ..) rfl
    · rfl
    · rfl
  unfold setEntry
  cases l with
  | media psa => exact (add ..).trans un
  | gather g => exact un
  | unmapped => exact un

theorem modes_of_cane {s t : State} (same : t.cane = s.cane) : modes t = modes s := congrArg (fun c : Cane => c.repl.map fun r : ReplState => ({ r with ops := [] } : ReplState)) same

theorem sendPunty_modes (s : State) (k a b : Nat) (body : List (BitVec 64)) (data : List Host.Cell) : modes (sendPunty s k a b body data) = modes s := rfl

theorem modCtx_modes (s : State) (c : Nat) (f : Ctx → Ctx) : modes (modCtx s c f) = modes s := rfl

theorem sweepGather_modes (s : State) : modes (sweepGather s) = modes s := rfl

theorem noteSent_modes (s : State) (a n : Nat) : modes (noteSent s a n) = modes s := rfl

theorem setEntries_modes {α : Type} (g : α → Nat) (l : α → Loc) (ns : Namespace) (as : List α) (s : State) :
    modes (as.foldl (fun s a => setEntry (supersede s (mapIdx ns (g a))) ns (g a) (l a)) s) = modes s :=
  foldl_keeps (f := fun (s : State) (a : α) => setEntry (supersede s (mapIdx ns (g a))) ns (g a) (l a)) modes (fun _ _ => modes_of_cane (setEntry_cane ..)) as s

theorem journalAdd_modes (s : State) (rs : List JRecord) : modes (journalAdd s rs) = modes s := modes_of_cane (ite_agree State.cane rfl rfl)

theorem unmapRange_modes (s : State) (ns : Namespace) (first n : Nat) : modes (unmapRange s ns first n) = modes s := by
  unfold unmapRange
  refine ite_agree modes rfl ((replNote_modes ..).trans ((journalAdd_modes ..).trans ?_))
  exact setEntries_modes (fun i => first + i) (fun _ => .unmapped) ns (List.range n) _

theorem writeGranule_modes (s : State) (x : Ctx) (ns : Namespace) (gran : Nat) (tag : BitVec 64) (bytes : List Host.Cell) :
    modes (writeGranule s x ns gran tag bytes) = modes s := by
  have entered_ : modes (entered s ns x.c gran tag (!x.writeThrough) bytes) = modes s := (replNote_modes ..).trans (modes_of_cane (setEntry_cane ..))
  rw [writeGranule_eq]
  unfold enteredSent
  exact (modCtx_modes ..).trans (ite_agree modes ((sendPunty_modes ..).trans ((noteSent_modes ..).trans entered_)) entered_)

theorem applyOp_modes (x : Ctx) (ns : Namespace) (s : State) (o : Nat × Nat × List Byte) : modes (applyOp x ns s o) = modes s :=
  ite_agree modes (unmapRange_modes ..) (writeGranule_modes ..)

theorem commitAtom_modes (s : State) (x : Ctx) (ns : Namespace) (ops : List AtomOp) : modes (commitAtom s x ns ops) = modes s := by
  unfold commitAtom
  extract_lets ms us
  refine ite_agree modes rfl ?_
  refine (sweepGather_modes ..).trans ((modCtx_modes ..).trans ?_)
  refine Eq.trans (ite_agree modes (sendPunty_modes ..) rfl) ?_
  refine (foldl_keeps modes (fun _ _ => replNote_modes ..) _ _).trans ((foldl_keeps modes (fun _ _ => replNote_modes ..) _ _).trans ?_)
  refine (setEntries_modes id (fun _ => .unmapped) ns _ _).trans ((setEntries_modes Prod.fst (fun m => .gather m.2) ns ms _).trans ?_)
  exact ite_agree modes rfl (journalAdd_modes ..)

theorem applyAtom_modes (x : Ctx) (ns : Namespace) (s : State) (ops : List (Nat × Nat × List Byte)) : modes (applyAtom x ns s ops) = modes s := by
  unfold applyAtom
  refine (commitAtom_modes ..).trans ?_
  have fold : ∀ (l : List (Nat × Nat × List Byte)) (w : State × List AtomOp), modes (l.foldl (fun (w : State × List AtomOp) o =>
      if o.2.2.isEmpty then (w.1, w.2 ++ [.unmap o.1 o.2.1])
      else
        let e := enterGather w.1 ns x.c o.1 0 true (!x.writeThrough) (Mem.ofList o.2.2)
        (e.2, w.2 ++ [.write o.1 e.1])) w).1 = modes w.1 := fun l => by
    induction l with
    | nil => exact fun _ => rfl
    | cons o l ih =>
      intro w
      rw [List.foldl_cons, ih]
      split <;> rfl
  exact fold ops (s, [])

/-- A replication reads, but for its operations, as before. -/
theorem getRepl_of_modes {s t : State} (same : modes t = modes s) {n : Nat} {r : ReplState} (found : getRepl s n = some r) :
    ∃ u, getRepl t n = some u ∧ { u with ops := [] } = ({ r with ops := [] } : ReplState) := by
  have look : ∀ l : List ReplState, (l.map fun r => { r with ops := [] }).find? (fun r => r.nsid == n) = (l.find? fun r => r.nsid == n).map fun r => { r with ops := [] } := fun l =>
    List.find?_map
  have both := (look t.cane.repl).symm.trans ((congrArg (List.find? fun r => r.nsid == n) same).trans (look s.cane.repl))
  rw [show s.cane.repl.find? (fun r => r.nsid == n) = some r from found] at both
  exact Option.map_eq_some_iff.mp both

theorem getRepl_modRepl {s : State} {n : Nat} {r : ReplState} {f : ReplState → ReplState} (found : getRepl s n = some r) (keeps : ∀ y, (f y).nsid = y.nsid := by exact fun _ => rfl) :
    getRepl (modRepl s n f) n = some (f r) :=
  (find_updIf ReplState.nsid n f (fun y hy => (keeps y).trans hy) s.cane.repl).trans (congrArg (Option.map f) found)

/-- What a replica does with a message of its source, by whether the namespaces agree and whether it was applied before (R401, R404). -/
def replied (u : State) (ns : Namespace) (r : ReplState) (sid msg : Nat) (body : List Byte) (g : Bool) (cap q : Nat) (base atom cut : Bool) (ops : List (Nat × Nat × List Byte)) : State :=
  if g != ns.g16k || cap != ns.cap then modRepl (ackMessage u sid msg body) ns.nsid fun r => { r with mode := 5, greeted := false }
  else if !opsFit u ns ops || u.plan.stopped then u
  else
    let s1 := ackMessage u sid msg body
    if r.lastMsg.1 = sid ∧ msg ≤ r.lastMsg.2 then s1
    else
      let need := ((ops.filter fun o => !o.2.2.isEmpty).length) * ns.granule
      let y := replCtx u ns.nsid (decide (armedNow u < armedUsed u + need))
      let s2 := if atom then applyAtom y ns s1 ops else ops.foldl (applyOp y ns) s1
      modRepl s2 ns.nsid fun r =>
        { r with mode := if base then 2 else 3, greeted := r.greeted && r.mode != 1, mark := if base then r.mark else max r.mark q
                 pseq := s2.twin.txPseq - 1, lastMsg := (sid, msg), cut := if cut then some q else r.cut }

theorem execRepl_runs {s : State} {sid f m q cap : Nat} {x : Session} {ns : Namespace} {r : ReplState} {g base atom cut : Bool} {ops : List (Nat × Nat × List Byte)}
    (h : Takes s sid f x) (found : getNs s ns.nsid = some ns) (repl : getRepl s ns.nsid = some r) (replica : replReplica s ns.nsid = true) (node : replNode s ns.nsid = x.node)
    (served : serves s ns.sideB = true) (stands : ns.deleting = false) :
    ∃ n body, exec (.repl sid f true m ns.nsid g cap q base atom cut ops) s = .next (replied (took s sid f n) ns r sid m body g cap q base atom cut ops) := by
  refine ⟨(segments (Config.replMessage [ns.nsid, b2n g, cap, q, b2n base, b2n atom, b2n cut] ops)).length,
    Config.replMessage [ns.nsid, b2n g, cap, q, b2n base, b2n atom, b2n cut] ops, congrArg Host.Outcome.next ((took_sees h _ _).trans ?_)⟩
  dsimp only
  rw [replySid_own h, show getNs (took s sid f _) ns.nsid = some ns from found, show getRepl (took s sid f _) ns.nsid = some r from repl]
  refine if_neg ?_
  rw [show replReplica (took s sid f _) ns.nsid = true from replica, show replNode (took s sid f _) ns.nsid = x.node from node, show serves (took s sid f _) ns.sideB = true from served,
    stands]
  show ¬ ((!true || x.node != x.node || !true || false) = true)
  simp

/-- A message not applied before is applied, and the replication notes it. -/
theorem replied_applies {u : State} {ns : Namespace} {r : ReplState} {sid m q : Nat} {body : List Byte} {base atom cut : Bool} {ops : List (Nat × Nat × List Byte)}
    (fit : opsFit u ns ops = true) (going : u.plan.stopped = false) (new : r.lastMsg.1 ≠ sid ∨ r.lastMsg.2 < m)
    (repl : getRepl (ackMessage u sid m body) ns.nsid = some r) :
    ∃ s2 y, s2 = (if atom then applyAtom y ns (ackMessage u sid m body) ops else ops.foldl (applyOp y ns) (ackMessage u sid m body)) ∧
      (replied u ns r sid m body ns.g16k ns.cap q base atom cut ops).xlat = s2.xlat ∧
      ∃ v, getRepl (replied u ns r sid m body ns.g16k ns.cap q base atom cut ops) ns.nsid = some v ∧ v.mode = (if base then 2 else 3) ∧
        v.mark = (if base then r.mark else max r.mark q) ∧ v.lastMsg = (sid, m) ∧ v.cut = if cut then some q else r.cut := by
  obtain ⟨y, hy⟩ : ∃ y, y = replCtx u ns.nsid (decide (armedNow u < armedUsed u + ((ops.filter fun o => !o.2.2.isEmpty).length) * ns.granule)) := ⟨_, rfl⟩
  obtain ⟨s2, h2⟩ : ∃ s2, s2 = if atom then applyAtom y ns (ackMessage u sid m body) ops else ops.foldl (applyOp y ns) (ackMessage u sid m body) := ⟨_, rfl⟩
  have same : modes s2 = modes (ackMessage u sid m body) := by
    rw [h2]
    split
    · exact applyAtom_modes ..
    · exact foldl_keeps modes (applyOp_modes y ns) _ _
  obtain ⟨w, found, as_⟩ := getRepl_of_modes same repl
  have run : replied u ns r sid m body ns.g16k ns.cap q base atom cut ops = modRepl s2 ns.nsid fun r =>
      { r with mode := if base then 2 else 3, greeted := r.greeted && r.mode != 1, mark := if base then r.mark else max r.mark q
               pseq := s2.twin.txPseq - 1, lastMsg := (sid, m), cut := if cut then some q else r.cut } := by
    rw [h2, hy]
    refine (if_neg (by simp)).trans ((if_neg (by simp [fit, going])).trans (if_neg ?_))
    rintro ⟨same, old⟩
    rcases new with other | later
    · exact other same
    · omega
  refine ⟨s2, y, h2, by rw [run]; rfl, _, (congrArg (getRepl · ns.nsid) run).trans (getRepl_modRepl found), rfl, ?_, rfl, ?_⟩
  · have mark : w.mark = r.mark := (congrArg ReplState.mark as_ :)
    exact congrArg (fun k => if base then k else max k q) mark
  · have cut_ : w.cut = r.cut := (congrArg ReplState.cut as_ :)
    exact congrArg (fun k => if cut then some q else k) cut_

/-- What a source does with an acknowledgement, by whether the namespaces agree (R402). -/
theorem execReplAck_runs {s : State} {sid f cap : Nat} {x : Session} {n : Namespace} {r : ReplState} {b : List Byte} {g : Bool} (h : Takes s sid f x) (number : n.nsid = field b 0 2)
    (found : getNs s n.nsid = some n) (repl : getRepl s n.nsid = some r) (source : replSource s n.nsid = true) (node : replNode s n.nsid = x.node) (open_ : r.mode ≠ 4) :
    ∃ c, exec (.replAck sid f true g cap b) s = .next c ∧ getRepl c n.nsid = some (if g != n.g16k || cap != n.cap then { r with mode := 5, ops := [] } else
      { r with mode := if (match r.cut with | some q => decide (q ≤ field b 8 8) | none => false) then 4 else if r.mode = 1 then 2 else r.mode
               cursor := if r.mode = 1 then 0 else r.cursor
               ops := r.ops.filter fun o => !(o.sent && decide (o.seq ≤ field b 8 8)), mark := max r.mark (field b 8 8) }) := by
  refine ⟨_, congrArg Host.Outcome.next (took_sees h _ _), ?_⟩
  dsimp only
  rw [← number, show getNs (took s sid f 1) n.nsid = some n from found, show getRepl (took s sid f 1) n.nsid = some r from repl]
  dsimp only
  rw [if_neg (by
    rw [show replSource (took s sid f 1) n.nsid = true from source, show replNode (took s sid f 1) n.nsid = x.node from node]
    show ¬ ((!true || x.node != x.node || r.mode == 4) = true)
    simp [open_])]
  split
  next => exact getRepl_modRepl (s := took s sid f 1) repl
  next =>
    refine (getRepl_modRepl (s := took s sid f 1) repl).trans (congrArg some ?_)
    rfl

/-- Settles O49: a frame by its session, its count and its tag, then by what it carries. -/
theorem caneFrames : Obligations.CaneFrames := by
  unfold Obligations.CaneFrames
  refine ⟨?none_, ?early, ?replayed, ?forged, ?req, ?full, ?kept, ?rep, ?noRep, ?noAck, ?replaced, ?ack, ?credit, ?keepalive, ?closeEmpty, ?closeSent, ?closeOne,
    ?unmaps, ?applies, ?differs, ?noReplica, ?noSource, ?acks, ?acksOn⟩
  case none_ =>
    intro s sid f tag i h none_
    obtain ⟨n, g, run⟩ := frame_received h s
    exact run.trans (congrArg Host.Outcome.next (recvCane_ignores (.inl none_) n g))
  case early =>
    intro s sid f tag i x h found early
    obtain ⟨n, g, run⟩ := frame_received h s
    exact run.trans (congrArg Host.Outcome.next (recvCane_ignores (.inr ⟨x, found, early⟩) n g))
  case replayed =>
    intro s sid f tag i x h found on old
    obtain ⟨n, g, run⟩ := frame_received h s
    exact run.trans (congrArg Host.Outcome.next (recvCane_replayed found on old n g))
  case forged =>
    intro s sid f i x h found on fresh
    obtain ⟨n, g, run⟩ := frame_received h s
    exact run.trans (congrArg Host.Outcome.next (recvCane_forged found on fresh n g))
  case req =>
    intro s sid f x m h b takes new room
    obtain ⟨u, hu, run⟩ := execReq_runs takes m h b
    obtain ⟨⟨ctxs, xlat, queue, -, nv, -⟩, y, found, dedup, -⟩ := acked_heard takes (segments b).length m b
    rw [← hu] at ctxs xlat queue nv found
    rw [new] at run
    dsimp only at run
    obtain ⟨v, hv⟩ : ∃ v, v = modSession u sid fun y => { y with dedup := y.dedup ++ [{ msgId := m, rep := none, repAt := 0 }] } := ⟨_, rfl⟩
    have own : getSession v sid = some _ := (congrArg (getSession · sid) hv).trans (getSession_modSession found)
    have keeps : v.ctxs = s.ctxs ∧ v.xlat = s.xlat ∧ v.cane.queue = s.cane.queue ∧ v.nv = s.nv := by
      rw [hv]
      exact ⟨ctxs, xlat, queue, nv⟩
    obtain ⟨ctxs, xlat, queue, nv⟩ := keeps
    rw [← hv, enterQueue, if_neg (by rw [queue, show nvVal v 0x0C000015 = nvVal s 0x0C000015 by unfold nvVal; rw [nv]]; omega)] at run
    refine ⟨_, run, ⟨_, congrArg (· ++ [_]) queue, rfl, rfl, rfl, rfl, rfl, rfl⟩, ctxs, xlat, _, own, congrArg (· ++ [_]) dedup⟩
  case full =>
    intro s sid f x m h b takes new full other
    obtain ⟨u, hu, run⟩ := execReq_runs takes m h b
    obtain ⟨⟨ctxs, xlat, queue, -, nv, beat⟩, y, found, dedup, -⟩ := acked_heard takes (segments b).length m b
    rw [← hu] at ctxs xlat queue nv found beat
    rw [new] at run
    dsimp only at run
    obtain ⟨v, hv⟩ : ∃ v, v = modSession u sid fun y => { y with dedup := y.dedup ++ [{ msgId := m, rep := none, repAt := 0 }] } := ⟨_, rfl⟩
    have own : getSession v sid = some _ := (congrArg (getSession · sid) hv).trans (getSession_modSession found)
    have keeps : v.ctxs = s.ctxs ∧ v.xlat = s.xlat ∧ v.cane.queue = s.cane.queue ∧ v.nv = s.nv ∧ v.beat = s.beat := by
      rw [hv]
      exact ⟨ctxs, xlat, queue, nv, beat⟩
    obtain ⟨ctxs, xlat, queue, nv, beat⟩ := keeps
    rw [← hv, enterQueue, if_pos (by rw [queue, show nvVal v 0x0C000015 = nvVal s 0x0C000015 by unfold nvVal; rw [nv]]; exact full)] at run
    obtain ⟨⟨queue', ctxs', xlat'⟩, z, look, kept⟩ := sendRep_answers own other m St.classFull 0 0 []
    refine ⟨_, run, queue'.trans queue, ctxs'.trans ctxs, xlat'.trans xlat, z, look, ?_⟩
    rw [kept, beat]
    show updIf _ _ (y.dedup ++ [_]) = _
    rw [dedup, updIf, List.map_append]
    refine congr (congrArg (· ++ ·) ((List.map_congr_left fun d hd => if_neg ?_).trans (List.map_id _))) ?_
    · exact fun same => absurd same (List.find?_eq_none.mp new d hd)
    · simp
  case kept =>
    intro s sid f x m h b d takes old
    obtain ⟨u, hu, run⟩ := execReq_runs takes m h b
    obtain ⟨⟨ctxs, -, queue, -, -, -⟩, -⟩ := acked_heard takes (segments b).length m b
    rw [← hu] at ctxs queue
    rw [old] at run
    dsimp only at run
    refine ⟨_, run, ?_⟩
    dsimp only
    split
    next r _ =>
      split
      · exact ⟨queue, ctxs⟩
      · have same := caneQueue_spoken u sid m 0x11 0 r none
        simp only [spoken, Prod.mk.injEq] at same
        obtain ⟨ctxs', -, queue', -⟩ := same
        exact ⟨queue'.trans queue, ctxs'.trans ctxs⟩
    next => exact ⟨queue, ctxs⟩
  case rep =>
    intro s sid f x m b o a takes found call
    obtain ⟨u, hu, run⟩ := execRep_runs takes m b
    obtain ⟨⟨ctxs, -⟩, y, own, -, out⟩ := acked_heard takes (segments b).length m b
    rw [← hu] at ctxs own
    rw [found] at run
    dsimp only at run
    rw [call] at run
    refine ⟨_, run, ?_, _, getSession_modSession (s := u) own, ?_⟩
    · show updIf _ _ u.ctxs = _
      rw [ctxs]
      rfl
    · exact congrArg (List.filter fun o : CaneMsg => !(o.typ == 0x10 && o.msgId == m)) out
  case noRep =>
    intro s sid f x m b takes none'
    obtain ⟨u, hu, run⟩ := execRep_runs takes m b
    obtain ⟨⟨ctxs, xlat, -⟩, y, own, -, out⟩ := acked_heard takes (segments b).length m b
    rw [← hu] at ctxs xlat own
    rw [none'] at run
    exact ⟨_, run, ctxs, xlat, y, own, congrArg List.length out⟩
  case noAck =>
    intro s sid f x m n takes none_
    rw [execCaneAck_runs takes, none_]
  case replaced =>
    rintro s sid f x u k found phase fresh rfl rfl
    have on : 2 ≤ x.phase := by omega
    refine ⟨congrArg Host.Outcome.next (recvCane_passes found on fresh _ _), fun n => congrArg Host.Outcome.next (recvCane_passes found on fresh _ _), ?_⟩
    refine (execClose_drops found on fresh (.inr (by rw [phase]; decide))).trans (congrArg Host.Outcome.next ?_)
    exact (dropSession_modSession (f := fun y => { y with out := x.out.filter fun m => !(m.typ == 0x10 && m.sent == 0) }) (getSession_took found) fun _ => rfl).symm
  case ack =>
    intro s sid f x m n o takes found
    have run := execCaneAck_runs takes m n
    rw [found] at run
    exact ⟨_, run, rfl, _, getSession_modSession (getSession_took takes.1), rfl, rfl⟩
  case credit =>
    intro s sid f x n takes
    refine congrArg Host.Outcome.next ((took_sees takes _ _).trans ?_)
    dsimp only
    rw [replySid_own takes]
  case keepalive => exact fun s sid f x takes => congrArg Host.Outcome.next (took_sees takes _ _)
  case closeEmpty =>
    intro s sid f x takes none_
    have run := execClose_drops takes.1 (Nat.le_of_eq takes.2.1.symm) takes.2.2 (.inl (by rw [unsent, none_]; rfl))
    rw [none_] at run
    refine ⟨_, run, rfl, List.find?_eq_none.mpr fun y hy => ?_⟩
    have away := (List.mem_filter.mp hy).2
    simpa using away
  case closeSent =>
    intro s sid f x takes sent
    have all : x.out.filter (fun m => !(m.typ == 0x10 && m.sent == 0)) = x.out := List.filter_eq_self.mpr fun m hm => by
      have := sent m hm
      cases typ : m.typ == 0x10
      · rfl
      · simpa using this (beq_iff_eq.mp typ)
    have none_ : unsent x = [] := List.filter_eq_nil_iff.mpr fun m hm => by simpa using sent m hm
    rw [execClose_drops takes.1 (Nat.le_of_eq takes.2.1.symm) takes.2.2 (.inl none_), all]
    exact congrArg Host.Outcome.next (dropSession_found (getSession_took takes.1)).symm
  case closeOne =>
    intro s sid f x m a takes one call sent
    have run := execClose_drops takes.1 (Nat.le_of_eq takes.2.1.symm) takes.2.2 (.inl (by rw [unsent, one]; simp [sent]))
    rw [one, List.filter_cons_of_pos (by simp [sent])] at run
    refine ⟨_, run, ?_, ?_⟩
    · rw [getSession, failMsgs_frame]
      refine List.find?_eq_none.mpr fun y hy => ?_
      have away := (List.mem_filter.mp hy).2
      simpa using away
    · unfold failMsgs
      rw [List.filter_nil, List.filterMap_cons_some call]
      rfl
  case unmaps =>
    intro s sid f x m n r q g k b takes found repl replica node served stands fit going new
    obtain ⟨c, body, run⟩ := execRepl_runs (m := m) (g := n.g16k) (cap := n.cap) (q := q) (base := b) (atom := false) (cut := false) (ops := [(g, k, [])]) takes found repl replica node
      served stands
    obtain ⟨⟨-, xlat, -, repls, -, -⟩, -⟩ := acked_heard takes c m body
    obtain ⟨s2, y, h2, xlat2, u, look, mode, mark, last, -⟩ := replied_applies (u := took s sid f c) (base := b) (cut := false) (q := q) (body := body) (atom := false) fit going new
      (by rw [getRepl, repls]; exact repl)
    have map : ∀ i, mapGet s2 i = if (List.range k).any (fun e => i == mapIdx n (g + e)) then .unmapped else mapGet s i := fun i => by
      have one : s2 = unmapRange (ackMessage (took s sid f c) sid m body) n g k := h2
      rw [one, (unmapRange_unmaps _ n g k).2 i]
      unfold mapGet
      rw [xlat]
    refine ⟨_, run, fun j low high => ?_, fun i away => ?_, u, look, mode, mark, last⟩
    · rw [mapGet, xlat2]
      refine (map (mapIdx n j)).trans (if_pos (List.any_eq_true.mpr ⟨j - g, List.mem_range.mpr (by omega), ?_⟩))
      rw [show g + (j - g) = j by omega]
      exact beq_iff_eq.mpr rfl
    · rw [mapGet, xlat2]
      refine (map i).trans (if_neg fun in_ => ?_)
      obtain ⟨e, he, at_⟩ := List.any_eq_true.mp in_
      have at_ : i = mapIdx n (g + e) := beq_iff_eq.mp at_
      have small := List.mem_range.mp he
      unfold mapIdx at away at_
      omega
  case applies =>
    intro s sid f x m n r q b at_ cut ops takes found repl replica node served stands fit going
    obtain ⟨c, body, run⟩ := execRepl_runs (m := m) (g := n.g16k) (cap := n.cap) (q := q) (base := b) (atom := at_) (cut := cut) (ops := ops) takes found repl replica node served stands
    obtain ⟨⟨ctxs, xlat, -, repls, -, -⟩, -⟩ := acked_heard takes c m body
    refine ⟨_, run, fun new => ?_, fun same old => ?_⟩
    · obtain ⟨s2, y, -, -, u, look, rest⟩ := replied_applies (u := took s sid f c) (base := b) (cut := cut) (q := q) (body := body) (atom := at_) fit going new
        (by rw [getRepl, repls]; exact repl)
      exact ⟨u, look, rest⟩
    · have stays : replied (took s sid f c) n r sid m body n.g16k n.cap q b at_ cut ops = ackMessage (took s sid f c) sid m body :=
        (if_neg (by simp)).trans ((if_neg (by
          rw [show opsFit (took s sid f c) n ops = true from fit, show (took s sid f c).plan.stopped = false from going]
          simp)).trans (if_pos ⟨same, old⟩))
      rw [stays]
      exact ⟨xlat, ctxs⟩
  case differs =>
    intro s sid f x m n r g cap q b at_ cut ops takes found repl replica node served stands other
    obtain ⟨c, body, run⟩ := execRepl_runs (m := m) (g := g) (cap := cap) (q := q) (base := b) (atom := at_) (cut := cut) (ops := ops) takes found repl replica node served stands
    obtain ⟨⟨-, xlat, -, repls, -, -⟩, -⟩ := acked_heard takes c m body
    have stops : replied (took s sid f c) n r sid m body g cap q b at_ cut ops = modRepl (ackMessage (took s sid f c) sid m body) n.nsid fun r => { r with mode := 5, greeted := false } :=
      if_pos (by rcases other with h | h <;> simp [h])
    rw [stops] at run
    exact ⟨_, run, xlat, _, getRepl_modRepl (s := ackMessage (took s sid f c) sid m body) (r := r) (by rw [getRepl, repls]; exact repl), rfl⟩
  case noReplica =>
    intro s sid f x m k g cap q b at_ cut ops takes why
    refine congrArg Host.Outcome.next ((took_sees takes _ _).trans ?_)
    dsimp only
    split
    next ns r found repl =>
      refine if_pos ?_
      rcases why with h | h | h | h
      · rw [show getNs (took s sid f _) k = none from h] at found
        cases found
      · rw [show getRepl (took s sid f _) k = none from h] at repl
        cases repl
      · rw [show replReplica (took s sid f _) k = false from h]
        rfl
      · rw [show (replNode (took s sid f _) k != (x.accept f s.beat).node) = true from bne_iff_ne.mpr h]
        simp
    next => rfl
  case noSource =>
    intro s sid f x g cap b takes why
    refine congrArg Host.Outcome.next ((took_sees takes _ _).trans ?_)
    dsimp only
    split
    next ns r found repl =>
      refine if_pos ?_
      rcases why with h | h | h | h
      · rw [show getNs (took s sid f _) _ = none from h] at found
        cases found
      · rw [show getRepl (took s sid f _) _ = none from h] at repl
        cases repl
      · rw [show replSource (took s sid f _) _ = false from h]
        rfl
      · rw [show (replNode (took s sid f _) (field b 0 2) != (x.accept f s.beat).node) = true from bne_iff_ne.mpr h]
        simp
    next => rfl
  case acks =>
    intro s sid f x g cap n r b takes number found repl source node open_
    obtain ⟨t, run, look⟩ := execReplAck_runs (g := g) (cap := cap) takes number found repl source node open_
    refine ⟨t, run, _, look, fun other => ?_, fun gran size => ?_⟩
    · rw [if_pos (by rcases other with h | h <;> simp [h])]
      exact ⟨rfl, rfl⟩
    · rw [if_neg (by simp [gran, size])]
      refine ⟨rfl, rfl, fun q cut done => ?_, fun none_ => ?_⟩
      · simp [cut, done]
      · simp [none_]
  case acksOn =>
    intro s sid f x n r b takes number found repl source node mode none_
    obtain ⟨t, run, look⟩ := execReplAck_runs (g := n.g16k) (cap := n.cap) takes number found repl source node (by rw [mode]; decide)
    rw [if_neg (by simp)] at look
    exact ⟨t, run, _, look, by simp [none_, mode], rfl, rfl⟩

end Sys2Proof.Proofs

end


section
/-! PROOF. O50: the handshake of a Cane session, its timers, links and addresses, and the replication settings. -/

namespace Sys2Proof.Proofs

open Sys2Proof Sys2Proof.Machine Sys2Proof.Safety Sys2Proof.Laws

/-! ### KX1 -/

theorem execKx1_answered {s : State} {n : Nat} {b : List Byte} {x : Session} (can : canKex s = true) (found : kexAnswered s n = some x) : exec (.kx1 n b) s = .next (
    if x.kx1 = b then sendKex (s.updCane fun c => { c with retransmits := satAdd c.retransmits (segments x.kx2).length }) x.sid 2 x.kx2
    else if kexOk s b 1224 then answerKx1 (s.updCane fun c => { c with sessions := c.sessions.filter fun y => y.sid != x.sid }) n b x.out x.rekeyOf
    else authFail s) := by
  refine congrArg Host.Outcome.next ((if_neg (by simp [can])).trans ?_)
  rw [found]

/-- A KX1 that no handshake answered yet: refused, or by the handshake of our own or the session there is (R392). -/
theorem execKx1_new {s : State} {n : Nat} {b : List Byte} (can : canKex s = true) (found : kexAnswered s n = none) : exec (.kx1 n b) s = .next (
    if kexOk s b 1224 = false then authFail s else match kexBegun s n with
      | some x => if ownNode s < n then s else answerKx1 (s.updCane fun c => { c with sessions := c.sessions.filter fun y => y.sid != x.sid }) n b x.out x.rekeyOf
      | none => match sessionTo s n with
        | some x => answerKx1 s n b [] (some x.sid)
        | none => match sessionRoom s with
          | none => s
          | some s1 => answerKx1 s1 n b [] none) := by
  refine congrArg Host.Outcome.next ((if_neg (by simp [can])).trans ?_)
  rw [found]
  cases kexOk s b 1224 <;> rfl

/-! ### Messages sent again -/

/-- Segments of a message sent again leave what is said (R394). -/
theorem resend_spoken (l : List (List Byte)) (s : State) (sid typ hops m : Nat) : spoken said (l.foldl (fun s b => caneFrame s sid typ hops m b) s) = spoken said s :=
  foldl_keeps (f := fun (s : State) (b : List Byte) => caneFrame s sid typ hops m b) (spoken said) (fun s b => caneFrame_spoken said (fun _ _ => rfl) s sid typ hops m b) l s

theorem filter_one {α : Type} {p : α → Bool} {a : α} {l : List α} (one : l = [a]) (h : p a = true) : l.filter p = [a] := by
  rw [one]
  simp [h]

/-! ### Replication settings -/

theorem setDone_keeps (s : State) (c : Nat) (st : BitVec 16) (d : BitVec 8) : (setDone s c st d).cane = s.cane ∧ (setDone s c st d).nv = s.nv := by
  unfold setDone
  split
  · exact ⟨rfl, rfl⟩
  · split <;> exact ⟨rfl, rfl⟩

theorem execCaneRepl_runs {s : State} {c i : Nat} {x : Ctx} {v : BitVec 64} (waits : waitsSet s c 0x0C00001D 4095 = some (x, i, v)) : exec (.caneRepl c) s = .next (setDone (
    if !bit v.toNat 0 then sweepGather ((storeNv s (0x0C00001C + (i + 1)) v).updCane fun k => { k with repl := k.repl.filter fun r => r.nsid != i + 1 })
    else if bits (replVal s (i + 1)) 33 8 = bits v.toNat 33 8 ∧ replVal s (i + 1) % 4 = v.toNat % 4 then storeNv s (0x0C00001C + (i + 1)) v
    else sweepGather ((storeNv s (0x0C00001C + (i + 1)) v).updCane fun k => { k with repl := (k.repl.filter fun r => r.nsid != i + 1) ++ [ReplState.start (i + 1)] })) c St.ok 0) := by
  refine congrArg Host.Outcome.next ?_
  rw [waits]

theorem nvVal_stored {s t : State} {id : Nat} {v : BitVec 64} (nv : t.nv = Assoc.set s.nv id v) : nvVal t id = v.toNat := by
  unfold nvVal
  rw [nv, assoc_get_set, if_pos rfl]

/-- With a replication taken out none is left of its number, and every other as it was. -/
theorem repl_gone (l : List ReplState) (n : Nat) : (l.filter fun r => r.nsid != n).find? (fun r => r.nsid == n) = none ∧
    ∀ k, k ≠ n → (l.filter fun r => r.nsid != n).find? (fun r => r.nsid == k) = l.find? fun r => r.nsid == k := by
  refine ⟨by simp, fun k other => ?_⟩
  rw [List.find?_filter]
  refine congrArg (List.find? · l) (funext fun r => ?_)
  by_cases e : r.nsid = k <;> simp [e, other]

/-- A replication that starts anew is in its first mode (R401). -/
theorem repl_starts {t : State} {l : List ReplState} {n : Nat} (repl : t.cane.repl = (l.filter fun r => r.nsid != n) ++ [ReplState.start n]) :
    (getRepl t n).map ReplState.mode = some 1 := by
  rw [getRepl, repl, List.find?_append, (repl_gone l n).1]
  simp [ReplState.start]

/-! ### Links -/

theorem canePump_links (s : State) (l : List Nat) : spoken talk (l.foldl canePump s) = spoken talk s := foldl_keeps (spoken talk) canePump_spoken l s

/-- Settles O50: KX1 by the handshakes there are, KX2 and KX3 by what checks, a timer by its limit, a setting by what it changes. -/
theorem caneSessions : Obligations.CaneSessions := by
  unfold Obligations.CaneSessions
  refine ⟨?cannot, ?again, ?other, ?rekey, ?noRoom, ?domain, ?crossed, ?room, ?noKx2, ?kx2, ?noKx3, ?kx3, ?fails, ?rtoKex, ?rtoEarly, ?rtoIdle, ?rto, ?giveupKex, ?giveupAnswer,
    ?giveupCall, ?giveupIdle, ?dedup, ?oldKeys, ?oldKept, ?rekeys, ?noRekey, ?link, ?noLink, ?neighbor, ?echo, ?foreign, ?cleared, ?changed, ?same⟩
  case cannot => exact fun s n b can => congrArg Host.Outcome.next (if_pos (by simp [can]))
  case again => exact fun s n b x can found same => (execKx1_answered can found).trans (congrArg Host.Outcome.next (if_pos same))
  case other =>
    intro s n b x can found other
    rw [execKx1_answered can found, if_neg other]
    cases kexOk s b 1224 <;> rfl
  case rekey =>
    intro s n b x can none_ begun found
    rw [execKx1_new can none_, begun]
    dsimp only
    rw [found]
  case noRoom =>
    intro s n b can none_ begun none2 room
    rw [execKx1_new can none_, begun]
    dsimp only
    rw [none2]
    dsimp only
    rw [room]
  case domain =>
    intro s n b can none_ other
    rw [execKx1_new can none_, if_pos]
    unfold kexOk
    simp [other]
  case crossed =>
    intro s n b x can none_ begun
    rw [execKx1_new can none_, begun]
  case room =>
    intro s n b u can none_ begun none2 room
    rw [execKx1_new can none_, begun]
    dsimp only
    rw [none2]
    dsimp only
    rw [room]
  case noKx2 =>
    intro s n b none_
    refine congrArg Host.Outcome.next ?_
    rw [none_]
  case kx2 =>
    rintro s n b x cert begun rfl
    refine ⟨_, rfl, fun bad => ?_, fun k good => ?_⟩
    · rw [begun]
      dsimp only
      rw [bad]
    · rw [begun]
      dsimp only
      rw [good]
      dsimp only
      by_cases ok : kexOk s b 1132 = true ∧ Config.sigOk (subjKey (certAt b 1132)) (sha3 (x.kx1 ++ b.take (1136 + (certAt b 1132).length)))
          ((b.drop (1136 + (certAt b 1132).length)).take 2420) = true
      · rw [if_pos ok, if_neg (by simp [ok.1, ok.2])]
      · rw [if_neg ok, if_pos]
        rw [← Bool.not_and, Bool.not_eq_true', ← Bool.not_eq_true, Bool.and_eq_true]
        exact ok
  case noKx3 =>
    intro s n b none_
    refine congrArg Host.Outcome.next ?_
    rw [none_]
  case kx3 =>
    intro s n b x found
    refine congrArg Host.Outcome.next ?_
    rw [found]
    dsimp only
    cases Config.sigOk (subjKey (certAt x.kx1 1224)) (sha3 (x.kx1 ++ x.kx2)) ((b.drop 4).take 2420) <;> rfl
  case fails =>
    intro s sid x found none_
    have run := dropSession_found (s := authFail s) found
    rw [none_] at run
    unfold failKex
    rw [run]
    refine ⟨rfl, List.find?_eq_none.mpr fun y hy => ?_⟩
    have away := (List.mem_filter.mp hy).2
    simpa using away
  case rtoKex =>
    intro s sid m x found phase late
    refine congrArg Host.Outcome.next ?_
    rw [found]
    exact (if_pos phase).trans (if_pos late)
  case rtoEarly =>
    intro s sid m x found phase early
    refine congrArg Host.Outcome.next ?_
    rw [found]
    exact (if_pos phase).trans (if_neg (by omega))
  case rtoIdle =>
    intro s sid m why
    refine congrArg Host.Outcome.next ?_
    rcases why with none_ | ⟨x, found, why⟩
    · rw [none_]
    · rw [found]
      dsimp only
      rw [if_neg (by rcases why with h | ⟨h, -⟩ | ⟨h, -⟩ <;> omega)]
      by_cases stands : x.phase ≠ 2 ∨ (!caneUp s) = true
      · exact if_pos stands
      · rw [if_neg stands]
        rcases why with h | ⟨-, h⟩ | ⟨-, h⟩
        · exact absurd (.inl (by omega)) stands
        · exact absurd (.inr (by simp [h])) stands
        · rw [h]
          rfl
  case rto =>
    rintro s sid m x o k found phase up one rfl open_ sent late rfl
    have run : exec (.caneRto sid o.msgId) s = .next (modSession ((((segmentsFrom (o.bytes.length / segBytes + 1) o.bytes (o.acked / segBytes * segBytes)).take
        (ceilDiv (o.sent - o.acked / segBytes * segBytes) segBytes)).foldl (fun s b => caneFrame s sid o.typ o.hops o.msgId b) s).updCane fun c =>
          { c with retransmits := satAdd c.retransmits ((segmentsFrom (o.bytes.length / segBytes + 1) o.bytes (o.acked / segBytes * segBytes)).take
            (ceilDiv (o.sent - o.acked / segBytes * segBytes) segBytes)).length }) sid fun y => { y with out := updIf o.same (fun m => { m with sentAt := s.beat }) y.out }) := by
      refine congrArg Host.Outcome.next ?_
      rw [found]
      dsimp only
      rw [if_neg (by omega), if_neg (by simp [phase, up]), filter_one one (by simp [open_, sent, late])]
      rfl
    have same := resend_spoken ((segmentsFrom (o.bytes.length / segBytes + 1) o.bytes (o.acked / segBytes * segBytes)).take
      (ceilDiv (o.sent - o.acked / segBytes * segBytes) segBytes)) s sid o.typ o.hops o.msgId
    obtain ⟨u, hu⟩ : ∃ u, u = ((segmentsFrom (o.bytes.length / segBytes + 1) o.bytes (o.acked / segBytes * segBytes)).take
        (ceilDiv (o.sent - o.acked / segBytes * segBytes) segBytes)).foldl (fun s b => caneFrame s sid o.typ o.hops o.msgId b) s := ⟨_, rfl⟩
    rw [← hu] at same run
    obtain ⟨y, own, spoke⟩ := getSession_of_spoken (key := fun w => w.1.1) (fun _ => rfl) same found
    simp only [spoken, Prod.mk.injEq] at same
    obtain ⟨ctxs, xlat, -, -, -, -, -, again, -⟩ := same
    have out : y.out = [o] := (congrArg Prod.snd spoke).trans one
    refine ⟨_, run, xlat, ctxs, ?_, _, getSession_modSession (s := u.updCane _) own, ?_⟩
    · rw [← again]
      rfl
    · show updIf o.same (fun m => { m with sentAt := s.beat }) y.out = _
      rw [out]
      simp [updIf, CaneMsg.same]
  case giveupKex =>
    intro s sid m x found phase
    refine congrArg Host.Outcome.next ?_
    rw [found]
    exact (if_neg (by omega)).trans (if_pos phase)
  case giveupAnswer =>
    intro s sid m x found phase late
    refine congrArg Host.Outcome.next ?_
    rw [found]
    exact (if_pos phase).trans (if_pos late)
  case giveupCall =>
    rintro s sid m x o a found phase one rfl open_ typ call late
    have run : exec (.caneGiveup sid o.msgId) s = .next (failMsgs (modSession s sid fun y => { y with out := y.out.filter fun m => !([o].contains m) }) [o]) := by
      refine congrArg Host.Outcome.next ?_
      rw [found]
      dsimp only
      rw [if_neg (by omega), if_neg (by omega), filter_one one (by simp [open_, late])]
      refine (if_neg (by simp)).trans (if_neg ?_)
      simp [typ]
    refine ⟨_, run, ?_, { x with out := x.out.filter fun m => !([o].contains m) }, ?_, ?_⟩
    · unfold failMsgs
      rw [List.filterMap_cons_some call]
      rfl
    · rw [getSession, failMsgs_frame]
      exact getSession_modSession (f := fun y => { y with out := y.out.filter fun m => !([o].contains m) }) found
    · show x.out.filter _ = _
      rw [one]
      simp
  case giveupIdle =>
    intro s sid m x found on none_
    refine congrArg Host.Outcome.next ?_
    rw [found]
    dsimp only
    rw [if_neg (by omega), if_neg (by omega), none_]
    rfl
  case dedup => exact fun s sid m x found => ⟨_, rfl, rfl, getSession_modSession found⟩
  case oldKeys =>
    intro s sid x b found until_ late
    refine ⟨_, congrArg Host.Outcome.next ?_, rfl⟩
    rw [found, Option.bind_some, until_]
    exact if_pos late
  case oldKept =>
    intro s sid x b found why
    refine congrArg Host.Outcome.next ?_
    rw [found, Option.bind_some]
    rcases why with h | ⟨h, early⟩
    · rw [h]
    · rw [h]
      exact if_neg (by omega)
  case rekeys =>
    intro s sid x found due can
    refine congrArg Host.Outcome.next ?_
    rw [found]
    exact if_pos (by simp [due, can])
  case noRekey =>
    intro s sid x found why
    refine congrArg Host.Outcome.next ?_
    rw [found]
    exact if_neg (by rcases why with h | h <;> simp [h])
  case link =>
    intro s p st on port small
    obtain ⟨u, hu⟩ : ∃ u : State, exec (.caneLinkChange p st) s = .next ((u.cane.sessions.map Session.sid).foldl canePump u) ∧ u.cane.link = vset s.cane.link p st ∧
        u.cane.queue = s.cane.queue ∧ u.ctxs = s.ctxs := by
      refine ⟨_, congrArg Host.Outcome.next (if_neg ?_), ?_, ?_, ?_⟩
      · rintro (off | big | bad)
        · simp [on] at off
        · omega
        · omega
      · exact ite_agree (fun t : State => t.cane.link) (ite_agree (fun t : State => t.cane.link) rfl rfl) (ite_agree (fun t : State => t.cane.link) rfl rfl)
      · exact ite_agree (fun t : State => t.cane.queue) (ite_agree (fun t : State => t.cane.queue) rfl rfl) (ite_agree (fun t : State => t.cane.queue) rfl rfl)
      · exact ite_agree State.ctxs (ite_agree State.ctxs rfl rfl) (ite_agree State.ctxs rfl rfl)
    obtain ⟨run, links, queue, ctxs⟩ := hu
    have same := canePump_links u (u.cane.sessions.map Session.sid)
    simp only [spoken, Prod.mk.injEq] at same
    obtain ⟨ctxs', -, queue', -, -, -, links', -, -⟩ := same
    refine ⟨_, run, ?_, ?_, queue'.trans queue, ctxs'.trans ctxs⟩
    · rw [links', links]
      exact vget_vset_same _ _ _ port
    · rw [links', links]
      exact vget_vset_ne _ _ _ (by omega)
  case noLink =>
    intro s p st why
    exact congrArg Host.Outcome.next (if_pos (why.imp_left fun off => by simp [off]))
  case neighbor =>
    intro s p src port up
    refine ⟨_, congrArg Host.Outcome.next (if_neg ?_), rfl, _, rfl⟩
    rintro (big | down | other)
    · omega
    · simp [up] at down
    · exact other rfl
  case echo =>
    intro s p src b port up
    refine congrArg Host.Outcome.next (if_neg ?_)
    rintro (big | down | other)
    · omega
    · simp [up] at down
    · exact other rfl
  case foreign =>
    intro s p src d b why
    have stays : 2 ≤ p ∨ (!canePort s p) = true ∨ d ≠ ownAddress s p := by
      rcases why with h | h | h
      · exact .inr (.inr h)
      · exact .inl h
      · exact .inr (.inl (by simp [h]))
    exact ⟨congrArg Host.Outcome.next (if_pos stays), congrArg Host.Outcome.next (if_pos stays)⟩
  case cleared =>
    intro s c x i v waits off
    have run := execCaneRepl_runs waits
    rw [if_pos (by simp [off])] at run
    obtain ⟨cane, nv⟩ := setDone_keeps (sweepGather ((storeNv s (0x0C00001C + (i + 1)) v).updCane fun k => { k with repl := k.repl.filter fun r => r.nsid != i + 1 })) c St.ok 0
    obtain ⟨gone, others⟩ := repl_gone s.cane.repl (i + 1)
    refine ⟨_, run, ?_, ?_, fun n other => ?_⟩
    · rw [getRepl, cane]
      exact gone
    · rw [show 0x0C00001D + i = 0x0C00001C + (i + 1) by omega]
      exact nvVal_stored (s := s) nv
    · rw [getRepl, cane]
      exact others n other
  case changed =>
    intro s c x i v waits on other
    have run := execCaneRepl_runs waits
    rw [if_neg (by simp [on]), if_neg (fun h => other h.1)] at run
    obtain ⟨cane, nv⟩ := setDone_keeps (sweepGather ((storeNv s (0x0C00001C + (i + 1)) v).updCane fun k =>
      { k with repl := (k.repl.filter fun r => r.nsid != i + 1) ++ [ReplState.start (i + 1)] })) c St.ok 0
    refine ⟨_, run, repl_starts (l := s.cane.repl) (congrArg Cane.repl cane), ?_⟩
    rw [show 0x0C00001D + i = 0x0C00001C + (i + 1) by omega]
    exact nvVal_stored (s := s) nv
  case same =>
    intro s c x i v waits on same
    have run := execCaneRepl_runs waits
    rw [if_neg (by simp [on])] at run
    rw [show 0x0C00001D + i = 0x0C00001C + (i + 1) by omega]
    by_cases role : replVal s (i + 1) % 4 = v.toNat % 4
    · rw [if_pos ⟨same, role⟩] at run
      obtain ⟨cane, nv⟩ := setDone_keeps (storeNv s (0x0C00001C + (i + 1)) v) c St.ok 0
      exact ⟨_, run, nvVal_stored (s := s) nv, fun other => absurd role other, fun _ => congrArg (fun k : Cane => k.repl.find? fun r : ReplState => r.nsid == i + 1) cane⟩
    · rw [if_neg (fun h => role h.2)] at run
      obtain ⟨cane, nv⟩ := setDone_keeps (sweepGather ((storeNv s (0x0C00001C + (i + 1)) v).updCane fun k =>
        { k with repl := (k.repl.filter fun r => r.nsid != i + 1) ++ [ReplState.start (i + 1)] })) c St.ok 0
      exact ⟨_, run, nvVal_stored (s := s) nv, fun _ => repl_starts (l := s.cane.repl) (congrArg Cane.repl cane), fun h => absurd h role⟩

end Sys2Proof.Proofs

end


section
/-! PROOF. O51: the feeds. -/

namespace Sys2Proof.Proofs

open Sys2Proof Sys2Proof.Machine Sys2Proof.Safety Sys2Proof.Laws

theorem getFeed_modFeed {s : State} {f : Nat} (h : f < 2) (g : Feed → Feed) : getFeed (modFeed s f g) f = g (getFeed s f) := vget_vset_same s.power.feeds _ _ h

theorem getFeed_modFeed_ne {s : State} {e f : Nat} (h : e ≠ f) (g : Feed → Feed) : getFeed (modFeed s f g) e = getFeed s e := vget_vset_ne _ _ _ h

/-- A command that changes one feed. -/
theorem feedTo_of_modFeed {i : Instr} {s : State} {f : Nat} {g : Feed → Feed} {k : Feed} (h : f < 2) (run : exec i s = .next (modFeed s f g)) (feed : g (getFeed s f) = k) :
    FeedTo i s f k :=
  ⟨_, run, rfl, (getFeed_modFeed h g).trans feed, fun _ other => getFeed_modFeed_ne other g⟩

theorem execFeedDrop_sags {s : State} {f : Nat} (h : f < 2) (mv : Int) : exec (.feedDrop f mv false) s = .next (modFeed s f fun k => k.drop mv) :=
  congrArg Host.Outcome.next ((if_neg (by omega)).trans (if_neg Bool.false_ne_true))

theorem execFeedDrop_trips {s : State} {f : Nat} (h : f < 2) (mv : Int) : exec (.feedDrop f mv true) s = .next (modFeed s f fun k =>
    { k with mv := mv, breaker := true, conduct := false, drops := if k.breaker then k.drops else satAdd32 k.drops 1 }) :=
  congrArg Host.Outcome.next ((if_neg (by omega)).trans (if_pos rfl))

theorem satAdd32_small {n : Nat} (small : n < 4294967295) : satAdd32 n 1 = n + 1 := by
  unfold satAdd32
  omega

/-- A feed that leaves its range, above or below: it is no longer good, conducts no more and is counted once (R405, R407). -/
theorem drop_lost {k : Feed} {mv : Int} (out : 78000 < mv ∨ mv < 34000) (small : k.drops < 4294967295) : k.drop mv =
    { k with mv := mv, lockout := k.lockout || decide (78000 < mv), good := false, conduct := false, breaker := k.breaker && decide (20000 ≤ mv), reversed := decide (mv < 0),
             drops := k.drops + if k.good then 1 else 0 } := by
  have lost : (decide (78000 < mv) || decide (mv < 34000)) = true := by simpa using out
  have none_ : ∀ b : Bool, (b && !decide (78000 < mv) && !decide (mv < 34000)) = false := fun b => by
    rw [Bool.and_assoc, ← Bool.not_or, lost]
    simp
  unfold Feed.drop
  dsimp only
  rw [none_, none_, lost, Bool.and_true, satAdd32_small small]
  cases k.good <;> rfl

/-- What a wipe and the Dawn after it leave (R84). -/
theorem startDawn_dawns (s : State) : Dawned s (startDawn s) ∧ (startDawn s).beat = s.beat ∧ (startDawn s).beatFrac = s.beatFrac ∧
    (startDawn s).power.feeds = s.power.feeds ∧ (startDawn s).power.aonPowered = s.power.aonPowered ∧ (startDawn s).day.lastWake = s.day.lastWake := by
  refine ⟨⟨⟨rfl, rfl, rfl, rfl, rfl, rfl, rfl, rfl, rfl, rfl, fun p hp => (List.mem_filter.mp hp).2, rfl, rfl⟩, rfl, rfl, rfl, rfl, rfl, rfl, rfl, fun h => ?_⟩,
    rfl, rfl, rfl, rfl, rfl⟩
  show (vget (s.power.halves.map fun h => { h with passed := false }) h Half.init).passed = false
  unfold vget
  rcases Nat.lt_or_ge h 2 with small | big
  · simp [small]
  · simp [Nat.not_lt.mpr big, Half.init]

/-- A good feed that conducts no more begins to, once its time has passed or the always-on domain has no power (R406). -/
theorem execFeedConduct_runs {s : State} {f : Nat} (h : f < 2) (good : (getFeed s f).good = true) (idle : (getFeed s f).conduct = false) (breaker : (getFeed s f).breaker = false)
    (time : s.power.aonPowered = true → (getFeed s f).goodAt + 25000 ≤ s.beat) : exec (.feedConduct f) s = .next (
      let s1 := modFeed s f fun k => { k with conduct := true }
      if !s1.power.aonPowered then powerUp s1
      else if !s1.power.lost || s1.sec.tamperAt.isSome then s1
      else if hotStopped s1 then s1.updPower fun p => { p with lost := false }
      else startDawn (noteWake s1 6)) := by
  refine congrArg Host.Outcome.next (if_neg ?_)
  rintro (big | bad | on | trip | ⟨aon, early⟩)
  · omega
  · simp [good] at bad
  · exact Bool.false_ne_true (idle.symm.trans on)
  · exact Bool.false_ne_true (breaker.symm.trans trip)
  · have := time aon
    omega

/-- Settles O51: a feed by its voltage and its lockout, conduction by the power of the always-on domain and what stands in the way of a restart. -/
theorem feedsComeAndGo : Obligations.FeedsComeAndGo := by
  unfold Obligations.FeedsComeAndGo
  refine ⟨?good, ?notGood, ?running, ?lost, ?tampered, ?dead, ?notYet, ?drop, ?trip, ?noFeed, ?above, ?below, ?between, ?reversed, ?trips, ?release, ?locked⟩
  case good =>
    intro s f mv h above below bad free
    refine feedTo_of_modFeed h (congrArg Host.Outcome.next (if_neg ?_)) rfl
    rintro (big | low | high | good | locked)
    · omega
    · omega
    · omega
    · exact Bool.false_ne_true (bad.symm.trans good)
    · exact Bool.false_ne_true (free.symm.trans locked)
  case notGood => exact fun s f mv why => congrArg Host.Outcome.next (if_pos why)
  case running =>
    intro s f h good idle breaker aon time on
    refine feedTo_of_modFeed h ((execFeedConduct_runs h good idle breaker fun _ => time).trans (congrArg Host.Outcome.next ((if_neg ?_).trans (if_pos ?_)))) rfl
    · show ¬ (!s.power.aonPowered) = true
      simp [aon]
    · show (!s.power.lost || _) = true
      simp [on]
  case lost =>
    intro s f h good idle breaker aon time lost calm
    obtain ⟨u, hu⟩ : ∃ u, u = modFeed s f fun k => { k with conduct := true } := ⟨_, rfl⟩
    have own : getFeed u f = { getFeed s f with conduct := true } := (congrArg (getFeed · f) hu).trans (getFeed_modFeed h _)
    have keeps : u.power.aonPowered = true ∧ u.power.lost = true ∧ u.sec.tamperAt = none ∧ hotStopped u = hotStopped s ∧ u.beat = s.beat := by
      rw [hu]
      exact ⟨aon, lost, calm, rfl, rfl⟩
    obtain ⟨aon', lost', calm', hot', beat⟩ := keeps
    have run := execFeedConduct_runs h good idle breaker fun _ => time
    dsimp only at run
    rw [← hu, if_neg (by simp [aon']), if_neg (by simp [lost', calm']), hot'] at run
    refine ⟨fun hot => ?_, fun cold => ?_⟩
    · rw [if_pos hot] at run
      refine ⟨_, run, ?_, rfl, own⟩
      rw [hu]
      rfl
    · rw [if_neg (by rw [cold]; exact Bool.false_ne_true)] at run
      obtain ⟨dawned, beatD, -, feeds, -, wake⟩ := startDawn_dawns (noteWake u 6)
      refine ⟨_, run, ?_, beatD.trans beat, ?_, ?_⟩
      · have same : Dawned s (startDawn (noteWake u 6)) = Dawned (noteWake u 6) (startDawn (noteWake u 6)) := by
          rw [hu]
          rfl
        rw [same]
        exact dawned
      · rw [wake, ← beat]
        rfl
      · unfold getFeed
        rw [feeds]
        exact own
  case tampered =>
    intro s f h good idle breaker aon time tamper
    refine feedTo_of_modFeed h ((execFeedConduct_runs h good idle breaker fun _ => time).trans (congrArg Host.Outcome.next ((if_neg ?_).trans (if_pos ?_)))) rfl
    · show ¬ (!s.power.aonPowered) = true
      simp [aon]
    · show (!s.power.lost || s.sec.tamperAt.isSome) = true
      simp [tamper]
  case dead =>
    intro s f h good idle breaker dark
    obtain ⟨u, hu⟩ : ∃ u, u = ((({ (modFeed s f fun k => { k with conduct := true }) with beat := 0, beatFrac := 0 } : State).updPower fun p =>
      { p with aonPowered := true, feeds := p.feeds.map fun k => { k with goodAt := 0 } }).updDay fun d => { d with stepFrom := 0 }) := ⟨_, rfl⟩
    have run : exec (.feedConduct f) s = .next (startDawn u) := by
      rw [hu]
      refine (execFeedConduct_runs h good idle breaker fun aon => absurd (dark.symm.trans aon) Bool.false_ne_true).trans (congrArg Host.Outcome.next (if_pos ?_))
      show (!s.power.aonPowered) = true
      simp [dark]
    have keeps : u.beat = 0 ∧ u.beatFrac = 0 ∧ u.power.aonPowered = true ∧ u.power.feeds = (modFeed s f fun k => { k with conduct := true }).power.feeds.map fun k => { k with goodAt := 0 } := by
      rw [hu]
      exact ⟨rfl, rfl, rfl, rfl⟩
    obtain ⟨beat, frac, aon, feeds⟩ := keeps
    obtain ⟨dawned, beatD, fracD, feedsD, aonD, -⟩ := startDawn_dawns u
    refine ⟨_, run, ?_, beatD.trans beat, fracD.trans frac, aonD.trans aon, ?_⟩
    · have same : Dawned s (startDawn u) = Dawned u (startDawn u) := by
        rw [hu]
        rfl
      rw [same]
      exact dawned
    · have own := congrArg Feed.conduct (getFeed_modFeed (s := s) h fun k => { k with conduct := true })
      unfold getFeed vget at own ⊢
      rw [feedsD, feeds]
      simpa [h] using own
  case notYet =>
    intro s f why
    refine congrArg Host.Outcome.next (if_pos ?_)
    rcases why with h | h | h | h
    · exact .inr (.inl (by simp [h]))
    · exact .inr (.inr (.inl h))
    · exact .inr (.inr (.inr (.inl h)))
    · exact .inr (.inr (.inr (.inr h)))
  case drop => exact fun s f mv h => feedTo_of_modFeed h (execFeedDrop_sags h mv) rfl
  case trip => exact fun s f mv h => feedTo_of_modFeed h (execFeedDrop_trips h mv) rfl
  case noFeed => exact fun s f mv b big => congrArg Host.Outcome.next (if_pos big)
  case above =>
    intro s f mv h high small
    refine feedTo_of_modFeed h (execFeedDrop_sags h mv) ((drop_lost (.inl high) small).trans ?_)
    simp [high, show 20000 ≤ mv by omega, show 0 ≤ mv by omega]
  case below =>
    intro s f mv h pos low small
    refine feedTo_of_modFeed h (execFeedDrop_sags h mv) ((drop_lost (.inr low) small).trans ?_)
    simp [show ¬ 78000 < mv by omega, pos]
  case between =>
    intro s f mv h low high
    refine feedTo_of_modFeed h (execFeedDrop_sags h mv) ?_
    unfold Feed.drop
    simp [show ¬ 78000 < mv by omega, show ¬ mv < 34000 by omega, show ¬ mv < 0 by omega, show 20000 ≤ mv by omega]
  case reversed =>
    intro s f mv h neg
    refine ⟨_, execFeedDrop_sags h mv, ?_⟩
    dsimp only
    rw [getFeed_modFeed h]
    unfold Feed.drop
    simp [neg, show mv < 34000 by omega]
  case trips =>
    intro s f mv h closed small
    refine feedTo_of_modFeed h (execFeedDrop_trips h mv) ?_
    rw [closed, if_neg Bool.false_ne_true, satAdd32_small small]
  case release =>
    intro s f mv h locked low
    refine feedTo_of_modFeed h (congrArg Host.Outcome.next (if_neg ?_)) rfl
    rintro (big | free | high)
    · omega
    · simp [locked] at free
    · omega
  case locked =>
    intro s f mv why
    exact congrArg Host.Outcome.next (if_pos (why.imp_right (Or.imp_left fun free => by simp [free])))

end Sys2Proof.Proofs

end


section
/-! PROOF. O52: the in-service test of a half, and the energy and armed size it gives. -/

namespace Sys2Proof.Proofs

open Sys2Proof Sys2Proof.Machine Sys2Proof.Safety Sys2Proof.Laws

/-- The energy, the octs counted and the armed size that goes down with them (R414). -/
def rearmed (s : State) : State := s.updPower fun p =>
  { p with energy := energyNow s, armOcts := (countedOcts s).length, armed := min s.power.armed (armTarget s (countedOcts s).length (energyNow s)),
           jthrough := decide (energyNow s < 2150 ∨ (countedOcts s).length < 4) }

theorem rearmBy_down (s : State) :
    rearmBy s false = { rearmed s with fns := (rearmBy s false).fns, out := (rearmBy s false).out, side := (rearmBy s false).side } ∧
    ((rearmed s).power.armed = s.power.armed → (rearmBy s false).fns = s.fns) := by
  have run : rearmBy s false = eventIf (decide ((rearmed s).power.armed ≠ s.power.armed)) (rearmed s) 4 0xFF := rfl
  rw [run]
  refine ⟨eventIf_frame _ (rearmed s) 4 0xFF, fun same => ?_⟩
  rw [same]
  simp only [ne_eq, not_true_eq_false, decide_false]
  rfl

/-- The working energy in steps of 64 MiB: the reserve of 2,150 taken off, by the energy that a step takes at this number of octs (R414). -/
theorem energySteps_eq {n e : Nat} (enough : 2150 ≤ e) (pos : 0 < n) : energySteps n e = (e - 2150) * 10000 * n / (2296875 * max n 8) := by
  unfold energySteps
  rw [if_neg (by omega)]
  split
  next many =>
    rw [Nat.max_eq_left many, Nat.mul_div_mul_right _ _ pos, show (e - 2150) * 10000 = (e - 2150) * 16 * 625 by omega, show 2296875 = 3675 * 625 by rfl,
      Nat.mul_div_mul_right _ _ (by decide)]
  next few =>
    rw [Nat.max_eq_right (by omega), show (e - 2150) * 10000 * n = (e - 2150) * 2 * n * 5000 by rw [Nat.mul_right_comm _ 10000, Nat.mul_right_comm _ 2]; omega, show 2296875 * 8 = 3675 * 5000 by rfl, Nat.mul_div_mul_right _ _ (by decide)]

theorem halfTerm_works {h : Half} (works : h.faulty = false) (volts : 32000 ≤ h.mv) : halfTerm h = h.capUf * (h.mv ^ 2 - 32000 ^ 2) := by
  unfold halfTerm
  rw [if_neg (by simp [works]; omega), Nat.pow_two, Nat.pow_two]

theorem capBits_small {n v : Nat} (small : v < 2 ^ n) : capBits n v = v := by
  unfold capBits
  omega

theorem execPwrTestSinkEnd_stores {s : State} (cap esr : Nat) (moved : Bool) (on : s.power.testing ≠ 0) (sink : s.power.sink = true) : exec (.pwrTestSinkEnd cap esr moved) s =
    .next (s.updPower fun p => { p with sink := false, testCap := capBits 13 cap, testEsr := capBits 12 esr, testMoved := moved }) := by
  refine congrArg Host.Outcome.next (if_neg ?_)
  rintro (off | no)
  · exact on off
  · simp [sink] at no

/-- A half as its test measured it (R413). -/
def testedHalf (s : State) (h : Nat) (fail : Bool) : Half :=
  { vget s.power.halves h Half.init with
    capUf := s.power.testCap, esr := s.power.testEsr, faulty := fail, passed := (vget s.power.halves h Half.init).passed || !fail, testT := vget s.therm.reading 17 0 }

/-- The state at the end of a test, before the energy is computed anew. -/
def tested (s : State) (h : Nat) (fail : Bool) : State := s.updPower fun p =>
  { p with halves := vset p.halves h (testedHalf s h fail), testFails := satAdd p.testFails (b2n fail), lastTest := s.beat, lastHalf := h, testing := 0,
           testWant := false, dawnTests := p.dawnTests - 1 }

theorem execPwrTestDone_runs {s : State} {h : Nat} {fail : Bool} (at_ : s.power.testing = h + 1) (sink : s.power.sink = false)
    (fails : fail = true ↔ s.power.testCap < nvVal s 0x0D00000D ∨ nvVal s 0x0D00000E < s.power.testEsr ∨ s.power.testMoved = false) :
    exec .pwrTestDone s = .next (rearmBy (tested s h fail) false) := by
  have failed : (decide (s.power.testCap < nvVal s 0x0D00000D) || decide (nvVal s 0x0D00000E < s.power.testEsr) || !s.power.testMoved) = fail := by
    rw [Bool.eq_iff_iff, fails]
    simp [or_assoc]
  have half : s.power.testing - 1 = h := by omega
  rw [← failed, ← half]
  refine congrArg Host.Outcome.next (if_neg ?_)
  rintro (off | on)
  · omega
  · exact Bool.false_ne_true (sink.symm.trans on)

/-- Settles O52: a test by its step, the energy by its halves, the armed size by its terms. -/
theorem bankTests : Obligations.BankTests := by
  unfold Obligations.BankTests
  refine ⟨?starts, ?notDue, ?sinks, ?stored, ?noSink, ?done, ?notDone, ?none_, ?armed, ?energy, ?noEnergy, ?now, ?due⟩
  case starts =>
    intro s h small idle aon on calm half charging full due
    refine ⟨_, congrArg Host.Outcome.next (if_neg ?_), rfl⟩
    have full0 := full 0 (by omega)
    have full1 := full 1 (by omega)
    simp [idle, aon, on, calm, half, charging, full0, full1, due]
  case notDue =>
    intro s h why
    refine congrArg Host.Outcome.next (if_pos ?_)
    rcases why with h | h | h | h | h | h | h | ⟨i, small, low⟩
    · exact .inl h
    · simp [h]
    · simp [h]
    · simp [h]
    · simp [h]
    · simp [h]
    · simp [h]
    · rcases (show i = 0 ∨ i = 1 by omega) with rfl | rfl
      · simp [Nat.not_le.mpr low]
      · simp [Nat.not_le.mpr low]
  case sinks =>
    intro s cap esr moved on sink small small'
    refine ⟨_, execPwrTestSinkEnd_stores cap esr moved on sink, ?_⟩
    rw [capBits_small small, capBits_small small']
    rfl
  case stored => exact fun s cap esr moved on sink => execPwrTestSinkEnd_stores cap esr moved on sink
  case noSink =>
    intro s cap esr moved why
    refine congrArg Host.Outcome.next (if_pos ?_)
    rcases why with h | h
    · exact .inr (by simp [h])
    · exact .inl h
  case done =>
    intro s h fail small at_ sink fails
    obtain ⟨u, hu⟩ : ∃ u, u = tested s h fail := ⟨_, rfl⟩
    have run := execPwrTestDone_runs at_ sink fails
    rw [← hu] at run
    obtain ⟨frame, fns⟩ := rearmBy_down u
    have base : u = { s with power := u.power } := by rw [hu]; rfl
    have keeps : vget u.power.halves h Half.init = testedHalf s h fail ∧
        vget u.power.halves (1 - h) Half.init = vget s.power.halves (1 - h) Half.init ∧ u.power.testFails = satAdd s.power.testFails (if fail then 1 else 0) ∧
        u.power.lastTest = s.beat ∧ u.power.lastHalf = h ∧ u.power.testing = 0 ∧ u.power.testWant = false ∧ u.power.dawnTests = s.power.dawnTests - 1 ∧
        u.power.armed = s.power.armed ∧ countedOcts u = countedOcts s ∧ u.fns = s.fns := by
      rw [hu]
      refine ⟨vget_vset_same _ _ _ small, vget_vset_ne _ _ _ (by omega), ?_, rfl, rfl, rfl, rfl, rfl, rfl, rfl, rfl⟩
      cases fail <;> rfl
    obtain ⟨half, other, count, last, lastHalf, testing, want, tests, armed, octs, fns'⟩ := keeps
    obtain ⟨t, ht⟩ : ∃ t, t = rearmBy u false := ⟨_, rfl⟩
    rw [← ht] at run frame fns
    have power : t.power = (rearmed u).power := (congrArg State.power frame :)
    have same : energyNow t = energyNow u ∧ ∀ n e, armTarget t n e = armTarget u n e := by
      rw [frame]
      exact ⟨rfl, fun _ _ => rfl⟩
    have energy : t.power.energy = energyNow u := congrArg Power.energy power
    have counted : t.power.armOcts = (countedOcts u).length := congrArg Power.armOcts power
    have armedT : t.power.armed = min u.power.armed (armTarget u (countedOcts u).length (energyNow u)) := congrArg Power.armed power
    have through : t.power.jthrough = decide (energyNow u < 2150 ∨ (countedOcts u).length < 4) := congrArg Power.jthrough power
    refine ⟨t, run, ?_, ?_, ?_, ?_, ?_, ?_, ?_, ?_, ?_, ?_, ?_, ?_, ?_, fun stays => ?_⟩
    · rw [power]
      exact frame.trans (congrArg (fun v : State => { v with power := (rearmed u).power, fns := t.fns, side := t.side, out := t.out }) base)
    · rw [power]; exact half
    · rw [power]; exact other
    · rw [power]; exact count
    · rw [power]; exact last
    · rw [power]; exact lastHalf
    · rw [power]; exact testing
    · rw [power]; exact want
    · rw [power]; exact tests
    · rw [energy, same.1]
    · rw [counted, octs]
    · rw [armedT, same.2, energy, counted, armed]
    · rw [through, energy, counted]
    · exact (fns (by rw [← power, stays, armed])).trans fns'
  case notDone => exact fun s why => congrArg Host.Outcome.next (if_pos why)
  case none_ =>
    intro s n e why
    refine if_pos ?_
    rcases why with h | h | h | ⟨h, h'⟩
    · exact .inl h
    · simp [h]
    · simp [testPassed, h 0 (by decide), h 1 (by decide)]
    · simp [h, h']
  case armed =>
    intro s n e h many charging small passed day enough
    have some_ : testPassed s = true := by
      unfold testPassed
      rcases (show h = 0 ∨ h = 1 by omega) with rfl | rfl <;> simp [passed]
    refine (if_neg ?_).trans ?_
    · rintro (few | off | none_ | away)
      · omega
      · simp [charging] at off
      · simp [some_] at none_
      · simp [day] at away
    · unfold armSteps
      rw [energySteps_eq enough (by omega)]
  case energy =>
    intro s a b halves
    obtain ⟨works0, volts0, a_⟩ := halves 0 a (.inl ⟨rfl, rfl⟩)
    obtain ⟨works1, volts1, b_⟩ := halves 1 b (.inr ⟨rfl, rfl⟩)
    unfold energyNow
    rw [halfTerm_works works0 volts0, halfTerm_works works1 volts1, ← a_, ← b_]
  case noEnergy =>
    intro s none_
    have zero : ∀ h, halfTerm (vget s.power.halves h Half.init) = 0 := fun h => if_pos (by rcases none_ h with h | h <;> simp [h])
    simp only [energyNow, zero, Nat.add_zero, Nat.zero_div]
  case now =>
    intro s c x i v waits
    refine congrArg Host.Outcome.next ?_
    rw [waits]
  case due =>
    exact fun s v due => (actDue_one due).trans ((if_neg (by decide)).trans ((if_neg (by decide)).trans ((if_neg (by decide)).trans (if_pos rfl))))

end Sys2Proof.Proofs

end


section

/-! PROOF. What a flush at Last Light or at a hot stop leaves: BEAT, the time of day, the sensors and the bank (R405, R424). -/

namespace Sys2Proof.Proofs

open Sys2Proof Sys2Proof.Machine Sys2Proof.Safety Sys2Proof.Laws

/-- What no program, journal slot or verification touches: only the bands Last Light opened are added to. -/
def vital (s : State) := (s.beat, s.day, s.therm, { s.power with llBands := [] })

theorem journalAdd_vital (s : State) (rs) : vital (journalAdd s rs) = vital s := ite_agree vital rfl rfl

theorem bookOp_vital (s : State) (d n : Nat) (o : ArrayOp) : vital (bookOp s d n o) = vital s := by
  unfold bookOp
  split
  next t ht =>
    obtain ⟨f, -, e⟩ := bookNow_queues ht
    exact (congrArg vital e :)
  next => rfl

theorem bookUpdate_vital (s : State) : vital (bookUpdate s) = vital s := by
  unfold bookUpdate
  split
  · exact (congrArg vital (of_unplanned (book_unplanned ..)) :)
  · rfl

theorem putSlot_vital (s : State) (b : Band) (psa : Nat) (r : SlotRec) : vital (putSlot s b psa r) = vital s :=
  (congrArg vital (useKey_frame s r.nsid r.epoch) :)

theorem putSlots_vital {α : Type} (b : Band) (at_ : α → Nat) (r : α → SlotRec) (l : List α) (s : State) :
    vital (l.foldl (fun s a => putSlot s b (at_ a) (r a)) s) = vital s := foldl_keeps vital (fun _ _ => putSlot_vital ..) _ _

theorem writeParity_vital (s : State) (b : Band) (p : Nat) : vital (writeParity s b p) = vital s :=
  foldl_keeps vital (fun _ _ => ite_agree vital ((putSlot_vital ..).trans (putSlot_vital ..)) (putSlot_vital ..)) _ _

theorem fillStripe_vital (s : State) (b : Band) : vital (fillStripe s b) = vital s :=
  (writeParity_vital ..).trans (foldl_keeps vital (fun _ _ => putSlot_vital ..) _ _)

theorem programWl_vital (s : State) (b : Band) (p : Nat) : vital (programWl s b p) = vital s :=
  foldl_keeps vital (fun _ _ => bookOp_vital ..) _ _

theorem closeStripe_vital (s : State) (n : Nat) : vital (closeStripe s n) = vital s := by
  unfold closeStripe
  split
  · rfl
  · exact ite_agree vital ((programWl_vital ..).trans (fillStripe_vital ..)) (fillStripe_vital ..)

theorem closeRest_vital (fuel : Nat) (s : State) (n : Nat) : vital (closeRest fuel s n) = vital s := by
  induction fuel generalizing s with
  | zero => rfl
  | succ fuel ih =>
    unfold closeRest
    split
    · rfl
    · exact ite_agree vital rfl ((ih _).trans (closeStripe_vital ..))

theorem placeSummary_vital (s : State) (n : Nat) (r : SlotRec) : vital (placeSummary s n r) = vital s := by
  unfold placeSummary
  repeat' split
  · rfl
  · rfl
  · exact ite_agree vital ((closeStripe_vital ..).trans (putSlot_vital ..)) (putSlot_vital ..)

theorem markClosed_vital (s : State) (n : Nat) : vital (markClosed s n) = vital s := by
  unfold markClosed
  split
  · rfl
  · exact journalAdd_vital ..

theorem closeBand_vital (s : State) (n : Nat) : vital (closeBand s n) = vital s := by
  unfold closeBand
  split
  · rfl
  · exact (markClosed_vital ..).trans ((closeRest_vital ..).trans (foldl_keeps vital (fun _ _ => placeSummary_vital ..) _ _))

theorem closeFull_vital (s : State) (n : Nat) : vital (closeFull s n) = vital s := by
  unfold closeFull
  split
  · rfl
  · exact ite_agree vital (ite_agree vital (markClosed_vital ..) rfl) (ite_agree vital (closeBand_vital ..) rfl)

theorem drawReserve_vital (s : State) (n : Nat) : vital (drawReserve s n) = vital s := by
  have each : ∀ (l : List (Nat × Nat)) (s : State), vital (l.foldl (fun s c => modOct s (dieOct c.1) fun o => { o with reserve := o.reserve - 1 }) s) = vital s :=
    fun l s => foldl_keeps vital (f := fun s c => modOct s _ _) (fun _ _ => rfl) l s
  exact (each _ s :)

theorem startBand_vital {s : State} {b : Band} {cols : List (Nat × Nat)} {m n : Nat} {t : State} (h : startBand s b cols m = some (n, t)) :
    vital t = vital s := by
  unfold startBand at h
  replace h := ite_none h
  split at h
  · cases h
  · cases h
    refine (journalAdd_vital ..).trans ?_
    exact (foldl_keeps vital (f := fun s c => modBlock s _ _) (fun _ _ => rfl) _ _).trans rfl

theorem openSys_vital {s : State} {k : Nat} {reserve : Bool} {n : Nat} {t : State} (h : openSys s k reserve = some (n, t)) : vital t = vital s := by
  unfold openSys at h
  replace h := ite_none h
  split at h
  · cases h
  next h1 =>
    cases h
    exact (ite_agree vital (drawReserve_vital ..) rfl).trans (startBand_vital h1)

theorem sysBand_vital {s : State} {k : Nat} {reserve : Bool} {n : Nat} {t : State} (h : sysBand s k reserve = some (n, t)) : vital t = vital s := by
  unfold sysBand at h
  dsimp only at h
  split at h
  · cases h
    rfl
  · exact openSys_vital (ite_none h)

theorem placeIn_vital {s : State} {n : Nat} {early : Bool} {rs : List SlotRec} {p : Nat} {t : State} (h : placeIn s n early rs = some (p, t)) :
    vital t = vital s := by
  unfold placeIn at h
  extract_lets page s1 at h
  have first : vital s1 = vital s := by
    simp only [s1]
    split
    · exact ite_agree vital (closeStripe_vital ..) rfl
    · rfl
  clear_value s1
  split at h
  · cases h
  · split at h
    · cases h
    next b _ _ psa _ =>
      cases h
      have put : vital (rs.zipIdx.foldl (fun s r => putSlot s b (p + r.2) r.1) (takeAcc s1 n)) = vital s :=
        (putSlots_vital b (fun r : SlotRec × Nat => p + r.2) Prod.fst _ _).trans first
      exact (closeFull_vital ..).trans ((ite_agree vital (closeStripe_vital ..) rfl).trans (ite_agree vital put put))

theorem placeSys_vital {s : State} {k : Nat} {early reserve : Bool} {r : SlotRec} {p : Nat} {t : State} (h : placeSys s k early reserve r = some (p, t)) :
    vital t = vital s := by
  unfold placeSys at h
  replace h := ite_none h
  split at h
  · cases h
  next h1 => exact (placeIn_vital h).trans (sysBand_vital h1)

theorem placeCopyOf_vital (s : State) (j : JSlot) (second early reserve : Bool) : vital (placeCopyOf s j second early reserve) = vital s := by
  unfold placeCopyOf
  split
  · rfl
  next h1 => exact (placeSys_vital h1 :)

theorem flushStream_vital (s : State) (k : Nat) : vital (flushStream s k) = vital s :=
  foldl_keeps vital (fun _ _ => ite_agree vital ((closeFull_vital ..).trans (closeStripe_vital ..)) rfl) _ _

theorem placeJournal_vital (s : State) (early reserve : Bool) : vital (placeJournal s early reserve) = vital s := by
  have copies : ∀ (l : List JSlot) (second : Bool) (s : State), vital (l.foldl (fun s j => placeCopyOf s j second false reserve) s) = vital s :=
    fun l second s => foldl_keeps vital (fun _ _ => placeCopyOf_vital ..) _ _
  unfold placeJournal
  exact (ite_agree vital ((flushStream_vital ..).trans (flushStream_vital ..)) rfl).trans ((copies ..).trans (copies ..))

theorem journalDrain_vital (fuel least : Nat) (s : State) : vital (journalDrain fuel least s) = vital s := by
  induction fuel generalizing s with
  | zero => rfl
  | succ fuel ih => exact ite_agree vital rfl (ih _)

theorem flushJournal_vital (fuel : Nat) (s : State) : vital (flushJournal fuel s) = vital s := by
  induction fuel generalizing s with
  | zero => rfl
  | succ fuel ih => exact ite_agree vital rfl ((ih _).trans ((placeJournal_vital ..).trans (journalDrain_vital ..)))

theorem unname_vital (s : State) (ns : Namespace) (gran : Nat) (l : Loc) : vital (unname s ns gran l) = vital s := by
  have sub : ∀ psa k, vital (subValid s psa k) = vital s := fun psa k => by
    unfold subValid
    split <;> rfl
  unfold unname
  split
  · exact ite_agree vital (sub ..) rfl
  · rfl
  · rfl

theorem setEntry_vital (s : State) (ns : Namespace) (gran : Nat) (l : Loc) : vital (setEntry s ns gran l) = vital s := by
  have add : ∀ (s : State) psa k, vital (addValid s psa k) = vital s := fun s psa k => by
    unfold addValid
    split <;> rfl
  cases l with
  | media psa => exact (add ..).trans (unname_vital ..)
  | gather g => exact (unname_vital .. :)
  | unmapped => exact (unname_vital .. :)

theorem verifySlot_vital (s : State) (psa : Nat) : vital (verifySlot s psa) = vital s := by
  unfold verifySlot
  split
  · rfl
  · refine ite_agree vital rfl ?_
    split
    · rfl
    · dsimp only
      split
      · exact ite_agree vital ((journalAdd_vital ..).trans ((setEntry_vital ..).trans (bookUpdate_vital _))) rfl
      · rfl

theorem verifyStripe_vital (s : State) (b : Band) (p : Nat) : vital (verifyStripe s b p) = vital s :=
  foldl_keeps vital (f := fun s psa => if b.system then verifyJournal s psa else verifySlot s psa)
    (fun _ _ => ite_agree vital rfl (verifySlot_vital ..)) _ _

theorem releaseAcc_vital (s : State) (n : Nat) : vital (releaseAcc s n) = vital s := by
  unfold releaseAcc
  split
  · rfl
  · exact ite_agree vital rfl rfl

theorem programPassed_vital (s : State) (die block page : Nat) : vital (programPassed s die block page) = vital s := by
  unfold programPassed
  split
  · rfl
  · exact (releaseAcc_vital ..).trans ((foldl_keeps vital (fun _ _ => ite_agree vital (verifyStripe_vital ..) rfl) _ _).trans (ite_agree vital rfl rfl))

theorem settleOp_vital (s : State) (die : Nat) (o : ArrayOp) : vital (settleOp s die o) = vital s := by
  unfold settleOp
  refine ite_agree vital rfl ?_
  split
  · rfl
  · exact foldl_keeps vital (fun _ _ => programPassed_vital ..) _ _
  · exact foldl_keeps vital (f := fun s b => modBlock s _ _) (fun _ _ => rfl) _ _

theorem settle_vital (s : State) : vital (settle s) = vital s :=
  (foldl_keeps vital (fun _ _ => foldl_keeps vital (fun _ _ => settleOp_vital ..) _ _) _ _ :)

theorem openFlushBand_vital {s : State} {octs : List Nat} {n : Nat} {t : State} (h : openFlushBand s octs = some (n, t)) : vital t = vital s := by
  unfold openFlushBand at h
  split at h
  · cases h
  next h1 =>
    cases h
    exact (drawReserve_vital ..).trans (startBand_vital h1 :)

theorem flushBandFor_vital {s : State} {octs : List Nat} {cur : Option Nat} {page : Bool} {n : Nat} {t : State}
    (h : flushBandFor s octs cur page = some (n, t)) : vital t = vital s := by
  unfold flushBandFor at h
  split at h
  · exact openFlushBand_vital h
  · split at h
    · cases h
      rfl
    · dsimp only at h
      split at h
      · split at h
        · exact (openFlushBand_vital h).trans (fillStripe_vital ..)
        · cases h
          exact fillStripe_vital ..
      · exact openFlushBand_vital h

theorem flushOne_vital (octs : List Nat) (w : Option Nat × State) (rs : List SlotRec) : vital (flushOne octs w rs).2 = vital w.2 := by
  unfold flushOne
  split
  · rfl
  next h1 =>
    have first := flushBandFor_vital h1
    split
    · rfl
    · split
      · exact first
      next psa _ => exact (putSlots_vital _ (fun r : SlotRec × Nat => psa + r.2) Prod.fst _ _).trans first

theorem flushes_vital (octs : List Nat) (l : List (List GatherSlot)) (w : Option Nat × State) :
    vital (l.foldl (fun w g => flushOne octs w (g.map (gatherRec w.2))) w).2 = vital w.2 := by
  induction l generalizing w with
  | nil => rfl
  | cons g l ih => exact (ih _).trans (flushOne_vital ..)

theorem padStripe_vital (s : State) (n : Nat) : vital (padStripe s n) = vital s := by
  unfold padStripe
  split
  · exact ite_agree vital (fillStripe_vital ..) rfl
  · rfl

theorem flushAll_vital (s : State) (write mirror : Bool) : vital (flushAll s write mirror) = vital s := by
  have verified : ∀ s, vital (verifyFlush s) = vital s := fun _ => rfl
  unfold flushAll
  extract_lets s1 s2 gs s3 s4
  have begun : vital s2 = vital s := settle_vital s
  have out : vital s3 = vital s := (flushes_vital _ _ _).trans begun
  have through : vital s4 = vital s := ite_agree vital out ((flushJournal_vital ..).trans out)
  exact (verified _).trans ((foldl_keeps vital (fun _ _ => padStripe_vital ..) _ _).trans through)

/-- What a flush leaves of BEAT, the time of day, the sensors and the bank. -/
theorem of_vital {s t : State} (same : vital t = vital s) :
    t.beat = s.beat ∧ t.day = s.day ∧ t.therm = s.therm ∧ t.power = { s.power with llBands := t.power.llBands } := by
  simp only [vital, Prod.mk.injEq] at same
  obtain ⟨beat, day, therm, power⟩ := same
  exact ⟨beat, day, therm, (congrArg (fun p : Power => { p with llBands := t.power.llBands }) power :)⟩

end Sys2Proof.Proofs

end


section

/-! PROOF. A declared loss of input power, Last Light and the loss of the always-on domain (R402-R409). -/

namespace Sys2Proof.Proofs

open Sys2Proof Sys2Proof.Machine Sys2Proof.Safety Sys2Proof.Laws

/-! ### The record of Last Light -/

theorem testBit_ofNat {n i : Nat} (h : i < 64) : (BitVec.ofNat 64 n).getLsbD i = decide (n / 2 ^ i % 2 = 1) := by
  rw [BitVec.getLsbD_ofNat, Nat.testBit_eq_decide_div_mod_eq]
  simp [h]

theorem b2n_le (b : Bool) : b2n b ≤ 1 := by cases b <;> decide

theorem odd_b2n (b : Bool) : decide (b2n b % 2 = 1) = b := by cases b <;> rfl

/-- The fields of the record can be read back. -/
theorem record_fields {x y c d e f : Nat} (hx : x ≤ 1) (hy : y ≤ 1) (hc : c ≤ 255) (hd : d ≤ 65535) (he : e ≤ 65535) (_ : f ≤ 65535) :
    let v := BitVec.ofNat 64 (1 + x * 2 + y * 4 + c * 2 ^ 8 + d * 2 ^ 16 + e * 2 ^ 32 + f * 2 ^ 48)
    v.getLsbD 0 = true ∧ v.getLsbD 1 = decide (x % 2 = 1) ∧ v.getLsbD 2 = decide (y % 2 = 1) ∧
      bits v.toNat 15 8 = c ∧ bits v.toNat 31 16 = d ∧ bits v.toNat 47 32 = e := by
  dsimp only
  rw [testBit_ofNat (by decide), testBit_ofNat (by decide), testBit_ofNat (by decide), BitVec.toNat_ofNat]
  unfold bits
  refine ⟨decide_eq_true ?_, decide_eq_decide.mpr ?_, decide_eq_decide.mpr ?_, ?_, ?_, ?_⟩ <;> omega

theorem llRecord_fields (s : State) (l n : Nat) (mirror : Bool) :
    (llRecord s l n mirror).getLsbD 0 = true ∧ (llRecord s l n mirror).getLsbD 1 = s.power.llPaired ∧ (llRecord s l n mirror).getLsbD 2 = mirror ∧
      bits (llRecord s l n mirror).toNat 15 8 = min n 255 ∧ bits (llRecord s l n mirror).toNat 31 16 = min (s.power.llG / 2 ^ 20) 65535 ∧
      bits (llRecord s l n mirror).toNat 47 32 = min (s.beat - l) 65535 := by
  have fields := record_fields (b2n_le s.power.llPaired) (b2n_le mirror) (Nat.min_le_right n 255) (Nat.min_le_right (s.power.llG / 2 ^ 20) 65535)
    (Nat.min_le_right (s.beat - l) 65535) (Nat.min_le_right (bankMv s / 10) 65535)
  rw [odd_b2n, odd_b2n] at fields
  exact fields

/-! ### The flush -/

/-- An entry put stands in the log. -/
theorem norPut_stands (s : State) (typ key : Nat) (body : List Byte) : ∃ e ∈ (norPut s typ key body).nor.log, e.typ = typ ∧ e.key = key ∧ e.value = body :=
  ⟨_, List.mem_append_right _ List.mem_cons_self, rfl, rfl, rfl⟩

/-- What is lost of the boot flash's work leaves its log. -/
theorem dark_log (n : Nor) : n.dark.log = n.log := by
  have kept : n.interrupt.log = n.log := by
    unfold Nor.interrupt
    split
    · rfl
    · exact ite_agree Nor.log rfl rfl
  exact kept

theorem wipe_log (s : State) : (wipe s).nor.log = s.nor.log := dark_log s.nor

theorem wipe_wiped (s : State) : Wiped s (wipe s) :=
  ⟨rfl, rfl, rfl, rfl, rfl, rfl, rfl, rfl, rfl, rfl, fun _ hp => (List.mem_filter.mp hp).2, rfl, rfl⟩

/-- What the frame to the twin and the record leave of a flushed module. -/
def flushed (s : State) := (s.beat, s.day, s.therm, s.power, s.xlat, s.media, s.care)

theorem wiped_of_flushed {s t u : State} (same : flushed t = flushed s) (wiped : Wiped t u) : Wiped s u := by
  simp only [flushed, Prod.mk.injEq] at same
  obtain ⟨-, -, -, -, xlat, media, care⟩ := same
  unfold Wiped at wiped ⊢
  rw [← xlat, ← media, ← care]
  exact wiped

theorem sendCtrl_flushed (s : State) (k : Nat) : flushed (sendCtrl s k) = flushed s := rfl

/-- The state after Last Light has verified what it wrote, no feed looked at yet. -/
def lastLit (w : State) (at_ n : Nat) (mirror paired : Bool) : State :=
  let s2 := if paired then sendCtrl w 7 else w
  let v := llRecord s2 at_ n mirror
  (wipe (norPut s2 0x03 0 (leBytes 8 v.toNat ++ leBytes 6 at_))).updPower fun p =>
    { p with llAt := none, lost := true, llCount := satAdd32 p.llCount 1, llLast := v, llMirror := mirror }

/-- What Last Light leaves, in terms of the module flushed. -/
theorem lastLit_leaves (w : State) (l n : Nat) (mirror paired : Bool) : ∃ v : BitVec 64,
    let t := lastLit w l n mirror paired
    Wiped w t ∧ t.beat = w.beat ∧ t.power.feeds = w.power.feeds ∧ t.power.llAt = none ∧ t.power.lost = true ∧ t.power.llCount = satAdd32 w.power.llCount 1 ∧
      t.power.llMirror = mirror ∧ t.power.llLast = v ∧
      (v.getLsbD 0 = true ∧ v.getLsbD 1 = w.power.llPaired ∧ v.getLsbD 2 = mirror ∧ bits v.toNat 15 8 = min n 255 ∧
        bits v.toNat 31 16 = min (w.power.llG / 2 ^ 20) 65535 ∧ bits v.toNat 47 32 = min (w.beat - l) 65535) ∧
      ∃ e ∈ t.nor.log, e.typ = 3 ∧ e.key = 0 ∧ e.value = leBytes 8 v.toNat ++ leBytes 6 l := by
  obtain ⟨s2, h2⟩ : ∃ s2, s2 = if paired then sendCtrl w 7 else w := ⟨_, rfl⟩
  obtain ⟨v, hv⟩ : ∃ v, v = llRecord s2 l n mirror := ⟨_, rfl⟩
  obtain ⟨s3, h3⟩ : ∃ s3, s3 = norPut s2 0x03 0 (leBytes 8 v.toNat ++ leBytes 6 l) := ⟨_, rfl⟩
  have sent : flushed s2 = flushed w := by
    rw [h2]
    exact ite_agree flushed (sendCtrl_flushed w 7) rfl
  have put : flushed s3 = flushed s2 := by
    rw [h3]
    rfl
  have stands := norPut_stands s2 0x03 0 (leBytes 8 v.toNat ++ leBytes 6 l)
  rw [← h3] at stands
  have eq : lastLit w l n mirror paired = (wipe s3).updPower fun p =>
      { p with llAt := none, lost := true, llCount := satAdd32 p.llCount 1, llLast := v, llMirror := mirror } := by
    rw [h3, hv, h2]
    rfl
  have wiped := wiped_of_flushed (put.trans sent) (wipe_wiped s3)
  have same := put.trans sent
  simp only [flushed, Prod.mk.injEq] at same sent
  obtain ⟨beat, -, -, power, -⟩ := same
  obtain ⟨beat2, -, -, power2, -⟩ := sent
  have fields := llRecord_fields s2 l n mirror
  rw [← hv, beat2, power2] at fields
  clear h3 h2 hv put
  rw [← wipe_log s3] at stands
  rw [eq]
  refine ⟨v, wiped, beat, (congrArg Power.feeds power :), rfl, rfl, ?_, rfl, rfl, fields, stands⟩
  show satAdd32 s3.power.llCount 1 = _
  rw [power]

theorem feed_of_feeds {s t : State} (same : t.power.feeds = s.power.feeds) (f : Nat) : getFeed t f = getFeed s f := congrArg (vget · f Feed.init) same

/-- Last Light ends: what stands then, and Dawn where a feed conducts. -/
theorem lastLight_runs {s : State} {l : Nat} (under : s.power.llAt = some l) : ∃ t, t = lastLit
      (flushAll s (decide (0 < s.power.llG)) (s.power.llPaired && !s.twin.llDone && decide (0 < s.power.llG))) l (countedOcts s).length
      (s.power.llPaired && !s.twin.llDone && decide (0 < s.power.llG)) s.power.llPaired ∧ t.power.feeds = s.power.feeds ∧
    exec .lastLightFlushed s = .next (if (getFeed s 0).conduct || (getFeed s 1).conduct then startDawn (noteWake t 6) else t) := by
  obtain ⟨mirror, hm⟩ : ∃ m, m = (s.power.llPaired && !s.twin.llDone && decide (0 < s.power.llG)) := ⟨_, rfl⟩
  rw [← hm]
  obtain ⟨w, hw⟩ : ∃ w, w = flushAll s (decide (0 < s.power.llG)) mirror := ⟨_, rfl⟩
  obtain ⟨-, -, -, power⟩ := of_vital (flushAll_vital s (decide (0 < s.power.llG)) mirror)
  rw [← hw] at power ⊢
  obtain ⟨-, -, -, feeds, -⟩ := lastLit_leaves w l (countedOcts s).length mirror s.power.llPaired
  obtain ⟨t, ht⟩ : ∃ t, t = lastLit w l (countedOcts s).length mirror s.power.llPaired := ⟨_, rfl⟩
  have same : t.power.feeds = s.power.feeds := (ht ▸ feeds : t.power.feeds = w.power.feeds).trans (congrArg Power.feeds power :)
  refine ⟨t, ht, same, ?_⟩
  rw [← feed_of_feeds same 0, ← feed_of_feeds same 1, ht, hw, hm]
  refine congrArg Host.Outcome.next ?_
  rw [under]
  rfl

/-- Nothing of the always-on record but what Dawn sets changes as it begins. -/
theorem startDawn_power (s : State) : (startDawn s).power.llCount = s.power.llCount ∧ (startDawn s).power.llAt = none ∧ (startDawn s).power.lost = false ∧
    (startDawn s).day.day = .dawn ∧ (startDawn s).day.step = 1 := ⟨rfl, rfl, rfl, rfl, rfl⟩

/-! ### The loss declared -/

/-- A module whose feeds are no longer in use: no test of the bank runs on. -/
def unfed (s : State) : State :=
  s.updPower fun p => { p with testing := 0, sink := false, aborted := p.aborted || p.testing != 0, feeds := p.feeds.map fun k => { k with conduct := false } }

/-- Last Light under way. -/
def lastLightBegun (s : State) : State :=
  ((((freeze (stopTest (unfed s))).updPower fun p => { p with llAt := some s.beat, llG := p.armed, llPaired := s.twin.st == .paired }).updPlan fun p =>
    { p with resetFlush := false }).updTherm fun t => { t with hotAt := none }).updDay fun d => { d with sealed := none, entryStep := 0, waking := false, wakePend := none }

theorem unfed_feed (s : State) {f : Nat} (h : f < 2) : (getFeed (unfed s) f).conduct = false := by
  simp [getFeed, vget, unfed, h]

theorem lossDeclared_runs {s : State} (b0 : (getFeed s 0).below = true) (b1 : (getFeed s 1).below = true) (on : s.power.aonPowered = true)
    (under : s.power.llAt = none) (first : s.power.lost = false) : exec .lossDeclared s =
      .next (if hotStopped s ∨ (s.day.day = .midnight ∧ s.day.sealed.isNone) then (unfed s).updPower fun p => { p with lost := true } else lastLightBegun s) :=
  congrArg Host.Outcome.next (if_neg (by simp [b0, b1, on, under, first]))

theorem lastLightBegun_frame (s : State) : ∃ p m f w, lastLightBegun s =
    { s with ctxs := [], plan := p, movers := m, twin := { s.twin with hbStopped := true }, flash := f, cane := { s.cane with queue := [] }, day := { s.day with pendReq := none, sealed := none, entryStep := 0, waking := false, wakePend := none }, power := w, therm := { s.therm with hotAt := none }, mem := { s.mem with testState := if s.mem.testState = 1 then 0 else s.mem.testState } } ∧
    p.stopped = true ∧ p.fetching = [] ∧ p.resetFlush = false ∧ m.eng = s.movers.eng.map (fun e => { e with descs := [] }) ∧
    f.octs = s.flash.octs.map (fun o => { o with req := false }) ∧
    w = { (unfed s).power with llAt := some s.beat, llG := s.power.armed, llPaired := s.twin.st == .paired } :=
  ⟨(lastLightBegun s).plan, (lastLightBegun s).movers, (lastLightBegun s).flash, (lastLightBegun s).power, by
    unfold lastLightBegun freeze stopTest unfed State.updPower State.updPlan State.updTherm State.updDay State.updMem
    dsimp only, rfl, rfl, rfl, rfl, rfl, rfl⟩

theorem lastLightBegun_begins (s : State) : ∃ t, t = lastLightBegun s ∧
    t = { s with ctxs := [], plan := t.plan, movers := t.movers, twin := { s.twin with hbStopped := true }, flash := t.flash, cane := { s.cane with queue := [] }, day := { s.day with pendReq := none, sealed := none, entryStep := 0, waking := false, wakePend := none }, power := t.power, therm := { s.therm with hotAt := none }, mem := { s.mem with testState := if s.mem.testState = 1 then 0 else s.mem.testState } } ∧
    t.power = { (unfed s).power with llAt := some s.beat, llG := s.power.armed, llPaired := s.twin.st == .paired } ∧
    t.plan.stopped = true ∧ t.plan.fetching = [] ∧ t.plan.resetFlush = false ∧ t.movers.eng = s.movers.eng.map (fun e => { e with descs := [] }) ∧
    t.flash.octs = s.flash.octs.map (fun o => { o with req := false }) := by
  obtain ⟨p, m, f, w, frame, stopped, fetching, flush, eng, octs, power⟩ := lastLightBegun_frame s
  exact ⟨_, frame.symm, rfl, power, stopped, fetching, flush, eng, octs⟩

/-! ### The always-on domain loses power -/

theorem execAonPowerLoss_idle {s : State} (why : s.power.aonPowered = false ∨ (getFeed s 0).conduct = true ∨ (getFeed s 1).conduct = true) : Idle .aonPowerLoss s :=
  congrArg Host.Outcome.next (if_pos (by rcases why with h | h | h <;> simp [h]))

/-- Settles O53: what becomes of the module as input power is lost, down to the always-on domain. -/
theorem lossAndLastLight : Obligations.LossAndLastLight := by
  unfold Obligations.LossAndLastLight
  refine ⟨?notLost, ?lost, ?noneUnder, ?flushed, ?fed, ?aonIdle, ?aon⟩
  case notLost =>
    exact fun s why => congrArg Host.Outcome.next (if_pos (by rcases why with h | h | h | h | h <;> simp [h]))
  case lost =>
    intro s b0 b1 on under first
    have run := lossDeclared_runs b0 b1 on under first
    refine ⟨fun stays => ?_, fun hot day => ?_⟩
    · rw [if_pos (by rw [Option.isNone_iff_eq_none]; exact stays)] at run
      exact ⟨_, run, rfl, rfl, under, fun f h => unfed_feed s h⟩
    · rw [if_neg (by rw [Option.isNone_iff_eq_none, hot]; exact fun h => h.elim (fun h => nomatch h) day)] at run
      obtain ⟨t, ht, frame, power, stopped, fetching, flush, eng, octs⟩ := lastLightBegun_begins s
      rw [← ht] at run
      clear ht
      refine ⟨t, run, frame, ?_, ?_, ?_, ?_, ?_, ?_, fun f h => ?_, stopped, fetching, flush, fun k h => ?_, fun e h => ?_⟩
      · rw [power]
      · rw [power]
      · rw [power]
      · rw [power]; rfl
      · rw [power]; rfl
      · rw [power]; rfl
      · exact (congrArg Feed.conduct (feed_of_feeds (s := unfed s) (congrArg Power.feeds power :) f)).trans (unfed_feed s h)
      · have oct : getOct t k = { getOct s k with req := false } :=
          (congrArg (vget · k Oct.init) octs).trans (vget_map s.flash.octs (fun o => { o with req := false }) Oct.init h)
        exact ⟨congrArg Oct.req oct, (congrArg Oct.st oct :)⟩
      · exact congrArg Engine.descs ((congrArg (vget · e Engine.init) eng).trans (vget_map s.movers.eng (fun e => { e with descs := [] }) Engine.init h))
  case noneUnder =>
    intro s none_
    refine congrArg Host.Outcome.next ?_
    rw [none_]
  case flushed =>
    intro s l mirror w under c0 c1 hm hw
    obtain ⟨t, ht, -, run⟩ := lastLight_runs under
    rw [c0, c1] at run
    replace run := run.trans (congrArg Host.Outcome.next (if_neg (by decide)))
    rw [← hm, ← hw] at ht
    obtain ⟨beat, -, -, power⟩ := of_vital (flushAll_vital s (decide (0 < s.power.llG)) mirror)
    rw [← hw] at beat power
    obtain ⟨v, leaves⟩ := lastLit_leaves w l (countedOcts s).length mirror s.power.llPaired
    dsimp only at leaves
    rw [← ht] at leaves
    obtain ⟨wiped, beat', -, llAt, lost, count, mir, last, ⟨v0, v1, v2, octs, size, time⟩, e, mem, typ, key, value⟩ := leaves
    have media : t.media = w.media.dark := by
      obtain ⟨-, -, -, -, -, h, -⟩ := wiped
      exact h
    refine ⟨t, run, wiped, media, beat'.trans beat, llAt, lost, ?_, mir, ?_⟩
    · rw [count, power]
    · rw [last]
      refine ⟨v0, v1.trans (congrArg Power.llPaired power :), v2, octs, ?_, ?_, e, mem, typ, key, value⟩
      · rw [size, power]
      · rw [time, beat]
  case fed =>
    intro s l under feed
    obtain ⟨t, ht, -, run⟩ := lastLight_runs under
    replace run := run.trans (congrArg Host.Outcome.next (if_pos (by rcases feed with h | h <;> simp [h])))
    obtain ⟨mirror, hm⟩ : ∃ m, m = (s.power.llPaired && !s.twin.llDone && decide (0 < s.power.llG)) := ⟨_, rfl⟩
    obtain ⟨w, hw⟩ : ∃ w, w = flushAll s (decide (0 < s.power.llG)) mirror := ⟨_, rfl⟩
    rw [← hm, ← hw] at ht
    obtain ⟨beat, -, -, power⟩ := of_vital (flushAll_vital s (decide (0 < s.power.llG)) mirror)
    rw [← hw] at beat power
    obtain ⟨v, leaves⟩ := lastLit_leaves w l (countedOcts s).length mirror s.power.llPaired
    dsimp only at leaves
    rw [← ht] at leaves
    obtain ⟨-, beat', -, -, -, count, -⟩ := leaves
    clear hm hw ht
    obtain ⟨llCount, llAt, lost, day, step⟩ := startDawn_power (noteWake t 6)
    obtain ⟨-, -, -, -, -, wake⟩ := startDawn_dawns (noteWake t 6)
    refine ⟨_, run, day, step, llAt, lost, ?_, ?_⟩
    · rw [llCount]
      exact count.trans (by rw [power])
    · rw [wake, ← beat, ← beat']
      rfl
  case aonIdle => exact fun s why => execAonPowerLoss_idle why
  case aon =>
    intro s on c0 c1
    have run : exec .aonPowerLoss s = .next _ := congrArg Host.Outcome.next (if_neg (by simp [on, c0, c1]))
    refine ⟨_, run, rfl, rfl, rfl, rfl, rfl, rfl, rfl, rfl, rfl, rfl, rfl, rfl, rfl, rfl, rfl, rfl, dark_log s.nor, rfl, rfl, rfl, rfl, fun p hp => ?_⟩
    exact (List.mem_filter.mp hp).2

end Sys2Proof.Proofs

end


section

/-! PROOF. A sample of the sensors: what is read and judged, the demands of the zones, and the zones that stop (R445-R453). -/

namespace Sys2Proof.Proofs

open Sys2Proof Sys2Proof.Machine Sys2Proof.Safety Sys2Proof.Laws

/-! ### Reading and judging -/

/-- Only events tell such states apart. -/
def Told (s t : State) : Prop := t = { s with fns := t.fns, out := t.out, side := t.side }

theorem told_trans {s t u : State} (a : Told s t) (b : Told t u) : Told s u :=
  Eq.trans b (congrArg (fun v : State => { v with fns := u.fns, out := u.out, side := u.side }) a)

theorem event_told (s : State) (k who : Nat) : Told s (event s k who) := event_frame s k who

theorem events_told {α : Type} (k : Nat) (who : α → Nat) (l : List α) (s : State) : Told s (l.foldl (fun s a => event s k (who a)) s) := by
  induction l generalizing s with
  | nil => rfl
  | cons a l ih => exact told_trans (event_told s k (who a)) (ih _)

theorem vget_ofFn {α : Type} {n : Nat} (f : Fin n → α) (d : α) {i : Nat} (h : i < n) : vget (Vector.ofFn f) i d = f ⟨i, h⟩ := by
  simp [vget, h]

theorem vget_vset_bool {n : Nat} (v : Vector Bool n) (i j : Nat) (h : j < n) (x : Bool) : vget (vset v i x) j false = if j = i then x else vget v j false := by
  by_cases own : j = i
  · rw [own, if_pos rfl]
    exact vget_vset_same _ _ _ (own ▸ h)
  · rw [if_neg own]
    exact vget_vset_ne _ _ _ own

/-- Sensors judged broken one after another. -/
theorem judged (who : Nat → Nat) (l : List Nat) (s : State) :
    let t := l.foldl (fun s i => event (s.updTherm fun t => { t with broken := vset t.broken i true }) 7 (who i)) s
    t = { s with therm := { s.therm with broken := t.therm.broken }, fns := t.fns, side := t.side, out := t.out } ∧
    ∀ i < 28, vget t.therm.broken i false = (vget s.therm.broken i false || l.contains i) := by
  induction l generalizing s with
  | nil => exact ⟨rfl, fun i _ => by simp⟩
  | cons a l ih =>
    obtain ⟨u, hu⟩ : ∃ u, u = event (s.updTherm fun t => { t with broken := vset t.broken a true }) 7 (who a) := ⟨_, rfl⟩
    have told : Told (s.updTherm fun t => { t with broken := vset t.broken a true }) u := hu ▸ event_told ..
    obtain ⟨frame, broken⟩ := ih u
    dsimp only
    rw [List.foldl_cons, ← hu]
    clear hu
    obtain ⟨t, ht⟩ : ∃ t, t = l.foldl (fun s i => event (s.updTherm fun t => { t with broken := vset t.broken i true }) 7 (who i)) u := ⟨_, rfl⟩
    rw [← ht] at frame broken ⊢
    have therm : u.therm = { s.therm with broken := vset s.therm.broken a true } := (congrArg State.therm told :)
    refine ⟨frame.trans (congrArg (fun v : State => { v with therm := { v.therm with broken := t.therm.broken }, fns := t.fns, side := t.side, out := t.out }) told), fun i h => ?_⟩
    have set : vget u.therm.broken i false = if i = a then true else vget s.therm.broken i false := by
      rw [therm]
      exact vget_vset_bool _ _ _ h _
    rw [broken i h, set, List.contains_cons]
    cases own : i == a with
    | true => simp [beq_iff_eq.mp own]
    | false => simp [beq_eq_false_iff_ne.mp own]

/-- The sensors a sample finds broken. -/
def newlyBroken (s : State) : List Nat :=
  (List.range 28).filter fun i => sensorFitted s i && !vget s.therm.broken i false && (readingBad (vget s.therm.reading i 0) || stuck s s.therm i)

theorem judge_frame (s : State) : judge s = { s with therm := { s.therm with broken := (judge s).therm.broken }, fns := (judge s).fns, side := (judge s).side, out := (judge s).out } ∧
    ∀ i < 28, vget (judge s).therm.broken i false = (vget s.therm.broken i false || (newlyBroken s).contains i) :=
  judged (fun i => ((List.range 18).find? fun z => (zoneSensors z).contains i).getD 0xFF) (newlyBroken s) s

/-- What a sample has read, judged and set the charger by. -/
structure Read (s : State) (raw : List Int) (u : State) : Prop where
  frame : u = { s with therm := { s.therm with reading := u.therm.reading, rawSince := u.therm.rawSince, mateRef := u.therm.mateRef, broken := u.therm.broken }, power := { s.power with charging := u.power.charging }, fns := u.fns, side := u.side, out := u.out }
  reading : ∀ i < 28, vget u.therm.reading i 0 = if sensorFitted s i then nth raw i (vget s.therm.reading i 0) else vget s.therm.reading i 0
  bad : ∀ i < 28, sensorFitted s i = true → readingBad (nth raw i (vget s.therm.reading i 0)) = true → vget u.therm.broken i false = true
  unfitted : ∀ i < 28, sensorFitted s i = false → vget u.therm.broken i false = vget s.therm.broken i false
  kept : ∀ i < 28, vget s.therm.broken i false = true → vget u.therm.broken i false = true
  charging : u.power.charging = (sensorWorks u 17 && if s.power.charging then decide (-400 ≤ vget u.therm.reading 17 0 ∧ vget u.therm.reading 17 0 ≤ 1360)
    else decide (-368 ≤ vget u.therm.reading 17 0 ∧ vget u.therm.reading 17 0 ≤ 1328))

theorem sample_reads (s : State) (raw : List Int) (ch : List Bool) : Read s raw (chargeWindow (judge (takeReadings s raw ch))) := by
  obtain ⟨v, hv⟩ : ∃ v, v = takeReadings s raw ch := ⟨_, rfl⟩
  have taken : v = { s with therm := { s.therm with reading := v.therm.reading, rawSince := v.therm.rawSince, mateRef := v.therm.mateRef } } := by
    rw [hv]
    rfl
  have reading : ∀ i < 28, vget v.therm.reading i 0 = if sensorFitted s i then nth raw i (vget s.therm.reading i 0) else vget s.therm.reading i 0 := fun i h => by
    rw [hv]
    exact vget_ofFn _ _ h
  obtain ⟨frame, broken⟩ := judge_frame v
  rw [← hv]
  clear hv
  have fitted : ∀ i, sensorFitted v i = sensorFitted s i := fun i => by rw [taken]; rfl
  have was : v.therm.broken = s.therm.broken := by rw [taken]
  have charge : v.power = s.power := by rw [taken]
  obtain ⟨w, hw⟩ : ∃ w, w = judge v := ⟨_, rfl⟩
  rw [← hw] at frame broken ⊢
  clear hw
  have read : w.therm.reading = v.therm.reading := (congrArg (fun t : State => t.therm.reading) frame :)
  have power : w.power = s.power := (congrArg State.power frame).trans charge
  obtain ⟨u, hu⟩ : ∃ u, u = chargeWindow w := ⟨_, rfl⟩
  have therm : u.therm = w.therm := by rw [hu]; rfl
  have last : u = { w with power := { w.power with charging := u.power.charging } } := by rw [hu]; rfl
  have charging : u.power.charging = (sensorWorks w 17 && if w.power.charging then decide (-400 ≤ vget w.therm.reading 17 0) && decide (vget w.therm.reading 17 0 ≤ 1360)
      else decide (-368 ≤ vget w.therm.reading 17 0) && decide (vget w.therm.reading 17 0 ≤ 1328)) := by rw [hu]; rfl
  have works : sensorWorks u 17 = sensorWorks w 17 := by rw [hu]; rfl
  rw [← hu]
  clear hu
  refine ⟨?_, fun i h => ?_, fun i h fit bad => ?_, fun i h out => ?_, fun i h already => ?_, ?_⟩
  · refine last.trans ((congrArg (fun t : State => { t with power := { t.power with charging := u.power.charging } }) (frame.trans
      (congrArg (fun t : State => { t with therm := { t.therm with broken := w.therm.broken }, fns := w.fns, side := w.side, out := w.out }) taken))).trans ?_)
    rw [therm, read, show u.fns = w.fns by rw [last], show u.side = w.side by rw [last], show u.out = w.out by rw [last],
      show w.therm.rawSince = v.therm.rawSince by rw [frame], show w.therm.mateRef = v.therm.mateRef by rw [frame]]
  · rw [therm, read, reading i h]
  · rw [therm, broken i h]
    have value := reading i h
    rw [if_pos fit] at value
    cases already : vget v.therm.broken i false with
    | true => rfl
    | false => simp [newlyBroken, List.mem_filter, h, fitted, fit, already, value, bad]
  · have none_ : (newlyBroken v).contains i = false := by simp [newlyBroken, fitted, out]
    rw [therm, broken i h, none_, was, Bool.or_false]
  · rw [therm, broken i h, was, already]
    rfl
  · rw [charging, power, works, therm, Bool.decide_and, Bool.decide_and]

/-- Zones act as before a reading. -/
theorem Read.acts {s u : State} {raw : List Int} (read : Read s raw u) : zonesAct u = zonesAct s := by
  rw [read.frame]
  rfl

/-! ### What a zone demands -/

/-- What the reading of a zone depends on. -/
def sensed (s : State) := (s.nv, s.therm.reading, s.therm.broken)

theorem atHot_of_sensed {s t : State} (same : sensed t = sensed s) (z : Nat) : atHot t z = atHot s z ∧ zoneBroken t z = zoneBroken s z := by
  simp only [sensed, Prod.mk.injEq] at same
  obtain ⟨nv, reading, broken⟩ := same
  have fitted : sensorFitted t = sensorFitted s := funext fun i => by simp only [sensorFitted, nvVal, nv]
  have works : sensorWorks t = sensorWorks s := funext fun i => by simp only [sensorWorks, fitted, broken]
  have limits : zoneLimits t = zoneLimits s := funext fun z => by simp only [zoneLimits, nvVal, nv]
  simp only [atHot, zoneBroken, zoneMembers, fitted, works, limits, reading, broken, and_self]

theorem hotZones_of_sensed {s t : State} (same : sensed t = sensed s) (once : t.therm.hotOnce = s.therm.hotOnce) : hotZones t = hotZones s := by
  unfold hotZones bothBroken
  refine List.filter_congr fun z _ => ?_
  obtain ⟨hot, broken⟩ := atHot_of_sensed same z
  rw [hot, broken, once]

theorem atHot_iff (s : State) (z : Nat) :
    atHot s z = true ↔ ∃ i ∈ zoneMembers s z, sensorWorks s i = true ∧ 16 * ((zoneLimits s z).2.2 : Int) ≤ vget s.therm.reading i 0 := by
  simp [atHot]

theorem demandOf_broken {s : State} {z : Nat} (broken : 0 < zoneBroken s z) : demandOf s z = 15 ∧ alarmOf s z = true :=
  ⟨if_pos broken, by simp [alarmOf, broken]⟩

theorem demandOf_reading {s : State} {z : Nat} {x : Int} (reading : zoneReading s z = some x) :
    demandOf s z = max (stepAt s z x) (min (vget s.therm.demand z 0) (stepAt s z (x + 32))) ∧ alarmOf s z = decide (16 * ((zoneLimits s z).2.1 : Int) ≤ x) := by
  have whole : ¬ 0 < zoneBroken s z := fun broken => by
    unfold zoneReading at reading
    split at reading
    · cases reading
    · rw [if_pos broken] at reading
      cases reading
  unfold demandOf alarmOf
  rw [if_neg whole, reading]
  simp [whole]

theorem stepAt_below {s : State} {z : Nat} {x : Int} (below : x ≤ 16 * ((zoneLimits s z).1 : Int)) : stepAt s z x = 0 := if_pos below

theorem stepAt_above {s : State} {z : Nat} {x : Int} (above : 16 * ((zoneLimits s z).1 : Int) < x) :
    stepAt s z x = min 15 (ceilDiv (15 * (x - 16 * ((zoneLimits s z).1 : Int)).toNat) (16 * ((zoneLimits s z).2.1 - (zoneLimits s z).1))) := if_neg (Int.not_le.mpr above)

theorem stepAt_le (s : State) (z : Nat) (x : Int) : stepAt s z x ≤ 15 := by
  by_cases below : x ≤ 16 * ((zoneLimits s z).1 : Int)
  · rw [stepAt_below below]
    omega
  · rw [stepAt_above (Int.not_le.mp below)]
    exact Nat.min_le_left ..

theorem ceilDiv_bounds (n : Nat) {d : Nat} (pos : 0 < d) : n ≤ ceilDiv n d * d ∧ ceilDiv n d * d < n + d := by
  unfold ceilDiv
  have div := Nat.div_add_mod (n + d - 1) d
  have rem := Nat.mod_lt (n + d - 1) pos
  rw [Nat.mul_comm] at div
  omega

/-- At the top of a zone's range its whole demand (R448). -/
theorem stepAt_top {s : State} {z : Nat} {x : Int} (range : (zoneLimits s z).1 < (zoneLimits s z).2.1) (top : 16 * ((zoneLimits s z).2.1 : Int) ≤ x) : stepAt s z x = 15 := by
  rw [stepAt_above (by omega)]
  obtain ⟨low, -⟩ := ceilDiv_bounds (15 * (x - 16 * ((zoneLimits s z).1 : Int)).toNat) (d := 16 * ((zoneLimits s z).2.1 - (zoneLimits s z).1)) (by omega)
  refine Nat.min_eq_left (Nat.le_of_mul_le_mul_right (Nat.le_trans ?_ low) (show 0 < 16 * ((zoneLimits s z).2.1 - (zoneLimits s z).1) by omega))
  omega

/-- Within the range the demand is the least step that covers the reading's share of it (R448). -/
theorem stepAt_within {s : State} {z : Nat} {x : Int} (range : (zoneLimits s z).1 < (zoneLimits s z).2.1) (low : 16 * ((zoneLimits s z).1 : Int) < x)
    (high : x ≤ 16 * ((zoneLimits s z).2.1 : Int)) :
    15 * (x - 16 * ((zoneLimits s z).1 : Int)) ≤ stepAt s z x * (16 * (((zoneLimits s z).2.1 : Int) - (zoneLimits s z).1)) ∧
    ((stepAt s z x : Int) - 1) * (16 * (((zoneLimits s z).2.1 : Int) - (zoneLimits s z).1)) < 15 * (x - 16 * ((zoneLimits s z).1 : Int)) := by
  rw [stepAt_above low]
  obtain ⟨d, hd⟩ : ∃ d, d = 16 * ((zoneLimits s z).2.1 - (zoneLimits s z).1) := ⟨_, rfl⟩
  obtain ⟨n, hn⟩ : ∃ n, n = 15 * (x - 16 * ((zoneLimits s z).1 : Int)).toNat := ⟨_, rfl⟩
  have pos : 0 < d := by omega
  have width : 16 * (((zoneLimits s z).2.1 : Int) - (zoneLimits s z).1) = d := by omega
  have share : 15 * (x - 16 * ((zoneLimits s z).1 : Int)) = n := by omega
  have small : n ≤ 15 * d := by omega
  obtain ⟨above, below⟩ := ceilDiv_bounds n pos
  rw [← hd, ← hn, width, share]
  have most : ceilDiv n d ≤ 15 := by
    refine Classical.byContradiction fun more => ?_
    have := Nat.mul_le_mul_right d (show 16 ≤ ceilDiv n d by omega)
    omega
  rw [Nat.min_eq_right most]
  refine ⟨by exact_mod_cast above, ?_⟩
  have below' : (ceilDiv n d : Int) * d < n + d := by exact_mod_cast below
  rw [Int.sub_mul, Int.one_mul]
  omega

theorem foldl_max_facts (l : List Nat) (m : Nat) : m ≤ l.foldl max m ∧ (∀ x ∈ l, x ≤ l.foldl max m) ∧ (l.foldl max m = m ∨ ∃ x ∈ l, x = l.foldl max m) := by
  induction l generalizing m with
  | nil => exact ⟨Nat.le_refl _, fun _ hx => absurd hx List.not_mem_nil, .inl rfl⟩
  | cons a l ih =>
    obtain ⟨least, each, one⟩ := ih (max m a)
    rw [List.foldl_cons]
    refine ⟨Nat.le_trans (Nat.le_max_left ..) least, fun x hx => ?_, ?_⟩
    · rcases List.mem_cons.mp hx with rfl | hx
      · exact Nat.le_trans (Nat.le_max_right ..) least
      · exact each x hx
    · rcases one with same | ⟨x, hx, same⟩
      · rcases Nat.le_total a m with first | second
        · exact .inl (same.trans (Nat.max_eq_left first))
        · exact .inr ⟨a, List.mem_cons_self, (same.trans (Nat.max_eq_right second)).symm⟩
      · exact .inr ⟨x, List.mem_cons_of_mem _ hx, same⟩

/-! ### The demands a sample leaves -/

/-- The state once the zones have demanded their steps, no zone stopped yet. -/
def demanded (u : State) : State :=
  let s2 := writeWindow (throttle u)
  let s3 := s2.updCare fun c => { c with tMax := max c.tMax ((carrierT s2).getD c.tMax) }
  s3.updTherm fun t => { t with hotOnce := Vector.ofFn fun z => atHot s3 z.val }

/-- The demands of the zones in order. -/
def demands (u : State) : Vector Nat 18 := Vector.ofFn fun z => demandOf u z.val

/-- The sensors once the demands are stored and n alarms counted. -/
def withDemands (u : State) (n : Nat) : Therm :=
  { u.therm with demand := demands u, alarm := Vector.ofFn fun z => alarmOf u z.val, step := (demands u).toList.foldl max (nvVal u 0x0F000002), alarms := n }

theorem throttle_frame (u : State) : ∃ n, Told { u with therm := withDemands u n } (throttle u) := by
  unfold throttle
  extract_lets new d step s1 s2
  have told : Told s2 (eventIf (decide (step ≠ u.therm.step)) s2 1 0xFF) := eventIf_frame _ s2 1 0xFF
  have each : Told s1 s2 := events_told 1 id new s1
  exact ⟨_, told_trans each told⟩

theorem writeWindow_frame (s : State) : ∃ w, writeWindow s = { s with therm := { s.therm with window := w, windowSet := true } } := ⟨_, rfl⟩

/-- The sensors once a sample is done with them, no zone stopped yet. -/
def sampledTherm (u : State) (n : Nat) (w : Bool) : Therm :=
  { withDemands u n with window := w, windowSet := true, hotOnce := Vector.ofFn fun z => atHot u z.val }

theorem sampledTherm_facts (u : State) (n : Nat) (w : Bool) : let t := sampledTherm u n w
    (t.demand = demands u ∧ t.alarm = (Vector.ofFn fun z => alarmOf u z.val) ∧ t.step = (demands u).toList.foldl max (nvVal u 0x0F000002) ∧
      t.hotOnce = (Vector.ofFn fun z => atHot u z.val) ∧ t.windowSet = true) ∧
    t.shut = u.therm.shut ∧ t.hotAt = u.therm.hotAt ∧ t.hotStops = u.therm.hotStops := by
  simp only [sampledTherm, withDemands, and_self]

/-- Demands, window, temperatures and readings at or above HOT stored in turn. -/
theorem stored_in_turn {u v s2 s3 t : State} {d : Therm} {w : Bool} {m : Int} {h : Vector Bool 18} (told : Told { u with therm := d } v)
    (open_ : s2 = { v with therm := { v.therm with window := w, windowSet := true } }) (third : s3 = { s2 with care := { s2.care with tMax := m } })
    (last : t = { s3 with therm := { s3.therm with hotOnce := h } }) :
    t = { u with therm := { d with window := w, windowSet := true, hotOnce := h }, care := { u.care with tMax := m }, fns := t.fns, out := t.out, side := t.side } := by
  rw [last, third, open_]
  exact (congrArg (fun t : State => { t with therm := { t.therm with window := w, windowSet := true, hotOnce := h }, care := { t.care with tMax := m } }) told :)

theorem demanded_frame (u : State) : ∃ n w m, u.care.tMax ≤ m ∧ ∃ t, t = demanded u ∧
    t = { u with therm := sampledTherm u n w, care := { u.care with tMax := m }, fns := t.fns, out := t.out, side := t.side } ∧
    hotZones ((writeWindow (throttle u)).updCare fun c => { c with tMax := max c.tMax ((carrierT (writeWindow (throttle u))).getD c.tMax) }) = hotZones u := by
  obtain ⟨n, told⟩ := throttle_frame u
  obtain ⟨v, hv⟩ : ∃ v, v = throttle u := ⟨_, rfl⟩
  rw [← hv] at told
  obtain ⟨w, open_⟩ := writeWindow_frame v
  obtain ⟨s2, h2⟩ : ∃ s2, s2 = writeWindow v := ⟨_, rfl⟩
  rw [← h2] at open_
  obtain ⟨m, hm⟩ : ∃ m, m = max s2.care.tMax ((carrierT s2).getD s2.care.tMax) := ⟨_, rfl⟩
  obtain ⟨s3, h3⟩ : ∃ s3, s3 = s2.updCare fun c => { c with tMax := max c.tMax ((carrierT s2).getD c.tMax) } := ⟨_, rfl⟩
  have third : s3 = { s2 with care := { s2.care with tMax := m } } := by rw [h3, hm]; rfl
  have eq : demanded u = s3.updTherm fun t => { t with hotOnce := Vector.ofFn fun z => atHot s3 z.val } := by
    rw [h3, h2, hv]
    rfl
  have care : s2.care = u.care := by
    rw [open_]
    exact (congrArg State.care told :)
  have therm : v.therm = withDemands u n := (congrArg State.therm told :)
  have thermT : s3.therm = { withDemands u n with window := w, windowSet := true } := by
    rw [third, open_, ← therm]
  have nv : s3.nv = u.nv := by
    rw [third, open_]
    exact (congrArg State.nv told :)
  have same : sensed s3 = sensed u := by
    simp only [sensed, nv, thermT, withDemands]
  have once : s3.therm.hotOnce = u.therm.hotOnce := by
    simp only [thermT, withDemands]
  have hot : (fun z : Fin 18 => atHot s3 z.val) = fun z : Fin 18 => atHot u z.val := funext fun z => (atHot_of_sensed same z.val).1
  rw [hot] at eq
  refine ⟨n, w, m, ?_, _, rfl, stored_in_turn told open_ third eq, ?_⟩
  · rw [hm, care]
    exact Int.le_max_left ..
  · rw [← hv, ← h2, ← h3]
    exact hotZones_of_sensed same once

theorem sensorSample_off {s : State} {raw : List Int} {ch : List Bool} (off : s.power.aonPowered = false) : Idle (.sensorSample raw ch) s :=
  congrArg Host.Outcome.next (if_pos (by simp [off]))

theorem sensorSample_quiet {s : State} {raw : List Int} {ch : List Bool} (on : s.power.aonPowered = true) (quiet : zonesAct s = false) :
    exec (.sensorSample raw ch) s = .next (chargeWindow (judge (takeReadings s raw ch))) :=
  congrArg Host.Outcome.next ((if_neg (by simp [on])).trans (if_pos (by rw [(sample_reads s raw ch).acts, quiet]; rfl)))

/-- The state once the carrier zones that are hot have stopped. -/
def carriersHot (u : State) : State :=
  ((hotZones u).filter fun z => decide (10 ≤ z) && !vget (demanded u).therm.shut z false).foldl carrierHot (demanded u)

/-- A sample where zones act: the demands, then the zones that are hot. -/
theorem sensorSample_acts {s : State} {raw : List Int} {ch : List Bool} {u : State} (on : s.power.aonPowered = true) (act : zonesAct s = true)
    (hu : u = chargeWindow (judge (takeReadings s raw ch))) :
    ((hotZones u).find? (fun z => decide (z < 10)) = none → exec (.sensorSample raw ch) s = .next (carriersHot u)) ∧
    ∀ z, (hotZones u).find? (fun z => decide (z < 10)) = some z → exec (.sensorSample raw ch) s = .next (controllerHot (carriersHot u) z) := by
  obtain ⟨n, w, m, -, t, -, -, hot⟩ := demanded_frame u
  have acts := (sample_reads s raw ch).acts
  have run : ∀ v, exec (.sensorSample raw ch) s = .next v ↔ execSensorSample raw ch s = .next v := fun _ => Iff.rfl
  unfold execSensorSample at run
  rw [← hu] at run acts
  simp only [on, acts, act, Bool.not_true, Bool.false_eq_true, if_false] at run
  rw [hot] at run
  refine ⟨fun none_ => ?_, fun z some_ => ?_⟩
  · rw [none_] at run
    exact (run _).mpr rfl
  · rw [some_] at run
    exact (run _).mpr rfl

end Sys2Proof.Proofs

end


section

/-! PROOF. Zones that stop: carriers whose octs leave service, a controller hot stop, its flush, and the return of a zone (R452-R454). -/

namespace Sys2Proof.Proofs

open Sys2Proof Sys2Proof.Machine Sys2Proof.Safety Sys2Proof.Laws

/-! ### What operations taken back leave -/

/-- BEAT, the time of day, the sensors and how many contexts there are. -/
def calm (s : State) := (s.beat, s.day, s.therm, s.ctxs.length)

theorem modCtx_calm (s : State) (c : Nat) (f : Ctx → Ctx) : calm (modCtx s c f) = calm s := by
  simp only [calm, modCtx, State.updCtxs, updIf, List.length_map]

theorem fallbackSlot_calm (s : State) (c g p : Nat) : calm (fallbackSlot s c g p) = calm s := by
  have deep : ∀ (u : State) (ns : Namespace) (rs), calm (registerDeep u ns rs) = calm u := fun u ns rs => by
    obtain ⟨d, e⟩ := registerDeep_deep ns rs u
    rw [e]
    rfl
  have set : ∀ (u : State) d, calm (setSlot u c g p d) = calm u := fun u d => modCtx_calm ..
  unfold fallbackSlot
  extract_lets u
  have slip : calm u = calm s := modCtx_calm ..
  clear_value u
  split
  next => exact slip
  next x _ =>
    split
    next => exact slip
    next r _ =>
      split
      next psa _ =>
        extract_lets toDeep
        have deep_ : calm toDeep = calm s := by
          simp only [toDeep]
          split
          · exact (deep ..).trans ((set ..).trans slip)
          · exact (set ..).trans slip
        clear_value toDeep
        split
        · split
          next e v plan =>
            have same := planAround_unbooked plan
            have planned : calm v = calm u := by
              have len : v.ctxs.length = u.ctxs.length := by simpa [unbooked] using congrArg (fun t : State => t.ctxs.length) same
              have rest : (v.beat, v.day, v.therm) = (u.beat, u.day, u.therm) := (congrArg (fun t : State => (t.beat, t.day, t.therm)) same :)
              simp only [Prod.mk.injEq] at rest
              obtain ⟨beat, day, therm⟩ := rest
              unfold calm
              rw [beat, day, therm, len]
            exact (set ..).trans (planned.trans slip)
          next => exact deep_
        · split
          · exact deep_
          · exact slip
      next => exact slip

theorem cutBand_calm (s : State) (n : Nat) (dark : Bool) : calm (cutBand s n dark) = calm s := by
  have mark : ∀ (u : State), calm (markClosed u n) = calm u := fun u => by
    unfold markClosed
    split
    · rfl
    · exact ite_agree calm rfl rfl
  unfold cutBand
  split
  next => rfl
  next b _ =>
    extract_lets inBand bad lost still again s1 free s2 s3
    have third : calm s3 = calm s := rfl
    clear_value s3
    exact ite_agree calm rfl (ite_agree calm ((mark s3).trans third) third)

theorem reach_calm (s : State) (p : Nat → Bool) (dark : Bool) : calm (reach s p dark) = calm s := by
  unfold reach aroundLost fallbackWhere
  refine (foldl_keeps calm (fun _ _ => fallbackSlot_calm ..) _ _).trans ((foldl_keeps calm (fun _ _ => fallbackSlot_calm ..) _ _).trans ?_)
  exact (foldl_keeps calm (f := fun (s : State) (b : Band) => cutBand (modBand s b.serial fun b => { b with dark := b.dark || dark }) b.serial true)
    (fun _ _ => cutBand_calm ..) _ _).trans rfl

theorem reachRunning_calm (s : State) (p : Nat → Bool) (dark : Bool) : calm (reachRunning s p dark) = calm s ∧
    (reachRunning s p dark).flash.octs = s.flash.octs := by
  obtain ⟨octs, -⟩ := reach_sheds s p dark
  unfold reachRunning
  refine ⟨Eq.trans ?_ (reach_calm s p dark), Eq.trans ?_ octs⟩
  · exact foldl_keeps calm (f := fun (t : State) (d : Die) => if p d.d then modDie t d.d _ else t) (fun _ _ => ite_agree calm rfl rfl) _ _
  · exact foldl_keeps (fun t : State => t.flash.octs) (f := fun (t : State) (d : Die) => if p d.d then modDie t d.d _ else t)
      (fun _ _ => ite_agree (fun t : State => t.flash.octs) rfl rfl) _ _

/-! ### A carrier zone stops -/

/-- An oct of a hot zone is told to leave at once and to wait (R452). -/
def octHot (s : State) (k : Nat) : State := startDrain (modOct s k fun o => { o with hotHold := some s.beat }) k true

/-- What an oct of a hot zone becomes. -/
def HotOct (beat : Nat) (before after : Oct) : Prop :=
  after.hotHold = some beat ∧ (before.st = .live → after.st = .draining ∧ after.drainAt = beat ∧ after.prompt = true)

theorem octHot_leaves {s : State} {k : Nat} (h : k < 16) : calm (octHot s k) = calm s ∧ HotOct s.beat (getOct s k) (getOct (octHot s k) k) ∧
    ∀ j, j ≠ k → getOct (octHot s k) j = getOct s j := by
  obtain ⟨u, hu⟩ : ∃ u, u = modOct s k fun o => { o with hotHold := some s.beat } := ⟨_, rfl⟩
  have held : calm u = calm s ∧ u.beat = s.beat := by
    rw [hu]
    exact ⟨rfl, rfl⟩
  have own : getOct u k = { getOct s k with hotHold := some s.beat } := hu ▸ getOct_modOct h _
  have others : ∀ j, j ≠ k → getOct u j = getOct s j := fun j other => hu ▸ getOct_modOct_ne other _
  unfold octHot
  rw [← hu]
  clear hu
  unfold startDrain
  dsimp only
  split
  next live =>
    rw [if_pos rfl]
    obtain ⟨v, hv⟩ : ∃ v, v = modOct u k fun o => { o with st := .draining, drainAt := u.beat, prompt := true, toDrain := false } := ⟨_, rfl⟩
    have heldV : calm v = calm u := by rw [hv]; rfl
    have ownV : getOct v k = { getOct u k with st := .draining, drainAt := u.beat, prompt := true, toDrain := false } := hv ▸ getOct_modOct h _
    have othersV : ∀ j, j ≠ k → getOct v j = getOct u j := fun j other => hv ▸ getOct_modOct_ne other _
    obtain ⟨still, octs⟩ := reachRunning_calm v (inOct k) true
    rw [← hv]
    refine ⟨still.trans (heldV.trans held.1), ?_, fun j other => (getOct_of_octs octs j).trans ((othersV j other).trans (others j other))⟩
    rw [getOct_of_octs octs, ownV, own, held.2]
    exact ⟨rfl, fun _ => ⟨rfl, rfl, rfl⟩⟩
  next away =>
    have stays : ∀ st, (getOct u k).st = st → (getOct s k).st = st := fun st e => by
      rw [own] at e
      exact e
    have not_ : (getOct s k).st ≠ .live := fun live => away (by rw [own]; exact live)
    split
    next =>
      refine ⟨held.1, ⟨?_, fun live => absurd live not_⟩, fun j other => (getOct_modOct_ne other _).trans (others j other)⟩
      rw [getOct_modOct h, own]
    next =>
      refine ⟨held.1, ⟨?_, fun live => absurd live not_⟩, others⟩
      rw [own]

theorem octsHot_calm (l : List Nat) (s : State) (small : ∀ k ∈ l, k < 16) : calm (l.foldl octHot s) = calm s := by
  induction l generalizing s with
  | nil => rfl
  | cons k l ih =>
    exact (ih _ fun j hj => small j (List.mem_cons_of_mem _ hj)).trans (octHot_leaves (small k List.mem_cons_self)).1

theorem zoneOcts_of {z : Nat} (h : z < 18) (carrier : 10 ≤ z) : ∃ a b, zoneOcts z = [a, b] ∧ a ≠ b ∧ a < 16 ∧ b < 16 := by
  refine ⟨_, _, if_neg (by omega), ?_, ?_, ?_⟩ <;> omega

theorem zoneOcts_small {z : Nat} (h : z < 18) : ∀ k ∈ zoneOcts z, k < 16 := fun k hk => by
  rcases Nat.lt_or_ge z 10 with low | carrier
  · rw [zoneOcts, if_pos low] at hk
    cases hk
  · obtain ⟨a, b, eq, -, ha, hb⟩ := zoneOcts_of h carrier
    rw [eq] at hk
    rcases List.mem_cons.mp hk with rfl | hk
    · exact ha
    · rw [List.mem_singleton.mp hk]
      exact hb

/-- The zone recorded as shut. -/
def zoneShut (s : State) (z : Nat) : State := s.updTherm fun t => { t with shut := vset t.shut z true }

theorem carrierHot_calm {z : Nat} (h : z < 18) (s : State) : calm (carrierHot s z) = calm (zoneShut s z) := octsHot_calm _ _ (zoneOcts_small h)

/-- The octs of a hot carrier zone leave service, and no other (R452). -/
theorem carrierHot_octs {z : Nat} (h : z < 18) (carrier : 10 ≤ z) (s : State) :
    (∀ k ∈ zoneOcts z, HotOct s.beat (getOct s k) (getOct (carrierHot s z) k)) ∧
    ∀ k, (zoneOcts z).contains k = false → getOct (carrierHot s z) k = getOct s k := by
  obtain ⟨a, b, eq, differ, ha, hb⟩ := zoneOcts_of h carrier
  obtain ⟨u, hu⟩ : ∃ u, u = zoneShut s z := ⟨_, rfl⟩
  have octs : ∀ k, getOct u k = getOct s k := fun k => by rw [hu]; rfl
  have beat : u.beat = s.beat := by rw [hu]; rfl
  have hot : carrierHot s z = octHot (octHot u a) b := by
    show (zoneOcts z).foldl octHot (zoneShut s z) = _
    rw [eq, ← hu]
    rfl
  clear hu
  obtain ⟨calmA, hotA, othersA⟩ := octHot_leaves (s := u) ha
  obtain ⟨v, hv⟩ : ∃ v, v = octHot u a := ⟨_, rfl⟩
  rw [← hv] at hot calmA hotA othersA
  clear hv
  obtain ⟨-, hotB, othersB⟩ := octHot_leaves (s := v) hb
  have beatV : v.beat = s.beat := (congrArg Prod.fst calmA :).trans beat
  rw [hot, eq]
  refine ⟨fun k hk => ?_, fun k none_ => ?_⟩
  · rcases List.mem_cons.mp hk with rfl | hk
    · rw [othersB k differ, ← octs, ← beat]
      exact hotA
    · rw [List.mem_singleton.mp hk]
      rw [othersA b (Ne.symm differ), octs, beatV] at hotB
      exact hotB
  · have off : k ≠ a ∧ k ≠ b := by simpa using none_
    rw [othersB k off.2, othersA k off.1, octs]

/-- The sensors without the zones that are shut. -/
def unshut (s : State) := (s.beat, s.day, { s.therm with shut := Vector.replicate 18 false }, s.ctxs.length)

theorem carriersHot_fold (l : List Nat) (s : State) (small : ∀ z ∈ l, z < 18) : unshut (l.foldl carrierHot s) = unshut s ∧
    ∀ z < 18, vget (l.foldl carrierHot s).therm.shut z false = (vget s.therm.shut z false || l.contains z) := by
  induction l generalizing s with
  | nil => exact ⟨rfl, fun z _ => by simp⟩
  | cons a l ih =>
    obtain ⟨same, shut⟩ := ih (carrierHot s a) fun j hj => small j (List.mem_cons_of_mem _ hj)
    have calm_ := carrierHot_calm (small a List.mem_cons_self) s
    obtain ⟨u, hu⟩ : ∃ u, u = carrierHot s a := ⟨_, rfl⟩
    rw [List.foldl_cons, ← hu]
    rw [← hu] at same shut calm_
    clear hu
    have therm : u.therm = (zoneShut s a).therm := (congrArg (fun p => p.2.2.1) calm_ :)
    refine ⟨same.trans ?_, fun z h => ?_⟩
    · simp only [calm, Prod.mk.injEq] at calm_
      obtain ⟨beat, day, -, ctxs⟩ := calm_
      unfold unshut
      rw [beat, day, therm, ctxs]
      rfl
    · have set : vget u.therm.shut z false = if z = a then true else vget s.therm.shut z false := by
        rw [therm]
        exact vget_vset_bool _ _ _ h _
      rw [shut z h, set, List.contains_cons]
      cases own : z == a with
      | true => simp [beq_iff_eq.mp own]
      | false => simp [beq_eq_false_iff_ne.mp own]

/-! ### A sample as a whole -/

/-- What a sample leaves when zones act, no zone stopped yet. -/
structure Sampled (s u t : State) : Prop where
  eq : t = demanded u
  frame : t = { s with therm := t.therm, power := { s.power with charging := t.power.charging }, care := { s.care with tMax := t.care.tMax }, fns := t.fns, side := t.side, out := t.out }
  tMax : s.care.tMax ≤ t.care.tMax
  zones : ∀ z < 18, vget t.therm.demand z 0 = demandOf u z ∧ vget t.therm.alarm z false = alarmOf u z ∧ vget t.therm.hotOnce z false = atHot u z
  most : ∀ z < 18, vget t.therm.demand z 0 ≤ t.therm.step
  least : nvVal s 0x0F000002 ≤ t.therm.step
  one : t.therm.step = nvVal s 0x0F000002 ∨ ∃ z < 18, vget t.therm.demand z 0 = t.therm.step
  shut : t.therm.shut = s.therm.shut
  hotAt : t.therm.hotAt = s.therm.hotAt
  hotStops : t.therm.hotStops = s.therm.hotStops
  windowSet : t.therm.windowSet = true

theorem demands_mem (u : State) (d : Nat) : d ∈ (demands u).toList ↔ ∃ z < 18, demandOf u z = d := by
  rw [Vector.mem_toList_iff, demands, Vector.mem_ofFn]
  exact ⟨fun ⟨z, e⟩ => ⟨z.val, z.isLt, e⟩, fun ⟨z, h, e⟩ => ⟨⟨z, h⟩, e⟩⟩

theorem sampled_of_read {s u : State} {raw : List Int} (read : Read s raw u) : ∃ t, Sampled s u t := by
  obtain ⟨n, w, m, above, t, ht, frame, -⟩ := demanded_frame u
  obtain ⟨⟨demand, alarm, step, hotOnce, windowSet⟩, shut, hotAt, hotStops⟩ := sampledTherm_facts u n w
  obtain ⟨d, hd⟩ : ∃ d, d = sampledTherm u n w := ⟨_, rfl⟩
  rw [← hd] at demand alarm step hotOnce windowSet shut hotAt hotStops frame
  clear hd
  have therm : t.therm = d := (congrArg State.therm frame :)
  have care : t.care = { u.care with tMax := m } := (congrArg State.care frame :)
  have power : t.power = u.power := (congrArg State.power frame :)
  have was : u.care = s.care := (congrArg State.care read.frame :)
  have nv : u.nv = s.nv := (congrArg State.nv read.frame :)
  have setting : nvVal u 0x0F000002 = nvVal s 0x0F000002 := by simp only [nvVal, nv]
  obtain ⟨least, each, one⟩ := foldl_max_facts (demands u).toList (nvVal u 0x0F000002)
  rw [← step] at least each one
  rw [setting] at least one
  have demand_ : ∀ z < 18, vget d.demand z 0 = demandOf u z := fun z h => by
    rw [demand]
    exact vget_ofFn _ _ h
  refine ⟨t, ht, ?_, ?_, fun z h => ⟨?_, ?_, ?_⟩, fun z h => ?_, ?_, ?_, ?_, ?_, ?_, ?_⟩
  · have whole := frame.trans (congrArg (fun v : State => { v with therm := d, care := { v.care with tMax := m }, fns := t.fns, out := t.out, side := t.side }) read.frame)
    rw [therm, power, show t.care.tMax = m by rw [care]]
    exact whole
  · rw [care, ← was]
    exact above
  · rw [therm, demand_ z h]
  · rw [therm, alarm]
    exact vget_ofFn _ _ h
  · rw [therm, hotOnce]
    exact vget_ofFn _ _ h
  · rw [therm, demand_ z h]
    exact each _ ((demands_mem u _).mpr ⟨z, h, rfl⟩)
  · rw [therm]
    exact least
  · rw [therm]
    refine one.imp_right fun ⟨x, hx, same⟩ => ?_
    obtain ⟨z, h, e⟩ := (demands_mem u x).mp hx
    exact ⟨z, h, (demand_ z h).trans (e.trans same)⟩
  · rw [therm, shut, read.frame]
  · rw [therm, hotAt, read.frame]
  · rw [therm, hotStops, read.frame]
  · rw [therm, windowSet]

theorem hotZones_small {s : State} {z : Nat} (hot : z ∈ hotZones s) : z < 18 := List.mem_range.mp (List.mem_filter.mp hot).1

/-- A controller hot stop begins (R453). -/
theorem controllerHot_stops {s : State} {z : Nat} (none_ : s.therm.hotAt = none) (cool : hotStopped s = false) : ∃ t, t = controllerHot s z ∧
    t.therm.hotAt = some s.beat ∧ t.therm.hotZone = z ∧ t.therm.hotStops = satAdd32 s.therm.hotStops 1 ∧ t.ctxs = [] ∧ t.plan.stopped = true ∧
    t.plan.fetching = [] ∧ t.day.sealed = none ∧ t.day.pendReq = none ∧ t.twin.hbStopped = true ∧ t.xlat = s.xlat ∧ t.media = s.media ∧ t.rings = s.rings := by
  have run : controllerHot s z = _ := if_neg (by rw [none_, show (s.day.fatal && s.day.fcause == 5) = false from cool]; decide)
  exact ⟨_, rfl, by rw [run]; exact ⟨rfl, rfl, rfl, rfl, rfl, rfl, rfl, rfl, rfl, rfl, rfl, rfl⟩⟩

theorem hotStopped_of_acts {s : State} (act : zonesAct s = true) : hotStopped s = false := by
  simp only [zonesAct, Bool.and_eq_true, Bool.not_eq_true'] at act
  exact act.1.1.2

/-! ### A zone returns -/

/-- Zones opened again one after another where their octs may return. -/
theorem zonesReturned (l : List Nat) (s : State) :
    let t := l.foldl (fun s z => if (zoneOcts z).all fun j => (getOct s j).hotHold.isNone then s.updTherm fun t => { t with shut := vset t.shut z false } else s) s
    t = { s with therm := { s.therm with shut := t.therm.shut } } ∧
    ∀ z < 18, vget t.therm.shut z false = (vget s.therm.shut z false && !(l.contains z && (zoneOcts z).all fun j => (getOct s j).hotHold.isNone)) := by
  induction l generalizing s with
  | nil => exact ⟨rfl, fun z _ => by simp⟩
  | cons a l ih =>
    obtain ⟨u, hu⟩ : ∃ u, u = if (zoneOcts a).all fun j => (getOct s j).hotHold.isNone then s.updTherm fun t => { t with shut := vset t.shut a false } else s := ⟨_, rfl⟩
    obtain ⟨frame, shut⟩ := ih u
    dsimp only
    rw [List.foldl_cons, ← hu]
    have first : u = { s with therm := { s.therm with shut := u.therm.shut } } := by
      rw [hu]
      split <;> rfl
    have own : ∀ z < 18, vget u.therm.shut z false = (vget s.therm.shut z false && !(z == a && (zoneOcts z).all fun j => (getOct s j).hotHold.isNone)) := fun z h => by
      rw [hu]
      by_cases same : z = a
      · subst same
        split
        next all_ => rw [all_]; simp [vget_vset_bool _ _ _ h]
        next some_ => simp [some_]
      · split
        · simp [vget_vset_bool _ _ _ h, same]
        · simp [same]
    have octs : ∀ j, getOct u j = getOct s j := fun j => by rw [first]; rfl
    clear hu
    refine ⟨frame.trans (by rw [first]), fun z h => ?_⟩
    rw [shut z h, own z h, List.contains_cons]
    simp only [octs]
    cases vget s.therm.shut z false <;> cases z == a <;> cases l.contains z <;> simp

end Sys2Proof.Proofs

end


section

/-! PROOF. The sensors' obligation, assembled. -/

namespace Sys2Proof.Proofs

open Sys2Proof Sys2Proof.Machine Sys2Proof.Safety Sys2Proof.Laws

/-- What a hot stop leaves once what it wrote is verified (R453). -/
theorem hotStop_leaves (w : State) (body : List Byte) (d : Nat) : ∃ t, t = wipe (goFatal (norPut w 0x04 0 body) 5 d) ∧ Wiped w t ∧ t.day.fatal = true ∧ t.day.fcause = 5 ∧
    t.day.day = w.day.day ∧ t.beat = w.beat ∧ t.therm.hotAt = w.therm.hotAt ∧ ∃ e ∈ t.nor.log, e.typ = 4 ∧ e.key = 0 ∧ e.value = body := by
  obtain ⟨v, hv⟩ : ∃ v, v = norPut w 0x04 0 body := ⟨_, rfl⟩
  have stands := norPut_stands w 0x04 0 body
  rw [← hv] at stands ⊢
  have kept : flushed v = flushed w := by
    rw [hv]
    rfl
  clear hv
  have log := wipe_log (goFatal v 5 d)
  have wiped := wipe_wiped (goFatal v 5 d)
  simp only [flushed, Prod.mk.injEq] at kept
  obtain ⟨beat, day, therm, -, xlat, media, care⟩ := kept
  refine ⟨_, rfl, ?_, rfl, rfl, ?_, beat, ?_, ?_⟩
  · unfold Wiped at wiped ⊢
    rw [← xlat, ← media, ← care]
    exact wiped
  · rw [← day]
    rfl
  · rw [← therm]
    rfl
  · rw [log]
    exact stands

/-- Settles O54: samples of the sensors, what zones demand, hot stops and the return of a zone. -/
theorem sensorsAndHotStops : Obligations.SensorsAndHotStops := by
  unfold Obligations.SensorsAndHotStops
  refine ⟨fun s raw ch off => sensorSample_off off, ?quiet, ?act, fun s z broken => demandOf_broken broken, atHot_iff, ?demand, ?stops, ?stopsToo, ?carriers, ?carrier, ?returns,
    ?stays, ?noFlush, ?flush, ?rearm⟩
  case quiet =>
    intro s raw ch on quiet
    have read := sample_reads s raw ch
    exact ⟨_, sensorSample_quiet on quiet, read.frame, read.reading, read.bad, read.unfitted, read.kept, read.charging⟩
  case act =>
    intro s raw ch u on act hu none_
    obtain ⟨t, sampled⟩ := sampled_of_read (hu ▸ sample_reads s raw ch)
    have run := (sensorSample_acts on act hu).1 (by rw [none_]; rfl)
    have same : carriersHot u = t := by
      rw [sampled.eq]
      unfold carriersHot
      rw [none_]
      rfl
    rw [same] at run
    exact ⟨t, run, sampled.frame, sampled.zones, sampled.most, sampled.least, sampled.one, sampled.tMax, sampled.hotAt, sampled.windowSet⟩
  case demand =>
    intro s z x reading range
    obtain ⟨demand, alarm⟩ := demandOf_reading reading
    refine ⟨fun top => ?_, fun low => ?_, fun low high quiet => ?_⟩
    · rw [demand, alarm, stepAt_top range top, stepAt_top range (by omega)]
      exact ⟨Nat.max_eq_left (Nat.min_le_right ..), decide_eq_true top⟩
    · rw [demand, alarm, stepAt_below (by omega), stepAt_below (by omega)]
      exact ⟨by simp, decide_eq_false (by omega)⟩
    · rw [demand, quiet, Nat.zero_min, Nat.max_zero]
      exact stepAt_within range low high
  case stops =>
    intro s raw ch u z on act calm_ hu one low
    obtain ⟨t, sampled⟩ := sampled_of_read (hu ▸ sample_reads s raw ch)
    have run := (sensorSample_acts on act hu).2 z (by rw [one]; simp [low])
    have same : carriersHot u = t := by
      rw [sampled.eq]
      unfold carriersHot
      rw [one]
      have off : decide (10 ≤ z) = false := decide_eq_false (by omega)
      rw [List.filter_cons, off]
      rfl
    rw [same] at run
    have frame := sampled.frame
    have day : t.day = s.day := (congrArg State.day frame :)
    have cool : hotStopped t = false := by
      unfold hotStopped
      rw [day]
      exact hotStopped_of_acts act
    obtain ⟨v, hv, hotAt, zone, stops, ctxs, stopped, fetching, sealed, pend, hb, xlat, media, rings⟩ := controllerHot_stops (z := z) (sampled.hotAt.trans calm_) cool
    rw [← hv] at run
    refine ⟨v, run, hotAt.trans ?_, zone, stops.trans ?_, ctxs, stopped, fetching, sealed, pend, hb, xlat.trans ?_, media.trans ?_, rings.trans ?_⟩
    · rw [frame]
    · rw [sampled.hotStops]
    · rw [frame]
    · rw [frame]
    · rw [frame]
  case stopsToo =>
    intro s raw ch u on act calm_ hu ⟨z, hot, low⟩
    obtain ⟨t, sampled⟩ := sampled_of_read (hu ▸ sample_reads s raw ch)
    obtain ⟨y, hy⟩ : ∃ y, (hotZones u).find? (fun z => decide (z < 10)) = some y := by
      refine Option.isSome_iff_exists.mp (List.find?_isSome.mpr ⟨z, hot, decide_eq_true low⟩)
    have run := (sensorSample_acts on act hu).2 y hy
    have small : y < 10 := of_decide_eq_true (List.find?_some (p := fun z => decide (z < 10)) hy)
    have fold := (carriersHot_fold ((hotZones u).filter fun z => decide (10 ≤ z) && !vget (demanded u).therm.shut z false) (demanded u)
      fun z hz => hotZones_small (List.mem_filter.mp hz).1).1
    rw [← sampled.eq] at fold
    obtain ⟨w, hw⟩ : ∃ w, w = carriersHot u := ⟨_, rfl⟩
    have kept : unshut w = unshut t := by
      rw [hw]
      unfold carriersHot
      rw [← sampled.eq]
      exact fold
    rw [← hw] at run
    clear fold hw
    simp only [unshut, Prod.mk.injEq] at kept
    obtain ⟨beat, day, therm, -⟩ := kept
    have frame := sampled.frame
    have cool : hotStopped w = false := by
      unfold hotStopped
      rw [day, show t.day = s.day from (congrArg State.day frame :)]
      exact hotStopped_of_acts act
    have none_ : w.therm.hotAt = none := (congrArg Therm.hotAt therm :).trans (sampled.hotAt.trans calm_)
    obtain ⟨v, hv, hotAt, zone, stops, ctxs, stopped, fetching, -, -, hb, -⟩ := controllerHot_stops (z := y) none_ cool
    rw [← hv] at run
    refine ⟨v, run, hotAt.trans ?_, stops.trans ?_, ctxs, stopped, fetching, hb, ?_, ?_⟩
    · rw [beat, frame]
    · rw [show w.therm.hotStops = t.therm.hotStops from (congrArg Therm.hotStops therm :), sampled.hotStops]
    · rw [zone]
      exact List.mem_of_find?_eq_some hy
    · rw [zone]
      exact small
  case carriers =>
    intro s raw ch u on act hu carriers
    obtain ⟨t, sampled⟩ := sampled_of_read (hu ▸ sample_reads s raw ch)
    have run := (sensorSample_acts on act hu).1 (List.find?_eq_none.mpr fun z hz low => absurd (of_decide_eq_true low) (Nat.not_lt.mpr (carriers z hz)))
    obtain ⟨l, hl⟩ : ∃ l, l = (hotZones u).filter fun z => decide (10 ≤ z) && !vget t.therm.shut z false := ⟨_, rfl⟩
    have eq : carriersHot u = l.foldl carrierHot t := by
      rw [hl, sampled.eq]
      rfl
    rw [eq] at run
    obtain ⟨kept, shut⟩ := carriersHot_fold l t fun z hz => hotZones_small (List.mem_filter.mp (hl ▸ hz)).1
    simp only [unshut, Prod.mk.injEq] at kept
    obtain ⟨-, -, therm, ctxs⟩ := kept
    refine ⟨_, run, (congrArg Therm.hotAt therm :).trans sampled.hotAt, ctxs.trans ?_, fun z h => (shut z h).trans ?_⟩
    · rw [sampled.frame]
    · have listed : l.contains z = ((hotZones u).contains z && !vget s.therm.shut z false) := by
        rw [hl, ← sampled.shut, Bool.eq_iff_iff]
        simp only [List.contains_iff_mem, List.mem_filter, Bool.and_eq_true, decide_eq_true_eq, Bool.not_eq_true']
        exact ⟨fun ⟨hz, _, open_⟩ => ⟨hz, open_⟩, fun ⟨hz, open_⟩ => ⟨hz, carriers z hz, open_⟩⟩
      rw [listed, sampled.shut]
      cases vget s.therm.shut z false <;> cases (hotZones u).contains z <;> rfl
  case carrier =>
    intro s raw ch u z on act hu one carrier open_
    obtain ⟨t, sampled⟩ := sampled_of_read (hu ▸ sample_reads s raw ch)
    have small : z < 18 := hotZones_small (s := u) (by rw [one]; exact List.mem_cons_self)
    have run := (sensorSample_acts on act hu).1 (by rw [one]; simp [carrier])
    have eq : carriersHot u = carrierHot t z := by
      unfold carriersHot
      rw [one, ← sampled.eq, sampled.shut, List.filter_cons, if_pos (by rw [open_, decide_eq_true carrier]; rfl)]
      rfl
    rw [eq] at run
    obtain ⟨hot, others⟩ := carrierHot_octs small carrier t
    have calm_ := carrierHot_calm small t
    have therm : (carrierHot t z).therm = (zoneShut t z).therm := (congrArg (fun p => p.2.2.1) calm_ :)
    have octs : ∀ k, getOct t k = getOct s k := fun k => by rw [sampled.frame]; rfl
    have beat : t.beat = s.beat := by rw [sampled.frame]
    refine ⟨_, run, ?_, ?_, fun k hk => ?_, fun k _ off => (others k off).trans (octs k)⟩
    · rw [therm]
      exact vget_vset_same _ _ _ small
    · rw [therm]
      exact sampled.hotAt
    · rw [← octs k, ← beat]
      exact hot k hk
  case returns =>
    intro s k h held dark late cool
    obtain ⟨u, hu⟩ : ∃ u, u = modOct s k fun o => { o with hotHold := none } := ⟨_, rfl⟩
    obtain ⟨zs, hzs⟩ : ∃ zs, zs = (zonesOfOct k).filter fun z => vget s.therm.shut z false := ⟨_, rfl⟩
    obtain ⟨frame, shut⟩ := zonesReturned zs u
    obtain ⟨t, ht⟩ : ∃ t, t = zs.foldl (fun s z => if (zoneOcts z).all fun j => (getOct s j).hotHold.isNone then s.updTherm fun t => { t with shut := vset t.shut z false } else s) u := ⟨_, rfl⟩
    have run : exec (.carrierZoneReturn k) s = .next t := by
      rw [ht, hu, hzs]
      refine congrArg Host.Outcome.next (if_neg ?_)
      rintro (none_ | lit | early | hot)
      · simp [Option.isNone_iff_eq_none] at none_
        simp [none_] at held
      · exact lit dark
      · omega
      · refine absurd hot (by
          rw [Bool.not_eq_true', Bool.not_eq_false, List.all_eq_true]
          exact fun z hz => cool z (List.mem_filter.mp hz).1 (by simpa using (List.mem_filter.mp hz).2))
    have first : u = { s with flash := { s.flash with octs := u.flash.octs } } := by
      rw [hu]
      rfl
    have own : getOct u k = { getOct s k with hotHold := none } := hu ▸ getOct_modOct h _
    have others : ∀ j, j ≠ k → getOct u j = getOct s j := fun j other => hu ▸ getOct_modOct_ne other _
    rw [← ht] at frame shut
    clear ht hu
    have octs : t.flash.octs = u.flash.octs := (congrArg (fun v : State => v.flash.octs) frame :)
    have sensors : u.therm = s.therm := (congrArg State.therm first :)
    refine ⟨t, run, ?_, (getOct_of_octs octs k).trans own, fun j other => (getOct_of_octs octs j).trans (others j other), fun z h => ?_⟩
    · rw [octs]
      exact frame.trans (congrArg (fun v : State => { v with therm := { v.therm with shut := t.therm.shut } }) first)
    · have named : zs.contains z = ((zoneOcts z).contains k && vget s.therm.shut z false) := by
        rw [hzs, Bool.eq_iff_iff]
        simp only [List.contains_iff_mem, zonesOfOct, List.mem_filter, List.mem_range, Bool.and_eq_true, h, true_and]
      rw [shut z h, named, sensors]
      simp only [getOct_of_octs octs]
      cases vget s.therm.shut z false <;> simp
  case stays =>
    intro s k why
    refine congrArg Host.Outcome.next (if_pos ?_)
    rcases why with none_ | lit | early | ⟨z, hz, shut, warm⟩
    · exact .inl (by rw [none_]; rfl)
    · exact .inr (.inl lit)
    · exact .inr (.inr (.inl early))
    · refine .inr (.inr (.inr ?_))
      rw [Bool.not_eq_true', List.all_eq_false]
      exact ⟨z, List.mem_filter.mpr ⟨hz, shut⟩, by rw [warm]; decide⟩
  case noFlush =>
    intro s why
    refine congrArg Host.Outcome.next ?_
    split
    · rfl
    next l hot =>
      refine if_pos ?_
      rcases why with none_ | stopped | last
      · rw [hot] at none_
        cases none_
      · exact .inl stopped
      · exact .inr last
  case flush =>
    intro s h w hot cool last hw
    obtain ⟨beat, day, therm, -⟩ := of_vital (flushAll_vital s true false)
    rw [← hw] at beat day therm
    obtain ⟨t, ht, wiped, fatal, cause, day', beat', hotAt, stands⟩ := hotStop_leaves w
      (leBytes 1 s.therm.hotZone ++ leBytes 1 0 ++ leBytes 2 (sbits 16 s.therm.hotTemp) ++ leBytes 6 h)
      (sbits 16 ((hottest s (List.range 16)).getD s.therm.hotTemp / 16))
    have run : exec .hotStopFlushed s = .next t := by
      rw [ht, hw]
      refine congrArg Host.Outcome.next ?_
      rw [hot]
      exact if_neg (by rw [cool, last]; decide)
    exact ⟨t, run, wiped, fatal, cause, day'.trans (by rw [day]), beat'.trans beat, hotAt.trans (by rw [therm, hot]), stands⟩
  case rearm =>
    intro s c x i v waits
    refine congrArg Host.Outcome.next ?_
    rw [waits]

end Sys2Proof.Proofs

end


section

/-! PROOF. On-chip memories: corrected and uncorrectable words, tests on request and the repair of rows (R459-R467). -/

namespace Sys2Proof.Proofs

open Sys2Proof Sys2Proof.Machine Sys2Proof.Safety Sys2Proof.Laws

/-! ### Words corrected and not -/

/-- A bank of the module's memories. -/
def getBank (s : State) (b : Nat) : MemBank := vget s.mem.banks b MemBank.init

theorem getBank_modBank {s : State} {b : Nat} (h : b < 11) (f : MemBank → MemBank) : getBank (Machine.modBank s b f) b = f (getBank s b) := vget_vset_same _ _ _ h

theorem getBank_modBank_ne {s : State} {b d : Nat} (other : d ≠ b) (f : MemBank → MemBank) : getBank (Machine.modBank s b f) d = getBank s d := vget_vset_ne _ _ _ other

theorem scrub_off {s : State} {b u n : Nat} (off : s.day.sramOn = false ∨ 11 ≤ b) : Idle (.scrub b u n) s ∧ Idle (.sramUncorrectable b u) s :=
  ⟨congrArg Host.Outcome.next (if_pos (by simpa using off)), congrArg Host.Outcome.next (if_pos (by simpa using off))⟩

/-- The counts of corrected words. -/
def scrubbed (s : State) (b n : Nat) : State :=
  (Machine.modBank s b fun k => { k with ce := min 4095 (k.ce + n) }).updMem fun m => { m with ceTotal := satAdd m.ceTotal n }

theorem scrub_runs {s : State} {b u n : Nat} (on : s.day.sramOn = true) (h : b < 11) : exec (.scrub b u n) s = .next (
    if b = 2 then (scrubbed s b n).updMem fun m => { m with chbufCe := vset m.chbufCe u (min 2047 (vget m.chbufCe u 0 + n)) } else scrubbed s b n) :=
  congrArg Host.Outcome.next (if_neg (by simp [on, h]))

theorem getBank_of_banks {s t : State} (same : t.mem.banks = s.mem.banks) (b : Nat) : getBank t b = getBank s b := congrArg (vget · b MemBank.init) same

theorem scrubbed_bank {s : State} {b n : Nat} (h : b < 11) :
    getBank (scrubbed s b n) b = { getBank s b with ce := min 4095 ((getBank s b).ce + n) } ∧ ∀ d, d ≠ b → getBank (scrubbed s b n) d = getBank s d := by
  obtain ⟨v, hv⟩ : ∃ v, v = Machine.modBank s b fun k => { k with ce := min 4095 (k.ce + n) } := ⟨_, rfl⟩
  have own := getBank_modBank (s := s) h fun k => { k with ce := min 4095 (k.ce + n) }
  have others : ∀ d, d ≠ b → getBank v d = getBank s d := fun d other => hv ▸ getBank_modBank_ne other _
  have banks : (scrubbed s b n).mem.banks = v.mem.banks := by
    rw [hv]
    simp only [scrubbed, State.updMem]
  rw [← hv] at own
  exact ⟨(getBank_of_banks banks b).trans own, fun d other => (getBank_of_banks banks d).trans (others d other)⟩

theorem scrubbed_frame (s : State) (b n : Nat) : ∃ v, v = scrubbed s b n ∧ v = { s with mem := { s.mem with banks := v.mem.banks, ceTotal := satAdd s.mem.ceTotal n } } :=
  ⟨_, rfl, by simp only [scrubbed, Machine.modBank, State.updMem]⟩

/-- The counts of uncorrectable words. -/
def uncorrected (s : State) (b : Nat) : State :=
  (Machine.modBank s b fun k => { k with ue := min 255 (k.ue + 1) }).updMem fun m => { m with ueTotal := satAdd m.ueTotal 1 }

theorem uncorrected_counts {s : State} {b : Nat} (h : b < 11) : ∃ v, v = uncorrected s b ∧ v = { s with mem := v.mem } ∧
    (getBank v b).ue = min 255 ((getBank s b).ue + 1) ∧ v.mem.ueTotal = satAdd s.mem.ueTotal 1 := by
  obtain ⟨v, hv⟩ : ∃ v, v = Machine.modBank s b fun k => { k with ue := min 255 (k.ue + 1) } := ⟨_, rfl⟩
  have own := getBank_modBank (s := s) h fun k => { k with ue := min 255 (k.ue + 1) }
  rw [← hv] at own
  have banks : (uncorrected s b).mem.banks = v.mem.banks := by
    rw [hv]
    simp only [uncorrected, State.updMem]
  refine ⟨_, rfl, ?_, ?_, ?_⟩
  · simp only [uncorrected, Machine.modBank, State.updMem]
  · rw [getBank_of_banks banks, own]
  · simp only [uncorrected, Machine.modBank, State.updMem]

/-- What an uncorrectable word does beyond its counts (R459). -/
theorem sramUncorrectable_runs {s : State} {b u : Nat} (on : s.day.sramOn = true) (h : b < 11) :
    (b = 0 → exec (.sramUncorrectable b u) s = .next (dropLines (uncorrected s b) fun w => w.line == u)) ∧
    (b = 1 → exec (.sramUncorrectable b u) s = .next (dropLines (uncorrected s b) fun w => w.set == u)) ∧
    (b = 2 ∨ b = 3 ∨ b = 5 ∨ b = 10 → exec (.sramUncorrectable b u) s = .next (uncorrected s b)) ∧
    (b = 4 ∨ b = 6 ∨ b = 8 → exec (.sramUncorrectable b u) s = .next (memFatal (uncorrected s b) b)) ∧
    (b = 7 → exec (.sramUncorrectable b u) s = .next (memFatal (zeroVault (uncorrected s b)) 7)) ∧
    (b = 9 → exec (.sramUncorrectable b u) s = .next (if u < 4 then engineMemError (uncorrected s b) u else uncorrected s b)) := by
  have lit : ¬ ((!s.day.sramOn) = true ∨ 11 ≤ b) := by simp [on, h]
  refine ⟨?_, ?_, ?_, ?_, ?_, ?_⟩
  · rintro rfl
    exact congrArg Host.Outcome.next (if_neg lit)
  · rintro rfl
    exact congrArg Host.Outcome.next (if_neg lit)
  · rintro (rfl | rfl | rfl | rfl) <;> exact congrArg Host.Outcome.next (if_neg lit)
  · rintro (rfl | rfl | rfl) <;> exact congrArg Host.Outcome.next (if_neg lit)
  · rintro rfl
    exact congrArg Host.Outcome.next (if_neg lit)
  · rintro rfl
    exact congrArg Host.Outcome.next (if_neg lit)

/-- A bank the module cannot do without: fatal, and the signals to the other module stop (R459). -/
theorem memFatal_stops {s : State} {b : Nat} (h : b < 11) : ∃ t, t = memFatal s b ∧
    t = { s with mem := t.mem, day := t.day, twin := { s.twin with hbStopped := true }, flash := (stopSignals s).flash } ∧ t.day.fatal = true ∧ t.day.fcause = 4 ∧
    t.day.fdetail = b ∧ getBank t b = { getBank s b with health := 2 } ∧ t.mem.ueTotal = s.mem.ueTotal := by
  obtain ⟨v, hv⟩ : ∃ v, v = Machine.modBank s b fun k => { k with health := 2 } := ⟨_, rfl⟩
  have own := getBank_modBank (s := s) h fun k => { k with health := 2 }
  rw [← hv] at own
  have frame : v = { s with mem := v.mem } ∧ v.mem.ueTotal = s.mem.ueTotal := by
    rw [hv]
    simp only [Machine.modBank, State.updMem, and_self]
  have eq : memFatal s b = goFatal v 4 b := by
    rw [hv]
    rfl
  have stops : goFatal v 4 b = { v with day := (goFatal v 4 b).day, twin := { v.twin with hbStopped := true }, flash := (stopSignals v).flash } ∧
      (goFatal v 4 b).day.fatal = true ∧ (goFatal v 4 b).day.fcause = 4 ∧ (goFatal v 4 b).day.fdetail = b % 2 ^ 16 := ⟨rfl, rfl, rfl, rfl⟩
  obtain ⟨t, ht⟩ : ∃ t, t = goFatal v 4 b := ⟨_, rfl⟩
  rw [← ht] at stops eq
  clear ht hv
  obtain ⟨frameT, fatal, cause, detail⟩ := stops
  obtain ⟨frameV, total⟩ := frame
  have mem : t.mem = v.mem := (congrArg State.mem frameT :)
  have flash : (stopSignals v).flash = (stopSignals s).flash := by
    rw [frameV]
    rfl
  refine ⟨t, eq.symm, ?_, fatal, cause, detail.trans (Nat.mod_eq_of_lt (by omega)), ?_, ?_⟩
  · rw [mem]
    rw [flash] at frameT
    exact frameT.trans (congrArg (fun w : State => { w with day := t.day, twin := { w.twin with hbStopped := true }, flash := (stopSignals s).flash }) frameV)
  · exact (getBank_of_banks (congrArg Mem.banks mem) b).trans own
  · rw [mem, total]

/-- An engine whose memory failed at a beat (R333). -/
def engineDown (beat : Nat) (g : Engine) : Engine :=
  { g with st := if g.spare then .restarting else .stopped, resumeAt := beat + 2, spare := false, quarantine := min (g.quarantine + 1) 2, pending := Vector.replicate 16 0 }

/-- The state of an engine whose memory failed. -/
theorem engineMemError_stops {s : State} {u : Nat} (h : u < 4) : ∃ t, t = engineMemError s u ∧ t.mem = s.mem ∧
    (getEngine t u).st = (if (getEngine s u).spare then .restarting else .stopped) ∧
    (engineOwners s u = [] → t = { s with movers := t.movers } ∧ (getEngine t u).spare = false ∧ ∀ e, e ≠ u → getEngine t e = getEngine s e) := by
  obtain ⟨w, hw⟩ : ∃ w, w = (modEngine s u (engineDown s.beat)).updMovers fun m => { m with affected := satAdd m.affected (engineOwners s u).length } := ⟨_, rfl⟩
  have own : getEngine w u = engineDown s.beat (getEngine s u) := by
    rw [hw]
    exact getEngine_modEngine s h _
  have others : ∀ e, e ≠ u → getEngine w e = getEngine s e := fun e other => by
    rw [hw]
    exact getEngine_modEngine_ne s other _
  have frame : w = { s with movers := w.movers } := by
    rw [hw]
    rfl
  have eq : engineMemError s u = (engineOwners s u).foldl busEnd w := by
    rw [hw]
    rfl
  have still : hull ((engineOwners s u).foldl busEnd w) = hull w := foldl_hull (fun t c => busEnd_hull t c) _ _
  clear hw
  refine ⟨_, eq.symm, ?_, ?_, fun none_ => ?_⟩
  · have memory : ((engineOwners s u).foldl busEnd w).mem = w.mem := congrArg Hull.mem still
    rw [memory, frame]
  · have st : (getEngine ((engineOwners s u).foldl busEnd w) u).st = (getEngine w u).st := (congrArg Engine.st (bare_of_hull still h) :)
    rw [st, own]
    rfl
  · rw [none_]
    exact ⟨frame, congrArg Engine.spare own, others⟩

/-! ### Tests and repairs -/

theorem unitQuiet_cases {s : State} {b u : Nat} (quiet : unitQuiet s b u = true) : (s.day.day = .noon ∨ s.day.day = .dusk) ∧
    (b = 2 ∧ u < 128 ∧ (getOct s (u / 8)).st = .dark ∨ b = 3 ∧ u < 16 ∧ (∀ k ∈ s.media.bands, k.acc ≠ some u) ∨ b = 10 ∧ u < 8 ∧ vget s.mem.servHalted u false = false) := by
  unfold unitQuiet at quiet
  rw [Bool.and_eq_true, Bool.or_eq_true, beq_iff_eq, beq_iff_eq] at quiet
  refine ⟨quiet.1, ?_⟩
  replace quiet := quiet.2
  split at quiet
  · simp only [Bool.and_eq_true, decide_eq_true_eq, beq_iff_eq] at quiet
    exact .inl ⟨rfl, quiet⟩
  · simp only [Bool.and_eq_true, decide_eq_true_eq, Bool.not_eq_true', List.any_eq_false, beq_iff_eq] at quiet
    exact .inr (.inl ⟨rfl, quiet⟩)
  · simp only [Bool.and_eq_true, decide_eq_true_eq, Bool.not_eq_true'] at quiet
    exact .inr (.inr ⟨rfl, quiet⟩)
  · cases quiet

/-- The rows of a failing list that are of the unit under test. -/
def rowsOfTest (s : State) (f : List (Nat × Nat)) : List (Nat × Nat) :=
  f.filter fun k => macroBank k.1 == s.mem.testBank && macroUnit k.1 == s.mem.testUnit && decide (k.1 < 2048) && decide (k.2 < 132)

/-- The state after a test that passed, or whose failing rows were repaired or not. -/
def testEnded (s v : State) (passed repaired : Bool) : State :=
  (v.updMem fun m => { m with testState := if passed then 2 else if repaired then 3 else 4 }).updMedia fun x => { x with accTest := x.accTest.filter (· != s.mem.testUnit) }

theorem memTestDone_runs {s : State} (f : List (Nat × Nat)) (r : List Nat) (running : s.mem.testState = 1) (ended : testRunOver s = true) :
    exec (.memTestDone f r) s = .next (testEnded s (repairRows s (rowsOfTest s f) r).2 (rowsOfTest s f).isEmpty (repairRows s (rowsOfTest s f) r).1.isEmpty) :=
  congrArg Host.Outcome.next (if_neg (by simp [running, ended]))

theorem repairRows_none (s : State) (r : List Nat) : repairRows s [] r = ([], countRepairs s) := by
  have none_ : (r.filter fun m => !([] : List Nat).contains m && ([] : List (Nat × Nat)).any fun r => r.1 == m) = [] := by simp
  unfold repairRows
  simp only [List.filter_nil, List.map_nil, List.foldl_nil, none_, List.append_nil]
  rfl

/-- One row that fails, its array not failing again. -/
theorem repairRows_one {s : State} {m row : Nat} (r : List Nat) (small : row < 128) :
    repairRows s [(m, row)] r = (let w := repairRow (s, []) (m, row)
      let lost := w.2 ++ r.filter fun k => !w.2.contains k && ([(m, row)].any fun r => r.1 == k)
      (lost, countRepairs (lost.foldl beyondRepair w.1))) := by
  have same : (s.updMem fun m => { m with badSpares := m.badSpares ++ [] }) = s := by
    simp only [List.append_nil]
    rfl
  unfold repairRows
  have high : ([(m, row)].filter fun r => decide (128 ≤ r.2)) = [] := by simp [small]
  have low : ([(m, row)].filter fun r => decide (r.2 < 128)) = [(m, row)] := by simp [small]
  rw [high, low]
  dsimp only
  rw [List.map_nil, same]
  rfl

/-- What counting repairs leaves. -/
theorem countRepairs_keeps (s : State) : ∃ t, t = countRepairs s ∧ t = { s with mem := t.mem } ∧ t.mem.softRows = s.mem.softRows ∧ t.mem.fuseRows = s.mem.fuseRows ∧
    t.mem.chbufOut = s.mem.chbufOut := ⟨_, rfl, rfl, rfl, rfl, rfl⟩

theorem testEnded_keeps (s v : State) (passed repaired : Bool) : ∃ t, t = testEnded s v passed repaired ∧
    t = { v with mem := t.mem, media := { v.media with accTest := v.media.accTest.filter (· != s.mem.testUnit) } } ∧
    t.mem.testState = (if passed then 2 else if repaired then 3 else 4) ∧ t.mem.softRows = v.mem.softRows ∧ t.mem.fuseRows = v.mem.fuseRows ∧ t.mem.chbufOut = v.mem.chbufOut :=
  ⟨_, rfl, rfl, rfl, rfl, rfl, rfl⟩

theorem rowsOfTest_one {s : State} {m row : Nat} (small : m < 2048) (low : row < 128) (bank : macroBank m = s.mem.testBank) (unit : macroUnit m = s.mem.testUnit) :
    rowsOfTest s [(m, row)] = [(m, row)] := by
  simp [rowsOfTest, bank, unit, small, show row < 132 by omega]

/-- The unit of an array of the channel buffers is one of the 128 channels. -/
theorem macroUnit_chbuf {m : Nat} (bank : macroBank m = 2) : macroUnit m < 128 := by
  have below : m < 1056 := by
    refine Classical.byContradiction fun above => ?_
    have named : macroBank m = (((List.range 11).filter fun b => decide (bankBase b ≤ m)).getLast?).getD 0 := rfl
    have split_ : List.range 11 = [0, 1, 2] ++ ([3] ++ [4, 5, 6, 7, 8, 9, 10]) := by decide
    have three : decide (bankBase 3 ≤ m) = true := decide_eq_true (show 1056 ≤ m by omega)
    have kept : ([3].filter fun b => decide (bankBase b ≤ m)) = [3] := by rw [List.filter_cons, three]; rfl
    rw [split_, List.filter_append, List.filter_append, kept] at named
    obtain ⟨l, hl⟩ : ∃ l, l = [4, 5, 6, 7, 8, 9, 10].filter fun b => decide (bankBase b ≤ m) := ⟨_, rfl⟩
    have more : ∀ b ∈ l, 3 < b := fun b hb => by
      rw [hl] at hb
      have mem := (List.mem_filter.mp hb).1
      simp at mem
      omega
    rw [← hl, bank] at named
    rcases last : l.getLast? with - | b
    · rw [List.getLast?_eq_none_iff.mp last] at named
      simp at named
    · rw [List.getLast?_append, List.getLast?_append, last] at named
      have := more b (List.mem_of_getLast? last)
      simp at named
      omega
  unfold macroUnit
  rw [bank]
  show (m - 544) / 4 < 128
  omega

/-- A channel buffer with an array beyond repair goes out of service (R467). -/
theorem beyondRepair_chbuf {s : State} {m : Nat} (bank : macroBank m = 2) : ∃ t, t = beyondRepair s m ∧ t = { s with mem := t.mem } ∧
    vget t.mem.chbufOut (macroUnit m) false = true ∧ t.mem.softRows = s.mem.softRows ∧ t.mem.fuseRows = s.mem.fuseRows := by
  have eq : beyondRepair s m = Machine.modBank (s.updMem fun x => { x with chbufOut := vset x.chbufOut (macroUnit m) true }) 2
      fun k => { k with health := max k.health 1, inUse := k.inUse - 1 } := by
    unfold beyondRepair
    rw [bank]
    rfl
  refine ⟨_, rfl, ?_⟩
  rw [eq]
  exact ⟨rfl, vget_vset_same _ _ _ (macroUnit_chbuf bank), rfl, rfl⟩

/-- Settles O55: corrected and uncorrectable words, tests on request and repairs. -/
theorem onChipMemories : Obligations.OnChipMemories := by
  unfold Obligations.OnChipMemories
  refine ⟨?other, ?chbuf, ?counts, fun s b u n off => scrub_off off, ?uncorrectable, ?request, ?busy, fun s b u quiet => unitQuiet_cases quiet, ?early, ?done, ?passed, ?repaired, ?beyond⟩
  case other =>
    intro s b u n on h not2
    obtain ⟨own, others⟩ := scrubbed_bank (s := s) (n := n) h
    obtain ⟨v, hv, frame⟩ := scrubbed_frame s b n
    rw [← hv] at own others
    exact ⟨v, (scrub_runs on h).trans (congrArg Host.Outcome.next ((if_neg not2).trans hv.symm)), frame, own, others⟩
  case chbuf =>
    intro s u n on h
    obtain ⟨v, hv, frame⟩ := scrubbed_frame s 2 n
    have run : exec (.scrub 2 u n) s = .next (v.updMem fun m => { m with chbufCe := vset m.chbufCe u (min 2047 (vget m.chbufCe u 0 + n)) }) := by
      rw [hv]
      exact scrub_runs on (by decide)
    clear hv
    have counts : v.mem.chbufCe = s.mem.chbufCe := (congrArg (fun t : State => t.mem.chbufCe) frame :)
    refine ⟨_, run, ?_, ?_, fun d other => ?_⟩
    · exact congrArg (fun t : State => { t with mem := { t.mem with chbufCe := vset v.mem.chbufCe u (min 2047 (vget v.mem.chbufCe u 0 + n)) } }) frame
    · rw [← counts]
      exact vget_vset_same _ _ _ h
    · rw [← counts]
      exact vget_vset_ne _ _ _ other
  case counts =>
    intro s b u n on h
    have own := congrArg MemBank.ce (scrubbed_bank (s := s) (n := n) h).1
    obtain ⟨v, hv, frame⟩ := scrubbed_frame s b n
    have run := scrub_runs (u := u) (n := n) on h
    rw [← hv] at own run
    clear hv
    have total : v.mem.ceTotal = satAdd s.mem.ceTotal n := (congrArg (fun t : State => t.mem.ceTotal) frame :)
    have whole : v = { s with mem := v.mem } := (congrArg (fun t : State => { t with mem := v.mem }) frame :)
    split at run
    · exact ⟨_, run, (congrArg (fun t : State => { t with mem := { v.mem with chbufCe := vset v.mem.chbufCe u (min 2047 (vget v.mem.chbufCe u 0 + n)) } }) whole :), total, own⟩
    · exact ⟨_, run, whole, total, own⟩
  case uncorrectable =>
    intro s b u on h
    obtain ⟨v, hv, frame, ue, total⟩ := uncorrected_counts (s := s) h
    obtain ⟨run0, run1, runOther, runFatal, run7, run9⟩ := sramUncorrectable_runs (u := u) on h
    rw [← hv] at run0 run1 runOther runFatal run7 run9
    clear hv
    have kinds : b = 0 ∨ b = 1 ∨ (b = 2 ∨ b = 3 ∨ b = 5 ∨ b = 10) ∨ (b = 4 ∨ b = 6 ∨ b = 8) ∨ b = 7 ∨ b = 9 := by omega
    rcases kinds with is | is | is | is | is | is
    · refine ⟨_, run0 is, ue, total, fun _ => ?_, ?_, ?_, ?_, ?_, ?_, ?_, ?_⟩
      · exact congrArg (fun t : State => { t with xlat := { t.xlat with ways := t.xlat.ways.filter fun w => decide (0 < w.pins) || w.line != u } }) frame
      all_goals omega
    · refine ⟨_, run1 is, ue, total, ?_, fun _ => ?_, ?_, ?_, ?_, ?_, ?_, ?_⟩
      · omega
      · exact congrArg (fun t : State => { t with xlat := { t.xlat with ways := t.xlat.ways.filter fun w => decide (0 < w.pins) || w.set != u } }) frame
      all_goals omega
    · refine ⟨_, runOther is, ue, total, ?_, ?_, fun _ => frame, ?_, ?_, ?_, ?_, ?_⟩
      all_goals omega
    · obtain ⟨t, ht, frameT, fatal, cause, detail, bank, totalT⟩ := memFatal_stops (s := v) h
      rw [← ht] at runFatal
      refine ⟨t, runFatal is, ?_, totalT.trans total, ?_, ?_, ?_, ?_, ?_, fun _ => ⟨?_, fatal, cause, detail, congrArg MemBank.health bank⟩, ?_, ?_⟩
      · exact (congrArg MemBank.ue bank).trans ue
      case refine_7 =>
        clear ht
        rw [frame] at frameT
        exact frameT
      all_goals omega
    · obtain ⟨y, hy⟩ : ∃ y, y = zeroVault v := ⟨_, rfl⟩
      have zeroed : y = { v with sec := y.sec } ∧ y.sec.nskeys = [] ∧ y.sec.vaultZero = true ∧ y.sec.life = v.sec.life ∧ y.sec.fwKeys = v.sec.fwKeys := by
        rw [hy]
        exact ⟨rfl, rfl, rfl, rfl, rfl⟩
      rw [← hy] at run7
      clear hy
      obtain ⟨frameY, keys, zero, life, fw⟩ := zeroed
      obtain ⟨t, ht, frameT, fatal, cause, detail, bank, totalT⟩ := memFatal_stops (s := y) (b := 7) (by decide)
      rw [← ht] at run7
      clear ht
      have sec : t.sec = y.sec := (congrArg State.sec frameT :)
      have mem : y.mem = v.mem := (congrArg State.mem frameY :)
      have was : v.sec = s.sec := (congrArg State.sec frame :)
      have bank7 : getBank y b = getBank v b := congrArg (fun m : Mem => vget m.banks b MemBank.init) mem
      refine ⟨t, run7 is, ?_, totalT.trans ((congrArg Mem.ueTotal mem).trans total), ?_, ?_, ?_, ?_, ?_, ?_, fun _ => ⟨?_, fatal, cause, detail, ?_, ?_, ?_, ?_⟩, ?_⟩
      · rw [is] at ue bank7 ⊢
        exact (congrArg MemBank.ue bank).trans ((congrArg MemBank.ue bank7).trans ue)
      case refine_8 =>
        rw [frameY, frame] at frameT
        rw [sec]
        exact frameT
      case refine_9 => rw [sec, keys]
      case refine_10 => rw [sec, zero]
      case refine_11 => rw [sec, life, was]
      case refine_12 => rw [sec, fw, was]
      all_goals omega
    · have run := run9 is
      by_cases inside : u < 4
      · rw [if_pos inside] at run
        obtain ⟨t, ht, mem, st, alone⟩ := engineMemError_stops (s := v) inside
        rw [← ht] at run
        clear ht
        have engines : ∀ e, getEngine v e = getEngine s e := fun e => by rw [frame]; rfl
        rw [engines] at st
        refine ⟨t, run, ?_, ?_, ?_, ?_, ?_, ?_, fun _ _ => st, ?_, ?_, fun _ _ none_ => ?_⟩
        · rw [mem]
          exact ue
        · rw [mem]
          exact total
        case refine_9 =>
          have none_ : engineOwners v u = [] := by
            rw [frame]
            exact none_
          obtain ⟨frameT, spare, others⟩ := alone none_
          refine ⟨?_, st, spare, fun e other => (others e other).trans (engines e)⟩
          rw [mem]
          exact frameT.trans (congrArg (fun w : State => { w with movers := t.movers }) frame)
        all_goals omega
      · rw [if_neg inside] at run
        refine ⟨v, run, ue, total, ?_, ?_, ?_, fun _ _ => frame, ?_, ?_, ?_, ?_⟩
        all_goals omega
  case request =>
    intro s c x i v u waits idle hu
    refine congrArg Host.Outcome.next ?_
    rw [waits]
    refine (if_neg idle).trans (congrArg (fun t => setDone t c St.ok 0) ?_)
    rw [hu]
    split
    · rfl
    · rfl
  case busy =>
    intro s c x i v waits busy
    refine congrArg Host.Outcome.next ?_
    rw [waits]
    exact if_pos busy
  case early =>
    exact fun s f r why => congrArg Host.Outcome.next (if_pos (by simpa using why))
  case done =>
    intro s f r mine running ended hm
    rw [hm]
    exact memTestDone_runs f r running ended
  case passed =>
    intro s r running ended
    have run := memTestDone_runs [] r running ended
    rw [show rowsOfTest s [] = [] from rfl, repairRows_none] at run
    obtain ⟨v, hv, frame, soft, fuses, -⟩ := countRepairs_keeps s
    rw [← hv] at run
    obtain ⟨t, ht, frameT, state, softT, fusesT, -⟩ := testEnded_keeps s v true true
    refine ⟨t, ?_, ?_, state, softT.trans soft, fusesT.trans fuses⟩
    · rw [ht]
      exact run
    · clear ht hv
      rw [frame] at frameT
      exact frameT
  case repaired =>
    intro s m row k r running ended small low bank unit free again
    have run := memTestDone_runs [(m, row)] r running ended
    have fix_ : repairRow (s, []) (m, row) = (s.updMem fun x => { x with softRows := x.softRows ++ [{ bank := macroBank m, mac := m, row := row, spare := k }] }, []) := by
      unfold repairRow
      rw [free]
    have none_ : (r.filter fun j => !(([] : List Nat).contains j) && ([(m, row)].any fun r => r.1 == j)) = [] := by
      rw [List.filter_eq_nil_iff]
      intro j hj
      have : j ≠ m := fun same => by simp [← same, hj] at again
      simp [Ne.symm this]
    obtain ⟨w, hw⟩ : ∃ w, w = s.updMem fun x => { x with softRows := x.softRows ++ [{ bank := macroBank m, mac := m, row := row, spare := k }] } := ⟨_, rfl⟩
    have first : w = { s with mem := w.mem } ∧ w.mem.softRows = s.mem.softRows ++ [{ bank := macroBank m, mac := m, row := row, spare := k }] ∧ w.mem.fuseRows = s.mem.fuseRows := by
      rw [hw]
      exact ⟨rfl, rfl, rfl⟩
    obtain ⟨frameW, softW, fusesW⟩ := first
    obtain ⟨v, hv, frame, soft, fuses, -⟩ := countRepairs_keeps w
    have all_ : repairRows s [(m, row)] r = ([], v) := by
      rw [repairRows_one r low, fix_, hv, hw]
      dsimp only
      rw [none_]
      rfl
    rw [rowsOfTest_one small low bank unit, all_] at run
    obtain ⟨t, ht, frameT, state, softT, fusesT, -⟩ := testEnded_keeps s v false true
    refine ⟨t, ?_, state, ?_, fusesT.trans (fuses.trans fusesW), ?_, ?_⟩
    · rw [ht]
      exact run
    · rw [softT, soft, softW, bank]
    · have media : v.media = s.media := (congrArg State.media (frame.trans (congrArg (fun u : State => { u with mem := v.mem }) frameW)) :)
      rw [← media]
      exact (congrArg State.media frameT :)
    · have day : v.day = s.day := (congrArg State.day (frame.trans (congrArg (fun u : State => { u with mem := v.mem }) frameW)) :)
      exact (congrArg State.day frameT :).trans day
  case beyond =>
    intro s m row r running ended small low bank unit free two
    have run := memTestDone_runs [(m, row)] r running ended
    have fix_ : repairRow (s, []) (m, row) = (s, [m]) := by
      unfold repairRow
      rw [free]
      rfl
    have none_ : (r.filter fun j => !([m].contains j) && ([(m, row)].any fun r => r.1 == j)) = [] := by
      rw [List.filter_eq_nil_iff]
      intro j _
      by_cases same : m = j <;> simp [same]
    obtain ⟨w, hw, frameW, out, softW, fusesW⟩ := beyondRepair_chbuf (s := s) two
    obtain ⟨v, hv, frame, soft, fuses, outV⟩ := countRepairs_keeps w
    have all_ : repairRows s [(m, row)] r = ([m], v) := by
      rw [repairRows_one r low, fix_, hv, hw]
      dsimp only
      rw [none_]
      rfl
    rw [rowsOfTest_one small low bank unit, all_] at run
    obtain ⟨t, ht, frameT, state, softT, fusesT, outT⟩ := testEnded_keeps s v false false
    refine ⟨t, ?_, state, ?_, softT.trans (soft.trans softW), ?_⟩
    · rw [ht]
      exact run
    · rw [outT, outV]
      exact out
    · have day : v.day = s.day := (congrArg State.day (frame.trans (congrArg (fun u : State => { u with mem := v.mem }) frameW)) :)
      exact (congrArg State.day frameT :).trans day

end Sys2Proof.Proofs

end


section

/-! PROOF. The obligation on Night and Midnight fails: a module in Midnight that a wake already runs in takes no other (R438). -/

namespace Sys2Proof.Proofs

open Sys2Proof Sys2Proof.Machine Sys2Proof.Safety Sys2Proof.Laws

/-- A module in Midnight, its always-on domain powered, in which a wake is marked as running. -/
def wakingMidnight : State :=
  { State.reset with day := { State.reset.day with day := .midnight, waking := true }, power := { State.reset.power with aonPowered := true, lost := false, llAt := none } }

theorem wakingMidnight_asleep : wakeEnabled wakingMidnight 1 = true ∧ wakingMidnight.sec.tamperAt = none ∧ hotStopped wakingMidnight = false ∧ wakingMidnight.therm.hotAt = none ∧
    wakingMidnight.day.sealed = none := by decide +kernel

/-- WAKE_N does nothing there: the wake that runs is not begun again. -/
theorem wakeNLow_wakingMidnight : ∃ t, exec .wakeNLow wakingMidnight = .next t ∧ t.day.day = .midnight := ⟨_, rfl, by decide +kernel⟩

/-- Refutes O56: from wakingMidnight the enabled wake source WAKE_N does not begin Dawn. -/
theorem not_nightAndMidnight : ¬ Obligations.NightAndMidnight := by
  unfold Obligations.NightAndMidnight
  rintro ⟨-, -, -, -, -, -, -, -, -, -, -, -, -, -, -, -, -, -, -, wakes, -⟩
  obtain ⟨enabled, tamper, cool, hot, sealed⟩ := wakingMidnight_asleep
  obtain ⟨t, run, ⟨-, day, -⟩, -⟩ := ((wakes wakingMidnight .wakeNLow 1 (.inl ⟨rfl, rfl⟩) enabled rfl rfl tamper rfl).1 cool hot sealed).2.1 rfl
  obtain ⟨t', run', stays⟩ := wakeNLow_wakingMidnight
  cases run.symm.trans run'
  rw [day] at stays
  cases stays

end Sys2Proof.Proofs

end


section

/-! PROOF. The obligation on the steps of Dawn fails: where the next key epoch is 0, a fresh key start leaves the system key at epoch 0 (R511). -/

namespace Sys2Proof.Proofs

open Sys2Proof Sys2Proof.Machine Sys2Proof.Safety Sys2Proof.Laws

/-- A lit module at step 4 of Dawn that has no system key and would give the next key epoch 0. -/
def epochlessDawn : State :=
  { State.reset with day := { State.reset.day with day := .dawn, step := 4, fatal := false }, power := { State.reset.power with aonPowered := true, lost := false, llAt := none }, sec := { State.reset.sec with epochNext := 0 } }

/-- Random bytes whose halves differ. -/
def mixedBytes : List Byte := List.replicate 32 1 ++ List.replicate 32 2

theorem epochlessDawn_due : dawnAt epochlessDawn 4 = true ∧ keyOk mixedBytes = true ∧ freshDue (reloadLib (migrate epochlessDawn epochlessDawn.nor.active)) = true := by decide +kernel

/-- The fresh key start gives the system key the epoch 0. -/
theorem dawnLogic_epochlessDawn : ∃ t, exec (.dawnLogic true mixedBytes) epochlessDawn = .next t ∧ t.sec.sysEpoch = 0 := ⟨_, rfl, by decide +kernel⟩

/-- Refutes O57: the fresh key start of epochlessDawn leaves SYSEPOCH 0. -/
theorem not_dawnSteps : ¬ Obligations.DawnSteps := by
  unfold Obligations.DawnSteps
  rintro ⟨-, -, -, -, -, -, -, -, -, -, -, -, -, -, -, -, -, logic, -⟩
  obtain ⟨at_, ok, due⟩ := epochlessDawn_due
  obtain ⟨-, t, run, -, -, -, -, fresh⟩ := logic epochlessDawn _ mixedBytes at_ rfl fun _ => ok
  obtain ⟨t', run', none_⟩ := dawnLogic_epochlessDawn
  cases run.symm.trans run'
  exact (fresh due).2.2.2 none_

end Sys2Proof.Proofs

end


section

/-! PROOF. The state after reset. -/

namespace Sys2Proof.Proofs

open Sys2Proof Sys2Proof.Machine Sys2Proof.Safety Sys2Proof.Laws

/-- No setting is stored at reset: each holds its table's value (R75). -/
theorem nvVal_reset {id : Nat} {r : Setting} (found : findSetting id = some r) : nvVal State.reset id = r.reset := by
  unfold nvVal
  rw [found]
  rfl

/-- Nothing waits and no fuse is burned but those of a module sealed at the factory. -/
theorem invariant_reset : Invariant State.reset where
  queue := fun _ mem => absurd mem List.not_mem_nil
  tampers := Nat.zero_le 32
  repairs := Nat.zero_le 256
  bench := fun _ => rfl

/-- Settles O58: the state after reset. -/
theorem resetState : Obligations.ResetState := by
  unfold Obligations.ResetState
  exact ⟨rfl, rfl, rfl, rfl, rfl, rfl, rfl, rfl, rfl, rfl, rfl, rfl, rfl, rfl, rfl, rfl, fun _ _ found => nvVal_reset found, invariant_reset⟩

end Sys2Proof.Proofs

end
